-- ==== Sys2Proof/Word.lean ====
section
/-! DEFINITION. The machine's word types and their plainest arithmetic. -/

namespace Sys2Proof

/-- A register, an SRAM word, a sequencer register (R290, R460): 32 bits. -/
abbrev Word := BitVec 32

/-- The smallest unit of data SRAM, of messages and of log records. -/
abbrev Byte := BitVec 8

/-- One bit as a number. -/
def bitNat (b : Bool) : Nat := if b then 1 else 0

/-- The larger of zero and the integer, as a natural number. -/
def posPart (i : Int) : Nat := i.toNat

end Sys2Proof
end

