-- ==== Sys2Proof/Syntax.lean ====
section
/-! DEFINITION. The commands of the block: one constructor per row of spec/opcode_table.json. The rows give no operands;
the operands here are what the rule of the row says the operation is given, or what reaches the device from outside. -/

namespace Sys2Proof


/-! ### Operands: the line -/

/-- What the link partner's pages carried (R78 to R84). -/
structure Exchange where
  /-- The base page set Extended Next Page ability (R79). -/
  extNextPage : Bool
  /-- BASE-T rates the partner advertised, coded as AN_ADV.base_t. -/
  baseT : BitVec 5
  /-- The 32-bit field of an S1 page (R80). -/
  s1 : Option Word
  /-- The capability word of an S2 page (R81). -/
  s2 : Option Word
  /-- The partner's MASTER/SLAVE setting, coded as AN_CFG.ms_cfg. -/
  role : BitVec 2
  /-- The outcome of the seed comparison where both ends are automatic and of one kind: this end is MASTER. -/
  seedMaster : Bool
  /-- Fast retrain advertised by the partner. -/
  fastRetrain : Bool
  /-- EEE rates advertised by the partner, coded as LPI_CFG.eee_adv. -/
  eee : BitVec 5
deriving DecidableEq, Repr

/-- What a training phase found (R87, R164). -/
structure PhaseResult where
  /-- Margin of each pair in use at the end of phase 4, in 0.01 dB (R89). -/
  margins : List (Fin 4 × Int)
  /-- Coefficients that the phase leaves in a pair's dedicated filters or that the partner sent, by index of the
  coefficient window (R56, R63, R467). -/
  coefs : List (Fin 4 × Nat × BitVec 18)
  /-- SNR of each data tone in 0.01 dB (R157). -/
  tones : List (Fin 4 × Fin 4096 × Int)
  /-- PGA gains training sets, in steps of 0.5 dB (R57). -/
  pga : List (Fin 4 × Fin 49)
  /-- Crossover and inversions the receive path corrects (R68). -/
  mdix : Bool
  polInv : BitVec 4
deriving DecidableEq, Repr

/-- One step of a dedicated filter's adaptation (R64): pair, coefficient index, slicer error, aligned sample. -/
structure LmsStep where
  pair : Fin 4
  index : Nat
  error : Int
  sample : Int
deriving DecidableEq, Repr

/-- The state of a link partner's port as a probe answer gives it (R97, R206). -/
inductive PartnerPort where
  | seekingLink | portOff | training | dataMode | busMode
deriving DecidableEq, Repr

/-- Which of a port's two code sets a computed code belongs to (R120, R121). -/
inductive CodeSet where
  | transmit | window
deriving DecidableEq, Repr

/-- Message types of the Reach overhead channel that change the loading: one entry of a bit-swap request (R154). -/
structure SwapEntry where
  pair : Fin 4
  tone : Fin 4096
  bits : Fin 13
deriving DecidableEq, Repr

/-- One aggressor's measured coupling into a victim pair (R142). -/
structure Coupling where
  aggressor : Fin 128
  loss : BitVec 10
  peak : BitVec 11
  blocks99 : BitVec 5
  nr : BitVec 10
deriving DecidableEq, Repr

/-- The relative change of one filter against its snapshot at a wander-guard judgement (R266), in 0.01 dB. -/
structure FilterChange where
  /-- 1 echo, 2 NEXT, 3 FFE, 4 pool (LPI_STATUS.wg_filter). -/
  filter : Fin 5
  pair : Fin 4
  change : Int
deriving DecidableEq, Repr

/-- What a cable test found on one pair (R233, R239). -/
structure PairDiag where
  status : BitVec 3
  more : Bool
  xpair : Fin 4
  gamma : BitVec 8
  distance : BitVec 16
deriving DecidableEq, Repr

/-- What the decoder made of an LDPC frame (R69, R70): its last field is the number of error blocks sent in its place. -/
inductive FrameResult where
  | clean | corrected | failed (errorBlocks : Nat)
deriving DecidableEq, Repr

/-- What the decoder made of an RS codeword of Reach mode (R155, R221): bytes corrected, or the number of error blocks. -/
inductive WordResult where
  | decoded (bytes : Fin 9)
  | failed (errorBlocks : Nat)
deriving DecidableEq, Repr

/-- A reflection beyond the dead zone (R224): level in 0.5 dB below the launch, distance in 0.1 m. -/
structure Reflection where
  pair : Fin 4
  level : BitVec 8
  distance : BitVec 16
deriving DecidableEq, Repr

/-- What a port measured on one pair in the preceding revolution (R76, R226 to R229). -/
structure PairObs where
  pair : Fin 4
  /-- SNR in 0.01 dB, where the port decides symbols (R76). -/
  snr : Option Int
  /-- Insertion loss at 10 MHz in 0.1 dB, where there is a measurement (R227). -/
  il10 : Option (BitVec 11)
  /-- Skew in 0.25 ns (R228). -/
  skew : BitVec 8
  /-- Largest intra-port coupling in 0.5 dB below the launch, 0 for none (R226). -/
  nextMax : BitVec 8
  /-- A noise measurement: band as NOISE.band codes it, and power in 0.01 dBm (R229). -/
  noise : Option (BitVec 2 × Int)
  /-- Gain of the pool for this pair as NC_PAIR.gain gives it (R146). -/
  poolGain : BitVec 12
deriving DecidableEq, Repr

/-- What a port measured in the preceding revolution. -/
structure PortObs where
  port : Fin 32
  pairs : List PairObs
  reflections : List Reflection
  /-- Receive-error code groups of 1000BASE-T and 100BASE-TX (R221). -/
  rxErrors : Nat
  /-- Adaptation steps of the dedicated filters, in order (R64). -/
  lms : List LmsStep
  /-- Averaged SNR of data tones in 0.01 dB (R160). -/
  tones : List (Fin 4 × Fin 4096 × Int)
  /-- The capacity of R166 in thousandths of a bit. -/
  capacity : Nat
deriving DecidableEq, Repr

/-- One tone of a loading table: bits, and the SNR in 0.01 dB its margin is counted from (R157, R159). -/
structure ToneLoad where
  pair : Fin 4
  tone : Fin 4096
  bits : Fin 13
  snr : Int
deriving DecidableEq, Repr

/-- The statistics of a calibration visit (R246, R254) and the errors it estimates (R241). -/
structure VisitObs where
  /-- Fewest samples of an active sub-converter. -/
  samples : Nat
  /-- Mean variance, in 0.01 dB below ADC full scale. -/
  varianceBelow : Int
  /-- Mean normalised fourth moment and spectral flatness, in thousandths. -/
  kurtosis : Nat
  flatness : Nat
  /-- Estimated errors by element, in units of its trims: skew, gain, and offset or cell current. -/
  errors : List (Fin 90 × Int × Int × Int)
  /-- Residual interleave error in 0.5 dB below the signal (R254), and the element with the largest share. -/
  rie : BitVec 8
  worst : Fin 90
deriving DecidableEq, Repr

/-- How a self-test pattern run ended (R436): patterns counted, count expected, signature match. -/
structure TestRun where
  count : Nat
  expected : Nat
  signature : Bool
deriving DecidableEq, Repr

/-- An alignment marker received on a Mequel lane (R277, R281). -/
structure Marker where
  crcGood : Bool
  lane : BitVec 8
  /-- One byte per stream. -/
  portMap : Vector (BitVec 8) 4
  timestamp : BitVec 64
  /-- DEV_TIME of the first pattern bit at the pins, in sixteenths of a UI of 37.647 ps. -/
  arrival : Nat
  /-- Slips that would bring the framing onto this pattern, in UI (R280). -/
  seenOffset : Fin 696320
deriving DecidableEq, Repr

/-- What the RS decoder of a Mequel lane made of a codeword (R282). -/
inductive CodewordResult where
  | clean | corrected | uncorrectable
deriving DecidableEq, Repr

/-- A fault signal of the host on a stream, or its end (R283). -/
inductive HostFault where
  | localFault | remoteFault | none
deriving DecidableEq, Repr

/-- What a lane's monitor measured over a revolution (R288, R289). -/
structure EyeObs where
  lane : Fin 32
  /-- Eye width in 1/256 UI and height in 2 mV. -/
  width : BitVec 8
  height : BitVec 8
  /-- Errored blocks and invalid sync headers of a 10GBASE-R lane. -/
  errored : Nat
  invalid : Nat
deriving DecidableEq, Repr

/-- What the scrubber found in a word (R334). -/
inductive ScrubResult where
  | good | corrected | uncorrectable
deriving DecidableEq, Repr

/-- How a Memory Read request of the device ended (R346): with its data, or with an error of the host. -/
inductive ReadResult where
  | data (bytes : List Byte)
  | error
deriving DecidableEq, Repr

/-- A Sideshow frame whose sync word is on the line: bit errors of the sync word, RSSI in 0.5 dB above -100 dBm, the header
as corrected with the number of its bit errors, the payload as corrected with the byte errors of each codeword sent (R181,
R182, R188). -/
structure RxFrame where
  syncErrors : Nat
  rssi : Nat
  header : BitVec 64
  headerErrors : Nat
  payload : List Byte
  wordErrors : List Nat
deriving DecidableEq, Repr

/-- What happens in a reception, in the order of time (R188): a sync word completes, the current header ends, the last coded
byte of the current payload ends. -/
inductive RxStep where
  | sync (f : RxFrame)
  | headerEnd
  | payloadEnd
deriving DecidableEq, Repr

/-- A beacon as received (R204). -/
structure Beacon where
  origin : Nat
  power : Nat
  interval : Nat
  idTag : Nat
deriving DecidableEq, Repr

/-- What an OTP programming that did not verify has left (R364): the fuses that were written of the field concerned. -/
structure FuseLeft where
  hash : BitVec 512
  enrolled : Bool
  revoked : Bool
  sealBits : BitVec 2
  count : Nat
deriving DecidableEq, Repr

/-- How a rail's request failed (R426). -/
inductive RailFault where
  | timeout | nack | pec
deriving DecidableEq, Repr

/-- What a start finds (R434, R355): the OTP could be read, the identity key could be derived from the PUF, the known-answer tests
passed. What the firmware chooses: where each module stands in instruction memory, the addresses of the snapshot and of
checkpoints in data SRAM, and its default wheel in the form of a Nelno image. -/
structure StartInfo where
  otpGood : Bool
  idGood : Bool
  katGood : Bool
  places : List Nat
  snapAddr : BitVec 23
  ckptAddr : BitVec 23
  wheel : List (BitVec 8)
deriving DecidableEq, Repr

/-- The PCIe endpoint as the link partner and the host's configuration writes have left it: link up, MSI-X Enable, Function Mask,
D3hot (R381, R429). -/
structure LinkConfig where
  up : Bool
  msixEnable : Bool
  functionMask : Bool
  d3hot : Bool
deriving DecidableEq, Repr

/-- The double-buffered blocks (R32). -/
inductive BankBlock where
  | port (n : Fin 32)
  | jug | ss | trip | cal | bist | perf | wheel
deriving DecidableEq, Repr

/-- A core issues: the core, and the issue cycles the instruction holds it, as a sample records them (R405). -/
structure Issue where
  core : Fin 4
  latency : BitVec 16
deriving DecidableEq, Repr

/-- The comparisons of CMP and CMPI (R300). -/
inductive Cmp where
  | eq | lt | ltu
deriving DecidableEq, Repr


/-- A command (a row of the table of operations and events). -/
inductive Instr where
  /-- SLOT_BOUNDARY (R20): Every 250 ns the assignments of the next slot are latched from the active bank and cores switch or keep their tasks. -/
  | slotBoundary
  /-- REVOLUTION_BOUNDARY (R27): Every 1.024 ms the revolution count advances and all boundary actions run, including the state snapshot. -/
  | revolutionBoundary (ports : List PortObs) (eyes : List EyeObs) (temps : Vector (BitVec 16) 8)
  /-- SCRUB_ACCESS (R334): In cycle 124 of a slot the scrubber reads an unowned bank's next word and rewrites it if corrected. -/
  | scrubAccess (bank : Fin 16) (found : ScrubResult)
  /-- LOG_SCRUB_ACCESS (R389): The log SRAM scrubber reads its next words and marks records with uncorrectable words bad. -/
  | logScrubAccess (bad : List (Fin 64))
  /-- AON_TICK (R16): A 32.768 kHz tick advances DEV_TIME while the system PLL is off and lets the Ringmaster take requests, wakes and PWR writes. -/
  | aonTick (linear : BitVec 4)
  /-- RTC_SECOND (R53): At each RTC second boundary, summary AUDIT records for refusals of the past second are written. -/
  | rtcSecond
  /-- HOST_REGISTER_WRITE (R30): A host write to a register without a row of its own is judged field by field, range-checked, clamped, flagged or refused. -/
  | hostRegisterWrite (a : BitVec 24) (parts : List (BitVec 4 × Word)) (fuse : Option FuseLeft)
  /-- RC_READ (R42): A read of an RC register returns the value and clears the bits in the bytes returned. -/
  | rcRead (a : BitVec 24) (parts : List (BitVec 4))
  /-- COUNTER_LOW_READ (R44): A 32-bit read of a counter's low word latches its high word for the next high-word read. -/
  | counterLowRead (a : BitVec 24)
  /-- BIT_ALIAS_WRITE (R49): A write to the alias window sets or clears one core-region bit from data bit 0. -/
  | bitAliasWrite (word : BitVec 12) (bit : Fin 32) (v : Bool)
  /-- BANK_COMMIT (R33): Writing BANK_CTRL.commit sets pending so that the shadow bank becomes active at the next revolution boundary. -/
  | bankCommit (b : BankBlock)
  /-- CLAMP_POP (R39): Writing CHIP.CLAMP_CTRL.pop removes the head entry of the clamp log. -/
  | clampPop
  /-- MDIO_WINDOW_READ (R48): Writing 1 to MMD 30 CMD starts a 32-bit read of the BAR0 offset in ADDR_LO and ADDR_HI. -/
  | mdioWindowRead
  /-- MDIO_WINDOW_WRITE (R48): Writing 2 to MMD 30 CMD starts a 32-bit write of DATA_LO and DATA_HI to the BAR0 offset. -/
  | mdioWindowWrite
  /-- MDIO_WINDOW_ACCESS_DONE (R48): A window access completes, STATUS bit 0 clears and any bus error is captured. -/
  | mdioWindowAccessDone (fuse : Option FuseLeft)
  /-- MDIO_STANDARD_WRITE (R471): A write to a mapped bit of MMD 1, 3 or 7 writes the shadow field and commits the port bank, or acts as the mapped command. -/
  | mdioStandardWrite (n mmd : Fin 32) (reg v : BitVec 16)
  /-- LATCH_LOW_READ (R471): A read of a latching-low status bit returns it and restores it to its source's present value. -/
  | latchLowRead (n mmd : Fin 32) (reg : BitVec 16)
  /-- LDPC_FRAME_DECODE (R69): A received LDPC frame is decoded and released 640 ns after its last symbol and counted. -/
  | ldpcFrameDecode (n : Fin 32) (iterations : Fin 8) (result : FrameResult) (frames : Nat)
  /-- PARTNER_PULSES_SEEN (R101): In ABILITY, partner fast link pulses start the page exchange. -/
  | partnerPulsesSeen (n : Fin 32)
  /-- IDLE_DETECTED (R83): 100BASE-TX idle without pulses is found by parallel detection and trained if allowed. -/
  | idleDetected (n : Fin 32)
  /-- PAGE_EXCHANGE_COMPLETE (R82): On completion of the page exchange the port resolves mode and rate, or enters HOLD_DOWN or BREAK. -/
  | pageExchangeComplete (n : Fin 32) (ex : Exchange)
  /-- BREAK_LINK_TIMER (R101): Expiry of the break_link_timer moves the port from BREAK to ABILITY. -/
  | breakLinkTimer (n : Fin 32)
  /-- AUTONEG_WAIT_TIMER (R101): Expiry without progress in PAGES records last_fail 5 and enters BREAK. -/
  | autonegWaitTimer (n : Fin 32)
  /-- LINK_FAIL_INHIBIT_TIMER (R89): Expiry before receiver status OK fails the training with last_fail 2. -/
  | linkFailInhibitTimer (n : Fin 32)
  /-- TRAIN_PHASE_END (R87): A training phase completes; at the end of phase 4 every pair's margin is judged. -/
  | trainPhaseEnd (n : Fin 32) (r : PhaseResult)
  /-- RECEIVER_STATUS_OK (R101): Receiver status OK at both ends takes the port to DATA and raises event 6n. -/
  | receiverStatusOk (n : Fin 32)
  /-- PARTNER_LOST (R491): No energy on any pair for t_plost takes the link down with last_fail 1 and enters ABILITY. -/
  | partnerLost (n : Fin 32)
  /-- LINK_STATUS_FAILURE (R491): A link-status failure with energy present takes the link down with last_fail 11 through BREAK. -/
  | linkStatusFailure (n : Fin 32)
  /-- ADVERTISEMENT_RESTORE (R93): After 3 s without energy on a downshifted port, the saved advertisement is restored. -/
  | advertisementRestore (n : Fin 32)
  /-- PARTNER_ENERGY_RETURN (R101): Partner energy returning after loss takes a HOLD_DOWN port to BREAK. -/
  | partnerEnergyReturn (n : Fin 32)
  /-- PROBE_S_TIMER (R94): probe_s seconds without a partner in ABILITY start a Sideshow probe. -/
  | probeSTimer (n : Fin 32)
  /-- PROBE_TIMEOUT (R94): A probe try without an answer after t_prb is retried or ends with no answer. -/
  | probeTimeout (n : Fin 32)
  /-- PROBE_ANSWER (R206): A received probe answer ends the probe and records the partner's port state. -/
  | probeAnswer (n : Fin 32) (partner : PartnerPort)
  /-- PROBE_REQUEST (R206): A received link-local probe request is answered with the receiving port's state. -/
  | probeRequest (n : Fin 32)
  /-- CABLE_TEST_END (R234): The cable test's last correlation ends and the pair results and PROBE_STATUS are written. -/
  | cableTestEnd (n : Fin 32) (results : List PairDiag)
  /-- CABLE_TEST_STOP (R232): Energy or the port leaving CABLE_TEST stops a cable test with cable 6. -/
  | cableTestStop (n : Fin 32) (classified : List PairDiag)
  /-- CABLE_TEST (R230): PORT_CMD.cable_test runs, queues, waits or refuses a cable test depending on the port's state. -/
  | cableTest (n : Fin 32)
  /-- FAST_RETRAIN (R98): PORT_CMD.fast_retrain requests a fast retrain, or a full retrain where none was negotiated. -/
  | fastRetrain (n : Fin 32)
  /-- AN_RESTART (R103): PORT_CMD.an_restart takes the link down and renegotiates with last_fail 9. -/
  | anRestart (n : Fin 32)
  /-- RESTART (R104): PORT_CMD.restart requests a port restart at the next revolution boundary. -/
  | restart (n : Fin 32)
  /-- PARTNER_RETRAIN_REQUEST (R98): A fast-retrain request from the partner starts a fast retrain. -/
  | partnerRetrainRequest (n : Fin 32)
  /-- FAST_RETRAIN_COMPLETE (R99): The fast retrain completes and the port returns to DATA. -/
  | fastRetrainComplete (n : Fin 32) (coefs : List (Fin 4 × Fin 48 × BitVec 18))
  /-- FAST_RETRAIN_TIMEOUT (R99): A fast retrain exceeding t_fr becomes a full retrain with last_fail 8. -/
  | fastRetrainTimeout (n : Fin 32)
  /-- TRIP_SLOT_RECEIVED (R110): A received trip slot is judged as accepted code, good heartbeat, damaged slot or wrong code. -/
  | tripSlotReceived (n : Fin 32) (word : BitVec 64)
  /-- HEARTBEAT_WATCHDOG (R111): Expiry of the two-frame watchdog sets hb_lost and raises event 6n + 2. -/
  | heartbeatWatchdog (n : Fin 32)
  /-- TRIP_SLOT_SEND (R108): Each frame's slot is sent carrying a burst code or the heartbeat word, advancing seq and the LFSR. -/
  | tripSlotSend (n : Fin 32)
  /-- TRIP_IN_EDGE (R123): An asserting filtered edge on TRIP_IN issues launch requests on its mapped ports. -/
  | tripInEdge (i : Fin 8)
  /-- TRIP_CODE_COMPUTED (R120): A newly computed transmit or window code becomes ready, releasing a waiting burst. -/
  | tripCodeComputed (n : Fin 32) (set : CodeSet)
  /-- TRIP_OUT_HOLD_EXPIRY (R124): The hold_ms hold of a TRIP_OUT ends and the output follows its remaining conditions. -/
  | tripOutHoldExpiry (j : Fin 8)
  /-- TRIP_OUT_RELEASE (R125): TRIP.OUT_CMD.release ends the latch of an output. -/
  | tripOutRelease (mask : BitVec 8)
  /-- SIDESHOW_TRIP_MESSAGE (R216): A received Sideshow trip message is judged against the acceptance window and acts as an accepted code. -/
  | sideshowTripMessage (n : Fin 32) (body : BitVec 64)
  /-- SESSION_OFFER (R371): A received OFFER is verified by the responder, which encapsulates and sends ACCEPT. -/
  | sessionOffer (n : Fin 32) (m : List Byte)
  /-- SESSION_ACCEPT (R371): A received ACCEPT is verified and decapsulated by the initiator, which derives the key and sends CONFIRM. -/
  | sessionAccept (n : Fin 32) (m : List Byte)
  /-- SESSION_CONFIRM (R371): A received CONFIRM is verified by the responder, which switches its transmit side and sends READY. -/
  | sessionConfirm (n : Fin 32) (m : List Byte)
  /-- SESSION_READY (R372): A received READY is checked by kc_r and the initiator switches its transmit side. -/
  | sessionReady (n : Fin 32) (m : List Byte)
  /-- OFFER_RETRY_TIMER (R371): Without a valid ACCEPT 10 s after its last OFFER, the initiator sends a fresh OFFER. -/
  | offerRetryTimer (n : Fin 32)
  /-- SESSION_ESTABLISH_TIMEOUT (R217): A session not ARMED 60 s after its arm returns to NONE. -/
  | sessionEstablishTimeout (n : Fin 32)
  /-- NC_LMS (R137): An NC_LMS job updates the 64 taps of one pool block at the end of its engine slot. -/
  | ncLms (b : Fin 1024) (errors symbols : List Int) (quiet : Bool)
  /-- REACH_FEQ (R152): A REACH_FEQ job updates the FEQ coefficients of 512 tones of one pair. -/
  | reachFeq (n : Fin 32) (p : Fin 4) (first : Fin 8) (coefs : List (Fin 512 × BitVec 18 × BitVec 18))
  /-- REACH_VEC (R171): A REACH_VEC job updates one kind-1 vector block. -/
  | reachVec (b : Fin 1024) (taps : List (Fin 64 × BitVec 18)) (quiet : Bool)
  /-- SCAN_START (R140): JUG.SCAN_CMD.start runs or queues a bundle scan over SCAN_PORTS. -/
  | scanStart
  /-- SCAN_STOP (R142): JUG.SCAN_CMD.stop abandons the scan's pair in progress. -/
  | scanStop
  /-- SCAN_PAIR_COMPLETE (R142): A victim pair's scan completes and its map entries are replaced at the next boundary. -/
  | scanPairComplete (v : Fin 128) (found : List Coupling)
  /-- REACH_SYMBOL (R153): A received DMT symbol is decoded, with its overhead word and trip field. -/
  | reachSymbol (n : Fin 32) (overhead : Option Word) (trip : BitVec 64) (words : List WordResult) (frames : Nat)
  /-- BIT_SWAP_REQUEST (R161): A received bit-swap request is answered by an ARM message naming a symbol at least 32 ahead. -/
  | bitSwapRequest (n : Fin 32) (entries : List SwapEntry) (symCnt : BitVec 8)
  /-- ARM (R161): A received ARM message arms a loading change for the named sym_cnt. -/
  | arm (n : Fin 32) (symCnt : BitVec 8)
  /-- SWAP_ARMED_SYMBOL (R161): At the armed symbol both ends change the loading and swap_count advances. -/
  | swapArmedSymbol (n : Fin 32) (transmit : Bool)
  /-- RATE_STEP_DOWN (R162): A rate-step-down message lowers N by one at an armed symbol. -/
  | rateStepDown (n : Fin 32) (symCnt : BitVec 8)
  /-- LOADING_TABLE (R157): A received loading table sets the transmitter's bit loading. -/
  | loadingTable (n : Fin 32) (table : List ToneLoad)
  /-- LOADING_RETRAIN_COMPLETE (R163): A loading retrain completes with a reloaded N. -/
  | loadingRetrainComplete (n : Fin 32) (tones : List (Fin 4 × Fin 4096 × Int))
  /-- REACH_TRAINING_TIMEOUT (R165): Reach training not in data mode 4,000 ms after the page exchange fails with last_fail 2. -/
  | reachTrainingTimeout (n : Fin 32)
  /-- VECTOR_JOIN_TIMEOUT (R172): A phase 5 not complete after 500 ms leaves the port at its current PSD in data mode. -/
  | vectorJoinTimeout (n : Fin 32)
  /-- PAUSE_REPEAT_TIMER (R173): While the FIFO stays above xon, the PAUSE frame is repeated every 16 ms. -/
  | pauseRepeatTimer (n : Fin 32)
  /-- HOST_FRAME_TO_FIFO (R173): A frame from the host enters the rate-matching FIFO, or is dropped when full, with PAUSE sent at xoff. -/
  | hostFrameToFifo (n : Fin 32) (length : BitVec 16)
  /-- SS_FRAME_RECEIVED (R188): A Sideshow frame is received through sync, header and payload, then delivered, rejected or captured. -/
  | ssFrameReceived (n : Fin 32) (steps : List RxStep)
  /-- SS_PREAMBLE_TIMEOUT (R188): 40 symbol periods without a sync match count a false preamble and return to SEARCH. -/
  | ssPreambleTimeout (n : Fin 32)
  /-- ACK_TX (R185): 40 µs after a received tail, the owed link acknowledgement is sent. -/
  | ackTx (n : Fin 32)
  /-- SS_FRAME_ENQUEUE (R185): A frame is placed in its class's transmit queue of the port, or refused at enqueue. -/
  | ssFrameEnqueue
  /-- SS_FRAME_TRANSMIT (R185): After its gap and backoff on an idle medium, the head frame of the highest class is sent. -/
  | ssFrameTransmit (n : Fin 32)
  /-- SS_ACK_TIMEOUT (R186): Without an acknowledgement within 320 µs the frame is retried or fails with NO_ACK. -/
  | ssAckTimeout (n : Fin 32)
  /-- SS_BUSY_TIMEOUT (R187): A medium busy for busy_ms while a frame is at the head fails it with BUSY. -/
  | ssBusyTimeout (n : Fin 32)
  /-- ENERGY_DETECT (R192): Phantom or pair-D energy in SLEEP starts the Sideshow oscillator, or in DEEP_SLEEP wakes the device. -/
  | energyDetect (n : Fin 32)
  /-- OSCILLATOR_START_FAIL (R194): An oscillator not usable within 200 µs is stopped; a third failure sets osc_fail. -/
  | oscillatorStartFail
  /-- MESSAGE_REASSEMBLED (R200): A fully reassembled message is taken by the Sideshow program and delivered locally or relayed. -/
  | messageReassembled
  /-- REASSEMBLY_TIMEOUT (R199): A message gaining no fragment for reasm_s is discarded and reported REASM_TIMEOUT. -/
  | reassemblyTimeout
  /-- BEACON_TIMER (R204): Each enabled port sends its beacon at its randomised interval. -/
  | beaconTimer (n : Fin 32)
  /-- BEACON_RECEIVED (R205): A received beacon creates or updates a neighbour context and its learned route. -/
  | beaconReceived (n : Fin 32) (b : Beacon)
  /-- NEIGHBOUR_MISSING (R205): 3 × interval_ms + 100 ms without a beacon marks the neighbour MISSING and removes its learned route. -/
  | neighbourMissing (i : Fin 1024)
  /-- PORT_SET (R214): Command 0x01 sets LINE_CFG.port_off of the masked ports. -/
  | portSet
  /-- ATTEST (R369): Command 0x02 returns a signed attestation report. -/
  | attest
  /-- TRIP_ARM (R214): Command 0x03 puts the port's session into ESTABLISHING. -/
  | tripArm
  /-- TRIP_DISARM (R214): Command 0x04 ends the port's session with end_reason 1. -/
  | tripDisarm
  /-- DIAG_RUN (R214): Command 0x05 starts a cable test or a bundle scan of one port, with results in a later reply. -/
  | diagRun
  /-- TIME_SET (R214): Command 0x06 sets the RTC and rtc_valid. -/
  | timeSet
  /-- LOG_SUMMARY (R393): Command 0x07 returns the log summary and up to 64 AUDIT records. -/
  | logSummary
  /-- CTX_CLEAR (R214): Command 0x08 clears the neighbour and route fields of a context. -/
  | ctxClear
  /-- JOURNAL_WRITE_DONE (R209): A replay-journal write completes in flash, or fails and refuses the item with JOURNAL. -/
  | journalWriteDone (ok : Bool) (fuse : Option FuseLeft)
  /-- REBASE (R225): MON_CMD.rebase takes a new echo reflection reference and clears refl_alert. -/
  | rebase (n : Fin 32)
  /-- CAL_VISIT_END (R243): A calibration visit's 32nd slot ends and its trims and PAIR_CAL word are written. -/
  | calVisitEnd (obs : VisitObs)
  /-- SPARE_SWITCH_IN (R251): At the rotation boundary after a spare becomes ready it takes the position and the element retires. -/
  | spareSwitchIn (v : Fin 128)
  /-- FORCE (R253): CAL.CMD.force makes the named pair the next visited. -/
  | force
  /-- SWAP (R253): CAL.CMD.swap starts a replacement of the named element. -/
  | swap
  /-- LPI_ENTRY_TIMER (R260): After entry_us of LPI or idle from the host, the port signals LPI. -/
  | lpiEntryTimer (n : Fin 32)
  /-- LPI_PHASE_END (R257): A sleep signalling, quiet or refresh period ends and the next begins. -/
  | lpiPhaseEnd (n : Fin 32) (changes : List FilterChange)
  /-- LPI_WAKE_REQUEST (R262): A wake request ends sleep signalling, quiet or refresh. -/
  | lpiWakeRequest (n : Fin 32) (alert : Bool) (changes : List FilterChange)
  /-- LPI_WAKE_DONE (R262): One wake time after the request the transmitter is in data mode. -/
  | lpiWakeDone (n : Fin 32)
  /-- LANE_EXIT_DONE (R279): 1.8 ms in EXIT starts the transmitter and moves the lane to CDR. -/
  | laneExitDone (l : Fin 32)
  /-- CDR_LOCK (R279): The CDR locks to the host's signal and the lane enters SEARCH or MANUAL. -/
  | cdrLock (l : Fin 32)
  /-- CDR_LOCK_LOST (R279): The CDR loses lock and the lane returns to CDR. -/
  | cdrLockLost (l : Fin 32) (signal : Bool)
  /-- LANE_LOCK_GAINED (R279): The sync-header or marker criterion is met and the lane locks. -/
  | laneLockGained (l : Fin 32)
  /-- LANE_LOCK_LOST (R279): The loss criterion is met and the lane returns to SEARCH or MANUAL. -/
  | laneLockLost (l : Fin 32) (hdrGood : Fin 65)
  /-- SLIP (R280): HSL.LANE_CMD.slip moves the receive framing one UI later in manual alignment. -/
  | slip (l : Fin 32)
  /-- MARKER_RECEIVED (R281): A Mequel alignment marker with good CRC records the lane's arrival offset and skew. -/
  | markerReceived (l : Fin 32) (m : Marker)
  /-- MEQUEL_CODEWORD (R282): A received RS codeword is corrected, or sent on as error blocks and counted. -/
  | mequelCodeword (l : Fin 32) (result : CodewordResult)
  /-- SIDE_BLOCK_RECEIVED (R276): A received side block is judged and assembled into a tunnel message, or discarded and counted. -/
  | sideBlockReceived (l : Fin 32) (block : BitVec 56)
  /-- TUNNEL_MESSAGE (R276): A complete tunnel message from the host is taken for the Sideshow program or judged as a command. -/
  | tunnelMessage (n : Fin 32)
  /-- USXGMII_AN_ACK (R273): The host acknowledges the USXGMII control word and usx_an_done is set. -/
  | usxgmiiAnAck (l : Fin 32)
  /-- HOST_FAULT_RECEIVED (R283): Local or Remote Fault from the host sets host_lf or host_rf and raises event 195. -/
  | hostFaultReceived (l : Fin 32) (stream : Fin 4) (fault : HostFault)
  /-- ADD (R301): rd := rs1 + rs2. -/
  | add (i : Issue) (rd rs1 rs2 : Fin 32)
  /-- SUB (R301): rd := rs1 − rs2. -/
  | sub (i : Issue) (rd rs1 rs2 : Fin 32)
  /-- AND (R301): rd := rs1 and rs2. -/
  | and (i : Issue) (rd rs1 rs2 : Fin 32)
  /-- OR (R301): rd := rs1 or rs2. -/
  | or (i : Issue) (rd rs1 rs2 : Fin 32)
  /-- XOR (R301): rd := rs1 xor rs2. -/
  | xor (i : Issue) (rd rs1 rs2 : Fin 32)
  /-- SLL (R301): Logical left shift by rs2[4:0]. -/
  | sll (i : Issue) (rd rs1 rs2 : Fin 32)
  /-- SRL (R301): Logical right shift by rs2[4:0]. -/
  | srl (i : Issue) (rd rs1 rs2 : Fin 32)
  /-- SRA (R301): Arithmetic right shift by rs2[4:0]. -/
  | sra (i : Issue) (rd rs1 rs2 : Fin 32)
  /-- SLT (R301): Signed set-less-than. -/
  | slt (i : Issue) (rd rs1 rs2 : Fin 32)
  /-- SLTU (R301): Unsigned set-less-than. -/
  | sltu (i : Issue) (rd rs1 rs2 : Fin 32)
  /-- MIN (R301): rd := minimum of rs1 and rs2. -/
  | min (i : Issue) (rd rs1 rs2 : Fin 32)
  /-- MAX (R301): rd := maximum of rs1 and rs2. -/
  | max (i : Issue) (rd rs1 rs2 : Fin 32)
  /-- MUL (R301): Low word of the product. -/
  | mul (i : Issue) (rd rs1 rs2 : Fin 32)
  /-- MULH (R301): Signed high word of the product. -/
  | mulh (i : Issue) (rd rs1 rs2 : Fin 32)
  /-- MULHU (R301): Unsigned high word of the product. -/
  | mulhu (i : Issue) (rd rs1 rs2 : Fin 32)
  /-- DIV (R301): Signed quotient in 34 cycles. -/
  | div (i : Issue) (rd rs1 rs2 : Fin 32)
  /-- DIVU (R301): Unsigned quotient in 34 cycles. -/
  | divu (i : Issue) (rd rs1 rs2 : Fin 32)
  /-- REM (R301): Signed remainder in 34 cycles. -/
  | rem (i : Issue) (rd rs1 rs2 : Fin 32)
  /-- REMU (R301): Unsigned remainder in 34 cycles. -/
  | remu (i : Issue) (rd rs1 rs2 : Fin 32)
  /-- ADDI (R300): rd := rs1 + sign-extended imm12. -/
  | addi (i : Issue) (rd rs1 : Fin 32) (v : BitVec 12)
  /-- ANDI (R300): rd := rs1 and zero-extended imm12. -/
  | andi (i : Issue) (rd rs1 : Fin 32) (v : BitVec 12)
  /-- ORI (R300): rd := rs1 or zero-extended imm12. -/
  | ori (i : Issue) (rd rs1 : Fin 32) (v : BitVec 12)
  /-- XORI (R300): rd := rs1 xor zero-extended imm12. -/
  | xori (i : Issue) (rd rs1 : Fin 32) (v : BitVec 12)
  /-- SLLI (R300): Logical left shift by imm[4:0]. -/
  | slli (i : Issue) (rd rs1 sh : Fin 32)
  /-- SRLI (R300): Logical right shift by imm[4:0]. -/
  | srli (i : Issue) (rd rs1 sh : Fin 32)
  /-- SRAI (R300): Arithmetic right shift by imm[4:0]. -/
  | srai (i : Issue) (rd rs1 sh : Fin 32)
  /-- MOVL (R300): rd := imm16, zero-extended. -/
  | movl (i : Issue) (rd : Fin 32) (v : BitVec 16)
  /-- MOVH (R300): rd[31:16] := imm16, keeping rd[15:0]. -/
  | movh (i : Issue) (rd : Fin 32) (v : BitVec 16)
  /-- CMP (R300): pd := comparison of rs1 with rs2. -/
  | cmp (i : Issue) (pd : Fin 8) (cond : Cmp) (rs1 rs2 : Fin 32)
  /-- CMPI (R300): pd := comparison of rs1 with sign-extended imm12. -/
  | cmpi (i : Issue) (pd : Fin 8) (cond : Cmp) (rs1 : Fin 32) (v : BitVec 12)
  /-- PAND (R301): pd := ps1 and ps2. -/
  | pand (i : Issue) (pd ps1 ps2 : Fin 8)
  /-- POR (R301): pd := ps1 or ps2. -/
  | por (i : Issue) (pd ps1 ps2 : Fin 8)
  /-- PXOR (R301): pd := ps1 xor ps2. -/
  | pxor (i : Issue) (pd ps1 ps2 : Fin 8)
  /-- PANDN (R301): pd := ps1 and not ps2. -/
  | pandn (i : Issue) (pd ps1 ps2 : Fin 8)
  /-- LDW (R295): Load a word from data SRAM or register space. -/
  | ldw (i : Issue) (rd rs1 : Fin 32) (off : BitVec 12)
  /-- LDH (R295): Load a sign-extended halfword. -/
  | ldh (i : Issue) (rd rs1 : Fin 32) (off : BitVec 12)
  /-- LDHU (R295): Load a zero-extended halfword. -/
  | ldhu (i : Issue) (rd rs1 : Fin 32) (off : BitVec 12)
  /-- LDB (R295): Load a sign-extended byte. -/
  | ldb (i : Issue) (rd rs1 : Fin 32) (off : BitVec 12)
  /-- LDBU (R295): Load a zero-extended byte. -/
  | ldbu (i : Issue) (rd rs1 : Fin 32) (off : BitVec 12)
  /-- STW (R295): Store a word. -/
  | stw (i : Issue) (rs2 rs1 : Fin 32) (off : BitVec 12)
  /-- STH (R295): Store a halfword. -/
  | sth (i : Issue) (rs2 rs1 : Fin 32) (off : BitVec 12)
  /-- STB (R295): Store a byte. -/
  | stb (i : Issue) (rs2 rs1 : Fin 32) (off : BitVec 12)
  /-- BCOPY (R302): Copy rd bytes word by word from rs1 to rs2, restartable across slots. -/
  | bcopy (i : Issue) (rd rs1 rs2 : Fin 32) (words : BitVec 21)
  /-- FENCE (R301): Wait until every store and BCOPY write of the task has reached its bank. -/
  | fence (i : Issue)
  /-- BR (R301): Branch by off22 instructions. -/
  | br (i : Issue) (off : BitVec 22)
  /-- BL (R301): Branch and link into g31. -/
  | bl (i : Issue) (off : BitVec 22)
  /-- JR (R301): Jump to rs1. -/
  | jr (i : Issue) (rs1 : Fin 32)
  /-- CSRR (R291): Read a control register. -/
  | csrr (i : Issue) (rd : Fin 32) (csr : BitVec 12)
  /-- CSRW (R291): Write a control register, subject to privilege. -/
  | csrw (i : Issue) (rs2 : Fin 32) (csr : BitVec 12)
  /-- SYSC (R312): User-level supervisor call saving EPC, ESTAT and ECODE and continuing at EVEC. -/
  | sysc (i : Issue) (v : BitVec 12)
  /-- ERET (R312): Return from a supervisor call, restoring level, predicates and pc. -/
  | eret (i : Issue)
  /-- WAITS (R306): Give up the core until the named slot. -/
  | waits (i : Issue) (slot : BitVec 12)
  /-- YIELD (R306): Give up the rest of the current slot. -/
  | yield (i : Issue)
  /-- EJOB (R304): Queue an engine job and return its handle. -/
  | ejob (i : Issue) (rd rs1 rs2 : Fin 32)
  /-- DMAQ (R304): Enqueue a DMA descriptor on a device-posted ring. -/
  | dmaq (i : Issue) (rd rs1 rs2 : Fin 32)
  /-- HASH (R304): Queue a SHA3-512 request. -/
  | hash (i : Issue) (rd rs1 rs2 : Fin 32)
  /-- LATT_VERIFY (R307): LATT operation 0 queues an ML-DSA-87 verification. -/
  | lattVerify (i : Issue) (rd rs1 rs2 : Fin 32)
  /-- LATT_SIGN (R307): LATT operation 1 queues an ML-DSA-87 signature with the identity key. -/
  | lattSign (i : Issue) (rd rs1 rs2 : Fin 32)
  /-- LATT_ENCAPSULATE (R307): LATT operation 2 queues an ML-KEM-1024 encapsulation. -/
  | lattEncapsulate (i : Issue) (rd rs1 rs2 : Fin 32)
  /-- LATT_DECAPSULATE (R307): LATT operation 3 queues an ML-KEM-1024 decapsulation. -/
  | lattDecapsulate (i : Issue) (rd rs1 rs2 : Fin 32)
  /-- LATT_KEYGEN (R307): LATT operation 4 queues ML-KEM-1024 key-pair generation. -/
  | lattKeygen (i : Issue) (rd rs1 rs2 : Fin 32)
  /-- LATT_INVALID (R307): LATT operations 5 to 7 issue a job that ends with FAULT. -/
  | lattInvalid (i : Issue) (rd rs1 rs2 : Fin 32)
  /-- TRIP (R308): Issue a launch request on every port set in rs1. -/
  | trip (i : Issue) (rs1 : Fin 32)
  /-- SNAP (R309): Queue a snapshot of the capture list at the next slot boundary. -/
  | snap (i : Issue) (rd rs1 rs2 : Fin 32)
  /-- JPOLL (R305): Set pd if the job of the handle has ended. -/
  | jpoll (i : Issue) (pd : Fin 8) (rs1 : Fin 32)
  /-- JWAIT (R305): Wait for the job of the handle to end and return its status. -/
  | jwait (i : Issue) (rd rs1 : Fin 32)
  /-- ENGINE_JOB_END (R303): A queued engine job completes in its assigned slots and its entry is ended or freed. -/
  | engineJobEnd (e : Fin 16384)
  /-- HASH_JOB_END (R21): A SHA3-512 request completes in the hash unit's slots. -/
  | hashJobEnd
  /-- LATTICE_JOB_END (R357): A lattice-unit operation completes at its fixed duration, or signing ends with FAULT at 6 ms. -/
  | latticeJobEnd (own failed : Bool)
  /-- LOAD (R323): WHEEL.LOAD_CMD.load fetches a Nelno image from host memory. -/
  | load
  /-- FROM_FLASH (R323): WHEEL.LOAD_CMD.from_flash loads the Nelno image stored in flash. -/
  | fromFlash
  /-- REVERT (R331): WHEEL.LOAD_CMD.revert switches back to the previous wheel at the next boundary. -/
  | revert
  /-- CANCEL (R331): WHEEL.LOAD_CMD.cancel abandons a load in progress or LOADED. -/
  | cancel
  /-- WHEEL_IMAGE_FETCHED (R323): The image has been fetched into staging and its signature verification starts. -/
  | wheelImageFetched (result : ReadResult)
  /-- WHEEL_ADMISSION_DONE (R324): Admission finishes its checks and the image is LOADED or refused. -/
  | wheelAdmissionDone
  /-- TASK_SEL_WRITE (R332): A write to WHEEL.TASK_SEL copies the task's record and statistics into TASK_WIN. -/
  | taskSelWrite (w : Word)
  /-- SQ_CTX_SEL_WRITE (R313): A write to SQ.CTX_SEL copies the context into CTX_WIN at the next slot boundary. -/
  | sqCtxSelWrite (w : Word)
  /-- SS_CTX_SEL_WRITE (R218): A write to SS.CTX_SEL copies the selected peer context into CTX_WIN. -/
  | ssCtxSelWrite (w : Word)
  /-- TRIM_SEL_WRITE (R255): A write to CAL.TRIM_SEL copies the pair's trims and roles into TRIM_WIN. -/
  | trimSelWrite (w : Word)
  /-- COEF_SEL_WRITE (R467): A write to P[n].COEF_SEL selects the pair shown in the coefficient window. -/
  | coefSelWrite (n : Fin 32) (w : Word)
  /-- RING_PROD_WRITE (R336): Advancing DMA.RING_PROD posts host descriptors for fetch. -/
  | ringProdWrite (r : Fin 64) (prod : BitVec 16)
  /-- DMA_BURST (R343): The highest-priority ready ring issues one burst, which may fault and stop the ring. -/
  | dmaBurst
  /-- DMA_READ_COMPLETION (R346): A read completion arrives from the host, or a host error stops the ring with HOST. -/
  | dmaReadCompletion (k : Fin 16) (result : ReadResult)
  /-- TLB_WALK_DONE (R341): A page-table walk completes and installs a leaf or faults the ring. -/
  | tlbWalkDone
  /-- RESUME (R347): DMA.RING_CMD.resume retries the failing burst of a stopped ring. -/
  | resume (r : Fin 64)
  /-- ABORT (R347): DMA.RING_CMD.abort ends the head descriptor with FAULT kind ABORT. -/
  | abort (r : Fin 64)
  /-- INV_ONE (R342): MMU.INV.one invalidates the translation of MMU.INV_VA. -/
  | invOne
  /-- INV_ALL (R342): MMU.INV.all invalidates every TLB entry. -/
  | invAll
  /-- INVALIDATE_DONE (R342): The invalidation completes once bursts using the old translation finish, raising event 227. -/
  | invalidateDone
  /-- SUBMIT (R365): TST.MBOX_CMD.submit sends the mailbox item for judgement as a manifest or command. -/
  | submit
  /-- ENROL (R352): TST.MBOX_CMD.enrol enrols owner slot 0 in Open operation with no active slot. -/
  | enrol (fuse : Option FuseLeft)
  /-- CHECKPOINT (R376): TST.MBOX_CMD.checkpoint signs the audit chain head and writes a checkpoint record. -/
  | checkpoint
  /-- MANIFEST_RECEIVED (R363): A manifest is judged whole, staged and committed at one revolution boundary, or refused. -/
  | manifestReceived
  /-- MANIFEST_REG (R362): Entry type 1 writes a configuration register as a host write would. -/
  | manifestReg (a : BitVec 26) (v : Word)
  /-- MANIFEST_ROUTE (R362): Entry type 2 installs a route of source 1. -/
  | manifestRoute (node : BitVec 18) (port : Fin 32) (metric : Fin 65) (hop : BitVec 18)
  /-- MANIFEST_ROUTE_DEL (R362): Entry type 3 removes a route of source 1. -/
  | manifestRouteDel (node : BitVec 18)
  /-- OP_KEY (R362): Entry type 4 installs an operator key with its permitted codes. -/
  | opKey (slot : Fin 16) (permitted : BitVec 16) (key : List Byte)
  /-- OP_KEY_DEL (R362): Entry type 5 removes an operator key. -/
  | opKeyDel (slot : Fin 16)
  /-- OWNER_ENROL (R362): Entry type 6 enrols an owner slot in OTP. -/
  | ownerEnrol (slot : Fin 4) (hash : BitVec 512)
  /-- OWNER_REVOKE (R362): Entry type 7 revokes an owner slot in OTP. -/
  | ownerRevoke (slot signer : Fin 4)
  /-- SVN_COMMIT (R353): Entry type 8 advances the anti-rollback counter in OTP. -/
  | svnCommit (v : BitVec 8)
  /-- SEAL (R366): Entry type 9 programs the seal bits and enters Sealed operation at the next boundary. -/
  | sealDevice
  /-- MSIX_HELD_SEND (R381): A held MSI-X message is sent once all four conditions hold while its PEND bit is still set. -/
  | msixHeldSend (e : Fin 256)
  /-- ALARM_ACK_WRITE (R391): A write to LOG.ALARM_ACK acknowledges and closes ALARM records up to that sequence. -/
  | alarmAckWrite (seq : Word)
  /-- EXP_RD_WRITE (R390): Advancing LOG.EXP_RD frees host buffer room for the exporter. -/
  | expRdWrite (c : Fin 3) (idx : BitVec 16)
  /-- EXPORT_STALL_TIMEOUT (R390): Export of a class held for stall_ms raises event 221. -/
  | exportStallTimeout (c : Fin 3)
  /-- LOG_RECORDS_FREED (R386): Freed log records take held ALARM and AUDIT counts and the TRACE gap marker before new records. -/
  | logRecordsFreed
  /-- SS_LOG_SUMMARY_DUE (R393): At the due RTC second a log summary is sent over the Sideshow. -/
  | ssLogSummaryDue
  /-- MMD31_LOAD_RECORD (R392): A write to MMD 31 register 0x0002 loads the record of that sequence into the latch. -/
  | mmd31LoadRecord (c : Fin 4) (seq : Word)
  /-- MMD31_LAST_WORD_READ (R392): Reading MMD 31 register 0x001F loads the next sequence into the latch. -/
  | mmd31LastWordRead (port : Fin 32)
  /-- MMD31_ACKNOWLEDGE (R392): A write to MMD 31 register 0x0005 acknowledges export of the class up to that sequence. -/
  | mmd31Acknowledge (c : Fin 4) (seq : Word)
  /-- REC_SEL_WRITE (R392): A write of the sequence to LOG.REC_SEL latches that record into REC_WIN. -/
  | recSelWrite (seq : Word)
  /-- CLEAR_ALL (R401): PERF.CMD.clear_all zeroes every counter and OVF bit in one cycle. -/
  | clearAll (hits : BitVec 40)
  /-- POWER_REQUEST (R411): A request for a power state is taken at the next tick, refused, made pending or started. -/
  | powerRequest (target : Fin 8) (src : Fin 3)
  /-- ENTRY_HANDSHAKE_ANSWER (R414): A delayed block answers accept or refuses at 1 ms, completing or ending the entry handshake. -/
  | entryHandshakeAnswer (b : Fin 9) (limit : Bool)
  /-- ENTRY_CRC_DONE (R416): The retained banks' CRCs are taken, PLLs stop and the rails are commanded. -/
  | entryCrcDone
  /-- DEEP_SLEEP_BEACON_TIMEOUT (R417): A power-3 beacon not sent within 20 ms is abandoned. -/
  | deepSleepBeaconTimeout
  /-- RAIL_ACKNOWLEDGE (R426): A rail acknowledges its voltage by PG_IN, STATUS_WORD or the 1 ms fixed time. -/
  | railAcknowledge (r : Fin 4)
  /-- STATUS_WORD_POLL (R426): Every 100 µs STATUS_WORD of a rail awaiting acknowledgement is read. -/
  | statusWordPoll (r : Fin 4) (status vout : BitVec 16)
  /-- RAIL_FAULT (R426): A NACK, PEC error or no acknowledgement within 5 ms faults the rail request. -/
  | railFault (r : Fin 4) (f : RailFault)
  /-- PMBUS_ALERT (R426): PMBUS_ALERT_N asserted raises event 245 and reads STATUS_WORD of each enabled rail. -/
  | pmbusAlert (status : List (BitVec 16))
  /-- WAKE_PIN (R419): The WAKE pin asserted wakes the device from SLEEP, DEEP_SLEEP or OFF. -/
  | wakePin (asserted : Bool)
  /-- RTC_ALARM (R419): RTC seconds reaching RTC_ALARM wake the device or raise event 247 in RUN. -/
  | rtcAlarm
  /-- HOST_ACCESS_IN_SLEEP (R422): A non-PWR host access in SLEEP wakes the device or is refused and counted. -/
  | hostAccessInSleep (addr : BitVec 26) (isRead mdio : Bool)
  /-- WAKE_CLOCKS_READY (R421): Crystal and rails ready lets the system PLL lock during a wake. -/
  | wakeClocksReady
  /-- WAKE_CRC_CHECK (R424): After PLL lock the banks' CRCs are checked, failed banks scrubbed, and the wheel resumes. -/
  | wakeCrcCheck (bad : BitVec 24) (held : Word)
  /-- RTC_SET_WRITE (R427): A write to the high word of RTC_SET_SEC sets the RTC at the next tick. -/
  | rtcSetWrite (w : Word)
  /-- POWER_ON_RESET (R428): VDD_AON rising resets everything and starts the boot sequence. -/
  | powerOnReset
  /-- RESET_N (R428): RESET_N asserted for 1 µs resets everything outside the always-on domain. -/
  | resetN
  /-- DEVICE (R428): CHIP.RESET_CMD.device resets the device as RESET_N does. -/
  | device
  /-- LONG_NEXT (R433): CHIP.RESET_CMD.long_next forces the long path at the next start. -/
  | longNext
  /-- SUPPLY_DROP (R476): A monitored supply falling below its threshold resets the device as RESET_N would. -/
  | supplyDrop
  /-- JTAG_TAP_RESET (R428): A JTAG TAP reset resets the TAP controller alone. -/
  | jtagTapReset
  /-- PERST_N (R429): PERST_N resets the PCIe endpoint alone. -/
  | perstN
  /-- MANAGEMENT_READY (R434): At the first boundary of the default wheel the device becomes management-ready and raises event 255. -/
  | managementReady (b : StartInfo)
  /-- SEGMENT_END (R436): A self-test segment ends and is judged PASS, FAIL or INCOMPLETE. -/
  | segmentEnd (run : TestRun)
  /-- ROTATION_STEP (R440): Every interval_s seconds the next rotation self-test step starts. -/
  | rotationStep
  /-- ROTATION_ELEMENT_END (R441): A rotation-tested element's patterns end and it returns, retires or hands over to JSP. -/
  | rotationElementEnd (run : TestRun)
  /-- WRITE (R446): CHIP.FW_CMD.write fetches a firmware image and programs it into the idle flash slot. -/
  | write
  /-- VERIFY (R446): CHIP.FW_CMD.verify reads back and judges the written slot. -/
  | verify
  /-- ACTIVATE (R446): CHIP.FW_CMD.activate prepares activation of the verified image at a wheel switch. -/
  | activate
  /-- FW_CANCEL (R448): CHIP.FW_CMD.cancel leaves the slot invalid and returns to idle. -/
  | fwCancel
  /-- FW_WRITE_DONE (R446): Programming of the firmware slot completes. -/
  | fwWriteDone (result : ReadResult) (programmed : Bool)
  /-- FW_VERIFY_DONE (R446): Read-back judgement of the slot completes with VERIFIED or refused. -/
  | fwVerifyDone (places : List Nat)
  /-- SNAP_HOLD_WRITE (R450): A write to CHIP.SNAP_CTRL.hold holds or releases the newest snapshot copy. -/
  | snapHoldWrite (v : Bool)
  /-- SNAP_HOLD_EXPIRY (R450): hold clears itself 1,000 ms after it was set. -/
  | snapHoldExpiry
  /-- RESET_RELEASE (R476): Once RESET_N is high and every monitored supply is above its threshold, the device leaves reset and starts the boot sequence of R434. -/
  | resetRelease
  /-- AON_SUPPLY_FALL (R476): VDD_AON falling below 1.50 V leaves the device unpowered, with every pin released and all state lost. -/
  | aonSupplyFall
  /-- PCIE_LINK_CHANGE (R429): The PCIe link goes down or comes back, and DMA rings hold their bursts while it is down and continue once it is back. -/
  | pcieLinkChange (c : LinkConfig)
  /-- TRIP_IN_DEASSERT (R118): A TRIP_IN leaving its asserted level clears trip_active where no other source of the port is asserted and ends its keepalive requests. -/
  | tripInDeassert (i : Fin 8)
  /-- PARTNER_LPI_SIGNAL (R256): The link partner's sleep signalling puts the port's receive direction into LPI, sets lpi_rx and, with both directions in LPI, lets quiet periods begin. -/
  | partnerLpiSignal (n : Fin 32)
  /-- OSCILLATOR_READY (R15): The 26 MHz Sideshow oscillator started in SLEEP becomes usable, trimmed against the 32.768 kHz crystal, and the modems begin listening. -/
  | oscillatorReady
  /-- PERF_COUNTER_WRAP (R399): A performance counter stepping from 2^48 − 1 wraps to 0, sets its OVF bit and may raise event 248. -/
  | perfCounterWrap (k : Fin 40)
  /-- RATE_MATCH_FIFO_DRAIN (R173): As frames leave the rate-matching FIFO toward the line, a fill that falls to xon, or to empty with xon 0, sends a PAUSE frame with quanta 0 toward the host. -/
  | rateMatchFifoDrain (n : Fin 32) (bytes : Nat)
deriving DecidableEq, Repr

end Sys2Proof
end

