-- ==== Sys2Proof/WellFormed.lean ====
section
/-! DEFINITION. Which commands are well formed: what the environment may put into the queue beyond what the types of the operands
say. The effect of a command asks for none of it; an ill-formed command is one no environment sends. -/

namespace Sys2Proof

/-- No element twice. -/
def distinct {α : Type} [DecidableEq α] : List α → Bool
  | [] => true
  | x :: t => !t.contains x && distinct t

/-- A host access of one or more 32-bit parts that ends inside BAR0 (R30, R44). -/
def spans (a k : Nat) : Bool := decide (1 ≤ k) && decide (a + k ≤ 2 ^ 24)

/-- A well-formed command. -/
def Instr.wellFormed (i : Instr) : Bool :=
  match i with
  | .slotBoundary => true
  | .revolutionBoundary ports eyes _ => distinct (ports.map (fun o => o.port)) && distinct (eyes.map (fun o => o.lane))
  | .scrubAccess _ _ => true
  | .logScrubAccess bad => distinct bad
  | .aonTick _ => true
  | .rtcSecond => true
  | .hostRegisterWrite a parts _ => spans a.toNat parts.length
  | .rcRead a parts => spans a.toNat parts.length
  | .counterLowRead _ => true
  | .bitAliasWrite _ _ _ => true
  | .bankCommit _ => true
  | .clampPop => true
  | .mdioWindowRead => true
  | .mdioWindowWrite => true
  | .mdioWindowAccessDone _ => true
  | .mdioStandardWrite _ _ _ _ => true
  | .latchLowRead _ _ _ => true
  | .ldpcFrameDecode _ _ _ _ => true
  | .partnerPulsesSeen _ => true
  | .idleDetected _ => true
  | .pageExchangeComplete _ _ => true
  | .breakLinkTimer _ => true
  | .autonegWaitTimer _ => true
  | .linkFailInhibitTimer _ => true
  | .trainPhaseEnd _ r => distinct (r.margins.map (fun m => m.1))
  | .receiverStatusOk _ => true
  | .partnerLost _ => true
  | .linkStatusFailure _ => true
  | .advertisementRestore _ => true
  | .partnerEnergyReturn _ => true
  | .probeSTimer _ => true
  | .probeTimeout _ => true
  | .probeAnswer _ _ => true
  | .probeRequest _ => true
  | .cableTestEnd _ results => decide (results.length = 4)
  | .cableTestStop _ _ => true
  | .cableTest _ => true
  | .fastRetrain _ => true
  | .anRestart _ => true
  | .restart _ => true
  | .partnerRetrainRequest _ => true
  | .fastRetrainComplete _ _ => true
  | .fastRetrainTimeout _ => true
  | .tripSlotReceived _ _ => true
  | .heartbeatWatchdog _ => true
  | .tripSlotSend _ => true
  | .tripInEdge _ => true
  | .tripCodeComputed _ _ => true
  | .tripOutHoldExpiry _ => true
  | .tripOutRelease _ => true
  | .sideshowTripMessage _ _ => true
  | .sessionOffer _ _ => true
  | .sessionAccept _ _ => true
  | .sessionConfirm _ _ => true
  | .sessionReady _ _ => true
  | .offerRetryTimer _ => true
  | .sessionEstablishTimeout _ => true
  | .ncLms _ errors _ _ => decide (errors.length = 256)
  | .reachFeq _ _ _ _ => true
  | .reachVec _ _ _ => true
  | .scanStart => true
  | .scanStop => true
  | .scanPairComplete _ found => distinct (found.map (fun c => c.aggressor))
  | .reachSymbol _ _ _ _ _ => true
  | .bitSwapRequest _ _ _ => true
  | .arm _ _ => true
  | .swapArmedSymbol _ _ => true
  | .rateStepDown _ _ => true
  | .loadingTable _ _ => true
  | .loadingRetrainComplete _ _ => true
  | .reachTrainingTimeout _ => true
  | .vectorJoinTimeout _ => true
  | .pauseRepeatTimer _ => true
  | .hostFrameToFifo _ _ => true
  | .ssFrameReceived _ _ => true
  | .ssPreambleTimeout _ => true
  | .ackTx _ => true
  | .ssFrameEnqueue => true
  | .ssFrameTransmit _ => true
  | .ssAckTimeout _ => true
  | .ssBusyTimeout _ => true
  | .energyDetect _ => true
  | .oscillatorStartFail => true
  | .messageReassembled => true
  | .reassemblyTimeout => true
  | .beaconTimer _ => true
  | .beaconReceived _ _ => true
  | .neighbourMissing _ => true
  | .portSet => true
  | .attest => true
  | .tripArm => true
  | .tripDisarm => true
  | .diagRun => true
  | .timeSet => true
  | .logSummary => true
  | .ctxClear => true
  | .journalWriteDone _ _ => true
  | .rebase _ => true
  | .calVisitEnd _ => true
  | .spareSwitchIn _ => true
  | .force => true
  | .swap => true
  | .lpiEntryTimer _ => true
  | .lpiPhaseEnd _ _ => true
  | .lpiWakeRequest _ _ _ => true
  | .lpiWakeDone _ => true
  | .laneExitDone _ => true
  | .cdrLock _ => true
  | .cdrLockLost _ _ => true
  | .laneLockGained _ => true
  | .laneLockLost _ _ => true
  | .slip _ => true
  | .markerReceived _ _ => true
  | .mequelCodeword _ _ => true
  | .sideBlockReceived _ _ => true
  | .tunnelMessage _ => true
  | .usxgmiiAnAck _ => true
  | .hostFaultReceived _ _ _ => true
  | .add _ _ _ _ => true
  | .sub _ _ _ _ => true
  | .and _ _ _ _ => true
  | .or _ _ _ _ => true
  | .xor _ _ _ _ => true
  | .sll _ _ _ _ => true
  | .srl _ _ _ _ => true
  | .sra _ _ _ _ => true
  | .slt _ _ _ _ => true
  | .sltu _ _ _ _ => true
  | .min _ _ _ _ => true
  | .max _ _ _ _ => true
  | .mul _ _ _ _ => true
  | .mulh _ _ _ _ => true
  | .mulhu _ _ _ _ => true
  | .div _ _ _ _ => true
  | .divu _ _ _ _ => true
  | .rem _ _ _ _ => true
  | .remu _ _ _ _ => true
  | .addi _ _ _ _ => true
  | .andi _ _ _ _ => true
  | .ori _ _ _ _ => true
  | .xori _ _ _ _ => true
  | .slli _ _ _ _ => true
  | .srli _ _ _ _ => true
  | .srai _ _ _ _ => true
  | .movl _ _ _ => true
  | .movh _ _ _ => true
  | .cmp _ _ _ _ _ => true
  | .cmpi _ _ _ _ _ => true
  | .pand _ _ _ _ => true
  | .por _ _ _ _ => true
  | .pxor _ _ _ _ => true
  | .pandn _ _ _ _ => true
  | .ldw _ _ _ _ => true
  | .ldh _ _ _ _ => true
  | .ldhu _ _ _ _ => true
  | .ldb _ _ _ _ => true
  | .ldbu _ _ _ _ => true
  | .stw _ _ _ _ => true
  | .sth _ _ _ _ => true
  | .stb _ _ _ _ => true
  | .bcopy _ _ _ _ _ => true
  | .fence _ => true
  | .br _ _ => true
  | .bl _ _ => true
  | .jr _ _ => true
  | .csrr _ _ _ => true
  | .csrw _ _ _ => true
  | .sysc _ _ => true
  | .eret _ => true
  | .waits _ _ => true
  | .yield _ => true
  | .ejob _ _ _ _ => true
  | .dmaq _ _ _ _ => true
  | .hash _ _ _ _ => true
  | .lattVerify _ _ _ _ => true
  | .lattSign _ _ _ _ => true
  | .lattEncapsulate _ _ _ _ => true
  | .lattDecapsulate _ _ _ _ => true
  | .lattKeygen _ _ _ _ => true
  | .lattInvalid _ _ _ _ => true
  | .trip _ _ => true
  | .snap _ _ _ _ => true
  | .jpoll _ _ _ => true
  | .jwait _ _ _ => true
  | .engineJobEnd _ => true
  | .hashJobEnd => true
  | .latticeJobEnd _ _ => true
  | .load => true
  | .fromFlash => true
  | .revert => true
  | .cancel => true
  | .wheelImageFetched _ => true
  | .wheelAdmissionDone => true
  | .taskSelWrite _ => true
  | .sqCtxSelWrite _ => true
  | .ssCtxSelWrite _ => true
  | .trimSelWrite _ => true
  | .coefSelWrite _ _ => true
  | .ringProdWrite _ _ => true
  | .dmaBurst => true
  | .dmaReadCompletion _ _ => true
  | .tlbWalkDone => true
  | .resume _ => true
  | .abort _ => true
  | .invOne => true
  | .invAll => true
  | .invalidateDone => true
  | .submit => true
  | .enrol _ => true
  | .checkpoint => true
  | .manifestReceived => true
  | .manifestReg _ _ => true
  | .manifestRoute _ _ _ _ => true
  | .manifestRouteDel _ => true
  | .opKey _ _ key => decide (key.length = 2592)
  | .opKeyDel _ => true
  | .ownerEnrol _ _ => true
  | .ownerRevoke _ _ => true
  | .svnCommit _ => true
  | .sealDevice => true
  | .msixHeldSend _ => true
  | .alarmAckWrite _ => true
  | .expRdWrite _ _ => true
  | .exportStallTimeout _ => true
  | .logRecordsFreed => true
  | .ssLogSummaryDue => true
  | .mmd31LoadRecord _ _ => true
  | .mmd31LastWordRead _ => true
  | .mmd31Acknowledge _ _ => true
  | .recSelWrite _ => true
  | .clearAll _ => true
  | .powerRequest _ _ => true
  | .entryHandshakeAnswer _ _ => true
  | .entryCrcDone => true
  | .deepSleepBeaconTimeout => true
  | .railAcknowledge _ => true
  | .statusWordPoll _ _ _ => true
  | .railFault _ _ => true
  | .pmbusAlert status => decide (status.length = 4)
  | .wakePin _ => true
  | .rtcAlarm => true
  | .hostAccessInSleep _ _ _ => true
  | .wakeClocksReady => true
  | .wakeCrcCheck _ _ => true
  | .rtcSetWrite _ => true
  | .powerOnReset => true
  | .resetN => true
  | .device => true
  | .longNext => true
  | .supplyDrop => true
  | .jtagTapReset => true
  | .perstN => true
  | .managementReady _ => true
  | .segmentEnd _ => true
  | .rotationStep => true
  | .rotationElementEnd _ => true
  | .write => true
  | .verify => true
  | .activate => true
  | .fwCancel => true
  | .fwWriteDone _ _ => true
  | .fwVerifyDone _ => true
  | .snapHoldWrite _ => true
  | .snapHoldExpiry => true
  | .resetRelease => true
  | .aonSupplyFall => true
  | .pcieLinkChange _ => true
  | .tripInDeassert _ => true
  | .partnerLpiSignal _ => true
  | .oscillatorReady => true
  | .perfCounterWrap _ => true
  | .rateMatchFifoDrain _ _ => true

end Sys2Proof
end

