-- ==== Sys2Proof/Config.lean ====
section
/-! DEFINITION. What lies outside the spec: the values it leaves open and the functions of other standards it names. Each is
an opaque constant; nothing in Lean can see a value of it. -/

namespace Sys2Proof.Config

/-- Free values: where the spec leaves a value open, the next of these stands for it. -/
opaque freeWord : Nat → Word

/-- SHA3-512 (FIPS 202, R6). -/
opaque sha3_512 : List Byte → BitVec 512

/-- ML-DSA-87 verification of a signature over a message under a public key (FIPS 204, R6, R307). -/
opaque mldsaVerify : (publicKey message signature : List Byte) → Bool

/-- ML-DSA-87 hedged signing: the signature under the device's identity key, for the count of signatures made so far
(FIPS 204, R6, R357). -/
opaque mldsaSign : (count : Nat) → (message : List Byte) → List Byte

/-- ML-KEM-1024 key pair, from the count of random draws so far: the encapsulation key (FIPS 203, R6). -/
opaque mlkemPublic : Nat → List Byte

/-- ML-KEM-1024 key pair, from the count of random draws so far: the decapsulation key. -/
opaque mlkemSecret : Nat → List Byte

/-- ML-KEM-1024 encapsulation to a key: the ciphertext. -/
opaque mlkemCipher : (draw : Nat) → (publicKey : List Byte) → List Byte

/-- ML-KEM-1024 encapsulation to a key: the shared secret. -/
opaque mlkemShared : (draw : Nat) → (publicKey : List Byte) → BitVec 256

/-- ML-KEM-1024 decapsulation. -/
opaque mlkemDecapsulate : (secretKey ciphertext : List Byte) → BitVec 256

/-- The public key whose SHA3-512 an owner slot holds; the OTP keeps the hash alone (R351). -/
opaque keyOfHash : BitVec 512 → List Byte

/-- The identity public key derived from the PUF and its helper data (R355). -/
opaque identityKey : (helper : List Byte) → List Byte

/-- The range of data SRAM the firmware reserves (R323, R324): first byte and length. -/
opaque fwBase : Nat
opaque fwLength : Nat

/-- SHA3-512 of the boot ROM (R368). -/
opaque romDigest : BitVec 512

/-- Fresh random bytes, from the count of random draws so far. -/
opaque randomBytes : (draw count : Nat) → List Byte

/-- The bytes of the operator key table that M6 measures: by slot, the permitted codes and the key (R368 states no layout). -/
opaque opKeyTable : List (Nat × BitVec 16 × List Byte) → List Byte

end Sys2Proof.Config
end

