-- ==== Sys2Proof/Machine/State.lean ====
section
/-! DEFINITION. The state of the device: everything the spec gives it, as plain data, and the state right after reset. -/

namespace Sys2Proof.Machine

/-! ### Clocks and time (R15, R16, R20, R27) -/

/-- The core clock, the slot wheel's position and DEV_TIME. -/
structure Clock where
  /-- CHIP.DEV_TIME in ns (R16). -/
  devTime : BitVec 64
  /-- The accumulator of R16, in sixty-fourths of a nanosecond. -/
  frac : Nat
  /-- The core cycle of the present slot, 0 to 124 (R20). -/
  cycle : Nat
  /-- The slot of the revolution, 0 to 4,095 (R20). -/
  slot : Nat
  /-- WHEEL.REV_COUNT (R27, R332). -/
  rev : BitVec 64
  /-- The system PLL runs (R16). -/
  pllOn : Bool
  /-- The wheel turns (R24, R416). -/
  wheelOn : Bool
deriving DecidableEq, Repr

/-! ### Host interface (R36 to R53) -/

/-- One entry of the clamp log (R39). -/
structure ClampEntry where
  addr : Nat
  lsb : Nat
  width : Nat
  /-- 0 range check, 1 agreement check, 2 hardware update, 3 reserved field (R39). -/
  source : Nat
  written : Nat
  applied : Nat
deriving DecidableEq, Repr

/-- An access through the MMD 30 window in progress (R48, R472). -/
structure MdioAccess where
  write : Bool
  addr : Nat
  data : Word
deriving DecidableEq, Repr

/-- Refusals of one kind in the present RTC second, for the one AUDIT record of R53, R213 and R335: the first refused
subject and value (or code and result), and how many. -/
structure RefusalTally where
  subject : Nat
  detail : Nat
  result : Nat
  count : Nat
deriving DecidableEq, Repr

/-- What the register file holds beside the registers themselves. -/
structure HostSide where
  /-- The clamp log, head first, at most 32 entries (R39). -/
  clampLog : List ClampEntry
  /-- The next ignored write is the first since CHIP.IGN_WRITE_STATUS was read (R36). -/
  ignFresh : Bool
  /-- The next bus error is the first since CHIP.BUSERR_STATUS was read (R47). -/
  busFresh : Bool
  /-- Latched high words of counters, by reader and address (R44, R400): the key is the reader (0 the host, 1 + c core c)
  times 2^28 plus the high word's address; absent, the latch was never loaded. -/
  latches : List (Nat × Option Word)
  /-- WC commands by address times 32 plus bit: 1 running, 2 running with one queued (R41). -/
  wc : List (Nat × Nat)
  /-- MMD 30 ADDR_LO and ADDR_HI as one number (R48). -/
  mdioAddr : BitVec 32
  /-- MMD 30 DATA_LO and DATA_HI (R48). -/
  mdioData : BitVec 32
  /-- The window access in progress; STATUS bit 0 reads 1 while there is one (R48). -/
  mdioBusy : Option MdioAccess
  /-- Latching-low bits whose last read found the source at 1 and whose source has stayed at 1: key 8 * port + MMD (R471). -/
  linkHigh : List (Nat × Bool)
  /-- Configuration writes refused in this RTC second (R53). -/
  refusedWrites : Option RefusalTally
  /-- SRAM window writes refused in this RTC second (R335). -/
  refusedSram : Option RefusalTally
  /-- Commands refused in this RTC second (R213). -/
  refusedCmds : Option RefusalTally
deriving DecidableEq, Repr

/-- The PCIe endpoint as far as the rest of the device sees it (R381, R429). -/
structure Pcie where
  linkUp : Bool
  /-- MSI-X Enable of the endpoint's capability. -/
  msixEnable : Bool
  functionMask : Bool
  /-- The endpoint is in D3hot. -/
  d3hot : Bool
deriving DecidableEq, Repr

/-! ### Logs (R384 to R394) -/

/-- An ALARM record (R385). -/
structure AlarmRec where
  typ : Nat
  isOpen : Bool
  mixed : Bool
  /-- Words that hold an uncorrectable error, by bit (R389). -/
  badWords : BitVec 8
  source : Nat
  count : Nat
  first : Nat
  last : Nat
  detail : Word
  seq : Nat
  exported : Bool
deriving DecidableEq, Repr

/-- A TRACE record (R385); the body is its last 16 bytes. -/
structure TraceRec where
  typ : Nat
  /-- Words that hold an uncorrectable error, by bit (R389). -/
  badWords : BitVec 8
  source : Nat
  seq : Nat
  time : Nat
  body : List Byte
  exported : Bool
deriving DecidableEq, Repr

/-- An AUDIT record (R374). -/
structure AuditRec where
  typ : Nat
  result : Nat
  count : Nat
  subject : Nat
  time : Nat
  detail : Nat
  seq : Nat
  link : BitVec 64
  /-- Words that hold an uncorrectable error, by bit (R389). -/
  badWords : BitVec 8
  exported : Bool
deriving DecidableEq, Repr

/-- Occurrences Calliope holds for a source while no ALARM record is free or open (R386). -/
structure HeldAlarm where
  source : Nat
  typ : Nat
  mixed : Bool
  count : Nat
  first : Nat
  last : Nat
  detail : Word
deriving DecidableEq, Repr

/-- AUDIT records of one type held as a count (R388). -/
structure HeldAudit where
  typ : Nat
  result : Nat
  subject : Nat
  detail : Nat
  time : Nat
  count : Nat
deriving DecidableEq, Repr

/-- TRACE records dropped since the last record was written (R387). -/
structure TraceDrop where
  count : Nat
  first : Nat
  last : Nat
deriving DecidableEq, Repr

/-- A record latched for reading (R392): its 32 bytes where it is valid, and what register 0x0003 says of it. -/
structure RecLatch where
  cls : Nat
  seq : Nat
  bytes : List Byte
  valid : Bool
  bad : Bool
  notYet : Bool
  overwritten : Bool
deriving DecidableEq, Repr

/-- ALARM occurrences of a source since the previous summary (R393). -/
structure AlarmStat where
  count : Nat
  last : Nat
deriving DecidableEq, Repr

/-- The state of one class's export (R390). -/
structure ExportState where
  /-- Records in the descriptor that has not completed, 0 where there is none. -/
  inFlight : Nat
  /-- Event 221 has been raised for the present hold. -/
  stalled : Bool
deriving DecidableEq, Repr

/-- The log SRAM and Calliope's own state. Records of a class are listed oldest first. -/
structure Logs where
  audit : List AuditRec
  alarm : List AlarmRec
  trace : List TraceRec
  alarmSeq : Nat
  traceSeq : Nat
  heldAlarm : List HeldAlarm
  heldAudit : List HeldAudit
  traceDrop : Option TraceDrop
  /-- Occurrences per source since the previous summary (R393). -/
  stats : List (Nat × AlarmStat)
  /-- A summary is brought forward to the next RTC second (R393). -/
  summaryDue : Bool
  /-- RTC seconds since the last summary (R393). -/
  summaryAge : Nat
  /-- The MMD 31 class select, the low half of a sequence being loaded or acknowledged, and its latch (R392). -/
  mmdClass : Nat
  mmdLow : Nat
  mmdAckLow : Nat
  mmdLatch : RecLatch
  /-- The latch of REC_SEL and REC_WIN (R392). -/
  recLatch : RecLatch
  /-- Export state of classes 0 to 2 (R390). -/
  expAudit : ExportState
  expAlarm : ExportState
  expTrace : ExportState
  /-- The log scrubber's position in 32-bit words (R389). -/
  scrubPos : Nat
deriving DecidableEq, Repr

/-! ### Performance counters (R396 to R408) -/

/-- What the counters hold beside their registers. -/
structure Perf where
  /-- PERF.CYCLE (R396). -/
  cycle : BitVec 64
  /-- For edge mode (R398): by group times 256 plus code, 1 + the cycle in which the signal was last 1. -/
  lastSeen : List (Nat × Nat)
  /-- Sequence of the next dump (R404). -/
  dumpSeq : Nat
  /-- The previous dump's descriptor has not completed (R404). -/
  dumpBusy : Bool
  /-- Instructions each core has issued since its last sample (R405). -/
  sampleAge : List (Nat × Nat)
  /-- The next sample dropped is the first since PERF.SAMP_RD was last written (R406). -/
  dropFresh : Bool
deriving DecidableEq, Repr

/-! ### Trust (R351 to R378) -/

/-- The AUDIT chain (R375). -/
structure AuditChain where
  /-- TST.AUDIT_HEAD, the chain head H. -/
  head : BitVec 512
  /-- TST.AUDIT_SEQ. -/
  seq : BitVec 64
deriving DecidableEq, Repr

/-! ### Sideshow messages on their way out (R198 to R202) -/

/-- A message the Sideshow program has to send. -/
structure SsMsg where
  mtype : Nat
  cls : Nat
  dest : Nat
  /-- The port a link-local message is confined to. -/
  port : Option Nat
  body : List Byte
  /-- The SRAM address it is written to in place of being sent (R365). -/
  place : Option Nat := none
deriving DecidableEq, Repr

/-- A reply owed to the origin of a command (R215). -/
structure DueReply where
  origin : Nat
  counter : Nat
  code : Nat
  signed : Bool
  /-- For a mailbox command: the SRAM address of the reply (R365). -/
  place : Option Nat := none
deriving DecidableEq, Repr

/-- What a signature the device is making is for (R376, R215, R371). -/
inductive SignUse where
  /-- A checkpoint of the AUDIT chain at this count and head; from the mailbox command or not. -/
  | checkpoint (seq : BitVec 64) (head : BitVec 512) (commanded : Bool)
  /-- A message sent with the signature appended to its body. -/
  | message (m : SsMsg)
deriving DecidableEq, Repr

/-- A text waiting for the lattice unit to sign it with the identity key. -/
structure SignJob where
  text : List Byte
  use : SignUse
deriving DecidableEq, Repr

/-! ### Ports (R54 to R104) -/

/-- A page of the exchange (R78). -/
inductive Page where
  | base (extNextPage : Bool) (fast100 : Bool)
  | clause40 (gigabit : Bool) (msCfg : Nat)
  | multiGBT (rates : Nat) (msCfg : Nat) (fastRetrain : Bool)
  | eee (rates : Nat)
  | sircor1 (field : Word)
  | sircor2 (capability : Word)
  | null
deriving DecidableEq, Repr

/-- What a port's supervision holds beside its registers. -/
structure Link where
  /-- Page exchanges that failed in a row (R94). -/
  exchFails : Nat
  /-- DEV_TIME of the fast retrains of the last 10 s (R99). -/
  retrains : List Nat
  /-- Training phase in progress, 0 outside training (R87, R164). -/
  phase : Nat
  /-- Mode and rate being trained (R82). -/
  mode : Nat
  rate : Nat
  /-- Revolutions in a row with margin_min below 0 dB (R98, R162). -/
  lowRun : Nat
  /-- The training exponent applies: link up has not been reported since the attempt began (R64). -/
  training : Bool
  /-- Fast retrain was advertised by both ends (R98). -/
  fastRetrain : Bool
  /-- The partner's EEE rates, coded as eee_adv (R261). -/
  partnerEee : Nat
  /-- The pages sent in the last exchange (R78). -/
  pages : List Page
  /-- Probe tries sent (R94). -/
  probeTries : Nat
  /-- DEV_TIME of the last automatic cable test (R96). -/
  lastTest : Option Nat
  /-- Limits of Reach training agreed under R82: highest N and deepest interleaver. -/
  reachCap : Nat
  reachDepth : Nat
  /-- A retrain follows the present wake (R263). -/
  retrainAfterWake : Bool
  /-- The fast retrain in progress came from PORT_CMD.fast_retrain (R100). -/
  cmdRetrain : Bool
  /-- Commanded cable tests of the port, running or waiting, oldest first; the reply a DIAG_RUN owes (R230). -/
  tests : List (Option DueReply)
  /-- The running cable test was started automatically (R95). -/
  autoTest : Bool
  /-- A self-test has taken the port off, as LINE_CFG.port_off would (R437, R441). -/
  faulted : Bool
  /-- The line configuration in force at the last link start: LINE_CFG and AN_ADV words (R101, R93). -/
  lastLineCfg : Word
  lastAdv : Word
deriving DecidableEq, Repr

/-! ### Trip path (R105 to R130) -/

/-- A trip session (R113, R114, R120, R121). -/
structure Sess where
  id : Nat
  key : BitVec 256
  /-- This device is the session's initiator. -/
  initiator : Bool
  /-- Index of the next code to send. -/
  txK : Nat
  /-- Lowest index the window accepts. -/
  rxBase : Nat
  /-- Transmit codes computed ahead, from index txK on. -/
  txCodes : List (BitVec 64)
  /-- Window entries computed, from index rxBase on. -/
  window : List (BitVec 64)
deriving DecidableEq, Repr

/-- A port's side of the trip path. -/
structure TripPort where
  /-- The session in force. -/
  sess : Option Sess
  /-- The session that replaces it, during a changeover (R373). -/
  next : Option Sess
  /-- The session in force is SUSPENDED (R115). -/
  suspended : Bool
  /-- An arm was accepted and the key agreement is in progress (R114). -/
  establishing : Bool
  /-- This side sends under `next`; the receive side has taken `next` (R373). -/
  txSwitched : Bool
  rxSwitched : Bool
  /-- The first slot under `next`, which is never a code, has still to be sent (R373). -/
  tagDue : Bool
  /-- seq and check of the next frame to send (R109). -/
  txSeq : BitVec 16
  txCheck : BitVec 16
  /-- seq and check expected of the next frame received (R109). -/
  rxSeq : BitVec 16
  rxCheck : BitVec 16
  /-- The receiver has taken a first seq and check. -/
  rxLocked : Bool
  /-- Good slots in a row (R111). -/
  goodRun : Nat
  /-- DEV_TIME of the wrong codes of the last second (R122). -/
  wrong : List Nat
  /-- Codes left in the burst being sent (R118). -/
  burst : Nat
  /-- A request waits for the first code or for the end of a retrain (R118, R120). -/
  waiting : Bool
deriving DecidableEq, Repr

/-- The pins and holds of the trip path (R123, R124). -/
structure TripPins where
  /-- Filtered levels of TRIP_IN[7:0]. -/
  level : BitVec 8
  /-- DEV_TIME at which the hold of TRIP_OUT[j] ends, 0 without a hold. -/
  hold : List (Nat × Nat)
deriving DecidableEq, Repr

/-! ### Neighbour cancellation (R131 to R148) -/

/-- A scan request (R140, R143): its ports, and the reply a DIAG_RUN owes. -/
structure ScanReq where
  ports : Word
  /-- The reply owed, for a scan DIAG_RUN started. -/
  reply : Option DueReply
deriving DecidableEq, Repr

/-- The tap pool and the bundle scan. -/
structure Pool where
  /-- JUG.BLOCK_DESC words of the active wheel (R133). -/
  descs : List (Nat × Word)
  /-- Taps by 64 * block + tap (R132). -/
  taps : List (Nat × BitVec 18)
  /-- Revolution at which a block's acquisition began (R138). -/
  acqFrom : List (Nat × Nat)
  /-- Blocks whose owning task is quarantined (R136). -/
  heldBlocks : List Nat
  /-- The running scan, and the one a DIAG_RUN has waiting (R140, R143). -/
  scan : Option ScanReq
  diagWaiting : Option ScanReq
  /-- Victim pairs of the running scan still to do, the first being scanned (R140). -/
  victims : List Nat
  /-- Map words that replace their group at the next revolution boundary (R142). -/
  mapReady : List (Nat × Word)
deriving DecidableEq, Repr

/-! ### Reach mode (R149 to R176) -/

/-- One data tone of a pair: bits loaded and averaged SNR in 0.01 dB (R157, R160). -/
structure Tone where
  bits : Nat
  snr : Option Int
deriving DecidableEq, Repr

/-- A loading change armed for a symbol (R161). -/
structure Armed where
  symCnt : Nat
  /-- Key 4096 * pair + tone and the new bit count. -/
  entries : List (Nat × Nat)
  /-- The change steps N down by one (R162). -/
  stepDown : Bool
  /-- Its symbol has passed in LPI; it takes effect at the first symbol after the wake. -/
  due : Bool
deriving DecidableEq, Repr

/-- A port's Reach state. -/
structure Reach where
  /-- Receive loading by 4096 * pair + tone. -/
  tones : List (Nat × Tone)
  /-- The transmitter's loading, as the partner's table gives it (R157). -/
  txTones : List (Nat × Tone)
  /-- FEQ coefficients, real and imaginary part, by 2 * (4096 * pair + tone) (R152). -/
  feq : List (Nat × BitVec 18)
  /-- The change this receiver asked for, before the partner's ARM (R161, R162). -/
  asked : Option Armed
  /-- The change armed in the receive direction, and the one armed in the transmit direction. -/
  armed : Option Armed
  armedTx : Option Armed
  /-- The last sym_cnt received (R154). -/
  symCnt : Nat
  /-- Phase 5 ended on its time limit: the PSD ramp completes at the next loading retrain (R172). -/
  rampShort : Bool
  /-- Steps of 5 dB the PSD is still below nominal, and the revolution of the last step (R172). -/
  psdSteps : Nat
  psdRev : Nat
  /-- Lowest margin of each other member when phase 5 began (R172). -/
  groupMargin : List (Nat × Int)
  /-- Bytes in the rate-matching FIFO (R173), the frames in it, and whether the host is paused. -/
  fifo : List Nat
  paused : Bool
deriving DecidableEq, Repr

/-! ### Monitoring (R219 to R229, R237) -/

/-- What a port's monitoring holds beside its registers. -/
structure Mon where
  /-- Consecutive low and ok revolutions (R219). -/
  low : Nat
  ok : Nat
  /-- Revolution boundaries passed in DATA since the port entered it (R225). -/
  inData : Nat
  /-- The reflections last observed and the reference: pair, distance in 0.1 m, level in 0.5 dB below the launch (R225). -/
  seen : List (Nat × Nat × Nat)
  reference : Option (List (Nat × Nat × Nat))
  /-- Uncorrected frames of the present revolution (R223). -/
  uncorr : Nat
  /-- Revolutions and advances since the last export record (R237). -/
  exportAge : Nat
  expCorr : Nat
  expUncorr : Nat
  expRx : Nat
deriving DecidableEq, Repr

/-! ### Port low-power idle (R256 to R269) -/

/-- A port's LPI state beside LPI_STATUS. -/
structure Lpi where
  /-- Snapshot of dedicated coefficients and pool taps (R265), with the keys they are held under. -/
  coefSnap : List (Nat × BitVec 18)
  tapSnap : List (Nat × BitVec 18)
  /-- A snapshot was taken in this run. -/
  taken : Bool
  /-- DEV_TIME up to which LPI_US has counted, while both directions are past sleep signalling (R269). -/
  since : Option Nat
deriving DecidableEq, Repr

/-! ### Calibration and rotation test (R240 to R255, R440, R441) -/

/-- A sub-converter or driver cell: its role (R249), the position it serves or shadows, its trims, and its INCOMPLETE results
in a row (R441). -/
structure Elem where
  role : Nat
  pos : Nat
  skew : Int
  gain : Int
  trim : Int
  short : Nat
deriving DecidableEq, Repr

/-- Why a spare is to take a position. -/
inductive SwitchWhy where
  | due | commanded | test
deriving DecidableEq, Repr

/-- A replacement or stand-in being prepared (R251, R252): pair, element, spare, the spare's OK visits at the position, and
whether it is ready. -/
structure Switch where
  pair : Nat
  elem : Nat
  spare : Nat
  why : SwitchWhy
  ready : Bool
deriving DecidableEq, Repr

/-- The rotation test step in progress (R440). -/
structure RotTest where
  /-- 0 engine, 1 sub-converters, 2 driver cells. -/
  kind : Nat
  /-- Engine 0 to 16, or pair. -/
  index : Nat
  /-- Elements still to test after the present one. -/
  rest : List Nat
  /-- The element under test and its stand-in; for an engine step the element is the engine. -/
  elem : Option Nat
  standIn : Option Nat
  /-- Result of the step so far: that of its first element not PASS. -/
  result : Option Nat
deriving DecidableEq, Repr

/-- The calibration engine and the rotation test. -/
structure Cal where
  /-- Elements by 90 * pair + element; sub-converters are 0 to 17, driver cells 18 to 89. -/
  elems : List (Nat × Elem)
  /-- OK visits of a spare at the position it shadows, by the same key (R250). -/
  shadow : List (Nat × Nat)
  switches : List Switch
  /-- Forced visits: pair and override (R253). -/
  forced : List (Nat × Bool)
  /-- Where the round resumes after forced visits, and the revolution at which it began. -/
  resume : Nat
  roundRev : Nat
  rot : Option RotTest
  /-- The next rotation step. -/
  rotNext : Nat
  /-- The engine JSP takes, and whether it gives it back, at the next boundary (R252). -/
  jspTake : Option Nat
  jspGive : Bool
  /-- INCOMPLETE results in a row of an engine (R441). -/
  engineShort : List (Nat × Nat)
  /-- Engines 0 to 15 retired; 16 stands for JSP (R437, R441). -/
  retired : List Nat
deriving DecidableEq, Repr

/-! ### Host lanes (R270 to R289) -/

/-- A tunnel message being assembled (R276): its length and the bytes so far. -/
structure TunnelRx where
  length : Nat
  bytes : List Byte
deriving DecidableEq, Repr

/-- A pending trip side block of a port (R276). -/
structure TripBlock where
  kind : Nat
  count : Nat
  time : Nat
deriving DecidableEq, Repr

/-- What a lane holds beside its registers. -/
structure Lane where
  /-- Revolutions in a row with the eye below and above its limit, and whether the next fall raises the event (R288). -/
  eyeBelow : Nat
  eyeAbove : Nat
  eyeArmed : Bool
  /-- Arrival offset of the last marker in sixteenths of a UI (R281). -/
  offset : Option Int
  /-- The USXGMII control word the host has acknowledged (R273). -/
  usxAck : Option Nat
deriving DecidableEq, Repr

/-- A port's side channel (R276). -/
structure SideChan where
  pending : Option TripBlock
  /-- Next seq to send of types 1 to 4, and the seq expected of tunnel start and continue blocks, by type. -/
  txSeq : List (Nat × Nat)
  rxSeq : List (Nat × Nat)
  rx : Option TunnelRx
  /-- Complete messages from the host, oldest first. -/
  inbox : List (List Byte)
deriving DecidableEq, Repr

/-! ### What leaves the device -/

/-! ### Tasks, jobs and the wheel (R290 to R332) -/

/-- A task record of a Nelno image (R317), with its 16 words as they stand. -/
structure TaskRec where
  core : Nat
  task : Nat
  user : Bool
  port : Option Nat
  period : Nat
  release : Nat
  deadline : Nat
  inflightMax : Nat
  wcet : Nat
  digest : Nat
  entry : Nat
  imemBase : Nat
  imemLen : Nat
  dataBase : Nat
  dataLen : Nat
  tripMask : Word
  words : List Word
deriving DecidableEq, Repr

/-- A job record (R319): type, owner (64 * core + task) and bytes 2 to 3. -/
structure JobRec where
  typ : Nat
  owner : Nat
  arg : Nat
deriving DecidableEq, Repr

/-- A slot record (R318): 255 and 65535 name nothing. -/
structure SlotRec where
  coreTask : List Nat
  engineJob : List Nat
  unitTask : List Nat
  bankOwner : List Nat
deriving DecidableEq, Repr

/-- A wheel: the contents of an admitted Nelno image. -/
structure WheelImg where
  imageId : BitVec 64
  /-- The firmware it was made for: the first 8 bytes of that image's measurement (R316). -/
  fwRef : Nat
  declMw : Nat
  tasks : List TaskRec
  jobs : List JobRec
  /-- Nonzero block descriptors by block (R133). -/
  descs : List (Nat × Word)
  /-- Port classes by port (R320). -/
  classes : List (Nat × Nat)
  slots : List SlotRec
  /-- User programs: 2^15 * core + word index, and the words. -/
  code : List (Nat × Word)
  /-- SHA3-512 of the image, which a switch extends M3 with (R368). -/
  digest : BitVec 512
deriving DecidableEq, Repr

/-- A firmware module: digest, core, base and length in instruction memory (R359). -/
structure Module where
  digest : Nat
  core : Nat
  base : Nat
  len : Nat
deriving DecidableEq, Repr

/-- The wheel banks and the loader. -/
structure Wheel where
  active : WheelImg
  /-- The bank that is LOADED, and the one before the active. -/
  loaded : Option WheelImg
  previous : Option WheelImg
  /-- A revert waits for the next boundary (R331). -/
  reverting : Bool
  /-- The load in progress reads the image of flash; else the host address and length it was given. -/
  fromFlash : Bool
  /-- A load command waits behind it: from flash or not. -/
  queued : Option Bool
  loadVa : Nat
  loadLen : Nat
  loadFrom : Nat
  /-- The image fetched, before admission. -/
  staged : List Byte
  /-- Late releases and windows completed, by 64 * core + task (R332). -/
  late : List (Nat × Nat)
  windows : List (Nat × Nat)
  /-- Juggler engines run no job in the switch revolution (R329). -/
  switchRev : Bool
deriving DecidableEq, Repr

/-- A task's context (R290, R291). -/
structure Ctx where
  regs : List (Nat × Word)
  preds : BitVec 8
  pc : Word
  user : Bool
  epc : Word
  ecode : Word
  estat : Word
  evec : Word
  cycleh : Word
  /-- 0 none, 1 JWAIT, 2 WAITS or YIELD, 3 memory wait or BCOPY (R313). -/
  wait : Nat
  waitHandle : Word
  /-- Slot and revolution a WAITS or YIELD waits for. -/
  waitSlot : Nat
  waitRev : Nat
  quarantined : Bool
deriving DecidableEq, Repr

/-- What a job in the job table does (R304, R307, R309). -/
inductive JobKind where
  | engine (job : Nat) (param : Nat)
  | dma (ring : Nat) (index : Nat) (trapFault : Bool)
  | hash (request : Nat)
  | lattice (op : Nat) (request : Nat)
  | snap (list : Nat)
deriving DecidableEq, Repr

/-- An entry of the job table (R303, R305). -/
structure Job where
  gen : Nat
  core : Nat
  task : Nat
  kind : JobKind
  detach : Bool
  started : Bool
  /-- Status of a job that has ended. -/
  status : Option Nat
deriving DecidableEq, Repr

/-- Jobs, contexts and instruction memory. -/
structure Seq where
  ctxs : List (Nat × Ctx)
  jobs : List (Nat × Job)
  /-- Generation last given to an entry. -/
  gens : List (Nat × Nat)
  /-- Entries in the order in which the table received their operations (R357). -/
  order : List Nat
  /-- Instruction memory by 2^15 * core + word index (R292). -/
  imem : List (Nat × Word)
  /-- Modules of the running firmware, and of the verified image (R493). -/
  modules : List Module
  nextModules : List Module
  /-- A context selection waits for the next slot boundary (R313). -/
  ctxDue : Bool
deriving DecidableEq, Repr

/-! ### Data SRAM, rings and translation (R333 to R350) -/

/-- Where a descriptor stands: in data SRAM, or made by a hardware exporter: host address and bytes. -/
inductive DescSrc where
  | sram (addr : Nat)
  | made (va : Nat) (bytes : List Byte)
deriving DecidableEq, Repr

/-- What the completion of a descriptor ends. -/
inductive DescUse where
  | job (entry : Nat)
  | host
  | logExport (cls : Nat) (last : Nat)
  | perfDump
deriving DecidableEq, Repr

/-- An outstanding descriptor (R337). -/
structure Desc where
  src : DescSrc
  use : DescUse
  index : Nat
  /-- Its poster was quarantined before it started (R349). -/
  skip : Bool
  started : Bool
deriving DecidableEq, Repr

/-- A ring beside its registers. -/
structure Ring where
  descs : List Desc
  /-- Index of the next descriptor posted. -/
  posted : Nat
  /-- Offset up to which read bursts of the head have been issued (R344). -/
  issued : Nat
deriving DecidableEq, Repr

/-- A read burst on its way (R343). -/
structure ReadReq where
  ring : Nat
  index : Nat
  sram : Nat
  offset : Nat
  len : Nat
  va : Nat
deriving DecidableEq, Repr

/-- A TLB entry (R341). -/
structure TlbEntry where
  va : Nat
  big : Bool
  pa : Nat
  canRead : Bool
  canWrite : Bool
deriving DecidableEq, Repr

/-- The DMA engine, the walker and the SRAM's protection. -/
structure Dma where
  /-- Words with an uncorrectable error, by word address (R333). -/
  marked : List Nat
  rings : List (Nat × Ring)
  /-- TLB entries, most recently used first. -/
  tlb : List TlbEntry
  /-- Read bursts outstanding, oldest first. -/
  reads : List ReadReq
  /-- The ring served last at each priority (R343). -/
  served : List (Nat × Nat)
  /-- The walk in progress has to be done again (R342). -/
  rewalk : Bool
  /-- At least one correction in this revolution (R333). -/
  corrected : Bool
  /-- Words read in the present scrub pass, by bank (R334). -/
  scrub : List (Nat × Nat)
deriving DecidableEq, Repr

/-! ### Sideshow (R177 to R218) -/

/-- A Sideshow frame: the header of R180 and its payload. -/
structure SsFrame where
  cls : Nat
  rate4 : Bool
  wake : Bool
  ackReq : Bool
  ack : Bool
  dst : Nat
  src : Nat
  seq : Nat
  payload : List Byte
deriving DecidableEq, Repr

/-- A frame in a transmit queue (R185, R186). -/
structure TxFrame where
  frame : SsFrame
  /-- Retries made, and the contention window's exponent. -/
  tries : Nat
  cw : Nat
  /-- It has been sent at least once, so it keeps its link_seq. -/
  sent : Bool
deriving DecidableEq, Repr

/-- A received frame with its record (R189). -/
structure RxRec where
  port : Nat
  frame : SsFrame
  /-- RSSI in 0.5 dB above -100 dBm. -/
  rssi : Nat
  corrBits : Nat
  corrBytes : Nat
  time : Nat
deriving DecidableEq, Repr

/-- A port's modem. -/
structure Modem where
  /-- Queued frames of all classes, oldest first. -/
  queue : List TxFrame
  /-- The frame whose acknowledgement is awaited. -/
  waiting : Option TxFrame
  nextSeq : Nat
  /-- The last link_seq delivered from each source. -/
  lastSeq : List (Nat × Nat)
  /-- The acknowledgement owed: destination and link_seq. -/
  ackOwed : Option (Nat × Nat)
  /-- Receive buffers in use, oldest first. -/
  rx : List RxRec
  /-- Beacons sent (R204). -/
  bseq : Nat
deriving DecidableEq, Repr

/-- A message with the network header's fields (R198). -/
structure NetMsg where
  /-- The port it arrived on. -/
  port : Option Nat
  /-- The link source of its frames. -/
  src : Nat
  cls : Nat
  mtype : Nat
  hops : Nat
  origin : Nat
  final : Nat
  msgId : Nat
  body : List Byte
deriving DecidableEq, Repr

/-- A message being reassembled (R199). -/
structure ReasmBuf where
  msg : NetMsg
  cnt : Nat
  len : Nat
  frags : List (Nat × List Byte)
  /-- DEV_TIME of its last new fragment. -/
  last : Nat
deriving DecidableEq, Repr

/-- A message on its way out: its port, link destination, preamble, next fragment (R199, R202). -/
structure OutMsg where
  msg : NetMsg
  out : Nat
  dst : Nat
  wake : Bool
  next : Nat
deriving DecidableEq, Repr

/-- A route entry (R205). -/
structure Route where
  manifest : Bool
  port : Nat
  metric : Nat
  hop : Nat
deriving DecidableEq, Repr

/-- A peer context (R207, R218). -/
structure NetCtx where
  /-- 1 neighbour up; 2 neighbour MISSING; 3 not a neighbour. -/
  nbr : Nat
  port : Nat
  power : Nat
  interval : Nat
  address : Nat
  replay : Nat
  route : Option Route
  /-- DEV_TIME of the last beacon. -/
  last : Nat
  idTag : Nat
  identity : BitVec 512
  /-- The port of a trip session or arm shared with this node. -/
  tripPort : Option Nat
deriving DecidableEq, Repr

/-- The Sideshow network program and the modems. -/
structure Net where
  modems : List (Nat × Modem)
  /-- The sleep receive queue (R193). -/
  sleepQueue : List RxRec
  /-- In SLEEP, the Sideshow oscillator has been started, and is usable; failures to start in a row (R15, R194). -/
  oscStarting : Bool
  oscOn : Bool
  oscFails : Nat
  /-- Messages being reassembled, and those complete that wait to be taken (R199, R200). -/
  reasm : List ReasmBuf
  ready : List NetMsg
  /-- Peer contexts by index (R207). -/
  ctxs : List (Nat × NetCtx)
  outgoing : List OutMsg
  /-- Number of the last message originated (R198). -/
  msgId : Nat
deriving DecidableEq, Repr

/-! ### Keys, OTP, flash, judgement (R351 to R378, R431) -/

/-- An owner slot (R351). -/
structure OwnerSlot where
  hash : BitVec 512
  enrolled : Bool
  revoked : Bool
deriving DecidableEq, Repr

/-- The OTP (R351). -/
structure Otp where
  rootHash : BitVec 512
  idCommit : BitVec 512
  helper : List Byte
  owners : List (Nat × OwnerSlot)
  rollback : Nat
  sealBits : BitVec 2
  part : Word
deriving DecidableEq, Repr

/-- An operator key (R362). -/
structure OpKey where
  permitted : BitVec 16
  key : List Byte
deriving DecidableEq, Repr

/-- A manifest entry (R362). -/
inductive Entry where
  | reg (addr : Nat) (value : Word)
  | route (node port metric hop : Nat)
  | routeDel (node : Nat)
  | opKey (slot : Nat) (permitted : BitVec 16) (key : List Byte)
  | opKeyDel (slot : Nat)
  | ownerEnrol (slot : Nat) (hash : BitVec 512)
  | ownerRevoke (slot : Nat)
  | svnCommit (value : Nat)
  | sealDevice
deriving DecidableEq, Repr

/-- Where an item came from: the mailbox, or a node of the network (with the network header's origin and final), or a port's
tunnel. -/
inductive ItemSrc where
  | mailbox
  | network (origin final : Nat)
deriving DecidableEq, Repr

/-- An item the Turnstile has to judge (R358). -/
structure Item where
  src : ItemSrc
  manifest : Bool
  bytes : List Byte
  /-- The SRAM address of the reply to a mailbox command (R365). -/
  place : Nat
deriving DecidableEq, Repr

/-- A manifest that has been judged good: its entries wait for the boundary (R363). -/
structure Staged where
  src : ItemSrc
  entries : List Entry
  digest : BitVec 512
  seq : Nat
  /-- The owner slot that signed it. -/
  slot : Nat
deriving DecidableEq, Repr

/-- An accepted command (R210). -/
structure Command where
  src : ItemSrc
  code : Nat
  signed : Bool
  origin : Nat
  counter : Nat
  body : List Byte
  place : Nat
deriving DecidableEq, Repr

/-- What waits for its journal write (R209, R211, R363). -/
inductive Judged where
  | command (c : Command)
  | manifest (m : Staged)
deriving DecidableEq, Repr

/-- The establishment of a trip session on a port (R370 to R373). -/
structure Arm where
  /-- The peer's address and identity commitment. -/
  peer : Nat
  commit : BitVec 512
  /-- DEV_TIME of the arm and of the last OFFER. -/
  since : Nat
  lastOffer : Nat
  sessionId : Nat
  /-- Which random draw made the key pair. -/
  draw : Nat
  /-- OFFER and ACCEPT, each without its signature (R372). -/
  offer : List Byte
  accept : List Byte
  key : Option (BitVec 256)
  th : BitVec 512
deriving DecidableEq, Repr

/-- The replay journal (R209, R375). -/
structure Journal where
  replay : List (Nat × Nat)
  manifestSeq : Nat
  startCount : Nat
deriving DecidableEq, Repr

/-- The flash (R431). -/
structure Flash where
  /-- The boot record: valid magic and CRC, preferred image, sequence. -/
  recordGood : Bool
  preferred : Nat
  recordSeq : Nat
  journal : Journal
  idCert : List Byte
  imageA : List Byte
  imageB : List Byte
  nelno : List Byte
deriving DecidableEq, Repr

/-- What the Turnstile holds. -/
structure Trust where
  otp : Otp
  flash : Flash
  opKeys : List (Nat × OpKey)
  /-- Items waiting, the first being judged. -/
  items : List Item
  judging : Option Judged
  staged : List Staged
  arms : List (Nat × Arm)
  /-- ML-KEM key slots: which random draw made the pair (R307). -/
  kem : List (Nat × Nat)
  /-- Random draws so far (the model's own: what they gave is Config's). -/
  draws : Nat
  /-- The identity public key derived at the start (R355). -/
  idPublic : List Byte
deriving DecidableEq, Repr

/-- The running firmware, the update in progress and the snapshot (R446 to R450). -/
structure Firmware where
  measurement : BitVec 512
  svn : Nat
  /-- The image being written or written, and the verified one's measurement, certificate digest and svn. -/
  writing : List Byte
  verified : Option (BitVec 512 × BitVec 512 × Nat)
  /-- activate has been accepted (R446). -/
  activate : Bool
  /-- Revolutions in which the Juggler engines still run no job (R447). -/
  frozen : Nat
  /-- FW_STATUS.cmd_refused, which the layout of R453 gives no bit (R448). -/
  cmdRefused : Bool
  /-- The next snapshot rewrites both copies (R424, R450). -/
  both : Bool
  /-- The copy of the snapshot last completed (R449), and DEV_TIME at which hold was set (R450). -/
  newest : Nat
  holdFrom : Option Nat
deriving DecidableEq, Repr

/-! ### Power and start (R409 to R444, R476) -/

/-- Where the Ringmaster's work on a request or a wake stands (R411 to R421). -/
inductive PowerStage where
  /-- Nothing in progress. -/
  | rest
  /-- A change between RUN and IDLE, at the next slot boundary. -/
  | slot
  /-- The entry handshake: blocks that have delayed their answer. -/
  | asking (delayed : List Nat)
  /-- The wheel stops at the next revolution boundary. -/
  | stopping
  /-- The shutdown test runs. -/
  | testing
  /-- CRCs of the retained banks are being taken. -/
  | crc
  /-- Power-3 beacons are being sent. -/
  | beacons
  /-- The rails are commanded for the target state. -/
  | entryRails
  /-- A wake: crystal and rails. -/
  | waking
  /-- A wake: the system PLL runs and the CRCs are checked. -/
  | checking
deriving DecidableEq, Repr

/-- A rail that has been commanded and has not acknowledged (R426). -/
structure RailReq where
  rail : Nat
  since : Nat
deriving DecidableEq, Repr

/-- The Ringmaster. -/
structure Power where
  stage : PowerStage
  /-- Requests written, waiting for their tick: state and source. -/
  asked : List (Nat × Nat)
  /-- Source of the request pending. -/
  pendSrc : Nat
  /-- A wake waiting for its tick: its source (R420). -/
  wake : Option Nat
  /-- Register writes of the block that take effect at the next tick (R50): address, value, and who wrote it (0 host over PCIe, 1 host over MDIO, 2 firmware,
  3 a manifest). -/
  writes : List (Nat × Word × Nat)
  /-- Rails still to be commanded, in order, and the one that has not acknowledged. -/
  railsDue : List Nat
  rail : Option RailReq
  /-- A rail faulted in this entry. -/
  railFault : Bool
  /-- VDD_CORE could not be raised: the wake is tried again (R426). -/
  retry : Bool
  crystal : Bool
  /-- The WAKE pin is asserted. -/
  wakePin : Bool
  /-- The RTC alarm has been met. -/
  alarmMet : Bool
  /-- RTC seconds and 1/32,768 s. -/
  rtcSec : Nat
  rtcFrac : Nat
  /-- The high word of RTC_SET_SEC has been written: the RTC is set at the next tick. -/
  rtcSet : Bool
  /-- Banks retained at entry (R423). -/
  retained : Nat
deriving DecidableEq, Repr

/-- How far a start has come (R434, R476). -/
inductive BootStage where
  | unpowered
  | held
  | testing
  | booting
  | ready
  | safe
deriving DecidableEq, Repr

/-- Start-up and its test. -/
structure Boot where
  stage : BootStage
  /-- Segment under test, and whether it is run once more (R437). -/
  seg : Nat
  again : Bool
  /-- The firmware image taken from the mailbox in Safe hold, none where it is empty (R442). -/
  image : List Byte
deriving DecidableEq, Repr

/-! ### What leaves the device -/

/-- Something the device has sent or answered. -/
inductive Output where
  /-- The MSI-X message of a vector: the table entry's address and data (R381). -/
  | msix (vector : Nat) (addr : Nat) (data : Word)
  /-- The completion of a host read (R42). -/
  | readData (addr : Nat) (value : Word)
  /-- A read ended as Completer Abort (R47). -/
  | completerAbort (addr : Nat)
  /-- The value an MDIO read returned (R48, R470). -/
  | mdioData (port mmd reg : Nat) (value : BitVec 16)
  /-- A trip slot word sent on a port (R107, R108). -/
  | tripSlot (port : Nat) (word : BitVec 64)
  /-- A PAUSE frame toward the host with its quanta (R173). -/
  | pause (port : Nat) (quanta : Nat)
  /-- Frames released to the host lane, or error blocks in their place (R69, R70). -/
  | frameOut (port : Nat) (error : Bool)
  /-- A TRIP_OUT pin changed: driven low or released (R124). -/
  | tripOut (pin : Nat) (drivenLow : Bool)
  /-- A message on a port's Reach overhead channel: 0 bit-swap request, 1 ARM, 2 rate step down, 3 loading table (the model's
  own numbers, R154), with its entries: 4096 * pair + tone and bits, or the sym_cnt named. -/
  | reachMessage (port : Nat) (kind : Nat) (symCnt : Nat) (entries : List (Nat × Nat))
  /-- A side block sent toward the host (R275). -/
  | sideBlock (port typ seq data : Nat)
  /-- A Memory Write TLP: host physical address and bytes (R343). -/
  | hostWrite (pa : Nat) (bytes : List Byte)
  /-- A Memory Read request: host physical address and length (R343). -/
  | hostRead (pa len : Nat)
  /-- A Sideshow frame sent on a port: the frame, and the bits that follow its sync word as they are on the line (R179). -/
  | ssFrame (port : Nat) (frame : SsFrame) (bits : List Bool)
  /-- A rail is commanded over PMBus to a value in mV: PAGE, then VOUT_COMMAND (R425). -/
  | railCommand (rail : Nat) (millivolts : Nat)
  /-- CLEAR_FAULTS sent to a rail's regulator (R426). -/
  | railClear (rail : Nat)
deriving DecidableEq, Repr

/-- No record latched. -/
def RecLatch.empty : RecLatch :=
  { cls := 0, seq := 0, bytes := [], valid := false, bad := false, notYet := true, overwritten := false }

/-- No export in progress. -/
def ExportState.idle : ExportState := { inFlight := 0, stalled := false }

/-- The logs after reset: every region empty, sequences 0 (R384). -/
def Logs.reset : Logs :=
  { audit := [], alarm := [], trace := [], alarmSeq := 0, traceSeq := 0, heldAlarm := [], heldAudit := [],
    traceDrop := none, stats := [], summaryDue := false, summaryAge := 0, mmdClass := 0, mmdLow := 0, mmdAckLow := 0,
    mmdLatch := RecLatch.empty, recLatch := RecLatch.empty, expAudit := ExportState.idle,
    expAlarm := ExportState.idle, expTrace := ExportState.idle, scrubPos := 0 }

/-- A port's supervision at reset (R102: BREAK, nothing tried). -/
def Link.reset : Link :=
  { exchFails := 0, retrains := [], phase := 0, mode := 7, rate := 7, lowRun := 0, training := true, fastRetrain := false,
    partnerEee := 0, pages := [], probeTries := 0, lastTest := none, reachCap := 0, reachDepth := 0,
    retrainAfterWake := false, cmdRetrain := false, tests := [], autoTest := false, faulted := false,
    lastLineCfg := 0x40, lastAdv := 0x2F1F }

/-- A port's trip path at reset: no session (R114), the sender's values of R109. -/
def TripPort.reset : TripPort :=
  { sess := none, next := none, suspended := false, establishing := false, txSwitched := false, rxSwitched := false,
    tagDue := false, txSeq := 0, txCheck := 0xACE1, rxSeq := 0, rxCheck := 0xACE1, rxLocked := false, goodRun := 0, wrong := [], burst := 0, waiting := false }

/-- A tone before any measurement (R175). -/
def Tone.none : Tone := { bits := 0, snr := Option.none }

/-- A port's Reach state at reset. -/
def Reach.reset : Reach :=
  { tones := [], txTones := [], feq := [], asked := none, armed := none, armedTx := none, symCnt := 0, rampShort := false, psdSteps := 0,
    psdRev := 0, groupMargin := [], fifo := [], paused := false }

/-- A port's monitoring at reset. -/
def Mon.reset : Mon :=
  { low := 0, ok := 0, inData := 0, seen := [], reference := none, uncorr := 0, exportAge := 0, expCorr := 0, expUncorr := 0,
    expRx := 0 }

/-- A port's LPI state at reset. -/
def Lpi.reset : Lpi := { coefSnap := [], tapSnap := [], taken := false, since := none }

/-- The tap pool at reset: no block allocated, no scan. -/
def Pool.reset : Pool :=
  { descs := [], taps := [], acqFrom := [], heldBlocks := [], scan := none, diagWaiting := none, victims := [],
    mapReady := [] }

/-- The calibration engine after reset: every trim zero (R241). -/
def Cal.reset : Cal :=
  { elems := [], shadow := [], switches := [], forced := [], resume := 0, roundRev := 0, rot := none, rotNext := 0,
    jspTake := none, jspGive := false, engineShort := [], retired := [] }

/-- A lane at reset. -/
def Lane.reset : Lane := { eyeBelow := 0, eyeAbove := 0, eyeArmed := true, offset := none, usxAck := none }

/-- A port's side channel at reset. -/
def SideChan.reset : SideChan := { pending := none, txSeq := [], rxSeq := [], rx := none, inbox := [] }

/-- No wheel. -/
def WheelImg.empty : WheelImg :=
  { imageId := 0, fwRef := 0, declMw := 0, tasks := [], jobs := [], descs := [], classes := [], slots := [], code := [], digest := 0 }

/-- The wheel banks at reset: no wheel runs (R434). -/
def Wheel.reset : Wheel :=
  { active := WheelImg.empty, loaded := none, previous := none, reverting := false, fromFlash := false, queued := none, loadVa := 0,
    loadLen := 0, loadFrom := 0, staged := [], late := [], windows := [], switchRev := false }

/-- A context nothing has run in (R313: p0 reads 1). -/
def Ctx.reset : Ctx :=
  { regs := [], preds := 1, pc := 0, user := false, epc := 0, ecode := 0, estat := 0, evec := 0, cycleh := 0, wait := 0,
    waitHandle := 0, waitSlot := 0, waitRev := 0, quarantined := false }

/-- The sequencers at reset. -/
def Seq.reset : Seq := { ctxs := [], jobs := [], gens := [], order := [], imem := [], modules := [], nextModules := [], ctxDue := false }

/-- A ring at reset. -/
def Ring.reset : Ring := { descs := [], posted := 0, issued := 0 }

/-- The DMA engine at reset. -/
def Dma.reset : Dma :=
  { marked := [], rings := [], tlb := [], reads := [], served := [], rewalk := false, corrected := false, scrub := [] }

/-- A modem at reset. -/
def Modem.reset : Modem :=
  { queue := [], waiting := none, nextSeq := 0, lastSeq := [], ackOwed := none, rx := [], bseq := 0 }

/-- The Sideshow network at reset. -/
def Net.reset : Net :=
  { modems := [], sleepQueue := [], oscStarting := false, oscOn := false, oscFails := 0, reasm := [], ready := [], ctxs := [], outgoing := [],
    msgId := 0 }

/-- Blank OTP. -/
def Otp.blank : Otp :=
  { rootHash := 0, idCommit := 0, helper := [], owners := [], rollback := 0, sealBits := 0, part := 0 }

/-- Blank flash. -/
def Flash.blank : Flash :=
  { recordGood := false, preferred := 0, recordSeq := 0, journal := { replay := [], manifestSeq := 0, startCount := 0 },
    idCert := [], imageA := [], imageB := [], nelno := [] }

/-- The Turnstile at reset. -/
def Trust.reset : Trust :=
  { otp := Otp.blank, flash := Flash.blank, opKeys := [], items := [], judging := none, staged := [], arms := [], kem := [],
    draws := 0, idPublic := [] }

/-- No firmware runs. -/
def Firmware.reset : Firmware :=
  { measurement := 0, svn := 0, writing := [], verified := none, activate := false, frozen := 0, cmdRefused := false, both := false, newest := 1, holdFrom := none }

/-- The Ringmaster at power-on. -/
def Power.reset : Power :=
  { stage := .rest, asked := [], pendSrc := 0, wake := none, writes := [], railsDue := [], rail := none, railFault := false,
    retry := false, crystal := false, wakePin := false, alarmMet := false, rtcSec := 0, rtcFrac := 0, rtcSet := false,
    retained := 0xFFFFFF }

/-- Power is there; the device holds itself in reset until RESET_RELEASE (R476). -/
def Boot.reset : Boot := { stage := .held, seg := 0, again := false, image := [] }

/-! ### The whole state -/

/-- The state of the device. -/
structure State where
  /-- The commands waiting, first in first out. -/
  pending : List Instr
  /-- The register file: BAR0 offset to word, active copies at their own offsets (R30); an unlisted register reads its reset word. -/
  regs : List (Nat × Word)
  /-- Clocks and time. -/
  clk : Clock
  /-- The register file's own state. -/
  host : HostSide
  /-- The PCIe endpoint. -/
  pcie : Pcie
  /-- The log SRAM and Calliope. -/
  logs : Logs
  /-- What the device has sent to the outside, oldest first (the model's own record, no state of the device). -/
  out : List Output
  /-- How many free values have been drawn (the model's own field). -/
  freeCount : Nat
  /-- The performance counters' own state. -/
  perf : Perf
  /-- The AUDIT chain. -/
  chain : AuditChain
  /-- Messages the Sideshow program has to send, oldest first (R202). -/
  messages : List SsMsg
  /-- Texts waiting for the device's signature, oldest first (R357). -/
  signing : List SignJob
  /-- Signatures made so far (the model's own: hedged signing draws fresh randomness each time). -/
  signCount : Nat
  /-- Supervision of the ports, by port. -/
  links : List (Nat × Link)
  /-- Dedicated coefficients, by 2512 * (4 * port + pair) + index (R62, R467). -/
  coefs : List (Nat × BitVec 18)
  /-- The ports' sides of the trip path, by port. -/
  trips : List (Nat × TripPort)
  /-- The trip pins; undriven, TRIP_IN is high (R477). -/
  pins : TripPins
  /-- The tap pool and the bundle scan. -/
  pool : Pool
  /-- Reach state of the ports, by port. -/
  reach : List (Nat × Reach)
  /-- LPI state of the ports, by port. -/
  lpi : List (Nat × Lpi)
  /-- Port classes of the active wheel; an unlisted port has class 7 (R320). -/
  classes : List (Nat × Nat)
  /-- Monitoring of the ports, by port. -/
  mons : List (Nat × Mon)
  /-- The calibration engine and the rotation test. -/
  cal : Cal
  /-- Host lanes, by lane. -/
  lanes : List (Nat × Lane)
  /-- Side channels of the ports, by port (R276). -/
  sides : List (Nat × SideChan)
  /-- Data SRAM; a byte nothing has written reads 0 (R434). -/
  sram : List Host.Cell
  /-- The wheel banks and the loader. -/
  wheel : Wheel
  /-- Contexts, jobs and instruction memory. -/
  seq : Seq
  /-- Rings, translation, read bursts, SRAM protection. -/
  dma : Dma
  /-- The Sideshow modems and network. -/
  net : Net
  /-- The Turnstile, the OTP and the flash. -/
  trust : Trust
  /-- The running firmware, its update and the state snapshot. -/
  fw : Firmware
  /-- The Ringmaster. -/
  power : Power
  /-- Start-up. -/
  boot : Boot
deriving DecidableEq, Repr

/-- Reasons to stop with a fault: the spec stops the device nowhere, so there is none. Every failure it describes (a bus
error, an exception, Safe hold, an unpowered device) is a state the device goes on from. -/
inductive Fault where
deriving DecidableEq, Repr

/-- Reasons to refuse a command. -/
inductive Refusal where
  /-- The command has no meaning in this model yet; raised by Dispatch alone. Safe: nothing is claimed of it. -/
  | notModelled (mnemonic : String)
deriving DecidableEq, Repr

/-- The state right after reset (R468): power has just been applied and released, every register reads its reset word,
memories list nothing, no command waits. Values the spec does not give are named in the assumption log. -/
def State.reset : State :=
  { pending := [],
    regs := [],
    clk := { devTime := 0, frac := 0, cycle := 0, slot := 0, rev := 0, pllOn := false, wheelOn := false },
    host := { clampLog := [], ignFresh := true, busFresh := true, latches := [], wc := [], mdioAddr := 0, mdioData := 0, mdioBusy := none, linkHigh := [], refusedWrites := none, refusedSram := none, refusedCmds := none },
    pcie := { linkUp := false, msixEnable := false, functionMask := false, d3hot := false },
    logs := Logs.reset,
    out := [],
    freeCount := 0,
    perf := { cycle := 0, lastSeen := [], dumpSeq := 0, dumpBusy := false, sampleAge := [], dropFresh := true },
    chain := { head := 0, seq := 0 },
    messages := [],
    signing := [],
    signCount := 0,
    links := [],
    coefs := [],
    trips := [],
    pins := { level := 0xFF, hold := [] },
    pool := Pool.reset,
    reach := [],
    lpi := [],
    classes := [],
    mons := [],
    cal := Cal.reset,
    lanes := [],
    sides := [],
    sram := [],
    wheel := Wheel.reset,
    seq := Seq.reset,
    dma := Dma.reset,
    net := Net.reset,
    trust := Trust.reset,
    fw := Firmware.reset,
    power := Power.reset,
    boot := Boot.reset }

end Sys2Proof.Machine
end

