-- ==== Sys2Proof/Machine/Fields.lean ====
section
/-! DEFINITION. One setter per field of the state. -/

namespace Sys2Proof.Machine

/-- The state with `pending` replaced. -/
def State.withPending (s : State) (v : List Instr) : State := { s with pending := v }

/-- The state with `regs` replaced. -/
def State.withRegs (s : State) (v : List (Nat × Word)) : State := { s with regs := v }

/-- The state with `clk` replaced. -/
def State.withClk (s : State) (v : Clock) : State := { s with clk := v }

/-- The state with `host` replaced. -/
def State.withHost (s : State) (v : HostSide) : State := { s with host := v }

/-- The state with `pcie` replaced. -/
def State.withPcie (s : State) (v : Pcie) : State := { s with pcie := v }

/-- The state with `logs` replaced. -/
def State.withLogs (s : State) (v : Logs) : State := { s with logs := v }

/-- The state with `out` replaced. -/
def State.withOut (s : State) (v : List Output) : State := { s with out := v }

/-- The state with `freeCount` replaced. -/
def State.withFreeCount (s : State) (v : Nat) : State := { s with freeCount := v }

/-- The state with `perf` replaced. -/
def State.withPerf (s : State) (v : Perf) : State := { s with perf := v }

/-- The state with `chain` replaced. -/
def State.withChain (s : State) (v : AuditChain) : State := { s with chain := v }

/-- The state with `messages` replaced. -/
def State.withMessages (s : State) (v : List SsMsg) : State := { s with messages := v }

/-- The state with `signing` replaced. -/
def State.withSigning (s : State) (v : List SignJob) : State := { s with signing := v }

/-- The state with `signCount` replaced. -/
def State.withSignCount (s : State) (v : Nat) : State := { s with signCount := v }

/-- The state with `links` replaced. -/
def State.withLinks (s : State) (v : List (Nat × Link)) : State := { s with links := v }

/-- The state with `coefs` replaced. -/
def State.withCoefs (s : State) (v : List (Nat × BitVec 18)) : State := { s with coefs := v }

/-- The state with `trips` replaced. -/
def State.withTrips (s : State) (v : List (Nat × TripPort)) : State := { s with trips := v }

/-- The state with `pins` replaced. -/
def State.withPins (s : State) (v : TripPins) : State := { s with pins := v }

/-- The state with `pool` replaced. -/
def State.withPool (s : State) (v : Pool) : State := { s with pool := v }

/-- The state with `reach` replaced. -/
def State.withReach (s : State) (v : List (Nat × Reach)) : State := { s with reach := v }

/-- The state with `lpi` replaced. -/
def State.withLpi (s : State) (v : List (Nat × Lpi)) : State := { s with lpi := v }

/-- The state with `classes` replaced. -/
def State.withClasses (s : State) (v : List (Nat × Nat)) : State := { s with classes := v }

/-- The state with `mons` replaced. -/
def State.withMons (s : State) (v : List (Nat × Mon)) : State := { s with mons := v }

/-- The state with `cal` replaced. -/
def State.withCal (s : State) (v : Cal) : State := { s with cal := v }

/-- The state with `lanes` replaced. -/
def State.withLanes (s : State) (v : List (Nat × Lane)) : State := { s with lanes := v }

/-- The state with `sides` replaced. -/
def State.withSides (s : State) (v : List (Nat × SideChan)) : State := { s with sides := v }

/-- The state with `sram` replaced. -/
def State.withSram (s : State) (v : List Host.Cell) : State := { s with sram := v }

/-- The state with `wheel` replaced. -/
def State.withWheel (s : State) (v : Wheel) : State := { s with wheel := v }

/-- The state with `seq` replaced. -/
def State.withSeq (s : State) (v : Seq) : State := { s with seq := v }

/-- The state with `dma` replaced. -/
def State.withDma (s : State) (v : Dma) : State := { s with dma := v }

/-- The state with `net` replaced. -/
def State.withNet (s : State) (v : Net) : State := { s with net := v }

/-- The state with `trust` replaced. -/
def State.withTrust (s : State) (v : Trust) : State := { s with trust := v }

/-- The state with `fw` replaced. -/
def State.withFw (s : State) (v : Firmware) : State := { s with fw := v }

/-- The state with `power` replaced. -/
def State.withPower (s : State) (v : Power) : State := { s with power := v }

/-- The state with `boot` replaced. -/
def State.withBoot (s : State) (v : Boot) : State := { s with boot := v }

end Sys2Proof.Machine
end

