-- ==== Sys2Proof/Machine/Store.lean ====
section
/-! DEFINITION. Sparse stores in one canonical form, and bit fields of a word. A store lists (key, value) pairs with keys
strictly rising and lists no value equal to the default of its key, so equal stores are equal data. -/

namespace Sys2Proof.Machine

/-- The value a store holds at a key: the listed one, else the default. -/
def sget {β : Type} (d : Nat → β) : List (Nat × β) → Nat → β
  | [], a => d a
  | (k, v) :: t, a => if k = a then v else sget d t a

/-- Take a key out of a store. -/
def serase {β : Type} (m : List (Nat × β)) (a : Nat) : List (Nat × β) :=
  m.filter (fun e => decide (e.1 ≠ a))

/-- Put a pair where its key belongs in a store with rising keys. -/
def sinsert {β : Type} : List (Nat × β) → Nat → β → List (Nat × β)
  | [], a, v => [(a, v)]
  | (k, w) :: t, a, v => if a < k then (a, v) :: (k, w) :: t else (k, w) :: sinsert t a v

/-- Write a key of a store; writing the default removes the entry. -/
def sput {β : Type} [DecidableEq β] (d : Nat → β) (m : List (Nat × β)) (a : Nat) (v : β) : List (Nat × β) :=
  if v = d a then serase m a else sinsert (serase m a) a v

/-- Change the value at a key. -/
def supd {β : Type} [DecidableEq β] (d : Nat → β) (m : List (Nat × β)) (a : Nat) (f : β → β) : List (Nat × β) :=
  sput d m a (f (sget d m a))

/-- The canonical form: keys strictly rising, no default value listed. -/
abbrev storeWf {β : Type} (d : Nat → β) (m : List (Nat × β)) : Prop :=
  m.Pairwise (fun x y => x.1 < y.1) ∧ ∀ e ∈ m, e.2 ≠ d e.1

/-- A bit field of a 32-bit register: the BAR0 address of the register (of index 0, where the register is one of an array),
the lowest bit, the width in bits and the distance in bytes to the next register of the array. -/
structure Field where
  addr : Nat
  lsb : Nat
  width : Nat
  stride : Nat
deriving DecidableEq, Repr

/-- The field in register `i` of its array. -/
def Field.nth (f : Field) (i : Nat) : Field := { f with addr := f.addr + f.stride * i }

/-- The field in port `n`'s register block (R461). -/
def Field.port (f : Field) (n : Nat) : Field := { f with addr := f.addr + 0x10000 * n }

/-- The field in the active copy of its register (R30). -/
def Field.active (f : Field) : Field := { f with addr := f.addr + 0x8000 }

/-- The value of `width` bits of a word from bit `lsb`. -/
def bitsOf (w : Word) (lsb width : Nat) : Nat := w.toNat / 2 ^ lsb % 2 ^ width

/-- A word with `width` bits from bit `lsb` replaced by the low bits of `v`. -/
def withBits (w : Word) (lsb width v : Nat) : Word :=
  BitVec.ofNat 32 (w.toNat % 2 ^ lsb + v % 2 ^ width * 2 ^ lsb + w.toNat / 2 ^ (lsb + width) * 2 ^ (lsb + width))

/-- Bit `b` of a word. -/
def bitOf (w : Word) (b : Nat) : Bool := w.getLsbD b

/-- A word with bit `b` set. -/
def withBitSet (w : Word) (b : Nat) : Word := w ||| BitVec.ofNat 32 (2 ^ b)

/-- A word with bit `b` clear. -/
def withBitClear (w : Word) (b : Nat) : Word := w &&& ~~~ (BitVec.ofNat 32 (2 ^ b))

/-- Bytes most significant first, as messages, records and signed text carry numbers. -/
def bytesBE : (count : Nat) → (v : Nat) → List Byte
  | 0, _ => []
  | n + 1, v => BitVec.ofNat 8 (v / 2 ^ (8 * n)) :: bytesBE n v

/-- The number a list of bytes spells, most significant first. -/
def numBE (bs : List Byte) : Nat := bs.foldl (fun acc b => acc * 256 + b.toNat) 0

/-- Saturating count: no counter of this form goes past its highest value. -/
def satAdd (limit v k : Nat) : Nat := min limit (v + k)

end Sys2Proof.Machine
end

