-- ==== Sys2Proof/Machine/RegTable.lean ====
section
/-! DEFINITION. The register map (spec/24_register_map.md and the register tables of every chapter): the address of each
register, its fields, and for each field its access type, reset value and legal range. -/

namespace Sys2Proof.Machine

/-- The access types of a field (R30). -/
inductive Access where
  | rw | ro | rc | rh | wc
deriving DecidableEq, Repr

/-- What R37 takes as legal in a field: anything, a range, a power of two up to 64 (a ring size, R350), or a counter event
code (R398). -/
inductive Legal where
  | any
  | range (lo hi : Nat)
  | pow2
  | counterEvent
deriving DecidableEq, Repr

/-- One field of a register as its table gives it. `rh` fields of this table are the host-writable ones; an RH field the
host may not write is listed as `ro`. -/
structure FieldDef where
  lsb : Nat
  width : Nat
  access : Access
  reset : Nat
  legal : Legal
deriving DecidableEq, Repr

/-- A register, or an array of `count` registers `stride` bytes apart, at its block offset. -/
structure RegDef where
  off : Nat
  stride : Nat
  count : Nat
  fields : List FieldDef
deriving DecidableEq, Repr

/-! ### Addresses and fields, under the manual's names -/

/-- BAR0 address of CHIP.ID (R463). -/
def CHIP.ID : Nat := 0x0
def CHIP.ID.oui : Field := ⟨0x0, 8, 24, 0⟩
def CHIP.ID.part : Field := ⟨0x0, 4, 4, 0⟩
def CHIP.ID.step : Field := ⟨0x0, 0, 4, 0⟩
/-- BAR0 address of CHIP.DEV_TIME (R16,R462). -/
def CHIP.DEV_TIME : Nat := 0x8
def CHIP.DEV_TIME.lo : Field := ⟨0x8, 0, 32, 0⟩
/-- BAR0 address of CHIP.DEV_TIME_HI (R16,R462). -/
def CHIP.DEV_TIME_HI : Nat := 0xC
def CHIP.DEV_TIME_HI.hi : Field := ⟨0xC, 0, 32, 0⟩
/-- BAR0 address of CHIP.RESET_CMD (R444). -/
def CHIP.RESET_CMD : Nat := 0x20
def CHIP.RESET_CMD.long_next : Field := ⟨0x20, 1, 1, 0⟩
def CHIP.RESET_CMD.device : Field := ⟨0x20, 0, 1, 0⟩
/-- BAR0 address of CHIP.RESET_CAUSE (R444). -/
def CHIP.RESET_CAUSE : Nat := 0x24
def CHIP.RESET_CAUSE.fallback : Field := ⟨0x24, 8, 1, 0⟩
def CHIP.RESET_CAUSE.safe_reason : Field := ⟨0x24, 4, 4, 0⟩
def CHIP.RESET_CAUSE.source : Field := ⟨0x24, 0, 4, 0⟩
/-- BAR0 address of CHIP.BOOT_STATUS (R444). -/
def CHIP.BOOT_STATUS : Nat := 0x28
def CHIP.BOOT_STATUS.path : Field := ⟨0x28, 1, 1, 0⟩
def CHIP.BOOT_STATUS.ready : Field := ⟨0x28, 0, 1, 0⟩
/-- BAR0 address of CHIP.FW_ADDR (R453). -/
def CHIP.FW_ADDR : Nat := 0x30
def CHIP.FW_ADDR.lo : Field := ⟨0x30, 0, 32, 0⟩
/-- BAR0 address of CHIP.FW_ADDR_HI (R453). -/
def CHIP.FW_ADDR_HI : Nat := 0x34
def CHIP.FW_ADDR_HI.hi : Field := ⟨0x34, 0, 16, 0⟩
/-- BAR0 address of CHIP.FW_LEN (R453). -/
def CHIP.FW_LEN : Nat := 0x38
def CHIP.FW_LEN.bytes : Field := ⟨0x38, 0, 24, 0⟩
/-- BAR0 address of CHIP.FW_CMD (R453). -/
def CHIP.FW_CMD : Nat := 0x3C
def CHIP.FW_CMD.cancel : Field := ⟨0x3C, 3, 1, 0⟩
def CHIP.FW_CMD.activate : Field := ⟨0x3C, 2, 1, 0⟩
def CHIP.FW_CMD.verify : Field := ⟨0x3C, 1, 1, 0⟩
def CHIP.FW_CMD.write : Field := ⟨0x3C, 0, 1, 0⟩
/-- BAR0 address of CHIP.FW_STATUS (R453). -/
def CHIP.FW_STATUS : Nat := 0x40
def CHIP.FW_STATUS.state : Field := ⟨0x40, 29, 3, 0⟩
def CHIP.FW_STATUS.result : Field := ⟨0x40, 25, 4, 0⟩
def CHIP.FW_STATUS.slot : Field := ⟨0x40, 24, 1, 0⟩
def CHIP.FW_STATUS.done : Field := ⟨0x40, 0, 24, 0⟩
/-- BAR0 address of CHIP.SNAP_ADDR (R453). -/
def CHIP.SNAP_ADDR : Nat := 0x44
def CHIP.SNAP_ADDR.addr : Field := ⟨0x44, 0, 23, 0⟩
/-- BAR0 address of CHIP.SNAP_CTRL (R453). -/
def CHIP.SNAP_CTRL : Nat := 0x48
def CHIP.SNAP_CTRL.held : Field := ⟨0x48, 1, 1, 0⟩
def CHIP.SNAP_CTRL.hold : Field := ⟨0x48, 0, 1, 0⟩
/-- BAR0 address of CHIP.IGN_WRITE_ADDR (R36,R462). -/
def CHIP.IGN_WRITE_ADDR : Nat := 0x50
def CHIP.IGN_WRITE_ADDR.addr : Field := ⟨0x50, 0, 26, 0⟩
/-- BAR0 address of CHIP.IGN_WRITE_STATUS (R36). -/
def CHIP.IGN_WRITE_STATUS : Nat := 0x54
def CHIP.IGN_WRITE_STATUS.count : Field := ⟨0x54, 16, 16, 0⟩
def CHIP.IGN_WRITE_STATUS.reason : Field := ⟨0x54, 0, 3, 0⟩
/-- BAR0 address of CHIP.BUSERR_ADDR (R47,R462). -/
def CHIP.BUSERR_ADDR : Nat := 0x58
def CHIP.BUSERR_ADDR.addr : Field := ⟨0x58, 0, 26, 0⟩
/-- BAR0 address of CHIP.BUSERR_STATUS (R464). -/
def CHIP.BUSERR_STATUS : Nat := 0x5C
def CHIP.BUSERR_STATUS.count : Field := ⟨0x5C, 16, 16, 0⟩
def CHIP.BUSERR_STATUS.cause : Field := ⟨0x5C, 0, 2, 0⟩
/-- BAR0 address of CHIP.CLAMP_ADDR (R39,R462). -/
def CHIP.CLAMP_ADDR : Nat := 0x60
def CHIP.CLAMP_ADDR.addr : Field := ⟨0x60, 0, 26, 0⟩
/-- BAR0 address of CHIP.CLAMP_FIELD (R39). -/
def CHIP.CLAMP_FIELD : Nat := 0x64
def CHIP.CLAMP_FIELD.source : Field := ⟨0x64, 12, 2, 0⟩
def CHIP.CLAMP_FIELD.width : Field := ⟨0x64, 5, 6, 0⟩
def CHIP.CLAMP_FIELD.lsb : Field := ⟨0x64, 0, 5, 0⟩
/-- BAR0 address of CHIP.CLAMP_WRITTEN (R39,R462). -/
def CHIP.CLAMP_WRITTEN : Nat := 0x68
def CHIP.CLAMP_WRITTEN.value : Field := ⟨0x68, 0, 32, 0⟩
/-- BAR0 address of CHIP.CLAMP_APPLIED (R39,R462). -/
def CHIP.CLAMP_APPLIED : Nat := 0x6C
def CHIP.CLAMP_APPLIED.value : Field := ⟨0x6C, 0, 32, 0⟩
/-- BAR0 address of CHIP.CLAMP_CTRL (R39,R462). -/
def CHIP.CLAMP_CTRL : Nat := 0x70
def CHIP.CLAMP_CTRL.pop : Field := ⟨0x70, 0, 1, 0⟩
/-- BAR0 address of CHIP.CLAMP_STATUS (R464). -/
def CHIP.CLAMP_STATUS : Nat := 0x74
def CHIP.CLAMP_STATUS.dropped : Field := ⟨0x74, 16, 16, 0⟩
def CHIP.CLAMP_STATUS.depth : Field := ⟨0x74, 0, 6, 0⟩
/-- BAR0 address of CHIP.MDIO_STATUS (R48,R462). -/
def CHIP.MDIO_STATUS : Nat := 0x78
def CHIP.MDIO_STATUS.mdio_err : Field := ⟨0x78, 0, 1, 0⟩
/-- BAR0 address of EVT.PEND[0] (R380,R383). -/
def EVT.PEND : Nat := 0x80
def EVT.PEND.bits : Field := ⟨0x80, 0, 32, 4⟩
/-- BAR0 address of EVT.MASK[0] (R383). -/
def EVT.MASK : Nat := 0x100
def EVT.MASK.bits : Field := ⟨0x100, 0, 32, 4⟩
/-- BAR0 address of EVT.INT_MASK[0] (R383). -/
def EVT.INT_MASK : Nat := 0x120
def EVT.INT_MASK.bits : Field := ⟨0x120, 0, 32, 4⟩
/-- BAR0 address of EVT.SUMMARY (R383). -/
def EVT.SUMMARY : Nat := 0x140
def EVT.SUMMARY.int_n : Field := ⟨0x140, 16, 1, 0⟩
def EVT.SUMMARY.int_words : Field := ⟨0x140, 8, 8, 0⟩
def EVT.SUMMARY.msix_words : Field := ⟨0x140, 0, 8, 0⟩
/-- BAR0 address of EVT.MSIX_ADDR_LO[0] (R383,R468). -/
def EVT.MSIX_ADDR_LO : Nat := 0x8000
def EVT.MSIX_ADDR_LO.lo : Field := ⟨0x8000, 0, 32, 16⟩
/-- BAR0 address of EVT.MSIX_ADDR_HI[0] (R383,R468). -/
def EVT.MSIX_ADDR_HI : Nat := 0x8004
def EVT.MSIX_ADDR_HI.hi : Field := ⟨0x8004, 0, 32, 16⟩
/-- BAR0 address of EVT.MSIX_DATA[0] (R383,R468). -/
def EVT.MSIX_DATA : Nat := 0x8008
def EVT.MSIX_DATA.data : Field := ⟨0x8008, 0, 32, 16⟩
/-- BAR0 address of EVT.MSIX_CTRL[0] (R383,R468). -/
def EVT.MSIX_CTRL : Nat := 0x800C
def EVT.MSIX_CTRL.mask : Field := ⟨0x800C, 0, 1, 16⟩
/-- BAR0 address of EVT.PBA[0] (R381,R383). -/
def EVT.PBA : Nat := 0x9000
def EVT.PBA.bits : Field := ⟨0x9000, 0, 32, 4⟩
/-- BAR0 address of P.BANK_CTRL of port 0 (R466). -/
def P.BANK_CTRL : Nat := 0x100000
def P.BANK_CTRL.pending : Field := ⟨0x100000, 1, 1, 0⟩
def P.BANK_CTRL.commit : Field := ⟨0x100000, 0, 1, 0⟩
/-- BAR0 address of P.BANK_STATUS of port 0 (R466). -/
def P.BANK_STATUS : Nat := 0x100004
def P.BANK_STATUS.cfg_lost : Field := ⟨0x100004, 17, 1, 0⟩
def P.BANK_STATUS.ign_write : Field := ⟨0x100004, 16, 1, 0⟩
def P.BANK_STATUS.active_bank : Field := ⟨0x100004, 8, 1, 0⟩
/-- BAR0 address of P.LINE_CFG of port 0 (R73). -/
def P.LINE_CFG : Nat := 0x100040
def P.LINE_CFG.port_off : Field := ⟨0x100040, 12, 1, 0⟩
def P.LINE_CFG.nc_enable : Field := ⟨0x100040, 8, 1, 0⟩
def P.LINE_CFG.rate_max : Field := ⟨0x100040, 4, 3, 0⟩
def P.LINE_CFG.mode : Field := ⟨0x100040, 0, 3, 0⟩
/-- BAR0 address of P.ADAPT_CFG of port 0 (R65). -/
def P.ADAPT_CFG : Nat := 0x100044
def P.ADAPT_CFG.hold : Field := ⟨0x100044, 24, 1, 0⟩
def P.ADAPT_CFG.refresh_add : Field := ⟨0x100044, 20, 4, 0⟩
def P.ADAPT_CFG.ffe_data : Field := ⟨0x100044, 15, 5, 0⟩
def P.ADAPT_CFG.next_data : Field := ⟨0x100044, 10, 5, 0⟩
def P.ADAPT_CFG.ec_data : Field := ⟨0x100044, 5, 5, 0⟩
def P.ADAPT_CFG.train : Field := ⟨0x100044, 0, 5, 0⟩
/-- BAR0 address of P.AN_CFG of port 0 (R85). -/
def P.AN_CFG : Nat := 0x100048
def P.AN_CFG.ms_cfg : Field := ⟨0x100048, 22, 2, 0⟩
def P.AN_CFG.auto_test : Field := ⟨0x100048, 20, 1, 0⟩
def P.AN_CFG.an_fail_max : Field := ⟨0x100048, 16, 4, 0⟩
def P.AN_CFG.probe_s : Field := ⟨0x100048, 8, 8, 0⟩
def P.AN_CFG.no_oui : Field := ⟨0x100048, 6, 1, 0⟩
def P.AN_CFG.peer_fallback : Field := ⟨0x100048, 5, 1, 0⟩
def P.AN_CFG.ds_restore : Field := ⟨0x100048, 4, 1, 0⟩
def P.AN_CFG.downshift_en : Field := ⟨0x100048, 3, 1, 0⟩
def P.AN_CFG.retry : Field := ⟨0x100048, 0, 3, 0⟩
/-- BAR0 address of P.AN_ADV of port 0 (R86). -/
def P.AN_ADV : Nat := 0x10004C
def P.AN_ADV.fast_retrain : Field := ⟨0x10004C, 13, 1, 0⟩
def P.AN_ADV.reach : Field := ⟨0x10004C, 11, 1, 0⟩
def P.AN_ADV.peer : Field := ⟨0x10004C, 8, 3, 0⟩
def P.AN_ADV.base_t : Field := ⟨0x10004C, 0, 5, 0⟩
/-- BAR0 address of P.REACH_CFG of port 0 (R175). -/
def P.REACH_CFG : Nat := 0x100050
def P.REACH_CFG.vgroup : Field := ⟨0x100050, 29, 3, 0⟩
def P.REACH_CFG.sra_en : Field := ⟨0x100050, 28, 1, 0⟩
def P.REACH_CFG.depth_max : Field := ⟨0x100050, 26, 2, 0⟩
def P.REACH_CFG.rate_cap : Field := ⟨0x100050, 20, 6, 0⟩
def P.REACH_CFG.margin_target : Field := ⟨0x100050, 12, 8, 0⟩
def P.REACH_CFG.tones32 : Field := ⟨0x100050, 0, 8, 0⟩
/-- BAR0 address of P.RM_CFG of port 0 (R176). -/
def P.RM_CFG : Nat := 0x100054
def P.RM_CFG.pause_en : Field := ⟨0x100054, 16, 1, 0⟩
def P.RM_CFG.xoff : Field := ⟨0x100054, 8, 8, 0⟩
def P.RM_CFG.xon : Field := ⟨0x100054, 0, 8, 0⟩
/-- BAR0 address of P.MON_CFG of port 0 (R239). -/
def P.MON_CFG : Nat := 0x100058
def P.MON_CFG.uncorr_th : Field := ⟨0x100058, 24, 8, 0⟩
def P.MON_CFG.persist : Field := ⟨0x100058, 16, 8, 0⟩
def P.MON_CFG.hyst : Field := ⟨0x100058, 8, 5, 0⟩
def P.MON_CFG.alarm_th : Field := ⟨0x100058, 0, 8, 0⟩
/-- BAR0 address of P.DIAG_CFG of port 0 (R239). -/
def P.DIAG_CFG : Nat := 0x10005C
def P.DIAG_CFG.nvp : Field := ⟨0x10005C, 22, 10, 0⟩
def P.DIAG_CFG.tdr_offset : Field := ⟨0x10005C, 15, 7, 0⟩
def P.DIAG_CFG.loss_10 : Field := ⟨0x10005C, 7, 8, 0⟩
def P.DIAG_CFG.refl_delta : Field := ⟨0x10005C, 3, 4, 0⟩
/-- BAR0 address of P.MON_EXPORT of port 0 (R239). -/
def P.MON_EXPORT : Nat := 0x100060
def P.MON_EXPORT.export_revs : Field := ⟨0x100060, 0, 16, 0⟩
/-- BAR0 address of P.LPI_CFG of port 0 (R269). -/
def P.LPI_CFG : Nat := 0x100064
def P.LPI_CFG.entry_us : Field := ⟨0x100064, 8, 16, 0⟩
def P.LPI_CFG.eee_adv : Field := ⟨0x100064, 3, 5, 0⟩
def P.LPI_CFG.mode : Field := ⟨0x100064, 0, 2, 0⟩
/-- BAR0 address of P.WG_CFG of port 0 (R269). -/
def P.WG_CFG : Nat := 0x100068
def P.WG_CFG.action : Field := ⟨0x100068, 16, 1, 0⟩
def P.WG_CFG.th : Field := ⟨0x100068, 8, 8, 0⟩
def P.WG_CFG.enable : Field := ⟨0x100068, 0, 1, 0⟩
/-- BAR0 address of P.PORT_CMD of port 0 (R103). -/
def P.PORT_CMD : Nat := 0x100080
def P.PORT_CMD.cable_test : Field := ⟨0x100080, 3, 1, 0⟩
def P.PORT_CMD.fast_retrain : Field := ⟨0x100080, 2, 1, 0⟩
def P.PORT_CMD.an_restart : Field := ⟨0x100080, 1, 1, 0⟩
def P.PORT_CMD.restart : Field := ⟨0x100080, 0, 1, 0⟩
/-- BAR0 address of P.MON_CMD of port 0 (R239). -/
def P.MON_CMD : Nat := 0x100084
def P.MON_CMD.rebase : Field := ⟨0x100084, 0, 1, 0⟩
/-- BAR0 address of P.LINE_STATUS of port 0 (R75). -/
def P.LINE_STATUS : Nat := 0x100100
def P.LINE_STATUS.reach_rate : Field := ⟨0x100100, 20, 6, 0⟩
def P.LINE_STATUS.port_off : Field := ⟨0x100100, 19, 1, 0⟩
def P.LINE_STATUS.nc_active : Field := ⟨0x100100, 18, 1, 0⟩
def P.LINE_STATUS.lpi_tx : Field := ⟨0x100100, 17, 1, 0⟩
def P.LINE_STATUS.lpi_rx : Field := ⟨0x100100, 16, 1, 0⟩
def P.LINE_STATUS.pol_inv : Field := ⟨0x100100, 12, 4, 0⟩
def P.LINE_STATUS.mdix : Field := ⟨0x100100, 10, 1, 0⟩
def P.LINE_STATUS.master : Field := ⟨0x100100, 9, 1, 0⟩
def P.LINE_STATUS.link_up : Field := ⟨0x100100, 8, 1, 0⟩
def P.LINE_STATUS.rate_now : Field := ⟨0x100100, 4, 3, 0⟩
def P.LINE_STATUS.mode_now : Field := ⟨0x100100, 0, 3, 0⟩
/-- BAR0 address of P.AN_STATUS of port 0 (R102). -/
def P.AN_STATUS : Nat := 0x100104
def P.AN_STATUS.fail_cnt : Field := ⟨0x100104, 24, 8, 0⟩
def P.AN_STATUS.fr_count : Field := ⟨0x100104, 20, 4, 0⟩
def P.AN_STATUS.partner_an : Field := ⟨0x100104, 18, 1, 0⟩
def P.AN_STATUS.partner_sircor : Field := ⟨0x100104, 17, 1, 0⟩
def P.AN_STATUS.downshifted : Field := ⟨0x100104, 16, 1, 0⟩
def P.AN_STATUS.adv_saved : Field := ⟨0x100104, 11, 5, 0⟩
def P.AN_STATUS.tries : Field := ⟨0x100104, 8, 3, 0⟩
def P.AN_STATUS.last_fail : Field := ⟨0x100104, 4, 4, 0⟩
def P.AN_STATUS.state : Field := ⟨0x100104, 0, 4, 0⟩
/-- BAR0 address of P.LOCAL_CAP of port 0 (R81). -/
def P.LOCAL_CAP : Nat := 0x100108
def P.LOCAL_CAP.version : Field := ⟨0x100108, 24, 8, 0⟩
def P.LOCAL_CAP.reach_rate_cap : Field := ⟨0x100108, 18, 6, 0⟩
def P.LOCAL_CAP.reach_depth_max : Field := ⟨0x100108, 16, 2, 0⟩
def P.LOCAL_CAP.trip : Field := ⟨0x100108, 10, 1, 0⟩
def P.LOCAL_CAP.reach : Field := ⟨0x100108, 5, 1, 0⟩
def P.LOCAL_CAP.peer_10g : Field := ⟨0x100108, 2, 1, 0⟩
def P.LOCAL_CAP.peer_5g : Field := ⟨0x100108, 1, 1, 0⟩
def P.LOCAL_CAP.peer_2g5 : Field := ⟨0x100108, 0, 1, 0⟩
/-- BAR0 address of P.PARTNER_CAP of port 0 (R81). -/
def P.PARTNER_CAP : Nat := 0x10010C
def P.PARTNER_CAP.word : Field := ⟨0x10010C, 0, 32, 0⟩
/-- BAR0 address of P.PAIR_QUAL of port 0[0] (R76). -/
def P.PAIR_QUAL : Nat := 0x100110
def P.PAIR_QUAL.margin : Field := ⟨0x100110, 16, 16, 4⟩
def P.PAIR_QUAL.snr : Field := ⟨0x100110, 0, 16, 4⟩
/-- BAR0 address of P.PORT_QUAL of port 0 (R77). -/
def P.PORT_QUAL : Nat := 0x100120
def P.PORT_QUAL.valid : Field := ⟨0x100120, 18, 1, 0⟩
def P.PORT_QUAL.worst_pair : Field := ⟨0x100120, 16, 2, 0⟩
def P.PORT_QUAL.margin_min : Field := ⟨0x100120, 0, 16, 0⟩
/-- BAR0 address of P.PROBE_STATUS of port 0 (R97). -/
def P.PROBE_STATUS : Nat := 0x100124
def P.PROBE_STATUS.distance : Field := ⟨0x100124, 10, 10, 0⟩
def P.PROBE_STATUS.worst_pair : Field := ⟨0x100124, 8, 2, 0⟩
def P.PROBE_STATUS.cable : Field := ⟨0x100124, 5, 3, 0⟩
def P.PROBE_STATUS.partner_port : Field := ⟨0x100124, 2, 3, 0⟩
def P.PROBE_STATUS.probe : Field := ⟨0x100124, 0, 2, 0⟩
/-- BAR0 address of P.MON_CAUSE of port 0 (R239). -/
def P.MON_CAUSE : Nat := 0x100128
def P.MON_CAUSE.bits : Field := ⟨0x100128, 0, 7, 0⟩
/-- BAR0 address of P.MON_STATUS of port 0 (R239). -/
def P.MON_STATUS : Nat := 0x10012C
def P.MON_STATUS.len_est : Field := ⟨0x10012C, 20, 12, 0⟩
def P.MON_STATUS.diag_seq : Field := ⟨0x10012C, 12, 8, 0⟩
def P.MON_STATUS.split_pair : Field := ⟨0x10012C, 3, 1, 0⟩
def P.MON_STATUS.refl_alert : Field := ⟨0x10012C, 2, 1, 0⟩
def P.MON_STATUS.margin_alarm : Field := ⟨0x10012C, 1, 1, 0⟩
def P.MON_STATUS.test_busy : Field := ⟨0x10012C, 0, 1, 0⟩
/-- BAR0 address of P.REACH_STATUS of port 0 (R176). -/
def P.REACH_STATUS : Nat := 0x100130
def P.REACH_STATUS.band_top : Field := ⟨0x100130, 19, 13, 0⟩
def P.REACH_STATUS.depth_now : Field := ⟨0x100130, 17, 2, 0⟩
def P.REACH_STATUS.swap_count : Field := ⟨0x100130, 8, 8, 0⟩
def P.REACH_STATUS.vg_state : Field := ⟨0x100130, 6, 2, 0⟩
def P.REACH_STATUS.phase : Field := ⟨0x100130, 0, 4, 0⟩
/-- BAR0 address of P.REACH_LOAD of port 0 (R175). -/
def P.REACH_LOAD : Nat := 0x100134
def P.REACH_LOAD.loaded : Field := ⟨0x100134, 0, 18, 0⟩
/-- BAR0 address of P.REACH_CAP of port 0 (R166,R176). -/
def P.REACH_CAP : Nat := 0x100138
def P.REACH_CAP.ratio : Field := ⟨0x100138, 22, 10, 0⟩
def P.REACH_CAP.cap : Field := ⟨0x100138, 0, 22, 0⟩
/-- BAR0 address of P.TONE_SEL of port 0 (R175). -/
def P.TONE_SEL : Nat := 0x100140
def P.TONE_SEL.pair : Field := ⟨0x100140, 16, 2, 0⟩
def P.TONE_SEL.tone : Field := ⟨0x100140, 0, 12, 0⟩
/-- BAR0 address of P.RM_DROP of port 0 (R175). -/
def P.RM_DROP : Nat := 0x100144
def P.RM_DROP.count : Field := ⟨0x100144, 0, 32, 0⟩
/-- BAR0 address of P.COEF_SEL of port 0 (R467). -/
def P.COEF_SEL : Nat := 0x100148
def P.COEF_SEL.pair : Field := ⟨0x100148, 0, 2, 0⟩
/-- BAR0 address of P.DIAG_PAIR of port 0[0] (R239). -/
def P.DIAG_PAIR : Nat := 0x100150
def P.DIAG_PAIR.status : Field := ⟨0x100150, 29, 3, 4⟩
def P.DIAG_PAIR.more : Field := ⟨0x100150, 28, 1, 4⟩
def P.DIAG_PAIR.xpair : Field := ⟨0x100150, 26, 2, 4⟩
def P.DIAG_PAIR.gamma : Field := ⟨0x100150, 16, 8, 4⟩
def P.DIAG_PAIR.distance : Field := ⟨0x100150, 0, 16, 4⟩
/-- BAR0 address of P.LIVE_ECHO of port 0[0] (R239). -/
def P.LIVE_ECHO : Nat := 0x100160
def P.LIVE_ECHO.refl : Field := ⟨0x100160, 24, 8, 4⟩
def P.LIVE_ECHO.delta : Field := ⟨0x100160, 16, 8, 4⟩
def P.LIVE_ECHO.distance : Field := ⟨0x100160, 0, 16, 4⟩
/-- BAR0 address of P.LIVE_MISC of port 0[0] (R239). -/
def P.LIVE_MISC : Nat := 0x100170
def P.LIVE_MISC.il_10 : Field := ⟨0x100170, 21, 11, 4⟩
def P.LIVE_MISC.skew : Field := ⟨0x100170, 13, 8, 4⟩
def P.LIVE_MISC.next_max : Field := ⟨0x100170, 5, 8, 4⟩
/-- BAR0 address of P.NOISE of port 0[0] (R239). -/
def P.NOISE : Nat := 0x100180
def P.NOISE.band : Field := ⟨0x100180, 30, 2, 4⟩
def P.NOISE.rev : Field := ⟨0x100180, 16, 14, 4⟩
def P.NOISE.power : Field := ⟨0x100180, 0, 16, 4⟩
/-- BAR0 address of P.LPI_STATUS of port 0 (R269). -/
def P.LPI_STATUS : Nat := 0x100190
def P.LPI_STATUS.wg_last : Field := ⟨0x100190, 24, 8, 0⟩
def P.LPI_STATUS.wg_filter : Field := ⟨0x100190, 20, 4, 0⟩
def P.LPI_STATUS.wg_pair : Field := ⟨0x100190, 18, 2, 0⟩
def P.LPI_STATUS.wg_trip : Field := ⟨0x100190, 17, 1, 0⟩
def P.LPI_STATUS.snap_valid : Field := ⟨0x100190, 16, 1, 0⟩
def P.LPI_STATUS.lpi_state : Field := ⟨0x100190, 0, 4, 0⟩
/-- BAR0 address of P.FEC_FRAMES of port 0[0] (R221,R222). -/
def P.FEC_FRAMES : Nat := 0x100200
def P.FEC_FRAMES.word : Field := ⟨0x100200, 0, 32, 4⟩
/-- BAR0 address of P.FEC_CORR of port 0[0] (R221,R222). -/
def P.FEC_CORR : Nat := 0x100208
def P.FEC_CORR.word : Field := ⟨0x100208, 0, 32, 4⟩
/-- BAR0 address of P.FEC_UNCORR of port 0[0] (R221,R222). -/
def P.FEC_UNCORR : Nat := 0x100210
def P.FEC_UNCORR.word : Field := ⟨0x100210, 0, 32, 4⟩
/-- BAR0 address of P.RX_ERR of port 0[0] (R221,R222). -/
def P.RX_ERR : Nat := 0x100218
def P.RX_ERR.word : Field := ⟨0x100218, 0, 32, 4⟩
/-- BAR0 address of P.ITER_HIST of port 0[0] (R221,R222). -/
def P.ITER_HIST : Nat := 0x100220
def P.ITER_HIST.word : Field := ⟨0x100220, 0, 32, 4⟩
/-- BAR0 address of P.LINK_DOWN of port 0 (R222). -/
def P.LINK_DOWN : Nat := 0x100260
def P.LINK_DOWN.count : Field := ⟨0x100260, 0, 32, 0⟩
/-- BAR0 address of P.ALARM_CNT of port 0 (R222). -/
def P.ALARM_CNT : Nat := 0x100264
def P.ALARM_CNT.count : Field := ⟨0x100264, 0, 32, 0⟩
/-- BAR0 address of P.LPI_US of port 0[0] (R269). -/
def P.LPI_US : Nat := 0x100270
def P.LPI_US.word : Field := ⟨0x100270, 0, 32, 4⟩
/-- BAR0 address of P.LPI_ENTRIES of port 0 (R269). -/
def P.LPI_ENTRIES : Nat := 0x100278
def P.LPI_ENTRIES.count : Field := ⟨0x100278, 0, 32, 0⟩
/-- BAR0 address of P.WG_REVERTS of port 0 (R269). -/
def P.WG_REVERTS : Nat := 0x10027C
def P.WG_REVERTS.count : Field := ⟨0x10027C, 0, 32, 0⟩
/-- BAR0 address of P.TONE_WIN of port 0[0] (R175,R176). -/
def P.TONE_WIN : Nat := 0x100400
def P.TONE_WIN.bits : Field := ⟨0x100400, 28, 4, 4⟩
def P.TONE_WIN.class : Field := ⟨0x100400, 26, 2, 4⟩
def P.TONE_WIN.snr : Field := ⟨0x100400, 0, 16, 4⟩
/-- BAR0 address of P.COEF_WIN of port 0[0] (R467). -/
def P.COEF_WIN : Nat := 0x100800
def P.COEF_WIN.coef : Field := ⟨0x100800, 0, 32, 4⟩
/-- BAR0 address of HSL.MODE_CFG (R270,R289). -/
def HSL.MODE_CFG : Nat := 0x300000
def HSL.MODE_CFG.mequel : Field := ⟨0x300000, 0, 1, 0⟩
/-- BAR0 address of HSL.BANK_STATUS (R466). -/
def HSL.BANK_STATUS : Nat := 0x300004
def HSL.BANK_STATUS.cfg_lost : Field := ⟨0x300004, 17, 1, 0⟩
def HSL.BANK_STATUS.ign_write : Field := ⟨0x300004, 16, 1, 0⟩
def HSL.BANK_STATUS.active_bank : Field := ⟨0x300004, 8, 1, 0⟩
/-- BAR0 address of HSL.LANE_CTRL[0] (R289). -/
def HSL.LANE_CTRL : Nat := 0x300100
def HSL.LANE_CTRL.tx_post : Field := ⟨0x300100, 24, 5, 4⟩
def HSL.LANE_CTRL.tx_pre : Field := ⟨0x300100, 20, 4, 4⟩
def HSL.LANE_CTRL.side_tunnel : Field := ⟨0x300100, 10, 1, 4⟩
def HSL.LANE_CTRL.side_telem : Field := ⟨0x300100, 9, 1, 4⟩
def HSL.LANE_CTRL.side_trip : Field := ⟨0x300100, 8, 1, 4⟩
def HSL.LANE_CTRL.precode : Field := ⟨0x300100, 7, 1, 4⟩
def HSL.LANE_CTRL.pam4_swap : Field := ⟨0x300100, 6, 1, 4⟩
def HSL.LANE_CTRL.tx_invert : Field := ⟨0x300100, 5, 1, 4⟩
def HSL.LANE_CTRL.rx_invert : Field := ⟨0x300100, 4, 1, 4⟩
def HSL.LANE_CTRL.auto_deep : Field := ⟨0x300100, 3, 1, 4⟩
def HSL.LANE_CTRL.manual : Field := ⟨0x300100, 2, 1, 4⟩
def HSL.LANE_CTRL.proto : Field := ⟨0x300100, 1, 1, 4⟩
def HSL.LANE_CTRL.enable : Field := ⟨0x300100, 0, 1, 4⟩
/-- BAR0 address of HSL.LANE_CMD[0] (R280,R289). -/
def HSL.LANE_CMD : Nat := 0x300180
def HSL.LANE_CMD.slip : Field := ⟨0x300180, 0, 1, 4⟩
/-- BAR0 address of HSL.LANE_STATUS[0] (R289). -/
def HSL.LANE_STATUS : Nat := 0x300200
def HSL.LANE_STATUS.map_err : Field := ⟨0x300200, 28, 1, 4⟩
def HSL.LANE_STATUS.host_rf : Field := ⟨0x300200, 24, 4, 4⟩
def HSL.LANE_STATUS.rf_sent : Field := ⟨0x300200, 20, 4, 4⟩
def HSL.LANE_STATUS.lf_sent : Field := ⟨0x300200, 16, 4, 4⟩
def HSL.LANE_STATUS.host_lf : Field := ⟨0x300200, 12, 4, 4⟩
def HSL.LANE_STATUS.usx_an_done : Field := ⟨0x300200, 4, 1, 4⟩
def HSL.LANE_STATUS.rx_signal : Field := ⟨0x300200, 3, 1, 4⟩
def HSL.LANE_STATUS.state : Field := ⟨0x300200, 0, 3, 4⟩
/-- BAR0 address of HSL.LANE_CAUSE[0] (R289). -/
def HSL.LANE_CAUSE : Nat := 0x300280
def HSL.LANE_CAUSE.bits : Field := ⟨0x300280, 0, 9, 4⟩
/-- BAR0 address of HSL.EYE[0] (R288,R289). -/
def HSL.EYE : Nat := 0x300300
def HSL.EYE.width : Field := ⟨0x300300, 24, 8, 4⟩
def HSL.EYE.height : Field := ⟨0x300300, 16, 8, 4⟩
def HSL.EYE.rev : Field := ⟨0x300300, 0, 16, 4⟩
/-- BAR0 address of HSL.ALIGN_STATUS[0] (R280,R289). -/
def HSL.ALIGN_STATUS : Nat := 0x300380
def HSL.ALIGN_STATUS.match_here : Field := ⟨0x300380, 31, 1, 4⟩
def HSL.ALIGN_STATUS.hdr_good : Field := ⟨0x300380, 20, 7, 4⟩
def HSL.ALIGN_STATUS.seen_offset : Field := ⟨0x300380, 0, 20, 4⟩
/-- BAR0 address of HSL.SKEW[0] (R281,R289). -/
def HSL.SKEW : Nat := 0x300400
def HSL.SKEW.valid : Field := ⟨0x300400, 31, 1, 4⟩
def HSL.SKEW.skew : Field := ⟨0x300400, 0, 16, 4⟩
/-- BAR0 address of HSL.LANE_CNT_CORR[0] (R289). -/
def HSL.LANE_CNT_CORR : Nat := 0x300800
def HSL.LANE_CNT_CORR.word : Field := ⟨0x300800, 0, 32, 32⟩
/-- BAR0 address of HSL.LANE_CNT_CORR_HI[0] (R289). -/
def HSL.LANE_CNT_CORR_HI : Nat := 0x300804
def HSL.LANE_CNT_CORR_HI.word : Field := ⟨0x300804, 0, 32, 32⟩
/-- BAR0 address of HSL.LANE_CNT_UNCORR[0] (R289). -/
def HSL.LANE_CNT_UNCORR : Nat := 0x300808
def HSL.LANE_CNT_UNCORR.word : Field := ⟨0x300808, 0, 32, 32⟩
/-- BAR0 address of HSL.LANE_CNT_UNCORR_HI[0] (R289). -/
def HSL.LANE_CNT_UNCORR_HI : Nat := 0x30080C
def HSL.LANE_CNT_UNCORR_HI.word : Field := ⟨0x30080C, 0, 32, 32⟩
/-- BAR0 address of HSL.LANE_CNT_DISCARD[0] (R289). -/
def HSL.LANE_CNT_DISCARD : Nat := 0x300810
def HSL.LANE_CNT_DISCARD.word : Field := ⟨0x300810, 0, 32, 32⟩
/-- BAR0 address of HSL.LANE_CNT_DISCARD_HI[0] (R289). -/
def HSL.LANE_CNT_DISCARD_HI : Nat := 0x300814
def HSL.LANE_CNT_DISCARD_HI.word : Field := ⟨0x300814, 0, 32, 32⟩
/-- BAR0 address of HSL.LANE_CNT_SIDE_BAD[0] (R289). -/
def HSL.LANE_CNT_SIDE_BAD : Nat := 0x300818
def HSL.LANE_CNT_SIDE_BAD.word : Field := ⟨0x300818, 0, 32, 32⟩
/-- BAR0 address of HSL.LANE_CNT_SIDE_BAD_HI[0] (R289). -/
def HSL.LANE_CNT_SIDE_BAD_HI : Nat := 0x30081C
def HSL.LANE_CNT_SIDE_BAD_HI.word : Field := ⟨0x30081C, 0, 32, 32⟩
/-- BAR0 address of SQ.CORE_STATUS[0] (R313). -/
def SQ.CORE_STATUS : Nat := 0x400000
def SQ.CORE_STATUS.task : Field := ⟨0x400000, 26, 6, 4⟩
def SQ.CORE_STATUS.user : Field := ⟨0x400000, 25, 1, 4⟩
def SQ.CORE_STATUS.waiting : Field := ⟨0x400000, 24, 1, 4⟩
def SQ.CORE_STATUS.gated : Field := ⟨0x400000, 23, 1, 4⟩
def SQ.CORE_STATUS.quarantined : Field := ⟨0x400000, 0, 7, 4⟩
/-- BAR0 address of SQ.FAULT[0] (R313). -/
def SQ.FAULT : Nat := 0x400010
def SQ.FAULT.cause : Field := ⟨0x400010, 28, 4, 4⟩
def SQ.FAULT.task : Field := ⟨0x400010, 22, 6, 4⟩
def SQ.FAULT.user : Field := ⟨0x400010, 21, 1, 4⟩
def SQ.FAULT.pc : Field := ⟨0x400010, 0, 17, 4⟩
/-- BAR0 address of SQ.FAULT_VAL[0] (R313). -/
def SQ.FAULT_VAL : Nat := 0x400020
def SQ.FAULT_VAL.value : Field := ⟨0x400020, 0, 32, 4⟩
/-- BAR0 address of SQ.JOB_STATUS (R313). -/
def SQ.JOB_STATUS : Nat := 0x400040
def SQ.JOB_STATUS.full_count : Field := ⟨0x400040, 16, 16, 0⟩
def SQ.JOB_STATUS.in_flight : Field := ⟨0x400040, 0, 15, 0⟩
/-- BAR0 address of SQ.CTX_SEL (R313). -/
def SQ.CTX_SEL : Nat := 0x400080
def SQ.CTX_SEL.ready : Field := ⟨0x400080, 31, 1, 0⟩
def SQ.CTX_SEL.core : Field := ⟨0x400080, 6, 2, 0⟩
def SQ.CTX_SEL.task : Field := ⟨0x400080, 0, 6, 0⟩
/-- BAR0 address of SQ.CTX_WIN[0] (R313). -/
def SQ.CTX_WIN : Nat := 0x400100
def SQ.CTX_WIN.word : Field := ⟨0x400100, 0, 32, 4⟩
/-- BAR0 address of WHEEL.LOAD_ADDR (R332). -/
def WHEEL.LOAD_ADDR : Nat := 0x401000
def WHEEL.LOAD_ADDR.lo : Field := ⟨0x401000, 0, 32, 0⟩
/-- BAR0 address of WHEEL.LOAD_ADDR_HI (R332). -/
def WHEEL.LOAD_ADDR_HI : Nat := 0x401004
def WHEEL.LOAD_ADDR_HI.hi : Field := ⟨0x401004, 0, 32, 0⟩
/-- BAR0 address of WHEEL.LOAD_LEN (R332). -/
def WHEEL.LOAD_LEN : Nat := 0x401008
def WHEEL.LOAD_LEN.bytes : Field := ⟨0x401008, 0, 32, 0⟩
/-- BAR0 address of WHEEL.LOAD_CMD (R332). -/
def WHEEL.LOAD_CMD : Nat := 0x40100C
def WHEEL.LOAD_CMD.cancel : Field := ⟨0x40100C, 3, 1, 0⟩
def WHEEL.LOAD_CMD.revert : Field := ⟨0x40100C, 2, 1, 0⟩
def WHEEL.LOAD_CMD.from_flash : Field := ⟨0x40100C, 1, 1, 0⟩
def WHEEL.LOAD_CMD.load : Field := ⟨0x40100C, 0, 1, 0⟩
/-- BAR0 address of WHEEL.LOAD_REV (R332). -/
def WHEEL.LOAD_REV : Nat := 0x401010
def WHEEL.LOAD_REV.rev : Field := ⟨0x401010, 0, 32, 0⟩
/-- BAR0 address of WHEEL.LOAD_STATUS (R332). -/
def WHEEL.LOAD_STATUS : Nat := 0x401014
def WHEEL.LOAD_STATUS.revert_refused : Field := ⟨0x401014, 31, 1, 0⟩
def WHEEL.LOAD_STATUS.reason : Field := ⟨0x401014, 16, 8, 0⟩
def WHEEL.LOAD_STATUS.revs : Field := ⟨0x401014, 4, 12, 0⟩
def WHEEL.LOAD_STATUS.queued : Field := ⟨0x401014, 3, 1, 0⟩
def WHEEL.LOAD_STATUS.state : Field := ⟨0x401014, 0, 3, 0⟩
/-- BAR0 address of WHEEL.LOAD_OFFENDER (R332). -/
def WHEEL.LOAD_OFFENDER : Nat := 0x401018
def WHEEL.LOAD_OFFENDER.kind : Field := ⟨0x401018, 29, 3, 0⟩
def WHEEL.LOAD_OFFENDER.index : Field := ⟨0x401018, 0, 29, 0⟩
/-- BAR0 address of WHEEL.BANK_STATUS (R332). -/
def WHEEL.BANK_STATUS : Nat := 0x40101C
def WHEEL.BANK_STATUS.pending : Field := ⟨0x40101C, 2, 1, 0⟩
def WHEEL.BANK_STATUS.prev_valid : Field := ⟨0x40101C, 1, 1, 0⟩
def WHEEL.BANK_STATUS.active_bank : Field := ⟨0x40101C, 0, 1, 0⟩
/-- BAR0 address of WHEEL.ACTIVE_ID (R332). -/
def WHEEL.ACTIVE_ID : Nat := 0x401020
def WHEEL.ACTIVE_ID.lo : Field := ⟨0x401020, 0, 32, 0⟩
/-- BAR0 address of WHEEL.ACTIVE_ID_HI (R332). -/
def WHEEL.ACTIVE_ID_HI : Nat := 0x401024
def WHEEL.ACTIVE_ID_HI.hi : Field := ⟨0x401024, 0, 32, 0⟩
/-- BAR0 address of WHEEL.REPORT (R332). -/
def WHEEL.REPORT : Nat := 0x401028
def WHEEL.REPORT.charge_mw : Field := ⟨0x401028, 16, 16, 0⟩
def WHEEL.REPORT.decl_mw : Field := ⟨0x401028, 0, 16, 0⟩
/-- BAR0 address of WHEEL.SHARE (R332). -/
def WHEEL.SHARE : Nat := 0x40102C
def WHEEL.SHARE.lattice : Field := ⟨0x40102C, 20, 12, 0⟩
def WHEEL.SHARE.hash : Field := ⟨0x40102C, 8, 12, 0⟩
/-- BAR0 address of WHEEL.CEIL_CFG (R332). -/
def WHEEL.CEIL_CFG : Nat := 0x401030
def WHEEL.CEIL_CFG.ceiling_mw : Field := ⟨0x401030, 0, 16, 0⟩
/-- BAR0 address of WHEEL.BANK_CTRL (R332). -/
def WHEEL.BANK_CTRL : Nat := 0x401034
def WHEEL.BANK_CTRL.commit : Field := ⟨0x401034, 0, 1, 0⟩
/-- BAR0 address of WHEEL.SLACK (R332). -/
def WHEEL.SLACK : Nat := 0x401038
def WHEEL.SLACK.slack : Field := ⟨0x401038, 20, 12, 0⟩
def WHEEL.SLACK.core : Field := ⟨0x401038, 6, 6, 0⟩
def WHEEL.SLACK.task : Field := ⟨0x401038, 0, 6, 0⟩
/-- BAR0 address of WHEEL.CAUSE (R332). -/
def WHEEL.CAUSE : Nat := 0x40103C
def WHEEL.CAUSE.bits : Field := ⟨0x40103C, 0, 4, 0⟩
/-- BAR0 address of WHEEL.TASK_SEL (R332). -/
def WHEEL.TASK_SEL : Nat := 0x401040
def WHEEL.TASK_SEL.core : Field := ⟨0x401040, 6, 2, 0⟩
def WHEEL.TASK_SEL.task : Field := ⟨0x401040, 0, 6, 0⟩
/-- BAR0 address of WHEEL.TASK_WIN[0] (R332). -/
def WHEEL.TASK_WIN : Nat := 0x401100
def WHEEL.TASK_WIN.word : Field := ⟨0x401100, 0, 32, 4⟩
/-- BAR0 address of WHEEL.REV_COUNT (R332). -/
def WHEEL.REV_COUNT : Nat := 0x402000
def WHEEL.REV_COUNT.lo : Field := ⟨0x402000, 0, 32, 0⟩
/-- BAR0 address of WHEEL.REV_COUNT_HI (R332). -/
def WHEEL.REV_COUNT_HI : Nat := 0x402004
def WHEEL.REV_COUNT_HI.hi : Field := ⟨0x402004, 0, 32, 0⟩
/-- BAR0 address of JUG.BANK_CTRL (R466). -/
def JUG.BANK_CTRL : Nat := 0x500000
def JUG.BANK_CTRL.pending : Field := ⟨0x500000, 1, 1, 0⟩
def JUG.BANK_CTRL.commit : Field := ⟨0x500000, 0, 1, 0⟩
/-- BAR0 address of JUG.BANK_STATUS (R466). -/
def JUG.BANK_STATUS : Nat := 0x500004
def JUG.BANK_STATUS.cfg_lost : Field := ⟨0x500004, 17, 1, 0⟩
def JUG.BANK_STATUS.ign_write : Field := ⟨0x500004, 16, 1, 0⟩
def JUG.BANK_STATUS.active_bank : Field := ⟨0x500004, 8, 1, 0⟩
/-- BAR0 address of JUG.NC_CFG (R147). -/
def JUG.NC_CFG : Nat := 0x500040
def JUG.NC_CFG.freeze : Field := ⟨0x500040, 24, 1, 0⟩
def JUG.NC_CFG.acq_revs : Field := ⟨0x500040, 16, 8, 0⟩
def JUG.NC_CFG.step_data : Field := ⟨0x500040, 8, 5, 0⟩
def JUG.NC_CFG.step_acq : Field := ⟨0x500040, 0, 5, 0⟩
/-- BAR0 address of JUG.SCAN_PORTS (R147). -/
def JUG.SCAN_PORTS : Nat := 0x500050
def JUG.SCAN_PORTS.ports : Field := ⟨0x500050, 0, 32, 0⟩
/-- BAR0 address of JUG.SCAN_CMD (R147). -/
def JUG.SCAN_CMD : Nat := 0x500060
def JUG.SCAN_CMD.stop : Field := ⟨0x500060, 1, 1, 0⟩
def JUG.SCAN_CMD.start : Field := ⟨0x500060, 0, 1, 0⟩
/-- BAR0 address of JUG.SCAN_STATUS (R148). -/
def JUG.SCAN_STATUS : Nat := 0x500064
def JUG.SCAN_STATUS.no_slots : Field := ⟨0x500064, 24, 1, 0⟩
def JUG.SCAN_STATUS.running : Field := ⟨0x500064, 23, 1, 0⟩
def JUG.SCAN_STATUS.victim_now : Field := ⟨0x500064, 16, 7, 0⟩
def JUG.SCAN_STATUS.pairs_done : Field := ⟨0x500064, 0, 9, 0⟩
/-- BAR0 address of JUG.POOL_STATUS (R148). -/
def JUG.POOL_STATUS : Nat := 0x500070
def JUG.POOL_STATUS.live : Field := ⟨0x500070, 16, 11, 0⟩
def JUG.POOL_STATUS.allocated : Field := ⟨0x500070, 0, 11, 0⟩
/-- BAR0 address of JUG.NC_PAIR[0] (R148). -/
def JUG.NC_PAIR : Nat := 0x500800
def JUG.NC_PAIR.alloc : Field := ⟨0x500800, 24, 6, 4⟩
def JUG.NC_PAIR.live : Field := ⟨0x500800, 18, 6, 4⟩
def JUG.NC_PAIR.gain : Field := ⟨0x500800, 0, 12, 4⟩
/-- BAR0 address of JUG.BLOCK_DESC[0] (R133). -/
def JUG.BLOCK_DESC : Nat := 0x510000
def JUG.BLOCK_DESC.valid : Field := ⟨0x510000, 31, 1, 4⟩
def JUG.BLOCK_DESC.kind : Field := ⟨0x510000, 29, 2, 4⟩
def JUG.BLOCK_DESC.use : Field := ⟨0x510000, 27, 2, 4⟩
def JUG.BLOCK_DESC.victim : Field := ⟨0x510000, 20, 7, 4⟩
def JUG.BLOCK_DESC.aggressor : Field := ⟨0x510000, 13, 7, 4⟩
def JUG.BLOCK_DESC.offset : Field := ⟨0x510000, 2, 11, 4⟩
/-- BAR0 address of JUG.BLOCK_STATE[0] (R148). -/
def JUG.BLOCK_STATE : Nat := 0x520000
def JUG.BLOCK_STATE.upd_count : Field := ⟨0x520000, 16, 16, 4⟩
def JUG.BLOCK_STATE.rate : Field := ⟨0x520000, 13, 3, 4⟩
def JUG.BLOCK_STATE.state : Field := ⟨0x520000, 8, 2, 4⟩
/-- BAR0 address of JUG.TAP[0] (R147). -/
def JUG.TAP : Nat := 0x540000
def JUG.TAP.tap : Field := ⟨0x540000, 0, 32, 4⟩
/-- BAR0 address of JUG.MAP_LO[0] (R142). -/
def JUG.MAP_LO : Nat := 0x580000
def JUG.MAP_LO.nr_lo : Field := ⟨0x580000, 26, 6, 8⟩
def JUG.MAP_LO.rate : Field := ⟨0x580000, 16, 3, 8⟩
def JUG.MAP_LO.rev : Field := ⟨0x580000, 0, 16, 8⟩
/-- BAR0 address of JUG.MAP_HI[0] (R142). -/
def JUG.MAP_HI : Nat := 0x580004
def JUG.MAP_HI.status : Field := ⟨0x580004, 30, 2, 8⟩
def JUG.MAP_HI.loss : Field := ⟨0x580004, 20, 10, 8⟩
def JUG.MAP_HI.peak : Field := ⟨0x580004, 9, 11, 8⟩
def JUG.MAP_HI.blocks_99 : Field := ⟨0x580004, 4, 5, 8⟩
def JUG.MAP_HI.nr_hi : Field := ⟨0x580004, 0, 4, 8⟩
/-- BAR0 address of SS.NODE_ADDR (R195). -/
def SS.NODE_ADDR : Nat := 0x600000
def SS.NODE_ADDR.addr : Field := ⟨0x600000, 0, 18, 0⟩
/-- BAR0 address of SS.RX_CFG (R195). -/
def SS.RX_CFG : Nat := 0x600004
def SS.RX_CFG.capture_db : Field := ⟨0x600004, 8, 5, 0⟩
def SS.RX_CFG.sync_tol : Field := ⟨0x600004, 0, 3, 0⟩
/-- BAR0 address of SS.MAC_CFG (R195). -/
def SS.MAC_CFG : Nat := 0x600008
def SS.MAC_CFG.busy_ms : Field := ⟨0x600008, 24, 8, 0⟩
def SS.MAC_CFG.cw_max : Field := ⟨0x600008, 8, 4, 0⟩
def SS.MAC_CFG.cw_min : Field := ⟨0x600008, 4, 4, 0⟩
def SS.MAC_CFG.retry : Field := ⟨0x600008, 0, 3, 0⟩
/-- BAR0 address of SS.SLEEP_STATUS (R196). -/
def SS.SLEEP_STATUS : Nat := 0x600010
def SS.SLEEP_STATUS.dropped : Field := ⟨0x600010, 16, 16, 0⟩
def SS.SLEEP_STATUS.osc_fail : Field := ⟨0x600010, 7, 1, 0⟩
def SS.SLEEP_STATUS.wake_req : Field := ⟨0x600010, 6, 1, 0⟩
def SS.SLEEP_STATUS.depth : Field := ⟨0x600010, 0, 6, 0⟩
/-- BAR0 address of SS.CAUSE (R196,R218). -/
def SS.CAUSE : Nat := 0x600014
def SS.CAUSE.bits : Field := ⟨0x600014, 0, 8, 0⟩
/-- BAR0 address of SS.BANK_CTRL (R466). -/
def SS.BANK_CTRL : Nat := 0x600018
def SS.BANK_CTRL.pending : Field := ⟨0x600018, 1, 1, 0⟩
def SS.BANK_CTRL.commit : Field := ⟨0x600018, 0, 1, 0⟩
/-- BAR0 address of SS.BANK_STATUS (R466). -/
def SS.BANK_STATUS : Nat := 0x60001C
def SS.BANK_STATUS.cfg_lost : Field := ⟨0x60001C, 17, 1, 0⟩
def SS.BANK_STATUS.ign_write : Field := ⟨0x60001C, 16, 1, 0⟩
def SS.BANK_STATUS.active_bank : Field := ⟨0x60001C, 8, 1, 0⟩
/-- BAR0 address of SS.NET_CFG (R218). -/
def SS.NET_CFG : Nat := 0x600020
def SS.NET_CFG.route_learn : Field := ⟨0x600020, 21, 1, 0⟩
def SS.NET_CFG.default_en : Field := ⟨0x600020, 20, 1, 0⟩
def SS.NET_CFG.default_port : Field := ⟨0x600020, 15, 5, 0⟩
def SS.NET_CFG.beacon : Field := ⟨0x600020, 8, 6, 0⟩
def SS.NET_CFG.reasm_s : Field := ⟨0x600020, 0, 8, 0⟩
/-- BAR0 address of SS.NET_STATUS (R218). -/
def SS.NET_STATUS : Nat := 0x600024
def SS.NET_STATUS.ctx_used : Field := ⟨0x600024, 16, 11, 0⟩
def SS.NET_STATUS.reasm_busy : Field := ⟨0x600024, 0, 5, 0⟩
/-- BAR0 address of SS.CTX_SEL (R218). -/
def SS.CTX_SEL : Nat := 0x600028
def SS.CTX_SEL.index : Field := ⟨0x600028, 0, 10, 0⟩
/-- BAR0 address of SS.CMD_STATUS (R218). -/
def SS.CMD_STATUS : Nat := 0x60002C
def SS.CMD_STATUS.result : Field := ⟨0x60002C, 28, 4, 0⟩
def SS.CMD_STATUS.code : Field := ⟨0x60002C, 18, 8, 0⟩
def SS.CMD_STATUS.origin : Field := ⟨0x60002C, 0, 18, 0⟩
/-- BAR0 address of SS.NET_CNT[0] (R218). -/
def SS.NET_CNT : Nat := 0x600040
def SS.NET_CNT.count : Field := ⟨0x600040, 0, 32, 4⟩
/-- BAR0 address of SS.PORT_CFG[0] (R196). -/
def SS.PORT_CFG : Nat := 0x600100
def SS.PORT_CFG.tx_level : Field := ⟨0x600100, 12, 2, 4⟩
def SS.PORT_CFG.cca : Field := ⟨0x600100, 4, 6, 4⟩
def SS.PORT_CFG.bus_term : Field := ⟨0x600100, 3, 1, 4⟩
def SS.PORT_CFG.bus : Field := ⟨0x600100, 2, 1, 4⟩
def SS.PORT_CFG.rate4 : Field := ⟨0x600100, 1, 1, 4⟩
def SS.PORT_CFG.enable : Field := ⟨0x600100, 0, 1, 4⟩
/-- BAR0 address of SS.PORT_STATUS[0] (R196). -/
def SS.PORT_STATUS : Nat := 0x600180
def SS.PORT_STATUS.rssi_last : Field := ⟨0x600180, 24, 8, 4⟩
def SS.PORT_STATUS.bus_active : Field := ⟨0x600180, 20, 1, 4⟩
def SS.PORT_STATUS.busy : Field := ⟨0x600180, 19, 1, 4⟩
def SS.PORT_STATUS.rx_state : Field := ⟨0x600180, 16, 3, 4⟩
def SS.PORT_STATUS.tx_pend : Field := ⟨0x600180, 12, 4, 4⟩
def SS.PORT_STATUS.last_fail : Field := ⟨0x600180, 4, 4, 4⟩
def SS.PORT_STATUS.rx_free : Field := ⟨0x600180, 0, 4, 4⟩
/-- BAR0 address of SS.PORT_CNT_RX_OK[0] (R195). -/
def SS.PORT_CNT_RX_OK : Nat := 0x600400
def SS.PORT_CNT_RX_OK.count : Field := ⟨0x600400, 0, 32, 64⟩
/-- BAR0 address of SS.PORT_CNT_HDR_FAIL[0] (R195). -/
def SS.PORT_CNT_HDR_FAIL : Nat := 0x600404
def SS.PORT_CNT_HDR_FAIL.count : Field := ⟨0x600404, 0, 32, 64⟩
/-- BAR0 address of SS.PORT_CNT_RS_FAIL[0] (R195). -/
def SS.PORT_CNT_RS_FAIL : Nat := 0x600408
def SS.PORT_CNT_RS_FAIL.count : Field := ⟨0x600408, 0, 32, 64⟩
/-- BAR0 address of SS.PORT_CNT_FALSE_PRE[0] (R195). -/
def SS.PORT_CNT_FALSE_PRE : Nat := 0x60040C
def SS.PORT_CNT_FALSE_PRE.count : Field := ⟨0x60040C, 0, 32, 64⟩
/-- BAR0 address of SS.PORT_CNT_CAPTURE[0] (R195). -/
def SS.PORT_CNT_CAPTURE : Nat := 0x600410
def SS.PORT_CNT_CAPTURE.count : Field := ⟨0x600410, 0, 32, 64⟩
/-- BAR0 address of SS.PORT_CNT_COLLIDE[0] (R195). -/
def SS.PORT_CNT_COLLIDE : Nat := 0x600414
def SS.PORT_CNT_COLLIDE.count : Field := ⟨0x600414, 0, 32, 64⟩
/-- BAR0 address of SS.PORT_CNT_RX_OVERRUN[0] (R195). -/
def SS.PORT_CNT_RX_OVERRUN : Nat := 0x600418
def SS.PORT_CNT_RX_OVERRUN.count : Field := ⟨0x600418, 0, 32, 64⟩
/-- BAR0 address of SS.PORT_CNT_TX_OK[0] (R195). -/
def SS.PORT_CNT_TX_OK : Nat := 0x60041C
def SS.PORT_CNT_TX_OK.count : Field := ⟨0x60041C, 0, 32, 64⟩
/-- BAR0 address of SS.PORT_CNT_TX_RETRY[0] (R195). -/
def SS.PORT_CNT_TX_RETRY : Nat := 0x600420
def SS.PORT_CNT_TX_RETRY.count : Field := ⟨0x600420, 0, 32, 64⟩
/-- BAR0 address of SS.PORT_CNT_TX_FAIL[0] (R195). -/
def SS.PORT_CNT_TX_FAIL : Nat := 0x600424
def SS.PORT_CNT_TX_FAIL.count : Field := ⟨0x600424, 0, 32, 64⟩
/-- BAR0 address of SS.CTX_WIN[0] (R218). -/
def SS.CTX_WIN : Nat := 0x601000
def SS.CTX_WIN.word : Field := ⟨0x601000, 0, 32, 4⟩
/-- BAR0 address of TRIP.IN_CFG[0] (R130). -/
def TRIP.IN_CFG : Nat := 0x680000
def TRIP.IN_CFG.filter : Field := ⟨0x680000, 8, 8, 4⟩
def TRIP.IN_CFG.keepalive : Field := ⟨0x680000, 2, 1, 4⟩
def TRIP.IN_CFG.polarity : Field := ⟨0x680000, 1, 1, 4⟩
def TRIP.IN_CFG.enable : Field := ⟨0x680000, 0, 1, 4⟩
/-- BAR0 address of TRIP.IN_MAP[0] (R130). -/
def TRIP.IN_MAP : Nat := 0x680020
def TRIP.IN_MAP.ports : Field := ⟨0x680020, 0, 32, 4⟩
/-- BAR0 address of TRIP.OUT_CFG[0] (R130). -/
def TRIP.OUT_CFG : Nat := 0x680040
def TRIP.OUT_CFG.hold_ms : Field := ⟨0x680040, 8, 8, 4⟩
def TRIP.OUT_CFG.hb_action : Field := ⟨0x680040, 4, 2, 4⟩
def TRIP.OUT_CFG.latch : Field := ⟨0x680040, 3, 1, 4⟩
def TRIP.OUT_CFG.polarity : Field := ⟨0x680040, 1, 1, 4⟩
def TRIP.OUT_CFG.enable : Field := ⟨0x680040, 0, 1, 4⟩
/-- BAR0 address of TRIP.OUT_MAP[0] (R130). -/
def TRIP.OUT_MAP : Nat := 0x680060
def TRIP.OUT_MAP.ports : Field := ⟨0x680060, 0, 32, 4⟩
/-- BAR0 address of TRIP.OUT_CMD (R130). -/
def TRIP.OUT_CMD : Nat := 0x680080
def TRIP.OUT_CMD.release : Field := ⟨0x680080, 0, 8, 0⟩
/-- BAR0 address of TRIP.OUT_STATUS (R130). -/
def TRIP.OUT_STATUS : Nat := 0x680084
def TRIP.OUT_STATUS.latched : Field := ⟨0x680084, 8, 8, 0⟩
def TRIP.OUT_STATUS.asserted : Field := ⟨0x680084, 0, 8, 0⟩
/-- BAR0 address of TRIP.BANK_CTRL (R466). -/
def TRIP.BANK_CTRL : Nat := 0x680090
def TRIP.BANK_CTRL.pending : Field := ⟨0x680090, 1, 1, 0⟩
def TRIP.BANK_CTRL.commit : Field := ⟨0x680090, 0, 1, 0⟩
/-- BAR0 address of TRIP.BANK_STATUS (R466). -/
def TRIP.BANK_STATUS : Nat := 0x680094
def TRIP.BANK_STATUS.cfg_lost : Field := ⟨0x680094, 17, 1, 0⟩
def TRIP.BANK_STATUS.ign_write : Field := ⟨0x680094, 16, 1, 0⟩
def TRIP.BANK_STATUS.active_bank : Field := ⟨0x680094, 8, 1, 0⟩
/-- BAR0 address of TRIP.PORT_CFG[0] (R130). -/
def TRIP.PORT_CFG : Nat := 0x680100
def TRIP.PORT_CFG.ss_fallback : Field := ⟨0x680100, 12, 1, 4⟩
def TRIP.PORT_CFG.repeat : Field := ⟨0x680100, 8, 4, 4⟩
def TRIP.PORT_CFG.window : Field := ⟨0x680100, 0, 5, 4⟩
/-- BAR0 address of TRIP.RELAY_MAP[0] (R130). -/
def TRIP.RELAY_MAP : Nat := 0x680180
def TRIP.RELAY_MAP.ports : Field := ⟨0x680180, 0, 32, 4⟩
/-- BAR0 address of TRIP.PORT_STATUS[0] (R130). -/
def TRIP.PORT_STATUS : Nat := 0x680200
def TRIP.PORT_STATUS.end_reason : Field := ⟨0x680200, 24, 4, 4⟩
def TRIP.PORT_STATUS.tx_dropped : Field := ⟨0x680200, 23, 1, 4⟩
def TRIP.PORT_STATUS.tx_starved : Field := ⟨0x680200, 22, 1, 4⟩
def TRIP.PORT_STATUS.partner_lockout : Field := ⟨0x680200, 21, 1, 4⟩
def TRIP.PORT_STATUS.tag_mismatch : Field := ⟨0x680200, 20, 1, 4⟩
def TRIP.PORT_STATUS.hb_lost : Field := ⟨0x680200, 19, 1, 4⟩
def TRIP.PORT_STATUS.lockout : Field := ⟨0x680200, 18, 1, 4⟩
def TRIP.PORT_STATUS.win_ready : Field := ⟨0x680200, 13, 5, 4⟩
def TRIP.PORT_STATUS.tx_ready : Field := ⟨0x680200, 9, 4, 4⟩
def TRIP.PORT_STATUS.session : Field := ⟨0x680200, 0, 3, 4⟩
/-- BAR0 address of TRIP.PORT_CAUSE[0] (R130). -/
def TRIP.PORT_CAUSE : Nat := 0x680280
def TRIP.PORT_CAUSE.bits : Field := ⟨0x680280, 0, 7, 4⟩
/-- BAR0 address of TRIP.PORT_CNT_ACC[0] (R130). -/
def TRIP.PORT_CNT_ACC : Nat := 0x680400
def TRIP.PORT_CNT_ACC.count : Field := ⟨0x680400, 0, 32, 16⟩
/-- BAR0 address of TRIP.PORT_CNT_WRONG[0] (R130). -/
def TRIP.PORT_CNT_WRONG : Nat := 0x680404
def TRIP.PORT_CNT_WRONG.count : Field := ⟨0x680404, 0, 32, 16⟩
/-- BAR0 address of TRIP.PORT_CNT_HBMISS[0] (R130). -/
def TRIP.PORT_CNT_HBMISS : Nat := 0x680408
def TRIP.PORT_CNT_HBMISS.word : Field := ⟨0x680408, 0, 32, 16⟩
/-- BAR0 address of TRIP.PORT_CNT_HBMISS_HI[0] (R130). -/
def TRIP.PORT_CNT_HBMISS_HI : Nat := 0x68040C
def TRIP.PORT_CNT_HBMISS_HI.word : Field := ⟨0x68040C, 0, 32, 16⟩
/-- BAR0 address of TRIP.TX_K[0] (R130). -/
def TRIP.TX_K : Nat := 0x680800
def TRIP.TX_K.lo : Field := ⟨0x680800, 0, 32, 16⟩
/-- BAR0 address of TRIP.TX_K_HI[0] (R130). -/
def TRIP.TX_K_HI : Nat := 0x680804
def TRIP.TX_K_HI.hi : Field := ⟨0x680804, 0, 32, 16⟩
/-- BAR0 address of TRIP.RX_BASE[0] (R130). -/
def TRIP.RX_BASE : Nat := 0x680808
def TRIP.RX_BASE.lo : Field := ⟨0x680808, 0, 32, 16⟩
/-- BAR0 address of TRIP.RX_BASE_HI[0] (R130). -/
def TRIP.RX_BASE_HI : Nat := 0x68080C
def TRIP.RX_BASE_HI.hi : Field := ⟨0x68080C, 0, 32, 16⟩
/-- BAR0 address of TST.STATUS (R378). -/
def TST.STATUS : Nat := 0x700000
def TST.STATUS.sealed : Field := ⟨0x700000, 31, 1, 0⟩
def TST.STATUS.id_ok : Field := ⟨0x700000, 30, 1, 0⟩
def TST.STATUS.audit_full : Field := ⟨0x700000, 29, 1, 0⟩
def TST.STATUS.owner : Field := ⟨0x700000, 12, 8, 0⟩
def TST.STATUS.rollback : Field := ⟨0x700000, 0, 7, 0⟩
/-- BAR0 address of TST.CAUSE (R378). -/
def TST.CAUSE : Nat := 0x700004
def TST.CAUSE.bits : Field := ⟨0x700004, 0, 8, 0⟩
/-- BAR0 address of TST.BOOT_STATUS (R378). -/
def TST.BOOT_STATUS : Nat := 0x70000C
def TST.BOOT_STATUS.svn : Field := ⟨0x70000C, 24, 8, 0⟩
def TST.BOOT_STATUS.running : Field := ⟨0x70000C, 16, 1, 0⟩
def TST.BOOT_STATUS.result_b : Field := ⟨0x70000C, 8, 4, 0⟩
def TST.BOOT_STATUS.result_a : Field := ⟨0x70000C, 0, 4, 0⟩
/-- BAR0 address of TST.MBOX_ADDR (R378). -/
def TST.MBOX_ADDR : Nat := 0x700010
def TST.MBOX_ADDR.addr : Field := ⟨0x700010, 0, 23, 0⟩
/-- BAR0 address of TST.MBOX_LEN (R378). -/
def TST.MBOX_LEN : Nat := 0x700014
def TST.MBOX_LEN.bytes : Field := ⟨0x700014, 0, 17, 0⟩
/-- BAR0 address of TST.MBOX_CMD (R378). -/
def TST.MBOX_CMD : Nat := 0x700018
def TST.MBOX_CMD.checkpoint : Field := ⟨0x700018, 2, 1, 0⟩
def TST.MBOX_CMD.enrol : Field := ⟨0x700018, 1, 1, 0⟩
def TST.MBOX_CMD.submit : Field := ⟨0x700018, 0, 1, 0⟩
/-- BAR0 address of TST.MBOX_STATUS (R378). -/
def TST.MBOX_STATUS : Nat := 0x70001C
def TST.MBOX_STATUS.kind : Field := ⟨0x70001C, 28, 4, 0⟩
def TST.MBOX_STATUS.result : Field := ⟨0x70001C, 24, 4, 0⟩
def TST.MBOX_STATUS.busy : Field := ⟨0x70001C, 23, 1, 0⟩
def TST.MBOX_STATUS.entry : Field := ⟨0x70001C, 0, 16, 0⟩
/-- BAR0 address of TST.MANIFEST_SEQ[0] (R378). -/
def TST.MANIFEST_SEQ : Nat := 0x700020
def TST.MANIFEST_SEQ.word : Field := ⟨0x700020, 0, 32, 4⟩
/-- BAR0 address of TST.AUDIT_SEQ[0] (R378). -/
def TST.AUDIT_SEQ : Nat := 0x700028
def TST.AUDIT_SEQ.word : Field := ⟨0x700028, 0, 32, 4⟩
/-- BAR0 address of TST.CKPT_ADDR (R378). -/
def TST.CKPT_ADDR : Nat := 0x700030
def TST.CKPT_ADDR.addr : Field := ⟨0x700030, 0, 23, 0⟩
/-- BAR0 address of TST.ID_COMMIT[0] (R378). -/
def TST.ID_COMMIT : Nat := 0x700040
def TST.ID_COMMIT.word : Field := ⟨0x700040, 0, 32, 4⟩
/-- BAR0 address of TST.AUDIT_HEAD[0] (R378). -/
def TST.AUDIT_HEAD : Nat := 0x700080
def TST.AUDIT_HEAD.word : Field := ⟨0x700080, 0, 32, 4⟩
/-- BAR0 address of TST.MEAS[0] (R378). -/
def TST.MEAS : Nat := 0x700100
def TST.MEAS.word : Field := ⟨0x700100, 0, 32, 4⟩
/-- BAR0 address of TST.OWNER_HASH[0] (R378). -/
def TST.OWNER_HASH : Nat := 0x700300
def TST.OWNER_HASH.word : Field := ⟨0x700300, 0, 32, 4⟩
/-- BAR0 address of TST.SES_STATUS[0] (R378). -/
def TST.SES_STATUS : Nat := 0x700400
def TST.SES_STATUS.step : Field := ⟨0x700400, 29, 3, 4⟩
def TST.SES_STATUS.initiator : Field := ⟨0x700400, 28, 1, 4⟩
def TST.SES_STATUS.old_live : Field := ⟨0x700400, 27, 1, 4⟩
def TST.SES_STATUS.last_err : Field := ⟨0x700400, 24, 3, 4⟩
def TST.SES_STATUS.tag_new : Field := ⟨0x700400, 0, 5, 4⟩
/-- BAR0 address of LOG.CFG (R395). -/
def LOG.CFG : Nat := 0x800000
def LOG.CFG.enable : Field := ⟨0x800000, 31, 1, 0⟩
def LOG.CFG.stall_ms : Field := ⟨0x800000, 16, 8, 0⟩
def LOG.CFG.audit_hw : Field := ⟨0x800000, 0, 5, 0⟩
/-- BAR0 address of LOG.STATUS (R395). -/
def LOG.STATUS : Nat := 0x800004
def LOG.STATUS.audit_free : Field := ⟨0x800004, 16, 16, 0⟩
def LOG.STATUS.reserve_used : Field := ⟨0x800004, 2, 1, 0⟩
def LOG.STATUS.trace_dropping : Field := ⟨0x800004, 1, 1, 0⟩
def LOG.STATUS.reserve_in_use : Field := ⟨0x800004, 0, 1, 0⟩
/-- BAR0 address of LOG.TRACE_DROP (R395). -/
def LOG.TRACE_DROP : Nat := 0x800008
def LOG.TRACE_DROP.count : Field := ⟨0x800008, 0, 32, 0⟩
/-- BAR0 address of LOG.ECC_CNT (R395). -/
def LOG.ECC_CNT : Nat := 0x80000C
def LOG.ECC_CNT.count : Field := ⟨0x80000C, 0, 32, 0⟩
/-- BAR0 address of LOG.CAUSE (R395). -/
def LOG.CAUSE : Nat := 0x800010
def LOG.CAUSE.bits : Field := ⟨0x800010, 0, 8, 0⟩
/-- BAR0 address of LOG.ALARM_ACK (R395). -/
def LOG.ALARM_ACK : Nat := 0x800014
def LOG.ALARM_ACK.seq : Field := ⟨0x800014, 0, 32, 0⟩
/-- BAR0 address of LOG.BANK_STATUS (R466). -/
def LOG.BANK_STATUS : Nat := 0x800018
def LOG.BANK_STATUS.cfg_lost : Field := ⟨0x800018, 17, 1, 0⟩
def LOG.BANK_STATUS.ign_write : Field := ⟨0x800018, 16, 1, 0⟩
def LOG.BANK_STATUS.active_bank : Field := ⟨0x800018, 8, 1, 0⟩
/-- BAR0 address of LOG.SS_CFG (R395). -/
def LOG.SS_CFG : Nat := 0x800020
def LOG.SS_CFG.dest : Field := ⟨0x800020, 14, 18, 0⟩
def LOG.SS_CFG.interval_s : Field := ⟨0x800020, 0, 8, 0⟩
/-- BAR0 address of LOG.CLASS_MAP[0] (R395). -/
def LOG.CLASS_MAP : Nat := 0x800040
def LOG.CLASS_MAP.map : Field := ⟨0x800040, 0, 32, 4⟩
/-- BAR0 address of LOG.SS_ALERT[0] (R395). -/
def LOG.SS_ALERT : Nat := 0x800080
def LOG.SS_ALERT.bits : Field := ⟨0x800080, 0, 32, 4⟩
/-- BAR0 address of LOG.EXP_CFG[0] (R395). -/
def LOG.EXP_CFG : Nat := 0x800100
def LOG.EXP_CFG.size_log2 : Field := ⟨0x800100, 16, 4, 32⟩
def LOG.EXP_CFG.ring : Field := ⟨0x800100, 8, 6, 32⟩
def LOG.EXP_CFG.path : Field := ⟨0x800100, 1, 2, 32⟩
def LOG.EXP_CFG.enable : Field := ⟨0x800100, 0, 1, 32⟩
/-- BAR0 address of LOG.EXP_VA[0] (R395). -/
def LOG.EXP_VA : Nat := 0x800104
def LOG.EXP_VA.lo : Field := ⟨0x800104, 0, 32, 32⟩
/-- BAR0 address of LOG.EXP_VA_HI[0] (R395). -/
def LOG.EXP_VA_HI : Nat := 0x800108
def LOG.EXP_VA_HI.hi : Field := ⟨0x800108, 0, 16, 32⟩
/-- BAR0 address of LOG.EXP_WR[0] (R395). -/
def LOG.EXP_WR : Nat := 0x80010C
def LOG.EXP_WR.idx : Field := ⟨0x80010C, 0, 16, 32⟩
/-- BAR0 address of LOG.EXP_RD[0] (R395). -/
def LOG.EXP_RD : Nat := 0x800110
def LOG.EXP_RD.idx : Field := ⟨0x800110, 0, 16, 32⟩
/-- BAR0 address of LOG.POS[0] (R395). -/
def LOG.POS : Nat := 0x800114
def LOG.POS.seq : Field := ⟨0x800114, 0, 32, 32⟩
/-- BAR0 address of LOG.POS_UNEXP[0] (R395). -/
def LOG.POS_UNEXP : Nat := 0x800118
def LOG.POS_UNEXP.seq : Field := ⟨0x800118, 0, 32, 32⟩
/-- BAR0 address of LOG.REC_SEL (R395). -/
def LOG.REC_SEL : Nat := 0x800200
def LOG.REC_SEL.class : Field := ⟨0x800200, 30, 2, 0⟩
/-- BAR0 address of LOG.REC_SEL_SEQ (R392,R395). -/
def LOG.REC_SEL_SEQ : Nat := 0x800204
def LOG.REC_SEL_SEQ.seq : Field := ⟨0x800204, 0, 32, 0⟩
/-- BAR0 address of LOG.REC_WIN[0] (R395). -/
def LOG.REC_WIN : Nat := 0x800220
def LOG.REC_WIN.word : Field := ⟨0x800220, 0, 32, 4⟩
/-- BAR0 address of PERF.CTRL (R408). -/
def PERF.CTRL : Nat := 0x900000
def PERF.CTRL.user_read : Field := ⟨0x900000, 0, 1, 0⟩
/-- BAR0 address of PERF.CMD (R408). -/
def PERF.CMD : Nat := 0x900004
def PERF.CMD.clear_all : Field := ⟨0x900004, 0, 1, 0⟩
/-- BAR0 address of PERF.CAUSE (R408). -/
def PERF.CAUSE : Nat := 0x900008
def PERF.CAUSE.bits : Field := ⟨0x900008, 0, 4, 0⟩
/-- BAR0 address of PERF.BANK (R408,R466). -/
def PERF.BANK : Nat := 0x90000C
def PERF.BANK.cfg_lost : Field := ⟨0x90000C, 17, 1, 0⟩
def PERF.BANK.ign_write : Field := ⟨0x90000C, 16, 1, 0⟩
def PERF.BANK.active_bank : Field := ⟨0x90000C, 8, 1, 0⟩
def PERF.BANK.pending : Field := ⟨0x90000C, 1, 1, 0⟩
def PERF.BANK.commit : Field := ⟨0x90000C, 0, 1, 0⟩
/-- BAR0 address of PERF.CYCLE (R396). -/
def PERF.CYCLE : Nat := 0x900010
def PERF.CYCLE.lo : Field := ⟨0x900010, 0, 32, 0⟩
/-- BAR0 address of PERF.CYCLE_HI (R396). -/
def PERF.CYCLE_HI : Nat := 0x900014
def PERF.CYCLE_HI.hi : Field := ⟨0x900014, 0, 32, 0⟩
/-- BAR0 address of PERF.OVF[0] (R399). -/
def PERF.OVF : Nat := 0x900020
def PERF.OVF.bits : Field := ⟨0x900020, 0, 8, 4⟩
/-- BAR0 address of PERF.DUMP_CFG (R408). -/
def PERF.DUMP_CFG : Nat := 0x900040
def PERF.DUMP_CFG.size_log2 : Field := ⟨0x900040, 28, 4, 0⟩
def PERF.DUMP_CFG.ring : Field := ⟨0x900040, 22, 6, 0⟩
def PERF.DUMP_CFG.period : Field := ⟨0x900040, 0, 16, 0⟩
/-- BAR0 address of PERF.DUMP_VA (R408). -/
def PERF.DUMP_VA : Nat := 0x900044
def PERF.DUMP_VA.lo : Field := ⟨0x900044, 0, 32, 0⟩
/-- BAR0 address of PERF.DUMP_VA_HI (R408). -/
def PERF.DUMP_VA_HI : Nat := 0x900048
def PERF.DUMP_VA_HI.hi : Field := ⟨0x900048, 0, 16, 0⟩
/-- BAR0 address of PERF.DUMP_WR (R408). -/
def PERF.DUMP_WR : Nat := 0x90004C
def PERF.DUMP_WR.idx : Field := ⟨0x90004C, 0, 16, 0⟩
/-- BAR0 address of PERF.DUMP_RD (R408). -/
def PERF.DUMP_RD : Nat := 0x900050
def PERF.DUMP_RD.idx : Field := ⟨0x900050, 0, 16, 0⟩
/-- BAR0 address of PERF.DUMP_LOST (R408). -/
def PERF.DUMP_LOST : Nat := 0x900054
def PERF.DUMP_LOST.count : Field := ⟨0x900054, 0, 32, 0⟩
/-- BAR0 address of PERF.SAMP_CFG (R408). -/
def PERF.SAMP_CFG : Nat := 0x900060
def PERF.SAMP_CFG.cores : Field := ⟨0x900060, 16, 4, 0⟩
def PERF.SAMP_CFG.interval : Field := ⟨0x900060, 0, 16, 0⟩
/-- BAR0 address of PERF.SAMP_STATUS (R408). -/
def PERF.SAMP_STATUS : Nat := 0x900064
def PERF.SAMP_STATUS.dropped : Field := ⟨0x900064, 16, 16, 0⟩
def PERF.SAMP_STATUS.wr : Field := ⟨0x900064, 0, 10, 0⟩
/-- BAR0 address of PERF.SAMP_RD (R408). -/
def PERF.SAMP_RD : Nat := 0x900068
def PERF.SAMP_RD.idx : Field := ⟨0x900068, 0, 10, 0⟩
/-- BAR0 address of PERF.SEL[0] (R408). -/
def PERF.SEL : Nat := 0x900100
def PERF.SEL.mode : Field := ⟨0x900100, 17, 1, 4⟩
def PERF.SEL.enable : Field := ⟨0x900100, 16, 1, 4⟩
def PERF.SEL.event : Field := ⟨0x900100, 0, 8, 4⟩
/-- BAR0 address of PERF.CNT[0] (R400). -/
def PERF.CNT : Nat := 0x900200
def PERF.CNT.lo : Field := ⟨0x900200, 0, 32, 8⟩
/-- BAR0 address of PERF.CNT_HI[0] (R400). -/
def PERF.CNT_HI : Nat := 0x900204
def PERF.CNT_HI.hi : Field := ⟨0x900204, 0, 16, 8⟩
/-- BAR0 address of PERF.SAMP[0] (R406). -/
def PERF.SAMP : Nat := 0x904000
def PERF.SAMP.word : Field := ⟨0x904000, 0, 32, 4⟩
/-- BAR0 address of DMA.MMU_CFG (R350). -/
def DMA.MMU_CFG : Nat := 0xA00000
def DMA.MMU_CFG.l1_base : Field := ⟨0xA00000, 16, 11, 0⟩
def DMA.MMU_CFG.l1_log2 : Field := ⟨0xA00000, 0, 5, 0⟩
/-- BAR0 address of DMA.MMU_VA_BASE (R350). -/
def DMA.MMU_VA_BASE : Nat := 0xA00004
def DMA.MMU_VA_BASE.lo : Field := ⟨0xA00004, 21, 11, 0⟩
/-- BAR0 address of DMA.MMU_VA_BASE_HI (R350). -/
def DMA.MMU_VA_BASE_HI : Nat := 0xA00008
def DMA.MMU_VA_BASE_HI.hi : Field := ⟨0xA00008, 0, 16, 0⟩
/-- BAR0 address of DMA.MMU_INV (R350). -/
def DMA.MMU_INV : Nat := 0xA0000C
def DMA.MMU_INV.all : Field := ⟨0xA0000C, 1, 1, 0⟩
def DMA.MMU_INV.one : Field := ⟨0xA0000C, 0, 1, 0⟩
/-- BAR0 address of DMA.MMU_INV_VA (R350). -/
def DMA.MMU_INV_VA : Nat := 0xA00010
def DMA.MMU_INV_VA.lo : Field := ⟨0xA00010, 12, 20, 0⟩
/-- BAR0 address of DMA.MMU_INV_VA_HI (R350). -/
def DMA.MMU_INV_VA_HI : Nat := 0xA00014
def DMA.MMU_INV_VA_HI.hi : Field := ⟨0xA00014, 0, 16, 0⟩
/-- BAR0 address of DMA.BANK_STATUS (R466). -/
def DMA.BANK_STATUS : Nat := 0xA00018
def DMA.BANK_STATUS.cfg_lost : Field := ⟨0xA00018, 17, 1, 0⟩
def DMA.BANK_STATUS.ign_write : Field := ⟨0xA00018, 16, 1, 0⟩
def DMA.BANK_STATUS.active_bank : Field := ⟨0xA00018, 8, 1, 0⟩
/-- BAR0 address of DMA.ECC_STATUS (R350). -/
def DMA.ECC_STATUS : Nat := 0xA00020
def DMA.ECC_STATUS.corr : Field := ⟨0xA00020, 16, 16, 0⟩
def DMA.ECC_STATUS.uncorr : Field := ⟨0xA00020, 8, 8, 0⟩
def DMA.ECC_STATUS.passes : Field := ⟨0xA00020, 0, 8, 0⟩
/-- BAR0 address of DMA.ECC_ADDR (R350). -/
def DMA.ECC_ADDR : Nat := 0xA00024
def DMA.ECC_ADDR.addr : Field := ⟨0xA00024, 2, 21, 0⟩
/-- BAR0 address of DMA.HOST_WIN_BASE (R350). -/
def DMA.HOST_WIN_BASE : Nat := 0xA00028
def DMA.HOST_WIN_BASE.base : Field := ⟨0xA00028, 12, 11, 0⟩
/-- BAR0 address of DMA.HOST_WIN_LEN (R350). -/
def DMA.HOST_WIN_LEN : Nat := 0xA0002C
def DMA.HOST_WIN_LEN.len : Field := ⟨0xA0002C, 12, 11, 0⟩
/-- BAR0 address of DMA.FAULT_CAUSE[0] (R350). -/
def DMA.FAULT_CAUSE : Nat := 0xA00040
def DMA.FAULT_CAUSE.bits : Field := ⟨0xA00040, 0, 32, 4⟩
/-- BAR0 address of DMA.CMPL_CAUSE[0] (R350). -/
def DMA.CMPL_CAUSE : Nat := 0xA00048
def DMA.CMPL_CAUSE.bits : Field := ⟨0xA00048, 0, 32, 4⟩
/-- BAR0 address of DMA.RING_CFG[0] (R350). -/
def DMA.RING_CFG : Nat := 0xA00100
def DMA.RING_CFG.size : Field := ⟨0xA00100, 4, 7, 64⟩
def DMA.RING_CFG.poster : Field := ⟨0xA00100, 2, 1, 64⟩
def DMA.RING_CFG.prio : Field := ⟨0xA00100, 0, 2, 64⟩
/-- BAR0 address of DMA.RING_CTRL[0] (R350). -/
def DMA.RING_CTRL : Nat := 0xA00104
def DMA.RING_CTRL.enable : Field := ⟨0xA00104, 0, 1, 64⟩
/-- BAR0 address of DMA.RING_BASE[0] (R350). -/
def DMA.RING_BASE : Nat := 0xA00108
def DMA.RING_BASE.base : Field := ⟨0xA00108, 5, 18, 64⟩
/-- BAR0 address of DMA.RING_PROD[0] (R350). -/
def DMA.RING_PROD : Nat := 0xA0010C
def DMA.RING_PROD.prod : Field := ⟨0xA0010C, 0, 16, 64⟩
/-- BAR0 address of DMA.RING_CMD[0] (R350). -/
def DMA.RING_CMD : Nat := 0xA00110
def DMA.RING_CMD.abort : Field := ⟨0xA00110, 1, 1, 64⟩
def DMA.RING_CMD.resume : Field := ⟨0xA00110, 0, 1, 64⟩
/-- BAR0 address of DMA.RING_STATUS[0] (R350). -/
def DMA.RING_STATUS : Nat := 0xA00114
def DMA.RING_STATUS.state : Field := ⟨0xA00114, 29, 3, 64⟩
def DMA.RING_STATUS.outstanding : Field := ⟨0xA00114, 22, 7, 64⟩
def DMA.RING_STATUS.refused : Field := ⟨0xA00114, 16, 6, 64⟩
def DMA.RING_STATUS.cons : Field := ⟨0xA00114, 0, 16, 64⟩
/-- BAR0 address of DMA.RING_POS[0] (R350). -/
def DMA.RING_POS : Nat := 0xA00118
def DMA.RING_POS.offset : Field := ⟨0xA00118, 0, 24, 64⟩
/-- BAR0 address of DMA.FAULT_INFO[0] (R350). -/
def DMA.FAULT_INFO : Nat := 0xA0011C
def DMA.FAULT_INFO.kind : Field := ⟨0xA0011C, 28, 4, 64⟩
def DMA.FAULT_INFO.dir : Field := ⟨0xA0011C, 27, 1, 64⟩
def DMA.FAULT_INFO.level : Field := ⟨0xA0011C, 26, 1, 64⟩
def DMA.FAULT_INFO.index : Field := ⟨0xA0011C, 0, 16, 64⟩
/-- BAR0 address of DMA.FAULT_VA[0] (R350). -/
def DMA.FAULT_VA : Nat := 0xA00120
def DMA.FAULT_VA.lo : Field := ⟨0xA00120, 0, 32, 64⟩
/-- BAR0 address of DMA.FAULT_VA_HI[0] (R350). -/
def DMA.FAULT_VA_HI : Nat := 0xA00124
def DMA.FAULT_VA_HI.hi : Field := ⟨0xA00124, 0, 32, 64⟩
/-- BAR0 address of DMA.FAULT_CNT[0] (R350). -/
def DMA.FAULT_CNT : Nat := 0xA00128
def DMA.FAULT_CNT.count : Field := ⟨0xA00128, 0, 32, 64⟩
/-- BAR0 address of PWR.CFG (R427). -/
def PWR.CFG : Nat := 0xB00000
def PWR.CFG.trip_guard : Field := ⟨0xB00000, 7, 1, 0⟩
def PWR.CFG.host_wake : Field := ⟨0xB00000, 6, 1, 0⟩
def PWR.CFG.host_deep : Field := ⟨0xB00000, 5, 1, 0⟩
def PWR.CFG.wake_pol : Field := ⟨0xB00000, 0, 1, 0⟩
/-- BAR0 address of PWR.REQ (R427). -/
def PWR.REQ : Nat := 0xB00004
def PWR.REQ.state : Field := ⟨0xB00004, 0, 3, 0⟩
/-- BAR0 address of PWR.REQ_STATUS (R427). -/
def PWR.REQ_STATUS : Nat := 0xB00008
def PWR.REQ_STATUS.busy : Field := ⟨0xB00008, 31, 1, 0⟩
def PWR.REQ_STATUS.pend_valid : Field := ⟨0xB00008, 30, 1, 0⟩
def PWR.REQ_STATUS.pend_state : Field := ⟨0xB00008, 27, 3, 0⟩
def PWR.REQ_STATUS.target : Field := ⟨0xB00008, 24, 3, 0⟩
def PWR.REQ_STATUS.result : Field := ⟨0xB00008, 20, 4, 0⟩
def PWR.REQ_STATUS.block : Field := ⟨0xB00008, 16, 4, 0⟩
def PWR.REQ_STATUS.src : Field := ⟨0xB00008, 8, 3, 0⟩
def PWR.REQ_STATUS.state : Field := ⟨0xB00008, 0, 3, 0⟩
/-- BAR0 address of PWR.CAUSE (R427). -/
def PWR.CAUSE : Nat := 0xB0000C
def PWR.CAUSE.bits : Field := ⟨0xB0000C, 0, 8, 0⟩
/-- BAR0 address of PWR.AON_STATUS (R427). -/
def PWR.AON_STATUS : Nat := 0xB00010
def PWR.AON_STATUS.rtc_valid : Field := ⟨0xB00010, 31, 1, 0⟩
def PWR.AON_STATUS.wr_pending : Field := ⟨0xB00010, 30, 1, 0⟩
def PWR.AON_STATUS.phase : Field := ⟨0xB00010, 28, 2, 0⟩
def PWR.AON_STATUS.last_wake : Field := ⟨0xB00010, 24, 4, 0⟩
def PWR.AON_STATUS.wake_in_entry : Field := ⟨0xB00010, 23, 1, 0⟩
def PWR.AON_STATUS.last_state : Field := ⟨0xB00010, 20, 3, 0⟩
/-- BAR0 address of PWR.BANK_STATUS (R466). -/
def PWR.BANK_STATUS : Nat := 0xB00014
def PWR.BANK_STATUS.cfg_lost : Field := ⟨0xB00014, 17, 1, 0⟩
def PWR.BANK_STATUS.ign_write : Field := ⟨0xB00014, 16, 1, 0⟩
def PWR.BANK_STATUS.active_bank : Field := ⟨0xB00014, 8, 1, 0⟩
/-- BAR0 address of PWR.RTC_SEC[0] (R427). -/
def PWR.RTC_SEC : Nat := 0xB00030
def PWR.RTC_SEC.word : Field := ⟨0xB00030, 0, 32, 4⟩
/-- BAR0 address of PWR.RTC_FRAC (R427). -/
def PWR.RTC_FRAC : Nat := 0xB00038
def PWR.RTC_FRAC.frac : Field := ⟨0xB00038, 0, 15, 0⟩
/-- BAR0 address of PWR.RTC_SET_SEC[0] (R427). -/
def PWR.RTC_SET_SEC : Nat := 0xB00040
def PWR.RTC_SET_SEC.word : Field := ⟨0xB00040, 0, 32, 4⟩
/-- BAR0 address of PWR.RTC_SET_FRAC (R427). -/
def PWR.RTC_SET_FRAC : Nat := 0xB00048
def PWR.RTC_SET_FRAC.frac : Field := ⟨0xB00048, 0, 15, 0⟩
/-- BAR0 address of PWR.RTC_ALARM[0] (R427). -/
def PWR.RTC_ALARM : Nat := 0xB00050
def PWR.RTC_ALARM.word : Field := ⟨0xB00050, 0, 32, 4⟩
/-- BAR0 address of PWR.WAKE_PORTS (R427). -/
def PWR.WAKE_PORTS : Nat := 0xB00058
def PWR.WAKE_PORTS.ports : Field := ⟨0xB00058, 0, 32, 0⟩
/-- BAR0 address of PWR.RET_BANK_MASK (R427). -/
def PWR.RET_BANK_MASK : Nat := 0xB0005C
def PWR.RET_BANK_MASK.banks : Field := ⟨0xB0005C, 0, 24, 0⟩
/-- BAR0 address of PWR.RET_STATUS (R427). -/
def PWR.RET_STATUS : Nat := 0xB00060
def PWR.RET_STATUS.banks : Field := ⟨0xB00060, 0, 24, 0⟩
/-- BAR0 address of PWR.SLEEP_ACCESS (R427). -/
def PWR.SLEEP_ACCESS : Nat := 0xB00064
def PWR.SLEEP_ACCESS.count : Field := ⟨0xB00064, 0, 32, 0⟩
/-- BAR0 address of PWR.TEMP[0] (R487). -/
def PWR.TEMP : Nat := 0xB00070
def PWR.TEMP.valid : Field := ⟨0xB00070, 31, 1, 4⟩
def PWR.TEMP.temp : Field := ⟨0xB00070, 0, 16, 4⟩
/-- BAR0 address of PWR.RAIL_CFG[0] (R427). -/
def PWR.RAIL_CFG : Nat := 0xB00100
def PWR.RAIL_CFG.enable : Field := ⟨0xB00100, 31, 1, 16⟩
def PWR.RAIL_CFG.addr : Field := ⟨0xB00100, 24, 7, 16⟩
def PWR.RAIL_CFG.page : Field := ⟨0xB00100, 16, 8, 16⟩
def PWR.RAIL_CFG.ack : Field := ⟨0xB00100, 14, 2, 16⟩
/-- BAR0 address of PWR.RAIL_VOUT0 (R427). -/
def PWR.RAIL_VOUT0 : Nat := 0xB00104
def PWR.RAIL_VOUT0.test : Field := ⟨0xB00104, 24, 8, 0⟩
def PWR.RAIL_VOUT0.run : Field := ⟨0xB00104, 16, 8, 0⟩
def PWR.RAIL_VOUT0.sleep : Field := ⟨0xB00104, 8, 8, 0⟩
def PWR.RAIL_VOUT0.deep : Field := ⟨0xB00104, 0, 8, 0⟩
/-- BAR0 address of PWR.RAIL_VOUT[0] (R427). -/
def PWR.RAIL_VOUT : Nat := 0xB00114
def PWR.RAIL_VOUT.test : Field := ⟨0xB00114, 24, 8, 16⟩
def PWR.RAIL_VOUT.run : Field := ⟨0xB00114, 16, 8, 16⟩
def PWR.RAIL_VOUT.sleep : Field := ⟨0xB00114, 8, 8, 16⟩
def PWR.RAIL_VOUT.deep : Field := ⟨0xB00114, 0, 8, 16⟩
/-- BAR0 address of PWR.RAIL_STATUS[0] (R427). -/
def PWR.RAIL_STATUS : Nat := 0xB00108
def PWR.RAIL_STATUS.fault : Field := ⟨0xB00108, 28, 4, 16⟩
def PWR.RAIL_STATUS.vout : Field := ⟨0xB00108, 0, 16, 16⟩
/-- BAR0 address of CAL.CFG (R255). -/
def CAL.CFG : Nat := 0xC00000
def CAL.CFG.hold : Field := ⟨0xC00000, 31, 1, 0⟩
def CAL.CFG.min_exp : Field := ⟨0xC00000, 24, 5, 0⟩
def CAL.CFG.var_floor : Field := ⟨0xC00000, 16, 8, 0⟩
def CAL.CFG.kurt_lo : Field := ⟨0xC00000, 11, 5, 0⟩
def CAL.CFG.kurt_hi : Field := ⟨0xC00000, 5, 6, 0⟩
def CAL.CFG.flat_min : Field := ⟨0xC00000, 0, 5, 0⟩
/-- BAR0 address of CAL.SPARE_CFG (R255). -/
def CAL.SPARE_CFG : Nat := 0xC00004
def CAL.SPARE_CFG.auto_replace : Field := ⟨0xC00004, 16, 1, 0⟩
def CAL.SPARE_CFG.replace_dbc : Field := ⟨0xC00004, 8, 8, 0⟩
def CAL.SPARE_CFG.shadow_visits : Field := ⟨0xC00004, 4, 4, 0⟩
/-- BAR0 address of CAL.CMD (R255). -/
def CAL.CMD : Nat := 0xC00010
def CAL.CMD.swap : Field := ⟨0xC00010, 1, 1, 0⟩
def CAL.CMD.force : Field := ⟨0xC00010, 0, 1, 0⟩
/-- BAR0 address of CAL.FORCE_SEL (R255). -/
def CAL.FORCE_SEL : Nat := 0xC00014
def CAL.FORCE_SEL.element : Field := ⟨0xC00014, 16, 7, 0⟩
def CAL.FORCE_SEL.kind : Field := ⟨0xC00014, 12, 2, 0⟩
def CAL.FORCE_SEL.override : Field := ⟨0xC00014, 8, 1, 0⟩
def CAL.FORCE_SEL.pair : Field := ⟨0xC00014, 0, 7, 0⟩
/-- BAR0 address of CAL.STATUS (R255). -/
def CAL.STATUS : Nat := 0xC00018
def CAL.STATUS.cmd_refused : Field := ⟨0xC00018, 31, 1, 0⟩
def CAL.STATUS.no_slots : Field := ⟨0xC00018, 30, 1, 0⟩
def CAL.STATUS.round_revs : Field := ⟨0xC00018, 8, 8, 0⟩
def CAL.STATUS.pair_now : Field := ⟨0xC00018, 0, 7, 0⟩
/-- BAR0 address of CAL.JSP_STATUS (R255). -/
def CAL.JSP_STATUS : Nat := 0xC0001C
def CAL.JSP_STATUS.permanent : Field := ⟨0xC0001C, 31, 1, 0⟩
def CAL.JSP_STATUS.standing_in : Field := ⟨0xC0001C, 30, 1, 0⟩
def CAL.JSP_STATUS.engine : Field := ⟨0xC0001C, 0, 4, 0⟩
/-- BAR0 address of CAL.TRIM_SEL (R255). -/
def CAL.TRIM_SEL : Nat := 0xC00020
def CAL.TRIM_SEL.pair : Field := ⟨0xC00020, 0, 7, 0⟩
/-- BAR0 address of CAL.BANK_CTRL (R466). -/
def CAL.BANK_CTRL : Nat := 0xC00030
def CAL.BANK_CTRL.pending : Field := ⟨0xC00030, 1, 1, 0⟩
def CAL.BANK_CTRL.commit : Field := ⟨0xC00030, 0, 1, 0⟩
/-- BAR0 address of CAL.BANK_STATUS (R466). -/
def CAL.BANK_STATUS : Nat := 0xC00034
def CAL.BANK_STATUS.cfg_lost : Field := ⟨0xC00034, 17, 1, 0⟩
def CAL.BANK_STATUS.ign_write : Field := ⟨0xC00034, 16, 1, 0⟩
def CAL.BANK_STATUS.active_bank : Field := ⟨0xC00034, 8, 1, 0⟩
/-- BAR0 address of CAL.TRIM_WIN[0] (R255). -/
def CAL.TRIM_WIN : Nat := 0xC00100
def CAL.TRIM_WIN.role : Field := ⟨0xC00100, 30, 2, 4⟩
def CAL.TRIM_WIN.skew : Field := ⟨0xC00100, 20, 10, 4⟩
def CAL.TRIM_WIN.gain : Field := ⟨0xC00100, 10, 10, 4⟩
def CAL.TRIM_WIN.trim : Field := ⟨0xC00100, 0, 10, 4⟩
/-- BAR0 address of CAL.PAIR_CAL[0] (R255). -/
def CAL.PAIR_CAL : Nat := 0xC00400
def CAL.PAIR_CAL.status : Field := ⟨0xC00400, 29, 3, 4⟩
def CAL.PAIR_CAL.reason : Field := ⟨0xC00400, 26, 3, 4⟩
def CAL.PAIR_CAL.adc_spares : Field := ⟨0xC00400, 24, 2, 4⟩
def CAL.PAIR_CAL.drv_spares : Field := ⟨0xC00400, 20, 4, 4⟩
def CAL.PAIR_CAL.rie : Field := ⟨0xC00400, 12, 8, 4⟩
def CAL.PAIR_CAL.pga : Field := ⟨0xC00400, 6, 6, 4⟩
def CAL.PAIR_CAL.visit_seq : Field := ⟨0xC00400, 0, 6, 4⟩
/-- BAR0 address of CAL.PORT_CAUSE[0] (R255). -/
def CAL.PORT_CAUSE : Nat := 0xC00600
def CAL.PORT_CAUSE.bits : Field := ⟨0xC00600, 0, 6, 4⟩
/-- BAR0 address of BIST.ROT_CFG (R444). -/
def BIST.ROT_CFG : Nat := 0xC01000
def BIST.ROT_CFG.enable : Field := ⟨0xC01000, 31, 1, 0⟩
def BIST.ROT_CFG.patterns : Field := ⟨0xC01000, 8, 16, 0⟩
def BIST.ROT_CFG.interval_s : Field := ⟨0xC01000, 0, 8, 0⟩
/-- BAR0 address of BIST.ROT_STATUS (R444). -/
def BIST.ROT_STATUS : Nat := 0xC01004
def BIST.ROT_STATUS.result : Field := ⟨0xC01004, 30, 2, 0⟩
def BIST.ROT_STATUS.kind : Field := ⟨0xC01004, 28, 2, 0⟩
def BIST.ROT_STATUS.index : Field := ⟨0xC01004, 21, 7, 0⟩
def BIST.ROT_STATUS.step : Field := ⟨0xC01004, 12, 9, 0⟩
def BIST.ROT_STATUS.rounds : Field := ⟨0xC01004, 0, 12, 0⟩
/-- BAR0 address of BIST.SHUT_STATUS (R444). -/
def BIST.SHUT_STATUS : Nat := 0xC01008
def BIST.SHUT_STATUS.result : Field := ⟨0xC01008, 30, 2, 0⟩
def BIST.SHUT_STATUS.valid : Field := ⟨0xC01008, 29, 1, 0⟩
def BIST.SHUT_STATUS.long_next : Field := ⟨0xC01008, 28, 1, 0⟩
def BIST.SHUT_STATUS.seg_done : Field := ⟨0xC01008, 21, 7, 0⟩
def BIST.SHUT_STATUS.seg_first : Field := ⟨0xC01008, 14, 7, 0⟩
/-- BAR0 address of BIST.CAUSE (R444). -/
def BIST.CAUSE : Nat := 0xC0100C
def BIST.CAUSE.bits : Field := ⟨0xC0100C, 0, 4, 0⟩
/-- BAR0 address of BIST.SEG_RESULT[0] (R444). -/
def BIST.SEG_RESULT : Nat := 0xC01010
def BIST.SEG_RESULT.results : Field := ⟨0xC01010, 0, 32, 4⟩
/-- BAR0 address of BIST.BANK_CTRL (R466). -/
def BIST.BANK_CTRL : Nat := 0xC01030
def BIST.BANK_CTRL.pending : Field := ⟨0xC01030, 1, 1, 0⟩
def BIST.BANK_CTRL.commit : Field := ⟨0xC01030, 0, 1, 0⟩
/-- BAR0 address of BIST.BANK_STATUS (R466). -/
def BIST.BANK_STATUS : Nat := 0xC01034
def BIST.BANK_STATUS.cfg_lost : Field := ⟨0xC01034, 17, 1, 0⟩
def BIST.BANK_STATUS.ign_write : Field := ⟨0xC01034, 16, 1, 0⟩
def BIST.BANK_STATUS.active_bank : Field := ⟨0xC01034, 8, 1, 0⟩

/-! ### The tables, one per block -/

/-- The registers of CHIP, part 1. -/
def tableCHIP1 : List RegDef := [
  ⟨0x0, 0, 1, [⟨8, 24, .ro, 0, .any⟩, ⟨4, 4, .ro, 0, .any⟩, ⟨0, 4, .ro, 0, .any⟩]⟩,
  ⟨0x8, 0, 1, [⟨0, 32, .ro, 0, .any⟩]⟩,
  ⟨0xC, 0, 1, [⟨0, 32, .ro, 0, .any⟩]⟩,
  ⟨0x20, 0, 1, [⟨1, 1, .wc, 0, .any⟩, ⟨0, 1, .wc, 0, .any⟩]⟩,
  ⟨0x24, 0, 1, [⟨8, 1, .ro, 0, .any⟩, ⟨4, 4, .ro, 0, .any⟩, ⟨0, 4, .ro, 0, .any⟩]⟩,
  ⟨0x28, 0, 1, [⟨1, 1, .ro, 0, .any⟩, ⟨0, 1, .ro, 0, .any⟩]⟩,
  ⟨0x30, 0, 1, [⟨0, 32, .rh, 0, .any⟩]⟩,
  ⟨0x34, 0, 1, [⟨0, 16, .rh, 0, .any⟩]⟩,
  ⟨0x38, 0, 1, [⟨0, 24, .rh, 0, (.range 1 8388608)⟩]⟩,
  ⟨0x3C, 0, 1, [⟨3, 1, .wc, 0, .any⟩, ⟨2, 1, .wc, 0, .any⟩, ⟨1, 1, .wc, 0, .any⟩,
       ⟨0, 1, .wc, 0, .any⟩]⟩,
  ⟨0x40, 0, 1, [⟨29, 3, .ro, 0, .any⟩, ⟨25, 4, .ro, 0, .any⟩, ⟨24, 1, .ro, 0, .any⟩,
       ⟨0, 24, .ro, 0, .any⟩]⟩,
  ⟨0x44, 0, 1, [⟨0, 23, .ro, 0, .any⟩]⟩,
  ⟨0x48, 0, 1, [⟨1, 1, .ro, 0, .any⟩, ⟨0, 1, .rh, 0, .any⟩]⟩,
  ⟨0x50, 0, 1, [⟨0, 26, .rc, 0, .any⟩]⟩,
  ⟨0x54, 0, 1, [⟨16, 16, .rc, 0, .any⟩, ⟨0, 3, .rc, 0, .any⟩]⟩,
  ⟨0x58, 0, 1, [⟨0, 26, .rc, 0, .any⟩]⟩,
  ⟨0x5C, 0, 1, [⟨16, 16, .rc, 0, .any⟩, ⟨0, 2, .rc, 0, .any⟩]⟩,
  ⟨0x60, 0, 1, [⟨0, 26, .ro, 0, .any⟩]⟩,
  ⟨0x64, 0, 1, [⟨12, 2, .ro, 0, .any⟩, ⟨5, 6, .ro, 0, .any⟩, ⟨0, 5, .ro, 0, .any⟩]⟩,
  ⟨0x68, 0, 1, [⟨0, 32, .ro, 0, .any⟩]⟩]

/-- The registers of CHIP, part 2. -/
def tableCHIP2 : List RegDef := [
  ⟨0x6C, 0, 1, [⟨0, 32, .ro, 0, .any⟩]⟩,
  ⟨0x70, 0, 1, [⟨0, 1, .wc, 0, .any⟩]⟩,
  ⟨0x74, 0, 1, [⟨16, 16, .rc, 0, .any⟩, ⟨0, 6, .ro, 0, .any⟩]⟩,
  ⟨0x78, 0, 1, [⟨0, 1, .rc, 0, .any⟩]⟩]

/-- The registers of CHIP. -/
def tableCHIP : List RegDef := tableCHIP1 ++ tableCHIP2

/-- The registers of EVT. -/
def tableEVT : List RegDef := [
  ⟨0x80, 4, 8, [⟨0, 32, .rc, 0, .any⟩]⟩,
  ⟨0x100, 4, 8, [⟨0, 32, .rh, 4294967295, .any⟩]⟩,
  ⟨0x120, 4, 8, [⟨0, 32, .rh, 4294967295, .any⟩]⟩,
  ⟨0x140, 0, 1, [⟨16, 1, .ro, 0, .any⟩, ⟨8, 8, .ro, 0, .any⟩, ⟨0, 8, .ro, 0, .any⟩]⟩,
  ⟨0x8000, 16, 256, [⟨0, 32, .rh, 0, .any⟩]⟩,
  ⟨0x8004, 16, 256, [⟨0, 32, .rh, 0, .any⟩]⟩,
  ⟨0x8008, 16, 256, [⟨0, 32, .rh, 0, .any⟩]⟩,
  ⟨0x800C, 16, 256, [⟨0, 1, .rh, 1, .any⟩]⟩,
  ⟨0x9000, 4, 8, [⟨0, 32, .ro, 0, .any⟩]⟩]

/-- The registers of P, part 1. -/
def tableP1 : List RegDef := [
  ⟨0x0, 0, 1, [⟨1, 1, .ro, 0, .any⟩, ⟨0, 1, .wc, 0, .any⟩]⟩,
  ⟨0x4, 0, 1, [⟨17, 1, .rc, 0, .any⟩, ⟨16, 1, .rc, 0, .any⟩, ⟨8, 1, .ro, 0, .any⟩]⟩,
  ⟨0x40, 0, 1, [⟨12, 1, .rw, 0, .any⟩, ⟨8, 1, .rw, 0, .any⟩, ⟨4, 3, .rw, 4, (.range 0 4)⟩,
       ⟨0, 3, .rw, 0, (.range 0 2)⟩]⟩,
  ⟨0x44, 0, 1, [⟨24, 1, .rw, 0, .any⟩, ⟨20, 4, .rw, 4, (.range 0 8)⟩, ⟨15, 5, .rw, 15, (.range 6 18)⟩,
       ⟨10, 5, .rw, 13, (.range 6 18)⟩, ⟨5, 5, .rw, 14, (.range 6 18)⟩, ⟨0, 5, .rw, 9, (.range 6 18)⟩]⟩,
  ⟨0x48, 0, 1, [⟨22, 2, .rw, 1, .any⟩, ⟨20, 1, .rw, 1, .any⟩, ⟨16, 4, .rw, 4, (.range 1 15)⟩,
       ⟨8, 8, .rw, 5, .any⟩, ⟨6, 1, .rw, 0, .any⟩, ⟨5, 1, .rw, 1, .any⟩,
       ⟨4, 1, .rw, 1, .any⟩, ⟨3, 1, .rw, 1, .any⟩, ⟨0, 3, .rw, 2, (.range 1 7)⟩]⟩,
  ⟨0x4C, 0, 1, [⟨13, 1, .rw, 1, .any⟩, ⟨11, 1, .rw, 1, .any⟩, ⟨8, 3, .rw, 7, .any⟩,
       ⟨0, 5, .rw, 31, .any⟩]⟩,
  ⟨0x50, 0, 1, [⟨29, 3, .rw, 0, .any⟩, ⟨28, 1, .rw, 1, .any⟩, ⟨26, 2, .rw, 3, .any⟩,
       ⟨20, 6, .rw, 50, (.range 1 50)⟩, ⟨12, 8, .rw, 20, (.range 0 150)⟩, ⟨0, 8, .rw, 128, (.range 16 128)⟩]⟩,
  ⟨0x54, 0, 1, [⟨16, 1, .rw, 1, .any⟩, ⟨8, 8, .rw, 96, (.range 1 127)⟩, ⟨0, 8, .rw, 32, (.range 0 126)⟩]⟩,
  ⟨0x58, 0, 1, [⟨24, 8, .rw, 4, .any⟩, ⟨16, 8, .rw, 16, (.range 1 255)⟩, ⟨8, 5, .rw, 5, .any⟩,
       ⟨0, 8, .rw, 10, .any⟩]⟩,
  ⟨0x5C, 0, 1, [⟨22, 10, .rw, 667, (.range 500 900)⟩, ⟨15, 7, .rw, 5, .any⟩, ⟨7, 8, .rw, 65, (.range 10 255)⟩,
       ⟨3, 4, .rw, 6, (.range 1 15)⟩]⟩,
  ⟨0x60, 0, 1, [⟨0, 16, .rw, 0, .any⟩]⟩,
  ⟨0x64, 0, 1, [⟨8, 16, .rw, 0, .any⟩, ⟨3, 5, .rw, 31, .any⟩, ⟨0, 2, .rw, 1, (.range 0 2)⟩]⟩,
  ⟨0x68, 0, 1, [⟨16, 1, .rw, 1, .any⟩, ⟨8, 8, .rw, 20, (.range 6 60)⟩, ⟨0, 1, .rw, 1, .any⟩]⟩,
  ⟨0x80, 0, 1, [⟨3, 1, .wc, 0, .any⟩, ⟨2, 1, .wc, 0, .any⟩, ⟨1, 1, .wc, 0, .any⟩,
       ⟨0, 1, .wc, 0, .any⟩]⟩,
  ⟨0x84, 0, 1, [⟨0, 1, .wc, 0, .any⟩]⟩,
  ⟨0x100, 0, 1, [⟨20, 6, .ro, 0, .any⟩, ⟨19, 1, .ro, 0, .any⟩, ⟨18, 1, .ro, 0, .any⟩,
       ⟨17, 1, .ro, 0, .any⟩, ⟨16, 1, .ro, 0, .any⟩, ⟨12, 4, .ro, 0, .any⟩,
       ⟨10, 1, .ro, 0, .any⟩, ⟨9, 1, .ro, 0, .any⟩, ⟨8, 1, .ro, 0, .any⟩,
       ⟨4, 3, .ro, 7, .any⟩, ⟨0, 3, .ro, 7, .any⟩]⟩,
  ⟨0x104, 0, 1, [⟨24, 8, .rh, 0, .any⟩, ⟨20, 4, .rh, 0, .any⟩, ⟨18, 1, .ro, 0, .any⟩,
       ⟨17, 1, .ro, 0, .any⟩, ⟨16, 1, .ro, 0, .any⟩, ⟨11, 5, .ro, 31, .any⟩,
       ⟨8, 3, .ro, 0, .any⟩, ⟨4, 4, .ro, 0, .any⟩, ⟨0, 4, .ro, 1, .any⟩]⟩,
  ⟨0x108, 0, 1, [⟨24, 8, .ro, 1, .any⟩, ⟨18, 6, .ro, 0, .any⟩, ⟨16, 2, .ro, 0, .any⟩,
       ⟨10, 1, .ro, 1, .any⟩, ⟨5, 1, .ro, 0, .any⟩, ⟨2, 1, .ro, 0, .any⟩,
       ⟨1, 1, .ro, 0, .any⟩, ⟨0, 1, .ro, 0, .any⟩]⟩,
  ⟨0x10C, 0, 1, [⟨0, 32, .ro, 0, .any⟩]⟩,
  ⟨0x110, 4, 4, [⟨16, 16, .ro, 32768, .any⟩, ⟨0, 16, .ro, 0, .any⟩]⟩]

/-- The registers of P, part 2. -/
def tableP2 : List RegDef := [
  ⟨0x120, 0, 1, [⟨18, 1, .ro, 0, .any⟩, ⟨16, 2, .ro, 0, .any⟩, ⟨0, 16, .ro, 32768, .any⟩]⟩,
  ⟨0x124, 0, 1, [⟨10, 10, .ro, 0, .any⟩, ⟨8, 2, .ro, 0, .any⟩, ⟨5, 3, .ro, 0, .any⟩,
       ⟨2, 3, .ro, 0, .any⟩, ⟨0, 2, .ro, 0, .any⟩]⟩,
  ⟨0x128, 0, 1, [⟨0, 7, .rc, 0, .any⟩]⟩,
  ⟨0x12C, 0, 1, [⟨20, 12, .ro, 4095, .any⟩, ⟨12, 8, .ro, 0, .any⟩, ⟨3, 1, .ro, 0, .any⟩,
       ⟨2, 1, .ro, 0, .any⟩, ⟨1, 1, .ro, 0, .any⟩, ⟨0, 1, .ro, 0, .any⟩]⟩,
  ⟨0x130, 0, 1, [⟨19, 13, .ro, 0, .any⟩, ⟨17, 2, .ro, 0, .any⟩, ⟨8, 8, .rh, 0, .any⟩,
       ⟨6, 2, .ro, 0, .any⟩, ⟨0, 4, .ro, 0, .any⟩]⟩,
  ⟨0x134, 0, 1, [⟨0, 18, .ro, 0, .any⟩]⟩,
  ⟨0x138, 0, 1, [⟨22, 10, .ro, 0, .any⟩, ⟨0, 22, .ro, 0, .any⟩]⟩,
  ⟨0x140, 0, 1, [⟨16, 2, .rh, 0, .any⟩, ⟨0, 12, .rh, 0, (.range 0 3840)⟩]⟩,
  ⟨0x144, 0, 1, [⟨0, 32, .rh, 0, .any⟩]⟩,
  ⟨0x148, 0, 1, [⟨0, 2, .rh, 0, .any⟩]⟩,
  ⟨0x150, 4, 4, [⟨29, 3, .ro, 0, .any⟩, ⟨28, 1, .ro, 0, .any⟩, ⟨26, 2, .ro, 0, .any⟩,
       ⟨16, 8, .ro, 0, .any⟩, ⟨0, 16, .ro, 0, .any⟩]⟩,
  ⟨0x160, 4, 4, [⟨24, 8, .ro, 0, .any⟩, ⟨16, 8, .ro, 0, .any⟩, ⟨0, 16, .ro, 0, .any⟩]⟩,
  ⟨0x170, 4, 4, [⟨21, 11, .ro, 2047, .any⟩, ⟨13, 8, .ro, 0, .any⟩, ⟨5, 8, .ro, 0, .any⟩]⟩,
  ⟨0x180, 4, 4, [⟨30, 2, .ro, 0, .any⟩, ⟨16, 14, .ro, 0, .any⟩, ⟨0, 16, .ro, 32768, .any⟩]⟩,
  ⟨0x190, 0, 1, [⟨24, 8, .ro, 0, .any⟩, ⟨20, 4, .ro, 0, .any⟩, ⟨18, 2, .ro, 0, .any⟩,
       ⟨17, 1, .rc, 0, .any⟩, ⟨16, 1, .ro, 0, .any⟩, ⟨0, 4, .ro, 0, .any⟩]⟩,
  ⟨0x200, 4, 2, [⟨0, 32, .rh, 0, .any⟩]⟩,
  ⟨0x208, 4, 2, [⟨0, 32, .rh, 0, .any⟩]⟩,
  ⟨0x210, 4, 2, [⟨0, 32, .rh, 0, .any⟩]⟩,
  ⟨0x218, 4, 2, [⟨0, 32, .rh, 0, .any⟩]⟩,
  ⟨0x220, 4, 16, [⟨0, 32, .rh, 0, .any⟩]⟩]

/-- The registers of P, part 3. -/
def tableP3 : List RegDef := [
  ⟨0x260, 0, 1, [⟨0, 32, .rh, 0, .any⟩]⟩,
  ⟨0x264, 0, 1, [⟨0, 32, .rh, 0, .any⟩]⟩,
  ⟨0x270, 4, 2, [⟨0, 32, .rh, 0, .any⟩]⟩,
  ⟨0x278, 0, 1, [⟨0, 32, .rh, 0, .any⟩]⟩,
  ⟨0x27C, 0, 1, [⟨0, 32, .rh, 0, .any⟩]⟩,
  ⟨0x400, 4, 256, [⟨28, 4, .ro, 0, .any⟩, ⟨26, 2, .ro, 1, .any⟩, ⟨0, 16, .ro, 32768, .any⟩]⟩,
  ⟨0x800, 4, 2512, [⟨0, 32, .ro, 0, .any⟩]⟩]

/-- The registers of P. -/
def tableP : List RegDef := tableP1 ++ tableP2 ++ tableP3

/-- The registers of HSL. -/
def tableHSL : List RegDef := [
  ⟨0x0, 0, 1, [⟨0, 1, .rw, 0, .any⟩]⟩,
  ⟨0x4, 0, 1, [⟨17, 1, .rc, 0, .any⟩, ⟨16, 1, .rc, 0, .any⟩, ⟨8, 1, .ro, 0, .any⟩]⟩,
  ⟨0x100, 4, 32, [⟨24, 5, .rw, 4, .any⟩, ⟨20, 4, .rw, 2, .any⟩, ⟨10, 1, .rw, 0, .any⟩,
       ⟨9, 1, .rw, 0, .any⟩, ⟨8, 1, .rw, 1, .any⟩, ⟨7, 1, .rw, 0, .any⟩,
       ⟨6, 1, .rw, 0, .any⟩, ⟨5, 1, .rw, 0, .any⟩, ⟨4, 1, .rw, 0, .any⟩,
       ⟨3, 1, .rw, 1, .any⟩, ⟨2, 1, .rw, 0, .any⟩, ⟨1, 1, .rw, 1, .any⟩,
       ⟨0, 1, .rw, 0, .any⟩]⟩,
  ⟨0x180, 4, 32, [⟨0, 1, .wc, 0, .any⟩]⟩,
  ⟨0x200, 4, 32, [⟨28, 1, .ro, 0, .any⟩, ⟨24, 4, .ro, 0, .any⟩, ⟨20, 4, .ro, 0, .any⟩,
       ⟨16, 4, .ro, 0, .any⟩, ⟨12, 4, .ro, 0, .any⟩, ⟨4, 1, .ro, 0, .any⟩,
       ⟨3, 1, .ro, 0, .any⟩, ⟨0, 3, .ro, 0, .any⟩]⟩,
  ⟨0x280, 4, 32, [⟨0, 9, .rc, 0, .any⟩]⟩,
  ⟨0x300, 4, 32, [⟨24, 8, .ro, 0, .any⟩, ⟨16, 8, .ro, 0, .any⟩, ⟨0, 16, .ro, 0, .any⟩]⟩,
  ⟨0x380, 4, 32, [⟨31, 1, .ro, 0, .any⟩, ⟨20, 7, .ro, 0, .any⟩, ⟨0, 20, .ro, 0, .any⟩]⟩,
  ⟨0x400, 4, 32, [⟨31, 1, .ro, 0, .any⟩, ⟨0, 16, .ro, 0, .any⟩]⟩,
  ⟨0x800, 32, 32, [⟨0, 32, .rh, 0, .any⟩]⟩,
  ⟨0x804, 32, 32, [⟨0, 32, .rh, 0, .any⟩]⟩,
  ⟨0x808, 32, 32, [⟨0, 32, .rh, 0, .any⟩]⟩,
  ⟨0x80C, 32, 32, [⟨0, 32, .rh, 0, .any⟩]⟩,
  ⟨0x810, 32, 32, [⟨0, 32, .rh, 0, .any⟩]⟩,
  ⟨0x814, 32, 32, [⟨0, 32, .rh, 0, .any⟩]⟩,
  ⟨0x818, 32, 32, [⟨0, 32, .rh, 0, .any⟩]⟩,
  ⟨0x81C, 32, 32, [⟨0, 32, .rh, 0, .any⟩]⟩]

/-- The registers of SQ. -/
def tableSQ : List RegDef := [
  ⟨0x0, 4, 4, [⟨26, 6, .ro, 0, .any⟩, ⟨25, 1, .ro, 0, .any⟩, ⟨24, 1, .ro, 0, .any⟩,
       ⟨23, 1, .ro, 1, .any⟩, ⟨0, 7, .ro, 0, .any⟩]⟩,
  ⟨0x10, 4, 4, [⟨28, 4, .ro, 0, .any⟩, ⟨22, 6, .ro, 0, .any⟩, ⟨21, 1, .ro, 0, .any⟩,
       ⟨0, 17, .ro, 0, .any⟩]⟩,
  ⟨0x20, 4, 4, [⟨0, 32, .ro, 0, .any⟩]⟩,
  ⟨0x40, 0, 1, [⟨16, 16, .rh, 0, .any⟩, ⟨0, 15, .ro, 0, .any⟩]⟩,
  ⟨0x80, 0, 1, [⟨31, 1, .ro, 0, .any⟩, ⟨6, 2, .rh, 0, .any⟩, ⟨0, 6, .rh, 0, .any⟩]⟩,
  ⟨0x100, 4, 36, [⟨0, 32, .ro, 0, .any⟩]⟩]

/-- The registers of WHEEL. -/
def tableWHEEL : List RegDef := [
  ⟨0x0, 0, 1, [⟨0, 32, .rh, 0, .any⟩]⟩,
  ⟨0x4, 0, 1, [⟨0, 32, .rh, 0, .any⟩]⟩,
  ⟨0x8, 0, 1, [⟨0, 32, .rh, 0, .any⟩]⟩,
  ⟨0xC, 0, 1, [⟨3, 1, .wc, 0, .any⟩, ⟨2, 1, .wc, 0, .any⟩, ⟨1, 1, .wc, 0, .any⟩,
       ⟨0, 1, .wc, 0, .any⟩]⟩,
  ⟨0x10, 0, 1, [⟨0, 32, .rh, 0, .any⟩]⟩,
  ⟨0x14, 0, 1, [⟨31, 1, .rc, 0, .any⟩, ⟨16, 8, .ro, 0, .any⟩, ⟨4, 12, .ro, 0, .any⟩,
       ⟨3, 1, .ro, 0, .any⟩, ⟨0, 3, .ro, 0, .any⟩]⟩,
  ⟨0x18, 0, 1, [⟨29, 3, .ro, 0, .any⟩, ⟨0, 29, .ro, 0, .any⟩]⟩,
  ⟨0x1C, 0, 1, [⟨2, 1, .ro, 0, .any⟩, ⟨1, 1, .ro, 0, .any⟩, ⟨0, 1, .ro, 0, .any⟩]⟩,
  ⟨0x20, 0, 1, [⟨0, 32, .ro, 0, .any⟩]⟩,
  ⟨0x24, 0, 1, [⟨0, 32, .ro, 0, .any⟩]⟩,
  ⟨0x28, 0, 1, [⟨16, 16, .ro, 0, .any⟩, ⟨0, 16, .ro, 0, .any⟩]⟩,
  ⟨0x2C, 0, 1, [⟨20, 12, .ro, 0, .any⟩, ⟨8, 12, .ro, 0, .any⟩]⟩,
  ⟨0x30, 0, 1, [⟨0, 16, .rw, 13000, .any⟩]⟩,
  ⟨0x34, 0, 1, [⟨0, 1, .wc, 0, .any⟩]⟩,
  ⟨0x38, 0, 1, [⟨20, 12, .ro, 0, .any⟩, ⟨6, 6, .ro, 0, .any⟩, ⟨0, 6, .ro, 0, .any⟩]⟩,
  ⟨0x3C, 0, 1, [⟨0, 4, .rc, 0, .any⟩]⟩,
  ⟨0x40, 0, 1, [⟨6, 2, .rh, 0, .any⟩, ⟨0, 6, .rh, 0, .any⟩]⟩,
  ⟨0x100, 4, 18, [⟨0, 32, .ro, 0, .any⟩]⟩,
  ⟨0x1000, 0, 1, [⟨0, 32, .ro, 0, .any⟩]⟩,
  ⟨0x1004, 0, 1, [⟨0, 32, .ro, 0, .any⟩]⟩]

/-- The registers of JUG. -/
def tableJUG : List RegDef := [
  ⟨0x0, 0, 1, [⟨1, 1, .ro, 0, .any⟩, ⟨0, 1, .wc, 0, .any⟩]⟩,
  ⟨0x4, 0, 1, [⟨17, 1, .rc, 0, .any⟩, ⟨16, 1, .rc, 0, .any⟩, ⟨8, 1, .ro, 0, .any⟩]⟩,
  ⟨0x40, 0, 1, [⟨24, 1, .rw, 0, .any⟩, ⟨16, 8, .rw, 64, (.range 1 255)⟩, ⟨8, 5, .rw, 12, (.range 6 18)⟩,
       ⟨0, 5, .rw, 8, (.range 6 18)⟩]⟩,
  ⟨0x50, 0, 1, [⟨0, 32, .rw, 4294967295, .any⟩]⟩,
  ⟨0x60, 0, 1, [⟨1, 1, .wc, 0, .any⟩, ⟨0, 1, .wc, 0, .any⟩]⟩,
  ⟨0x64, 0, 1, [⟨24, 1, .ro, 0, .any⟩, ⟨23, 1, .ro, 0, .any⟩, ⟨16, 7, .ro, 0, .any⟩,
       ⟨0, 9, .ro, 0, .any⟩]⟩,
  ⟨0x70, 0, 1, [⟨16, 11, .ro, 0, .any⟩, ⟨0, 11, .ro, 0, .any⟩]⟩,
  ⟨0x800, 4, 128, [⟨24, 6, .ro, 0, .any⟩, ⟨18, 6, .ro, 0, .any⟩, ⟨0, 12, .ro, 0, .any⟩]⟩,
  ⟨0x10000, 4, 1024, [⟨31, 1, .ro, 0, .any⟩, ⟨29, 2, .ro, 0, .any⟩, ⟨27, 2, .ro, 0, .any⟩,
       ⟨20, 7, .ro, 0, .any⟩, ⟨13, 7, .ro, 0, .any⟩, ⟨2, 11, .ro, 0, .any⟩]⟩,
  ⟨0x20000, 4, 1024, [⟨16, 16, .ro, 0, .any⟩, ⟨13, 3, .ro, 7, .any⟩, ⟨8, 2, .ro, 0, .any⟩]⟩,
  ⟨0x40000, 4, 65536, [⟨0, 32, .ro, 0, .any⟩]⟩,
  ⟨0x80000, 8, 16384, [⟨26, 6, .ro, 63, .any⟩, ⟨16, 3, .ro, 7, .any⟩, ⟨0, 16, .ro, 0, .any⟩]⟩,
  ⟨0x80004, 8, 16384, [⟨30, 2, .ro, 2, .any⟩, ⟨20, 10, .ro, 1023, .any⟩, ⟨9, 11, .ro, 0, .any⟩,
       ⟨4, 5, .ro, 0, .any⟩, ⟨0, 4, .ro, 15, .any⟩]⟩]

/-- The registers of SS, part 1. -/
def tableSS1 : List RegDef := [
  ⟨0x0, 0, 1, [⟨0, 18, .rw, 0, .any⟩]⟩,
  ⟨0x4, 0, 1, [⟨8, 5, .rw, 8, (.range 0 20)⟩, ⟨0, 3, .rw, 3, .any⟩]⟩,
  ⟨0x8, 0, 1, [⟨24, 8, .rw, 50, (.range 1 255)⟩, ⟨8, 4, .rw, 8, (.range 4 8)⟩, ⟨4, 4, .rw, 4, (.range 4 8)⟩,
       ⟨0, 3, .rw, 3, .any⟩]⟩,
  ⟨0x10, 0, 1, [⟨16, 16, .rc, 0, .any⟩, ⟨7, 1, .rc, 0, .any⟩, ⟨6, 1, .ro, 0, .any⟩,
       ⟨0, 6, .ro, 0, .any⟩]⟩,
  ⟨0x14, 0, 1, [⟨0, 8, .rc, 0, .any⟩]⟩,
  ⟨0x18, 0, 1, [⟨1, 1, .ro, 0, .any⟩, ⟨0, 1, .wc, 0, .any⟩]⟩,
  ⟨0x1C, 0, 1, [⟨17, 1, .rc, 0, .any⟩, ⟨16, 1, .rc, 0, .any⟩, ⟨8, 1, .ro, 0, .any⟩]⟩,
  ⟨0x20, 0, 1, [⟨21, 1, .rw, 1, .any⟩, ⟨20, 1, .rw, 0, .any⟩, ⟨15, 5, .rw, 0, .any⟩,
       ⟨8, 6, .rw, 4, (.range 1 40)⟩, ⟨0, 8, .rw, 2, (.range 1 255)⟩]⟩,
  ⟨0x24, 0, 1, [⟨16, 11, .ro, 0, .any⟩, ⟨0, 5, .ro, 0, .any⟩]⟩,
  ⟨0x28, 0, 1, [⟨0, 10, .rh, 0, .any⟩]⟩,
  ⟨0x2C, 0, 1, [⟨28, 4, .ro, 0, .any⟩, ⟨18, 8, .ro, 0, .any⟩, ⟨0, 18, .ro, 0, .any⟩]⟩,
  ⟨0x40, 4, 8, [⟨0, 32, .rh, 0, .any⟩]⟩,
  ⟨0x100, 4, 32, [⟨12, 2, .rw, 0, .any⟩, ⟨4, 6, .rw, 15, (.range 0 40)⟩, ⟨3, 1, .rw, 0, .any⟩,
       ⟨2, 1, .rw, 0, .any⟩, ⟨1, 1, .rw, 1, .any⟩, ⟨0, 1, .rw, 1, .any⟩]⟩,
  ⟨0x180, 4, 32, [⟨24, 8, .ro, 0, .any⟩, ⟨20, 1, .ro, 0, .any⟩, ⟨19, 1, .ro, 0, .any⟩,
       ⟨16, 3, .ro, 0, .any⟩, ⟨12, 4, .ro, 0, .any⟩, ⟨4, 4, .ro, 0, .any⟩,
       ⟨0, 4, .ro, 4, .any⟩]⟩,
  ⟨0x400, 64, 32, [⟨0, 32, .rh, 0, .any⟩]⟩,
  ⟨0x404, 64, 32, [⟨0, 32, .rh, 0, .any⟩]⟩,
  ⟨0x408, 64, 32, [⟨0, 32, .rh, 0, .any⟩]⟩,
  ⟨0x40C, 64, 32, [⟨0, 32, .rh, 0, .any⟩]⟩,
  ⟨0x410, 64, 32, [⟨0, 32, .rh, 0, .any⟩]⟩,
  ⟨0x414, 64, 32, [⟨0, 32, .rh, 0, .any⟩]⟩]

/-- The registers of SS, part 2. -/
def tableSS2 : List RegDef := [
  ⟨0x418, 64, 32, [⟨0, 32, .rh, 0, .any⟩]⟩,
  ⟨0x41C, 64, 32, [⟨0, 32, .rh, 0, .any⟩]⟩,
  ⟨0x420, 64, 32, [⟨0, 32, .rh, 0, .any⟩]⟩,
  ⟨0x424, 64, 32, [⟨0, 32, .rh, 0, .any⟩]⟩,
  ⟨0x1000, 4, 48, [⟨0, 32, .ro, 0, .any⟩]⟩]

/-- The registers of SS. -/
def tableSS : List RegDef := tableSS1 ++ tableSS2

/-- The registers of TRIP. -/
def tableTRIP : List RegDef := [
  ⟨0x0, 4, 8, [⟨8, 8, .rw, 10, .any⟩, ⟨2, 1, .rw, 1, .any⟩, ⟨1, 1, .rw, 0, .any⟩,
       ⟨0, 1, .rw, 0, .any⟩]⟩,
  ⟨0x20, 4, 8, [⟨0, 32, .rw, 0, .any⟩]⟩,
  ⟨0x40, 4, 8, [⟨8, 8, .rw, 4, (.range 1 255)⟩, ⟨4, 2, .rw, 0, (.range 0 1)⟩, ⟨3, 1, .rw, 0, .any⟩,
       ⟨1, 1, .rw, 0, .any⟩, ⟨0, 1, .rw, 0, .any⟩]⟩,
  ⟨0x60, 4, 8, [⟨0, 32, .rw, 0, .any⟩]⟩,
  ⟨0x80, 0, 1, [⟨0, 8, .wc, 0, .any⟩]⟩,
  ⟨0x84, 0, 1, [⟨8, 8, .ro, 0, .any⟩, ⟨0, 8, .ro, 0, .any⟩]⟩,
  ⟨0x90, 0, 1, [⟨1, 1, .ro, 0, .any⟩, ⟨0, 1, .wc, 0, .any⟩]⟩,
  ⟨0x94, 0, 1, [⟨17, 1, .rc, 0, .any⟩, ⟨16, 1, .rc, 0, .any⟩, ⟨8, 1, .ro, 0, .any⟩]⟩,
  ⟨0x100, 4, 32, [⟨12, 1, .rw, 1, .any⟩, ⟨8, 4, .rw, 2, (.range 1 4)⟩, ⟨0, 5, .rw, 16, (.range 1 16)⟩]⟩,
  ⟨0x180, 4, 32, [⟨0, 32, .rw, 0, .any⟩]⟩,
  ⟨0x200, 4, 32, [⟨24, 4, .ro, 0, .any⟩, ⟨23, 1, .rc, 0, .any⟩, ⟨22, 1, .rc, 0, .any⟩,
       ⟨21, 1, .ro, 0, .any⟩, ⟨20, 1, .ro, 0, .any⟩, ⟨19, 1, .ro, 1, .any⟩,
       ⟨18, 1, .ro, 0, .any⟩, ⟨13, 5, .ro, 0, .any⟩, ⟨9, 4, .ro, 0, .any⟩,
       ⟨0, 3, .ro, 0, .any⟩]⟩,
  ⟨0x280, 4, 32, [⟨0, 7, .rc, 0, .any⟩]⟩,
  ⟨0x400, 16, 32, [⟨0, 32, .rh, 0, .any⟩]⟩,
  ⟨0x404, 16, 32, [⟨0, 32, .rh, 0, .any⟩]⟩,
  ⟨0x408, 16, 32, [⟨0, 32, .rh, 0, .any⟩]⟩,
  ⟨0x40C, 16, 32, [⟨0, 32, .rh, 0, .any⟩]⟩,
  ⟨0x800, 16, 32, [⟨0, 32, .ro, 0, .any⟩]⟩,
  ⟨0x804, 16, 32, [⟨0, 32, .ro, 0, .any⟩]⟩,
  ⟨0x808, 16, 32, [⟨0, 32, .ro, 0, .any⟩]⟩,
  ⟨0x80C, 16, 32, [⟨0, 32, .ro, 0, .any⟩]⟩]

/-- The registers of TST. -/
def tableTST : List RegDef := [
  ⟨0x0, 0, 1, [⟨31, 1, .ro, 0, .any⟩, ⟨30, 1, .ro, 0, .any⟩, ⟨29, 1, .ro, 0, .any⟩,
       ⟨12, 8, .ro, 0, .any⟩, ⟨0, 7, .ro, 0, .any⟩]⟩,
  ⟨0x4, 0, 1, [⟨0, 8, .rc, 0, .any⟩]⟩,
  ⟨0xC, 0, 1, [⟨24, 8, .ro, 0, .any⟩, ⟨16, 1, .ro, 0, .any⟩, ⟨8, 4, .ro, 0, .any⟩,
       ⟨0, 4, .ro, 0, .any⟩]⟩,
  ⟨0x10, 0, 1, [⟨0, 23, .rh, 0, .any⟩]⟩,
  ⟨0x14, 0, 1, [⟨0, 17, .rh, 0, (.range 1 65536)⟩]⟩,
  ⟨0x18, 0, 1, [⟨2, 1, .wc, 0, .any⟩, ⟨1, 1, .wc, 0, .any⟩, ⟨0, 1, .wc, 0, .any⟩]⟩,
  ⟨0x1C, 0, 1, [⟨28, 4, .ro, 0, .any⟩, ⟨24, 4, .ro, 0, .any⟩, ⟨23, 1, .ro, 0, .any⟩,
       ⟨0, 16, .ro, 0, .any⟩]⟩,
  ⟨0x20, 4, 2, [⟨0, 32, .ro, 0, .any⟩]⟩,
  ⟨0x28, 4, 2, [⟨0, 32, .ro, 0, .any⟩]⟩,
  ⟨0x30, 0, 1, [⟨0, 23, .ro, 0, .any⟩]⟩,
  ⟨0x40, 4, 16, [⟨0, 32, .ro, 0, .any⟩]⟩,
  ⟨0x80, 4, 16, [⟨0, 32, .ro, 0, .any⟩]⟩,
  ⟨0x100, 4, 128, [⟨0, 32, .ro, 0, .any⟩]⟩,
  ⟨0x300, 4, 64, [⟨0, 32, .ro, 0, .any⟩]⟩,
  ⟨0x400, 4, 32, [⟨29, 3, .ro, 0, .any⟩, ⟨28, 1, .ro, 0, .any⟩, ⟨27, 1, .ro, 0, .any⟩,
       ⟨24, 3, .ro, 0, .any⟩, ⟨0, 5, .ro, 0, .any⟩]⟩]

/-- The registers of LOG. -/
def tableLOG : List RegDef := [
  ⟨0x0, 0, 1, [⟨31, 1, .rw, 1, .any⟩, ⟨16, 8, .rw, 100, (.range 1 255)⟩, ⟨0, 5, .rw, 4, (.range 1 31)⟩]⟩,
  ⟨0x4, 0, 1, [⟨16, 16, .ro, 32768, .any⟩, ⟨2, 1, .ro, 0, .any⟩, ⟨1, 1, .ro, 0, .any⟩,
       ⟨0, 1, .ro, 0, .any⟩]⟩,
  ⟨0x8, 0, 1, [⟨0, 32, .rh, 0, .any⟩]⟩,
  ⟨0xC, 0, 1, [⟨0, 32, .rh, 0, .any⟩]⟩,
  ⟨0x10, 0, 1, [⟨0, 8, .rc, 0, .any⟩]⟩,
  ⟨0x14, 0, 1, [⟨0, 32, .rh, 0, .any⟩]⟩,
  ⟨0x18, 0, 1, [⟨17, 1, .rc, 0, .any⟩, ⟨16, 1, .rc, 0, .any⟩, ⟨8, 1, .ro, 0, .any⟩]⟩,
  ⟨0x20, 0, 1, [⟨14, 18, .rw, 0, .any⟩, ⟨0, 8, .rw, 0, .any⟩]⟩,
  ⟨0x40, 4, 16, [⟨0, 32, .rw, 0, .any⟩]⟩,
  ⟨0x80, 4, 8, [⟨0, 32, .rw, 0, .any⟩]⟩,
  ⟨0x100, 32, 3, [⟨16, 4, .rw, 12, (.range 6 15)⟩, ⟨8, 6, .rw, 0, .any⟩, ⟨1, 2, .rw, 2, (.range 0 2)⟩,
       ⟨0, 1, .rw, 0, .any⟩]⟩,
  ⟨0x104, 32, 3, [⟨0, 32, .rw, 0, .any⟩]⟩,
  ⟨0x108, 32, 3, [⟨0, 16, .rw, 0, .any⟩]⟩,
  ⟨0x10C, 32, 3, [⟨0, 16, .ro, 0, .any⟩]⟩,
  ⟨0x110, 32, 3, [⟨0, 16, .rh, 0, .any⟩]⟩,
  ⟨0x114, 32, 3, [⟨0, 32, .ro, 0, .any⟩]⟩,
  ⟨0x118, 32, 3, [⟨0, 32, .ro, 0, .any⟩]⟩,
  ⟨0x200, 0, 1, [⟨30, 2, .rh, 0, .any⟩]⟩,
  ⟨0x204, 0, 1, [⟨0, 32, .rh, 0, .any⟩]⟩,
  ⟨0x220, 4, 8, [⟨0, 32, .ro, 0, .any⟩]⟩]

/-- The registers of PERF. -/
def tablePERF : List RegDef := [
  ⟨0x0, 0, 1, [⟨0, 1, .rw, 0, .any⟩]⟩,
  ⟨0x4, 0, 1, [⟨0, 1, .wc, 0, .any⟩]⟩,
  ⟨0x8, 0, 1, [⟨0, 4, .rc, 0, .any⟩]⟩,
  ⟨0xC, 0, 1, [⟨17, 1, .rc, 0, .any⟩, ⟨16, 1, .rc, 0, .any⟩, ⟨8, 1, .ro, 0, .any⟩,
       ⟨1, 1, .ro, 0, .any⟩, ⟨0, 1, .wc, 0, .any⟩]⟩,
  ⟨0x10, 0, 1, [⟨0, 32, .ro, 0, .any⟩]⟩,
  ⟨0x14, 0, 1, [⟨0, 32, .ro, 0, .any⟩]⟩,
  ⟨0x20, 4, 5, [⟨0, 8, .rc, 0, .any⟩]⟩,
  ⟨0x40, 0, 1, [⟨28, 4, .rw, 6, (.range 1 12)⟩, ⟨22, 6, .rw, 0, .any⟩, ⟨0, 16, .rw, 0, .any⟩]⟩,
  ⟨0x44, 0, 1, [⟨0, 32, .rw, 0, .any⟩]⟩,
  ⟨0x48, 0, 1, [⟨0, 16, .rw, 0, .any⟩]⟩,
  ⟨0x4C, 0, 1, [⟨0, 16, .ro, 0, .any⟩]⟩,
  ⟨0x50, 0, 1, [⟨0, 16, .rh, 0, .any⟩]⟩,
  ⟨0x54, 0, 1, [⟨0, 32, .rh, 0, .any⟩]⟩,
  ⟨0x60, 0, 1, [⟨16, 4, .rw, 0, .any⟩, ⟨0, 16, .rw, 0, .any⟩]⟩,
  ⟨0x64, 0, 1, [⟨16, 16, .rc, 0, .any⟩, ⟨0, 10, .ro, 0, .any⟩]⟩,
  ⟨0x68, 0, 1, [⟨0, 10, .rh, 0, .any⟩]⟩,
  ⟨0x100, 4, 40, [⟨17, 1, .rw, 0, .any⟩, ⟨16, 1, .rw, 0, .any⟩, ⟨0, 8, .rw, 0, .counterEvent⟩]⟩,
  ⟨0x200, 8, 40, [⟨0, 32, .rh, 0, .any⟩]⟩,
  ⟨0x204, 8, 40, [⟨0, 16, .rh, 0, .any⟩]⟩,
  ⟨0x4000, 4, 2048, [⟨0, 32, .ro, 0, .any⟩]⟩]

/-- The registers of DMA, part 1. -/
def tableDMA1 : List RegDef := [
  ⟨0x0, 0, 1, [⟨16, 11, .rw, 0, .any⟩, ⟨0, 5, .rw, 0, (.range 0 16)⟩]⟩,
  ⟨0x4, 0, 1, [⟨21, 11, .rw, 0, .any⟩]⟩,
  ⟨0x8, 0, 1, [⟨0, 16, .rw, 0, .any⟩]⟩,
  ⟨0xC, 0, 1, [⟨1, 1, .wc, 0, .any⟩, ⟨0, 1, .wc, 0, .any⟩]⟩,
  ⟨0x10, 0, 1, [⟨12, 20, .rh, 0, .any⟩]⟩,
  ⟨0x14, 0, 1, [⟨0, 16, .rh, 0, .any⟩]⟩,
  ⟨0x18, 0, 1, [⟨17, 1, .rc, 0, .any⟩, ⟨16, 1, .rc, 0, .any⟩, ⟨8, 1, .ro, 0, .any⟩]⟩,
  ⟨0x20, 0, 1, [⟨16, 16, .rc, 0, .any⟩, ⟨8, 8, .rc, 0, .any⟩, ⟨0, 8, .ro, 0, .any⟩]⟩,
  ⟨0x24, 0, 1, [⟨2, 21, .ro, 0, .any⟩]⟩,
  ⟨0x28, 0, 1, [⟨12, 11, .rw, 0, .any⟩]⟩,
  ⟨0x2C, 0, 1, [⟨12, 11, .rw, 0, .any⟩]⟩,
  ⟨0x40, 4, 2, [⟨0, 32, .rc, 0, .any⟩]⟩,
  ⟨0x48, 4, 2, [⟨0, 32, .rc, 0, .any⟩]⟩,
  ⟨0x100, 64, 64, [⟨4, 7, .rw, 64, .pow2⟩, ⟨2, 1, .rw, 0, .any⟩, ⟨0, 2, .rw, 0, .any⟩]⟩,
  ⟨0x104, 64, 64, [⟨0, 1, .rw, 0, .any⟩]⟩,
  ⟨0x108, 64, 64, [⟨5, 18, .rw, 0, .any⟩]⟩,
  ⟨0x10C, 64, 64, [⟨0, 16, .rh, 0, .any⟩]⟩,
  ⟨0x110, 64, 64, [⟨1, 1, .wc, 0, .any⟩, ⟨0, 1, .wc, 0, .any⟩]⟩,
  ⟨0x114, 64, 64, [⟨29, 3, .ro, 0, .any⟩, ⟨22, 7, .ro, 0, .any⟩, ⟨16, 6, .rc, 0, .any⟩,
       ⟨0, 16, .ro, 0, .any⟩]⟩,
  ⟨0x118, 64, 64, [⟨0, 24, .ro, 0, .any⟩]⟩]

/-- The registers of DMA, part 2. -/
def tableDMA2 : List RegDef := [
  ⟨0x11C, 64, 64, [⟨28, 4, .ro, 0, .any⟩, ⟨27, 1, .ro, 0, .any⟩, ⟨26, 1, .ro, 0, .any⟩,
       ⟨0, 16, .ro, 0, .any⟩]⟩,
  ⟨0x120, 64, 64, [⟨0, 32, .ro, 0, .any⟩]⟩,
  ⟨0x124, 64, 64, [⟨0, 32, .ro, 0, .any⟩]⟩,
  ⟨0x128, 64, 64, [⟨0, 32, .rh, 0, .any⟩]⟩]

/-- The registers of DMA. -/
def tableDMA : List RegDef := tableDMA1 ++ tableDMA2

/-- The registers of PWR. -/
def tablePWR : List RegDef := [
  ⟨0x0, 0, 1, [⟨7, 1, .rw, 1, .any⟩, ⟨6, 1, .rw, 1, .any⟩, ⟨5, 1, .rw, 0, .any⟩,
       ⟨0, 1, .rw, 0, .any⟩]⟩,
  ⟨0x4, 0, 1, [⟨0, 3, .rh, 0, .any⟩]⟩,
  ⟨0x8, 0, 1, [⟨31, 1, .ro, 0, .any⟩, ⟨30, 1, .ro, 0, .any⟩, ⟨27, 3, .ro, 0, .any⟩,
       ⟨24, 3, .ro, 0, .any⟩, ⟨20, 4, .ro, 0, .any⟩, ⟨16, 4, .ro, 0, .any⟩,
       ⟨8, 3, .ro, 0, .any⟩, ⟨0, 3, .ro, 0, .any⟩]⟩,
  ⟨0xC, 0, 1, [⟨0, 8, .rc, 0, .any⟩]⟩,
  ⟨0x10, 0, 1, [⟨31, 1, .ro, 0, .any⟩, ⟨30, 1, .ro, 0, .any⟩, ⟨28, 2, .ro, 1, .any⟩,
       ⟨24, 4, .ro, 0, .any⟩, ⟨23, 1, .rc, 0, .any⟩, ⟨20, 3, .ro, 0, .any⟩]⟩,
  ⟨0x14, 0, 1, [⟨17, 1, .rc, 0, .any⟩, ⟨16, 1, .rc, 0, .any⟩, ⟨8, 1, .ro, 0, .any⟩]⟩,
  ⟨0x30, 4, 2, [⟨0, 32, .ro, 0, .any⟩]⟩,
  ⟨0x38, 0, 1, [⟨0, 15, .ro, 0, .any⟩]⟩,
  ⟨0x40, 4, 2, [⟨0, 32, .rw, 0, .any⟩]⟩,
  ⟨0x48, 0, 1, [⟨0, 15, .rw, 0, .any⟩]⟩,
  ⟨0x50, 4, 2, [⟨0, 32, .rw, 0, .any⟩]⟩,
  ⟨0x58, 0, 1, [⟨0, 32, .rw, 4294967295, .any⟩]⟩,
  ⟨0x5C, 0, 1, [⟨0, 24, .rw, 16777215, .any⟩]⟩,
  ⟨0x60, 0, 1, [⟨0, 24, .rc, 0, .any⟩]⟩,
  ⟨0x64, 0, 1, [⟨0, 32, .rh, 0, .any⟩]⟩,
  ⟨0x70, 4, 8, [⟨31, 1, .ro, 0, .any⟩, ⟨0, 16, .ro, 0, .any⟩]⟩,
  ⟨0x100, 16, 4, [⟨31, 1, .rw, 0, .any⟩, ⟨24, 7, .rw, 0, .any⟩, ⟨16, 8, .rw, 0, .any⟩,
       ⟨14, 2, .rw, 0, (.range 0 2)⟩]⟩,
  ⟨0x104, 0, 1, [⟨24, 8, .ro, 78, .any⟩, ⟨16, 8, .ro, 75, .any⟩, ⟨8, 8, .ro, 72, .any⟩,
       ⟨0, 8, .ro, 65, .any⟩]⟩,
  ⟨0x114, 16, 3, [⟨24, 8, .rw, 0, .any⟩, ⟨16, 8, .rw, 0, .any⟩, ⟨8, 8, .rw, 0, .any⟩,
       ⟨0, 8, .rw, 0, .any⟩]⟩,
  ⟨0x108, 16, 4, [⟨28, 4, .ro, 0, .any⟩, ⟨0, 16, .ro, 0, .any⟩]⟩]

/-- The registers of CAL. -/
def tableCAL : List RegDef := [
  ⟨0x0, 0, 1, [⟨31, 1, .rw, 0, .any⟩, ⟨24, 5, .rw, 16, (.range 12 20)⟩, ⟨16, 8, .rw, 50, (.range 20 80)⟩,
       ⟨11, 5, .rw, 14, (.range 10 30)⟩, ⟨5, 6, .rw, 60, (.range 11 63)⟩, ⟨0, 5, .rw, 10, .any⟩]⟩,
  ⟨0x4, 0, 1, [⟨16, 1, .rw, 1, .any⟩, ⟨8, 8, .rw, 60, (.range 40 80)⟩, ⟨4, 4, .rw, 4, (.range 1 15)⟩]⟩,
  ⟨0x10, 0, 1, [⟨1, 1, .wc, 0, .any⟩, ⟨0, 1, .wc, 0, .any⟩]⟩,
  ⟨0x14, 0, 1, [⟨16, 7, .rh, 0, .any⟩, ⟨12, 2, .rh, 0, .any⟩, ⟨8, 1, .rh, 0, .any⟩,
       ⟨0, 7, .rh, 0, .any⟩]⟩,
  ⟨0x18, 0, 1, [⟨31, 1, .rc, 0, .any⟩, ⟨30, 1, .ro, 0, .any⟩, ⟨8, 8, .ro, 0, .any⟩,
       ⟨0, 7, .ro, 0, .any⟩]⟩,
  ⟨0x1C, 0, 1, [⟨31, 1, .ro, 0, .any⟩, ⟨30, 1, .ro, 0, .any⟩, ⟨0, 4, .ro, 0, .any⟩]⟩,
  ⟨0x20, 0, 1, [⟨0, 7, .rh, 0, .any⟩]⟩,
  ⟨0x30, 0, 1, [⟨1, 1, .ro, 0, .any⟩, ⟨0, 1, .wc, 0, .any⟩]⟩,
  ⟨0x34, 0, 1, [⟨17, 1, .rc, 0, .any⟩, ⟨16, 1, .rc, 0, .any⟩, ⟨8, 1, .ro, 0, .any⟩]⟩,
  ⟨0x100, 4, 90, [⟨30, 2, .ro, 0, .any⟩, ⟨20, 10, .ro, 0, .any⟩, ⟨10, 10, .ro, 0, .any⟩,
       ⟨0, 10, .ro, 0, .any⟩]⟩,
  ⟨0x400, 4, 128, [⟨29, 3, .ro, 0, .any⟩, ⟨26, 3, .ro, 0, .any⟩, ⟨24, 2, .ro, 2, .any⟩,
       ⟨20, 4, .ro, 8, .any⟩, ⟨12, 8, .ro, 0, .any⟩, ⟨6, 6, .ro, 0, .any⟩,
       ⟨0, 6, .ro, 0, .any⟩]⟩,
  ⟨0x600, 4, 32, [⟨0, 6, .rc, 0, .any⟩]⟩]

/-- The registers of BIST. -/
def tableBIST : List RegDef := [
  ⟨0x0, 0, 1, [⟨31, 1, .rw, 1, .any⟩, ⟨8, 16, .rw, 4096, .any⟩, ⟨0, 8, .rw, 10, (.range 1 255)⟩]⟩,
  ⟨0x4, 0, 1, [⟨30, 2, .ro, 0, .any⟩, ⟨28, 2, .ro, 0, .any⟩, ⟨21, 7, .ro, 0, .any⟩,
       ⟨12, 9, .ro, 0, .any⟩, ⟨0, 12, .ro, 0, .any⟩]⟩,
  ⟨0x8, 0, 1, [⟨30, 2, .ro, 0, .any⟩, ⟨29, 1, .ro, 0, .any⟩, ⟨28, 1, .ro, 0, .any⟩,
       ⟨21, 7, .ro, 0, .any⟩, ⟨14, 7, .ro, 127, .any⟩]⟩,
  ⟨0xC, 0, 1, [⟨0, 4, .rc, 0, .any⟩]⟩,
  ⟨0x10, 4, 5, [⟨0, 32, .ro, 0, .any⟩]⟩,
  ⟨0x30, 0, 1, [⟨1, 1, .ro, 0, .any⟩, ⟨0, 1, .wc, 0, .any⟩]⟩,
  ⟨0x34, 0, 1, [⟨17, 1, .rc, 0, .any⟩, ⟨16, 1, .rc, 0, .any⟩, ⟨8, 1, .ro, 0, .any⟩]⟩]

/-! ### Blocks (R32, R460) -/

/-- The blocks of the register map. -/
inductive Block where
  | chip | evt | port (n : Nat) | hsl | sq | wheel | jug | ss | trip | tst | log | perf | dma | pwr | cal | bist
deriving DecidableEq, Repr

/-- The block a BAR0 offset lies in and the offset inside that block. -/
def blockOf (a : Nat) : Option (Block × Nat) :=
  if a < 0x80 then some (.chip, a)
  else if a < 0x10000 then some (.evt, a)
  else if a < 0x100000 then none
  else if a < 0x300000 then some (.port ((a - 0x100000) / 0x10000), (a - 0x100000) % 0x10000)
  else if a < 0x400000 then some (.hsl, a - 0x300000)
  else if a < 0x401000 then some (.sq, a - 0x400000)
  else if a < 0x408000 then some (.wheel, a - 0x401000)
  else if a < 0x409000 then none
  else if a < 0x500000 then some (.wheel, a - 0x401000)
  else if a < 0x600000 then some (.jug, a - 0x500000)
  else if a < 0x680000 then some (.ss, a - 0x600000)
  else if a < 0x700000 then some (.trip, a - 0x680000)
  else if a < 0x800000 then some (.tst, a - 0x700000)
  else if a < 0x900000 then some (.log, a - 0x800000)
  else if a < 0xA00000 then some (.perf, a - 0x900000)
  else if a < 0xB00000 then some (.dma, a - 0xA00000)
  else if a < 0xC00000 then some (.pwr, a - 0xB00000)
  else if a < 0xC01000 then some (.cal, a - 0xC00000)
  else if a < 0xC08000 then some (.bist, a - 0xC01000)
  else if a < 0xC09000 then some (.cal, a - 0xC00000)
  else if a < 0xD00000 then some (.bist, a - 0xC01000)
  else none

/-- The registers of a block. -/
def tableOf : Block → List RegDef
  | .chip => tableCHIP | .evt => tableEVT | .port _ => tableP | .hsl => tableHSL | .sq => tableSQ | .wheel => tableWHEEL
  | .jug => tableJUG | .ss => tableSS | .trip => tableTRIP | .tst => tableTST | .log => tableLOG | .perf => tablePERF
  | .dma => tableDMA | .pwr => tablePWR | .cal => tableCAL | .bist => tableBIST

/-- The blocks with an active and a shadow bank (R32). -/
def Block.doubleBuffered : Block → Bool
  | .port _ | .wheel | .jug | .ss | .trip | .cal | .bist | .perf => true
  | .chip | .evt | .hsl | .sq | .tst | .log | .dma | .pwr => false

/-- Whether a table line covers a block offset. -/
def RegDef.covers (r : RegDef) (off : Nat) : Bool :=
  decide (r.off ≤ off) &&
    (if r.stride = 0 then decide (off = r.off)
     else decide ((off - r.off) % r.stride = 0) && decide ((off - r.off) / r.stride < r.count))

/-- The table line of a block offset. -/
def findReg (t : List RegDef) (off : Nat) : Option RegDef := t.find? (fun r => r.covers off)

/-- Whether a register holds an RW field. -/
def RegDef.hasRW (r : RegDef) : Bool := r.fields.any (fun f => f.access == .rw)

/-- Where a BAR0 offset leads: a register of a block, or the active copy of an RW register (R30, R460), or nowhere (R46). -/
inductive RegHome where
  | reg (b : Block) (off : Nat) (r : RegDef)
  | activeCopy (b : Block) (off : Nat) (r : RegDef)
deriving DecidableEq, Repr

/-- The register a BAR0 offset names. -/
def homeOf (a : Nat) : Option RegHome :=
  match blockOf a with
  | none => none
  | some (b, off) =>
    match findReg (tableOf b) off with
    | some r => some (.reg b off r)
    | none =>
      if b.doubleBuffered && decide (0x8000 ≤ off) then
        match findReg (tableOf b) (off - 0x8000) with
        | some r => if r.hasRW then some (.activeCopy b (off - 0x8000) r) else none
        | none => none
      else none

/-- A register's reset word, its fields at the values of its table. -/
def RegDef.resetWord (r : RegDef) : Word :=
  BitVec.ofNat 32 (r.fields.foldl (fun acc f => acc + f.reset % 2 ^ f.width * 2 ^ f.lsb) 0)

/-- The reset word of a BAR0 offset, in both banks (R468). -/
def resetWord (a : Nat) : Word :=
  match homeOf a with
  | some (.reg _ _ r) => r.resetWord
  | some (.activeCopy _ _ r) => r.resetWord
  | none => 0

/-- The legal value R37 puts in place of a written one, in register `i` of its array: the nearest of a range; a ring size
is clamped down to a power of two (R350); an event code not listed for the counter's group becomes 0 (R398). -/
def Legal.nearest : Legal → Nat → Nat → Nat
  | .any, _, v => v
  | .range lo hi, _, v => if v < lo then lo else if hi < v then hi else v
  | .pow2, _, v =>
    if v < 2 then 1 else if v < 4 then 2 else if v < 8 then 4 else if v < 16 then 8 else if v < 32 then 16
    else if v < 64 then 32 else 64
  | .counterEvent, i, v => if v ≤ (if i < 32 then 0xD else 0xF) then v else 0

end Sys2Proof.Machine
end

