-- ==== Sys2Proof/Machine/Ops.lean ====
section
/-! DEFINITION. The named operations every meaning is built from: reading and writing registers and their fields, time,
free values, what leaves the device, SRAM bytes. -/

namespace Sys2Proof.Machine

/-! ### Registers -/

/-- The word of a register at a BAR0 offset. -/
def State.word (s : State) (a : Nat) : Word := sget resetWord s.regs a

/-- Write a register's word. -/
def State.setWord (s : State) (a : Nat) (w : Word) : State := s.withRegs (sput resetWord s.regs a w)

/-- A field's value. -/
def State.rd (s : State) (f : Field) : Nat := bitsOf (s.word f.addr) f.lsb f.width

/-- Whether a field is nonzero. -/
def State.flag (s : State) (f : Field) : Bool := decide (s.rd f ≠ 0)

/-- The value of a double-buffered RW field in the active bank. -/
def State.act (s : State) (f : Field) : Nat := s.rd f.active

/-- Whether a double-buffered RW field is nonzero in the active bank. -/
def State.actFlag (s : State) (f : Field) : Bool := decide (s.act f ≠ 0)

/-- Write a field. -/
def State.wr (s : State) (f : Field) (v : Nat) : State := s.setWord f.addr (withBits (s.word f.addr) f.lsb f.width v)

/-- Write a list of fields, first to last. -/
def State.wrs (s : State) (l : List (Field × Nat)) : State := l.foldl (fun t e => t.wr e.1 e.2) s

/-- Set bits of a cause register. -/
def State.orWord (s : State) (a : Nat) (w : Word) : State := s.setWord a (s.word a ||| w)

/-- Clear bits of a register. -/
def State.clearBits (s : State) (a : Nat) (w : Word) : State := s.setWord a (s.word a &&& ~~~w)

/-- Add to a saturating field (R39, R47). -/
def State.addSat (s : State) (f : Field) (k : Nat) : State := s.wr f (satAdd (2 ^ f.width - 1) (s.rd f) k)

/-- Add to a field that wraps. -/
def State.addWrap (s : State) (f : Field) (k : Nat) : State := s.wr f ((s.rd f + k) % 2 ^ f.width)

/-- A 64-bit pair of registers, low word first. -/
def State.pair (s : State) (lo hi : Nat) : Nat := (s.word lo).toNat + 2 ^ 32 * (s.word hi).toNat

/-- Write a 64-bit pair of registers. -/
def State.setPair (s : State) (lo hi : Nat) (v : Nat) : State :=
  (s.setWord lo (BitVec.ofNat 32 v)).setWord hi (BitVec.ofNat 32 (v / 2 ^ 32))

/-- Add to a 64-bit pair of registers, wrapping. -/
def State.addPair (s : State) (lo hi : Nat) (k : Nat) : State := s.setPair lo hi (s.pair lo hi + k)

/-- BAR0 address of register `i` of port `n`'s block, for an address of port 0 (R461). -/
def portAddr (n a : Nat) : Nat := a + 0x10000 * n

/-! ### Time, free values, output -/

/-- DEV_TIME as a number of nanoseconds. -/
def State.now (s : State) : Nat := s.clk.devTime.toNat

/-- The device is in RUN or IDLE with its wheel turning (R409, R416, R434). -/
def State.awake (s : State) : Bool := decide (s.rd PWR.REQ_STATUS.state ≤ 1) && s.clk.wheelOn

/-- The next free value; the count then advances, so no two draws are tied to each other. -/
def State.draw (s : State) : Word × State := (Config.freeWord s.freeCount, s.withFreeCount (s.freeCount + 1))

/-- Record something the device sends. -/
def State.emit (s : State) (o : Output) : State := s.withOut (s.out ++ [o])

/-- Record several things the device sends. -/
def State.emits (s : State) (l : List Output) : State := s.withOut (s.out ++ l)

end Sys2Proof.Machine
end

