-- ==== Sys2Proof/Machine/Events.lean ====
section
/-! DEFINITION. Events, counters of the PERF block as the rest of the device drives them, and the three log classes
(spec/18_events_and_logs.md, R374 to R376, R398, R399). -/

namespace Sys2Proof.Machine

/-! ### Raising an event (R380 to R382) -/

/-- Bit `b` of an array of 32-bit registers that starts at `a`. -/
def State.arrayBit (s : State) (a b : Nat) : Bool := bitOf (s.word (a + 4 * (b / 32))) (b % 32)

/-- Set bit `b` of an array of 32-bit registers that starts at `a`. -/
def State.setArrayBit (s : State) (a b : Nat) : State :=
  s.setWord (a + 4 * (b / 32)) (withBitSet (s.word (a + 4 * (b / 32))) (b % 32))

/-- Clear bit `b` of an array of 32-bit registers that starts at `a`. -/
def State.clearArrayBit (s : State) (a b : Nat) : State :=
  s.setWord (a + 4 * (b / 32)) (withBitClear (s.word (a + 4 * (b / 32))) (b % 32))

/-- EVT.PEND of event `e`. -/
def State.pend (s : State) (e : Nat) : Bool := s.arrayBit EVT.PEND e

/-- The four conditions of R381, in a state in which messages are sent at all. -/
def State.msixOpen (s : State) (e : Nat) : Bool :=
  !s.arrayBit EVT.MASK e && s.pcie.msixEnable && !s.pcie.functionMask &&
    !s.flag (EVT.MSIX_CTRL.mask.nth e) && s.awake

/-- Send vector `e`'s message (R381). -/
def State.sendMsix (s : State) (e : Nat) : State :=
  s.emit (.msix e (s.rd (EVT.MSIX_ADDR_LO.lo.nth e) + 2 ^ 32 * s.rd (EVT.MSIX_ADDR_HI.hi.nth e))
    (s.word (EVT.MSIX_DATA + 16 * e)))

/-- Set a PEND bit. A bit that rises sends its message, or holds it with its Pending Bit Array bit set (R380, R381). The
second result says whether a message was sent. -/
def setPendCore (e : Nat) (s : State) : State × Bool :=
  if s.pend e then (s, false)
  else
    let s := s.setArrayBit EVT.PEND e
    if s.msixOpen e then (s.sendMsix e, true) else (s.setArrayBit EVT.PBA e, false)

/-! ### Counting (R398, R399) -/

/-- The value of performance counter `k`, 48 bits (R400). -/
def State.perfCnt (s : State) (k : Nat) : Nat := s.pair (PERF.CNT + 8 * k) (PERF.CNT_HI + 8 * k) % 2 ^ 48

/-- Write performance counter `k`. -/
def State.setPerfCnt (s : State) (k v : Nat) : State := s.setPair (PERF.CNT + 8 * k) (PERF.CNT_HI + 8 * k) (v % 2 ^ 48)

/-- Whether counter `k` counts an occurrence of `code` now: selected and enabled in the active bank, and in edge mode only
where the signal was 0 in the cycle before (R398). -/
def State.counts (s : State) (k code : Nat) : Bool :=
  s.actFlag (PERF.SEL.enable.nth k) && decide (code ≠ 0) && decide (s.act (PERF.SEL.event.nth k) = code) &&
    (!s.actFlag (PERF.SEL.mode.nth k) ||
      (let seen := sget (fun _ => 0) s.perf.lastSeen (256 * (k / 8) + code)
       decide (seen = 0) || decide (seen < s.perf.cycle.toNat)))

/-- Add to counter `k`; a wrap sets its OVF bit (R399). The second result says whether PERF.CAUSE.overflow was set by it. -/
def bumpCounter (k : Nat) (s : State) : State × Bool :=
  let v := s.perfCnt k + 1
  let s := s.setPerfCnt k v
  if v < 2 ^ 48 then (s, false)
  else
    let s := s.orWord (PERF.OVF + 4 * (k / 8)) (BitVec.ofNat 32 (2 ^ (k % 8)))
    if bitOf (s.word PERF.CAUSE) 0 then (s, false) else (s.orWord PERF.CAUSE 1, true)

/-- One occurrence of event `code` in group `g`: SQ0 to SQ3 are 0 to 3, FABRIC is 4 (R397, R398). -/
def bumpGroup (g code : Nat) (s : State) : State × Bool :=
  let r := (List.range 8).foldl (fun (acc : State × Bool) i =>
    let k := 8 * g + i
    if acc.1.counts k code then
      let b := bumpCounter k acc.1
      (b.1, acc.2 || b.2)
    else acc) (s, false)
  ({ r.1 with perf := { r.1.perf with
      lastSeen := sput (fun _ => 0) r.1.perf.lastSeen (256 * g + code) (r.1.perf.cycle.toNat + 1) } }, r.2)

/-- Count an occurrence; a first overflow sets PEND 248 (R399). -/
def perfCount (g code : Nat) (s : State) : State :=
  let r := bumpGroup g code s
  if r.2 then
    let p := setPendCore 248 r.1
    if p.2 then (bumpGroup 4 0x0F p.1).1 else p.1
  else r.1

/-- Raise event `e` (R380). -/
def setPend (e : Nat) (s : State) : State :=
  let r := setPendCore e s
  if r.2 then perfCount 4 0x0F r.1 else r.1

/-- EVT.SUMMARY bit: some event of word `w` is pending and not masked by the array at `a`. -/
def State.pendWord (s : State) (a w : Nat) : Bool :=
  decide (s.word (EVT.PEND + 4 * w) &&& ~~~ (s.word (a + 4 * w)) ≠ 0)

/-- The device is in Safe hold (R442): PWR and management only. -/
def State.safeHold (s : State) : Bool := decide (s.rd CHIP.RESET_CAUSE.safe_reason ≠ 0)

/-- INT_N is driven low (R382, R410). -/
def State.intN (s : State) : Bool :=
  (List.range 8).any (fun w => s.pendWord EVT.INT_MASK w) && !s.safeHold && s.awake

/-! ### Log status -/

/-- AUDIT records that hold no unexported content (R388). -/
def State.auditFree (s : State) : Nat := 32768 - (s.logs.audit.filter (fun r => !r.exported)).length

/-- The oldest sequence not exported, or the next one to be written where all are exported. -/
def oldestUnexported (newest : Nat) (l : List (Nat × Bool)) : Nat :=
  match l.find? (fun e => !e.2) with
  | some e => e.1
  | none => (newest + 1) % 2 ^ 32

/-- LOG.POS_UNEXP of a class. -/
def State.posUnexp (s : State) (c : Nat) : Nat :=
  match c with
  | 0 => oldestUnexported (s.chain.seq.toNat % 2 ^ 32) (s.logs.audit.map (fun r => (r.seq, r.exported)))
  | 1 => oldestUnexported s.logs.alarmSeq (s.logs.alarm.map (fun r => (r.seq, r.exported)))
  | _ => oldestUnexported s.logs.traceSeq (s.logs.trace.map (fun r => (r.seq, r.exported)))

/-- LOG.POS of a class: the newest sequence. -/
def State.posNewest (s : State) (c : Nat) : Nat :=
  match c with
  | 0 => s.chain.seq.toNat % 2 ^ 32
  | 1 => s.logs.alarmSeq
  | _ => s.logs.traceSeq

/-- ALARM_N is driven low (R391, R410, R426): in RUN and IDLE while a record is not acknowledged or occurrences are held; in
Safe hold; and while VDD_CORE could not be raised for a wake. -/
def State.alarmN (s : State) : Bool :=
  (s.awake && (s.logs.alarm.any (fun r => decide ((s.word LOG.ALARM_ACK).toNat < r.seq)) || !s.logs.heldAlarm.isEmpty)) ||
    s.safeHold || s.power.retry

/-- Put a record at the end of a region, reusing the oldest exported record of a full one (R384). -/
def regionPut {α : Type} (cap : Nat) (exported : α → Bool) (l : List α) (r : α) : List α :=
  if l.length < cap then l ++ [r] else l.eraseP exported ++ [r]

/-! ### ALARM records (R386) -/

/-- Count an ALARM occurrence for the summaries, and bring the next one forward where SS_ALERT asks for it on an opened
record (R393). -/
def noteAlarm (source : Nat) (opened : Bool) (s : State) : State :=
  let st := sget (fun _ => (⟨0, 0⟩ : AlarmStat)) s.logs.stats source
  { s with logs := { s.logs with
      stats := sput (fun _ => ⟨0, 0⟩) s.logs.stats source ⟨satAdd 0xFFFFFFFF st.count 1, s.now⟩,
      summaryDue := s.logs.summaryDue || (opened && s.arrayBit LOG.SS_ALERT source) } }

/-- Open a new ALARM record and raise event 219 (R386). -/
def openAlarm (h : HeldAlarm) (s : State) : State :=
  let seq := (s.logs.alarmSeq + 1) % 2 ^ 32
  let r : AlarmRec :=
    { typ := h.typ, isOpen := true, mixed := h.mixed, badWords := 0, source := h.source, count := h.count,
      first := h.first, last := h.last, detail := h.detail, seq := seq, exported := false }
  let s := { s with logs := { s.logs with alarm := regionPut 8192 (·.exported) s.logs.alarm r, alarmSeq := seq } }
  let s := perfCount 4 0x0D s
  setPend 219 (s.orWord LOG.CAUSE 8)

/-- Add an occurrence to an open record. -/
def AlarmRec.join (r : AlarmRec) (typ now : Nat) : AlarmRec :=
  { r with count := satAdd 0xFFFFFFFF r.count 1, last := now, mixed := r.mixed || decide (r.typ ≠ typ) }

/-- Change the last element that satisfies a test. -/
def updateLast {α : Type} (p : α → Bool) (f : α → α) (l : List α) : List α :=
  let r := l.reverse
  (match r.findIdx? p with
   | some i => r.modify i f
   | none => r).reverse

/-- Change the first element that satisfies a test. -/
def updateFirst {α : Type} (p : α → Bool) (f : α → α) : List α → List α
  | [] => []
  | x :: t => if p x then f x :: t else x :: updateFirst p f t

/-- Hold an occurrence as a count of its source (R386). -/
def holdAlarm (source typ : Nat) (detail : Word) (now : Nat) (l : List HeldAlarm) : List HeldAlarm :=
  if l.any (fun h => h.source == source) then
    updateFirst (fun h => h.source == source)
      (fun h => { h with count := satAdd 0xFFFFFFFF h.count 1, last := now, mixed := h.mixed || decide (h.typ ≠ typ) }) l
  else l ++ [{ source := source, typ := typ, mixed := false, count := 1, first := now, last := now, detail := detail }]

/-- An ALARM occurrence (R386). -/
def alarm (source typ : Nat) (detail : Word) (s : State) : State :=
  let now := s.now
  let free := 8192 - (s.logs.alarm.filter (fun r => !r.exported)).length
  let same := fun (r : AlarmRec) => r.isOpen && r.source == source && r.typ == typ
  let ofSource := fun (r : AlarmRec) => r.isOpen && r.source == source
  if s.logs.alarm.any same then
    noteAlarm source false
      { s with logs := { s.logs with alarm := updateFirst same (·.join typ now) s.logs.alarm } }
  else if 0 < free && s.logs.heldAlarm.isEmpty then
    noteAlarm source true (openAlarm
      { source := source, typ := typ, mixed := false, count := 1, first := now, last := now, detail := detail } s)
  else if s.logs.alarm.any ofSource then
    noteAlarm source false
      { s with logs := { s.logs with
          alarm := updateLast ofSource (fun r => { r.join typ now with mixed := true }) s.logs.alarm } }
  else if s.logs.alarm.any (·.isOpen) then
    noteAlarm source false
      { s with logs := { s.logs with
          alarm := updateFirst (·.isOpen) (fun r => { r.join typ now with mixed := true }) s.logs.alarm } }
  else
    noteAlarm source false
      { s with logs := { s.logs with heldAlarm := holdAlarm source typ detail now s.logs.heldAlarm } }

/-! ### TRACE records (R387) -/

/-- Unexported TRACE records. -/
def State.traceHeld (s : State) : Nat := (s.logs.trace.filter (fun r => !r.exported)).length

/-- Write a TRACE record, which takes the next sequence (R384). -/
def putTrace (typ source : Nat) (time : Nat) (body : List Byte) (s : State) : State :=
  let seq := (s.logs.traceSeq + 1) % 2 ^ 32
  let r : TraceRec := { typ := typ, badWords := 0, source := source, seq := seq, time := time, body := body, exported := false }
  perfCount 4 0x0D
    { s with logs := { s.logs with trace := regionPut 24576 (·.exported) s.logs.trace r, traceSeq := seq } }

/-- Write the gap marker of the drops since the last write, where there were any and a record is free (R387). -/
def gapMarker (s : State) : State :=
  match s.logs.traceDrop with
  | some d =>
    if s.traceHeld < 24575 then
      let s := putTrace 0xFF 0 d.last (bytesBE 4 d.count ++ bytesBE 4 0 ++ bytesBE 8 d.first) s
      ({ s with logs := { s.logs with traceDrop := none } }).wr LOG.STATUS.trace_dropping 0
    else s
  | none => s

/-- A TRACE occurrence: written, or dropped and counted where no record is free but the one kept for a gap marker. -/
def trace (typ source : Nat) (body : List Byte) (s : State) : State :=
  let s := gapMarker s
  if s.logs.traceDrop.isNone && decide (s.traceHeld < 24575) then putTrace typ source s.now body s
  else
    let now := s.now
    let first := s.logs.traceDrop.isNone
    let d := match s.logs.traceDrop with
      | some d => { d with count := satAdd 0xFFFFFFFF d.count 1, last := now }
      | none => { count := 1, first := now, last := now }
    let s := { s with logs := { s.logs with traceDrop := some d } }
    let s := perfCount 4 0x0E ((s.addSat LOG.TRACE_DROP.count 1).wr LOG.STATUS.trace_dropping 1)
    if first then setPend 220 (s.orWord LOG.CAUSE 16) else s

/-! ### Occurrences of events (R385, R490) -/

/-- Bytes of a mapped TRACE record's body: the detail word and zeros (R385). -/
def mappedBody (detail : Word) : List Byte := bytesBE 4 detail.toNat ++ List.replicate 12 0

/-- The records LOG.CLASS_MAP asks for on an occurrence of event `e` (R385): none while LOG.CFG.enable is 0, and never any
for events 219 and 220. -/
def mapped (e typ : Nat) (detail : Word) (s : State) : State :=
  if !s.flag LOG.CFG.enable || e == 219 || e == 220 then s
  else
    let c := bitsOf (s.word (LOG.CLASS_MAP + 4 * (e / 16))) (2 * (e % 16)) 2
    let s := if c % 2 = 1 then trace 2 e (mappedBody detail) s else s
    if 2 ≤ c then alarm e typ detail s else s

/-- An occurrence of event `e` whose detail register is the cause register at `a`: its bit is set, the event raised, and the
map's record written. -/
def causeEvent (a b e : Nat) (s : State) : State :=
  let s := s.orWord a (BitVec.ofNat 32 (2 ^ b))
  mapped e (1 + b) (s.word a) (setPend e s)

/-- The same, where a chapter writes an ALARM record for the occurrence, so that the map writes none (R385). -/
def causeAlarm (a b e : Nat) (s : State) : State :=
  let s := s.orWord a (BitVec.ofNat 32 (2 ^ b))
  alarm e (1 + b) (s.word a) (setPend e s)

/-- An occurrence of event `e` whose detail register at `a` is no cause register (R490). -/
def plainEvent (e : Nat) (detail : Word) (s : State) : State := mapped e 0 detail (setPend e s)

/-- Event 6n + k of a port (R379), with the detail words of R490 for k = 0 and 1. -/
def linkEvent (n : Nat) (s : State) : State := plainEvent (6 * n) (s.word (portAddr n P.LINE_STATUS)) s

/-- Event 6n + 1 (training fail). -/
def trainFailEvent (n : Nat) (s : State) : State := plainEvent (6 * n + 1) (s.word (portAddr n P.AN_STATUS)) s

/-- Event 6n + 2 with a bit of TRIP.PORT_CAUSE[n]. -/
def tripEvent (n b : Nat) (s : State) : State := causeEvent (TRIP.PORT_CAUSE + 4 * n) b (6 * n + 2) s

/-- Event 6n + 3 with a bit of P[n].MON_CAUSE. -/
def diagEvent (n b : Nat) (s : State) : State := causeEvent (portAddr n P.MON_CAUSE) b (6 * n + 3) s

/-- Event 6n + 4 with a bit of P[n].MON_CAUSE. -/
def marginEvent (n b : Nat) (s : State) : State := causeEvent (portAddr n P.MON_CAUSE) b (6 * n + 4) s

/-- Event 6n + 5 with a bit of CAL.PORT_CAUSE[n]. -/
def calEvent (n b : Nat) (s : State) : State := causeEvent (CAL.PORT_CAUSE + 4 * n) b (6 * n + 5) s

/-- Events 192 to 199 with a bit of HSL.LANE_CAUSE[l]; the caller names the event (R289). -/
def laneEvent (l b e : Nat) (s : State) : State := causeEvent (HSL.LANE_CAUSE + 4 * l) b e s

/-- Event 200 + b with bit b of SS.CAUSE. -/
def ssEvent (b : Nat) (s : State) : State := causeEvent SS.CAUSE b (200 + b) s

/-- Event 208 + b with bit b of TST.CAUSE. -/
def tstEvent (b : Nat) (s : State) : State := causeEvent TST.CAUSE b (208 + b) s

/-- Event 216 + b with bit b of LOG.CAUSE. -/
def logEvent (b : Nat) (s : State) : State := causeEvent LOG.CAUSE b (216 + b) s

/-- Event 236 + b with bit b of WHEEL.CAUSE. -/
def wheelEvent (b : Nat) (s : State) : State := causeEvent WHEEL.CAUSE b (236 + b) s

/-- Event 240 + b with bit b of PWR.CAUSE. -/
def pwrEvent (b : Nat) (s : State) : State := causeEvent PWR.CAUSE b (240 + b) s

/-- Event 248 + b with bit b of PERF.CAUSE. -/
def perfEvent (b : Nat) (s : State) : State := causeEvent PERF.CAUSE b (248 + b) s

/-! ### AUDIT records (R374 to R377, R388) -/

/-- The first 24 bytes of an AUDIT record (R374), most significant byte first. -/
def auditBytes (typ result count subject time detail seq : Nat) : List Byte :=
  bytesBE 1 typ ++ bytesBE 1 result ++ bytesBE 2 count ++ bytesBE 4 subject ++ bytesBE 8 time ++ bytesBE 4 detail ++
    bytesBE 4 seq

/-- The bytes of a 512-bit digest, most significant first. -/
def digestBytes (d : BitVec 512) : List Byte := bytesBE 64 d.toNat

/-- Set LOG.STATUS from the AUDIT region, and the high-water and full judgements of R388 from the count before. -/
def auditRoom (before : Nat) (s : State) : State :=
  let free := s.auditFree
  let hw := s.rd LOG.CFG.audit_hw * 1024
  let s := s.wr LOG.STATUS.audit_free (min 0xFFFF free)
  let s := s.wr LOG.STATUS.reserve_in_use (bitNat (decide (free < 256)))
  let s := s.wr LOG.STATUS.reserve_used (bitNat (decide (free = 0)))
  let s := if hw ≤ before && decide (free < hw) then logEvent 1 s else s
  let s := if 256 < before && decide (free ≤ 256) then logEvent 2 (s.wr TST.STATUS.audit_full 1) else s
  if 512 < free then s.wr TST.STATUS.audit_full 0 else s

/-- The bytes of a text's ASCII characters. -/
def ascii (t : String) : List Byte := t.toList.map (fun c => BitVec.ofNat 8 c.toNat)

/-- The signature of a checkpoint: seq and H under "SIRCOR-AUD" (R376). -/
def checkpointJob (seq : BitVec 64) (head : BitVec 512) (commanded : Bool) : SignJob :=
  { text := ascii "SIRCOR-AUD" ++ bytesBE 8 seq.toNat ++ digestBytes head, use := .checkpoint seq head commanded }

/-- Write an AUDIT record: it extends the hash chain, and each 4,096th asks for a checkpoint (R375, R376). -/
def putAudit (typ result count subject detail time : Nat) (s : State) : State :=
  let before := s.auditFree
  let seq := s.chain.seq + 1
  let body := auditBytes typ result count subject time detail (seq.toNat % 2 ^ 32)
  let head := Config.sha3_512 (digestBytes s.chain.head ++ body)
  let r : AuditRec :=
    { typ := typ, result := result, count := count, subject := subject, time := time, detail := detail,
      seq := seq.toNat % 2 ^ 32, link := BitVec.ofNat 64 (head.toNat / 2 ^ 448), badWords := 0, exported := false }
  let s := { s with
    logs := { s.logs with audit := regionPut 32768 (·.exported) s.logs.audit r },
    chain := { head := head, seq := seq },
    signing := if seq.toNat % 4096 = 0 then s.signing ++ [checkpointJob seq head false] else s.signing }
  auditRoom before (perfCount 4 0x0D s)

/-- Hold an AUDIT record as a count of its type (R388). -/
def holdAudit (typ result subject detail time count : Nat) (l : List HeldAudit) : List HeldAudit :=
  if l.any (fun h => h.typ == typ) then
    updateFirst (fun h => h.typ == typ) (fun h => { h with count := satAdd 0xFFFF h.count count }) l
  else l ++ [{ typ := typ, result := result, subject := subject, detail := detail, time := time, count := count }]

/-- An AUDIT record of `count` occurrences: written, or held where the region and its reserve are used up (R388). -/
def auditN (typ result count subject detail : Nat) (s : State) : State :=
  if 0 < s.auditFree && s.logs.heldAudit.isEmpty then putAudit typ result count subject detail s.now s
  else { s with logs := { s.logs with heldAudit := holdAudit typ result subject detail s.now count s.logs.heldAudit } }

/-- An AUDIT record of one item. -/
def audit (typ result subject detail : Nat) (s : State) : State := auditN typ result 1 subject detail s

/-- Write the held AUDIT counts, oldest type first, as far as there is room (R388). -/
def drainHeldAudit : (fuel : Nat) → State → State
  | 0, s => s
  | k + 1, s =>
    match s.logs.heldAudit with
    | [] => s
    | h :: t =>
      if 0 < s.auditFree then
        drainHeldAudit k (putAudit h.typ h.result h.count h.subject h.detail h.time
          { s with logs := { s.logs with heldAudit := t } })
      else s

/-- Write the held ALARM counts in the order their sources were first held, as far as there is room (R386). -/
def drainHeldAlarm : (fuel : Nat) → State → State
  | 0, s => s
  | k + 1, s =>
    match s.logs.heldAlarm with
    | [] => s
    | h :: t =>
      if (s.logs.alarm.filter (fun r => !r.exported)).length < 8192 then
        drainHeldAlarm k (openAlarm h { s with logs := { s.logs with heldAlarm := t } })
      else s

/-- TST.STATUS.audit_full (R377). -/
def State.auditFull (s : State) : Bool := s.flag TST.STATUS.audit_full

/-- The device is in Sealed operation (R366). -/
def State.sealed (s : State) : Bool := s.flag TST.STATUS.sealed

end Sys2Proof.Machine
end

