-- ==== Sys2Proof/Machine/Regs.lean ====
section
/-! DEFINITION. The discipline of the register file (spec/02_register_behaviour.md): ignored writes, bus errors, the clamp
log, banks, WC commands. -/

namespace Sys2Proof.Machine

/-! ### Ignored writes and bus errors (R36, R47) -/

/-- Why a write had no effect (R36). -/
inductive Ignored where
  | readOnly | pending | enabled | isSealed | queueFull
deriving DecidableEq, Repr

/-- The code of R36. -/
def Ignored.code : Ignored → Nat
  | .readOnly => 1
  | .pending => 2
  | .enabled => 3
  | .isSealed => 4
  | .queueFull => 5

/-- The BANK_STATUS register of a block (R465). -/
def Block.bankStatus : Block → Option Nat
  | .port n => some (portAddr n P.BANK_STATUS)
  | .jug => some JUG.BANK_STATUS
  | .ss => some SS.BANK_STATUS
  | .trip => some TRIP.BANK_STATUS
  | .cal => some CAL.BANK_STATUS
  | .bist => some BIST.BANK_STATUS
  | .perf => some PERF.BANK
  | .hsl => some HSL.BANK_STATUS
  | .dma => some DMA.BANK_STATUS
  | .pwr => some PWR.BANK_STATUS
  | .log => some LOG.BANK_STATUS
  | .chip | .evt | .sq | .wheel | .tst => none

/-- Bits of BANK_STATUS (R466). -/
def ignWriteBit : Word := 0x10000
def cfgLostBit : Word := 0x20000

/-- Record a write without effect: the block's ign_write, and the first address and reason with a saturating count (R36). -/
def ignored (r : Ignored) (a : Nat) (s : State) : State :=
  let s := match (blockOf a).bind (fun b => b.1.bankStatus) with
    | some st => s.orWord st ignWriteBit
    | none => s
  let s := if s.host.ignFresh then
      { s.wrs [(CHIP.IGN_WRITE_ADDR.addr, a), (CHIP.IGN_WRITE_STATUS.reason, r.code)] with
        host := { s.host with ignFresh := false } }
    else s
  s.addSat CHIP.IGN_WRITE_STATUS.count 1

/-- The causes of a bus error (R464). -/
inductive BusCause where
  | unaligned | narrow | unimplemented
deriving DecidableEq, Repr

/-- The code of R464. -/
def BusCause.code : BusCause → Nat
  | .unaligned => 1
  | .narrow => 2
  | .unimplemented => 3

/-- Record a bus error: the first offset and cause, a saturating count, and event 216 (R47). -/
def busError (c : BusCause) (a : Nat) (s : State) : State :=
  let s := if s.host.busFresh then
      { s.wrs [(CHIP.BUSERR_ADDR.addr, a), (CHIP.BUSERR_STATUS.cause, c.code)] with
        host := { s.host with busFresh := false } }
    else s
  logEvent 0 (s.addSat CHIP.BUSERR_STATUS.count 1)

/-- Add a refusal to the tally of its RTC second: its first subject, detail and result, and how many (R53, R213). -/
def tally (subject detail result : Nat) (t : Option RefusalTally) : Option RefusalTally :=
  match t with
  | some t => some { t with count := t.count + 1 }
  | none => some { subject := subject, detail := detail, result := result, count := 1 }

/-- A host configuration write refused in Sealed operation: flagged, and counted for the AUDIT record of its RTC second (R53). -/
def refuseSealed (a v : Nat) (s : State) : State :=
  ignored .isSealed a { s with host := { s.host with refusedWrites := tally a v 0 s.host.refusedWrites } }

/-! ### The clamp log (R39) -/

/-- Add an entry to the clamp log; a full log counts it as dropped, a log that becomes non-empty raises event 216. -/
def clampPush (e : ClampEntry) (s : State) : State :=
  if 32 ≤ s.host.clampLog.length then s.addSat CHIP.CLAMP_STATUS.dropped 1
  else
    let wasEmpty := s.host.clampLog.isEmpty
    let s := { s with host := { s.host with clampLog := s.host.clampLog ++ [e] } }
    if wasEmpty then logEvent 0 s else s

/-- A clamp entry of a field. -/
def Field.entry (f : Field) (source written applied : Nat) : ClampEntry :=
  { addr := f.addr, lsb := f.lsb, width := f.width, source := source, written := written, applied := applied }

/-- Clamp a field of an active bank that disagrees with another field (R38). The entry names the register's own offset. -/
def agree (f : Field) (v : Nat) (s : State) : State :=
  let w := s.act f
  if w = v then s else clampPush (f.entry 1 w v) (s.wr f.active v)

/-- A hardware update of a double-buffered RW field: both banks take it; the host's value is replaced, with cfg_lost and a
clamp entry of the old and the new value (R40, R92). -/
def hwSet (f : Field) (v : Nat) (s : State) : State :=
  let shadow := s.rd f
  let lost := decide (shadow ≠ v)
  let s := (s.wr f v).wr f.active v
  if lost then
    let s := match (blockOf f.addr).bind (fun b => b.1.bankStatus) with
      | some st => s.orWord st cfgLostBit
      | none => s
    clampPush (f.entry 2 shadow v) s
  else s

/-! ### Banks (R33) -/

/-- The base address of a block. -/
def Block.base : Block → Nat
  | .chip | .evt => 0
  | .port n => 0x100000 + 0x10000 * n
  | .hsl => 0x300000 | .sq => 0x400000 | .wheel => 0x401000 | .jug => 0x500000 | .ss => 0x600000 | .trip => 0x680000
  | .tst => 0x700000 | .log => 0x800000 | .perf => 0x900000 | .dma => 0xA00000 | .pwr => 0xB00000 | .cal => 0xC00000
  | .bist => 0xC01000

/-- The addresses of the RW registers of a block. -/
def Block.rwAddrs (b : Block) : List Nat :=
  ((tableOf b).filter (·.hasRW)).flatMap (fun r => (List.range r.count).map (fun i => b.base + r.off + r.stride * i))

/-- Copy the shadow words of a block over its active words. -/
def shadowToActive (b : Block) (s : State) : State :=
  b.rwAddrs.foldl (fun t a => t.setWord (a + 0x8000) (t.word a)) s

/-- Copy the active words of a block over its shadow words. -/
def activeToShadow (b : Block) (s : State) : State :=
  b.rwAddrs.foldl (fun t a => t.setWord a (t.word (a + 0x8000))) s

/-- The register that holds pending and commit of a double-buffered block (R465, R332). -/
def Block.bankCtrl : Block → Option Nat
  | .port n => some (portAddr n P.BANK_CTRL)
  | .jug => some JUG.BANK_CTRL
  | .ss => some SS.BANK_CTRL
  | .trip => some TRIP.BANK_CTRL
  | .cal => some CAL.BANK_CTRL
  | .bist => some BIST.BANK_CTRL
  | .perf => some PERF.BANK
  | .wheel => some WHEEL.BANK_STATUS
  | .chip | .evt | .hsl | .sq | .tst | .log | .dma | .pwr => none

/-- The register that holds a double-buffered block's commit command (R465): WHEEL has one of its own (R332). -/
def Block.commitAt : Block → Option Nat
  | .wheel => some WHEEL.BANK_CTRL
  | b => b.bankCtrl

/-- The pending bit of a double-buffered block: BANK_CTRL bit 1, for WHEEL its BANK_STATUS bit 2 (R332). -/
def Block.pendingBit : Block → Nat
  | .wheel => 2
  | _ => 1

/-- Whether a block's commit is pending (R33). -/
def State.bankPending (s : State) (b : Block) : Bool :=
  match b.bankCtrl with
  | some a => bitOf (s.word a) b.pendingBit
  | none => false

/-- Set or clear a block's pending bit. -/
def State.setPending (s : State) (b : Block) (v : Bool) : State :=
  match b.bankCtrl with
  | some a => s.setWord a (if v then withBitSet (s.word a) b.pendingBit else withBitClear (s.word a) b.pendingBit)
  | none => s

/-- The active bank of a block toggles (R33); WHEEL's active_bank names the wheel bank instead (R332). -/
def State.toggleBank (s : State) (b : Block) : State :=
  match b with
  | .wheel => s
  | _ => match b.bankStatus with
    | some a => s.setWord a (s.word a ^^^ 0x100)
    | none => s

/-- A pending bank becomes active: switch, cross-field checks, copy-back, pending clears (R33). -/
def switchBank (b : Block) (checks : State → State) (s : State) : State :=
  if s.bankPending b then
    ((activeToShadow b (checks (shadowToActive b s))).toggleBank b).setPending b false
  else s

/-- A commit written: pending is set, or the write is flagged while it is (R33, R34). -/
def commitBank (b : Block) (a : Nat) (s : State) : State :=
  if s.bankPending b then ignored .pending a s else s.setPending b true

/-! ### WC commands (R41) -/

/-- The key of a WC command. -/
def wcKey (a bit : Nat) : Nat := a * 32 + bit

/-- 0 idle, 1 running, 2 running with one queued. -/
def State.wcLevel (s : State) (key : Nat) : Nat := sget (fun _ => 0) s.host.wc key

/-- Set a command's level. -/
def State.setWc (s : State) (key v : Nat) : State :=
  { s with host := { s.host with wc := sput (fun _ => 0) s.host.wc key v } }

/-- A 1 written to a WC command that takes time: it starts, queues behind the running one, or is flagged QUEUE_FULL. -/
def wcWrite (a bit : Nat) (start : State → State) (s : State) : State :=
  match s.wcLevel (wcKey a bit) with
  | 0 => start (s.setWc (wcKey a bit) 1)
  | 1 => s.setWc (wcKey a bit) 2
  | _ => ignored .queueFull a s

/-- A running WC command completes: a queued one starts, else the bit reads 0. -/
def wcDone (a bit : Nat) (start : State → State) (s : State) : State :=
  match s.wcLevel (wcKey a bit) with
  | 2 => start (s.setWc (wcKey a bit) 1)
  | _ => s.setWc (wcKey a bit) 0

end Sys2Proof.Machine
end

