-- ==== Sys2Proof/Machine/Sram.lean ====
section
/-! DEFINITION. Data SRAM and its protection (R333 to R335), and the job table (R303, R305). Words stand in SRAM least
significant byte first. -/

namespace Sys2Proof.Machine

/-! ### Bytes and words (R293, R333) -/

/-- Bytes of the data SRAM. -/
def sramSize : Nat := 0x800000

/-- What a byte of data SRAM that nothing has written reads as (R434). -/
def sramDefault : Nat → Byte := fun _ => 0

/-- Data SRAM is in canonical form: addresses rising, no byte listed that an unlisted address reads as. -/
abbrev Memory.wf (m : List Host.Cell) : Prop := storeWf sramDefault m

/-- A byte of data SRAM. -/
def State.byteAt (s : State) (a : Nat) : Byte := sget sramDefault s.sram a

/-- Write a byte of data SRAM, without regard to protection. -/
def State.setByte (s : State) (a : Nat) (v : Byte) : State := s.withSram (sput sramDefault s.sram a v)

/-- `k` bytes from an address. -/
def State.bytesAt (s : State) (a k : Nat) : List Byte := (List.range k).map (fun i => s.byteAt (a + i))

/-- The number that bytes spell, least significant first. -/
def numLE (l : List Byte) : Nat := l.foldr (fun b acc => b.toNat + 256 * acc) 0

/-- The low `k` bytes of a number, least significant first. -/
def bytesLE (k v : Nat) : List Byte := (List.range k).map (fun i => BitVec.ofNat 8 (v / 2 ^ (8 * i)))

/-- The word at an aligned address. -/
def State.wordAt (s : State) (a : Nat) : Word := BitVec.ofNat 32 (numLE (s.bytesAt a 4))

/-- The word an address lies in holds an uncorrectable error. -/
def State.isMarked (s : State) (a : Nat) : Bool := s.dma.marked.contains (a / 4 * 4)

/-- Some word of a range is marked. -/
def State.anyMarked (s : State) (a k : Nat) : Bool :=
  s.dma.marked.any (fun w => decide (a < w + 4) && decide (w < a + k))

/-- Put bytes into data SRAM from an address on. -/
def State.putBytes (s : State) (a : Nat) (l : List Byte) : State := l.zipIdx.foldl (fun s e => s.setByte (a + e.2) e.1) s

/-- Clear the marks of the words a range replaces whole. -/
def clearMarks (a k : Nat) (s : State) : State :=
  { s with dma := { s.dma with marked := s.dma.marked.filter (fun w => !(decide (a ≤ w) && decide (w + 4 ≤ a + k))) } }

/-- A word's bytes written: an aligned 32-bit write replaces a marked word and clears its mark (R333). -/
def writeWord (a : Nat) (w : Word) (s : State) : State := (clearMarks a 4 s).putBytes a (bytesLE 4 w.toNat)

/-- A narrow write; on a marked word it has no effect (R333). -/
def writeNarrow (a k v : Nat) (s : State) : State := if s.isMarked a then s else s.putBytes a (bytesLE k v)

/-- Bytes written by an engine or a unit: whole words replace marked ones, other bytes of marked words stay. -/
def writeBytes (a : Nat) (l : List Byte) (s : State) : State :=
  let s := clearMarks a l.length s
  l.zipIdx.foldl (fun s e => if s.isMarked (a + e.2) then s else s.setByte (a + e.2) e.1) s

/-- A new mark: counted, captured, event 229 (R333). -/
def markWord (a : Nat) (s : State) : State :=
  if s.isMarked a then s
  else
    let w := a / 4 * 4
    let s := { s with dma := { s.dma with marked := s.dma.marked ++ [w] } }
    let s := (s.addSat DMA.ECC_STATUS.uncorr 1).setWord DMA.ECC_ADDR (BitVec.ofNat 32 w)
    plainEvent 229 (s.word DMA.ECC_ADDR) s

/-- A correction: counted; event 228 follows at the boundary (R333). -/
def countCorrection (s : State) : State :=
  let s := perfCount 4 0x08 (s.addSat DMA.ECC_STATUS.corr 1)
  { s with dma := { s.dma with corrected := true } }

/-- The boundary that ends a revolution with a correction raises event 228. -/
def eccBoundary (s : State) : State :=
  if s.dma.corrected then
    plainEvent 228 (s.word DMA.ECC_STATUS) { s with dma := { s.dma with corrected := false } }
  else s

/-! ### The scrubber (R334) -/

/-- What the scrubber finds in the word it reads: its bank's next word, corrected, or not correctable. -/
def scrubAccess (bank : Nat) (e : ScrubResult) (s : State) : State :=
  let k := sget (fun _ => 0) s.dma.scrub bank
  if 131072 ≤ k then s
  else
    let a := bank * 0x80000 + 4 * k
    let s := { s with dma := { s.dma with scrub := sput (fun _ => 0) s.dma.scrub bank (k + 1) } }
    let s := match e with
      | .good => s
      | .corrected => countCorrection s
      | .uncorrectable => markWord a s
    if (List.range 16).all (fun b => sget (fun _ => 0) s.dma.scrub b == 131072) then
      let s := { s with dma := { s.dma with scrub := [] } }
      let s := s.addWrap DMA.ECC_STATUS.passes 1
      plainEvent 230 (s.word DMA.ECC_STATUS) s
    else s

/-- SCRUB_ACCESS (R334). -/
def execScrubAccess (bank : Fin 16) (found : ScrubResult) (s : State) : Host.Outcome State Fault Refusal :=
  .next (if s.clk.wheelOn then scrubAccess bank found s else s)

/-! ### The job table (R303, R305) -/

/-- Status values of R305. -/
def stOk : Nat := 0
def stZeroLen : Nat := 1
def stFault : Nat := 2
def stAborted : Nat := 3
def stSnapSize : Nat := 4
def stBadHandle : Nat := 5
def stVerifyFail : Nat := 6

/-- The job of a table entry. -/
def State.job (s : State) (e : Nat) : Option Job := (s.seq.jobs.find? (fun x => x.1 == e)).map (·.2)

/-- Replace or free a table entry. -/
def State.setJob (s : State) (e : Nat) (j : Option Job) : State :=
  let rest := s.seq.jobs.filter (fun x => x.1 != e)
  match j with
  | some j => { s with seq := { s.seq with jobs := sinsert rest e j } }
  | none => { s with seq := { s.seq with jobs := rest, order := s.seq.order.filter (· != e) } }

/-- A job ends: its status waits for its handle, a detached entry is freed. -/
def endJob (e status : Nat) (s : State) : State :=
  match s.job e with
  | some j => if j.detach then s.setJob e none else s.setJob e (some { j with status := some status, started := true })
  | none => s

/-- A job begins to run on its unit. -/
def startJob (e : Nat) (s : State) : State :=
  match s.job e with
  | some j => s.setJob e (some { j with started := true })
  | none => s

/-- Descriptors in flight that no job stands for. -/
def State.plainDescs (s : State) : Nat :=
  (s.dma.rings.map (fun r => (r.2.descs.filter (fun d => match d.use with
    | .job _ => false
    | .host => true
    | .logExport _ _ => true
    | .perfDump => true)).length)).sum

/-- Operations in the job table (R313). -/
def State.inFlight (s : State) : Nat := s.seq.jobs.length + s.plainDescs

/-- Whether the table takes one more operation that is not a descriptor: 4,096 entries are kept for the rings (R324, R337). -/
def State.tableOpen (s : State) : Bool :=
  decide (s.inFlight < 16384) && decide ((s.seq.jobs.filter (fun x => match x.2.kind with
    | .dma _ _ _ => false
    | .engine _ _ => true
    | .hash _ => true
    | .lattice _ _ => true
    | .snap _ => true)).length < 12288)

/-- The lowest free entry. -/
def freeEntry (jobs : List (Nat × Job)) : Nat :=
  ((List.range (jobs.length + 1)).find? (fun e => !jobs.any (fun x => x.1 == e))).getD 0

/-- Place an operation in the table: its handle and the state. The generation advances and skips 0. -/
def placeJob (core task : Nat) (kind : JobKind) (detach : Bool) (s : State) : Nat × Word × State :=
  let e := freeEntry s.seq.jobs
  let gen := (sget (fun _ => 0) s.seq.gens e) % 65535 + 1
  let s := { s with seq := { s.seq with gens := sput (fun _ => 0) s.seq.gens e gen, order := s.seq.order ++ [e] } }
  let s := s.setJob e (some { gen := gen, core := core, task := task, kind := kind, detach := detach, started := false,
                              status := none })
  (e, BitVec.ofNat 32 (core * 2 ^ 30 + gen * 2 ^ 14 + e), s)

/-- The live entry a handle names, none where it has been freed or reused (R305). -/
def State.handleJob (s : State) (h : Word) : Option (Nat × Job) :=
  match s.job (bitsOf h 0 14) with
  | some j =>
    if h ≠ 0 && j.gen = bitsOf h 14 16 && j.core = bitsOf h 30 2 && !j.detach then some (bitsOf h 0 14, j) else none
  | none => none

/-- An issue refused at a full table (R303). -/
def jobRefused (s : State) : State := s.addSat SQ.JOB_STATUS.full_count 1

end Sys2Proof.Machine
end

