-- ==== Sys2Proof/Machine/Ports.lean ====
section
/-! DEFINITION. What every port family shares: the supervision states, modes and rates by their codes, the ports' hidden
state, messages handed to the Sideshow program. -/

namespace Sys2Proof.Machine

/-! ### Codes -/

/-- States of AN_STATUS.state (R102). -/
def fsmOff : Nat := 0
def fsmBreak : Nat := 1
def fsmAbility : Nat := 2
def fsmPages : Nat := 3
def fsmTrain : Nat := 5
def fsmData : Nat := 6
def fsmFretrain : Nat := 7
def fsmProbe : Nat := 8
def fsmCableTest : Nat := 9
def fsmHoldDown : Nat := 10
def fsmBus : Nat := 11

/-- Modes of LINE_STATUS.mode_now (R75). -/
def modeBaseT : Nat := 0
def modePeer : Nat := 1
def modeReach : Nat := 2

/-- A port's state. -/
def State.fsm (s : State) (n : Nat) : Nat := s.rd (P.AN_STATUS.state.port n)

/-- The mode and rate in force on a port (R75). -/
def State.modeNow (s : State) (n : Nat) : Nat := s.rd (P.LINE_STATUS.mode_now.port n)
def State.rateNow (s : State) (n : Nat) : Nat := s.rd (P.LINE_STATUS.rate_now.port n)

/-- A port in DATA or FRETRAIN. -/
def State.inData (s : State) (n : Nat) : Bool := s.fsm n == fsmData || s.fsm n == fsmFretrain

/-- A port in Peer or Reach data mode (R112). -/
def State.tripData (s : State) (n : Nat) : Bool :=
  s.inData n && (s.modeNow n == modePeer || s.modeNow n == modeReach)

/-- An active-bank field of a port. -/
def State.pact (s : State) (n : Nat) (f : Field) : Nat := s.act (f.port n)

/-- Symbol rates as JUG.MAP codes them (R142): 0 800, 1 850, 2 400, 3 425, 4 200, 5 212.5 MBd, 7 none of these (R60). -/
def symRate (mode rate : Nat) : Nat :=
  match mode, rate with
  | 0, 4 => 0
  | 1, 4 => 1
  | 0, 3 => 2
  | 1, 3 => 3
  | 0, 2 => 4
  | 1, 2 => 5
  | _, _ => 7

/-- The symbol rate a port runs at. -/
def State.portRate (s : State) (n : Nat) : Nat := symRate (s.modeNow n) (s.rateNow n)

/-- Reference SNR of a mode and rate in 0.01 dB (R60). -/
def refSnr (mode rate : Nat) : Int :=
  match mode, rate with
  | 0, 1 => 1700
  | 0, 0 => 1400
  | _, _ => 2400

/-- Numbers of 16 bits in two's complement. -/
def int16 (w : Nat) : Int := if w % 65536 < 32768 then (w % 65536 : Nat) else (w % 65536 : Nat) - (65536 : Int)

/-- A number as 16 bits in two's complement. -/
def nat16 (i : Int) : Nat := (i % 65536).toNat

/-- A number kept within bounds. -/
def clampInt (lo hi i : Int) : Int := max lo (min hi i)

/-- The pairs a mode and rate uses (R60, R61): A and B at 100BASE-TX, else all four. -/
def pairsInUse (mode rate : Nat) : List Nat := if mode = 0 && rate = 0 then [0, 1] else [0, 1, 2, 3]

/-- Whether a rate is an LDPC rate: 2.5G, 5G or 10G of BASE-T or Peer (R134). -/
def ldpcRate (mode rate : Nat) : Bool := symRate mode rate != 7

/-! ### Hidden state by port -/

def State.link (s : State) (n : Nat) : Link := sget (fun _ => Link.reset) s.links n
def State.setLink (s : State) (n : Nat) (l : Link) : State := s.withLinks (sput (fun _ => Link.reset) s.links n l)
def State.modLink (s : State) (n : Nat) (f : Link → Link) : State := s.setLink n (f (s.link n))

def State.trip (s : State) (n : Nat) : TripPort := sget (fun _ => TripPort.reset) s.trips n
def State.setTrip (s : State) (n : Nat) (t : TripPort) : State := s.withTrips (sput (fun _ => TripPort.reset) s.trips n t)
def State.modTrip (s : State) (n : Nat) (f : TripPort → TripPort) : State := s.setTrip n (f (s.trip n))

def State.rch (s : State) (n : Nat) : Reach := sget (fun _ => Reach.reset) s.reach n
def State.setRch (s : State) (n : Nat) (r : Reach) : State := s.withReach (sput (fun _ => Reach.reset) s.reach n r)
def State.modRch (s : State) (n : Nat) (f : Reach → Reach) : State := s.setRch n (f (s.rch n))

def State.idle (s : State) (n : Nat) : Lpi := sget (fun _ => Lpi.reset) s.lpi n
def State.setIdle (s : State) (n : Nat) (l : Lpi) : State := s.withLpi (sput (fun _ => Lpi.reset) s.lpi n l)

def State.mon (s : State) (n : Nat) : Mon := sget (fun _ => Mon.reset) s.mons n
def State.setMon (s : State) (n : Nat) (m : Mon) : State := s.withMons (sput (fun _ => Mon.reset) s.mons n m)
def State.modMon (s : State) (n : Nat) (f : Mon → Mon) : State := s.setMon n (f (s.mon n))

/-! ### Host lanes, as far as the ports see them (R270, R276, R279) -/

/-- Mequel mode. -/
def State.mequel (s : State) : Bool := s.flag HSL.MODE_CFG.mequel

/-- The lane that carries a port. -/
def State.laneOf (s : State) (n : Nat) : Nat := if s.mequel then 4 * (n / 4) else n

/-- A lane's state (R279). -/
def State.laneState (s : State) (l : Nat) : Nat := s.rd (HSL.LANE_STATUS.state.nth l)

/-- A lane in LOCKED or MANUAL_LOCKED. -/
def State.laneLocked (s : State) (l : Nat) : Bool := s.laneState l == 4 || s.laneState l == 6

def State.side (s : State) (n : Nat) : SideChan := sget (fun _ => SideChan.reset) s.sides n
def State.modSide (s : State) (n : Nat) (f : SideChan → SideChan) : State :=
  s.withSides (supd (fun _ => SideChan.reset) s.sides n f)

/-- A trip event for the side channel: 0 code accepted, 1 hb_lost, 2 hb_back, 3 lockout, 4 Sideshow trip accepted. A pending
block of the port takes the new kind and time and counts it (R276). -/
def noteTrip (n kind : Nat) (s : State) : State :=
  if s.mequel && s.flag (HSL.LANE_CTRL.side_trip.nth (s.laneOf n)) && s.flag (HSL.LANE_CTRL.enable.nth (s.laneOf n)) then
    let now := s.now
    s.modSide n (fun c => { c with pending := some { kind := kind, time := now, count := match c.pending with
      | some b => min 31 (b.count + 1)
      | none => 1 } })
  else s

/-- Frames or error blocks from the line: passed to the lane, or discarded and counted while it is not locked (R70, R283). -/
def deliver (n frames : Nat) (error : Bool) (s : State) : State :=
  let l := s.laneOf n
  if s.laneLocked l then s.emit (.frameOut n error)
  else s.addPair (HSL.LANE_CNT_DISCARD + 0x20 * l) (HSL.LANE_CNT_DISCARD + 0x20 * l + 4) frames

/-- The key of a dedicated coefficient (R467). -/
def coefKey (n p k : Nat) : Nat := 2512 * (4 * n + p) + k

/-- A dedicated coefficient. -/
def State.coef (s : State) (key : Nat) : BitVec 18 := sget (fun _ => 0) s.coefs key

/-- Write a dedicated coefficient. -/
def State.setCoef (s : State) (key : Nat) (v : BitVec 18) : State := s.withCoefs (sput (fun _ => 0) s.coefs key v)

/-- Clear every dedicated coefficient of a port (R90, R104). -/
def State.clearCoefs (s : State) (n : Nat) : State :=
  s.withCoefs (s.coefs.filter (fun e => decide (e.1 / 10048 ≠ n)))

/-- A value for an 18-bit coefficient: the exact one where it fits, else a value the spec leaves open. -/
def fit18 (v : Int) (s : State) : BitVec 18 × State :=
  if -131072 ≤ v && v ≤ 131071 then (BitVec.ofInt 18 v, s)
  else
    let d := s.draw
    (d.1.setWidth 18, d.2)

/-! ### Messages and replies (R198, R215) -/

/-- Hand a message to the Sideshow program; the reply to a mailbox command goes to SRAM (R365). -/
def sendMessage (m : SsMsg) (s : State) : State :=
  match m.place with
  | some a => writeBytes a m.body s
  | none => s.withMessages (s.messages ++ [m])

/-- Ask for a signature (R357). -/
def askSignature (j : SignJob) (s : State) : State := s.withSigning (s.signing ++ [j])

/-- The body of a reply (R215): counter, code, result, two reserved bytes, data. -/
def replyBody (r : DueReply) (result : Nat) (data : List Byte) : List Byte :=
  bytesBE 8 r.counter ++ bytesBE 1 r.code ++ bytesBE 1 result ++ bytesBE 2 0 ++ data

/-- Answer a command (R215): mtype 1, class 1, signed under "SIRCOR-RPL" where asked. -/
def sendReply (r : DueReply) (result : Nat) (data : List Byte) (s : State) : State :=
  let m : SsMsg := { mtype := 1, cls := 1, dest := r.origin, port := none, body := replyBody r result data, place := r.place }
  if r.signed then askSignature { text := ascii "SIRCOR-RPL" ++ m.body, use := .message m } s else sendMessage m s

/-- A word's four bytes. -/
def wordBytes (w : Word) : List Byte := bytesBE 4 w.toNat

/-- An accepted operational command in Sealed operation adds one AUDIT record of type 12 (R367). -/
def auditOperational (subject detail : Nat) (s : State) : State := if s.sealed then audit 12 0 subject detail s else s

end Sys2Proof.Machine
end

