-- ==== Sys2Proof/Machine/PowerBase.lean ====
section
/-! DEFINITION. The power states by number, and the wake request every source makes (spec/20_power_states.md, R409, R419,
R420). -/

namespace Sys2Proof.Machine

/-- The states of R409. -/
def stRun : Nat := 0
def stIdle : Nat := 1
def stSleep : Nat := 2
def stDeep : Nat := 3
def stOff : Nat := 4

/-- The state in force. -/
def State.powerState (s : State) : Nat := s.rd PWR.REQ_STATUS.state

/-- An entry is in progress: from the first question of the handshake to the last rail's acknowledgement (R420). -/
def PowerStage.entering : PowerStage → Bool
  | .asking _ => true
  | .stopping => true
  | .testing => true
  | .crc => true
  | .beacons => true
  | .entryRails => true
  | .rest => false
  | .slot => false
  | .waking => false
  | .checking => false

/-- Change the Ringmaster. -/
def State.modPower (s : State) (f : Power → Power) : State := { s with power := f s.power }

/-- A wake source acts (R419, R420): in an entry the wake is latched with wake_in_entry; in SLEEP, DEEP_SLEEP and OFF it is
taken at the next tick; the first source keeps its place. -/
def askWake (src : Nat) (s : State) : State :=
  let take := fun (s : State) => s.modPower (fun p => { p with wake := some (p.wake.getD src) })
  if s.power.stage.entering then (take s).wr PWR.AON_STATUS.wake_in_entry 1
  else if s.power.stage = .rest && decide (stSleep ≤ s.powerState) then take s
  else if s.power.retry then take s
  else s

/-! ### The RTC (R17, R427) -/

/-- The RTC is set: rtc_valid with it. -/
def setRtc (sec frac : Nat) (s : State) : State :=
  (s.modPower (fun p => { p with rtcSec := sec % 2 ^ 64, rtcFrac := frac % 32768 })).wr PWR.AON_STATUS.rtc_valid 1

/-! ### Rails (R425, R426) -/

/-- A rail's value in mV for a state, or for the self-tests; 0 leaves the rail unchanged. -/
def State.railValue (s : State) (r target : Nat) (test : Bool) : Nat :=
  if r = 0 then if test then 780 else if target ≤ stIdle then 750 else if target = stSleep then 720 else 650
  else
    let w := s.word (PWR.RAIL_CFG + 16 * r + 4)
    10 * (if test then bitsOf w 24 8 else if target ≤ stIdle then bitsOf w 16 8 else if target = stSleep then bitsOf w 8 8
          else bitsOf w 0 8)

/-- The rails to command for a state, in order. -/
def State.railsFor (s : State) (target : Nat) (test : Bool) : List Nat :=
  (List.range 4).filter (fun r => s.flag (PWR.RAIL_CFG.enable.nth r) && decide (s.railValue r target test ≠ 0))

/-- The next rail due is commanded. -/
def nextRail (target : Nat) (test : Bool) (s : State) : State :=
  match s.power.railsDue with
  | [] => s.modPower (fun p => { p with rail := none })
  | r :: rest =>
    let now := s.now
    (s.modPower (fun p => { p with railsDue := rest, rail := some { rail := r, since := now } })).emit
      (.railCommand r (s.railValue r target test))

/-- Command every rail for a state, one after another. -/
def startRails (target : Nat) (test : Bool) (s : State) : State :=
  let l := s.railsFor target test
  nextRail target test (s.modPower (fun p => { p with railsDue := l }))

/-- Every rail has acknowledged. -/
def State.railsDone (s : State) : Bool := s.power.railsDue.isEmpty && s.power.rail.isNone

end Sys2Proof.Machine
end

