-- ==== Sys2Proof/Machine/Gate.lean ====
section
/-! DEFINITION. Which host accesses are served in which state of the device (spec/20_power_states.md, R422; spec/21_reset_boot_selftest.md,
R434, R439, R442), and a command that a host write gives. -/

namespace Sys2Proof.Machine

/-- The device can be moved by the Ringmaster: it is started (R409). -/
def State.started (s : State) : Bool := s.boot.stage == .ready

/-- An access that SLEEP or a shutdown test does not serve (R422, R439). -/
def State.notServed (s : State) (addr : Nat) : Bool :=
  let pwr := decide (0xB00000 ≤ addr) && decide (addr < 0xC00000)
  let quiet := pwr || decide (addr < 0x4000) || (decide (0xC01000 ≤ addr) && decide (addr < 0xC08000)) ||
    (decide (0xC09000 ≤ addr) && decide (addr < 0xD00000))
  (s.powerState == stSleep && !pwr) || (s.power.stage == .testing && !quiet)

/-- HOST_ACCESS_IN_SLEEP (R422): with host_wake 1 the access is held and wakes the device; else a read is refused and a write
discarded, counted, event 246. -/
def accessInSleep (addr : Nat) (isRead mdio : Bool) (s : State) : State :=
  if !s.notServed addr then s
  else if s.flag PWR.CFG.host_wake then askWake 5 s
  else
    let s := pwrEvent 6 (s.addSat PWR.SLEEP_ACCESS.count 1)
    if !isRead then s
    else if mdio then s.emit (.mdioData 0 30 2 0xFFFF)
    else s.emit (.completerAbort addr)

/-! ### What is served when (R422, R434, R439, R442) -/

/-- How an access is met. -/
inductive Gate where
  /-- It is served. -/
  | served
  /-- Nothing answers, or the write is not accepted. -/
  | silent
  /-- The location is not implemented before management-ready. -/
  | absent
  /-- SLEEP or a shutdown test: held as a wake, or refused. -/
  | asleep
deriving DecidableEq, Repr

/-- Writes Safe hold accepts (R442). -/
def State.safeAccepts (s : State) (a : Nat) : Bool :=
  a == CHIP.RESET_CMD || (decide (0x1000000 ≤ a) && decide (a < 0x1800000)) ||
    (s.rd CHIP.RESET_CAUSE.safe_reason == 3 && (a == TST.MBOX_ADDR || a == TST.MBOX_LEN || a == TST.MBOX_CMD))

/-- The blocks served before management-ready (R434). -/
def servedEarly (a : Nat) : Bool :=
  match blockOf a with
  | some (.chip, _) => true
  | some (.tst, _) => true
  | some (.bist, _) => true
  | some (.pwr, _) => true
  | _ => false

/-- How an access to a BAR0 offset is met. -/
def State.gate (s : State) (a : Nat) (isRead : Bool) : Gate :=
  match s.boot.stage with
  | .unpowered => .silent
  | .held => .silent
  | .testing => if servedEarly a then .served else .absent
  | .booting => if servedEarly a then .served else .absent
  | .safe => if isRead || s.safeAccepts a then .served else .silent
  | .ready => if stDeep ≤ s.powerState then .silent else if s.notServed a then .asleep else .served

/-- A command that a host write to register `a` gives: it is carried out where the write is served. -/
def hostCommand (a : Nat) (f : State → State) (s : State) : State :=
  match s.gate a false with
  | .served => f s
  | .asleep => accessInSleep a false false s
  | .absent => busError .unimplemented a s
  | .silent => s

/-- Something that can only happen while the wheel turns: in RUN and IDLE (R409, R416). -/
def whileAwake (f : State → State) (s : State) : State := if s.clk.wheelOn then f s else s

end Sys2Proof.Machine
end

