-- ==== Sys2Proof/Machine/Loading.lean ====
section
/-! DEFINITION. Bit loading and rates of Reach mode (R150, R153, R157 to R160, R162). SNRs are in 0.01 dB. -/

namespace Sys2Proof.Machine

/-- Tone classes as TONE_WIN.class codes them: 0 data, 1 unused, 2 trip, 3 pilot. A tone is usable below the tone count of
REACH_CFG.tones32; the trip tones are 40 + 8j, the pilot is tone 296 (R150). -/
def toneClass (count i : Nat) : Nat :=
  if i < 32 || count ≤ i then 1
  else if i = 296 then 3
  else if 40 ≤ i && i ≤ 288 && i % 8 = 0 then 2
  else 0

/-- Ten times the logarithm of 2^b - 1, in 0.0001 dB, for b = 1 to 12 (R157, R160). -/
def qamDb (b : Nat) : Int :=
  [0, 0, 47712, 84510, 117609, 149136, 179934, 210380, 240654, 270842, 300988, 331112, 361225].getD b 0

/-- Bits a tone carries at an SNR with a margin target in 0.1 dB: the largest b up to 12 with 2^b at most 1 + SNR / gap
(R157). -/
def loadBits (snr : Int) (target : Nat) : Nat :=
  let x := (snr - 400 - 10 * (target : Int)) * 100
  ((List.range 12).filter (fun b => decide (qamDb (b + 1) ≤ x))).length

/-- A tone's margin in 0.0001 dB (R160). -/
def toneMargin (snr : Int) (b : Nat) : Int := (snr - 400) * 100 - qamDb b

/-- Coded bytes per symbol at line rate N (R153). -/
def codedBytes (n : Nat) : Nat := (n * 3120816 + 9999) / 10000

/-- Bits per symbol a line rate needs (R158). -/
def bitsNeeded (n : Nat) : Nat := 32 + 8 * codedBytes n

/-- The highest N of a host-lane speed (R158, R176). -/
def laneRateCap (rateMax : Nat) : Nat := if rateMax = 0 then 2 else if rateMax = 1 then 20 else 50

/-- Interleaver branch step of a depth code at a line rate (R155). -/
def interleaverStep (depthCode n : Nat) : Nat := ((2 ^ depthCode - 1) * codedBytes n + 253) / 254

/-- The loaded total of a loading. -/
def loadedTotal (tones : List (Nat × Tone)) : Nat := (tones.map (fun e => e.2.bits)).sum

/-- The key of a tone: 4096 times the pair plus the tone. -/
def toneKey (p i : Nat) : Nat := 4096 * p + i

/-- The loaded tone of smallest margin; among equals the lowest pair, then the lowest tone, which is the lowest key (R159). -/
def weakestTone (tones : List (Nat × Tone)) : Option (Nat × Int) :=
  tones.foldl (fun acc e =>
    match e.2.snr with
    | some q =>
      if e.2.bits = 0 then acc
      else
        let m := toneMargin q e.2.bits
        match acc with
        | some (_, best) => if m < best then some (e.1, m) else acc
        | none => some (e.1, m)
    | none => acc) none

/-- Change the bits of one tone of a loading. -/
def setBits (tones : List (Nat × Tone)) (key bits : Nat) : List (Nat × Tone) :=
  supd (fun _ => Tone.none) tones key (fun t => { t with bits := bits })

/-- Remove bits one at a time from the weakest tone until the total is the one needed (R159, R162). -/
def trimLoading : (surplus : Nat) → List (Nat × Tone) → List (Nat × Tone)
  | 0, l => l
  | k + 1, l =>
    match weakestTone l with
    | some (key, _) => trimLoading k (setBits l key ((sget (fun _ => Tone.none) l key).bits - 1))
    | none => l

/-- Load every measured data tone (R157). -/
def loadTones (target count : Nat) (snrs : List (Fin 4 × Fin 4096 × Int)) : List (Nat × Tone) :=
  snrs.foldl (fun acc e =>
    if toneClass count e.2.1.val = 0 then
      sput (fun _ => Tone.none) acc (toneKey e.1.val e.2.1.val) { bits := loadBits e.2.2 target, snr := some e.2.2 }
    else acc) []

/-- The highest line rate a loading and the limits allow, 0 for none (R158). -/
def bestRate (total limit : Nat) : Nat :=
  ((List.range (limit + 1)).filter (fun n => decide (1 ≤ n) && decide (bitsNeeded n ≤ total))).foldl max 0

/-- One above the highest loaded tone (R157). -/
def bandTop (tones : List (Nat × Tone)) : Nat :=
  tones.foldl (fun acc e => if 1 ≤ e.2.bits then max acc (e.1 % 4096 + 1) else acc) 0

/-- The line-rate limit of a port: both ends' caps and the host-lane speed (R158). -/
def State.reachLimit (s : State) (n : Nat) : Nat :=
  min (min (s.link n).reachCap (laneRateCap (s.pact n P.LINE_CFG.rate_max))) (s.pact n P.REACH_CFG.rate_cap)

/-- Take a loading into force: the tones, band top, loaded total and N (R157 to R159). -/
def applyLoading (n : Nat) (tones : List (Nat × Tone)) (rate : Nat) (s : State) : State :=
  (s.modRch n (fun r => { r with tones := tones })).wrs
    [(P.REACH_STATUS.band_top.port n, bandTop tones), (P.REACH_LOAD.loaded.port n, loadedTotal tones),
     (P.LINE_STATUS.reach_rate.port n, rate)]

/-- Load a port from measured SNRs and choose N; none where no N of at least 1 qualifies (R157 to R159). -/
def loadPort (n : Nat) (snrs : List (Fin 4 × Fin 4096 × Int)) (s : State) : Option State :=
  let tones := loadTones (s.pact n P.REACH_CFG.margin_target) (32 * s.pact n P.REACH_CFG.tones32) snrs
  let rate := bestRate (loadedTotal tones) (s.reachLimit n)
  if rate = 0 then none
  else some (applyLoading n (trimLoading (loadedTotal tones - bitsNeeded rate) tones) rate s)

/-- A port leaves Reach mode: status, loading and armed changes clear (R175, R176). -/
def clearReach (n : Nat) (s : State) : State :=
  let keep := s.rd (P.REACH_STATUS.swap_count.port n)
  let s := s.modRch n (fun r =>
    { r with tones := [], txTones := [], asked := none, armed := none, armedTx := none, rampShort := false, psdSteps := 0, groupMargin := [] })
  let s := s.setWord (portAddr n P.REACH_STATUS) 0
  (s.setWord (portAddr n P.REACH_LOAD) 0).wr (P.REACH_STATUS.swap_count.port n) keep

end Sys2Proof.Machine
end

