-- ==== Sys2Proof/Machine/NeighbourCancel.lean ====
section
/-! DEFINITION. The tap pool, its blocks and the bundle scan (spec/06_neighbour_cancellation.md, R169 to R171). -/

namespace Sys2Proof.Machine

/-! ### Descriptors (R133, R169) -/

def descValid (d : Word) : Bool := bitOf d 31
def descKind (d : Word) : Nat := bitsOf d 29 2
def descUse (d : Word) : Nat := bitsOf d 27 2
def descVictim (d : Word) : Nat := bitsOf d 20 7
def descAggressor (d : Word) : Nat := bitsOf d 13 7
def descOffset (d : Word) : Nat := bitsOf d 2 11

/-- The descriptor of a block in the active wheel. -/
def State.desc (s : State) (b : Nat) : Word := sget (fun _ => 0) s.pool.descs b

/-- The valid blocks of the active wheel. -/
def State.validBlocks (s : State) : List (Nat × Word) := s.pool.descs.filter (fun e => descValid e.2)

/-! ### When a block is applied (R134, R170) -/

/-- The conditions of R134 on a kind-0 block. -/
def State.pathOpen (s : State) (d : Word) : Bool :=
  let v := descVictim d / 4
  let a := descAggressor d / 4
  s.pact v P.LINE_CFG.nc_enable != 0 && s.inData v && s.inData a && s.portRate v != 7 && s.portRate v == s.portRate a &&
    s.flag (P.LINE_STATUS.master.port v) && s.flag (P.LINE_STATUS.master.port a)

/-- The use-1 block a use-0 block needs: victim and aggressor exchanged, the same tones (R170). -/
def State.reverseBlock (s : State) (d : Word) : Bool :=
  s.validBlocks.any (fun e => descKind e.2 == 1 && descUse e.2 == 1 && descVictim e.2 == descAggressor d &&
    descAggressor e.2 == descVictim d && descOffset e.2 == descOffset d)

/-- The conditions of R170 on a kind-1 block. -/
def State.vectorOpen (s : State) (d : Word) : Bool :=
  let v := descVictim d / 4
  let a := descAggressor d / 4
  s.pact v P.LINE_CFG.nc_enable != 0 && s.inData v && s.inData a && s.modeNow v == modeReach && s.modeNow a == modeReach &&
    s.flag (P.LINE_STATUS.master.port v) && s.flag (P.LINE_STATUS.master.port a) &&
    s.pact v P.REACH_CFG.vgroup != 0 && s.pact v P.REACH_CFG.vgroup == s.pact a P.REACH_CFG.vgroup &&
    (descUse d != 0 || s.reverseBlock d)

/-- A block is applied. -/
def State.applied (s : State) (d : Word) : Bool :=
  descValid d && (if descKind d = 0 then s.pathOpen d else s.vectorOpen d)

/-- An engine is retired and JSP does not stand in for it (R437). -/
def State.engineDead (s : State) (e : Nat) : Bool :=
  s.cal.retired.contains e && !(s.flag CAL.JSP_STATUS.permanent && s.rd CAL.JSP_STATUS.engine == e)

/-- A slot of the active wheel gives a block's job to an engine that is retired: the block is held (R437). -/
def State.deadBlock (s : State) (b : Nat) : Bool :=
  !s.cal.retired.isEmpty && (List.range 16).any (fun e => s.engineDead e && s.wheel.active.slots.any (fun r =>
    match s.wheel.active.jobs[r.engineJob.getD e 65535]? with
    | some j => (j.typ == 0 || j.typ == 2) && j.arg == b
    | none => false))

/-- The state of a block (R136): 0 unallocated, 1 applied and adapting, 2 applied and held, 3 held and not applied. -/
def State.blockTarget (s : State) (b : Nat) (d : Word) : Nat :=
  if !descValid d then 0
  else if !s.applied d then 3
  else if s.actFlag JUG.NC_CFG.freeze || s.fsm (descVictim d / 4) == fsmFretrain || s.pool.heldBlocks.contains b ||
      s.deadBlock b then 2
  else 1

/-- Clear the taps of a block. -/
def clearTaps (b : Nat) (s : State) : State :=
  { s with pool := { s.pool with taps := s.pool.taps.filter (fun e => decide (e.1 / 64 ≠ b)) } }

/-- Begin a block's acquisition at the present revolution (R138). -/
def startAcquisition (b : Nat) (s : State) : State :=
  { s with pool := { s.pool with acqFrom := sput (fun _ => 0) s.pool.acqFrom b s.clk.rev.toNat } }

/-- Bring one block to its state. A block that becomes applicable at another symbol rate than its taps were learned at is
cleared first (R135); one that enters state 1 from state 3, or is cleared, acquires anew (R138). -/
def refreshBlock (s : State) (e : Nat × Word) : State :=
  let b := e.1
  let old := s.rd (JUG.BLOCK_STATE.state.nth b)
  let new := s.blockTarget b e.2
  let live := new == 1 || new == 2
  let here := s.portRate (descVictim e.2 / 4)
  let learned := s.rd (JUG.BLOCK_STATE.rate.nth b)
  let s := if live && descKind e.2 == 0 && learned != 7 && learned != here then
      startAcquisition b ((clearTaps b s).wr (JUG.BLOCK_STATE.rate.nth b) 7)
    else s
  let s := if new == 1 && old == 3 then startAcquisition b s else s
  s.wr (JUG.BLOCK_STATE.state.nth b) new

/-- Blocks of a victim pair that are in state 1 or 2. -/
def State.liveBlocks (s : State) (p : Nat → Bool) : Nat :=
  (s.validBlocks.filter (fun e => p (descVictim e.2) &&
    (s.rd (JUG.BLOCK_STATE.state.nth e.1) == 1 || s.rd (JUG.BLOCK_STATE.state.nth e.1) == 2))).length

/-- The victim pairs of the pool, once each. -/
def State.victimPairs (s : State) : List Nat := (s.validBlocks.map (fun e => descVictim e.2)).eraseDups

/-- Bring every block, the counts of NC_PAIR and POOL_STATUS, nc_active and vg_state up to date (R134 to R136, R148, R170).
Called wherever a condition of R134 or R170 may have changed. -/
def refreshPool (s : State) : State :=
  if s.pool.descs.isEmpty then s
  else
    let s := s.pool.descs.foldl refreshBlock s
    let s := s.victimPairs.foldl (fun s v =>
      let alloc := (s.validBlocks.filter (fun e => descVictim e.2 == v)).length
      let live := s.liveBlocks (· == v)
      let s := s.wrs [(JUG.NC_PAIR.alloc.nth v, alloc), (JUG.NC_PAIR.live.nth v, live)]
      if live = 0 then s.wr (JUG.NC_PAIR.gain.nth v) 0 else s) s
    let s := s.wrs [(JUG.POOL_STATUS.allocated, s.validBlocks.length), (JUG.POOL_STATUS.live, s.liveBlocks (fun _ => true))]
    (s.victimPairs.map (· / 4)).eraseDups.foldl (fun s n =>
      let s := s.wr (P.LINE_STATUS.nc_active.port n) (bitNat (decide (0 < s.liveBlocks (fun v => v / 4 == n))))
      let vectored := s.validBlocks.filter (fun e => descKind e.2 == 1 && descVictim e.2 / 4 == n)
      let lacks := vectored.any (fun e => descUse e.2 == 0 && !s.reverseBlock e.2)
      if s.modeNow n == modeReach && s.inData n then
        s.wr (P.REACH_STATUS.vg_state.port n)
          (if lacks then 3 else if (s.rch n).rampShort then 1
           else if vectored.any (fun e => s.applied e.2) then 2 else 0)
      else s) s

/-- The blocks of a new active wheel (R139): a block matched by kind, victim, aggressor and offset keeps its taps,
upd_count, learned rate and acquisition; any other starts from zero. The pool has blocks 0 to 1,023. -/
def switchBlocks (new : List (Nat × Word)) (s : State) : State :=
  let old := s.pool.descs
  let new := new.filter (fun e => decide (e.1 < 1024))
  let same := fun (d e : Word) => descKind d == descKind e && descUse d == descUse e && descVictim d == descVictim e &&
    descAggressor d == descAggressor e && descOffset d == descOffset e
  let from? := fun (d : Word) => (old.find? (fun e => descValid e.2 && same d e.2)).map (·.1)
  let taps := new.foldl (fun acc e =>
    match from? e.2 with
    | some b0 => (List.range 64).foldl (fun acc t =>
        sput (fun _ => 0) acc (64 * e.1 + t) (sget (fun _ => 0) s.pool.taps (64 * b0 + t))) acc
    | none => acc) []
  let acq := new.foldl (fun acc e =>
    match from? e.2 with
    | some b0 => sput (fun _ => 0) acc e.1 (sget (fun _ => 0) s.pool.acqFrom b0)
    | none => sput (fun _ => 0) acc e.1 s.clk.rev.toNat) []
  let states := new.map (fun e => (e.1, match from? e.2 with
    | some b0 => s.word (JUG.BLOCK_STATE + 4 * b0)
    | none => 0xE000))
  let s := old.foldl (fun s e => s.setWord (JUG.BLOCK_STATE + 4 * e.1) 0xE000) s
  let s := states.foldl (fun s e => s.setWord (JUG.BLOCK_STATE + 4 * e.1) e.2) s
  let s := (List.range 128).foldl (fun s v =>
    if old.any (fun e => descVictim e.2 == v) then s.setWord (JUG.NC_PAIR + 4 * v) 0 else s) s
  let s := (List.range 32).foldl (fun s n => if s.flag (P.LINE_STATUS.nc_active.port n) then
    s.wr (P.LINE_STATUS.nc_active.port n) 0 else s) s
  let s := s.setWord JUG.POOL_STATUS 0
  refreshPool { s with pool := { s.pool with
    descs := new.filter (fun e => decide (e.2 ≠ 0)), taps := taps, acqFrom := acq, heldBlocks := [] } }

/-! ### Adaptation jobs (R137, R138, R171) -/

/-- The step exponent in force for a block (R138). -/
def State.blockExponent (s : State) (b : Nat) (d : Word) : Nat :=
  let v := descVictim d / 4
  if s.rd (P.LPI_STATUS.lpi_state.port v) == 3 then s.act JUG.NC_CFG.step_data + s.pact v P.ADAPT_CFG.refresh_add
  else if s.clk.rev.toNat < sget (fun _ => 0) s.pool.acqFrom b + s.act JUG.NC_CFG.acq_revs then s.act JUG.NC_CFG.step_acq
  else s.act JUG.NC_CFG.step_data

/-- A tap of a block. -/
def State.tap (s : State) (b t : Nat) : BitVec 18 := sget (fun _ => 0) s.pool.taps (64 * b + t)

/-- Write a tap. -/
def State.setTap (s : State) (b t : Nat) (v : BitVec 18) : State :=
  { s with pool := { s.pool with taps := sput (fun _ => 0) s.pool.taps (64 * b + t) v } }

/-- The correlation of tap t over the 256 symbols of the capture (R137): `symbols` at k is the aggressor's symbol
x(k - 63 - offset). -/
def correlation (errors symbols : List Int) (t : Nat) : Int :=
  ((List.range 256).map (fun i => errors.getD i 0 * symbols.getD (i + 63 - t) 0)).sum

/-- The Juggler engines run jobs: not in a switch revolution, nor in the revolutions after a firmware switch (R329, R447). -/
def State.enginesRun (s : State) : Bool := !s.wheel.switchRev && s.fw.frozen == 0

/-- A job updates a block only in state 1, and not where either line was quiet in the capture (R138). -/
def State.jobRuns (s : State) (b : Nat) (quiet : Bool) : Bool :=
  s.enginesRun && s.rd (JUG.BLOCK_STATE.state.nth b) == 1 && !quiet

/-- One update done: upd_count advances, and the taps are of the victim's present symbol rate (R137, R135). -/
def blockUpdated (b : Nat) (s : State) : State :=
  let s := s.addWrap (JUG.BLOCK_STATE.upd_count.nth b) 1
  if descKind (s.desc b) = 0 then s.wr (JUG.BLOCK_STATE.rate.nth b) (s.portRate (descVictim (s.desc b) / 4)) else s

/-- NC_LMS (R137): all 64 taps take their step at once. -/
def execNcLms (b : Fin 1024) (errors symbols : List Int) (quiet : Bool) (s : State) : Host.Outcome State Fault Refusal :=
  .next <|
    if s.jobRuns b quiet && descKind (s.desc b) == 0 then
      let k := s.blockExponent b (s.desc b)
      let s := (List.range 64).foldl (fun s t =>
        let r := fit18 ((s.tap b t).toInt + correlation errors symbols t / 2 ^ k) s
        r.2.setTap b t r.1) s
      blockUpdated b s
    else s

/-- REACH_VEC (R171): the coefficients the engine derives for a kind-1 block are written whole. -/
def execReachVec (b : Fin 1024) (taps : List (Fin 64 × BitVec 18)) (quiet : Bool) (s : State) :
    Host.Outcome State Fault Refusal :=
  .next <|
    if s.jobRuns b quiet && descKind (s.desc b) == 1 then
      blockUpdated b (taps.foldl (fun s e => s.setTap b e.1 e.2) s)
    else s

/-! ### The bundle scan (R140 to R143) -/

/-- The address of JUG.MAP[v][a]'s low word. -/
def mapAddr (v a : Nat) : Nat := JUG.MAP_LO + 8 * (128 * v + a)

/-- A map entry's two words without its revolution (R142). -/
def mapWords (status loss peak blocks99 nr rate : Nat) : Word × Word :=
  (BitVec.ofNat 32 (nr % 64 * 2 ^ 26 + rate * 2 ^ 16),
   BitVec.ofNat 32 (status * 2 ^ 30 + loss * 2 ^ 20 + peak * 2 ^ 9 + blocks99 * 2 ^ 4 + nr / 64))

/-- The 128 entries of a victim pair that was not measured: status 2, and 3 on its own port. -/
def unmeasured (v : Nat) : List (Nat × Word) :=
  (List.range 128).flatMap (fun a =>
    let w := mapWords (if a / 4 = v / 4 then 3 else 2) 0x3FF 0 0 0x3FF 7
    [(mapAddr v a, w.1), (mapAddr v a + 4, w.2)])

/-- The 128 entries of a measured victim pair (R142): aggressors the scan found, else silent or at another rate. -/
def measured (v rate : Nat) (found : List Coupling) : List (Nat × Word) :=
  (List.range 128).flatMap (fun a =>
    let w := if a / 4 = v / 4 then mapWords 3 0x3FF 0 0 0x3FF 7
      else match found.find? (fun c => c.aggressor.val == a) with
        | some c => mapWords 0 c.loss.toNat c.peak.toNat c.blocks99.toNat c.nr.toNat rate
        | none => mapWords 1 0x3FF 0 0 0x3FF rate
    [(mapAddr v a, w.1), (mapAddr v a + 4, w.2)])

/-- The entries that wait replace their groups, with the revolution they are written at (R142). -/
def writeMap (s : State) : State :=
  let rev := s.clk.rev.toNat % 65536
  let s := s.pool.mapReady.foldl (fun s e =>
    s.setWord e.1 (if e.1 % 8 = 0 then withBits e.2 0 16 rev else e.2)) s
  { s with pool := { s.pool with mapReady := [] } }

/-- The reply of a DIAG_RUN scan: the entries of the port's four victim pairs as they stand (R238). -/
def scanReply (n : Nat) (r : DueReply) (s : State) : State :=
  let data := (List.range 4).flatMap (fun p => (List.range 128).flatMap (fun a =>
    wordBytes (s.word (mapAddr (4 * n + p) a + 4)) ++ wordBytes (s.word (mapAddr (4 * n + p) a))))
  sendReply r 0 data s

/-- The victim pairs of a set of ports, ascending. -/
def victimsOf (ports : Word) : List Nat := (List.range 128).filter (fun v => bitOf ports (v / 4))

/-- A victim pair the scan can measure: its port in DATA at an LDPC rate (R142). -/
def State.scannable (s : State) (v : Nat) : Bool := s.fsm (v / 4) == fsmData && ldpcRate (s.modeNow (v / 4)) (s.rateNow (v / 4))

/-- A victim pair is done: its entries wait for the boundary, and the last of a port raises event 6n + 3 (R142). -/
def victimDone (v : Nat) (entries : List (Nat × Word)) (rest : List Nat) (s : State) : State :=
  let s := { s with pool := { s.pool with mapReady := s.pool.mapReady ++ entries, victims := rest } }
  let s := s.wr JUG.SCAN_STATUS.pairs_done (s.rd JUG.SCAN_STATUS.pairs_done + 1)
  if rest.any (fun w => w / 4 == v / 4) then s else diagEvent (v / 4) 6 s

/-- Skip the victim pairs at the head that are not in DATA at an LDPC rate (R142). -/
def skipVictims : (fuel : Nat) → State → State
  | 0, s => s
  | k + 1, s =>
    match s.pool.victims with
    | [] => s
    | v :: rest => if s.scannable v then s else skipVictims k (victimDone v (unmeasured v) rest s)

/-- The active wheel names no task for the diagnostic engine in any slot. -/
def State.noDiagSlots (s : State) : Bool := s.wheel.active.slots.all (fun r => r.unitTask.getD 0 255 == 255)

/-- SCAN_STATUS.no_slots (R141): a scan waits while the wheel gives the diagnostic engine no slot. -/
def judgeScan (s : State) : State := s.wr JUG.SCAN_STATUS.no_slots (bitNat (s.pool.scan.isSome && s.noDiagSlots))

/-- A scan begins and shows its first pair (R140, R141, R148). -/
def beginScan (r : ScanReq) (s : State) : State :=
  let s := { s with pool := { s.pool with scan := some r, victims := victimsOf r.ports } }
  let s := skipVictims 128 (judgeScan (s.wrs [(JUG.SCAN_STATUS.running, 1), (JUG.SCAN_STATUS.pairs_done, 0)]))
  s.wr JUG.SCAN_STATUS.victim_now (s.pool.victims.headD 0)

/-- The scan in progress ends: a DIAG_RUN scan's reply is sent, a waiting DIAG_RUN scan starts before a queued host scan
(R142, R143). -/
def endScan : (fuel : Nat) → State → State
  | 0, s => s
  | k + 1, s =>
    match s.pool.scan with
    | none => s
    | some r =>
      let key := wcKey JUG.SCAN_CMD 0
      let s := { s with pool := { s.pool with scan := none, victims := [] } }
      let s := judgeScan (s.wr JUG.SCAN_STATUS.running 0)
      let s := match r.reply with
        | some d => scanReply ((victimsOf r.ports).headD 0 / 4) d (writeMap s)
        | none => s.setWc key (s.wcLevel key - 1)
      match s.pool.diagWaiting with
      | some d =>
        let s := beginScan d { s with pool := { s.pool with diagWaiting := none } }
        if s.pool.victims.isEmpty then endScan k s else s
      | none =>
        if 0 < s.wcLevel key then
          let s := beginScan { ports := s.word (JUG.SCAN_PORTS + 0x8000), reply := none } s
          if s.pool.victims.isEmpty then endScan k s else s
        else s

/-- Start a scan; one with no pair to measure ends at once (R142, R143). -/
def runScan (r : ScanReq) (s : State) : State :=
  let s := beginScan r s
  if s.pool.victims.isEmpty then endScan 4 s else s

/-- 1 written to SCAN_CMD.start: runs, queues, or is flagged QUEUE_FULL (R41, R140, R143). -/
def scanStart (s : State) : State :=
  let key := wcKey JUG.SCAN_CMD 0
  let hostRuns := match s.pool.scan with
    | some r => r.reply.isNone
    | none => false
  match s.pool.scan.isSome, hostRuns, s.wcLevel key with
  | false, _, _ => runScan { ports := s.word (JUG.SCAN_PORTS + 0x8000), reply := none } (s.setWc key 1)
  | true, true, 1 => s.setWc key 2
  | true, false, 0 => s.setWc key 1
  | _, _, _ => ignored .queueFull JUG.SCAN_CMD s

/-- 1 written to SCAN_CMD.stop: the pair in progress is abandoned, its entries unchanged (R142). -/
def scanStop (s : State) : State := endScan 4 s

/-- A scan a DIAG_RUN command asks for; false where one already waits (R143). -/
def diagScan (n : Nat) (reply : DueReply) (s : State) : Option State :=
  let r : ScanReq := { ports := BitVec.ofNat 32 (2 ^ n), reply := some reply }
  if s.pool.scan.isNone then some (runScan r s)
  else if s.pool.diagWaiting.isNone then some { s with pool := { s.pool with diagWaiting := some r } }
  else none

/-- SCAN_START (R140). -/
def execScanStart (s : State) : Host.Outcome State Fault Refusal := .next (hostCommand JUG.SCAN_CMD scanStart s)

/-- SCAN_STOP (R142). -/
def execScanStop (s : State) : Host.Outcome State Fault Refusal := .next (hostCommand JUG.SCAN_CMD scanStop s)

/-- SCAN_PAIR_COMPLETE (R142): the pair in progress is done with the couplings found; without slots the scan waits (R141). -/
def execScanPairComplete (v : Fin 128) (found : List Coupling) (s : State) : Host.Outcome State Fault Refusal :=
  .next <|
    match s.pool.victims with
    | [] => s
    | w :: rest =>
      if w = v.val && !s.flag JUG.SCAN_STATUS.no_slots then
        let s := skipVictims 128 (victimDone w (measured w (s.portRate (w / 4)) found) rest s)
        if s.pool.victims.isEmpty then endScan 4 s
        else s.wr JUG.SCAN_STATUS.victim_now (s.pool.victims.headD 0)
      else s

/-- A JUG bank becomes active (R148): step_data is never below step_acq. -/
def jugChecks (s : State) : State := agree JUG.NC_CFG.step_data (max (s.act JUG.NC_CFG.step_data) (s.act JUG.NC_CFG.step_acq)) s

end Sys2Proof.Machine
end

