-- ==== Sys2Proof/Machine/Trip.lean ====
section
/-! DEFINITION. The trip path: slots, heartbeats, codes, launches, acceptance, pins (spec/05_peer_mode_and_trip.md). -/

namespace Sys2Proof.Machine

/-! ### Figures of the frame (R105) -/

/-- Frame period, watchdog and slot-start-to-pin latency in ns of a Peer rate, and of Reach (R105, R111, R128). -/
def framePeriod (mode rate : Nat) : Nat :=
  match mode, rate with
  | 1, 4 => 320
  | 1, 3 => 640
  | 1, 2 => 1280
  | _, _ => 46080
def watchdogTime (mode rate : Nat) : Nat := 2 * framePeriod mode rate
def slotToPin (mode rate : Nat) : Nat :=
  match mode, rate with
  | 1, 4 => 40
  | 1, 3 => 62
  | 1, 2 => 105
  | _, _ => 52000

/-! ### The check value (R109) -/

/-- One step of the LFSR. -/
def lfsrStep (w : BitVec 16) : BitVec 16 :=
  let fb := (w ^^^ (w >>> 2) ^^^ (w >>> 3) ^^^ (w >>> 5)) &&& 1
  (w >>> 1) ||| (fb <<< 15)

/-- The steps of one frame. -/
def lfsrFrame (w : BitVec 16) : BitVec 16 := (List.range 16).foldl (fun x _ => lfsrStep x) w

/-! ### Codes (R113) -/

/-- Trip code k of a direction: the first 64 bits of SHA3-512 over key, domain string and k. -/
def tripCode (key : BitVec 256) (fromInitiator : Bool) (k : Nat) : BitVec 64 :=
  let domain := if fromInitiator then "SIRCOR-TRIP-I2R" else "SIRCOR-TRIP-R2I"
  BitVec.ofNat 64 ((Config.sha3_512 (bytesBE 32 key.toNat ++ ascii domain ++ bytesBE 8 k)).toNat / 2 ^ 448)

/-- The low five bits of a session's identifier (R108). -/
def Sess.tag (x : Sess) : Nat := x.id % 32

/-- Compute the next transmit code, up to 8 ahead (R120). -/
def Sess.refillTx (x : Sess) : Sess :=
  if x.txCodes.length < 8 then
    { x with txCodes := x.txCodes ++ [tripCode x.key x.initiator (x.txK + x.txCodes.length)] }
  else x

/-- Compute the next window entry, up to the window's size (R121). -/
def Sess.refillWindow (size : Nat) (x : Sess) : Sess :=
  if x.window.length < size then
    { x with window := x.window ++ [tripCode x.key (!x.initiator) (x.rxBase + x.window.length)] }
  else x

/-- Take the next transmit code; no index repeats (R113, R118). -/
def Sess.takeTx (x : Sess) : BitVec 64 × Sess :=
  (x.txCodes.headD (tripCode x.key x.initiator x.txK), { x with txK := x.txK + 1, txCodes := x.txCodes.tail })

/-- The base moves past an accepted entry (R121). -/
def Sess.acceptAt (x : Sess) (i : Nat) : Sess := { x with rxBase := x.rxBase + i + 1, window := x.window.drop (i + 1) }

/-! ### A port's session -/

/-- The session this side sends under, and the one it judges slots by. -/
def TripPort.txSess (t : TripPort) : Option Sess := if t.txSwitched then t.next else t.sess
def TripPort.rxSess (t : TripPort) : Option Sess := if t.rxSwitched then t.next else t.sess

/-- Replace the session this side sends under. -/
def TripPort.setTx (t : TripPort) (x : Sess) : TripPort :=
  if t.txSwitched then { t with next := some x } else { t with sess := some x }

/-- The session in force is ARMED, for R110 to R122 (R373). -/
def TripPort.armed (t : TripPort) : Bool := (t.sess.isSome || t.rxSwitched) && !t.suspended

/-- PORT_STATUS.session (R114). -/
def TripPort.code (t : TripPort) : Nat :=
  if t.establishing then 1 else match t.sess with
    | none => 0
    | some _ => if t.suspended then 3 else 2

/-- The active acceptance window of a port (R121). -/
def State.windowSize (s : State) (n : Nat) : Nat := s.act (TRIP.PORT_CFG.window.nth n)

/-- Bring PORT_STATUS, TX_K and RX_BASE in line with the port's session. -/
def syncTrip (n : Nat) (s : State) : State :=
  let t := s.trip n
  let ready := fun (x : Option Sess) (f : Sess → Nat) => match x with
    | some x => f x
    | none => 0
  let s := s.wrs [(TRIP.PORT_STATUS.session.nth n, t.code),
    (TRIP.PORT_STATUS.tx_ready.nth n, ready t.txSess (·.txCodes.length)),
    (TRIP.PORT_STATUS.win_ready.nth n, ready t.rxSess (·.window.length))]
  let s := s.setPair (TRIP.TX_K + 16 * n) (TRIP.TX_K_HI + 16 * n) (ready t.txSess (·.txK))
  s.setPair (TRIP.RX_BASE + 16 * n) (TRIP.RX_BASE_HI + 16 * n) (ready t.rxSess (·.rxBase))

/-- Change a port's trip state; a change of the session state sets PORT_CAUSE.session and raises event 6n + 2 (R130). -/
def changeTrip (n : Nat) (f : TripPort → TripPort) (s : State) : State :=
  let before := (s.trip n).code
  let s := syncTrip n (s.modTrip n f)
  if (s.trip n).code = before then s else tripEvent n 5 s

/-! ### Outputs (R124) -/

/-- Whether an output's hold runs. -/
def State.outHeld (s : State) (j : Nat) : Bool := decide (sget (fun _ => 0) s.pins.hold j ≠ 0)

/-- A port whose lost heartbeat asserts outputs with hb_action (R124). -/
def State.hbAsserts (s : State) (n : Nat) : Bool :=
  s.flag (TRIP.PORT_STATUS.hb_lost.nth n) && ((s.trip n).sess.isSome || (s.trip n).rxSwitched)

/-- Whether TRIP_OUT[j] is asserted (R124, R410, R442). -/
def State.outAsserted (s : State) (j : Nat) : Bool :=
  s.actFlag (TRIP.OUT_CFG.enable.nth j) && s.awake && !s.safeHold &&
    (s.outHeld j || bitOf (s.word TRIP.OUT_STATUS) (8 + j) ||
      (s.actFlag (TRIP.OUT_CFG.hb_action.nth j) &&
        (List.range 32).any (fun n => bitOf (s.word (TRIP.OUT_MAP + 4 * j + 0x8000)) n && s.hbAsserts n)))

/-- Whether TRIP_OUT[j] is driven low: asserted with polarity 0, not asserted with polarity 1; released while disabled. -/
def State.outLow (s : State) (j : Nat) : Bool :=
  s.actFlag (TRIP.OUT_CFG.enable.nth j) && s.awake && !s.safeHold &&
    (s.outAsserted j != s.actFlag (TRIP.OUT_CFG.polarity.nth j))

/-- Bring OUT_STATUS.asserted up to date and report the pins that change, given the levels before. -/
def refreshOuts (before : List Bool) (s : State) : State :=
  let now := (List.range 8).map (fun j => s.outAsserted j)
  let s := s.wr TRIP.OUT_STATUS.asserted ((now.zipIdx.map (fun e => bitNat e.1 * 2 ^ e.2)).sum)
  s.emits ((List.range 8).filterMap (fun j =>
    if before.getD j false = s.outLow j then none else some (.tripOut j (s.outLow j))))

/-- The outputs driven low. -/
def State.outLows (s : State) : List Bool := (List.range 8).map (fun j => s.outLow j)

/-- Do something and let the outputs follow. -/
def withOuts (f : State → State) (s : State) : State := refreshOuts s.outLows (f s)

/-- An acceptance on a port starts the holds and sets the latches of its enabled outputs (R124). -/
def driveOuts (n : Nat) (s : State) : State :=
  withOuts (fun s => (List.range 8).foldl (fun s j =>
    if bitOf (s.word (TRIP.OUT_MAP + 4 * j + 0x8000)) n && s.actFlag (TRIP.OUT_CFG.enable.nth j) then
      let s := { s with pins := { s.pins with
        hold := sput (fun _ => 0) s.pins.hold j (s.now + s.act (TRIP.OUT_CFG.hold_ms.nth j) * 1000000) } }
      if s.actFlag (TRIP.OUT_CFG.latch.nth j) then s.orWord TRIP.OUT_STATUS (BitVec.ofNat 32 (2 ^ (8 + j))) else s
    else s) s) s

/-- hb_lost set without a cause or an event: the port is not in Peer or Reach data mode (R112). -/
def hbSilent (n : Nat) (s : State) : State := withOuts (fun s => s.wr (TRIP.PORT_STATUS.hb_lost.nth n) 1) s

/-! ### Launches (R117 to R120) -/

/-- TRIP_IN[i] is asserted, by the polarity in force (R123). -/
def State.inAsserted (s : State) (i : Nat) : Bool :=
  s.actFlag (TRIP.IN_CFG.enable.nth i) && (s.pins.level.getLsbD i == s.actFlag (TRIP.IN_CFG.polarity.nth i))

/-- Some trip source of a port is asserted (R118). -/
def State.tripActive (s : State) (n : Nat) : Bool :=
  (List.range 8).any (fun i => s.inAsserted i && bitOf (s.word (TRIP.IN_MAP + 4 * i + 0x8000)) n)

/-- A Sideshow trip message (R216): class 3, link-local, carrying the next transmit code, which is used up, or zeros where
the session is NONE or ESTABLISHING. -/
def sendSsTrip (n : Nat) (s : State) : State :=
  let t := s.trip n
  match t.txSess with
  | some x =>
    let c := x.takeTx
    sendMessage { mtype := 4, cls := 3, dest := 0, port := some n, body := bytesBE 8 c.1.toNat }
      (syncTrip n (s.setTrip n (t.setTx c.2)))
  | none => sendMessage { mtype := 4, cls := 3, dest := 0, port := some n, body := bytesBE 8 0 } s

/-- The fallback of R119, or the drop of the request. -/
def fallback (n : Nat) (s : State) : State :=
  if s.actFlag (TRIP.PORT_CFG.ss_fallback.nth n) then sendSsTrip n s else s.wr (TRIP.PORT_STATUS.tx_dropped.nth n) 1

/-- Start a burst with the codes that are ready, up to repeat; with none ready it waits for the first (R118, R120). -/
def startBurst (n : Nat) (s : State) : State :=
  let t := s.trip n
  let ready := match t.txSess with
    | some x => x.txCodes.length
    | none => 0
  let want := s.act (TRIP.PORT_CFG.repeat.nth n)
  let s := if ready < want then s.wr (TRIP.PORT_STATUS.tx_starved.nth n) 1 else s
  s.setTrip n { t with burst := min ready want, waiting := decide (ready = 0) }

/-- A launch request on a port (R118, R119). -/
def launch (n : Nat) (s : State) : State :=
  let t := s.trip n
  if t.armed then
    if s.fsm n == fsmFretrain then
      let s := s.setTrip n { t with waiting := true }
      if s.actFlag (TRIP.PORT_CFG.ss_fallback.nth n) then sendSsTrip n s else s
    else if t.burst ≠ 0 || t.waiting then s
    else startBurst n s
  else fallback n s

/-- A launch request on every port of a mask. -/
def launchAll (ports : Word) (s : State) : State :=
  (List.range 32).foldl (fun s n => if bitOf ports n then launch n s else s) s

/-- Requests of asserted TRIP_IN sources with keepalive, one per port and revolution (R118). -/
def keepalive (s : State) : State :=
  let mask := (List.range 8).foldl (fun (m : Word) i =>
    if s.inAsserted i && s.actFlag (TRIP.IN_CFG.keepalive.nth i) then m ||| s.word (TRIP.IN_MAP + 4 * i + 0x8000) else m) 0
  launchAll mask s

/-! ### Sending slots (R107 to R109) -/

/-- The heartbeat word (R108). -/
def State.heartbeat (s : State) (n : Nat) : BitVec 64 :=
  let t := s.trip n
  let tag := match t.txSess with
    | some x => x.tag
    | none => 0
  let status := bitNat t.txSess.isSome * 128 + bitNat (s.flag (TRIP.PORT_STATUS.lockout.nth n)) * 64 +
    bitNat (s.tripActive n) * 32 + tag
  BitVec.ofNat 64 (t.txSeq.toNat * 2 ^ 48 + t.txCheck.toNat * 2 ^ 32 + status * 2 ^ 24 + (255 - status) * 2 ^ 16 +
    (~~~ t.txCheck).toNat)

/-- Frames flow: in data mode, and in training from phase 5 (Peer) or 6 (Reach) on (R109, R112). -/
def State.framesFlow (s : State) (n : Nat) : Bool :=
  (s.fsm n == fsmData && (s.modeNow n == modePeer || s.modeNow n == modeReach)) ||
    (s.fsm n == fsmTrain &&
      (((s.link n).mode == modePeer && decide (5 ≤ (s.link n).phase)) ||
        ((s.link n).mode == modeReach && decide (6 ≤ (s.link n).phase))))

/-- A frame has been sent: seq and the LFSR advance (R108, R109). -/
def TripPort.sent (t : TripPort) : TripPort := { t with txSeq := t.txSeq + 1, txCheck := lfsrFrame t.txCheck }

/-- Send one slot: a code of a burst, or the heartbeat. The first slot under a new session is a heartbeat (R373). -/
def sendSlot (n : Nat) (s : State) : State :=
  if !s.framesFlow n then s
  else
    let s := if (s.trip n).waiting && (s.trip n).armed && s.fsm n == fsmData && !(s.trip n).tagDue then startBurst n s else s
    let t := s.trip n
    match t.txSess, decide (t.burst ≠ 0) && t.armed && s.fsm n == fsmData && !t.tagDue with
    | some x, true =>
      let c := x.takeTx
      let s := s.setTrip n ({ t with burst := t.burst - 1 }.setTx c.2).sent
      syncTrip n (s.emit (.tripSlot n c.1))
    | _, _ =>
      let s := s.emit (.tripSlot n (s.heartbeat n))
      s.setTrip n { t.sent with tagDue := false }

/-! ### Judging slots (R110 to R115, R121, R122) -/

/-- Bits that differ. -/
def hamming {w : Nat} (x y : BitVec w) : Nat := ((List.range w).filter (fun i => (x ^^^ y).getLsbD i)).length

/-- Distance of a word from the expected heartbeat over seq, check and check_n (R110). -/
def slotDistance (w : BitVec 64) (seq check : BitVec 16) : Nat :=
  hamming (w.extractLsb' 48 16) seq + hamming (w.extractLsb' 32 16) check + hamming (w.extractLsb' 0 16) (~~~ check)

/-- A ready window entry equal to a word. -/
def Sess.find (x : Sess) (w : BitVec 64) : Option Nat := x.window.findIdx? (· == w)

/-- The end of a session (R116). -/
def auditSession (n reason : Nat) (s : State) : State := audit 11 reason n 0 s

/-- The changeover completes when both sides have switched: the old session ends with end_reason 2, the new one reads ARMED
and event 213 is raised (R373). A new session ends a lockout and a mismatch (R115, R122). -/
def completeChangeover (n : Nat) (s : State) : State :=
  let t := s.trip n
  if t.txSwitched && t.rxSwitched then
    let replaced := t.sess.isSome
    let s := if replaced then auditSession n 2 (s.wr (TRIP.PORT_STATUS.end_reason.nth n) 2) else s
    let s := changeTrip n (fun t =>
      { t with sess := t.next, next := none, txSwitched := false, rxSwitched := false, suspended := false,
               establishing := false, wrong := [] }) s
    let s := s.wrs [(TRIP.PORT_STATUS.lockout.nth n, 0), (TRIP.PORT_STATUS.tag_mismatch.nth n, 0),
      (TST.SES_STATUS.step.nth n, 0), (TST.SES_STATUS.old_live.nth n, 0), (TST.SES_STATUS.tag_new.nth n, 0)]
    tstEvent 5 (auditSession n 0 s)
  else s

/-- A good slot: it counts toward the run of 16 that clears hb_lost in data mode (R111, R112). -/
def goodSlot (n : Nat) (s : State) : State :=
  let s := s.modTrip n (fun t => { t with goodRun := t.goodRun + 1 })
  if s.flag (TRIP.PORT_STATUS.hb_lost.nth n) && decide (16 ≤ (s.trip n).goodRun) && s.fsm n == fsmData then
    noteTrip n 2 (tripEvent n 2 (withOuts (fun s => s.wr (TRIP.PORT_STATUS.hb_lost.nth n) 0) s))
  else s

/-- What an accepted code does (R121, R124, R126): outputs and relays. -/
def acceptEffects (n : Nat) (s : State) : State :=
  launchAll (s.word (TRIP.RELAY_MAP + 4 * n + 0x8000)) (driveOuts n s)

/-- Take the receive side's session to the new one (R373). -/
def switchRx (n : Nat) (s : State) : State := s.modTrip n (fun t => { t with rxSwitched := true })

/-- Find a word in the windows judged: that of the session in force and, once the new key is held, the new one (R373). The
first component says it lies in the new window. -/
def TripPort.match? (t : TripPort) (w : BitVec 64) : Option (Bool × Nat) :=
  match (if t.rxSwitched then none else t.sess.bind (·.find w)) with
  | some i => some (false, i)
  | none => match t.next.bind (·.find w) with
    | some i => some (true, i)
    | none => none

/-- Move the base of the window a code was found in. -/
def TripPort.advance (t : TripPort) (isNew : Bool) (i : Nat) : TripPort :=
  if isNew then { t with next := t.next.map (·.acceptAt i) } else { t with sess := t.sess.map (·.acceptAt i) }

/-- A wrong code: counted, and toward lockout only while the window is full of ready entries (R121, R122). -/
def wrongCode (n : Nat) (s : State) : State :=
  let s := s.addSat (TRIP.PORT_CNT_WRONG.count.nth n) 1
  let full := s.rd (TRIP.PORT_STATUS.win_ready.nth n) ≥ s.windowSize n
  if !full then s
  else
    let now := s.now
    let recent := (s.trip n).wrong.filter (fun t => decide (now - t < 1000000000)) ++ [now]
    let s := s.modTrip n (fun t => { t with wrong := recent })
    if 8 ≤ recent.length && !s.flag (TRIP.PORT_STATUS.lockout.nth n) then
      noteTrip n 3 (causeAlarm (TRIP.PORT_CAUSE + 4 * n) 3 (6 * n + 2) (s.wr (TRIP.PORT_STATUS.lockout.nth n) 1))
    else s

/-- A damaged slot (R110). -/
def damagedSlot (n : Nat) (s : State) : State :=
  (s.addPair (TRIP.PORT_CNT_HBMISS + 16 * n) (TRIP.PORT_CNT_HBMISS_HI + 16 * n) 1).modTrip n (fun t => { t with goodRun := 0 })

/-- The status bits of a good heartbeat, where status_n is their complement: the partner's lockout, the resumption or the
mismatch of a SUSPENDED session, and the new tag of a changeover (R110, R115, R373). -/
def takeStatus (n : Nat) (w : BitVec 64) (s : State) : State :=
  let status := w.extractLsb' 24 8
  if w.extractLsb' 16 8 ≠ ~~~ status then s
  else
    let s := s.wr (TRIP.PORT_STATUS.partner_lockout.nth n) (bitNat (status.getLsbD 6))
    let t := s.trip n
    let tag := status.toNat % 32
    let isNew := match t.next with
      | some x => status.getLsbD 7 && x.tag == tag
      | none => false
    if isNew && !t.rxSwitched then completeChangeover n (switchRx n s)
    else if t.suspended && t.sess.isSome && s.tripData n then
      let mine := match t.sess with
        | some x => x.tag == tag && status.getLsbD 7
        | none => false
      if mine then
        (changeTrip n (fun t => { t with suspended := false }) s).wr (TRIP.PORT_STATUS.tag_mismatch.nth n) 0
      else if s.flag (TRIP.PORT_STATUS.tag_mismatch.nth n) then s
      else tripEvent n 4 (s.wr (TRIP.PORT_STATUS.tag_mismatch.nth n) 1)
    else s

/-- Judge a received slot (R110). -/
def judgeSlot (n : Nat) (w : BitVec 64) (s : State) : State :=
  if !s.framesFlow n then s
  else
    let t := s.trip n
    let seq := if t.rxLocked then t.rxSeq else w.extractLsb' 48 16
    let check := if t.rxLocked then t.rxCheck else w.extractLsb' 32 16
    let d := slotDistance w seq check
    let s := s.setTrip n { t with rxLocked := true, rxSeq := seq + 1, rxCheck := lfsrFrame check }
    let open_ := t.armed || (t.next.isSome && !t.suspended)
    match (if open_ && !s.flag (TRIP.PORT_STATUS.lockout.nth n) && s.fsm n == fsmData then t.match? w else none) with
    | some (isNew, i) =>
      let s := s.modTrip n (fun t => t.advance isNew i)
      let s := syncTrip n s
      let s := s.addSat (TRIP.PORT_CNT_ACC.count.nth n) 1
      let s := acceptEffects n (noteTrip n 0 (tripEvent n 0 s))
      let s := if isNew then completeChangeover n (switchRx n s) else s
      goodSlot n s
    | none =>
      if d ≤ 3 then goodSlot n (takeStatus n w s)
      else if d ≤ 15 then damagedSlot n s
      else if t.armed then (wrongCode n s).modTrip n (fun t => { t with goodRun := 0 })
      else damagedSlot n s

/-- The session of a port whose link goes down, that is restarted, switched off or put in bus mode (R115). -/
def suspendSession (n : Nat) (s : State) : State :=
  let s := s.modTrip n (fun t => { t with burst := 0, waiting := false, goodRun := 0, rxLocked := false })
  if (s.trip n).sess.isSome && !(s.trip n).suspended then changeTrip n (fun t => { t with suspended := true }) s else s

/-- A port leaves Peer or Reach data mode: hb_lost is set (R112). -/
def leaveTripData (n : Nat) (s : State) : State := hbSilent n (suspendSession n s)

/-- The end of a session (R116). -/
def endSession (n reason : Nat) (s : State) : State :=
  if (s.trip n).sess.isSome then
    let s := s.wr (TRIP.PORT_STATUS.end_reason.nth n) reason
    let s := s.wr (TRIP.PORT_STATUS.tag_mismatch.nth n) 0
    auditSession n reason (withOuts (changeTrip n (fun t =>
      { t with sess := none, suspended := false, burst := 0, waiting := false, wrong := [] })) s)
  else s

/-! ### The commands -/

/-- TRIP_SLOT_RECEIVED (R110). -/
def execTripSlotReceived (n : Fin 32) (word : BitVec 64) (s : State) : Host.Outcome State Fault Refusal :=
  .next (judgeSlot n word s)

/-- HEARTBEAT_WATCHDOG (R111): in data mode, hb_lost is set with its cause and event; the link stays up. -/
def execHeartbeatWatchdog (n : Fin 32) (s : State) : Host.Outcome State Fault Refusal :=
  .next <|
    let s := s.modTrip n (fun t => { t with goodRun := 0 })
    if s.tripData n && !s.flag (TRIP.PORT_STATUS.hb_lost.nth n) then
      noteTrip n 1 (tripEvent n 1 (withOuts (fun s => s.wr (TRIP.PORT_STATUS.hb_lost.nth n) 1) s))
    else s

/-- TRIP_SLOT_SEND (R108). -/
def execTripSlotSend (n : Fin 32) (s : State) : Host.Outcome State Fault Refusal := .next (sendSlot n s)

/-- TRIP_IN_EDGE (R123): the filtered level of a pin becomes the asserted one; an enabled pin launches on its ports. -/
def execTripInEdge (i : Fin 8) (s : State) : Host.Outcome State Fault Refusal :=
  .next <|
    let was := s.inAsserted i
    let high := s.actFlag (TRIP.IN_CFG.polarity.nth i)
    let level := if high then s.pins.level ||| BitVec.ofNat 8 (2 ^ i.val) else s.pins.level &&& ~~~ BitVec.ofNat 8 (2 ^ i.val)
    let s := { s with pins := { s.pins with level := level } }
    if s.inAsserted i && !was then launchAll (s.word (TRIP.IN_MAP + 4 * i + 0x8000)) s else s

/-- TRIP_IN_DEASSERT (R118): the pin leaves its asserted level; trip_active and keepalive follow the level. -/
def execTripInDeassert (i : Fin 8) (s : State) : Host.Outcome State Fault Refusal :=
  .next <|
    let high := s.actFlag (TRIP.IN_CFG.polarity.nth i)
    let level := if high then s.pins.level &&& ~~~ BitVec.ofNat 8 (2 ^ i.val) else s.pins.level ||| BitVec.ofNat 8 (2 ^ i.val)
    { s with pins := { s.pins with level := level } }

/-- TRIP_CODE_COMPUTED (R120, R121): one code of a set becomes ready; the window of the session in force fills before that
of a new one. -/
def codeComputed (n : Nat) (set : CodeSet) (s : State) : State :=
  let size := s.windowSize n
  syncTrip n (s.modTrip n (fun t => match set with
    | .transmit => match t.txSess with
      | some x => t.setTx x.refillTx
      | none => t
    | .window => match t.sess with
      | some x =>
        if x.window.length < size || t.next.isNone then { t with sess := some (x.refillWindow size) }
        else { t with next := t.next.map (Sess.refillWindow size) }
      | none => { t with next := t.next.map (Sess.refillWindow size) }))

/-- TRIP_CODE_COMPUTED (R120). -/
def execTripCodeComputed (n : Fin 32) (set : CodeSet) (s : State) : Host.Outcome State Fault Refusal :=
  .next (codeComputed n set s)

/-- TRIP_OUT_HOLD_EXPIRY (R124): a hold whose end DEV_TIME has reached ends. -/
def execTripOutHoldExpiry (j : Fin 8) (s : State) : Host.Outcome State Fault Refusal :=
  .next <|
    if s.outHeld j && decide (sget (fun _ => 0) s.pins.hold j ≤ s.now) then
      withOuts (fun s => { s with pins := { s.pins with hold := sput (fun _ => 0) s.pins.hold j 0 } }) s
    else s

/-- OUT_CMD.release of a set of outputs (R125); in Sealed operation each accepted release adds an AUDIT record. -/
def releaseOuts (mask : BitVec 8) (s : State) : State :=
  let s := withOuts (fun s => s.clearBits TRIP.OUT_STATUS (mask.setWidth 32 <<< 8)) s
  if mask = 0 then s else auditOperational TRIP.OUT_CMD mask.toNat s

/-- TRIP_OUT_RELEASE (R125). -/
def execTripOutRelease (mask : BitVec 8) (s : State) : Host.Outcome State Fault Refusal := .next (hostCommand TRIP.OUT_CMD (releaseOuts mask) s)

/-- SIDESHOW_TRIP_MESSAGE (R119, R216): a link-local trip message judged against the acceptance window. -/
def ssTripMessage (n : Nat) (body : BitVec 64) (s : State) : State :=
  let t := s.trip n
  if t.sess.isNone && !t.rxSwitched then
    ssEvent 7 (s.addSat (SS.NET_CNT.count.nth 6) 1)
  else
    match (if s.flag (TRIP.PORT_STATUS.lockout.nth n) then none else t.match? body) with
    | some (isNew, i) =>
      let s := syncTrip n (s.modTrip n (fun t => t.advance isNew i))
      let s := s.addSat (TRIP.PORT_CNT_ACC.count.nth n) 1
      let s := acceptEffects n (noteTrip n 4 (tripEvent n 6 s))
      if isNew then completeChangeover n (switchRx n s) else s
    | none => wrongCode n s

/-- SIDESHOW_TRIP_MESSAGE (R216). -/
def execSideshowTripMessage (n : Fin 32) (body : BitVec 64) (s : State) : Host.Outcome State Fault Refusal :=
  .next (whileAwake (ssTripMessage n body) s)

/-- A TRIP bank becomes active (R126): no port relays to itself. -/
def tripChecks (s : State) : State :=
  (List.range 32).foldl (fun s n =>
    let w := s.word (TRIP.RELAY_MAP + 4 * n + 0x8000)
    if bitOf w n then agree (TRIP.RELAY_MAP.ports.nth n) (withBitClear w n).toNat s else s) s

end Sys2Proof.Machine
end

