-- ==== Sys2Proof/Machine/Link.lean ====
section
/-! DEFINITION. Autonegotiation, training, retrains, restarts and the link state machine (spec/04_link_startup.md), with the
cable test (R230 to R236) and the port's part of a bank switch (R73, R74, R86, R93). -/

namespace Sys2Proof.Machine

/-! ### Classes (R320) -/

/-- The class of the active wheel that a mode and rate need. -/
def classNeeded (mode rate : Nat) : Nat :=
  match mode, rate with
  | 2, _ => 5
  | _, 0 => 1
  | _, 1 => 2
  | _, 2 => 3
  | _, 3 => 4
  | 0, _ => 6
  | _, _ => 7

/-- A port's class in the active wheel. -/
def State.classOf (s : State) (n : Nat) : Nat := sget (fun _ => 7) s.classes n

/-- Whether the port's class allows a mode and rate. -/
def State.classAllows (s : State) (n mode rate : Nat) : Bool := decide (classNeeded mode rate ≤ s.classOf n)

/-- The port is switched off: by LINE_CFG, by class 0 (R320), or by a self-test (R437, R441). -/
def State.portOff (s : State) (n : Nat) : Bool :=
  s.pact n P.LINE_CFG.port_off != 0 || s.classOf n == 0 || (s.link n).faulted

/-! ### What the port offers (R78, R81, R86) -/

/-- BASE-T rates advertised: AN_ADV.base_t limited by the class. -/
def State.offeredBaseT (s : State) (n : Nat) : Nat :=
  ((List.range 5).filter (fun r => (s.pact n P.AN_ADV.base_t).testBit r && s.classAllows n 0 r)).map (2 ^ ·) |>.sum

/-- Peer rates offered: bit 0 2.5 Gb/s, 1 5 Gb/s, 2 10 Gb/s (R81). -/
def State.offeredPeer (s : State) (n : Nat) : Nat :=
  if s.pact n P.LINE_CFG.mode = 1 then
    ((List.range 3).filter (fun b => (s.pact n P.AN_ADV.peer).testBit b && s.classAllows n 1 (b + 2))).map (2 ^ ·) |>.sum
  else 0

/-- Reach is offered (R81). -/
def State.offersReach (s : State) (n : Nat) : Bool :=
  s.pact n P.LINE_CFG.mode == 2 && s.pact n P.AN_ADV.reach != 0 && s.classAllows n 2 0

/-- The capability word the port sends (R81). -/
def State.capWord (s : State) (n : Nat) : Word :=
  let reach := s.offersReach n
  BitVec.ofNat 32 (0x01000400 + s.offeredPeer n +
    (if reach then 32 + s.pact n P.REACH_CFG.rate_cap * 2 ^ 18 + s.pact n P.REACH_CFG.depth_max * 2 ^ 16 else 0))

/-- The pages the port sends, in the order of R78; those of abilities not advertised are left out. -/
def State.pagesOf (s : State) (n : Nat) : List Page :=
  let base := s.offeredBaseT n
  let ms := s.pact n P.AN_CFG.ms_cfg
  let sircor := s.pact n P.AN_CFG.no_oui == 0
  let special := s.offeredPeer n != 0 || s.offersReach n
  [Page.base true (base.testBit 0)] ++
    (if base.testBit 1 then [Page.clause40 true ms] else []) ++
    (if 4 ≤ base || special then [Page.multiGBT (base / 4) ms (s.pact n P.AN_ADV.fast_retrain != 0)] else []) ++
    (if s.pact n P.LPI_CFG.mode = 0 then [] else [Page.eee (s.pact n P.LPI_CFG.eee_adv)]) ++
    (if sircor then [Page.sircor1 (BitVec.ofNat 32 (s.rd CHIP.ID.oui)), Page.sircor2 (s.capWord n)] else []) ++
    [Page.null]

/-! ### Cable tests (R230 to R236) -/

/-- PROBE_STATUS.cable of a pair status (R234). -/
def cableOf (status : Nat) : Nat := if status = 6 then 5 else status

/-- How severe a pair status is: short, cross-pair fault, open, impedance step, normal, not classified (R234). -/
def severity (status : Nat) : Nat :=
  match status with
  | 3 => 5
  | 4 => 4
  | 2 => 3
  | 5 => 2
  | 6 => 2
  | 1 => 1
  | _ => 0

/-- The worst pair of a test: severity, then the smaller distance, then the lower pair (R234). -/
def worstPair (l : List PairDiag) : Option (Nat × PairDiag) :=
  l.zipIdx.foldl (fun acc e =>
    if severity e.1.status.toNat = 0 then acc
    else match acc with
      | some (_, b) =>
        if severity b.status.toNat < severity e.1.status.toNat ||
            (severity b.status.toNat == severity e.1.status.toNat && decide (e.1.distance.toNat < b.distance.toNat))
        then some (e.2, e.1) else acc
      | none => some (e.2, e.1)) none

/-- DIAG_PAIR's word (R239). -/
def diagWord (d : PairDiag) : Word :=
  BitVec.ofNat 32 (d.status.toNat * 2 ^ 29 + bitNat d.more * 2 ^ 28 + d.xpair.val * 2 ^ 26 + d.gamma.toNat * 2 ^ 16 +
    d.distance.toNat)

/-- A pair the test did not classify (R232). -/
def diagUnclassified : PairDiag := { status := 7, more := false, xpair := 0, gamma := 0, distance := 0 }

/-- Write a test's results (R234), raise event 6n + 3 and write its record (R236). -/
def writeTest (n : Nat) (results : List PairDiag) (stopped : Bool) (s : State) : State :=
  let s := (List.range 4).foldl (fun s p =>
    s.setWord (portAddr n P.DIAG_PAIR + 4 * p) (diagWord (results.getD p diagUnclassified))) s
  let worst := worstPair results
  let s := match worst with
    | some (p, d) => s.wrs [(P.PROBE_STATUS.cable.port n, if stopped then 6 else cableOf d.status.toNat),
        (P.PROBE_STATUS.worst_pair.port n, p), (P.PROBE_STATUS.distance.port n, min 1023 ((d.distance.toNat + 5) / 10))]
    | none => s.wrs [(P.PROBE_STATUS.cable.port n, if stopped then 6 else 0), (P.PROBE_STATUS.worst_pair.port n, 0),
        (P.PROBE_STATUS.distance.port n, 0)]
  let s := s.addWrap (P.MON_STATUS.diag_seq.port n) 1
  let s := s.wr (P.MON_STATUS.test_busy.port n) 0
  if results.any (fun d => d.status != 1) || decide (results.length ≠ 4) then
    causeAlarm (portAddr n P.MON_CAUSE) 5 (6 * n + 3) s
  else
    let s := setPend (6 * n + 3) (s.orWord (portAddr n P.MON_CAUSE) 32)
    trace 3 (6 * n + 3) ((List.range 4).flatMap (fun p => wordBytes (s.word (portAddr n P.DIAG_PAIR + 4 * p)))) s

/-- The data of a DIAG_RUN reply of kind 0 (R238). -/
def State.testData (s : State) (n : Nat) : List Byte :=
  wordBytes (s.word (portAddr n P.PROBE_STATUS)) ++
    (List.range 4).flatMap (fun p => wordBytes (s.word (portAddr n P.DIAG_PAIR + 4 * p)))

/-- PORT_CMD.cable_test reads 1 while a test written there runs or waits (R30, R41), MON_STATUS.test_busy while any does. -/
def syncTestBit (n : Nat) (s : State) : State :=
  (s.wr (P.MON_STATUS.test_busy.port n) (bitNat ((s.link n).autoTest || !(s.link n).tests.isEmpty))).setWc (wcKey (portAddr n P.PORT_CMD) 3) (((s.link n).tests.filter (·.isNone)).length)

/-- A commanded test is done with: its reply is sent. -/
def answerTest (n : Nat) (r : Option DueReply) (s : State) : State :=
  match r with
  | some d => sendReply d 0 (s.testData n) s
  | none => s

/-- A commanded test completes without effect: PROBE_STATUS.cable reads 7 (R230). -/
def refuseTest (n : Nat) (r : Option DueReply) (s : State) : State :=
  answerTest n r (s.wr (P.PROBE_STATUS.cable.port n) 7)

/-- Every waiting test of a port completes without effect. -/
def refuseTests (n : Nat) (s : State) : State :=
  let waiting := (s.link n).tests
  let s := syncTestBit n (s.modLink n (fun l => { l with tests := [] }))
  waiting.foldl (fun s r => refuseTest n r s) s

/-- The running test ends: results, reply, and the next in line (R230, R234). -/
def closeTest (n : Nat) (results : List PairDiag) (stopped : Bool) (s : State) : State :=
  let s := writeTest n results stopped s
  if (s.link n).autoTest then syncTestBit n (s.modLink n (fun l => { l with autoTest := false }))
  else
    let r := (s.link n).tests.headD none
    let s := syncTestBit n (s.modLink n (fun l => { l with tests := l.tests.tail }))
    answerTest n r s

/-! ### Changing state (R101) -/

/-- Ask the Sideshow program for a probe request on the port (R94, R206). -/
def sendProbe (n : Nat) (s : State) : State :=
  sendMessage { mtype := 5, cls := 1, dest := 0, port := some n, body := [] } s

/-- Enter a state of R101. A port that reaches ABILITY runs a waiting test, or probes after an_fail_max failed exchanges
(R94, R230); one that reaches TRAIN, OFF, HOLD_DOWN or BUS completes waiting tests without effect (R230). A running test
stops when the port leaves CABLE_TEST otherwise than by its end (R232). -/
def enter (n st : Nat) (s : State) : State :=
  let s := if s.fsm n == fsmCableTest then closeTest n [] true s else s
  let s := s.modLink n (fun l => { l with phase := 0 })
  if st = fsmAbility then
    if !(s.link n).tests.isEmpty then
      s.wrs [(P.AN_STATUS.state.port n, fsmCableTest), (P.MON_STATUS.test_busy.port n, 1)]
    else if s.pact n P.AN_CFG.an_fail_max ≤ (s.link n).exchFails then
      sendProbe n ((s.modLink n (fun l => { l with exchFails := 0, probeTries := 1 })).wr (P.AN_STATUS.state.port n) fsmProbe)
    else s.wr (P.AN_STATUS.state.port n) fsmAbility
  else
    let s := s.wr (P.AN_STATUS.state.port n) st
    if st = fsmTrain || st = fsmOff || st = fsmHoldDown || st = fsmBus then refuseTests n s else s

/-- LPI_US counts the microseconds that have passed in quiet and refresh (R269). -/
def countLpi (n : Nat) (s : State) : State :=
  match (s.idle n).since with
  | some t =>
    let us := (s.now - t) / 1000
    (s.addPair (portAddr n P.LPI_US) (portAddr n P.LPI_US + 4) us).setIdle n
      { s.idle n with since := some (t + 1000 * us) }
  | none => s

/-- Stop the count of LPI_US. -/
def stopCount (n : Nat) (s : State) : State :=
  let s := countLpi n s
  s.setIdle n { s.idle n with since := none }

/-- LPI ends without a wake (R263). -/
def endLpi (n : Nat) (s : State) : State :=
  let s := (stopCount n s).setIdle n Lpi.reset
  let s := s.modLink n (fun l => { l with retrainAfterWake := false })
  s.wrs [(P.LPI_STATUS.lpi_state.port n, 0), (P.LPI_STATUS.snap_valid.port n, 0), (P.LINE_STATUS.lpi_tx.port n, 0),
    (P.LINE_STATUS.lpi_rx.port n, 0)]

/-- LINE_STATUS of a port without link, written whole: mode_now and rate_now 7, island state kept (R75). -/
def State.downWord (s : State) (n : Nat) : Word :=
  BitVec.ofNat 32 (0x77 + s.rd (P.LINE_STATUS.port_off.port n) * 2 ^ 19)

/-- The link goes down, and the port enters a state. Event 6n is raised where it was up (R75, R112, R115, R222, R263). A
queued or running PORT_CMD.fast_retrain completes (R41). -/
def linkDown (n st : Nat) (s : State) : State :=
  let wasUp := s.flag (P.LINE_STATUS.link_up.port n)
  let s := s.setWord (portAddr n P.LINE_STATUS) (s.downWord n)
  let s := if wasUp then s.addSat (P.LINK_DOWN.count.port n) 1 else s
  let s := { s with host := { s.host with linkHigh := s.host.linkHigh.filter (fun e => e.1 / 8 != n) } }
  let s := clearReach n (endLpi n (leaveTripData n s))
  let s := s.modLink n (fun l => { l with lowRun := 0, cmdRetrain := false })
  let s := s.setWc (wcKey (portAddr n P.PORT_CMD) 2) 0
  let s := s.modMon n (fun m => { m with low := 0, ok := 0, inData := 0 })
  let s := s.wrs [(P.MON_STATUS.margin_alarm.port n, 0), (P.MON_STATUS.split_pair.port n, 0)]
  let s := refreshPool (enter n st s)
  if wasUp then linkEvent n s else s

/-- Record why (R102). -/
def lastFail (n code : Nat) (s : State) : State := s.wr (P.AN_STATUS.last_fail.port n) code

/-- A full retrain: the link goes down with last_fail 8 through BREAK (R99, R100). -/
def fullRetrain (n : Nat) (s : State) : State := linkDown n fsmBreak (lastFail n 8 s)

/-! ### Retries and downshift (R91 to R93) -/

/-- Save the advertisement before the first downshift since the last restore (R92). -/
def saveAdv (n : Nat) (s : State) : State :=
  if s.flag (P.AN_STATUS.downshifted.port n) then s
  else s.wrs [(P.AN_STATUS.adv_saved.port n, s.pact n P.AN_ADV.base_t), (P.AN_STATUS.downshifted.port n, 1)]

/-- Downshift one step from the mode and rate that failed; the result says which state the port enters (R91, R165). -/
def downshift (n : Nat) (s : State) : State × Nat :=
  let l := s.link n
  let hold := if s.pact n P.AN_CFG.peer_fallback != 0 then fsmBreak else fsmHoldDown
  let s' := (saveAdv n s).wr (P.AN_STATUS.tries.port n) 0
  if l.mode = modeReach then (hwSet (P.AN_ADV.reach.port n) 0 s', hold)
  else if l.mode = modePeer then
    let left := s.pact n P.AN_ADV.peer &&& (7 - 2 ^ (l.rate - 2))
    (hwSet (P.AN_ADV.peer.port n) left s', if left = 0 then hold else fsmBreak)
  else
    let base := s.pact n P.AN_ADV.base_t
    let lowest := ((List.range 5).find? (fun r => base.testBit r)).getD 0
    if l.rate = lowest then (s, fsmBreak)
    else (hwSet (P.AN_ADV.base_t.port n) (base &&& (31 - 2 ^ l.rate)) s', fsmBreak)

/-- A training failure with last_fail 2 or 3 (R89, R91). -/
def failTraining (n code : Nat) (s : State) : State :=
  let s := (lastFail n code s).addSat (P.AN_STATUS.fail_cnt.port n) 1
  let s := s.addSat (P.AN_STATUS.tries.port n) 1
  let down := s.pact n P.AN_CFG.retry ≤ s.rd (P.AN_STATUS.tries.port n) && s.pact n P.AN_CFG.downshift_en != 0
  let r := if down then downshift n s else (s, fsmBreak)
  trainFailEvent n (refreshPool (enter n r.2 (clearReach n r.1)))

/-- Restore the saved advertisement (R93), subject to R86. -/
def restoreAdv (n : Nat) (s : State) : State :=
  if s.flag (P.AN_STATUS.downshifted.port n) then
    let top := s.pact n P.LINE_CFG.rate_max
    let base := s.rd (P.AN_STATUS.adv_saved.port n) &&& (2 ^ (top + 1) - 1)
    let peer := if top < 2 then 0 else 2 ^ (top - 1) - 1
    let s := hwSet (P.AN_ADV.base_t.port n) (if base = 0 then 2 ^ top else base) s
    let s := hwSet (P.AN_ADV.reach.port n) 1 (hwSet (P.AN_ADV.peer.port n) peer s)
    s.wr (P.AN_STATUS.downshifted.port n) 0
  else s

/-! ### Page exchange and resolution (R79 to R84) -/

/-- Start the page exchange (R78, R81). -/
def startPages (n : Nat) (s : State) : State :=
  let s := s.setWord (portAddr n P.LOCAL_CAP) (s.capWord n)
  let s := s.modLink n (fun l => { l with pages := s.pagesOf n })
  enter n fsmPages s

/-- MASTER/SLAVE resolution from the two settings: `some true` MASTER, `some false` SLAVE, `none` a conflict of forced roles
(R84; the rules of Clauses 40, 55 and 126). -/
def resolveRole (mine theirs : Nat) (seedMaster : Bool) : Option Bool :=
  match mine, theirs with
  | 2, 2 => none
  | 3, 3 => none
  | 2, _ => some true
  | 3, _ => some false
  | _, 2 => some false
  | _, 3 => some true
  | 1, 0 => some true
  | 0, 1 => some false
  | _, _ => some seedMaster

/-- The highest set bit of a mask below 2^w. -/
def highestBit (w m : Nat) : Option Nat := ((List.range w).reverse).find? (fun b => m.testBit b)

/-- Begin training a mode and rate. The count of tries returns to 0 at a change of rate (R91). -/
def startTraining (n mode rate : Nat) (s : State) : State :=
  let l := s.link n
  let phased := mode != modeBaseT || decide (2 ≤ rate)
  let s := if l.mode = mode && l.rate = rate then s else s.wr (P.AN_STATUS.tries.port n) 0
  let s := enter n fsmTrain s
  let s := s.modLink n (fun l => { l with mode := mode, rate := rate, phase := if phased then 1 else 0, training := true })
  if mode = modeReach then s.wr (P.REACH_STATUS.phase.port n) 1 else s

/-- A failed exchange: last_fail 4 or 6 with event 6n + 1, counted toward an_fail_max (R101). -/
def failExchange (n code : Nat) (s : State) : State :=
  let s := s.modLink n (fun l => { l with exchFails := l.exchFails + 1 })
  trainFailEvent n (enter n fsmBreak (lastFail n code s))

/-- A mode and rate have been chosen: roles are resolved where they are used (R84), and training begins. -/
def chosen (n mode rate : Nat) (ex : Exchange) (s : State) : State :=
  let roles := !(mode == modeBaseT && rate == 0)
  match (if roles then resolveRole (s.pact n P.AN_CFG.ms_cfg) ex.role.toNat ex.seedMaster else some false) with
  | none => failExchange n 4 s
  | some master =>
    let mine := s.rd (P.LOCAL_CAP.reach_rate_cap.port n)
    let mineDepth := s.rd (P.LOCAL_CAP.reach_depth_max.port n)
    let w := s.word (portAddr n P.PARTNER_CAP)
    let fr := s.pact n P.AN_ADV.fast_retrain != 0 && ex.fastRetrain && (ldpcRate mode rate)
    let s := s.modLink n (fun l =>
      { l with exchFails := 0, fastRetrain := fr || mode == modeReach, partnerEee := ex.eee.toNat,
               reachCap := min mine (bitsOf w 18 6), reachDepth := min mineDepth (bitsOf w 16 2) })
    let s := startTraining n mode rate s
    let s := s.wr (P.LINE_STATUS.master.port n) (bitNat (master && roles))
    if mode = modeReach then s.wr (P.REACH_STATUS.depth_now.port n) (s.link n).reachDepth else s

/-- Resolution when the exchange completes (R82). -/
def resolve (n : Nat) (ex : Exchange) (s : State) : State :=
  let ext := ex.extNextPage
  let cap : Word := if ext then ex.s2.getD 0 else 0
  let sircor := ext && s.pact n P.AN_CFG.no_oui == 0 && bitsOf cap 24 8 != 0 &&
    (match ex.s1 with
     | some w => bitsOf w 0 24 == s.rd CHIP.ID.oui
     | none => false)
  let s := s.setWord (portAddr n P.PARTNER_CAP) cap
  let s := s.wrs [(P.AN_STATUS.partner_an.port n, 1), (P.AN_STATUS.partner_sircor.port n, bitNat sircor)]
  let mode := s.pact n P.LINE_CFG.mode
  let common := s.offeredPeer n &&& bitsOf cap 0 3
  if mode = 1 && sircor && common != 0 then chosen n modePeer ((highestBit 3 common).getD 0 + 2) ex s
  else if mode = 2 && sircor && bitOf cap 5 && s.offersReach n then
    chosen n modeReach (s.pact n P.LINE_CFG.rate_max) ex s
  else if (mode = 1 || mode = 2) && s.pact n P.AN_CFG.peer_fallback = 0 then
    enter n fsmHoldDown (lastFail n 7 s)
  else
    let both := s.offeredBaseT n &&& ex.baseT.toNat &&& (if ext then 31 else 3)
    match highestBit 5 both with
    | some r => chosen n modeBaseT r ex s
    | none => failExchange n 6 s

/-! ### Training (R87 to R90, R164) -/

/-- Apply the coefficients, gains and corrections a phase leaves (R56, R57, R68). -/
def applyPhase (n : Nat) (r : PhaseResult) (s : State) : State :=
  let s := r.coefs.foldl (fun s c => if c.2.1 < 2512 then s.setCoef (coefKey n c.1.val c.2.1) c.2.2 else s) s
  let s := r.pga.foldl (fun s g => s.wr (CAL.PAIR_CAL.pga.nth (4 * n + g.1.val)) g.2.val) s
  s.wrs [(P.LINE_STATUS.mdix.port n, bitNat r.mdix), (P.LINE_STATUS.pol_inv.port n, r.polInv.toNat)]

/-- The trip slot's sender and receiver start anew (R109): phase 5 of Peer training, phase 6 of Reach. -/
def startFrames (n : Nat) (s : State) : State :=
  s.modTrip n (fun t => { t with txSeq := 0, txCheck := 0xACE1, rxLocked := false, goodRun := 0 })

/-- Write PAIR_QUAL and PORT_QUAL from margins in 0.01 dB (R76, R77); pairs not measured read 0 and 0x8000. -/
def writeQual (n : Nat) (snrs : List (Nat × Int × Int)) (s : State) : State :=
  let s := (List.range 4).foldl (fun s p =>
    match snrs.find? (fun e => e.1 == p) with
    | some (_, snr, m) => s.setWord (portAddr n P.PAIR_QUAL + 4 * p)
        (BitVec.ofNat 32 (nat16 (clampInt (-32767) 32767 m) * 65536 + (min snr 65535).toNat))
    | none => s.setWord (portAddr n P.PAIR_QUAL + 4 * p) 0x80000000) s
  let worst := snrs.foldl (fun (acc : Option (Nat × Int)) e =>
    match acc with
    | some (p, m) => if e.2.2 < m || (e.2.2 = m && e.1 < p) then some (e.1, e.2.2) else acc
    | none => some (e.1, e.2.2)) none
  match worst with
  | some (p, m) => s.setWord (portAddr n P.PORT_QUAL) (BitVec.ofNat 32 (2 ^ 18 + p * 2 ^ 16 + nat16 (clampInt (-32767) 32767 m)))
  | none => s.setWord (portAddr n P.PORT_QUAL) 0x8000

/-- Go on to a Reach training phase (R164). -/
def reachPhase (n p : Nat) (s : State) : State :=
  (s.modLink n (fun l => { l with phase := p })).wr (P.REACH_STATUS.phase.port n) p

/-- Whether a port's vector group already has applied blocks (R164, R172). -/
def State.groupApplied (s : State) (n : Nat) : Bool :=
  s.pact n P.REACH_CFG.vgroup != 0 && s.validBlocks.any (fun e => descKind e.2 == 1 &&
    s.pact (descVictim e.2 / 4) P.REACH_CFG.vgroup == s.pact n P.REACH_CFG.vgroup && s.applied e.2)

/-- Phase 5 of a port that joins its group: the PSD is 20 dB below nominal, and the other members' margins are noted
(R172). -/
def startJoin (n : Nat) (s : State) : State :=
  let members := (List.range 32).filter (fun m => m ≠ n && s.inData m && s.modeNow m == modeReach &&
    s.pact m P.REACH_CFG.vgroup == s.pact n P.REACH_CFG.vgroup)
  let margins := members.map (fun m => (m, int16 (s.rd (P.PORT_QUAL.margin_min.port m))))
  (s.modRch n (fun r => { r with psdSteps := 4, psdRev := s.clk.rev.toNat, groupMargin := margins })).wr
    (P.REACH_STATUS.vg_state.port n) 1

/-- A training phase completes (R87, R164). -/
def phaseEnd (n : Nat) (r : PhaseResult) (s : State) : State :=
  let l := s.link n
  let s := applyPhase n r s
  if l.mode = modeReach then
    match l.phase with
    | 3 => match loadPort n r.tones s with
      | some s => reachPhase n 4 s
      | none => reachPhase n 4 ((s.modRch n (fun x => { x with tones := [] })).setWord (portAddr n P.REACH_LOAD) 0)
    | 4 =>
      if s.rd (P.LINE_STATUS.reach_rate.port n) = 0 then failTraining n 3 s
      else if s.groupApplied n then reachPhase n 5 (startJoin n s)
      else reachPhase n 6 (startFrames n s)
    | 5 => reachPhase n 6 (startFrames n s)
    | p => if p < 6 then reachPhase n (p + 1) s else s
  else
    match l.phase with
    | 4 =>
      let used := r.margins.map (fun m => (m.1.val, max 0 (m.2 + refSnr l.mode l.rate), m.2))
      let s := writeQual n used s
      if r.margins.any (fun m => decide (m.2 < 0)) then failTraining n 3 s
      else startFrames n (s.modLink n (fun l => { l with phase := 5 }))
    | p => if p < 5 then s.modLink n (fun l => { l with phase := p + 1 }) else s

/-- Receiver status OK at both ends: data mode (R101). -/
def linkUp (n : Nat) (s : State) : State :=
  let l := s.link n
  let reach := decide (l.mode = modeReach)
  let s := s.wrs [(P.AN_STATUS.state.port n, fsmData), (P.AN_STATUS.tries.port n, 0),
    (P.LINE_STATUS.link_up.port n, 1), (P.LINE_STATUS.mode_now.port n, l.mode), (P.LINE_STATUS.rate_now.port n, l.rate)]
  let s := if reach then s.wr (P.REACH_STATUS.phase.port n) 7 else s
  let s := s.modLink n (fun l =>
    { l with phase := 0, training := false, lowRun := 0, retrains := [],
             lastLineCfg := s.word (portAddr n P.LINE_CFG + 0x8000), lastAdv := s.word (portAddr n P.AN_ADV + 0x8000) })
  linkEvent n (refreshPool s)

/-! ### Fast retrain (R98 to R100, R163) -/

/-- Start a retrain on a port in DATA; the fifth within 10 s is a full one (R99). -/
def startRetrain (n : Nat) (s : State) : State :=
  let now := s.now
  let recent := (s.link n).retrains.filter (fun t => decide (now - t < 10000000000)) ++ [now]
  let s := (s.modLink n (fun l => { l with retrains := recent, lowRun := 0 })).addSat (P.AN_STATUS.fr_count.port n) 1
  if 5 ≤ recent.length then fullRetrain n s
  else
    let s := s.wr (P.AN_STATUS.state.port n) fsmFretrain
    let s := s.modTrip n (fun t => { t with rxLocked := false, goodRun := 0 })
    let s := if s.modeNow n == modeReach then
        (s.modRch n (fun r => { r with asked := none, armed := none, armedTx := none })).wr (P.REACH_STATUS.phase.port n) 8
      else s
    refreshPool s

/-- The port is in an LPI cycle: its state is not active, and not yet waking (R263). -/
def State.inLpi (s : State) (n : Nat) : Bool :=
  let st := s.rd (P.LPI_STATUS.lpi_state.port n)
  decide (1 ≤ st) && decide (st ≤ 3)

/-- A retrain trigger: in LPI both directions wake first (R263); where no fast retrain was negotiated a full one follows if
asked for (R100). -/
def retrainTrigger (n : Nat) (fullIfNone : Bool) (s : State) : State :=
  if s.fsm n ≠ fsmData then s
  else if !(s.link n).fastRetrain then (if fullIfNone then fullRetrain n s else s)
  else if s.inLpi n then
    ((stopCount n s).modLink n (fun l => { l with retrainAfterWake := true })).wr (P.LPI_STATUS.lpi_state.port n) 4
  else if s.rd (P.LPI_STATUS.lpi_state.port n) = 4 then s.modLink n (fun l => { l with retrainAfterWake := true })
  else startRetrain n s

/-- PORT_CMD.fast_retrain (R41, R98, R100): queued during a retrain, at once in DATA, without effect elsewhere. -/
def fastRetrainCmd (n : Nat) (s : State) : State :=
  let a := portAddr n P.PORT_CMD
  let key := wcKey a 2
  let s := auditOperational a 4 s
  if s.fsm n = fsmFretrain then
    let running := bitNat (s.link n).cmdRetrain
    if s.wcLevel key ≤ running then s.setWc key (s.wcLevel key + 1) else ignored .queueFull a s
  else if s.fsm n = fsmData then
    if s.wcLevel key = 0 then
      let s := retrainTrigger n true ((s.setWc key 1).modLink n (fun l => { l with cmdRetrain := true }))
      if s.fsm n = fsmFretrain || (s.link n).retrainAfterWake then s
      else (s.setWc key 0).modLink n (fun l => { l with cmdRetrain := false })
    else if s.wcLevel key = 1 then s.setWc key 2
    else ignored .queueFull a s
  else s

/-- The retrain completes: back to DATA; a queued command starts the next (R99, R100). -/
def retrainDone (n : Nat) (s : State) : State :=
  let key := wcKey (portAddr n P.PORT_CMD) 2
  let s := s.wr (P.AN_STATUS.state.port n) fsmData
  let s := if s.modeNow n == modeReach then s.wr (P.REACH_STATUS.phase.port n) 7 else s
  let s := if (s.link n).cmdRetrain then s.setWc key (s.wcLevel key - 1) else s
  let s := refreshPool (s.modLink n (fun l => { l with cmdRetrain := false }))
  if 0 < s.wcLevel key then retrainTrigger n true (s.modLink n (fun l => { l with cmdRetrain := true })) else s

/-! ### Restart and renegotiation (R103, R104) -/

/-- A port restart takes effect at the boundary (R104). The supervision tasks are restarted with it by the wheel. -/
def restartPort (n : Nat) (s : State) : State :=
  let st := s.fsm n
  let s := restoreAdv n (lastFail n 9 s)
  let s := s.clearCoefs n
  let s := (List.range 4).foldl (fun s p => s.wr (CAL.PAIR_CAL.pga.nth (4 * n + p)) 0) s
  let s := s.wr (P.AN_STATUS.tries.port n) 0
  let s := s.modLink n (fun l => { l with training := true, exchFails := 0 })
  if st = fsmOff || st = fsmBus then suspendSession n s else linkDown n fsmBreak s

/-- PORT_CMD.an_restart (R103): the link goes down and the port renegotiates; without effect in OFF and BUS. -/
def anRestart (n : Nat) (s : State) : State :=
  let s := auditOperational (portAddr n P.PORT_CMD) 2 s
  if s.fsm n = fsmOff || s.fsm n = fsmBus then s
  else linkDown n fsmBreak ((lastFail n 9 s).clearCoefs n)

/-- PORT_CMD.restart (R104): the restart waits for the next revolution boundary; a second is queued (R41). -/
def restartCmd (n : Nat) (s : State) : State :=
  let a := portAddr n P.PORT_CMD
  wcWrite a 0 (fun s => s) (auditOperational a 1 s)

/-- A commanded cable test, by the port's state (R230). -/
def startTest (n : Nat) (r : Option DueReply) (s : State) : State :=
  let st := s.fsm n
  if st = fsmAbility then
    syncTestBit n (enter n fsmAbility (s.modLink n (fun l => { l with tests := l.tests ++ [r] })))
  else if st = fsmCableTest || st = fsmBreak || st = fsmPages || st = fsmProbe then
    syncTestBit n (s.modLink n (fun l => { l with tests := l.tests ++ [r] }))
  else refuseTest n r s

/-- PORT_CMD.cable_test (R103, R41). -/
def cableTestCmd (n : Nat) (s : State) : State :=
  let a := portAddr n P.PORT_CMD
  let s := auditOperational a 8 s
  if 2 ≤ ((s.link n).tests.filter (·.isNone)).length then ignored .queueFull a s else startTest n none s

/-! ### Probe (R94 to R97) -/

/-- The probe ends: its fields are written; an automatic cable test follows at most once in 60 s, else ABILITY (R95 to
R97). -/
def probeEnd (n probe partner : Nat) (s : State) : State :=
  let s := s.wrs [(P.PROBE_STATUS.probe.port n, probe), (P.PROBE_STATUS.partner_port.port n, partner)]
  let due := match (s.link n).lastTest with
    | some t => decide (60000000000 ≤ s.now - t)
    | none => true
  if (s.link n).tests.isEmpty && s.pact n P.AN_CFG.auto_test != 0 && due then
    let s := s.modLink n (fun l => { l with lastTest := some s.now, autoTest := true })
    s.wrs [(P.AN_STATUS.state.port n, fsmCableTest), (P.MON_STATUS.test_busy.port n, 1)]
  else enter n fsmAbility s

/-- PROBE_STATUS.partner_port's code (R97). -/
def partnerCode : PartnerPort → Nat
  | .seekingLink => 1
  | .portOff => 2
  | .training => 3
  | .dataMode => 4
  | .busMode => 5

/-- A port's own state as a probe answer gives it (R97, R206). -/
def State.portStateCode (s : State) (n : Nat) : Nat :=
  let st := s.fsm n
  if st = fsmOff then 2 else if st = fsmBus then 5 else if st = fsmTrain then 3
  else if st = fsmData || st = fsmFretrain then 4 else 1

/-! ### Bank switches and classes (R73, R74, R86, R101, R320) -/

/-- The cross-field checks of a port's bank (R66, R74, R86, R176): each names the dependent field. -/
def portChecks (n : Nat) (s : State) : State :=
  let a := fun (s : State) (f : Field) => s.pact n f
  let mode := a s P.LINE_CFG.mode
  let top0 := a s P.LINE_CFG.rate_max
  let s := agree (P.LINE_CFG.rate_max.port n) (if mode = 1 then max 2 top0 else if mode = 2 then min 2 top0 else top0) s
  let top := a s P.LINE_CFG.rate_max
  let train := a s P.ADAPT_CFG.train
  let s := agree (P.ADAPT_CFG.ec_data.port n) (max train (a s P.ADAPT_CFG.ec_data)) s
  let s := agree (P.ADAPT_CFG.next_data.port n) (max train (a s P.ADAPT_CFG.next_data)) s
  let s := agree (P.ADAPT_CFG.ffe_data.port n) (max train (a s P.ADAPT_CFG.ffe_data)) s
  let base := a s P.AN_ADV.base_t &&& (2 ^ (top + 1) - 1)
  let s := agree (P.AN_ADV.base_t.port n) (if base = 0 then 2 ^ top else base) s
  let s := agree (P.AN_ADV.peer.port n) (a s P.AN_ADV.peer &&& (if top < 2 then 0 else 2 ^ (top - 1) - 1)) s
  let s := agree (P.REACH_CFG.rate_cap.port n) (min (laneRateCap top) (a s P.REACH_CFG.rate_cap)) s
  agree (P.RM_CFG.xon.port n) (min (a s P.RM_CFG.xoff - 1) (a s P.RM_CFG.xon)) s

/-- Whether the mode and rate in force could be resolved under the active LINE_CFG and AN_CFG (R73). -/
def State.permissible (s : State) (n : Nat) : Bool :=
  let cfg := s.pact n P.LINE_CFG.mode
  let m := s.modeNow n
  (if m = modePeer then cfg == 1 else if m = modeReach then cfg == 2
   else cfg == 0 || s.pact n P.AN_CFG.peer_fallback != 0) && decide (s.rateNow n ≤ s.pact n P.LINE_CFG.rate_max)

/-- A port off or on again (R73, R101). -/
def applyPortOff (n : Nat) (s : State) : State :=
  let st := s.fsm n
  let off := s.portOff n
  if st = fsmBus then s
  else if off && st ≠ fsmOff then
    (linkDown n fsmOff s).wr (P.LINE_STATUS.port_off.port n) 1
  else if !off && st = fsmOff then
    enter n fsmBreak (s.wr (P.LINE_STATUS.port_off.port n) 0)
  else s

/-- What a port does when its bank has become active; `lineChanged` and `advChanged` say which words changed (R73, R93,
R101, R176). -/
def portBankActive (n : Nat) (lineChanged advChanged : Bool) (s : State) : State :=
  let s := if advChanged then s.wr (P.AN_STATUS.downshifted.port n) 0 else s
  let s := applyPortOff n s
  let st := s.fsm n
  if st = fsmHoldDown && (lineChanged || advChanged) then enter n fsmBreak s
  else if s.inData n && !s.permissible n then linkDown n fsmBreak (lastFail n 9 s)
  else if st = fsmData && s.modeNow n == modeReach &&
      decide (s.pact n P.REACH_CFG.rate_cap < s.rd (P.LINE_STATUS.reach_rate.port n)) then retrainTrigger n false s
  else s

/-- A wheel switch lowers the class of a port below the mode and rate in force (R320). -/
def applyClass (n : Nat) (s : State) : State :=
  let s := applyPortOff n s
  if s.inData n && !s.classAllows n (s.modeNow n) (s.rateNow n) then linkDown n fsmBreak (lastFail n 10 s) else s

/-- Sideshow bus mode of a port selected or deselected (R101, R190). -/
def selectBus (n : Nat) (on : Bool) (s : State) : State :=
  if on then
    if s.fsm n = fsmBus then s else linkDown n fsmBus s
  else if s.fsm n = fsmBus then
    if s.portOff n then (enter n fsmOff s).wr (P.LINE_STATUS.port_off.port n) 1
    else enter n fsmBreak (s.wr (P.LINE_STATUS.port_off.port n) 0)
  else s

/-! ### The commands -/

/-- PARTNER_PULSES_SEEN (R101): from ABILITY, or ending a probe with PROBE_STATUS.probe 3, the page exchange starts; a link
pulse stops a cable test (R232). -/
def execPartnerPulsesSeen (n : Fin 32) (s : State) : Host.Outcome State Fault Refusal :=
  .next <|
    let st := s.fsm n
    if st = fsmAbility then startPages n s
    else if st = fsmProbe then startPages n (s.wr (P.PROBE_STATUS.probe.port n) 3)
    else if st = fsmCableTest then enter n fsmAbility s
    else s

/-- IDLE_DETECTED (R83): 100BASE-TX trains where base_t bit 0 and the class allow it; idle ends a probe (R94). -/
def execIdleDetected (n : Fin 32) (s : State) : Host.Outcome State Fault Refusal :=
  .next <|
    let st := s.fsm n
    if st = fsmAbility || st = fsmProbe then
      let s := if st = fsmProbe then s.wrs [(P.PROBE_STATUS.probe.port n, 3), (P.AN_STATUS.state.port n, fsmAbility)] else s
      let s := s.wrs [(P.AN_STATUS.partner_an.port n, 0), (P.AN_STATUS.partner_sircor.port n, 0)]
      if (s.offeredBaseT n).testBit 0 then
        (startTraining n modeBaseT 0 (s.modLink n (fun l => { l with fastRetrain := false, partnerEee := 0 }))).wr
          (P.LINE_STATUS.master.port n) 0
      else s
    else s

/-- PAGE_EXCHANGE_COMPLETE (R82). -/
def execPageExchangeComplete (n : Fin 32) (ex : Exchange) (s : State) : Host.Outcome State Fault Refusal :=
  .next <| if s.fsm n = fsmPages then resolve n ex s else s

/-- BREAK_LINK_TIMER (R101). -/
def execBreakLinkTimer (n : Fin 32) (s : State) : Host.Outcome State Fault Refusal :=
  .next <| if s.clk.wheelOn && s.fsm n = fsmBreak then enter n fsmAbility s else s

/-- AUTONEG_WAIT_TIMER (R101): last_fail 5, counted toward an_fail_max (R94). -/
def execAutonegWaitTimer (n : Fin 32) (s : State) : Host.Outcome State Fault Refusal :=
  .next <|
    if s.fsm n = fsmPages then
      enter n fsmBreak (lastFail n 5 (s.modLink n (fun l => { l with exchFails := l.exchFails + 1 })))
    else s

/-- LINK_FAIL_INHIBIT_TIMER (R89): training fails with last_fail 2; Reach has its own limit (R165). -/
def execLinkFailInhibitTimer (n : Fin 32) (s : State) : Host.Outcome State Fault Refusal :=
  .next <| if s.fsm n = fsmTrain && (s.link n).mode ≠ modeReach then failTraining n 2 s else s

/-- REACH_TRAINING_TIMEOUT (R165). -/
def execReachTrainingTimeout (n : Fin 32) (s : State) : Host.Outcome State Fault Refusal :=
  .next <| if s.fsm n = fsmTrain && (s.link n).mode = modeReach then failTraining n 2 s else s

/-- TRAIN_PHASE_END (R87, R164). -/
def execTrainPhaseEnd (n : Fin 32) (r : PhaseResult) (s : State) : Host.Outcome State Fault Refusal :=
  .next <| if s.fsm n = fsmTrain && (s.link n).phase ≠ 0 then phaseEnd n r s else s

/-- Whether the phases that precede data mode are over (R87, R164). -/
def State.readyForData (s : State) (n : Nat) : Bool :=
  let l := s.link n
  if l.mode = modeReach then l.phase == 6 else l.phase == 0 || l.phase == 5

/-- RECEIVER_STATUS_OK (R101). -/
def execReceiverStatusOk (n : Fin 32) (s : State) : Host.Outcome State Fault Refusal :=
  .next <| if s.fsm n = fsmTrain && s.readyForData n then linkUp n s else s

/-- PARTNER_LOST (R89, R90, R491): last_fail 1 and ABILITY without BREAK. In training the attempt's coefficients are
discarded and event 6n + 1 raised; in data mode the link goes down. -/
def execPartnerLost (n : Fin 32) (s : State) : Host.Outcome State Fault Refusal :=
  .next <|
    if s.fsm n = fsmTrain then
      let s := ((lastFail n 1 s).addSat (P.AN_STATUS.fail_cnt.port n) 1).clearCoefs n
      trainFailEvent n (linkDown n fsmAbility s)
    else if s.inData n then linkDown n fsmAbility (lastFail n 1 s)
    else s

/-- LINK_STATUS_FAILURE (R491): last_fail 11, through BREAK. -/
def execLinkStatusFailure (n : Fin 32) (s : State) : Host.Outcome State Fault Refusal :=
  .next <| if s.inData n then linkDown n fsmBreak (lastFail n 11 s) else s

/-- ADVERTISEMENT_RESTORE (R93). -/
def execAdvertisementRestore (n : Fin 32) (s : State) : Host.Outcome State Fault Refusal :=
  .next <| if s.pact n P.AN_CFG.ds_restore ≠ 0 then restoreAdv n s else s

/-- PARTNER_ENERGY_RETURN (R101). -/
def execPartnerEnergyReturn (n : Fin 32) (s : State) : Host.Outcome State Fault Refusal :=
  .next <| if s.fsm n = fsmHoldDown then enter n fsmBreak s else s

/-- PROBE_S_TIMER (R94, R96): a probe starts in ABILITY where probe_s is not 0. -/
def execProbeSTimer (n : Fin 32) (s : State) : Host.Outcome State Fault Refusal :=
  .next <|
    if s.fsm n = fsmAbility && s.pact n P.AN_CFG.probe_s ≠ 0 then
      sendProbe n ((s.modLink n (fun l => { l with probeTries := 1 })).wr (P.AN_STATUS.state.port n) fsmProbe)
    else s

/-- PROBE_TIMEOUT (R94): a second try, then no answer. -/
def execProbeTimeout (n : Fin 32) (s : State) : Host.Outcome State Fault Refusal :=
  .next <|
    if s.fsm n = fsmProbe then
      if (s.link n).probeTries < 2 then
        sendProbe n (s.modLink n (fun l => { l with probeTries := l.probeTries + 1 }))
      else probeEnd n 1 0 s
    else s

/-- PROBE_ANSWER (R94, R206). -/
def execProbeAnswer (n : Fin 32) (partner : PartnerPort) (s : State) : Host.Outcome State Fault Refusal :=
  .next <| if s.fsm n = fsmProbe then probeEnd n 2 (partnerCode partner) s else s

/-- PROBE_REQUEST (R206): answered link-local with the receiving port's state. -/
def execProbeRequest (n : Fin 32) (s : State) : Host.Outcome State Fault Refusal :=
  .next (whileAwake (fun s => sendMessage { mtype := 6, cls := 1, dest := 0, port := some n.val, body := bytesBE 1 (s.portStateCode n) } s) s)

/-- CABLE_TEST_END (R234): results, then ABILITY, where a waiting test runs. -/
def execCableTestEnd (n : Fin 32) (results : List PairDiag) (s : State) : Host.Outcome State Fault Refusal :=
  .next <|
    if s.fsm n = fsmCableTest then
      let s := closeTest n results false s
      enter n fsmAbility (s.wr (P.AN_STATUS.state.port n) fsmBreak)
    else s

/-- CABLE_TEST_STOP (R232): energy stops the test; pairs already classified keep their results. -/
def execCableTestStop (n : Fin 32) (classified : List PairDiag) (s : State) : Host.Outcome State Fault Refusal :=
  .next <|
    if s.fsm n = fsmCableTest then
      let s := closeTest n classified true s
      enter n fsmAbility (s.wr (P.AN_STATUS.state.port n) fsmBreak)
    else s

/-- CABLE_TEST (R103, R230). -/
def execCableTest (n : Fin 32) (s : State) : Host.Outcome State Fault Refusal := .next (hostCommand (portAddr n P.PORT_CMD) (cableTestCmd n) s)

/-- FAST_RETRAIN (R98). -/
def execFastRetrain (n : Fin 32) (s : State) : Host.Outcome State Fault Refusal := .next (hostCommand (portAddr n P.PORT_CMD) (fastRetrainCmd n) s)

/-- AN_RESTART (R103). -/
def execAnRestart (n : Fin 32) (s : State) : Host.Outcome State Fault Refusal := .next (hostCommand (portAddr n P.PORT_CMD) (anRestart n) s)

/-- RESTART (R104). -/
def execRestart (n : Fin 32) (s : State) : Host.Outcome State Fault Refusal := .next (hostCommand (portAddr n P.PORT_CMD) (restartCmd n) s)

/-- PARTNER_RETRAIN_REQUEST (R98). -/
def execPartnerRetrainRequest (n : Fin 32) (s : State) : Host.Outcome State Fault Refusal := .next (retrainTrigger n false s)

/-- FAST_RETRAIN_COMPLETE (R99): the new THP coefficients replace the old ones (R56), and the port is back in DATA. -/
def execFastRetrainComplete (n : Fin 32) (coefs : List (Fin 4 × Fin 48 × BitVec 18)) (s : State) :
    Host.Outcome State Fault Refusal :=
  .next <|
    if s.fsm n = fsmFretrain && s.modeNow n ≠ modeReach then
      retrainDone n (coefs.foldl (fun s c => s.setCoef (coefKey n c.1.val (2464 + c.2.1.val)) c.2.2) s)
    else s

/-- FAST_RETRAIN_TIMEOUT (R99). -/
def execFastRetrainTimeout (n : Fin 32) (s : State) : Host.Outcome State Fault Refusal :=
  .next <| if s.fsm n = fsmFretrain then fullRetrain n s else s

end Sys2Proof.Machine
end

