-- ==== Sys2Proof/Machine/Export.lean ====
section
/-! DEFINITION. Log records as bytes, and what the completion of an exporter's descriptor does (spec/18_events_and_logs.md,
R385, R389, R390; spec/19_performance_counters.md, R403). -/

namespace Sys2Proof.Machine

/-! ### Records as bytes (R374, R385, R389) -/

/-- The bytes of a record with those of its unreadable words as 0xFF (R389). -/
def maskWords (bad : BitVec 8) (l : List Byte) : List Byte :=
  l.zipIdx.map (fun e => if bad.getLsbD (e.2 / 4) then 0xFF else e.1)

/-- The 32 bytes of an ALARM record. -/
def alarmBytes (r : AlarmRec) : List Byte :=
  maskWords r.badWords (bytesBE 1 r.typ ++
    bytesBE 1 (bitNat r.isOpen + 2 * bitNat r.mixed + 4 * bitNat (decide (r.badWords ≠ 0))) ++ bytesBE 2 r.source ++
    bytesBE 4 r.count ++ bytesBE 8 r.first ++ bytesBE 8 r.last ++ bytesBE 4 r.detail.toNat ++ bytesBE 4 r.seq)

/-- The 32 bytes of a TRACE record. -/
def traceBytes (r : TraceRec) : List Byte :=
  maskWords r.badWords (bytesBE 1 r.typ ++ bytesBE 1 (4 * bitNat (decide (r.badWords ≠ 0))) ++ bytesBE 2 r.source ++
    bytesBE 4 r.seq ++ bytesBE 8 r.time ++ r.body)

/-- The 32 bytes of an AUDIT record. -/
def auditRecBytes (r : AuditRec) : List Byte :=
  maskWords r.badWords (auditBytes r.typ r.result r.count r.subject r.time r.detail r.seq ++ bytesBE 8 r.link.toNat)

/-! ### The export of a class (R390) -/

/-- A class's export state. -/
def State.exp (s : State) (c : Nat) : ExportState :=
  match c with
  | 0 => s.logs.expAudit
  | 1 => s.logs.expAlarm
  | _ => s.logs.expTrace

/-- Replace a class's export state. -/
def State.setExp (s : State) (c : Nat) (e : ExportState) : State :=
  match c with
  | 0 => { s with logs := { s.logs with expAudit := e } }
  | 1 => { s with logs := { s.logs with expAlarm := e } }
  | _ => { s with logs := { s.logs with expTrace := e } }

/-- Change the first `k` elements that satisfy a test. -/
def updateFirstN {α : Type} (p : α → Bool) (f : α → α) : Nat → List α → List α
  | 0, l => l
  | _ + 1, [] => []
  | k + 1, x :: t => if p x then f x :: updateFirstN p f k t else x :: updateFirstN p f (k + 1) t

/-- The oldest `k` unexported records of a class are exported; an exported ALARM record is closed (R386). -/
def markExported (c k : Nat) (s : State) : State :=
  match c with
  | 0 =>
    let before := s.auditFree
    auditRoom before { s with logs := { s.logs with
      audit := updateFirstN (fun r => !r.exported) (fun r => { r with exported := true }) k s.logs.audit } }
  | 1 => { s with logs := { s.logs with
      alarm := updateFirstN (fun r => !r.exported) (fun r => { r with exported := true, isOpen := false }) k s.logs.alarm } }
  | _ => { s with logs := { s.logs with
      trace := updateFirstN (fun r => !r.exported) (fun r => { r with exported := true }) k s.logs.trace } }

/-- The export of the oldest `k` unexported ALARM records begins: they are closed (R386). -/
def closeForExport (c k : Nat) (s : State) : State :=
  if c = 1 then
    { s with logs := { s.logs with
        alarm := updateFirstN (fun r => !r.exported) (fun r => { r with isOpen := false }) k s.logs.alarm } }
  else s

/-- The bytes of the unexported records of a class, oldest first, at most `k`. -/
def State.unexported (s : State) (c k : Nat) : List (List Byte) :=
  match c with
  | 0 => ((s.logs.audit.filter (fun r => !r.exported)).take k).map auditRecBytes
  | 1 => ((s.logs.alarm.filter (fun r => !r.exported)).take k).map alarmBytes
  | _ => ((s.logs.trace.filter (fun r => !r.exported)).take k).map traceBytes

/-- An exporter's descriptor ends: its records count as exported where it completed OK; else they are exported anew. -/
def exportDone (c status : Nat) (s : State) : State :=
  let k := (s.exp c).inFlight
  if status = stOk then
    let s := s.setExp c { inFlight := 0, stalled := false }
    markExported c k (s.addWrap (LOG.EXP_WR.idx.nth c) k)
  else s.setExp c { s.exp c with inFlight := 0 }

/-- A dump's descriptor ends (R403): a completed one advances PERF.DUMP_WR and raises event 249. -/
def dumpDone (status : Nat) (s : State) : State :=
  let s := { s with perf := { s.perf with dumpBusy := false } }
  if status = stOk then perfEvent 1 (s.addWrap PERF.DUMP_WR.idx 1) else s

end Sys2Proof.Machine
end

