-- ==== Sys2Proof/Machine/Dma.lean ====
section
/-! DEFINITION. DMA rings, descriptors, translation, bursts and ring faults (spec/16_memory_dma.md, R336 to R350). -/

namespace Sys2Proof.Machine

/-! ### Rings (R336, R337) -/

/-- A ring beside its registers. -/
def State.ring (s : State) (r : Nat) : Ring := sget (fun _ => Ring.reset) s.dma.rings r

/-- Replace a ring; RING_STATUS.outstanding follows it. -/
def State.setRing (s : State) (r : Nat) (v : Ring) : State :=
  let s := { s with dma := { s.dma with rings := sput (fun _ => Ring.reset) s.dma.rings r v } }
  s.wr (DMA.RING_STATUS.outstanding.nth r) v.descs.length

/-- The values of RING_STATUS.state. -/
def rsDisabled : Nat := 0
def rsIdle : Nat := 1
def rsActive : Nat := 2
def rsPreempted : Nat := 3
def rsStopped : Nat := 4
def rsWalking : Nat := 5

/-- A ring's state. -/
def State.ringState (s : State) (r : Nat) : Nat := s.rd (DMA.RING_STATUS.state.nth r)

/-- Set a ring's state. -/
def State.setRingState (s : State) (r v : Nat) : State := s.wr (DMA.RING_STATUS.state.nth r) v

/-- A ring is enabled. -/
def State.ringOn (s : State) (r : Nat) : Bool := s.flag (DMA.RING_CTRL.enable.nth r)

/-- A ring's descriptors are posted by the host. -/
def State.hostRing (s : State) (r : Nat) : Bool := s.flag (DMA.RING_CFG.poster.nth r)

/-- Bytes of the current descriptor that are complete. -/
def State.ringPos (s : State) (r : Nat) : Nat := s.rd (DMA.RING_POS.offset.nth r)

/-- The area of a host-posted ring lies within the host window (R336). -/
def State.areaInWindow (s : State) (r : Nat) : Bool :=
  let base := s.rd (DMA.RING_BASE.base.nth r) * 32
  let winBase := s.rd DMA.HOST_WIN_BASE.base * 4096
  let winLen := s.rd DMA.HOST_WIN_LEN.len * 4096
  decide (winBase ≤ base) && decide (base + 32 * s.rd (DMA.RING_CFG.size.nth r) ≤ winBase + winLen)

/-- Post a descriptor at the end of a ring whose share is not full. -/
def pushDesc (r : Nat) (src : DescSrc) (use : DescUse) (s : State) : State :=
  let g := s.ring r
  let s := s.setRing r { g with
    descs := g.descs ++ [{ src := src, use := use, index := g.posted, skip := false, started := false }],
    posted := (g.posted + 1) % 65536 }
  if s.ringState r = rsIdle then s.setRingState r rsActive else s

/-- A ring's share is full (R337). -/
def State.shareFull (s : State) (r : Nat) : Bool := decide (64 ≤ (s.ring r).descs.length)

/-- Take up host descriptors in index order while entries are free (R336, R337). -/
def fetchHost (r : Nat) : (fuel : Nat) → State → State
  | 0, s => s
  | k + 1, s =>
    let g := s.ring r
    let size := s.rd (DMA.RING_CFG.size.nth r)
    if s.ringOn r && s.hostRing r && decide (g.descs.length < size) &&
        decide (g.posted ≠ s.rd (DMA.RING_PROD.prod.nth r)) then
      fetchHost r k (pushDesc r (.sram (s.rd (DMA.RING_BASE.base.nth r) * 32 + 32 * (g.posted % size))) .host s)
    else s

/-- RING_PROD_WRITE (R336). -/
def ringProdWrite (r prod : Nat) (s : State) : State := fetchHost r 64 (s.wr (DMA.RING_PROD.prod.nth r) prod)

/-- RING_PROD_WRITE (R336). -/
def execRingProdWrite (r : Fin 64) (prod : BitVec 16) (s : State) : Host.Outcome State Fault Refusal :=
  .next (hostCommand (DMA.RING_PROD + 0x40 * r.val) (ringProdWrite r prod.toNat) s)

/-! ### Descriptors (R338, R339) -/

/-- A descriptor as the engine reads it. -/
structure DescWords where
  va : Nat
  sram : Nat
  length : Nat
  irq : Bool
  /-- dir: 1 host to SRAM. -/
  toSram : Bool
  malformed : Bool
deriving DecidableEq, Repr

/-- The descriptor at an SRAM address (R338). -/
def State.descAt (s : State) (a : Nat) : DescWords :=
  let w := fun k => s.wordAt (a + 4 * k)
  let sram := bitsOf (w 2) 0 23
  let len := bitsOf (w 3) 0 24
  { va := (w 0).toNat + 2 ^ 32 * bitsOf (w 1) 0 16, sram := sram, length := len, irq := bitOf (w 4) 1,
    toSram := bitOf (w 4) 0,
    malformed := decide (bitsOf (w 1) 16 16 ≠ 0) || decide (bitsOf (w 2) 23 9 ≠ 0) || decide (bitsOf (w 3) 24 8 ≠ 0) ||
      decide (bitsOf (w 4) 2 14 ≠ 0) || decide (bitsOf (w 5) 8 23 ≠ 0) || decide (w 6 ≠ 0) || decide (w 7 ≠ 0) ||
      decide (sramSize < sram + len) }

/-- A descriptor's words; none where one of them is marked. -/
def State.descWords (s : State) (d : Desc) : Option DescWords :=
  match d.src with
  | .sram a => if s.anyMarked a 32 then none else some (s.descAt a)
  | .made va bytes =>
    some { va := va, sram := 0, length := bytes.length, irq := false, toSram := false, malformed := false }

/-- The index of a descriptor completing is past: what its poster waits for ends (R339, R390, R403). -/
def useDone (u : DescUse) (status : Nat) (s : State) : State :=
  match u with
  | .job e => endJob e status s
  | .host => s
  | .logExport c _ => exportDone c status s
  | .perfDump => dumpDone status s

/-- The head of a ring completes (R339): w5, cons, the poster's end, irq. -/
def completeHead (r status kind : Nat) (s : State) : State :=
  let g := s.ring r
  match g.descs with
  | [] => s
  | d :: rest =>
    let irq := match s.descWords d with
      | some w => w.irq
      | none => false
    let s := match d.src with
      | .sram a => writeWord (a + 20) (BitVec.ofNat 32 (2 ^ 31 + 16 * kind + status)) s
      | .made _ _ => s
    let s := s.setRing r { g with descs := rest, issued := 0 }
    let s := s.wrs [(DMA.RING_STATUS.cons.nth r, d.index + 1), (DMA.RING_POS.offset.nth r, 0)]
    let s := useDone d.use status s
    let s := if irq then
        let s := s.setArrayBit DMA.CMPL_CAUSE r
        mapped 225 (1 + r) (s.word (DMA.RING_STATUS + 64 * r)) (setPend 225 s)
      else s
    fetchHost r 64 s

/-- A DMA fault's kind (R345). -/
def dkNotValid : Nat := 1
def dkPerm : Nat := 2
def dkRange : Nat := 3
def dkBadEntry : Nat := 4
def dkEcc : Nat := 5
def dkHost : Nat := 6
def dkDesc : Nat := 7
def dkDisabled : Nat := 8
def dkAbort : Nat := 9
def dkPoster : Nat := 10

/-- A stopping fault (R346). -/
def stopRing (r kind dir level va : Nat) (s : State) : State :=
  let idx := match (s.ring r).descs with
    | d :: _ => d.index
    | [] => 0
  let s := s.setWord (DMA.FAULT_INFO + 64 * r)
    (BitVec.ofNat 32 (kind * 2 ^ 28 + dir * 2 ^ 27 + level * 2 ^ 26 + idx))
  let s := s.setPair (DMA.FAULT_VA + 64 * r) (DMA.FAULT_VA_HI + 64 * r) va
  let s := (s.addSat (DMA.FAULT_CNT.count.nth r) 1).setRingState r rsStopped
  let s := s.setArrayBit DMA.FAULT_CAUSE r
  mapped 224 (1 + r) (s.word (DMA.FAULT_INFO + 64 * r)) (setPend 224 s)

/-- An address the spec leaves open: the failing burst of a descriptor that cannot be read. -/
def freeVa (s : State) : Nat × State :=
  let a := s.draw
  let b := a.2.draw
  ((a.1.toNat + 2 ^ 32 * b.1.toNat) % 2 ^ 48, b.2)

/-! ### Translation (R340 to R342) -/

/-- MMU.VA_BASE. -/
def State.vaBase (s : State) : Nat := s.rd DMA.MMU_VA_BASE.lo * 2 ^ 21 + 2 ^ 32 * s.rd DMA.MMU_VA_BASE_HI.hi

/-- An address lies inside the window (R340). -/
def State.vaInWindow (s : State) (va : Nat) : Bool :=
  decide (s.vaBase ≤ va) && decide (va < s.vaBase + 2 ^ (21 + s.rd DMA.MMU_CFG.l1_log2))

/-- A TLB entry covers an address. -/
def TlbEntry.covers (t : TlbEntry) (va : Nat) : Bool :=
  if t.big then t.va / 2 ^ 21 == va / 2 ^ 21 else t.va / 4096 == va / 4096

/-- The physical address an entry translates to. -/
def TlbEntry.translate (t : TlbEntry) (va : Nat) : Nat :=
  if t.big then t.pa + va % 2 ^ 21 else t.pa + va % 4096

/-- The permission an entry gives a direction. -/
def TlbEntry.permits (t : TlbEntry) (toSram : Bool) : Bool := if toSram then t.canRead else t.canWrite

/-- Look an address up. -/
def State.tlbHit (s : State) (va : Nat) : Option TlbEntry := s.dma.tlb.find? (·.covers va)

/-- Put an entry first, as the most recently used; the least recently used of 257 leaves. -/
def touchTlb (t : TlbEntry) (s : State) : State :=
  { s with dma := { s.dma with tlb := (t :: s.dma.tlb.filter (fun e => !(e == t))).take 256 } }

/-- How a walk ends. -/
inductive WalkEnd where
  | leaf (t : TlbEntry)
  | failed (kind level : Nat)
deriving DecidableEq, Repr

/-- A leaf of level 1 or 2. -/
def leafEnd (va e level : Nat) : WalkEnd :=
  let big := level = 0
  let addr := e / 4096 * 4096
  if e / 16 % 256 ≠ 0 || (big && decide (addr % 2 ^ 21 ≠ 0)) || (!big && decide (e / 2 % 2 ≠ 0)) then .failed dkBadEntry level
  else .leaf { va := if big then va / 2 ^ 21 * 2 ^ 21 else va / 4096 * 4096, big := big, pa := addr,
               canRead := decide (e / 4 % 2 = 1), canWrite := decide (e / 8 % 2 = 1) }

/-- The 8-byte entry at an SRAM address, none where it is marked. -/
def State.tableEntry (s : State) (a : Nat) : Option Nat :=
  if s.anyMarked a 8 then none else some (numLE (s.bytesAt a 8))

/-- Walk one or two levels (R340). -/
def State.walk (s : State) (va : Nat) : WalkEnd :=
  let i := (va - s.vaBase) / 2 ^ 21
  match s.tableEntry (s.rd DMA.MMU_CFG.l1_base * 4096 + 8 * i) with
  | none => .failed dkEcc 0
  | some e =>
    if e % 2 = 0 then .failed dkNotValid 0
    else if e / 2 % 2 = 1 then leafEnd va e 0
    else if e / 16 % 256 ≠ 0 || decide (2 ^ 23 ≤ e) then .failed dkBadEntry 0
    else match s.tableEntry (e / 4096 * 4096 + 8 * (va / 4096 % 512)) with
      | none => .failed dkEcc 1
      | some f => if f % 2 = 0 then .failed dkNotValid 1 else leafEnd va f 1

/-! ### Bursts (R343, R344) -/

/-- The head starts: its job is running. -/
def startHead (r : Nat) (s : State) : State :=
  let g := s.ring r
  match g.descs with
  | [] => s
  | d :: rest =>
    if d.started then s
    else
      let s := s.setRing r { g with descs := { d with started := true } :: rest }
      match d.use with
      | .job e => startJob e s
      | .host => s
      | .logExport _ _ => s
      | .perfDump => s

/-- Bring a ring's head as far as a burst that is ready, or to the walk, the fault or the wait that stands before it. -/
def prepareRing (r : Nat) : (fuel : Nat) → State → State
  | 0, s => s
  | k + 1, s =>
    if !s.ringOn r || s.ringState r = rsStopped || s.ringState r = rsWalking then s
    else match (s.ring r).descs with
      | [] => s.setRingState r rsIdle
      | d :: _ =>
        if d.skip && !d.started then prepareRing r k (completeHead r stAborted 0 s)
        else match s.descWords d with
          | none =>
            let v := freeVa s
            stopRing r dkEcc 0 0 v.1 v.2
          | some w =>
            if w.malformed then prepareRing r k (completeHead r stFault dkDesc s)
            else
              let s := startHead r s
              if w.length = 0 then prepareRing r k (completeHead r stZeroLen 0 s)
              else
                let off := (s.ring r).issued
                let va := w.va + off
                if w.length ≤ off then s.setRingState r rsActive
                else if !s.vaInWindow va then stopRing r dkRange (bitNat w.toSram) 0 va s
                else match s.tlbHit va with
                  | none => perfCount 4 0x03 (s.setRingState r rsWalking)
                  | some t =>
                    if !t.permits w.toSram then stopRing r dkPerm (bitNat w.toSram) (bitNat (!t.big)) va s
                    else if s.ringState r = rsPreempted then s else s.setRingState r rsActive

/-- A ring's next burst is ready: its head, and the words of its descriptor. -/
def State.readyHead (s : State) (r : Nat) : Option DescWords :=
  if s.ringOn r && (s.ringState r == rsActive || s.ringState r == rsPreempted) then
    match (s.ring r).descs with
    | [] => none
    | d :: _ => match s.descWords d with
      | none => none
      | some w =>
        if (s.ring r).issued < w.length && (!w.toSram || decide (s.dma.reads.length < 16)) &&
            (s.tlbHit (w.va + (s.ring r).issued)).isSome then some w
        else none
  else none

/-- The ring the link goes to: the highest priority that has one ready, the next in turn there (R343). -/
def State.nextRing (s : State) : Option Nat :=
  let ready := (List.range 64).filter (fun r => (s.readyHead r).isSome)
  match [3, 2, 1, 0].find? (fun p => ready.any (fun r => s.rd (DMA.RING_CFG.prio.nth r) == p)) with
  | none => none
  | some p =>
    let l := ready.filter (fun r => s.rd (DMA.RING_CFG.prio.nth r) == p)
    let last := sget (fun _ => 63) s.dma.served p
    match l.find? (fun r => decide (last < r)) with
    | some r => some r
    | none => l.head?

/-- The lower rings that had begun and are ready read preempted. -/
def preemptBelow (p : Nat) (s : State) : State :=
  (List.range 64).foldl (fun s r =>
    if s.rd (DMA.RING_CFG.prio.nth r) < p && decide (0 < (s.ring r).issued) && (s.readyHead r).isSome then
      s.setRingState r rsPreempted
    else s) s

/-- Issue the next burst of a ready ring (R343, R344). -/
def issueBurst (r : Nat) (w : DescWords) (s : State) : State :=
  let g := s.ring r
  let off := g.issued
  let va := w.va + off
  let n := min (256 - va % 256) (w.length - off)
  let p := s.rd (DMA.RING_CFG.prio.nth r)
  match g.descs, s.tlbHit va with
  | d :: _, some t =>
    let s := { s with dma := { s.dma with served := sput (fun _ => 63) s.dma.served p r } }
    let s := touchTlb t (s.setRingState r rsActive)
    let s := preemptBelow p s
    let pa := t.translate va
    if w.toSram then
      let s := s.setRing r { s.ring r with issued := off + n }
      let q : ReadReq := { ring := r, index := d.index, sram := w.sram + off, offset := off, len := n, va := va }
      let s := { s with dma := { s.dma with reads := s.dma.reads ++ [q] } }
      s.emit (.hostRead pa n)
    else
      let bytes := match d.src with
        | .sram _ => s.bytesAt (w.sram + off) n
        | .made _ l => (l.drop off).take n
      let marked := match d.src with
        | .sram _ => s.anyMarked (w.sram + off) n
        | .made _ _ => false
      if marked then stopRing r dkEcc 0 0 va s
      else
        let s := perfCount 4 0x01 (s.emit (.hostWrite pa bytes))
        let s := (s.setRing r { s.ring r with issued := off + n }).wr (DMA.RING_POS.offset.nth r) (off + n)
        if off + n = w.length then completeHead r stOk 0 s else s
  | _, _ => s

/-! ### The log exporter (R390) -/

/-- Records of a class that wait for export beyond the descriptor in flight, and the room of the host buffer. -/
def State.exportRoom (s : State) (c : Nat) : Nat :=
  2 ^ s.rd (LOG.EXP_CFG.size_log2.nth c) -
    (s.rd (LOG.EXP_WR.idx.nth c) + 65536 - s.rd (LOG.EXP_RD.idx.nth c)) % 65536

/-- Unexported records of a class. -/
def State.unexportedCount (s : State) (c : Nat) : Nat :=
  match c with
  | 0 => (s.logs.audit.filter (fun r => !r.exported)).length
  | 1 => (s.logs.alarm.filter (fun r => !r.exported)).length
  | _ => s.traceHeld

/-- A class exports over DMA. -/
def State.exportsDma (s : State) (c : Nat) : Bool :=
  s.flag (LOG.EXP_CFG.enable.nth c) && decide (s.rd (LOG.EXP_CFG.path.nth c) = 0)

/-- Export of a class is held: records wait, and the buffer is full, the ring STOPPED or its share full (R390). -/
def State.exportHeld (s : State) (c : Nat) : Bool :=
  let r := s.rd (LOG.EXP_CFG.ring.nth c)
  s.exportsDma c && decide (0 < s.unexportedCount c) &&
    (decide (s.exportRoom c = 0) || s.ringState r == rsStopped || ((s.exp c).inFlight == 0 && s.shareFull r))

/-- Post the next descriptor of a class: at most 128 records, none past the end of the buffer. -/
def exportClass (c : Nat) (s : State) : State :=
  let r := s.rd (LOG.EXP_CFG.ring.nth c)
  if s.exportsDma c && (s.exp c).inFlight == 0 && s.ringOn r && !s.hostRing r && !s.shareFull r &&
      s.ringState r != rsStopped then
    let size := 2 ^ s.rd (LOG.EXP_CFG.size_log2.nth c)
    let idx := s.rd (LOG.EXP_WR.idx.nth c) % size
    let k := min (min 128 (s.unexportedCount c)) (min (s.exportRoom c) (size - idx))
    if k = 0 then s
    else
      let s := closeForExport c k s
      let bytes := (s.unexported c k).flatten
      let va := s.pair (LOG.EXP_VA + 32 * c) (LOG.EXP_VA_HI + 32 * c) + 32 * idx
      pushDesc r (.made va bytes) (.logExport c k) (s.setExp c { s.exp c with inFlight := k })
  else s

/-- All three exporters. -/
def runExporters (s : State) : State := exportClass 2 (exportClass 1 (exportClass 0 s))

/-! ### The engine's steps -/

/-- The engine's next burst: exporters post, every ring's head is prepared, and the link, where it is up, goes to one
ring. -/
def dmaBurst (s : State) : State :=
  let s := (List.range 64).foldl (fun s r => prepareRing r 65 s) (runExporters s)
  if !s.pcie.linkUp || !s.awake then s
  else match s.nextRing with
    | none => s
    | some r => match s.readyHead r with
      | none => s
      | some w => issueBurst r w s

/-- DMA_BURST (R343). -/
def execDmaBurst (s : State) : Host.Outcome State Fault Refusal := .next (dmaBurst s)

/-- The complete bytes of a head whose read bursts are under way: up to the first that is outstanding. -/
def State.readPos (s : State) (r index : Nat) : Nat :=
  let g := s.ring r
  (s.dma.reads.filter (fun q => q.ring == r && q.index == index && decide (q.offset < g.issued))).foldl
    (fun m q => min m q.offset) g.issued

/-- RING_POS after a read burst ended, and the descriptor's end where it was the last. -/
def readAdvance (r index : Nat) (s : State) : State :=
  match (s.ring r).descs with
  | [] => s
  | d :: _ =>
    if d.index = index && s.ringOn r then
      let s := s.wr (DMA.RING_POS.offset.nth r) (s.readPos r index)
      match s.descWords d with
      | none => s
      | some w => if w.toSram && decide (s.ringPos r = w.length) then completeHead r stOk 0 s else s
    else s

/-- A read burst that failed: its ring stops at the start of that burst (R346). -/
def readFailed (q : ReadReq) (s : State) : State :=
  match (s.ring q.ring).descs with
  | [] => s
  | d :: _ =>
    if d.index = q.index && s.ringOn q.ring then
      let stopped := s.ringState q.ring == rsStopped
      let g := s.ring q.ring
      let s := s.setRing q.ring { g with issued := min g.issued q.offset }
      let s := s.wr (DMA.RING_POS.offset.nth q.ring) (s.readPos q.ring q.index)
      if stopped then s else stopRing q.ring dkHost 1 0 q.va s
    else s

/-- The `k`th oldest outstanding read burst ends, with its data or with a fault of the host (R344, R346). -/
def readCompletion (k : Nat) (result : ReadResult) (s : State) : State :=
  match s.dma.reads[k]? with
  | none => s
  | some q =>
    let rest := { s with dma := { s.dma with reads := s.dma.reads.eraseIdx k } }
    match result with
    | .data bytes =>
      if bytes.length = q.len then readAdvance q.ring q.index (perfCount 4 0x02 (writeBytes q.sram bytes rest)) else s
    | .error => readFailed q rest

/-- DMA_READ_COMPLETION (R344, R346). -/
def execDmaReadCompletion (k : Fin 16) (result : ReadResult) (s : State) : Host.Outcome State Fault Refusal :=
  .next (readCompletion k result s)

/-- The walker's ring: the waiting one of highest priority (R341). -/
def State.walkRing (s : State) : Option Nat :=
  let l := (List.range 64).filter (fun r => s.ringState r == rsWalking)
  match [3, 2, 1, 0].find? (fun p => l.any (fun r => s.rd (DMA.RING_CFG.prio.nth r) == p)) with
  | none => none
  | some p => l.find? (fun r => s.rd (DMA.RING_CFG.prio.nth r) == p)

/-- A walk ends: its leaf enters the TLB, or its ring stops; a walk for an invalidated address is done again (R342). -/
def walkDone (s : State) : State :=
  match s.walkRing with
  | none => s
  | some r =>
    if s.dma.rewalk then { s with dma := { s.dma with rewalk := false } }
    else match (s.ring r).descs with
      | [] => s.setRingState r rsIdle
      | d :: _ => match s.descWords d with
        | none =>
          let v := freeVa s
          stopRing r dkEcc 0 0 v.1 v.2
        | some w =>
          let va := w.va + (s.ring r).issued
          match s.walk va with
          | .failed kind level => stopRing r kind (bitNat w.toSram) level va s
          | .leaf t =>
            let s := touchTlb t s
            if t.permits w.toSram then s.setRingState r rsActive
            else stopRing r dkPerm (bitNat w.toSram) (bitNat (!t.big)) va s

/-- TLB_WALK_DONE (R341). -/
def execTlbWalkDone (s : State) : Host.Outcome State Fault Refusal := .next (walkDone s)

/-! ### Commands to a ring (R347, R348) -/

/-- RING_CMD.resume: a STOPPED ring retries the failing burst. -/
def ringResume (r : Nat) (s : State) : State := if s.ringState r = rsStopped then s.setRingState r rsActive else s

/-- RING_CMD.abort: the head of a STOPPED ring ends, and the ring goes on with the next. -/
def ringAbort (r : Nat) (s : State) : State :=
  if s.ringState r = rsStopped then (completeHead r stFault dkAbort s).setRingState r rsActive else s

/-- RESUME (R347). -/
def execResume (r : Fin 64) (s : State) : Host.Outcome State Fault Refusal := .next (hostCommand (DMA.RING_CMD + 0x40 * r.val) (ringResume r) s)

/-- ABORT (R347). -/
def execAbort (r : Fin 64) (s : State) : Host.Outcome State Fault Refusal := .next (hostCommand (DMA.RING_CMD + 0x40 * r.val) (ringAbort r) s)

/-- Every outstanding descriptor ends with FAULT, kind DISABLED. -/
def endAll (r : Nat) : (fuel : Nat) → State → State
  | 0, s => s
  | k + 1, s =>
    match (s.ring r).descs with
    | [] => s
    | _ :: _ => endAll r k (completeHead r stFault dkDisabled s)

/-- RING_CTRL.enable has been cleared (R348). -/
def disableRing (r : Nat) (s : State) : State :=
  let s := endAll r 65 s
  let g := s.ring r
  let last := if s.hostRing r then s.rd (DMA.RING_PROD.prod.nth r) else g.posted
  ((s.setRing r { g with posted := last }).wr (DMA.RING_STATUS.cons.nth r) last).setRingState r rsDisabled

/-- RING_CTRL.enable has been set (R336, R350). -/
def enableRing (r : Nat) (s : State) : State :=
  if s.hostRing r && !s.areaInWindow r then clampPush ((DMA.RING_CTRL.enable.nth r).entry 1 1 0) (s.wr (DMA.RING_CTRL.enable.nth r) 0)
  else
    let s := if r = 0 then
        let room := (sramSize - s.rd DMA.MMU_CFG.l1_base * 4096) / 8
        let v := s.rd DMA.MMU_CFG.l1_log2
        if 2 ^ v ≤ room then s
        else clampPush (DMA.MMU_CFG.l1_log2.entry 1 v (Nat.log2 room)) (s.wr DMA.MMU_CFG.l1_log2 (Nat.log2 room))
      else s
    fetchHost r 64 (s.setRingState r rsIdle)

/-! ### Invalidation (R342) -/

/-- MMU.INV_VA. -/
def State.invVa (s : State) : Nat := s.rd DMA.MMU_INV_VA.lo * 4096 + 2 ^ 32 * s.rd DMA.MMU_INV_VA_HI.hi

/-- The address the walker's ring waits for. -/
def State.walkVa (s : State) : Option Nat :=
  match s.walkRing with
  | none => none
  | some r => match (s.ring r).descs with
    | [] => none
    | d :: _ => (s.descWords d).map (fun w => w.va + (s.ring r).issued)

/-- An invalidation starts: the translations leave the TLB, and a walk for one of them will be done again. -/
def startInvalidate (all : Bool) (s : State) : State :=
  let hit := fun va => all || va / 2 ^ 21 == s.invVa / 2 ^ 21
  let walking := match s.walkVa with
    | some va => hit va
    | none => false
  { s with dma := { s.dma with
      tlb := if all then [] else s.dma.tlb.filter (fun t => !t.covers s.invVa),
      rewalk := s.dma.rewalk || walking } }

/-- INV_ONE (R342). -/
def execInvOne (s : State) : Host.Outcome State Fault Refusal :=
  .next (hostCommand DMA.MMU_INV (wcWrite DMA.MMU_INV 0 (startInvalidate false)) s)

/-- INV_ALL (R342). -/
def execInvAll (s : State) : Host.Outcome State Fault Refusal :=
  .next (hostCommand DMA.MMU_INV (wcWrite DMA.MMU_INV 1 (startInvalidate true)) s)

/-- No read burst of an invalidated address is outstanding. -/
def State.burstsDone (s : State) (all : Bool) : Bool :=
  s.dma.reads.all (fun q => !(all || q.va / 2 ^ 21 == s.invVa / 2 ^ 21))

/-- An invalidation completes (R342). -/
def invalidateDone (s : State) : State :=
  if s.wcLevel (wcKey DMA.MMU_INV 0) ≠ 0 && s.burstsDone false then
    wcDone DMA.MMU_INV 0 (startInvalidate false) (plainEvent 227 0 s)
  else if s.wcLevel (wcKey DMA.MMU_INV 1) ≠ 0 && s.burstsDone true then
    wcDone DMA.MMU_INV 1 (startInvalidate true) (plainEvent 227 0 s)
  else s

/-- INVALIDATE_DONE (R342). -/
def execInvalidateDone (s : State) : Host.Outcome State Fault Refusal := .next (invalidateDone s)

end Sys2Proof.Machine
end

