-- ==== Sys2Proof/Machine/Tasks.lean ====
section
/-! DEFINITION. Task contexts, exceptions and quarantine, the ends of jobs (spec/14_sequencer_isa.md, R290, R303 to R313;
spec/17_security.md, R357). -/

namespace Sys2Proof.Machine

/-! ### Contexts (R290, R296, R313) -/

/-- The key of a task: core and task index. -/
def taskKey (core task : Nat) : Nat := 64 * core + task

/-- A task's context. -/
def State.ctx (s : State) (k : Nat) : Ctx := sget (fun _ => Ctx.reset) s.seq.ctxs k

/-- Replace a context. -/
def State.setCtx (s : State) (k : Nat) (v : Ctx) : State :=
  { s with seq := { s.seq with ctxs := sput (fun _ => Ctx.reset) s.seq.ctxs k v } }

/-- Change a context. -/
def State.modCtx (s : State) (k : Nat) (f : Ctx → Ctx) : State := s.setCtx k (f (s.ctx k))

/-- The record of a task in the active wheel. -/
def State.taskRec (s : State) (k : Nat) : Option TaskRec :=
  s.wheel.active.tasks.find? (fun r => r.core == k / 64 && r.task == k % 64)

/-- A core's task in the current slot, none where it is gated. -/
def State.coreTask (s : State) (c : Nat) : Option Nat :=
  if s.flag (SQ.CORE_STATUS.gated.nth c) then none else some (taskKey c (s.rd (SQ.CORE_STATUS.task.nth c)))

/-- CORE_STATUS's view of the task in the slot and of the quarantine. -/
def refreshCore (c : Nat) (s : State) : State :=
  let q := (s.seq.ctxs.filter (fun e => e.1 / 64 == c && e.2.quarantined)).length
  let s := s.wr (SQ.CORE_STATUS.quarantined.nth c) q
  match s.coreTask c with
  | some k => s.wrs [(SQ.CORE_STATUS.user.nth c, bitNat (s.ctx k).user),
      (SQ.CORE_STATUS.waiting.nth c, bitNat (decide ((s.ctx k).wait ≠ 0)))]
  | none => s.wrs [(SQ.CORE_STATUS.user.nth c, 0), (SQ.CORE_STATUS.waiting.nth c, 0)]

/-- A task starts at its entry point, with a fresh context (R311, R329). -/
def startTask (r : TaskRec) (s : State) : State :=
  refreshCore r.core (s.setCtx (taskKey r.core r.task)
    { Ctx.reset with pc := BitVec.ofNat 32 r.entry, user := r.user })

/-! ### Abandoning jobs (R311, R329, R349) -/

/-- Mark a ring's descriptor so that it is skipped, where it has not started (R349). -/
def skipDesc (r index : Nat) (s : State) : State :=
  let g := s.ring r
  s.setRing r { g with descs := g.descs.map (fun d =>
    if d.index = index && !d.started then { d with skip := true } else d) }

/-- Abandon the job of an entry: not started it ends with ABORTED; running it completes; its result is discarded, so that the
entry is freed when it ends, or now where it has ended. -/
def abandonJob (e : Nat) (s : State) : State :=
  match s.job e with
  | none => s
  | some j =>
    match j.status with
    | some _ => s.setJob e none
    | none =>
      let s := s.setJob e (some { j with detach := true })
      if j.started then s
      else match j.kind with
        | .dma r i _ => skipDesc r i s
        | .engine _ _ => endJob e stAborted s
        | .hash _ => endJob e stAborted s
        | .lattice _ _ => endJob e stAborted s
        | .snap _ => endJob e stAborted s

/-- Abandon every job that satisfies a test. -/
def abandonJobs (p : Job → Bool) (s : State) : State :=
  (s.seq.jobs.filter (fun x => p x.2)).foldl (fun s x => abandonJob x.1 s) s

/-! ### Exceptions (R310, R311) -/

/-- The causes of R310. -/
def exBudget : Nat := 1
def exEcc : Nat := 2
def exFetch : Nat := 3
def exIllegal : Nat := 4
def exPriv : Nat := 5
def exMisalign : Nat := 6
def exAddr : Nat := 7
def exTrans : Nat := 8

/-- The blocks a quarantined task holds: those of its port, and those whose jobs it owns (R136, R311). -/
def State.blocksOfTask (s : State) (k : Nat) : List Nat :=
  let port := (s.taskRec k).bind (·.port)
  (s.pool.descs.filter (fun e =>
    port == some (descVictim e.2 / 4) ||
      s.wheel.active.jobs.any (fun j => (j.typ == 0 || j.typ == 2) && j.arg == e.1 && j.owner == k))).map (·.1)

/-- Take an exception: the task is quarantined and recorded (R311). -/
def takeException (k cause pc : Nat) (val : Word) (s : State) : State :=
  let c := k / 64
  let s := s.setWord (SQ.FAULT + 4 * c)
    (BitVec.ofNat 32 (cause * 2 ^ 28 + k % 64 * 2 ^ 22 + bitNat (s.ctx k).user * 2 ^ 21 + pc % 2 ^ 17))
  let s := s.setWord (SQ.FAULT_VAL + 4 * c) val
  let s := s.modCtx k (fun x => { x with quarantined := true, wait := 0 })
  let s := abandonJobs (fun j => j.core == c && j.task == k % 64) s
  let s := refreshPool { s with pool := { s.pool with heldBlocks := (s.pool.heldBlocks ++ s.blocksOfTask k).eraseDups } }
  plainEvent (232 + c) (s.word (SQ.FAULT + 4 * c)) (perfCount c 0x0C (refreshCore c s))

/-- The tasks of a port start from their entry points (R104, R311). -/
def restartPortTasks (n : Nat) (s : State) : State :=
  let l := s.wheel.active.tasks.filter (fun r => r.port == some n)
  let s := l.foldl (fun s r =>
    let s := abandonJobs (fun j => j.core == r.core && j.task == r.task) s
    startTask r s) s
  let held := ((s.seq.ctxs.filter (fun e => e.2.quarantined)).flatMap (fun e => s.blocksOfTask e.1)).eraseDups
  refreshPool { s with pool := { s.pool with heldBlocks := held } }

/-! ### Jobs of the units (R303, R304, R307, R357) -/

/-- ENGINE_JOB_END (R303): the queued engine job of an entry ends with OK. -/
def engineJobEnd (e : Nat) (s : State) : State :=
  match s.job e with
  | none => s
  | some j => match j.kind, j.status with
    | .engine _ _, none => perfCount 4 0x0B (endJob e stOk s)
    | _, _ => s

/-- ENGINE_JOB_END (R303). -/
def execEngineJobEnd (e : Fin 16384) (s : State) : Host.Outcome State Fault Refusal := .next (engineJobEnd e s)

/-- A range lies in data SRAM. -/
def inSram (a k : Nat) : Bool := decide (a + k ≤ sramSize)

/-- The oldest job of a unit that has not ended, by the test on its kind. -/
def State.oldestJob (s : State) (p : JobKind → Bool) : Option (Nat × Job) :=
  (s.seq.order.filterMap (fun e => (s.job e).map (fun j => (e, j)))).find? (fun x => p x.2.kind && x.2.status.isNone)

/-- A hash request: input address, input length, output address, as words of the request (R304). -/
def hashJob (req : Nat) (s : State) : State × Nat :=
  if !inSram req 12 || s.anyMarked req 12 then (s, stFault)
  else
    let a := (s.wordAt req).toNat
    let n := (s.wordAt (req + 4)).toNat
    let o := (s.wordAt (req + 8)).toNat
    if !inSram a n || !inSram o 64 || s.anyMarked a n then (s, stFault)
    else (writeBytes o (digestBytes (Config.sha3_512 (s.bytesAt a n))) s, stOk)

/-- HASH_JOB_END (R21): the oldest request of the hash unit completes. -/
def hashJobEnd (s : State) : State :=
  match s.oldestJob (fun k => match k with
    | .hash _ => true
    | _ => false) with
  | some (e, j) => match j.kind with
    | .hash req =>
      let r := hashJob req s
      perfCount 4 0x09 (endJob e r.2 r.1)
    | _ => s
  | none => s

/-- HASH_JOB_END (R21). -/
def execHashJobEnd (s : State) : Host.Outcome State Fault Refusal := .next (hashJobEnd s)

/-- A fresh random draw (R356). -/
def State.fresh (s : State) : Nat × State :=
  (s.trust.draws, { s with trust := { s.trust with draws := s.trust.draws + 1 } })

/-- TST.STATUS.id_ok. -/
def State.idOk (s : State) : Bool := s.flag TST.STATUS.id_ok

/-- The operation of a lattice job, at its end. The request block is laid out in words: 0 key address or slot, 1 message
or ciphertext address, 2 message length, 3 signature, ciphertext or key output address, 4 shared secret address. -/
def latticeJob (op req : Nat) (s : State) : State × Nat :=
  if !inSram req 20 || s.anyMarked req 20 then (s, stFault)
  else
    let w := fun k => (s.wordAt (req + 4 * k)).toNat
    match op with
    | 0 =>
      if !inSram (w 0) 2592 || !inSram (w 1) (w 2) || !inSram (w 3) 4627 then (s, stFault)
      else if Config.mldsaVerify (s.bytesAt (w 0) 2592) (s.bytesAt (w 1) (w 2)) (s.bytesAt (w 3) 4627) then (s, stOk)
      else (s, stVerifyFail)
    | 1 =>
      if !s.idOk || !inSram (w 1) (w 2) || !inSram (w 3) 4627 then (s, stFault)
      else
        let sig := Config.mldsaSign s.signCount (s.bytesAt (w 1) (w 2))
        (writeBytes (w 3) (sig.take 4627) (s.withSignCount (s.signCount + 1)), stOk)
    | 2 =>
      if !inSram (w 0) 1568 || !inSram (w 3) 1568 || !inSram (w 4) 32 then (s, stFault)
      else
        let d := s.fresh
        let key := s.bytesAt (w 0) 1568
        let t := writeBytes (w 3) ((Config.mlkemCipher d.1 key).take 1568) d.2
        (writeBytes (w 4) (bytesBE 32 (Config.mlkemShared d.1 key).toNat) t, stOk)
    | 3 =>
      match s.trust.kem.find? (fun e => e.1 == w 0) with
      | none => (s, stFault)
      | some e =>
        if !inSram (w 1) 1568 || !inSram (w 4) 32 then (s, stFault)
        else
          let key := Config.mlkemDecapsulate (Config.mlkemSecret e.2) (s.bytesAt (w 1) 1568)
          (writeBytes (w 4) (bytesBE 32 key.toNat) s, stOk)
    | 4 =>
      if !inSram (w 3) 1568 then (s, stFault)
      else
        let d := s.fresh
        let t := { d.2 with trust := { d.2.trust with
          kem := d.2.trust.kem.filter (fun e => e.1 != w 0) ++ [(w 0, d.1)] } }
        (writeBytes (w 3) ((Config.mlkemPublic d.1).take 1568) t, stOk)
    | _ => (s, stFault)

/-- The oldest lattice job ends; a signature not found at 6 ms ends with FAULT (R357). -/
def latticeJobEnd (failed : Bool) (s : State) : State :=
  match s.oldestJob (fun k => match k with
    | .lattice _ _ => true
    | _ => false) with
  | some (e, j) => match j.kind with
    | .lattice op req =>
      let r := if op = 1 && failed then (s, stFault) else latticeJob op req s
      perfCount 4 0x0A (endJob e r.2 r.1)
    | _ => s
  | none => s

end Sys2Proof.Machine
end

