-- ==== Sys2Proof/Machine/Keys.lean ====
section
/-! DEFINITION. Digests in registers, measurements, owner slots and signatures (spec/17_security.md, R351 to R358, R368). -/

namespace Sys2Proof.Machine

/-- The 512-bit digest of some bytes. -/
def sha (l : List Byte) : BitVec 512 := Config.sha3_512 l

/-- The first 8 bytes of a digest. -/
def first8 (d : BitVec 512) : Nat := d.toNat / 2 ^ 448

/-- Write a digest into 16 registers, its first four bytes into the first. -/
def State.setDigest (s : State) (a : Nat) (d : BitVec 512) : State :=
  (List.range 16).foldl (fun s w => s.setWord (a + 4 * w) (BitVec.ofNat 32 (d.toNat / 2 ^ (32 * (15 - w))))) s

/-- The digest in 16 registers. -/
def State.digestAt (s : State) (a : Nat) : BitVec 512 :=
  BitVec.ofNat 512 ((List.range 16).foldl (fun acc w => acc * 2 ^ 32 + (s.word (a + 4 * w)).toNat) 0)

/-- Extend measurement register `i` (R368). -/
def extendMeas (i : Nat) (d : BitVec 512) (s : State) : State :=
  let a := TST.MEAS + 64 * i
  tstEvent 3 (s.setDigest a (sha (digestBytes (s.digestAt a) ++ digestBytes d)))

/-! ### Owner slots (R351, R352) -/

/-- An empty slot. -/
def OwnerSlot.empty : OwnerSlot := { hash := 0, enrolled := false, revoked := false }

/-- An owner slot. -/
def State.owner (s : State) (k : Nat) : OwnerSlot := sget (fun _ => OwnerSlot.empty) s.trust.otp.owners k

/-- A slot is enrolled and not revoked. -/
def OwnerSlot.active (o : OwnerSlot) : Bool := o.enrolled && !o.revoked

/-- TST.STATUS's code of a slot. -/
def OwnerSlot.code (o : OwnerSlot) : Nat := if o.revoked then 2 else if o.enrolled then 1 else 0

/-- Some slot is active. -/
def State.anyOwner (s : State) : Bool := (List.range 4).any (fun k => (s.owner k).active)

/-- The active slot a key_id names. -/
def State.ownerOf (s : State) (keyId : Nat) : Option Nat :=
  (List.range 4).find? (fun k => (s.owner k).active && first8 (s.owner k).hash == keyId)

/-- TST.STATUS and TST.OWNER_HASH follow the OTP (R351). -/
def refreshTrust (s : State) : State :=
  let owners := ((List.range 4).map (fun k => (s.owner k).code * 4 ^ k)).sum
  let s := s.wrs [(TST.STATUS.owner, owners), (TST.STATUS.rollback, s.trust.otp.rollback),
    (TST.STATUS.sealed, bitNat (decide (s.trust.otp.sealBits ≠ 0)))]
  (List.range 4).foldl (fun s k => s.setDigest (TST.OWNER_HASH + 64 * k) (s.owner k).hash) s

/-- Change the OTP. -/
def State.modOtp (s : State) (f : Otp → Otp) : State := { s with trust := { s.trust with otp := f s.trust.otp } }

/-- A signature verifies under an owner slot's key and a context string (R354). -/
def State.ownerSigned (s : State) (slot : Nat) (context : String) (text sig : List Byte) : Bool :=
  Config.mldsaVerify (Config.keyOfHash (s.owner slot).hash) (ascii context ++ text) sig

/-! ### Identity (R354, R355) -/

/-- The first 8 bytes of the identity commitment. -/
def State.idTag (s : State) : Nat := first8 s.trust.otp.idCommit

/-- Replies, checkpoints and session messages need the identity key; without it the signature fails (R355). -/
def signWith (context : String) (m : SsMsg) (text : List Byte) (s : State) : State :=
  if s.idOk then askSignature { text := ascii context ++ text, use := .message m } s else s

/-! ### Fields of items, most significant byte first -/

/-- `k` bytes of an item from an offset. -/
def slice (l : List Byte) (a k : Nat) : List Byte := (l.drop a).take k

/-- The number in `k` bytes from an offset. -/
def fieldBE (l : List Byte) (a k : Nat) : Nat := numBE (slice l a k)

/-- All of `k` bytes from an offset are zero. -/
def zerosAt (l : List Byte) (a k : Nat) : Bool := (slice l a k).all (· == 0)

/-- The next multiple of 8. -/
def align8 (n : Nat) : Nat := (n + 7) / 8 * 8

end Sys2Proof.Machine
end

