-- ==== Sys2Proof/Machine/FwImage.lean ====
section
/-! DEFINITION. The firmware image: its form, its judgement and its modules (spec/17_security.md, R353, R354, R359, R360, R368). -/

namespace Sys2Proof.Machine

/-! ### Where the sections stand (R359) -/

/-- Offsets of the sections: the certificate behind the root key, the module table behind the certificate. -/
def fwRootAt : Nat := 64
def fwCertAt : Nat := 64 + 2592
def fwTableAt : Nat := align8 (fwCertAt + 7235)

/-- Modules of an image, and where its body starts. -/
def fwModuleCount (l : List Byte) : Nat := fieldBE l 6 2
def fwBodyAt (l : List Byte) : Nat := fwTableAt + 32 * fwModuleCount l

/-- The image without what stands behind it: its first image_len bytes. -/
def fwWhole (l : List Byte) : List Byte := l.take (fieldBE l 8 4)

/-- The countersignature section holds a signature: then the image's length is 3 above a multiple of 8, else 0. -/
def fwCountersigned (l : List Byte) : Bool := l.length % 8 == 3

/-- Where the countersignature section and the Eltal signature start. -/
def fwCounterAt (l : List Byte) : Nat := l.length - (if fwCountersigned l then 4635 else 8)
def fwSignatureAt (l : List Byte) : Nat := fwCounterAt l - 4632

/-- The svn of an image. -/
def fwSvn (l : List Byte) : Nat := fieldBE l 5 1

/-- The signing certificate. -/
def fwCert (l : List Byte) : List Byte := slice l fwCertAt 7235

/-- The measurement of an image: SHA3-512 over the header, the module table and the body. -/
def fwMeasurement (l : List Byte) : BitVec 512 :=
  sha (slice l 0 64 ++ slice l fwTableAt (32 * fwModuleCount l) ++ slice l (fwBodyAt l) (fwSignatureAt l - fwBodyAt l))

/-! ### Modules -/

/-- A row of the module table. -/
structure FwModule where
  digest : Nat
  offset : Nat
  len : Nat
  cores : Nat
  bounds : Nat
deriving DecidableEq, Repr

/-- The module table; a module's digest is named by its first 8 bytes. -/
def fwModules (l : List Byte) : List FwModule :=
  (List.range (fwModuleCount l)).map (fun k =>
    let a := fwTableAt + 32 * k
    { digest := fieldBE l a 8, offset := fieldBE l (a + 16) 4, len := fieldBE l (a + 20) 4, cores := fieldBE l (a + 24) 4,
      bounds := fieldBE l (a + 28) 4 })

/-- A module on each core of its load mask. -/
def fwPieces (l : List Byte) : List (Nat × FwModule) :=
  (fwModules l).flatMap (fun m => ((List.range 4).filter (fun c => m.cores.testBit c)).map (fun c => (c, m)))

/-- The modules as they are placed in instruction memory; the firmware chooses the places, one per module and core. -/
def placedModules (l : List Byte) (places : List Nat) : List Module :=
  ((fwPieces l).zipIdx).map (fun e =>
    { digest := e.1.2.digest, core := e.1.1, base := places.getD e.2 0, len := e.1.2.len })

/-- Copy the modules' code into instruction memory. -/
def writeModules (l : List Byte) (placed : List Module) (s : State) : State :=
  let m := ((fwPieces l).zip placed).foldl (fun (m : List (Nat × Word)) e =>
    (List.range (e.1.2.len / 4)).foldl (fun (m : List (Nat × Word)) i =>
      sput (fun _ => 0) m (2 ^ 15 * e.1.1 + e.2.base / 4 + i) (BitVec.ofNat 32 (fieldBE l (e.1.2.offset + 4 * i) 4))) m) s.seq.imem
  { s with seq := { s.seq with imem := m } }

/-! ### Judgement (R360) -/

/-- The form of an image. -/
def fwFormat (l : List Byte) : Bool :=
  fieldBE l 0 4 == 0x4E454657 && fieldBE l 4 1 == 1 && decide (fwSvn l ≤ 64) && zerosAt l 20 44 &&
    decide (fieldBE l 8 4 ≤ 0x800000) && fieldBE l 8 4 == l.length && (l.length % 8 == 0 || l.length % 8 == 3) &&
    decide (fwBodyAt l + 4632 + 8 ≤ l.length) && decide (fwBodyAt l ≤ fwSignatureAt l) &&
    (fwCountersigned l || fieldBE l (fwCounterAt l) 8 == 0) &&
    (fwModules l).all (fun m => decide (fwBodyAt l ≤ m.offset) && decide (m.offset + m.len ≤ fwSignatureAt l))

/-- The certificate: signed by the root key, for firmware signing. -/
def fwCertGood (l : List Byte) : Bool :=
  (fieldBE l (fwCertAt + 8) 4).testBit 0 && zerosAt l (fwCertAt + 12) 4 &&
    Config.mldsaVerify (slice l fwRootAt 2592) (ascii "SIRCOR-CERT" ++ slice l fwCertAt 2608) (slice l (fwCertAt + 2608) 4627)

/-- The Eltal signature over every byte before it. -/
def fwSigned (l : List Byte) : Bool :=
  Config.mldsaVerify (slice l (fwCertAt + 16) 2592) (ascii "SIRCOR-FW" ++ l.take (fwSignatureAt l)) (slice l (fwSignatureAt l) 4627)

/-- An owner's countersignature where some slot is active or the device is Sealed. -/
def State.fwCounterGood (s : State) (l : List Byte) : Bool :=
  if s.anyOwner || s.sealed then
    fwCountersigned l && (match s.ownerOf (fieldBE l (fwCounterAt l) 8) with
      | some k => s.ownerSigned k "SIRCOR-FWC" (l.take (fwCounterAt l + 8)) (slice l (fwCounterAt l + 8) 4627)
      | none => false)
  else true

/-- The result codes of TST.BOOT_STATUS (R378). -/
def bootOk : Nat := 1
def bootFormat : Nat := 2
def bootRoot : Nat := 3
def bootCert : Nat := 4
def bootEltal : Nat := 5
def bootCounter : Nat := 6
def bootRollback : Nat := 7

/-- The judgement of R360 on the bytes of an image. -/
def State.judgeFirmware (s : State) (flash : List Byte) : Nat :=
  let l := fwWhole flash
  if !fwFormat l then bootFormat
  else if sha (slice l fwRootAt 2592) ≠ s.trust.otp.rootHash then bootRoot
  else if !fwCertGood l then bootCert
  else if !fwSigned l then bootEltal
  else if !s.fwCounterGood l then bootCounter
  else if fwSvn l < s.trust.otp.rollback then bootRollback
  else bootOk

/-- The image in a flash slot: 0 A, 1 B (R431). -/
def State.flashSlot (s : State) (slot : Nat) : List Byte := if slot = 0 then s.trust.flash.imageA else s.trust.flash.imageB

/-- Replace a flash slot. -/
def setFlashSlot (slot : Nat) (l : List Byte) (s : State) : State :=
  let f := s.trust.flash
  let f := if slot = 0 then { f with imageA := l } else { f with imageB := l }
  { s with trust := { s.trust with flash := f } }

end Sys2Proof.Machine
end

