-- ==== Sys2Proof/Machine/WheelImage.lean ====
section
/-! DEFINITION. The Nelno image and its admission (spec/15_carousel_schedule.md, R314 to R328, R492, R493;
spec/06_neighbour_cancellation.md, R144, R145; spec/07_reach_mode.md, R169). -/

namespace Sys2Proof.Machine

/-! ### The header and the sections (R315, R316) -/

/-- The header of an image. -/
structure ImageHeader where
  wheelLen : Nat
  imageLen : Nat
  taskCount : Nat
  jobCount : Nat
  progLen : Nat
  powerMw : Nat
  imageId : Nat
  fwRef : Nat
  keyId : Nat
deriving DecidableEq, Repr

/-- Read the header. -/
def readHeader (l : List Byte) : ImageHeader :=
  { wheelLen := fieldBE l 6 2, imageLen := fieldBE l 8 4, taskCount := fieldBE l 12 2, jobCount := fieldBE l 14 2,
    progLen := fieldBE l 16 4, powerMw := fieldBE l 20 4, imageId := fieldBE l 24 8, fwRef := fieldBE l 32 8,
    keyId := fieldBE l 40 8 }

/-- Where the sections start. -/
def jobTableAt (h : ImageHeader) : Nat := 64 + 64 * h.taskCount
def descsAt (h : ImageHeader) : Nat := jobTableAt h + 8 * h.jobCount
def classesAt (h : ImageHeader) : Nat := descsAt h + 4096
def slotsAt (h : ImageHeader) : Nat := classesAt h + 32
def programsAt (h : ImageHeader) : Nat := slotsAt h + 64 * h.wheelLen
def signatureAt (h : ImageHeader) : Nat := align8 (programsAt h + h.progLen)
def imageEnd (h : ImageHeader) : Nat := signatureAt h + 4627

/-- The task record at an offset (R317). -/
def readTask (l : List Byte) (a : Nat) : TaskRec :=
  let f := fun o k => fieldBE l (a + o) k
  { core := f 0 1, task := f 1 1, user := f 2 1 == 0, port := if f 3 1 = 255 then none else some (f 3 1),
    period := f 4 2, release := f 6 2, deadline := f 8 2, inflightMax := f 10 2, wcet := f 12 4, digest := f 16 8,
    entry := f 24 4, imemBase := f 28 4, imemLen := f 32 4, dataBase := f 36 4, dataLen := f 40 4,
    tripMask := BitVec.ofNat 32 (f 44 4), words := (List.range 16).map (fun w => BitVec.ofNat 32 (f (4 * w) 4)) }

/-- The job record at an offset (R319). -/
def readJob (l : List Byte) (a : Nat) : JobRec :=
  { typ := fieldBE l a 1, owner := fieldBE l (a + 1) 1, arg := fieldBE l (a + 2) 2 }

/-- The slot record at an offset (R318). -/
def readSlot (l : List Byte) (a : Nat) : SlotRec :=
  { coreTask := (List.range 4).map (fun c => fieldBE l (a + c) 1),
    engineJob := (List.range 16).map (fun j => fieldBE l (a + 4 + 2 * j) 2),
    unitTask := (List.range 4).map (fun u => fieldBE l (a + 36 + u) 1),
    bankOwner := (List.range 16).map (fun k => fieldBE l (a + 40 + k) 1) }

/-- The tasks of an image, in table order. -/
def readTasks (l : List Byte) (h : ImageHeader) : List TaskRec :=
  (List.range h.taskCount).map (fun t => readTask l (64 + 64 * t))

/-- Two user tasks share one program (R315). -/
def sharesCode (x y : TaskRec) : Bool :=
  y.user && x.core == y.core && x.imemBase == y.imemBase && x.imemLen == y.imemLen && x.digest == y.digest

/-- The user tasks that carry code of their own, with the offset of that code in the section (R315). -/
def carriers (tasks : List TaskRec) : List (TaskRec × Nat) :=
  (tasks.foldl (fun (acc : List (TaskRec × Nat) × Nat) t =>
    if t.user && !acc.1.any (fun e => sharesCode t e.1) then (acc.1 ++ [(t, acc.2)], acc.2 + t.imemLen) else acc) ([], 0)).1

/-- The bytes of code carried. -/
def carried (tasks : List TaskRec) : Nat := ((carriers tasks).map (fun e => e.1.imemLen)).sum

/-- The instruction words of the user programs: keys 2^15 * core + word index. -/
def readCode (l : List Byte) (h : ImageHeader) (tasks : List TaskRec) : List (Nat × Word) :=
  (carriers tasks).flatMap (fun e => (List.range (e.1.imemLen / 4)).map (fun i =>
    (2 ^ 15 * e.1.core + e.1.imemBase / 4 + i, BitVec.ofNat 32 (fieldBE l (programsAt h + e.2 + 4 * i) 4))))

/-- Everything of an image. -/
def readImage (l : List Byte) : WheelImg :=
  let h := readHeader l
  let tasks := readTasks l h
  { imageId := BitVec.ofNat 64 h.imageId, fwRef := h.fwRef, declMw := h.powerMw, tasks := tasks,
    jobs := (List.range h.jobCount).map (fun j => readJob l (jobTableAt h + 8 * j)),
    descs := ((List.range 1024).map (fun b => (b, (BitVec.ofNat 32 (fieldBE l (descsAt h + 4 * b) 4) : Word)))).filter
      (fun e => decide (e.2 ≠ 0)),
    classes := (List.range 32).map (fun n => (n, fieldBE l (classesAt h + n) 1)),
    slots := (List.range h.wheelLen).map (fun i => readSlot l (slotsAt h + 64 * i)),
    code := readCode l h tasks, digest := sha l }

/-! ### The format check (R316 to R320, R492) -/

/-- A bank-owner code is one of the listed ones (R318). -/
def ownerCode (v : Nat) : Bool := decide (v ≤ 23) || v == 255

/-- The checks of the header, by byte offset. -/
def headerChecks (l : List Byte) (h : ImageHeader) : List (Nat × Bool) :=
  (List.range 4).map (fun i => (i, fieldBE l i 1 == 0x4E454C57 / 2 ^ (8 * (3 - i)) % 256)) ++
    [(4, fieldBE l 4 1 == 1), (5, fieldBE l 5 1 == 0),
     (8, h.imageLen == l.length && decide (h.imageLen ≤ 0x100000) && h.imageLen == imageEnd h),
     (12, decide (1 ≤ h.taskCount) && decide (h.taskCount ≤ 256)), (14, decide (h.jobCount ≤ 4096)),
     (16, h.progLen % 4 == 0 && carried (readTasks l h) == h.progLen)] ++
    (List.range 16).map (fun i => (48 + i, fieldBE l (48 + i) 1 == 0))

/-- The checks of the task table. A record that names a core and task an earlier one names is bad at its first byte. -/
def taskChecks (l : List Byte) (h : ImageHeader) : List (Nat × Bool) :=
  (List.range h.taskCount).flatMap (fun t =>
    let a := 64 + 64 * t
    let twice := (List.range t).any (fun u =>
      fieldBE l (64 + 64 * u) 1 == fieldBE l a 1 && fieldBE l (65 + 64 * u) 1 == fieldBE l (a + 1) 1)
    [(a, !twice && decide (fieldBE l a 1 ≤ 3)), (a + 1, decide (fieldBE l (a + 1) 1 ≤ 63)),
     (a + 2, decide (fieldBE l (a + 2) 1 ≤ 1)),
     (a + 3, decide (fieldBE l (a + 3) 1 ≤ 31) || fieldBE l (a + 3) 1 == 255)] ++
      (List.range 16).map (fun i => (a + 48 + i, fieldBE l (a + 48 + i) 1 == 0)))

/-- The checks of the other sections. -/
def sectionChecks (l : List Byte) (h : ImageHeader) : List (Nat × Bool) :=
  (List.range h.jobCount).flatMap (fun j => (List.range 4).map (fun i =>
    (jobTableAt h + 8 * j + 4 + i, fieldBE l (jobTableAt h + 8 * j + 4 + i) 1 == 0))) ++
  (List.range 32).map (fun n => (classesAt h + n, decide (fieldBE l (classesAt h + n) 1 ≤ 7))) ++
  (List.range h.wheelLen).flatMap (fun i =>
    let a := slotsAt h + 64 * i
    (List.range 16).map (fun k => (a + 40 + k, ownerCode (fieldBE l (a + 40 + k) 1))) ++
      (List.range 8).map (fun k => (a + 56 + k, fieldBE l (a + 56 + k) 1 == 0)))

/-- The first malformed byte. -/
def formatFault (l : List Byte) : Option Nat :=
  if l.length < 64 then some l.length
  else
    let h := readHeader l
    match (headerChecks l h).find? (fun c => !c.2) with
    | some c => some c.1
    | none => ((taskChecks l h ++ sectionChecks l h).find? (fun c => !c.2)).map (·.1)

/-! ### The expanded wheel (R314, R318) -/

/-- The record of a slot of the revolution. -/
def WheelImg.slot (w : WheelImg) (i : Nat) : SlotRec :=
  w.slots.getD (i % w.slots.length) { coreTask := [], engineJob := [], unitTask := [], bankOwner := [] }

/-- The task a core has in a slot. -/
def WheelImg.coreAt (w : WheelImg) (c i : Nat) : Option Nat :=
  let t := (w.slot i).coreTask.getD c 255
  if t = 255 then none else some (taskKey c t)

/-- The job of an engine in a slot. -/
def WheelImg.engineAt (w : WheelImg) (j i : Nat) : Option Nat :=
  let v := (w.slot i).engineJob.getD j 65535
  if v = 65535 then none else some v

/-- The task served by a unit in a slot: 0 diagnostic, 1 calibration, 2 hash, 3 lattice. -/
def WheelImg.unitAt (w : WheelImg) (u i : Nat) : Option Nat :=
  let v := (w.slot i).unitTask.getD u 255
  if v = 255 then none else some v

/-- The task of a key. -/
def WheelImg.task (w : WheelImg) (k : Nat) : Option TaskRec := w.tasks.find? (fun r => taskKey r.core r.task == k)

/-- The tasks in ascending core and task. -/
def WheelImg.sorted (w : WheelImg) : List TaskRec := (List.range 256).filterMap (fun k => w.task k)

/-- The key of a task record. -/
def TaskRec.key (r : TaskRec) : Nat := taskKey r.core r.task

/-- A slot lies in a window of a task (R322). -/
def TaskRec.inWindow (r : TaskRec) (i : Nat) : Bool :=
  decide ((i + 4096 - r.release % 4096) % r.period < r.deadline)

/-- The slots of the window of the release at slot `a`, in order. -/
def TaskRec.window (r : TaskRec) (a : Nat) : List Nat := (List.range r.deadline).map (fun d => (a + d) % 4096)

/-- The slots at which a task is released in one revolution. -/
def TaskRec.releases (r : TaskRec) : List Nat := (List.range (4096 / r.period)).map (fun k => (r.release + k * r.period) % 4096)

/-- Cycles a task can issue in the slots of a window, running total with the index of the slot (R296, R324). -/
def WheelImg.capacity (w : WheelImg) (r : TaskRec) (a : Nat) : List (Nat × Nat) :=
  ((r.window a).zipIdx.foldl (fun (acc : List (Nat × Nat) × Nat) e =>
    if w.coreAt r.core e.1 == some r.key then
      let c := acc.2 + (if w.coreAt r.core ((e.1 + 4095) % 4096) == some r.key then 125 else 124)
      (acc.1 ++ [(e.2, c)], c)
    else acc) ([], 0)).1

/-- Slack of a release: slots of its window behind the one in which the capacity reaches wcet; none where it does not. -/
def WheelImg.slack (w : WheelImg) (r : TaskRec) (a : Nat) : Option Nat :=
  if r.wcet = 0 then some r.deadline
  else ((w.capacity r a).find? (fun e => decide (r.wcet ≤ e.2))).map (fun e => r.deadline - (e.1 + 1))

/-! ### Ranges -/

/-- Two ranges (start, length) meet. -/
def meets (x y : Nat × Nat) : Bool := decide (x.1 < y.1 + y.2) && decide (y.1 < x.1 + x.2) && decide (0 < x.2) && decide (0 < y.2)

/-- Put a range where its start belongs. -/
def insertRange (x : Nat × Nat) : List (Nat × Nat) → List (Nat × Nat)
  | [] => [x]
  | y :: t => if x.1 ≤ y.1 then x :: y :: t else y :: insertRange x t

/-- Bytes of the union of ranges, each byte once. -/
def unionBytes (l : List (Nat × Nat)) : Nat :=
  ((l.foldl (fun acc x => insertRange x acc) []).foldl (fun (acc : Nat × Nat) x =>
    let from_ := max acc.2 x.1
    let to_ := max acc.2 (x.1 + x.2)
    (acc.1 + (to_ - from_), to_)) (0, 0)).1

/-! ### Outcomes (R325) -/

/-- A refusal: reason, offender kind, offender index. -/
structure Refused where
  reason : Nat
  kind : Nat
  index : Nat
deriving DecidableEq, Repr

def rsFormat : Nat := 1
def rsSignature : Nat := 2
def rsFwMismatch : Nat := 3
def rsAuditFull : Nat := 4
def rsLength : Nat := 5
def rsTasks : Nat := 6
def rsImemClash : Nat := 7
def rsImemFull : Nat := 8
def rsSramRange : Nat := 9
def rsSramFull : Nat := 10
def rsBankOwner : Nat := 11
def rsBankStarve : Nat := 12
def rsPeriod : Nat := 13
def rsDeadline : Nat := 14
def rsJob : Nat := 15
def rsJobTable : Nat := 16
def rsPool : Nat := 17
def rsPower : Nat := 24
def rsFetch : Nat := 25
def rsCancelled : Nat := 26

/-- A refusal whose offender is a task. -/
def refuseTask (reason : Nat) (r : TaskRec) : Refused := { reason := reason, kind := 1, index := r.key }

/-- The first of several checks that refuses. -/
def firstRefusal : List (Option Refused) → Option Refused
  | [] => none
  | some r :: _ => some r
  | none :: t => firstRefusal t

/-! ### Tasks, memory, banks (R324, R493) -/

/-- The modules whose code must stay: those of the running firmware, and of a verified image (R446, R493). -/
def State.residentModules (s : State) : List Module :=
  s.seq.modules ++ (if s.rd CHIP.FW_STATUS.state = 3 then s.seq.nextModules else [])

/-- The modules supervisor tasks are judged against: the verified image's while FW_STATUS reads VERIFIED (R446). -/
def State.judgedModules (s : State) : List Module :=
  if s.rd CHIP.FW_STATUS.state = 3 then s.seq.nextModules else s.seq.modules

/-- fw_ref is judged against this measurement's first 8 bytes (R324, R446). -/
def State.judgedFwRef (s : State) : Nat :=
  match s.fw.verified with
  | some v => if s.rd CHIP.FW_STATUS.state = 3 then first8 v.1 else first8 s.fw.measurement
  | none => first8 s.fw.measurement

/-- TASKS: every name of a slot is a task of the table; offender kind 2. -/
def checkNames (w : WheelImg) : Option Refused :=
  ((List.range 4096).find? (fun i =>
    (List.range 4).any (fun c => match w.coreAt c i with
      | some k => (w.task k).isNone || decide (64 ≤ (w.slot i).coreTask.getD c 255)
      | none => false) ||
    (List.range 4).any (fun u => match w.unitAt u i with
      | some k => (w.task k).isNone
      | none => false))).map (fun i => { reason := rsTasks, kind := 2, index := i })

/-- FW_MISMATCH and IMEM_CLASH of one task. -/
def State.checkProgram (s : State) (r : TaskRec) : Option Refused :=
  let range := (r.imemBase, r.imemLen)
  if !r.user && !s.judgedModules.any (fun m => m.core == r.core && m.digest == r.digest) then some (refuseTask rsFwMismatch r)
  else if r.user && (decide (0x20000 < r.imemBase + r.imemLen) ||
      s.residentModules.any (fun m => m.core == r.core && meets range (m.base, m.len))) then some (refuseTask rsImemClash r)
  else if s.wheel.active.tasks.any (fun a => a.core == r.core && meets range (a.imemBase, a.imemLen) &&
      !(a.digest == r.digest && a.imemBase == r.imemBase)) then some (refuseTask rsImemClash r)
  else none

/-- IMEM_FULL on one core. -/
def State.checkImem (s : State) (w : WheelImg) (c : Nat) : Option Refused :=
  let first := (s.residentModules.filter (fun m => m.core == c)).map (fun m => (m.base, m.len)) ++
    (s.wheel.active.tasks.filter (fun r => r.user && r.core == c)).map (fun r => (r.imemBase, r.imemLen))
  let mine := w.sorted.filter (fun r => r.core == c)
  let users := mine.filter (·.user)
  let exceeds := fun k => decide (0x20000 < unionBytes (first ++ (users.take k).map (fun r => (r.imemBase, r.imemLen))))
  if exceeds users.length then
    if exceeds 0 then some { reason := rsImemFull, kind := 1, index := match mine.head? with
      | some r => r.key
      | none => taskKey c 0 }
    else match (List.range users.length).find? (fun k => exceeds (k + 1)) with
      | some k => (users[k]?).map (refuseTask rsImemFull)
      | none => none
  else none

/-- SRAM_RANGE of one task. -/
def checkRange (r : TaskRec) : Option Refused :=
  if r.user && (decide (sramSize < r.dataBase + r.dataLen) ||
      meets (r.dataBase, r.dataLen) (Config.fwBase, Config.fwLength)) then some (refuseTask rsSramRange r) else none

/-- SRAM_FULL: the task at which the union first exceeds the memory. -/
def checkSram (w : WheelImg) : Option Refused :=
  let l := w.sorted
  let exceeds := fun k => decide (sramSize < unionBytes ((Config.fwBase, Config.fwLength) ::
    (l.take k).map (fun r => (r.dataBase, r.dataLen)))) ||
    (l.take k).any (fun r => decide (0 < r.dataLen) && decide (sramSize < r.dataBase + r.dataLen))
  match (List.range l.length).find? (fun k => exceeds (k + 1)) with
  | some k => (l[k]?).map (refuseTask rsSramFull)
  | none => none

/-- A bank owner names something the slot assigns (R318). -/
def WheelImg.ownerAssigned (w : WheelImg) (i v : Nat) : Bool :=
  if v = 255 then true
  else if v < 4 then (w.coreAt v i).isSome
  else if v < 20 then (w.engineAt (v - 4) i).isSome
  else (w.unitAt (v - 20) i).isSome

/-- The owner of a bank in a slot, 255 for none. -/
def WheelImg.owner (w : WheelImg) (k i : Nat) : Nat := (w.slot i).bankOwner.getD k 255

/-- BANK_OWNER, offender kind 2; BANK_STARVE, offender kind 5 (R23). -/
def checkBanks (w : WheelImg) : Option Refused :=
  match (List.range 4096).find? (fun i => (List.range 16).any (fun k => !w.ownerAssigned i (w.owner k i))) with
  | some i => some { reason := rsBankOwner, kind := 2, index := i }
  | none => ((List.range 16).find? (fun k => (List.range 4096).any (fun i =>
      (List.range 8).all (fun d => w.owner k ((i + d) % 4096) != 255)))).map (fun k =>
        { reason := rsBankStarve, kind := 5, index := k })

/-- A power of two from 1 to 4,096. -/
def periodOk (p : Nat) : Bool := (List.range 13).any (fun e => p == 2 ^ e)

/-- PERIOD and DEADLINE of one task. -/
def checkTiming (w : WheelImg) (r : TaskRec) : Option Refused :=
  if !periodOk r.period || decide (r.period ≤ r.release) || r.deadline == 0 || decide (r.period < r.deadline) then
    some (refuseTask rsPeriod r)
  else if (List.range 4096).any (fun i => w.coreAt r.core i == some r.key && !r.inWindow i) then some (refuseTask rsPeriod r)
  else if r.releases.any (fun a => (w.slack r a).isNone) then some (refuseTask rsDeadline r)
  else none

/-! ### Jobs and the pool (R319, R144, R169, R437) -/

/-- The descriptor of a block in an image. -/
def WheelImg.desc (w : WheelImg) (b : Nat) : Word := sget (fun _ => 0) w.descs b

/-- A job record is good (R319). -/
def jobGood (w : WheelImg) (j : JobRec) : Bool :=
  decide (j.typ ≤ 3) && (w.task j.owner).isSome &&
    (if j.typ = 0 then decide (j.arg < 1024) && descValid (w.desc j.arg) && descKind (w.desc j.arg) == 0
     else if j.typ = 2 then decide (j.arg < 1024) && descValid (w.desc j.arg) && descKind (w.desc j.arg) == 1
     else true)

/-- JOB: records, then engine slots; a retired engine cannot be named (R437). -/
def State.checkJobs (s : State) (w : WheelImg) : Option Refused :=
  match (List.range w.jobs.length).find? (fun j => match w.jobs[j]? with
    | some r => !jobGood w r
    | none => false) with
  | some j => some { reason := rsJob, kind := 3, index := j }
  | none => ((List.range 4096).find? (fun i => (List.range 16).any (fun e => match w.engineAt e i with
      | some j => decide (w.jobs.length ≤ j) || s.engineDead e
      | none => false))).map (fun i => { reason := rsJob, kind := 2, index := i })

/-- JOB_TABLE: the task at which the declared operations first exceed the table. -/
def checkTable (w : WheelImg) : Option Refused :=
  let l := w.sorted
  match (List.range l.length).find? (fun k => decide (12288 < ((l.take (k + 1)).map (·.inflightMax)).sum)) with
  | some k => (l[k]?).map (refuseTask rsJobTable)
  | none => none

/-- The valid blocks of an image. -/
def WheelImg.blocks (w : WheelImg) : List (Nat × Word) := w.descs.filter (fun e => descValid e.2)

/-- Two blocks of one kind, victim and aggressor cover a common lag, or common tones in one use. -/
def overlap (d e : Word) : Bool :=
  descKind d == descKind e && descVictim d == descVictim e && descAggressor d == descAggressor e &&
    (if descKind d = 0 then decide (descOffset d < descOffset e + 64) && decide (descOffset e < descOffset d + 64)
     else descUse d == descUse e && decide (descOffset d < descOffset e + 32) && decide (descOffset e < descOffset d + 32))

/-- The block a job record serves. -/
def JobRec.block (j : JobRec) : Option Nat := if j.typ = 0 || j.typ = 2 then some j.arg else none

/-- The blocks the engines serve in a slot. -/
def WheelImg.served (w : WheelImg) (i : Nat) : List Nat :=
  (List.range 16).filterMap (fun e => (w.engineAt e i).bind (fun j => (w.jobs[j]?).bind JobRec.block))

/-- A list with a repeated element. -/
def hasTwice : List Nat → Option Nat
  | [] => none
  | x :: t => if t.contains x then some x else hasTwice t

/-- The first block that fails a test. -/
def firstBlock (reason : Nat) (l : List (Nat × Word)) (bad : Nat × Word → Bool) : Option Refused :=
  (l.find? bad).map (fun e => { reason := reason, kind := 4, index := e.1 })

/-- The checks of R144, in order. -/
def checkPool (w : WheelImg) : Option Refused :=
  let l := w.blocks
  let all := (List.range w.slots.length).flatMap (fun i => w.served i)
  firstRefusal
    [firstBlock rsPool l (fun e => decide (2 ≤ descKind e.2) || (descKind e.2 == 1 && descUse e.2 == 3)),
     firstBlock (rsPool + 1) l (fun e => descKind e.2 == 0 && descVictim e.2 / 4 == descAggressor e.2 / 4),
     firstBlock (rsPool + 2) l (fun e => decide ((if descKind e.2 = 0 then 1216 else 480) < descOffset e.2)),
     firstBlock (rsPool + 3) l (fun e => l.any (fun f => decide (f.1 < e.1) && overlap f.2 e.2)),
     firstBlock (rsPool + 4) l (fun e =>
       decide (32 < (l.filter (fun f => decide (f.1 ≤ e.1) && descVictim f.2 == descVictim e.2)).length)),
     firstBlock (rsPool + 5) l (fun e => !all.contains e.1),
     ((List.range w.slots.length).findSome? (fun i => hasTwice (w.served i))).map (fun b =>
       { reason := rsPool + 6, kind := 4, index := b })]

/-! ### Power (R320, R326, R327) -/

/-- The figure of a port class in 0.01 mW. -/
def classCharge (c : Nat) : Nat := 100 * [3, 120, 330, 520, 700, 950, 1100, 1180].getD c 0

/-- The terms of the charge after the common logic, in 0.01 mW: offender kind and index, figure. -/
def chargeTerms (w : WheelImg) : List (Nat × Nat × Nat) :=
  (List.range 32).map (fun n => (6, n, classCharge (sget (fun _ => 0) w.classes n))) ++
    w.blocks.map (fun e => (4, e.1, 375))

/-- The charge of a wheel in 0.01 mW. -/
def WheelImg.charge (w : WheelImg) : Nat := 120000 + ((chargeTerms w).map (·.2.2)).sum

/-- The ceiling in force in 0.01 mW (R327). -/
def State.ceiling (s : State) : Nat := s.act WHEEL.CEIL_CFG.ceiling_mw * 400

/-- The term at which the running sum first exceeds a limit. -/
def overTerm (limit : Nat) : Nat → List (Nat × Nat × Nat) → Option Refused
  | _, [] => none
  | sum, t :: l =>
    if limit < sum + t.2.2 then some { reason := rsPower, kind := t.1, index := t.2.1 } else overTerm limit (sum + t.2.2) l

/-- POWER. -/
def State.checkPower (s : State) (w : WheelImg) : Option Refused := overTerm s.ceiling 120000 (chargeTerms w)

/-! ### Admission (R324) -/

/-- The wheel lengths of R314. -/
def lengthOk (n : Nat) : Bool := [8, 16, 32, 64, 128, 256, 512, 1024, 2048, 4096].contains n

/-- All checks of R324 on the image's bytes, in order: the first refusal, or the wheel. -/
def State.admission (s : State) (l : List Byte) : Refused ⊕ WheelImg :=
  match formatFault l with
  | some o => .inl { reason := rsFormat, kind := 7, index := o }
  | none =>
    let h := readHeader l
    let w := readImage l
    let signed := match s.ownerOf h.keyId with
      | some k => s.ownerSigned k "SIRCOR-NIMG" (l.take (signatureAt h)) (l.drop (signatureAt h))
      | none => false
    let plain := fun reason => some { reason := reason, kind := 0, index := 0 }
    match firstRefusal
      [if signed then none else plain rsSignature,
       if h.fwRef = s.judgedFwRef then none else plain rsFwMismatch,
       if s.auditFull then plain rsAuditFull else none,
       if lengthOk h.wheelLen then none else plain rsLength] with
    | some r => .inl r
    | none =>
      match firstRefusal
        ([checkNames w] ++ w.sorted.map s.checkProgram ++ (List.range 4).map (s.checkImem w) ++ w.sorted.map checkRange ++
          [checkSram w, checkBanks w] ++ w.sorted.map (checkTiming w) ++
          [s.checkJobs w, checkTable w, checkPool w, s.checkPower w]) with
      | some r => .inl r
      | none => .inr w

end Sys2Proof.Machine
end

