-- ==== Sys2Proof/Machine/Calibration.lean ====
section
/-! DEFINITION. Calibration, spares and the rotation self-test (spec/11_calibration.md, R436, R440, R441). -/

namespace Sys2Proof.Machine

/-! ### Elements (R249) -/

/-- An element nothing has changed: 16 of 18 sub-converters and 64 of 72 driver cells are active, the rest spare. -/
def Elem.initial (key : Nat) : Elem :=
  let w := key % 90
  let spare := (16 ≤ w && w < 18) || 82 ≤ w
  { role := if spare then 1 else 0, pos := if spare then 0 else if w < 18 then w else w - 18, skew := 0, gain := 0, trim := 0,
    short := 0 }

/-- Element `w` of pair `v`. -/
def State.elem (s : State) (v w : Nat) : Elem := sget Elem.initial s.cal.elems (90 * v + w)

/-- Change an element. -/
def State.modElem (s : State) (v w : Nat) (f : Elem → Elem) : State :=
  { s with cal := { s.cal with elems := supd Elem.initial s.cal.elems (90 * v + w) f } }

/-- OK visits of a spare at the position it shadows. -/
def State.shadowCount (s : State) (v w : Nat) : Nat := sget (fun _ => 0) s.cal.shadow (90 * v + w)

/-- Set a spare's shadow count. -/
def State.setShadow (s : State) (v w k : Nat) : State :=
  { s with cal := { s.cal with shadow := sput (fun _ => 0) s.cal.shadow (90 * v + w) k } }

/-- Elements of the kind of element `w`: sub-converters or driver cells. -/
def kindOf (w : Nat) : List Nat := if w < 18 then List.range 18 else (List.range 72).map (· + 18)

/-- Free spares of a kind on a pair, lowest first: those no replacement has claimed. -/
def State.freeSpares (s : State) (v : Nat) (kind : List Nat) : List Nat :=
  kind.filter (fun w => (s.elem v w).role == 1 && !s.cal.switches.any (fun x => x.pair == v && x.spare == w))

/-- PAIR_CAL's counts of free spares. -/
def syncSpares (v : Nat) (s : State) : State :=
  s.wrs [(CAL.PAIR_CAL.adc_spares.nth v, (s.freeSpares v (kindOf 0)).length),
    (CAL.PAIR_CAL.drv_spares.nth v, (s.freeSpares v (kindOf 18)).length)]

/-- A spare starts to shadow a position (R250). -/
def shadowAt (v w pos : Nat) (s : State) : State := (s.modElem v w (fun e => { e with pos := pos })).setShadow v w 0

/-! ### Which pairs are visited (R242, R243) -/

/-- A pair that the round visits. -/
def State.eligible (s : State) (v : Nat) : Bool :=
  let n := v / 4
  let st := s.fsm n
  !s.flag (P.LINE_STATUS.port_off.port n) && st != fsmOff &&
    !(s.inData n && s.modeNow n == modeBaseT && s.rateNow n == 0 && decide (2 ≤ v % 4)) &&
    !(st == fsmBus && v % 4 == 3)

/-- The next pair of the round from `v` on, wrapping. -/
def State.nextPair (s : State) (v : Nat) : Option Nat :=
  ((List.range 128).map (fun i => (v + i) % 128)).find? s.eligible

/-- Go on to the next visit: a forced pair first, else the next of the round; a wrap completes a round (R243, R253). -/
def nextVisit (s : State) : State :=
  match s.cal.forced with
  | (v, _) :: _ => s.wr CAL.STATUS.pair_now v
  | [] =>
    match s.nextPair s.cal.resume with
    | some v =>
      let s := if v < s.cal.resume || s.cal.resume = 128 then
          let revs := s.clk.rev.toNat - s.cal.roundRev
          { s.wr CAL.STATUS.round_revs (min 255 revs) with cal := { s.cal with roundRev := s.clk.rev.toNat } }
        else s
      s.wr CAL.STATUS.pair_now v
    | none => s

/-- CAL.STATUS.no_slots (R245): set while the wheel gives calibration no slot and a pair is eligible. -/
def judgeSlots (s : State) : State :=
  let unnamed := (List.range 4096).all (fun i => (s.wheel.active.unitAt 1 i).isNone)
  let none := unnamed && (List.range 128).any s.eligible
  let was := s.flag CAL.STATUS.no_slots
  let s := s.wr CAL.STATUS.no_slots (bitNat none)
  if none && !was then plainEvent 252 (s.word CAL.STATUS) s else s

/-! ### Judging a visit (R246) -/

/-- Status and reason of a visit: 1 OK, 2 STARVED, 3 BIASED. -/
def State.judgeVisit (s : State) (o : VisitObs) : Nat × Nat :=
  if o.samples < 2 ^ s.act CAL.CFG.min_exp then (2, 1)
  else if 100 * (s.act CAL.CFG.var_floor : Int) < o.varianceBelow then (2, 2)
  else if o.kurtosis < 100 * s.act CAL.CFG.kurt_lo then (3, 3)
  else if 100 * s.act CAL.CFG.kurt_hi < o.kurtosis then (3, 4)
  else if o.flatness < 10 * s.act CAL.CFG.flat_min then (3, 5)
  else (1, 0)

/-- A trim moved by half an estimated error, rounded toward zero, within its 10 bits (R241). -/
def trimStep (t e : Int) : Int := clampInt (-512) 511 (t - Int.tdiv e 2)

/-- Apply the estimated errors of a visit. Driver cells have one trim. -/
def applyErrors (v : Nat) (l : List (Fin 90 × Int × Int × Int)) (s : State) : State :=
  l.foldl (fun s x => s.modElem v x.1 (fun e =>
    { e with skew := if x.1.val < 18 then trimStep e.skew x.2.1 else e.skew,
             gain := if x.1.val < 18 then trimStep e.gain x.2.2.1 else e.gain,
             trim := trimStep e.trim x.2.2.2 })) s

/-- Replace the rotation step in progress. -/
def State.setRot (s : State) (r : Option RotTest) : State := { s with cal := { s.cal with rot := r } }

/-! ### Replacements (R250, R251) -/

/-- A trim has reached 15/16 of its range. -/
def Elem.worn (e : Elem) : Bool :=
  decide (480 ≤ e.skew.natAbs) || decide (480 ≤ e.gain.natAbs) || decide (480 ≤ e.trim.natAbs)

/-- Prepare a spare for the position of an element: one that already shadows it, else the lowest free one. -/
def prepare (v w : Nat) (why : SwitchWhy) (s : State) : Option State :=
  let pos := (s.elem v w).pos
  let free := s.freeSpares v (kindOf w)
  match (free.find? (fun x => (s.elem v x).pos == pos)).or free.head? with
  | none => none
  | some spare =>
    let s := if (s.elem v spare).pos = pos then s else shadowAt v spare pos s
    let ready := s.act CAL.SPARE_CFG.shadow_visits ≤ s.shadowCount v spare
    some { s with cal := { s.cal with switches := s.cal.switches ++
      [{ pair := v, elem := w, spare := spare, why := why, ready := ready }] } }

/-- Bits of CAL.PORT_CAUSE. -/
def calStarved : Nat := 0
def calBiased : Nat := 1
def calRieHigh : Nat := 2
def calReplaced : Nat := 3
def calSparesOut : Nat := 4
def calForced : Nat := 5

/-- Write the result of a rotation step's element and go on is the rotation test's affair; this ends a test at once, the
element back with its saved trims, its stand-in a spare again, the result NOT_RUN (R252). -/
def abandonTest (v w spare : Nat) (s : State) : State :=
  let pos := (s.elem v spare).pos
  let s := s.modElem v w (fun e => { e with role := 0 })
  let s := shadowAt v spare pos (s.modElem v spare (fun e => { e with role := 1 }))
  s.setRot (s.cal.rot.map (fun r => { r with elem := none, standIn := none, result := r.result.or (some 0) }))

/-- A replacement falls due (R251, R252). The result says whether it goes ahead. -/
def replaceDue (v w : Nat) (why : SwitchWhy) (s : State) : State × Bool :=
  if s.cal.switches.any (fun x => x.pair == v && x.elem == w && x.why != .test) then (s, true)
  else match prepare v w why s with
    | some s => (s, true)
    | none =>
      match s.cal.rot with
      | some r =>
        match r.elem, r.standIn with
        | some tested, some standIn =>
          if r.kind = 0 || r.index ≠ v || (tested < 18) != (w < 18) then (s, false)
          else if tested = w then
            ({ s with cal := { s.cal with switches := s.cal.switches ++
              [{ pair := v, elem := w, spare := standIn, why := why, ready := true }] } }, true)
          else
            let s := abandonTest v tested standIn s
            match prepare v w why s with
            | some s => (s, true)
            | none => (s, false)
        | _, _ => (s, false)
      | none => (s, false)

/-- The replacements a visit finds due: an active element with a worn trim, else the element with the largest share of a
residual error worse than the threshold. -/
def State.dueElement (s : State) (v : Nat) (o : VisitObs) : Option Nat :=
  match (List.range 90).find? (fun w => (s.elem v w).role == 0 && (s.elem v w).worn) with
  | some w => some w
  | none =>
    if o.rie ≠ 0 && decide (o.rie.toNat < 2 * s.act CAL.SPARE_CFG.replace_dbc) && (s.elem v o.worst).role == 0 then some o.worst.val
    else none

/-- Each spare's shadowing after an OK visit: the count at its position advances; a spare that no replacement has claimed
moves to the next position once it has its visits (R250). -/
def shadowVisit (v : Nat) (s : State) : State :=
  let need := s.act CAL.SPARE_CFG.shadow_visits
  let s := (List.range 90).foldl (fun s w =>
    if (s.elem v w).role ≠ 1 then s
    else
      let claimed := s.cal.switches.any (fun x => x.pair == v && x.spare == w)
      let positions := if w < 18 then 16 else 64
      if !claimed && decide (need ≤ s.shadowCount v w) then
        (shadowAt v w (((s.elem v w).pos + 1) % positions) s).setShadow v w 1
      else s.setShadow v w (s.shadowCount v w + 1)) s
  { s with cal := { s.cal with switches := s.cal.switches.map (fun x =>
      if x.pair = v && decide (need ≤ s.shadowCount v x.spare) then { x with ready := true } else x) } }

/-! ### Rotation test steps (R440, R441) -/

/-- BIST.CAUSE events: rot_fail 253, rot_short 254, jsp_permanent and start_result 255 (R444). -/
def bistEvent (b : Nat) (s : State) : State := causeEvent BIST.CAUSE b (min 255 (253 + b)) s

/-- The result of a run (R436): 0 NOT_RUN, 1 PASS, 2 FAIL, 3 INCOMPLETE. -/
def judgeRun (r : TestRun) : Nat :=
  if !r.signature then 2 else if r.count = 0 then 0 else if r.count = r.expected then 1 else 3

/-- The step ends: ROT_STATUS takes its result; the next step follows, after the 273rd a new round (R440). -/
def endStep (s : State) : State :=
  match s.cal.rot with
  | some r =>
    let step := s.cal.rotNext
    let s := s.wr BIST.ROT_STATUS.result (r.result.getD 1)
    let s := if step = 272 then s.addWrap BIST.ROT_STATUS.rounds 1 else s
    { s with cal := { s.cal with rot := none, rotNext := (step + 1) % 273 } }
  | none => s

/-- Go to the next element of a pair step that can be tested: a spare leaves its shadowing, an active element needs a free
spare; retired ones are passed over; the others read NOT_RUN (R440, R252). -/
def nextElement : (fuel : Nat) → State → State
  | 0, s => s
  | k + 1, s =>
    match s.cal.rot with
    | none => s
    | some r =>
      match r.rest with
      | [] => endStep s
      | w :: rest =>
        let v := r.index
        let go := fun (s : State) (x : RotTest) => s.setRot (some x)
        let claimed := s.cal.switches.any (fun x => x.pair == v && x.spare == w)
        match (s.elem v w).role with
        | 1 =>
          if claimed then nextElement k (go s { r with rest := rest, result := r.result.or (some 0) })
          else go ((s.modElem v w (fun e => { e with role := 2 })).setShadow v w 0) { r with rest := rest, elem := some w, standIn := none }
        | 0 =>
          match prepare v w .test s with
          | some s => go s { r with rest := rest, elem := none, standIn := none }
          | none => nextElement k (go s { r with rest := rest, result := r.result.or (some 0) })
        | _ => nextElement k (go s { r with rest := rest })

/-- Sub-converters or driver cells below the number a pair needs take the port off (R441). -/
def checkWorking (v : Nat) (s : State) : State :=
  let working := fun (l : List Nat) => (l.filter (fun w => (s.elem v w).role != 3)).length
  if working (kindOf 0) < 16 || working (kindOf 18) < 64 then
    let n := v / 4
    applyPortOff n (s.modLink n (fun l => { l with faulted := true }))
  else s

/-- A step that runs nothing reads NOT_RUN (R440, R51). -/
def skipStep (short : Bool) (s : State) : State :=
  let s := s.setRot (s.cal.rot.map (fun r => { r with result := some 0 }))
  let s := endStep s
  if short then bistEvent 1 s else s

/-- Start the next rotation step (R440). -/
def rotationStep (s : State) : State :=
  if !s.actFlag BIST.ROT_CFG.enable || s.cal.rot.isSome || s.safeHold then s
  else
    let step := s.cal.rotNext
    let kind := if step < 17 then 0 else if step < 145 then 1 else 2
    let index := if step < 17 then step else if step < 145 then step - 17 else step - 145
    let elems := if kind = 0 then [] else if kind = 1 then kindOf 0 else kindOf 18
    let s := s.wrs [(BIST.ROT_STATUS.result, 0), (BIST.ROT_STATUS.kind, kind), (BIST.ROT_STATUS.index, index),
      (BIST.ROT_STATUS.step, step)]
    let s := s.setRot (some { kind := kind, index := index, rest := elems, elem := none, standIn := none, result := none })
    if s.act BIST.ROT_CFG.patterns = 0 then skipStep true s
    else if kind = 0 then
      if s.flag CAL.JSP_STATUS.permanent || s.cal.retired.contains 16 || s.cal.retired.contains index then skipStep false s
      else
        let s := s.setRot (s.cal.rot.map (fun r => { r with elem := some index }))
        { s with cal := { s.cal with jspTake := if index < 16 then some index else none } }
    else if !s.eligible index then skipStep false s
    else nextElement 90 s

/-- JSP takes or gives back an engine's assignments, at a revolution boundary (R252). -/
def jspBoundary (s : State) : State :=
  let s := match s.cal.jspTake with
    | some k => { s.wrs [(CAL.JSP_STATUS.standing_in, 1), (CAL.JSP_STATUS.engine, k)] with cal := { s.cal with jspTake := none } }
    | none => s
  if s.cal.jspGive && !s.flag CAL.JSP_STATUS.permanent then
    { s.wrs [(CAL.JSP_STATUS.standing_in, 0), (CAL.JSP_STATUS.engine, 0)] with cal := { s.cal with jspGive := false } }
  else s

/-- JSP takes an engine's assignments permanently (R25, R441). -/
def jspPermanent (k : Nat) (s : State) : State :=
  let s := s.wrs [(CAL.JSP_STATUS.permanent, 1), (CAL.JSP_STATUS.standing_in, 1), (CAL.JSP_STATUS.engine, k)]
  bistEvent 2 { s with cal := { s.cal with retired := s.cal.retired ++ [k], jspTake := none, jspGive := false } }

/-- The outcome of an engine step (R441). -/
def engineResult (k result : Nat) (s : State) : State :=
  if result = 2 then
    if k = 16 then bistEvent 0 { s with cal := { s.cal with retired := s.cal.retired ++ [16] } }
    else jspPermanent k (bistEvent 0 s)
  else
    let s := { s with cal := { s.cal with jspGive := decide (k < 16) } }
    if result = 1 then s else bistEvent 1 s

/-- The outcome of an element (R441). -/
def elementResult (v w : Nat) (standIn : Option Nat) (result : Nat) (s : State) : State :=
  if result = 2 then
    let s := s.modElem v w (fun e => { e with role := 3 })
    let s := match standIn with
      | some x => s.modElem v x (fun e => { e with role := 0 })
      | none => s
    checkWorking v (bistEvent 0 (syncSpares v s))
  else
    let s := match standIn with
      | some x =>
        let pos := (s.elem v x).pos
        shadowAt v x pos (s.modElem v x (fun e => { e with role := 1 }))
      | none => s
    let s := s.modElem v w (fun e => { e with role := if standIn.isSome then 0 else 1 })
    let s := syncSpares v s
    if result = 1 then s else bistEvent 1 s

/-- A third consecutive INCOMPLETE counts as FAIL (R441); the second component is the new count. -/
def countShort (before result : Nat) : Nat × Nat :=
  if result = 3 then if 2 ≤ before then (2, 0) else (3, before + 1)
  else (result, if result = 0 then before else 0)

/-- An element's patterns end (R441). -/
def elementEnd (run : TestRun) (s : State) : State :=
  match s.cal.rot with
  | some r =>
    match r.elem with
    | some w =>
      let keep := fun (s : State) (res : Nat) =>
        s.setRot (some { r with elem := none, standIn := none, result := if res = 1 then r.result else r.result.or (some res) })
      if r.kind = 0 then
        let c := countShort (sget (fun _ => 0) s.cal.engineShort w) (judgeRun run)
        let s := { s with cal := { s.cal with engineShort := sput (fun _ => 0) s.cal.engineShort w c.2 } }
        endStep (keep (engineResult w c.1 s) c.1)
      else
        let c := countShort (s.elem r.index w).short (judgeRun run)
        let s := s.modElem r.index w (fun e => { e with short := c.2 })
        nextElement 90 (keep (elementResult r.index w r.standIn c.1 s) c.1)
    | none => s
  | none => s

/-! ### Switching in (R251, R252, R253) -/

/-- A spare takes its position at a rotation boundary: permanently, or for the test of the element it stands in for. -/
def switchIn (x : Switch) (s : State) : State :=
  let n := x.pair / 4
  let s := { s with cal := { s.cal with switches := s.cal.switches.filter (fun y => decide (y ≠ x)) } }
  let s := s.modElem x.pair x.spare (fun e => { e with role := 0, pos := (s.elem x.pair x.elem).pos })
  match x.why with
  | .test =>
    let s := s.modElem x.pair x.elem (fun e => { e with role := 2 })
    s.setRot (s.cal.rot.map (fun r => { r with elem := some x.elem, standIn := some x.spare }))
  | why =>
    let s := syncSpares x.pair (s.modElem x.pair x.elem (fun e => { e with role := 3 }))
    let s := match s.cal.rot with
      | some r => if r.kind ≠ 0 && r.index == x.pair && r.elem == some x.elem then
          nextElement 90 (s.setRot (some { r with elem := none, standIn := none, result := r.result.or (some 0) }))
        else s
      | none => s
    let s := calEvent n calReplaced s
    let s := if (s.freeSpares x.pair (kindOf x.elem)).isEmpty then calEvent n calSparesOut s else s
    if why = .commanded then calEvent n calForced s else s

/-! ### Commands of CAL.CMD (R253) -/

/-- A refused command: CAL.STATUS.cmd_refused, and in Sealed operation one AUDIT record. -/
def refuseCal (bit : Nat) (s : State) : State :=
  let s := s.wr CAL.STATUS.cmd_refused 1
  if s.sealed then audit 12 4 CAL.CMD (2 ^ bit) s else s

/-- The named pair's island is off. -/
def State.islandOff (s : State) (v : Nat) : Bool :=
  s.flag (P.LINE_STATUS.port_off.port (v / 4)) || s.fsm (v / 4) == fsmOff

/-- Start a forced visit; a refused one completes at once. -/
def startForce (s : State) : State :=
  let v := s.rd CAL.FORCE_SEL.pair
  if s.sealed || s.islandOff v then (refuseCal 0 s).setWc (wcKey CAL.CMD 0) ((s.wcLevel (wcKey CAL.CMD 0)) - 1)
  else { s with cal := { s.cal with forced := s.cal.forced ++ [(v, s.flag CAL.FORCE_SEL.override)] } }

/-- Start a commanded replacement of the element FORCE_SEL names; one that cannot go ahead is refused. -/
def startSwap (s : State) : State :=
  let v := s.rd CAL.FORCE_SEL.pair
  let w := s.rd CAL.FORCE_SEL.element + (if s.rd CAL.FORCE_SEL.kind = 0 then 0 else 18)
  let key := wcKey CAL.CMD 1
  let legal := s.rd CAL.FORCE_SEL.kind ≤ 1 && (if s.rd CAL.FORCE_SEL.kind = 0 then decide (w < 18) else decide (w < 90)) &&
    ((s.elem v w).role == 0 || (s.elem v w).role == 2)
  if s.sealed || s.islandOff v || !legal then (refuseCal 1 s).setWc key (s.wcLevel key - 1)
  else
    let r := replaceDue v w .commanded s
    if r.2 then r.1 else (refuseCal 1 r.1).setWc key (r.1.wcLevel key - 1)

/-- CAL.CMD.force written. -/
def forceCmd (s : State) : State := wcWrite CAL.CMD 0 startForce s

/-- CAL.CMD.swap written. -/
def swapCmd (s : State) : State := wcWrite CAL.CMD 1 startSwap s

/-! ### Visits (R241 to R248, R254) -/

/-- The word and the causes of a visit (R246, R247, R254). -/
def reportVisit (v status reason : Nat) (o : VisitObs) (s : State) : State :=
  let n := v / 4
  let before := s.rd (CAL.PAIR_CAL.status.nth v)
  let s := s.wrs [(CAL.PAIR_CAL.status.nth v, status), (CAL.PAIR_CAL.reason.nth v, reason),
    (CAL.PAIR_CAL.rie.nth v, o.rie.toNat)]
  let s := s.addWrap (CAL.PAIR_CAL.visit_seq.nth v) 1
  let idle := s.rd (P.LPI_STATUS.lpi_state.port n) ≠ 0
  let s := if status = 2 && reason = 2 && s.fsm n == fsmData && !idle then calEvent n calStarved s else s
  let s := if status = 3 && before ≠ 3 then calEvent n calBiased s else s
  if status = 1 && o.rie ≠ 0 && decide (o.rie.toNat < 120) then calEvent n calRieHigh s else s

/-- The replacements of a visit (R251). -/
def replaceAtVisit (v : Nat) (o : VisitObs) (s : State) : State :=
  if !s.actFlag CAL.SPARE_CFG.auto_replace then s
  else match s.dueElement v o with
    | some w =>
      let r := replaceDue v w .due s
      if r.2 then r.1 else calEvent (v / 4) calSparesOut r.1
    | none => s

/-- A visit's 32nd slot ends (R243). -/
def visitEnd (o : VisitObs) (s : State) : State :=
  if s.actFlag CAL.CFG.hold || s.flag CAL.STATUS.no_slots || s.safeHold then s
  else
    let v := s.rd CAL.STATUS.pair_now
    let forced := match s.cal.forced with
      | (f, ov) :: _ => if f = v then some ov else none
      | [] => none
    let s := if s.eligible v then
        let j := s.judgeVisit o
        let overridden := j.1 == 3 && forced == some true
        let status := if overridden then 5 else j.1
        let s := reportVisit v status j.2 o s
        let s := if status = 1 || overridden then applyErrors v o.errors s else s
        let s := if status = 1 then replaceAtVisit v o (shadowVisit v s) else s
        syncSpares v s
      else s
    let s := match forced with
      | some _ =>
        let s := { s with cal := { s.cal with forced := s.cal.forced.tail } }
        let s := calEvent (v / 4) calForced s
        wcDone CAL.CMD 0 startForce s
      | none => { s with cal := { s.cal with resume := v + 1 } }
    nextVisit s

/-- CAL_VISIT_END (R243). -/
def execCalVisitEnd (obs : VisitObs) (s : State) : Host.Outcome State Fault Refusal := .next (whileAwake (visitEnd obs) s)

/-- SPARE_SWITCH_IN (R251): the ready replacement or stand-in of the pair. -/
def execSpareSwitchIn (v : Fin 128) (s : State) : Host.Outcome State Fault Refusal :=
  .next <|
    match s.cal.switches.find? (fun x => x.pair == v.val && x.ready) with
    | some x =>
      let s := switchIn x s
      if x.why = .commanded then wcDone CAL.CMD 1 startSwap s else s
    | none => s

/-- FORCE (R253). -/
def execForce (s : State) : Host.Outcome State Fault Refusal := .next (hostCommand CAL.CMD forceCmd s)

/-- SWAP (R253). -/
def execSwap (s : State) : Host.Outcome State Fault Refusal := .next (hostCommand CAL.CMD swapCmd s)

/-- A trim window word (R255). -/
def Elem.word (w : Nat) (e : Elem) : Word :=
  let ten := fun (i : Int) => (i % 1024).toNat
  BitVec.ofNat 32 (e.role * 2 ^ 30 + (if w < 18 then ten e.skew * 2 ^ 20 + ten e.gain * 2 ^ 10 else 0) + ten e.trim)

/-- TRIM_SEL written: the pair's trims and roles are copied into the window. -/
def trimSelect (w : Word) (s : State) : State :=
  let v := w.toNat % 128
  let s := s.setWord CAL.TRIM_SEL (BitVec.ofNat 32 v)
  (List.range 90).foldl (fun s i => s.setWord (CAL.TRIM_WIN + 4 * i) ((s.elem v i).word i)) s

/-- TRIM_SEL_WRITE (R255). -/
def execTrimSelWrite (w : Word) (s : State) : Host.Outcome State Fault Refusal := .next (hostCommand CAL.TRIM_SEL (trimSelect w) s)

/-- ROTATION_STEP (R440). -/
def execRotationStep (s : State) : Host.Outcome State Fault Refusal := .next (whileAwake rotationStep s)

/-- ROTATION_ELEMENT_END (R441). -/
def execRotationElementEnd (run : TestRun) (s : State) : Host.Outcome State Fault Refusal := .next (elementEnd run s)

/-! ### Bank switches -/

/-- The cross-field check of a CAL bank (R255). -/
def calChecks (s : State) : State :=
  agree CAL.CFG.kurt_hi (max (s.act CAL.CFG.kurt_hi) (s.act CAL.CFG.kurt_lo + 1)) s

/-- A CAL bank has become active: with hold every pair reads HELD (R255). -/
def calBankActive (s : State) : State :=
  if s.actFlag CAL.CFG.hold then (List.range 128).foldl (fun s v => s.wr (CAL.PAIR_CAL.status.nth v) 4) s else s

end Sys2Proof.Machine
end

