-- ==== Sys2Proof/Machine/Wheel.lean ====
section
/-! DEFINITION. Loading a wheel, the bank switch, slots and windows (spec/15_carousel_schedule.md, R320 to R332). -/

namespace Sys2Proof.Machine

/-! ### LOAD_STATUS (R323, R332) -/

/-- LOAD_STATUS.state. -/
def lsIdle : Nat := 0
def lsFetching : Nat := 1
def lsVerifying : Nat := 2
def lsChecking : Nat := 3
def lsLoaded : Nat := 4
def lsSwitched : Nat := 5
def lsRefused : Nat := 6

/-- The loader's state. -/
def State.loadState (s : State) : Nat := s.rd WHEEL.LOAD_STATUS.state

/-- A load is in progress or LOADED. -/
def State.loading (s : State) : Bool := decide (1 ≤ s.loadState) && decide (s.loadState ≤ 4)

/-- Change the wheel's own state. -/
def State.modWheel (s : State) (f : Wheel → Wheel) : State := s.withWheel (f s.wheel)

/-- Write LOAD_STATUS whole but for revert_refused, which waits for its read. -/
def writeLoad (state reason revs : Nat) (s : State) : State :=
  s.wrs [(WHEEL.LOAD_STATUS.state, state), (WHEEL.LOAD_STATUS.reason, reason), (WHEEL.LOAD_STATUS.revs, min 4095 revs),
    (WHEEL.LOAD_STATUS.queued, bitNat s.wheel.queued.isSome)]

/-- The bit of LOAD_CMD a load was written to. -/
def loadBit (fromFlash : Bool) : Nat := if fromFlash then 1 else 0

/-- The key of LOAD_CMD's bits. -/
def loadKey (b : Nat) : Nat := wcKey WHEEL.LOAD_CMD b

/-- A load starts to fetch: the previous wheel's programs are given up (R329); too long an image ends it (R323). The last
component says that the load has ended already. -/
def beginLoad (fromFlash : Bool) (s : State) : State :=
  let s := s.modWheel (fun w => { w with
    fromFlash := fromFlash, loadVa := s.pair WHEEL.LOAD_ADDR WHEEL.LOAD_ADDR_HI, loadLen := s.rd WHEEL.LOAD_LEN.bytes,
    loadFrom := s.clk.rev.toNat, staged := [], loaded := none, previous := none })
  let s := s.setWc (loadKey (loadBit fromFlash)) 1
  let s := (s.wr WHEEL.BANK_STATUS.prev_valid 0).setWord WHEEL.LOAD_OFFENDER 0
  writeLoad lsFetching 0 0 s

/-- A load ends (R323): status, event 236, AUDIT record of type 6 where it was refused or has switched; a queued one
starts. -/
def endLoad (state reason kind index : Nat) (s : State) : State :=
  let bit := loadBit s.wheel.fromFlash
  let next := s.wheel.queued
  let revs := s.clk.rev.toNat - s.wheel.loadFrom
  let id := match s.wheel.loaded with
    | some w => w.imageId.toNat
    | none => if s.wheel.staged.isEmpty then 0 else (readHeader s.wheel.staged).imageId
  let s := s.modWheel (fun w => { w with staged := [], loaded := none, queued := none })
  let s := s.setWc (loadKey bit) 0
  let s := (writeLoad state reason revs s).setWord WHEEL.LOAD_OFFENDER (BitVec.ofNat 32 (kind * 2 ^ 29 + index))
  let s := if reason = rsCancelled then s else audit 6 reason 0 (id % 2 ^ 32) s
  let s := wheelEvent 0 s
  match next with
  | some f => beginLoad f s
  | none => s

/-- LOAD_CMD.load or from_flash written (R323): it starts, queues behind the load in progress, or is flagged. -/
def loadWrite (fromFlash : Bool) (s : State) : State :=
  if !s.loading then
    let s := beginLoad fromFlash s
    if !fromFlash && decide (0x100000 < s.wheel.loadLen) then endLoad lsRefused rsFetch 0 0 s else s
  else match s.wheel.queued with
    | none =>
      let s := s.modWheel (fun w => { w with queued := some fromFlash })
      let k := loadKey (loadBit fromFlash)
      (s.setWc k (s.wcLevel k + 1)).wr WHEEL.LOAD_STATUS.queued 1
    | some _ => ignored .queueFull WHEEL.LOAD_CMD s

/-- LOAD (R323). -/
def execLoad (s : State) : Host.Outcome State Fault Refusal := .next (hostCommand WHEEL.LOAD_CMD (loadWrite false) s)

/-- FROM_FLASH (R323). -/
def execFromFlash (s : State) : Host.Outcome State Fault Refusal := .next (hostCommand WHEEL.LOAD_CMD (loadWrite true) s)

/-- The image has been fetched (R323): from host memory with what it returned, or from flash. -/
def imageFetched (result : ReadResult) (s : State) : State :=
  if s.loadState ≠ lsFetching then s
  else
    let got := if s.wheel.fromFlash then ReadResult.data s.trust.flash.nelno else result
    match got with
    | .error => endLoad lsRefused rsFetch 0 0 s
    | .data bytes =>
      if 0x100000 < bytes.length then endLoad lsRefused rsFetch 0 0 s
      else writeLoad lsVerifying 0 (s.clk.rev.toNat - s.wheel.loadFrom) (s.modWheel (fun w => { w with staged := bytes }))

/-- WHEEL_IMAGE_FETCHED (R323). -/
def execWheelImageFetched (result : ReadResult) (s : State) : Host.Outcome State Fault Refusal := .next (imageFetched result s)

/-- Slots of a revolution in which a unit is assigned. -/
def WheelImg.share (w : WheelImg) (u : Nat) : Nat :=
  ((List.range 4096).filter (fun i => (w.unitAt u i).isSome)).length

/-- The smallest slack of a wheel: slots, and the task that has it. -/
def WheelImg.leastSlack (w : WheelImg) : Option (Nat × TaskRec) :=
  (w.sorted.flatMap (fun r => r.releases.map (fun a => ((w.slack r a).getD 0, r)))).foldl
    (fun (acc : Option (Nat × TaskRec)) (e : Nat × TaskRec) => match acc with
      | some m => if e.1 < m.1 then some e else some m
      | none => some e) none

/-- A verified firmware image and a wheel made for it are LOADED for activation: the new modules stand in instruction memory
beside the old ones (R446). -/
def readyToActivate (s : State) : State :=
  (writeModules (fwWhole (s.flashSlot (s.rd CHIP.FW_STATUS.slot))) s.seq.nextModules s).wr CHIP.FW_STATUS.state 4

/-- A wheel was made for the verified image. -/
def State.madeForVerified (s : State) (w : WheelImg) : Bool :=
  match s.fw.verified with
  | some v => w.fwRef == first8 v.1
  | none => false

/-- An admitted image: the user programs are in instruction memory, the report reads, the load is LOADED (R323, R332). -/
def admitted (w : WheelImg) (s : State) : State :=
  let s := { s with seq := { s.seq with imem := w.code.foldl (fun (m : List (Nat × Word)) (e : Nat × Word) => sput (fun _ => 0) m e.1 e.2) s.seq.imem } }
  let s := s.modWheel (fun v => { v with loaded := some w })
  let s := s.wrs [(WHEEL.REPORT.charge_mw, w.charge / 100), (WHEEL.REPORT.decl_mw, w.declMw / 4),
    (WHEEL.SHARE.lattice, min 4095 (w.share 3)), (WHEEL.SHARE.hash, min 4095 (w.share 2))]
  let s := match w.leastSlack with
    | some m => s.wrs [(WHEEL.SLACK.slack, min 4095 m.1), (WHEEL.SLACK.core, m.2.core), (WHEEL.SLACK.task, m.2.task)]
    | none => s.setWord WHEEL.SLACK 0
  let s := if s.fw.activate && s.rd CHIP.FW_STATUS.state = 3 && s.madeForVerified w then readyToActivate s else s
  writeLoad lsLoaded 0 (s.clk.rev.toNat - s.wheel.loadFrom) s

/-- Verification and admission are over (R323, R324). -/
def admissionDone (s : State) : State :=
  if s.loadState ≠ lsVerifying && s.loadState ≠ lsChecking then s
  else match s.admission s.wheel.staged with
    | .inl r => endLoad lsRefused r.reason r.kind r.index s
    | .inr w => admitted w s

/-- WHEEL_ADMISSION_DONE (R324). -/
def execWheelAdmissionDone (s : State) : Host.Outcome State Fault Refusal := .next (admissionDone s)

/-- LOAD_CMD.cancel (R331). -/
def cancelLoad (s : State) : State :=
  if s.loading then wheelEvent 3 (endLoad lsRefused rsCancelled 0 0 s) else s

/-- CANCEL (R331). -/
def execCancel (s : State) : Host.Outcome State Fault Refusal := .next (hostCommand WHEEL.LOAD_CMD cancelLoad s)

/-- LOAD_CMD.revert, once Sealed operation has let it through (R331). -/
def revertWrite (s : State) : State :=
  if s.wheel.previous.isNone then s.wr WHEEL.LOAD_STATUS.revert_refused 1
  else if s.loading then s
  else s.modWheel (fun w => { w with reverting := true })

/-- REVERT (R331): a configuration write, refused in Sealed operation with reason SEALED (R53). -/
def revertCmd (s : State) : State :=
  if s.sealed then refuseSealed WHEEL.LOAD_CMD 4 s
  else revertWrite s

/-- REVERT (R331). -/
def execRevert (s : State) : Host.Outcome State Fault Refusal := .next (hostCommand WHEEL.LOAD_CMD revertCmd s)

/-! ### The bank switch (R328 to R330) -/

/-- A task of the new wheel that goes on where it was (R329). -/
def keptTask (old : WheelImg) (r : TaskRec) : Bool :=
  match old.task r.key with
  | some o => o.digest == r.digest && o.imemBase == r.imemBase
  | none => false

/-- A task absent from the new wheel: its context goes, its queued jobs end, its running ones and its DMA operations
complete as if detached (R329). -/
def dropTask (r : TaskRec) (s : State) : State :=
  let s := s.setCtx r.key Ctx.reset
  (s.seq.jobs.filter (fun x => x.2.core == r.core && x.2.task == r.task)).foldl (fun s x => match x.2.kind, x.2.status with
    | .dma _ _ _, none => s.setJob x.1 (some { x.2 with detach := true })
    | _, _ => abandonJob x.1 s) s

/-- A queued engine job names a job whose record differs in the new wheel (R329). -/
def jobChanged (old new : WheelImg) (j : Job) : Bool :=
  match j.kind with
  | .engine id _ => !j.started && !(decide (old.jobs[id]? = new.jobs[id]?))
  | _ => false

/-- Make a wheel the active one: contexts, jobs, pool, classes (R329). -/
def carryAcross (new : WheelImg) (s : State) : State :=
  let old := s.wheel.active
  let s := { s with wheel := { s.wheel with
    active := new, previous := some old, loaded := none, reverting := false, switchRev := true, late := [], windows := [] } }
  let s := (s.wr WHEEL.BANK_STATUS.active_bank (1 - s.rd WHEEL.BANK_STATUS.active_bank)).wr WHEEL.BANK_STATUS.prev_valid 1
  let s := s.setPair WHEEL.ACTIVE_ID WHEEL.ACTIVE_ID_HI new.imageId.toNat
  let s := (old.tasks.filter (fun r => (new.task r.key).isNone)).foldl (fun s r => dropTask r s) s
  let s := new.tasks.foldl (fun s r =>
    if keptTask old r && !(s.ctx r.key).quarantined then s else startTask r s) s
  let s := abandonJobs (jobChanged old new) s
  let s := switchBlocks new.descs s
  let s := s.withClasses (new.classes.filter (fun e => e.2 ≠ 7))
  (List.range 32).foldl (fun s n => applyClass n s) s

/-- The switch, after R328 let it through: measurement 3 and AUDIT record of type 6 with it (R368, R374). -/
def switchTo (new : WheelImg) (s : State) : State :=
  wheelEvent 1 (extendMeas 3 new.digest (carryAcross new s))

/-- The new modules become the running firmware (R446, R447). -/
def switchFirmware (s : State) : State :=
  match s.fw.verified with
  | none => s
  | some v =>
    let slot := s.rd CHIP.FW_STATUS.slot
    let s := { s with
      fw := { s.fw with measurement := v.1, svn := v.2.2, verified := none, activate := false, frozen := 4, writing := [] },
      seq := { s.seq with modules := s.seq.nextModules, nextModules := [] },
      trust := { s.trust with flash := { s.trust.flash with
        recordGood := true, preferred := slot, recordSeq := s.trust.flash.recordSeq + 1 } } }
    let s := s.wrs [(CHIP.FW_STATUS.state, 5), (TST.BOOT_STATUS.running, slot), (TST.BOOT_STATUS.svn, v.2.2)]
    audit 7 0 v.2.2 (first8 v.1 % 2 ^ 32) (extendMeas 2 v.2.1 (extendMeas 1 v.1 s))

/-- The wheel's part of a revolution boundary whose count is now in REV_COUNT: a LOADED wheel whose revolution has come, or
a revert, switches unless its charge exceeds the ceiling (R323, R328, R331). A wheel made for a verified image waits for its
activation (R446). -/
def wheelBoundary (s : State) : State :=
  let s := s.modWheel (fun w => { w with switchRev := false })
  let s := { s with fw := { s.fw with frozen := s.fw.frozen - 1 } }
  match s.wheel.loaded, s.wheel.previous, s.wheel.reverting with
  | some w, _, _ =>
    let act := s.fw.activate && s.rd CHIP.FW_STATUS.state == 4 && s.madeForVerified w
    if s.loadState = lsLoaded && decide (s.rd WHEEL.LOAD_REV.rev ≤ s.clk.rev.toNat % 2 ^ 32) &&
        (act || w.fwRef == first8 s.fw.measurement) then
      match s.checkPower w with
      | some r => endLoad lsRefused rsPower r.kind r.index s
      | none =>
        let t := switchTo w s
        let t := if act then switchFirmware t else t
        endLoad lsSwitched 0 0 0 (t.modWheel (fun v => { v with loaded := some w }))
    else s
  | none, some w, true =>
    match s.checkPower w with
    | some r =>
      wheelEvent 0 ((writeLoad lsRefused rsPower 0 (s.modWheel (fun v => { v with reverting := false }))).setWord
        WHEEL.LOAD_OFFENDER (BitVec.ofNat 32 (r.kind * 2 ^ 29 + r.index)))
    | none => audit 6 0 0 (w.imageId.toNat % 2 ^ 32) (switchTo w s)
  | _, _, _ => s

/-- The ceiling of the grade in 4 mW: the reset value of CEIL_CFG (R327, R332). -/
def gradeCeiling : Nat := bitsOf (resetWord WHEEL.CEIL_CFG) 0 16

/-- The cross-checks of the wheel's bank (R327): at most the grade's value, at least the charge of the active wheel. -/
def ceilingChecks (s : State) : State :=
  let f := WHEEL.CEIL_CFG.ceiling_mw
  let s := if gradeCeiling < s.act f then agree f gradeCeiling s else s
  let need := (s.wheel.active.charge + 399) / 400
  if s.act f < need && need ≤ gradeCeiling then agree f need s else s

/-! ### Slots and windows (R20, R296, R310, R322) -/

/-- Count in a list of counters by task. -/
def bump (l : List (Nat × Nat)) (k : Nat) : List (Nat × Nat) := supd (fun _ => 0) l k (fun v => satAdd 0xFFFFFFFF v 1)

/-- The slot is the last one assigned to a task in its window (R322). -/
def WheelImg.lastSlot (w : WheelImg) (r : TaskRec) (i : Nat) : Bool :=
  let d := (i + 4096 - r.release % 4096) % r.period
  !((List.range (r.deadline - (d + 1))).any (fun e => w.coreAt r.core ((i + e + 1) % 4096) == some r.key))

/-- A core's slot ends: at the end of a window a task that is still executing takes BUDGET; one in a restartable wait is
late; one that has given up the core has completed its window (R310, R322, R297). -/
def endSlot (c : Nat) (s : State) : State :=
  match s.coreTask c with
  | none => s
  | some k =>
    match s.taskRec k with
    | none => s
    | some r =>
      if (s.ctx k).quarantined || !s.wheel.active.lastSlot r s.clk.slot then s
      else
        let x := s.ctx k
        if x.wait = 0 || x.wait = 3 then takeException k exBudget x.pc.toNat 0 s
        else if x.wait = 1 then wheelEvent 2 (s.modWheel (fun w => { w with late := bump w.late k }))
        else s.modWheel (fun w => { w with windows := bump w.windows k })

/-- The slot a WAITS or YIELD waits for has come. -/
def State.waitOver (s : State) (x : Ctx) : Bool :=
  decide (x.waitRev < s.clk.rev.toNat) || (decide (x.waitRev = s.clk.rev.toNat) && decide (x.waitSlot ≤ s.clk.slot))

/-- A core takes the task of the slot that begins, or is gated (R20, R296). -/
def enterSlot (c : Nat) (s : State) : State :=
  match (if s.clk.wheelOn then s.wheel.active.coreAt c s.clk.slot else none) with
  | none => refreshCore c (s.wrs [(SQ.CORE_STATUS.task.nth c, 0), (SQ.CORE_STATUS.gated.nth c, 1)])
  | some k =>
    let s := s.wrs [(SQ.CORE_STATUS.task.nth c, k % 64), (SQ.CORE_STATUS.gated.nth c, 0)]
    let s := s.modCtx k (fun x => if x.wait = 2 && s.waitOver x then { x with wait := 0 } else x)
    refreshCore c s

/-- TASK_SEL (R332): the record and the statistics of a task stand in TASK_WIN. -/
def taskSelect (w : Word) (s : State) : State :=
  let s := s.setWord WHEEL.TASK_SEL (w &&& 0xFF)
  let k := bitsOf w 0 8
  let words := match s.taskRec k with
    | some r => r.words
    | none => []
  let s := (List.range 16).foldl (fun s i => s.setWord (WHEEL.TASK_WIN + 4 * i) (words.getD i 0)) s
  (s.setWord (WHEEL.TASK_WIN + 64) (BitVec.ofNat 32 (sget (fun _ => 0) s.wheel.late k))).setWord (WHEEL.TASK_WIN + 68)
    (BitVec.ofNat 32 (sget (fun _ => 0) s.wheel.windows k))

/-- TASK_SEL_WRITE (R332). -/
def execTaskSelWrite (w : Word) (s : State) : Host.Outcome State Fault Refusal := .next (hostCommand WHEEL.TASK_SEL (taskSelect w) s)

/-- The words of SQ.CTX_WIN for a context (R313). -/
def Ctx.words (x : Ctx) : List Word :=
  (List.range 32).map (fun i => sget (fun _ => 0) x.regs i) ++
    [x.pc, BitVec.ofNat 32 (x.wait * 1024 + bitNat x.quarantined * 512 + bitNat x.user * 256 + x.preds.toNat), x.waitHandle, 0]

/-- The selected context stands in the window (R313). -/
def ctxCopy (s : State) : State :=
  if s.seq.ctxDue then
    let l := (s.ctx (bitsOf (s.word SQ.CTX_SEL) 0 8)).words
    let s := (List.range 36).foldl (fun s i => s.setWord (SQ.CTX_WIN + 4 * i) (l.getD i 0)) s
    { s.wr SQ.CTX_SEL.ready 1 with seq := { s.seq with ctxDue := false } }
  else s

/-- CTX_SEL (R313): ready reads 0 until the context is copied at the next slot boundary. -/
def ctxSelect (w : Word) (s : State) : State :=
  let s := s.setWord SQ.CTX_SEL (w &&& 0xFF)
  { s with seq := { s.seq with ctxDue := true } }

/-- SQ_CTX_SEL_WRITE (R313). -/
def execSqCtxSelWrite (w : Word) (s : State) : Host.Outcome State Fault Refusal := .next (hostCommand SQ.CTX_SEL (ctxSelect w) s)

end Sys2Proof.Machine
end

