-- ==== Sys2Proof/Machine/Firmware.lean ====
section
/-! DEFINITION. The firmware update: CHIP.FW_CMD (spec/22_service_continuity.md, R446 to R448, R453). -/

namespace Sys2Proof.Machine

/-- FW_STATUS.state. -/
def fwIdle : Nat := 0
def fwWriting : Nat := 1
def fwVerifying : Nat := 2
def fwVerified : Nat := 3
def fwLoaded : Nat := 4
def fwActivated : Nat := 5
def fwRefused : Nat := 6

/-- The update's state. -/
def State.fwState (s : State) : Nat := s.rd CHIP.FW_STATUS.state

/-- The flash slot that is not running. -/
def State.otherSlot (s : State) : Nat := 1 - s.rd TST.BOOT_STATUS.running

/-- Change the update. -/
def State.modFw (s : State) (f : Firmware → Firmware) : State := { s with fw := f s.fw }

/-- Write FW_STATUS whole. -/
def writeFw (state result slot done : Nat) (s : State) : State :=
  s.wrs [(CHIP.FW_STATUS.state, state), (CHIP.FW_STATUS.result, result), (CHIP.FW_STATUS.slot, slot), (CHIP.FW_STATUS.done, done)]

/-- A command written in the wrong state completes without effect (R448). -/
def refuseFw (bit : Nat) (s : State) : State :=
  (s.setWc (wcKey CHIP.FW_CMD bit) 0).modFw (fun f => { f with cmdRefused := true })

/-- A command that comes too late for the update it would disturb. -/
def State.fwBusy (s : State) : Bool := s.fwState == fwWriting || s.fwState == fwVerifying || s.fwState == fwLoaded

/-- The write starts: the slot is erased and no image is verified (R446). -/
def startFwWrite (s : State) : State :=
  if s.fwBusy then refuseFw 0 s
  else
    let slot := s.otherSlot
    let s := setFlashSlot slot [] s
    let s := s.modFw (fun f => { f with writing := [], verified := none, activate := false, cmdRefused := false })
    writeFw fwWriting 0 slot 0 { s with seq := { s.seq with nextModules := [] } }

/-- WRITE (R446, R448): a further one while one runs is queued. -/
def fwWrite (s : State) : State := wcWrite CHIP.FW_CMD 0 startFwWrite s

/-- WRITE (R446). -/
def execWrite (s : State) : Host.Outcome State Fault Refusal := .next (hostCommand CHIP.FW_CMD fwWrite s)

/-- The write ends: what was fetched is in the slot, or the fetch failed, or the program did not verify. -/
def fwWriteDone (result : ReadResult) (programmed : Bool) (s : State) : State :=
  if s.fwState ≠ fwWriting then s
  else
    let slot := s.rd CHIP.FW_STATUS.slot
    let s := match result with
      | .error => writeFw fwRefused 9 slot 0 s
      | .data l =>
        let l := l.take (s.rd CHIP.FW_LEN.bytes)
        if programmed then
          writeFw fwIdle 0 slot l.length ((setFlashSlot slot l s).modFw (fun f => { f with writing := l }))
        else writeFw fwRefused 8 slot 0 s
    wcDone CHIP.FW_CMD 0 startFwWrite s

/-- FW_WRITE_DONE (R446). -/
def execFwWriteDone (result : ReadResult) (programmed : Bool) (s : State) : Host.Outcome State Fault Refusal :=
  .next (fwWriteDone result programmed s)

/-- The verification starts. -/
def startFwVerify (s : State) : State :=
  if s.fwBusy then refuseFw 1 s
  else
    let slot := s.otherSlot
    let s := s.modFw (fun f => { f with verified := none, activate := false, cmdRefused := false })
    writeFw fwVerifying 0 slot 0 { s with seq := { s.seq with nextModules := [] } }

/-- VERIFY (R446). -/
def fwVerify (s : State) : State := wcWrite CHIP.FW_CMD 1 startFwVerify s

/-- VERIFY (R446). -/
def execVerify (s : State) : Host.Outcome State Fault Refusal := .next (hostCommand CHIP.FW_CMD fwVerify s)

/-- The slot has been read back and is judged under R360; `places` is where the firmware will place the modules. -/
def fwVerifyDone (places : List Nat) (s : State) : State :=
  if s.fwState ≠ fwVerifying then s
  else
    let slot := s.rd CHIP.FW_STATUS.slot
    let flash := s.flashSlot slot
    let l := fwWhole flash
    let r := s.judgeFirmware flash
    let s := if r = bootOk then
        let s := s.modFw (fun f => { f with verified := some (fwMeasurement l, sha (fwCert l), fwSvn l) })
        writeFw fwVerified r slot l.length { s with seq := { s.seq with nextModules := placedModules l places } }
      else writeFw fwRefused r slot flash.length s
    wcDone CHIP.FW_CMD 1 startFwVerify s

/-- FW_VERIFY_DONE (R446). -/
def execFwVerifyDone (places : List Nat) (s : State) : Host.Outcome State Fault Refusal := .next (fwVerifyDone places s)

/-- ACTIVATE (R446): the image that is VERIFIED is activated by the switch of a wheel that is LOADED for it, at once or once one
has been admitted. -/
def fwActivate (s : State) : State :=
  if s.fwState ≠ fwVerified then refuseFw 2 s
  else
    let s := s.modFw (fun f => { f with activate := true, cmdRefused := false })
    match s.wheel.loaded with
    | some w => if s.loadState = lsLoaded && s.madeForVerified w then readyToActivate s else s
    | none => s

/-- ACTIVATE (R446). -/
def execActivate (s : State) : Host.Outcome State Fault Refusal := .next (hostCommand CHIP.FW_CMD fwActivate s)

/-- FW_CANCEL (R448): during write or verify the slot is left invalid and the state is idle; a queued command starts. -/
def fwCancel (s : State) : State :=
  if s.fwState = fwWriting || s.fwState = fwVerifying then
    let slot := s.rd CHIP.FW_STATUS.slot
    let bit := if s.fwState = fwWriting then 0 else 1
    let s := setFlashSlot slot [] s
    let s := writeFw fwIdle 0 slot 0 (s.modFw (fun f => { f with writing := [] }))
    wcDone CHIP.FW_CMD bit (if bit = 0 then startFwWrite else startFwVerify) s
  else s

/-- FW_CANCEL (R448). -/
def execFwCancel (s : State) : Host.Outcome State Fault Refusal := .next (hostCommand CHIP.FW_CMD fwCancel s)

end Sys2Proof.Machine
end

