-- ==== Sys2Proof/Machine/Logging.lean ====
section
/-! DEFINITION. Calliope's commands (spec/18_events_and_logs.md, R381 to R393): held messages, acknowledgement, reading and
exporting of records, summaries, the log SRAM's scrubber. -/

namespace Sys2Proof.Machine

/-! ### Messages (R381) -/

/-- A held message is sent once the conditions hold with its PEND bit still set. -/
def msixHeldSend (e : Nat) (s : State) : State :=
  if s.arrayBit EVT.PBA e && s.pend e && s.msixOpen e then perfCount 4 0x0F ((s.clearArrayBit EVT.PBA e).sendMsix e) else s

/-- MSIX_HELD_SEND (R381). -/
def execMsixHeldSend (e : Fin 256) (s : State) : Host.Outcome State Fault Refusal := .next (msixHeldSend e s)

/-! ### The scrubber (R389) -/

/-- A word of a record is unreadable: a record that becomes bad is counted, event 222. -/
def badWord (bad : BitVec 8) (bit : Nat) : BitVec 8 := bad ||| BitVec.ofNat 8 (2 ^ bit)

/-- Records of a class whose slot is `slot` lose word `bit`; the second result says whether one of them became bad. -/
def markBadRecord (c slot bit : Nat) (s : State) : State × Bool :=
  match c with
  | 0 =>
    let hit := fun (r : AuditRec) => decide (0 < r.seq) && (r.seq - 1) % 32768 == slot
    ({ s with logs := { s.logs with
        audit := updateLast hit (fun r => { r with badWords := badWord r.badWords bit }) s.logs.audit } },
      s.logs.audit.any (fun r => hit r && r.badWords == 0))
  | 1 =>
    let hit := fun (r : AlarmRec) => decide (0 < r.seq) && (r.seq - 1) % 8192 == slot
    ({ s with logs := { s.logs with
        alarm := updateLast hit (fun r => { r with badWords := badWord r.badWords bit }) s.logs.alarm } },
      s.logs.alarm.any (fun r => hit r && r.badWords == 0))
  | _ =>
    let hit := fun (r : TraceRec) => decide (0 < r.seq) && (r.seq - 1) % 24576 == slot
    ({ s with logs := { s.logs with
        trace := updateLast hit (fun r => { r with badWords := badWord r.badWords bit }) s.logs.trace } },
      s.logs.trace.any (fun r => hit r && r.badWords == 0))

/-- An uncorrectable word of the log SRAM: the regions follow one another as AUDIT, ALARM, TRACE, and a region's records
follow their sequence. -/
def logWordBad (w : Nat) (s : State) : State :=
  let r :=
    if w < 262144 then markBadRecord 0 (w / 8) (w % 8) s
    else if w < 327680 then markBadRecord 1 ((w - 262144) / 8) (w % 8) s
    else markBadRecord 2 ((w - 327680) / 8) (w % 8) s
  if r.2 then logEvent 6 (r.1.addSat LOG.ECC_CNT.count 1) else r.1

/-- The scrubber reads its next 64 words, those at the given places among them being uncorrectable. -/
def logScrub (bad : List (Fin 64)) (s : State) : State :=
  let p := s.logs.scrubPos
  bad.foldl (fun s i => logWordBad (p + i.val) s)
    { s with logs := { s.logs with scrubPos := (p + 64) % 524288 } }

/-- LOG_SCRUB_ACCESS (R389). -/
def execLogScrubAccess (bad : List (Fin 64)) (s : State) : Host.Outcome State Fault Refusal := .next (if s.started && decide (s.powerState ≤ stSleep) then logScrub bad s else s)

/-! ### Acknowledgement and export (R386, R390, R391) -/

/-- A write of LOG.ALARM_ACK: records up to the sequence are acknowledged, and closed where they are open (R391). -/
def alarmAck (seq : Nat) (s : State) : State :=
  let s := s.setWord LOG.ALARM_ACK (BitVec.ofNat 32 seq)
  { s with logs := { s.logs with
      alarm := s.logs.alarm.map (fun r => if r.seq ≤ seq then { r with isOpen := false } else r) } }

/-- ALARM_ACK_WRITE (R391). -/
def execAlarmAckWrite (seq : Word) (s : State) : Host.Outcome State Fault Refusal := .next (hostCommand LOG.ALARM_ACK (alarmAck seq.toNat) s)

/-- A write of LOG.EXP_RD: host buffer room is freed, which ends a hold for want of it (R390). -/
def expRdWrite (c idx : Nat) (s : State) : State :=
  let s := s.wr (LOG.EXP_RD.idx.nth c) idx
  if s.exportHeld c then s else s.setExp c { s.exp c with stalled := false }

/-- EXP_RD_WRITE (R390). -/
def execExpRdWrite (c : Fin 3) (idx : BitVec 16) (s : State) : Host.Outcome State Fault Refusal :=
  .next (hostCommand (LOG.EXP_RD + 32 * c.val) (expRdWrite c idx.toNat) s)

/-- EXPORT_STALL_TIMEOUT (R390): export of the class has been held for stall_ms. -/
def execExportStallTimeout (c : Fin 3) (s : State) : Host.Outcome State Fault Refusal :=
  .next <|
    if s.exportHeld c && !(s.exp c).stalled then logEvent 5 (s.setExp c { s.exp c with stalled := true }) else s

/-- Freed records take the held ALARM counts, the held AUDIT counts and the gap marker (R386, R387, R388). -/
def recordsFreed (s : State) : State :=
  gapMarker (drainHeldAudit s.logs.heldAudit.length (drainHeldAlarm s.logs.heldAlarm.length s))

/-- LOG_RECORDS_FREED (R386). -/
def execLogRecordsFreed (s : State) : Host.Outcome State Fault Refusal := .next (recordsFreed s)

/-! ### Reading records (R392) -/

/-- The bytes of the record of a class with a sequence, and whether it is bad. -/
def State.recordOf (s : State) (c seq : Nat) : Option (List Byte × Bool) :=
  match c with
  | 0 => (s.logs.audit.find? (fun r => r.seq == seq)).map (fun r => (auditRecBytes r, decide (r.badWords ≠ 0)))
  | 1 => (s.logs.alarm.find? (fun r => r.seq == seq)).map (fun r => (alarmBytes r, decide (r.badWords ≠ 0)))
  | 2 => (s.logs.trace.find? (fun r => r.seq == seq)).map (fun r => (traceBytes r, decide (r.badWords ≠ 0)))
  | _ => none

/-- What a latch holds after a load: the record, or that it is not yet written or overwritten; data not valid reads 0. -/
def State.latchOf (s : State) (c seq : Nat) : RecLatch :=
  match s.recordOf c seq with
  | some (b, bad) =>
    { cls := c, seq := seq, bytes := b, valid := true, bad := bad, notYet := false, overwritten := false }
  | none =>
    let newest := if c < 3 then s.posNewest c else 0
    let future := decide (seq = 0) || decide (newest < seq)
    { cls := c, seq := seq, bytes := [], valid := false, bad := false, notYet := future, overwritten := !future }

/-- The 16-bit register `k` of a latch: bytes 2k and 2k + 1. -/
def RecLatch.half (l : RecLatch) (k : Nat) : BitVec 16 := BitVec.ofNat 16 (fieldOf l.bytes (2 * k) 2)
where
  fieldOf (b : List Byte) (a n : Nat) : Nat := if b.length < a + n then 0 else numBE ((b.drop a).take n)

/-- The status register 0x0003 of MMD 31. -/
def RecLatch.status (l : RecLatch) : Nat :=
  bitNat l.valid + 2 * bitNat l.bad + 4 * bitNat l.notYet + 8 * bitNat l.overwritten

/-- A load of the MMD 31 latch. -/
def mmdLoad (c seq : Nat) (s : State) : State :=
  { s with logs := { s.logs with mmdClass := c, mmdLow := seq % 65536, mmdLatch := s.latchOf c seq } }

/-- MMD31_LOAD_RECORD (R392): the class select of register 0x0000, and the sequence of 0x0001 and 0x0002. -/
def execMmd31LoadRecord (c : Fin 4) (seq : Word) (s : State) : Host.Outcome State Fault Refusal :=
  .next (hostCommand LOG.REC_SEL (mmdLoad c seq.toNat) s)

/-- MMD31_LAST_WORD_READ (R392): register 0x001F is read, and the next sequence loaded. -/
def execMmd31LastWordRead (port : Fin 32) (s : State) : Host.Outcome State Fault Refusal :=
  .next <| hostCommand LOG.REC_SEL (fun s =>
    let l := s.logs.mmdLatch
    mmdLoad l.cls ((l.seq + 1) % 2 ^ 32) (s.emit (.mdioData port 31 0x1F (l.half 15)))) s

/-- An MMD 31 acknowledgement: export up to the sequence where the class's path is 1, and ALARM_N (R390, R392). -/
def mmdAck (c seq : Nat) (s : State) : State :=
  let s := { s with logs := { s.logs with mmdClass := c, mmdAckLow := seq % 65536 } }
  let s :=
    if c < 3 && s.flag (LOG.EXP_CFG.enable.nth c) && s.rd (LOG.EXP_CFG.path.nth c) == 1 then
      match c with
      | 0 => markExported 0 ((s.logs.audit.filter (fun r => !r.exported && decide (r.seq ≤ seq))).length) s
      | 1 => markExported 1 ((s.logs.alarm.filter (fun r => !r.exported && decide (r.seq ≤ seq))).length) s
      | _ => markExported 2 ((s.logs.trace.filter (fun r => !r.exported && decide (r.seq ≤ seq))).length) s
    else s
  if c = 1 then alarmAck seq s else s

/-- MMD31_ACKNOWLEDGE (R392): registers 0x0004 and 0x0005. -/
def execMmd31Acknowledge (c : Fin 4) (seq : Word) (s : State) : Host.Outcome State Fault Refusal :=
  .next (hostCommand LOG.REC_SEL (mmdAck c seq.toNat) s)

/-- A write of the sequence to LOG.REC_SEL: the record of the class selected is latched into REC_WIN (R392, R395). -/
def recSelWrite (seq : Nat) (s : State) : State :=
  let l := s.latchOf (s.rd LOG.REC_SEL.class) seq
  let s := { s.setWord LOG.REC_SEL_SEQ (BitVec.ofNat 32 seq) with logs := { s.logs with recLatch := l } }
  (List.range 8).foldl (fun s w =>
    s.setWord (LOG.REC_WIN + 4 * w) (BitVec.ofNat 32 (numBE ((l.bytes.drop (4 * w)).take 4)))) s

/-- REC_SEL_WRITE (R392). -/
def execRecSelWrite (seq : Word) (s : State) : Host.Outcome State Fault Refusal := .next (hostCommand LOG.REC_SEL (recSelWrite seq.toNat) s)

/-! ### Summaries (R393) -/

/-- Put a source into a ranking by count, then by lower source. -/
def rankInsert (e : Nat × AlarmStat) : List (Nat × AlarmStat) → List (Nat × AlarmStat)
  | [] => [e]
  | x :: t =>
    if x.2.count < e.2.count || (x.2.count == e.2.count && decide (e.1 < x.1)) then e :: x :: t else x :: rankInsert e t

/-- The eight entries of a summary. -/
def summaryEntries (l : List (Nat × AlarmStat)) : List Byte :=
  let top := (l.foldl (fun acc e => rankInsert e acc) []).take 8
  let bytes := top.flatMap (fun e => bytesBE 2 e.1 ++ bytesBE 2 (min 0xFFFF e.2.count) ++ bytesBE 4 e.2.last)
  bytes ++ List.replicate (64 - bytes.length) 0

/-- The 96 bytes of a summary. -/
def State.summaryBody (s : State) : List Byte :=
  let total := (s.logs.stats.map (fun e => e.2.count)).sum
  let stalled := (List.range 3).any (fun c => (s.exp c).stalled)
  let flags := bitNat s.auditFull + 2 * s.rd LOG.STATUS.reserve_used + 4 * s.rd LOG.STATUS.trace_dropping + 8 * bitNat stalled
  bytesBE 4 1 ++ bytesBE 8 s.now ++ bytesBE 4 (s.posNewest 0) ++
    bytesBE 4 (s.logs.audit.filter (fun r => !r.exported)).length ++ bytesBE 4 (s.rd LOG.TRACE_DROP.count) ++
    bytesBE 4 (min 0xFFFFFFFF total) ++ bytesBE 4 flags ++ summaryEntries s.logs.stats

/-- A summary is due: its interval has passed or an alert has brought it forward, and none was sent in this RTC second. -/
def State.summaryNow (s : State) : Bool :=
  let k := s.rd LOG.SS_CFG.interval_s
  s.flag LOG.CFG.enable && decide (k ≠ 0) && decide (1 ≤ s.logs.summaryAge) &&
    (decide (k ≤ s.logs.summaryAge) || s.logs.summaryDue)

/-- The summary is handed to the Sideshow program, and the occurrences count anew. -/
def sendSummary (s : State) : State :=
  let m : SsMsg := { mtype := 9, cls := 1, dest := s.rd LOG.SS_CFG.dest, port := none, body := s.summaryBody }
  let s := sendMessage m s
  { s with logs := { s.logs with stats := [], summaryDue := false, summaryAge := 0 } }

/-- SS_LOG_SUMMARY_DUE (R393). -/
def execSsLogSummaryDue (s : State) : Host.Outcome State Fault Refusal :=
  .next <| if s.summaryNow then sendSummary s else s

end Sys2Proof.Machine
end

