-- ==== Sys2Proof/Machine/Lpi.lean ====
section
/-! DEFINITION. Port low-power idle and the wander guard (spec/12_port_low_power.md). -/

namespace Sys2Proof.Machine

/-! ### Phases (R256, R257) -/

/-- States of LPI_STATUS.lpi_state (R269). -/
def lpiActive : Nat := 0
def lpiSleep : Nat := 1
def lpiQuiet : Nat := 2
def lpiRefresh : Nat := 3
def lpiWaking : Nat := 4

/-- A port's LPI phase. -/
def State.lpiState (s : State) (n : Nat) : Nat := s.rd (P.LPI_STATUS.lpi_state.port n)

/-- Enter an LPI phase. -/
def setLpi (n st : Nat) (s : State) : State := s.wr (P.LPI_STATUS.lpi_state.port n) st

/-- Durations in ns of sleep signalling, quiet, refresh and the wake time (R257). -/
def lpiTimes (mode rate : Nat) : Nat × Nat × Nat × Nat :=
  match mode, rate with
  | 2, _ => (92160, 11796480, 737280, 184320)
  | _, 4 => (1280, 40960, 5120, 4480)
  | _, 3 => (2560, 81920, 10240, 8960)
  | _, 2 => (5120, 163840, 20480, 17920)
  | _, 1 => (182000, 21000000, 200000, 16500)
  | _, _ => (200000, 21000000, 210000, 30000)

/-- The bit of eee_adv that stands for a mode and rate: the rate's own, for Reach that of 1000BASE-T (R261). -/
def eeeBit (mode rate : Nat) : Nat := if mode = modeReach then 1 else rate

/-- The EEE rates the port advertised in its last page exchange. -/
def ownEee (l : Link) : Nat :=
  l.pages.foldl (fun acc p => match p with
    | .eee r => r
    | .base _ _ => acc
    | .clause40 _ _ => acc
    | .multiGBT _ _ _ => acc
    | .sircor1 _ => acc
    | .sircor2 _ => acc
    | .null => acc) 0

/-- LPI is used at the rate in force: both ends advertised EEE for it (R261). -/
def State.eeeInUse (s : State) (n : Nat) : Bool :=
  let b := eeeBit (s.modeNow n) (s.rateNow n)
  (ownEee (s.link n)).testBit b && (s.link n).partnerEee.testBit b

/-- Both directions signal LPI, or the port is at 100BASE-TX, where each direction enters quiet on its own (R256). -/
def State.mayQuiet (s : State) (n : Nat) : Bool :=
  (s.modeNow n == modeBaseT && s.rateNow n == 0) ||
    (s.flag (P.LINE_STATUS.lpi_tx.port n) && s.flag (P.LINE_STATUS.lpi_rx.port n))

/-! ### The wander guard (R265 to R267) -/

/-- The snapshot of the first quiet period of a run (R265). -/
def takeSnapshot (n : Nat) (s : State) : State :=
  if s.actFlag (P.WG_CFG.enable.port n) && !(s.idle n).taken then
    let blocks := (s.validBlocks.filter (fun e => descVictim e.2 / 4 == n)).map (·.1)
    (s.setIdle n { s.idle n with
      coefSnap := s.coefs.filter (fun e => decide (e.1 / 10048 = n)),
      tapSnap := s.pool.taps.filter (fun e => blocks.contains (e.1 / 64)),
      taken := true }).wr (P.LPI_STATUS.snap_valid.port n) 1
  else s

/-- Write the snapshot back into every filter it covers (R267). -/
def restoreSnapshot (n : Nat) (s : State) : State :=
  let l := s.idle n
  let blocks := (s.validBlocks.filter (fun e => descVictim e.2 / 4 == n)).map (·.1)
  let s := l.coefSnap.foldl (fun s e => s.setCoef e.1 e.2) (s.clearCoefs n)
  let s := blocks.foldl (fun s b => clearTaps b s) s
  l.tapSnap.foldl (fun s e => { s with pool := { s.pool with taps := sput (fun _ => 0) s.pool.taps e.1 e.2 } }) s

/-- The filter that has changed most, the first among equals. -/
def worstChange (l : List FilterChange) : Option FilterChange :=
  l.foldl (fun acc c => match acc with
    | some w => if w.change < c.change then some c else acc
    | none => some c) none

/-- The judgement at the end of a refresh, or at a wake that cuts one short (R266, R267). -/
def judgeWander (n : Nat) (changes : List FilterChange) (s : State) : State :=
  if !s.flag (P.LPI_STATUS.snap_valid.port n) then s
  else match worstChange changes with
    | none => s
    | some w =>
      let last := min 255 ((-w.change + 25) / 50).toNat
      let s := s.wrs [(P.LPI_STATUS.wg_last.port n, last), (P.LPI_STATUS.wg_filter.port n, w.filter.val),
        (P.LPI_STATUS.wg_pair.port n, w.pair.val)]
      if -(100 * (s.pact n P.WG_CFG.th : Int)) < w.change then
        let s := (restoreSnapshot n s).wr (P.LPI_STATUS.wg_trip.port n) 1
        let s := plainEvent (6 * n + 4) (s.word (portAddr n P.LPI_STATUS)) s
        let s := s.addSat (P.WG_REVERTS.count.port n) 1
        if s.pact n P.WG_CFG.action = 1 then retrainTrigger n true s else s
      else s

/-! ### Waking (R262, R263) -/

/-- A wake begins: sleep signalling, quiet or refresh ends at once. -/
def wakePort (n : Nat) (changes : List FilterChange) (s : State) : State :=
  if s.inLpi n then
    let s := stopCount n s
    let s := if s.lpiState n = lpiRefresh then judgeWander n changes s else s
    if s.inLpi n then setLpi n lpiWaking s else s
  else s

/-- The wake time has passed: the transmitter is in data mode, and a retrain that waited starts with both directions awake
(R262, R263). -/
def wakeDone (n : Nat) (s : State) : State :=
  let retrain := (s.link n).retrainAfterWake
  let s := (s.setIdle n Lpi.reset).modLink n (fun l => { l with retrainAfterWake := false })
  let s := s.wrs [(P.LPI_STATUS.lpi_state.port n, lpiActive), (P.LPI_STATUS.snap_valid.port n, 0),
    (P.LINE_STATUS.lpi_tx.port n, 0)]
  if retrain then startRetrain n (s.wr (P.LINE_STATUS.lpi_rx.port n) 0) else s

/-! ### The commands -/

/-- LPI_ENTRY_TIMER (R260): the transmit direction signals LPI, where LPI is used at this rate and not switched off. -/
def execLpiEntryTimer (n : Fin 32) (s : State) : Host.Outcome State Fault Refusal :=
  .next <|
    if s.fsm n = fsmData && s.pact n P.LPI_CFG.mode ≠ 0 && s.eeeInUse n && s.lpiState n = lpiActive then
      (setLpi n lpiSleep (s.wr (P.LINE_STATUS.lpi_tx.port n) 1)).addSat (P.LPI_ENTRIES.count.port n) 1
    else s

/-- LPI_PHASE_END (R257): sleep signalling is followed by quiet once both directions signal LPI, quiet by refresh, refresh
by quiet, with the guard's judgement at its end (R266). -/
def execLpiPhaseEnd (n : Fin 32) (changes : List FilterChange) (s : State) : Host.Outcome State Fault Refusal :=
  .next <|
    let st := s.lpiState n
    if st = lpiSleep then
      if s.mayQuiet n then
        let s := takeSnapshot n s
        setLpi n lpiQuiet (s.setIdle n { s.idle n with since := some s.now })
      else s
    else if st = lpiQuiet then setLpi n lpiRefresh (countLpi n s)
    else if st = lpiRefresh then
      let s := judgeWander n changes (countLpi n s)
      if s.lpiState n = lpiRefresh then setLpi n lpiQuiet s else s
    else s

/-- LPI_WAKE_REQUEST (R262): from the host, or the partner's alert, which also ends the receive direction's LPI. -/
def execLpiWakeRequest (n : Fin 32) (alert : Bool) (changes : List FilterChange) (s : State) :
    Host.Outcome State Fault Refusal :=
  .next <|
    let s := if alert then s.wr (P.LINE_STATUS.lpi_rx.port n) 0 else s
    wakePort n changes s

/-- LPI_WAKE_DONE (R262). -/
def execLpiWakeDone (n : Fin 32) (s : State) : Host.Outcome State Fault Refusal :=
  .next <| if s.lpiState n = lpiWaking then wakeDone n (stopCount n s) else s

/-- PARTNER_LPI_SIGNAL (R256): the receive direction signals LPI. -/
def execPartnerLpiSignal (n : Fin 32) (s : State) : Host.Outcome State Fault Refusal :=
  .next <| if s.fsm n = fsmData && s.eeeInUse n then s.wr (P.LINE_STATUS.lpi_rx.port n) 1 else s

end Sys2Proof.Machine
end

