-- ==== Sys2Proof/Machine/HostLanes.lean ====
section
/-! DEFINITION. Host lanes, Mequel mode and the side channel (spec/13_host_lanes.md). -/

namespace Sys2Proof.Machine

/-! ### Lanes and ports (R270) -/

def State.lane (s : State) (l : Nat) : Lane := sget (fun _ => Lane.reset) s.lanes l
def State.modLane (s : State) (l : Nat) (f : Lane → Lane) : State := s.withLanes (supd (fun _ => Lane.reset) s.lanes l f)

/-- The ports a lane carries, by stream. -/
def State.portsOf (s : State) (l : Nat) : List Nat := if s.mequel then [l, l + 1, l + 2, l + 3] else [l]

/-- Enter a lane state (R279). -/
def setLane (l st : Nat) (s : State) : State := s.wr (HSL.LANE_STATUS.state.nth l) st

/-- States of R279. -/
def laneDeep : Nat := 0
def laneExit : Nat := 1
def laneCdr : Nat := 2
def laneSearch : Nat := 3
def laneLocked : Nat := 4
def laneManual : Nat := 5
def laneManualLocked : Nat := 6

/-! ### The deep state (R285) -/

/-- A condition of R285 holds, or the device is in Safe hold, where the lanes are at electrical idle (R442). -/
def State.deepHeld (s : State) (l : Nat) : Bool :=
  !s.flag (HSL.LANE_CTRL.enable.nth l) || (s.mequel && decide (l % 4 ≠ 0)) || !s.awake || s.safeHold ||
    (s.flag (HSL.LANE_CTRL.auto_deep.nth l) && (s.portsOf l).all (fun n => s.pact n P.LINE_CFG.port_off != 0))

/-- A lane loses its lock: the marker offset is no longer valid (R281). -/
def dropLock (l : Nat) (s : State) : State :=
  (s.modLane l (fun x => { x with offset := none })).wr (HSL.SKEW.valid.nth l) 0

/-- Bring a lane into or out of its deep state. -/
def refreshLane (l : Nat) (s : State) : State :=
  if s.deepHeld l then
    if s.laneState l = laneDeep then s
    else (setLane l laneDeep (dropLock l s)).wr (HSL.LANE_STATUS.rx_signal.nth l) 0
  else if s.laneState l = laneDeep then setLane l laneExit s
  else s

/-- Bring every lane into or out of its deep state. -/
def refreshLanes (s : State) : State := (List.range 32).foldl (fun s l => refreshLane l s) s

/-- The checks of R271 when a write of LANE_CTRL.enable 1 is accepted. -/
def laneChecks (l : Nat) (s : State) : State :=
  let clear := fun (f : Field) (s : State) =>
    let v := s.rd (f.nth l)
    if v = 0 then s else clampPush ((f.nth l).entry 1 v 0) (s.wr (f.nth l) 0)
  if s.mequel then (if l % 4 = 0 then s else clear HSL.LANE_CTRL.enable s)
  else clear HSL.LANE_CTRL.side_tunnel (clear HSL.LANE_CTRL.side_telem (clear HSL.LANE_CTRL.side_trip
    (clear HSL.LANE_CTRL.precode (clear HSL.LANE_CTRL.pam4_swap s))))

/-! ### What a lane signals (R273, R283) -/

/-- The USXGMII control word of a port (R273). -/
def State.usxWord (s : State) (n : Nat) : Nat :=
  let rate := if s.modeNow n = modeReach then s.pact n P.LINE_CFG.rate_max else s.rateNow n
  let speed := [0, 2, 4, 5, 3].getD rate 0
  let speed := if rate = 0 then 1 else speed
  1 + bitNat (s.flag (P.LINE_STATUS.link_up.port n)) * 2 ^ 15 + speed * 2 ^ 9 + 2 ^ 12 + bitNat (s.eeeInUse n) * 2 ^ 8

/-- The port runs a retrain (R99, R163). -/
def State.retraining (s : State) (n : Nat) : Bool := s.fsm n == fsmFretrain

/-- Local Fault is sent on a stream; Remote Fault is sent on it (R283). -/
def State.lfSent (s : State) (l n : Nat) : Bool := s.laneLocked l && s.retraining n
def State.rfSent (s : State) (l n : Nat) : Bool :=
  let st := s.laneState l
  st == laneCdr || st == laneSearch || st == laneManual || (s.laneLocked l && !s.inData n)

/-- LANE_STATUS as it reads: the stored word with the fault bits and usx_an_done as they stand. -/
def State.laneWord (s : State) (l : Nat) : Word :=
  let ports := s.portsOf l
  let bits := fun (p : Nat → Bool) => (ports.zipIdx.map (fun e => bitNat (p e.1) * 2 ^ e.2)).sum
  let usx := !s.mequel && s.rd (HSL.LANE_CTRL.proto.nth l) == 1 && (s.lane l).usxAck == some (s.usxWord l)
  let w := withBits (s.word (HSL.LANE_STATUS + 4 * l)) 20 4 (bits (s.rfSent l))
  withBits (withBits w 16 4 (bits (s.lfSent l))) 4 1 (bitNat usx)

/-! ### Lock (R279, R280) -/

/-- Bits of HSL.LANE_CAUSE with their events (R289). -/
def laneLost (l : Nat) (s : State) : State := laneEvent l 0 192 s
def laneGained (l : Nat) (s : State) : State := laneEvent l 1 192 s

/-- LANE_EXIT_DONE (R279): the transmitter starts. -/
def execLaneExitDone (l : Fin 32) (s : State) : Host.Outcome State Fault Refusal :=
  .next <| if s.laneState l = laneExit then laneEvent l 7 198 (setLane l laneCdr s) else s

/-- CDR_LOCK (R279). -/
def execCdrLock (l : Fin 32) (s : State) : Host.Outcome State Fault Refusal :=
  .next <|
    if s.laneState l = laneCdr then
      (setLane l (if s.flag (HSL.LANE_CTRL.manual.nth l) then laneManual else laneSearch) s).wr
        (HSL.LANE_STATUS.rx_signal.nth l) 1
    else s

/-- CDR_LOCK_LOST (R279): lock_lost only where the lane was locked; `signal` says whether a signal is still present. -/
def execCdrLockLost (l : Fin 32) (signal : Bool) (s : State) : Host.Outcome State Fault Refusal :=
  .next <|
    if laneCdr ≤ s.laneState l then
      let was := s.laneLocked l
      let s := (setLane l laneCdr (dropLock l s)).wr (HSL.LANE_STATUS.rx_signal.nth l) (bitNat signal)
      if was then laneLost l s else s
    else s

/-- LANE_LOCK_GAINED (R279, R280): the present position is that of the pattern. -/
def execLaneLockGained (l : Fin 32) (s : State) : Host.Outcome State Fault Refusal :=
  .next <|
    let here := fun (s : State) => s.wrs [(HSL.ALIGN_STATUS.match_here.nth l, 1), (HSL.ALIGN_STATUS.seen_offset.nth l, 0),
      (HSL.ALIGN_STATUS.hdr_good.nth l, if s.mequel then 0 else 64)]
    if s.laneState l = laneSearch then laneGained l (here (setLane l laneLocked s))
    else if s.laneState l = laneManual then
      laneEvent l 8 199 (laneGained l (here (setLane l laneManualLocked s)))
    else s

/-- A locked lane loses lock. -/
def loseLock (l : Nat) (s : State) : State :=
  if s.laneState l = laneLocked then laneLost l (setLane l laneSearch (dropLock l s))
  else if s.laneState l = laneManualLocked then laneLost l (setLane l laneManual (dropLock l s))
  else s

/-- LANE_LOCK_LOST (R279). -/
def execLaneLockLost (l : Fin 32) (hdrGood : Fin 65) (s : State) : Host.Outcome State Fault Refusal :=
  .next <|
    if s.laneLocked l then
      loseLock l (s.wrs [(HSL.ALIGN_STATUS.match_here.nth l, 0), (HSL.ALIGN_STATUS.hdr_good.nth l, if s.mequel then 0 else hdrGood.val)])
    else s

/-- LANE_CMD.slip (R280): one UI later in manual alignment, without effect otherwise; it completes at once. -/
def slip (l : Nat) (s : State) : State :=
  if s.flag (HSL.LANE_CTRL.manual.nth l) then
    let period := if s.mequel then 696320 else 66
    let seen := (s.rd (HSL.ALIGN_STATUS.seen_offset.nth l) + period - 1) % period
    let s := s.wrs [(HSL.ALIGN_STATUS.seen_offset.nth l, seen), (HSL.ALIGN_STATUS.match_here.nth l, bitNat (decide (seen = 0)))]
    if s.laneState l = laneManualLocked then loseLock l s else s
  else s

/-- SLIP (R280). -/
def execSlip (l : Fin 32) (s : State) : Host.Outcome State Fault Refusal := .next (hostCommand (HSL.LANE_CMD + 4 * l.val) (slip l) s)

/-! ### Markers and codewords (R277, R281, R282) -/

/-- SKEW of the locked Mequel lanes; one that rises above 64 UI raises event 197 (R281). -/
def rewriteSkew (s : State) : State :=
  let lanes := (List.range 8).map (· * 4)
  let known := lanes.filterMap (fun l => if s.laneLocked l then (s.lane l).offset.map (fun o => (l, o)) else none)
  match known with
  | [] => s
  | first :: _ =>
    let least := (known.map (·.2)).foldl min first.2
    known.foldl (fun s e =>
      let skew := min 65535 ((e.2 - least) / 16).toNat
      let was := s.rd (HSL.SKEW.skew.nth e.1)
      let s := s.wrs [(HSL.SKEW.valid.nth e.1, 1), (HSL.SKEW.skew.nth e.1, skew)]
      if 64 < skew && decide (was ≤ 64) then laneEvent e.1 6 197 s else s) s

/-- MARKER_RECEIVED (R279, R280, R281). -/
def execMarkerReceived (l : Fin 32) (m : Marker) (s : State) : Host.Outcome State Fault Refusal :=
  .next <|
    if s.mequel && decide (laneSearch ≤ s.laneState l) then
      let s := s.wrs [(HSL.ALIGN_STATUS.seen_offset.nth l, m.seenOffset.val),
        (HSL.ALIGN_STATUS.match_here.nth l, bitNat (decide (m.seenOffset.val = 0)))]
      if m.crcGood then
        let expected := (List.range 4).all (fun k => (m.portMap.toList.getD k 0).toNat % 32 == l.val + k) && m.lane.toNat == l.val
        let s := s.wr (HSL.LANE_STATUS.map_err.nth l) (bitNat (!expected))
        if !s.laneLocked l then s
        else if m.timestamp = 0 then dropLock l s
        else
          rewriteSkew (s.modLane l (fun x => { x with offset := some ((m.arrival : Int) - 425 * m.timestamp.toNat) }))
      else s
    else s

/-- MEQUEL_CODEWORD (R282). -/
def execMequelCodeword (l : Fin 32) (result : CodewordResult) (s : State) : Host.Outcome State Fault Refusal :=
  .next <|
    if s.mequel && s.laneLocked l then
      match result with
      | .clean => s
      | .corrected => s.addPair (HSL.LANE_CNT_CORR + 0x20 * l) (HSL.LANE_CNT_CORR_HI + 0x20 * l) 1
      | .uncorrectable =>
        laneEvent l 2 193 (s.addPair (HSL.LANE_CNT_UNCORR + 0x20 * l) (HSL.LANE_CNT_UNCORR_HI + 0x20 * l) 1)
    else s

/-! ### The side channel (R275, R276) -/

/-- Count a bad side block. -/
def countSideBad (l : Nat) (s : State) : State :=
  s.addPair (HSL.LANE_CNT_SIDE_BAD + 0x20 * l) (HSL.LANE_CNT_SIDE_BAD_HI + 0x20 * l) 1

/-- Send a side block: its seq advances per port and type, modulo 128. -/
def sendSide (n typ data : Nat) (s : State) : State :=
  let q := sget (fun _ => 0) (s.side n).txSeq typ
  (s.modSide n (fun c => { c with txSeq := sput (fun _ => 0) c.txSeq typ ((q + 1) % 128) })).emit (.sideBlock n typ q data)

/-- The lane of a port carries side blocks now. -/
def State.sideOpen (s : State) (n : Nat) (f : Field) : Bool :=
  s.mequel && s.laneLocked (s.laneOf n) && s.flag (f.nth (s.laneOf n))

/-- A port's pending trip block goes out in the next side slot (R276). -/
def sendTripBlock (n : Nat) (s : State) : State :=
  match (s.side n).pending with
  | some b =>
    if s.sideOpen n HSL.LANE_CTRL.side_trip then
      sendSide n 1 (b.kind * 2 ^ 37 + b.count * 2 ^ 32 + b.time % 2 ^ 32) (s.modSide n (fun c => { c with pending := none }))
    else s
  | none => s

/-- Telemetry of a port at a revolution boundary: six blocks. -/
def sendTelemetry (n : Nat) (s : State) : State :=
  if s.sideOpen n HSL.LANE_CTRL.side_telem then
    let regs := [P.LINE_STATUS, P.PORT_QUAL, P.PAIR_QUAL, P.PAIR_QUAL + 4, P.PAIR_QUAL + 8, P.PAIR_QUAL + 12]
    regs.zipIdx.foldl (fun s e => sendSide n 2 (e.2 * 2 ^ 32 + (s.word (portAddr n e.1)).toNat) s) s
  else s

/-- Bytes in blocks of five, the last one padded with zeros. -/
def inFives : (fuel : Nat) → List Byte → List (List Byte)
  | 0, _ => []
  | k + 1, l => if l.isEmpty then [] else ((l.take 5) ++ List.replicate (5 - (l.take 5).length) 0) :: inFives k (l.drop 5)

/-- A message toward the host over a port's tunnel, where the lane has side_tunnel. -/
def sendTunnel (n : Nat) (m : List Byte) (s : State) : State :=
  if s.sideOpen n HSL.LANE_CTRL.side_tunnel then
    let s := sendSide n 3 (m.length * 2 ^ 24 + numBE (m.take 3)) s
    (inFives m.length (m.drop 3)).foldl (fun s b => sendSide n 4 (numBE b) s) s
  else s

/-- A block's seq against the one expected of its type. -/
def seqGap (c : SideChan) (typ q : Nat) : Bool :=
  match c.rxSeq.find? (fun e => e.1 == typ) with
  | some e => e.2 != q
  | none => false

/-- The next seq expected of a type. -/
def SideChan.expect (c : SideChan) (typ q : Nat) : SideChan :=
  { c with rxSeq := (c.rxSeq.filter (fun e => e.1 != typ)) ++ [(typ, (q + 1) % 128)] }

/-- Add bytes to the message being assembled; a complete one goes to the inbox. -/
def SideChan.feed (c : SideChan) (r : TunnelRx) (bytes : List Byte) : SideChan :=
  let all := (r.bytes ++ bytes).take r.length
  if r.length ≤ all.length then { c with rx := none, inbox := c.inbox ++ [all] }
  else { c with rx := some { r with bytes := all } }

/-- A tunnel block of a port: a gap aborts the message being assembled. -/
def tunnelBlock (l n typ q data : Nat) (s : State) : State :=
  let gap := seqGap (s.side n) typ q
  let s := if gap then countSideBad l (s.modSide n (fun c => { c with rx := none })) else s
  let s := s.modSide n (fun c => c.expect typ q)
  if typ = 3 then
    let len := data / 2 ^ 24
    if 16 ≤ len && len ≤ 16384 then
      s.modSide n (fun c => c.feed { length := len, bytes := [] } (bytesBE 3 data))
    else countSideBad l (s.modSide n (fun c => { c with rx := none }))
  else
    match (s.side n).rx with
    | some r => s.modSide n (fun c => c.feed r (bytesBE 5 data))
    | none => s

/-- SIDE_BLOCK_RECEIVED (R275, R276): a block of type 1, of a reserved type or of a port outside the lane is discarded and
counted; tunnel blocks of a lane with side_tunnel 0 are discarded without count. -/
def execSideBlockReceived (l : Fin 32) (block : BitVec 56) (s : State) : Host.Outcome State Fault Refusal :=
  .next <|
    if s.mequel && s.laneLocked l then
      let typ := block.toNat / 2 ^ 52
      let n := block.toNat / 2 ^ 47 % 32
      if typ = 1 || 5 ≤ typ || !(s.portsOf l).contains n then laneEvent l 5 196 (countSideBad l s)
      else if typ = 3 || typ = 4 then
        if s.flag (HSL.LANE_CTRL.side_tunnel.nth l) then
          tunnelBlock l n typ (block.toNat / 2 ^ 40 % 128) (block.toNat % 2 ^ 40) s
        else s
      else s
    else s

/-- USXGMII_AN_ACK (R273): the host has acknowledged the present control word. -/
def execUsxgmiiAnAck (l : Fin 32) (s : State) : Host.Outcome State Fault Refusal :=
  .next <|
    if !s.mequel && s.laneLocked l && s.rd (HSL.LANE_CTRL.proto.nth l) = 1 then
      s.modLane l (fun x => { x with usxAck := some (s.usxWord l) })
    else s

/-- HOST_FAULT_RECEIVED (R283). -/
def execHostFaultReceived (l : Fin 32) (stream : Fin 4) (fault : HostFault) (s : State) : Host.Outcome State Fault Refusal :=
  .next <|
    if s.laneLocked l && (s.mequel || stream.val == 0) then
      let a := HSL.LANE_STATUS + 4 * l
      let w := s.word a
      match fault with
      | .localFault => laneEvent l 4 195 (s.setWord a (withBitSet w (12 + stream)))
      | .remoteFault => laneEvent l 4 195 (s.setWord a (withBitSet w (24 + stream)))
      | .none => s.setWord a (withBitClear (withBitClear w (12 + stream)) (24 + stream))
    else s

/-! ### Boundary work (R288, R289) -/

/-- An eye below its limit: width in 1/256 UI, height in 2 mV (R288). -/
def eyeLow (mequel : Bool) (width height : Nat) : Bool :=
  if mequel then decide (width ≤ 51) || decide (height ≤ 7) else decide (width ≤ 76) || decide (height ≤ 19)

/-- The runs of revolutions below and above the limit; four above arm the event again (R288). -/
def Lane.eye (x : Lane) (low : Bool) : Lane :=
  if low then { x with eyeBelow := x.eyeBelow + 1, eyeAbove := 0 }
  else { x with eyeBelow := 0, eyeAbove := x.eyeAbove + 1, eyeArmed := x.eyeArmed || decide (3 ≤ x.eyeAbove) }

/-- The eye monitor of an active lane, and the block counts of a 10GBASE-R lane. -/
def eyeUpdate (s : State) (o : EyeObs) : State :=
  let l := o.lane.val
  if s.laneState l < laneCdr then s
  else
    let s := s.setWord (HSL.EYE + 4 * l)
      (BitVec.ofNat 32 (o.width.toNat * 2 ^ 24 + o.height.toNat * 2 ^ 16 + s.clk.rev.toNat % 65536))
    let x := (s.lane l).eye (eyeLow s.mequel o.width.toNat o.height.toNat)
    let fire := x.eyeArmed && decide (4 ≤ x.eyeBelow)
    let s := s.modLane l (fun _ => { x with eyeArmed := x.eyeArmed && !fire })
    let s := if fire then laneEvent l 3 194 s else s
    if s.mequel then s
    else
      let s := s.addPair (HSL.LANE_CNT_CORR + 0x20 * l) (HSL.LANE_CNT_CORR_HI + 0x20 * l) o.errored
      s.addPair (HSL.LANE_CNT_UNCORR + 0x20 * l) (HSL.LANE_CNT_UNCORR_HI + 0x20 * l) o.invalid

/-- The lanes' part of a revolution boundary. -/
def laneBoundary (obs : List EyeObs) (s : State) : State :=
  let s := obs.foldl eyeUpdate s
  refreshLanes ((List.range 32).foldl (fun s n => sendTelemetry n s) s)

end Sys2Proof.Machine
end

