-- ==== Sys2Proof/Machine/SsCoding.lean ====
section
/-! DEFINITION. The coding of a Sideshow frame (spec/08_sideshow_channel.md, R179 to R183): header word, BCH parity, RS
parity, interleaving, whitening, and a frame's duration. -/

namespace Sys2Proof.Machine

/-! ### The header (R180) -/

/-- Broadcast and link-local destinations. -/
def ssBroadcast : Nat := 0x3FFFF
def ssLinkLocal : Nat := 0x3FFFE

/-- The header word of a frame. -/
def SsFrame.header (f : SsFrame) : BitVec 64 :=
  BitVec.ofNat 64 (1 * 2 ^ 62 + f.cls % 4 * 2 ^ 60 + bitNat f.rate4 * 2 ^ 59 + bitNat f.wake * 2 ^ 58 +
    bitNat f.ackReq * 2 ^ 57 + bitNat f.ack * 2 ^ 56 + f.payload.length % 256 * 2 ^ 48 + f.dst % 2 ^ 18 * 2 ^ 30 +
    f.src % 2 ^ 18 * 2 ^ 12 + f.seq % 256 * 2 ^ 4)

/-- A field of a header word. -/
def headerField (h : BitVec 64) (lsb width : Nat) : Nat := h.toNat / 2 ^ lsb % 2 ^ width

/-- The version is 0b01 and the length at most 240. -/
def headerGood (h : BitVec 64) : Bool := headerField h 62 2 == 1 && decide (headerField h 48 8 ≤ 240)

/-- The frame a header word and a payload make. -/
def frameOf (h : BitVec 64) (payload : List Byte) : SsFrame :=
  { cls := headerField h 60 2, rate4 := headerField h 59 1 == 1, wake := headerField h 58 1 == 1,
    ackReq := headerField h 57 1 == 1, ack := headerField h 56 1 == 1, dst := headerField h 30 18,
    src := headerField h 12 18, seq := headerField h 4 8, payload := payload.take (headerField h 48 8) }

/-! ### Coding (R179, R181, R182) -/

/-- Bits of a number, most significant first. -/
def bitsBE (count v : Nat) : List Bool := (List.range count).map (fun i => v.testBit (count - 1 - i))

/-- One step of the division by the BCH generator: the least common multiple of the minimal polynomials of α, α^3, α^5 and
α^7 over x^7 + x^3 + 1, x^28 + ... = 0x1C9C26B9 (R181). -/
def bchStep (r : BitVec 28) (b : Bool) : BitVec 28 :=
  if r.getLsbD 27 != b then (r <<< 1) ^^^ 0xC9C26B9 else r <<< 1

/-- The 28 parity bits of a header. -/
def bchParity (h : BitVec 64) : BitVec 28 := (bitsBE 64 h.toNat).foldl bchStep 0

/-- Multiplication by α over x^8 + x^4 + x^3 + x^2 + 1. -/
def gfDouble (x : Byte) : Byte := if x.getLsbD 7 then (x <<< 1) ^^^ 0x1D else x <<< 1

/-- Multiplication over that field. -/
def gfMul (x y : Byte) : Byte :=
  ((List.range 8).foldl (fun (acc : Byte × Byte) i =>
    (if y.getLsbD i then acc.1 ^^^ acc.2 else acc.1, gfDouble acc.2)) (0, x)).1

/-- The generator with roots α^0 to α^7, without its leading 1, highest power first. -/
def rsGenerator : List Byte := [0xFF, 0x0B, 0x51, 0x36, 0xEF, 0xAD, 0xC8, 0x18]

/-- One step of the division by the RS generator. -/
def rsStep (r : List Byte) (d : Byte) : List Byte :=
  let f := r.headD 0 ^^^ d
  List.zipWith (fun a g => a ^^^ gfMul f g) (r.drop 1 ++ [0]) rsGenerator

/-- The eight parity bytes of a codeword's data. -/
def rsParity (l : List Byte) : List Byte := l.foldl rsStep (List.replicate 8 0)

/-- The data bytes of codeword `c` (R182). -/
def rsWord (payload : List Byte) (c : Nat) : List Byte :=
  (payload.zipIdx.filter (fun e => e.2 % 4 == c)).map (·.1)

/-- The coded payload: the data in order, then eight rows of parity over the codewords sent (R182). -/
def codedPayload (payload : List Byte) : List Byte :=
  let words := (List.range (min payload.length 4)).map (fun c => rsParity (rsWord payload c))
  payload ++ (List.range 8).flatMap (fun i => words.map (fun w => w.getD i 0))

/-- The PN9 register x^9 + x^5 + 1: its low bit is the output, and the bit shifted in is bit 0 xor bit 5 (R179; the form of the
register is PRESUMED, the polynomial and seed are the spec's). -/
def pn9Step (r : BitVec 9) : BitVec 9 :=
  let fb := r.getLsbD 0 != r.getLsbD 5
  (r >>> 1) ||| (if fb then 0x100 else 0)

/-- Whiten a bit stream from the seed. -/
def whiten (l : List Bool) : List Bool :=
  (l.foldl (fun (acc : BitVec 9 × List Bool) b => (pn9Step acc.1, (b != acc.1.getLsbD 0) :: acc.2)) (0x1FF, [])).2.reverse

/-- The bits of a frame after its sync word: header, parity and coded payload, whitened without restart. -/
def SsFrame.lineBits (f : SsFrame) : List Bool :=
  whiten (bitsBE 64 f.header.toNat ++ bitsBE 28 (bchParity f.header).toNat ++
    (codedPayload f.payload).flatMap (fun b => bitsBE 8 b.toNat))

/-- The duration of a frame in microseconds (R183). -/
def SsFrame.duration (f : SsFrame) : Nat :=
  let p := if f.wake then 1024 else 32
  let coded := f.payload.length + 8 * min f.payload.length 4
  (p + 32 + 92) * 4 + 8 * coded * (if f.rate4 then 2 else 4) + 16

end Sys2Proof.Machine
end

