-- ==== Sys2Proof/Machine/Modem.lean ====
section
/-! DEFINITION. The Sideshow modems (spec/08_sideshow_channel.md): queues, access to the medium, acknowledgement, reception,
reception in SLEEP. -/

namespace Sys2Proof.Machine

/-! ### A port's modem -/

/-- A port's modem. -/
def State.modem (s : State) (n : Nat) : Modem := sget (fun _ => Modem.reset) s.net.modems n

/-- Change a port's modem. -/
def State.modModem (s : State) (n : Nat) (f : Modem → Modem) : State :=
  { s with net := { s.net with modems := supd (fun _ => Modem.reset) s.net.modems n f } }

/-- Change the network program. -/
def State.modNet (s : State) (f : Net → Net) : State := { s with net := f s.net }

/-- The modem is enabled (R196). -/
def State.modemEnabled (s : State) (n : Nat) : Bool := s.actFlag (SS.PORT_CFG.enable.nth n)

/-- The modem works on pair D (R190). -/
def State.onBus (s : State) (n : Nat) : Bool := s.flag (SS.PORT_STATUS.bus_active.nth n)

/-- The modem can send and receive: in RUN and IDLE always, in SLEEP with the oscillator usable (R192); not before
management-ready, nor in Safe hold (R434, R442). -/
def State.modemOn (s : State) (n : Nat) : Bool :=
  s.modemEnabled n && s.boot.stage == .ready && (decide (s.powerState ≤ stIdle) || (s.powerState == stSleep && s.net.oscOn))

/-- Frames of a modem that have not completed. -/
def Modem.pendingFrames (m : Modem) : List TxFrame := m.waiting.toList ++ m.queue

/-- PORT_STATUS.rx_state (R196). -/
def State.rxState (s : State) (n : Nat) : Nat :=
  let m := s.modem n
  if !s.modemEnabled n then 0
  else if s.powerState = stSleep then 7
  else if !s.modemOn n then 0
  else if m.ackOwed.isSome then 5
  else if m.waiting.isSome then 6
  else 1

/-- Bring PORT_STATUS in line with the modem. -/
def syncModem (n : Nat) (s : State) : State :=
  let m := s.modem n
  s.wrs [(SS.PORT_STATUS.tx_pend.nth n, min 15 m.pendingFrames.length),
    (SS.PORT_STATUS.rx_free.nth n, 4 - m.rx.length), (SS.PORT_STATUS.rx_state.nth n, s.rxState n),
    (SS.PORT_STATUS.busy.nth n, bitNat (decide (s.rxState n = 5)))]

/-- In SLEEP the oscillator stops once nothing is left to send or to receive. -/
def oscRest (s : State) : State :=
  if s.powerState = stSleep && (s.net.modems.all (fun e => e.2.pendingFrames.isEmpty)) then
    s.modNet (fun x => { x with oscOn := false, oscStarting := false })
  else s

/-! ### Completion of frames (R186, R187) -/

/-- Reasons of R187. -/
def failNoAck : Nat := 1
def failBusy : Nat := 2
def failBusLl : Nat := 3
def failDisabled : Nat := 4

/-- The message number of a payload's network header, its origin and its type (R198). -/
def netField (payload : List Byte) (lsb width : Nat) : Nat := numBE (payload.take 16) / 2 ^ lsb % 2 ^ width

/-- Never report about an error report, a beacon, a trip message or a probe (R203). -/
def reportable (mtype : Nat) : Bool := !(decide (3 ≤ mtype) && decide (mtype ≤ 7))

/-- An error report to the origin of a failed message (R203). -/
def errorReport (reason mtype origin msgId : Nat) (s : State) : State :=
  if reportable mtype then
    sendMessage { mtype := 7, cls := 1, dest := origin, port := none, body := bytesBE 1 reason ++ bytesBE 1 0 ++ bytesBE 2 msgId } s
  else s

/-- A frame has failed (R187): reason, count, event 200; a relay reports NEXT_HOP_FAIL (R203), and a log summary that could not
be sent raises event 223 (R393). -/
def frameFailed (n reason : Nat) (f : TxFrame) (s : State) : State :=
  let s := s.wr (SS.PORT_STATUS.last_fail.nth n) reason
  let s := ssEvent 0 (s.addSat (SS.PORT_CNT_TX_FAIL.count.nth n) 1)
  let p := f.frame.payload
  let mtype := netField p 120 4
  let origin := netField p 95 18
  let own := decide (origin = s.act SS.NODE_ADDR.addr)
  if p.isEmpty then s
  else if !own then errorReport 5 mtype origin (netField p 61 16) s
  else if mtype = 9 then logEvent 7 s
  else s

/-- Every queued frame of a port fails with DISABLED (R187). -/
def failQueued (n : Nat) (s : State) : State :=
  let l := (s.modem n).pendingFrames
  let s := s.modModem n (fun m => { m with queue := [], waiting := none, ackOwed := none })
  syncModem n (l.foldl (fun s f => frameFailed n failDisabled f s) s)

/-- The highest class with a frame queued, and its head (R185). -/
def Modem.head (m : Modem) : Option TxFrame :=
  [3, 2, 1, 0].findSome? (fun c => m.queue.find? (fun f => f.frame.cls == c))

/-- Take the head of a class out of the queue. -/
def Modem.dropHead (m : Modem) (c : Nat) : Modem := { m with queue := m.queue.eraseP (fun f => f.frame.cls == c) }

/-- Whether a class has room in its queue of 8 frames (R185). -/
def Modem.room (m : Modem) (c : Nat) : Bool :=
  decide ((m.pendingFrames.filter (fun f => f.frame.cls == c)).length < 8)

/-- Place a frame in the queue of its class. A link-local frame on a bus port, or one on a port whose modem is off, is refused
at once (R187). -/
def enqueueFrame (n : Nat) (f : SsFrame) (s : State) : State :=
  let t : TxFrame := { frame := f, tries := 0, cw := s.act SS.MAC_CFG.cw_min, sent := false }
  if f.dst = ssLinkLocal && s.onBus n then frameFailed n failBusLl t s
  else if !s.modemEnabled n then frameFailed n failDisabled t s
  else syncModem n (s.modModem n (fun m => { m with queue := m.queue ++ [t] }))

/-- The head frame is sent: it takes the next link_seq the first time, and waits for its acknowledgement where it asks for one
and is unicast (R185, R186). -/
def sendHead (n : Nat) (s : State) : State :=
  let m := s.modem n
  match m.head with
  | none => s
  | some t =>
    let seq := if t.sent then t.frame.seq else m.nextSeq
    let frame := { t.frame with seq := seq, src := s.act SS.NODE_ADDR.addr }
    let t' : TxFrame := { t with frame := frame, sent := true }
    let waits := frame.ackReq && decide (frame.dst < ssLinkLocal)
    let next := if t.sent then m.nextSeq else (m.nextSeq + 1) % 256
    let m' : Modem := { m.dropHead t.frame.cls with nextSeq := next, waiting := if waits then some t' else none }
    let s := s.modModem n (fun _ => m')
    let s := s.emit (.ssFrame n frame frame.lineBits)
    let s := if waits then s else s.addSat (SS.PORT_CNT_TX_OK.count.nth n) 1
    oscRest (syncModem n s)

/-- SS_FRAME_TRANSMIT (R185): the medium has been idle for the gap and the backoff of the head frame. -/
def execSsFrameTransmit (n : Fin 32) (s : State) : Host.Outcome State Fault Refusal :=
  .next <| if s.modemOn n && (s.modem n).waiting.isNone && (s.modem n).ackOwed.isNone then sendHead n s else s

/-- The acknowledgement did not come (R186): the frame is sent again with a wider window, or fails with NO_ACK. -/
def ackTimeout (n : Nat) (s : State) : State :=
  match (s.modem n).waiting with
  | none => s
  | some t =>
    if t.tries < s.act SS.MAC_CFG.retry then
      let cw := if t.frame.cls = 3 then t.cw else min (t.cw + 1) (s.act SS.MAC_CFG.cw_max)
      let t' : TxFrame := { t with tries := t.tries + 1, cw := cw }
      let again := fun (m : Modem) => { m with waiting := none, queue := t' :: m.queue }
      syncModem n ((s.modModem n again).addSat (SS.PORT_CNT_TX_RETRY.count.nth n) 1)
    else syncModem n (frameFailed n failNoAck t (s.modModem n (fun m => { m with waiting := none })))

/-- SS_ACK_TIMEOUT (R186). -/
def execSsAckTimeout (n : Fin 32) (s : State) : Host.Outcome State Fault Refusal := .next (ackTimeout n s)

/-- SS_BUSY_TIMEOUT (R187): the head frame fails with BUSY. -/
def execSsBusyTimeout (n : Fin 32) (s : State) : Host.Outcome State Fault Refusal :=
  .next <|
    match (s.modem n).head with
    | some t =>
      if (s.modem n).waiting.isNone then
        syncModem n (frameFailed n failBusy t (s.modModem n (fun m => m.dropHead t.frame.cls)))
      else s
    | none => s

/-- The link acknowledgement of a frame (R183). -/
def ackFrame (src dst seq : Nat) : SsFrame :=
  { cls := 0, rate4 := false, wake := false, ackReq := false, ack := true, dst := dst, src := src, seq := seq, payload := [] }

/-- ACK_TX (R185, R188): the acknowledgement owed is sent, 40 us after the tail. -/
def execAckTx (n : Fin 32) (s : State) : Host.Outcome State Fault Refusal :=
  .next <|
    match (s.modem n).ackOwed with
    | some (dst, seq) =>
      let f := ackFrame (s.act SS.NODE_ADDR.addr) dst seq
      syncModem n ((s.modModem n (fun m => { m with ackOwed := none })).emit (.ssFrame n f f.lineBits))
    | none => s

/-! ### Reception (R188) -/

/-- The receiver while a frame is received: the current frame, the shadow, and whether the payload is being received. -/
structure Reception where
  current : Option RxFrame
  shadow : Option RxFrame
  inPayload : Bool
  /-- Whole frame received, with the outcome of its decoding. -/
  done : Bool
deriving DecidableEq, Repr

/-- The receiver with its search window open. -/
def Reception.start : Reception := { current := none, shadow := none, inPayload := false, done := false }

/-- Count one of the port's counters. -/
def count1 (f : Field) (n : Nat) (s : State) : State := s.addSat (f.nth n) 1

/-- A frame strong enough to take over (R188): capture_db in dB against RSSI in 0.5 dB. -/
def State.captures (s : State) (new current : RxFrame) : Bool :=
  let c := s.act SS.RX_CFG.capture_db
  decide (c ≠ 0) && decide (current.rssi + 2 * c ≤ new.rssi)

/-- A link acknowledgement or a unicast, broadcast or, off the bus, link-local frame is for this node (R188). -/
def State.forUs (s : State) (n : Nat) (h : BitVec 64) : Bool :=
  let dst := headerField h 30 18
  let own := s.act SS.NODE_ADDR.addr
  (decide (own ≠ 0) && decide (dst = own)) || decide (dst = ssBroadcast) || (decide (dst = ssLinkLocal) && !s.onBus n)

/-- A frame's record (R189). -/
def rxRecord (n : Nat) (f : RxFrame) (s : State) : RxRec :=
  { port := n, frame := frameOf f.header f.payload, rssi := f.rssi, corrBits := f.headerErrors,
    corrBytes := f.wordErrors.sum, time := s.now }

/-- A link acknowledgement completes the frame that waits for it (R186). -/
def takeAck (n : Nat) (f : SsFrame) (s : State) : State :=
  match (s.modem n).waiting with
  | some t =>
    if f.dst = s.act SS.NODE_ADDR.addr && f.src = t.frame.dst && f.seq = t.frame.seq then
      (s.modModem n (fun m => { m with waiting := none })).addSat (SS.PORT_CNT_TX_OK.count.nth n) 1
    else s
  | none => s

/-- A good frame in RUN or IDLE (R186, R189): a repeated one is acknowledged again and not delivered; one that finds no buffer
is neither delivered nor acknowledged. -/
def deliverAwake (n : Nat) (f : RxFrame) (s : State) : State :=
  let frame := frameOf f.header f.payload
  let owes := frame.ackReq && decide (frame.dst = s.act SS.NODE_ADDR.addr)
  let ack := fun (m : Modem) => if owes then { m with ackOwed := some (frame.src, frame.seq) } else m
  let m := s.modem n
  let s := (s.wr (SS.PORT_STATUS.rssi_last.nth n) (min 180 f.rssi))
  if frame.ack && frame.payload.isEmpty then takeAck n frame (count1 SS.PORT_CNT_RX_OK.count n s)
  else if m.lastSeq.any (fun e => e.1 == frame.src && e.2 == frame.seq + 1) then
    count1 SS.PORT_CNT_RX_OK.count n (s.modModem n ack)
  else if 4 ≤ m.rx.length then ssEvent 1 (count1 SS.PORT_CNT_RX_OVERRUN.count n s)
  else
    let r := rxRecord n f s
    perfCount 4 0x0C (count1 SS.PORT_CNT_RX_OK.count n (s.modModem n (fun m => ack
      { m with rx := m.rx ++ [r], lastSeq := sput (fun _ => 0) m.lastSeq frame.src (frame.seq + 1) })))

/-- The last-beacon time of a node's context is brought up to date (R193). -/
def touchBeacon (origin : Nat) (s : State) : State :=
  let now := s.now
  s.modNet (fun x => { x with ctxs := x.ctxs.map (fun e =>
    if e.2.address = origin then (e.1, { e.2 with last := now }) else e) })

/-- A good frame in SLEEP (R193): a beacon is noted; a frame for this node or to be relayed enters the sleep queue and wakes the
device; anything else is ignored. -/
def deliverAsleep (n : Nat) (f : RxFrame) (s : State) : State :=
  let frame := frameOf f.header f.payload
  let s := count1 SS.PORT_CNT_RX_OK.count n (s.wr (SS.PORT_STATUS.rssi_last.nth n) (min 180 f.rssi))
  let final := netField frame.payload 77 18
  let relay := !frame.payload.isEmpty && decide (final ≠ s.act SS.NODE_ADDR.addr) && decide (final < ssLinkLocal)
  let own := decide (frame.dst = s.act SS.NODE_ADDR.addr) || decide (frame.dst = ssLinkLocal)
  if frame.cls = 2 && frame.dst = ssBroadcast then touchBeacon (netField frame.payload 95 18) s
  else if own || frame.wake || relay then
    if 32 ≤ s.net.sleepQueue.length then ssEvent 2 (s.addSat SS.SLEEP_STATUS.dropped 1)
    else
      let r := rxRecord n f s
      let s := s.modNet (fun x => { x with sleepQueue := x.sleepQueue ++ [r] })
      let s := s.wrs [(SS.SLEEP_STATUS.depth, s.net.sleepQueue.length), (SS.SLEEP_STATUS.wake_req, 1)]
      askWake 4 (ssEvent 3 s)
  else s

/-- A good frame. -/
def deliverFrame (n : Nat) (f : RxFrame) (s : State) : State :=
  if s.awake then deliverAwake n f s else deliverAsleep n f s

/-- A shadow is discarded (R188). -/
def collide (n : Nat) (r : Reception) (s : State) : State :=
  if r.shadow.isSome then count1 SS.PORT_CNT_COLLIDE.count n s else s

/-- The current header ends (R188). -/
def headerEnd (n : Nat) (r : Reception) (f : RxFrame) (s : State) : Reception × State :=
  if 2 < f.headerErrors || !headerGood f.header then
    let s := count1 SS.PORT_CNT_HDR_FAIL.count n s
    match r.shadow with
    | some g => ({ r with current := some g, shadow := none }, s)
    | none => ({ r with current := none, done := true }, s)
  else if !s.forUs n f.header then ({ r with current := none, shadow := none, done := true }, collide n r s)
  else if headerField f.header 48 8 = 0 then
    ({ r with current := none, shadow := none, done := true }, collide n r (deliverFrame n f s))
  else ({ r with shadow := none, inPayload := true }, collide n r s)

/-- One step of a reception (R188). -/
def rxStep (n : Nat) (acc : Reception × State) (e : RxStep) : Reception × State :=
  let r := acc.1
  let s := acc.2
  if r.done then acc
  else match e with
    | .sync f =>
      if s.act SS.RX_CFG.sync_tol < f.syncErrors then acc
      else match r.current with
        | none => ({ r with current := some f }, s)
        | some cur =>
          if s.captures f cur then
            ({ r with current := some f, shadow := none, inPayload := false }, count1 SS.PORT_CNT_CAPTURE.count n s)
          else if r.inPayload then (r, count1 SS.PORT_CNT_COLLIDE.count n s)
          else match r.shadow with
            | none => ({ r with shadow := some f }, s)
            | some g => if g.rssi < f.rssi then ({ r with shadow := some f }, s) else acc
    | .headerEnd => match r.current with
      | some f => if r.inPayload then acc else headerEnd n r f s
      | none => acc
    | .payloadEnd => match r.current with
      | some f =>
        if !r.inPayload then acc
        else
          let done : Reception := { r with current := none, done := true }
          if f.wordErrors.all (fun e => decide (e ≤ 4)) then (done, deliverFrame n f s)
          else (done, count1 SS.PORT_CNT_RS_FAIL.count n s)
      | none => acc

/-- SS_FRAME_RECEIVED (R188): a reception from its open search window on. One that does not come to an end was abandoned
because the port started to transmit. -/
def execSsFrameReceived (n : Fin 32) (steps : List RxStep) (s : State) : Host.Outcome State Fault Refusal :=
  .next <|
    if s.modemOn n && (s.modem n).ackOwed.isNone then
      oscRest (syncModem n (steps.foldl (rxStep n) (Reception.start, s)).2)
    else s

/-- SS_PREAMBLE_TIMEOUT (R188). -/
def execSsPreambleTimeout (n : Fin 32) (s : State) : Host.Outcome State Fault Refusal :=
  .next <|
    if s.modemOn n && (s.modem n).ackOwed.isNone then oscRest (count1 SS.PORT_CNT_FALSE_PRE.count n s) else s

/-! ### The oscillator in SLEEP (R15, R192, R194) -/

/-- The oscillator is started, where SLEEP has it stopped. -/
def oscStart (s : State) : State :=
  if s.powerState = stSleep && !s.net.oscOn then s.modNet (fun x => { x with oscStarting := true }) else s

/-- ENERGY_DETECT (R192, R194, R419): energy of at least -80 dBm on a port. -/
def execEnergyDetect (n : Fin 32) (s : State) : Host.Outcome State Fault Refusal :=
  .next <|
    if s.powerState = stSleep then if s.modemEnabled n then oscStart s else s
    else if s.powerState = stDeep && bitOf (s.word PWR.WAKE_PORTS) n then askWake 3 s
    else s

/-- OSCILLATOR_READY (R15). -/
def execOscillatorReady (s : State) : Host.Outcome State Fault Refusal :=
  .next <|
    if s.net.oscStarting then
      s.modNet (fun x => { x with oscStarting := false, oscOn := true, oscFails := 0 })
    else s

/-- OSCILLATOR_START_FAIL (R194): the third failure in a row raises event 205. -/
def execOscillatorStartFail (s : State) : Host.Outcome State Fault Refusal :=
  .next <|
    if s.net.oscStarting then
      let k := s.net.oscFails + 1
      let s := s.modNet (fun x => { x with oscStarting := false, oscFails := if 3 ≤ k then 0 else k })
      if 3 ≤ k then ssEvent 5 (s.wr SS.SLEEP_STATUS.osc_fail 1) else s
    else s

/-! ### Bank switch (R190, R196) -/

/-- The cross-field checks of an SS bank (R196). -/
def ssChecks (s : State) : State :=
  let s := agree SS.MAC_CFG.cw_max (max (s.act SS.MAC_CFG.cw_min) (s.act SS.MAC_CFG.cw_max)) s
  (List.range 32).foldl (fun s n =>
    if s.actFlag (SS.PORT_CFG.bus.nth n) then s else agree (SS.PORT_CFG.bus_term.nth n) 0 s) s

end Sys2Proof.Machine
end

