-- ==== Sys2Proof/Machine/Items.lean ====
section
/-! DEFINITION. Items waiting for the Turnstile: the mailbox, the command envelope, refusals and replies
(spec/09_sideshow_network.md, R210 to R215; spec/17_security.md, R358, R365). -/

namespace Sys2Proof.Machine

/-- Change what the Turnstile holds. -/
def State.modTrust (s : State) (f : Trust → Trust) : State := { s with trust := f s.trust }

/-! ### The command envelope (R210, R214) -/

/-- Body length of a command code, none where the code is unknown. -/
def bodyLen : Nat → Option Nat
  | 1 => some 8
  | 2 => some 32
  | 3 => some 72
  | 4 => some 4
  | 5 => some 4
  | 6 => some 12
  | 7 => some 8
  | 8 => some 4
  | _ => none

/-- Length of an ML-DSA-87 signature. -/
def sigLen : Nat := 4627

/-- Fields of the envelope. -/
def Item.code (i : Item) : Nat := fieldBE i.bytes 1 1
def Item.signedReply (i : Item) : Bool := (fieldBE i.bytes 2 1).testBit 0
def Item.bodyLength (i : Item) : Nat := fieldBE i.bytes 4 2
def Item.origin (i : Item) : Nat := fieldBE i.bytes 8 4 % 2 ^ 18
def Item.target (i : Item) : Nat := fieldBE i.bytes 12 4 % 2 ^ 18
def Item.counter (i : Item) : Nat := fieldBE i.bytes 16 8
def Item.tag (i : Item) : Nat := fieldBE i.bytes 24 8
def Item.keyId (i : Item) : Nat := fieldBE i.bytes 32 8
def Item.body (i : Item) : List Byte := slice i.bytes 40 i.bodyLength
def Item.signedText (i : Item) : List Byte := i.bytes.take (40 + i.bodyLength)
def Item.signature (i : Item) : List Byte := slice i.bytes (40 + i.bodyLength) sigLen

/-- The network origin and final that stand for an item: for a mailbox command the envelope's origin and this node (R365). -/
def State.itemOrigin (_ : State) (i : Item) : Nat :=
  match i.src with
  | .mailbox => i.origin
  | .network o _ => o
def State.itemFinal (s : State) (i : Item) : Nat :=
  match i.src with
  | .mailbox => s.act SS.NODE_ADDR.addr
  | .network _ f => f

/-- The checks that refuse FORMAT (R211). -/
def State.commandFormat (s : State) (i : Item) : Bool :=
  fieldBE i.bytes 0 1 == 1 && bodyLen i.code == some i.bodyLength &&
    i.bytes.length == 40 + i.bodyLength + sigLen && i.origin == s.itemOrigin i && i.target == s.itemFinal i &&
    decide (i.target < ssLinkLocal)

/-- Results of R212. -/
def cmdOk : Nat := 0
def cmdFormat : Nat := 1
def cmdTag : Nat := 2
def cmdKeyUnknown : Nat := 3
def cmdNotPermitted : Nat := 4
def cmdReplay : Nat := 5
def cmdSignature : Nat := 6
def cmdCtxFull : Nat := 7
def cmdAuditFull : Nat := 8
def cmdParam : Nat := 9
def cmdJournal : Nat := 10

/-! ### Refusals and replies (R212, R213, R215) -/

/-- The reply a command is owed; to a mailbox command it is placed in SRAM. -/
def dueReply (src : ItemSrc) (origin counter code place : Nat) (signed : Bool) : DueReply :=
  { origin := origin, counter := counter, code := code, signed := signed,
    place := match src with
      | .mailbox => some place
      | .network _ _ => none }

/-- A judgement's result in CMD_STATUS and the counters (R212). -/
def noteJudgement (origin code result : Nat) (s : State) : State :=
  let s := s.wrs [(SS.CMD_STATUS.result, result), (SS.CMD_STATUS.code, code), (SS.CMD_STATUS.origin, origin)]
  if result = cmdOk then s.addSat (SS.NET_CNT.count.nth 4) 1
  else
    let s := ssEvent 7 (s.addSat (SS.NET_CNT.count.nth 5) 1)
    { s with host := { s.host with refusedCmds := tally origin code result s.host.refusedCmds } }

/-- Start a submitted item: the bytes at MBOX_ADDR become the last of the items waiting (R365). An item outside data SRAM, or
outside the host window in Sealed operation, is taken as empty and fails its format check. -/
def submitStart (s : State) : State :=
  let a := s.rd TST.MBOX_ADDR.addr
  let k := s.rd TST.MBOX_LEN.bytes
  let base := s.rd DMA.HOST_WIN_BASE.base * 4096
  let inWindow := decide (base ≤ a) && decide (a + k ≤ base + s.rd DMA.HOST_WIN_LEN.len * 4096)
  let ok := inSram a k && !s.anyMarked a k && (!s.sealed || inWindow)
  let bytes := if ok then s.bytesAt a k else []
  let isManifest := fieldBE bytes 0 4 == 0x4E454D46
  let s := s.wrs [(TST.MBOX_STATUS.kind, if isManifest then 2 else 1), (TST.MBOX_STATUS.busy, 1), (TST.MBOX_STATUS.entry, 0)]
  let item : Item := { src := .mailbox, manifest := isManifest, bytes := bytes, place := align8 (a + k) }
  s.modTrust (fun t => { t with items := t.items ++ [item] })

/-- The judgement of an item ends: the mailbox shows its result and takes a queued submit (R365, R41). -/
def mailboxDone (src : ItemSrc) (result : Nat) (s : State) : State :=
  match src with
  | .mailbox =>
    wcDone TST.MBOX_CMD 0 submitStart (s.wrs [(TST.MBOX_STATUS.result, result), (TST.MBOX_STATUS.busy, 0)])
  | .network _ _ => s

/-- A command is refused (R212, R215): the reply is never signed. -/
def refuseCommand (i : Item) (result : Nat) (s : State) : State :=
  let origin := s.itemOrigin i
  let s := noteJudgement origin i.code result s
  let s := sendReply (dueReply i.src origin i.counter i.code i.place false) result [] s
  mailboxDone i.src result s

/-- Take the item being judged from the queue. -/
def dropItem (s : State) : State := s.modTrust (fun t => { t with items := t.items.drop 1 })

/-- Refuse ill-formed commands at the front of the queue: their judgement needs neither key nor time (R211). -/
def settle : (fuel : Nat) → State → State
  | 0, s => s
  | k + 1, s =>
    match s.trust.items, s.trust.judging with
    | i :: _, none =>
      if !i.manifest && !s.commandFormat i then settle k (refuseCommand i cmdFormat (dropItem s)) else s
    | _, _ => s

/-- Settle the queue. -/
def settleItems (s : State) : State := settle (s.trust.items.length + 2) s

/-- An item arrives (R358). -/
def arrive (i : Item) (s : State) : State := settleItems (s.modTrust (fun t => { t with items := t.items ++ [i] }))

/-- TST.MBOX_CMD.submit (R365, R41). -/
def submit (s : State) : State := settleItems (wcWrite TST.MBOX_CMD 0 submitStart s)

/-! ### Enrolment and checkpoints (R352, R376) -/

/-- Results of R364. -/
def manOk : Nat := 0
def manFormat : Nat := 1
def manTag : Nat := 2
def manKeyUnknown : Nat := 3
def manSignature : Nat := 4
def manSeq : Nat := 5
def manAuditFull : Nat := 6
def manEntry : Nat := 7
def manCtxFull : Nat := 8
def manJournal : Nat := 9
def manOtp : Nat := 10
def manState : Nat := 11

/-- M5 takes the digest of TST.STATUS at each seal, owner or anti-rollback change (R368). -/
def measureStatus (s : State) : State := extendMeas 5 (sha (wordBytes (s.word TST.STATUS))) s

/-- Program an owner slot: bits only ever set (R351). -/
def burnOwner (k : Nat) (hash : BitVec 512) (enrolled revoked : Bool) (s : State) : State :=
  let o := s.owner k
  let slot : OwnerSlot :=
    { hash := o.hash ||| hash, enrolled := o.enrolled || enrolled, revoked := o.revoked || revoked }
  s.modOtp (fun x => { x with owners := sput (fun _ => OwnerSlot.empty) x.owners k slot })

/-- The registers, M5 and the AUDIT record after an owner slot has changed (R368, R374). -/
def ownerChanged (k detail : Nat) (s : State) : State := audit 9 0 k detail (measureStatus (refreshTrust s))

/-- TST.MBOX_CMD.enrol (R352, R365): the owner public key at MBOX_ADDR into slot 0; `fuse` is what is left of a programming
that did not verify. -/
def enrol (fuse : Option FuseLeft) (s : State) : State :=
  let a := s.rd TST.MBOX_ADDR.addr
  let s := s.wrs [(TST.MBOX_STATUS.kind, 3), (TST.MBOX_STATUS.entry, 0)]
  let fail := fun (r : Nat) (s : State) => tstEvent 1 (s.wr TST.MBOX_STATUS.result r)
  let hash := sha (s.bytesAt a 2592)
  if s.sealed || s.anyOwner || (s.owner 0).revoked then fail manState s
  else if !inSram a 2592 || s.anyMarked a 2592 then fail manFormat s
  else match fuse with
    | some x => fail manOtp (refreshTrust (burnOwner 0 (hash &&& x.hash) x.enrolled false s))
    | none => tstEvent 0 ((ownerChanged 0 1 (burnOwner 0 hash true false s)).wr TST.MBOX_STATUS.result manOk)

/-- A checkpoint begins: seq and H of this moment are signed; without the identity key it fails at once (R355, R376). -/
def checkpointStart (s : State) : State :=
  if s.idOk then askSignature (checkpointJob s.chain.seq s.chain.head true) s
  else wcDone TST.MBOX_CMD 2 (fun s => s) (s.setWc (wcKey TST.MBOX_CMD 2) 1)

/-- TST.MBOX_CMD.checkpoint (R376, R41). -/
def checkpoint (s : State) : State := wcWrite TST.MBOX_CMD 2 checkpointStart s

/-- ENROL (R352). -/
def execEnrol (fuse : Option FuseLeft) (s : State) : Host.Outcome State Fault Refusal := .next (hostCommand TST.MBOX_CMD (enrol fuse) s)

/-- CHECKPOINT (R376). -/
def execCheckpoint (s : State) : Host.Outcome State Fault Refusal := .next (hostCommand TST.MBOX_CMD checkpoint s)

end Sys2Proof.Machine
end

