-- ==== Sys2Proof/Machine/Peers.lean ====
section
/-! DEFINITION. Peer contexts, beacons received, routes (spec/09_sideshow_network.md, R200, R205 to R209, R218). -/

namespace Sys2Proof.Machine

/-! ### Contexts (R207, R208) -/

/-- The context of an address. -/
def State.peer (s : State) (addr : Nat) : Option (Nat × NetCtx) := s.net.ctxs.find? (fun e => e.2.address == addr)

/-- Put a context at its index. -/
def State.setPeer (s : State) (i : Nat) (c : NetCtx) : State :=
  let s := s.modNet (fun x => { x with ctxs := sinsert (serase x.ctxs i) i c })
  s.wr SS.NET_STATUS.ctx_used s.net.ctxs.length

/-- The session shared with a context's node, coded as in R114. -/
def State.peerSession (s : State) (c : NetCtx) : Nat :=
  match c.tripPort with
  | some p => (s.trip p).code
  | none => 0

/-- A route of source 1. -/
def NetCtx.manifestRoute (c : NetCtx) : Bool :=
  match c.route with
  | some r => r.manifest
  | none => false

/-- A context is pinned by a replay counter, a session or a manifest route (R207). -/
def State.pinned (s : State) (c : NetCtx) : Bool :=
  decide (c.replay ≠ 0) || decide (s.peerSession c ≠ 0) || c.manifestRoute

/-- The context with the oldest last beacon. -/
def oldestCtx : List (Nat × NetCtx) → Option (Nat × NetCtx)
  | [] => none
  | e :: t => match oldestCtx t with
    | none => some e
    | some f => if e.2.last ≤ f.2.last then some e else some f

/-- The index a new context takes: a free one, else that of the unpinned context, no neighbour or MISSING, with the oldest last
beacon (R208). -/
def State.freePeer (s : State) : Option Nat :=
  if s.net.ctxs.length < 1024 then (List.range 1024).find? (fun i => !s.net.ctxs.any (fun e => e.1 == i))
  else (oldestCtx (s.net.ctxs.filter (fun e => !s.pinned e.2 && decide (e.2.nbr ≠ 1)))).map (·.1)

/-- A new context of an address: not a neighbour. -/
def NetCtx.fresh (addr : Nat) : NetCtx :=
  { nbr := 3, port := 0, power := 0, interval := 0, address := addr, replay := 0, route := none, last := 0, idTag := 0,
    identity := 0, tripPort := none }

/-- The context of an address, or the place and content of a new one; none where no context can be allocated. -/
def State.needPeer (s : State) (addr : Nat) : Option (Nat × NetCtx) :=
  match s.peer addr with
  | some e => some e
  | none => s.freePeer.map (fun i => (i, NetCtx.fresh addr))

/-- Change the context of an address, where it exists. -/
def modPeer (addr : Nat) (f : NetCtx → NetCtx) (s : State) : State :=
  match s.peer addr with
  | some (i, c) => s.setPeer i (f c)
  | none => s

/-! ### Neighbours (R205) -/

/-- The neighbour state of a context changed: event 206. -/
def nbrEvent (changed : Bool) (s : State) : State := if changed then ssEvent 6 s else s

/-- A beacon creates or updates the neighbour's context; an up neighbour has a learned route (R205). -/
def beaconReceived (n : Nat) (b : Beacon) (s : State) : State :=
  match s.needPeer b.origin with
  | none => s
  | some (i, c) =>
    let learned : Route := { manifest := false, port := n, metric := 1, hop := b.origin }
    let route := if c.manifestRoute then c.route else if s.actFlag SS.NET_CFG.route_learn then some learned else c.route
    let now := s.now
    nbrEvent (decide (c.nbr ≠ 1)) (s.setPeer i { c with nbr := 1, port := n, power := b.power, interval := b.interval,
                                                        idTag := b.idTag, last := now, route := route })

/-- BEACON_RECEIVED (R205). -/
def execBeaconReceived (n : Fin 32) (b : Beacon) (s : State) : Host.Outcome State Fault Refusal := .next (whileAwake (beaconReceived n b) s)

/-- The context at an index. -/
def State.peerAt (s : State) (i : Nat) : Option NetCtx := (s.net.ctxs.find? (fun e => e.1 == i)).map (·.2)

/-- A neighbour becomes MISSING once 3 intervals and 100 ms have passed without a beacon; its learned route goes (R205). -/
def neighbourMissing (i : Nat) (s : State) : State :=
  match s.peerAt i with
  | some c =>
    if c.nbr = 1 && decide (c.last + (3 * c.interval + 100) * 1000000 ≤ s.now) then
      nbrEvent true (s.setPeer i { c with nbr := 2, route := if c.manifestRoute then c.route else none })
    else s
  | none => s

/-- NEIGHBOUR_MISSING (R205). -/
def execNeighbourMissing (i : Fin 1024) (s : State) : Host.Outcome State Fault Refusal := .next (neighbourMissing i s)

/-! ### The window (R218) -/

/-- The commitment of a secret (R356). -/
def commitment (secret : List Byte) : BitVec 512 := sha (ascii "SIRCOR-COMMIT" ++ secret)

/-- The session in force on a context's trip port. -/
def State.peerKey (s : State) (c : NetCtx) : BitVec 512 :=
  match c.tripPort.bind (fun p => (s.trip p).sess) with
  | some x => commitment (bytesBE 32 x.key.toNat)
  | none => 0

/-- Word `w` of a 512-bit value in registers: the first four bytes in word 0. -/
def digestWord (d : BitVec 512) (w : Nat) : Word := BitVec.ofNat 32 (d.toNat / 2 ^ (32 * (15 - w)))

/-- Beacons missed: whole intervals since the last one, saturating. -/
def State.missed (s : State) (c : NetCtx) : Nat :=
  if c.nbr = 3 || c.interval = 0 then 0 else min 255 ((s.now - c.last) / (c.interval * 1000000))

/-- Word `w` of SS.CTX_WIN for a context. -/
def State.peerWord (s : State) (c : NetCtx) (w : Nat) : Word :=
  match w with
  | 0 => BitVec.ofNat 32 (c.nbr * 2 ^ 30 + bitNat (s.pinned c) * 2 ^ 29 + c.port * 2 ^ 24 + c.address)
  | 1 => BitVec.ofNat 32 (s.missed c * 2 ^ 24 + c.power % 256 * 2 ^ 16 + c.interval % 65536)
  | 2 => BitVec.ofNat 32 c.replay
  | 3 => BitVec.ofNat 32 (c.replay / 2 ^ 32)
  | 4 => match c.route with
    | some r => BitVec.ofNat 32 (2 ^ 31 + bitNat r.manifest * 2 ^ 30 + r.port * 2 ^ 25 + r.metric % 128 * 2 ^ 18 + r.hop)
    | none => 0
  | 5 => BitVec.ofNat 32 (s.peerSession c * 2 ^ 29 + c.tripPort.getD 0 * 2 ^ 24)
  | 6 => BitVec.ofNat 32 c.last
  | 7 => BitVec.ofNat 32 (c.last / 2 ^ 32)
  | 8 => BitVec.ofNat 32 c.idTag
  | 9 => BitVec.ofNat 32 (c.idTag / 2 ^ 32)
  | w =>
    if 16 ≤ w && decide (w < 32) then digestWord c.identity (w - 16)
    else if 32 ≤ w then digestWord (s.peerKey c) (w - 32)
    else 0

/-- A write of SS.CTX_SEL: the selected context is copied into SS.CTX_WIN (R218). -/
def ctxSelWrite (w : Word) (s : State) : State :=
  let i := w.toNat % 1024
  let s := s.wr SS.CTX_SEL.index i
  (List.range 48).foldl (fun t k => t.setWord (SS.CTX_WIN + 4 * k) (match s.peerAt i with
    | some c => s.peerWord c k
    | none => 0)) s

/-- SS_CTX_SEL_WRITE (R218). -/
def execSsCtxSelWrite (w : Word) (s : State) : Host.Outcome State Fault Refusal := .next (hostCommand SS.CTX_SEL (ctxSelWrite w) s)

/-! ### Routes (R200, R202) -/

/-- Where a message to a node goes: port and next hop. -/
def State.route (s : State) (final : Nat) : Option (Nat × Nat) :=
  match (s.peer final).bind (fun e => e.2.route) with
  | some r => some (r.port, r.hop)
  | none => if s.actFlag SS.NET_CFG.default_en then some (s.act SS.NET_CFG.default_port, final) else none

/-- The context of the next hop on a port: the one named on a bus, the neighbour heard on the port point to point. -/
def State.hopPeer (s : State) (out hop : Nat) : Option NetCtx :=
  if s.onBus out then (s.peer hop).map (·.2)
  else (s.net.ctxs.find? (fun e => decide (e.2.nbr ≠ 3) && e.2.port == out)).map (·.2)

/-- The wake preamble is used where the next hop announced power 2 or 3 or is MISSING (R202). -/
def State.needsWake (s : State) (out hop : Nat) : Bool :=
  match s.hopPeer out hop with
  | some c => decide (2 ≤ c.power) || c.nbr == 2
  | none => false

end Sys2Proof.Machine
end

