-- ==== Sys2Proof/Machine/Session.lean ====
section
/-! DEFINITION. The establishment of trip sessions (spec/17_security.md, R370 to R373; spec/09_sideshow_network.md, R217). -/

namespace Sys2Proof.Machine

/-! ### The arm of a port -/

/-- The arm of a port whose session is ESTABLISHING. -/
def State.arm (s : State) (n : Nat) : Option Arm :=
  if (s.trip n).establishing then (s.trust.arms.find? (fun e => e.1 == n)).map (·.2) else none

/-- Replace a port's arm. -/
def State.setArm (s : State) (n : Nat) (a : Arm) : State :=
  s.modTrust (fun t => { t with arms := sinsert (serase t.arms n) n a })

/-- This device's address. -/
def State.ownAddr (s : State) : Nat := s.act SS.NODE_ADDR.addr

/-- This end is the initiator: the lower address (R217). -/
def State.initiates (s : State) (a : Arm) : Bool := decide (s.ownAddr < a.peer)

/-- The message header of a step (R370). -/
def sessionHeader (step port initiator responder sessionId : Nat) : List Byte :=
  bytesBE 1 1 ++ bytesBE 1 step ++ bytesBE 1 port ++ bytesBE 1 0 ++ bytesBE 4 initiator ++ bytesBE 4 responder ++
    bytesBE 8 sessionId ++ List.replicate 12 0

/-- The header of a step this end sends. -/
def State.stepHeader (s : State) (n step : Nat) (a : Arm) (sessionId : Nat) : List Byte :=
  sessionHeader step n (min s.ownAddr a.peer) (max s.ownAddr a.peer) sessionId

/-- A session message on the armed port, link-local, class 1 (R217). -/
def sessionMsg (n : Nat) (body : List Byte) : SsMsg :=
  { mtype := 8, cls := 1, dest := ssLinkLocal, port := some n, body := body }

/-- Write a port's SES_STATUS. -/
def sesStatus (n step : Nat) (tag : Nat) (s : State) : State :=
  s.wrs [(TST.SES_STATUS.step.nth n, step), (TST.SES_STATUS.tag_new.nth n, tag)]

/-- Record why a step failed. -/
def sesErr (n e : Nat) (s : State) : State := s.wr (TST.SES_STATUS.last_err.nth n) e

/-- The draw of a session identifier: its tag is nonzero and not that of the session in force (R370). -/
def drawSessionId (draw : Nat) (current : Option Sess) : Nat :=
  let r := numBE (Config.randomBytes draw 8)
  let tags := ((List.range 31).map (· + 1)).filter (fun t => match current with
    | some x => t != x.tag
    | none => true)
  r / 32 % 2 ^ 59 * 32 + tags.getD (r % tags.length) 1

/-- The initiator sends a fresh OFFER: a new key pair and session_id (R370, R371). Without the identity key there is none. -/
def sendOffer (n : Nat) (a : Arm) (s : State) : State :=
  if !s.idOk then sesErr n 5 s
  else
    let k := s.fresh
    let r := k.2.fresh
    let s := r.2
    let id := drawSessionId r.1 (s.trip n).sess
    let text := s.stepHeader n 1 a id ++ (Config.mlkemPublic k.1).take 1568 ++ s.trust.idPublic.take 2592
    let now := s.now
    let s := s.setArm n { a with lastOffer := now, sessionId := id, draw := k.1, offer := text, accept := [], key := none }
    signWith "SIRCOR-SES" (sessionMsg n text) text (sesStatus n 1 (id % 32) s)

/-- An accepted arm (R114, R217, R373): the session is ESTABLISHING, a session in force stays live. -/
def armPort (n peer : Nat) (commit : BitVec 512) (s : State) : State :=
  let now := s.now
  let a : Arm := { peer := peer, commit := commit, since := now, lastOffer := now, sessionId := 0, draw := 0, offer := [],
                   accept := [], key := none, th := 0 }
  let s := s.setArm n a
  let s := s.modNet (fun x => { x with ctxs := x.ctxs.map (fun e =>
    if e.2.tripPort = some n then (e.1, { e.2 with tripPort := none }) else e) })
  let s := modPeer peer (fun c => { c with tripPort := some n }) s
  let s := changeTrip n (fun t =>
    { t with establishing := true, next := none, txSwitched := false, rxSwitched := false, tagDue := false }) s
  let s := s.wrs [(TST.SES_STATUS.step.nth n, 0), (TST.SES_STATUS.initiator.nth n, bitNat (s.initiates a)),
    (TST.SES_STATUS.old_live.nth n, bitNat (s.trip n).sess.isSome), (TST.SES_STATUS.last_err.nth n, 0),
    (TST.SES_STATUS.tag_new.nth n, 0)]
  if s.initiates a then sendOffer n a s else s

/-- An establishment ends without a session: an old one stays in force (R217, R373). -/
def abandonArm (n : Nat) (s : State) : State :=
  let s := changeTrip n (fun t =>
    { t with establishing := false, next := none, txSwitched := false, rxSwitched := false, tagDue := false }) s
  let s := s.modTrust (fun t => { t with arms := serase t.arms n })
  s.wrs [(TST.SES_STATUS.step.nth n, 0), (TST.SES_STATUS.old_live.nth n, 0), (TST.SES_STATUS.tag_new.nth n, 0)]

/-! ### Steps received (R371, R372) -/

/-- A message no arm of the port expects: discarded with event 207 (R217). -/
def strayStep (s : State) : State := ssEvent 7 s

/-- A step that failed its checks: the reason, and discarded in the same way. -/
def failedStep (n e : Nat) (s : State) : State := strayStep (sesErr n e s)

/-- The step, version and addresses of a message agree with the arm (R371). -/
def State.stepFor (s : State) (m : List Byte) (step : Nat) (a : Arm) : Bool :=
  fieldBE m 0 1 == 1 && fieldBE m 1 1 == step && fieldBE m 4 4 == min s.ownAddr a.peer &&
    fieldBE m 8 4 == max s.ownAddr a.peer

/-- A signed step's text and signature, split at its length. -/
def textOf (m : List Byte) : List Byte := m.take (m.length - sigLen)
def sigOf (m : List Byte) : List Byte := m.drop (m.length - sigLen)

/-- The session key of R372. -/
def sessionKey (ss : BitVec 256) (th : BitVec 512) : BitVec 256 :=
  BitVec.ofNat 256 ((sha (ascii "SIRCOR-SKEY" ++ bytesBE 32 ss.toNat ++ digestBytes th)).toNat / 2 ^ 256)

/-- A key confirmation of R372. -/
def keyConfirm (label : String) (key : BitVec 256) (th : BitVec 512) : List Byte :=
  (digestBytes (sha (ascii label ++ bytesBE 32 key.toNat ++ digestBytes th))).take 16

/-- The new session, once its key is held: both windows are judged from now on (R373). -/
def holdKey (n id : Nat) (key : BitVec 256) (initiator : Bool) (s : State) : State :=
  let x : Sess := { id := id, key := key, initiator := initiator, txK := 0, rxBase := 0, txCodes := [], window := [] }
  syncTrip n (s.modTrip n (fun t => { t with next := some x, txSwitched := false, rxSwitched := false }))

/-- The peer's identity commitment enters its context (R371). -/
def learnIdentity (a : Arm) (s : State) : State := modPeer a.peer (fun c => { c with identity := a.commit }) s

/-- The transmit side switches to the new key (R373). -/
def switchTx (n : Nat) (s : State) : State :=
  let s := sesStatus n 5 (match (s.trip n).next with
    | some x => x.tag
    | none => 0) s
  completeChangeover n (syncTrip n (s.modTrip n (fun t => { t with txSwitched := true, tagDue := true })))

/-- OFFER received by the responder (R371). -/
def offerReceived (n : Nat) (m : List Byte) (s : State) : State :=
  match s.arm n with
  | none => strayStep s
  | some a =>
    if s.initiates a || !s.stepFor m 1 a || m.length ≠ 8819 then strayStep s
    else
      let pub := slice m 1600 2592
      if sha pub ≠ a.commit then failedStep n 1 s
      else if !Config.mldsaVerify pub (ascii "SIRCOR-SES" ++ textOf m) (sigOf m) then failedStep n 2 s
      else if !s.idOk then failedStep n 5 (learnIdentity a s)
      else
        let d := s.fresh
        let s := learnIdentity a d.2
        let id := fieldBE m 12 8
        let text := s.stepHeader n 2 a id ++ (Config.mlkemCipher d.1 (slice m 32 1568)).take 1568 ++ s.trust.idPublic.take 2592
        let th := sha (textOf m ++ text)
        let key := sessionKey (Config.mlkemShared d.1 (slice m 32 1568)) th
        let s := s.setArm n { a with sessionId := id, offer := textOf m, accept := text, key := some key, th := th }
        signWith "SIRCOR-SES" (sessionMsg n text) text (sesStatus n 2 (id % 32) (holdKey n id key false s))

/-- ACCEPT received by the initiator (R371). -/
def acceptReceived (n : Nat) (m : List Byte) (s : State) : State :=
  match s.arm n with
  | none => strayStep s
  | some a =>
    if !s.initiates a || !s.stepFor m 2 a || m.length ≠ 8819 || fieldBE m 12 8 ≠ a.sessionId || a.offer.isEmpty ||
        a.key.isSome then strayStep s
    else
      let pub := slice m 1600 2592
      if sha pub ≠ a.commit then failedStep n 1 s
      else if !Config.mldsaVerify pub (ascii "SIRCOR-SES" ++ textOf m) (sigOf m) then failedStep n 2 s
      else
        let s := learnIdentity a s
        let th := sha (a.offer ++ textOf m)
        let key := sessionKey (Config.mlkemDecapsulate (Config.mlkemSecret a.draw) (slice m 32 1568)) th
        let s := s.setArm n { a with accept := textOf m, key := some key, th := th }
        let s := sesStatus n 3 (a.sessionId % 32) (holdKey n a.sessionId key true s)
        let text := s.stepHeader n 3 a a.sessionId ++ keyConfirm "SIRCOR-KC-I" key th
        if s.idOk then signWith "SIRCOR-SES" (sessionMsg n text) text s else sesErr n 5 s

/-- CONFIRM received by the responder (R371, R373): it switches its transmit side and sends READY. -/
def confirmReceived (n : Nat) (m : List Byte) (s : State) : State :=
  match s.arm n with
  | none => strayStep s
  | some a => match a.key with
    | none => strayStep s
    | some key =>
      if s.initiates a || !s.stepFor m 3 a || m.length ≠ 4675 || fieldBE m 12 8 ≠ a.sessionId ||
          (s.trip n).txSwitched then strayStep s
      else if slice m 32 16 ≠ keyConfirm "SIRCOR-KC-I" key a.th then failedStep n 3 s
      else if !Config.mldsaVerify (slice a.offer 1600 2592) (ascii "SIRCOR-SES" ++ textOf m) (sigOf m) then failedStep n 2 s
      else
        let ready := s.stepHeader n 4 a a.sessionId ++ keyConfirm "SIRCOR-KC-R" key a.th
        switchTx n (sendMessage (sessionMsg n ready) s)

/-- READY received by the initiator (R372, R373). -/
def readyReceived (n : Nat) (m : List Byte) (s : State) : State :=
  match s.arm n with
  | none => strayStep s
  | some a => match a.key with
    | none => strayStep s
    | some key =>
      if !s.initiates a || !s.stepFor m 4 a || m.length ≠ 48 || fieldBE m 12 8 ≠ a.sessionId || (s.trip n).txSwitched then
        strayStep s
      else if slice m 32 16 ≠ keyConfirm "SIRCOR-KC-R" key a.th then failedStep n 3 s
      else switchTx n s

/-- A session message by its step (R370). -/
def sessionMessage (n : Nat) (m : List Byte) (s : State) : State :=
  match fieldBE m 1 1 with
  | 1 => offerReceived n m s
  | 2 => acceptReceived n m s
  | 3 => confirmReceived n m s
  | 4 => readyReceived n m s
  | _ => strayStep s

/-- SESSION_OFFER (R371). -/
def execSessionOffer (n : Fin 32) (m : List Byte) (s : State) : Host.Outcome State Fault Refusal := .next (whileAwake (offerReceived n m) s)

/-- SESSION_ACCEPT (R371). -/
def execSessionAccept (n : Fin 32) (m : List Byte) (s : State) : Host.Outcome State Fault Refusal := .next (whileAwake (acceptReceived n m) s)

/-- SESSION_CONFIRM (R371). -/
def execSessionConfirm (n : Fin 32) (m : List Byte) (s : State) : Host.Outcome State Fault Refusal := .next (whileAwake (confirmReceived n m) s)

/-- SESSION_READY (R372). -/
def execSessionReady (n : Fin 32) (m : List Byte) (s : State) : Host.Outcome State Fault Refusal := .next (whileAwake (readyReceived n m) s)

/-! ### Timers (R217, R371) -/

/-- OFFER_RETRY_TIMER (R371): 10 s after the last OFFER without an ACCEPT, within 60 s of the arm. -/
def execOfferRetryTimer (n : Fin 32) (s : State) : Host.Outcome State Fault Refusal :=
  .next <|
    match s.arm n with
    | some a =>
      if s.initiates a && a.key.isNone && decide (a.lastOffer + 10000000000 ≤ s.now) &&
          decide (s.now < a.since + 60000000000) then sendOffer n a s
      else s
    | none => s

/-- SESSION_ESTABLISH_TIMEOUT (R217, R371): 60 s after the arm the session returns to its old value. -/
def execSessionEstablishTimeout (n : Fin 32) (s : State) : Host.Outcome State Fault Refusal :=
  .next <|
    match s.arm n with
    | some a => if a.since + 60000000000 ≤ s.now then sesErr n 4 (abandonArm n s) else s
    | none => s

end Sys2Proof.Machine
end

