-- ==== Sys2Proof/Machine/Network.lean ====
section
/-! DEFINITION. The Sideshow network program (spec/09_sideshow_network.md, R198 to R206; spec/13_host_lanes.md, R276): messages
out, receive buffers in, reassembly, relay, the tunnel. -/

namespace Sys2Proof.Machine

/-! ### The network header (R198) -/

/-- Fragments of a message of a length. -/
def fragCount (len : Nat) : Nat := max 1 ((len + 223) / 224)

/-- The 16 bytes of a network header. -/
def netHeader (m : NetMsg) (idx cnt len : Nat) : List Byte :=
  bytesBE 16 (1 * 2 ^ 124 + m.mtype % 16 * 2 ^ 120 + m.hops % 128 * 2 ^ 113 + m.origin % 2 ^ 18 * 2 ^ 95 +
    m.final % 2 ^ 18 * 2 ^ 77 + m.msgId % 2 ^ 16 * 2 ^ 61 + idx % 256 * 2 ^ 53 + cnt % 256 * 2 ^ 45 + len % 2 ^ 16 * 2 ^ 29)

/-- A message as the tunnel carries it, with its header (R276). -/
def NetMsg.whole (m : NetMsg) : List Byte := netHeader m 0 (fragCount m.body.length) m.body.length ++ m.body

/-- Fragment `k` of a message as a payload (R199). -/
def NetMsg.fragment (m : NetMsg) (k : Nat) : List Byte :=
  netHeader m k (fragCount m.body.length) m.body.length ++ slice m.body (224 * k) 224

/-- The header fields of a payload that are kept with a message. -/
def msgOf (port : Option Nat) (src cls : Nat) (p : List Byte) (body : List Byte) : NetMsg :=
  { port := port, src := src, cls := cls, mtype := netField p 120 4, hops := netField p 113 7, origin := netField p 95 18,
    final := netField p 77 18, msgId := netField p 61 16, body := body }

/-- A payload whose header is accepted (R198); its fragment fields lie in their ranges. -/
def netGood (p : List Byte) : Bool :=
  decide (16 ≤ p.length) && netField p 124 4 == 1 && decide (1 ≤ netField p 113 7) && decide (netField p 113 7 ≤ 64) &&
    decide (netField p 120 4 ≤ 10) && decide (1 ≤ netField p 45 8) && decide (netField p 45 8 ≤ 74) &&
    decide (netField p 53 8 < netField p 45 8) && netField p 45 8 == fragCount (netField p 29 16)

/-! ### Messages out (R199, R202, R204) -/

/-- The next message number of this node. -/
def nextMsgId (s : State) : Nat × State := (s.net.msgId, s.modNet (fun x => { x with msgId := (x.msgId + 1) % 65536 }))

/-- Put a message on its way out of a port. -/
def sendOut (m : NetMsg) (out dst : Nat) (wake : Bool) (s : State) : State :=
  s.modNet (fun x => { x with outgoing := x.outgoing ++ [{ msg := m, out := out, dst := dst, wake := wake, next := 0 }] })

/-- Route a message to a node: the link destination is link-local point to point and the next hop on a bus (R202). -/
def sendVia (m : NetMsg) (out hop : Nat) (s : State) : State :=
  sendOut m out (if s.onBus out then hop else ssLinkLocal) (s.needsWake out hop) s

/-- Count a message without a route (R200). -/
def noRoute (s : State) : State := s.addSat (SS.NET_CNT.count.nth 2) 1

/-- Reassembly buffers in use, those of messages not yet taken included. -/
def syncReasm (s : State) : State := s.wr SS.NET_STATUS.reasm_busy (min 16 (s.net.reasm.length + s.net.ready.length))

/-- A message of this node leaves: link-local on its port, to itself, or by its route. -/
def originate (m : SsMsg) (s : State) : State :=
  let k := nextMsgId s
  let s := k.2
  let final := match m.port with
    | some _ => ssLinkLocal
    | none => m.dest
  let msg : NetMsg :=
    { port := none, src := s.ownAddr, cls := m.cls, mtype := m.mtype, hops := 1, origin := s.ownAddr, final := final,
      msgId := k.1, body := m.body }
  match m.port with
  | some n => sendOut msg n ssLinkLocal (s.needsWake n 0) s
  | none =>
    if m.dest = s.ownAddr || m.dest = ssBroadcast then
      syncReasm (s.modNet (fun x => { x with ready := x.ready ++ [msg] }))
    else match s.route m.dest with
      | some (out, hop) => sendVia msg out hop s
      | none => noRoute s

/-- Every message handed to the program is given its way. -/
def originateAll (s : State) : State :=
  let l := s.messages
  l.foldl (fun s m => originate m s) (s.withMessages [])

/-- The frame of a message's next fragment (R199). -/
def OutMsg.frame (o : OutMsg) (src : Nat) (rate4 : Bool) : SsFrame :=
  { cls := o.msg.cls, rate4 := rate4, wake := o.wake, ackReq := true, ack := false, dst := o.dst, src := src, seq := 0,
    payload := o.msg.fragment o.next }

/-- Replace the first outgoing message that has room, by one with its next fragment sent, or by nothing after the last. -/
def advanceOut (ready : OutMsg → Bool) : List OutMsg → List OutMsg
  | [] => []
  | o :: t =>
    if ready o then
      if o.next + 1 < fragCount o.msg.body.length then { o with next := o.next + 1 } :: t else t
    else o :: advanceOut ready t

/-- One fragment of the first message whose queue has room is placed in it (R185). -/
def enqueueNext (s : State) : State :=
  let s := originateAll s
  let ready := fun (o : OutMsg) => (s.modem o.out).room o.msg.cls
  match s.net.outgoing.find? ready with
  | none => s
  | some o =>
    let f := o.frame s.ownAddr (s.actFlag (SS.PORT_CFG.rate4.nth o.out))
    enqueueFrame o.out f (s.modNet (fun x => { x with outgoing := advanceOut ready x.outgoing }))

/-- SS_FRAME_ENQUEUE (R185, R187). -/
def execSsFrameEnqueue (s : State) : Host.Outcome State Fault Refusal := .next (enqueueNext s)

/-- The power a beacon announces (R204). -/
def State.beaconPower (s : State) : Nat := min 2 s.powerState

/-- A port's beacon is queued (R204): broadcast, with the wake preamble. -/
def sendBeacon (n power : Nat) (s : State) : State :=
  if s.modemEnabled n && (s.modem n).room 2 then
    let k := nextMsgId s
    let s := k.2
    let body := bytesBE 1 power ++ bytesBE 1 (s.portStateCode n) ++ bytesBE 2 (s.act SS.NET_CFG.beacon * 250) ++
      bytesBE 8 s.idTag ++ bytesBE 4 (s.modem n).bseq
    let m : NetMsg :=
      { port := none, src := s.ownAddr, cls := 2, mtype := 3, hops := 1, origin := s.ownAddr, final := ssBroadcast,
        msgId := k.1, body := body }
    let o : OutMsg := { msg := m, out := n, dst := ssBroadcast, wake := true, next := 0 }
    let s := s.modModem n (fun x => { x with bseq := (x.bseq + 1) % 2 ^ 32 })
    enqueueFrame n (o.frame s.ownAddr (s.actFlag (SS.PORT_CFG.rate4.nth n))) s
  else s

/-- BEACON_TIMER (R204, R19): in RUN, IDLE and SLEEP; in SLEEP the oscillator is started for it. -/
def execBeaconTimer (n : Fin 32) (s : State) : Host.Outcome State Fault Refusal :=
  .next <| if s.started && s.powerState ≤ stSleep then oscStart (sendBeacon n s.beaconPower s) else s

/-! ### Messages in (R189, R199) -/

/-- A probe answer's code ends the probe in progress (R94, R206). -/
def probeAnswered (n code : Nat) (s : State) : State := if s.fsm n = fsmProbe then probeEnd n 2 code s else s

/-- The message of all its fragments. -/
def ReasmBuf.complete (b : ReasmBuf) : NetMsg :=
  { b.msg with body := (((List.range b.cnt).flatMap (fun k =>
    ((b.frags.find? (fun f => f.1 == k)).map (·.2)).getD [])).take b.len) }

/-- A buffer with a new fragment. -/
def ReasmBuf.add (b : ReasmBuf) (k now : Nat) (data : List Byte) : ReasmBuf :=
  { b with frags := b.frags ++ [(k, data)], last := now }

/-- A fragment for reassembly (R199). -/
def takeFragment (port src cls : Nat) (p : List Byte) (s : State) : State :=
  let m := msgOf (some port) src cls p []
  let k := netField p 53 8
  let cnt := netField p 45 8
  let data := p.drop 16
  let same := fun (x : NetMsg) => x.origin == m.origin && x.msgId == m.msgId
  let now := s.now
  if s.net.ready.any same then s
  else match s.net.reasm.find? (fun b => same b.msg) with
    | some b =>
      if b.frags.any (fun f => f.1 == k) || b.cnt ≠ cnt then s
      else
        let b := b.add k now data
        let rest := s.net.reasm.filter (fun x => !same x.msg)
        if b.frags.length = cnt then
          syncReasm (s.modNet (fun x => { x with reasm := rest, ready := x.ready ++ [b.complete] }))
        else s.modNet (fun x => { x with reasm := x.reasm.map (fun y => if same y.msg then b else y) })
    | none =>
      if 16 ≤ s.net.reasm.length + s.net.ready.length then errorReport 3 m.mtype m.origin m.msgId s
      else
        let b : ReasmBuf := { msg := m, cnt := cnt, len := netField p 29 16, frags := [(k, data)], last := now }
        if cnt = 1 then syncReasm (s.modNet (fun x => { x with ready := x.ready ++ [b.complete] }))
        else syncReasm (s.modNet (fun x => { x with reasm := x.reasm ++ [b] }))

/-- The beacon in a payload. -/
def beaconOf (p : List Byte) : Beacon :=
  { origin := netField p 95 18, power := fieldBE p 16 1, interval := fieldBE p 18 2, idTag := fieldBE p 20 8 }

/-- A received frame leaves its buffer (R189, R198): beacons, trip messages and probes are acted on at once (R199). -/
def takeRecord (r : RxRec) (s : State) : State :=
  let p := r.frame.payload
  if p.isEmpty then s
  else if !netGood p then s.addSat (SS.NET_CNT.count.nth 7) 1
  else match netField p 120 4 with
    | 3 => beaconReceived r.port (beaconOf p) s
    | 4 => ssTripMessage r.port (BitVec.ofNat 64 (fieldBE p 16 8)) s
    | 5 => sendMessage { mtype := 6, cls := 1, dest := 0, port := some r.port, body := bytesBE 1 (s.portStateCode r.port) } s
    | 6 => probeAnswered r.port (fieldBE p 16 1) s
    | _ => takeFragment r.port r.frame.src r.frame.cls p s

/-- Once per revolution the program empties the sleep queue, then every port's buffers (R189, R193). -/
def drainReceive (s : State) : State :=
  let asleep := s.net.sleepQueue
  let s := (s.modNet (fun x => { x with sleepQueue := [] })).wr SS.SLEEP_STATUS.depth 0
  let s := asleep.foldl (fun s r => takeRecord r s) s
  (List.range 32).foldl (fun s n =>
    let l := (s.modem n).rx
    if l.isEmpty then s
    else
      let s := syncModem n (s.modModem n (fun m => { m with rx := [] }))
      l.foldl (fun s r => takeRecord r s) s) s

/-- Messages that gained no fragment for reasm_s are discarded and reported (R199). -/
def reasmTimeout (s : State) : State :=
  let limit := s.act SS.NET_CFG.reasm_s * 1000000000
  let old := s.net.reasm.filter (fun b => decide (b.last + limit ≤ s.now))
  let now := s.now
  let s := syncReasm (s.modNet (fun x => { x with reasm := x.reasm.filter (fun b => !decide (b.last + limit ≤ now)) }))
  old.foldl (fun s b => errorReport 4 b.msg.mtype b.msg.origin b.msg.msgId (s.addSat (SS.NET_CNT.count.nth 3) 1)) s

/-- REASSEMBLY_TIMEOUT (R199). -/
def execReassemblyTimeout (s : State) : Host.Outcome State Fault Refusal := .next (reasmTimeout s)

/-! ### Delivery and relay (R200, R201) -/

/-- Items from the network that wait for judgement (R211). -/
def State.waitingItems (s : State) : Nat :=
  (s.trust.items.filter (fun i => match i.src with
    | .network _ _ => true
    | .mailbox => false)).length

/-- A message is done with: its buffer is free. -/
def dropReady (m : NetMsg) (s : State) : State := syncReasm (s.modNet (fun x => { x with ready := x.ready.erase m }))

/-- A message delivered locally. -/
def deliverLocal (m : NetMsg) (s : State) : State :=
  match m.mtype with
  | 0 => arrive { src := .network m.origin m.final, manifest := false, bytes := m.body, place := 0 } (dropReady m s)
  | 2 => arrive { src := .network m.origin m.final, manifest := true, bytes := m.body, place := 0 } (dropReady m s)
  | 8 => match m.port with
    | some n => sessionMessage n m.body (dropReady m s)
    | none => dropReady m s
  | _ => sendTunnel (m.port.getD 0) m.whole (dropReady m s)

/-- A message for another node (R200, R201). -/
def relay (m : NetMsg) (s : State) : State :=
  let s := dropReady m s
  if 64 ≤ m.hops then errorReport 2 m.mtype m.origin m.msgId (s.addSat (SS.NET_CNT.count.nth 1) 1)
  else match s.route m.final with
    | some (out, hop) =>
      if m.port = some out then errorReport 1 m.mtype m.origin m.msgId (noRoute s)
      else sendVia { m with hops := m.hops + 1 } out hop (s.addSat (SS.NET_CNT.count.nth 0) 1)
    | none => errorReport 1 m.mtype m.origin m.msgId (noRoute s)

/-- A message is for this node (R200): by its address, by broadcast, link-local off the bus, or sent by the node to itself. -/
def State.isLocal (s : State) (m : NetMsg) : Bool :=
  (decide (m.final = s.ownAddr) && decide (s.ownAddr ≠ 0)) || decide (m.final = ssBroadcast) ||
    (match m.port with
      | some n => decide (m.final = ssLinkLocal) && !s.onBus n
      | none => true)

/-- A command or signed item stays in its buffer while four wait for judgement (R211). -/
def State.stays (s : State) (m : NetMsg) : Bool :=
  s.isLocal m && (m.mtype == 0 || m.mtype == 2) && decide (4 ≤ s.waitingItems)

/-- A whole message is taken (R200). -/
def takeMessage (m : NetMsg) (s : State) : State :=
  if s.isLocal m then deliverLocal m s
  else if m.final = ssLinkLocal then noRoute (dropReady m s)
  else relay m s

/-- MESSAGE_REASSEMBLED (R200): of the messages that can be taken, the one reassembled first. -/
def execMessageReassembled (s : State) : Host.Outcome State Fault Refusal :=
  .next <| match s.net.ready.find? (fun m => !s.stays m) with
    | some m => takeMessage m s
    | none => s

/-! ### The tunnel from the host (R276) -/

/-- A message from the host: a command is judged as a mailbox command is; a trip message is discarded (R117); anything else is
sent. -/
def tunnelMessage (n : Nat) (p : List Byte) (s : State) : State :=
  let mtype := netField p 120 4
  let final := netField p 77 18
  if !netGood p then s.addSat (SS.NET_CNT.count.nth 7) 1
  else if mtype = 0 then
    let body := p.drop 16
    arrive { src := .network (fieldBE body 8 4 % 2 ^ 18) s.ownAddr, manifest := false, bytes := body, place := 0 } s
  else if mtype = 4 then s
  else
    sendMessage { mtype := mtype, cls := if mtype = 10 then 0 else 1, dest := final,
                  port := if final = ssLinkLocal then some n else none, body := p.drop 16 } s

/-- TUNNEL_MESSAGE (R276): the oldest complete message of a port's tunnel; a command waits while four are waiting. -/
def execTunnelMessage (n : Fin 32) (s : State) : Host.Outcome State Fault Refusal :=
  .next <| match (s.side n).inbox with
    | p :: rest =>
      if netField p 120 4 = 0 && decide (4 ≤ s.waitingItems) then s
      else tunnelMessage n p (s.modSide n (fun c => { c with inbox := rest }))
    | [] => s

end Sys2Proof.Machine
end

