-- ==== Sys2Proof/Machine/Commands.lean ====
section
/-! DEFINITION. Operator commands: judgement, journal, effects and replies (spec/09_sideshow_network.md, R209 to R215;
spec/17_security.md, R369), and the signatures the device makes (R357, R376). -/

namespace Sys2Proof.Machine

/-! ### Judgement (R211) -/

/-- The operator key a key_id names (R362). -/
def State.operatorKey (s : State) (keyId : Nat) : Option OpKey :=
  (s.trust.opKeys.find? (fun e => first8 (sha e.2.key) == keyId)).map (·.2)

/-- Codes that change no configuration run while the AUDIT region is full (R214). -/
def changesConfig (code : Nat) : Bool := !(code == 2 || code == 7)

/-- A counter at or below the replay counter of its origin. -/
def State.replayed (s : State) (origin counter : Nat) : Bool :=
  match s.peer origin with
  | some (_, c) => decide (counter ≤ c.replay)
  | none => false

/-- The steps of R211 up to the journal write: the reason to refuse, or none. -/
def State.commandRefusal (s : State) (i : Item) : Option Nat :=
  if !s.commandFormat i then some cmdFormat
  else if i.tag ≠ 0 && i.tag ≠ s.idTag then some cmdTag
  else match s.operatorKey i.keyId with
    | none => some cmdKeyUnknown
    | some k =>
      if !k.permitted.getLsbD i.code then some cmdNotPermitted
      else if s.replayed (s.itemOrigin i) i.counter then some cmdReplay
      else if !Config.mldsaVerify k.key (ascii "SIRCOR-CMD" ++ i.signedText) i.signature then some cmdSignature
      else if changesConfig i.code && s.auditFull then some cmdAuditFull
      else if (s.needPeer (s.itemOrigin i)).isNone then some cmdCtxFull
      else none

/-- A command that has been judged good. -/
def State.accepted (s : State) (i : Item) : Command :=
  { src := i.src, code := i.code, signed := i.signedReply, origin := s.itemOrigin i, counter := i.counter, body := i.body,
    place := i.place }

/-- The command at the front of the items, of a code, is judged: refused, or on its way to the journal. -/
def judgeCommand (code : Nat) (s : State) : State :=
  match s.trust.items, s.trust.judging with
  | i :: _, none =>
    if i.manifest || i.code ≠ code then s
    else match s.commandRefusal i with
      | some r => settleItems (refuseCommand i r (dropItem s))
      | none =>
        let c := s.accepted i
        (dropItem s).modTrust (fun t => { t with judging := some (.command c) })
  | _, _ => s

/-- PORT_SET (R214). -/
def execPortSet (s : State) : Host.Outcome State Fault Refusal := .next (judgeCommand 1 s)

/-- ATTEST (R369). -/
def execAttest (s : State) : Host.Outcome State Fault Refusal := .next (judgeCommand 2 s)

/-- TRIP_ARM (R214). -/
def execTripArm (s : State) : Host.Outcome State Fault Refusal := .next (judgeCommand 3 s)

/-- TRIP_DISARM (R214). -/
def execTripDisarm (s : State) : Host.Outcome State Fault Refusal := .next (judgeCommand 4 s)

/-- DIAG_RUN (R214). -/
def execDiagRun (s : State) : Host.Outcome State Fault Refusal := .next (judgeCommand 5 s)

/-- TIME_SET (R214). -/
def execTimeSet (s : State) : Host.Outcome State Fault Refusal := .next (judgeCommand 6 s)

/-- LOG_SUMMARY (R393). -/
def execLogSummary (s : State) : Host.Outcome State Fault Refusal := .next (judgeCommand 7 s)

/-- CTX_CLEAR (R214). -/
def execCtxClear (s : State) : Host.Outcome State Fault Refusal := .next (judgeCommand 8 s)

/-! ### Effects (R214) -/

/-- What an executed command gives: a result, the reply's data unless the reply comes later, and the state. -/
structure Executed where
  result : Nat
  data : Option (List Byte)
  state : State

/-- A command whose body is out of range. -/
def badBody (s : State) : Executed := { result := cmdParam, data := some [], state := s }

/-- A command carried out. -/
def carriedOut (data : List Byte) (s : State) : Executed := { result := cmdOk, data := some data, state := s }

/-- LINE_CFG.port_off of every masked port, in the shadow bank with its commit: it takes effect at the next boundary. -/
def portSet (mask : Nat) (off : Nat) (s : State) : State :=
  (List.range 32).foldl (fun s n =>
    if mask.testBit n then (s.wr (P.LINE_CFG.port_off.port n) off).setPending (.port n) true else s) s

/-- The attestation report (R369). -/
def State.report (s : State) (nonce : List Byte) : List Byte :=
  bytesBE 4 1 ++ wordBytes (s.word TST.STATUS) ++ nonce ++ digestBytes s.trust.otp.idCommit ++
    (List.range 8).flatMap (fun i => digestBytes (s.digestAt (TST.MEAS + 64 * i))) ++
    (digestBytes (sha s.trust.flash.idCert)).take 32 ++ bytesBE 8 s.wheel.active.imageId.toNat ++
    bytesBE 8 (s.pair TST.MANIFEST_SEQ (TST.MANIFEST_SEQ + 4)) ++ bytesBE 8 s.now ++ bytesBE 8 s.power.rtcSec ++
    wordBytes (s.word CHIP.ID) ++ bytesBE 4 0

/-- A session of a port ends on command, with an establishment in progress (R116). -/
def disarm (n : Nat) (s : State) : State :=
  let arming := (s.trip n).establishing
  let had := (s.trip n).sess.isSome
  let s := if arming then abandonArm n s else s
  if had then endSession n 1 s
  else if arming then auditSession n 1 (s.wr (TRIP.PORT_STATUS.end_reason.nth n) 1)
  else s

/-- The neighbour and route fields of a context are cleared (R214). -/
def clearPeer (i : Nat) (c : NetCtx) (s : State) : State :=
  s.setPeer i { c with nbr := 3, port := 0, power := 0, interval := 0, route := none, last := 0, idTag := 0 }

/-- The AUDIT records from a sequence on that are still held, at most 64 (R393). -/
def State.auditFrom (s : State) (first : Nat) : List AuditRec :=
  (s.logs.audit.filter (fun r => decide (first ≤ r.seq))).take 64

/-- The data of a LOG_SUMMARY reply (R393). -/
def State.summaryReply (s : State) (first : Nat) : List Byte :=
  let l := s.auditFrom first
  s.summaryBody ++ bytesBE 4 l.length ++ l.flatMap auditRecBytes

/-- Execute an accepted command (R214). -/
def executeCommand (c : Command) (s : State) : Executed :=
  let n := fieldBE c.body 0 1
  match c.code with
  | 1 =>
    let action := fieldBE c.body 4 1
    if action ≤ 1 then carriedOut [] (portSet (fieldBE c.body 0 4) (1 - action) s) else badBody s
  | 2 => carriedOut (s.report c.body) s
  | 3 =>
    let peer := fieldBE c.body 4 4
    if 32 ≤ n || peer = 0 || decide (ssLinkLocal ≤ peer) || peer = s.ownAddr then badBody s
    else match s.needPeer peer with
      | none => { result := cmdCtxFull, data := some [], state := s }
      | some (i, x) => carriedOut [] (armPort n peer (BitVec.ofNat 512 (fieldBE c.body 8 64)) (s.setPeer i x))
  | 4 => if 32 ≤ n then badBody s else carriedOut [] (disarm n s)
  | 5 =>
    let kind := fieldBE c.body 1 1
    let reply := dueReply c.src c.origin c.counter c.code c.place c.signed
    if 32 ≤ n || 1 < kind then badBody s
    else if kind = 0 then { result := cmdOk, data := none, state := startTest n (some reply) s }
    else match diagScan n reply s with
      | some t => { result := cmdOk, data := none, state := t }
      | none => badBody s
  | 6 =>
    let frac := fieldBE c.body 8 4
    if 32768 ≤ frac then badBody s else carriedOut [] (setRtc (fieldBE c.body 0 8) frac s)
  | 7 => carriedOut (s.summaryReply (fieldBE c.body 0 8)) s
  | 8 => match s.peer (fieldBE c.body 0 4) with
    | some (i, x) => if s.peerSession x ≠ 0 then badBody s else carriedOut [] (clearPeer i x s)
    | none => badBody s
  | _ => badBody s

/-- A command judged good is refused after all: by the journal, its body or a context (R211). -/
def refuseJudged (c : Command) (result : Nat) (s : State) : State :=
  let s := noteJudgement c.origin c.code result s
  mailboxDone c.src result (sendReply (dueReply c.src c.origin c.counter c.code c.place false) result [] s)

/-- The counter of an accepted command in the journal and in its context (R209, R211). -/
def advanceReplay (origin counter : Nat) (s : State) : State :=
  let s := s.modTrust (fun t => { t with flash := { t.flash with
    journal := { t.flash.journal with replay := sput (fun _ => 0) t.flash.journal.replay origin counter } } })
  match s.needPeer origin with
  | some (i, c) => s.setPeer i { c with replay := counter }
  | none => s

/-- The journal write of a command ended (R211): the command is executed and answered, or refused with JOURNAL. -/
def commandJournaled (c : Command) (ok : Bool) (s : State) : State :=
  if !ok then refuseJudged c cmdJournal s
  else
    let x := executeCommand c (advanceReplay c.origin c.counter s)
    if x.result ≠ cmdOk then refuseJudged c x.result x.state
    else
      let s := audit 1 0 c.origin (c.counter % 2 ^ 32) (noteJudgement c.origin c.code cmdOk x.state)
      let s := match x.data with
        | some d =>
          sendReply (dueReply c.src c.origin c.counter c.code c.place (c.signed || c.code == 2)) cmdOk d s
        | none => s
      mailboxDone c.src cmdOk s

/-! ### Signatures of the device (R357, R376) -/

/-- A signature is made: appended to its message, or written with its checkpoint (R376). -/
def signatureMade (j : SignJob) (sig : List Byte) (s : State) : State :=
  match j.use with
  | .message m => sendMessage { m with body := m.body ++ sig } s
  | .checkpoint seq head commanded =>
    let s := writeBytes (s.rd TST.CKPT_ADDR.addr) (bytesBE 8 seq.toNat ++ digestBytes head ++ sig) s
    let s := tstEvent 6 (audit 13 0 0 (seq.toNat % 2 ^ 32) s)
    if commanded then wcDone TST.MBOX_CMD 2 checkpointStart s else s

/-- A signature that cannot be made: the operation ends with FAULT (R355). -/
def signatureFault (j : SignJob) (s : State) : State :=
  match j.use with
  | .message _ => s
  | .checkpoint _ _ commanded => if commanded then wcDone TST.MBOX_CMD 2 checkpointStart s else s

/-- The oldest signature the device itself makes ends: it succeeds; or it has none at 6 ms, and is issued again; without the
identity key it ends with FAULT (R355, R357). -/
def ownSignatureEnd (failed : Bool) (s : State) : State :=
  match s.signing with
  | [] => s
  | j :: rest =>
    let s := perfCount 4 0x0A (s.withSignCount (s.signCount + 1))
    if !s.idOk then signatureFault j (s.withSigning rest)
    else if failed then s
    else signatureMade j (Config.mldsaSign (s.signCount - 1) j.text) (s.withSigning rest)

/-- LATTICE_JOB_END (R357): of the device's own signatures, or of the oldest LATT job of a task. -/
def execLatticeJobEnd (own failed : Bool) (s : State) : Host.Outcome State Fault Refusal :=
  .next (if own then ownSignatureEnd failed s else latticeJobEnd failed s)

end Sys2Proof.Machine
end

