-- ==== Sys2Proof/Machine/Manifest.lean ====
section
/-! DEFINITION. Configuration manifests up to their staging (spec/17_security.md, R361 to R364), and the end of a journal
write (R209). -/

namespace Sys2Proof.Machine

/-! ### Form (R361, R362) -/

/-- Body length of an entry type. -/
def entryLen : Nat → Option Nat
  | 1 => some 8
  | 2 => some 12
  | 3 => some 4
  | 4 => some 2596
  | 5 => some 4
  | 6 => some 68
  | 7 => some 4
  | 8 => some 4
  | 9 => some 4
  | _ => none

/-- An entry's content by its type. -/
def entryOf (typ : Nat) (b : List Byte) : Entry :=
  match typ with
  | 1 => .reg (fieldBE b 0 4) (BitVec.ofNat 32 (fieldBE b 4 4))
  | 2 => .route (fieldBE b 0 4) (fieldBE b 4 1) (fieldBE b 5 1) (fieldBE b 8 4)
  | 3 => .routeDel (fieldBE b 0 4)
  | 4 => .opKey (fieldBE b 0 1) (BitVec.ofNat 16 (fieldBE b 2 2)) (slice b 4 2592)
  | 5 => .opKeyDel (fieldBE b 0 1)
  | 6 => .ownerEnrol (fieldBE b 0 1) (BitVec.ofNat 512 (fieldBE b 4 64))
  | 7 => .ownerRevoke (fieldBE b 0 1)
  | 8 => .svnCommit (fieldBE b 0 1)
  | _ => .sealDevice

/-- `count` entries that fill the bytes exactly; none where the form is broken. -/
def parseEntries : (count : Nat) → List Byte → Option (List Entry)
  | 0, b => if b.isEmpty then some [] else none
  | k + 1, b =>
    let typ := fieldBE b 0 1
    let len := fieldBE b 2 2
    if decide (4 + len ≤ b.length) && zerosAt b 1 1 && entryLen typ == some len then
      (parseEntries k (b.drop (4 + len))).map (fun t => entryOf typ (slice b 4 len) :: t)
    else none

/-- A manifest's fields. -/
structure ManifestForm where
  tag : Nat
  keyId : Nat
  seq : Nat
  entries : List Entry
  text : List Byte
  sig : List Byte
deriving DecidableEq, Repr

/-- The form of a manifest (R361). -/
def parseManifest (b : List Byte) : Option ManifestForm :=
  let len := fieldBE b 8 4
  let count := fieldBE b 12 2
  if fieldBE b 0 4 == 0x4E454D46 && fieldBE b 4 1 == 1 && zerosAt b 5 3 && len == b.length && decide (len ≤ 65536) &&
      decide (64 + sigLen ≤ len) && decide (1 ≤ count) && decide (count ≤ 1024) && zerosAt b 14 2 && zerosAt b 40 24 then
    let text := b.take (len - sigLen)
    (parseEntries count (text.drop 64)).map (fun l =>
      { tag := fieldBE b 24 8, keyId := fieldBE b 32 8, seq := fieldBE b 16 8, entries := l, text := text,
        sig := b.drop (len - sigLen) })
  else none

/-! ### Entries (R363 step 4) -/

/-- A configuration register of R31: one with RW fields, a bank's commit, or a reset command of the core region. -/
def isConfigReg (a : Nat) : Bool :=
  match homeOf a with
  | some (.reg b _ r) => r.hasRW || b.commitAt == some a || a == CHIP.RESET_CMD
  | some (.activeCopy _ _ _) => false
  | none => false

/-- The OTP types of R362. -/
def Entry.isOtp : Entry → Bool
  | .ownerEnrol _ _ => true
  | .ownerRevoke _ => true
  | .svnCommit _ => true
  | .sealDevice => true
  | .reg _ _ => false
  | .route _ _ _ _ => false
  | .routeDel _ => false
  | .opKey _ _ _ => false
  | .opKeyDel _ => false

/-- The address a route entry needs a new context for. -/
def State.newRoute (s : State) (e : Entry) : Option Nat :=
  match e with
  | .route node _ _ _ => if (s.peer node).isSome then none else some node
  | _ => none

/-- Contexts that can still be allocated. -/
def State.peerRoom (s : State) : Nat :=
  1024 - s.net.ctxs.length + (s.net.ctxs.filter (fun e => !s.pinned e.2 && decide (e.2.nbr ≠ 1))).length

/-- Owner slots that are active. -/
def State.activeOwners (s : State) : Nat := ((List.range 4).filter (fun k => (s.owner k).active)).length

/-- What an entry fails with, for a manifest of `count` entries signed by `slot`; `new` lists the addresses the entries before
need contexts for. -/
def State.entryFault (s : State) (count slot : Nat) (new : List Nat) (e : Entry) : Option Nat :=
  if e.isOtp && decide (count ≠ 1) then some manEntry
  else match e with
    | .reg a _ => if isConfigReg a then none else some manEntry
    | .route node port metric hop =>
      if node = 0 || decide (ssLinkLocal ≤ node) || decide (32 ≤ port) || metric = 0 || decide (64 < metric) ||
          decide (2 ^ 18 ≤ hop) then some manEntry
      else if (s.newRoute e).isSome && !new.contains node && decide (s.peerRoom ≤ new.length) then some manCtxFull
      else none
    | .routeDel node => if node = 0 || decide (ssLinkLocal ≤ node) then some manEntry else none
    | .opKey k _ _ => if k < 16 then none else some manEntry
    | .opKeyDel k => if k < 16 then none else some manEntry
    | .ownerEnrol k _ =>
      if 4 ≤ k then some manEntry
      else if (s.owner k).enrolled || (s.owner k).revoked then some manState
      else none
    | .ownerRevoke k =>
      if 4 ≤ k then some manEntry
      else if k = slot || !(s.owner k).active || decide (s.activeOwners ≤ 1) then some manState
      else none
    | .svnCommit v =>
      if s.trust.otp.rollback < v && decide (v ≤ 64) && decide (v ≤ s.fw.svn) then none else some manEntry
    | .sealDevice => if s.anyOwner && !s.sealed then none else some manState

/-- The first entry that fails: its index and result. -/
def State.firstFault (s : State) (count slot : Nat) : (index : Nat) → (new : List Nat) → List Entry → Option (Nat × Nat)
  | _, _, [] => none
  | i, new, e :: t =>
    match s.entryFault count slot new e with
    | some r => some (i, r)
    | none => s.firstFault count slot (i + 1) (match s.newRoute e with
      | some a => if new.contains a then new else a :: new
      | none => new) t

/-! ### Judgement (R363) -/

/-- What judging a manifest gives: refused with a result and the failing entry, or good. -/
inductive Verdict where
  | refused (result index : Nat)
  | good (m : Staged)
deriving DecidableEq, Repr

/-- Steps 1 to 4 of R363. -/
def State.judgeManifest (s : State) (i : Item) : Verdict :=
  match parseManifest i.bytes with
  | none => .refused manFormat 0
  | some f =>
    if f.tag ≠ 0 && f.tag ≠ s.idTag then .refused manTag 0
    else match s.ownerOf f.keyId with
      | none => .refused manKeyUnknown 0
      | some slot =>
        if !s.ownerSigned slot "SIRCOR-MAN" f.text f.sig then .refused manSignature 0
        else if f.seq ≤ s.pair TST.MANIFEST_SEQ (TST.MANIFEST_SEQ + 4) then .refused manSeq 0
        else if s.auditFull then .refused manAuditFull 0
        else match s.firstFault f.entries.length slot 0 [] f.entries with
          | some (k, r) => .refused r k
          | none => .good { src := i.src, entries := f.entries, digest := sha i.bytes, seq := f.seq, slot := slot }

/-- The node an item came from, 0 for the mailbox. -/
def ItemSrc.node : ItemSrc → Nat
  | .mailbox => 0
  | .network o _ => o

/-- The answer to a manifest: in the mailbox, or as a reply over the Sideshow (R364). -/
def answerManifest (src : ItemSrc) (seq result index : Nat) (s : State) : State :=
  match src with
  | .mailbox => mailboxDone src result (s.wr TST.MBOX_STATUS.entry index)
  | .network o _ => sendReply { origin := o, counter := seq, code := 0, signed := false } result [] s

/-- A manifest is refused whole (R363): AUDIT record, event 209, answer. -/
def refuseManifest (src : ItemSrc) (seq result index : Nat) (s : State) : State :=
  answerManifest src seq result index (tstEvent 1 (audit 5 result src.node (seq % 2 ^ 32) s))

/-- The manifest at the front of the items is judged: refused, or on its way to the journal. -/
def manifestReceived (s : State) : State :=
  match s.trust.items, s.trust.judging with
  | i :: _, none =>
    if !i.manifest then s
    else match s.judgeManifest i with
      | .refused r k => settleItems (refuseManifest i.src (fieldBE i.bytes 16 8) r k (dropItem s))
      | .good m => (dropItem s).modTrust (fun t => { t with judging := some (.manifest m) })
  | _, _ => s

/-- MANIFEST_RECEIVED (R363). -/
def execManifestReceived (s : State) : Host.Outcome State Fault Refusal := .next (manifestReceived s)

/-! ### Journal and OTP (R363 steps 5 to 7) -/

/-- Program the OTP fields of an entry; `fuse` is what is left of a programming that did not verify. -/
def burnEntry (e : Entry) (fuse : Option FuseLeft) (s : State) : State :=
  match e, fuse with
  | .ownerEnrol k h, none => burnOwner k h true false s
  | .ownerEnrol k h, some x => burnOwner k (h &&& x.hash) x.enrolled false s
  | .ownerRevoke k, none => burnOwner k 0 false true s
  | .ownerRevoke k, some x => burnOwner k 0 false x.revoked s
  | .svnCommit v, none => s.modOtp (fun o => { o with rollback := max o.rollback v })
  | .svnCommit v, some x => s.modOtp (fun o => { o with rollback := max o.rollback (min v x.count) })
  | .sealDevice, none => s.modOtp (fun o => { o with sealBits := 3 })
  | .sealDevice, some x => s.modOtp (fun o => { o with sealBits := o.sealBits ||| x.sealBits })
  | _, _ => s

/-- An accepted manifest (R363): sequence in journal and register, OTP entries programmed, entries staged for the boundary,
M4, AUDIT record, event 208, answer. -/
def stageManifest (m : Staged) (fuse : Option FuseLeft) (s : State) : State :=
  let s := s.modTrust (fun t => { t with flash := { t.flash with journal := { t.flash.journal with manifestSeq := m.seq } } })
  let s := s.setPair TST.MANIFEST_SEQ (TST.MANIFEST_SEQ + 4) m.seq
  let s := m.entries.foldl (fun s e => burnEntry e fuse s) s
  if fuse.isSome && m.entries.any Entry.isOtp then refuseManifest m.src m.seq manOtp 0 s
  else
    let s := s.modTrust (fun t => { t with staged := t.staged ++ [m] })
    answerManifest m.src m.seq manOk 0 (tstEvent 0 (audit 4 0 m.src.node (m.seq % 2 ^ 32) (extendMeas 4 m.digest s)))

/-- JOURNAL_WRITE_DONE (R209): the journal write ended, well or not; `fuse` is what is left of an OTP programming that followed
it and did not verify. -/
def journalDone (ok : Bool) (fuse : Option FuseLeft) (s : State) : State :=
  let t := s.modTrust (fun t => { t with judging := none })
  match s.trust.judging with
  | none => s
  | some (.command c) => settleItems (commandJournaled c ok t)
  | some (.manifest m) =>
    settleItems (if ok then stageManifest m fuse t else refuseManifest m.src m.seq manJournal 0 t)

/-- JOURNAL_WRITE_DONE (R209). -/
def execJournalWriteDone (ok : Bool) (fuse : Option FuseLeft) (s : State) : Host.Outcome State Fault Refusal :=
  .next (journalDone ok fuse s)

end Sys2Proof.Machine
end

