-- ==== Sys2Proof/Machine/Reset.lean ====
section
/-! DEFINITION. What each reset source clears and keeps, and the first steps of a start (spec/21_reset_boot_selftest.md, R428,
R433, R434; spec/24_register_map.md, R468; spec/25_electrical_package.md, R476). -/

namespace Sys2Proof.Machine

/-- The registers a reset of a source keeps: the self-test result latch under every source but power-on; RTC validity and the
rails' configuration where the always-on domain keeps its state (R468). -/
def State.keptRegs (s : State) (src : Nat) (t : State) : State :=
  let t := if src = 1 then t else t.setWord BIST.SHUT_STATUS (s.word BIST.SHUT_STATUS)
  if src = 3 || src = 4 then
    let t := t.wr PWR.AON_STATUS.rtc_valid (s.rd PWR.AON_STATUS.rtc_valid)
    (List.range 4).foldl (fun t r => t.setWord (PWR.RAIL_CFG + 16 * r) (s.word (PWR.RAIL_CFG + 16 * r))) t
  else t

/-- The state a reset of a source leaves: everything at its reset value but OTP, flash, what the source keeps, and the levels
others drive into the pins. -/
def State.cleared (s : State) (src : Nat) : State :=
  let aon := src == 3 || src == 4
  let t := { State.reset with
    pending := s.pending, out := s.out, freeCount := s.freeCount, signCount := s.signCount,
    pins := { State.reset.pins with level := s.pins.level },
    trust := { Trust.reset with otp := s.trust.otp, flash := s.trust.flash, draws := s.trust.draws },
    power := { Power.reset with
      wakePin := s.power.wakePin, rtcSec := if aon then s.power.rtcSec else 0, rtcFrac := if aon then s.power.rtcFrac else 0 } }
  (s.keptRegs src t).wr CHIP.RESET_CAUSE.source src

/-- A start begins (R433, R434): the long path unless the last shutdown test passed; it runs the start-up test at 0.78 V. -/
def startBoot (s : State) : State :=
  let short := s.flag BIST.SHUT_STATUS.valid && s.rd BIST.SHUT_STATUS.result == 1 && !s.flag BIST.SHUT_STATUS.long_next
  let s := (s.withClk { s.clk with pllOn := true }).wrs
    [(PWR.AON_STATUS.phase, 1), (CHIP.BOOT_STATUS.path, bitNat (!short))]
  let s := { s with boot := { s.boot with stage := if short then .booting else .testing, seg := 0, again := false } }
  if short then s else startRails stRun true s

/-- A reset of a source (R428): outputs are released, everything the source clears is cleared; a start from OFF and a commanded
reset go on at once, the others wait for the release of reset (R476). -/
def resetDevice (src : Nat) (s : State) : State :=
  withOuts (fun s =>
    let t := s.cleared src
    if src = 2 || src = 4 then startBoot t else { t with boot := { t.boot with stage := .held } }) s

/-- VDD_AON has gone: the device is unpowered and keeps OTP and flash alone (R476). -/
def powerLost (s : State) : State :=
  withOuts (fun s =>
    let t := (s.cleared 1).wr CHIP.RESET_CAUSE.source 0
    { t with boot := { t.boot with stage := .unpowered } }) s

/-- POWER_ON_RESET (R428): VDD_AON has risen. -/
def execPowerOnReset (s : State) : Host.Outcome State Fault Refusal := .next (resetDevice 1 s)

/-- RESET_N (R428): asserted for at least 1 us; without power nothing happens. -/
def execResetN (s : State) : Host.Outcome State Fault Refusal :=
  .next (if s.boot.stage == .unpowered then s else resetDevice 3 s)

/-- SUPPLY_DROP (R476): as RESET_N. -/
def execSupplyDrop (s : State) : Host.Outcome State Fault Refusal :=
  .next (if s.boot.stage == .unpowered then s else resetDevice 3 s)

/-- AON_SUPPLY_FALL (R476). -/
def execAonSupplyFall (s : State) : Host.Outcome State Fault Refusal := .next (powerLost s)

/-- JTAG_TAP_RESET (R428): the TAP controller alone; recorded only where the device has not started since power-on. -/
def execJtagTapReset (s : State) : Host.Outcome State Fault Refusal :=
  .next (if s.boot.stage == .held && s.rd CHIP.RESET_CAUSE.source ≤ 1 then s.wr CHIP.RESET_CAUSE.source 5 else s)

end Sys2Proof.Machine
end

