-- ==== Sys2Proof/Machine/Power.lean ====
section
/-! DEFINITION. The Ringmaster (spec/20_power_states.md): requests, the entry handshake, entries, wakes, retention, rails. -/

namespace Sys2Proof.Machine

/-! ### Requests (R411, R412) -/

/-- Results of REQ_STATUS. -/
def prOk : Nat := 0
def prRefused : Nat := 1
def prPolicy : Nat := 2
def prWakeHeld : Nat := 3
def prWoken : Nat := 4
def prReplaced : Nat := 5
def prRail : Nat := 6
def prInvalid : Nat := 7

/-- The target of the request in progress or last ended. -/
def State.reqTarget (s : State) : Nat := s.rd PWR.REQ_STATUS.target

/-- The request in progress ends with a result. -/
def endRequest (result : Nat) (s : State) : State :=
  (s.modPower (fun p => { p with stage := .rest })).wrs [(PWR.REQ_STATUS.busy, 0), (PWR.REQ_STATUS.result, result)]

/-! ### The entry handshake (R414, R415) -/

/-- A block is not ready yet and delays its answer. -/
def State.blockDelays (s : State) (b : Nat) : Bool :=
  match b with
  | 2 => !s.trust.items.isEmpty || s.trust.judging.isSome || !s.signing.isEmpty ||
      s.seq.jobs.any (fun x => match x.2.kind with
        | .lattice _ _ => x.2.status.isNone
        | _ => false)
  | 4 => s.dma.rings.any (fun r => !r.2.descs.isEmpty)
  | 6 => s.net.modems.any (fun e => e.2.ackOwed.isSome)
  | 8 => s.cal.rot.isSome
  | _ => false

/-- A block refuses at once. -/
def State.blockRefuses (s : State) (target b : Nat) : Bool :=
  match b with
  | 1 => s.loading
  | 3 => target == stOff && s.logs.audit.any (fun r => !r.exported)
  | 5 => s.flag PWR.CFG.trip_guard && (List.range 32).any (fun n => (s.trip n).armed)
  | 7 => decide (stDeep ≤ target) && s.pcie.linkUp && !s.pcie.d3hot
  | _ => false

/-- A refusal ends the request and leaves the device as it was. -/
def refuseEntry (block : Nat) (s : State) : State :=
  pwrEvent 1 ((endRequest prRefused (s.modPower (fun p => { p with wake := none }))).wr PWR.REQ_STATUS.block block)

/-- Every block is asked at once. -/
def askBlocks (target : Nat) (s : State) : State :=
  match (List.range 9).find? (fun b => s.blockRefuses target b) with
  | some b => refuseEntry b s
  | none =>
    let l := (List.range 9).filter (fun b => s.blockDelays b)
    s.modPower (fun p => { p with stage := if l.isEmpty then .stopping else .asking l })

/-! ### Starting a request (R412, R413) -/

/-- A wake from SLEEP or DEEP_SLEEP starts: crystal and rails (R421). -/
def startWake (src : Nat) (s : State) : State :=
  let s := s.wrs [(PWR.AON_STATUS.last_wake, src), (PWR.AON_STATUS.last_state, s.powerState)]
  startRails stRun false (s.modPower (fun p =>
    { p with stage := .waking, wake := none, crystal := false, retry := false, railFault := false }))

/-- The device makes a request its own: a change between RUN and IDLE, an entry, SLEEP to DEEP_SLEEP, or a wake with the
request kept pending. -/
def startRequest (target src : Nat) (s : State) : State :=
  let st := s.powerState
  let s := s.wrs [(PWR.REQ_STATUS.target, target), (PWR.REQ_STATUS.src, src), (PWR.REQ_STATUS.block, 0),
    (PWR.REQ_STATUS.busy, 1)]
  if target = st then endRequest prOk s
  else if st ≤ stIdle then
    if target ≤ stIdle then s.modPower (fun p => { p with stage := .slot }) else askBlocks target s
  else if st = stSleep && target = stDeep then
    oscStart ((List.range 32).foldl (fun s n => sendBeacon n 3 s) (s.modPower (fun p => { p with stage := .beacons })))
  else
    let s := askWake 6 (endRequest prOk s)
    if target = stRun then s
    else (s.modPower (fun p => { p with pendSrc := src })).wrs [(PWR.REQ_STATUS.pend_valid, 1), (PWR.REQ_STATUS.pend_state, target)]

/-- The pending request starts when the one in progress has ended, with the device awake or at rest in its state. -/
def startPending (s : State) : State :=
  if s.flag PWR.REQ_STATUS.pend_valid && s.power.stage == .rest && s.power.wake.isNone then
    let target := s.rd PWR.REQ_STATUS.pend_state
    startRequest target s.power.pendSrc (s.wrs [(PWR.REQ_STATUS.pend_valid, 0), (PWR.REQ_STATUS.pend_state, 0)])
  else s

/-- A request that ends at once without being carried out (R411). -/
def refuseRequest (result : Nat) (s : State) : State := pwrEvent 1 (s.wr PWR.REQ_STATUS.result result)

/-- The Ringmaster takes a request (R411, R412): source 0 host over PCIe, 1 host over MDIO, 2 firmware. -/
def takeRequest (target src : Nat) (s : State) : State :=
  let s := s.wr PWR.REQ.state target
  let host := decide (src ≤ 1)
  if 5 ≤ target then refuseRequest prInvalid s
  else if stSleep ≤ target && host && !s.flag PWR.CFG.host_deep then refuseRequest prPolicy s
  else if stSleep ≤ target && s.power.wakePin then refuseRequest prWakeHeld s
  else
    let s := if host then auditOperational PWR.REQ target s else s
    if s.power.stage == .rest && s.power.wake.isNone && !s.flag PWR.REQ_STATUS.pend_valid then startRequest target src s
    else
      let s := if s.flag PWR.REQ_STATUS.pend_valid then pwrEvent 3 (s.wr PWR.REQ_STATUS.result prReplaced) else s
      let s := if s.power.stage == .testing && decide (target ≤ stIdle) then askWake 6 s else s
      (s.modPower (fun p => { p with pendSrc := src })).wrs [(PWR.REQ_STATUS.pend_valid, 1), (PWR.REQ_STATUS.pend_state, target)]

/-- POWER_REQUEST (R411): a request is taken at its tick. -/
def execPowerRequest (target : Fin 8) (src : Fin 3) (s : State) : Host.Outcome State Fault Refusal :=
  .next (if s.started then takeRequest target src s else s)

/-- A delayed block answers: accept once it is ready; at 1 ms one that is not ready refuses, the Sideshow accepts (R414). -/
def handshakeAnswer (b : Nat) (limit : Bool) (s : State) : State :=
  match s.power.stage with
  | .asking l =>
    if !l.contains b then s
    else if !s.blockDelays b || (limit && b == 6) then
      let rest := l.filter (· != b)
      s.modPower (fun p => { p with stage := if rest.isEmpty then .stopping else .asking rest })
    else if limit then startPending (refuseEntry b s)
    else s
  | _ => s

/-- ENTRY_HANDSHAKE_ANSWER (R414). -/
def execEntryHandshakeAnswer (b : Fin 9) (limit : Bool) (s : State) : Host.Outcome State Fault Refusal :=
  .next (handshakeAnswer b limit s)

/-- A change between RUN and IDLE takes effect at a slot boundary (R413). -/
def slotPower (s : State) : State :=
  if s.power.stage == .slot then startPending (endRequest prOk (s.wr PWR.REQ_STATUS.state s.reqTarget)) else s

/-! ### Entry (R416 to R418) -/

/-- The wheel stops before slot 0: tasks are held, the port islands go off and the lanes go to their deep state. Entry to OFF
then runs the shutdown test at the test voltage (R438). -/
def stopWheel (s : State) : State :=
  let s := (List.range 32).foldl (fun s n => if s.fsm n = fsmBus then s else linkDown n fsmOff s) s
  let s := withOuts (fun s => s.withClk { s.clk with wheelOn := false }) s
  let s := (List.range 8).foldl (fun s k => s.wr (PWR.TEMP.valid.nth k) 0) (refreshLanes s)
  if s.reqTarget = stOff then
    let s := s.wrs [(PWR.AON_STATUS.phase, 2), (BIST.SHUT_STATUS.result, 0), (BIST.SHUT_STATUS.valid, 0),
      (BIST.SHUT_STATUS.seg_done, 0), (BIST.SHUT_STATUS.seg_first, 127)]
    let s := (List.range 5).foldl (fun s w => s.setWord (BIST.SEG_RESULT + 4 * w) 0) s
    let s := { s with boot := { s.boot with seg := 0, again := false } }
    startRails stRun true (s.modPower (fun p => { p with stage := .testing }))
  else s.modPower (fun p => { p with stage := .crc })

/-- The state is reached once the last rail has acknowledged, or faulted (R416, R426). A wake latched at the end of an entry to OFF
starts the device at once (R420). -/
def finishEntry (s : State) : State :=
  if s.reqTarget = stOff && s.power.wake.isSome then resetDevice 2 s else
  let result := if s.power.railFault then prRail else prOk
  let s := s.wr PWR.REQ_STATUS.state s.reqTarget
  let s := (List.range 32).foldl (fun s n => syncModem n s) (s.modNet (fun x => { x with oscOn := false, oscStarting := false }))
  startPending (endRequest result s)

/-- The clocks stop and the rails are commanded for the target state. -/
def entryRails (s : State) : State :=
  let s := s.withClk { s.clk with pllOn := false }
  let s := startRails s.reqTarget false (s.modPower (fun p => { p with stage := .entryRails, crystal := false, railFault := false }))
  if s.railsDone then finishEntry s else s

/-- Banks whose content is kept (R423). -/
def State.retainedBanks (s : State) : Nat :=
  if s.rd PWR.AON_STATUS.phase = 0 then 0xFFFFFF else s.rd PWR.RET_BANK_MASK.banks

/-- ENTRY_CRC_DONE (R416): the retained banks' CRCs are taken; into DEEP_SLEEP the power-3 beacons come next (R417). -/
def entryCrcDone (s : State) : State :=
  if s.power.stage == .crc then
    let k := s.retainedBanks
    let s := s.modPower (fun p => { p with retained := k })
    if s.reqTarget = stDeep then
      (List.range 32).foldl (fun s n => sendBeacon n 3 s) (s.modPower (fun p => { p with stage := .beacons }))
    else entryRails s
  else s

/-- ENTRY_CRC_DONE (R416). -/
def execEntryCrcDone (s : State) : Host.Outcome State Fault Refusal := .next (entryCrcDone s)

/-- Some beacon waits to be sent. -/
def State.beaconsWait (s : State) : Bool := s.net.modems.any (fun e => e.2.queue.any (fun f => f.frame.cls == 2))

/-- The beacons are sent or abandoned: the modems stop and the rails follow. -/
def beaconsDone (s : State) : State :=
  if s.power.stage == .beacons then
    entryRails (s.modNet (fun x => { x with
      modems := x.modems.map (fun e => (e.1, { e.2 with queue := e.2.queue.filter (fun f => f.frame.cls != 2) })) }))
  else s

/-- DEEP_SLEEP_BEACON_TIMEOUT (R417). -/
def execDeepSleepBeaconTimeout (s : State) : Host.Outcome State Fault Refusal := .next (beaconsDone s)

/-! ### Waking (R421, R424) -/

/-- Crystal and rails are ready: the system PLL locks, the SRAMs leave retention. -/
def wakeClocksReady (s : State) : State :=
  if s.power.stage == .waking && s.railsDone then
    (s.withClk { s.clk with pllOn := true }).modPower (fun p => { p with stage := .checking, crystal := true })
  else s

/-- WAKE_CLOCKS_READY (R421). -/
def execWakeClocksReady (s : State) : Host.Outcome State Fault Refusal := .next (wakeClocksReady s)

/-- A data SRAM bank is scrubbed to zero with valid ECC. -/
def scrubBank (b : Nat) (s : State) : State :=
  let lo := b * 0x80000
  let inside := fun (a : Nat) => decide (lo ≤ a) && decide (a < lo + 0x80000)
  let s := s.withSram (s.sram.filter (fun e => !inside e.1))
  { s with dma := { s.dma with marked := s.dma.marked.filter (fun a => !inside a) } }

/-- The stored Nelno image is the active one. -/
def State.storedActive (s : State) : Bool := decide (sha s.trust.flash.nelno = s.wheel.active.digest)

/-- The user code of a core is lost where the image in flash cannot bring it back: its user tasks stay quarantined (R424). -/
def loseCode (c : Nat) (s : State) : State :=
  if s.storedActive then s
  else
    let users := s.wheel.active.tasks.filter (fun r => r.core == c && r.user)
    let inUser := fun (k : Nat) => users.any (fun r =>
      decide (2 ^ 15 * c + r.imemBase / 4 ≤ k) && decide (k < 2 ^ 15 * c + (r.imemBase + r.imemLen) / 4))
    let s := { s with seq := { s.seq with imem := s.seq.imem.filter (fun e => !inUser e.1) } }
    refreshCore c (users.foldl (fun s r => s.modCtx (taskKey c r.task) (fun x => { x with quarantined := true })) s)

/-- The records of a log SRAM quarter are lost: their slots lie in its 16,384 records (R424). -/
def loseLogs (q : Nat) (s : State) : State :=
  let gone := fun (base cap seq : Nat) => (base + (seq + cap - 1) % cap) / 16384 == q
  { s with logs := { s.logs with
      audit := s.logs.audit.filter (fun r => !gone 0 32768 r.seq),
      alarm := s.logs.alarm.filter (fun r => !gone 32768 8192 r.seq),
      trace := s.logs.trace.filter (fun r => !gone 40960 24576 r.seq) } }

/-- A bank's content is gone. -/
def clearBank (b : Nat) (s : State) : State :=
  if b < 16 then scrubBank b s else if b < 20 then loseCode (b - 16) s else loseLogs (b - 20) s

/-- Replay counters are those of the journal (R209). -/
def restoreReplay (s : State) : State :=
  s.modNet (fun x => { x with ctxs := x.ctxs.map (fun e =>
    (e.1, { e.2 with replay := sget (fun _ => 0) s.trust.flash.journal.replay e.2.address })) })

/-- A task's data range meets a data SRAM bank. -/
def TaskRec.meetsBank (r : TaskRec) (b : Nat) : Bool :=
  decide (r.dataBase < (b + 1) * 0x80000) && decide (b * 0x80000 < r.dataBase + r.dataLen)

/-- What a failed data bank entails before any task runs (R424): sessions held there end, counters come from the journal, tasks
with data there restart. -/
def dataBankLost (b : Nat) (s : State) : State :=
  (s.wheel.active.tasks.filter (fun r => r.meetsBank b)).foldl (fun s r =>
    startTask r (abandonJobs (fun j => j.core == r.core && j.task == r.task) s))
    (restoreReplay (s.modFw (fun f => { f with both := true })))

/-- The ports start again from BREAK, or stay off (R410). -/
def resumePorts (s : State) : State :=
  (List.range 32).foldl (fun s n =>
    if s.fsm n ≠ fsmOff then s
    else if s.portOff n then s.wr (P.LINE_STATUS.port_off.port n) 1
    else enter n fsmBreak s) s

/-- The wheel resumes at slot 0 in RUN (R421). -/
def resumeWheel (s : State) : State :=
  let s := withOuts (fun s => (s.withClk { s.clk with wheelOn := true, pllOn := true, slot := 0, cycle := 0 }).wr
    PWR.REQ_STATUS.state stRun) s
  let s := resumePorts (refreshLanes s)
  let s := s.modNet (fun x => { x with oscOn := false, oscStarting := false })
  let s := (List.range 32).foldl (fun s n => syncModem n s) (s.wr SS.SLEEP_STATUS.wake_req 0)
  (List.range 4).foldl (fun s c => enterSlot c s) s

/-- WAKE_CRC_CHECK (R424): the banks whose CRC differs, and the ports whose session lay in one of them. -/
def wakeCrcCheck (bad : BitVec 24) (held : Word) (s : State) : State :=
  if s.power.stage == .checking then
    let kept := fun (b : Nat) => s.power.retained.testBit b
    let lost := (List.range 24).filter (fun b => kept b && bad.getLsbD b)
    let s := (List.range 24).foldl (fun s b => if kept b then s else clearBank b s) s
    let s := lost.foldl (fun s b => clearBank b s) s
    let s := lost.foldl (fun s b => if b < 16 then dataBankLost b s else s) s
    let s := if lost.any (fun b => decide (b < 16)) then
        (List.range 32).foldl (fun s n => if bitOf held n then endSession n 3 s else s) s
      else s
    let s := resumeWheel (s.modPower (fun p => { p with stage := .rest }))
    let s := pwrEvent 0 s
    let s := if lost.isEmpty then s
      else
        let s := s.wrs [(PWR.RET_STATUS.banks, (lost.map (fun b => 2 ^ b)).sum), (PWR.AON_STATUS.phase, 3)]
        causeAlarm PWR.CAUSE 4 244 s
    startPending s
  else s

/-- WAKE_CRC_CHECK (R424). -/
def execWakeCrcCheck (bad : BitVec 24) (held : Word) (s : State) : Host.Outcome State Fault Refusal :=
  .next (wakeCrcCheck bad held s)

/-! ### Rails acknowledge or fail (R426) -/

/-- A rail is done: the next one is commanded, or the step of the entry or wake is complete. -/
def railAdvance (s : State) : State :=
  match s.power.stage with
  | .entryRails =>
    let s := nextRail s.reqTarget false s
    if s.railsDone then finishEntry s else s
  | .testing => nextRail stRun true s
  | _ => nextRail stRun (s.boot.stage == .testing) s

/-- The rail that is awaited. -/
def State.awaits (s : State) (r : Nat) : Bool :=
  match s.power.rail with
  | some q => q.rail == r
  | none => false

/-- RAIL_ACKNOWLEDGE (R426): by PG_IN, or after 1 ms; a rail read by STATUS_WORD acknowledges there. -/
def execRailAcknowledge (r : Fin 4) (s : State) : Host.Outcome State Fault Refusal :=
  .next (if s.awaits r && s.rd (PWR.RAIL_CFG.ack.nth r) != 1 then railAdvance s else s)

/-- A rail's STATUS_WORD is read: bits 15 and 11 at 0 acknowledge, and READ_VOUT is stored. -/
def statusPoll (r : Nat) (status : BitVec 16) (vout : Nat) (s : State) : State :=
  if s.awaits r && s.rd (PWR.RAIL_CFG.ack.nth r) == 1 && !status.getLsbD 15 && !status.getLsbD 11 then
    railAdvance (s.wr (PWR.RAIL_STATUS.vout.nth r) vout)
  else s

/-- STATUS_WORD_POLL (R426). -/
def execStatusWordPoll (r : Fin 4) (status vout : BitVec 16) (s : State) : Host.Outcome State Fault Refusal :=
  .next (statusPoll r status vout.toNat s)

/-- RAIL_STATUS.fault of a failure. -/
def railCode : RailFault → Nat
  | .timeout => 1
  | .nack => 2
  | .pec => 3

/-- A rail's request faults (R426): previous value, event 242; VDD_CORE that cannot be raised for a wake holds the device in its
state until a retry. -/
def railFaulted (r : Nat) (f : RailFault) (s : State) : State :=
  let s := (s.emit (.railClear r)).emit (.railCommand r (s.railValue r s.powerState false))
  let s := pwrEvent 2 (s.wr (PWR.RAIL_STATUS.fault.nth r) (railCode f))
  if s.power.stage == .waking && r == 0 then
    s.modPower (fun p => { p with stage := .rest, rail := none, railsDue := [], retry := true })
  else railAdvance (s.modPower (fun p => { p with railFault := p.railFault || decide (p.stage = .entryRails) }))

/-- RAIL_FAULT (R426). -/
def execRailFault (r : Fin 4) (f : RailFault) (s : State) : Host.Outcome State Fault Refusal :=
  .next (if s.awaits r then railFaulted r f s else s)

/-- PMBUS_ALERT (R426): event 245; the STATUS_WORD read of each enabled rail goes into its RAIL_STATUS. -/
def execPmbusAlert (status : List (BitVec 16)) (s : State) : Host.Outcome State Fault Refusal :=
  .next <|
    if s.boot.stage == .unpowered || s.boot.stage == .held then s
    else
      (List.range 4).foldl (fun s r =>
        if s.flag (PWR.RAIL_CFG.enable.nth r) then s.wr (PWR.RAIL_STATUS.vout.nth r) (status.getD r 0).toNat else s)
        (pwrEvent 5 s)

/-! ### Other wake sources (R419, R422) -/

/-- The RTC has reached RTC_ALARM: a wake, or event 247 in RUN and IDLE (R419). -/
def rtcAlarm (s : State) : State :=
  let at_ := s.pair PWR.RTC_ALARM (PWR.RTC_ALARM + 4)
  if at_ ≠ 0 && decide (at_ ≤ s.power.rtcSec) && !s.power.alarmMet then
    let s := s.modPower (fun p => { p with alarmMet := true })
    if s.powerState ≤ stIdle && !s.power.stage.entering then pwrEvent 7 s
    else if s.powerState = stOff then s
    else askWake 2 s
  else s

/-- RTC_ALARM (R419). -/
def execRtcAlarm (s : State) : Host.Outcome State Fault Refusal := .next (rtcAlarm s)

/-- HOST_ACCESS_IN_SLEEP (R422). -/
def execHostAccessInSleep (addr : BitVec 26) (isRead mdio : Bool) (s : State) : Host.Outcome State Fault Refusal :=
  .next (accessInSleep addr.toNat isRead mdio s)

end Sys2Proof.Machine
end

