-- ==== Sys2Proof/Machine/Snapshot.lean ====
section
/-! DEFINITION. The state snapshot the device writes at every revolution boundary (spec/01_architecture.md, R27;
spec/22_service_continuity.md, R449, R450). -/

namespace Sys2Proof.Machine

/-- Distance of copy 1 from copy 0 (R449). -/
def snapStride : Nat := 0x22000

/-- Bytes a copy covers, from rev_begin to the end of rev_end. -/
def snapSize : Nat := 0x21008

/-- SQ.JOB_STATUS with the operations in the job table (R313). -/
def State.jobStatusWord (s : State) : Word := withBits (s.word SQ.JOB_STATUS) 0 15 s.inFlight

/-- The oldest sequence a log class holds; the next one where it holds none. -/
def State.posOldest (s : State) (c : Nat) : Nat :=
  let first := match c with
    | 0 => (s.logs.audit.head?).map AuditRec.seq
    | 1 => (s.logs.alarm.head?).map AlarmRec.seq
    | _ => (s.logs.trace.head?).map TraceRec.seq
  first.getD ((s.posNewest c + 1) % 2 ^ 32)

/-- Unit code of a job in the snapshot. -/
def JobKind.unit : JobKind → Nat
  | .engine _ _ => 1
  | .dma _ _ _ => 2
  | .hash _ => 3
  | .lattice _ _ => 4
  | .snap _ => 5

/-- The identifier of a job in the snapshot: the ring and the descriptor index of a DMA operation, else its operand. -/
def JobKind.ident : JobKind → Nat
  | .engine job _ => job
  | .dma ring index _ => ring + 64 * (index % 65536)
  | .hash request => request
  | .lattice _ request => request
  | .snap list => list

/-- The 8 bytes of a job-table entry (R449). -/
def Job.entry (j : Job) : Nat :=
  let state := if j.status.isSome then 2 else if j.started then 1 else 0
  j.core * 2 ^ 62 + j.gen * 2 ^ 46 + j.kind.unit * 2 ^ 42 + bitNat j.detach * 2 ^ 41 + state * 2 ^ 38 + j.task * 2 ^ 32 +
    j.kind.ident % 2 ^ 32

/-- Words at an offset of the copy. -/
def snapWords (o : Nat) (l : List Word) : List (Nat × Nat × Nat) := l.zipIdx.map (fun e => (o + 4 * e.2, 4, e.1.toNat))

/-- What a copy holds: offset, bytes, value, least significant byte first. -/
def State.snapItems (s : State) : List (Nat × Nat × Nat) :=
  let rev := s.clk.rev.toNat
  [(0, 8, rev)] ++ snapWords 8 [s.word WHEEL.BANK_STATUS, s.word TST.BOOT_STATUS, s.word WHEEL.ACTIVE_ID, s.word WHEEL.ACTIVE_ID_HI] ++
    [(0x18, 8, first8 s.fw.measurement)] ++
    snapWords 0x20 [s.word TST.STATUS, s.word PWR.REQ_STATUS, s.word CHIP.RESET_CAUSE, s.jobStatusWord] ++
    snapWords 0x40 ((List.range 8).map (fun w => s.word (EVT.PEND + 4 * w))) ++
    snapWords 0x60 ((List.range 8).map (fun w => s.word (EVT.MASK + 4 * w))) ++
    (List.range 3).flatMap (fun c => [(0x80 + 0x20 * c, 4, s.posNewest c), (0x84 + 0x20 * c, 4, s.posOldest c),
      (0x88 + 0x20 * c, 4, s.posUnexp c)] ++
      snapWords (0x8C + 0x20 * c) [s.word (LOG.EXP_WR + 32 * c), s.word (LOG.EXP_RD + 32 * c)]) ++
    (List.range 64).flatMap (fun r => snapWords (0x100 + 0x10 * r) [s.word (DMA.RING_STATUS + 64 * r),
      s.word (DMA.RING_PROD + 64 * r), s.word (DMA.RING_POS + 64 * r), s.word (DMA.FAULT_INFO + 64 * r)]) ++
    snapWords 0x500 [s.word PERF.DUMP_WR, s.word PERF.DUMP_RD, s.word PERF.SAMP_STATUS, s.word PERF.SAMP_RD] ++
    (List.range 32).flatMap (fun n => snapWords (0x600 + 0x10 * n) [s.word (portAddr n P.LINE_STATUS),
      s.word (portAddr n P.AN_STATUS), s.word (TRIP.PORT_STATUS + 4 * n), s.word (SS.PORT_STATUS + 4 * n)]) ++
    s.seq.jobs.map (fun x => (0x1000 + 8 * x.1, 8, x.2.entry)) ++ [(0x21000, 8, rev)]

/-- Bytes that are not zero, each at its address. -/
def nonzeroBytes (a : Nat) (l : List Byte) : List (Nat × Byte) :=
  (l.zipIdx.map (fun e => (a + e.2, e.1))).filter (fun e => e.2 != 0)

/-- Write one copy whole: what stood there is replaced, with good ECC. -/
def writeCopy (copy : Nat) (s : State) : State :=
  let a := s.rd CHIP.SNAP_ADDR.addr + copy * snapStride
  let items := s.snapItems.flatMap (fun e => nonzeroBytes (a + e.1) (bytesLE e.2.1 e.2.2))
  let s := clearMarks a snapSize s
  let s := s.withSram (s.sram.filter (fun e => !(decide (a ≤ e.1) && decide (e.1 < a + snapSize))))
  items.foldl (fun s e => s.setByte e.1 e.2) s

/-- The snapshot of a revolution boundary: the other copy than the newest; while hold is 1, the one that is not held; both after
a port restart or a retention failure. -/
def stateSnapshot (s : State) : State :=
  let copy := if s.flag CHIP.SNAP_CTRL.hold then 1 - s.rd CHIP.SNAP_CTRL.held else 1 - s.fw.newest
  let s := if s.fw.both then writeCopy (1 - copy) s else s
  let s := writeCopy copy s
  { s with fw := { s.fw with newest := copy, both := false } }

/-- SNAP_CTRL.hold written (R450): the newest complete copy is held from now on, or none. -/
def snapHold (v : Bool) (s : State) : State :=
  if v then
    let now := s.now
    let newest := s.fw.newest
    let s := s.wrs [(CHIP.SNAP_CTRL.hold, 1), (CHIP.SNAP_CTRL.held, newest)]
    { s with fw := { s.fw with holdFrom := some now } }
  else { s.wr CHIP.SNAP_CTRL.hold 0 with fw := { s.fw with holdFrom := none } }

/-- SNAP_HOLD_WRITE (R450). -/
def execSnapHoldWrite (v : Bool) (s : State) : Host.Outcome State Fault Refusal := .next (hostCommand CHIP.SNAP_CTRL (snapHold v) s)

/-- SNAP_HOLD_EXPIRY (R450): hold clears itself 1,000 ms after it was set. -/
def execSnapHoldExpiry (s : State) : Host.Outcome State Fault Refusal :=
  .next <| match s.fw.holdFrom with
    | some t => if t + 1000000000 ≤ s.now then snapHold false s else s
    | none => s

end Sys2Proof.Machine
end

