-- ==== Sys2Proof/Machine/Boot.lean ====
section
/-! DEFINITION. The start of the device: test segments, the boot sequence, Safe hold, and the resets that are commands
(spec/21_reset_boot_selftest.md, R428 to R439, R442). -/

namespace Sys2Proof.Machine

/-! ### Resets that are commands (R428 to R430) -/

/-- The host can reach registers at all: the device is powered and out of reset. -/
def State.reachable (s : State) : Bool := s.boot.stage != .unpowered && s.boot.stage != .held

/-- CHIP.RESET_CMD.device, a configuration write (R430). -/
def deviceReset (s : State) : State :=
  if !s.reachable then s else if s.sealed then refuseSealed CHIP.RESET_CMD 1 s else resetDevice 4 s

/-- DEVICE (R428, R430). -/
def execDevice (s : State) : Host.Outcome State Fault Refusal := .next (hostCommand CHIP.RESET_CMD deviceReset s)

/-- The next start takes the long path (R433). -/
def longNext (s : State) : State := s.wrs [(BIST.SHUT_STATUS.valid, 0), (BIST.SHUT_STATUS.long_next, 1)]

/-- CHIP.RESET_CMD.long_next, a configuration write (R430). -/
def longNextCmd (s : State) : State :=
  if !s.reachable then s else if s.sealed then refuseSealed CHIP.RESET_CMD 2 s else longNext s

/-- LONG_NEXT (R433). -/
def execLongNext (s : State) : Host.Outcome State Fault Refusal := .next (hostCommand CHIP.RESET_CMD longNextCmd s)

/-- RESET_RELEASE (R476): the boot sequence begins. -/
def execResetRelease (s : State) : Host.Outcome State Fault Refusal :=
  .next (if s.boot.stage == .held then startBoot s else s)

/-- The MSI-X table at its reset values: every vector masked, addresses and data zero (R468). -/
def resetMsix (s : State) : State :=
  (List.range 256).foldl (fun s e => s.wrs [(EVT.MSIX_ADDR_LO.lo.nth e, 0), (EVT.MSIX_ADDR_HI.hi.nth e, 0),
    (EVT.MSIX_DATA.data.nth e, 0), (EVT.MSIX_CTRL.mask.nth e, 1)]) s

/-- PERST_N (R429): the endpoint alone: its configuration, its link, the MSI-X table. -/
def execPerstN (s : State) : Host.Outcome State Fault Refusal :=
  .next (resetMsix { s with pcie := { linkUp := false, msixEnable := false, functionMask := false, d3hot := false } })

/-- PCIE_LINK_CHANGE (R429): the link and what the host has configured of the endpoint. -/
def execPcieLinkChange (c : LinkConfig) (s : State) : Host.Outcome State Fault Refusal :=
  .next { s with pcie := { linkUp := c.up, msixEnable := c.msixEnable, functionMask := c.functionMask, d3hot := c.d3hot } }

/-- WAKE_PIN (R419, R420): the pin's level by its polarity; its assertion wakes the device. -/
def execWakePin (asserted : Bool) (s : State) : Host.Outcome State Fault Refusal :=
  .next <|
    let rises := asserted && !s.power.wakePin
    let s := s.modPower (fun p => { p with wakePin := asserted })
    if rises && s.boot.stage == .ready then askWake 1 s else s

/-! ### Safe hold (R442) -/

/-- Enter Safe hold for a reason: wheel stopped, islands off, outputs released. -/
def enterSafeHold (reason : Nat) (s : State) : State :=
  withOuts (fun s =>
    let s := (s.withClk { s.clk with wheelOn := false }).wr CHIP.RESET_CAUSE.safe_reason reason
    { s with boot := { s.boot with stage := .safe } }) s

/-- TST.MBOX_CMD.submit in Safe hold with safe_reason 3: a firmware image placed in the data SRAM window is judged under R360 and
booted on OK, without a write of flash. Its length is its own image_len. -/
def safeSubmit (s : State) : State :=
  if s.rd CHIP.RESET_CAUSE.safe_reason ≠ 3 then s
  else
    let a := s.rd TST.MBOX_ADDR.addr
    let l := s.bytesAt a (min (sramSize - a) (numBE (s.bytesAt (a + 8) 4)))
    let r := s.judgeFirmware l
    if r = bootOk then
      let s := s.wr CHIP.RESET_CAUSE.safe_reason 0
      { s with boot := { s.boot with stage := .booting, image := l } }
    else s

/-- SUBMIT (R365, R442). -/
def execSubmit (s : State) : Host.Outcome State Fault Refusal :=
  .next (hostCommand TST.MBOX_CMD (fun s => if s.boot.stage == .safe then safeSubmit s else if s.started then submit s else s) s)

/-! ### Test segments (R435 to R439) -/

/-- Segments of a test. -/
def segCount : Nat := 80

/-- A segment's result as BIST.SEG_RESULT reads it. -/
def State.segResult (s : State) (seg : Nat) : Nat := bitsOf (s.word (BIST.SEG_RESULT + 4 * (seg / 16))) (2 * (seg % 16)) 2

/-- Write a segment's result. -/
def setSeg (seg r : Nat) (s : State) : State :=
  let a := BIST.SEG_RESULT + 4 * (seg / 16)
  s.setWord a (withBits (s.word a) (2 * (seg % 16)) 2 r)

/-- The engines' outcomes, once JSP's own segment has ended (R437): the first engine that failed is taken over by a JSP that passed;
every failed engine is retired. -/
def judgeEngines (s : State) : State :=
  let failed := (List.range 16).filter (fun j => decide (2 ≤ s.segResult (25 + j)))
  let s := failed.foldl (fun s j =>
    if s.segResult 41 = 1 && !s.flag CAL.JSP_STATUS.permanent then jspPermanent j s
    else { s with cal := { s.cal with retired := s.cal.retired ++ [j] } }) s
  if 2 ≤ s.segResult 41 then { s with cal := { s.cal with retired := s.cal.retired ++ [16] } } else s

/-- What a failed segment of the start-up test entails; `reason` is 1, or 2 after a second INCOMPLETE (R437). -/
def segFailed (seg reason : Nat) (s : State) : State :=
  if seg ≤ 24 || seg = 42 || seg = 43 || 76 ≤ seg then enterSafeHold reason s
  else if 44 ≤ seg then s.modLink (seg - 44) (fun l => { l with faulted := true })
  else s

/-- The start-up test is over: VDD_CORE returns to its RUN value and the boot sequence goes on. -/
def startTestOver (s : State) : State :=
  startRails stRun false { s with boot := { s.boot with stage := .booting, seg := 0, again := false } }

/-- A segment of the start-up test ends (R437): INCOMPLETE is run once more, then counts as FAIL. -/
def bootSegment (r : Nat) (s : State) : State :=
  let seg := s.boot.seg
  let s := setSeg seg r s
  if r = 3 && !s.boot.again then { s with boot := { s.boot with again := true } }
  else
    let s := if 2 ≤ r then segFailed seg (if r = 2 then 1 else 2) s else s
    let s := if seg = 41 then judgeEngines s else s
    if s.boot.stage != .testing then s
    else if seg + 1 < segCount then { s with boot := { s.boot with seg := seg + 1, again := false } }
    else startTestOver s

/-- A segment of the shutdown test ends (R438); after the last one the result latches are written and the entry goes on. -/
def shutSegment (r : Nat) (s : State) : State :=
  let seg := s.boot.seg
  let s := (setSeg seg r s).wr BIST.SHUT_STATUS.seg_done (seg + 1)
  let s := if r ≠ 1 && s.rd BIST.SHUT_STATUS.seg_first = 127 then s.wr BIST.SHUT_STATUS.seg_first seg else s
  if seg + 1 < segCount then { s with boot := { s.boot with seg := seg + 1 } }
  else
    let first := s.rd BIST.SHUT_STATUS.seg_first
    let result := if first = 127 then 1 else s.segResult first
    let s := s.wrs [(BIST.SHUT_STATUS.result, result), (BIST.SHUT_STATUS.valid, bitNat (decide (result = 1)))]
    s.modPower (fun p => { p with stage := .crc })

/-- SEGMENT_END (R436): the segment under test, in the start-up test or the shutdown test. -/
def segmentEnd (run : TestRun) (s : State) : State :=
  if !s.railsDone then s
  else if s.boot.stage == .testing then bootSegment (judgeRun run) s
  else if s.power.stage == .testing then shutSegment (judgeRun run) s
  else s

/-- SEGMENT_END (R436). -/
def execSegmentEnd (run : TestRun) (s : State) : Host.Outcome State Fault Refusal := .next (segmentEnd run s)

/-- A wake ends the shutdown test (R439): the segment in progress is abandoned and reads NOT_RUN, as does every later one; the wheel
resumes at slot 0. -/
def abandonShutdownTest (src : Nat) (s : State) : State :=
  let seg := s.boot.seg
  let s := if s.rd BIST.SHUT_STATUS.seg_first = 127 then s.wr BIST.SHUT_STATUS.seg_first seg else s
  let s := s.wrs [(BIST.SHUT_STATUS.result, 0), (BIST.SHUT_STATUS.valid, 0), (PWR.AON_STATUS.phase, 0),
    (PWR.AON_STATUS.last_wake, src), (PWR.AON_STATUS.last_state, s.powerState)]
  let s := s.modPower (fun p => { p with wake := none })
  let s := pwrEvent 0 (endRequest prWoken (resumeWheel (startRails stRun false s)))
  startPending s

/-! ### The boot sequence (R432, R434) -/

/-- The OTP without the PUF helper data, as M0 takes it (R351, R368). -/
def Otp.text (o : Otp) : List Byte :=
  digestBytes o.rootHash ++ digestBytes o.idCommit ++
    (List.range 4).flatMap (fun k =>
      let w := sget (fun _ => OwnerSlot.empty) o.owners k
      digestBytes w.hash ++ bytesBE 1 (bitNat w.enrolled) ++ bytesBE 1 (bitNat w.revoked)) ++
    bytesBE 8 (2 ^ o.rollback - 1) ++ bytesBE 1 o.sealBits.toNat ++ bytesBE 4 o.part.toNat

/-- Step 4: the fields filled from OTP read it, and M0 is extended. -/
def readOtp (s : State) : State :=
  let s := refreshTrust (s.setWord CHIP.ID s.trust.otp.part)
  let s := s.setDigest TST.ID_COMMIT s.trust.otp.idCommit
  extendMeas 0 (sha s.trust.otp.text) (extendMeas 0 Config.romDigest s)

/-- Step 5: the identity key is derived and checked (R355). -/
def deriveIdentity (good : Bool) (s : State) : State :=
  let key := Config.identityKey s.trust.otp.helper
  if good && decide (sha key = s.trust.otp.idCommit) then
    (s.modTrust (fun t => { t with idPublic := key })).wr TST.STATUS.id_ok 1
  else tstEvent 7 (s.wr TST.STATUS.id_ok 0)

/-- Judge a flash slot and record its result. -/
def tryImage (slot : Nat) (s : State) : State × Bool :=
  let r := s.judgeFirmware (s.flashSlot slot)
  (s.wr (if slot = 0 then TST.BOOT_STATUS.result_a else TST.BOOT_STATUS.result_b) r, decide (r = bootOk))

/-- The image that boots (R432): the preferred one, else the other, else none. The image of the mailbox comes before both (R442). -/
def chooseImage (s : State) : State × Option (Nat × List Byte) :=
  if !s.boot.image.isEmpty then (s, some (0, fwWhole s.boot.image))
  else
    let first := if s.trust.flash.recordGood then min 1 s.trust.flash.preferred else 0
    let a := tryImage first s
    if a.2 then (a.1, some (first, fwWhole (s.flashSlot first)))
    else
      let b := tryImage (1 - first) a.1
      if b.2 then (b.1.wr CHIP.RESET_CAUSE.fallback 1, some (1 - first, fwWhole (s.flashSlot (1 - first))))
      else (b.1, none)

/-- Steps 9 to 11: measurements, modules, data SRAM zeroed, journal read, start count advanced, chain started (R375). -/
def takeFirmware (slot : Nat) (l : List Byte) (places : List Nat) (s : State) : State :=
  let m := fwMeasurement l
  let s := extendMeas 2 (sha (fwCert l)) (extendMeas 1 m s)
  let placed := placedModules l places
  let s := writeModules l placed { s with seq := { s.seq with modules := placed } }
  let s := s.modFw (fun f => { f with measurement := m, svn := fwSvn l })
  let s := s.wrs [(TST.BOOT_STATUS.running, slot), (TST.BOOT_STATUS.svn, fwSvn l)]
  let s := { s.withSram [] with dma := { s.dma with marked := [] } }
  let s := s.modTrust (fun t => { t with flash := { t.flash with
    journal := { t.flash.journal with startCount := t.flash.journal.startCount + 1 } } })
  let s := s.setPair TST.MANIFEST_SEQ (TST.MANIFEST_SEQ + 4) s.trust.flash.journal.manifestSeq
  let count := s.trust.flash.journal.startCount
  let head := sha (ascii "SIRCOR-AUDIT" ++ digestBytes s.trust.otp.idCommit ++ bytesBE 8 count)
  let s := audit 15 0 0 (count % 2 ^ 32) { s with chain := { head := head, seq := 0 } }
  audit 7 0 (fwSvn l) (first8 m % 2 ^ 32) s

/-- The firmware's default wheel becomes active at slot 0, with fresh tasks (R434 step 12). -/
def startWheel (w : WheelImg) (s : State) : State :=
  let s := s.modWheel (fun v => { v with active := w })
  let s := s.setPair WHEEL.ACTIVE_ID WHEEL.ACTIVE_ID_HI w.imageId.toNat
  let s := { s with seq := { s.seq with imem := w.code.foldl (fun (m : List (Nat × Word)) (e : Nat × Word) => sput (fun _ => 0) m e.1 e.2) s.seq.imem } }
  let s := w.tasks.foldl (fun s r => startTask r s) s
  let s := (switchBlocks w.descs s).withClasses (w.classes.filter (fun e => e.2 ≠ 7))
  resumeWheel s

/-- Management-ready: phase service, ready, start_result with event 255, the shutdown test's result spent, beacons (R433, R434). -/
def becomeReady (s : State) : State :=
  let s := { s with boot := { s.boot with stage := .ready, image := [] } }
  let s := s.wrs [(PWR.AON_STATUS.phase, 0), (CHIP.BOOT_STATUS.ready, 1), (BIST.SHUT_STATUS.valid, 0), (BIST.SHUT_STATUS.long_next, 0)]
  let s := if s.flag CHIP.RESET_CAUSE.fallback then causeAlarm BIST.CAUSE 3 255 s else bistEvent 3 s
  (List.range 32).foldl (fun s n => sendBeacon n s.beaconPower s) s

/-- MANAGEMENT_READY (R434): steps 4 to 12 of a start. -/
def managementReady (b : StartInfo) (s : State) : State :=
  if s.boot.stage != .booting then s
  else if !b.otpGood then enterSafeHold 4 s
  else
    let s := deriveIdentity b.idGood (readOtp s)
    if !b.katGood then enterSafeHold 1 s
    else match chooseImage s with
      | (s, none) => enterSafeHold 3 s
      | (s, some (slot, l)) =>
        let s := takeFirmware slot l b.places s
        let s := s.wrs [(CHIP.SNAP_ADDR.addr, b.snapAddr.toNat), (TST.CKPT_ADDR.addr, b.ckptAddr.toNat)]
        stateSnapshot (becomeReady (startWheel (readImage b.wheel) s))

/-- MANAGEMENT_READY (R434). -/
def execManagementReady (b : StartInfo) (s : State) : Host.Outcome State Fault Refusal := .next (managementReady b s)

end Sys2Proof.Machine
end

