-- ==== Sys2Proof/Machine/Monitor.lean ====
section
/-! DEFINITION. Monitoring of live links (spec/10_monitoring_and_diagnostics.md, R76, R77, R64): counts, margin alarm,
passive diagnostics, export records. -/

namespace Sys2Proof.Machine

/-! ### Decoder counts (R221, R222) -/

/-- Add to a 64-bit pair of a port. -/
def addPort (n a k : Nat) (s : State) : State := s.addPair (portAddr n a) (portAddr n a + 4) k

/-- Error blocks sent to the host lane, or receive-error code groups. -/
def countErrors (n k : Nat) (s : State) : State :=
  (addPort n P.RX_ERR k s).modMon n (fun m => { m with expRx := m.expRx + k })

/-- A frame or codeword counted: corrected or not, and its bin of ITER_HIST. -/
def countDecoded (n bin : Nat) (corrected : Bool) (s : State) : State :=
  let s := addPort n P.FEC_FRAMES 1 s
  let s := if corrected then
      (addPort n P.FEC_CORR 1 s).modMon n (fun m => { m with expCorr := m.expCorr + 1 })
    else s
  addPort n (P.ITER_HIST + 8 * bin) 1 s

/-- A frame or codeword that was not corrected, with the error blocks in its place (R70). -/
def countFailed (n errorBlocks : Nat) (s : State) : State :=
  let s := addPort n P.FEC_UNCORR 1 (addPort n P.FEC_FRAMES 1 s)
  countErrors n errorBlocks (s.modMon n (fun m => { m with uncorr := m.uncorr + 1, expUncorr := m.expUncorr + 1 }))

/-- LDPC_FRAME_DECODE (R69, R70, R221): a frame of a port in data mode at an LDPC rate. -/
def execLdpcFrameDecode (n : Fin 32) (iterations : Fin 8) (result : FrameResult) (frames : Nat) (s : State) :
    Host.Outcome State Fault Refusal :=
  .next <|
    if s.fsm n = fsmData && ldpcRate (s.modeNow n) (s.rateNow n) then
      match result with
      | .clean => deliver n frames false (countDecoded n iterations false s)
      | .corrected => deliver n frames false (countDecoded n iterations true s)
      | .failed k => deliver n frames true (countFailed n k s)
    else s

/-! ### Quality (R76, R77) -/

/-- The port decides symbols of the mode and rate being trained or in force (R76). -/
def State.measuring (s : State) (n : Nat) : Bool :=
  let l := s.link n
  s.inData n || (s.fsm n == fsmTrain &&
    (if l.mode = modeReach then decide (3 ≤ l.phase) else decide (l.rate < 2) || decide (4 ≤ l.phase)))

/-- The mode and rate that the margin counts from: those in force, in training those being trained. -/
def State.measuredMode (s : State) (n : Nat) : Nat × Nat :=
  if s.inData n then (s.modeNow n, s.rateNow n) else ((s.link n).mode, (s.link n).rate)

/-- SNR and margin of each measured pair of a BASE-T or Peer port. -/
def pairSnrs (mode rate : Nat) (o : PortObs) : List (Nat × Int × Int) :=
  o.pairs.filterMap (fun p =>
    match p.snr with
    | some q => if (pairsInUse mode rate).contains p.pair.val then some (p.pair.val, max 0 q, q - refSnr mode rate) else none
    | none => none)

/-- Round a quotient to the nearest whole number, halves up. -/
def roundDiv (a : Int) (b : Nat) : Int := (2 * a + b) / (2 * (b : Int))

/-- SNR and margin of each pair of a Reach port, from its tones (R160). -/
def reachSnrs (tones : List (Nat × Tone)) : List (Nat × Int × Int) :=
  [0, 1, 2, 3].filterMap (fun p =>
    let loaded := tones.filterMap (fun e =>
      match e.2.snr with
      | some q => if e.1 / 4096 = p && 1 ≤ e.2.bits then some (q, toneMargin q e.2.bits) else none
      | none => none)
    match loaded with
    | [] => none
    | first :: _ =>
      let mean := roundDiv (loaded.map (·.1)).sum loaded.length
      let least := (loaded.map (·.2)).foldl min first.2
      some (p, max 0 mean, roundDiv least 100))

/-- PAIR_QUAL and PORT_QUAL are rewritten from the preceding revolution. -/
def rewriteQual (n : Nat) (o : Option PortObs) (s : State) : State :=
  if s.measuring n then
    match o with
    | some o =>
      let m := s.measuredMode n
      writeQual n (if m.1 = modeReach then reachSnrs (s.rch n).tones else pairSnrs m.1 m.2 o) s
    | none => writeQual n [] s
  else writeQual n [] s

/-! ### The margin alarm (R219, R220) -/

/-- The judgement of one revolution. -/
def judgeMargin (n : Nat) (s : State) : State :=
  if s.fsm n ≠ fsmData || !s.flag (P.PORT_QUAL.valid.port n) then s
  else
    let margin := int16 (s.rd (P.PORT_QUAL.margin_min.port n))
    let a := s.pact n P.MON_CFG.alarm_th
    let th : Int := if a < 128 then a else (a : Int) - 256
    let hyst := s.pact n P.MON_CFG.hyst
    let persist := s.pact n P.MON_CFG.persist
    let isLow := decide (margin < 10 * th)
    let isOk := decide (10 * (th + hyst) ≤ margin)
    let m := s.mon n
    let s := s.setMon n { m with low := if isLow then m.low + 1 else 0, ok := if isOk then m.ok + 1 else 0 }
    let m := s.mon n
    let raised := s.flag (P.MON_STATUS.margin_alarm.port n)
    if !raised && isLow && decide (persist ≤ m.low) then
      causeAlarm (portAddr n P.MON_CAUSE) 0 (6 * n + 4)
        ((s.wr (P.MON_STATUS.margin_alarm.port n) 1).addSat (P.ALARM_CNT.count.port n) 1)
    else if raised && isOk && decide (persist ≤ m.ok) then
      marginEvent n 1 (s.wr (P.MON_STATUS.margin_alarm.port n) 0)
    else s

/-- A MON_CFG bank becomes active: both runs restart (R220). -/
def restartRuns (n : Nat) (s : State) : State := s.modMon n (fun m => { m with low := 0, ok := 0 })

/-- The check of R223. -/
def judgeBurst (n : Nat) (s : State) : State :=
  let th := s.pact n P.MON_CFG.uncorr_th
  let k := (s.mon n).uncorr
  let s := s.modMon n (fun m => { m with uncorr := 0 })
  if th ≠ 0 && th ≤ k then causeAlarm (portAddr n P.MON_CAUSE) 2 (6 * n + 4) s else s

/-! ### Passive diagnostics (R224 to R229) -/

/-- Rise of a reflection above the referenced level at its distance, in 0.5 dB: a reference within 1 m counts, and no
referenced reflection is a level of 0xFF below the launch (R225). -/
def reflectionRise (ref : List (Nat × Nat × Nat)) (r : Nat × Nat × Nat) : Int :=
  let near := ref.filter (fun e => e.1 == r.1 && decide (e.2.1 ≤ r.2.1 + 10) && decide (r.2.1 ≤ e.2.1 + 10))
  let level := near.foldl (fun acc e => min acc e.2.2) 255
  (level : Int) - r.2.2

/-- The strongest of a pair's reflections, the nearest among equals. -/
def strongest (l : List (Nat × Nat × Nat)) (p : Nat) : Option (Nat × Nat × Nat) :=
  (l.filter (fun e => e.1 == p)).foldl (fun acc e => match acc with
    | some b => if e.2.2 < b.2.2 || (e.2.2 == b.2.2 && decide (e.2.1 < b.2.1)) then some e else acc
    | none => some e) none

/-- Take the reflections observed as the reference; refl_alert clears (R225). -/
def takeReference (n : Nat) (s : State) : State :=
  (s.modMon n (fun m => { m with reference := some m.seen })).wr (P.MON_STATUS.refl_alert.port n) 0

/-- LIVE_ECHO, the reference at the 64th revolution in DATA, and the reflection alert (R224, R225). -/
def rewriteEcho (n : Nat) (o : Option PortObs) (s : State) : State :=
  let seen := match o with
    | some o => o.reflections.filterMap (fun r =>
        if 20 < r.distance.toNat && r.level ≠ 0 then some (r.pair.val, r.distance.toNat, r.level.toNat) else none)
    | none => []
  let inData := s.fsm n == fsmData
  let s := s.modMon n (fun m => { m with seen := seen, inData := if inData then m.inData + 1 else 0 })
  let s := if (s.mon n).inData = 64 then takeReference n s else s
  let rise := fun r => match (s.mon n).reference with
    | some ref => reflectionRise ref r
    | none => 0
  let s := (List.range 4).foldl (fun s p =>
    s.setWord (portAddr n P.LIVE_ECHO + 4 * p) (match strongest seen p with
      | some r => BitVec.ofNat 32 (r.2.2 * 2 ^ 24 + ((clampInt (-128) 127 (rise r)) % 256).toNat * 2 ^ 16 + r.2.1)
      | none => 0)) s
  let delta : Int := 2 * s.pact n P.DIAG_CFG.refl_delta
  if inData && !s.flag (P.MON_STATUS.refl_alert.port n) && (s.mon n).reference.isSome &&
      seen.any (fun r => decide (delta ≤ rise r)) then
    causeAlarm (portAddr n P.MON_CAUSE) 3 (6 * n + 4) (s.wr (P.MON_STATUS.refl_alert.port n) 1)
  else s

/-- LIVE_MISC, the length estimate and the split-pair check (R226 to R228). -/
def rewriteMisc (n : Nat) (o : Option PortObs) (s : State) : State :=
  let pairs := match o with
    | some o => if s.measuring n then o.pairs else []
    | none => []
  let s := (List.range 4).foldl (fun s p =>
    s.setWord (portAddr n P.LIVE_MISC + 4 * p) (match pairs.find? (fun e => e.pair.val == p) with
      | some e => BitVec.ofNat 32 ((match e.il10 with
          | some v => v.toNat
          | none => 0x7FF) * 2 ^ 21 + e.skew.toNat * 2 ^ 13 + e.nextMax.toNat * 2 ^ 5)
      | none => 0xFFE00000)) s
  let m := s.measuredMode n
  let used := pairs.filter (fun e => (pairsInUse m.1 m.2).contains e.pair.val)
  let losses := used.filterMap (fun e => e.il10.map (·.toNat))
  let len := if losses.isEmpty then 0xFFF
    else min 0xFFE (roundDiv (100 * losses.sum) (losses.length * s.pact n P.DIAG_CFG.loss_10)).toNat
  let s := s.wr (P.MON_STATUS.len_est.port n) len
  if !s.flag (P.MON_STATUS.split_pair.port n) && used.any (fun e => e.nextMax ≠ 0 && decide (e.nextMax.toNat < 40)) then
    causeAlarm (portAddr n P.MON_CAUSE) 4 (6 * n + 4) (s.wr (P.MON_STATUS.split_pair.port n) 1)
  else s

/-- NOISE, where the revolution gave an opportunity (R229). -/
def rewriteNoise (n : Nat) (o : Option PortObs) (s : State) : State :=
  match o with
  | some o => o.pairs.foldl (fun s e =>
      match e.noise with
      | some (band, power) => s.setWord (portAddr n P.NOISE + 4 * e.pair.val)
          (BitVec.ofNat 32 (band.toNat * 2 ^ 30 + s.clk.rev.toNat % 2 ^ 14 * 2 ^ 16 + nat16 (clampInt (-32767) 32767 power)))
      | none => s) s
  | none => s

/-- JUG.NC_PAIR.gain (R146): a pair with no applied block reads 0. -/
def rewriteGain (n : Nat) (o : Option PortObs) (s : State) : State :=
  match o with
  | some o => o.pairs.foldl (fun s e =>
      let v := 4 * n + e.pair.val
      s.wr (JUG.NC_PAIR.gain.nth v) (if s.rd (JUG.NC_PAIR.live.nth v) = 0 then 0 else e.poolGain.toNat)) s
  | none => s

/-! ### Export records (R237) -/

/-- A port export record every export_revs revolutions. -/
def exportPort (n : Nat) (s : State) : State :=
  let revs := s.pact n P.MON_EXPORT.export_revs
  if revs = 0 then s
  else
    let m := s.mon n
    if m.exportAge + 1 < revs then s.setMon n { m with exportAge := m.exportAge + 1 }
    else
      let body := wordBytes (s.word (portAddr n P.PORT_QUAL)) ++ wordBytes (s.word (portAddr n P.MON_STATUS)) ++
        bytesBE 4 (min 0xFFFFFFFF m.expCorr) ++ bytesBE 2 (min 0xFFFF m.expUncorr) ++ bytesBE 2 (min 0xFFFF m.expRx)
      let s := s.setMon n { m with exportAge := 0, expCorr := 0, expUncorr := 0, expRx := 0 }
      if s.flag LOG.CFG.enable then trace 1 (6 * n + 4) body s else s

/-! ### Adaptation of the dedicated filters (R64, R65) -/

/-- The step exponent of a coefficient: by phase and element (R64). Indices below 1,280 are the echo canceller, below 2,336
the NEXT cancellers, below 2,464 the FFE, the rest the precoder, which does not adapt. -/
def State.stepExponent (s : State) (n k : Nat) : Option Nat :=
  let add := if s.rd (P.LPI_STATUS.lpi_state.port n) = 3 then s.pact n P.ADAPT_CFG.refresh_add else 0
  if s.rd (P.LPI_STATUS.lpi_state.port n) = 2 then none
  else if 2464 ≤ k then none
  else if (s.link n).training then some (s.pact n P.ADAPT_CFG.train)
  else some (add + (if k < 1280 then s.pact n P.ADAPT_CFG.ec_data
    else if k < 2336 then s.pact n P.ADAPT_CFG.next_data else s.pact n P.ADAPT_CFG.ffe_data))

/-- One step of a dedicated filter; ADAPT_CFG.hold stops every one. -/
def lmsStep (n : Nat) (s : State) (u : LmsStep) : State :=
  if s.pact n P.ADAPT_CFG.hold ≠ 0 then s
  else match s.stepExponent n u.index with
    | some k =>
      let key := coefKey n u.pair.val u.index
      let r := fit18 ((s.coef key).toInt + u.error * u.sample / 2 ^ k) s
      r.2.setCoef key r.1
    | none => s

/-- The adaptation of a revolution, in training from phase 2 on and in data mode. -/
def adapt (n : Nat) (o : Option PortObs) (s : State) : State :=
  match o with
  | some o => if s.fsm n == fsmTrain || s.inData n then o.lms.foldl (lmsStep n) s else s
  | none => s

/-! ### The commands -/

/-- MON_CMD.rebase (R225, R239): a new reference from the reflections last observed. -/
def rebase (n : Nat) (s : State) : State := takeReference n (auditOperational (portAddr n P.MON_CMD) 1 s)

/-- REBASE (R225). -/
def execRebase (n : Fin 32) (s : State) : Host.Outcome State Fault Refusal := .next (hostCommand (portAddr n P.MON_CMD) (rebase n) s)

/-- The boundary actions of monitoring on one port, after the quality rewrite (R219, R223 to R229, R237, R221). -/
def monitorPort (n : Nat) (o : Option PortObs) (s : State) : State :=
  let s := adapt n o s
  let s := rewriteQual n o s
  let s := match o with
    | some o => if s.inData n && s.modeNow n == modeBaseT && decide (s.rateNow n < 2) then countErrors n o.rxErrors s else s
    | none => s
  let s := rewriteGain n o (rewriteNoise n o (rewriteMisc n o (rewriteEcho n o s)))
  exportPort n (judgeBurst n (judgeMargin n s))

end Sys2Proof.Machine
end

