-- ==== Sys2Proof/Machine/Perf.lean ====
section
/-! DEFINITION. Performance counters' commands, dumps and instruction samples (spec/19_performance_counters.md, R399 to R406). -/

namespace Sys2Proof.Machine

/-- PERF_COUNTER_WRAP (R399): an increment of a counter that stands at 2^48 - 1; the first OVF bit set raises event 248. -/
def counterWrap (k : Nat) (s : State) : State :=
  if s.perfCnt k = 2 ^ 48 - 1 && s.actFlag (PERF.SEL.enable.nth k) then
    let r := bumpCounter k s
    if r.2 then setPend 248 r.1 else r.1
  else s

/-- PERF_COUNTER_WRAP (R399). -/
def execPerfCounterWrap (k : Fin 40) (s : State) : Host.Outcome State Fault Refusal := .next (counterWrap k s)

/-- PERF.CMD.clear_all (R401): every counter and OVF bit is 0, a counter with a coincident increment 1. -/
def clearAll (hits : BitVec 40) (s : State) : State :=
  let s := (List.range 40).foldl (fun s k => s.setPerfCnt k (bitNat (hits.getLsbD k))) s
  (List.range 5).foldl (fun s g => s.setWord (PERF.OVF + 4 * g) 0) s

/-- CLEAR_ALL (R401). -/
def execClearAll (hits : BitVec 40) (s : State) : Host.Outcome State Fault Refusal := .next (hostCommand PERF.CMD (clearAll hits) s)

/-! ### Dumps (R403, R404) -/

/-- The 384 bytes of a dump; `rev` is the revolution that ends. -/
def State.dumpBytes (s : State) (rev : Nat) : List Byte :=
  bytesBE 8 rev ++ bytesBE 8 s.perf.cycle.toNat ++ bytesBE 8 s.now ++ bytesBE 4 s.perf.dumpSeq ++
    bytesBE 4 (s.rd PERF.DUMP_LOST.count) ++ (List.range 5).flatMap (fun g => bytesBE 1 (s.rd (PERF.OVF.bits.nth g))) ++
    bytesBE 3 0 ++ (List.range 40).flatMap (fun k => bytesBE 8 (s.perfCnt k)) ++
    bytesBE 1 (s.rd PERF.BANK.active_bank) ++ bytesBE 23 0

/-- A dump that is due cannot be written (R404); nor can one whose ring is not an enabled device-posted ring. -/
def State.dumpBlocked (s : State) : Bool :=
  let r := s.act PERF.DUMP_CFG.ring
  (s.rd PERF.DUMP_WR.idx + 65536 - s.rd PERF.DUMP_RD.idx) % 65536 == 2 ^ s.act PERF.DUMP_CFG.size_log2 || s.perf.dumpBusy ||
    s.ringState r == rsStopped || s.shareFull r || !s.ringOn r || s.hostRing r

/-- The dump of the boundary that ends revolution `rev`, where one is due: posted, or counted lost. -/
def perfDump (rev : Nat) (s : State) : State :=
  let period := s.act PERF.DUMP_CFG.period
  if period = 0 || (rev + 1) % period ≠ 0 then s
  else
    let bytes := s.dumpBytes rev
    let blocked := s.dumpBlocked
    let s := { s with perf := { s.perf with dumpSeq := (s.perf.dumpSeq + 1) % 2 ^ 32 } }
    if blocked then perfEvent 2 (s.addSat PERF.DUMP_LOST.count 1)
    else
      let idx := s.rd PERF.DUMP_WR.idx % 2 ^ s.act PERF.DUMP_CFG.size_log2
      let va := s.pair (PERF.DUMP_VA + 0x8000) (PERF.DUMP_VA_HI + 0x8000) + 384 * idx
      pushDesc (s.act PERF.DUMP_CFG.ring) (.made va bytes) .perfDump { s with perf := { s.perf with dumpBusy := true } }

/-! ### Samples (R405, R406) -/

/-- What a sample records of an instruction. -/
structure Sample where
  word : Word
  exc : Bool
  gfalse : Bool
  user : Bool
  core : Nat
  task : Nat
  pc : Nat
  slot : Nat
  latency : Nat
  rev : Nat
deriving DecidableEq, Repr

/-- The four words of a sample. -/
def Sample.words (x : Sample) : List Word :=
  [x.word,
   BitVec.ofNat 32 (bitNat x.exc * 2 ^ 27 + bitNat x.gfalse * 2 ^ 26 + bitNat x.user * 2 ^ 25 + x.core % 4 * 2 ^ 23 +
     x.task % 64 * 2 ^ 17 + x.pc % 2 ^ 17),
   BitVec.ofNat 32 (x.slot % 4096 * 2 ^ 16 + min 65535 x.latency), BitVec.ofNat 32 x.rev]

/-- Samples the host has not read. -/
def State.unreadSamples (s : State) : Nat := (s.rd PERF.SAMP_STATUS.wr + 1024 - s.rd PERF.SAMP_RD.idx) % 1024

/-- Write a sample, or drop it where 512 are unread (R406). -/
def putSample (x : Sample) (s : State) : State :=
  if 512 ≤ s.unreadSamples then
    let first := s.perf.dropFresh
    let s := { s.addSat PERF.SAMP_STATUS.dropped 1 with perf := { s.perf with dropFresh := false } }
    if first then perfEvent 3 s else s
  else
    let a := PERF.SAMP + 16 * (s.rd PERF.SAMP_STATUS.wr % 512)
    let s := x.words.zipIdx.foldl (fun s e => s.setWord (a + 4 * e.2) e.1) s
    let s := s.addWrap PERF.SAMP_STATUS.wr 1
    if s.unreadSamples = 256 then perfEvent 3 s else s

/-- An instruction has been issued by a core: every interval-th is sampled (R405). -/
def sampleInstr (x : Sample) (s : State) : State :=
  let interval := s.act PERF.SAMP_CFG.interval
  if interval = 0 || !(s.act PERF.SAMP_CFG.cores).testBit x.core then s
  else
    let age := sget (fun _ => 0) s.perf.sampleAge x.core + 1
    let due := decide (interval ≤ age)
    let s := { s with perf := { s.perf with sampleAge := sput (fun _ => 0) s.perf.sampleAge x.core (if due then 0 else age) } }
    if due then putSample x s else s

/-- PERF.SAMP_RD written (R406). -/
def sampleRead (idx : Nat) (s : State) : State :=
  { s.wr PERF.SAMP_RD.idx idx with perf := { s.perf with dropFresh := true } }

end Sys2Proof.Machine
end

