-- ==== Sys2Proof/Machine/Bus.lean ====
section
/-! DEFINITION. The register file as software reaches it (spec/02_register_behaviour.md, spec/24_register_map.md): what a write
of a register does, what a read of one returns and clears. The host's two paths, the sequencer cores and the manifests all go
through `writeReg` and `readReg`. -/

namespace Sys2Proof.Machine

/-! ### Who writes (R31, R53) -/

/-- Who writes a register. -/
inductive Writer where
  | pcie | mdio | firmware | manifest
deriving DecidableEq, Repr

/-- The number of a writer, as the request sources of REQ_STATUS.src number the first three (R427). -/
def Writer.code : Writer → Nat
  | .pcie => 0
  | .mdio => 1
  | .firmware => 2
  | .manifest => 3

/-- The writer of a number. -/
def writerOf (k : Nat) : Writer := if k = 0 then .pcie else if k = 1 then .mdio else if k = 2 then .firmware else .manifest

/-- Whether Sealed operation refuses this writer's configuration writes (R53). -/
def Writer.isHost : Writer → Bool
  | .pcie => true
  | .mdio => true
  | .firmware => false
  | .manifest => false

/-! ### Fields of a register (R489, R37) -/

/-- A field that takes a write. -/
def FieldDef.takesWrite (f : FieldDef) : Bool := f.access == .rw || f.access == .rh || f.access == .wc

/-- The field that covers a bit. -/
def RegDef.fieldAt (r : RegDef) (b : Nat) : Option FieldDef :=
  r.fields.find? (fun f => decide (f.lsb ≤ b) && decide (b < f.lsb + f.width))

/-- The reserved fields of a register, lowest first: runs of bits no field covers, as lowest bit and width. -/
def RegDef.reserved (r : RegDef) : List (Nat × Nat) :=
  ((List.range 32).foldl (fun (acc : List (Nat × Nat)) b =>
    if (r.fieldAt b).isSome then acc
    else match acc with
      | (l, w) :: t => if l + w = b then (l, w + 1) :: t else (b, 1) :: (l, w) :: t
      | [] => [(b, 1)]) []).reverse

/-- The bits of the RC fields of a register. -/
def RegDef.rcMask (r : RegDef) : Nat :=
  ((r.fields.filter (fun f => f.access == .rc)).map (fun f => (2 ^ f.width - 1) * 2 ^ f.lsb)).sum

/-- Which register of its array a block offset names. -/
def RegDef.index (r : RegDef) (off : Nat) : Nat := if r.stride = 0 then 0 else (off - r.off) / r.stride

/-- A host configuration write: to an RW field, a bank commit command or a reset command (R31). -/
def isConfigWrite (b : Block) (a : Nat) (r : RegDef) (v : Word) : Bool :=
  r.hasRW || (b.commitAt == some a && bitOf v 0) || (a == CHIP.RESET_CMD && (bitOf v 0 || bitOf v 1))

/-- Write one field, with the range check of R37. -/
def putField (a i : Nat) (v : Word) (s : State) (f : FieldDef) : State :=
  if f.access == .rw || f.access == .rh then
    let x := bitsOf v f.lsb f.width
    let y := f.legal.nearest i x
    let s := s.setWord a (withBits (s.word a) f.lsb f.width y)
    if x = y then s else clampPush { addr := a, lsb := f.lsb, width := f.width, source := 0, written := x, applied := y } s
  else s

/-- Report a nonzero value written to a reserved field (R37). -/
def clampReserved (a : Nat) (v : Word) (s : State) (g : Nat × Nat) : State :=
  let x := bitsOf v g.1 g.2
  if x = 0 then s else clampPush { addr := a, lsb := g.1, width := g.2, source := 3, written := x, applied := 0 } s

/-- Write the RW and RH fields of a register, lowest field first, then judge its reserved fields. -/
def putFields (a : Nat) (off : Nat) (r : RegDef) (v : Word) (s : State) : State :=
  r.reserved.foldl (clampReserved a v) (r.fields.reverse.foldl (putField a (r.index off) v) s)

/-! ### Single-bank blocks (R35) -/

/-- What guards a register of a single-bank block. -/
inductive Guard where
  /-- Nothing, or an enable field that is 0. -/
  | free
  /-- An enable field of another register, which is 1. -/
  | shut
  /-- The register's own enable field, by its bit. -/
  | own (bit : Nat)
deriving DecidableEq, Repr

/-- The guard of a condition. -/
def guardIf (on : Bool) : Guard := if on then .shut else .free

/-- Some ring is enabled (R350). -/
def State.anyRing (s : State) : Bool := (List.range 64).any (fun r => s.ringOn r)

/-- The guard of a register (R32, R350, R395, R427). -/
def State.guardOf (s : State) (b : Block) (off : Nat) : Guard :=
  match b with
  | .hsl =>
    if off = 0 then guardIf ((List.range 32).any (fun l => s.flag (HSL.LANE_CTRL.enable.nth l)))
    else if 0x100 ≤ off && off < 0x180 then .own 0 else .free
  | .dma =>
    if off < 0x100 then (if off = 0x10 || off = 0x14 then .free else guardIf s.anyRing)
    else if (off - 0x100) % 0x40 = 4 then .own 0
    else if (off - 0x100) % 0x40 = 0 || (off - 0x100) % 0x40 = 8 then guardIf (s.ringOn ((off - 0x100) / 0x40))
    else .free
  | .log =>
    if 0x20 ≤ off && off < 0x100 then guardIf (s.flag LOG.CFG.enable)
    else if 0x100 ≤ off && off < 0x160 then
      (if (off - 0x100) % 32 = 0 then .own 0
       else if (off - 0x100) % 32 = 4 || (off - 0x100) % 32 = 8 then guardIf (s.flag (LOG.EXP_CFG.enable.nth ((off - 0x100) / 32)))
       else .free)
    else .free
  | .pwr =>
    if 0x100 ≤ off then
      (if off % 16 = 0 then .own 31
       else if off % 16 = 4 then guardIf (s.flag (PWR.RAIL_CFG.enable.nth ((off - 0x100) / 16))) else .free)
    else if off = 4 || off = 0x64 then .free
    else guardIf (s.flag PWR.REQ_STATUS.busy)
  | .chip | .evt | .port _ | .sq | .wheel | .jug | .ss | .trip | .tst | .perf | .cal | .bist => .free

/-! ### What a write sets off -/

/-- The write of RAIL_CFG that enables a rail reads its VOUT_MODE: a rail that is not linear stays disabled (R425). -/
def railEnabled (r : Nat) (linear : Bool) (s : State) : State :=
  if linear then s
  else (clampPush ((PWR.RAIL_CFG.enable.nth r).entry 1 1 0) (s.wr (PWR.RAIL_CFG.enable.nth r) 0)).wr (PWR.RAIL_STATUS.fault.nth r) 4

/-- What follows a write of a register's RW and RH fields; `was` is the word before it. -/
def afterWrite (b : Block) (off : Nat) (linear : BitVec 4) (was : Word) (s : State) : State :=
  let now := s.word (b.base + off)
  match b with
  | .chip => if off = 0x48 then snapHold (bitOf now 0) s else s
  | .hsl =>
    if 0x100 ≤ off && off < 0x180 then
      let l := (off - 0x100) / 4
      refreshLanes (if !bitOf was 0 && bitOf now 0 then laneChecks l s else s)
    else if off = 0 then refreshLanes s else s
  | .sq => if off = 0x80 then ctxSelect now s else s
  | .wheel => if off = 0x40 then taskSelect now s else s
  | .ss => if off = 0x28 then ctxSelWrite now s else s
  | .cal => if off = 0x20 then trimSelect now s else s
  | .log =>
    if off = 0x14 then alarmAck now.toNat s
    else if off = 0x204 then recSelWrite now.toNat s
    else if 0x100 ≤ off && off < 0x160 && (off - 0x100) % 32 = 16 then expRdWrite ((off - 0x100) / 32) (bitsOf now 0 16) s
    else s
  | .perf => if off = 0x68 then sampleRead (bitsOf now 0 10) s else s
  | .dma =>
    if off < 0x100 then s
    else if (off - 0x100) % 0x40 = 12 then ringProdWrite ((off - 0x100) / 0x40) (bitsOf now 0 16) s
    else if (off - 0x100) % 0x40 = 4 then
      (if !bitOf was 0 && bitOf now 0 then enableRing ((off - 0x100) / 0x40) s
       else if bitOf was 0 && !bitOf now 0 then disableRing ((off - 0x100) / 0x40) s else s)
    else s
  | .pwr =>
    if off = 0x44 then s.modPower (fun p => { p with rtcSet := true })
    else if off = 0x50 || off = 0x54 then s.modPower (fun p => { p with alarmMet := false })
    else if 0x100 ≤ off && off % 16 = 0 && !bitOf was 31 && bitOf now 31 then
      railEnabled ((off - 0x100) / 16) (linear.getLsbD ((off - 0x100) / 16)) s
    else s
  | .evt | .port _ | .jug | .trip | .tst | .bist => s

/-- A 1 written to a WC bit (R41). -/
def wcCommand (b : Block) (off bit : Nat) (fuse : Option FuseLeft) (s : State) : State :=
  if b.commitAt = some (b.base + off) && bit = 0 then commitBank b (b.base + off) s
  else
    match b with
    | .chip =>
      if off = 0x20 then (if bit = 0 then resetDevice 4 s else longNext s)
      else if off = 0x3C then
        (if bit = 0 then fwWrite s else if bit = 1 then fwVerify s else if bit = 2 then fwActivate s else fwCancel s)
      else if off = 0x70 then { s with host := { s.host with clampLog := s.host.clampLog.drop 1 } } else s
    | .port n =>
      if off = 0x80 then
        (if bit = 0 then restartCmd n s else if bit = 1 then anRestart n s else if bit = 2 then fastRetrainCmd n s
         else cableTestCmd n s)
      else if off = 0x84 then rebase n s else s
    | .hsl => if 0x180 ≤ off && off < 0x200 then slip ((off - 0x180) / 4) s else s
    | .wheel =>
      if off = 0xC then
        (if bit = 0 then loadWrite false s else if bit = 1 then loadWrite true s else if bit = 2 then revertCmd s
         else cancelLoad s)
      else s
    | .jug => if off = 0x60 then (if bit = 0 then scanStart s else scanStop s) else s
    | .trip => if off = 0x80 then releaseOuts (BitVec.ofNat 8 (2 ^ bit)) s else s
    | .tst =>
      if off = 0x18 then
        (if bit = 0 then (if s.boot.stage == .safe then safeSubmit s else if s.started then submit s else s)
         else if bit = 1 then enrol fuse s else checkpoint s)
      else s
    | .perf => if off = 4 then clearAll 0 s else s
    | .dma =>
      if off = 0xC then wcWrite DMA.MMU_INV bit (startInvalidate (bit == 1)) s
      else if 0x100 ≤ off && (off - 0x100) % 0x40 = 16 then
        (if bit = 0 then ringResume ((off - 0x100) / 0x40) s else ringAbort ((off - 0x100) / 0x40) s)
      else s
    | .cal => if off = 0x10 then (if bit = 0 then forceCmd s else swapCmd s) else s
    | .evt | .sq | .ss | .log | .pwr | .bist => s

/-- The WC bits of a register in the order a word with several of them takes: lowest first, but long_next before the reset that
it is for. -/
def RegDef.wcBits (r : RegDef) (b : Block) (off : Nat) : List Nat :=
  let l := (r.fields.filter (fun f => f.access == .wc)).flatMap (fun f => (List.range f.width).map (· + f.lsb))
  if b == .chip && off == 0x20 then l else l.reverse

/-! ### A write of a register (R30, R33 to R38, R489) -/

/-- What a write carries beside its word: how far an OTP programming it starts gets, and which rails report linear VOUT_MODE. -/
structure WriteSide where
  fuse : Option FuseLeft
  linear : BitVec 4
deriving DecidableEq, Repr

/-- The write is taken whole: fields, what they set off, commands. -/
def takeWrite (b : Block) (a off : Nat) (r : RegDef) (v : Word) (x : WriteSide) (s : State) : State :=
  let was := s.word a
  let s := afterWrite b off x.linear was (putFields a off r v s)
  (r.wcBits b off).foldl (fun s k => if bitOf v k then wcCommand b off k x.fuse s else s) s

/-- A write of a register that holds a field that takes writes, judged under the discipline of its block. -/
def judgeWrite (w : Writer) (b : Block) (a off : Nat) (r : RegDef) (v : Word) (x : WriteSide) (s : State) : State :=
  if w.isHost && s.sealed && isConfigWrite b a r v then refuseSealed a v.toNat s
  else if r.hasRW && b.doubleBuffered && s.bankPending b then ignored .pending a s
  else
    match (if r.hasRW then s.guardOf b off else .free) with
    | .free => takeWrite b a off r v x s
    | .shut => ignored .enabled a s
    | .own k =>
      if bitOf (s.word a) k && bitOf v k then
        (if decide (1 < r.fields.length) then ignored .enabled a s else s)
      else takeWrite b a off r v x s

/-- A write of PWR waits for its tick (R50). -/
def queuePwr (w : Writer) (a : Nat) (v : Word) (s : State) : State :=
  (s.modPower (fun p => { p with writes := p.writes ++ [(a, v, w.code)] })).wr PWR.AON_STATUS.wr_pending 1

/-- A 32-bit write of a BAR0 register offset. -/
def writeReg (w : Writer) (a : Nat) (v : Word) (x : WriteSide) (s : State) : State :=
  match homeOf a with
  | none => busError .unimplemented a s
  | some (.activeCopy _ _ _) => ignored .readOnly a s
  | some (.reg b off r) =>
    if !r.fields.any (·.takesWrite) then ignored .readOnly a s
    else if b == .pwr then queuePwr w a v s
    else judgeWrite w b a off r v x s

/-- A write of PWR takes effect (R50, R411): PWR.REQ becomes a request for the next tick. -/
def settlePwr (x : WriteSide) (s : State) (e : Nat × Word × Nat) : State :=
  match homeOf e.1 with
  | some (.reg .pwr off r) =>
    let s := judgeWrite (writerOf e.2.2) .pwr e.1 off r e.2.1 x s
    if off = 4 then s.modPower (fun p => { p with asked := p.asked ++ [(bitsOf e.2.1 0 3, min 2 e.2.2)] }) else s
  | _ => s

/-! ### What a register reads (R30, R39, R44, R467) -/

/-- The head of the clamp log. -/
def State.clampHead (s : State) : ClampEntry :=
  s.host.clampLog.headD { addr := 0, lsb := 0, width := 0, source := 0, written := 0, applied := 0 }

/-- EVT.SUMMARY (R383). -/
def State.evtSummary (s : State) : Word :=
  let words := fun (mask : Nat) => ((List.range 8).map (fun w => bitNat (s.pendWord mask w) * 2 ^ w)).sum
  BitVec.ofNat 32 (bitNat s.intN * 2 ^ 16 + words EVT.INT_MASK * 2 ^ 8 + words EVT.MASK)

/-- P[n].TONE_WIN[k] (R175). -/
def State.toneWin (s : State) (n k : Nat) : Word :=
  let i := s.rd (P.TONE_SEL.tone.port n) + k
  let t := sget (fun _ => Tone.none) (s.rch n).tones (toneKey (s.rd (P.TONE_SEL.pair.port n)) i)
  let count := 32 * s.pact n P.REACH_CFG.tones32
  BitVec.ofNat 32 (t.bits * 2 ^ 28 + toneClass count i * 2 ^ 26 +
    (match t.snr with
     | some v => nat16 v
     | none => 0x8000))

/-- P[n].COEF_WIN[k] (R467): 0 while the port has no link in training or data mode, and for pairs that do not run. -/
def State.coefWin (s : State) (n k : Nat) : Word :=
  let p := s.rd (P.COEF_SEL.pair.port n)
  let st := s.fsm n
  let runs := if st = fsmTrain then pairsInUse (s.link n).mode (s.link n).rate else pairsInUse (s.modeNow n) (s.rateNow n)
  if (st = fsmTrain || s.inData n) && runs.contains p then (s.coef (coefKey n p k)).signExtend 32 else 0

/-- A register of a port whose island is off reads its reset value (R50, R468); LINE_STATUS and AN_STATUS, which say that the
island is off, do not. -/
def State.portDark (s : State) (n off : Nat) : Bool :=
  (s.fsm n == fsmOff || !s.clk.wheelOn) && off != 0x100 && off != 0x104

/-- A 64-bit value's word. -/
def halfOf (v : Nat) (high : Bool) : Word := BitVec.ofNat 32 (if high then v / 2 ^ 32 else v)

/-- The word a register holds or shows, its WC bits apart. -/
def State.shown (s : State) (b : Block) (off : Nat) : Word :=
  let w := s.word (b.base + off)
  match b with
  | .chip =>
    if off = 8 then halfOf s.now false
    else if off = 0xC then halfOf s.now true
    else if off = 0x60 then BitVec.ofNat 32 s.clampHead.addr
    else if off = 0x64 then BitVec.ofNat 32 (s.clampHead.source * 2 ^ 12 + s.clampHead.width * 2 ^ 5 + s.clampHead.lsb)
    else if off = 0x68 then BitVec.ofNat 32 s.clampHead.written
    else if off = 0x6C then BitVec.ofNat 32 s.clampHead.applied
    else if off = 0x74 then withBits w 0 6 s.host.clampLog.length
    else w
  | .evt => if off = 0x140 then s.evtSummary else w
  | .port n =>
    if s.portDark n off then resetWord (b.base + off)
    else if 0x400 ≤ off && off < 0x800 then s.toneWin n ((off - 0x400) / 4)
    else if 0x800 ≤ off && off < 0x2F40 then s.coefWin n ((off - 0x800) / 4)
    else w
  | .hsl => if 0x200 ≤ off && off < 0x280 then s.laneWord ((off - 0x200) / 4) else w
  | .sq => if off = 0x40 then s.jobStatusWord else w
  | .wheel => if off = 0x1000 then halfOf s.clk.rev.toNat false else if off = 0x1004 then halfOf s.clk.rev.toNat true else w
  | .jug =>
    if 0x10000 ≤ off && off < 0x11000 then s.desc (off % 0x10000 / 4)
    else if 0x40000 ≤ off && off < 0x80000 then (s.tap (off % 0x40000 / 256) (off % 0x40000 / 4 % 64)).signExtend 32
    else w
  | .tst =>
    if off = 0x28 then halfOf s.chain.seq.toNat false
    else if off = 0x2C then halfOf s.chain.seq.toNat true
    else if 0x80 ≤ off && off < 0xC0 then digestWord s.chain.head ((off - 0x80) / 4)
    else w
  | .log =>
    if 0x100 ≤ off && off < 0x160 && (off - 0x100) % 32 = 20 then BitVec.ofNat 32 (s.posNewest ((off - 0x100) / 32))
    else if 0x100 ≤ off && off < 0x160 && (off - 0x100) % 32 = 24 then BitVec.ofNat 32 (s.posUnexp ((off - 0x100) / 32))
    else w
  | .perf => if off = 0x10 then halfOf s.perf.cycle.toNat false else if off = 0x14 then halfOf s.perf.cycle.toNat true else w
  | .pwr =>
    if off = 0x30 then halfOf s.power.rtcSec false
    else if off = 0x34 then halfOf s.power.rtcSec true
    else if off = 0x38 then BitVec.ofNat 32 s.power.rtcFrac
    else w
  | .ss | .trip | .dma | .cal | .bist => w

/-- The WC bits that read 1: of a command that runs or is queued (R30), of a commit while it is pending. -/
def State.wcShown (s : State) (b : Block) (off : Nat) (r : RegDef) : Word :=
  (r.wcBits b off).foldl (fun (acc : Word) k =>
    if decide (1 ≤ s.wcLevel (wcKey (b.base + off) k)) || (b.commitAt == some (b.base + off) && k == 0 && s.bankPending b)
    then acc ||| BitVec.ofNat 32 (2 ^ k) else acc) 0

/-- The word a read of a BAR0 register offset shows. -/
def State.view (s : State) (a : Nat) : Word :=
  match homeOf a with
  | none => 0
  | some (.activeCopy (.port n) off _) => if s.portDark n off then resetWord a else s.word a
  | some (.activeCopy _ _ _) => s.word a
  | some (.reg b off r) => s.shown b off ||| s.wcShown b off r

/-! ### Counter pairs (R44, R400) -/

/-- The offset is the low word of a 64-bit pair read under R44. -/
def pairLow (a : Nat) : Bool :=
  match blockOf a with
  | some (.chip, off) => off == 8
  | some (.port _, off) => off % 8 == 0 && ((decide (0x200 ≤ off) && decide (off < 0x260)) || off == 0x270)
  | some (.hsl, off) => off % 8 == 0 && decide (0x800 ≤ off) && decide (off < 0xC00)
  | some (.wheel, off) => off == 0x1000
  | some (.trip, off) =>
    (decide (0x400 ≤ off) && decide (off < 0x600) && off % 16 == 8) || (decide (0x800 ≤ off) && decide (off < 0xA00) && off % 8 == 0)
  | some (.tst, off) => off == 0x20 || off == 0x28
  | some (.perf, off) => off == 0x10 || (decide (0x200 ≤ off) && decide (off < 0x340) && off % 8 == 0)
  | some (.pwr, off) => off == 0x30
  | _ => false

/-- The key of a reader's latch of the high word at `a`: reader 0 is the host, 1 + c core c. -/
def latchKey (reader a : Nat) : Nat := reader * 2 ^ 28 + a

/-- The latch of the high word at `a`, none where no low word has been read. -/
def State.latch (s : State) (reader a : Nat) : Option Word := sget (fun _ => none) s.host.latches (latchKey reader a)

/-- Load a latch. -/
def loadLatch (reader a : Nat) (v : Word) (s : State) : State :=
  { s with host := { s.host with latches := sput (fun _ => none) s.host.latches (latchKey reader a) (some v) } }

/-! ### A read of a register (R30, R40, R42) -/

/-- The bits of the bytes a byte enable names. -/
def byteMask (be : BitVec 4) : Nat := ((List.range 4).map (fun k => bitNat (be.getLsbD k) * 255 * 2 ^ (8 * k))).sum

/-- Clear bits of an RC register that were read: PEND bits take their pending messages with them (R381), and the status registers
of the captures open them again (R36, R47). -/
def clearRead (a : Nat) (mask : Word) (s : State) : State :=
  let s := s.clearBits a mask
  let s := if EVT.PEND ≤ a && a < EVT.PEND + 32 then s.clearBits (EVT.PBA + (a - EVT.PEND)) mask else s
  if a = CHIP.IGN_WRITE_STATUS then { s with host := { s.host with ignFresh := true } }
  else if a = CHIP.BUSERR_STATUS then { s with host := { s.host with busFresh := true } }
  else s

/-- The RC bits of a register offset. -/
def rcBits (a : Nat) : Nat :=
  match homeOf a with
  | some (.reg _ _ r) => r.rcMask
  | some (.activeCopy _ _ _) => 0
  | none => 0

/-- LPI_US is brought up to the cycle of the read. -/
def beforeRead (a : Nat) (s : State) : State :=
  match blockOf a with
  | some (.port n, off) => if off = 0x270 || off = 0x274 then countLpi n s else s
  | _ => s

/-- A read of up to 32 bits of a register: the word shown, or the latch of a pair's high word; the bits returned clear. A read of a
whole low word loads the latch. `wide` is one half of an aligned 64-bit read of a pair, which neither loads nor uses the latch. -/
def readReg (reader a : Nat) (be : BitVec 4) (wide clears : Bool) (s : State) : Word × State :=
  let s := beforeRead a s
  let high := decide (4 ≤ a) && pairLow (a - 4)
  let v := if high && !wide then (s.latch reader a).getD (s.view a) else s.view a
  let s := if pairLow a && be == 15 && !wide then loadLatch reader (a + 4) (s.view (a + 4)) s else s
  (v &&& BitVec.ofNat 32 (byteMask be), if clears then clearRead a (BitVec.ofNat 32 (rcBits a &&& byteMask be)) s else s)

end Sys2Proof.Machine
end

