-- ==== Sys2Proof/Machine/AonTick.lean ====
section
/-! DEFINITION. The always-on domain's tick and the RTC second (spec/01_architecture.md, R16, R17; spec/02_register_behaviour.md,
R50, R53; spec/20_power_states.md, R411, R420, R426, R427). -/

namespace Sys2Proof.Machine

/-- The always-on domain is supplied: not before power-on, and not in OFF, where only the WAKE comparator works (R17, R418). -/
def State.aonOn (s : State) : Bool := s.boot.stage != .unpowered && s.powerState != stOff

/-- With the system PLL off DEV_TIME advances by 30,517.578125 ns a tick, the fraction carried (R16). -/
def tickTime (s : State) : State :=
  if s.clk.pllOn then s
  else
    let f := s.clk.frac + 37
    s.withClk { s.clk with devTime := s.clk.devTime + BitVec.ofNat 64 (30517 + f / 64), frac := f % 64 }

/-- RTC_FRAC counts ticks; the 32,768th is the RTC second (R17, R427). -/
def tickFrac (s : State) : State := s.modPower (fun p => { p with rtcFrac := min 32767 (p.rtcFrac + 1) })

/-- The requests written before the tick are taken in order (R411). -/
def takeAsked (s : State) : State :=
  let l := s.power.asked
  l.foldl (fun s (e : Nat × Nat) => if s.started then takeRequest e.1 e.2 s else s) (s.modPower (fun p => { p with asked := [] }))

/-- The PWR writes that wait take effect in order, and the RTC is set where its high word was among them (R50, R427). -/
def settleWrites (linear : BitVec 4) (s : State) : State :=
  let l := s.power.writes
  let s := (s.modPower (fun p => { p with writes := [] })).wr PWR.AON_STATUS.wr_pending 0
  let s := l.foldl (fun s e => settlePwr { fuse := none, linear := linear } s e) s
  if s.power.rtcSet then
    setRtc (s.pair PWR.RTC_SET_SEC (PWR.RTC_SET_SEC + 4)) (s.rd PWR.RTC_SET_FRAC.frac) (s.modPower (fun p => { p with rtcSet := false }))
  else s

/-- A wake that waits is taken: at rest it starts, from OFF as a WAKE-pin start; during the shutdown test it ends the test
(R420, R421, R439). Within an entry it waits. -/
def takeWake (s : State) : State :=
  match s.power.wake with
  | none => s
  | some src =>
    if s.power.stage == .testing then abandonShutdownTest src s
    else if s.power.stage == .rest && decide (stSleep ≤ s.powerState) then
      if s.powerState = stOff then resetDevice 2 s else startWake src s
    else s

/-- The power-3 beacons of an entry are over once none waits (R417). -/
def beaconsOver (s : State) : State := if s.power.stage == .beacons && !s.beaconsWait then beaconsDone s else s

/-- A 32.768 kHz tick. -/
def aonTick (linear : BitVec 4) (s : State) : State :=
  if s.aonOn then
    let s := settleWrites linear (takeAsked (tickFrac (tickTime s)))
    if s.started then startPending (beaconsOver (takeWake s)) else s
  else if s.started then takeWake s
  else s

/-- AON_TICK (R16). -/
def execAonTick (linear : BitVec 4) (s : State) : Host.Outcome State Fault Refusal := .next (aonTick linear s)

/-! ### The RTC second (R53, R213, R335) -/

/-- The summary record of one type for the refusals of the second. -/
def summarise (typ : Nat) (t : Option RefusalTally) (s : State) : State :=
  match t with
  | some t => auditN typ t.result (min 0xFFFF t.count) t.subject t.detail s
  | none => s

/-- The refusals of the past second are audited: commands, configuration writes, data SRAM writes; they count anew. -/
def auditRefusals (s : State) : State :=
  let h := s.host
  let s := { s with host := { s.host with refusedWrites := none, refusedSram := none, refusedCmds := none } }
  summarise 14 h.refusedSram (summarise 3 h.refusedWrites (summarise 2 h.refusedCmds s))

/-- An RTC second: the count advances, refusals are audited, the log summary ages, a rail that could not be raised is tried
again (R426). -/
def rtcSecond (s : State) : State :=
  if s.aonOn then
    let s := s.modPower (fun p => { p with rtcSec := (p.rtcSec + 1) % 2 ^ 64, rtcFrac := 0 })
    let s := auditRefusals s
    let s := { s with logs := { s.logs with summaryAge := s.logs.summaryAge + 1 } }
    if s.power.retry then startWake (s.rd PWR.AON_STATUS.last_wake) s else s
  else s

/-- RTC_SECOND (R53). -/
def execRtcSecond (s : State) : Host.Outcome State Fault Refusal := .next (rtcSecond s)

end Sys2Proof.Machine
end

