-- ==== Sys2Proof/Machine/Nelno.lean ====
section
/-! DEFINITION. The Nelno instruction set: its instructions, the decoder of a word and the encoder (spec/14_sequencer_isa.md,
R298 to R301). -/

namespace Sys2Proof.Machine

/-- The register-register operations of opcode 0x00. -/
inductive AluOp where
  | add | sub | and | or | xor | sll | srl | sra | slt | sltu | min | max
deriving DecidableEq, Repr

/-- The operations of opcode 0x01. -/
inductive MulOp where
  | mul | mulh | mulhu | div | divu | rem | remu
deriving DecidableEq, Repr

/-- The immediate operations of opcodes 0x02 to 0x05. -/
inductive ImmOp where
  | addi | andi | ori | xori
deriving DecidableEq, Repr

/-- The immediate shifts of opcode 0x06. -/
inductive ShiftOp where
  | slli | srli | srai
deriving DecidableEq, Repr

/-- The comparisons of CMP and CMPI. -/
inductive Cond where
  | eq | lt | ltu
deriving DecidableEq, Repr

/-- The predicate operations of opcode 0x0E. -/
inductive PredOp where
  | pand | por | pxor | pandn
deriving DecidableEq, Repr

/-- The loads of opcodes 0x10 to 0x14. -/
inductive LoadOp where
  | ldw | ldh | ldhu | ldb | ldbu
deriving DecidableEq, Repr

/-- The stores of opcodes 0x18 to 0x1A. -/
inductive StoreOp where
  | stw | sth | stb
deriving DecidableEq, Repr

/-- The instructions that place an operation in the job table (R303, R304). -/
inductive IssueOp where
  | ejob | dmaq | hash | latt | snap
deriving DecidableEq, Repr

/-- An instruction, without its guard. -/
inductive Nelno where
  | alu (op : AluOp) (rd rs1 rs2 : Fin 32)
  | mul (op : MulOp) (rd rs1 rs2 : Fin 32)
  | imm (op : ImmOp) (rd rs1 : Fin 32) (v : BitVec 12)
  | shift (op : ShiftOp) (rd rs1 : Fin 32) (sh : Fin 32)
  | movl (rd : Fin 32) (v : BitVec 16)
  | movh (rd : Fin 32) (v : BitVec 16)
  | cmp (pd : Fin 8) (cond : Cond) (rs1 rs2 : Fin 32)
  | cmpi (pd : Fin 8) (cond : Cond) (rs1 : Fin 32) (v : BitVec 12)
  | pred (op : PredOp) (pd ps1 ps2 : Fin 8)
  | load (op : LoadOp) (rd rs1 : Fin 32) (off : BitVec 12)
  | store (op : StoreOp) (rs2 rs1 : Fin 32) (off : BitVec 12)
  | bcopy (rd rs1 rs2 : Fin 32)
  | fence
  | br (off : BitVec 22)
  | bl (off : BitVec 22)
  | jr (rs1 : Fin 32)
  | csrr (rd : Fin 32) (csr : BitVec 12)
  | csrw (rs2 : Fin 32) (csr : BitVec 12)
  | sysc (v : BitVec 12)
  | eret
  | waits (slot : BitVec 12)
  | yield
  | issue (op : IssueOp) (rd rs1 rs2 : Fin 32)
  | trip (rs1 : Fin 32)
  | jpoll (pd : Fin 8) (rs1 : Fin 32)
  | jwait (rd rs1 : Fin 32)
deriving DecidableEq, Repr

/-- A word: guard predicate, negate bit, instruction (R298). -/
structure Guarded where
  pred : Fin 8
  neg : Bool
  instr : Nelno
deriving DecidableEq, Repr

/-! ### Codes -/

/-- fn of opcode 0x00. -/
def aluOf (fn : Nat) : Option AluOp :=
  match fn with
  | 0 => some .add | 1 => some .sub | 2 => some .and | 3 => some .or | 4 => some .xor | 5 => some .sll
  | 6 => some .srl | 7 => some .sra | 8 => some .slt | 9 => some .sltu | 10 => some .min | 11 => some .max
  | _ => none

/-- The fn of an operation of opcode 0x00. -/
def AluOp.fn : AluOp → Nat
  | .add => 0 | .sub => 1 | .and => 2 | .or => 3 | .xor => 4 | .sll => 5
  | .srl => 6 | .sra => 7 | .slt => 8 | .sltu => 9 | .min => 10 | .max => 11

/-- fn of opcode 0x01. -/
def mulOf (fn : Nat) : Option MulOp :=
  match fn with
  | 0 => some .mul | 1 => some .mulh | 2 => some .mulhu | 3 => some .div | 4 => some .divu | 5 => some .rem
  | 6 => some .remu
  | _ => none

/-- The fn of an operation of opcode 0x01. -/
def MulOp.fn : MulOp → Nat
  | .mul => 0 | .mulh => 1 | .mulhu => 2 | .div => 3 | .divu => 4 | .rem => 5 | .remu => 6

/-- The opcode of an immediate operation. -/
def ImmOp.code : ImmOp → Nat
  | .addi => 2 | .andi => 3 | .ori => 4 | .xori => 5

/-- imm[11:10] of a shift (R300). -/
def shiftOf (k : Nat) : Option ShiftOp :=
  match k with
  | 0 => some .slli | 1 => some .srli | 2 => some .srai
  | _ => none

/-- The imm[11:10] of a shift. -/
def ShiftOp.code : ShiftOp → Nat
  | .slli => 0 | .srli => 1 | .srai => 2

/-- cond of the C format; 3 is not defined (R299). -/
def condOf (k : Nat) : Option Cond :=
  match k with
  | 0 => some .eq | 1 => some .lt | 2 => some .ltu
  | _ => none

/-- The cond of a comparison. -/
def Cond.code : Cond → Nat
  | .eq => 0 | .lt => 1 | .ltu => 2

/-- fn of the P format. -/
def predOf (k : Nat) : PredOp :=
  match k with
  | 0 => .pand | 1 => .por | 2 => .pxor
  | _ => .pandn

/-- The fn of a predicate operation. -/
def PredOp.code : PredOp → Nat
  | .pand => 0 | .por => 1 | .pxor => 2 | .pandn => 3

/-- The opcode of a load. -/
def LoadOp.code : LoadOp → Nat
  | .ldw => 0x10 | .ldh => 0x11 | .ldhu => 0x12 | .ldb => 0x13 | .ldbu => 0x14

/-- The opcode of a store. -/
def StoreOp.code : StoreOp → Nat
  | .stw => 0x18 | .sth => 0x19 | .stb => 0x1A

/-- The opcode of an issuing instruction. -/
def IssueOp.code : IssueOp → Nat
  | .ejob => 0x32 | .dmaq => 0x33 | .hash => 0x34 | .latt => 0x35 | .snap => 0x37

/-! ### Fields of a word (R298) -/

/-- The opcode of a word. -/
def opcodeOf (w : Word) : Nat := bitsOf w 22 6

/-- A register number at a bit position. -/
def regAt (w : Word) (lsb : Nat) : Fin 32 := Fin.ofNat 32 (w.toNat / 2 ^ lsb)

/-- A predicate number at a bit position. -/
def predAt (w : Word) (lsb : Nat) : Fin 8 := Fin.ofNat 8 (w.toNat / 2 ^ lsb)

/-- imm12. -/
def immAt (w : Word) : BitVec 12 := BitVec.ofNat 12 w.toNat

/-- An instruction whose reserved fields read `r`: none unless they are 0 (R299). -/
def unless0 (r : Nat) (i : Nelno) : Option Nelno := if r = 0 then some i else none

/-- The R format with rd, rs1, rs2 and fn 0. -/
def plainR (w : Word) (i : Fin 32 → Fin 32 → Fin 32 → Nelno) : Option Nelno :=
  unless0 (bitsOf w 0 7) (i (regAt w 17) (regAt w 12) (regAt w 7))

/-- The instruction of a word below its guard, none where it is not defined (R299, R301). -/
def decodeBody (w : Word) : Option Nelno :=
  match opcodeOf w with
  | 0x00 => (aluOf (bitsOf w 0 7)).map (fun op => .alu op (regAt w 17) (regAt w 12) (regAt w 7))
  | 0x01 => (mulOf (bitsOf w 0 7)).map (fun op => .mul op (regAt w 17) (regAt w 12) (regAt w 7))
  | 0x02 => some (.imm .addi (regAt w 17) (regAt w 12) (immAt w))
  | 0x03 => some (.imm .andi (regAt w 17) (regAt w 12) (immAt w))
  | 0x04 => some (.imm .ori (regAt w 17) (regAt w 12) (immAt w))
  | 0x05 => some (.imm .xori (regAt w 17) (regAt w 12) (immAt w))
  | 0x06 =>
    (shiftOf (bitsOf w 10 2)).bind (fun op => unless0 (bitsOf w 5 5) (.shift op (regAt w 17) (regAt w 12) (regAt w 0)))
  | 0x08 => unless0 (bitsOf w 16 1) (.movl (regAt w 17) (BitVec.ofNat 16 w.toNat))
  | 0x09 => unless0 (bitsOf w 16 1) (.movh (regAt w 17) (BitVec.ofNat 16 w.toNat))
  | 0x0C =>
    (condOf (bitsOf w 17 2)).bind (fun c => unless0 (bitsOf w 0 7) (.cmp (predAt w 19) c (regAt w 12) (regAt w 7)))
  | 0x0D => (condOf (bitsOf w 17 2)).map (fun c => .cmpi (predAt w 19) c (regAt w 12) (immAt w))
  | 0x0E => unless0 (bitsOf w 0 11) (.pred (predOf (bitsOf w 17 2)) (predAt w 19) (predAt w 14) (predAt w 11))
  | 0x10 => some (.load .ldw (regAt w 17) (regAt w 12) (immAt w))
  | 0x11 => some (.load .ldh (regAt w 17) (regAt w 12) (immAt w))
  | 0x12 => some (.load .ldhu (regAt w 17) (regAt w 12) (immAt w))
  | 0x13 => some (.load .ldb (regAt w 17) (regAt w 12) (immAt w))
  | 0x14 => some (.load .ldbu (regAt w 17) (regAt w 12) (immAt w))
  | 0x18 => some (.store .stw (regAt w 17) (regAt w 12) (immAt w))
  | 0x19 => some (.store .sth (regAt w 17) (regAt w 12) (immAt w))
  | 0x1A => some (.store .stb (regAt w 17) (regAt w 12) (immAt w))
  | 0x1C => plainR w .bcopy
  | 0x1D => unless0 (bitsOf w 0 22) .fence
  | 0x20 => some (.br (BitVec.ofNat 22 w.toNat))
  | 0x21 => some (.bl (BitVec.ofNat 22 w.toNat))
  | 0x22 => unless0 (bitsOf w 17 5 + bitsOf w 0 12) (.jr (regAt w 12))
  | 0x28 => unless0 (bitsOf w 12 5) (.csrr (regAt w 17) (immAt w))
  | 0x29 => unless0 (bitsOf w 12 5) (.csrw (regAt w 17) (immAt w))
  | 0x2A => unless0 (bitsOf w 12 10) (.sysc (immAt w))
  | 0x2B => unless0 (bitsOf w 0 22) .eret
  | 0x30 => unless0 (bitsOf w 12 10) (.waits (immAt w))
  | 0x31 => unless0 (bitsOf w 0 22) .yield
  | 0x32 => plainR w (.issue .ejob)
  | 0x33 => plainR w (.issue .dmaq)
  | 0x34 => plainR w (.issue .hash)
  | 0x35 => plainR w (.issue .latt)
  | 0x36 => unless0 (bitsOf w 17 5 + bitsOf w 0 12) (.trip (regAt w 12))
  | 0x37 => plainR w (.issue .snap)
  | 0x38 => unless0 (bitsOf w 17 2 + bitsOf w 0 12) (.jpoll (predAt w 19) (regAt w 12))
  | 0x39 => unless0 (bitsOf w 0 12) (.jwait (regAt w 17) (regAt w 12))
  | _ => none

/-- The instruction a word spells, none where it raises ILLEGAL (R298, R299). -/
def decodeNelno (w : Word) : Option Guarded :=
  (decodeBody w).map (fun i => { pred := predAt w 29, neg := bitOf w 28, instr := i })

/-! ### The encoder -/

/-- Opcode, the field at bits [21:17], rs1 and the low twelve bits. -/
def packed (op hi rs1 low : Nat) : Nat := op * 2 ^ 22 + hi * 2 ^ 17 + rs1 * 2 ^ 12 + low

/-- Opcode and the R format. -/
def packedR (op : Nat) (rd rs1 rs2 : Fin 32) (fn : Nat) : Nat := packed op rd rs1 (rs2.val * 2 ^ 7 + fn)

/-- The word of an instruction below its guard, as a number. -/
def Nelno.body : Nelno → Nat
  | .alu op rd rs1 rs2 => packedR 0x00 rd rs1 rs2 op.fn
  | .mul op rd rs1 rs2 => packedR 0x01 rd rs1 rs2 op.fn
  | .imm op rd rs1 v => packed op.code rd rs1 v.toNat
  | .shift op rd rs1 sh => packed 0x06 rd rs1 (op.code * 2 ^ 10 + sh.val)
  | .movl rd v => packed 0x08 rd 0 v.toNat
  | .movh rd v => packed 0x09 rd 0 v.toNat
  | .cmp pd c rs1 rs2 => packed 0x0C (pd.val * 4 + c.code) rs1 (rs2.val * 2 ^ 7)
  | .cmpi pd c rs1 v => packed 0x0D (pd.val * 4 + c.code) rs1 v.toNat
  | .pred op pd ps1 ps2 => packed 0x0E (pd.val * 4 + op.code) 0 (ps1.val * 2 ^ 14 + ps2.val * 2 ^ 11)
  | .load op rd rs1 off => packed op.code rd rs1 off.toNat
  | .store op rs2 rs1 off => packed op.code rs2 rs1 off.toNat
  | .bcopy rd rs1 rs2 => packedR 0x1C rd rs1 rs2 0
  | .fence => packed 0x1D 0 0 0
  | .br off => packed 0x20 0 0 off.toNat
  | .bl off => packed 0x21 0 0 off.toNat
  | .jr rs1 => packed 0x22 0 rs1 0
  | .csrr rd csr => packed 0x28 rd 0 csr.toNat
  | .csrw rs2 csr => packed 0x29 rs2 0 csr.toNat
  | .sysc v => packed 0x2A 0 0 v.toNat
  | .eret => packed 0x2B 0 0 0
  | .waits v => packed 0x30 0 0 v.toNat
  | .yield => packed 0x31 0 0 0
  | .issue op rd rs1 rs2 => packedR op.code rd rs1 rs2 0
  | .trip rs1 => packed 0x36 0 rs1 0
  | .jpoll pd rs1 => packed 0x38 (pd.val * 4) rs1 0
  | .jwait rd rs1 => packed 0x39 rd rs1 0

/-- The word of a guarded instruction (R298). -/
def encodeNelno (g : Guarded) : Word :=
  BitVec.ofNat 32 (g.pred.val * 2 ^ 29 + bitNat g.neg * 2 ^ 28 + g.instr.body)

end Sys2Proof.Machine
end

