-- ==== Sys2Proof/Machine/Flags.lean ====
section
/-! DEFINITION. What the Nelno instructions compute (spec/14_sequencer_isa.md, R300, R301): arithmetic, and the predicates that
comparisons and predicate operations set. There are no other flags. -/

namespace Sys2Proof.Machine

/-- A shift count: the low five bits. -/
def shiftCount (b : Word) : Nat := b.toNat % 32

/-- The result of an operation of opcode 0x00; MIN and MAX compare as signed numbers. -/
def AluOp.run (op : AluOp) (a b : Word) : Word :=
  match op with
  | .add => a + b
  | .sub => a - b
  | .and => a &&& b
  | .or => a ||| b
  | .xor => a ^^^ b
  | .sll => a <<< shiftCount b
  | .srl => a >>> shiftCount b
  | .sra => a.sshiftRight (shiftCount b)
  | .slt => if a.toInt < b.toInt then 1 else 0
  | .sltu => if a.toNat < b.toNat then 1 else 0
  | .min => if b.toInt < a.toInt then b else a
  | .max => if a.toInt < b.toInt then b else a

/-- The result of an operation of opcode 0x01; a divisor of 0 gives quotient 0xFFFF_FFFF and the dividend as remainder; quotients round
toward zero. -/
def MulOp.run (op : MulOp) (a b : Word) : Word :=
  match op with
  | .mul => a * b
  | .mulh => BitVec.ofInt 32 (a.toInt * b.toInt / 2 ^ 32)
  | .mulhu => BitVec.ofNat 32 (a.toNat * b.toNat / 2 ^ 32)
  | .div => if b = 0 then 0xFFFFFFFF else BitVec.ofInt 32 (a.toInt.tdiv b.toInt)
  | .divu => if b = 0 then 0xFFFFFFFF else BitVec.ofNat 32 (a.toNat / b.toNat)
  | .rem => if b = 0 then a else BitVec.ofInt 32 (a.toInt.tmod b.toInt)
  | .remu => if b = 0 then a else BitVec.ofNat 32 (a.toNat % b.toNat)

/-- The result of an immediate operation on its extended operand. -/
def ImmOp.run (op : ImmOp) (a b : Word) : Word :=
  match op with
  | .addi => a + b
  | .andi => a &&& b
  | .ori => a ||| b
  | .xori => a ^^^ b

/-- The result of an immediate shift. -/
def ShiftOp.run (op : ShiftOp) (a : Word) (sh : Nat) : Word :=
  match op with
  | .slli => a <<< sh
  | .srli => a >>> sh
  | .srai => a.sshiftRight sh

/-- What a comparison sets its predicate to. -/
def Cond.run (c : Cond) (a b : Word) : Bool :=
  match c with
  | .eq => a == b
  | .lt => decide (a.toInt < b.toInt)
  | .ltu => decide (a.toNat < b.toNat)

/-- What a predicate operation sets its predicate to. -/
def PredOp.run (op : PredOp) (a b : Bool) : Bool :=
  match op with
  | .pand => a && b
  | .por => a || b
  | .pxor => a != b
  | .pandn => a && !b

/-- MOVH keeps the low half (R300). -/
def moveHigh (a : Word) (v : BitVec 16) : Word := BitVec.ofNat 32 (a.toNat % 2 ^ 16 + v.toNat * 2 ^ 16)

end Sys2Proof.Machine
end

