-- ==== Sys2Proof/Machine/HostPort.lean ====
section
/-! DEFINITION. The host's accesses (spec/02_register_behaviour.md): widths and byte enables, bus errors, the data SRAM window, the
bit-alias window, and which accesses are served in which state of the device. -/

namespace Sys2Proof.Machine

/-! ### Byte enables and windows (R43, R45, R49) -/

/-- The byte enables of an 8, 16 or 32-bit access. -/
def goodEnables (be : BitVec 4) : Bool := [1, 2, 4, 8, 3, 12, 15].contains be.toNat

/-- Lowest byte and number of bytes of good byte enables. -/
def enabledBytes (be : BitVec 4) : Nat × Nat :=
  match be.toNat with
  | 1 => (0, 1)
  | 2 => (1, 1)
  | 4 => (2, 1)
  | 8 => (3, 1)
  | 3 => (0, 2)
  | 12 => (2, 2)
  | _ => (0, 4)

/-- The data SRAM window. -/
def inWindow (a : Nat) : Bool := decide (0x1000000 ≤ a) && decide (a < 0x1800000)

/-- The bit-alias window. -/
def inAlias (a : Nat) : Bool := decide (0x2000000 ≤ a) && decide (a < 0x2200000)

/-- The core-region offset and bit an alias stands for, with the field that holds the bit; none for reserved or unimplemented
bits (R49). -/
def aliasTarget (a : Nat) : Option (Nat × Nat × FieldDef) :=
  let k := a % 0x2000000 / 4
  let w := k / 32
  let bit := k % 32
  if w % 4 ≠ 0 then none
  else match homeOf w with
    | some (.reg _ _ r) => (r.fieldAt bit).map (fun f => (w, bit, f))
    | some (.activeCopy _ _ _) => none
    | none => none

/-- The bus error of an access, none where it has none: unaligned byte enables, a narrow write of a register, nothing there. -/
def State.accessError (s : State) (a : Nat) (be : BitVec 4) (isRead : Bool) : Option BusCause :=
  if be = 0 then none
  else if !goodEnables be then some .unaligned
  else if s.gate a isRead = .absent then some .unimplemented
  else if inWindow a then none
  else if inAlias a then (if (aliasTarget a).isSome then none else some .unimplemented)
  else if (homeOf a).isNone then some .unimplemented
  else if !isRead && be != 15 then some .narrow
  else none

/-! ### Writes -/

/-- The host window of data SRAM (R335). -/
def State.inHostWindow (s : State) (a : Nat) : Bool :=
  let base := s.rd DMA.HOST_WIN_BASE.base * 4096
  decide (base ≤ a) && decide (a < base + s.rd DMA.HOST_WIN_LEN.len * 4096)

/-- A write through the data SRAM window (R43, R333, R335). -/
def windowWrite (a : Nat) (be : BitVec 4) (v : Word) (s : State) : State :=
  let m := a % 0x1000000
  if s.sealed && !s.inHostWindow m then
    let s := ignored .isSealed a { s with host := { s.host with refusedSram := tally a v.toNat 0 s.host.refusedSram } }
    plainEvent 231 (BitVec.ofNat 32 a) s
  else if be = 15 then writeWord m v s
  else
    let b := enabledBytes be
    writeNarrow (m + b.1) b.2 (v.toNat / 2 ^ (8 * b.1) % 2 ^ (8 * b.2)) s

/-- A write of one bit of the core region (R49): judged by the bit's access type; its neighbours stay. -/
def aliasWrite (w : Writer) (a : Nat) (set : Bool) (x : WriteSide) (s : State) : State :=
  match aliasTarget a with
  | none => busError .unimplemented a s
  | some (t, bit, f) =>
    match f.access with
    | .ro => ignored .readOnly a s
    | .rc => ignored .readOnly a s
    | .wc => writeReg w t (if set then BitVec.ofNat 32 (2 ^ bit) else 0) x s
    | .rh => writeReg w t (if set then withBitSet (s.word t) bit else withBitClear (s.word t) bit) x s
    | .rw => writeReg w t (if set then withBitSet (s.word t) bit else withBitClear (s.word t) bit) x s

/-- One 32-bit part of a host write, at a word-aligned offset; one that meets no bus error is a register access completed (R398). -/
def writePart (w : Writer) (a : Nat) (be : BitVec 4) (v : Word) (x : WriteSide) (s : State) : State :=
  if be = 0 then s
  else match s.gate a false with
    | .silent => s
    | .asleep => accessInSleep a false (w == .mdio) s
    | .absent => busError (if goodEnables be then .unimplemented else .unaligned) a s
    | .served =>
      match s.accessError a be false with
      | some c => busError c a s
      | none =>
        if inWindow a then windowWrite a be v s
        else perfCount 4 0x06 (if inAlias a then aliasWrite w a (bitOf v 0) x s else writeReg w a v x s)

/-- A host write of several parts in ascending address order (R44): each is judged on its own. -/
def writeParts (w : Writer) (x : WriteSide) : (a : Nat) → List (BitVec 4 × Word) → State → State
  | _, [], s => s
  | a, (be, v) :: t, s => writeParts w x (a + 4) t (writePart w a be v x s)

/-- What a host write carries where it carries nothing. -/
def WriteSide.none : WriteSide := { fuse := Option.none, linear := 0 }

/-- HOST_REGISTER_WRITE (R30, R47): the parts of a posted write over PCIe, each with its byte enables. -/
def execHostRegisterWrite (a : BitVec 24) (parts : List (BitVec 4 × Word)) (fuse : Option FuseLeft) (s : State) :
    Host.Outcome State Fault Refusal :=
  .next (writeParts .pcie { fuse := fuse, linear := 0 } (4 * a.toNat) parts s)

/-- BIT_ALIAS_WRITE (R49): bit `bit` of the core-region word `word`. -/
def execBitAliasWrite (word : BitVec 12) (bit : Fin 32) (v : Bool) (s : State) : Host.Outcome State Fault Refusal :=
  .next (writePart .pcie (0x2000000 + (4 * word.toNat * 32 + bit.val) * 4) 15 (if v then 1 else 0) WriteSide.none s)

/-- A host write of one whole word. -/
def hostWrite (a : Nat) (v : Word) (s : State) : State := writePart .pcie a 15 v WriteSide.none s

/-- The commit register of a double-buffered block (R465). -/
def commitReg : BankBlock → Nat
  | .port n => portAddr n.val P.BANK_CTRL
  | .jug => JUG.BANK_CTRL
  | .ss => SS.BANK_CTRL
  | .trip => TRIP.BANK_CTRL
  | .cal => CAL.BANK_CTRL
  | .bist => BIST.BANK_CTRL
  | .perf => PERF.BANK
  | .wheel => WHEEL.BANK_CTRL

/-- BANK_COMMIT (R33): 1 written to a block's BANK_CTRL.commit. -/
def execBankCommit (b : BankBlock) (s : State) : Host.Outcome State Fault Refusal := .next (hostWrite (commitReg b) 1 s)

/-- CLAMP_POP (R39): 1 written to CHIP.CLAMP_CTRL.pop. -/
def execClampPop (s : State) : Host.Outcome State Fault Refusal := .next (hostWrite CHIP.CLAMP_CTRL 1 s)

/-- COEF_SEL_WRITE (R467). -/
def execCoefSelWrite (n : Fin 32) (w : Word) (s : State) : Host.Outcome State Fault Refusal :=
  .next (hostWrite (portAddr n P.COEF_SEL) w s)

/-- RTC_SET_WRITE (R427): the high word of RTC_SET_SEC, which takes effect at its tick. -/
def execRtcSetWrite (w : Word) (s : State) : Host.Outcome State Fault Refusal :=
  .next (hostWrite (PWR.RTC_SET_SEC + 4) w s)

/-! ### Reads -/

/-- A read through the data SRAM window: the bytes of a marked word return 0xFF (R333). -/
def State.windowRead (s : State) (a : Nat) (be : BitVec 4) : Word :=
  let m := a % 0x1000000
  (if s.isMarked m then 0xFFFFFFFF else s.wordAt m) &&& BitVec.ofNat 32 (byteMask be)

/-- A read of an alias: the bit alone, in byte 0; an RC bit returned clears (R42, R49). -/
def aliasRead (a : Nat) (be : BitVec 4) (s : State) : Word × State :=
  match aliasTarget a with
  | none => (0, s)
  | some (t, bit, f) =>
    let m := BitVec.ofNat 32 (2 ^ bit)
    (if be.getLsbD 0 && bitOf (s.view t) bit then 1 else 0, if be.getLsbD 0 && f.access == .rc then clearRead t m s else s)

/-- One 32-bit part of a host read that meets no bus error. With byte enables 0 the data is a free value (R45). -/
def readPart (a : Nat) (be : BitVec 4) (s : State) : Word × State :=
  if be = 0 then s.draw
  else if inWindow a then (s.windowRead a be, s)
  else
    let r := if inAlias a then aliasRead a be s else readReg 0 a be false true s
    (r.1, perfCount 4 0x06 r.2)

/-- The parts of a host read in ascending address order, each with its completion data. -/
def readParts : (a : Nat) → List (BitVec 4) → State → State
  | _, [], s => s
  | a, be :: t, s =>
    let r := readPart a be s
    readParts (a + 4) t (r.2.emit (.readData a r.1))

/-- An aligned 64-bit read of a counter pair (R44): one completed access, both words from the same cycle, the latches aside. -/
def readWide (a : Nat) (s : State) : State :=
  let lo := readReg 0 a 15 true true s
  let hi := readReg 0 (a + 4) 15 true true lo.2
  ((perfCount 4 0x06 hi.2).emit (.readData a lo.1)).emit (.readData (a + 4) hi.1)

/-- The first part of a read that meets a bus error, with its cause. -/
def State.readError (s : State) : (a : Nat) → List (BitVec 4) → Option (Nat × BusCause)
  | _, [] => none
  | a, be :: t =>
    match s.accessError a be true with
    | some c => some (a, c)
    | none => s.readError (a + 4) t

/-- An aligned 64-bit read of a counter pair (R44). -/
def isWide (a : Nat) (parts : List (BitVec 4)) : Bool := a % 8 == 0 && pairLow a && parts == [15, 15]

/-- A host read over PCIe (R42, R44, R47): where any part meets a bus error the whole read is a Completer Abort and clears
nothing. -/
def hostRead (a : Nat) (parts : List (BitVec 4)) (s : State) : State :=
  match s.gate a true with
  | .silent => s
  | .asleep => accessInSleep a true false s
  | _ =>
    match s.readError a parts with
    | some (e, c) => (busError c e s).emit (.completerAbort a)
    | none => if isWide a parts then readWide a s else readParts a parts s

/-- RC_READ (R42): a host read over PCIe of the parts given, each with its byte enables. -/
def execRcRead (a : BitVec 24) (parts : List (BitVec 4)) (s : State) : Host.Outcome State Fault Refusal :=
  .next (hostRead (4 * a.toNat) parts s)

/-- COUNTER_LOW_READ (R44): a 32-bit read at a word offset. -/
def execCounterLowRead (a : BitVec 24) (s : State) : Host.Outcome State Fault Refusal := .next (hostRead (4 * a.toNat) [15] s)

end Sys2Proof.Machine
end

