-- ==== Sys2Proof/Machine/Operands.lean ====
section
/-! DEFINITION. Operands of Nelno instructions (spec/14_sequencer_isa.md, R290, R293, R294, R300): registers, immediates, data
addresses and what they reach, control registers. -/

namespace Sys2Proof.Machine

/-! ### Registers and predicates (R290) -/

/-- A general register; g0 reads 0. -/
def Ctx.reg (x : Ctx) (r : Fin 32) : Word := if r.val = 0 then 0 else sget (fun _ => 0) x.regs r.val

/-- Write a general register; a write to g0 is discarded. -/
def Ctx.setReg (x : Ctx) (r : Fin 32) (v : Word) : Ctx :=
  if r.val = 0 then x else { x with regs := sput (fun _ => 0) x.regs r.val v }

/-- A predicate flag; p0 reads 1. -/
def Ctx.predFlag (x : Ctx) (p : Fin 8) : Bool := p.val == 0 || x.preds.getLsbD p.val

/-- Write a predicate flag; a write to p0 is discarded. -/
def Ctx.setPred (x : Ctx) (p : Fin 8) (v : Bool) : Ctx :=
  if p.val = 0 then x
  else
    let bit := BitVec.ofNat 8 (2 ^ p.val)
    { x with preds := if v then x.preds ||| bit else x.preds &&& ~~~bit }

/-- The predicates as PRED and ESTAT hold them: bit 0 is 1. -/
def predWord (v : BitVec 8) : BitVec 8 := v ||| 1

/-! ### Immediates (R300) -/

/-- imm12, sign-extended. -/
def signed12 (v : BitVec 12) : Word := v.signExtend 32

/-- imm12, zero-extended. -/
def unsigned12 (v : BitVec 12) : Word := v.zeroExtend 32

/-- The byte distance of a branch: off22, signed, in instructions. -/
def branchOffset (v : BitVec 22) : Word := v.signExtend 32 <<< 2

/-- The second operand of an immediate operation. -/
def ImmOp.operand (op : ImmOp) (v : BitVec 12) : Word :=
  match op with
  | .addi => signed12 v
  | .andi => unsigned12 v
  | .ori => unsigned12 v
  | .xori => unsigned12 v

/-! ### Data addresses (R293, R294) -/

/-- The data address of a load or store. -/
def Ctx.address (x : Ctx) (rs1 : Fin 32) (off : BitVec 12) : Nat := (x.reg rs1 + signed12 off).toNat

/-- Bytes a load moves. -/
def LoadOp.size : LoadOp → Nat
  | .ldw => 4 | .ldh => 2 | .ldhu => 2 | .ldb => 1 | .ldbu => 1

/-- Bytes a store moves. -/
def StoreOp.size : StoreOp → Nat
  | .stw => 4 | .sth => 2 | .stb => 1

/-- Widen what a load has read. -/
def LoadOp.widen (op : LoadOp) (v : Nat) : Word :=
  match op with
  | .ldw => BitVec.ofNat 32 v
  | .ldh => (BitVec.ofNat 16 v).signExtend 32
  | .ldhu => BitVec.ofNat 32 (v % 2 ^ 16)
  | .ldb => (BitVec.ofNat 8 v).signExtend 32
  | .ldbu => BitVec.ofNat 32 (v % 2 ^ 8)

/-- What a data address reaches. -/
inductive Target where
  /-- Data SRAM, at a byte address. -/
  | sram (a : Nat)
  /-- A register, at its BAR0 offset. -/
  | reg (a : Nat)
  /-- Nothing the access may reach: ADDR. -/
  | bad
deriving DecidableEq, Repr

/-- A byte range lies in the data range of the task's program image. -/
def State.inDataRange (s : State) (k a n : Nat) : Bool :=
  match s.taskRec k with
  | some r => decide (r.dataBase ≤ a) && decide (a + n ≤ r.dataBase + r.dataLen)
  | none => false

/-- What task `k` reaches with an access of `n` bytes (R293, R407): a user task its own data range, and for loads the PERF block while
user_read is 1. -/
def State.target (s : State) (k a n : Nat) (isStore : Bool) : Target :=
  let user := (s.ctx k).user
  if inSram a n then (if !user || s.inDataRange k a n then .sram a else .bad)
  else if 0x40000000 ≤ a && a < 0x40D00000 && n = 4 then
    match homeOf (a % 0x40000000) with
    | none => .bad
    | some h =>
      let perf := match h with
        | .reg .perf _ _ => true
        | .activeCopy .perf _ _ => true
        | _ => false
      if !user || (!isStore && perf && s.actFlag PERF.CTRL.user_read) then .reg (a % 0x40000000) else .bad
  else .bad

/-! ### Control registers (R291) -/

/-- The control registers. -/
inductive Csr where
  | cycle | cycleh | slot | rev | self | pred | epc | ecode | estat | evec
deriving DecidableEq, Repr

/-- The register of a CSR number, none where it is not listed. -/
def csrOf (n : BitVec 12) : Option Csr :=
  match n.toNat with
  | 0x000 => some .cycle
  | 0x001 => some .cycleh
  | 0x002 => some .slot
  | 0x003 => some .rev
  | 0x004 => some .self
  | 0x005 => some .pred
  | 0x010 => some .epc
  | 0x011 => some .ecode
  | 0x012 => some .estat
  | 0x013 => some .evec
  | _ => none

/-- The value of a control register for task `k`. -/
def State.csr (s : State) (k : Nat) (c : Csr) : Word :=
  let x := s.ctx k
  match c with
  | .cycle => BitVec.ofNat 32 s.perf.cycle.toNat
  | .cycleh => x.cycleh
  | .slot => BitVec.ofNat 32 s.clk.slot
  | .rev => BitVec.ofNat 32 s.clk.rev.toNat
  | .self => BitVec.ofNat 32 k
  | .pred => (predWord x.preds).zeroExtend 32
  | .epc => x.epc
  | .ecode => x.ecode
  | .estat => x.estat
  | .evec => x.evec

/-- CSRW takes the register at a level: none where it raises PRIV. -/
def Ctx.csrWrite (x : Ctx) (c : Csr) (v : Word) : Option Ctx :=
  match c with
  | .pred => some { x with preds := predWord (v.truncate 8) }
  | .epc => if x.user then none else some { x with epc := v }
  | .estat => if x.user then none else some { x with estat := v &&& 0x1FF }
  | .evec => if x.user then none else some { x with evec := v }
  | .cycle => none
  | .cycleh => none
  | .slot => none
  | .rev => none
  | .self => none
  | .ecode => none

end Sys2Proof.Machine
end

