-- ==== Sys2Proof/Machine/Sequencer.lean ====
section
/-! DEFINITION. A sequencer core issues an instruction: fetch, decode, guard, completion, exceptions (spec/14_sequencer_isa.md, R290
to R299, R310, R311). -/

namespace Sys2Proof.Machine

/-- The task that issues, and what it fetched. -/
structure Turn where
  /-- 64 * core + task. -/
  key : Nat
  pc : Nat
  word : Word
  user : Bool
  /-- The instruction goes on after a wait: it has been counted. -/
  again : Bool
  latency : BitVec 16
deriving DecidableEq, Repr

/-- The core of a turn. -/
def Turn.core (t : Turn) : Nat := t.key / 64

/-- The instruction word at a byte address of a core's instruction memory (R292). -/
def State.fetchAt (s : State) (core pc : Nat) : Word := sget (fun _ => 0) s.seq.imem (2 ^ 15 * core + pc / 4)

/-- A fetch raises FETCH: outside instruction memory, or for a user task outside the range its program image assigns (R292). -/
def State.fetchBad (s : State) (k pc : Nat) : Bool :=
  decide (0x20000 ≤ pc) ||
    ((s.ctx k).user && (match s.taskRec k with
      | some r => !(decide (r.imemBase ≤ pc) && decide (pc < r.imemBase + r.imemLen))
      | none => true))

/-- The turn of a core: none where it is gated, or its task is in quarantine or has given up the core (R296, R306, R311). -/
def State.turn (s : State) (c : Nat) (latency : BitVec 16) : Option Turn :=
  match s.coreTask c with
  | none => none
  | some k =>
    let x := s.ctx k
    if x.quarantined || x.wait = 2 then none
    else some { key := k, pc := x.pc.toNat, word := s.fetchAt c x.pc.toNat, user := x.user, again := decide (x.wait ≠ 0),
                latency := latency }

/-- A completed instruction as the sampler sees it (R405). -/
def Turn.sample (t : Turn) (exc gfalse : Bool) (s : State) : Sample :=
  { word := t.word, exc := exc, gfalse := gfalse, user := t.user, core := t.core, task := t.key % 64, pc := t.pc, slot := s.clk.slot,
    latency := if exc then 0 else t.latency.toNat, rev := s.clk.rev.toNat }

/-- The instruction raises an exception and the task is quarantined (R310, R311). -/
def trap (t : Turn) (cause : Nat) (val : Word) (s : State) : State :=
  takeException t.key cause t.pc val (sampleInstr (t.sample true false s) s)

/-- Count an issue, with its guard (R398). -/
def countIssue (t : Turn) (guard : Bool) (s : State) : State :=
  if t.again then s else perfCount t.core (if guard then 2 else 3) (perfCount t.core 1 s)

/-- The instruction completes: the context it leaves, with the next pc. -/
def retire (t : Turn) (next : Word) (f : Ctx → Ctx) (s : State) : State :=
  let s := sampleInstr (t.sample false false s) s
  refreshCore t.core (s.modCtx t.key (fun x => { f x with pc := next, wait := 0 }))

/-- The address of the instruction after this one. -/
def Turn.next (t : Turn) : Word := BitVec.ofNat 32 (t.pc + 4)

/-- The instruction completes and the next one follows. -/
def done (t : Turn) (f : Ctx → Ctx) (s : State) : State := retire t t.next f s

/-- An instruction whose guard is false: it passes (R299). -/
def skipped (t : Turn) (s : State) : State :=
  let s := sampleInstr (t.sample false true s) (countIssue t false s)
  refreshCore t.core (s.modCtx t.key (fun x => { x with pc := t.next, wait := 0 }))

/-- The guard of a word holds (R298, R299). -/
def Guarded.holds (g : Guarded) (x : Ctx) : Bool := x.predFlag g.pred != g.neg

/-- Core `c` issues instruction `i`: FETCH and ILLEGAL are raised as they are met; a command that names another instruction than
the one at the pc has no effect; else the guard decides. -/
def issue (x : Issue) (i : Nelno) (body : Turn → State → State) (s : State) : State :=
  match s.turn x.core.val x.latency with
  | none => s
  | some t =>
    if s.fetchBad t.key t.pc then trap t exFetch (BitVec.ofNat 32 t.pc) s
    else match decodeNelno t.word with
      | none => trap t exIllegal t.word s
      | some g =>
        if g.instr ≠ i then s
        else if g.holds (s.ctx t.key) then body t (countIssue t true s)
        else skipped t s

/-- A supervisor instruction at user level raises PRIV (R301). -/
def supervisor (body : Turn → State → State) (t : Turn) (s : State) : State :=
  if t.user then trap t exPriv t.word s else body t s

end Sys2Proof.Machine
end

