-- ==== Sys2Proof/Machine/Arithmetic.lean ====
section
/-! DEFINITION. Nelno arithmetic, moves, comparisons and predicate operations (spec/14_sequencer_isa.md, R300, R301). -/

namespace Sys2Proof.Machine

/-- A register-register operation. -/
def runAlu (op : AluOp) (rd rs1 rs2 : Fin 32) (t : Turn) (s : State) : State :=
  done t (fun x => x.setReg rd (op.run (x.reg rs1) (x.reg rs2))) s

/-- A multiplication or division. -/
def runMul (op : MulOp) (rd rs1 rs2 : Fin 32) (t : Turn) (s : State) : State :=
  done t (fun x => x.setReg rd (op.run (x.reg rs1) (x.reg rs2))) s

/-- An immediate operation. -/
def runImm (op : ImmOp) (rd rs1 : Fin 32) (v : BitVec 12) (t : Turn) (s : State) : State :=
  done t (fun x => x.setReg rd (op.run (x.reg rs1) (op.operand v))) s

/-- An immediate shift. -/
def runShift (op : ShiftOp) (rd rs1 sh : Fin 32) (t : Turn) (s : State) : State :=
  done t (fun x => x.setReg rd (op.run (x.reg rs1) sh.val)) s

/-- A predicate operation. -/
def runPred (op : PredOp) (pd ps1 ps2 : Fin 8) (t : Turn) (s : State) : State :=
  done t (fun x => x.setPred pd (op.run (x.predFlag ps1) (x.predFlag ps2))) s

/-- ADD (R301). -/
def execAdd (i : Issue) (rd rs1 rs2 : Fin 32) (s : State) : Host.Outcome State Fault Refusal :=
  .next (issue i (.alu .add rd rs1 rs2) (runAlu .add rd rs1 rs2) s)

/-- SUB (R301). -/
def execSub (i : Issue) (rd rs1 rs2 : Fin 32) (s : State) : Host.Outcome State Fault Refusal :=
  .next (issue i (.alu .sub rd rs1 rs2) (runAlu .sub rd rs1 rs2) s)

/-- AND (R301). -/
def execAnd (i : Issue) (rd rs1 rs2 : Fin 32) (s : State) : Host.Outcome State Fault Refusal :=
  .next (issue i (.alu .and rd rs1 rs2) (runAlu .and rd rs1 rs2) s)

/-- OR (R301). -/
def execOr (i : Issue) (rd rs1 rs2 : Fin 32) (s : State) : Host.Outcome State Fault Refusal :=
  .next (issue i (.alu .or rd rs1 rs2) (runAlu .or rd rs1 rs2) s)

/-- XOR (R301). -/
def execXor (i : Issue) (rd rs1 rs2 : Fin 32) (s : State) : Host.Outcome State Fault Refusal :=
  .next (issue i (.alu .xor rd rs1 rs2) (runAlu .xor rd rs1 rs2) s)

/-- SLL (R301). -/
def execSll (i : Issue) (rd rs1 rs2 : Fin 32) (s : State) : Host.Outcome State Fault Refusal :=
  .next (issue i (.alu .sll rd rs1 rs2) (runAlu .sll rd rs1 rs2) s)

/-- SRL (R301). -/
def execSrl (i : Issue) (rd rs1 rs2 : Fin 32) (s : State) : Host.Outcome State Fault Refusal :=
  .next (issue i (.alu .srl rd rs1 rs2) (runAlu .srl rd rs1 rs2) s)

/-- SRA (R301). -/
def execSra (i : Issue) (rd rs1 rs2 : Fin 32) (s : State) : Host.Outcome State Fault Refusal :=
  .next (issue i (.alu .sra rd rs1 rs2) (runAlu .sra rd rs1 rs2) s)

/-- SLT (R301). -/
def execSlt (i : Issue) (rd rs1 rs2 : Fin 32) (s : State) : Host.Outcome State Fault Refusal :=
  .next (issue i (.alu .slt rd rs1 rs2) (runAlu .slt rd rs1 rs2) s)

/-- SLTU (R301). -/
def execSltu (i : Issue) (rd rs1 rs2 : Fin 32) (s : State) : Host.Outcome State Fault Refusal :=
  .next (issue i (.alu .sltu rd rs1 rs2) (runAlu .sltu rd rs1 rs2) s)

/-- MIN (R301). -/
def execMin (i : Issue) (rd rs1 rs2 : Fin 32) (s : State) : Host.Outcome State Fault Refusal :=
  .next (issue i (.alu .min rd rs1 rs2) (runAlu .min rd rs1 rs2) s)

/-- MAX (R301). -/
def execMax (i : Issue) (rd rs1 rs2 : Fin 32) (s : State) : Host.Outcome State Fault Refusal :=
  .next (issue i (.alu .max rd rs1 rs2) (runAlu .max rd rs1 rs2) s)

/-- MUL (R301). -/
def execMul (i : Issue) (rd rs1 rs2 : Fin 32) (s : State) : Host.Outcome State Fault Refusal :=
  .next (issue i (.mul .mul rd rs1 rs2) (runMul .mul rd rs1 rs2) s)

/-- MULH (R301). -/
def execMulh (i : Issue) (rd rs1 rs2 : Fin 32) (s : State) : Host.Outcome State Fault Refusal :=
  .next (issue i (.mul .mulh rd rs1 rs2) (runMul .mulh rd rs1 rs2) s)

/-- MULHU (R301). -/
def execMulhu (i : Issue) (rd rs1 rs2 : Fin 32) (s : State) : Host.Outcome State Fault Refusal :=
  .next (issue i (.mul .mulhu rd rs1 rs2) (runMul .mulhu rd rs1 rs2) s)

/-- DIV (R301). -/
def execDiv (i : Issue) (rd rs1 rs2 : Fin 32) (s : State) : Host.Outcome State Fault Refusal :=
  .next (issue i (.mul .div rd rs1 rs2) (runMul .div rd rs1 rs2) s)

/-- DIVU (R301). -/
def execDivu (i : Issue) (rd rs1 rs2 : Fin 32) (s : State) : Host.Outcome State Fault Refusal :=
  .next (issue i (.mul .divu rd rs1 rs2) (runMul .divu rd rs1 rs2) s)

/-- REM (R301). -/
def execRem (i : Issue) (rd rs1 rs2 : Fin 32) (s : State) : Host.Outcome State Fault Refusal :=
  .next (issue i (.mul .rem rd rs1 rs2) (runMul .rem rd rs1 rs2) s)

/-- REMU (R301). -/
def execRemu (i : Issue) (rd rs1 rs2 : Fin 32) (s : State) : Host.Outcome State Fault Refusal :=
  .next (issue i (.mul .remu rd rs1 rs2) (runMul .remu rd rs1 rs2) s)

/-- ADDI (R300). -/
def execAddi (i : Issue) (rd rs1 : Fin 32) (v : BitVec 12) (s : State) : Host.Outcome State Fault Refusal :=
  .next (issue i (.imm .addi rd rs1 v) (runImm .addi rd rs1 v) s)

/-- ANDI (R300). -/
def execAndi (i : Issue) (rd rs1 : Fin 32) (v : BitVec 12) (s : State) : Host.Outcome State Fault Refusal :=
  .next (issue i (.imm .andi rd rs1 v) (runImm .andi rd rs1 v) s)

/-- ORI (R300). -/
def execOri (i : Issue) (rd rs1 : Fin 32) (v : BitVec 12) (s : State) : Host.Outcome State Fault Refusal :=
  .next (issue i (.imm .ori rd rs1 v) (runImm .ori rd rs1 v) s)

/-- XORI (R300). -/
def execXori (i : Issue) (rd rs1 : Fin 32) (v : BitVec 12) (s : State) : Host.Outcome State Fault Refusal :=
  .next (issue i (.imm .xori rd rs1 v) (runImm .xori rd rs1 v) s)

/-- SLLI (R300). -/
def execSlli (i : Issue) (rd rs1 sh : Fin 32) (s : State) : Host.Outcome State Fault Refusal :=
  .next (issue i (.shift .slli rd rs1 sh) (runShift .slli rd rs1 sh) s)

/-- SRLI (R300). -/
def execSrli (i : Issue) (rd rs1 sh : Fin 32) (s : State) : Host.Outcome State Fault Refusal :=
  .next (issue i (.shift .srli rd rs1 sh) (runShift .srli rd rs1 sh) s)

/-- SRAI (R300). -/
def execSrai (i : Issue) (rd rs1 sh : Fin 32) (s : State) : Host.Outcome State Fault Refusal :=
  .next (issue i (.shift .srai rd rs1 sh) (runShift .srai rd rs1 sh) s)

/-- MOVL (R300). -/
def execMovl (i : Issue) (rd : Fin 32) (v : BitVec 16) (s : State) : Host.Outcome State Fault Refusal :=
  .next (issue i (.movl rd v) (fun t => done t (fun x => x.setReg rd (v.zeroExtend 32))) s)

/-- MOVH (R300). -/
def execMovh (i : Issue) (rd : Fin 32) (v : BitVec 16) (s : State) : Host.Outcome State Fault Refusal :=
  .next (issue i (.movh rd v) (fun t => done t (fun x => x.setReg rd (moveHigh (x.reg rd) v))) s)

/-- The comparison a command names. -/
def condOfCmp : Cmp → Cond
  | .eq => .eq
  | .lt => .lt
  | .ltu => .ltu

/-- CMP (R300). -/
def execCmp (i : Issue) (pd : Fin 8) (cond : Cmp) (rs1 rs2 : Fin 32) (s : State) : Host.Outcome State Fault Refusal :=
  .next (issue i (.cmp pd (condOfCmp cond) rs1 rs2) (fun t => done t (fun x => x.setPred pd ((condOfCmp cond).run (x.reg rs1) (x.reg rs2)))) s)

/-- CMPI (R300). -/
def execCmpi (i : Issue) (pd : Fin 8) (cond : Cmp) (rs1 : Fin 32) (v : BitVec 12) (s : State) : Host.Outcome State Fault Refusal :=
  .next (issue i (.cmpi pd (condOfCmp cond) rs1 v) (fun t => done t (fun x => x.setPred pd ((condOfCmp cond).run (x.reg rs1) (signed12 v)))) s)

/-- PAND (R301). -/
def execPand (i : Issue) (pd ps1 ps2 : Fin 8) (s : State) : Host.Outcome State Fault Refusal :=
  .next (issue i (.pred .pand pd ps1 ps2) (runPred .pand pd ps1 ps2) s)

/-- POR (R301). -/
def execPor (i : Issue) (pd ps1 ps2 : Fin 8) (s : State) : Host.Outcome State Fault Refusal :=
  .next (issue i (.pred .por pd ps1 ps2) (runPred .por pd ps1 ps2) s)

/-- PXOR (R301). -/
def execPxor (i : Issue) (pd ps1 ps2 : Fin 8) (s : State) : Host.Outcome State Fault Refusal :=
  .next (issue i (.pred .pxor pd ps1 ps2) (runPred .pxor pd ps1 ps2) s)

/-- PANDN (R301). -/
def execPandn (i : Issue) (pd ps1 ps2 : Fin 8) (s : State) : Host.Outcome State Fault Refusal :=
  .next (issue i (.pred .pandn pd ps1 ps2) (runPred .pandn pd ps1 ps2) s)

end Sys2Proof.Machine
end

