-- ==== Sys2Proof/Machine/Commit.lean ====
section
/-! DEFINITION. What the entries of an accepted manifest do at the revolution boundary that commits them (R362, R363, R366). -/

namespace Sys2Proof.Machine

/-- M6 takes the operator key table, and an AUDIT record tells of the change (R368, R374). -/
def opKeysChanged (slot detail : Nat) (s : State) : State :=
  audit 9 0 slot detail
    (extendMeas 6 (sha (Config.opKeyTable (s.trust.opKeys.map (fun e => (e.1, e.2.permitted, e.2.key))))) s)

/-- Install an operator key, or remove it. -/
def setOpKey (slot : Nat) (k : Option OpKey) (s : State) : State :=
  s.modTrust (fun t =>
    let rest := serase t.opKeys slot
    { t with opKeys := match k with
      | some k => sinsert rest slot k
      | none => rest })

/-- A REG entry is written as a host write would be; Sealed operation does not refuse it (R53, R362). -/
def regEntry (a : Nat) (v : Word) (s : State) : State := writeReg .manifest a v { fuse := none, linear := 0 } s

/-- A route entry of source 1 (R205, R207). -/
def routeEntry (node port metric hop : Nat) (s : State) : State :=
  match s.needPeer node with
  | some (i, c) => s.setPeer i { c with route := some { manifest := true, port := port, metric := metric, hop := hop } }
  | none => s

/-- A route of source 1 is removed. -/
def routeDelEntry (node : Nat) (s : State) : State :=
  modPeer node (fun c => if c.manifestRoute then { c with route := none } else c) s

/-- OP_KEY (R362). -/
def opKeyEntry (slot : Nat) (permitted : BitVec 16) (key : List Byte) (s : State) : State :=
  opKeysChanged slot 3 (setOpKey slot (some { permitted := permitted, key := key }) s)

/-- OP_KEY_DEL (R362). -/
def opKeyDelEntry (slot : Nat) (s : State) : State := opKeysChanged slot 4 (setOpKey slot none s)

/-- The anti-rollback counter has advanced: M5, AUDIT record, event 212 (R353, R368). -/
def svnEntry (v : Nat) (s : State) : State := tstEvent 4 (audit 10 0 0 v (measureStatus (refreshTrust s)))

/-- The device is sealed: TST.STATUS.sealed, M5, AUDIT record, event 210 (R366). -/
def sealEntry (s : State) : State := tstEvent 2 (audit 8 0 0 0 (measureStatus (refreshTrust s)))

/-- One entry at the boundary; an OTP entry has been programmed before it. -/
def applyEntry (s : State) (e : Entry) : State :=
  match e with
  | .reg a v => regEntry a v s
  | .route node port metric hop => routeEntry node port metric hop s
  | .routeDel node => routeDelEntry node s
  | .opKey k permitted key => opKeyEntry k permitted key s
  | .opKeyDel k => opKeyDelEntry k s
  | .ownerEnrol k _ => ownerChanged k 1 s
  | .ownerRevoke k => ownerChanged k 2 s
  | .svnCommit v => svnEntry v s
  | .sealDevice => sealEntry s

/-- The double-buffered block a REG entry changes, whose bank the manifest commits. -/
def Entry.block (e : Entry) : Option Block :=
  match e with
  | .reg a _ => match homeOf a with
    | some (.reg b _ r) => if r.hasRW && b.doubleBuffered then some b else none
    | some (.activeCopy _ _ _) => none
    | none => none
  | _ => none

/-- Every entry of a manifest, then the commit of every bank they touched (R363 step 7). -/
def commitEntries (l : List Entry) (s : State) : State :=
  (l.filterMap Entry.block).foldl (fun s b => s.setPending b true) (l.foldl applyEntry s)

/-- The staged manifests take effect in the order they were accepted. -/
def commitStaged (s : State) : State :=
  let l := s.trust.staged
  l.foldl (fun s (m : Staged) => commitEntries m.entries s) (s.modTrust (fun t => { t with staged := [] }))

/-- A manifest entry by itself, as the rows of the table name them: checked as the only entry of a manifest that owner slot `signer`
has signed, programmed where it is of an OTP type, and applied. -/
def oneEntry (signer : Nat) (e : Entry) (s : State) : State :=
  if (s.entryFault 1 signer [] e).isSome || !s.started then s else commitEntries [e] (burnEntry e none s)

/-- MANIFEST_REG (R362 type 1). -/
def execManifestReg (a : BitVec 26) (v : Word) (s : State) : Host.Outcome State Fault Refusal :=
  .next (oneEntry 4 (.reg a.toNat v) s)

/-- MANIFEST_ROUTE (R362 type 2). -/
def execManifestRoute (node : BitVec 18) (port : Fin 32) (metric : Fin 65) (hop : BitVec 18) (s : State) :
    Host.Outcome State Fault Refusal := .next (oneEntry 4 (.route node.toNat port metric hop.toNat) s)

/-- MANIFEST_ROUTE_DEL (R362 type 3). -/
def execManifestRouteDel (node : BitVec 18) (s : State) : Host.Outcome State Fault Refusal :=
  .next (oneEntry 4 (.routeDel node.toNat) s)

/-- OP_KEY (R362 type 4). -/
def execOpKey (slot : Fin 16) (permitted : BitVec 16) (key : List Byte) (s : State) : Host.Outcome State Fault Refusal :=
  .next (oneEntry 4 (.opKey slot permitted key) s)

/-- OP_KEY_DEL (R362 type 5). -/
def execOpKeyDel (slot : Fin 16) (s : State) : Host.Outcome State Fault Refusal := .next (oneEntry 4 (.opKeyDel slot) s)

/-- OWNER_ENROL (R362 type 6). -/
def execOwnerEnrol (slot : Fin 4) (hash : BitVec 512) (s : State) : Host.Outcome State Fault Refusal :=
  .next (oneEntry 4 (.ownerEnrol slot hash) s)

/-- OWNER_REVOKE (R362 type 7), by a manifest signed with slot `signer`. -/
def execOwnerRevoke (slot signer : Fin 4) (s : State) : Host.Outcome State Fault Refusal :=
  .next (oneEntry signer (.ownerRevoke slot) s)

/-- SVN_COMMIT (R362 type 8). -/
def execSvnCommit (v : BitVec 8) (s : State) : Host.Outcome State Fault Refusal := .next (oneEntry 4 (.svnCommit v.toNat) s)

/-- SEAL (R362 type 9, R366). -/
def execSeal (s : State) : Host.Outcome State Fault Refusal := .next (oneEntry 4 .sealDevice s)

end Sys2Proof.Machine
end

