-- ==== Sys2Proof/Machine/JobIssue.lean ====
section
/-! DEFINITION. Nelno instructions that issue jobs and wait for them (spec/14_sequencer_isa.md, R303 to R305, R307, R309;
spec/16_memory_dma.md, R337), and the snapshot a SNAP job takes at a slot boundary. -/

namespace Sys2Proof.Machine

/-! ### Issuing (R303, R304) -/

/-- The detach bit of rs2. -/
def detachBit (w : Word) : Bool := bitOf w 31

/-- The issue completes with a handle in rd. -/
def issued (rd : Fin 32) (h : Word) (t : Turn) (s : State) : State := done t (fun x => x.setReg rd h) (perfCount t.core 9 s)

/-- An issue that is refused: rd is 0, counted (R303). -/
def issueRefused (rd : Fin 32) (t : Turn) (s : State) : State :=
  done t (fun x => x.setReg rd 0) (perfCount t.core 0x0A (jobRefused s))

/-- Queue an operation on a unit. -/
def queueJob (kind : JobKind) (rd rs2 : Fin 32) (t : Turn) (s : State) : State :=
  if s.tableOpen then
    let j := placeJob t.core (t.key % 64) kind (detachBit ((s.ctx t.key).reg rs2)) s
    issued rd j.2.1 t j.2.2
  else issueRefused rd t s

/-- EJOB (R304). -/
def runEjob (rd rs1 rs2 : Fin 32) (t : Turn) (s : State) : State :=
  let x := s.ctx t.key
  queueJob (.engine ((x.reg rs2).toNat % 2 ^ 31) (x.reg rs1).toNat) rd rs2 t s

/-- HASH (R304). -/
def runHash (rd rs1 rs2 : Fin 32) (t : Turn) (s : State) : State :=
  queueJob (.hash ((s.ctx t.key).reg rs1).toNat) rd rs2 t s

/-- SNAP (R304, R309). -/
def runSnap (rd rs1 rs2 : Fin 32) (t : Turn) (s : State) : State :=
  queueJob (.snap ((s.ctx t.key).reg rs1).toNat) rd rs2 t s

/-- LATT operations 1, 3 and 4 are for the supervisor (R307). -/
def lattSupervisor (op : Nat) : Bool := op == 1 || op == 3 || op == 4

/-- LATT (R304, R307). -/
def runLatt (rd rs1 rs2 : Fin 32) (t : Turn) (s : State) : State :=
  let x := s.ctx t.key
  let op := (x.reg rs2).toNat % 8
  if t.user && lattSupervisor op then trap t exPriv t.word s
  else queueJob (.lattice op (x.reg rs1).toNat) rd rs2 t s

/-- The operation a core's LATT names. -/
def State.lattOp (s : State) (c : Nat) (rs2 : Fin 32) : Nat :=
  match s.coreTask c with
  | some k => ((s.ctx k).reg rs2).toNat % 8
  | none => 0

/-- LATT as the row of one operation, or of several, names it: an operation of another row has no effect here. -/
def lattRow (mine : Bool) (i : Issue) (rd rs1 rs2 : Fin 32) (s : State) : State :=
  if mine then issue i (.issue .latt rd rs1 rs2) (runLatt rd rs1 rs2) s else s

/-- A DMA job that ends at once with FAULT: its kind is recorded in the descriptor, where it stands in data SRAM (R337). -/
def dmaFault (ring a kind : Nat) (rd rs2 : Fin 32) (t : Turn) (s : State) : State :=
  let j := placeJob t.core (t.key % 64) (.dma ring 0 false) (detachBit ((s.ctx t.key).reg rs2)) s
  let s := if a % 4 = 0 && inSram a 32 then writeWord (a + 20) (BitVec.ofNat 32 (2 ^ 31 + 16 * kind + stFault)) j.2.2 else j.2.2
  issued rd j.2.1 t (endJob j.1 stFault s)

/-- A full share refuses a DMAQ (R337). -/
def shareRefused (ring : Nat) (s : State) : State :=
  let s := s.addSat (DMA.RING_STATUS.refused.nth ring) 1
  plainEvent 226 (s.word (DMA.RING_STATUS + 64 * ring)) s

/-- DMAQ (R304, R337). -/
def runDmaq (rd rs1 rs2 : Fin 32) (t : Turn) (s : State) : State :=
  let x := s.ctx t.key
  let a := (x.reg rs1).toNat
  let ring := (x.reg rs2).toNat % 64
  if !s.ringOn ring || s.hostRing ring then dmaFault ring a dkPoster rd rs2 t s
  else if a % 32 ≠ 0 || !inSram a 32 then dmaFault ring a dkDesc rd rs2 t s
  else if s.shareFull ring then issueRefused rd t (shareRefused ring s)
  else
    let kind : JobKind := .dma ring (s.ring ring).posted (bitOf (x.reg rs2) 8)
    let j := placeJob t.core (t.key % 64) kind (detachBit (x.reg rs2)) s
    issued rd j.2.1 t (pushDesc ring (.sram a) (.job j.1) j.2.2)

/-! ### Waiting (R305) -/

/-- A waiting DMA job with tf 1 whose ring has stopped on a fault. -/
def State.trapsOn (s : State) (j : Job) : Bool :=
  match j.kind with
  | .dma r _ tf => tf && s.ringState r == rsStopped
  | .engine _ _ => false
  | .hash _ => false
  | .lattice _ _ => false
  | .snap _ => false

/-- What JWAIT and JPOLL find under a handle. -/
inductive Found where
  /-- The entry is free or another job's. -/
  | bad
  | ended (entry status : Nat)
  | trapped
  | running
deriving DecidableEq, Repr

/-- Judge a handle (R305). -/
def State.find (s : State) (h : Word) : Found :=
  match s.handleJob h with
  | none => .bad
  | some (e, j) =>
    match j.status with
    | some st => .ended e st
    | none => if s.trapsOn j then .trapped else .running

/-- JPOLL (R303, R305): pd is 1 where the job has ended, and its entry is freed. -/
def runJpoll (pd : Fin 8) (rs1 : Fin 32) (t : Turn) (s : State) : State :=
  let h := (s.ctx t.key).reg rs1
  match s.find h with
  | .bad => done t (fun x => x.setPred pd true) s
  | .ended e _ => done t (fun x => x.setPred pd true) (s.setJob e none)
  | .trapped => trap t exTrans h s
  | .running => done t (fun x => x.setPred pd false) s

/-- JWAIT (R297, R303, R305): rd takes the status and the entry is freed; a job still running keeps the task waiting. -/
def runJwait (rd rs1 : Fin 32) (t : Turn) (s : State) : State :=
  let h := (s.ctx t.key).reg rs1
  match s.find h with
  | .bad => done t (fun x => x.setReg rd (BitVec.ofNat 32 stBadHandle)) s
  | .ended e st => done t (fun x => x.setReg rd (BitVec.ofNat 32 st)) (s.setJob e none)
  | .trapped => trap t exTrans h s
  | .running => refreshCore t.core (s.modCtx t.key (fun x => { x with wait := 1, waitHandle := h }))

/-! ### Snapshots (R309) -/

/-- An entry of a capture list: BAR0 offset in [25:0], words in [36:26], destination in [59:37] of its 64 bits. -/
structure Capture where
  src : Nat
  count : Nat
  dst : Nat
deriving DecidableEq, Repr

/-- The entries of a capture list: their number stands in the word before them. -/
def State.captureEntries (s : State) (a : Nat) : List Capture :=
  (List.range (min 33 (s.wordAt a).toNat)).map (fun i =>
    let v := numLE (s.bytesAt (a + 4 + 8 * i) 8)
    { src := v % 2 ^ 26, count := v / 2 ^ 26 % 2 ^ 11, dst := v / 2 ^ 37 % 2 ^ 23 })

/-- The words an entry latches, none where a location is not implemented; an RC register is not cleared. -/
def State.latchWords (s : State) (c : Capture) : Option (List Word) :=
  if (List.range c.count).all (fun i => (c.src + 4 * i) % 4 == 0 && (homeOf (c.src + 4 * i)).isSome) then
    some ((List.range c.count).map (fun i => s.view (c.src + 4 * i)))
  else none

/-- What a capture list gives: its status and the state with the words written. -/
def captureList (a : Nat) (s : State) : State × Nat :=
  let l := s.captureEntries a
  if !inSram a 4 || !inSram a (4 + 8 * min 32 l.length) || s.anyMarked a (4 + 8 * min 32 l.length) then (s, stFault)
  else if 32 < l.length || 1024 < (l.map (·.count)).sum then (s, stSnapSize)
  else
    let words := l.map (fun c => (c, s.latchWords c))
    if words.all (fun e => e.2.isSome && inSram e.1.dst (4 * e.1.count)) then
      (words.foldl (fun (s : State) (e : Capture × Option (List Word)) =>
        writeBytes e.1.dst ((e.2.getD []).flatMap (fun w => bytesLE 4 w.toNat)) s) s, stOk)
    else (s, stFault)

/-- The SNAP jobs that wait take their snapshot at a slot boundary. -/
def takeSnaps (s : State) : State :=
  s.seq.jobs.foldl (fun (s : State) (e : Nat × Job) =>
    match e.2.kind, e.2.status with
    | .snap a, none =>
      let r := captureList a s
      endJob e.1 r.2 r.1
    | _, _ => s) s

/-! ### The rows -/

/-- EJOB (R304). -/
def execEjob (i : Issue) (rd rs1 rs2 : Fin 32) (s : State) : Host.Outcome State Fault Refusal :=
  .next (issue i (.issue .ejob rd rs1 rs2) (runEjob rd rs1 rs2) s)

/-- DMAQ (R304). -/
def execDmaq (i : Issue) (rd rs1 rs2 : Fin 32) (s : State) : Host.Outcome State Fault Refusal :=
  .next (issue i (.issue .dmaq rd rs1 rs2) (supervisor (runDmaq rd rs1 rs2)) s)

/-- HASH (R304). -/
def execHash (i : Issue) (rd rs1 rs2 : Fin 32) (s : State) : Host.Outcome State Fault Refusal :=
  .next (issue i (.issue .hash rd rs1 rs2) (runHash rd rs1 rs2) s)

/-- LATT_VERIFY (R307). -/
def execLattVerify (i : Issue) (rd rs1 rs2 : Fin 32) (s : State) : Host.Outcome State Fault Refusal :=
  .next (lattRow (s.lattOp i.core.val rs2 == 0) i rd rs1 rs2 s)

/-- LATT_SIGN (R307). -/
def execLattSign (i : Issue) (rd rs1 rs2 : Fin 32) (s : State) : Host.Outcome State Fault Refusal :=
  .next (lattRow (s.lattOp i.core.val rs2 == 1) i rd rs1 rs2 s)

/-- LATT_ENCAPSULATE (R307). -/
def execLattEncapsulate (i : Issue) (rd rs1 rs2 : Fin 32) (s : State) : Host.Outcome State Fault Refusal :=
  .next (lattRow (s.lattOp i.core.val rs2 == 2) i rd rs1 rs2 s)

/-- LATT_DECAPSULATE (R307). -/
def execLattDecapsulate (i : Issue) (rd rs1 rs2 : Fin 32) (s : State) : Host.Outcome State Fault Refusal :=
  .next (lattRow (s.lattOp i.core.val rs2 == 3) i rd rs1 rs2 s)

/-- LATT_KEYGEN (R307). -/
def execLattKeygen (i : Issue) (rd rs1 rs2 : Fin 32) (s : State) : Host.Outcome State Fault Refusal :=
  .next (lattRow (s.lattOp i.core.val rs2 == 4) i rd rs1 rs2 s)

/-- LATT_INVALID (R307): operations 5 to 7, whose job ends with FAULT. -/
def execLattInvalid (i : Issue) (rd rs1 rs2 : Fin 32) (s : State) : Host.Outcome State Fault Refusal :=
  .next (lattRow (decide (5 ≤ s.lattOp i.core.val rs2)) i rd rs1 rs2 s)

/-- SNAP (R309). -/
def execSnap (i : Issue) (rd rs1 rs2 : Fin 32) (s : State) : Host.Outcome State Fault Refusal :=
  .next (issue i (.issue .snap rd rs1 rs2) (supervisor (runSnap rd rs1 rs2)) s)

/-- JPOLL (R305). -/
def execJpoll (i : Issue) (pd : Fin 8) (rs1 : Fin 32) (s : State) : Host.Outcome State Fault Refusal :=
  .next (issue i (.jpoll pd rs1) (runJpoll pd rs1) s)

/-- JWAIT (R305). -/
def execJwait (i : Issue) (rd rs1 : Fin 32) (s : State) : Host.Outcome State Fault Refusal :=
  .next (issue i (.jwait rd rs1) (runJwait rd rs1) s)

end Sys2Proof.Machine
end

