-- ==== Sys2Proof/Machine/Reach.lean ====
section
/-! DEFINITION. Reach mode in data mode (spec/07_reach_mode.md): symbols, the overhead channel, bit swaps, rate steps,
loading retrains, vector joining, rate matching. -/

namespace Sys2Proof.Machine

/-! ### The overhead word (R154) -/

/-- One step of the CRC-8 with polynomial x^8 + x^2 + x + 1. -/
def crc8Bit (c : BitVec 8) (b : Bool) : BitVec 8 :=
  let top := c.getLsbD 7 != b
  let c := c <<< 1
  if top then c ^^^ 0x07 else c

/-- CRC-8 over bits [31:8] of a word, most significant first, from 0. -/
def crc8 (w : Word) : BitVec 8 := ((List.range 24).map (fun i => w.getLsbD (31 - i))).foldl crc8Bit 0

/-- An overhead word that passes its CRC. -/
def overheadGood (w : Word) : Bool := w.setWidth 8 == crc8 w

/-! ### Loading changes (R161, R162) -/

/-- Put the entries of a change into a loading. -/
def applyEntries (entries : List (Nat × Nat)) (tones : List (Nat × Tone)) : List (Nat × Tone) :=
  entries.foldl (fun acc e => setBits acc e.1 e.2) tones

/-- A tone keeps the margin it would have with `b` bits, in 0.0001 dB. -/
def marginWith (t : Tone) (b : Nat) : Option Int := t.snr.map (fun q => toneMargin q b)

/-- The tone that best takes a bit on a pair: the largest margin among those that keep the target with one bit more, below
the band top (R161). -/
def bestTaker (target : Nat) (top : Nat) (p : Nat) (tones : List (Nat × Tone)) : Option Nat :=
  (tones.foldl (fun (acc : Option (Nat × Int)) e =>
    if e.1 / 4096 = p && decide (e.1 % 4096 < top) && decide (e.2.bits < 12) then
      match marginWith e.2 (e.2.bits + 1), marginWith e.2 e.2.bits with
      | some after, some now =>
        if decide (1000 * (target : Int) ≤ after) && (match acc with
            | some (_, best) => decide (best < now)
            | none => true) then some (e.1, now) else acc
      | _, _ => acc
    else acc) none).map (·.1)

/-- Up to `fuel` moves of one bit each, each from the first tone whose margin is below margin_target - 1.5 dB and that has a
taker (R161). The result is the new loading and the tones changed. -/
def planMoves (target top : Nat) : (fuel : Nat) → List (Nat × Tone) → List Nat → List (Nat × Tone) × List Nat
  | 0, l, changed => (l, changed)
  | k + 1, l, changed =>
    match l.find? (fun e => decide (1 ≤ e.2.bits) && (match marginWith e.2 e.2.bits with
        | some m => decide (m < 1000 * (target : Int) - 15000) && (bestTaker target top (e.1 / 4096) l).isSome
        | none => false)) with
    | some e =>
      match bestTaker target top (e.1 / 4096) l with
      | some taker =>
        let l := setBits l e.1 (e.2.bits - 1)
        let l := setBits l taker ((sget (fun _ => Tone.none) l taker).bits + 1)
        planMoves target top k l (changed ++ [e.1, taker])
      | none => (l, changed)
    | none => (l, changed)

/-- The bit-swap request a loading calls for, empty where none: at most 16 entries. -/
def planSwap (target top : Nat) (tones : List (Nat × Tone)) : List (Nat × Nat) :=
  let r := planMoves target top 8 tones []
  r.2.eraseDups.map (fun k => (k, (sget (fun _ => Tone.none) r.1 k).bits))

/-- A change at its symbol (R161, R162): the loading of its direction; a step down lowers N and trims both directions. -/
def applyChange (n : Nat) (transmit : Bool) (c : Armed) (s : State) : State :=
  if c.stepDown then
    let rate := s.rd (P.LINE_STATUS.reach_rate.port n)
    if rate ≤ 1 then s
    else
      let drop := bitsNeeded rate - bitsNeeded (rate - 1)
      let s := s.modRch n (fun r => { r with txTones := trimLoading drop r.txTones })
      let s := applyLoading n (trimLoading drop (s.rch n).tones) (rate - 1) s
      let s := s.modLink n (fun l => { l with lowRun := 0 })
      if transmit then s else linkEvent n s
  else
    let s := s.modRch n (fun r =>
      if transmit then { r with txTones := applyEntries c.entries r.txTones }
      else { r with tones := applyEntries c.entries r.tones })
    let s := if transmit then s else applyLoading n (s.rch n).tones (s.rd (P.LINE_STATUS.reach_rate.port n)) s
    s.addSat (P.REACH_STATUS.swap_count.port n) 1

/-- The armed symbol of one direction passes: in LPI past sleep signalling the change waits for the wake (R161). -/
def armedSymbol (n : Nat) (transmit : Bool) (s : State) : State :=
  let r := s.rch n
  match (if transmit then r.armedTx else r.armed) with
  | none => s
  | some c =>
    if decide (s.lpiState n ≤ 1) then
      applyChange n transmit c (s.setRch n (if transmit then { r with armedTx := none } else { r with armed := none }))
    else
      let c := { c with due := true }
      s.setRch n (if transmit then { r with armedTx := some c } else { r with armed := some c })

/-- Changes whose symbol passed in LPI take effect at the first symbol after the wake (R161). -/
def applyDue (n : Nat) (s : State) : State :=
  let late := fun (o : Option Armed) => match o with
    | some c => c.due
    | none => false
  let s := if late (s.rch n).armed then armedSymbol n false s else s
  if late (s.rch n).armedTx then armedSymbol n true s else s

/-! ### Boundary work (R161, R162, R166, R172) -/

/-- Take the averaged SNRs of a revolution (R160). -/
def takeToneSnrs (n : Nat) (o : PortObs) (s : State) : State :=
  let count := 32 * s.pact n P.REACH_CFG.tones32
  let measured := o.tones.foldl (fun acc e =>
    if toneClass count e.2.1.val = 0 then
      supd (fun _ => Tone.none) acc (toneKey e.1.val e.2.1.val) (fun t => { t with snr := some e.2.2 })
    else acc) (s.rch n).tones
  s.modRch n (fun r => { r with tones := measured })

/-- REACH_CAP (R166). -/
def writeCap (n : Nat) (capacity : Nat) (s : State) : State :=
  let loaded := s.rd (P.REACH_LOAD.loaded.port n)
  let ratio := if capacity = 0 then 0 else min 1023 (loaded * 1000000 / capacity)
  s.setWord (portAddr n P.REACH_CAP) (BitVec.ofNat 32 (ratio * 2 ^ 22 + (capacity / 1000) % 2 ^ 22))

/-- Whether no change of the receive loading is on its way. -/
def Reach.quiet (r : Reach) : Bool := r.asked.isNone && r.armed.isNone

/-- The receiver asks for a swap where tones have fallen, and for a rate step down after 4 revolutions below 0 dB that no
swap can restore (R161, R162). The result says whether the rate can still step down (R163). -/
def keepLoading (n : Nat) (s : State) : State × Bool :=
  if s.fsm n ≠ fsmData || s.modeNow n ≠ modeReach then (s, false)
  else if !(s.rch n).quiet then (s, true)
  else
    let plan := planSwap (s.pact n P.REACH_CFG.margin_target) (s.rd (P.REACH_STATUS.band_top.port n)) (s.rch n).tones
    let low := 4 ≤ (s.link n).lowRun
    let canStep := s.pact n P.REACH_CFG.sra_en ≠ 0 && 1 < s.rd (P.LINE_STATUS.reach_rate.port n)
    if plan ≠ [] then
      ((s.modRch n (fun r => { r with asked := some { symCnt := 0, entries := plan, stepDown := false, due := false } })).emit
        (.reachMessage n 0 0 plan), true)
    else if low && canStep then
      ((s.modRch n (fun r => { r with asked := some { symCnt := 0, entries := [], stepDown := true, due := false } })).emit
        (.reachMessage n 2 0 []), true)
    else (s, canStep)

/-- A joining port raises its PSD by 5 dB every 16 revolutions while no other member has lost more than 0.5 dB (R172). -/
def psdStep (n : Nat) (s : State) : State :=
  let r := s.rch n
  let ramping := s.fsm n == fsmTrain && (s.link n).mode == modeReach && (s.link n).phase == 5
  let held := r.groupMargin.any (fun e => decide (int16 (s.rd (P.PORT_QUAL.margin_min.port e.1)) < e.2 - 50))
  if ramping && r.psdSteps ≠ 0 && decide (r.psdRev + 16 ≤ s.clk.rev.toNat) && !held then
    s.setRch n { r with psdSteps := r.psdSteps - 1, psdRev := s.clk.rev.toNat }
  else s

/-! ### The commands -/

/-- REACH_FEQ (R152): the coefficients a job leaves for 512 tones of one pair. -/
def execReachFeq (n : Fin 32) (p : Fin 4) (first : Fin 8) (coefs : List (Fin 512 × BitVec 18 × BitVec 18)) (s : State) :
    Host.Outcome State Fault Refusal :=
  .next <|
    let reach := (s.inData n && s.modeNow n == modeReach) || (s.fsm n == fsmTrain && (s.link n).mode == modeReach)
    if reach && s.enginesRun then
      let feq := coefs.foldl (fun acc c =>
        let k := 2 * toneKey p.val (512 * first.val + c.1.val)
        sput (fun _ => 0) (sput (fun _ => 0) acc k c.2.1) (k + 1) c.2.2) (s.rch n).feq
      s.modRch n (fun r => { r with feq := feq })
    else s

/-- Count the RS codewords of a symbol (R221). -/
def countWord (n : Nat) (s : State) (w : WordResult) : State :=
  match w with
  | .decoded b => countDecoded n (min 7 b.val) (b.val ≠ 0) s
  | .failed k => countFailed n k s

/-- REACH_SYMBOL (R153, R154, R174): the sym_cnt of a good overhead word, the codewords in data mode, the trip field. A word
that fails its CRC is discarded; quiet symbols carry none (R259). -/
def execReachSymbol (n : Fin 32) (overhead : Option Word) (trip : BitVec 64) (words : List WordResult) (frames : Nat) (s : State) :
    Host.Outcome State Fault Refusal :=
  .next <|
    let inForce := s.inData n && s.modeNow n == modeReach
    let training := s.fsm n == fsmTrain && (s.link n).mode == modeReach
    if inForce || training then
      let s := if inForce && decide (s.lpiState n ≤ 1) then applyDue n s else s
      let s := match overhead with
        | some w => if overheadGood w then s.modRch n (fun r => { r with symCnt := bitsOf w 24 8 }) else s
        | none => s
      let bad := words.any (fun w => match w with
        | .decoded _ => false
        | .failed _ => true)
      let s := if s.fsm n = fsmData then deliver n frames bad (words.foldl (countWord n) s) else s
      judgeSlot n trip s
    else s

/-- A Reach port in DATA, where loading changes are made. -/
def State.reachData (s : State) (n : Nat) : Bool := s.fsm n == fsmData && s.modeNow n == modeReach

/-- BIT_SWAP_REQUEST (R161): answered by an ARM that names a symbol; a request that names a trip tone, the pilot or more
than 16 tones is not answered. -/
def execBitSwapRequest (n : Fin 32) (entries : List SwapEntry) (symCnt : BitVec 8) (s : State) :
    Host.Outcome State Fault Refusal :=
  .next <|
    let legal := entries.all (fun e => decide (toneClass 4096 e.tone.val = 0)) && decide (entries.length ≤ 16)
    if s.reachData n && legal then
      let l := entries.map (fun e => (toneKey e.pair.val e.tone.val, e.bits.val))
      (s.modRch n (fun r =>
        { r with armedTx := some { symCnt := symCnt.toNat, entries := l, stepDown := false, due := false } })).emit
        (.reachMessage n 1 symCnt.toNat [])
    else s

/-- ARM (R161): the change this receiver asked for is armed for the symbol named. -/
def execArm (n : Fin 32) (symCnt : BitVec 8) (s : State) : Host.Outcome State Fault Refusal :=
  .next <|
    if s.reachData n then
      s.modRch n (fun r => { r with asked := none, armed := match r.asked with
        | some c => some { c with symCnt := symCnt.toNat }
        | none => r.armed })
    else s

/-- SWAP_ARMED_SYMBOL (R161). -/
def execSwapArmedSymbol (n : Fin 32) (transmit : Bool) (s : State) : Host.Outcome State Fault Refusal :=
  .next <| if s.reachData n then armedSymbol n transmit s else s

/-- RATE_STEP_DOWN (R162): the partner's message arms the step for both directions; it is answered by an ARM. -/
def execRateStepDown (n : Fin 32) (symCnt : BitVec 8) (s : State) : Host.Outcome State Fault Refusal :=
  .next <|
    if s.reachData n then
      (s.modRch n (fun r =>
        { r with armedTx := some { symCnt := symCnt.toNat, entries := [], stepDown := true, due := false } })).emit
        (.reachMessage n 1 symCnt.toNat [])
    else s

/-- LOADING_TABLE (R157): the transmitter's loading, from training phase 4 or a loading retrain. -/
def execLoadingTable (n : Fin 32) (table : List ToneLoad) (s : State) : Host.Outcome State Fault Refusal :=
  .next <|
    let reach := (s.fsm n == fsmTrain && (s.link n).mode == modeReach) || (s.inData n && s.modeNow n == modeReach)
    if reach then
      let tones := table.foldl (fun acc e =>
        if toneClass 4096 e.tone.val = 0 then
          sput (fun _ => Tone.none) acc (toneKey e.pair.val e.tone.val) { bits := e.bits.val, snr := some e.snr }
        else acc) []
      s.modRch n (fun r => { r with txTones := tones })
    else s

/-- A loading as table entries. -/
def loadEntries (tones : List (Nat × Tone)) : List (Nat × Nat) := tones.map (fun e => (e.1, e.2.bits))

/-- LOADING_RETRAIN_COMPLETE (R163): reloaded from the SNRs measured, which may change N, and back to DATA; with no N left a
full retrain follows. The PSD ramp of a join that was cut short is complete (R172). -/
def execLoadingRetrainComplete (n : Fin 32) (tones : List (Fin 4 × Fin 4096 × Int)) (s : State) :
    Host.Outcome State Fault Refusal :=
  .next <|
    if s.fsm n = fsmFretrain && s.modeNow n = modeReach then
      let s := s.modRch n (fun r => { r with rampShort := false, psdSteps := 0 })
      match loadPort n tones s with
      | some s => retrainDone n (s.emit (.reachMessage n 3 0 (loadEntries (s.rch n).tones)))
      | none => fullRetrain n s
    else s

/-- VECTOR_JOIN_TIMEOUT (R172): phase 5 ends at the PSD reached. -/
def execVectorJoinTimeout (n : Fin 32) (s : State) : Host.Outcome State Fault Refusal :=
  .next <|
    if s.fsm n = fsmTrain && (s.link n).mode = modeReach && (s.link n).phase = 5 then
      let short := (s.rch n).psdSteps ≠ 0
      let s := (s.modRch n (fun r => { r with rampShort := short })).wr (P.REACH_STATUS.vg_state.port n) 1
      reachPhase n 6 (startFrames n s)
    else s

/-! ### Rate matching (R173) -/

/-- Bytes in the FIFO. -/
def State.fifoFill (s : State) (n : Nat) : Nat := (s.rch n).fifo.sum

/-- PAUSE_REPEAT_TIMER: every 16 ms while the fill stays above xon. -/
def execPauseRepeatTimer (n : Fin 32) (s : State) : Host.Outcome State Fault Refusal :=
  .next <|
    if (s.rch n).paused && s.pact n P.RM_CFG.pause_en ≠ 0 && decide (1024 * s.pact n P.RM_CFG.xon < s.fifoFill n) then
      s.emit (.pause n 0xFFFF)
    else s

/-- HOST_FRAME_TO_FIFO: a frame that finds the 128 KiB full is dropped whole and counted; at xoff the host is paused. -/
def execHostFrameToFifo (n : Fin 32) (length : BitVec 16) (s : State) : Host.Outcome State Fault Refusal :=
  .next <|
    if s.inData n && s.modeNow n == modeReach then
      if 131072 < s.fifoFill n + length.toNat then s.addWrap (P.RM_DROP.count.port n) 1
      else
        let s := s.modRch n (fun r => { r with fifo := r.fifo ++ [length.toNat] })
        if !(s.rch n).paused && s.pact n P.RM_CFG.pause_en ≠ 0 && decide (1024 * s.pact n P.RM_CFG.xoff ≤ s.fifoFill n) then
          (s.modRch n (fun r => { r with paused := true })).emit (.pause n 0xFFFF)
        else s
    else s

/-- Take bytes from the head of the FIFO. -/
def drainFrames : List Nat → Nat → List Nat
  | [], _ => []
  | f :: t, k => if k < f then (f - k) :: t else drainFrames t (k - f)

/-- RATE_MATCH_FIFO_DRAIN: bytes leave for the line; at xon or below the host is released. -/
def execRateMatchFifoDrain (n : Fin 32) (bytes : Nat) (s : State) : Host.Outcome State Fault Refusal :=
  .next <|
    let s := s.modRch n (fun r => { r with fifo := drainFrames r.fifo bytes })
    if (s.rch n).paused && decide (s.fifoFill n ≤ 1024 * s.pact n P.RM_CFG.xon) then
      (s.modRch n (fun r => { r with paused := false })).emit (.pause n 0)
    else s

end Sys2Proof.Machine
end

