-- ==== Sys2Proof/Machine/Boundary.lean ====
section
/-! DEFINITION. The slot boundary and the revolution boundary (spec/01_architecture.md, R16, R20, R27; spec/02_register_behaviour.md,
R33; spec/15_carousel_schedule.md, R328 to R330). -/

namespace Sys2Proof.Machine

/-! ### Core cycles (R16, R20) -/

/-- Core cycles pass: DEV_TIME advances by 2 ns and PERF.CYCLE by 1 for each. -/
def passCycles (k : Nat) (s : State) : State :=
  let s := s.withClk { s.clk with devTime := s.clk.devTime + BitVec.ofNat 64 (2 * k) }
  { s with perf := { s.perf with cycle := s.perf.cycle + BitVec.ofNat 64 k } }

/-- The cycles of the present slot that have not passed, its boundary included. -/
def State.cyclesLeft (s : State) : Nat := 125 - s.clk.cycle

/-- The clock stands at cycle 0 of a slot. -/
def atSlot (n : Nat) (s : State) : State := s.withClk { s.clk with slot := n, cycle := 0 }

/-! ### Slots (R20, R296) -/

/-- The four cores' slot ends. -/
def endSlots (s : State) : State := (List.range 4).foldl (fun s c => endSlot c s) s

/-- A slot begins: the cores take its tasks, a selected context is copied, SNAP jobs latch their words, trip side blocks
go out, a change between RUN and IDLE takes effect. -/
def beginSlot (s : State) : State :=
  let s := (List.range 4).foldl (fun s c => enterSlot c s) s
  let s := takeSnaps (ctxCopy s)
  slotPower ((List.range 32).foldl (fun s n => sendTripBlock n s) s)

/-- A boundary between two slots of one revolution. -/
def slotBoundary (s : State) : State :=
  if s.clk.wheelOn && decide (s.clk.slot < 4095) then
    let s := endSlots (passCycles s.cyclesLeft s)
    beginSlot (atSlot (s.clk.slot + 1) s)
  else s

/-- SLOT_BOUNDARY (R20). -/
def execSlotBoundary (s : State) : Host.Outcome State Fault Refusal := .next (slotBoundary s)

/-! ### What a revolution boundary does -/

/-- The run of revolutions below 0 dB (R98). -/
def countLow (n : Nat) (s : State) : State :=
  if s.fsm n = fsmData then
    let low := s.flag (P.PORT_QUAL.valid.port n) && decide (int16 (s.rd (P.PORT_QUAL.margin_min.port n)) < 0)
    s.modLink n (fun l => { l with lowRun := if low then l.lowRun + 1 else 0 })
  else s

/-- The fourth revolution in a row below 0 dB is a retrain trigger; in Reach mode only where the loading can give no more
(R98, R162, R163). -/
def judgeLow (n : Nat) (s : State) : State :=
  let k := keepLoading n s
  if s.fsm n = fsmData && decide (4 ≤ (s.link n).lowRun) && !k.2 then retrainTrigger n false k.1 else k.1

/-- The revolution that has ended, on one port. -/
def reviewPort (obs : List PortObs) (n : Nat) (s : State) : State :=
  let o := obs.find? (fun o => o.port.val == n)
  let s := monitorPort n o s
  let s := match o with
    | some o =>
      let s := takeToneSnrs n o s
      if s.inData n && s.modeNow n == modeReach then writeCap n o.capacity s else s
    | none => s
  psdStep n (judgeLow n (countLow n s))

/-- PWR.TEMP[k] (R487). -/
def writeTemps (temps : Vector (BitVec 16) 8) (s : State) : State :=
  (temps.toList.zipIdx).foldl (fun s (e : BitVec 16 × Nat) =>
    s.setWord (PWR.TEMP + 4 * e.2) (BitVec.ofNat 32 (2 ^ 31 + e.1.toNat))) s

/-- A bank of a port becomes active, with what follows from it (R33, R73, R93, R219, R261). -/
def switchPort (n : Nat) (s : State) : State :=
  if s.bankPending (.port n) then
    let line := s.word (portAddr n P.LINE_CFG + 0x8000)
    let adv := s.word (portAddr n P.AN_ADV + 0x8000)
    let s := restartRuns n (switchBank (.port n) (portChecks n) s)
    let s := portBankActive n (s.word (portAddr n P.LINE_CFG + 0x8000) != line) (s.word (portAddr n P.AN_ADV + 0x8000) != adv) s
    if s.pact n P.LPI_CFG.mode = 0 then wakePort n [] s else s
  else s

/-- A port's Sideshow modem after an SS bank switch: bus mode selected or deselected, or the modem off (R187, R190). -/
def switchModem (n : Nat) (s : State) : State :=
  let bus := s.actFlag (SS.PORT_CFG.bus.nth n)
  if s.onBus n != bus then
    let s := (selectBus n bus s).wr (SS.PORT_STATUS.bus_active.nth n) (bitNat bus)
    failQueued n (ssEvent 4 s)
  else if !s.modemEnabled n then failQueued n s
  else s

/-- The SS bank becomes active. -/
def switchSs (s : State) : State :=
  if s.bankPending .ss then (List.range 32).foldl (fun s n => switchModem n s) (switchBank .ss ssChecks s) else s

/-- The CAL bank becomes active. -/
def switchCal (s : State) : State := if s.bankPending .cal then calBankActive (switchBank .cal calChecks s) else s

/-- Every pending bank becomes active (R33); the ceiling is checked against the wheel now active (R330). -/
def switchBanks (s : State) : State :=
  let s := (List.range 32).foldl (fun s n => switchPort n s) s
  let s := switchBank .jug jugChecks s
  let s := switchSs s
  let s := withOuts (fun s => switchBank .trip tripChecks s) s
  let s := switchCal s
  let s := switchBank .perf (fun s => s) s
  let s := switchBank .bist (fun s => s) s
  refreshPool (switchBank .wheel ceilingChecks s)

/-- A written port restart takes effect (R104): both snapshot copies are rewritten after it (R449). -/
def restartDue (n : Nat) (s : State) : State :=
  let a := portAddr n P.PORT_CMD
  if 0 < s.wcLevel (wcKey a 0) then
    let s := wcDone a 0 (fun s => s) (restartPortTasks n (restartPort n s))
    { s with fw := { s.fw with both := true } }
  else s

/-- The counters and observations of the revolution that ends: the performance dump latches its last cycle (R402, R403), tasks
past their window take BUDGET (R20), and the count advances (R27). -/
def endRevolution (s : State) : State :=
  let left := s.cyclesLeft + 125 * (4095 - s.clk.slot)
  let s := perfDump s.clk.rev.toNat (passCycles (left - 1) s)
  let s := endSlots (passCycles 1 s)
  atSlot 0 (s.withClk { s.clk with rev := s.clk.rev + 1 })

/-- Everything the past revolution's figures decide. -/
def reviewRevolution (ports : List PortObs) (eyes : List EyeObs) (temps : Vector (BitVec 16) 8) (s : State) : State :=
  let s := (List.range 32).foldl (fun s n => reviewPort ports n s) s
  let s := eccBoundary (writeMap (writeTemps temps s))
  drainReceive (keepalive (laneBoundary eyes s))

/-- Every switch of the boundary: the wheel first, then staged manifests, banks and restarts (R33, R329, R330, R363). -/
def switchAll (s : State) : State :=
  let s := jspBoundary (commitStaged (wheelBoundary s))
  if s.started then
    let s := (List.range 32).foldl (fun s n => restartDue n s) (switchBanks s)
    refreshLanes (judgeScan (judgeSlots s))
  else s

/-- The next revolution begins, or the wheel stops before its slot 0 (R416). -/
def beginRevolution (s : State) : State :=
  let s := stateSnapshot s
  if s.power.stage == .stopping then (List.range 4).foldl (fun s c => enterSlot c s) (stopWheel s) else beginSlot s

/-- A revolution boundary. -/
def revolutionBoundary (ports : List PortObs) (eyes : List EyeObs) (temps : Vector (BitVec 16) 8) (s : State) : State :=
  if s.clk.wheelOn then
    let s := switchAll (reviewRevolution ports eyes temps (endRevolution s))
    if s.started then beginRevolution s else s
  else s

/-- REVOLUTION_BOUNDARY (R27). -/
def execRevolutionBoundary (ports : List PortObs) (eyes : List EyeObs) (temps : Vector (BitVec 16) 8) (s : State) :
    Host.Outcome State Fault Refusal := .next (revolutionBoundary ports eyes temps s)

end Sys2Proof.Machine
end

