-- ==== Sys2Proof/Machine/Control.lean ====
section
/-! DEFINITION. Nelno branches, control registers, supervisor calls, giving up the core, and TRIP (spec/14_sequencer_isa.md, R291,
R301, R306, R308, R312). -/

namespace Sys2Proof.Machine

/-- The target of a branch. -/
def Turn.branch (t : Turn) (off : BitVec 22) : Word := BitVec.ofNat 32 t.pc + branchOffset off

/-- BR (R301). -/
def runBr (off : BitVec 22) (t : Turn) (s : State) : State := retire t (t.branch off) (fun x => x) (perfCount t.core 8 s)

/-- BL (R301): g31 takes the address of the next instruction. -/
def runBl (off : BitVec 22) (t : Turn) (s : State) : State :=
  retire t (t.branch off) (fun x => x.setReg 31 t.next) (perfCount t.core 8 s)

/-- JR (R301). -/
def runJr (rs1 : Fin 32) (t : Turn) (s : State) : State := retire t ((s.ctx t.key).reg rs1) (fun x => x) s

/-- CSRR (R291): reading CYCLE latches the high word in the task's context (R400). -/
def runCsrr (rd : Fin 32) (n : BitVec 12) (t : Turn) (s : State) : State :=
  match csrOf n with
  | none => trap t exIllegal t.word s
  | some c =>
    let v := s.csr t.key c
    let high := BitVec.ofNat 32 (s.perf.cycle.toNat / 2 ^ 32)
    done t (fun x => (if c = .cycle then { x with cycleh := high } else x).setReg rd v) s

/-- CSRW (R291). -/
def runCsrw (rs2 : Fin 32) (n : BitVec 12) (t : Turn) (s : State) : State :=
  let x := s.ctx t.key
  match csrOf n with
  | none => trap t exIllegal t.word s
  | some c =>
    match x.csrWrite c (x.reg rs2) with
    | none => trap t exPriv t.word s
    | some y => done t (fun _ => y) s

/-- SYSC (R312): at user level, into the handler; at supervisor level PRIV. -/
def runSysc (v : BitVec 12) (t : Turn) (s : State) : State :=
  if !t.user then trap t exPriv t.word s
  else
    let x := s.ctx t.key
    retire t x.evec (fun x => { x with
      epc := t.next, ecode := signed12 v, estat := BitVec.ofNat 32 (256 + (predWord x.preds).toNat), user := false })
      (perfCount t.core 0x0B s)

/-- ERET (R312). -/
def runEret (t : Turn) (s : State) : State :=
  let x := s.ctx t.key
  retire t x.epc (fun x => { x with user := bitOf x.estat 8, preds := predWord (x.estat.truncate 8) }) s

/-- The task gives up the core until a slot of a revolution (R306). -/
def giveUp (slot rev : Nat) (t : Turn) (s : State) : State :=
  let s := done t (fun x => x) s
  refreshCore t.core (s.modCtx t.key (fun x => { x with wait := 2, waitSlot := slot, waitRev := rev }))

/-- WAITS (R306): a slot after the one now running is of this revolution, any other of the next. -/
def runWaits (v : BitVec 12) (t : Turn) (s : State) : State :=
  giveUp v.toNat (if s.clk.slot < v.toNat then s.clk.rev.toNat else s.clk.rev.toNat + 1) t s

/-- YIELD (R306): until the next assigned slot. -/
def runYield (t : Turn) (s : State) : State :=
  if s.clk.slot = 4095 then giveUp 0 (s.clk.rev.toNat + 1) t s else giveUp (s.clk.slot + 1) s.clk.rev.toNat t s

/-- The ports a task's TRIP may name (R308). -/
def State.tripMask (s : State) (k : Nat) : Word :=
  match s.taskRec k with
  | some r => r.tripMask
  | none => 0

/-- TRIP (R308): one launch request on every port of rs1. -/
def runTrip (rs1 : Fin 32) (t : Turn) (s : State) : State :=
  let ports := (s.ctx t.key).reg rs1
  if t.user && decide (ports &&& ~~~s.tripMask t.key ≠ 0) then trap t exPriv t.word s
  else launchAll ports (done t (fun x => x) s)

/-- BR (R301). -/
def execBr (i : Issue) (off : BitVec 22) (s : State) : Host.Outcome State Fault Refusal :=
  .next (issue i (.br off) (runBr off) s)

/-- BL (R301). -/
def execBl (i : Issue) (off : BitVec 22) (s : State) : Host.Outcome State Fault Refusal :=
  .next (issue i (.bl off) (runBl off) s)

/-- JR (R301). -/
def execJr (i : Issue) (rs1 : Fin 32) (s : State) : Host.Outcome State Fault Refusal :=
  .next (issue i (.jr rs1) (runJr rs1) s)

/-- CSRR (R291). -/
def execCsrr (i : Issue) (rd : Fin 32) (csr : BitVec 12) (s : State) : Host.Outcome State Fault Refusal :=
  .next (issue i (.csrr rd csr) (runCsrr rd csr) s)

/-- CSRW (R291). -/
def execCsrw (i : Issue) (rs2 : Fin 32) (csr : BitVec 12) (s : State) : Host.Outcome State Fault Refusal :=
  .next (issue i (.csrw rs2 csr) (runCsrw rs2 csr) s)

/-- SYSC (R312). -/
def execSysc (i : Issue) (v : BitVec 12) (s : State) : Host.Outcome State Fault Refusal :=
  .next (issue i (.sysc v) (runSysc v) s)

/-- ERET (R312). -/
def execEret (i : Issue) (s : State) : Host.Outcome State Fault Refusal := .next (issue i .eret (supervisor runEret) s)

/-- WAITS (R306). -/
def execWaits (i : Issue) (slot : BitVec 12) (s : State) : Host.Outcome State Fault Refusal :=
  .next (issue i (.waits slot) (runWaits slot) s)

/-- YIELD (R306). -/
def execYield (i : Issue) (s : State) : Host.Outcome State Fault Refusal := .next (issue i .yield runYield s)

/-- TRIP (R308). -/
def execTrip (i : Issue) (rs1 : Fin 32) (s : State) : Host.Outcome State Fault Refusal :=
  .next (issue i (.trip rs1) (runTrip rs1) s)

end Sys2Proof.Machine
end

