-- ==== Sys2Proof/Machine/Mdio.lean ====
section
/-! DEFINITION. The MDIO path: the window of MMD 30 (R48, R472) and the standard registers of MMD 1, 3 and 7 (R469 to R471). -/

namespace Sys2Proof.Machine

/-! ### The window (R48, R472) -/

/-- CHIP.MDIO_STATUS.mdio_err is set. -/
def mdioErr (s : State) : State := s.wr CHIP.MDIO_STATUS.mdio_err 1

/-- CMD written with 1 or 2: an access starts with the values the window holds; one in progress is not disturbed. -/
def mdioStart (isWrite : Bool) (s : State) : State :=
  if !s.reachable then s
  else match s.host.mdioBusy with
    | some _ => mdioErr s
    | none => { s with host := { s.host with
        mdioBusy := some { write := isWrite, addr := s.host.mdioAddr.toNat, data := s.host.mdioData } } }

/-- MDIO_WINDOW_READ (R48). -/
def execMdioWindowRead (s : State) : Host.Outcome State Fault Refusal := .next (mdioStart false s)

/-- MDIO_WINDOW_WRITE (R48). -/
def execMdioWindowWrite (s : State) : Host.Outcome State Fault Refusal := .next (mdioStart true s)

/-- Load DATA_LO and DATA_HI. -/
def mdioLoad (v : Word) (s : State) : State := { s with host := { s.host with mdioData := v } }

/-- The bus error of a window access: a nonzero reserved bit of the address, an offset that is no word's, or nothing there. -/
def State.windowError (s : State) (a : Nat) (isRead : Bool) : Option BusCause :=
  if 2 ^ 26 ≤ a then some .unimplemented
  else if a % 4 ≠ 0 then some .unaligned
  else s.accessError a 15 isRead

/-- The window's read reaches the register file. -/
def mdioReadDone (a : Nat) (s : State) : State :=
  match s.windowError a true with
  | some c => mdioErr (mdioLoad 0xFFFFFFFF (busError c (a % 2 ^ 26) s))
  | none =>
    let r := readPart a 15 s
    mdioLoad r.1 r.2

/-- The window's write reaches the register file. -/
def mdioWriteDone (a : Nat) (v : Word) (x : WriteSide) (s : State) : State :=
  match s.windowError a false with
  | some c => mdioErr (busError c (a % 2 ^ 26) s)
  | none => writePart .mdio a 15 v x s

/-- MDIO_WINDOW_ACCESS_DONE (R48): the access in progress takes effect and STATUS bit 0 clears. -/
def mdioDone (fuse : Option FuseLeft) (s : State) : State :=
  match s.host.mdioBusy with
  | none => s
  | some m =>
    let s := { s with host := { s.host with mdioBusy := none } }
    match s.gate (m.addr % 2 ^ 26) (!m.write) with
    | .silent => s
    | .asleep =>
      let s := accessInSleep m.addr (!m.write) true s
      if m.write then s else mdioLoad 0xFFFFFFFF s
    | .served => if m.write then mdioWriteDone m.addr m.data { fuse := fuse, linear := 0 } s else mdioReadDone m.addr s
    | .absent => if m.write then mdioWriteDone m.addr m.data { fuse := fuse, linear := 0 } s else mdioReadDone m.addr s

/-- MDIO_WINDOW_ACCESS_DONE (R48). -/
def execMdioWindowAccessDone (fuse : Option FuseLeft) (s : State) : Host.Outcome State Fault Refusal := .next (mdioDone fuse s)

/-- A write of one half of a 32-bit value. -/
def putHalf (w : BitVec 32) (high : Bool) (v : BitVec 16) : BitVec 32 :=
  BitVec.ofNat 32 (if high then w.toNat % 2 ^ 16 + 2 ^ 16 * v.toNat else w.toNat / 2 ^ 16 * 2 ^ 16 + v.toNat)

/-- A write of a register of MMD 30 other than a start: the address and data halves, refused while an access is in progress; a CMD of
another value; STATUS, whose write does nothing. -/
def windowReg (reg : Nat) (v : BitVec 16) (s : State) : State :=
  if reg < 4 then
    if s.host.mdioBusy.isSome then mdioErr s
    else if reg < 2 then { s with host := { s.host with mdioAddr := putHalf s.host.mdioAddr (reg == 1) v } }
    else mdioLoad (putHalf s.host.mdioData (reg == 3) v) s
  else if reg = 4 then (if v = 1 then mdioStart false s else if v = 2 then mdioStart true s else mdioErr s)
  else if reg = 5 then s
  else mdioErr s

/-! ### Standard registers (R470, R471) -/

/-- Receive link status, latching low: key of the port and MMD. -/
def linkKey (n mmd : Nat) : Nat := 8 * n + mmd

/-- What a latching-low bit reads: the source's 1 only where it has been 1 since the last read. -/
def State.linkLatched (s : State) (n mmd : Nat) : Bool := sget (fun _ => false) s.host.linkHigh (linkKey n mmd)

/-- The read restores a latching-low bit to its source's present value. -/
def restoreLink (n mmd : Nat) (s : State) : State :=
  { s with host := { s.host with
      linkHigh := sput (fun _ => false) s.host.linkHigh (linkKey n mmd) (s.flag (P.LINE_STATUS.link_up.port n)) } }

/-- The speed bits of register 1.0 for a rate: 13, 6 and 5:2 as Clause 45 codes them. -/
def speedBits (rate : Nat) : Nat :=
  if rate = 0 then 0x2000 else if rate = 1 then 0x0040 else if rate = 2 then 0x2058 else if rate = 3 then 0x205C
  else if rate = 4 then 0x2040 else 0

/-- Registers 1.133 to 1.136: 0x8000 plus the margin in 0.1 dB, rounded; 0 without a measurement. -/
def State.snrMargin (s : State) (n p : Nat) : Nat :=
  let m := s.rd ((P.PAIR_QUAL.margin.port n).nth p)
  if m = 0x8000 then 0 else ((0x8000 : Int) + (int16 m + 5) / 10).toNat % 65536

/-- EEE ability words of registers 7.60 and 7.62 for a set of rates coded as eee_adv. -/
def eeeOne (e : Nat) : Nat := 2 * bitsOf (BitVec.ofNat 32 e) 0 2 + 8 * bitsOf (BitVec.ofNat 32 e) 4 1
def eeeTwo (e : Nat) : Nat := bitsOf (BitVec.ofNat 32 e) 2 2

/-- A bit of a command register that reads 1 while its command runs or is queued. -/
def State.cmdBit (s : State) (a bit : Nat) : Nat := bitNat (decide (1 ≤ s.wcLevel (wcKey a bit)))

/-- A standard register, none where it is not implemented (R469, R470). -/
def State.standard (s : State) (n mmd reg : Nat) : Option Nat :=
  let cmd := portAddr n P.PORT_CMD
  let st := s.fsm n
  match mmd with
  | 1 =>
    if reg = 0 then some (s.cmdBit cmd 0 * 2 ^ 15 + s.pact n P.LINE_CFG.port_off * 2 ^ 11 + speedBits (s.rateNow n))
    else if reg = 1 then some (bitNat (s.linkLatched n 1) * 4 + 2)
    else if reg = 2 then some (s.rd CHIP.ID.oui / 64 % 65536)
    else if reg = 3 then some (s.rd CHIP.ID.oui % 64 * 1024 + (0x10 + s.rd CHIP.ID.part) % 64 * 16 + s.rd CHIP.ID.step)
    else if reg = 5 then some 0x8A
    else if reg = 6 then some 0xC000
    else if 133 ≤ reg && reg ≤ 136 then some (s.snrMargin n (reg - 133))
    else none
  | 3 =>
    if reg = 0 then some (s.cmdBit cmd 0 * 2 ^ 15)
    else if reg = 1 then
      some (bitNat (s.linkLatched n 3) * 4 + s.rd (P.LINE_STATUS.lpi_tx.port n) * 2 ^ 9 + s.rd (P.LINE_STATUS.lpi_rx.port n) * 2 ^ 8)
    else if reg = 20 then some 0xE
    else none
  | 7 =>
    if reg = 0 then some (2 ^ 12 + s.cmdBit cmd 1 * 2 ^ 9)
    else if reg = 1 then
      some (bitNat (st == fsmTrain || st == fsmData || st == fsmFretrain) * 32 + 8 + bitNat (s.linkLatched n 7) * 4)
    else if reg = 16 then some (s.pact n P.AN_ADV.base_t % 2 * 2 ^ 8)
    else if reg = 32 then
      let b := s.pact n P.AN_ADV.base_t
      some (b / 16 % 2 * 2 ^ 12 + b / 8 % 2 * 2 ^ 8 + b / 4 % 2 * 2 ^ 7)
    else if reg = 60 then some (eeeOne (s.pact n P.LPI_CFG.eee_adv))
    else if reg = 61 then some (eeeOne (s.link n).partnerEee)
    else if reg = 62 then some (eeeTwo (s.pact n P.LPI_CFG.eee_adv))
    else if reg = 63 then some (eeeTwo (s.link n).partnerEee)
    else none
  | _ => none

/-- The window's registers as MMD 30 reads them (R48). -/
def State.windowView (s : State) (reg : Nat) : Option Nat :=
  if reg = 0 then some (s.host.mdioAddr.toNat % 65536)
  else if reg = 1 then some (s.host.mdioAddr.toNat / 65536)
  else if reg = 2 then some (s.host.mdioData.toNat % 65536)
  else if reg = 3 then some (s.host.mdioData.toNat / 65536)
  else if reg = 4 then some 0
  else if reg = 5 then some (bitNat s.host.mdioBusy.isSome + 2 * s.rd CHIP.MDIO_STATUS.mdio_err)
  else none

/-- The registers of MMD 31 as they read (R392). -/
def State.logWindow (s : State) (reg : Nat) : Option Nat :=
  if reg = 0 then some s.logs.mmdClass
  else if reg = 1 then some (s.logs.mmdLatch.seq % 65536)
  else if reg = 2 then some (s.logs.mmdLatch.seq / 65536)
  else if reg = 3 then some s.logs.mmdLatch.status
  else if 0x10 ≤ reg && reg ≤ 0x1F then some (s.logs.mmdLatch.half (reg - 0x10)).toNat
  else none

/-- A direct MDIO read's value, none where the register is not implemented. -/
def State.mdioView (s : State) (n mmd reg : Nat) : Option Nat :=
  match mmd with
  | 30 => s.windowView reg
  | 31 => s.logWindow reg
  | _ => s.standard n mmd reg

/-- A direct MDIO read: the value, or 0xFFFF with mdio_err; a latching-low bit is restored, and the last word of MMD 31 loads the next
record (R48, R392, R471). -/
def mdioRead (n mmd reg : Nat) (s : State) : State :=
  let latching := reg = 1 && (mmd = 1 || mmd = 3 || mmd = 7)
  match s.mdioView n mmd reg with
  | none => mdioErr (s.emit (.mdioData n mmd reg 0xFFFF))
  | some v =>
    let s := s.emit (.mdioData n mmd reg (BitVec.ofNat 16 v))
    if latching then restoreLink n mmd s
    else if mmd = 31 && reg = 0x1F then mmdLoad s.logs.mmdLatch.cls ((s.logs.mmdLatch.seq + 1) % 2 ^ 32) s
    else s

/-- LATCH_LOW_READ (R471): a direct MDIO read of a register. -/
def latchLowRead (n mmd reg : Nat) (s : State) : State :=
  match (if mmd = 30 then (if s.reachable then Gate.served else Gate.silent) else s.gate (portAddr n P.LINE_STATUS) true) with
  | .silent => s
  | .asleep => accessInSleep (portAddr n P.LINE_STATUS) true true s
  | .absent => mdioErr (s.emit (.mdioData n mmd reg 0xFFFF))
  | .served => mdioRead n mmd reg s

/-- LATCH_LOW_READ (R471). -/
def execLatchLowRead (n mmd : Fin 32) (reg : BitVec 16) (s : State) : Host.Outcome State Fault Refusal :=
  .next (latchLowRead n mmd reg.toNat s)

/-- A configuration write through a standard bit (R471): the field goes into the shadow bank and the port's commit is written with
it. -/
def standardField (f : Field) (n v : Nat) (s : State) : State :=
  let f := f.port n
  let pend := s.bankPending (.port n)
  let s := writeReg .mdio f.addr (withBits (s.word f.addr) f.lsb f.width v) WriteSide.none s
  if s.sealed || pend then s else s.setPending (.port n) true

/-- A command through a standard bit. -/
def standardCmd (n bit : Nat) (s : State) : State :=
  writeReg .mdio (portAddr n P.PORT_CMD) (BitVec.ofNat 32 (2 ^ bit)) WriteSide.none s

/-- Some bits of a field replaced: the bits of `mask` come from `v`. -/
def mixBits (old mask v : Nat) : Nat := (old &&& (mask ^^^ 31)) ||| (v &&& mask)

/-- A write of a standard register (R470, R471): its fields first, then its commands; a register with nothing writable, and a 0 for
7.0 bit 12, are flagged READ_ONLY. -/
def standardWrite (n mmd reg : Nat) (v : BitVec 16) (s : State) : State :=
  let bit := fun (k : Nat) => bitNat (v.getLsbD k)
  let adv := s.rd (P.AN_ADV.base_t.port n)
  let eee := s.rd (P.LPI_CFG.eee_adv.port n)
  if mmd = 1 && reg = 0 then
    let s := standardField P.LINE_CFG.port_off n (bit 11) s
    if v.getLsbD 15 then standardCmd n 0 s else s
  else if mmd = 3 && reg = 0 then (if v.getLsbD 15 then standardCmd n 0 s else s)
  else if mmd = 7 && reg = 0 then
    let s := if v.getLsbD 12 then s else ignored .readOnly (portAddr n P.PORT_CMD) s
    if v.getLsbD 9 then standardCmd n 1 s else s
  else if mmd = 7 && reg = 16 then standardField P.AN_ADV.base_t n (mixBits adv 1 (bit 8)) s
  else if mmd = 7 && reg = 32 then
    standardField P.AN_ADV.base_t n (mixBits adv 28 (bit 12 * 16 + bit 8 * 8 + bit 7 * 4)) s
  else if mmd = 7 && reg = 60 then
    standardField P.LPI_CFG.eee_adv n (mixBits eee 19 (bit 1 + bit 2 * 2 + bit 3 * 16)) s
  else if mmd = 7 && reg = 62 then standardField P.LPI_CFG.eee_adv n (mixBits eee 12 (bit 0 * 4 + bit 1 * 8)) s
  else if (s.standard n mmd reg).isSome then ignored .readOnly (portAddr n P.LINE_STATUS) s
  else mdioErr s

/-- MDIO_STANDARD_WRITE (R471): a direct MDIO write of a register of MMD 1, 3, 7 or 30; one of an unimplemented register sets mdio_err.
The writes of MMD 31 have commands of their own. -/
def mdioWrite (n mmd reg : Nat) (v : BitVec 16) (s : State) : State :=
  match (if mmd = 30 then (if s.reachable then Gate.served else Gate.silent) else s.gate (portAddr n P.LINE_CFG) false) with
  | .silent => s
  | .asleep => accessInSleep (portAddr n P.LINE_CFG) false true s
  | .absent => mdioErr s
  | .served =>
    if mmd = 30 then windowReg reg v s
    else if mmd = 31 then
      (if (s.logWindow reg).isSome || reg = 4 || reg = 5 then s else mdioErr s)
    else standardWrite n mmd reg v s

/-- MDIO_STANDARD_WRITE (R471). -/
def execMdioStandardWrite (n mmd : Fin 32) (reg v : BitVec 16) (s : State) : Host.Outcome State Fault Refusal :=
  .next (mdioWrite n mmd reg.toNat v s)

end Sys2Proof.Machine
end

