-- ==== Sys2Proof/Machine/MemoryAccess.lean ====
section
/-! DEFINITION. Nelno loads, stores, BCOPY and FENCE (spec/14_sequencer_isa.md, R293 to R295, R302; spec/16_memory_dma.md, R333). -/

namespace Sys2Proof.Machine

/-- The number a load reads from data SRAM. -/
def State.loadBytes (s : State) (a n : Nat) : Nat := numLE (s.bytesAt a n)

/-- A load (R293 to R295): the exceptions of lowest value first, else rd. A load of register space reads with core `c`'s latches; at
user level it clears nothing (R407). -/
def runLoad (op : LoadOp) (rd rs1 : Fin 32) (off : BitVec 12) (t : Turn) (s : State) : State :=
  let a := (s.ctx t.key).address rs1 off
  let val := BitVec.ofNat 32 a
  let s := if t.again then s else perfCount t.core 6 s
  match s.target t.key a op.size false with
  | .sram a =>
    if a % op.size ≠ 0 then trap t exMisalign val s
    else if s.isMarked a then trap t exEcc val s
    else done t (fun x => x.setReg rd (op.widen (s.loadBytes a op.size))) s
  | .reg r =>
    if r % 4 ≠ 0 then trap t exMisalign val s
    else
      let v := readReg (1 + t.core) r 15 false (!t.user) s
      done t (fun x => x.setReg rd v.1) v.2
  | .bad => trap t (if a % op.size ≠ 0 then exMisalign else exAddr) val s

/-- A store (R293 to R295). A store to register space is judged like a host write, but Sealed operation does not refuse it (R294). -/
def runStore (op : StoreOp) (rs2 rs1 : Fin 32) (off : BitVec 12) (t : Turn) (s : State) : State :=
  let x := s.ctx t.key
  let a := x.address rs1 off
  let v := x.reg rs2
  let val := BitVec.ofNat 32 a
  let s := if t.again then s else perfCount t.core 7 s
  if a % op.size ≠ 0 then trap t exMisalign val s
  else match s.target t.key a op.size true with
    | .sram a =>
      done t (fun x => x)
        (if op.size = 4 then writeWord a v s else writeNarrow a op.size (v.toNat % 2 ^ (8 * op.size)) s)
    | .reg r => writeReg .firmware r v WriteSide.none (done t (fun x => x) s)
    | .bad => trap t exAddr val s

/-- One word of a BCOPY: where source and destination are reached, the copy and the registers after it; else the exception and its
address. -/
def copyWord (rd rs1 rs2 : Fin 32) (k : Nat) (s : State) : State ⊕ (Nat × Nat) :=
  let x := s.ctx k
  let a := (x.reg rs1).toNat
  let b := (x.reg rs2).toNat
  let ok := fun (m : Nat) => inSram m 4 && (!x.user || s.inDataRange k m 4)
  if inSram a 4 && ok a && s.isMarked a then .inr (exEcc, a)
  else if !ok a then .inr (exAddr, a)
  else if !ok b then .inr (exAddr, b)
  else
    let s := writeWord b (s.wordAt a) s
    .inl (s.modCtx k (fun x =>
      let x := x.setReg rd (x.reg rd - 4)
      let x := x.setReg rs1 (x.reg rs1 + 4)
      x.setReg rs2 (x.reg rs2 + 4)))

/-- Up to `fuel` words; the second result is the exception that ended the copy. -/
def copyWords (rd rs1 rs2 : Fin 32) (k : Nat) : (fuel : Nat) → State → State × Option (Nat × Nat)
  | 0, s => (s, none)
  | n + 1, s =>
    if (s.ctx k).reg rd = 0 then (s, none)
    else match copyWord rd rs1 rs2 k s with
      | .inl t => copyWords rd rs1 rs2 k n t
      | .inr e => (s, some e)

/-- BCOPY (R302): the words the slot has cycles for; a copy that has more to do waits for the task's next slot (R297). -/
def runBcopy (rd rs1 rs2 : Fin 32) (words : Nat) (t : Turn) (s : State) : State :=
  let x := s.ctx t.key
  if (x.reg rd).toNat % 4 ≠ 0 then trap t exMisalign (x.reg rd) s
  else if (x.reg rs1).toNat % 4 ≠ 0 then trap t exMisalign (x.reg rs1) s
  else if (x.reg rs2).toNat % 4 ≠ 0 then trap t exMisalign (x.reg rs2) s
  else
    let r := copyWords rd rs1 rs2 t.key words s
    match r.2 with
    | some e => trap t e.1 (BitVec.ofNat 32 e.2) r.1
    | none =>
      if (r.1.ctx t.key).reg rd = 0 then done t (fun x => x) r.1
      else refreshCore t.core (r.1.modCtx t.key (fun x => { x with wait := 3 }))

/-- LDW (R295). -/
def execLdw (i : Issue) (rd rs1 : Fin 32) (off : BitVec 12) (s : State) : Host.Outcome State Fault Refusal :=
  .next (issue i (.load .ldw rd rs1 off) (runLoad .ldw rd rs1 off) s)

/-- LDH (R295). -/
def execLdh (i : Issue) (rd rs1 : Fin 32) (off : BitVec 12) (s : State) : Host.Outcome State Fault Refusal :=
  .next (issue i (.load .ldh rd rs1 off) (runLoad .ldh rd rs1 off) s)

/-- LDHU (R295). -/
def execLdhu (i : Issue) (rd rs1 : Fin 32) (off : BitVec 12) (s : State) : Host.Outcome State Fault Refusal :=
  .next (issue i (.load .ldhu rd rs1 off) (runLoad .ldhu rd rs1 off) s)

/-- LDB (R295). -/
def execLdb (i : Issue) (rd rs1 : Fin 32) (off : BitVec 12) (s : State) : Host.Outcome State Fault Refusal :=
  .next (issue i (.load .ldb rd rs1 off) (runLoad .ldb rd rs1 off) s)

/-- LDBU (R295). -/
def execLdbu (i : Issue) (rd rs1 : Fin 32) (off : BitVec 12) (s : State) : Host.Outcome State Fault Refusal :=
  .next (issue i (.load .ldbu rd rs1 off) (runLoad .ldbu rd rs1 off) s)

/-- STW (R295). -/
def execStw (i : Issue) (rs2 rs1 : Fin 32) (off : BitVec 12) (s : State) : Host.Outcome State Fault Refusal :=
  .next (issue i (.store .stw rs2 rs1 off) (runStore .stw rs2 rs1 off) s)

/-- STH (R295). -/
def execSth (i : Issue) (rs2 rs1 : Fin 32) (off : BitVec 12) (s : State) : Host.Outcome State Fault Refusal :=
  .next (issue i (.store .sth rs2 rs1 off) (runStore .sth rs2 rs1 off) s)

/-- STB (R295). -/
def execStb (i : Issue) (rs2 rs1 : Fin 32) (off : BitVec 12) (s : State) : Host.Outcome State Fault Refusal :=
  .next (issue i (.store .stb rs2 rs1 off) (runStore .stb rs2 rs1 off) s)

/-- BCOPY (R302), with the words copied before the slot ends. -/
def execBcopy (i : Issue) (rd rs1 rs2 : Fin 32) (words : BitVec 21) (s : State) : Host.Outcome State Fault Refusal :=
  .next (issue i (.bcopy rd rs1 rs2) (runBcopy rd rs1 rs2 words.toNat) s)

/-- FENCE (R301): a store of this model has reached its bank when it completes. -/
def execFence (i : Issue) (s : State) : Host.Outcome State Fault Refusal :=
  .next (issue i .fence (fun t => done t (fun x => x)) s)

end Sys2Proof.Machine
end

