-- ==== Sys2Proof/Machine/Dispatch.lean ====
section
/-! DEFINITION. One arm per command, each a direct call of its meaning. -/

namespace Sys2Proof.Machine

/-- The effect of a command on everything but the queue. -/
def exec (i : Instr) (s : State) : Host.Outcome State Fault Refusal :=
  match i with
  | .slotBoundary => Sys2Proof.Machine.execSlotBoundary s
  | .revolutionBoundary ports eyes temps => Sys2Proof.Machine.execRevolutionBoundary ports eyes temps s
  | .scrubAccess bank found => Sys2Proof.Machine.execScrubAccess bank found s
  | .logScrubAccess bad => Sys2Proof.Machine.execLogScrubAccess bad s
  | .aonTick linear => Sys2Proof.Machine.execAonTick linear s
  | .rtcSecond => Sys2Proof.Machine.execRtcSecond s
  | .hostRegisterWrite a parts fuse => Sys2Proof.Machine.execHostRegisterWrite a parts fuse s
  | .rcRead a parts => Sys2Proof.Machine.execRcRead a parts s
  | .counterLowRead a => Sys2Proof.Machine.execCounterLowRead a s
  | .bitAliasWrite word bit v => Sys2Proof.Machine.execBitAliasWrite word bit v s
  | .bankCommit b => Sys2Proof.Machine.execBankCommit b s
  | .clampPop => Sys2Proof.Machine.execClampPop s
  | .mdioWindowRead => Sys2Proof.Machine.execMdioWindowRead s
  | .mdioWindowWrite => Sys2Proof.Machine.execMdioWindowWrite s
  | .mdioWindowAccessDone fuse => Sys2Proof.Machine.execMdioWindowAccessDone fuse s
  | .mdioStandardWrite n mmd reg v => Sys2Proof.Machine.execMdioStandardWrite n mmd reg v s
  | .latchLowRead n mmd reg => Sys2Proof.Machine.execLatchLowRead n mmd reg s
  | .ldpcFrameDecode n iterations result frames => Sys2Proof.Machine.execLdpcFrameDecode n iterations result frames s
  | .partnerPulsesSeen n => Sys2Proof.Machine.execPartnerPulsesSeen n s
  | .idleDetected n => Sys2Proof.Machine.execIdleDetected n s
  | .pageExchangeComplete n ex => Sys2Proof.Machine.execPageExchangeComplete n ex s
  | .breakLinkTimer n => Sys2Proof.Machine.execBreakLinkTimer n s
  | .autonegWaitTimer n => Sys2Proof.Machine.execAutonegWaitTimer n s
  | .linkFailInhibitTimer n => Sys2Proof.Machine.execLinkFailInhibitTimer n s
  | .trainPhaseEnd n r => Sys2Proof.Machine.execTrainPhaseEnd n r s
  | .receiverStatusOk n => Sys2Proof.Machine.execReceiverStatusOk n s
  | .partnerLost n => Sys2Proof.Machine.execPartnerLost n s
  | .linkStatusFailure n => Sys2Proof.Machine.execLinkStatusFailure n s
  | .advertisementRestore n => Sys2Proof.Machine.execAdvertisementRestore n s
  | .partnerEnergyReturn n => Sys2Proof.Machine.execPartnerEnergyReturn n s
  | .probeSTimer n => Sys2Proof.Machine.execProbeSTimer n s
  | .probeTimeout n => Sys2Proof.Machine.execProbeTimeout n s
  | .probeAnswer n partner => Sys2Proof.Machine.execProbeAnswer n partner s
  | .probeRequest n => Sys2Proof.Machine.execProbeRequest n s
  | .cableTestEnd n results => Sys2Proof.Machine.execCableTestEnd n results s
  | .cableTestStop n classified => Sys2Proof.Machine.execCableTestStop n classified s
  | .cableTest n => Sys2Proof.Machine.execCableTest n s
  | .fastRetrain n => Sys2Proof.Machine.execFastRetrain n s
  | .anRestart n => Sys2Proof.Machine.execAnRestart n s
  | .restart n => Sys2Proof.Machine.execRestart n s
  | .partnerRetrainRequest n => Sys2Proof.Machine.execPartnerRetrainRequest n s
  | .fastRetrainComplete n coefs => Sys2Proof.Machine.execFastRetrainComplete n coefs s
  | .fastRetrainTimeout n => Sys2Proof.Machine.execFastRetrainTimeout n s
  | .tripSlotReceived n word => Sys2Proof.Machine.execTripSlotReceived n word s
  | .heartbeatWatchdog n => Sys2Proof.Machine.execHeartbeatWatchdog n s
  | .tripSlotSend n => Sys2Proof.Machine.execTripSlotSend n s
  | .tripInEdge i0 => Sys2Proof.Machine.execTripInEdge i0 s
  | .tripCodeComputed n set => Sys2Proof.Machine.execTripCodeComputed n set s
  | .tripOutHoldExpiry j => Sys2Proof.Machine.execTripOutHoldExpiry j s
  | .tripOutRelease mask => Sys2Proof.Machine.execTripOutRelease mask s
  | .sideshowTripMessage n body => Sys2Proof.Machine.execSideshowTripMessage n body s
  | .sessionOffer n m => Sys2Proof.Machine.execSessionOffer n m s
  | .sessionAccept n m => Sys2Proof.Machine.execSessionAccept n m s
  | .sessionConfirm n m => Sys2Proof.Machine.execSessionConfirm n m s
  | .sessionReady n m => Sys2Proof.Machine.execSessionReady n m s
  | .offerRetryTimer n => Sys2Proof.Machine.execOfferRetryTimer n s
  | .sessionEstablishTimeout n => Sys2Proof.Machine.execSessionEstablishTimeout n s
  | .ncLms b errors symbols quiet => Sys2Proof.Machine.execNcLms b errors symbols quiet s
  | .reachFeq n p first coefs => Sys2Proof.Machine.execReachFeq n p first coefs s
  | .reachVec b taps quiet => Sys2Proof.Machine.execReachVec b taps quiet s
  | .scanStart => Sys2Proof.Machine.execScanStart s
  | .scanStop => Sys2Proof.Machine.execScanStop s
  | .scanPairComplete v found => Sys2Proof.Machine.execScanPairComplete v found s
  | .reachSymbol n overhead trip words frames => Sys2Proof.Machine.execReachSymbol n overhead trip words frames s
  | .bitSwapRequest n entries symCnt => Sys2Proof.Machine.execBitSwapRequest n entries symCnt s
  | .arm n symCnt => Sys2Proof.Machine.execArm n symCnt s
  | .swapArmedSymbol n transmit => Sys2Proof.Machine.execSwapArmedSymbol n transmit s
  | .rateStepDown n symCnt => Sys2Proof.Machine.execRateStepDown n symCnt s
  | .loadingTable n table => Sys2Proof.Machine.execLoadingTable n table s
  | .loadingRetrainComplete n tones => Sys2Proof.Machine.execLoadingRetrainComplete n tones s
  | .reachTrainingTimeout n => Sys2Proof.Machine.execReachTrainingTimeout n s
  | .vectorJoinTimeout n => Sys2Proof.Machine.execVectorJoinTimeout n s
  | .pauseRepeatTimer n => Sys2Proof.Machine.execPauseRepeatTimer n s
  | .hostFrameToFifo n length => Sys2Proof.Machine.execHostFrameToFifo n length s
  | .ssFrameReceived n steps => Sys2Proof.Machine.execSsFrameReceived n steps s
  | .ssPreambleTimeout n => Sys2Proof.Machine.execSsPreambleTimeout n s
  | .ackTx n => Sys2Proof.Machine.execAckTx n s
  | .ssFrameEnqueue => Sys2Proof.Machine.execSsFrameEnqueue s
  | .ssFrameTransmit n => Sys2Proof.Machine.execSsFrameTransmit n s
  | .ssAckTimeout n => Sys2Proof.Machine.execSsAckTimeout n s
  | .ssBusyTimeout n => Sys2Proof.Machine.execSsBusyTimeout n s
  | .energyDetect n => Sys2Proof.Machine.execEnergyDetect n s
  | .oscillatorStartFail => Sys2Proof.Machine.execOscillatorStartFail s
  | .messageReassembled => Sys2Proof.Machine.execMessageReassembled s
  | .reassemblyTimeout => Sys2Proof.Machine.execReassemblyTimeout s
  | .beaconTimer n => Sys2Proof.Machine.execBeaconTimer n s
  | .beaconReceived n b => Sys2Proof.Machine.execBeaconReceived n b s
  | .neighbourMissing i0 => Sys2Proof.Machine.execNeighbourMissing i0 s
  | .portSet => Sys2Proof.Machine.execPortSet s
  | .attest => Sys2Proof.Machine.execAttest s
  | .tripArm => Sys2Proof.Machine.execTripArm s
  | .tripDisarm => Sys2Proof.Machine.execTripDisarm s
  | .diagRun => Sys2Proof.Machine.execDiagRun s
  | .timeSet => Sys2Proof.Machine.execTimeSet s
  | .logSummary => Sys2Proof.Machine.execLogSummary s
  | .ctxClear => Sys2Proof.Machine.execCtxClear s
  | .journalWriteDone ok fuse => Sys2Proof.Machine.execJournalWriteDone ok fuse s
  | .rebase n => Sys2Proof.Machine.execRebase n s
  | .calVisitEnd obs => Sys2Proof.Machine.execCalVisitEnd obs s
  | .spareSwitchIn v => Sys2Proof.Machine.execSpareSwitchIn v s
  | .force => Sys2Proof.Machine.execForce s
  | .swap => Sys2Proof.Machine.execSwap s
  | .lpiEntryTimer n => Sys2Proof.Machine.execLpiEntryTimer n s
  | .lpiPhaseEnd n changes => Sys2Proof.Machine.execLpiPhaseEnd n changes s
  | .lpiWakeRequest n alert changes => Sys2Proof.Machine.execLpiWakeRequest n alert changes s
  | .lpiWakeDone n => Sys2Proof.Machine.execLpiWakeDone n s
  | .laneExitDone l => Sys2Proof.Machine.execLaneExitDone l s
  | .cdrLock l => Sys2Proof.Machine.execCdrLock l s
  | .cdrLockLost l signal => Sys2Proof.Machine.execCdrLockLost l signal s
  | .laneLockGained l => Sys2Proof.Machine.execLaneLockGained l s
  | .laneLockLost l hdrGood => Sys2Proof.Machine.execLaneLockLost l hdrGood s
  | .slip l => Sys2Proof.Machine.execSlip l s
  | .markerReceived l m => Sys2Proof.Machine.execMarkerReceived l m s
  | .mequelCodeword l result => Sys2Proof.Machine.execMequelCodeword l result s
  | .sideBlockReceived l block => Sys2Proof.Machine.execSideBlockReceived l block s
  | .tunnelMessage n => Sys2Proof.Machine.execTunnelMessage n s
  | .usxgmiiAnAck l => Sys2Proof.Machine.execUsxgmiiAnAck l s
  | .hostFaultReceived l stream fault => Sys2Proof.Machine.execHostFaultReceived l stream fault s
  | .add i0 rd rs1 rs2 => Sys2Proof.Machine.execAdd i0 rd rs1 rs2 s
  | .sub i0 rd rs1 rs2 => Sys2Proof.Machine.execSub i0 rd rs1 rs2 s
  | .and i0 rd rs1 rs2 => Sys2Proof.Machine.execAnd i0 rd rs1 rs2 s
  | .or i0 rd rs1 rs2 => Sys2Proof.Machine.execOr i0 rd rs1 rs2 s
  | .xor i0 rd rs1 rs2 => Sys2Proof.Machine.execXor i0 rd rs1 rs2 s
  | .sll i0 rd rs1 rs2 => Sys2Proof.Machine.execSll i0 rd rs1 rs2 s
  | .srl i0 rd rs1 rs2 => Sys2Proof.Machine.execSrl i0 rd rs1 rs2 s
  | .sra i0 rd rs1 rs2 => Sys2Proof.Machine.execSra i0 rd rs1 rs2 s
  | .slt i0 rd rs1 rs2 => Sys2Proof.Machine.execSlt i0 rd rs1 rs2 s
  | .sltu i0 rd rs1 rs2 => Sys2Proof.Machine.execSltu i0 rd rs1 rs2 s
  | .min i0 rd rs1 rs2 => Sys2Proof.Machine.execMin i0 rd rs1 rs2 s
  | .max i0 rd rs1 rs2 => Sys2Proof.Machine.execMax i0 rd rs1 rs2 s
  | .mul i0 rd rs1 rs2 => Sys2Proof.Machine.execMul i0 rd rs1 rs2 s
  | .mulh i0 rd rs1 rs2 => Sys2Proof.Machine.execMulh i0 rd rs1 rs2 s
  | .mulhu i0 rd rs1 rs2 => Sys2Proof.Machine.execMulhu i0 rd rs1 rs2 s
  | .div i0 rd rs1 rs2 => Sys2Proof.Machine.execDiv i0 rd rs1 rs2 s
  | .divu i0 rd rs1 rs2 => Sys2Proof.Machine.execDivu i0 rd rs1 rs2 s
  | .rem i0 rd rs1 rs2 => Sys2Proof.Machine.execRem i0 rd rs1 rs2 s
  | .remu i0 rd rs1 rs2 => Sys2Proof.Machine.execRemu i0 rd rs1 rs2 s
  | .addi i0 rd rs1 v => Sys2Proof.Machine.execAddi i0 rd rs1 v s
  | .andi i0 rd rs1 v => Sys2Proof.Machine.execAndi i0 rd rs1 v s
  | .ori i0 rd rs1 v => Sys2Proof.Machine.execOri i0 rd rs1 v s
  | .xori i0 rd rs1 v => Sys2Proof.Machine.execXori i0 rd rs1 v s
  | .slli i0 rd rs1 sh => Sys2Proof.Machine.execSlli i0 rd rs1 sh s
  | .srli i0 rd rs1 sh => Sys2Proof.Machine.execSrli i0 rd rs1 sh s
  | .srai i0 rd rs1 sh => Sys2Proof.Machine.execSrai i0 rd rs1 sh s
  | .movl i0 rd v => Sys2Proof.Machine.execMovl i0 rd v s
  | .movh i0 rd v => Sys2Proof.Machine.execMovh i0 rd v s
  | .cmp i0 pd cond rs1 rs2 => Sys2Proof.Machine.execCmp i0 pd cond rs1 rs2 s
  | .cmpi i0 pd cond rs1 v => Sys2Proof.Machine.execCmpi i0 pd cond rs1 v s
  | .pand i0 pd ps1 ps2 => Sys2Proof.Machine.execPand i0 pd ps1 ps2 s
  | .por i0 pd ps1 ps2 => Sys2Proof.Machine.execPor i0 pd ps1 ps2 s
  | .pxor i0 pd ps1 ps2 => Sys2Proof.Machine.execPxor i0 pd ps1 ps2 s
  | .pandn i0 pd ps1 ps2 => Sys2Proof.Machine.execPandn i0 pd ps1 ps2 s
  | .ldw i0 rd rs1 off => Sys2Proof.Machine.execLdw i0 rd rs1 off s
  | .ldh i0 rd rs1 off => Sys2Proof.Machine.execLdh i0 rd rs1 off s
  | .ldhu i0 rd rs1 off => Sys2Proof.Machine.execLdhu i0 rd rs1 off s
  | .ldb i0 rd rs1 off => Sys2Proof.Machine.execLdb i0 rd rs1 off s
  | .ldbu i0 rd rs1 off => Sys2Proof.Machine.execLdbu i0 rd rs1 off s
  | .stw i0 rs2 rs1 off => Sys2Proof.Machine.execStw i0 rs2 rs1 off s
  | .sth i0 rs2 rs1 off => Sys2Proof.Machine.execSth i0 rs2 rs1 off s
  | .stb i0 rs2 rs1 off => Sys2Proof.Machine.execStb i0 rs2 rs1 off s
  | .bcopy i0 rd rs1 rs2 words => Sys2Proof.Machine.execBcopy i0 rd rs1 rs2 words s
  | .fence i0 => Sys2Proof.Machine.execFence i0 s
  | .br i0 off => Sys2Proof.Machine.execBr i0 off s
  | .bl i0 off => Sys2Proof.Machine.execBl i0 off s
  | .jr i0 rs1 => Sys2Proof.Machine.execJr i0 rs1 s
  | .csrr i0 rd csr => Sys2Proof.Machine.execCsrr i0 rd csr s
  | .csrw i0 rs2 csr => Sys2Proof.Machine.execCsrw i0 rs2 csr s
  | .sysc i0 v => Sys2Proof.Machine.execSysc i0 v s
  | .eret i0 => Sys2Proof.Machine.execEret i0 s
  | .waits i0 slot => Sys2Proof.Machine.execWaits i0 slot s
  | .yield i0 => Sys2Proof.Machine.execYield i0 s
  | .ejob i0 rd rs1 rs2 => Sys2Proof.Machine.execEjob i0 rd rs1 rs2 s
  | .dmaq i0 rd rs1 rs2 => Sys2Proof.Machine.execDmaq i0 rd rs1 rs2 s
  | .hash i0 rd rs1 rs2 => Sys2Proof.Machine.execHash i0 rd rs1 rs2 s
  | .lattVerify i0 rd rs1 rs2 => Sys2Proof.Machine.execLattVerify i0 rd rs1 rs2 s
  | .lattSign i0 rd rs1 rs2 => Sys2Proof.Machine.execLattSign i0 rd rs1 rs2 s
  | .lattEncapsulate i0 rd rs1 rs2 => Sys2Proof.Machine.execLattEncapsulate i0 rd rs1 rs2 s
  | .lattDecapsulate i0 rd rs1 rs2 => Sys2Proof.Machine.execLattDecapsulate i0 rd rs1 rs2 s
  | .lattKeygen i0 rd rs1 rs2 => Sys2Proof.Machine.execLattKeygen i0 rd rs1 rs2 s
  | .lattInvalid i0 rd rs1 rs2 => Sys2Proof.Machine.execLattInvalid i0 rd rs1 rs2 s
  | .trip i0 rs1 => Sys2Proof.Machine.execTrip i0 rs1 s
  | .snap i0 rd rs1 rs2 => Sys2Proof.Machine.execSnap i0 rd rs1 rs2 s
  | .jpoll i0 pd rs1 => Sys2Proof.Machine.execJpoll i0 pd rs1 s
  | .jwait i0 rd rs1 => Sys2Proof.Machine.execJwait i0 rd rs1 s
  | .engineJobEnd e => Sys2Proof.Machine.execEngineJobEnd e s
  | .hashJobEnd => Sys2Proof.Machine.execHashJobEnd s
  | .latticeJobEnd own failed => Sys2Proof.Machine.execLatticeJobEnd own failed s
  | .load => Sys2Proof.Machine.execLoad s
  | .fromFlash => Sys2Proof.Machine.execFromFlash s
  | .revert => Sys2Proof.Machine.execRevert s
  | .cancel => Sys2Proof.Machine.execCancel s
  | .wheelImageFetched result => Sys2Proof.Machine.execWheelImageFetched result s
  | .wheelAdmissionDone => Sys2Proof.Machine.execWheelAdmissionDone s
  | .taskSelWrite w => Sys2Proof.Machine.execTaskSelWrite w s
  | .sqCtxSelWrite w => Sys2Proof.Machine.execSqCtxSelWrite w s
  | .ssCtxSelWrite w => Sys2Proof.Machine.execSsCtxSelWrite w s
  | .trimSelWrite w => Sys2Proof.Machine.execTrimSelWrite w s
  | .coefSelWrite n w => Sys2Proof.Machine.execCoefSelWrite n w s
  | .ringProdWrite r prod => Sys2Proof.Machine.execRingProdWrite r prod s
  | .dmaBurst => Sys2Proof.Machine.execDmaBurst s
  | .dmaReadCompletion k result => Sys2Proof.Machine.execDmaReadCompletion k result s
  | .tlbWalkDone => Sys2Proof.Machine.execTlbWalkDone s
  | .resume r => Sys2Proof.Machine.execResume r s
  | .abort r => Sys2Proof.Machine.execAbort r s
  | .invOne => Sys2Proof.Machine.execInvOne s
  | .invAll => Sys2Proof.Machine.execInvAll s
  | .invalidateDone => Sys2Proof.Machine.execInvalidateDone s
  | .submit => Sys2Proof.Machine.execSubmit s
  | .enrol fuse => Sys2Proof.Machine.execEnrol fuse s
  | .checkpoint => Sys2Proof.Machine.execCheckpoint s
  | .manifestReceived => Sys2Proof.Machine.execManifestReceived s
  | .manifestReg a v => Sys2Proof.Machine.execManifestReg a v s
  | .manifestRoute node port metric hop => Sys2Proof.Machine.execManifestRoute node port metric hop s
  | .manifestRouteDel node => Sys2Proof.Machine.execManifestRouteDel node s
  | .opKey slot permitted key => Sys2Proof.Machine.execOpKey slot permitted key s
  | .opKeyDel slot => Sys2Proof.Machine.execOpKeyDel slot s
  | .ownerEnrol slot hash => Sys2Proof.Machine.execOwnerEnrol slot hash s
  | .ownerRevoke slot signer => Sys2Proof.Machine.execOwnerRevoke slot signer s
  | .svnCommit v => Sys2Proof.Machine.execSvnCommit v s
  | .sealDevice => Sys2Proof.Machine.execSeal s
  | .msixHeldSend e => Sys2Proof.Machine.execMsixHeldSend e s
  | .alarmAckWrite seq => Sys2Proof.Machine.execAlarmAckWrite seq s
  | .expRdWrite c idx => Sys2Proof.Machine.execExpRdWrite c idx s
  | .exportStallTimeout c => Sys2Proof.Machine.execExportStallTimeout c s
  | .logRecordsFreed => Sys2Proof.Machine.execLogRecordsFreed s
  | .ssLogSummaryDue => Sys2Proof.Machine.execSsLogSummaryDue s
  | .mmd31LoadRecord c seq => Sys2Proof.Machine.execMmd31LoadRecord c seq s
  | .mmd31LastWordRead port => Sys2Proof.Machine.execMmd31LastWordRead port s
  | .mmd31Acknowledge c seq => Sys2Proof.Machine.execMmd31Acknowledge c seq s
  | .recSelWrite seq => Sys2Proof.Machine.execRecSelWrite seq s
  | .clearAll hits => Sys2Proof.Machine.execClearAll hits s
  | .powerRequest target src => Sys2Proof.Machine.execPowerRequest target src s
  | .entryHandshakeAnswer b limit => Sys2Proof.Machine.execEntryHandshakeAnswer b limit s
  | .entryCrcDone => Sys2Proof.Machine.execEntryCrcDone s
  | .deepSleepBeaconTimeout => Sys2Proof.Machine.execDeepSleepBeaconTimeout s
  | .railAcknowledge r => Sys2Proof.Machine.execRailAcknowledge r s
  | .statusWordPoll r status vout => Sys2Proof.Machine.execStatusWordPoll r status vout s
  | .railFault r f => Sys2Proof.Machine.execRailFault r f s
  | .pmbusAlert status => Sys2Proof.Machine.execPmbusAlert status s
  | .wakePin asserted => Sys2Proof.Machine.execWakePin asserted s
  | .rtcAlarm => Sys2Proof.Machine.execRtcAlarm s
  | .hostAccessInSleep addr isRead mdio => Sys2Proof.Machine.execHostAccessInSleep addr isRead mdio s
  | .wakeClocksReady => Sys2Proof.Machine.execWakeClocksReady s
  | .wakeCrcCheck bad held => Sys2Proof.Machine.execWakeCrcCheck bad held s
  | .rtcSetWrite w => Sys2Proof.Machine.execRtcSetWrite w s
  | .powerOnReset => Sys2Proof.Machine.execPowerOnReset s
  | .resetN => Sys2Proof.Machine.execResetN s
  | .device => Sys2Proof.Machine.execDevice s
  | .longNext => Sys2Proof.Machine.execLongNext s
  | .supplyDrop => Sys2Proof.Machine.execSupplyDrop s
  | .jtagTapReset => Sys2Proof.Machine.execJtagTapReset s
  | .perstN => Sys2Proof.Machine.execPerstN s
  | .managementReady b => Sys2Proof.Machine.execManagementReady b s
  | .segmentEnd run => Sys2Proof.Machine.execSegmentEnd run s
  | .rotationStep => Sys2Proof.Machine.execRotationStep s
  | .rotationElementEnd run => Sys2Proof.Machine.execRotationElementEnd run s
  | .write => Sys2Proof.Machine.execWrite s
  | .verify => Sys2Proof.Machine.execVerify s
  | .activate => Sys2Proof.Machine.execActivate s
  | .fwCancel => Sys2Proof.Machine.execFwCancel s
  | .fwWriteDone result programmed => Sys2Proof.Machine.execFwWriteDone result programmed s
  | .fwVerifyDone places => Sys2Proof.Machine.execFwVerifyDone places s
  | .snapHoldWrite v => Sys2Proof.Machine.execSnapHoldWrite v s
  | .snapHoldExpiry => Sys2Proof.Machine.execSnapHoldExpiry s
  | .resetRelease => Sys2Proof.Machine.execResetRelease s
  | .aonSupplyFall => Sys2Proof.Machine.execAonSupplyFall s
  | .pcieLinkChange c => Sys2Proof.Machine.execPcieLinkChange c s
  | .tripInDeassert i0 => Sys2Proof.Machine.execTripInDeassert i0 s
  | .partnerLpiSignal n => Sys2Proof.Machine.execPartnerLpiSignal n s
  | .oscillatorReady => Sys2Proof.Machine.execOscillatorReady s
  | .perfCounterWrap k => Sys2Proof.Machine.execPerfCounterWrap k s
  | .rateMatchFifoDrain n bytes => Sys2Proof.Machine.execRateMatchFifoDrain n bytes s

end Sys2Proof.Machine
end

