-- ==== Sys2Proof/Machine/Idle.lean ====
section
/-! DEFINITION. What a core cycle without a command does (spec/01_architecture.md, R16, R20; spec/19_performance_counters.md, R397,
R398). The table has no row for a cycle: it is what a step does when no command waits (DESIGN CHOICE, log entry 2). -/

namespace Sys2Proof.Machine

/-- The events of R398 that last for whole cycles, as they stand in this one: a core in a restartable wait, a core gated in IDLE,
and a page walk. -/
def State.cycleEvents (s : State) : List (Nat × Nat) :=
  let core := fun (c : Nat) =>
    let waits := match s.coreTask c with
      | some k => (s.ctx k).wait != 0 && !(s.ctx k).quarantined
      | none => false
    (if waits then [(c, 0x05)] else []) ++
      (if s.powerState == stIdle && s.flag (SQ.CORE_STATUS.gated.nth c) then [(c, 0x0D)] else [])
  (List.range 4).flatMap core ++
    (if (List.range 16).any (fun r => s.ringState r == rsWalking) then [(4, 0x04)] else [])

/-- One 500 MHz cycle: while the system PLL runs DEV_TIME and PERF.CYCLE advance and cycle events are counted; a slot's last
cycle lasts until its boundary. With the PLL off nothing happens. -/
def idleCycle (s : State) : State :=
  if s.clk.pllOn then
    let s := (s.cycleEvents).foldl (fun s (e : Nat × Nat) => perfCount e.1 e.2 s) s
    let s := passCycles 1 s
    if s.clk.wheelOn && decide (s.clk.cycle < 124) then s.withClk { s.clk with cycle := s.clk.cycle + 1 } else s
  else s

end Sys2Proof.Machine
end

