-- ==== Sys2Proof/Safety.lean ====
section
/-! DEFINITION. What a sound state is, and how it is said that a command changes nothing but what it names. -/

namespace Sys2Proof.Machine

/-! ### Sound states -/

/-- The register file is in canonical form. -/
abbrev State.regsWf (s : State) : Prop := storeWf resetWord s.regs

/-- A list of block descriptors names blocks of the pool's 1,024 only (R133). -/
def inPool (l : List (Nat × Word)) : Prop := ∀ e ∈ l, e.1 < 1024

/-- The stores are in canonical form, the clock stands inside a slot of the revolution (R20), and no block descriptor names a block
the pool does not have (R133). -/
structure State.Canonical (s : State) : Prop where
  regs : s.regsWf
  memory : Memory.wf s.sram
  cycle : s.clk.cycle ≤ 124
  slot : s.clk.slot ≤ 4095
  blocks : inPool s.pool.descs

/-- A sound state: canonical, and every command that waits is well formed. -/
structure State.Sound (s : State) : Prop where
  canonical : s.Canonical
  queue : ∀ c ∈ s.pending, c.wellFormed = true

/-- The step answers a next state: neither a fault nor a refusal. -/
def State.answers (s : State) : Prop := ∃ t, step s = .next t

/-! ### Parts of the state -/

/-- The parts of the state, one for each of its fields. -/
inductive Part where
  | pending | regs | clk | host | pcie | logs | out | freeCount | perf | chain | messages | signing | signCount | links | coefs
  | trips | pins | pool | reach | lpi | classes | mons | cal | lanes | sides | sram | wheel | seq | dma | net | trust | fw | power | boot
deriving DecidableEq, Repr

/-- Part `p` of `t` is that of `s`. -/
def Part.same (s t : State) : Part → Prop
  | .pending => t.pending = s.pending
  | .regs => t.regs = s.regs
  | .clk => t.clk = s.clk
  | .host => t.host = s.host
  | .pcie => t.pcie = s.pcie
  | .logs => t.logs = s.logs
  | .out => t.out = s.out
  | .freeCount => t.freeCount = s.freeCount
  | .perf => t.perf = s.perf
  | .chain => t.chain = s.chain
  | .messages => t.messages = s.messages
  | .signing => t.signing = s.signing
  | .signCount => t.signCount = s.signCount
  | .links => t.links = s.links
  | .coefs => t.coefs = s.coefs
  | .trips => t.trips = s.trips
  | .pins => t.pins = s.pins
  | .pool => t.pool = s.pool
  | .reach => t.reach = s.reach
  | .lpi => t.lpi = s.lpi
  | .classes => t.classes = s.classes
  | .mons => t.mons = s.mons
  | .cal => t.cal = s.cal
  | .lanes => t.lanes = s.lanes
  | .sides => t.sides = s.sides
  | .sram => t.sram = s.sram
  | .wheel => t.wheel = s.wheel
  | .seq => t.seq = s.seq
  | .dma => t.dma = s.dma
  | .net => t.net = s.net
  | .trust => t.trust = s.trust
  | .fw => t.fw = s.fw
  | .power => t.power = s.power
  | .boot => t.boot = s.boot

/-- From `s` to `t` only the parts listed may change. -/
def Within (l : List Part) (s t : State) : Prop := ∀ p : Part, l.contains p = false → p.same s t

/-! ### Records -/

/-- The registers that counting, events, records and samples write: EVT.PEND and EVT.PBA; LOG.STATUS, LOG.TRACE_DROP and LOG.CAUSE;
PERF.CAUSE, PERF.OVF, PERF.CNT and PERF.CNT_HI; PERF.SAMP_STATUS and PERF.SAMP. -/
def recordArea (a : Nat) : Bool :=
  (decide (EVT.PEND ≤ a) && decide (a < EVT.PEND + 32)) || (decide (EVT.PBA ≤ a) && decide (a < EVT.PBA + 32)) ||
    decide (a = LOG.STATUS) || decide (a = LOG.TRACE_DROP) || decide (a = LOG.CAUSE) || decide (a = PERF.CAUSE) ||
    (decide (PERF.OVF ≤ a) && decide (a < PERF.OVF + 20)) || (decide (PERF.CNT ≤ a) && decide (a < PERF.CNT + 320)) ||
    decide (a = PERF.SAMP_STATUS) || (decide (PERF.SAMP ≤ a) && decide (a < PERF.SAMP + 8192))

/-- The parts that counting, events, samples, and ALARM and TRACE records change. -/
def records : List Part := [.regs, .logs, .perf, .out]

/-- From `s` to `t` nothing changes but the registers at `words`, the parts listed, and what counting, events, samples,
and ALARM and TRACE records change: the blocks EVT, LOG and PERF, the logs, the counters, what is sent. -/
structure Changes (words : List Nat) (parts : List Part) (s t : State) : Prop where
  registers : ∀ a, a ∉ words → recordArea a = false → t.word a = s.word a
  rest : Within (records ++ parts) s t

/-- From `s` to `t` nothing changes but the registers of `area`, the parts listed, and what counting, events, samples and records
change. -/
structure ChangesIn (area : Nat → Bool) (parts : List Part) (s t : State) : Prop where
  registers : ∀ a, area a = false → recordArea a = false → t.word a = s.word a
  rest : Within (records ++ parts) s t

/-- The registers that follow the pool's blocks: BLOCK_STATE, NC_PAIR, POOL_STATUS, and LINE_STATUS and REACH_STATUS of every port
(R136, R148). -/
def poolArea (a : Nat) : Bool :=
  (decide (JUG.BLOCK_STATE ≤ a) && decide (a < JUG.BLOCK_STATE + 4096)) || (decide (JUG.NC_PAIR ≤ a) && decide (a < JUG.NC_PAIR + 512)) ||
    decide (a = JUG.POOL_STATUS) ||
    (List.range 32).any (fun n => decide (a = portAddr n P.LINE_STATUS) || decide (a = portAddr n P.REACH_STATUS))

/-! ### Ports' trip registers -/

/-- The registers of a port that follow its session and its launches: PORT_STATUS, TX_K and RX_BASE. -/
def sessionWords (n : Nat) : List Nat :=
  [TRIP.PORT_STATUS + 4 * n, TRIP.TX_K + 16 * n, TRIP.TX_K_HI + 16 * n, TRIP.RX_BASE + 16 * n, TRIP.RX_BASE_HI + 16 * n]

/-- Those of every port. -/
def launchWords : List Nat := (List.range 32).flatMap sessionWords

/-- What a launch request leaves of port `n` that can start a burst now: the codes that are ready, up to repeat; with none it waits. -/
def Bursts (n : Nat) (s u : State) : Prop :=
  ∀ ready, ready = (match (s.trip n).txSess with
    | some x => x.txCodes.length
    | none => 0) →
    u.trip n = { s.trip n with burst := Min.min ready (s.act (TRIP.PORT_CFG.repeat.nth n)), waiting := decide (ready = 0) }

/-- A port that starts a burst on a launch request: its session is ARMED, it is not in FRETRAIN, and no burst is under way. -/
structure State.CanBurst (s : State) (n : Nat) : Prop where
  armed : (s.trip n).armed = true
  notRetraining : s.fsm n ≠ 7
  idle : (s.trip n).burst = 0 ∧ (s.trip n).waiting = false

/-! ### Links -/

/-- The registers the supervision of port `n` writes: its own block, those of its trip session, OUT_STATUS, the pool's, and the count of
clamp entries dropped. -/
def linkArea (n a : Nat) : Bool :=
  (decide (0x100000 + 0x10000 * n ≤ a) && decide (a < 0x110000 + 0x10000 * n)) || (sessionWords n).contains a ||
    decide (a = TRIP.PORT_CAUSE + 4 * n) || decide (a = TRIP.OUT_STATUS) || decide (a = CHIP.CLAMP_STATUS) || poolArea a

/-- The parts the supervision of a port changes. -/
def linkParts : List Part := [.host, .links, .trips, .pool, .reach, .lpi, .mons, .coefs, .messages, .signing, .sram, .dma]

/-- What port `n` alone changes: its registers, and no other port's hidden state. -/
structure PortOnly (n : Nat) (s u : State) : Prop where
  changes : ChangesIn (linkArea n) linkParts s u
  others : ∀ m, m ≠ n → u.link m = s.link m ∧ u.trip m = s.trip m ∧ u.rch m = s.rch m ∧ u.idle m = s.idle m ∧ u.mon m = s.mon m

/-- A link has gone down into state `st` with AN_STATUS.last_fail `code` (R75, R112, R115): no mode, rate or link, hb_lost set, a session
suspended, and where the link was up one more in LINK_DOWN and event 6n. -/
structure LinkIsDown (n st code : Nat) (s u : State) : Prop where
  state : u.fsm n = st
  why : u.rd (P.AN_STATUS.last_fail.port n) = code
  noLink : u.rd (P.LINE_STATUS.link_up.port n) = 0 ∧ u.modeNow n = 7 ∧ u.rateNow n = 7
  heartbeat : u.rd (TRIP.PORT_STATUS.hb_lost.nth n) = 1
  session : (u.trip n).sess.isSome = true → (u.trip n).suspended = true
  counted : s.rd (P.LINE_STATUS.link_up.port n) = 1 →
    u.rd (P.LINK_DOWN.count.port n) = Min.min 0xFFFFFFFF (s.rd (P.LINK_DOWN.count.port n) + 1) ∧ u.pend (6 * n) = true
  only : PortOnly n s u

/-- A port that enters ABILITY stays there: no cable test waits, and fewer exchanges have failed than start a probe (R94, R230). -/
def State.staysInAbility (s : State) (n : Nat) : Prop :=
  (s.link n).tests = [] ∧ (s.link n).autoTest = false ∧ (s.link n).exchFails < s.pact n P.AN_CFG.an_fail_max

/-- The 64-bit counter whose low word is at `a` advances by `k` (R39, R44). -/
def Advances (a k : Nat) (s u : State) : Prop := u.pair a (a + 4) = (s.pair a (a + 4) + k) % 2 ^ 64

/-! ### Sequencer cores -/

/-- Core `i.core` issues instruction `n` in turn `t`: its task may issue, the fetch is good, the word at the pc is `n`, and its guard
holds (R290, R292, R298, R299). -/
structure State.Issues (s : State) (i : Issue) (n : Nelno) (t : Turn) : Prop where
  turn : s.turn i.core.val i.latency = some t
  fetch : s.fetchBad t.key t.pc = false
  word : ∃ g, decodeNelno t.word = some g ∧ g.instr = n ∧ g.holds (s.ctx t.key) = true

/-- A context after an instruction that goes on with the next one. -/
def Turn.after (t : Turn) (x : Ctx) : Ctx := { x with pc := t.next, wait := 0 }

/-- The instruction of turn `t` leaves its task with context `x`: every other context is unchanged, and nothing else changes but
CORE_STATUS of the core, `words` and `parts`. -/
structure Retires (t : Turn) (x : Ctx) (words : List Nat) (parts : List Part) (s u : State) : Prop where
  ctx : u.ctx t.key = x
  others : ∀ k, k ≠ t.key → u.ctx k = s.ctx k
  changes : Changes ((SQ.CORE_STATUS + 4 * t.core) :: words) (.seq :: parts) s u

/-- Jobs, handles, instruction memory and modules are unchanged: of the cores only contexts change. -/
def OnlyContexts (s u : State) : Prop := u.seq = { s.seq with ctxs := u.seq.ctxs }

/-- Command `c` completes as the instruction of turn `t`: a next state, in which the task's context is `x` and nothing else of the
device has changed but the core's status. -/
def Continues (c : Instr) (t : Turn) (x : Ctx) (s : State) : Prop :=
  ∃ u, exec c s = .next u ∧ Retires t x [] [] s u ∧ OnlyContexts s u

/-- The same, with the task going on after the instruction with context `x`. -/
def Computes (c : Instr) (t : Turn) (x : Ctx) (s : State) : Prop := Continues c t (t.after x) s

/-- Command `c` completes as an issue of turn `t` that places one job of kind `k` in an entry that was free, and returns its handle in
`rd` (R303): issuing core, generation and entry. -/
def PlacesJob (c : Instr) (t : Turn) (rd rs2 : Fin 32) (k : JobKind) (words : List Nat) (parts : List Part) (s : State) : Prop :=
  ∃ u e gen, exec c s = .next u ∧ s.job e = none ∧ gen = sget (fun _ => 0) s.seq.gens e % 65535 + 1 ∧
    u.job e = some { gen := gen, core := t.core, task := t.key % 64, kind := k, detach := bitOf ((s.ctx t.key).reg rs2) 31,
                     started := false, status := none } ∧
    (∀ j, j ≠ e → u.job j = s.job j) ∧
    Retires t (t.after ((s.ctx t.key).setReg rd (BitVec.ofNat 32 (t.core * 2 ^ 30 + gen * 2 ^ 14 + e)))) words parts s u

/-- Command `c` raises the exception `cause` in turn `t` (R310, R311): a next state, in which the task is in quarantine with its
registers, predicates and pc as they were, every other context is unchanged, SQ.FAULT and SQ.FAULT_VAL of the core are written, and data
SRAM is as it was. -/
def Quarantines (c : Instr) (t : Turn) (cause : Nat) (val : Word) (s : State) : Prop :=
  ∃ u, exec c s = .next u ∧ u.ctx t.key = { s.ctx t.key with quarantined := true, wait := 0 } ∧
    (∀ k, k ≠ t.key → u.ctx k = s.ctx k) ∧
    u.rd (SQ.FAULT.cause.nth t.core) = cause ∧ u.rd (SQ.FAULT.task.nth t.core) = t.key % 64 ∧
    u.rd (SQ.FAULT.user.nth t.core) = bitNat (s.ctx t.key).user ∧ u.rd (SQ.FAULT.pc.nth t.core) = t.pc % 2 ^ 17 ∧
    u.word (SQ.FAULT_VAL + 4 * t.core) = val ∧ Within (records ++ [.seq, .dma, .pool]) s u

end Sys2Proof.Machine
end

