-- ==== Sys2Proof/Certificates/Slice0/Obligations.lean ====
section
/-! DEFINITION. The statements for the provers, from the rules of the spec. -/

open Sys2Proof Sys2Proof.Machine

/-- R290: 32 general registers and eight predicates; g0 reads 0, p0 reads 1, and writes to them are discarded. -/
def Obligations.CoreRegistersReadBack : Prop :=
  ∀ (x : Ctx),
    (∀ (r q : Fin 32) (v : Word), (x.setReg r v).reg q = (if q = 0 then 0 else if q = r then v else x.reg q)) ∧
    (∀ (r : Fin 32) (v : Word), x.setReg r v = { x with regs := (x.setReg r v).regs }) ∧
    (∀ v : Word, x.setReg 0 v = x) ∧
    (∀ (p q : Fin 8) (v : Bool), (x.setPred p v).predFlag q = (if q = 0 then true else if q = p then v else x.predFlag q)) ∧
    (∀ (p : Fin 8) (v : Bool), x.setPred p v = { x with preds := (x.setPred p v).preds }) ∧
    (∀ v : Bool, x.setPred 0 v = x)

/-- R301, opcode 0x00: `rd := rs1 op rs2` in 32 bits; shifts use rs2[4:0]. MIN and MAX compare as signed numbers (log entry 102). -/
def Obligations.CoreArithmeticWritesRd : Prop :=
  ∀ (s : State) (i : Issue) (t : Turn) (rd rs1 rs2 : Fin 32), ∀ x a b, x = s.ctx t.key → a = x.reg rs1 → b = x.reg rs2 →
    (s.Issues i (.alu .add rd rs1 rs2) t → Computes (.add i rd rs1 rs2) t (x.setReg rd (a + b)) s) ∧
    (s.Issues i (.alu .sub rd rs1 rs2) t → Computes (.sub i rd rs1 rs2) t (x.setReg rd (a - b)) s) ∧
    (s.Issues i (.alu .and rd rs1 rs2) t → Computes (.and i rd rs1 rs2) t (x.setReg rd (a &&& b)) s) ∧
    (s.Issues i (.alu .or rd rs1 rs2) t → Computes (.or i rd rs1 rs2) t (x.setReg rd (a ||| b)) s) ∧
    (s.Issues i (.alu .xor rd rs1 rs2) t → Computes (.xor i rd rs1 rs2) t (x.setReg rd (a ^^^ b)) s) ∧
    (s.Issues i (.alu .sll rd rs1 rs2) t →
      Computes (.sll i rd rs1 rs2) t (x.setReg rd (BitVec.ofNat 32 (a.toNat * 2 ^ (b.toNat % 32)))) s) ∧
    (s.Issues i (.alu .srl rd rs1 rs2) t →
      Computes (.srl i rd rs1 rs2) t (x.setReg rd (BitVec.ofNat 32 (a.toNat / 2 ^ (b.toNat % 32)))) s) ∧
    (s.Issues i (.alu .sra rd rs1 rs2) t →
      Computes (.sra i rd rs1 rs2) t (x.setReg rd (BitVec.ofInt 32 (a.toInt / 2 ^ (b.toNat % 32)))) s) ∧
    (s.Issues i (.alu .slt rd rs1 rs2) t →
      Computes (.slt i rd rs1 rs2) t (x.setReg rd (if a.toInt < b.toInt then 1 else 0)) s) ∧
    (s.Issues i (.alu .sltu rd rs1 rs2) t →
      Computes (.sltu i rd rs1 rs2) t (x.setReg rd (if a.toNat < b.toNat then 1 else 0)) s) ∧
    (s.Issues i (.alu .min rd rs1 rs2) t →
      Computes (.min i rd rs1 rs2) t (x.setReg rd (BitVec.ofInt 32 (Min.min a.toInt b.toInt))) s) ∧
    (s.Issues i (.alu .max rd rs1 rs2) t →
      Computes (.max i rd rs1 rs2) t (x.setReg rd (BitVec.ofInt 32 (Max.max a.toInt b.toInt))) s)

/-- R301, opcode 0x01. Signed quotients round toward zero (log entry 102); -2^31 divided by -1 wraps. -/
def Obligations.CoreMultiplyDivideWritesRd : Prop :=
  ∀ (s : State) (i : Issue) (t : Turn) (rd rs1 rs2 : Fin 32), ∀ x a b, x = s.ctx t.key → a = x.reg rs1 → b = x.reg rs2 →
    (s.Issues i (.mul .mul rd rs1 rs2) t →
      Computes (.mul i rd rs1 rs2) t (x.setReg rd (BitVec.ofNat 32 (a.toNat * b.toNat))) s) ∧
    (s.Issues i (.mul .mulh rd rs1 rs2) t →
      Computes (.mulh i rd rs1 rs2) t (x.setReg rd (BitVec.ofInt 32 (a.toInt * b.toInt / 2 ^ 32))) s) ∧
    (s.Issues i (.mul .mulhu rd rs1 rs2) t →
      Computes (.mulhu i rd rs1 rs2) t (x.setReg rd (BitVec.ofNat 32 (a.toNat * b.toNat / 2 ^ 32))) s) ∧
    (s.Issues i (.mul .div rd rs1 rs2) t → ∃ q : Word,
      Computes (.div i rd rs1 rs2) t (x.setReg rd q) s ∧
      q = if b = 0 then 0xFFFFFFFF else BitVec.ofInt 32 (a.toInt.tdiv b.toInt)) ∧
    (s.Issues i (.mul .divu rd rs1 rs2) t → ∃ q : Word,
      Computes (.divu i rd rs1 rs2) t (x.setReg rd q) s ∧
      if b = 0 then q = 0xFFFFFFFF else q.toNat * b.toNat ≤ a.toNat ∧ a.toNat < (q.toNat + 1) * b.toNat) ∧
    (s.Issues i (.mul .rem rd rs1 rs2) t → ∃ r : Word,
      Computes (.rem i rd rs1 rs2) t (x.setReg rd r) s ∧
      r = if b = 0 then a else a - BitVec.ofInt 32 (a.toInt.tdiv b.toInt) * b) ∧
    (s.Issues i (.mul .remu rd rs1 rs2) t → ∃ r : Word,
      Computes (.remu i rd rs1 rs2) t (x.setReg rd r) s ∧
      if b = 0 then r = a else r.toNat < b.toNat ∧ ∃ q, a.toNat = q * b.toNat + r.toNat)

/-- R300 and R301, opcodes 0x02 to 0x09. -/
def Obligations.CoreImmediatesWriteRd : Prop :=
  ∀ (s : State) (i : Issue) (t : Turn) (rd rs1 sh : Fin 32) (v : BitVec 12) (h : BitVec 16), ∀ x a, x = s.ctx t.key → a = x.reg rs1 →
    (s.Issues i (.imm .addi rd rs1 v) t → Computes (.addi i rd rs1 v) t (x.setReg rd (a + v.signExtend 32)) s) ∧
    (s.Issues i (.imm .andi rd rs1 v) t → Computes (.andi i rd rs1 v) t (x.setReg rd (a &&& v.zeroExtend 32)) s) ∧
    (s.Issues i (.imm .ori rd rs1 v) t → Computes (.ori i rd rs1 v) t (x.setReg rd (a ||| v.zeroExtend 32)) s) ∧
    (s.Issues i (.imm .xori rd rs1 v) t → Computes (.xori i rd rs1 v) t (x.setReg rd (a ^^^ v.zeroExtend 32)) s) ∧
    (s.Issues i (.shift .slli rd rs1 sh) t →
      Computes (.slli i rd rs1 sh) t (x.setReg rd (BitVec.ofNat 32 (a.toNat * 2 ^ sh.val))) s) ∧
    (s.Issues i (.shift .srli rd rs1 sh) t →
      Computes (.srli i rd rs1 sh) t (x.setReg rd (BitVec.ofNat 32 (a.toNat / 2 ^ sh.val))) s) ∧
    (s.Issues i (.shift .srai rd rs1 sh) t →
      Computes (.srai i rd rs1 sh) t (x.setReg rd (BitVec.ofInt 32 (a.toInt / 2 ^ sh.val))) s) ∧
    (s.Issues i (.movl rd h) t → Computes (.movl i rd h) t (x.setReg rd (h.zeroExtend 32)) s) ∧
    (s.Issues i (.movh rd h) t → ∃ w : Word, Computes (.movh i rd h) t (x.setReg rd w) s ∧
      bitsOf w 16 16 = h.toNat ∧ bitsOf w 0 16 = bitsOf (x.reg rd) 0 16)

/-- R300 and R301, opcodes 0x0C to 0x0E. -/
def Obligations.CoreComparisonsSetPredicate : Prop :=
  ∀ (s : State) (i : Issue) (t : Turn) (pd ps1 ps2 : Fin 8) (rs1 rs2 : Fin 32) (v : BitVec 12),
  ∀ x a b c, x = s.ctx t.key → a = x.reg rs1 → b = x.reg rs2 → c = v.signExtend 32 →
    (s.Issues i (.cmp pd .eq rs1 rs2) t → Computes (.cmp i pd .eq rs1 rs2) t (x.setPred pd (decide (a = b))) s) ∧
    (s.Issues i (.cmp pd .lt rs1 rs2) t → Computes (.cmp i pd .lt rs1 rs2) t (x.setPred pd (decide (a.toInt < b.toInt))) s) ∧
    (s.Issues i (.cmp pd .ltu rs1 rs2) t → Computes (.cmp i pd .ltu rs1 rs2) t (x.setPred pd (decide (a.toNat < b.toNat))) s) ∧
    (s.Issues i (.cmpi pd .eq rs1 v) t → Computes (.cmpi i pd .eq rs1 v) t (x.setPred pd (decide (a = c))) s) ∧
    (s.Issues i (.cmpi pd .lt rs1 v) t → Computes (.cmpi i pd .lt rs1 v) t (x.setPred pd (decide (a.toInt < c.toInt))) s) ∧
    (s.Issues i (.cmpi pd .ltu rs1 v) t → Computes (.cmpi i pd .ltu rs1 v) t (x.setPred pd (decide (a.toNat < c.toNat))) s) ∧
    (s.Issues i (.pred .pand pd ps1 ps2) t →
      Computes (.pand i pd ps1 ps2) t (x.setPred pd (x.predFlag ps1 && x.predFlag ps2)) s) ∧
    (s.Issues i (.pred .por pd ps1 ps2) t →
      Computes (.por i pd ps1 ps2) t (x.setPred pd (x.predFlag ps1 || x.predFlag ps2)) s) ∧
    (s.Issues i (.pred .pxor pd ps1 ps2) t →
      Computes (.pxor i pd ps1 ps2) t (x.setPred pd (Bool.xor (x.predFlag ps1) (x.predFlag ps2))) s) ∧
    (s.Issues i (.pred .pandn pd ps1 ps2) t →
      Computes (.pandn i pd ps1 ps2) t (x.setPred pd (x.predFlag ps1 && !x.predFlag ps2)) s)

/-- R293 to R295: loads from data SRAM, least significant byte first, and a word load from register space. -/
def Obligations.CoreLoadsReadMemory : Prop :=
  (∀ (s : State) (i : Issue) (t : Turn) (rd rs1 : Fin 32) (off : BitVec 12), ∀ x a, x = s.ctx t.key → a = (x.reg rs1 + off.signExtend 32).toNat →
    s.isMarked a = false →
    (∀ n, a + n ≤ 0x800000 → (x.user = false ∨ s.inDataRange t.key a n = true) →
      (n = 4 → a % 4 = 0 → s.Issues i (.load .ldw rd rs1 off) t → Computes (.ldw i rd rs1 off) t (x.setReg rd
        (s.byteAt (a + 3) ++ s.byteAt (a + 2) ++ s.byteAt (a + 1) ++ s.byteAt a)) s) ∧
      (n = 2 → a % 2 = 0 → s.Issues i (.load .ldh rd rs1 off) t →
        Computes (.ldh i rd rs1 off) t (x.setReg rd ((s.byteAt (a + 1) ++ s.byteAt a).signExtend 32)) s) ∧
      (n = 2 → a % 2 = 0 → s.Issues i (.load .ldhu rd rs1 off) t →
        Computes (.ldhu i rd rs1 off) t (x.setReg rd ((s.byteAt (a + 1) ++ s.byteAt a).zeroExtend 32)) s) ∧
      (n = 1 → s.Issues i (.load .ldb rd rs1 off) t →
        Computes (.ldb i rd rs1 off) t (x.setReg rd ((s.byteAt a).signExtend 32)) s) ∧
      (n = 1 → s.Issues i (.load .ldbu rd rs1 off) t →
        Computes (.ldbu i rd rs1 off) t (x.setReg rd ((s.byteAt a).zeroExtend 32)) s))) ∧
  (∀ (s : State) (i : Issue) (t : Turn) (rd rs1 : Fin 32) (off : BitVec 12), ∀ x a, x = s.ctx t.key → a = (x.reg rs1 + off.signExtend 32).toNat →
    s.Issues i (.load .ldw rd rs1 off) t → x.user = false → 0x40000000 ≤ a → a < 0x40D00000 → a % 4 = 0 → (homeOf (a % 0x40000000)).isSome →
    ∃ r u, r = readReg (1 + t.core) (a % 0x40000000) 15 false true (if t.again then countIssue t true s else perfCount t.core 6 (countIssue t true s)) ∧
      exec (.ldw i rd rs1 off) s = .next u ∧ Retires t (t.after ((r.2.ctx t.key).setReg rd r.1)) [] [] r.2 u)

/-- R293, R295, R302, R333. In the model a store has reached its bank when it completes (log entry 107). -/
def Obligations.CoreStoresWriteOnlyTheirBytes : Prop :=
  (∀ (s : State) (i : Issue) (t : Turn) (rs2 rs1 : Fin 32) (off : BitVec 12), ∀ x a v, x = s.ctx t.key →
    a = (x.reg rs1 + off.signExtend 32).toNat → v = x.reg rs2 →
    (a % 4 = 0 → a + 4 ≤ 0x800000 → (x.user = false ∨ s.inDataRange t.key a 4 = true) → s.Issues i (.store .stw rs2 rs1 off) t →
      ∃ u : State, exec (.stw i rs2 rs1 off) s = .next u ∧ Retires t (t.after x) [] [.sram, .dma] s u ∧ OnlyContexts s u ∧
        (∀ b, u.byteAt b = if a ≤ b ∧ b < a + 4 then BitVec.ofNat 8 (v.toNat / 2 ^ (8 * (b - a))) else s.byteAt b) ∧
        u.dma = { s.dma with marked := u.dma.marked } ∧ (∀ b, u.isMarked b = (s.isMarked b && decide (b / 4 * 4 ≠ a)))) ∧
    (a % 2 = 0 → a + 2 ≤ 0x800000 → (x.user = false ∨ s.inDataRange t.key a 2 = true) → s.Issues i (.store .sth rs2 rs1 off) t →
      ∃ u : State, exec (.sth i rs2 rs1 off) s = .next u ∧ Retires t (t.after x) [] [.sram] s u ∧ OnlyContexts s u ∧
        (∀ b, u.byteAt b = if a ≤ b ∧ b < a + 2 ∧ s.isMarked a = false then BitVec.ofNat 8 (v.toNat / 2 ^ (8 * (b - a)))
          else s.byteAt b)) ∧
    (a + 1 ≤ 0x800000 → (x.user = false ∨ s.inDataRange t.key a 1 = true) → s.Issues i (.store .stb rs2 rs1 off) t →
      ∃ u : State, exec (.stb i rs2 rs1 off) s = .next u ∧ Retires t (t.after x) [] [.sram] s u ∧ OnlyContexts s u ∧
        (∀ b, u.byteAt b = if b = a ∧ s.isMarked a = false then v.truncate 8 else s.byteAt b))) ∧
  (∀ (s : State) (i : Issue) (t : Turn) (rd rs1 rs2 : Fin 32) (words : BitVec 21), ∀ x a b, x = s.ctx t.key → a = (x.reg rs1).toNat →
    b = (x.reg rs2).toNat → s.Issues i (.bcopy rd rs1 rs2) t → a % 4 = 0 → b % 4 = 0 →
    (x.reg rd = 0 → Computes (.bcopy i rd rs1 rs2 words) t x s) ∧
    (x.reg rd = 4 → words ≠ 0 → rd ≠ rs1 → rd ≠ rs2 → rs1 ≠ rs2 → a + 4 ≤ 0x800000 → b + 4 ≤ 0x800000 →
      s.isMarked a = false → (x.user = false ∨ (s.inDataRange t.key a 4 = true ∧ s.inDataRange t.key b 4 = true)) →
      ∃ u : State, exec (.bcopy i rd rs1 rs2 words) s = .next u ∧
        Retires t (t.after (((x.setReg rd 0).setReg rs1 (x.reg rs1 + 4)).setReg rs2 (x.reg rs2 + 4))) [] [.sram, .dma] s u ∧
        (∀ c, u.byteAt c = if b ≤ c ∧ c < b + 4 then s.byteAt (a + (c - b)) else s.byteAt c))) ∧
  (∀ (s : State) (i : Issue) (t : Turn), s.Issues i .fence t → Computes (.fence i) t (s.ctx t.key) s)

/-- R291, R301, R306, R312. -/
def Obligations.CoreControlFlow : Prop :=
  ∀ (s : State) (i : Issue) (t : Turn) (rd rs1 : Fin 32) (off : BitVec 22) (v : BitVec 12), ∀ x : Ctx, x = s.ctx t.key →
    (s.Issues i (.br off) t →
      Continues (.br i off) t { x with pc := BitVec.ofNat 32 t.pc + 4 * off.signExtend 32, wait := 0 } s) ∧
    (s.Issues i (.bl off) t → Continues (.bl i off) t
      { x.setReg 31 (BitVec.ofNat 32 (t.pc + 4)) with pc := BitVec.ofNat 32 t.pc + 4 * off.signExtend 32, wait := 0 } s) ∧
    (s.Issues i (.jr rs1) t → Continues (.jr i rs1) t { x with pc := x.reg rs1, wait := 0 } s) ∧
    (∀ n w, (n = 0x001 ∧ w = x.cycleh ∨ n = 0x002 ∧ w = BitVec.ofNat 32 s.clk.slot ∨ n = 0x003 ∧ w = s.clk.rev.truncate 32 ∨
        n = 0x004 ∧ w = BitVec.ofNat 32 t.key ∨ n = 0x005 ∧ w = (x.preds ||| 1).zeroExtend 32 ∨ n = 0x010 ∧ w = x.epc ∨
        n = 0x011 ∧ w = x.ecode ∨ n = 0x012 ∧ w = x.estat ∨ n = 0x013 ∧ w = x.evec) →
      s.Issues i (.csrr rd n) t → Computes (.csrr i rd n) t (x.setReg rd w) s) ∧
    (s.Issues i (.csrr rd 0x000) t → Computes (.csrr i rd 0x000) t
      (Ctx.setReg { x with cycleh := BitVec.ofNat 32 (s.perf.cycle.toNat / 2 ^ 32) } rd (BitVec.ofNat 32 s.perf.cycle.toNat)) s) ∧
    (s.Issues i (.csrw rs1 0x005) t → Computes (.csrw i rs1 0x005) t { x with preds := (x.reg rs1).truncate 8 ||| 1 } s) ∧
    (x.user = false →
      (s.Issues i (.csrw rs1 0x010) t → Computes (.csrw i rs1 0x010) t { x with epc := x.reg rs1 } s) ∧
      (s.Issues i (.csrw rs1 0x012) t → Computes (.csrw i rs1 0x012) t { x with estat := x.reg rs1 &&& 0x1FF } s) ∧
      (s.Issues i (.csrw rs1 0x013) t → Computes (.csrw i rs1 0x013) t { x with evec := x.reg rs1 } s) ∧
      (s.Issues i .eret t → Continues (.eret i) t
        { x with pc := x.epc, user := bitOf x.estat 8, preds := x.estat.truncate 8 ||| 1, wait := 0 } s)) ∧
    (x.user = true → s.Issues i (.sysc v) t → ∃ e : Word, e.truncate 8 = x.preds ||| 1 ∧ bitOf e 8 = true ∧
      Continues (.sysc i v) t { x with pc := x.evec, epc := BitVec.ofNat 32 (t.pc + 4), ecode := v.signExtend 32, estat := e,
                                       user := false, wait := 0 } s) ∧
    (s.Issues i (.waits v) t → Continues (.waits i v) t
      { t.after x with wait := 2, waitSlot := v.toNat, waitRev := s.clk.rev.toNat + (if s.clk.slot < v.toNat then 0 else 1) } s) ∧
    (s.Issues i .yield t → Continues (.yield i) t
      (if s.clk.slot = 4095 then { t.after x with wait := 2, waitSlot := 0, waitRev := s.clk.rev.toNat + 1 }
      else { t.after x with wait := 2, waitSlot := s.clk.slot + 1, waitRev := s.clk.rev.toNat }) s)

/-- R303, R304, R307, R309, R337. Which entry is taken is the model's choice: the lowest free one (log entry 108). -/
def Obligations.CoreIssuesPlaceJobs : Prop :=
  ∀ (s : State) (i : Issue) (t : Turn) (rd rs1 rs2 : Fin 32), ∀ x : Ctx, ∀ p q : Nat, x = s.ctx t.key → p = (x.reg rs1).toNat →
    q = (x.reg rs2).toNat →
    (s.tableOpen = true →
      (s.Issues i (.issue .ejob rd rs1 rs2) t → PlacesJob (.ejob i rd rs1 rs2) t rd rs2 (.engine (q % 2 ^ 31) p) [] [] s) ∧
      (s.Issues i (.issue .hash rd rs1 rs2) t → PlacesJob (.hash i rd rs1 rs2) t rd rs2 (.hash p) [] [] s) ∧
      (x.user = false → s.Issues i (.issue .snap rd rs1 rs2) t → PlacesJob (.snap i rd rs1 rs2) t rd rs2 (.snap p) [] [] s) ∧
      (s.Issues i (.issue .latt rd rs1 rs2) t →
        (q % 8 = 0 → PlacesJob (.lattVerify i rd rs1 rs2) t rd rs2 (.lattice 0 p) [] [] s) ∧
        (q % 8 = 1 → x.user = false → PlacesJob (.lattSign i rd rs1 rs2) t rd rs2 (.lattice 1 p) [] [] s) ∧
        (q % 8 = 2 → PlacesJob (.lattEncapsulate i rd rs1 rs2) t rd rs2 (.lattice 2 p) [] [] s) ∧
        (q % 8 = 3 → x.user = false → PlacesJob (.lattDecapsulate i rd rs1 rs2) t rd rs2 (.lattice 3 p) [] [] s) ∧
        (q % 8 = 4 → x.user = false → PlacesJob (.lattKeygen i rd rs1 rs2) t rd rs2 (.lattice 4 p) [] [] s) ∧
        (5 ≤ q % 8 → PlacesJob (.lattInvalid i rd rs1 rs2) t rd rs2 (.lattice (q % 8) p) [] [] s))) ∧
    (∀ r, r = q % 64 → x.user = false → s.ringOn r = true → s.hostRing r = false → p % 32 = 0 → p + 32 ≤ 0x800000 → s.shareFull r = false →
      s.Issues i (.issue .dmaq rd rs1 rs2) t →
      PlacesJob (.dmaq i rd rs1 rs2) t rd rs2 (.dma r (s.ring r).posted (bitOf (x.reg rs2) 8)) [DMA.RING_STATUS + 64 * r] [.dma] s) ∧
    (s.tableOpen = false → s.Issues i (.issue .ejob rd rs1 rs2) t → ∃ u : State, exec (.ejob i rd rs1 rs2) s = .next u ∧
      Retires t (t.after (x.setReg rd 0)) [SQ.JOB_STATUS] [] s u ∧ OnlyContexts s u ∧
      u.rd SQ.JOB_STATUS.full_count = min 0xFFFF (s.rd SQ.JOB_STATUS.full_count + 1))

/-- R303, R305: what becomes of a handle. -/
def Obligations.CoreWaitsForJobs : Prop :=
  ∀ (s : State) (i : Issue) (t : Turn) (rd rs1 : Fin 32) (pd : Fin 8), ∀ x : Ctx, ∀ h : Word, x = s.ctx t.key → h = x.reg rs1 →
    (s.Issues i (.jwait rd rs1) t →
      (s.handleJob h = none → Computes (.jwait i rd rs1) t (x.setReg rd 5) s) ∧
      (∀ e j st, s.handleJob h = some (e, j) → j.status = some st → ∃ u : State, exec (.jwait i rd rs1) s = .next u ∧
        Retires t (t.after (x.setReg rd (BitVec.ofNat 32 st))) [] [] s u ∧ u.job e = none ∧ ∀ k, k ≠ e → u.job k = s.job k) ∧
      (∀ e j, s.handleJob h = some (e, j) → j.status = none → s.trapsOn j = false → ∃ u : State, exec (.jwait i rd rs1) s = .next u ∧
        Retires t { x with wait := 1, waitHandle := h } [] [] s u ∧ OnlyContexts s u)) ∧
    (s.Issues i (.jpoll pd rs1) t →
      (s.handleJob h = none → Computes (.jpoll i pd rs1) t (x.setPred pd true) s) ∧
      (∀ e j st, s.handleJob h = some (e, j) → j.status = some st → ∃ u : State, exec (.jpoll i pd rs1) s = .next u ∧
        Retires t (t.after (x.setPred pd true)) [] [] s u ∧ u.job e = none ∧ ∀ k, k ≠ e → u.job k = s.job k) ∧
      (∀ e j, s.handleJob h = some (e, j) → j.status = none → s.trapsOn j = false →
        Computes (.jpoll i pd rs1) t (x.setPred pd false) s))

/-- R292, R299, R310, R311. SRAM is untouched and the context keeps everything but its quarantine. -/
def Obligations.CoreExceptionsQuarantine : Prop :=
  ∀ (s : State) (i : Issue) (t : Turn) (rd rs1 rs2 : Fin 32) (off v : BitVec 12), ∀ x : Ctx, ∀ a : Nat, x = s.ctx t.key →
    a = (x.reg rs1 + off.signExtend 32).toNat → s.turn i.core.val i.latency = some t →
    (s.fetchBad t.key t.pc = true → Quarantines (.add i rd rs1 rs2) t 3 (BitVec.ofNat 32 t.pc) s) ∧
    (s.fetchBad t.key t.pc = false → decodeNelno t.word = none → Quarantines (.add i rd rs1 rs2) t 4 t.word s) ∧
    (x.user = true → s.Issues i .eret t → Quarantines (.eret i) t 5 t.word s) ∧
    (x.user = true → s.Issues i (.issue .dmaq rd rs1 rs2) t → Quarantines (.dmaq i rd rs1 rs2) t 5 t.word s) ∧
    (x.user = true → s.Issues i (.issue .snap rd rs1 rs2) t → Quarantines (.snap i rd rs1 rs2) t 5 t.word s) ∧
    (x.user = false → s.Issues i (.sysc v) t → Quarantines (.sysc i v) t 5 t.word s) ∧
    (s.Issues i (.load .ldw rd rs1 off) t →
      (a % 4 ≠ 0 → (a + 4 ≤ 0x800000 ∨ 0x40D00000 ≤ a) → Quarantines (.ldw i rd rs1 off) t 6 (BitVec.ofNat 32 a) s) ∧
      (a % 4 = 0 → (0x800000 ≤ a ∧ a < 0x40000000 ∨ 0x40D00000 ≤ a) → Quarantines (.ldw i rd rs1 off) t 7 (BitVec.ofNat 32 a) s) ∧
      (a % 4 = 0 → a + 4 ≤ 0x800000 → x.user = false → s.isMarked a = true → Quarantines (.ldw i rd rs1 off) t 2 (BitVec.ofNat 32 a) s)) ∧
    (s.fetchBad t.key t.pc = false → (∃ g, decodeNelno t.word = some g ∧ g.instr = .alu .add rd rs1 rs2 ∧ g.holds x = false) →
      Computes (.add i rd rs1 rs2) t x s)

/-- R110, with the expected word of R108 and R109. -/
def Obligations.TripSlotsAreJudged : Prop :=
  ∀ (s : State) (n : Fin 32) (w : BitVec 64), ∀ t d, t = s.trip n → s.framesFlow n = true → t.rxLocked = true → t.next = none →
    t.rxSwitched = false →
    d = hamming (w.extractLsb' 48 16) t.rxSeq + hamming (w.extractLsb' 32 16) t.rxCheck + hamming (w.extractLsb' 0 16) (~~~t.rxCheck) →
    ∃ u : State, exec (.tripSlotReceived n w) s = .next u ∧ (u.trip n).rxSeq = t.rxSeq + 1 ∧ (u.trip n).rxCheck = lfsrFrame t.rxCheck ∧
      ∀ hit, hit = (t.armed && !s.flag (TRIP.PORT_STATUS.lockout.nth n) && s.fsm n == 6 &&
          (match t.sess with
            | some x => x.window.contains w
            | none => false)) →
        (hit = true →
          u.rd (TRIP.PORT_CNT_ACC.count.nth n) = min 0xFFFFFFFF (s.rd (TRIP.PORT_CNT_ACC.count.nth n) + 1) ∧
          u.rd (TRIP.PORT_CNT_WRONG.count.nth n) = s.rd (TRIP.PORT_CNT_WRONG.count.nth n) ∧
          bitOf (u.word (TRIP.PORT_CAUSE + 4 * n)) 0 = true ∧ u.pend (6 * n + 2) = true ∧
          ∃ x y i, t.sess = some x ∧ (u.trip n).sess = some y ∧ x.window[i]? = some w ∧ y.rxBase = x.rxBase + i + 1 ∧
            y.window = x.window.drop (i + 1)) ∧
        (hit = false → d ≤ 3 → t.suspended = false →
          Changes [TRIP.PORT_STATUS + 4 * n, TRIP.PORT_CAUSE + 4 * n, TRIP.OUT_STATUS] [.trips, .sides] s u) ∧
        (hit = false → (4 ≤ d ∧ d ≤ 15 ∨ 16 ≤ d ∧ t.armed = false) →
          u.pair (TRIP.PORT_CNT_HBMISS + 16 * n) (TRIP.PORT_CNT_HBMISS_HI + 16 * n) =
            (s.pair (TRIP.PORT_CNT_HBMISS + 16 * n) (TRIP.PORT_CNT_HBMISS_HI + 16 * n) + 1) % 2 ^ 64 ∧
          (u.trip n).goodRun = 0 ∧
          Changes [TRIP.PORT_CNT_HBMISS + 16 * n, TRIP.PORT_CNT_HBMISS_HI + 16 * n] [.trips] s u) ∧
        (hit = false → 16 ≤ d → t.armed = true →
          u.rd (TRIP.PORT_CNT_WRONG.count.nth n) = min 0xFFFFFFFF (s.rd (TRIP.PORT_CNT_WRONG.count.nth n) + 1) ∧
          (u.trip n).goodRun = 0 ∧
          Changes [TRIP.PORT_CNT_WRONG + 16 * n, TRIP.PORT_STATUS + 4 * n, TRIP.PORT_CAUSE + 4 * n] [.trips, .sides] s u)

/-- R108, R109, R113, R118, R120, R121. -/
def Obligations.TripSlotsAndCodesAreSent : Prop :=
  ∀ (s : State) (n : Fin 32), ∀ t, t = s.trip n →
    (s.framesFlow n = true → t.waiting = false → t.burst = 0 →
      ∃ (u : State) (w : _), exec (.tripSlotSend n) s = .next u ∧ u.out = s.out ++ [.tripSlot n w] ∧
        w.extractLsb' 48 16 = t.txSeq ∧ w.extractLsb' 32 16 = t.txCheck ∧ w.extractLsb' 16 8 = ~~~(w.extractLsb' 24 8) ∧
        w.extractLsb' 0 16 = ~~~t.txCheck ∧ w.getLsbD 31 = t.txSess.isSome ∧
        w.getLsbD 30 = s.flag (TRIP.PORT_STATUS.lockout.nth n) ∧ w.getLsbD 29 = s.tripActive n ∧
        (w.extractLsb' 24 5).toNat = (match t.txSess with
          | some x => x.id % 32
          | none => 0) ∧
        u.trip n = { t with txSeq := t.txSeq + 1, txCheck := lfsrFrame t.txCheck, tagDue := false } ∧
        (∀ m, m ≠ n.val → u.trip m = s.trip m) ∧ Changes [] [.trips] s u) ∧
    (∀ x c cs, s.framesFlow n = true → t.waiting = false → t.burst ≠ 0 → t.armed = true → s.fsm n = 6 → t.tagDue = false →
      t.txSess = some x → x.txCodes = c :: cs →
      ∃ u : State, exec (.tripSlotSend n) s = .next u ∧ u.out = s.out ++ [.tripSlot n c] ∧ (u.trip n).burst = t.burst - 1 ∧
        (u.trip n).txSess = some { x with txK := x.txK + 1, txCodes := cs } ∧ (u.trip n).txSeq = t.txSeq + 1 ∧
        (u.trip n).txCheck = lfsrFrame t.txCheck ∧ (∀ m, m ≠ n.val → u.trip m = s.trip m) ∧ Changes (sessionWords n) [.trips] s u) ∧
    (∀ x, t.txSess = some x → x.txCodes.length < 8 → ∃ (u : State) (c : _), exec (.tripCodeComputed n .transmit) s = .next u ∧
      (u.trip n).txSess = some { x with txCodes := x.txCodes ++ [c] } ∧
      c = (Config.sha3_512 (bytesBE 32 x.key.toNat ++ ascii (if x.initiator then "SIRCOR-TRIP-I2R" else "SIRCOR-TRIP-R2I") ++
        bytesBE 8 (x.txK + x.txCodes.length))).extractLsb' 448 64 ∧
      u.rd (TRIP.PORT_STATUS.tx_ready.nth n) = x.txCodes.length + 1 ∧
      (∀ m, m ≠ n.val → u.trip m = s.trip m) ∧ Changes (sessionWords n) [.trips] s u) ∧
    (∀ x, t.sess = some x → t.rxSwitched = false → x.window.length < s.act (TRIP.PORT_CFG.window.nth n) →
      ∃ (u : State) (c : _), exec (.tripCodeComputed n .window) s = .next u ∧
      (u.trip n).sess = some { x with window := x.window ++ [c] } ∧
      c = (Config.sha3_512 (bytesBE 32 x.key.toNat ++ ascii (if x.initiator then "SIRCOR-TRIP-R2I" else "SIRCOR-TRIP-I2R") ++
        bytesBE 8 (x.rxBase + x.window.length))).extractLsb' 448 64 ∧
      u.rd (TRIP.PORT_STATUS.win_ready.nth n) = x.window.length + 1 ∧
      (∀ m, m ≠ n.val → u.trip m = s.trip m) ∧ Changes (sessionWords n) [.trips] s u)

/-- R117 to R120, R123, R308. -/
def Obligations.TripLaunchesOnNamedPorts : Prop :=
  (∀ (s : State) (i : Fin 8), s.actFlag (TRIP.IN_CFG.enable.nth i) = true → s.inAsserted i = false →
    ∃ u : State, exec (.tripInEdge i) s = .next u ∧ u.inAsserted i = true ∧ (∀ j : Fin 8, j ≠ i → u.inAsserted j = s.inAsserted j) ∧
      (∀ n : Fin 32, bitOf (s.word (TRIP.IN_MAP + 4 * i + 0x8000)) n = true → s.CanBurst n → Bursts n s u) ∧
      (∀ n : Fin 32, bitOf (s.word (TRIP.IN_MAP + 4 * i + 0x8000)) n = true → (s.trip n).armed = false →
        s.actFlag (TRIP.PORT_CFG.ss_fallback.nth n) = false → u.rd (TRIP.PORT_STATUS.tx_dropped.nth n) = 1 ∧ u.trip n = s.trip n) ∧
      (∀ n : Fin 32, bitOf (s.word (TRIP.IN_MAP + 4 * i + 0x8000)) n = false → u.trip n = s.trip n) ∧
      u.pins.hold = s.pins.hold ∧ Changes launchWords [.trips, .pins, .messages] s u) ∧
  (∀ (s : State) (i : Issue) (t : Turn) (rs1 : Fin 32), ∀ x, x = s.ctx t.key → s.Issues i (.trip rs1) t →
    (x.user = true → x.reg rs1 &&& ~~~s.tripMask t.key ≠ 0 → Quarantines (.trip i rs1) t 5 t.word s) ∧
    ((x.user = false ∨ x.reg rs1 &&& ~~~s.tripMask t.key = 0) →
      ∃ u : State, exec (.trip i rs1) s = .next u ∧ Retires t (t.after x) launchWords [.trips, .messages] s u ∧
        (∀ n : Fin 32, bitOf (x.reg rs1) n = true → s.CanBurst n → Bursts n s u) ∧
        (∀ n : Fin 32, bitOf (x.reg rs1) n = false → u.trip n = s.trip n))) ∧
  (∀ (s : State) (i : Fin 8), ∃ u : State, exec (.tripInDeassert i) s = .next u ∧ u.inAsserted i = false ∧
    (∀ j : Fin 8, j ≠ i → u.inAsserted j = s.inAsserted j) ∧ u = { s with pins := { s.pins with level := u.pins.level } } ∧
    (∀ n : Fin 32, (∀ j : Fin 8, j ≠ i → s.inAsserted j = true → bitOf (s.word (TRIP.IN_MAP + 4 * j + 0x8000)) n = false) →
      u.tripActive n = false))

/-- R111, R112, R124, R125, R216. -/
def Obligations.TripOutputsFollowTheirConditions : Prop :=
  (∀ (s : State) (n : Fin 32), s.tripData n = true → s.rd (TRIP.PORT_STATUS.hb_lost.nth n) = 0 →
    ∃ u : State, exec (.heartbeatWatchdog n) s = .next u ∧ u.rd (TRIP.PORT_STATUS.hb_lost.nth n) = 1 ∧
      bitOf (u.word (TRIP.PORT_CAUSE + 4 * n)) 1 = true ∧ u.pend (6 * n + 2) = true ∧
      u.trip n = { s.trip n with goodRun := 0 } ∧
      Changes [TRIP.PORT_STATUS + 4 * n, TRIP.PORT_CAUSE + 4 * n, TRIP.OUT_STATUS] [.trips, .sides] s u) ∧
  (∀ (s : State) (j : Fin 8), s.outHeld j = true → sget (fun _ => 0) s.pins.hold j ≤ s.now →
    ∃ u : State, exec (.tripOutHoldExpiry j) s = .next u ∧ u.outHeld j = false ∧ (∀ k : Fin 8, k ≠ j → u.outHeld k = s.outHeld k) ∧
      bitOf (u.word TRIP.OUT_STATUS) j = u.outAsserted j ∧ u.pins.level = s.pins.level ∧ Changes [TRIP.OUT_STATUS] [.pins] s u) ∧
  (∀ (s : State) (mask : BitVec 8), s.gate TRIP.OUT_CMD false = .served →
    ∃ u : State, exec (.tripOutRelease mask) s = .next u ∧
      (∀ j : Fin 8, bitOf (u.word TRIP.OUT_STATUS) (8 + j) = (bitOf (s.word TRIP.OUT_STATUS) (8 + j) && !mask.getLsbD j)) ∧
      (∀ j : Fin 8, bitOf (u.word TRIP.OUT_STATUS) j = u.outAsserted j) ∧
      (s.sealed = false → Changes [TRIP.OUT_STATUS] [] s u) ∧
      (s.sealed = true → mask ≠ 0 → 0 < s.auditFree → s.logs.heldAudit = [] → u.chain.seq = s.chain.seq + 1)) ∧
  (∀ (s : State) (n : Fin 32) (w : BitVec 64), s.clk.wheelOn = true → (s.trip n).rxSwitched = false →
    ((s.trip n).sess = none →
      ∃ u : State, exec (.sideshowTripMessage n w) s = .next u ∧ u.rd (SS.NET_CNT.count.nth 6) = min 0xFFFFFFFF (s.rd (SS.NET_CNT.count.nth 6) + 1) ∧
        bitOf (u.word SS.CAUSE) 7 = true ∧ u.pend 207 = true ∧ Changes [SS.NET_CNT.count.addr + SS.NET_CNT.count.stride * 6, SS.CAUSE] [] s u) ∧
    (∀ x, (s.trip n).sess = some x → (s.trip n).next = none → w ∈ x.window → s.rd (TRIP.PORT_STATUS.lockout.nth n) = 0 →
      ∃ (u : State) (y : _) (i : _), exec (.sideshowTripMessage n w) s = .next u ∧
        u.rd (TRIP.PORT_CNT_ACC.count.nth n) = min 0xFFFFFFFF (s.rd (TRIP.PORT_CNT_ACC.count.nth n) + 1) ∧
        bitOf (u.word (TRIP.PORT_CAUSE + 4 * n)) 6 = true ∧ (u.trip n).sess = some y ∧ x.window[i]? = some w ∧
        y.rxBase = x.rxBase + i + 1))

/-- R83, R94, R101, R230. -/
def Obligations.SupervisionFollowsItsTable : Prop :=
  ∀ (s : State) (n : Fin 32), s.Canonical →
    (s.clk.wheelOn = true → s.fsm n = 1 → ∃ u : State, exec (.breakLinkTimer n) s = .next u ∧ PortOnly n s u ∧
      (s.staysInAbility n → u.fsm n = 2) ∧
      ((s.link n).tests ≠ [] → u.fsm n = 9 ∧ u.rd (P.MON_STATUS.test_busy.port n) = 1) ∧
      ((s.link n).tests = [] → s.pact n P.AN_CFG.an_fail_max ≤ (s.link n).exchFails → u.fsm n = 8 ∧
        u.messages = s.messages ++ [{ mtype := 5, cls := 1, dest := 0, port := some n, body := [] }])) ∧
    (s.fsm n = 2 → ∃ u : State, exec (.partnerPulsesSeen n) s = .next u ∧ PortOnly n s u ∧ u.fsm n = 3 ∧
      u.word (portAddr n P.LOCAL_CAP) = s.capWord n ∧ (u.link n).pages = s.pagesOf n) ∧
    (s.fsm n = 8 → ∃ u : State, exec (.partnerPulsesSeen n) s = .next u ∧ PortOnly n s u ∧ u.fsm n = 3 ∧
      u.rd (P.PROBE_STATUS.probe.port n) = 3) ∧
    (s.fsm n = 2 → (s.offeredBaseT n).testBit 0 = true → ∃ u : State, exec (.idleDetected n) s = .next u ∧ PortOnly n s u ∧ u.fsm n = 5 ∧
      (u.link n).mode = 0 ∧ (u.link n).rate = 0 ∧ u.rd (P.LINE_STATUS.master.port n) = 0 ∧ u.rd (P.AN_STATUS.partner_an.port n) = 0) ∧
    (s.fsm n = 2 → (s.offeredBaseT n).testBit 0 = false → ∃ u : State, exec (.idleDetected n) s = .next u ∧ u.fsm n = 2 ∧
      u.rd (P.AN_STATUS.partner_an.port n) = 0 ∧ Changes [portAddr n P.AN_STATUS] [] s u) ∧
    (s.fsm n = 3 → ∃ u : State, exec (.autonegWaitTimer n) s = .next u ∧ PortOnly n s u ∧ u.fsm n = 1 ∧
      u.rd (P.AN_STATUS.last_fail.port n) = 5 ∧ (u.link n).exchFails = (s.link n).exchFails + 1) ∧
    (s.fsm n = 10 → ∃ u : State, exec (.partnerEnergyReturn n) s = .next u ∧ PortOnly n s u ∧ u.fsm n = 1)

/-- R82. The roles resolve by the two settings (log entry 33); `free` says they do not conflict. -/
def Obligations.PageExchangeResolves : Prop :=
  ∀ (s : State) (n : Fin 32) (ex : Exchange), s.Canonical → s.fsm n = 3 →
    ∃ u : State, exec (.pageExchangeComplete n ex) s = .next u ∧ PortOnly n s u ∧
      ∀ (mode : Nat) (cap : Word) (sircor free : Bool), mode = s.pact n P.LINE_CFG.mode →
        cap = (if ex.extNextPage then ex.s2.getD 0 else 0) →
        sircor = (ex.extNextPage && s.pact n P.AN_CFG.no_oui == 0 && bitsOf cap 24 8 != 0 &&
          (match ex.s1 with
            | some w => bitsOf w 0 24 == s.rd CHIP.ID.oui
            | none => false)) →
        free = (resolveRole (s.pact n P.AN_CFG.ms_cfg) ex.role.toNat ex.seedMaster).isSome →
        u.word (portAddr n P.PARTNER_CAP) = cap ∧ u.rd (P.AN_STATUS.partner_sircor.port n) = bitNat sircor ∧
        (∀ b, mode = 1 → sircor = true → highestBit 3 (s.offeredPeer n &&& bitsOf cap 0 3) = some b → free = true →
          u.fsm n = 5 ∧ (u.link n).mode = 1 ∧ (u.link n).rate = b + 2) ∧
        (mode = 2 → sircor = true → bitOf cap 5 = true → s.offersReach n = true → free = true →
          u.fsm n = 5 ∧ (u.link n).mode = 2 ∧
          (u.link n).reachCap = min (s.rd (P.LOCAL_CAP.reach_rate_cap.port n)) (bitsOf cap 18 6) ∧
          (u.link n).reachDepth = min (s.rd (P.LOCAL_CAP.reach_depth_max.port n)) (bitsOf cap 16 2)) ∧
        (mode = 1 ∨ mode = 2 → sircor = false → s.pact n P.AN_CFG.peer_fallback = 0 →
          u.fsm n = 10 ∧ u.rd (P.AN_STATUS.last_fail.port n) = 7) ∧
        (∀ both, both = s.offeredBaseT n &&& ex.baseT.toNat &&& (if ex.extNextPage then 31 else 3) →
          (mode = 0 ∨ sircor = false ∧ s.pact n P.AN_CFG.peer_fallback ≠ 0) →
          (∀ r, highestBit 5 both = some r → (free = true ∨ r = 0) → u.fsm n = 5 ∧ (u.link n).mode = 0 ∧ (u.link n).rate = r) ∧
          (∀ r, highestBit 5 both = some r → free = false → r ≠ 0 → u.fsm n = 1 ∧ u.rd (P.AN_STATUS.last_fail.port n) = 4 ∧
            u.pend (6 * n + 1) = true) ∧
          (highestBit 5 both = none → u.fsm n = 1 ∧ u.rd (P.AN_STATUS.last_fail.port n) = 6 ∧ u.pend (6 * n + 1) = true ∧
            (u.link n).exchFails = (s.link n).exchFails + 1))

/-- R87, R89 to R92, R101, R165. -/
def Obligations.TrainingAdvancesAndFails : Prop :=
  ∀ (s : State) (n : Fin 32), s.Canonical → s.fsm n = 5 → ∀ l, l = s.link n →
    (∀ r : PhaseResult, l.mode ≠ 2 → 1 ≤ l.phase → l.phase ≤ 3 → ∃ u : State, exec (.trainPhaseEnd n r) s = .next u ∧
      u.fsm n = 5 ∧ u.link n = { l with phase := l.phase + 1 } ∧ u.rd (P.LINE_STATUS.mdix.port n) = bitNat r.mdix ∧
      u.rd (P.LINE_STATUS.pol_inv.port n) = r.polInv.toNat ∧
      (∀ e ∈ r.coefs, e.2.1 < 2512 → (∀ e' ∈ r.coefs, e'.1 = e.1 → e'.2.1 = e.2.1 → e' = e) → u.coef (coefKey n e.1 e.2.1) = e.2.2) ∧
      Changes (portAddr n P.LINE_STATUS :: (List.range 4).map (fun p => CAL.PAIR_CAL.pga.addr + CAL.PAIR_CAL.pga.stride * (4 * n + p)))
        [.coefs, .links] s u) ∧
    (∀ r : PhaseResult, l.mode ≠ 2 → l.phase = 4 → (∃ e ∈ r.margins, e.2 < 0) → ∃ u : State, exec (.trainPhaseEnd n r) s = .next u ∧
      u.rd (P.AN_STATUS.last_fail.port n) = 3 ∧ u.pend (6 * n + 1) = true ∧ u.fsm n ≠ 5) ∧
    (∀ r : PhaseResult, l.mode ≠ 2 → l.phase = 4 → (∀ e ∈ r.margins, 0 ≤ e.2) → ∃ u : State, exec (.trainPhaseEnd n r) s = .next u ∧
      u.fsm n = 5 ∧ u.link n = { l with phase := 5 } ∧ (u.trip n).txCheck = 0xACE1 ∧ (u.trip n).txSeq = 0) ∧
    (s.readyForData n = true → ∃ u : State, exec (.receiverStatusOk n) s = .next u ∧ PortOnly n s u ∧ u.fsm n = 6 ∧
      u.rd (P.LINE_STATUS.link_up.port n) = 1 ∧ u.modeNow n = l.mode % 8 ∧ u.rateNow n = l.rate % 8 ∧
      u.rd (P.AN_STATUS.tries.port n) = 0 ∧ u.pend (6 * n) = true) ∧
    (∀ c, (c = Instr.linkFailInhibitTimer n ∧ l.mode ≠ 2 ∨ c = Instr.reachTrainingTimeout n ∧ l.mode = 2) →
      ∃ u : State, exec c s = .next u ∧ PortOnly n s u ∧ u.rd (P.AN_STATUS.last_fail.port n) = 2 ∧ u.pend (6 * n + 1) = true ∧
        u.rd (P.AN_STATUS.fail_cnt.port n) = min 255 (s.rd (P.AN_STATUS.fail_cnt.port n) + 1) ∧
        ((min 7 (s.rd (P.AN_STATUS.tries.port n) + 1) < s.pact n P.AN_CFG.retry ∨ s.pact n P.AN_CFG.downshift_en = 0) →
          u.fsm n = 1 ∧ u.rd (P.AN_STATUS.tries.port n) = min 7 (s.rd (P.AN_STATUS.tries.port n) + 1)) ∧
        (s.pact n P.AN_CFG.retry ≤ min 7 (s.rd (P.AN_STATUS.tries.port n) + 1) → s.pact n P.AN_CFG.downshift_en ≠ 0 →
          (∀ lower, l.mode = 0 → l.rate < 5 → lower < l.rate → (s.pact n P.AN_ADV.base_t).testBit lower = true →
            u.fsm n = 1 ∧ u.rd (P.AN_STATUS.tries.port n) = 0 ∧ u.rd (P.AN_STATUS.downshifted.port n) = 1 ∧
            u.pact n P.AN_ADV.base_t = s.pact n P.AN_ADV.base_t &&& (31 - 2 ^ l.rate) ∧
            u.rd (P.AN_ADV.base_t.port n) = s.pact n P.AN_ADV.base_t &&& (31 - 2 ^ l.rate)) ∧
          (l.mode = 2 → u.pact n P.AN_ADV.reach = 0 ∧ u.rd (P.AN_ADV.reach.port n) = 0 ∧
            u.fsm n = if s.pact n P.AN_CFG.peer_fallback ≠ 0 then 1 else 10))) ∧
    (s.staysInAbility n → ∃ u : State, exec (.partnerLost n) s = .next u ∧ PortOnly n s u ∧ u.fsm n = 2 ∧
      u.rd (P.AN_STATUS.last_fail.port n) = 1 ∧ u.pend (6 * n + 1) = true ∧ ∀ k, k / 10048 = n → u.coef k = 0)

/-- R93, R99, R101, R491. -/
def Obligations.LinkLossTakesTheLinkDown : Prop :=
  ∀ (s : State) (n : Fin 32), s.Canonical →
    (s.inData n = true → s.staysInAbility n → ∃ u : State, exec (.partnerLost n) s = .next u ∧ LinkIsDown n 2 1 s u) ∧
    (s.inData n = true → ∃ u : State, exec (.linkStatusFailure n) s = .next u ∧ LinkIsDown n 1 11 s u) ∧
    (s.fsm n = 7 → ∃ u : State, exec (.fastRetrainTimeout n) s = .next u ∧ LinkIsDown n 1 8 s u) ∧
    (s.pact n P.AN_CFG.ds_restore ≠ 0 → s.rd (P.AN_STATUS.downshifted.port n) = 1 →
      ∃ u : State, exec (.advertisementRestore n) s = .next u ∧ u.rd (P.AN_STATUS.downshifted.port n) = 0 ∧
        (∀ top b, top = s.pact n P.LINE_CFG.rate_max → b = s.rd (P.AN_STATUS.adv_saved.port n) &&& (2 ^ (top + 1) - 1) → b ≠ 0 →
          u.pact n P.AN_ADV.base_t = b ∧ u.rd (P.AN_ADV.base_t.port n) = b) ∧
        u.pact n P.AN_ADV.reach = 1 ∧ u.rd (P.AN_ADV.reach.port n) = 1 ∧
        Changes [portAddr n P.AN_ADV, portAddr n P.AN_ADV + 0x8000, portAddr n P.AN_STATUS, portAddr n P.BANK_STATUS, CHIP.CLAMP_STATUS] [.host] s u) ∧
    (s.pact n P.AN_CFG.ds_restore ≠ 0 → s.rd (P.AN_STATUS.downshifted.port n) = 0 → exec (.advertisementRestore n) s = .next s)

/-- R94 to R97, R206, R230 to R239. -/
def Obligations.ProbesAndCableTests : Prop :=
  ∀ (s : State) (n : Fin 32), s.Canonical →
    (∀ m : SsMsg, m = { mtype := 5, cls := 1, dest := 0, port := some n, body := [] } →
      (s.fsm n = 2 → s.pact n P.AN_CFG.probe_s ≠ 0 → ∃ u : State, exec (.probeSTimer n) s = .next u ∧ u.fsm n = 8 ∧ u.messages = s.messages ++ [m] ∧
        (u.link n).probeTries = 1 ∧ Changes [portAddr n P.AN_STATUS] [.links, .messages] s u) ∧
      (s.fsm n = 8 → (s.link n).probeTries < 2 → ∃ u : State, exec (.probeTimeout n) s = .next u ∧ u.fsm n = 8 ∧ u.messages = s.messages ++ [m] ∧
        (u.link n).probeTries = (s.link n).probeTries + 1 ∧ Changes [] [.links, .messages] s u)) ∧
    (s.fsm n = 8 → 2 ≤ (s.link n).probeTries → s.staysInAbility n → s.pact n P.AN_CFG.auto_test = 0 →
      ∃ u : State, exec (.probeTimeout n) s = .next u ∧ u.fsm n = 2 ∧ u.rd (P.PROBE_STATUS.probe.port n) = 1 ∧ PortOnly n s u) ∧
    (∀ p : PartnerPort, s.fsm n = 8 → ∃ u : State, exec (.probeAnswer n p) s = .next u ∧ u.rd (P.PROBE_STATUS.probe.port n) = 2 ∧
      u.rd (P.PROBE_STATUS.partner_port.port n) = partnerCode p ∧ PortOnly n s u ∧
      (s.staysInAbility n → s.pact n P.AN_CFG.auto_test ≠ 0 → (s.link n).lastTest = none → u.fsm n = 9)) ∧
    (∀ b : Byte, b = (if s.fsm n = 0 then 2 else if s.fsm n = 11 then 5 else if s.fsm n = 5 then 3
        else if s.fsm n = 6 ∨ s.fsm n = 7 then 4 else 1) →
      s.clk.wheelOn = true → ∃ u : State, exec (.probeRequest n) s = .next u ∧ Within [.messages] s u ∧
        u.messages = s.messages ++ [{ mtype := 6, cls := 1, dest := 0, port := some n, body := [b] }]) ∧
    (∀ results : List PairDiag, s.fsm n = 9 → (s.link n).tests = [none] → (s.link n).autoTest = false →
      (s.link n).exchFails < s.pact n P.AN_CFG.an_fail_max → results.length = 4 →
      (∃ u : State, exec (.cableTestEnd n results) s = .next u ∧ PortOnly n s u ∧ u.fsm n = 2 ∧ u.pend (6 * n + 3) = true ∧
        u.rd (P.MON_STATUS.test_busy.port n) = 0 ∧
        u.rd (P.MON_STATUS.diag_seq.port n) = (s.rd (P.MON_STATUS.diag_seq.port n) + 1) % 256 ∧
        (∀ (p : Fin 4) d, results[p.val]? = some d → u.rd ((P.DIAG_PAIR.status.nth p).port n) = d.status.toNat ∧
          u.rd ((P.DIAG_PAIR.distance.nth p).port n) = d.distance.toNat ∧ u.rd ((P.DIAG_PAIR.xpair.nth p).port n) = d.xpair ∧
          u.rd ((P.DIAG_PAIR.gamma.nth p).port n) = d.gamma.toNat)) ∧
      (∃ u : State, exec (.cableTestStop n results) s = .next u ∧ PortOnly n s u ∧ u.fsm n = 2 ∧ u.pend (6 * n + 3) = true ∧
        u.rd (P.PROBE_STATUS.cable.port n) = 6 ∧ u.rd (P.MON_STATUS.test_busy.port n) = 0)) ∧
    (s.gate (portAddr n P.PORT_CMD) false = .served → s.sealed = false → (s.link n).tests = [] →
      (s.fsm n = 2 → ∃ u : State, exec (.cableTest n) s = .next u ∧ PortOnly n s u ∧ u.fsm n = 9 ∧ u.rd (P.MON_STATUS.test_busy.port n) = 1 ∧
        (u.link n).tests = [none] ∧ u.wcLevel (wcKey (portAddr n P.PORT_CMD) 3) = 1) ∧
      ((s.fsm n = 0 ∨ s.fsm n = 5 ∨ s.fsm n = 6 ∨ s.fsm n = 7 ∨ s.fsm n = 10 ∨ s.fsm n = 11) →
        ∃ u : State, exec (.cableTest n) s = .next u ∧ u.rd (P.PROBE_STATUS.cable.port n) = 7 ∧ u.fsm n = s.fsm n ∧
          Changes [portAddr n P.PROBE_STATUS] [] s u))

/-- R41, R98 to R100, R103, R104; commands as the host gives them where the access is served, outside Sealed operation. -/
def Obligations.RetrainsAndRestarts : Prop :=
  ∀ (s : State) (n : Fin 32), s.Canonical → ∀ a l, a = portAddr n P.PORT_CMD → l = s.link n →
    (s.fsm n = 6 → l.fastRetrain = true → s.rd (P.LPI_STATUS.lpi_state.port n) = 0 → s.modeNow n ≠ 2 →
      (l.retrains.filter (fun t => decide (s.now - t < 10000000000))).length < 4 →
      ∀ c, (c = Instr.partnerRetrainRequest n ∨
          c = Instr.fastRetrain n ∧ s.gate a false = .served ∧ s.sealed = false ∧ s.wcLevel (wcKey a 2) = 0) →
        ∃ u : State, exec c s = .next u ∧ PortOnly n s u ∧ u.fsm n = 7 ∧
          u.rd (P.AN_STATUS.fr_count.port n) = min 15 (s.rd (P.AN_STATUS.fr_count.port n) + 1) ∧
          u.rd (P.LINE_STATUS.link_up.port n) = s.rd (P.LINE_STATUS.link_up.port n) ∧ u.modeNow n = s.modeNow n ∧
          u.rateNow n = s.rateNow n ∧ (c = Instr.fastRetrain n → u.wcLevel (wcKey a 2) = 1)) ∧
    (s.fsm n = 6 → l.fastRetrain = false → exec (.partnerRetrainRequest n) s = .next s) ∧
    (s.fsm n = 6 → l.fastRetrain = false → s.gate a false = .served → s.sealed = false → s.wcLevel (wcKey a 2) = 0 →
      ∃ u : State, exec (.fastRetrain n) s = .next u ∧ LinkIsDown n 1 8 s u ∧ u.wcLevel (wcKey a 2) = 0) ∧
    (∀ coefs : List (Fin 4 × Fin 48 × BitVec 18), s.fsm n = 7 → s.modeNow n ≠ 2 → l.cmdRetrain = false → s.wcLevel (wcKey a 2) = 0 →
      ∃ u : State, exec (.fastRetrainComplete n coefs) s = .next u ∧ PortOnly n s u ∧ u.fsm n = 6 ∧
        (∀ e ∈ coefs, (∀ e' ∈ coefs, e'.1 = e.1 → e'.2.1 = e.2.1 → e' = e) → u.coef (coefKey n e.1 (2464 + e.2.1)) = e.2.2)) ∧
    (s.gate a false = .served → s.sealed = false →
      (s.fsm n ≠ 0 → s.fsm n ≠ 11 → ∃ u : State, exec (.anRestart n) s = .next u ∧ u.fsm n = 1 ∧ u.rd (P.AN_STATUS.last_fail.port n) = 9 ∧
        u.rd (P.LINE_STATUS.link_up.port n) = 0 ∧ PortOnly n s u ∧ ∀ k, u.coef k = if k / 10048 = n then 0 else s.coef k) ∧
      (s.fsm n = 0 ∨ s.fsm n = 11 → exec (.anRestart n) s = .next s) ∧
      (∀ k, s.wcLevel (wcKey a 0) = k → k < 2 → ∃ u : State, exec (.restart n) s = .next u ∧ u.wcLevel (wcKey a 0) = k + 1 ∧ Within [.host] s u))

/-- R411 to R417. A request is taken at its tick; in Sealed operation one of the host adds an AUDIT record, which the clauses of an
accepted request leave to firmware. -/
def Obligations.PowerRequestsAreJudged : Prop :=
  ∀ (s : State), s.started = true →
    (∀ (target : Fin 8) (src : Fin 3) (code : Nat),
      (code = 7 ∧ 5 ≤ target.val ∨ code = 2 ∧ 2 ≤ target.val ∧ target.val ≤ 4 ∧ src.val ≤ 1 ∧ s.rd PWR.CFG.host_deep = 0 ∨
        code = 3 ∧ 2 ≤ target.val ∧ target.val ≤ 4 ∧ (src.val = 2 ∨ s.rd PWR.CFG.host_deep ≠ 0) ∧ s.power.wakePin = true) →
      ∃ u : State, exec (.powerRequest target src) s = .next u ∧ u.rd PWR.REQ_STATUS.result = code ∧ u.rd PWR.REQ.state = target.val ∧
        u.pend 241 = true ∧ u.powerState = s.powerState ∧ Changes [PWR.REQ, PWR.REQ_STATUS, PWR.CAUSE] [] s u) ∧
    (∀ (target : Fin 8) (src : Fin 3), s.sealed = false ∨ src.val = 2 → target.val ≤ 1 →
      (s.power.stage = .rest → s.power.wake = none → s.rd PWR.REQ_STATUS.pend_valid = 0 → s.powerState ≤ 1 →
        ∃ u : State, exec (.powerRequest target src) s = .next u ∧ u.rd PWR.REQ_STATUS.target = target.val ∧ u.rd PWR.REQ_STATUS.src = src.val ∧
          u.powerState = s.powerState ∧ u.rd PWR.REQ_STATUS.busy = bitNat (target.val ≠ s.powerState) ∧
          (target.val = s.powerState → u.rd PWR.REQ_STATUS.result = 0 ∧ u.power.stage = .rest) ∧
          (target.val ≠ s.powerState → u.power.stage = .slot) ∧ Changes [PWR.REQ, PWR.REQ_STATUS] [.power] s u) ∧
      (s.power.stage ≠ .rest → s.power.stage ≠ .testing →
        ∃ u : State, exec (.powerRequest target src) s = .next u ∧ u.rd PWR.REQ_STATUS.pend_valid = 1 ∧ u.rd PWR.REQ_STATUS.pend_state = target.val ∧
          u.power = { s.power with pendSrc := src.val } ∧ u.rd PWR.REQ_STATUS.busy = s.rd PWR.REQ_STATUS.busy ∧
          (s.rd PWR.REQ_STATUS.pend_valid = 1 → u.rd PWR.REQ_STATUS.result = 5 ∧ u.pend 243 = true) ∧
          Changes [PWR.REQ, PWR.REQ_STATUS, PWR.CAUSE] [.power] s u)) ∧
    (∀ (target : Fin 8) (src : Fin 3), s.sealed = false ∨ src.val = 2 → 2 ≤ target.val → target.val ≤ 4 →
      src.val = 2 ∨ s.rd PWR.CFG.host_deep ≠ 0 → s.power.wakePin = false → s.power.stage = .rest → s.power.wake = none →
      s.rd PWR.REQ_STATUS.pend_valid = 0 → s.powerState ≤ 1 →
      (∀ b, (List.range 9).find? (fun b => s.blockRefuses target.val b) = some b →
        ∃ u : State, exec (.powerRequest target src) s = .next u ∧ u.rd PWR.REQ_STATUS.result = 1 ∧ u.rd PWR.REQ_STATUS.block = b ∧
          u.rd PWR.REQ_STATUS.busy = 0 ∧ u.pend 241 = true ∧ u.power = s.power ∧ u.powerState = s.powerState ∧
          Changes [PWR.REQ, PWR.REQ_STATUS, PWR.CAUSE] [] s u) ∧
      (∀ l, (∀ b, b < 9 → s.blockRefuses target.val b = false) → l = (List.range 9).filter (fun b => s.blockDelays b) →
        ∃ u : State, exec (.powerRequest target src) s = .next u ∧ u.rd PWR.REQ_STATUS.busy = 1 ∧ u.rd PWR.REQ_STATUS.target = target.val ∧
          u.power = { s.power with stage := if l = [] then .stopping else .asking l } ∧
          Changes [PWR.REQ, PWR.REQ_STATUS] [.power] s u)) ∧
    (∀ (b : Fin 9) (limit : Bool) (l : List Nat), s.power.stage = .asking l → l.contains b.val = true →
      (s.blockDelays b = false ∨ limit = true ∧ b.val = 6 → ∀ rest, rest = l.filter (fun k => k != b.val) →
        exec (.entryHandshakeAnswer b limit) s =
          .next { s with power := { s.power with stage := if rest.isEmpty then .stopping else .asking rest } }) ∧
      (s.blockDelays b = true → limit = true → b.val ≠ 6 → s.rd PWR.REQ_STATUS.pend_valid = 0 →
        ∃ u : State, exec (.entryHandshakeAnswer b limit) s = .next u ∧ u.rd PWR.REQ_STATUS.result = 1 ∧ u.rd PWR.REQ_STATUS.block = b.val ∧
          u.rd PWR.REQ_STATUS.busy = 0 ∧ u.pend 241 = true ∧ u.power = { s.power with stage := .rest, wake := none } ∧
          Changes [PWR.REQ_STATUS, PWR.CAUSE] [.power] s u)) ∧
    (s.power.stage = .crc → s.rd PWR.REQ_STATUS.target = 3 →
      ∃ u : State, exec .entryCrcDone s = .next u ∧ u.power = { s.power with stage := .beacons, retained := s.retainedBanks } ∧
        Within (records ++ [.messages, .sram, .dma, .net, .power]) s u) ∧
    (∀ r rest, s.railsFor (s.rd PWR.REQ_STATUS.target) false = r :: rest →
      (s.power.stage = .crc → s.rd PWR.REQ_STATUS.target = 2 →
        ∃ u : State, exec .entryCrcDone s = .next u ∧ u.clk = { s.clk with pllOn := false } ∧ u.out = s.out ++ [.railCommand r (s.railValue r 2 false)] ∧
          u.power = { s.power with stage := .entryRails, retained := s.retainedBanks, crystal := false, railFault := false,
                                   railsDue := rest, rail := some { rail := r, since := s.now } } ∧
          Within [.clk, .power, .out] s u) ∧
      (s.power.stage = .beacons →
        ∃ u : State, exec .deepSleepBeaconTimeout s = .next u ∧ u.clk = { s.clk with pllOn := false } ∧
          u.out = s.out ++ [.railCommand r (s.railValue r (s.rd PWR.REQ_STATUS.target) false)] ∧
          u.power = { s.power with stage := .entryRails, crystal := false, railFault := false,
                                   railsDue := rest, rail := some { rail := r, since := s.now } } ∧
          (∀ e ∈ u.net.modems, ∀ f ∈ e.2.queue, f.frame.cls ≠ 2) ∧ Within [.clk, .power, .out, .net] s u))

/-- R416, R419 to R422, R424, R426. -/
def Obligations.RailsAndWakes : Prop :=
  ∀ (s : State),
    (∀ (r : Fin 4) since, s.power.rail = some { rail := r.val, since := since } →
      (∀ c, (s.rd (PWR.RAIL_CFG.ack.nth r) ≠ 1 ∧ c = Instr.railAcknowledge r ∨
          s.rd (PWR.RAIL_CFG.ack.nth r) = 1 ∧ ∃ (status vout : BitVec 16), status.getLsbD 15 = false ∧ status.getLsbD 11 = false ∧
            c = Instr.statusWordPoll r status vout) →
        (s.power.stage = .waking → s.boot.stage = .ready →
          (∀ k rest, s.power.railsDue = k :: rest → ∃ u : State, exec c s = .next u ∧
            u.power = { s.power with railsDue := rest, rail := some { rail := k, since := s.now } } ∧
            u.out = s.out ++ [.railCommand k (s.railValue k 0 false)] ∧ Within [.regs, .power, .out] s u) ∧
          (s.power.railsDue = [] → ∃ u : State, exec c s = .next u ∧ u.power = { s.power with rail := none } ∧ Within [.regs, .power] s u)) ∧
        (s.power.stage = .entryRails → s.power.railsDue = [] → s.rd PWR.REQ_STATUS.target ≠ 4 ∨ s.power.wake = none →
          s.rd PWR.REQ_STATUS.pend_valid = 0 → ∃ u : State, exec c s = .next u ∧ u.powerState = s.rd PWR.REQ_STATUS.target ∧
            u.rd PWR.REQ_STATUS.busy = 0 ∧ u.rd PWR.REQ_STATUS.result = (if s.power.railFault then 6 else 0) ∧
            u.power = { s.power with rail := none, stage := .rest } ∧ Within [.regs, .power, .net] s u)) ∧
      (∀ (status vout : BitVec 16), s.rd (PWR.RAIL_CFG.ack.nth r) = 1 → s.power.stage = .waking → s.boot.stage = .ready →
        s.power.railsDue = [] →
        (status.getLsbD 15 = false → status.getLsbD 11 = false → ∃ u : State, exec (.statusWordPoll r status vout) s = .next u ∧
          u.rd (PWR.RAIL_STATUS.vout.nth r) = vout.toNat ∧ Changes [PWR.RAIL_STATUS + 16 * r] [.power] s u) ∧
        (status.getLsbD 15 = true ∨ status.getLsbD 11 = true → exec (.statusWordPoll r status vout) s = .next s)) ∧
      (∀ f : RailFault, s.power.stage = .waking → r.val = 0 → ∃ u : State, exec (.railFault r f) s = .next u ∧
        u.rd (PWR.RAIL_STATUS.fault.nth r) = (match f with
          | .timeout => 1
          | .nack => 2
          | .pec => 3) ∧ u.pend 242 = true ∧ Output.railClear r ∈ u.out ∧
        Output.railCommand r (s.railValue r s.powerState false) ∈ u.out ∧
        u.power = { s.power with stage := .rest, rail := none, railsDue := [], retry := true } ∧
        Changes [PWR.RAIL_STATUS + 16 * r, PWR.CAUSE] [.power] s u)) ∧
    (∀ status : List (BitVec 16), s.boot.stage = .ready → status.length = 4 → ∃ u : State, exec (.pmbusAlert status) s = .next u ∧
      u.pend 245 = true ∧
      (∀ (r : Fin 4) w, status[r.val]? = some w → s.rd (PWR.RAIL_CFG.enable.nth r) = 1 → u.rd (PWR.RAIL_STATUS.vout.nth r) = w.toNat) ∧
      Changes [PWR.CAUSE, PWR.RAIL_STATUS, PWR.RAIL_STATUS + 16, PWR.RAIL_STATUS + 32, PWR.RAIL_STATUS + 48] [] s u) ∧
    (∀ (c : Instr) (src : Nat) (p : Power),
      (c = .wakePin true ∧ s.boot.stage = .ready ∧ s.power.wakePin = false ∧ src = 1 ∧ p = { s.power with wakePin := true } ∨
        c = .rtcAlarm ∧ src = 2 ∧ p = { s.power with alarmMet := true } ∧ s.pair PWR.RTC_ALARM (PWR.RTC_ALARM + 4) ≠ 0 ∧
          s.pair PWR.RTC_ALARM (PWR.RTC_ALARM + 4) ≤ s.power.rtcSec ∧ s.power.alarmMet = false ∧ s.powerState ≠ 4 ∨
        (∃ a r m, c = .hostAccessInSleep a r m ∧ s.notServed a.toNat = true) ∧ s.rd PWR.CFG.host_wake = 1 ∧ src = 5 ∧ p = s.power) →
      (s.power.stage = .rest → 2 ≤ s.powerState → ∃ u : State, exec c s = .next u ∧ u.power = { p with wake := some (s.power.wake.getD src) } ∧
        Within [.power] s u) ∧
      (s.power.stage.entering = true → ∃ u : State, exec c s = .next u ∧
        u.power = { p with wake := some (s.power.wake.getD src) } ∧ u.rd PWR.AON_STATUS.wake_in_entry = 1 ∧
        Changes [PWR.AON_STATUS] [.power] s u)) ∧
    (∀ asserted : Bool, asserted = false ∨ s.power.wakePin = true → ∃ u : State, exec (.wakePin asserted) s = .next u ∧
      u.power = { s.power with wakePin := asserted } ∧ Within [.power] s u) ∧
    (s.pair PWR.RTC_ALARM (PWR.RTC_ALARM + 4) ≠ 0 → s.pair PWR.RTC_ALARM (PWR.RTC_ALARM + 4) ≤ s.power.rtcSec →
      s.power.alarmMet = false → s.powerState ≤ 1 → s.power.stage.entering = false → ∃ u : State, exec .rtcAlarm s = .next u ∧
        u.pend 247 = true ∧ u.power = { s.power with alarmMet := true } ∧ Changes [PWR.CAUSE] [.power] s u) ∧
    (∀ (a : BitVec 26) (r mdio : Bool), s.notServed a.toNat = true → s.rd PWR.CFG.host_wake = 0 → ∃ u,
      exec (.hostAccessInSleep a r mdio) s = .next u ∧ u.pend 246 = true ∧
      u.rd PWR.SLEEP_ACCESS.count = min 0xFFFFFFFF (s.rd PWR.SLEEP_ACCESS.count + 1) ∧
      (r = true → (if mdio then Output.mdioData 0 30 2 0xFFFF else .completerAbort a.toNat) ∈ u.out) ∧
      Changes [PWR.SLEEP_ACCESS, PWR.CAUSE] [] s u) ∧
    (s.power.stage = .waking → s.power.railsDue = [] → s.power.rail = none →
      exec .wakeClocksReady s = .next { s with clk := { s.clk with pllOn := true },
                                               power := { s.power with stage := .checking, crystal := true } }) ∧
    (∀ (bad : BitVec 24) (held : Word) (lost : List Nat), s.power.stage = .checking → s.power.retained = 0xFFFFFF →
      s.rd PWR.REQ_STATUS.pend_valid = 0 → lost = (List.range 24).filter (fun b => bad.getLsbD b) → (∀ b ∈ lost, 20 ≤ b) →
      ∃ u : State, exec (.wakeCrcCheck bad held) s = .next u ∧ u.powerState = 0 ∧ u.clk = { s.clk with wheelOn := true, pllOn := true, slot := 0, cycle := 0 } ∧
        u.power = { s.power with stage := .rest } ∧ u.pend 240 = true ∧
        (lost ≠ [] → (∀ b : Fin 24, (u.rd PWR.RET_STATUS.banks).testBit b = bad.getLsbD b) ∧ u.rd PWR.AON_STATUS.phase = 3 ∧
          u.pend 244 = true) ∧
        Within (records ++ [.clk, .host, .messages, .signing, .links, .lanes, .sram, .seq, .dma, .net, .power]) s u)

/-- R428 to R430, R433, R468, R476. The registers each source keeps are those of `keptRegs`. -/
def Obligations.ResetSourcesClearTheDevice : Prop :=
  ∀ (s : State),
    (∀ (c : Instr) (src : Nat),
      (c = .powerOnReset ∧ src = 1 ∨ (c = .resetN ∨ c = .supplyDrop) ∧ s.boot.stage ≠ .unpowered ∧ src = 3) →
      ∃ u : State, exec c s = .next u ∧ u.boot.stage = .held ∧ u.rd CHIP.RESET_CAUSE.source = src ∧
        u.trust.otp = s.trust.otp ∧ u.trust.flash = s.trust.flash ∧ u.pending = s.pending ∧ u.clk = State.reset.clk ∧
        u.sram = [] ∧ u.links = [] ∧ u.trips = [] ∧ u.seq = State.reset.seq ∧ u.logs = State.reset.logs ∧ u.net = State.reset.net ∧
        (src = 1 → u.power.rtcSec = 0) ∧ (src = 3 → u.power.rtcSec = s.power.rtcSec ∧ u.power.rtcFrac = s.power.rtcFrac) ∧
        (∀ a, a ≠ CHIP.RESET_CAUSE → a ≠ BIST.SHUT_STATUS → a ≠ PWR.AON_STATUS → a ≠ TRIP.OUT_STATUS →
          (∀ r : Fin 4, a ≠ PWR.RAIL_CFG + 16 * r) → u.word a = resetWord a) ∧
        (src = 1 → u.word BIST.SHUT_STATUS = resetWord BIST.SHUT_STATUS) ∧
        (src = 3 → u.word BIST.SHUT_STATUS = s.word BIST.SHUT_STATUS ∧
          u.rd PWR.AON_STATUS.rtc_valid = s.rd PWR.AON_STATUS.rtc_valid ∧
          ∀ r : Fin 4, u.word (PWR.RAIL_CFG + 16 * r) = s.word (PWR.RAIL_CFG + 16 * r))) ∧
    (s.gate CHIP.RESET_CMD false = .served → s.sealed = false →
      (∃ u : State, exec .device s = .next u ∧ (u.boot.stage = .booting ∨ u.boot.stage = .testing) ∧ u.rd CHIP.RESET_CAUSE.source = 4 ∧
        u.rd PWR.AON_STATUS.phase = 1 ∧ u.clk.pllOn = true ∧ u.clk.wheelOn = false ∧ u.trust.otp = s.trust.otp ∧
        u.trust.flash = s.trust.flash ∧ u.pending = s.pending ∧ u.power.rtcSec = s.power.rtcSec ∧ u.sram = [] ∧ u.logs = State.reset.logs) ∧
      (∃ u : State, exec .longNext s = .next u ∧ u.rd BIST.SHUT_STATUS.valid = 0 ∧ u.rd BIST.SHUT_STATUS.long_next = 1 ∧
        (∀ a, a ≠ BIST.SHUT_STATUS → u.word a = s.word a) ∧ Within [.regs] s u)) ∧
    (s.boot.stage = .held → ∀ short : Bool,
      short = decide (s.rd BIST.SHUT_STATUS.valid = 1 ∧ s.rd BIST.SHUT_STATUS.result = 1 ∧ s.rd BIST.SHUT_STATUS.long_next = 0) →
      ∃ u : State, exec .resetRelease s = .next u ∧ u.boot.stage = (if short then .booting else .testing) ∧
        u.rd CHIP.BOOT_STATUS.path = bitNat (!short) ∧ u.rd PWR.AON_STATUS.phase = 1 ∧ u.clk = { s.clk with pllOn := true } ∧
        (∀ a, a ≠ PWR.AON_STATUS → a ≠ CHIP.BOOT_STATUS → u.word a = s.word a) ∧ Within [.regs, .clk, .boot, .power, .out] s u) ∧
    (∃ u : State, exec .aonSupplyFall s = .next u ∧ u.boot.stage = .unpowered ∧ u.rd CHIP.RESET_CAUSE.source = 0 ∧ u.trust.otp = s.trust.otp ∧
      u.trust.flash = s.trust.flash ∧ u.pending = s.pending ∧ u.power.rtcSec = 0 ∧ u.sram = [] ∧ u.clk = State.reset.clk) ∧
    (s.boot.stage = .held → s.rd CHIP.RESET_CAUSE.source ≤ 1 → ∃ u : State, exec .jtagTapReset s = .next u ∧
      u.rd CHIP.RESET_CAUSE.source = 5 ∧ (∀ a, a ≠ CHIP.RESET_CAUSE → u.word a = s.word a) ∧ Within [.regs] s u) ∧
    (s.boot.stage ≠ .held → exec .jtagTapReset s = .next s) ∧
    (∃ u : State, exec .perstN s = .next u ∧ u.pcie = { linkUp := false, msixEnable := false, functionMask := false, d3hot := false } ∧
      (∀ e : Fin 256, u.rd (EVT.MSIX_CTRL.mask.nth e) = 1 ∧ u.rd (EVT.MSIX_ADDR_LO.lo.nth e) = 0 ∧
        u.rd (EVT.MSIX_ADDR_HI.hi.nth e) = 0 ∧ u.rd (EVT.MSIX_DATA.data.nth e) = 0) ∧ Within [.regs, .pcie] s u) ∧
    (∀ l : LinkConfig, exec (.pcieLinkChange l) s = .next { s with pcie := { linkUp := l.up, msixEnable := l.msixEnable, functionMask := l.functionMask, d3hot := l.d3hot } })

/-- R432, R434, R436 to R438, R442. -/
def Obligations.TestsAndStarts : Prop :=
  ∀ (s : State),
    (∀ (run : TestRun) (r : Nat), s.power.railsDue = [] → s.power.rail = none →
      (run.signature = false ∧ r = 2 ∨ run.signature = true ∧ run.count = 0 ∧ r = 0 ∨
        run.signature = true ∧ run.count ≠ 0 ∧ run.count = run.expected ∧ r = 1 ∨
        run.signature = true ∧ run.count ≠ 0 ∧ run.count ≠ run.expected ∧ r = 3) →
      ∀ seg w, seg = s.boot.seg → w = BIST.SEG_RESULT + 4 * (seg / 16) →
      (s.boot.stage = .testing → seg < 79 →
        (r ≤ 1 → seg ≠ 41 → ∃ u : State, exec (.segmentEnd run) s = .next u ∧ u.segResult seg = r ∧
          u.boot = { s.boot with seg := seg + 1, again := false } ∧ (∀ a, a ≠ w → u.word a = s.word a) ∧ Within [.regs, .boot] s u) ∧
        (r = 3 → s.boot.again = false → ∃ u : State, exec (.segmentEnd run) s = .next u ∧ u.segResult seg = r ∧
          u.boot = { s.boot with again := true } ∧ (∀ a, a ≠ w → u.word a = s.word a) ∧ Within [.regs, .boot] s u) ∧
        (r = 2 ∨ r = 3 ∧ s.boot.again = true →
          (seg ≤ 24 ∨ seg = 42 ∨ seg = 43 ∨ 76 ≤ seg → ∃ u : State, exec (.segmentEnd run) s = .next u ∧ u.boot.stage = .safe ∧
            u.rd CHIP.RESET_CAUSE.safe_reason = (if r = 2 then 1 else 2) ∧ u.clk = { s.clk with wheelOn := false } ∧
            u.segResult seg = r ∧ Within [.regs, .clk, .boot, .out] s u) ∧
          (44 ≤ seg → seg ≤ 75 → ∃ u : State, exec (.segmentEnd run) s = .next u ∧ u.segResult seg = r ∧
            u.boot = { s.boot with seg := seg + 1, again := false } ∧ u.link (seg - 44) = { s.link (seg - 44) with faulted := true } ∧
            (∀ m, m ≠ seg - 44 → u.link m = s.link m) ∧ (∀ a, a ≠ w → u.word a = s.word a) ∧ Within [.regs, .boot, .links] s u))) ∧
      (s.boot.stage = .testing → seg = 79 → r ≤ 1 → ∃ u : State, exec (.segmentEnd run) s = .next u ∧ u.boot.stage = .booting ∧
        u.segResult seg = r ∧ (∀ a, a ≠ w → u.word a = s.word a) ∧ Within [.regs, .boot, .power, .out] s u) ∧
      (s.boot.stage = .ready → s.power.stage = .testing → seg ≤ 79 → ∃ (u : State) (first : _), exec (.segmentEnd run) s = .next u ∧
        first = (if r ≠ 1 ∧ s.rd BIST.SHUT_STATUS.seg_first = 127 then seg else s.rd BIST.SHUT_STATUS.seg_first) ∧
        u.segResult seg = r ∧ u.rd BIST.SHUT_STATUS.seg_done = seg + 1 ∧ u.rd BIST.SHUT_STATUS.seg_first = first ∧
        (seg < 79 → u.boot = { s.boot with seg := seg + 1 } ∧ u.power = s.power) ∧
        (seg = 79 → u.power = { s.power with stage := .crc } ∧ u.boot = s.boot ∧
          (first = 127 → u.rd BIST.SHUT_STATUS.result = 1 ∧ u.rd BIST.SHUT_STATUS.valid = 1) ∧
          (first ≠ 127 → u.segResult first ≠ 1 → u.rd BIST.SHUT_STATUS.result = u.segResult first ∧ u.rd BIST.SHUT_STATUS.valid = 0)) ∧
        (∀ a, a ≠ w → a ≠ BIST.SHUT_STATUS → u.word a = s.word a) ∧ Within [.regs, .boot, .power] s u)) ∧
    (∀ b : StartInfo, s.boot.stage = .booting → ∀ m, m = deriveIdentity b.idGood (readOtp s) →
      (∀ reason, (b.otpGood = false ∧ reason = 4 ∨ b.otpGood = true ∧ b.katGood = false ∧ reason = 1 ∨
          b.otpGood = true ∧ b.katGood = true ∧ s.boot.image = [] ∧ (∀ k, k ≤ 1 → m.judgeFirmware (m.flashSlot k) ≠ 1) ∧ reason = 3) →
        ∃ u : State, exec (.managementReady b) s = .next u ∧ u.boot.stage = .safe ∧ u.rd CHIP.RESET_CAUSE.safe_reason = reason ∧
          u.clk = { s.clk with wheelOn := false } ∧ Within (records ++ [.clk, .trust, .boot]) s u) ∧
      (∀ slot l, b.otpGood = true → b.katGood = true → s.boot.image = [] → s.trust.flash.recordGood = true →
        slot = s.trust.flash.preferred → slot ≤ 1 → l = fwWhole (s.flashSlot slot) →
        ∃ u : State, exec (.managementReady b) s = .next u ∧ (m.judgeFirmware (m.flashSlot slot) = 1 → u.boot.stage = .ready ∧ u.rd CHIP.BOOT_STATUS.ready = 1 ∧
          u.rd PWR.AON_STATUS.phase = 0 ∧ u.clk = { s.clk with wheelOn := true, pllOn := true, slot := 0, cycle := 0 } ∧
          u.wheel.active = readImage b.wheel ∧ u.fw.measurement = fwMeasurement l ∧ u.fw.svn = fwSvn l ∧
          u.trust.flash.journal.startCount = s.trust.flash.journal.startCount + 1 ∧
          Within (records ++ [.host, .clk, .chain, .messages, .signing, .links, .pool, .classes, .lanes, .sram, .wheel, .seq, .dma, .net,
            .trust, .fw, .boot]) s u))) ∧
    (s.boot.stage = .safe → s.rd CHIP.RESET_CAUSE.safe_reason = 3 →
      ∀ a l, a = s.rd TST.MBOX_ADDR.addr → l = s.bytesAt a (min (0x800000 - a) (numBE (s.bytesAt (a + 8) 4))) →
      ∃ u : State, exec .submit s = .next u ∧
        (s.judgeFirmware l = 1 → u.boot = { s.boot with stage := .booting, image := l } ∧
          u.rd CHIP.RESET_CAUSE.safe_reason = 0 ∧ (∀ k, k ≠ CHIP.RESET_CAUSE → u.word k = s.word k) ∧ Within [.regs, .boot] s u) ∧
        (s.judgeFirmware l ≠ 1 → u = s))

/-- R436, R440, R441, R450; hold is written as the host writes it where the access is served. -/
def Obligations.RotationTestsAndSnapshotHold : Prop :=
  ∀ (s : State) (k : Nat), k = s.cal.rotNext →
    (s.clk.wheelOn = true → s.act BIST.ROT_CFG.enable = 1 → s.cal.rot = none → s.rd CHIP.RESET_CAUSE.safe_reason = 0 → k ≤ 272 →
      (s.act BIST.ROT_CFG.patterns ≠ 0 → k < 17 → s.rd CAL.JSP_STATUS.permanent = 0 → s.cal.retired.contains 16 = false →
        s.cal.retired.contains k = false → ∃ u : State, exec .rotationStep s = .next u ∧
          u.cal = { s.cal with rot := some { kind := 0, index := k, rest := [], elem := some k, standIn := none, result := none },
                               jspTake := if k < 16 then some k else none } ∧
          u.rd BIST.ROT_STATUS.step = k ∧ u.rd BIST.ROT_STATUS.kind = 0 ∧ u.rd BIST.ROT_STATUS.index = k ∧
          u.rd BIST.ROT_STATUS.result = 0 ∧ (∀ a, a ≠ BIST.ROT_STATUS → u.word a = s.word a) ∧ Within [.regs, .cal] s u) ∧
      (s.act BIST.ROT_CFG.patterns = 0 → ∃ u : State, exec .rotationStep s = .next u ∧ u.cal = { s.cal with rotNext := (k + 1) % 273 } ∧
        u.rd BIST.ROT_STATUS.step = k ∧ u.rd BIST.ROT_STATUS.result = 0 ∧ u.pend 254 = true ∧
        u.rd BIST.ROT_STATUS.rounds = (s.rd BIST.ROT_STATUS.rounds + (if k = 272 then 1 else 0)) % 2 ^ BIST.ROT_STATUS.rounds.width ∧
        Changes [BIST.ROT_STATUS, BIST.CAUSE] [.cal] s u) ∧
      (s.act BIST.ROT_CFG.patterns ≠ 0 → 17 ≤ k → s.eligible (if k < 145 then k - 17 else k - 145) = false →
        ∃ u : State, exec .rotationStep s = .next u ∧ u.cal = { s.cal with rotNext := (k + 1) % 273 } ∧ u.rd BIST.ROT_STATUS.result = 0 ∧
          (∀ a, a ≠ BIST.ROT_STATUS → u.word a = s.word a) ∧ Within [.regs, .cal] s u)) ∧
    (∀ (x : RotTest) (w : Nat) (run : TestRun), s.cal.rot = some x → x.elem = some w → x.rest = [] → x.result = none → x.standIn = none →
      k ≤ 271 →
      (x.kind = 0 → w ≤ 16 →
        (run.signature = true → run.count = run.expected → run.count ≠ 0 → ∃ u : State, exec (.rotationElementEnd run) s = .next u ∧
          u.rd BIST.ROT_STATUS.result = 1 ∧ u.cal.rot = none ∧ u.cal.rotNext = k + 1 ∧ u.cal.jspGive = decide (w < 16) ∧
          (∀ a, a ≠ BIST.ROT_STATUS → u.word a = s.word a) ∧ Within [.regs, .cal] s u) ∧
        (run.signature = false → ∃ u : State, exec (.rotationElementEnd run) s = .next u ∧ u.rd BIST.ROT_STATUS.result = 2 ∧
          u.cal.rot = none ∧ u.cal.rotNext = k + 1 ∧ u.cal.retired = s.cal.retired ++ [w] ∧ u.pend 253 = true ∧
          (w < 16 → u.rd CAL.JSP_STATUS.permanent = 1 ∧ u.rd CAL.JSP_STATUS.standing_in = 1 ∧ u.rd CAL.JSP_STATUS.engine = w ∧
            u.pend 255 = true) ∧
          Changes [BIST.ROT_STATUS, BIST.CAUSE, CAL.JSP_STATUS] [.cal] s u)) ∧
      (x.kind ≠ 0 → x.index < 128 → w < 90 → (s.elem x.index w).role = 2 →
        (run.signature = true → run.count = run.expected → run.count ≠ 0 → ∃ u : State, exec (.rotationElementEnd run) s = .next u ∧
          u.elem x.index w = { s.elem x.index w with role := 1, short := 0 } ∧ u.cal.rot = none ∧ u.cal.rotNext = k + 1 ∧
          u.rd BIST.ROT_STATUS.result = 1 ∧ Changes [BIST.ROT_STATUS, CAL.PAIR_CAL + 4 * x.index] [.cal] s u) ∧
        (run.signature = false →
          16 < ((List.range 18).filter (fun e => (s.elem x.index e).role != 3)).length →
          64 < ((List.range 72).filter (fun e => (s.elem x.index (e + 18)).role != 3)).length →
          ∃ u : State, exec (.rotationElementEnd run) s = .next u ∧
            u.elem x.index w = { s.elem x.index w with role := 3, short := 0 } ∧ u.cal.rot = none ∧ u.pend 253 = true ∧
            u.rd BIST.ROT_STATUS.result = 2 ∧ Changes [BIST.ROT_STATUS, BIST.CAUSE, CAL.PAIR_CAL + 4 * x.index] [.cal] s u))) ∧
    (s.gate CHIP.SNAP_CTRL false = .served → ∀ v : Bool, ∃ u : State, exec (.snapHoldWrite v) s = .next u ∧
      u.rd CHIP.SNAP_CTRL.hold = bitNat v ∧ (v = true → u.rd CHIP.SNAP_CTRL.held = s.fw.newest % 2) ∧
      u.fw = { s.fw with holdFrom := if v then some s.now else none } ∧
      (∀ a, a ≠ CHIP.SNAP_CTRL → u.word a = s.word a) ∧ Within [.regs, .fw] s u) ∧
    (∀ t, s.fw.holdFrom = some t →
      (t + 1000000000 ≤ s.now → ∃ u : State, exec .snapHoldExpiry s = .next u ∧ u.rd CHIP.SNAP_CTRL.hold = 0 ∧
        u.fw = { s.fw with holdFrom := none } ∧ (∀ a, a ≠ CHIP.SNAP_CTRL → u.word a = s.word a) ∧ Within [.regs, .fw] s u) ∧
      (s.now < t + 1000000000 → exec .snapHoldExpiry s = .next s))

/-- R16, R17, R20, R27, R53, R411, R421, R427. The last clause is the model's choice, log entry 2. -/
def Obligations.ClocksAdvance : Prop :=
  ∀ (s : State),
    (∀ lin : BitVec 4, s.boot.stage = .ready → s.powerState ≠ 4 → s.clk.pllOn = false → s.clk.frac < 64 →
      s.now + 30518 < 2 ^ 64 → s.power.asked = [] → s.power.writes = [] → s.power.rtcSet = false → s.power.wake = none →
      s.power.stage ≠ .beacons → s.rd PWR.REQ_STATUS.pend_valid = 0 →
      ∃ u : State, exec (.aonTick lin) s = .next u ∧ 64 * u.now + u.clk.frac = 64 * s.now + s.clk.frac + 1953125 ∧ u.clk.frac < 64 ∧
        u.power = { s.power with rtcFrac := min 32767 (s.power.rtcFrac + 1) } ∧
        u.clk = { s.clk with devTime := u.clk.devTime, frac := u.clk.frac } ∧
        u.rd PWR.AON_STATUS.wr_pending = 0 ∧ (∀ a, a ≠ PWR.AON_STATUS → u.word a = s.word a) ∧ Within [.regs, .clk, .power] s u) ∧
    (∀ (lin : BitVec 4) src, s.boot.stage = .ready → s.powerState = 2 ∨ s.powerState = 3 → s.power.stage = .rest →
      s.power.asked = [] → s.power.writes = [] → s.power.rtcSet = false → s.power.wake = some src → src < 16 →
      ∃ u : State, exec (.aonTick lin) s = .next u ∧ u.power.stage = .waking ∧ u.power.wake = none ∧ u.power.crystal = false ∧
        u.rd PWR.AON_STATUS.last_wake = src ∧ u.rd PWR.AON_STATUS.last_state = s.powerState ∧
        (∀ a, a ≠ PWR.AON_STATUS → u.word a = s.word a) ∧ Within [.regs, .clk, .power, .out] s u) ∧
    (s.boot.stage ≠ .unpowered → s.powerState ≠ 4 → s.power.retry = false → s.host.refusedCmds = none → s.host.refusedSram = none →
      (s.host.refusedWrites = none → ∃ u : State, exec .rtcSecond s = .next u ∧
        u.power = { s.power with rtcSec := (s.power.rtcSec + 1) % 2 ^ 64, rtcFrac := 0 } ∧
        u.logs = { s.logs with summaryAge := s.logs.summaryAge + 1 } ∧ Within [.power, .logs, .host] s u) ∧
      (∀ x, s.host.refusedWrites = some x → s.logs.heldAudit = [] → 0 < s.auditFree → ∃ (u : State) (r : _), exec .rtcSecond s = .next u ∧
        u.power = { s.power with rtcSec := (s.power.rtcSec + 1) % 2 ^ 64, rtcFrac := 0 } ∧ u.host.refusedWrites = none ∧
        r ∈ u.logs.audit ∧ r.typ = 3 ∧ r.subject = x.subject ∧ r.detail = x.detail ∧ r.count = min 0xFFFF x.count ∧
        u.chain.seq = s.chain.seq + 1 ∧ Changes [TST.STATUS] [.power, .host, .chain, .signing] s u)) ∧
    (s.clk.wheelOn = true → s.clk.cycle ≤ 124 → s.clk.slot < 4095 →
      ∃ u : State, exec .slotBoundary s = .next u ∧
        u.clk = { s.clk with devTime := s.clk.devTime + BitVec.ofNat 64 (2 * (125 - s.clk.cycle)), slot := s.clk.slot + 1, cycle := 0 } ∧
        u.perf.cycle = s.perf.cycle + BitVec.ofNat 64 (125 - s.clk.cycle) ∧
        (s.power.stage = .slot → s.rd PWR.REQ_STATUS.pend_valid = 0 → u.powerState = s.rd PWR.REQ_STATUS.target ∧ u.rd PWR.REQ_STATUS.result = 0) ∧
        Within (records ++ [.clk, .messages, .pool, .sides, .sram, .wheel, .seq, .dma, .net, .power]) s u) ∧
    (∀ (ports : List PortObs) (eyes : List EyeObs) (temps : Vector (BitVec 16) 8), s.clk.wheelOn = true → s.boot.stage = .ready →
      s.power.stage ≠ .stopping → s.trust.staged = [] → s.clk.cycle ≤ 124 → s.clk.slot ≤ 4095 →
      ∃ u : State, exec (.revolutionBoundary ports eyes temps) s = .next u ∧ u.clk.rev = s.clk.rev + 1 ∧ u.clk.slot = 0 ∧ u.clk.cycle = 0 ∧
        u.clk.devTime = s.clk.devTime + BitVec.ofNat 64 (2 * (125 - s.clk.cycle + 125 * (4095 - s.clk.slot))) ∧
        u.clk.wheelOn = true ∧ u.boot.stage = .ready ∧ u.pending = s.pending) ∧
    (s.pending = [] → ∃ u : State, step s = .next u ∧ (s.clk.pllOn = false → u = s) ∧
      (s.clk.pllOn = true → u.clk.devTime = s.clk.devTime + 2 ∧ u.perf.cycle = s.perf.cycle + 1 ∧ u.clk.rev = s.clk.rev ∧
        u.clk.slot = s.clk.slot ∧ Within [.regs, .clk, .perf, .out] s u))

/-- R152, R154, R157, R161 to R163, R172, R221. The numbers of overhead messages and the event at the initiator alone are the model's,
log entries 51 and 52. -/
def Obligations.ReachLoadingFollowsItsMessages : Prop :=
  ∀ (s : State) (n : Fin 32), s.Canonical → ∀ r, r = s.rch n →
    (∀ (p : Fin 4) (first : Fin 8) (coefs : List (Fin 512 × BitVec 18 × BitVec 18)), s.modeNow n = 2 → s.fsm n = 6 → s.enginesRun = true →
      ∃ u : State, exec (.reachFeq n p first coefs) s = .next u ∧ Within [.reach] s u ∧ (∀ m, m ≠ n → u.rch m = s.rch m) ∧
        u.rch n = { r with feq := (u.rch n).feq } ∧
        ∀ c ∈ coefs, (∀ d ∈ coefs, d.1 = c.1 → d = c) →
          sget (fun _ => 0) (u.rch n).feq (2 * (4096 * p + (512 * first + c.1))) = c.2.1 ∧
          sget (fun _ => 0) (u.rch n).feq (2 * (4096 * p + (512 * first + c.1)) + 1) = c.2.2) ∧
    (∀ (w : Word) (trip : BitVec 64) (words : List WordResult) (frames : Nat), s.modeNow n = 2 → s.fsm n = 6 →
      (∀ c, r.armed = some c ∨ r.armedTx = some c → c.due = false) →
      ∃ (u : State) (m : _), exec (.reachSymbol n (some w) trip words frames) s = .next u ∧ exec (.tripSlotReceived n trip) m = .next u ∧
        m.rch n = (if overheadGood w then { r with symCnt := bitsOf w 24 8 } else r) ∧
        Advances (portAddr n P.FEC_FRAMES) words.length s m ∧
        Advances (portAddr n P.FEC_UNCORR) (words.filter (fun w => match w with
          | .decoded _ => false
          | .failed _ => true)).length s m ∧
        (∀ a, linkArea n a = false → (∀ l : Fin 32, a ≠ HSL.LANE_CNT_DISCARD + 0x20 * l ∧ a ≠ HSL.LANE_CNT_DISCARD + 0x20 * l + 4) →
          m.word a = s.word a) ∧ Within [.regs, .reach, .mons, .out] s m) ∧
    (s.fsm n = 6 → s.modeNow n = 2 →
      (∀ (entries : List SwapEntry) (sym : BitVec 8), entries.length ≤ 16 → (∀ e ∈ entries, toneClass 4096 e.tone = 0) →
        ∃ u : State, exec (.bitSwapRequest n entries sym) s = .next u ∧ Within [.reach, .out] s u ∧
          u.rch n = { r with armedTx := some { symCnt := sym.toNat, entries := entries.map (fun e => (4096 * e.pair + e.tone, e.bits.val)),
                                               stepDown := false, due := false } } ∧
          u.out = s.out ++ [.reachMessage n 1 sym.toNat []]) ∧
      (∀ (entries : List SwapEntry) (sym : BitVec 8), 16 < entries.length ∨ (∃ e ∈ entries, toneClass 4096 e.tone ≠ 0) →
        exec (.bitSwapRequest n entries sym) s = .next s) ∧
      (∀ (sym : BitVec 8), ∃ u : State, exec (.rateStepDown n sym) s = .next u ∧ Within [.reach, .out] s u ∧
        u.rch n = { r with armedTx := some { symCnt := sym.toNat, entries := [], stepDown := true, due := false } } ∧
        u.out = s.out ++ [.reachMessage n 1 sym.toNat []]) ∧
      (∀ (sym : BitVec 8) c, r.asked = some c → ∃ u : State, exec (.arm n sym) s = .next u ∧ Within [.reach] s u ∧
        u.rch n = { r with asked := none, armed := some { c with symCnt := sym.toNat } }) ∧
      (∀ c, r.armed = some c → s.lpiState n ≤ 1 → c.stepDown = false → ∃ u : State, exec (.swapArmedSymbol n false) s = .next u ∧
        u.rch n = { r with armed := none, tones := (u.rch n).tones } ∧
        (∀ e ∈ c.entries, (∀ d ∈ c.entries, d.1 = e.1 → d = e) → (sget (fun _ => Tone.none) (u.rch n).tones e.1).bits = e.2) ∧
        u.rd (P.REACH_STATUS.swap_count.port n) = min 255 (s.rd (P.REACH_STATUS.swap_count.port n) + 1) ∧
        (∀ a, a ≠ portAddr n P.REACH_STATUS → a ≠ portAddr n P.REACH_LOAD → a ≠ portAddr n P.LINE_STATUS → u.word a = s.word a) ∧
        Within [.regs, .reach] s u) ∧
      (∀ c, r.armed = some c → s.lpiState n ≤ 1 → c.stepDown = true → 1 < s.rd (P.LINE_STATUS.reach_rate.port n) →
        ∃ u : State, exec (.swapArmedSymbol n false) s = .next u ∧ (u.rch n).armed = none ∧ u.pend (6 * n) = true ∧
          u.rd (P.LINE_STATUS.reach_rate.port n) = s.rd (P.LINE_STATUS.reach_rate.port n) - 1 ∧
          Changes [portAddr n P.REACH_STATUS, portAddr n P.REACH_LOAD, portAddr n P.LINE_STATUS] [.reach, .links] s u) ∧
      (∀ c, r.armedTx = some c → 1 < s.lpiState n → ∃ u : State, exec (.swapArmedSymbol n true) s = .next u ∧ Within [.reach] s u ∧
        u.rch n = { r with armedTx := some { c with due := true } }) ∧
      (∀ table : List ToneLoad, ∃ u : State, exec (.loadingTable n table) s = .next u ∧ Within [.reach] s u ∧
        u.rch n = { r with txTones := (u.rch n).txTones } ∧
        ∀ e ∈ table, toneClass 4096 e.tone = 0 → (∀ d ∈ table, d.pair = e.pair → d.tone = e.tone → d = e) →
          sget (fun _ => Tone.none) (u.rch n).txTones (4096 * e.pair + e.tone) = { bits := e.bits.val, snr := some e.snr })) ∧
    (∀ (snrs : List (Fin 4 × Fin 4096 × Int)) (tones : List (Nat × Tone)) (rate : Nat), s.fsm n = 7 → s.modeNow n = 2 →
      tones = loadTones (s.pact n P.REACH_CFG.margin_target) (32 * s.pact n P.REACH_CFG.tones32) snrs →
      rate = bestRate (loadedTotal tones) (s.reachLimit n) →
      (rate ≠ 0 → (s.link n).cmdRetrain = false → s.wcLevel (wcKey (portAddr n P.PORT_CMD) 2) = 0 →
        ∃ u : State, exec (.loadingRetrainComplete n snrs) s = .next u ∧ u.fsm n = 6 ∧ u.rd (P.LINE_STATUS.reach_rate.port n) = rate ∧
          (u.rch n).tones = trimLoading (loadedTotal tones - bitsNeeded rate) tones ∧
          Output.reachMessage n 3 0 ((u.rch n).tones.map (fun e => (e.1, e.2.bits))) ∈ u.out ∧ PortOnly n s u) ∧
      (rate = 0 → ∃ u : State, exec (.loadingRetrainComplete n snrs) s = .next u ∧ LinkIsDown n 1 8 s u)) ∧
    (s.fsm n = 5 → (s.link n).mode = 2 → (s.link n).phase = 5 → ∃ u : State, exec (.vectorJoinTimeout n) s = .next u ∧
      u.link n = { s.link n with phase := 6 } ∧ u.rch n = { r with rampShort := decide (r.psdSteps ≠ 0) } ∧
      u.rd (P.REACH_STATUS.phase.port n) = 6 ∧ u.rd (P.REACH_STATUS.vg_state.port n) = 1 ∧ (u.trip n).txSeq = 0 ∧
      (u.trip n).txCheck = 0xACE1 ∧ (u.trip n).rxLocked = false ∧
      (∀ a, a ≠ portAddr n P.REACH_STATUS → u.word a = s.word a) ∧ Within [.regs, .reach, .trips, .links] s u)

/-- R173, R256, R257, R260, R262, R265 to R267, R269. -/
def Obligations.RateMatchingAndLowPowerIdle : Prop :=
  ∀ (s : State) (n : Fin 32), ∀ r x w, r = s.rch n → x = s.idle n → w = portAddr n P.LPI_STATUS →
    (s.fsm n = 6 → s.modeNow n = 2 → ∀ (len : BitVec 16),
      (131072 < r.fifo.sum + len.toNat → ∃ u : State, exec (.hostFrameToFifo n len) s = .next u ∧
        u.rd (P.RM_DROP.count.port n) = (s.rd (P.RM_DROP.count.port n) + 1) % 2 ^ 32 ∧
        (∀ a, a ≠ portAddr n P.RM_DROP → u.word a = s.word a) ∧ Within [.regs] s u) ∧
      (r.fifo.sum + len.toNat ≤ 131072 → ∀ pauses : Bool, pauses = (!r.paused && decide (s.pact n P.RM_CFG.pause_en ≠ 0) &&
          decide (1024 * s.pact n P.RM_CFG.xoff ≤ r.fifo.sum + len.toNat)) →
        ∃ u : State, exec (.hostFrameToFifo n len) s = .next u ∧ Within [.reach, .out] s u ∧
          u.rch n = { r with fifo := r.fifo ++ [len.toNat], paused := r.paused || pauses } ∧
          u.out = s.out ++ (if pauses then [.pause n 0xFFFF] else []))) ∧
    (r.paused = true → s.pact n P.RM_CFG.pause_en ≠ 0 → 1024 * s.pact n P.RM_CFG.xon < r.fifo.sum →
      ∃ u : State, exec (.pauseRepeatTimer n) s = .next u ∧ u.out = s.out ++ [.pause n 0xFFFF] ∧ Within [.out] s u) ∧
    (∀ bytes, ∃ u : State, exec (.rateMatchFifoDrain n bytes) s = .next u ∧ Within [.reach, .out] s u ∧
      (u.rch n).fifo.sum = r.fifo.sum - bytes ∧ u.rch n = { r with fifo := (u.rch n).fifo, paused := (u.rch n).paused } ∧
      (r.paused = true → r.fifo.sum - bytes ≤ 1024 * s.pact n P.RM_CFG.xon → (u.rch n).paused = false ∧ u.out = s.out ++ [.pause n 0]) ∧
      (r.paused = false ∨ 1024 * s.pact n P.RM_CFG.xon < r.fifo.sum - bytes → (u.rch n).paused = r.paused ∧ u.out = s.out)) ∧
    (s.fsm n = 6 → s.pact n P.LPI_CFG.mode ≠ 0 → s.eeeInUse n = true → s.lpiState n = 0 →
      ∃ u : State, exec (.lpiEntryTimer n) s = .next u ∧ u.lpiState n = 1 ∧ u.rd (P.LINE_STATUS.lpi_tx.port n) = 1 ∧
        u.rd (P.LPI_ENTRIES.count.port n) = min 0xFFFFFFFF (s.rd (P.LPI_ENTRIES.count.port n) + 1) ∧
        (∀ a, a ≠ w → a ≠ portAddr n P.LINE_STATUS → a ≠ portAddr n P.LPI_ENTRIES → u.word a = s.word a) ∧ Within [.regs] s u) ∧
    (∀ changes : List FilterChange,
      (s.lpiState n = 1 → s.mayQuiet n = true → ∀ snaps : Bool, snaps = (s.actFlag (P.WG_CFG.enable.port n) && !x.taken) →
        ∃ u : State, exec (.lpiPhaseEnd n changes) s = .next u ∧ u.lpiState n = 2 ∧ (u.idle n).since = some s.now ∧
          (u.idle n).taken = (x.taken || snaps) ∧ (snaps = true → u.rd (P.LPI_STATUS.snap_valid.port n) = 1 ∧
            (u.idle n).coefSnap = s.coefs.filter (fun e => decide (e.1 / 10048 = n.val))) ∧
          (∀ a, a ≠ w → u.word a = s.word a) ∧ Within [.regs, .lpi] s u) ∧
      (s.lpiState n = 1 → s.mayQuiet n = false → exec (.lpiPhaseEnd n changes) s = .next s) ∧
      (∀ t, x.since = some t →
        (s.lpiState n = 2 ∨ s.lpiState n = 3 ∧ s.rd (P.LPI_STATUS.snap_valid.port n) = 0 →
          ∃ u : State, exec (.lpiPhaseEnd n changes) s = .next u ∧ u.lpiState n = (if s.lpiState n = 2 then 3 else 2) ∧
            Advances (portAddr n P.LPI_US) ((s.now - t) / 1000) s u ∧
            u.idle n = { x with since := some (t + 1000 * ((s.now - t) / 1000)) } ∧
            (∀ a, a ≠ w → a ≠ portAddr n P.LPI_US → a ≠ portAddr n P.LPI_US + 4 → u.word a = s.word a) ∧ Within [.regs, .lpi] s u) ∧
        (∀ c : FilterChange, s.lpiState n = 3 → s.rd (P.LPI_STATUS.snap_valid.port n) = 1 → changes = [c] →
          -(100 * (s.pact n P.WG_CFG.th : Int)) < c.change → s.pact n P.WG_CFG.action ≠ 1 →
          ∃ u : State, exec (.lpiPhaseEnd n changes) s = .next u ∧ u.lpiState n = 2 ∧ u.rd (P.LPI_STATUS.wg_trip.port n) = 1 ∧
            u.rd (P.LPI_STATUS.wg_pair.port n) = c.pair ∧ u.rd (P.LPI_STATUS.wg_filter.port n) = c.filter ∧ u.pend (6 * n + 4) = true ∧
            u.rd (P.WG_REVERTS.count.port n) = min 0xFFFFFFFF (s.rd (P.WG_REVERTS.count.port n) + 1) ∧
            (∀ e ∈ x.coefSnap, (∀ d ∈ x.coefSnap, d.1 = e.1 → d = e) → u.coef e.1 = e.2) ∧
            (∀ k, k / 10048 ≠ n.val → (∀ e ∈ x.coefSnap, e.1 ≠ k) → u.coef k = s.coef k) ∧
            Changes [w, portAddr n P.LPI_US, portAddr n P.LPI_US + 4, portAddr n P.WG_REVERTS] [.coefs, .pool, .lpi] s u)) ∧
      (∀ alert : Bool, s.lpiState n = 1 ∨ s.lpiState n = 2 → ∃ u : State, exec (.lpiWakeRequest n alert changes) s = .next u ∧ u.lpiState n = 4 ∧
        (u.idle n).since = none ∧ (alert = true → u.rd (P.LINE_STATUS.lpi_rx.port n) = 0) ∧
        (∀ a, a ≠ w → a ≠ portAddr n P.LPI_US → a ≠ portAddr n P.LPI_US + 4 → (a ≠ portAddr n P.LINE_STATUS ∨ alert = false) →
          u.word a = s.word a) ∧ Within [.regs, .lpi] s u)) ∧
    (s.lpiState n = 4 → (s.link n).retrainAfterWake = false → ∃ u : State, exec (.lpiWakeDone n) s = .next u ∧ u.lpiState n = 0 ∧
      u.idle n = Lpi.reset ∧ u.rd (P.LINE_STATUS.lpi_tx.port n) = 0 ∧ u.rd (P.LPI_STATUS.snap_valid.port n) = 0 ∧
      (∀ a, a ≠ w → a ≠ portAddr n P.LPI_US → a ≠ portAddr n P.LPI_US + 4 → a ≠ portAddr n P.LINE_STATUS → u.word a = s.word a) ∧
      Within [.regs, .lpi, .links] s u) ∧
    (s.fsm n = 6 → s.eeeInUse n = true → ∃ u : State, exec (.partnerLpiSignal n) s = .next u ∧ u.rd (P.LINE_STATUS.lpi_rx.port n) = 1 ∧
      (∀ a, a ≠ portAddr n P.LINE_STATUS → u.word a = s.word a) ∧ Within [.regs] s u)

/-- R279, R280, R289; a slip as the host gives it where the access is served. -/
def Obligations.HostLanesChangeState : Prop :=
  ∀ (s : State) (l : Fin 32) (st ls : Nat), st = s.laneState l → ls = HSL.LANE_STATUS + 4 * l →
    (st = 1 → ∃ u : State, exec (.laneExitDone l) s = .next u ∧ u.laneState l = 2 ∧ u.pend 198 = true ∧
      bitOf (u.word (HSL.LANE_CAUSE + 4 * l)) 7 = true ∧ Changes [ls, HSL.LANE_CAUSE + 4 * l] [] s u) ∧
    (st = 2 → ∃ u : State, exec (.cdrLock l) s = .next u ∧ u.laneState l = (if s.rd (HSL.LANE_CTRL.manual.nth l) = 0 then 3 else 5) ∧
      u.rd (HSL.LANE_STATUS.rx_signal.nth l) = 1 ∧ (∀ a, a ≠ ls → u.word a = s.word a) ∧ Within [.regs] s u) ∧
    (∀ signal : Bool, 2 ≤ st → ∃ u : State, exec (.cdrLockLost l signal) s = .next u ∧ u.laneState l = 2 ∧
      u.rd (HSL.LANE_STATUS.rx_signal.nth l) = bitNat signal ∧ (u.lane l).offset = none ∧ u.rd (HSL.SKEW.valid.nth l) = 0 ∧
      (st = 4 ∨ st = 6 → u.pend 192 = true) ∧
      Changes [ls, HSL.LANE_CAUSE + 4 * l, HSL.SKEW + 4 * l] [.lanes] s u) ∧
    (st = 3 ∨ st = 5 → ∃ u : State, exec (.laneLockGained l) s = .next u ∧ u.laneState l = st + 1 ∧ u.pend 192 = true ∧
      (st = 5 → u.pend 199 = true) ∧ u.rd (HSL.ALIGN_STATUS.match_here.nth l) = 1 ∧ u.rd (HSL.ALIGN_STATUS.seen_offset.nth l) = 0 ∧
      Changes [ls, HSL.LANE_CAUSE + 4 * l, HSL.ALIGN_STATUS + 4 * l] [] s u) ∧
    (∀ good : Fin 65, st = 4 ∨ st = 6 → ∃ u : State, exec (.laneLockLost l good) s = .next u ∧ u.laneState l = st - 1 ∧ u.pend 192 = true ∧
      (u.lane l).offset = none ∧ u.rd (HSL.SKEW.valid.nth l) = 0 ∧ u.rd (HSL.ALIGN_STATUS.match_here.nth l) = 0 ∧
      (s.mequel = false → u.rd (HSL.ALIGN_STATUS.hdr_good.nth l) = good) ∧
      Changes [ls, HSL.LANE_CAUSE + 4 * l, HSL.ALIGN_STATUS + 4 * l, HSL.SKEW + 4 * l] [.lanes] s u) ∧
    (s.gate (HSL.LANE_CMD + 4 * l) false = .served →
      (∀ period, s.rd (HSL.LANE_CTRL.manual.nth l) = 1 → period = (if s.mequel then 696320 else 66) →
        ∃ u : State, exec (.slip l) s = .next u ∧
          u.rd (HSL.ALIGN_STATUS.seen_offset.nth l) = (s.rd (HSL.ALIGN_STATUS.seen_offset.nth l) + period - 1) % period ∧
          (u.rd (HSL.ALIGN_STATUS.match_here.nth l) = 1 ↔ u.rd (HSL.ALIGN_STATUS.seen_offset.nth l) = 0) ∧
          u.laneState l = (if st = 6 then 5 else st) ∧ (st = 6 → u.pend 192 = true) ∧
          Changes [ls, HSL.LANE_CAUSE + 4 * l, HSL.ALIGN_STATUS + 4 * l, HSL.SKEW + 4 * l] [.lanes] s u) ∧
      (s.rd (HSL.LANE_CTRL.manual.nth l) = 0 → exec (.slip l) s = .next s))

/-- R69, R70, R221, R225, R273, R276, R281 to R283. -/
def Obligations.TrafficIsCountedAndReported : Prop :=
  ∀ (s : State),
    (∀ (n : Fin 32) (it : Fin 8) (frames : Nat), s.fsm n = 6 → ldpcRate (s.modeNow n) (s.rateNow n) = true →
      ∀ (c : FrameResult), ∃ u : State, exec (.ldpcFrameDecode n it c frames) s = .next u ∧ Advances (portAddr n P.FEC_FRAMES) 1 s u ∧
        (c = .clean → Advances (portAddr n P.ITER_HIST + 8 * it) 1 s u ∧ Advances (portAddr n P.FEC_CORR) 0 s u) ∧
        (c = .corrected → Advances (portAddr n P.ITER_HIST + 8 * it) 1 s u ∧ Advances (portAddr n P.FEC_CORR) 1 s u) ∧
        (∀ k, c = .failed k → Advances (portAddr n P.FEC_UNCORR) 1 s u ∧ Advances (portAddr n P.RX_ERR) k s u) ∧
        (s.laneLocked (s.laneOf n) = true → u.out = s.out ++ [.frameOut n (match c with
          | .clean => false
          | .corrected => false
          | .failed _ => true)]) ∧
        (∀ a, linkArea n a = false → (∀ l : Fin 32, a ≠ HSL.LANE_CNT_DISCARD + 0x20 * l ∧ a ≠ HSL.LANE_CNT_DISCARD + 0x20 * l + 4) →
          u.word a = s.word a) ∧ Within [.regs, .mons, .out] s u) ∧
    (∀ n : Fin 32, s.gate (portAddr n P.MON_CMD) false = .served → s.sealed = false → ∃ u : State, exec (.rebase n) s = .next u ∧
      u.mon n = { s.mon n with reference := some (s.mon n).seen } ∧ u.rd (P.MON_STATUS.refl_alert.port n) = 0 ∧
      (∀ a, a ≠ portAddr n P.MON_STATUS → u.word a = s.word a) ∧ Within [.regs, .mons] s u) ∧
    (∀ l : Fin 32,
      (∀ m : Marker, s.mequel = true → 3 ≤ s.laneState l → m.timestamp = 0 ∨ s.laneLocked l = false →
        ∃ u : State, exec (.markerReceived l m) s = .next u ∧ u.rd (HSL.ALIGN_STATUS.seen_offset.nth l) = m.seenOffset ∧
          u.rd (HSL.ALIGN_STATUS.match_here.nth l) = bitNat (decide (m.seenOffset.val = 0)) ∧
          (m.crcGood = true → (u.rd (HSL.LANE_STATUS.map_err.nth l) = 0 ↔
            m.lane.toNat = l ∧ ∀ k : Fin 4, (m.portMap[k.val]).toNat % 32 = l + k) ∧
            (s.laneLocked l = true → (u.lane l).offset = none ∧ u.rd (HSL.SKEW.valid.nth l) = 0)) ∧
          (∀ a, a ≠ HSL.LANE_STATUS + 4 * l → a ≠ HSL.ALIGN_STATUS + 4 * l → a ≠ HSL.SKEW + 4 * l → u.word a = s.word a) ∧
          Within [.regs, .lanes] s u) ∧
      (s.mequel = true → s.laneLocked l = true →
        exec (.mequelCodeword l .clean) s = .next s ∧
        (∃ u : State, exec (.mequelCodeword l .corrected) s = .next u ∧ Advances (HSL.LANE_CNT_CORR + 0x20 * l) 1 s u ∧
          (∀ a, a ≠ HSL.LANE_CNT_CORR + 0x20 * l → a ≠ HSL.LANE_CNT_CORR_HI + 0x20 * l → u.word a = s.word a) ∧ Within [.regs] s u) ∧
        (∃ u : State, exec (.mequelCodeword l .uncorrectable) s = .next u ∧ Advances (HSL.LANE_CNT_UNCORR + 0x20 * l) 1 s u ∧ u.pend 193 = true ∧
          Changes [HSL.LANE_CNT_UNCORR + 0x20 * l, HSL.LANE_CNT_UNCORR_HI + 0x20 * l, HSL.LANE_CAUSE + 4 * l] [] s u) ∧
        (∀ b : BitVec 56, b.toNat / 2 ^ 52 = 1 ∨ 5 ≤ b.toNat / 2 ^ 52 ∨ (s.portsOf l).contains (b.toNat / 2 ^ 47 % 32) = false →
          ∃ u : State, exec (.sideBlockReceived l b) s = .next u ∧ Advances (HSL.LANE_CNT_SIDE_BAD + 0x20 * l) 1 s u ∧ u.pend 196 = true ∧
            Changes [HSL.LANE_CNT_SIDE_BAD + 0x20 * l, HSL.LANE_CNT_SIDE_BAD_HI + 0x20 * l, HSL.LANE_CAUSE + 4 * l] [] s u)) ∧
      (s.mequel = false → s.laneLocked l = true → s.rd (HSL.LANE_CTRL.proto.nth l) = 1 → ∃ u : State, exec (.usxgmiiAnAck l) s = .next u ∧
        bitOf (u.laneWord l) 4 = true ∧ (∀ a, u.word a = s.word a) ∧ Within [.lanes] s u) ∧
      (∀ (k : Fin 4), s.laneLocked l = true → s.mequel = true ∨ k.val = 0 → ∀ a, a = HSL.LANE_STATUS + 4 * l →
        (∀ f b, f = HostFault.localFault ∧ b = 12 + k.val ∨ f = HostFault.remoteFault ∧ b = 24 + k.val →
          ∃ u : State, exec (.hostFaultReceived l k f) s = .next u ∧ u.word a = withBitSet (s.word a) b ∧ u.pend 195 = true ∧
            Changes [a, HSL.LANE_CAUSE + 4 * l] [] s u) ∧
        (∃ u : State, exec (.hostFaultReceived l k .none) s = .next u ∧ u.word a = withBitClear (withBitClear (s.word a) (12 + k)) (24 + k) ∧
          (∀ a', a' ≠ a → u.word a' = s.word a') ∧ Within [.regs] s u)))

/-- R135, R137, R138, R140 to R142, R143, R171; commands as the host gives them where the access is served. -/
def Obligations.PoolJobsAndScans : Prop :=
  ∀ (s : State),
    (∀ (b : Fin 1024), s.enginesRun = true → s.rd (JUG.BLOCK_STATE.state.nth b) = 1 →
      (∀ (errors symbols : List Int), descKind (s.desc b) = 0 → ∃ u : State, exec (.ncLms b errors symbols false) s = .next u ∧
        (∀ (t : Fin 64) v, v = (s.tap b t).toInt + correlation errors symbols t / 2 ^ s.blockExponent b (s.desc b) →
          -131072 ≤ v → v ≤ 131071 → (u.tap b t).toInt = v) ∧
        (∀ (c : Fin 1024) (t : Fin 64), c ≠ b → u.tap c t = s.tap c t) ∧
        u.rd (JUG.BLOCK_STATE.upd_count.nth b) = (s.rd (JUG.BLOCK_STATE.upd_count.nth b) + 1) % 2 ^ JUG.BLOCK_STATE.upd_count.width ∧
        u.rd (JUG.BLOCK_STATE.rate.nth b) = s.portRate (descVictim (s.desc b) / 4) % 8 ∧
        (∀ a, a ≠ JUG.BLOCK_STATE + 4 * b → u.word a = s.word a) ∧ Within [.regs, .pool, .freeCount] s u) ∧
      (∀ (taps : List (Fin 64 × BitVec 18)), descKind (s.desc b) = 1 → ∃ u : State, exec (.reachVec b taps false) s = .next u ∧
        (∀ e ∈ taps, (∀ d ∈ taps, d.1 = e.1 → d = e) → u.tap b e.1 = e.2) ∧
        (∀ (c : Fin 1024) (t : Fin 64), c ≠ b → u.tap c t = s.tap c t) ∧
        u.rd (JUG.BLOCK_STATE.upd_count.nth b) = (s.rd (JUG.BLOCK_STATE.upd_count.nth b) + 1) % 2 ^ JUG.BLOCK_STATE.upd_count.width ∧
        (∀ a, a ≠ JUG.BLOCK_STATE + 4 * b → u.word a = s.word a) ∧ Within [.regs, .pool] s u)) ∧
    (∀ (b : Fin 1024) (errors symbols : List Int) (taps : List (Fin 64 × BitVec 18)) (quiet : Bool),
      quiet = true ∨ s.rd (JUG.BLOCK_STATE.state.nth b) ≠ 1 →
      exec (.ncLms b errors symbols quiet) s = .next s ∧ exec (.reachVec b taps quiet) s = .next s) ∧
    (∀ p key, p = s.word (JUG.SCAN_PORTS + 0x8000) → key = wcKey JUG.SCAN_CMD 0 → s.gate JUG.SCAN_CMD false = .served →
      (∀ v rest, s.pool.scan = none → victimsOf p = v :: rest → s.scannable v = true → ∃ u : State, exec .scanStart s = .next u ∧
        u.pool = { s.pool with scan := some { ports := p, reply := none }, victims := v :: rest } ∧ u.wcLevel key = 1 ∧
        u.rd JUG.SCAN_STATUS.running = 1 ∧ u.rd JUG.SCAN_STATUS.pairs_done = 0 ∧ u.rd JUG.SCAN_STATUS.victim_now = v ∧
        u.rd JUG.SCAN_STATUS.no_slots = bitNat s.noDiagSlots ∧ (∀ a, a ≠ JUG.SCAN_STATUS → u.word a = s.word a) ∧ Within [.regs, .host, .pool] s u) ∧
      (∀ r, s.pool.scan = some r → r.reply = none →
        (s.wcLevel key = 1 → ∃ u : State, exec .scanStart s = .next u ∧ u.wcLevel key = 2 ∧ Within [.host] s u) ∧
        (s.wcLevel key = 2 → ∃ u : State, exec .scanStart s = .next u ∧ u.wcLevel key = 2 ∧
          u.rd CHIP.IGN_WRITE_STATUS.count = min (2 ^ CHIP.IGN_WRITE_STATUS.count.width - 1) (s.rd CHIP.IGN_WRITE_STATUS.count + 1) ∧
          (s.host.ignFresh = true → u.rd CHIP.IGN_WRITE_STATUS.reason = 5 ∧ u.rd CHIP.IGN_WRITE_ADDR.addr = JUG.SCAN_CMD) ∧
          Within [.regs, .host] s u) ∧
        (s.wcLevel key = 1 → s.pool.diagWaiting = none → ∃ u : State, exec .scanStop s = .next u ∧ u.wcLevel key = 0 ∧
          u.pool = { s.pool with scan := none, victims := [] } ∧ u.rd JUG.SCAN_STATUS.running = 0 ∧
          (∀ a, a ≠ JUG.SCAN_STATUS → u.word a = s.word a) ∧ Within [.regs, .host, .pool] s u))) ∧
    (∀ (v : Fin 128) (found : List Coupling) rest, s.pool.victims = v.val :: rest → s.rd JUG.SCAN_STATUS.no_slots = 0 →
      (∀ (w : Fin 128) more, rest = w.val :: more → s.scannable w = true → ∃ u : State, exec (.scanPairComplete v found) s = .next u ∧
        u.pool = { s.pool with victims := rest, mapReady := s.pool.mapReady ++ measured v (s.portRate (v / 4)) found } ∧
        u.rd JUG.SCAN_STATUS.victim_now = w ∧
        u.rd JUG.SCAN_STATUS.pairs_done = (s.rd JUG.SCAN_STATUS.pairs_done + 1) % 2 ^ JUG.SCAN_STATUS.pairs_done.width ∧
        ((∀ x ∈ rest, x / 4 ≠ v / 4) → u.pend (6 * (v / 4) + 3) = true) ∧
        Changes [JUG.SCAN_STATUS, portAddr (v / 4) P.MON_CAUSE] [.pool] s u) ∧
      (∀ r, rest = [] → s.pool.scan = some r → r.reply = none → s.wcLevel (wcKey JUG.SCAN_CMD 0) = 1 → s.pool.diagWaiting = none →
        ∃ u : State, exec (.scanPairComplete v found) s = .next u ∧ u.wcLevel (wcKey JUG.SCAN_CMD 0) = 0 ∧ u.rd JUG.SCAN_STATUS.running = 0 ∧
          u.pool = { s.pool with victims := [], scan := none,
                                 mapReady := s.pool.mapReady ++ measured v (s.portRate (v / 4)) found } ∧
          u.pend (6 * (v / 4) + 3) = true ∧ Changes [JUG.SCAN_STATUS, portAddr (v / 4) P.MON_CAUSE] [.pool, .host] s u))

/-- R241, R243, R246, R247, R250 to R255; commands as the host gives them where the access is served. -/
def Obligations.CalibrationVisitsAndSpares : Prop :=
  ∀ (s : State),
    (∀ (o : VisitObs) (v st why : Nat), s.clk.wheelOn = true → s.act CAL.CFG.hold = 0 → s.rd CAL.STATUS.no_slots = 0 →
      s.rd CHIP.RESET_CAUSE.safe_reason = 0 → v = s.rd CAL.STATUS.pair_now → s.eligible v = true →
      (st, why) = (if o.samples < 2 ^ s.act CAL.CFG.min_exp then (2, 1)
        else if 100 * (s.act CAL.CFG.var_floor : Int) < o.varianceBelow then (2, 2)
        else if o.kurtosis < 100 * s.act CAL.CFG.kurt_lo then (3, 3) else if 100 * s.act CAL.CFG.kurt_hi < o.kurtosis then (3, 4)
        else if o.flatness < 10 * s.act CAL.CFG.flat_min then (3, 5) else (1, 0)) →
      (s.cal.forced = [] → ∃ u : State, exec (.calVisitEnd o) s = .next u ∧ u.rd (CAL.PAIR_CAL.status.nth v) = st ∧
        u.rd (CAL.PAIR_CAL.reason.nth v) = why ∧ u.rd (CAL.PAIR_CAL.rie.nth v) = o.rie.toNat ∧
        u.rd (CAL.PAIR_CAL.visit_seq.nth v) = (s.rd (CAL.PAIR_CAL.visit_seq.nth v) + 1) % 64 ∧ u.cal.resume = v + 1 ∧
        (st ≠ 1 → u.cal.elems = s.cal.elems) ∧
        (st = 1 → s.act CAL.SPARE_CFG.auto_replace = 0 → ∀ e ∈ o.errors, (∀ d ∈ o.errors, d.1 = e.1 → d = e) →
          (u.elem v e.1).trim = max (-512) (min 511 ((s.elem v e.1).trim - Int.tdiv e.2.2.2 2)) ∧
          (e.1.val < 18 → (u.elem v e.1).skew = max (-512) (min 511 ((s.elem v e.1).skew - Int.tdiv e.2.1 2)) ∧
            (u.elem v e.1).gain = max (-512) (min 511 ((s.elem v e.1).gain - Int.tdiv e.2.2.1 2)))) ∧
        Changes [CAL.PAIR_CAL + 4 * v, CAL.STATUS, CAL.PORT_CAUSE + 4 * (v / 4)] [.cal] s u) ∧
      (∀ ov, s.cal.forced = [(v, ov)] → s.wcLevel (wcKey CAL.CMD 0) = 1 → ∃ u : State, exec (.calVisitEnd o) s = .next u ∧
        u.rd (CAL.PAIR_CAL.status.nth v) = (if st = 3 ∧ ov = true then 5 else st) ∧ u.cal.forced = [] ∧ u.cal.resume = s.cal.resume ∧
        u.wcLevel (wcKey CAL.CMD 0) = 0 ∧ u.pend (6 * (v / 4) + 5) = true ∧
        Changes [CAL.PAIR_CAL + 4 * v, CAL.STATUS, CAL.PORT_CAUSE + 4 * (v / 4)] [.cal, .host] s u)) ∧
    (∀ o : VisitObs, s.act CAL.CFG.hold = 1 ∨ s.rd CAL.STATUS.no_slots = 1 → exec (.calVisitEnd o) s = .next s) ∧
    (∀ (v : Fin 128) x, s.cal.switches.find? (fun x => x.pair == v.val && x.ready) = some x → x.why = .due → s.cal.rot = none →
      x.elem ≠ x.spare → x.elem < 90 → x.spare < 90 → ∃ u : State, exec (.spareSwitchIn v) s = .next u ∧
        u.elem v x.spare = { s.elem v x.spare with role := 0, pos := (s.elem v x.elem).pos } ∧
        u.elem v x.elem = { s.elem v x.elem with role := 3 } ∧ x ∉ u.cal.switches ∧ u.pend (6 * (v / 4) + 5) = true ∧
        (∀ (v' : Fin 128) (w : Fin 90), v' ≠ v ∨ w.val ≠ x.spare ∧ w.val ≠ x.elem → u.elem v' w = s.elem v' w) ∧
        Changes [CAL.PAIR_CAL + 4 * v, CAL.PORT_CAUSE + 4 * (v / 4)] [.cal] s u) ∧
    (∀ v k0 k1, v = s.rd CAL.FORCE_SEL.pair → k0 = wcKey CAL.CMD 0 → k1 = wcKey CAL.CMD 1 → s.gate CAL.CMD false = .served →
      s.sealed = false →
      (s.wcLevel k0 = 0 → s.islandOff v = false → ∃ u : State, exec .force s = .next u ∧ u.wcLevel k0 = 1 ∧
        u.cal = { s.cal with forced := s.cal.forced ++ [(v, decide (s.rd CAL.FORCE_SEL.override ≠ 0))] } ∧ Within [.host, .cal] s u) ∧
      (s.wcLevel k0 = 1 → ∃ u : State, exec .force s = .next u ∧ u.wcLevel k0 = 2 ∧ Within [.host] s u) ∧
      (s.islandOff v = true →
        (s.wcLevel k0 = 0 → ∃ u : State, exec .force s = .next u ∧ u.wcLevel k0 = 0 ∧ u.rd CAL.STATUS.cmd_refused = 1 ∧
          (∀ a, a ≠ CAL.STATUS → u.word a = s.word a) ∧ Within [.regs, .host] s u) ∧
        (s.wcLevel k1 = 0 → ∃ u : State, exec .swap s = .next u ∧ u.wcLevel k1 = 0 ∧ u.rd CAL.STATUS.cmd_refused = 1 ∧
          (∀ a, a ≠ CAL.STATUS → u.word a = s.word a) ∧ Within [.regs, .host] s u)) ∧
      (∀ w, w = s.rd CAL.FORCE_SEL.element → s.rd CAL.FORCE_SEL.kind = 0 → w < 18 → (s.elem v w).role = 0 → s.islandOff v = false →
        s.wcLevel k1 = 0 → s.cal.switches = [] → s.freeSpares v (List.range 18) ≠ [] → ∃ (u : State) (x : _), exec .swap s = .next u ∧
          u.wcLevel k1 = 1 ∧ u.cal.switches = [x] ∧ x.pair = v ∧ x.elem = w ∧ x.why = .commanded ∧
          x.spare ∈ s.freeSpares v (List.range 18) ∧ (u.elem v x.spare).pos = (s.elem v w).pos ∧ Within [.host, .cal] s u)) ∧
    (s.gate CAL.TRIM_SEL false = .served → ∀ (w : Word), ∃ u : State, exec (.trimSelWrite w) s = .next u ∧
      u.rd CAL.TRIM_SEL.pair = w.toNat % 128 ∧
      (∀ i : Fin 90, bitsOf (u.word (CAL.TRIM_WIN + 4 * i)) 30 2 = (s.elem (w.toNat % 128) i).role % 4 ∧
        (bitsOf (u.word (CAL.TRIM_WIN + 4 * i)) 0 10 : Int) = (s.elem (w.toNat % 128) i).trim % 1024) ∧
      (∀ a, a ≠ CAL.TRIM_SEL → (∀ i : Fin 90, a ≠ CAL.TRIM_WIN + 4 * i) → u.word a = s.word a) ∧ Within [.regs] s u)

/-- R217, R370 to R373. -/
def Obligations.SessionStepsAreTakenInOrder : Prop :=
  ∀ (s : State) (n : Fin 32) (m : List Byte), s.clk.wheelOn = true → ∀ ses, ses = TST.SES_STATUS + 4 * n →
    (s.arm n = none → ∀ c, (c = Instr.sessionOffer n m ∨ c = Instr.sessionAccept n m ∨ c = Instr.sessionConfirm n m ∨
        c = Instr.sessionReady n m) → ∃ u : State, exec c s = .next u ∧ u.pend 207 = true ∧ Changes [SS.CAUSE] [] s u) ∧
    (∀ a pub text sig, s.arm n = some a → pub = slice m 1600 2592 → text = m.take (m.length - 4627) → sig = m.drop (m.length - 4627) →
      (∀ c step, (c = Instr.sessionOffer n m ∧ step = 1 ∧ a.peer ≤ s.ownAddr ∨
          c = Instr.sessionAccept n m ∧ step = 2 ∧ s.ownAddr < a.peer ∧ fieldBE m 12 8 = a.sessionId ∧ a.offer ≠ [] ∧ a.key = none) →
        s.stepFor m step a = true → m.length = 8819 → ∃ u : State, exec c s = .next u ∧
        (∀ e, (sha pub ≠ a.commit ∧ e = 1 ∨ sha pub = a.commit ∧ Config.mldsaVerify pub (ascii "SIRCOR-SES" ++ text) sig = false ∧ e = 2) →
          u.rd (TST.SES_STATUS.last_err.nth n) = e ∧ u.pend 207 = true ∧ Changes [ses, SS.CAUSE] [] s u) ∧
        (sha pub = a.commit → Config.mldsaVerify pub (ascii "SIRCOR-SES" ++ text) sig = true → s.idOk = true →
          ∃ (x : Sess) (j : SignJob), (u.trip n).next = some x ∧ x.id = fieldBE m 12 8 ∧ x.initiator = decide (step = 2) ∧ x.txK = 0 ∧
            x.rxBase = 0 ∧ u.rd (TST.SES_STATUS.step.nth n) = step + 1 ∧ u.signing = s.signing ++ [j] ∧
            (step = 1 → x.key = sessionKey (Config.mlkemShared s.trust.draws (slice m 32 1568))
              (sha (text ++ (s.stepHeader n 2 a x.id ++ (Config.mlkemCipher s.trust.draws (slice m 32 1568)).take 1568 ++
                s.trust.idPublic.take 2592)))) ∧
            (step = 2 → x.key = sessionKey (Config.mlkemDecapsulate (Config.mlkemSecret a.draw) (slice m 32 1568)) (sha (a.offer ++ text))) ∧
            (∀ k, k ≠ n → u.trip k = s.trip k) ∧
            Changes (ses :: SS.NET_STATUS :: sessionWords n) [.net, .trips, .trust, .signing] s u)) ∧
      (∀ key, a.key = some key → (s.trip n).txSwitched = false → fieldBE m 12 8 = a.sessionId →
        (s.ownAddr ≥ a.peer → s.stepFor m 3 a = true → m.length = 4675 → ∃ u : State, exec (.sessionConfirm n m) s = .next u ∧
          (∀ e, (slice m 32 16 ≠ keyConfirm "SIRCOR-KC-I" key a.th ∧ e = 3 ∨ slice m 32 16 = keyConfirm "SIRCOR-KC-I" key a.th ∧
              Config.mldsaVerify (slice a.offer 1600 2592) (ascii "SIRCOR-SES" ++ text) sig = false ∧ e = 2) →
            u.rd (TST.SES_STATUS.last_err.nth n) = e ∧ u.pend 207 = true ∧
              Changes [ses, SS.CAUSE] [] s u) ∧
          (slice m 32 16 = keyConfirm "SIRCOR-KC-I" key a.th →
            Config.mldsaVerify (slice a.offer 1600 2592) (ascii "SIRCOR-SES" ++ text) sig = true → (s.trip n).rxSwitched = false →
            u.trip n = { s.trip n with txSwitched := true, tagDue := true } ∧
              u.messages = s.messages ++ [sessionMsg n (s.stepHeader n 4 a a.sessionId ++ keyConfirm "SIRCOR-KC-R" key a.th)] ∧
              u.rd (TST.SES_STATUS.step.nth n) = 5 ∧ Changes (ses :: sessionWords n) [.messages, .trips] s u)) ∧
        (s.ownAddr < a.peer → s.stepFor m 4 a = true → m.length = 48 → ∃ u : State, exec (.sessionReady n m) s = .next u ∧
          (slice m 32 16 ≠ keyConfirm "SIRCOR-KC-R" key a.th →
            u.rd (TST.SES_STATUS.last_err.nth n) = 3 ∧ u.pend 207 = true ∧ Changes [ses, SS.CAUSE] [] s u) ∧
          (slice m 32 16 = keyConfirm "SIRCOR-KC-R" key a.th → (s.trip n).rxSwitched = false →
            u.trip n = { s.trip n with txSwitched := true, tagDue := true } ∧
              u.rd (TST.SES_STATUS.step.nth n) = 5 ∧ Changes (ses :: sessionWords n) [.trips] s u)))) ∧
    (∀ a, s.arm n = some a →
      (s.ownAddr < a.peer → a.key = none → a.lastOffer + 10000000000 ≤ s.now → s.now < a.since + 60000000000 → s.idOk = true →
        ∃ (u : State) (b : _) (j : _), exec (.offerRetryTimer n) s = .next u ∧ u.arm n = some b ∧ b.lastOffer = s.now ∧ b.since = a.since ∧ b.accept = [] ∧
          b.key = none ∧ u.rd (TST.SES_STATUS.step.nth n) = 1 ∧ u.signing = s.signing ++ [j] ∧
          (∀ k, k ≠ ses → u.word k = s.word k) ∧ Within [.regs, .trust, .signing] s u) ∧
      (s.now < a.lastOffer + 10000000000 → exec (.offerRetryTimer n) s = .next s) ∧
      (a.since + 60000000000 ≤ s.now → ∃ u : State, exec (.sessionEstablishTimeout n) s = .next u ∧ (u.trip n).establishing = false ∧
        (u.trip n).sess = (s.trip n).sess ∧ (u.trip n).next = none ∧ u.rd (TST.SES_STATUS.last_err.nth n) = 4 ∧
        u.rd (TST.SES_STATUS.step.nth n) = 0 ∧
        Changes (ses :: (TRIP.PORT_CAUSE + 4 * n) :: sessionWords n) [.trips, .trust] s u) ∧
      (s.now < a.since + 60000000000 → exec (.sessionEstablishTimeout n) s = .next s))

/-- R211, R212, R214, R215. -/
def Obligations.CommandsAreJudgedInOrder : Prop :=
  ∀ (s : State) (c : Instr) (k : Nat) (i : Item) (rest : List Item),
    (c, k) ∈ [(Instr.portSet, 1), (.attest, 2), (.tripArm, 3), (.tripDisarm, 4), (.diagRun, 5), (.timeSet, 6), (.logSummary, 7),
      (.ctxClear, 8)] →
    s.trust.items = i :: rest → s.trust.judging = none →
    (i.manifest = true ∨ i.code ≠ k → exec c s = .next s) ∧
    (i.manifest = false → i.code = k → ∀ r,
      r = (if s.commandFormat i = false then some 1 else if i.tag ≠ 0 ∧ i.tag ≠ s.idTag then some 2
        else match s.operatorKey i.keyId with
          | none => some 3
          | some key =>
            if key.permitted.getLsbD k = false then some 4
            else if (s.peer (s.itemOrigin i)).any (fun e => decide (i.counter ≤ e.2.replay)) = true then some 5
            else if Config.mldsaVerify key.key (ascii "SIRCOR-CMD" ++ i.signedText) i.signature = false then some 6
            else if k ≠ 2 ∧ k ≠ 7 ∧ s.auditFull = true then some 8
            else if s.needPeer (s.itemOrigin i) = none then some 7 else none) →
      ∃ u : State, exec c s = .next u ∧ (r = none → u.trust = { s.trust with items := rest, judging := some (.command
          ⟨i.src, k, i.signedReply, s.itemOrigin i, i.counter, i.body, i.place⟩) } ∧ Within [.trust] s u) ∧
      (∀ result o f, r = some result → rest = [] → i.src = .network o f → o < 2 ^ 18 →
        u.rd SS.CMD_STATUS.result = result ∧ u.rd SS.CMD_STATUS.code = k ∧ u.rd SS.CMD_STATUS.origin = o ∧
        u.rd (SS.NET_CNT.count.nth 5) = min 0xFFFFFFFF (s.rd (SS.NET_CNT.count.nth 5) + 1) ∧
        bitOf (u.word SS.CAUSE) 7 = true ∧ u.pend 207 = true ∧ u.trust = { s.trust with items := [] } ∧
        (∃ m, u.messages = s.messages ++ [m] ∧ m.mtype = 1 ∧ m.cls = 1 ∧ m.dest = o ∧ m.port = none ∧ m.place = none ∧
          m.body = bytesBE 8 i.counter ++ bytesBE 1 k ++ bytesBE 1 result ++ bytesBE 2 0) ∧
        Changes [SS.CMD_STATUS, SS.NET_CNT + 20, SS.CAUSE] [.host, .messages, .trust] s u))

/-- R209, R211, R212, R214, R215, R217, R369, R393. -/
def Obligations.JournaledCommandsTakeEffect : Prop :=
  ∀ (s : State) (x : Command) (o f : Nat), s.trust.judging = some (.command x) → s.trust.items = [] → x.src = .network o f →
    x.origin < 2 ^ 18 → 1 ≤ x.code → x.code ≤ 8 → ∀ b, b = x.body → ∀ n, n = fieldBE b 0 1 →
    (∃ u : State, exec (.journalWriteDone false none) s = .next u ∧ u.rd SS.CMD_STATUS.result = 10 ∧ u.rd SS.CMD_STATUS.code = x.code ∧
      u.rd SS.CMD_STATUS.origin = x.origin ∧ u.pend 207 = true ∧ u.trust = { s.trust with judging := none } ∧ u.net = s.net ∧
      Changes [SS.CMD_STATUS, SS.NET_CNT + 20, SS.CAUSE] [.host, .messages, .trust] s u) ∧
    (∀ bad, bad = (x.code = 1 ∧ 1 < fieldBE b 4 1 ∨
        x.code = 3 ∧ (32 ≤ n ∨ fieldBE b 4 4 = 0 ∨ 0x3FFFE ≤ fieldBE b 4 4 ∨ fieldBE b 4 4 = s.act SS.NODE_ADDR.addr) ∨
        x.code = 4 ∧ 32 ≤ n ∨ x.code = 5 ∧ (32 ≤ n ∨ 1 < fieldBE b 1 1) ∨ x.code = 6 ∧ 2 ^ 15 ≤ fieldBE b 8 4) →
      (bad → ∃ u : State, exec (.journalWriteDone true none) s = .next u ∧ u.rd SS.CMD_STATUS.result = 9 ∧ u.pend 207 = true ∧
        sget (fun _ => 0) u.trust.flash.journal.replay x.origin = x.counter ∧
        Changes [SS.CMD_STATUS, SS.NET_CNT + 20, SS.CAUSE, SS.NET_STATUS] [.host, .messages, .net, .trust] s u) ∧
      (¬bad → (x.code = 3 → s.peer (fieldBE b 4 4) ≠ none) →
        (x.code = 3 ∨ x.code = 8 → s.peer x.origin ≠ none ∧ s.net.ctxs.Pairwise (fun e d => e.1 < d.1)) →
        (x.code = 5 → fieldBE b 1 1 = 1 → s.pool.scan ≠ none ∧ s.pool.diagWaiting = none) →
        (x.code = 8 → ∃ e, s.peer (fieldBE b 0 4) = some e ∧ s.peerSession e.2 = 0) →
        ∃ u : State, exec (.journalWriteDone true none) s = .next u ∧ u.rd SS.CMD_STATUS.result = 0 ∧ u.rd SS.CMD_STATUS.code = x.code ∧
          u.rd SS.CMD_STATUS.origin = x.origin ∧
          u.rd (SS.NET_CNT.count.nth 4) = min 0xFFFFFFFF (s.rd (SS.NET_CNT.count.nth 4) + 1) ∧ u.trust.judging = none ∧
          sget (fun _ => 0) u.trust.flash.journal.replay x.origin = x.counter ∧
          (x.code = 1 → ∀ p : Fin 32,
            ((fieldBE b 0 4).testBit p = true → u.rd (P.LINE_CFG.port_off.port p) = 1 - fieldBE b 4 1 ∧ u.bankPending (.port p) = true) ∧
            ((fieldBE b 0 4).testBit p = false → u.word (portAddr p P.LINE_CFG) = s.word (portAddr p P.LINE_CFG) ∧
              u.bankPending (.port p) = s.bankPending (.port p))) ∧
          (x.code = 2 → ∃ j ∈ u.signing, j.text = ascii "SIRCOR-RPL" ++ (bytesBE 8 x.counter ++ bytesBE 1 2 ++ bytesBE 1 0 ++ bytesBE 2 0 ++
            (bytesBE 4 1 ++ wordBytes (s.word TST.STATUS) ++ b ++ digestBytes s.trust.otp.idCommit ++
              (List.range 8).flatMap (fun i => digestBytes (s.digestAt (TST.MEAS + 64 * i))) ++
              (digestBytes (sha s.trust.flash.idCert)).take 32 ++ bytesBE 8 s.wheel.active.imageId.toNat ++
              bytesBE 8 (s.pair TST.MANIFEST_SEQ (TST.MANIFEST_SEQ + 4)) ++ bytesBE 8 s.now ++ bytesBE 8 s.power.rtcSec ++
              wordBytes (s.word CHIP.ID) ++ bytesBE 4 0))) ∧
          (x.code = 3 → ∃ a, u.arm n = some a ∧ a.peer = fieldBE b 4 4 ∧ a.commit = BitVec.ofNat 512 (fieldBE b 8 64) ∧ a.since = s.now ∧
            u.rd (TST.SES_STATUS.old_live.nth n) = bitNat (s.trip n).sess.isSome ∧ (u.trip n).sess = (s.trip n).sess) ∧
          (x.code = 4 → (u.trip n).sess = none ∧ (u.trip n).establishing = false ∧
            ((s.trip n).sess.isSome = true ∨ (s.trip n).establishing = true → u.rd (TRIP.PORT_STATUS.end_reason.nth n) = 1)) ∧
          (∀ r : DueReply, r = { origin := x.origin, counter := x.counter, code := 5, signed := x.signed } → x.code = 5 →
            (fieldBE b 1 1 = 0 → s.fsm n ∈ [fsmCableTest, fsmBreak, fsmPages, fsmProbe] →
            (u.link n).tests = (s.link n).tests ++ [some r] ∧ u.rd (P.MON_STATUS.test_busy.port n) = 1) ∧
          (fieldBE b 1 1 = 1 → u.pool.diagWaiting = some
            { ports := BitVec.ofNat 32 (2 ^ n), reply := some r })) ∧
          (x.code = 6 → u.power.rtcSec = fieldBE b 0 8 ∧ u.power.rtcFrac = fieldBE b 8 4 ∧ u.rd PWR.AON_STATUS.rtc_valid = 1) ∧
          (x.code = 7 → x.signed = false → ∃ m ∈ u.messages, m.dest = x.origin ∧ m.mtype = 1 ∧ m.cls = 1 ∧
            m.body = bytesBE 8 x.counter ++ bytesBE 1 7 ++ bytesBE 1 0 ++ bytesBE 2 0 ++ (s.summaryBody ++
              bytesBE 4 (s.auditFrom (fieldBE b 0 8)).length ++ (s.auditFrom (fieldBE b 0 8)).flatMap auditRecBytes)) ∧
          (x.code = 8 → ∃ e, u.peer (fieldBE b 0 4) = some e ∧ e.2.nbr = 3 ∧ e.2.route = none) ∧
          (x.code ∈ [2, 6, 7, 8] → Changes [SS.CMD_STATUS, SS.NET_CNT + 16, SS.NET_STATUS, TST.STATUS, PWR.AON_STATUS]
            [.chain, .messages, .signing, .net, .trust, .power] s u) ∧
          (x.code ∈ [1, 3, 4, 5] → Within (records ++ [.host, .chain, .messages, .signing, .links, .trips, .pool, .sram, .dma, .net, .trust]) s u)))

/-- R361, R363 to R365, R368. -/
def Obligations.ManifestsAreJudgedAndStaged : Prop :=
  (∀ (s : State) (i : Item) (rest : List Item) (v : Verdict), s.trust.items = i :: rest → s.trust.judging = none →
    (i.manifest = false → exec .manifestReceived s = .next s) ∧
    (i.manifest = true →
      v = (match parseManifest i.bytes with
        | none => .refused 1 0
        | some f =>
          if f.tag ≠ 0 ∧ f.tag ≠ s.idTag then .refused 2 0
          else match s.ownerOf f.keyId with
            | none => .refused 3 0
            | some slot =>
              if s.ownerSigned slot "SIRCOR-MAN" f.text f.sig = false then .refused 4 0
              else if f.seq ≤ s.pair TST.MANIFEST_SEQ (TST.MANIFEST_SEQ + 4) then .refused 5 0
              else if s.auditFull = true then .refused 6 0
              else match s.firstFault f.entries.length slot 0 [] f.entries with
                | some (k, r) => .refused r k
                | none => .good ⟨i.src, f.entries, sha i.bytes, f.seq, slot⟩) →
      ∃ u : State, exec .manifestReceived s = .next u ∧
      (∀ m, v = .good m →
        u.trust = { s.trust with items := rest, judging := some (.manifest m) } ∧ Within [.trust] s u) ∧
      (∀ r k, v = .refused r k → rest = [] → i.src = .mailbox → s.wcLevel (wcKey TST.MBOX_CMD 0) ≤ 1 → r < 16 → k < 1024 →
        u.rd TST.MBOX_STATUS.result = r ∧ u.rd TST.MBOX_STATUS.entry = k ∧
          u.rd TST.MBOX_STATUS.busy = 0 ∧ bitOf (u.word TST.CAUSE) 1 = true ∧ u.pend 209 = true ∧
          u.trust = { s.trust with items := [] } ∧
          (0 < s.auditFree → s.logs.heldAudit = [] → u.chain.seq = s.chain.seq + 1) ∧
          Changes [TST.MBOX_STATUS, TST.CAUSE, TST.STATUS] [.host, .trust, .chain, .signing] s u))) ∧
  (∀ (s : State) (m : Staged) (h : BitVec 512), s.trust.judging = some (.manifest m) → s.trust.items = [] → m.src = .mailbox →
    s.wcLevel (wcKey TST.MBOX_CMD 0) ≤ 1 → h = s.digestAt (TST.MEAS + 256) →
    (∃ u : State, exec (.journalWriteDone false none) s = .next u ∧ u.rd TST.MBOX_STATUS.result = 9 ∧ u.rd TST.MBOX_STATUS.busy = 0 ∧
      u.pend 209 = true ∧ u.trust = { s.trust with judging := none } ∧
      Changes [TST.MBOX_STATUS, TST.CAUSE, TST.STATUS] [.host, .trust, .chain, .signing] s u) ∧
    (∃ u : State, exec (.journalWriteDone true none) s = .next u ∧ u.rd TST.MBOX_STATUS.result = 0 ∧ u.rd TST.MBOX_STATUS.busy = 0 ∧
      u.pend 208 = true ∧ u.pend 211 = true ∧ u.trust.staged = s.trust.staged ++ [m] ∧ u.trust.judging = none ∧
      u.pair TST.MANIFEST_SEQ (TST.MANIFEST_SEQ + 4) = m.seq % 2 ^ 64 ∧ u.trust.flash.journal.manifestSeq = m.seq ∧
      u.trust.flash.journal.replay = s.trust.flash.journal.replay ∧
      u.digestAt (TST.MEAS + 256) = sha (digestBytes h ++ digestBytes m.digest) ∧
      (m.entries.any Entry.isOtp = false → u.trust.otp = s.trust.otp) ∧
      (∀ k hash, m.entries = [.ownerEnrol k hash] → (u.owner k).enrolled = true ∧ (u.owner k).hash = (s.owner k).hash ||| hash ∧
        (u.owner k).revoked = (s.owner k).revoked) ∧
      (∀ k, m.entries = [.ownerRevoke k] → (u.owner k).revoked = true ∧ (u.owner k).enrolled = (s.owner k).enrolled) ∧
      (∀ w, m.entries = [.svnCommit w] → u.trust.otp.rollback = max s.trust.otp.rollback w) ∧
      (m.entries = [.sealDevice] → u.trust.otp.sealBits = 3 ∧ u.sealed = s.sealed) ∧
      ChangesIn (fun a => decide (a ∈ [TST.MBOX_STATUS, TST.CAUSE, TST.STATUS, TST.MANIFEST_SEQ, TST.MANIFEST_SEQ + 4]) ||
        decide (TST.MEAS + 256 ≤ a) && decide (a < TST.MEAS + 320)) [.host, .trust, .chain, .signing] s u) ∧
    (∀ x, m.entries.any Entry.isOtp = true → ∃ u : State, exec (.journalWriteDone true (some x)) s = .next u ∧
      u.rd TST.MBOX_STATUS.result = 10 ∧ u.pend 209 = true ∧ u.trust.staged = s.trust.staged ∧
      (∀ k hash, m.entries = [.ownerEnrol k hash] → (u.owner k).enrolled = ((s.owner k).enrolled || x.enrolled) ∧
        (u.owner k).hash = (s.owner k).hash ||| (hash &&& x.hash)) ∧
      u.digestAt (TST.MEAS + 256) = h))

/-- R205, R207, R351 to R353, R362, R363, R366, R368. A row of the table stands for the entry alone (the model's choice, log entry 76). -/
def Obligations.ManifestEntriesTakeEffect : Prop :=
  ∀ (s : State), s.started = true →
    (∀ (a : BitVec 26) (v : Word) b off r, homeOf a.toNat = some (.reg b off r) →
      (isConfigReg a.toNat = false → exec (.manifestReg a v) s = .next s) ∧
      (r.hasRW = true → b.doubleBuffered = true → s.bankPending b = false → a.toNat ≠ SS.CTX_SEL → a.toNat ≠ CAL.TRIM_SEL →
        b ≠ .wheel → b ≠ .perf → (∀ f ∈ r.fields, f.access = .rw) → (∀ f ∈ r.fields, f.lsb + f.width ≤ 32) →
        r.fields.Pairwise (fun f g => f.lsb + f.width ≤ g.lsb ∨ g.lsb + g.width ≤ f.lsb) →
        b.commitAt ≠ some a.toNat →
        ∃ u : State, exec (.manifestReg a v) s = .next u ∧ u.bankPending b = true ∧
          (∀ f ∈ r.fields, bitsOf (u.word a.toNat) f.lsb f.width =
            f.legal.nearest (r.index off) (bitsOf v f.lsb f.width) % 2 ^ f.width) ∧
          (∀ c, b.bankCtrl = some c → Changes [a.toNat, c, CHIP.CLAMP_STATUS] [.host] s u))) ∧
    (∀ (node hop : BitVec 18) (port : Fin 32) (metric : Fin 65), s.net.ctxs.Pairwise (fun e d => e.1 < d.1) →
      (node = 0 ∨ 0x3FFFE ≤ node.toNat → exec (.manifestRoute node port metric hop) s = .next s ∧
        exec (.manifestRouteDel node) s = .next s) ∧
      (node ≠ 0 → node.toNat < 0x3FFFE →
        (metric = 0 ∨ s.peerRoom = 0 ∧ s.peer node.toNat = none → exec (.manifestRoute node port metric hop) s = .next s) ∧
        (metric ≠ 0 → ∀ i x, s.peer node.toNat = some (i, x) → ∃ u : State, exec (.manifestRoute node port metric hop) s = .next u ∧
          u.peer node.toNat = some (i, { x with route := some ⟨true, port, metric, hop.toNat⟩ }) ∧
          (∀ j, j ≠ i → u.peerAt j = s.peerAt j) ∧ (∀ w, w ≠ SS.NET_STATUS → u.word w = s.word w) ∧ Within [.regs, .net] s u) ∧
        (metric ≠ 0 → s.peer node.toNat = none → s.net.ctxs.length < 1024 → (∀ e ∈ s.net.ctxs, e.1 < 1024) →
          ∃ (u : State) (i : _) (x : _), exec (.manifestRoute node port metric hop) s = .next u ∧ u.peer node.toNat = some (i, x) ∧ i < 1024 ∧
            s.peerAt i = none ∧ x.route = some ⟨true, port, metric, hop.toNat⟩ ∧ x.nbr = 3 ∧
            u.net.ctxs.length = s.net.ctxs.length + 1 ∧ (∀ j, j ≠ i → u.peerAt j = s.peerAt j)) ∧
        (∀ i x, s.peer node.toNat = some (i, x) → x.manifestRoute = true → ∃ u : State, exec (.manifestRouteDel node) s = .next u ∧
          u.peer node.toNat = some (i, { x with route := none }) ∧ (∀ j, j ≠ i → u.peerAt j = s.peerAt j) ∧
          (∀ w, w ≠ SS.NET_STATUS → u.word w = s.word w) ∧ Within [.regs, .net] s u) ∧
        (s.peer node.toNat = none → exec (.manifestRouteDel node) s = .next s))) ∧
    (∀ (slot : Fin 16) (permitted : BitVec 16) (key : List Byte), ∀ parts : List Part, parts = [.chain, .signing, .trust] →
      ∀ area : Nat → Bool, area = (fun a => decide (a = TST.STATUS) || decide (a = TST.CAUSE) ||
        decide (TST.MEAS + 384 ≤ a) && decide (a < TST.MEAS + 448)) →
      (∃ u : State, exec (.opKey slot permitted key) s = .next u ∧
        u.trust.opKeys.find? (fun e => e.1 == slot.val) = some (slot.val, { permitted := permitted, key := key }) ∧
        (∀ k : Nat, k ≠ slot → u.trust.opKeys.find? (fun e => e.1 == k) = s.trust.opKeys.find? (fun e => e.1 == k)) ∧
        u.pend 211 = true ∧ u.trust = { s.trust with opKeys := u.trust.opKeys } ∧ ChangesIn area parts s u) ∧
      (∃ u : State, exec (.opKeyDel slot) s = .next u ∧ u.trust.opKeys = s.trust.opKeys.filter (fun e => decide (e.1 ≠ slot.val)) ∧
        u.pend 211 = true ∧ u.trust = { s.trust with opKeys := u.trust.opKeys } ∧ ChangesIn area parts s u)) ∧
    (∀ area : Nat → Bool, area = (fun a => decide (a = TST.STATUS) || decide (a = TST.CAUSE) ||
        decide (TST.OWNER_HASH ≤ a) && decide (a < TST.OWNER_HASH + 256) || decide (TST.MEAS + 320 ≤ a) && decide (a < TST.MEAS + 384)) →
      (∀ (k : Fin 4) (hash : BitVec 512),
        ((s.owner k).enrolled = true ∨ (s.owner k).revoked = true → exec (.ownerEnrol k hash) s = .next s) ∧
        (s.owner k = OwnerSlot.empty → ∃ u : State, exec (.ownerEnrol k hash) s = .next u ∧ u.owner k = ⟨hash, true, false⟩ ∧
          (∀ j, j ≠ k.val → u.owner j = s.owner j) ∧ u.trust = { s.trust with otp := u.trust.otp } ∧ u.pend 211 = true ∧
          u.digestAt (TST.OWNER_HASH + 64 * k) = hash ∧ u.rd TST.STATUS.owner / 4 ^ k.val % 4 = 1 ∧
          ChangesIn area [.chain, .signing, .trust] s u)) ∧
      (∀ (k signer : Fin 4),
        (k = signer ∨ (s.owner k).active = false ∨ s.activeOwners ≤ 1 → exec (.ownerRevoke k signer) s = .next s) ∧
        (k ≠ signer → (s.owner k).active = true → 1 < s.activeOwners → ∃ u : State, exec (.ownerRevoke k signer) s = .next u ∧
          u.owner k = { s.owner k with revoked := true } ∧ (∀ j, j ≠ k.val → u.owner j = s.owner j) ∧
          u.rd TST.STATUS.owner / 4 ^ k.val % 4 = 2 ∧ u.trust = { s.trust with otp := u.trust.otp } ∧
          ChangesIn area [.chain, .signing, .trust] s u)) ∧
      (∀ v : BitVec 8,
        (v.toNat ≤ s.trust.otp.rollback ∨ 64 < v.toNat ∨ s.fw.svn < v.toNat → exec (.svnCommit v) s = .next s) ∧
        (s.trust.otp.rollback < v.toNat → v.toNat ≤ 64 → v.toNat ≤ s.fw.svn → ∃ u : State, exec (.svnCommit v) s = .next u ∧
          u.trust = { s.trust with otp := { s.trust.otp with rollback := v.toNat } } ∧ u.rd TST.STATUS.rollback = v.toNat ∧
          u.pend 212 = true ∧ u.pend 211 = true ∧ ChangesIn area [.chain, .signing, .trust] s u)) ∧
      (s.anyOwner = false ∨ s.sealed = true → exec .sealDevice s = .next s) ∧
      (s.anyOwner = true → s.sealed = false → ∃ u : State, exec .sealDevice s = .next u ∧ u.sealed = true ∧
        u.trust = { s.trust with otp := { s.trust.otp with sealBits := 3 } } ∧ u.pend 210 = true ∧ u.pend 211 = true ∧
        ChangesIn area [.chain, .signing, .trust] s u))

/-- R41, R352, R355, R357, R364, R365, R376. -/
def Obligations.MailboxAndSignatures : Prop :=
  ∀ (s : State), (s.gate TST.MBOX_CMD false = .served →
    (∀ a k, s.started = true → a = s.rd TST.MBOX_ADDR.addr → k = s.rd TST.MBOX_LEN.bytes → 4 ≤ k →
      (s.wcLevel (wcKey TST.MBOX_CMD 0) = 0 → s.trust.items = [] → s.trust.judging = none → a + k ≤ 0x800000 → s.anyMarked a k = false →
        s.sealed = false → fieldBE (s.bytesAt a k) 0 4 = 0x4E454D46 → ∃ u : State, exec .submit s = .next u ∧
          u.trust = { s.trust with items := [⟨.mailbox, true, s.bytesAt a k, (a + k + 7) / 8 * 8⟩] } ∧
          u.rd TST.MBOX_STATUS.kind = 2 ∧ u.rd TST.MBOX_STATUS.busy = 1 ∧ u.wcLevel (wcKey TST.MBOX_CMD 0) = 1 ∧
          (∀ w, w ≠ TST.MBOX_STATUS → u.word w = s.word w) ∧ Within [.regs, .host, .trust] s u) ∧
      (s.wcLevel (wcKey TST.MBOX_CMD 0) = 1 → s.trust.items = [] → ∃ u : State, exec .submit s = .next u ∧
        u.wcLevel (wcKey TST.MBOX_CMD 0) = 2 ∧ Within [.host] s u)) ∧
    (∀ fuse a h, a = s.rd TST.MBOX_ADDR.addr → h = sha (s.bytesAt a 2592) →
      (s.sealed = true ∨ s.anyOwner = true ∨ (s.owner 0).revoked = true → ∃ u : State, exec (.enrol fuse) s = .next u ∧
        u.rd TST.MBOX_STATUS.result = 11 ∧ u.rd TST.MBOX_STATUS.kind = 3 ∧ u.pend 209 = true ∧ u.trust = s.trust ∧
        Changes [TST.MBOX_STATUS, TST.CAUSE] [] s u) ∧
      (s.sealed = false → s.anyOwner = false → (s.owner 0).revoked = false → a + 2592 ≤ 0x800000 → s.anyMarked a 2592 = false →
        (fuse = none → ∃ u : State, exec (.enrol fuse) s = .next u ∧ u.owner 0 = ⟨(s.owner 0).hash ||| h, true, false⟩ ∧
          (∀ j, j ≠ 0 → u.owner j = s.owner j) ∧ u.trust = { s.trust with otp := u.trust.otp } ∧
          u.rd TST.MBOX_STATUS.result = 0 ∧ u.pend 208 = true ∧ u.pend 211 = true ∧ u.rd TST.STATUS.owner % 4 = 1 ∧
          Within (records ++ [.chain, .signing, .trust]) s u) ∧
        (∀ x, fuse = some x → ∃ u : State, exec (.enrol fuse) s = .next u ∧
          u.owner 0 = ⟨(s.owner 0).hash ||| (h &&& x.hash), (s.owner 0).enrolled || x.enrolled, false⟩ ∧
          u.rd TST.MBOX_STATUS.result = 10 ∧ u.pend 209 = true ∧ Within (records ++ [.trust]) s u))) ∧
    (∀ k, k = wcKey TST.MBOX_CMD 2 →
      (s.wcLevel k = 0 → s.idOk = true → ∃ (u : State) (j : _), exec .checkpoint s = .next u ∧ u.wcLevel k = 1 ∧ u.signing = s.signing ++ [j] ∧
        j.text = ascii "SIRCOR-AUD" ++ bytesBE 8 s.chain.seq.toNat ++ digestBytes s.chain.head ∧ Within [.host, .signing] s u) ∧
      (s.wcLevel k = 0 → s.idOk = false → ∃ u : State, exec .checkpoint s = .next u ∧ u.wcLevel k = 0 ∧ Within [.host] s u) ∧
      (s.wcLevel k = 1 → ∃ u : State, exec .checkpoint s = .next u ∧ u.wcLevel k = 2 ∧ Within [.host] s u) ∧
      (2 ≤ s.wcLevel k → ∃ u : State, exec .checkpoint s = .next u ∧ u.wcLevel k = s.wcLevel k ∧
        u.rd CHIP.IGN_WRITE_STATUS.count = min 0xFFFF (s.rd CHIP.IGN_WRITE_STATUS.count + 1) ∧
        (s.host.ignFresh = true → u.rd CHIP.IGN_WRITE_STATUS.reason = 5 ∧ u.rd CHIP.IGN_WRITE_ADDR.addr = TST.MBOX_CMD) ∧
        Within [.regs, .host] s u))) ∧
    (∀ j rest, s.signing = j :: rest → ∀ sig, sig = Config.mldsaSign s.signCount j.text →
      (∀ m, j.use = .message m → m.place = none → s.idOk = true → ∃ u : State, exec (.latticeJobEnd true false) s = .next u ∧
        u.messages = s.messages ++ [{ m with body := m.body ++ sig }] ∧ u.signing = rest ∧ u.signCount = s.signCount + 1 ∧
        Changes [] [.messages, .signing, .signCount] s u) ∧
      (∀ q h, j.use = .checkpoint q h false → s.idOk = true → s.dma.marked = [] → ∀ l, l = 72 + sig.length →
        ∃ u : State, exec (.latticeJobEnd true false) s = .next u ∧
          u.bytesAt (s.rd TST.CKPT_ADDR.addr) l = bytesBE 8 q.toNat ++ digestBytes h ++ sig ∧
          (∀ b, b < s.rd TST.CKPT_ADDR.addr ∨ s.rd TST.CKPT_ADDR.addr + l ≤ b → u.byteAt b = s.byteAt b) ∧
          u.pend 214 = true ∧ Within (records ++ [.signing, .signCount, .sram, .dma, .chain]) s u) ∧
      (s.idOk = true → ∃ u : State, exec (.latticeJobEnd true true) s = .next u ∧ u.signing = s.signing ∧ u.signCount = s.signCount + 1 ∧
        Changes [] [.signCount] s u))

/-- R21, R303 to R305, R307, R357. The layout of a request block is the model's (log entry 110). -/
def Obligations.UnitJobsEndInOrder : Prop :=
  ∀ (s : State) (e : Nat) (j : Job), s.job e = some j → j.status = none → ∀ ended : Nat → Option Job,
    ended = (fun st => if j.detach then none else some { j with status := some st, started := true }) →
    (∀ n : Fin 16384, ∀ c p, n.val = e → j.kind = .engine c p → ∃ u : State, exec (.engineJobEnd n) s = .next u ∧ u.job e = ended 0 ∧
      (∀ i, i ≠ e → u.job i = s.job i) ∧ Changes [] [.seq] s u) ∧
    (∀ req a n o, s.oldestJob (fun k => match k with
        | .hash _ => true
        | _ => false) = some (e, j) → j.kind = .hash req → a = (s.wordAt req).toNat → n = (s.wordAt (req + 4)).toNat →
      o = (s.wordAt (req + 8)).toNat →
      (req + 12 ≤ 0x800000 → s.anyMarked req 12 = false → a + n ≤ 0x800000 → o + 64 ≤ 0x800000 → s.anyMarked a n = false →
        s.anyMarked o 64 = false → ∃ u : State, exec .hashJobEnd s = .next u ∧ u.bytesAt o 64 = digestBytes (Config.sha3_512 (s.bytesAt a n)) ∧
          (∀ b, b < o ∨ o + 64 ≤ b → u.byteAt b = s.byteAt b) ∧ u.job e = ended 0 ∧ (∀ i, i ≠ e → u.job i = s.job i) ∧
          Changes [] [.seq, .sram, .dma] s u) ∧
      (0x800000 < req + 12 ∨ req + 12 ≤ 0x800000 ∧ (0x800000 < a + n ∨ 0x800000 < o + 64) → ∃ u : State, exec .hashJobEnd s = .next u ∧
        u.job e = ended 2 ∧ (∀ i, i ≠ e → u.job i = s.job i) ∧ Changes [] [.seq] s u)) ∧
    (∀ op req failed (w : Nat → Nat), s.oldestJob (fun k => match k with
        | .lattice _ _ => true
        | _ => false) = some (e, j) → j.kind = .lattice op req → req + 20 ≤ 0x800000 → s.anyMarked req 20 = false →
      w = (fun k => (s.wordAt (req + 4 * k)).toNat) →
      (op = 0 → w 0 + 2592 ≤ 0x800000 → w 1 + w 2 ≤ 0x800000 → w 3 + 4627 ≤ 0x800000 → ∃ u : State, exec (.latticeJobEnd false failed) s = .next u ∧
        u.job e = ended (if Config.mldsaVerify (s.bytesAt (w 0) 2592) (s.bytesAt (w 1) (w 2)) (s.bytesAt (w 3) 4627) then 0 else 6) ∧
        (∀ i, i ≠ e → u.job i = s.job i) ∧ Changes [] [.seq] s u) ∧
      (op = 1 → s.idOk = true → w 1 + w 2 ≤ 0x800000 → w 3 + 4627 ≤ 0x800000 → s.anyMarked (w 3) 4627 = false →
        (failed = true → ∃ u : State, exec (.latticeJobEnd false failed) s = .next u ∧ u.job e = ended 2 ∧ Changes [] [.seq] s u) ∧
        (failed = false → ∀ sig, sig = (Config.mldsaSign s.signCount (s.bytesAt (w 1) (w 2))).take 4627 →
          ∃ u : State, exec (.latticeJobEnd false failed) s = .next u ∧ u.job e = ended 0 ∧
            u.bytesAt (w 3) sig.length = sig ∧
            (∀ b, b < w 3 ∨ w 3 + sig.length ≤ b → u.byteAt b = s.byteAt b) ∧ Changes [] [.seq, .sram, .dma, .signCount] s u)) ∧
      (op = 2 → w 0 + 1568 ≤ 0x800000 → w 3 + 1568 ≤ 0x800000 → w 4 + 32 ≤ 0x800000 → w 3 + 1568 ≤ w 4 ∨ w 4 + 32 ≤ w 3 →
        s.anyMarked (w 3) 1568 = false → s.anyMarked (w 4) 32 = false → ∀ x y, x = s.trust.draws →
        y = (Config.mlkemCipher x (s.bytesAt (w 0) 1568)).take 1568 → ∃ u : State, exec (.latticeJobEnd false failed) s = .next u ∧
          u.job e = ended 0 ∧ u.bytesAt (w 3) y.length = y ∧
          u.bytesAt (w 4) 32 = bytesBE 32 (Config.mlkemShared x (s.bytesAt (w 0) 1568)).toNat ∧ u.trust.draws = x + 1 ∧
          Changes [] [.seq, .sram, .dma, .trust] s u) ∧
      (op = 3 → ∀ k d, s.trust.kem.find? (fun p => p.1 == w 0) = some (k, d) → w 1 + 1568 ≤ 0x800000 → w 4 + 32 ≤ 0x800000 →
        s.anyMarked (w 4) 32 = false → ∃ u : State, exec (.latticeJobEnd false failed) s = .next u ∧ u.job e = ended 0 ∧
          u.bytesAt (w 4) 32 = bytesBE 32 (Config.mlkemDecapsulate (Config.mlkemSecret d) (s.bytesAt (w 1) 1568)).toNat ∧
          Changes [] [.seq, .sram, .dma] s u) ∧
      (op = 4 → w 3 + 1568 ≤ 0x800000 → s.anyMarked (w 3) 1568 = false → ∀ y, y = (Config.mlkemPublic s.trust.draws).take 1568 →
        ∃ u : State, exec (.latticeJobEnd false failed) s = .next u ∧ u.job e = ended 0 ∧ u.bytesAt (w 3) y.length = y ∧
          u.trust.kem.find? (fun p => p.1 == w 0) = some (w 0, s.trust.draws) ∧ Changes [] [.seq, .sram, .dma, .trust] s u) ∧
      (5 ≤ op → ∃ u : State, exec (.latticeJobEnd false failed) s = .next u ∧ u.job e = ended 2 ∧ Changes [] [.seq] s u))

/-- R198 to R204, R211, R276. -/
def Obligations.MessagesTakeTheirWay : Prop :=
  ∀ (s : State),
    (∀ m : NetMsg, s.net.ready = [m] → s.isLocal m = false →
      (m.final ≠ 0x3FFFE → ∃ u : State, exec .messageReassembled s = .next u ∧ u.net.ready = [] ∧
        (64 ≤ m.hops → u.rd (SS.NET_CNT.count.nth 1) = min 0xFFFFFFFF (s.rd (SS.NET_CNT.count.nth 1) + 1) ∧
          u.net.outgoing = s.net.outgoing ∧
          (m.mtype < 3 ∨ 7 < m.mtype → ∃ r, u.messages = s.messages ++ [r] ∧ r.mtype = 7 ∧ r.cls = 1 ∧ r.dest = m.origin ∧
            r.body = bytesBE 1 2 ++ bytesBE 1 0 ++ bytesBE 2 m.msgId) ∧
          (3 ≤ m.mtype → m.mtype ≤ 7 → u.messages = s.messages)) ∧
        (m.hops < 64 → s.route m.final = none → u.rd (SS.NET_CNT.count.nth 2) = min 0xFFFFFFFF (s.rd (SS.NET_CNT.count.nth 2) + 1) ∧
          u.net.outgoing = s.net.outgoing) ∧
        (∀ out hop, m.hops < 64 → s.route m.final = some (out, hop) →
          (m.port = some out → u.rd (SS.NET_CNT.count.nth 2) = min 0xFFFFFFFF (s.rd (SS.NET_CNT.count.nth 2) + 1) ∧
            u.net.outgoing = s.net.outgoing) ∧
          (m.port ≠ some out → u.rd (SS.NET_CNT.count.nth 0) = min 0xFFFFFFFF (s.rd (SS.NET_CNT.count.nth 0) + 1) ∧
            u.messages = s.messages ∧ u.net.outgoing = s.net.outgoing ++ [⟨{ m with hops := m.hops + 1 }, out,
              if s.onBus out then hop else 0x3FFFE, s.needsWake out hop, 0⟩])) ∧
        (∀ a, a ≠ SS.NET_CNT → a ≠ SS.NET_CNT + 4 → a ≠ SS.NET_CNT + 8 → a ≠ SS.NET_STATUS → u.word a = s.word a) ∧
        Within [.regs, .messages, .net] s u) ∧
      (m.final = 0x3FFFE → ∃ u : State, exec .messageReassembled s = .next u ∧ u.net.ready = [] ∧ u.messages = s.messages ∧
        u.rd (SS.NET_CNT.count.nth 2) = min 0xFFFFFFFF (s.rd (SS.NET_CNT.count.nth 2) + 1))) ∧
    (∀ m : NetMsg, s.net.ready = [m] → s.isLocal m = true → m.mtype = 0 ∨ m.mtype = 2 →
      (4 ≤ s.waitingItems → exec .messageReassembled s = .next s) ∧
      (s.waitingItems < 4 → s.trust.judging ≠ none → ∃ u : State, exec .messageReassembled s = .next u ∧ u.net.ready = [] ∧
        u.trust = { s.trust with items := s.trust.items ++ [⟨.network m.origin m.final, decide (m.mtype = 2), m.body, 0⟩] } ∧
        (∀ a, a ≠ SS.NET_STATUS → u.word a = s.word a) ∧ Within [.regs, .net, .trust] s u)) ∧
    (∀ old : ReasmBuf → Bool, old = (fun b => decide (b.last + s.act SS.NET_CFG.reasm_s * 1000000000 ≤ s.now)) →
      ∃ u : State, exec .reassemblyTimeout s = .next u ∧ u.net.reasm = s.net.reasm.filter (fun b => !old b) ∧
        u.rd (SS.NET_CNT.count.nth 3) = min 0xFFFFFFFF (s.rd (SS.NET_CNT.count.nth 3) + (s.net.reasm.filter old).length) ∧
        (∀ a, a ≠ SS.NET_CNT + 12 → a ≠ SS.NET_STATUS → u.word a = s.word a) ∧ Within [.regs, .messages, .net] s u) ∧
    (∀ (n : Fin 32) (p : List Byte) (rest : List (List Byte)), (s.side n).inbox = p :: rest →
      (netGood p = false → netField p 120 4 ≠ 0 → ∃ u : State, exec (.tunnelMessage n) s = .next u ∧ (u.side n).inbox = rest ∧
        u.rd (SS.NET_CNT.count.nth 7) = min 0xFFFFFFFF (s.rd (SS.NET_CNT.count.nth 7) + 1) ∧ u.messages = s.messages ∧
        (∀ a, a ≠ SS.NET_CNT + 28 → u.word a = s.word a) ∧ Within [.regs, .sides] s u) ∧
      (netGood p = true → netField p 120 4 = 4 → ∃ u : State, exec (.tunnelMessage n) s = .next u ∧ (u.side n).inbox = rest ∧
        Within [.sides] s u) ∧
      (netGood p = true → netField p 120 4 ≠ 0 → netField p 120 4 ≠ 4 → ∃ (u : State) (m : SsMsg), exec (.tunnelMessage n) s = .next u ∧
        (u.side n).inbox = rest ∧ u.messages = s.messages ++ [m] ∧ m.mtype = netField p 120 4 ∧ m.dest = netField p 77 18 ∧
        m.port = (if netField p 77 18 = 0x3FFFE then some n.val else none) ∧ m.body = p.drop 16 ∧ Within [.sides, .messages] s u)) ∧
    (∀ (o : OutMsg) (rest : List OutMsg), s.messages = [] → s.net.outgoing = o :: rest → (s.modem o.out).room o.msg.cls = true →
      s.modemEnabled o.out = true → s.onBus o.out = false →
      ∃ (u : State) (t : TxFrame), exec .ssFrameEnqueue s = .next u ∧ (u.modem o.out).queue = (s.modem o.out).queue ++ [t] ∧
        t.frame.cls = o.msg.cls ∧ t.frame.dst = o.dst ∧ t.frame.wake = o.wake ∧ t.frame.ackReq = true ∧ t.sent = false ∧ t.tries = 0 ∧
        t.frame.payload = netHeader o.msg o.next (fragCount o.msg.body.length) o.msg.body.length ++
          (o.msg.body.drop (224 * o.next)).take 224 ∧
        u.net.outgoing = (if o.next + 1 < fragCount o.msg.body.length then { o with next := o.next + 1 } :: rest else rest) ∧
        (∀ k, k ≠ o.out → u.modem k = s.modem k) ∧ (∀ a, a ≠ SS.PORT_STATUS + 4 * o.out → u.word a = s.word a) ∧
        Within [.regs, .net] s u) ∧
    (∀ n : Fin 32, s.started = true → s.powerState ≤ 1 →
      (s.modemEnabled n = false ∨ (s.modem n).room 2 = false → exec (.beaconTimer n) s = .next s) ∧
      (s.modemEnabled n = true → (s.modem n).room 2 = true → ∃ (u : State) (t : TxFrame), exec (.beaconTimer n) s = .next u ∧
        (u.modem n).queue = (s.modem n).queue ++ [t] ∧ t.frame.cls = 2 ∧ t.frame.dst = 0x3FFFF ∧ t.frame.wake = true ∧
        t.frame.payload.drop 16 = bytesBE 1 s.powerState ++ bytesBE 1 (s.portStateCode n) ++ bytesBE 2 (s.act SS.NET_CFG.beacon * 250) ++
          bytesBE 8 s.idTag ++ bytesBE 4 (s.modem n).bseq ∧
        (u.modem n).bseq = ((s.modem n).bseq + 1) % 2 ^ 32 ∧ u.net.msgId = (s.net.msgId + 1) % 65536 ∧
        (∀ k, k ≠ n.val → u.modem k = s.modem k) ∧ (∀ a, a ≠ SS.PORT_STATUS + 4 * n → u.word a = s.word a) ∧
        Within [.regs, .net] s u))

/-- R205, R207, R208, R218; the write as the host gives it where the access is served. -/
def Obligations.NeighboursAndContexts : Prop :=
  ∀ (s : State),
    (∀ (n : Fin 32) (b : Beacon), (s.clk.wheelOn = false ∨ s.needPeer b.origin = none → exec (.beaconReceived n b) s = .next s) ∧
      (∀ i c, s.clk.wheelOn = true → s.peer b.origin = some (i, c) → s.net.ctxs.Pairwise (fun e d => e.1 < d.1) → ∀ way : Option Route,
        way = (if c.manifestRoute then c.route else if s.act SS.NET_CFG.route_learn ≠ 0 then some ⟨false, n, 1, b.origin⟩ else c.route) →
        ∃ (u : State) (x : NetCtx), exec (.beaconReceived n b) s = .next u ∧ u.peer b.origin = some (i, x) ∧
          x = { c with nbr := 1, port := n, power := b.power, interval := b.interval, idTag := b.idTag, last := s.now, route := way } ∧
          (c.nbr ≠ 1 → bitOf (u.word SS.CAUSE) 6 = true ∧ u.pend 206 = true) ∧
          (c.nbr = 1 → u.word SS.CAUSE = s.word SS.CAUSE) ∧ (∀ j, j ≠ i → u.peerAt j = s.peerAt j) ∧
          Changes [SS.NET_STATUS, SS.CAUSE] [.net] s u) ∧
      (∀ i c, s.clk.wheelOn = true → s.peer b.origin = none → s.needPeer b.origin = some (i, c) → s.net.ctxs.length < 1024 →
        ∃ (u : State) (x : NetCtx), exec (.beaconReceived n b) s = .next u ∧ u.peerAt i = some x ∧ x.address = b.origin ∧ x.nbr = 1 ∧
          x.replay = 0 ∧ x.port = n ∧ x.last = s.now ∧ u.pend 206 = true ∧ (∀ j, j ≠ i → u.peerAt j = s.peerAt j) ∧
          Changes [SS.NET_STATUS, SS.CAUSE] [.net] s u)) ∧
    (∀ (i : Fin 1024) c, s.peerAt i = some c → ∀ late : Prop, late = (c.last + (3 * c.interval + 100) * 1000000 ≤ s.now) →
      (c.nbr = 1 → late → ∃ u : State, exec (.neighbourMissing i) s = .next u ∧
        u.peerAt i = some { c with nbr := 2, route := if c.manifestRoute then c.route else none } ∧ u.pend 206 = true ∧
        bitOf (u.word SS.CAUSE) 6 = true ∧ (∀ j : Nat, j ≠ i → u.peerAt j = s.peerAt j) ∧ Changes [SS.NET_STATUS, SS.CAUSE] [.net] s u) ∧
      (c.nbr ≠ 1 ∨ ¬late → exec (.neighbourMissing i) s = .next s)) ∧
    (s.gate SS.CTX_SEL false = .served → ∀ (w : Word) (i : Nat), i = w.toNat % 1024 → ∃ u : State, exec (.ssCtxSelWrite w) s = .next u ∧
      u.rd SS.CTX_SEL.index = i ∧
      (s.peerAt i = none → ∀ k : Fin 48, u.word (SS.CTX_WIN + 4 * k) = 0) ∧
      (∀ c, s.peerAt i = some c → c.nbr < 4 → c.port < 32 → c.address < 2 ^ 18 → c.replay < 2 ^ 64 → c.last < 2 ^ 64 →
        bitsOf (u.word SS.CTX_WIN) 30 2 = c.nbr ∧ bitOf (u.word SS.CTX_WIN) 29 = s.pinned c ∧ bitsOf (u.word SS.CTX_WIN) 24 5 = c.port ∧
        bitsOf (u.word SS.CTX_WIN) 0 18 = c.address ∧ u.pair (SS.CTX_WIN + 8) (SS.CTX_WIN + 12) = c.replay ∧
        u.pair (SS.CTX_WIN + 24) (SS.CTX_WIN + 28) = c.last ∧
        (c.route = none → u.word (SS.CTX_WIN + 16) = 0) ∧
        (∀ r, c.route = some r → r.port < 32 → r.hop < 2 ^ 18 → bitOf (u.word (SS.CTX_WIN + 16)) 31 = true ∧
          bitOf (u.word (SS.CTX_WIN + 16)) 30 = r.manifest ∧ bitsOf (u.word (SS.CTX_WIN + 16)) 25 5 = r.port ∧
          bitsOf (u.word (SS.CTX_WIN + 16)) 0 18 = r.hop)) ∧
      (∀ a, a ≠ SS.CTX_SEL → (∀ k : Fin 48, a ≠ SS.CTX_WIN + 4 * k) → u.word a = s.word a) ∧ Within [.regs] s u)

/-- R185 to R188, R192 to R194. A frame is received as the steps of its reception. -/
def Obligations.ModemsSendAndReceive : Prop :=
  ∀ (s : State) (n : Fin 32), s.powerState ≤ 1 → ∀ m, m = s.modem n → ∀ st, st = SS.PORT_STATUS + 4 * n →
    (∀ (t : TxFrame) (f : SsFrame), s.modemOn n = true → m.waiting = none → m.ackOwed = none → m.head = some t →
      f = { t.frame with seq := if t.sent then t.frame.seq else m.nextSeq, src := s.act SS.NODE_ADDR.addr } →
      ∃ u : State, exec (.ssFrameTransmit n) s = .next u ∧ u.out = s.out ++ [.ssFrame n f f.lineBits] ∧
        (u.modem n).queue = m.queue.eraseP (fun x => x.frame.cls == t.frame.cls) ∧
        (u.modem n).nextSeq = (if t.sent then m.nextSeq else (m.nextSeq + 1) % 256) ∧
        (f.ackReq = true → f.dst < 0x3FFFE → (u.modem n).waiting = some { t with frame := f, sent := true } ∧
          u.word (SS.PORT_CNT_TX_OK + 64 * n) = s.word (SS.PORT_CNT_TX_OK + 64 * n)) ∧
        (f.ackReq = false ∨ 0x3FFFE ≤ f.dst → (u.modem n).waiting = none ∧
          u.rd (SS.PORT_CNT_TX_OK.count.nth n) = min 0xFFFFFFFF (s.rd (SS.PORT_CNT_TX_OK.count.nth n) + 1)) ∧
        (∀ k, k ≠ n.val → u.modem k = s.modem k) ∧ (∀ a, a ≠ st → a ≠ SS.PORT_CNT_TX_OK + 64 * n → u.word a = s.word a) ∧
        Within [.regs, .out, .net] s u) ∧
    (m.waiting = none → exec (.ssAckTimeout n) s = .next s) ∧
    (∀ t : TxFrame, m.waiting = some t →
      (t.tries < s.act SS.MAC_CFG.retry → ∃ u : State, exec (.ssAckTimeout n) s = .next u ∧ u.modem n = { m with waiting := none, queue :=
          { t with tries := t.tries + 1, cw := if t.frame.cls = 3 then t.cw else min (t.cw + 1) (s.act SS.MAC_CFG.cw_max) } :: m.queue } ∧
        u.rd (SS.PORT_CNT_TX_RETRY.count.nth n) = min 0xFFFFFFFF (s.rd (SS.PORT_CNT_TX_RETRY.count.nth n) + 1) ∧
        (∀ a, a ≠ st → a ≠ SS.PORT_CNT_TX_RETRY + 64 * n → u.word a = s.word a) ∧ Within [.regs, .net] s u) ∧
      (s.act SS.MAC_CFG.retry ≤ t.tries → ∃ u : State, exec (.ssAckTimeout n) s = .next u ∧ u.modem n = { m with waiting := none } ∧
        u.rd (SS.PORT_STATUS.last_fail.nth n) = 1 ∧ u.pend 200 = true ∧
        u.rd (SS.PORT_CNT_TX_FAIL.count.nth n) = min 0xFFFFFFFF (s.rd (SS.PORT_CNT_TX_FAIL.count.nth n) + 1) ∧
        Changes [st, SS.PORT_CNT_TX_FAIL + 64 * n, SS.CAUSE] [.net, .messages] s u)) ∧
    (∀ t : TxFrame, m.head = some t → m.waiting = none → ∃ u : State, exec (.ssBusyTimeout n) s = .next u ∧
      u.modem n = { m with queue := m.queue.eraseP (fun x => x.frame.cls == t.frame.cls) } ∧
      u.rd (SS.PORT_STATUS.last_fail.nth n) = 2 ∧ u.pend 200 = true ∧
      u.rd (SS.PORT_CNT_TX_FAIL.count.nth n) = min 0xFFFFFFFF (s.rd (SS.PORT_CNT_TX_FAIL.count.nth n) + 1) ∧
      Changes [st, SS.PORT_CNT_TX_FAIL + 64 * n, SS.CAUSE] [.net, .messages] s u) ∧
    (∀ dst seq, m.ackOwed = some (dst, seq) → ∀ f : SsFrame, f = ⟨0, false, false, false, true, dst, s.act SS.NODE_ADDR.addr, seq, []⟩ →
      ∃ u : State, exec (.ackTx n) s = .next u ∧ u.out = s.out ++ [.ssFrame n f f.lineBits] ∧ u.modem n = { m with ackOwed := none } ∧
        (∀ a, a ≠ st → u.word a = s.word a) ∧ Within [.regs, .out, .net] s u) ∧
    (s.modemOn n = true → m.ackOwed = none →
      (∃ u : State, exec (.ssPreambleTimeout n) s = .next u ∧ u.modem n = m ∧
        u.rd (SS.PORT_CNT_FALSE_PRE.count.nth n) = min 0xFFFFFFFF (s.rd (SS.PORT_CNT_FALSE_PRE.count.nth n) + 1) ∧
        (∀ a, a ≠ SS.PORT_CNT_FALSE_PRE + 64 * n → u.word a = s.word a) ∧ Within [.regs] s u) ∧
      (∀ (f : RxFrame) (x : SsFrame) (steps : List RxStep), x = frameOf f.header f.payload → s.clk.wheelOn = true →
        steps = [.sync f, .headerEnd, .payloadEnd] → ∃ u : State, exec (.ssFrameReceived n steps) s = .next u ∧
        (s.act SS.RX_CFG.sync_tol < f.syncErrors → u.net = s.net ∧ (∀ a, a ≠ st → u.word a = s.word a)) ∧
        (f.syncErrors ≤ s.act SS.RX_CFG.sync_tol → ∀ bad : Prop, bad = (2 < f.headerErrors ∨ headerGood f.header = false) →
          (bad → u.net = s.net ∧ (∀ a, a ≠ st → a ≠ SS.PORT_CNT_HDR_FAIL + 64 * n → u.word a = s.word a) ∧
            u.rd (SS.PORT_CNT_HDR_FAIL.count.nth n) = min 0xFFFFFFFF (s.rd (SS.PORT_CNT_HDR_FAIL.count.nth n) + 1)) ∧
          (¬bad → s.forUs n f.header = false → u.net = s.net ∧ (∀ a, a ≠ st → u.word a = s.word a)) ∧
          (¬bad → s.forUs n f.header = true → headerField f.header 48 8 ≠ 0 →
            ((∃ e ∈ f.wordErrors, 4 < e) → u.net = s.net ∧
              u.rd (SS.PORT_CNT_RS_FAIL.count.nth n) = min 0xFFFFFFFF (s.rd (SS.PORT_CNT_RS_FAIL.count.nth n) + 1)) ∧
            ((∀ e ∈ f.wordErrors, e ≤ 4) → x.ack = false → ∀ owed, owed = (if x.ackReq = true ∧ x.dst = s.act SS.NODE_ADDR.addr
                then some (x.src, x.seq) else none) →
              ((x.src, x.seq + 1) ∈ m.lastSeq → u.modem n = { m with ackOwed := owed } ∧
                u.rd (SS.PORT_CNT_RX_OK.count.nth n) = min 0xFFFFFFFF (s.rd (SS.PORT_CNT_RX_OK.count.nth n) + 1)) ∧
              ((x.src, x.seq + 1) ∉ m.lastSeq → 4 ≤ m.rx.length → u.net = s.net ∧ bitOf (u.word SS.CAUSE) 1 = true ∧ u.pend 201 = true ∧
                u.rd (SS.PORT_CNT_RX_OVERRUN.count.nth n) = min 0xFFFFFFFF (s.rd (SS.PORT_CNT_RX_OVERRUN.count.nth n) + 1)) ∧
              ((x.src, x.seq + 1) ∉ m.lastSeq → m.rx.length < 4 → (u.modem n).ackOwed = owed ∧
                (u.modem n).rx = m.rx ++ [⟨n, x, f.rssi, f.headerErrors, f.wordErrors.sum, s.now⟩] ∧
                u.rd (SS.PORT_CNT_RX_OK.count.nth n) = min 0xFFFFFFFF (s.rd (SS.PORT_CNT_RX_OK.count.nth n) + 1))))) ∧
        Within (records ++ [.net]) s u) ∧
      (∀ f g : RxFrame, f.syncErrors ≤ s.act SS.RX_CFG.sync_tol → g.syncErrors ≤ s.act SS.RX_CFG.sync_tol →
        s.act SS.RX_CFG.capture_db ≠ 0 → ∃ u : State, exec (.ssFrameReceived n [.sync f, .sync g]) s = .next u ∧ u.net = s.net ∧
          (f.rssi + 2 * s.act SS.RX_CFG.capture_db ≤ g.rssi →
            u.rd (SS.PORT_CNT_CAPTURE.count.nth n) = min 0xFFFFFFFF (s.rd (SS.PORT_CNT_CAPTURE.count.nth n) + 1)) ∧
          (g.rssi < f.rssi + 2 * s.act SS.RX_CFG.capture_db →
            u.word (SS.PORT_CNT_CAPTURE + 64 * n) = s.word (SS.PORT_CNT_CAPTURE + 64 * n))))

/-- R192 to R194, R419. -/
def Obligations.SleepReception : Prop :=
  ∀ (s : State) (n : Fin 32),
    (s.powerState ≤ 1 → exec (.energyDetect n) s = .next s) ∧
    (s.powerState = 2 → s.modemEnabled n = true → s.net.oscOn = false → exec (.energyDetect n) s =
      .next { s with net := { s.net with oscStarting := true } }) ∧
    (s.net.oscStarting = false → exec .oscillatorReady s = .next s ∧ exec .oscillatorStartFail s = .next s) ∧
    (s.net.oscStarting = true → exec .oscillatorReady s =
        .next { s with net := { s.net with oscStarting := false, oscOn := true, oscFails := 0 } } ∧
      (s.net.oscFails < 2 → exec .oscillatorStartFail s =
        .next { s with net := { s.net with oscStarting := false, oscFails := s.net.oscFails + 1 } }) ∧
      (2 ≤ s.net.oscFails → ∃ u : State, exec .oscillatorStartFail s = .next u ∧
        u.net = { s.net with oscStarting := false, oscFails := 0 } ∧ u.rd SS.SLEEP_STATUS.osc_fail = 1 ∧
        bitOf (u.word SS.CAUSE) 5 = true ∧ u.pend 205 = true ∧ Changes [SS.SLEEP_STATUS, SS.CAUSE] [.net] s u)) ∧
    (∀ (f : RxFrame) (x : SsFrame), s.powerState = 2 → s.modemOn n = true → (s.modem n).ackOwed = none → x = frameOf f.header f.payload →
      f.syncErrors ≤ s.act SS.RX_CFG.sync_tol → f.headerErrors ≤ 2 → headerGood f.header = true → (∀ e ∈ f.wordErrors, e ≤ 4) →
      headerField f.header 48 8 ≠ 0 → x.dst = s.act SS.NODE_ADDR.addr → x.dst ≠ 0 → x.dst < 0x3FFFE →
      ∃ u : State, exec (.ssFrameReceived n [.sync f, .headerEnd, .payloadEnd]) s = .next u ∧ (u.modem n).ackOwed = none ∧
        u.rd (SS.PORT_CNT_RX_OK.count.nth n) = min 0xFFFFFFFF (s.rd (SS.PORT_CNT_RX_OK.count.nth n) + 1) ∧
        (s.net.sleepQueue.length < 32 → u.net.sleepQueue = s.net.sleepQueue ++ [⟨n, x, f.rssi, f.headerErrors, f.wordErrors.sum, s.now⟩] ∧
          u.rd SS.SLEEP_STATUS.depth = s.net.sleepQueue.length + 1 ∧ u.rd SS.SLEEP_STATUS.wake_req = 1 ∧
          bitOf (u.word SS.CAUSE) 3 = true ∧ u.pend 203 = true) ∧
        (32 ≤ s.net.sleepQueue.length → u.net.sleepQueue = s.net.sleepQueue ∧ bitOf (u.word SS.CAUSE) 2 = true ∧ u.pend 202 = true ∧
          u.rd SS.SLEEP_STATUS.dropped = min 0xFFFF (s.rd SS.SLEEP_STATUS.dropped + 1)) ∧
        Within (records ++ [.net, .power]) s u)

/-- R338 to R346. -/
def Obligations.DmaBurstsMoveDescriptors : Prop :=
  ∀ (s : State) (r : Fin 64) (d : Desc) (rest : List Desc) (w : DescWords), (s.ring r).descs = d :: rest → s.descWords d = some w → d.index < 2 ^ 16 →
    ∀ off va st, off = (s.ring r).issued → va = w.va + off → st = DMA.RING_STATUS + 64 * r →
    ∀ stops : State → Nat → Nat → Nat → Nat → Prop, stops = (fun u kind dir level at' =>
      u.ringState r = 4 ∧ u.rd (DMA.FAULT_INFO.kind.nth r) = kind ∧ u.rd (DMA.FAULT_INFO.dir.nth r) = dir ∧
      u.rd (DMA.FAULT_INFO.level.nth r) = level ∧ u.rd (DMA.FAULT_INFO.index.nth r) = d.index ∧
      u.pair (DMA.FAULT_VA + 64 * r) (DMA.FAULT_VA_HI + 64 * r) = at' % 2 ^ 64 ∧
      u.rd (DMA.FAULT_CNT.count.nth r) = min 0xFFFFFFFF (s.rd (DMA.FAULT_CNT.count.nth r) + 1) ∧
      bitOf (u.word (DMA.FAULT_CAUSE + 4 * (r.val / 32))) (r.val % 32) = true ∧ u.pend 224 = true ∧ u.sram = s.sram) →
    ((∀ q : Fin 64, q ≠ r → s.ringOn q = false) → (∀ c, c < 3 → s.exportsDma c = false) → s.ringOn r = true → s.ringState r = 2 →
      d.started = true → s.pcie.linkUp = true → s.awake = true →
      (w.malformed = false → off < w.length →
        (s.vaInWindow va = false → ∃ u : State, exec .dmaBurst s = .next u ∧ stops u 3 (bitNat w.toSram) 0 va) ∧
        (s.vaInWindow va = true → s.tlbHit va = none → ∃ u : State, exec .dmaBurst s = .next u ∧ u.ringState r = 5 ∧
          (∀ q : Fin 64, u.ring q = s.ring q) ∧ Changes [st] [.dma] s u) ∧
        (∀ t, s.vaInWindow va = true → s.tlbHit va = some t →
          (t.permits w.toSram = false → ∃ u : State, exec .dmaBurst s = .next u ∧ stops u 2 (bitNat w.toSram) (bitNat (!t.big)) va) ∧
          (∀ n, t.permits w.toSram = true → n = min (256 - va % 256) (w.length - off) →
            (w.toSram = true → s.dma.reads.length < 16 → ∃ u : State, exec .dmaBurst s = .next u ∧
              u.out = s.out ++ [.hostRead (t.translate va) n] ∧ u.dma.reads = s.dma.reads ++ [⟨r, d.index, w.sram + off, off, n, va⟩] ∧
              u.ring r = { s.ring r with issued := off + n } ∧ u.sram = s.sram ∧ u.dma.tlb.head? = some t ∧ Changes [st] [.dma] s u) ∧
            (∀ a, w.toSram = false → d.src = .sram a → s.anyMarked (w.sram + off) n = false →
              (off + n < w.length → ∃ (u : State) (l : List Output), exec .dmaBurst s = .next u ∧
                u.out = s.out ++ .hostWrite (t.translate va) (s.bytesAt (w.sram + off) n) :: l ∧
                u.ring r = { s.ring r with issued := off + n } ∧ u.ringPos r = (off + n) % 2 ^ 24 ∧ u.sram = s.sram ∧
                Changes [st, DMA.RING_POS + 64 * r] [.dma] s u) ∧
              (∀ e j, off + n = w.length → s.hostRing r = false → w.irq = false → d.use = .job e → s.job e = some j → j.detach = false →
                ∃ (u : State) (l : List Output), exec .dmaBurst s = .next u ∧
                  u.out = s.out ++ .hostWrite (t.translate va) (s.bytesAt (w.sram + off) n) :: l ∧
                  (u.ring r).descs = rest ∧ u.rd (DMA.RING_STATUS.cons.nth r) = (d.index + 1) % 2 ^ 16 ∧ u.ringPos r = 0 ∧
                  u.wordAt (a + 20) = 0x80000000 ∧ (∀ b, b < a + 20 ∨ a + 24 ≤ b → u.byteAt b = s.byteAt b) ∧
                  u.job e = some { j with status := some 0, started := true } ∧
                  Changes [st, DMA.RING_POS + 64 * r] [.dma, .sram, .seq] s u))))) ∧
      (∀ a e j status kind, (w.malformed = true ∧ status = 2 ∧ kind = 7 ∨ w.malformed = false ∧ w.length = 0 ∧ status = 1 ∧ kind = 0) →
        rest = [] → d.src = .sram a → s.hostRing r = false → w.irq = false → d.use = .job e → s.job e = some j → j.detach = false →
        ∃ u : State, exec .dmaBurst s = .next u ∧ (u.ring r).descs = [] ∧ u.ringState r = 1 ∧
          u.wordAt (a + 20) = BitVec.ofNat 32 (2 ^ 31 + 16 * kind + status) ∧ (∀ b, b < a + 20 ∨ a + 24 ≤ b → u.byteAt b = s.byteAt b) ∧
          u.job e = some { j with status := some status, started := true } ∧ u.out = s.out)) ∧
    (∀ q : ReadReq, s.dma.reads = [q] → q.ring = r → q.index = d.index → s.ringOn r = true →
      (s.ringState r ≠ 4 → ∃ u : State, exec (.dmaReadCompletion 0 .error) s = .next u ∧ u.dma.reads = [] ∧
        (u.ring r).issued = min off q.offset ∧ u.ringPos r = min off q.offset % 2 ^ 24 ∧ stops u 6 1 0 q.va) ∧
      (∀ bytes a, bytes.length = q.len → d.src = .sram a → a + 32 ≤ q.sram ∨ q.sram + q.len ≤ a → s.dma.marked = [] →
        off < w.length → off < 2 ^ 24 → ∃ u : State, exec (.dmaReadCompletion 0 (.data bytes)) s = .next u ∧ u.dma.reads = [] ∧
          u.bytesAt q.sram q.len = bytes ∧ (∀ b, b < q.sram ∨ q.sram + q.len ≤ b → u.byteAt b = s.byteAt b) ∧ u.ringPos r = off ∧
          Changes [DMA.RING_POS + 64 * r] [.dma, .sram] s u)) ∧
    (s.walkRing = some r.val → (s.dma.rewalk = true → exec .tlbWalkDone s = .next { s with dma := { s.dma with rewalk := false } }) ∧
      (∀ a e, s.dma.rewalk = false → a = s.rd DMA.MMU_CFG.l1_base * 4096 + 8 * ((va - s.vaBase) / 2 ^ 21) → s.anyMarked a 8 = false →
        e = numLE (s.bytesAt a 8) →
        (e % 2 = 0 → ∃ u : State, exec .tlbWalkDone s = .next u ∧ stops u 1 (bitNat w.toSram) 0 va) ∧
        (∀ t : TlbEntry, e % 4 = 3 → e / 16 % 256 = 0 → e / 4096 * 4096 % 2 ^ 21 = 0 →
          t = ⟨va / 2 ^ 21 * 2 ^ 21, true, e / 4096 * 4096, decide (e / 4 % 2 = 1), decide (e / 8 % 2 = 1)⟩ →
          (t.permits w.toSram = true → ∃ u : State, exec .tlbWalkDone s = .next u ∧ u.dma.tlb.head? = some t ∧ u.dma.tlb.length ≤ 256 ∧
            u.ringState r = 2 ∧ Changes [st] [.dma] s u) ∧
          (t.permits w.toSram = false → ∃ u : State, exec .tlbWalkDone s = .next u ∧ stops u 2 (bitNat w.toSram) 0 va))))

/-- R333, R334, R336, R342, R347, R389. -/
def Obligations.DmaControlAndScrubbing : Prop :=
  ∀ (s : State),
    (∀ (r : Fin 64) (p : BitVec 16), s.gate (DMA.RING_PROD + 64 * r) false = .served →
      (s.ringOn r = false ∨ s.hostRing r = false → ∃ u : State, exec (.ringProdWrite r p) s = .next u ∧
        u.rd (DMA.RING_PROD.prod.nth r) = p.toNat ∧ (∀ a, a ≠ DMA.RING_PROD + 64 * r → u.word a = s.word a) ∧ Within [.regs] s u) ∧
      (∀ g, g = s.ring r → s.ringOn r = true → s.hostRing r = true → g.posted < 2 ^ 16 → p.toNat = (g.posted + 1) % 2 ^ 16 →
        g.descs.length < s.rd (DMA.RING_CFG.size.nth r) → ∃ u : State, exec (.ringProdWrite r p) s = .next u ∧
          u.ring r = { g with posted := p.toNat, descs := g.descs ++ [⟨.sram (s.rd (DMA.RING_BASE.base.nth r) * 32 +
            32 * (g.posted % s.rd (DMA.RING_CFG.size.nth r))), .host, g.posted, false, false⟩] } ∧
          (s.ringState r = 1 → u.ringState r = 2) ∧ (s.ringState r ≠ 1 → u.ringState r = s.ringState r) ∧
          (∀ q : Fin 64, q ≠ r → u.ring q = s.ring q) ∧
          (∀ a, a ≠ DMA.RING_PROD + 64 * r → a ≠ DMA.RING_STATUS + 64 * r → u.word a = s.word a) ∧ Within [.regs, .dma] s u)) ∧
    (∀ r : Fin 64, s.gate (DMA.RING_CMD + 64 * r) false = .served →
      (s.ringState r ≠ 4 → exec (.resume r) s = .next s ∧ exec (.abort r) s = .next s) ∧
      (s.ringState r = 4 →
        (∃ u : State, exec (.resume r) s = .next u ∧ u.ringState r = 2 ∧ (∀ a, a ≠ DMA.RING_STATUS + 64 * r → u.word a = s.word a) ∧
          Within [.regs] s u) ∧
        (∀ d rest a, (s.ring r).descs = d :: rest → d.src = .sram a → d.use = .host → s.hostRing r = false →
          (∀ w, s.descWords d = some w → w.irq = false) → ∃ u : State, exec (.abort r) s = .next u ∧ (u.ring r).descs = rest ∧
            u.ringState r = 2 ∧ u.rd (DMA.RING_STATUS.cons.nth r) = (d.index + 1) % 2 ^ 16 ∧ u.ringPos r = 0 ∧
            u.wordAt (a + 20) = BitVec.ofNat 32 (2 ^ 31 + 16 * 9 + 2) ∧ (∀ b, b < a + 20 ∨ a + 24 ≤ b → u.byteAt b = s.byteAt b) ∧
            (∀ q : Fin 64, q ≠ r → u.ring q = s.ring q) ∧
            (∀ x, x ≠ DMA.RING_STATUS + 64 * r → x ≠ DMA.RING_POS + 64 * r → u.word x = s.word x) ∧ Within [.regs, .sram, .dma] s u))) ∧
    (s.gate DMA.MMU_INV false = .served →
      (s.wcLevel (wcKey DMA.MMU_INV 0) = 0 → ∃ u : State, exec .invOne s = .next u ∧ u.wcLevel (wcKey DMA.MMU_INV 0) = 1 ∧
        u.dma.tlb = s.dma.tlb.filter (fun t => !t.covers s.invVa) ∧ u.dma.rings = s.dma.rings ∧ Within [.host, .dma] s u) ∧
      (s.wcLevel (wcKey DMA.MMU_INV 1) = 0 → ∃ u : State, exec .invAll s = .next u ∧ u.wcLevel (wcKey DMA.MMU_INV 1) = 1 ∧
        u.dma.tlb = [] ∧ u.dma.rings = s.dma.rings ∧ Within [.host, .dma] s u)) ∧
    (s.wcLevel (wcKey DMA.MMU_INV 0) = 0 → s.wcLevel (wcKey DMA.MMU_INV 1) = 0 → exec .invalidateDone s = .next s) ∧
    (s.wcLevel (wcKey DMA.MMU_INV 0) = 1 → (∀ q ∈ s.dma.reads, q.va / 2 ^ 21 ≠ s.invVa / 2 ^ 21) →
      ∃ u : State, exec .invalidateDone s = .next u ∧ u.wcLevel (wcKey DMA.MMU_INV 0) = 0 ∧ u.pend 227 = true ∧ Changes [] [.host] s u) ∧
    (s.wcLevel (wcKey DMA.MMU_INV 0) = 0 → s.wcLevel (wcKey DMA.MMU_INV 1) = 1 →
      (s.dma.reads ≠ [] → exec .invalidateDone s = .next s) ∧
      (s.dma.reads = [] → ∃ u : State, exec .invalidateDone s = .next u ∧ u.wcLevel (wcKey DMA.MMU_INV 1) = 0 ∧ u.pend 227 = true ∧
        Changes [] [.host] s u)) ∧
    (∀ (b : Fin 16) k, k = sget (fun _ => 0) s.dma.scrub b → s.clk.wheelOn = true → k < 131071 → ∀ a, a = b.val * 0x80000 + 4 * k →
      ∀ found, ∃ u : State, exec (.scrubAccess b found) s = .next u ∧ sget (fun _ => 0) u.dma.scrub b = k + 1 ∧
        (∀ c : Fin 16, c ≠ b → sget (fun _ => 0) u.dma.scrub c = sget (fun _ => 0) s.dma.scrub c) ∧
        (found = .good → u.dma = { s.dma with scrub := u.dma.scrub } ∧ u.word DMA.ECC_STATUS = s.word DMA.ECC_STATUS) ∧
        (found = .corrected → u.rd DMA.ECC_STATUS.corr = min 0xFFFF (s.rd DMA.ECC_STATUS.corr + 1) ∧ u.dma.corrected = true ∧
          u.dma.marked = s.dma.marked) ∧
        (found = .uncorrectable → s.isMarked a = false → u.dma.marked = s.dma.marked ++ [a] ∧ u.word DMA.ECC_ADDR = BitVec.ofNat 32 a ∧
          u.rd DMA.ECC_STATUS.uncorr = min 0xFF (s.rd DMA.ECC_STATUS.uncorr + 1) ∧ u.pend 229 = true) ∧
        (found = .uncorrectable → s.isMarked a = true → u.dma = { s.dma with scrub := u.dma.scrub }) ∧
        Changes [DMA.ECC_STATUS, DMA.ECC_ADDR] [.dma] s u) ∧
    (s.started = true → s.powerState ≤ 2 → ∃ u : State, exec (.logScrubAccess []) s = .next u ∧
      u.logs = { s.logs with scrubPos := (s.logs.scrubPos + 64) % 524288 } ∧ Within [.logs] s u)

/-- R381, R386, R388 to R393. -/
def Obligations.LogsAreServedAndExported : Prop :=
  ∀ (s : State),
    (∀ e : Fin 256, ∀ due : Bool, due = (s.arrayBit EVT.PBA e && s.pend e && s.msixOpen e) →
      (due = false → exec (.msixHeldSend e) s = .next s) ∧
      (due = true → ∃ (u : State) (l : List Output), exec (.msixHeldSend e) s = .next u ∧
        u.out = s.out ++ .msix e (s.rd (EVT.MSIX_ADDR_LO.lo.nth e) + 2 ^ 32 * s.rd (EVT.MSIX_ADDR_HI.hi.nth e))
          (s.word (EVT.MSIX_DATA + 16 * e)) :: l ∧ (e ≠ 248 → u.arrayBit EVT.PBA e = false) ∧ u.pend e = true ∧ Changes [] [] s u)) ∧
    (∀ q : Word, s.gate LOG.ALARM_ACK false = .served → ∃ u : State, exec (.alarmAckWrite q) s = .next u ∧ u.word LOG.ALARM_ACK = q ∧
      u.logs = { s.logs with alarm := s.logs.alarm.map (fun r => if r.seq ≤ q.toNat then { r with isOpen := false } else r) } ∧
      (∀ a, a ≠ LOG.ALARM_ACK → u.word a = s.word a) ∧ Within [.regs, .logs] s u) ∧
    (∀ (c : Fin 3) (i : BitVec 16), s.gate (LOG.EXP_RD + 32 * c) false = .served → ∃ u : State, exec (.expRdWrite c i) s = .next u ∧
      u.rd (LOG.EXP_RD.idx.nth c) = i.toNat ∧ (u.exp c).inFlight = (s.exp c).inFlight ∧
      (u.exportHeld c = false → (u.exp c).stalled = false) ∧ (u.exportHeld c = true → (u.exp c).stalled = (s.exp c).stalled) ∧
      (∀ a, a ≠ LOG.EXP_RD + 32 * c → u.word a = s.word a) ∧ Within [.regs, .logs] s u) ∧
    (∀ c : Fin 3, (s.exportHeld c = false ∨ (s.exp c).stalled = true → exec (.exportStallTimeout c) s = .next s) ∧
      (s.exportHeld c = true → (s.exp c).stalled = false → ∃ u : State, exec (.exportStallTimeout c) s = .next u ∧
        (u.exp c).stalled = true ∧ bitOf (u.word LOG.CAUSE) 5 = true ∧ u.pend 221 = true ∧ Changes [] [] s u)) ∧
    (s.logs.heldAlarm = [] → s.logs.traceDrop = none →
      (s.logs.heldAudit = [] → exec .logRecordsFreed s = .next s) ∧
      (∀ h, s.logs.heldAudit = [h] → 0 < s.auditFree → s.logs.audit.length < 32768 → ∃ (u : State) (r : AuditRec),
        exec .logRecordsFreed s = .next u ∧ u.logs.heldAudit = [] ∧ u.logs.audit = s.logs.audit ++ [r] ∧ r.typ = h.typ ∧
        r.count = h.count ∧ r.subject = h.subject ∧ r.detail = h.detail ∧ r.time = h.time ∧ u.chain.seq = s.chain.seq + 1 ∧
        Changes [TST.STATUS] [.chain, .signing] s u)) ∧
    (∀ (c : Fin 4) (q : Word) (l : RecLatch), l = s.latchOf c q.toNat → s.gate LOG.REC_SEL false = .served →
      (∃ u : State, exec (.mmd31LoadRecord c q) s = .next u ∧ u.logs = { s.logs with mmdClass := c, mmdLow := q.toNat % 65536, mmdLatch := l } ∧
        Within [.logs] s u) ∧
      (∀ b bad, s.recordOf c q.toNat = some (b, bad) → l.valid = true ∧ l.bytes = b ∧ l.bad = bad ∧ l.notYet = false ∧ l.overwritten = false) ∧
      (s.recordOf c q.toNat = none → l.valid = false ∧ l.bytes = [] ∧ l.overwritten = !l.notYet) ∧
      (s.recordOf c q.toNat = none → c < 3 → q ≠ 0 → l.notYet = decide (s.posNewest c < q.toNat)) ∧
      (c = s.rd LOG.REC_SEL.class → ∃ u : State, exec (.recSelWrite q) s = .next u ∧ u.logs = { s.logs with recLatch := l } ∧
        u.word LOG.REC_SEL_SEQ = q ∧
        (∀ k : Fin 8, u.word (LOG.REC_WIN + 4 * k) = BitVec.ofNat 32 (numBE ((l.bytes.drop (4 * k)).take 4))) ∧
        (∀ a, a ≠ LOG.REC_SEL_SEQ → (∀ k : Fin 8, a ≠ LOG.REC_WIN + 4 * k) → u.word a = s.word a) ∧ Within [.regs, .logs] s u) ∧
      (∃ u : State, exec (.mmd31Acknowledge c q) s = .next u ∧
        (s.rd (LOG.EXP_CFG.path.nth 0) = 1 → s.flag (LOG.EXP_CFG.enable.nth 0) = true → c = 0 →
          s.logs.audit.Pairwise (fun x y => x.seq < y.seq) → u.logs.audit = s.logs.audit.map (fun r => if r.seq ≤ q.toNat then { r with exported := true } else r)) ∧
        (c = 1 → u.word LOG.ALARM_ACK = q ∧ ∀ r ∈ u.logs.alarm, r.seq ≤ q.toNat → r.isOpen = false) ∧
        Changes [LOG.ALARM_ACK, TST.STATUS] [] s u)) ∧
    (∀ n : Fin 32, s.gate LOG.REC_SEL false = .served → ∃ u : State, exec (.mmd31LastWordRead n) s = .next u ∧
      u.out = s.out ++ [.mdioData n 31 0x1F (s.logs.mmdLatch.half 15)] ∧
      u.logs.mmdLatch = s.latchOf s.logs.mmdLatch.cls ((s.logs.mmdLatch.seq + 1) % 2 ^ 32) ∧ Within [.out, .logs] s u) ∧
    (s.summaryNow = false → exec .ssLogSummaryDue s = .next s) ∧
    (s.summaryNow = true → ∃ (u : State) (m : SsMsg), exec .ssLogSummaryDue s = .next u ∧ u.messages = s.messages ++ [m] ∧ m.mtype = 9 ∧
      m.cls = 1 ∧ m.dest = s.rd LOG.SS_CFG.dest ∧ m.body = s.summaryBody ∧
      u.logs = { s.logs with stats := [], summaryDue := false, summaryAge := 0 } ∧ Within [.logs, .messages] s u) ∧
    (∀ r, s.started = true → s.powerState ≤ 2 → s.logs.scrubPos = 0 → s.logs.audit = [r] → r.seq = 1 →
      ∃ u : State, exec (.logScrubAccess [2]) s = .next u ∧ u.logs.audit = [{ r with badWords := r.badWords ||| 4 }] ∧
        (r.badWords = 0 → u.rd LOG.ECC_CNT.count = min (2 ^ LOG.ECC_CNT.count.width - 1) (s.rd LOG.ECC_CNT.count + 1) ∧
          bitOf (u.word LOG.CAUSE) 6 = true ∧ u.pend 222 = true) ∧ Changes [LOG.ECC_CNT] [] s u)

/-- R42, R45. `A` is the byte offset. -/
def Obligations.ByteEnablesDecideEachAccess : Prop :=
  ∀ (s : State) (a : BitVec 24) (be : BitVec 4) (A : Nat), A = 4 * a.toNat →
    (∀ v f, exec (.hostRegisterWrite a [(0, v)] f) s = .next s) ∧
    (s.gate A true = .served ∨ s.gate A true = .absent →
      (be = 0 → ∃ u : State, exec (.rcRead a [be]) s = .next u ∧ u.out = s.out ++ [.readData A (Config.freeWord s.freeCount)] ∧
        u.freeCount = s.freeCount + 1 ∧ Within [.out, .freeCount] s u) ∧
      (be.toNat ∉ [0, 1, 2, 4, 8, 3, 12, 15] → ∃ u : State, exec (.rcRead a [be]) s = .next u ∧
        u.out.getLast? = some (.completerAbort A) ∧ u.pend 216 = true ∧
        u.rd CHIP.BUSERR_STATUS.count = min 0xFFFF (s.rd CHIP.BUSERR_STATUS.count + 1) ∧
        (s.host.busFresh = true → u.rd CHIP.BUSERR_STATUS.cause = 1 ∧ u.rd CHIP.BUSERR_ADDR.addr = A) ∧
        (s.host.busFresh = false → u.rd CHIP.BUSERR_STATUS.cause = s.rd CHIP.BUSERR_STATUS.cause ∧
          u.word CHIP.BUSERR_ADDR = s.word CHIP.BUSERR_ADDR) ∧
        Changes [CHIP.BUSERR_STATUS, CHIP.BUSERR_ADDR] [.host] s u)) ∧
    (s.gate A false = .served ∨ s.gate A false = .absent → be.toNat ∉ [0, 1, 2, 4, 8, 3, 12, 15] → ∀ v f, ∃ u : State,
      exec (.hostRegisterWrite a [(be, v)] f) s = .next u ∧ u.pend 216 = true ∧
      u.rd CHIP.BUSERR_STATUS.count = min 0xFFFF (s.rd CHIP.BUSERR_STATUS.count + 1) ∧
      (s.host.busFresh = true → u.rd CHIP.BUSERR_STATUS.cause = 1 ∧ u.rd CHIP.BUSERR_ADDR.addr = A) ∧
      Changes [CHIP.BUSERR_STATUS, CHIP.BUSERR_ADDR] [.host] s u) ∧
    (s.gate A true = .served → be.toNat ∈ [1, 2, 4, 8, 3, 12, 15] →
      (0x1000000 ≤ A → A < 0x1800000 → ∃ u : State, exec (.rcRead a [be]) s = .next u ∧ Within [.out] s u ∧
        u.out = s.out ++ [.readData A ((if s.isMarked (A % 0x1000000) then 0xFFFFFFFF else s.wordAt (A % 0x1000000)) &&&
          BitVec.ofNat 32 (byteMask be))]) ∧
      ((homeOf A).isSome = true → ∀ b, b = beforeRead A s → ∃ u : State, exec (.rcRead a [be]) s = .next u ∧
        u.out.getLast? = some (.readData A ((if 4 ≤ A ∧ pairLow (A - 4) = true then (b.latch 0 A).getD (b.view A) else b.view A) &&&
          BitVec.ofNat 32 (byteMask be))) ∧
        (recordArea A = false → u.word A = b.word A &&& ~~~ BitVec.ofNat 32 (rcBits A &&& byteMask be)) ∧
        (rcBits A ≠ 0 → ∀ k < 32, bitOf (b.word A) k = true → bitOf (BitVec.ofNat 32 (byteMask be)) k = false → bitOf (u.word A) k = true) ∧
        (∀ e < 256, e ≠ 248 → A = EVT.PEND + 4 * (e / 32) → bitOf (BitVec.ofNat 32 (byteMask be)) (e % 32) = true → u.pend e = false) ∧
        Changes [A] [.host] b u))

/-- R34. -/
def Obligations.PendingBankIgnoresWrites : Prop :=
  ∀ (s : State) (b : Block) (off A : Nat) (r : RegDef) (v : Word) (x : WriteSide), homeOf A = some (.reg b off r) →
    b.doubleBuffered = true → ∀ ign : State → Prop,
    ign = (fun u => u.word A = (if b.bankStatus = some A then s.word A ||| 0x10000 else s.word A) ∧ u.bankPending b = true ∧
      u.rd CHIP.IGN_WRITE_STATUS.count = min 0xFFFF (s.rd CHIP.IGN_WRITE_STATUS.count + 1) ∧
      (s.host.ignFresh = true → u.rd CHIP.IGN_WRITE_STATUS.reason = 2 ∧ u.rd CHIP.IGN_WRITE_ADDR.addr = A) ∧
      (s.host.ignFresh = false → u.rd CHIP.IGN_WRITE_STATUS.reason = s.rd CHIP.IGN_WRITE_STATUS.reason ∧
        u.word CHIP.IGN_WRITE_ADDR = s.word CHIP.IGN_WRITE_ADDR) ∧
      (∀ st, b.bankStatus = some st → u.word st = s.word st ||| 0x10000) ∧ u.host = { s.host with ignFresh := false } ∧
      Changes ([CHIP.IGN_WRITE_STATUS, CHIP.IGN_WRITE_ADDR] ++ b.bankStatus.toList) [.host] s u) →
    (s.bankPending b = true → r.hasRW = true ∨ b.commitAt = some A ∧ v = 1 →
      s.sealed = false → (∀ w, ign (writeReg w A v x s)) ∧
      (∀ a : BitVec 24, A = 4 * a.toNat → s.gate A false = .served → ∀ f, ∃ u : State,
        exec (.hostRegisterWrite a [(15, v)] f) s = .next u ∧ ign u)) ∧
    (s.bankPending b = true → r.hasRW = true → (∀ w : Writer, w.isHost = false → ign (writeReg w A v x s))) ∧
    (s.bankPending b = false → b.commitAt = some A → s.sealed = false → ∀ a : BitVec 24, A = 4 * a.toNat → s.gate A false = .served →
      ∀ f, ∃ u : State, exec (.hostRegisterWrite a [(15, 1)] f) s = .next u ∧ u.bankPending b = true ∧
        Changes b.bankCtrl.toList [] s u)

/-- R44. `b` is the state with LPI_US brought up to the cycle of the read. -/
def Obligations.CounterPairsReadConsistently : Prop :=
  ∀ (s : State) (a : BitVec 24) (A : Nat), A = 4 * a.toNat → ∀ b, b = beforeRead A s →
    exec (.counterLowRead a) s = exec (.rcRead a [15]) s ∧
    (s.gate A true = .served → pairLow A = true →
      (A % 8 = 0 → ∃ (u : State) (l : _), exec (.rcRead a [15, 15]) s = .next u ∧
        u.out = l ++ [.readData A (b.view A), .readData (A + 4) (b.view (A + 4))] ∧ u.host = s.host ∧ Changes [] [.lpi] b u) ∧
      (∃ u : State, exec (.counterLowRead a) s = .next u ∧ u.out.getLast? = some (.readData A (b.view A)) ∧
        u.latch 0 (A + 4) = some (b.view (A + 4)) ∧ (∀ k, k ≠ A + 4 → u.latch 0 k = s.latch 0 k) ∧
        u.host = { s.host with latches := u.host.latches } ∧ Changes [] [.host] b u)) ∧
    (s.gate A true = .served → 4 ≤ A → pairLow (A - 4) = true → ∀ v, s.latch 0 A = some v →
      ∃ u : State, exec (.rcRead a [15]) s = .next u ∧ u.out.getLast? = some (.readData A v) ∧ u.host = s.host ∧ Changes [] [] b u) ∧
    (∀ be k, A + 4 ≠ k ∨ be ≠ 15 → ∀ u, exec (.rcRead a [be]) s = .next u → u.latch 0 k = s.latch 0 k) ∧
    (a.toNat + 1 < 2 ^ 24 →
      (∀ be v rest f u, exec (.hostRegisterWrite a [(be, v)] f) s = .next u →
        exec (.hostRegisterWrite a ((be, v) :: rest) f) s = exec (.hostRegisterWrite (a + 1) rest f) u) ∧
      (∀ be rest u, isWide A (be :: rest) = false → s.gate A true = .served → s.readError A (be :: rest) = none →
        exec (.rcRead a [be]) s = .next u → exec (.rcRead a (be :: rest)) s = .next (readParts (A + 4) rest u)))

/-- R30, R33, R36, R37, R39, R43, R47, R49, R50, R53, R399, R401, R467. -/
def Obligations.HostCommandsActByAccessType : Prop :=
  ∀ (s : State),
    (∀ (a : BitVec 24) (A : Nat) (v : Word) (f : Option FuseLeft) (c : Instr), A = 4 * a.toNat → c = .hostRegisterWrite a [(15, v)] f →
      s.gate A false = .served →
      (∀ b off r, homeOf A = some (.reg b off r) →
        (∀ ign : Nat → State → Prop, ign = (fun k u => u.rd CHIP.IGN_WRITE_STATUS.count = min 0xFFFF (s.rd CHIP.IGN_WRITE_STATUS.count + 1) ∧
            (s.host.ignFresh = true → u.rd CHIP.IGN_WRITE_STATUS.reason = k ∧ u.rd CHIP.IGN_WRITE_ADDR.addr = A) ∧
            (∀ st, b.bankStatus = some st → u.word st = s.word st ||| 0x10000) ∧
            Changes ([CHIP.IGN_WRITE_STATUS, CHIP.IGN_WRITE_ADDR] ++ b.bankStatus.toList) [.host] s u) →
          (r.fields.any (·.takesWrite) = false → ∃ u : State, exec c s = .next u ∧ ign 1 u ∧ u.host = { s.host with ignFresh := false }) ∧
          (s.sealed = true → isConfigWrite b A r v = true → b ≠ .pwr → r.fields.any (·.takesWrite) = true →
            ∃ (u : State) (t : RefusalTally), exec c s = .next u ∧ ign 4 u ∧
              u.host = { s.host with ignFresh := false, refusedWrites := some t } ∧
              (s.host.refusedWrites = none → t = { subject := A, detail := v.toNat, result := 0, count := 1 }) ∧
              (∀ w, s.host.refusedWrites = some w → t = { w with count := w.count + 1 }))) ∧
        (b.doubleBuffered = true → r.hasRW = true → s.bankPending b = false → s.sealed = false → ∃ u : State, exec c s = .next u ∧
          (∀ g ∈ r.fields, g.access = .rw → bitsOf (u.word A) g.lsb g.width = g.legal.nearest (r.index off) (bitsOf v g.lsb g.width)) ∧
          ((∀ g ∈ r.fields, g.legal.nearest (r.index off) (bitsOf v g.lsb g.width) = bitsOf v g.lsb g.width) →
            (∀ g ∈ r.reserved, bitsOf v g.1 g.2 = 0) → u.host = s.host ∧ Changes [A] [] s u) ∧
          Changes [A, CHIP.CLAMP_STATUS] [.host] s u)) ∧
      (homeOf A = none → inWindow A = false → inAlias A = false → ∃ u : State, exec c s = .next u ∧ u.pend 216 = true ∧
        u.rd CHIP.BUSERR_STATUS.count = min 0xFFFF (s.rd CHIP.BUSERR_STATUS.count + 1) ∧
        (s.host.busFresh = true → u.rd CHIP.BUSERR_STATUS.cause = 3 ∧ u.rd CHIP.BUSERR_ADDR.addr = A) ∧
        Changes [CHIP.BUSERR_STATUS, CHIP.BUSERR_ADDR] [.host] s u) ∧
      ((homeOf A).isSome = true → ∀ be : BitVec 4, be.toNat ∈ [1, 2, 4, 8, 3, 12] → ∃ u : State,
        exec (.hostRegisterWrite a [(be, v)] f) s = .next u ∧ u.pend 216 = true ∧
        u.rd CHIP.BUSERR_STATUS.count = min 0xFFFF (s.rd CHIP.BUSERR_STATUS.count + 1) ∧
        (s.host.busFresh = true → u.rd CHIP.BUSERR_STATUS.cause = 2 ∧ u.rd CHIP.BUSERR_ADDR.addr = A) ∧
        Changes [CHIP.BUSERR_STATUS, CHIP.BUSERR_ADDR] [.host] s u)) ∧
    (∀ (a : BitVec 24) (A : Nat) l e k, A = 4 * a.toNat → s.gate A true = .served → s.readError A l = some (e, k) → e < 2 ^ 26 →
      ∃ u : State, exec (.rcRead a l) s = .next u ∧ u.out.getLast? = some (.completerAbort A) ∧
        (s.host.busFresh = true → u.rd CHIP.BUSERR_STATUS.cause = k.code ∧ u.rd CHIP.BUSERR_ADDR.addr = e) ∧
        Changes [CHIP.BUSERR_STATUS, CHIP.BUSERR_ADDR] [.host] s u) ∧
    (∀ (w : BitVec 12) (bit : Fin 32) (v : Bool) (e : Fin 256), 4 * w.toNat = EVT.MASK + 4 * (e / 32) → bit.val = e % 32 →
      s.gate (0x2000000 + (4 * w.toNat * 32 + bit) * 4) false = .served → ∃ u : State, exec (.bitAliasWrite w bit v) s = .next u ∧
        s.arrayBit EVT.MASK e = bitOf (s.word (4 * w.toNat)) bit ∧ bitOf (u.word (4 * w.toNat)) bit = v ∧
        (∀ k < 32, k ≠ bit.val → bitOf (u.word (4 * w.toNat)) k = bitOf (s.word (4 * w.toNat)) k) ∧ Changes [4 * w.toNat] [] s u) ∧
    (∀ (bb : BankBlock) b off r, homeOf (commitReg bb) = some (.reg b off r) → s.gate (commitReg bb) false = .served → s.sealed = false →
      s.bankPending b = false → ∃ u : State, exec (.bankCommit bb) s = .next u ∧ u.bankPending b = true ∧ Changes b.bankCtrl.toList [] s u) ∧
    (s.gate CHIP.CLAMP_CTRL false = .served → ∃ u : State, exec .clampPop s = .next u ∧
      u.host = { s.host with clampLog := s.host.clampLog.drop 1 } ∧ Changes [] [.host] s u) ∧
    (∀ (n : Fin 32) (w : Word), s.gate (portAddr n P.COEF_SEL) false = .served → ∃ u : State, exec (.coefSelWrite n w) s = .next u ∧
      u.rd (P.COEF_SEL.pair.port n) = w.toNat % 4 ∧ (w.toNat < 4 → u.host = s.host) ∧
      Changes [portAddr n P.COEF_SEL, CHIP.CLAMP_STATUS] [.host] s u) ∧
    (∀ w : Word, s.gate (PWR.RTC_SET_SEC + 4) false = .served → ∃ u : State, exec (.rtcSetWrite w) s = .next u ∧
      u.power = { s.power with writes := s.power.writes ++ [(PWR.RTC_SET_SEC + 4, w, 0)] } ∧ u.flag PWR.AON_STATUS.wr_pending = true ∧
      Changes [PWR.AON_STATUS] [.power] s u) ∧
    (∀ hits : BitVec 40, s.gate PERF.CMD false = .served → ∃ u : State, exec (.clearAll hits) s = .next u ∧
      (∀ k : Fin 40, u.perfCnt k = bitNat (hits.getLsbD k)) ∧ (∀ g < 5, u.word (PERF.OVF + 4 * g) = 0) ∧
      (∀ a, ¬(PERF.OVF ≤ a ∧ a < PERF.OVF + 20) → ¬(PERF.CNT ≤ a ∧ a < PERF.CNT + 320) → u.word a = s.word a) ∧ Within [.regs] s u) ∧
    (∀ k : Fin 40, s.perfCnt k = 2 ^ 48 - 1 → s.actFlag (PERF.SEL.enable.nth k) = true → ∃ u : State,
      exec (.perfCounterWrap k) s = .next u ∧ bitOf (u.word (PERF.OVF + 4 * (k / 8))) (k % 8) = true ∧
      bitOf (u.word PERF.CAUSE) 0 = true ∧ (k.val < 32 → u.perfCnt k = 0) ∧
      (bitOf (s.word PERF.CAUSE) 0 = false → u.pend 248 = true) ∧ (bitOf (s.word PERF.CAUSE) 0 = true → u.perfCnt k = 0) ∧ Changes [] [] s u)

/-- R48, R470 to R472. -/
def Obligations.MdioWindowAndStandardRegisters : Prop :=
  ∀ (s : State),
    (s.reachable = true → ∀ c w, (c = Instr.mdioWindowRead ∧ w = false ∨ c = Instr.mdioWindowWrite ∧ w = true) →
      (s.host.mdioBusy = none → ∃ u : State, exec c s = .next u ∧
        u.host = { s.host with mdioBusy := some ⟨w, s.host.mdioAddr.toNat, s.host.mdioData⟩ } ∧ Within [.host] s u) ∧
      (s.host.mdioBusy ≠ none → ∃ u : State, exec c s = .next u ∧ u.flag CHIP.MDIO_STATUS.mdio_err = true ∧
        (∀ a, a ≠ CHIP.MDIO_STATUS → u.word a = s.word a) ∧ Within [.regs] s u)) ∧
    (∀ f, s.host.mdioBusy = none → exec (.mdioWindowAccessDone f) s = .next s) ∧
    (∀ f (m : MdioAccess) A, s.host.mdioBusy = some m → A = m.addr % 2 ^ 26 → s.gate A (!m.write) = .served →
      (m.addr = A → A % 4 = 0 → (homeOf A).isSome = true →
        (m.write = false → ∀ b, b = beforeRead A s → ∃ u : State, exec (.mdioWindowAccessDone f) s = .next u ∧ u.host.mdioBusy = none ∧
          u.host.mdioData = (if 4 ≤ A ∧ pairLow (A - 4) = true then (b.latch 0 A).getD (b.view A) else b.view A) ∧
          (recordArea A = false → u.word A = b.word A &&& ~~~ BitVec.ofNat 32 (rcBits A)) ∧ u.out.take s.out.length = s.out ∧
          Changes [A] [.host] b u) ∧
        (m.write = true → exec (.mdioWindowAccessDone f) s = .next (perfCount 4 0x06 (writeReg .mdio A m.data
          { fuse := f, linear := 0 } { s with host := { s.host with mdioBusy := none } })))) ∧
      (∀ k : Nat, 2 ^ 26 ≤ m.addr ∧ k = 3 ∨ m.addr < 2 ^ 26 ∧ A % 4 ≠ 0 ∧ k = 1 ∨
          m.addr < 2 ^ 26 ∧ A % 4 = 0 ∧ homeOf A = none ∧ inWindow A = false ∧ inAlias A = false ∧ k = 3 →
        ∃ u : State, exec (.mdioWindowAccessDone f) s = .next u ∧ u.host.mdioBusy = none ∧ u.flag CHIP.MDIO_STATUS.mdio_err = true ∧
          u.host.mdioData = (if m.write then s.host.mdioData else 0xFFFFFFFF) ∧ u.pend 216 = true ∧
          u.rd CHIP.BUSERR_STATUS.count = min 0xFFFF (s.rd CHIP.BUSERR_STATUS.count + 1) ∧
          (s.host.busFresh = true → u.rd CHIP.BUSERR_STATUS.cause = k ∧ u.rd CHIP.BUSERR_ADDR.addr = A) ∧
          Changes [CHIP.BUSERR_STATUS, CHIP.BUSERR_ADDR, CHIP.MDIO_STATUS] [.host] s u)) ∧
    (∀ (n mmd : Fin 32) (reg : BitVec 16), s.gate (portAddr n P.LINE_STATUS) true = .served →
      (∀ v, mmd ∈ [1, 3, 7] → reg = 1 → s.standard n mmd 1 = some v → ∃ u : State, exec (.latchLowRead n mmd reg) s = .next u ∧
        u.out = s.out ++ [.mdioData n mmd 1 (BitVec.ofNat 16 v)] ∧ (v / 4 % 2 = 1 ↔ s.linkLatched n mmd = true) ∧
        u.linkLatched n mmd = s.flag (P.LINE_STATUS.link_up.port n) ∧
        (∀ (p q : Fin 32), q.val < 8 → (p, q) ≠ (n, mmd) → u.linkLatched p q = s.linkLatched p q) ∧ Within [.out, .host] s u) ∧
      (mmd ∉ [30, 31] → s.standard n mmd reg.toNat = none → ∃ u : State, exec (.latchLowRead n mmd reg) s = .next u ∧
        u.out = s.out ++ [.mdioData n mmd reg.toNat 0xFFFF] ∧ u.flag CHIP.MDIO_STATUS.mdio_err = true ∧
        (∀ a, a ≠ CHIP.MDIO_STATUS → u.word a = s.word a) ∧ Within [.regs, .out] s u)) ∧
    (∀ (n : Fin 32) (v : BitVec 16), s.gate (portAddr n P.LINE_CFG) false = .served → s.sealed = false →
      (s.bankPending (.port n) = false →
        (v.getLsbD 15 = false → ∃ u : State, exec (.mdioStandardWrite n 1 0 v) s = .next u ∧
          u.rd (P.LINE_CFG.port_off.port n) = bitNat (v.getLsbD 11) ∧ u.bankPending (.port n) = true ∧
          Changes [portAddr n P.LINE_CFG, portAddr n P.BANK_CTRL, CHIP.CLAMP_STATUS] [.host] s u) ∧
        (∃ u : State, exec (.mdioStandardWrite n 7 16 v) s = .next u ∧
          bitOf (u.word (portAddr n P.AN_ADV)) 0 = v.getLsbD 8 ∧ u.bankPending (.port n) = true ∧
          Changes [portAddr n P.AN_ADV, portAddr n P.BANK_CTRL, CHIP.CLAMP_STATUS] [.host] s u)) ∧
      (s.bankPending (.port n) = true → ∃ u : State, exec (.mdioStandardWrite n 7 16 v) s = .next u ∧
        (s.host.ignFresh = true → u.rd CHIP.IGN_WRITE_STATUS.reason = 2) ∧ u.word (portAddr n P.AN_ADV) = s.word (portAddr n P.AN_ADV) ∧
        Changes [CHIP.IGN_WRITE_STATUS, CHIP.IGN_WRITE_ADDR, portAddr n P.BANK_STATUS] [.host] s u) ∧
      (v.getLsbD 12 = false → v.getLsbD 9 = false → ∃ u : State, exec (.mdioStandardWrite n 7 0 v) s = .next u ∧
        (s.host.ignFresh = true → u.rd CHIP.IGN_WRITE_STATUS.reason = 1) ∧
        Changes [CHIP.IGN_WRITE_STATUS, CHIP.IGN_WRITE_ADDR, portAddr n P.BANK_STATUS] [.host] s u) ∧
      (∀ (mmd : Fin 32) (reg : BitVec 16), mmd ∉ [30, 31] → s.standard n mmd reg.toNat = none → ∃ u : State,
        exec (.mdioStandardWrite n mmd reg v) s = .next u ∧ u.flag CHIP.MDIO_STATUS.mdio_err = true ∧
        (∀ a, a ≠ CHIP.MDIO_STATUS → u.word a = s.word a) ∧ Within [.regs] s u) ∧
      (s.reachable = true → s.host.mdioBusy = none → ∃ u : State, exec (.mdioStandardWrite n 30 0 v) s = .next u ∧
        u.host = { s.host with mdioAddr := BitVec.ofNat 32 (s.host.mdioAddr.toNat / 65536 * 65536 + v.toNat) } ∧ Within [.host] s u))

/-- R313, R323, R325, R331, R332. -/
def Obligations.WheelLoadsRunTheirCourse : Prop :=
  ∀ (s : State),
    (s.gate WHEEL.LOAD_CMD false = .served →
      (∀ c f, (c = Instr.load ∧ f = false ∨ c = Instr.fromFlash ∧ f = true) →
        (∀ w : Wheel, s.loading = false → w = { s.wheel with
            fromFlash := f, loadVa := s.pair WHEEL.LOAD_ADDR WHEEL.LOAD_ADDR_HI, loadLen := s.rd WHEEL.LOAD_LEN.bytes,
            loadFrom := s.clk.rev.toNat, staged := [], loaded := none, previous := none } →
          (f = true ∨ w.loadLen ≤ 0x100000 → ∃ u : State, exec c s = .next u ∧ u.loadState = 1 ∧ u.rd WHEEL.LOAD_STATUS.reason = 0 ∧
            u.wheel = w ∧ u.wcLevel (loadKey (loadBit f)) = 1 ∧ u.rd WHEEL.BANK_STATUS.prev_valid = 0 ∧ u.word WHEEL.LOAD_OFFENDER = 0 ∧
            Changes [WHEEL.LOAD_STATUS, WHEEL.BANK_STATUS, WHEEL.LOAD_OFFENDER] [.wheel, .host] s u) ∧
          (f = false → 0x100000 < w.loadLen → s.wheel.queued = none → ∃ u : State, exec c s = .next u ∧ u.loadState = 6 ∧
            u.rd WHEEL.LOAD_STATUS.reason = 25 ∧ u.wheel = w ∧ u.wcLevel (loadKey 0) = 0 ∧ u.pend 236 = true ∧
            bitOf (u.word WHEEL.CAUSE) 0 = true ∧ (0 < s.auditFree → s.logs.heldAudit = [] → u.chain.seq = s.chain.seq + 1) ∧
            Changes [WHEEL.LOAD_STATUS, WHEEL.BANK_STATUS, WHEEL.LOAD_OFFENDER, WHEEL.CAUSE, TST.STATUS]
              [.wheel, .host, .chain, .signing] s u)) ∧
        (s.loading = true → s.wheel.queued = none → ∃ u : State, exec c s = .next u ∧ u.wheel = { s.wheel with queued := some f } ∧
          u.rd WHEEL.LOAD_STATUS.queued = 1 ∧ u.loadState = s.loadState ∧
          u.wcLevel (loadKey (loadBit f)) = s.wcLevel (loadKey (loadBit f)) + 1 ∧ Changes [WHEEL.LOAD_STATUS] [.wheel, .host] s u) ∧
        (∀ q, s.loading = true → s.wheel.queued = some q → ∃ u : State, exec c s = .next u ∧
          u.rd CHIP.IGN_WRITE_STATUS.count = min 0xFFFF (s.rd CHIP.IGN_WRITE_STATUS.count + 1) ∧
          (s.host.ignFresh = true → u.rd CHIP.IGN_WRITE_STATUS.reason = 5 ∧ u.rd CHIP.IGN_WRITE_ADDR.addr = WHEEL.LOAD_CMD) ∧
          Changes [CHIP.IGN_WRITE_STATUS, CHIP.IGN_WRITE_ADDR] [.host] s u)) ∧
      (s.loading = false → exec .cancel s = .next s) ∧
      (s.loading = true → ∃ u : State, exec .cancel s = .next u ∧ u.wheel.loaded = none ∧ u.wheel.staged = [] ∧ u.wheel.queued = none ∧
        u.pend 236 = true ∧ u.pend 239 = true ∧ bitOf (u.word WHEEL.CAUSE) 0 = true ∧ bitOf (u.word WHEEL.CAUSE) 3 = true ∧
        (s.wheel.queued = none → u.loadState = 6 ∧ u.rd WHEEL.LOAD_STATUS.reason = 26 ∧ u.wheel.previous = s.wheel.previous) ∧
        (∀ f, s.wheel.queued = some f → u.loadState = 1 ∧ u.wheel.fromFlash = f) ∧ u.wheel.active = s.wheel.active ∧
        Changes [WHEEL.LOAD_STATUS, WHEEL.BANK_STATUS, WHEEL.LOAD_OFFENDER, WHEEL.CAUSE] [.wheel, .host] s u) ∧
      (s.sealed = false →
        (s.wheel.previous = none → ∃ u : State, exec .revert s = .next u ∧ u.flag WHEEL.LOAD_STATUS.revert_refused = true ∧
          (∀ a, a ≠ WHEEL.LOAD_STATUS → u.word a = s.word a) ∧ Within [.regs] s u) ∧
        (s.wheel.previous ≠ none → s.loading = true → exec .revert s = .next s) ∧
        (s.wheel.previous ≠ none → s.loading = false → ∃ u : State, exec .revert s = .next u ∧
          u.wheel = { s.wheel with reverting := true } ∧ Within [.wheel] s u)) ∧
      (s.sealed = true → ∃ u : State, exec .revert s = .next u ∧ u.wheel = s.wheel ∧ u.host.refusedWrites ≠ none ∧
        (s.host.ignFresh = true → u.rd CHIP.IGN_WRITE_STATUS.reason = 4) ∧ Changes [CHIP.IGN_WRITE_STATUS, CHIP.IGN_WRITE_ADDR] [.host] s u)) ∧
    (∀ res : ReadResult, (s.loadState ≠ 1 → exec (.wheelImageFetched res) s = .next s) ∧
      (∀ got, s.loadState = 1 → s.wheel.queued = none → got = (if s.wheel.fromFlash then .data s.trust.flash.nelno else res) →
        (∀ bytes, got = .data bytes → bytes.length ≤ 0x100000 → ∃ u : State, exec (.wheelImageFetched res) s = .next u ∧ u.loadState = 2 ∧
          u.wheel = { s.wheel with staged := bytes } ∧ Changes [WHEEL.LOAD_STATUS] [.wheel] s u) ∧
        ((got = .error ∨ ∃ bytes, got = .data bytes ∧ 0x100000 < bytes.length) → ∃ u : State, exec (.wheelImageFetched res) s = .next u ∧
          u.loadState = 6 ∧ u.rd WHEEL.LOAD_STATUS.reason = 25 ∧ u.wheel = { s.wheel with staged := [], loaded := none } ∧
          u.wcLevel (loadKey (loadBit s.wheel.fromFlash)) = 0 ∧ u.pend 236 = true ∧
          Changes [WHEEL.LOAD_STATUS, WHEEL.LOAD_OFFENDER, WHEEL.CAUSE, TST.STATUS] [.wheel, .host, .chain, .signing] s u))) ∧
    (s.loadState ≠ 2 → s.loadState ≠ 3 → exec .wheelAdmissionDone s = .next s) ∧
    ((s.loadState = 2 ∨ s.loadState = 3) → s.wheel.queued = none →
      ∃ u : State, exec .wheelAdmissionDone s = .next u ∧
      (∀ r, s.admission s.wheel.staged = .inl r → u.loadState = 6 ∧
        u.rd WHEEL.LOAD_STATUS.reason = r.reason % 256 ∧ u.word WHEEL.LOAD_OFFENDER = BitVec.ofNat 32 (r.kind * 2 ^ 29 + r.index) ∧
        u.pend 236 = true ∧ u.wheel = { s.wheel with staged := [], loaded := none } ∧
        (0 < s.auditFree → s.logs.heldAudit = [] → u.chain.seq = s.chain.seq + 1) ∧
        Changes [WHEEL.LOAD_STATUS, WHEEL.LOAD_OFFENDER, WHEEL.CAUSE, TST.STATUS] [.wheel, .host, .chain, .signing] s u) ∧
      (∀ w, s.admission s.wheel.staged = .inr w → s.fw.activate = false →
        u.loadState = 4 ∧ u.rd WHEEL.LOAD_STATUS.reason = 0 ∧ u.wheel = { s.wheel with loaded := some w } ∧
        u.rd WHEEL.REPORT.charge_mw = w.charge / 100 % 65536 ∧ u.rd WHEEL.SHARE.lattice = min 4095 (w.share 3) ∧
        u.rd WHEEL.SHARE.hash = min 4095 (w.share 2) ∧ (∀ m, w.leastSlack = some m → u.rd WHEEL.SLACK.slack = min 4095 m.1) ∧
        u.seq = { s.seq with imem := w.code.foldl (fun m (e : Nat × Word) => sput (fun _ => 0) m e.1 e.2) s.seq.imem } ∧
        Changes [WHEEL.LOAD_STATUS, WHEEL.REPORT, WHEEL.SHARE, WHEEL.SLACK] [.wheel, .seq] s u)) ∧
    (∀ (w : Word) k, s.gate WHEEL.TASK_SEL false = .served → k = w.toNat % 256 → ∃ u : State, exec (.taskSelWrite w) s = .next u ∧
      u.rd WHEEL.TASK_SEL.core = k / 64 ∧ u.rd WHEEL.TASK_SEL.task = k % 64 ∧
      (∀ r, s.taskRec k = some r → ∀ i < 16, u.word (WHEEL.TASK_WIN + 4 * i) = r.words.getD i 0) ∧
      (s.taskRec k = none → ∀ i < 16, u.word (WHEEL.TASK_WIN + 4 * i) = 0) ∧
      u.word (WHEEL.TASK_WIN + 64) = BitVec.ofNat 32 (sget (fun _ => 0) s.wheel.late k) ∧
      u.word (WHEEL.TASK_WIN + 68) = BitVec.ofNat 32 (sget (fun _ => 0) s.wheel.windows k) ∧
      (∀ a, a ≠ WHEEL.TASK_SEL → ¬(WHEEL.TASK_WIN ≤ a ∧ a < WHEEL.TASK_WIN + 72) → u.word a = s.word a) ∧ Within [.regs] s u) ∧
    (∀ w : Word, s.gate SQ.CTX_SEL false = .served → ∃ u : State, exec (.sqCtxSelWrite w) s = .next u ∧
      u.word SQ.CTX_SEL = w &&& 0xFF ∧ u.flag SQ.CTX_SEL.ready = false ∧ u.seq = { s.seq with ctxDue := true } ∧
      (∀ a, a ≠ SQ.CTX_SEL → u.word a = s.word a) ∧ Within [.regs, .seq] s u)

/-- R360, R446, R448. -/
def Obligations.FirmwareCommandsRunTheirCourse : Prop :=
  ∀ (s : State) (slot : Nat), slot = s.rd CHIP.FW_STATUS.slot → ∀ level, level = (fun (u : State) k => u.wcLevel (wcKey CHIP.FW_CMD k)) →
    (s.gate CHIP.FW_CMD false = .served →
      (∀ c k, (c = Instr.write ∧ k = 0 ∨ c = Instr.verify ∧ k = 1) →
        (level s k = 0 → s.fwBusy = false → ∃ u : State, exec c s = .next u ∧ u.fwState = k + 1 ∧ level u k = 1 ∧
          u.rd CHIP.FW_STATUS.slot = s.otherSlot ∧ u.rd CHIP.FW_STATUS.result = 0 ∧ u.rd CHIP.FW_STATUS.done = 0 ∧
          u.fw.verified = none ∧ u.fw.activate = false ∧ u.fw.cmdRefused = false ∧ u.seq = { s.seq with nextModules := [] } ∧
          u.flashSlot s.otherSlot = (if k = 0 then [] else s.flashSlot s.otherSlot) ∧
          u.flashSlot (1 - s.otherSlot) = s.flashSlot (1 - s.otherSlot) ∧ (k = 1 → u.trust = s.trust) ∧
          (∀ a, a ≠ CHIP.FW_STATUS → u.word a = s.word a) ∧ Within [.regs, .host, .seq, .trust, .fw] s u) ∧
        (level s k = 0 → s.fwBusy = true → ∃ u : State, exec c s = .next u ∧ u.fw = { s.fw with cmdRefused := true } ∧ level u k = 0 ∧
          Within [.host, .fw] s u) ∧
        (level s k = 1 → ∃ u : State, exec c s = .next u ∧ level u k = 2 ∧ Within [.host] s u) ∧
        (1 < level s k → ∃ u : State, exec c s = .next u ∧ level u k = level s k ∧
          (s.host.ignFresh = true → u.rd CHIP.IGN_WRITE_STATUS.reason = 5 ∧ u.rd CHIP.IGN_WRITE_ADDR.addr = CHIP.FW_CMD) ∧
          Changes [CHIP.IGN_WRITE_STATUS, CHIP.IGN_WRITE_ADDR] [.host] s u)) ∧
      (s.fwState ≠ 3 → ∃ u : State, exec .activate s = .next u ∧ u.fw = { s.fw with cmdRefused := true } ∧ Within [.host, .fw] s u) ∧
      (s.fwState = 3 → ∀ ready : Prop, ready = (s.loadState = 4 ∧ ∃ w, s.wheel.loaded = some w ∧ s.madeForVerified w = true) →
        ∃ u : State, exec .activate s = .next u ∧ u.fw = { s.fw with activate := true, cmdRefused := false } ∧
          (¬ready → u.fwState = 3 ∧ Within [.fw] s u) ∧
          (ready → u.fwState = 4 ∧ u.seq.modules = s.seq.modules ∧ u.seq.ctxs = s.seq.ctxs ∧
            (∀ a, a ≠ CHIP.FW_STATUS → u.word a = s.word a) ∧ Within [.regs, .seq, .fw] s u)) ∧
      (s.fwState ≠ 1 → s.fwState ≠ 2 → exec .fwCancel s = .next s) ∧
      (∀ k, k < 2 → s.fwState = k + 1 → ∃ u : State, exec .fwCancel s = .next u ∧
        (level s k ≤ 1 → u.fwState = 0 ∧ u.rd CHIP.FW_STATUS.result = 0 ∧ level u k = 0 ∧ u.flashSlot slot = [] ∧
          u.flashSlot (1 - slot) = s.flashSlot (1 - slot) ∧ u.trust.flash.preferred = s.trust.flash.preferred) ∧
        (level s k = 2 → u.fwState = k + 1 ∧ level u k = 1) ∧
        (∀ a, a ≠ CHIP.FW_STATUS → u.word a = s.word a) ∧ Within [.regs, .host, .seq, .trust, .fw] s u)) ∧
    (∀ (res : ReadResult) (good : Bool), (s.fwState ≠ 1 → exec (.fwWriteDone res good) s = .next s) ∧
      (s.fwState = 1 → ∃ u : State, exec (.fwWriteDone res good) s = .next u ∧
        (level s 0 = 2 → u.fwState = 1 ∧ level u 0 = 1) ∧
        (level s 0 ≤ 1 → level u 0 = 0 ∧
          (res = .error → u.fwState = 6 ∧ u.rd CHIP.FW_STATUS.result = 9 ∧ u.trust = s.trust ∧ u.fw = s.fw) ∧
          (∀ l, res = .data l → good = true → u.fwState = 0 ∧ u.rd CHIP.FW_STATUS.result = 0 ∧
            u.flashSlot slot = l.take (s.rd CHIP.FW_LEN.bytes) ∧ u.flashSlot (1 - slot) = s.flashSlot (1 - slot)) ∧
          (∀ l, res = .data l → good = false → u.fwState = 6 ∧ u.rd CHIP.FW_STATUS.result = 8 ∧ u.fw = s.fw)) ∧
        (∀ a, a ≠ CHIP.FW_STATUS → u.word a = s.word a) ∧ Within [.regs, .host, .seq, .trust, .fw] s u)) ∧
    (∀ places : List Nat, (s.fwState ≠ 2 → exec (.fwVerifyDone places) s = .next s) ∧
      (∀ (f l : List Byte) (ok : Prop), s.fwState = 2 → f = s.flashSlot slot → l = fwWhole f →
        ok = (fwFormat l = true ∧ sha (slice l fwRootAt 2592) = s.trust.otp.rootHash ∧ fwCertGood l = true ∧ fwSigned l = true ∧
          s.fwCounterGood l = true ∧ s.trust.otp.rollback ≤ fwSvn l) →
        ∃ u : State, exec (.fwVerifyDone places) s = .next u ∧ u.trust = s.trust ∧
          (level s 1 = 2 → u.fwState = 2 ∧ level u 1 = 1) ∧
          (level s 1 ≤ 1 → level u 1 = 0 ∧ u.rd CHIP.FW_STATUS.result = s.judgeFirmware f ∧
            (ok → u.fwState = 3 ∧ s.judgeFirmware f = bootOk ∧
              u.fw = { s.fw with verified := some (fwMeasurement l, sha (fwCert l), fwSvn l) } ∧
              u.seq = { s.seq with nextModules := placedModules l places }) ∧
            (¬ok → u.fwState = 6 ∧ s.judgeFirmware f ≠ bootOk ∧ u.fw = s.fw ∧ u.seq = s.seq)) ∧
          (∀ a, a ≠ CHIP.FW_STATUS → u.word a = s.word a) ∧ Within [.regs, .host, .seq, .fw] s u))

/-- The queue of waiting commands is the model's own field (log entry 1). -/
def Obligations.StepRunsTheFrontCommand : Prop :=
  ∀ (c : Instr) (rest : List Instr) (s : State), s.pending = c :: rest → step s = exec c (s.withPending rest)

/-- No command stops the machine, and none touches the queue behind it. -/
def Obligations.StepAnswersAndTakesOneCommand : Prop :=
  ∀ s : State, ∃ t : State, step s = .next t ∧ t.pending = s.pending.tail

/-- R20, R133, R468: the invariant of every step. -/
def Obligations.StepKeepsStateSound : Prop :=
  ∀ s t : State, s.Sound → step s = .next t → t.Sound

/-- R428, R468. -/
def Obligations.ResetLeavesTheStatedValues : Prop :=
  State.reset.Sound ∧ State.reset.pending = [] ∧ (∀ a, State.reset.word a = resetWord a) ∧
  (∀ n : Fin 32, State.reset.flag (TRIP.PORT_STATUS.hb_lost.nth n) = true ∧ State.reset.fsm n = 1) ∧
  (∀ e : Fin 256, State.reset.flag (EVT.MSIX_CTRL.mask.nth e) = true ∧ State.reset.word (EVT.MSIX_DATA + 16 * e) = 0 ∧
    State.reset.rd (EVT.MSIX_ADDR_LO.lo.nth e) = 0 ∧ State.reset.pend e = false) ∧
  State.reset.rd WHEEL.CEIL_CFG.ceiling_mw = 13000 ∧ State.reset.act WHEEL.CEIL_CFG.ceiling_mw = 13000 ∧
  State.reset.flag PWR.AON_STATUS.rtc_valid = false ∧ State.reset.boot.stage = .held ∧ State.reset.clk.pllOn = false ∧
  State.reset.clk.wheelOn = false ∧ State.reset.wheel = Wheel.reset ∧ (∀ k, State.reset.ctx k = Ctx.reset) ∧ (∀ e, State.reset.job e = none) ∧
  (∀ n, (State.reset.trip n).sess = none) ∧ State.reset.messages = [] ∧ State.reset.logs.audit = [] ∧ State.reset.logs.alarm = [] ∧
  State.reset.logs.trace = [] ∧ State.reset.host.clampLog = [] ∧ State.reset.host.mdioBusy = none ∧ State.reset.out = []

/-- R298, R299: decoder and encoder agree. -/
def Obligations.NelnoWordsRoundTrip : Prop :=
  (∀ g : Guarded, decodeNelno (encodeNelno g) = some g) ∧ (∀ (w : Word) (g : Guarded), decodeNelno w = some g → encodeNelno g = w)
end

