-- ==== Sys2Proof/Laws/State.lean ====
section
/-! SUPPORT. What every field of the state reads after each setter. -/

namespace Sys2Proof.Machine

@[simp] theorem State.withPending_pending (s : State) (v : List Instr) : (s.withPending v).pending = v := rfl
@[simp] theorem State.withPending_regs (s : State) (v : List Instr) : (s.withPending v).regs = s.regs := rfl
@[simp] theorem State.withPending_clk (s : State) (v : List Instr) : (s.withPending v).clk = s.clk := rfl
@[simp] theorem State.withPending_host (s : State) (v : List Instr) : (s.withPending v).host = s.host := rfl
@[simp] theorem State.withPending_pcie (s : State) (v : List Instr) : (s.withPending v).pcie = s.pcie := rfl
@[simp] theorem State.withPending_logs (s : State) (v : List Instr) : (s.withPending v).logs = s.logs := rfl
@[simp] theorem State.withPending_out (s : State) (v : List Instr) : (s.withPending v).out = s.out := rfl
@[simp] theorem State.withPending_freeCount (s : State) (v : List Instr) : (s.withPending v).freeCount = s.freeCount := rfl
@[simp] theorem State.withPending_perf (s : State) (v : List Instr) : (s.withPending v).perf = s.perf := rfl
@[simp] theorem State.withPending_chain (s : State) (v : List Instr) : (s.withPending v).chain = s.chain := rfl
@[simp] theorem State.withPending_messages (s : State) (v : List Instr) : (s.withPending v).messages = s.messages := rfl
@[simp] theorem State.withPending_signing (s : State) (v : List Instr) : (s.withPending v).signing = s.signing := rfl
@[simp] theorem State.withPending_signCount (s : State) (v : List Instr) : (s.withPending v).signCount = s.signCount := rfl
@[simp] theorem State.withPending_links (s : State) (v : List Instr) : (s.withPending v).links = s.links := rfl
@[simp] theorem State.withPending_coefs (s : State) (v : List Instr) : (s.withPending v).coefs = s.coefs := rfl
@[simp] theorem State.withPending_trips (s : State) (v : List Instr) : (s.withPending v).trips = s.trips := rfl
@[simp] theorem State.withPending_pins (s : State) (v : List Instr) : (s.withPending v).pins = s.pins := rfl
@[simp] theorem State.withPending_pool (s : State) (v : List Instr) : (s.withPending v).pool = s.pool := rfl
@[simp] theorem State.withPending_reach (s : State) (v : List Instr) : (s.withPending v).reach = s.reach := rfl
@[simp] theorem State.withPending_lpi (s : State) (v : List Instr) : (s.withPending v).lpi = s.lpi := rfl
@[simp] theorem State.withPending_classes (s : State) (v : List Instr) : (s.withPending v).classes = s.classes := rfl
@[simp] theorem State.withPending_mons (s : State) (v : List Instr) : (s.withPending v).mons = s.mons := rfl
@[simp] theorem State.withPending_cal (s : State) (v : List Instr) : (s.withPending v).cal = s.cal := rfl
@[simp] theorem State.withPending_lanes (s : State) (v : List Instr) : (s.withPending v).lanes = s.lanes := rfl
@[simp] theorem State.withPending_sides (s : State) (v : List Instr) : (s.withPending v).sides = s.sides := rfl
@[simp] theorem State.withPending_sram (s : State) (v : List Instr) : (s.withPending v).sram = s.sram := rfl
@[simp] theorem State.withPending_wheel (s : State) (v : List Instr) : (s.withPending v).wheel = s.wheel := rfl
@[simp] theorem State.withPending_seq (s : State) (v : List Instr) : (s.withPending v).seq = s.seq := rfl
@[simp] theorem State.withPending_dma (s : State) (v : List Instr) : (s.withPending v).dma = s.dma := rfl
@[simp] theorem State.withPending_net (s : State) (v : List Instr) : (s.withPending v).net = s.net := rfl
@[simp] theorem State.withPending_trust (s : State) (v : List Instr) : (s.withPending v).trust = s.trust := rfl
@[simp] theorem State.withPending_fw (s : State) (v : List Instr) : (s.withPending v).fw = s.fw := rfl
@[simp] theorem State.withPending_power (s : State) (v : List Instr) : (s.withPending v).power = s.power := rfl
@[simp] theorem State.withPending_boot (s : State) (v : List Instr) : (s.withPending v).boot = s.boot := rfl

@[simp] theorem State.withRegs_pending (s : State) (v : List (Nat × Word)) : (s.withRegs v).pending = s.pending := rfl
@[simp] theorem State.withRegs_regs (s : State) (v : List (Nat × Word)) : (s.withRegs v).regs = v := rfl
@[simp] theorem State.withRegs_clk (s : State) (v : List (Nat × Word)) : (s.withRegs v).clk = s.clk := rfl
@[simp] theorem State.withRegs_host (s : State) (v : List (Nat × Word)) : (s.withRegs v).host = s.host := rfl
@[simp] theorem State.withRegs_pcie (s : State) (v : List (Nat × Word)) : (s.withRegs v).pcie = s.pcie := rfl
@[simp] theorem State.withRegs_logs (s : State) (v : List (Nat × Word)) : (s.withRegs v).logs = s.logs := rfl
@[simp] theorem State.withRegs_out (s : State) (v : List (Nat × Word)) : (s.withRegs v).out = s.out := rfl
@[simp] theorem State.withRegs_freeCount (s : State) (v : List (Nat × Word)) : (s.withRegs v).freeCount = s.freeCount := rfl
@[simp] theorem State.withRegs_perf (s : State) (v : List (Nat × Word)) : (s.withRegs v).perf = s.perf := rfl
@[simp] theorem State.withRegs_chain (s : State) (v : List (Nat × Word)) : (s.withRegs v).chain = s.chain := rfl
@[simp] theorem State.withRegs_messages (s : State) (v : List (Nat × Word)) : (s.withRegs v).messages = s.messages := rfl
@[simp] theorem State.withRegs_signing (s : State) (v : List (Nat × Word)) : (s.withRegs v).signing = s.signing := rfl
@[simp] theorem State.withRegs_signCount (s : State) (v : List (Nat × Word)) : (s.withRegs v).signCount = s.signCount := rfl
@[simp] theorem State.withRegs_links (s : State) (v : List (Nat × Word)) : (s.withRegs v).links = s.links := rfl
@[simp] theorem State.withRegs_coefs (s : State) (v : List (Nat × Word)) : (s.withRegs v).coefs = s.coefs := rfl
@[simp] theorem State.withRegs_trips (s : State) (v : List (Nat × Word)) : (s.withRegs v).trips = s.trips := rfl
@[simp] theorem State.withRegs_pins (s : State) (v : List (Nat × Word)) : (s.withRegs v).pins = s.pins := rfl
@[simp] theorem State.withRegs_pool (s : State) (v : List (Nat × Word)) : (s.withRegs v).pool = s.pool := rfl
@[simp] theorem State.withRegs_reach (s : State) (v : List (Nat × Word)) : (s.withRegs v).reach = s.reach := rfl
@[simp] theorem State.withRegs_lpi (s : State) (v : List (Nat × Word)) : (s.withRegs v).lpi = s.lpi := rfl
@[simp] theorem State.withRegs_classes (s : State) (v : List (Nat × Word)) : (s.withRegs v).classes = s.classes := rfl
@[simp] theorem State.withRegs_mons (s : State) (v : List (Nat × Word)) : (s.withRegs v).mons = s.mons := rfl
@[simp] theorem State.withRegs_cal (s : State) (v : List (Nat × Word)) : (s.withRegs v).cal = s.cal := rfl
@[simp] theorem State.withRegs_lanes (s : State) (v : List (Nat × Word)) : (s.withRegs v).lanes = s.lanes := rfl
@[simp] theorem State.withRegs_sides (s : State) (v : List (Nat × Word)) : (s.withRegs v).sides = s.sides := rfl
@[simp] theorem State.withRegs_sram (s : State) (v : List (Nat × Word)) : (s.withRegs v).sram = s.sram := rfl
@[simp] theorem State.withRegs_wheel (s : State) (v : List (Nat × Word)) : (s.withRegs v).wheel = s.wheel := rfl
@[simp] theorem State.withRegs_seq (s : State) (v : List (Nat × Word)) : (s.withRegs v).seq = s.seq := rfl
@[simp] theorem State.withRegs_dma (s : State) (v : List (Nat × Word)) : (s.withRegs v).dma = s.dma := rfl
@[simp] theorem State.withRegs_net (s : State) (v : List (Nat × Word)) : (s.withRegs v).net = s.net := rfl
@[simp] theorem State.withRegs_trust (s : State) (v : List (Nat × Word)) : (s.withRegs v).trust = s.trust := rfl
@[simp] theorem State.withRegs_fw (s : State) (v : List (Nat × Word)) : (s.withRegs v).fw = s.fw := rfl
@[simp] theorem State.withRegs_power (s : State) (v : List (Nat × Word)) : (s.withRegs v).power = s.power := rfl
@[simp] theorem State.withRegs_boot (s : State) (v : List (Nat × Word)) : (s.withRegs v).boot = s.boot := rfl

@[simp] theorem State.withClk_pending (s : State) (v : Clock) : (s.withClk v).pending = s.pending := rfl
@[simp] theorem State.withClk_regs (s : State) (v : Clock) : (s.withClk v).regs = s.regs := rfl
@[simp] theorem State.withClk_clk (s : State) (v : Clock) : (s.withClk v).clk = v := rfl
@[simp] theorem State.withClk_host (s : State) (v : Clock) : (s.withClk v).host = s.host := rfl
@[simp] theorem State.withClk_pcie (s : State) (v : Clock) : (s.withClk v).pcie = s.pcie := rfl
@[simp] theorem State.withClk_logs (s : State) (v : Clock) : (s.withClk v).logs = s.logs := rfl
@[simp] theorem State.withClk_out (s : State) (v : Clock) : (s.withClk v).out = s.out := rfl
@[simp] theorem State.withClk_freeCount (s : State) (v : Clock) : (s.withClk v).freeCount = s.freeCount := rfl
@[simp] theorem State.withClk_perf (s : State) (v : Clock) : (s.withClk v).perf = s.perf := rfl
@[simp] theorem State.withClk_chain (s : State) (v : Clock) : (s.withClk v).chain = s.chain := rfl
@[simp] theorem State.withClk_messages (s : State) (v : Clock) : (s.withClk v).messages = s.messages := rfl
@[simp] theorem State.withClk_signing (s : State) (v : Clock) : (s.withClk v).signing = s.signing := rfl
@[simp] theorem State.withClk_signCount (s : State) (v : Clock) : (s.withClk v).signCount = s.signCount := rfl
@[simp] theorem State.withClk_links (s : State) (v : Clock) : (s.withClk v).links = s.links := rfl
@[simp] theorem State.withClk_coefs (s : State) (v : Clock) : (s.withClk v).coefs = s.coefs := rfl
@[simp] theorem State.withClk_trips (s : State) (v : Clock) : (s.withClk v).trips = s.trips := rfl
@[simp] theorem State.withClk_pins (s : State) (v : Clock) : (s.withClk v).pins = s.pins := rfl
@[simp] theorem State.withClk_pool (s : State) (v : Clock) : (s.withClk v).pool = s.pool := rfl
@[simp] theorem State.withClk_reach (s : State) (v : Clock) : (s.withClk v).reach = s.reach := rfl
@[simp] theorem State.withClk_lpi (s : State) (v : Clock) : (s.withClk v).lpi = s.lpi := rfl
@[simp] theorem State.withClk_classes (s : State) (v : Clock) : (s.withClk v).classes = s.classes := rfl
@[simp] theorem State.withClk_mons (s : State) (v : Clock) : (s.withClk v).mons = s.mons := rfl
@[simp] theorem State.withClk_cal (s : State) (v : Clock) : (s.withClk v).cal = s.cal := rfl
@[simp] theorem State.withClk_lanes (s : State) (v : Clock) : (s.withClk v).lanes = s.lanes := rfl
@[simp] theorem State.withClk_sides (s : State) (v : Clock) : (s.withClk v).sides = s.sides := rfl
@[simp] theorem State.withClk_sram (s : State) (v : Clock) : (s.withClk v).sram = s.sram := rfl
@[simp] theorem State.withClk_wheel (s : State) (v : Clock) : (s.withClk v).wheel = s.wheel := rfl
@[simp] theorem State.withClk_seq (s : State) (v : Clock) : (s.withClk v).seq = s.seq := rfl
@[simp] theorem State.withClk_dma (s : State) (v : Clock) : (s.withClk v).dma = s.dma := rfl
@[simp] theorem State.withClk_net (s : State) (v : Clock) : (s.withClk v).net = s.net := rfl
@[simp] theorem State.withClk_trust (s : State) (v : Clock) : (s.withClk v).trust = s.trust := rfl
@[simp] theorem State.withClk_fw (s : State) (v : Clock) : (s.withClk v).fw = s.fw := rfl
@[simp] theorem State.withClk_power (s : State) (v : Clock) : (s.withClk v).power = s.power := rfl
@[simp] theorem State.withClk_boot (s : State) (v : Clock) : (s.withClk v).boot = s.boot := rfl

@[simp] theorem State.withHost_pending (s : State) (v : HostSide) : (s.withHost v).pending = s.pending := rfl
@[simp] theorem State.withHost_regs (s : State) (v : HostSide) : (s.withHost v).regs = s.regs := rfl
@[simp] theorem State.withHost_clk (s : State) (v : HostSide) : (s.withHost v).clk = s.clk := rfl
@[simp] theorem State.withHost_host (s : State) (v : HostSide) : (s.withHost v).host = v := rfl
@[simp] theorem State.withHost_pcie (s : State) (v : HostSide) : (s.withHost v).pcie = s.pcie := rfl
@[simp] theorem State.withHost_logs (s : State) (v : HostSide) : (s.withHost v).logs = s.logs := rfl
@[simp] theorem State.withHost_out (s : State) (v : HostSide) : (s.withHost v).out = s.out := rfl
@[simp] theorem State.withHost_freeCount (s : State) (v : HostSide) : (s.withHost v).freeCount = s.freeCount := rfl
@[simp] theorem State.withHost_perf (s : State) (v : HostSide) : (s.withHost v).perf = s.perf := rfl
@[simp] theorem State.withHost_chain (s : State) (v : HostSide) : (s.withHost v).chain = s.chain := rfl
@[simp] theorem State.withHost_messages (s : State) (v : HostSide) : (s.withHost v).messages = s.messages := rfl
@[simp] theorem State.withHost_signing (s : State) (v : HostSide) : (s.withHost v).signing = s.signing := rfl
@[simp] theorem State.withHost_signCount (s : State) (v : HostSide) : (s.withHost v).signCount = s.signCount := rfl
@[simp] theorem State.withHost_links (s : State) (v : HostSide) : (s.withHost v).links = s.links := rfl
@[simp] theorem State.withHost_coefs (s : State) (v : HostSide) : (s.withHost v).coefs = s.coefs := rfl
@[simp] theorem State.withHost_trips (s : State) (v : HostSide) : (s.withHost v).trips = s.trips := rfl
@[simp] theorem State.withHost_pins (s : State) (v : HostSide) : (s.withHost v).pins = s.pins := rfl
@[simp] theorem State.withHost_pool (s : State) (v : HostSide) : (s.withHost v).pool = s.pool := rfl
@[simp] theorem State.withHost_reach (s : State) (v : HostSide) : (s.withHost v).reach = s.reach := rfl
@[simp] theorem State.withHost_lpi (s : State) (v : HostSide) : (s.withHost v).lpi = s.lpi := rfl
@[simp] theorem State.withHost_classes (s : State) (v : HostSide) : (s.withHost v).classes = s.classes := rfl
@[simp] theorem State.withHost_mons (s : State) (v : HostSide) : (s.withHost v).mons = s.mons := rfl
@[simp] theorem State.withHost_cal (s : State) (v : HostSide) : (s.withHost v).cal = s.cal := rfl
@[simp] theorem State.withHost_lanes (s : State) (v : HostSide) : (s.withHost v).lanes = s.lanes := rfl
@[simp] theorem State.withHost_sides (s : State) (v : HostSide) : (s.withHost v).sides = s.sides := rfl
@[simp] theorem State.withHost_sram (s : State) (v : HostSide) : (s.withHost v).sram = s.sram := rfl
@[simp] theorem State.withHost_wheel (s : State) (v : HostSide) : (s.withHost v).wheel = s.wheel := rfl
@[simp] theorem State.withHost_seq (s : State) (v : HostSide) : (s.withHost v).seq = s.seq := rfl
@[simp] theorem State.withHost_dma (s : State) (v : HostSide) : (s.withHost v).dma = s.dma := rfl
@[simp] theorem State.withHost_net (s : State) (v : HostSide) : (s.withHost v).net = s.net := rfl
@[simp] theorem State.withHost_trust (s : State) (v : HostSide) : (s.withHost v).trust = s.trust := rfl
@[simp] theorem State.withHost_fw (s : State) (v : HostSide) : (s.withHost v).fw = s.fw := rfl
@[simp] theorem State.withHost_power (s : State) (v : HostSide) : (s.withHost v).power = s.power := rfl
@[simp] theorem State.withHost_boot (s : State) (v : HostSide) : (s.withHost v).boot = s.boot := rfl

@[simp] theorem State.withPcie_pending (s : State) (v : Pcie) : (s.withPcie v).pending = s.pending := rfl
@[simp] theorem State.withPcie_regs (s : State) (v : Pcie) : (s.withPcie v).regs = s.regs := rfl
@[simp] theorem State.withPcie_clk (s : State) (v : Pcie) : (s.withPcie v).clk = s.clk := rfl
@[simp] theorem State.withPcie_host (s : State) (v : Pcie) : (s.withPcie v).host = s.host := rfl
@[simp] theorem State.withPcie_pcie (s : State) (v : Pcie) : (s.withPcie v).pcie = v := rfl
@[simp] theorem State.withPcie_logs (s : State) (v : Pcie) : (s.withPcie v).logs = s.logs := rfl
@[simp] theorem State.withPcie_out (s : State) (v : Pcie) : (s.withPcie v).out = s.out := rfl
@[simp] theorem State.withPcie_freeCount (s : State) (v : Pcie) : (s.withPcie v).freeCount = s.freeCount := rfl
@[simp] theorem State.withPcie_perf (s : State) (v : Pcie) : (s.withPcie v).perf = s.perf := rfl
@[simp] theorem State.withPcie_chain (s : State) (v : Pcie) : (s.withPcie v).chain = s.chain := rfl
@[simp] theorem State.withPcie_messages (s : State) (v : Pcie) : (s.withPcie v).messages = s.messages := rfl
@[simp] theorem State.withPcie_signing (s : State) (v : Pcie) : (s.withPcie v).signing = s.signing := rfl
@[simp] theorem State.withPcie_signCount (s : State) (v : Pcie) : (s.withPcie v).signCount = s.signCount := rfl
@[simp] theorem State.withPcie_links (s : State) (v : Pcie) : (s.withPcie v).links = s.links := rfl
@[simp] theorem State.withPcie_coefs (s : State) (v : Pcie) : (s.withPcie v).coefs = s.coefs := rfl
@[simp] theorem State.withPcie_trips (s : State) (v : Pcie) : (s.withPcie v).trips = s.trips := rfl
@[simp] theorem State.withPcie_pins (s : State) (v : Pcie) : (s.withPcie v).pins = s.pins := rfl
@[simp] theorem State.withPcie_pool (s : State) (v : Pcie) : (s.withPcie v).pool = s.pool := rfl
@[simp] theorem State.withPcie_reach (s : State) (v : Pcie) : (s.withPcie v).reach = s.reach := rfl
@[simp] theorem State.withPcie_lpi (s : State) (v : Pcie) : (s.withPcie v).lpi = s.lpi := rfl
@[simp] theorem State.withPcie_classes (s : State) (v : Pcie) : (s.withPcie v).classes = s.classes := rfl
@[simp] theorem State.withPcie_mons (s : State) (v : Pcie) : (s.withPcie v).mons = s.mons := rfl
@[simp] theorem State.withPcie_cal (s : State) (v : Pcie) : (s.withPcie v).cal = s.cal := rfl
@[simp] theorem State.withPcie_lanes (s : State) (v : Pcie) : (s.withPcie v).lanes = s.lanes := rfl
@[simp] theorem State.withPcie_sides (s : State) (v : Pcie) : (s.withPcie v).sides = s.sides := rfl
@[simp] theorem State.withPcie_sram (s : State) (v : Pcie) : (s.withPcie v).sram = s.sram := rfl
@[simp] theorem State.withPcie_wheel (s : State) (v : Pcie) : (s.withPcie v).wheel = s.wheel := rfl
@[simp] theorem State.withPcie_seq (s : State) (v : Pcie) : (s.withPcie v).seq = s.seq := rfl
@[simp] theorem State.withPcie_dma (s : State) (v : Pcie) : (s.withPcie v).dma = s.dma := rfl
@[simp] theorem State.withPcie_net (s : State) (v : Pcie) : (s.withPcie v).net = s.net := rfl
@[simp] theorem State.withPcie_trust (s : State) (v : Pcie) : (s.withPcie v).trust = s.trust := rfl
@[simp] theorem State.withPcie_fw (s : State) (v : Pcie) : (s.withPcie v).fw = s.fw := rfl
@[simp] theorem State.withPcie_power (s : State) (v : Pcie) : (s.withPcie v).power = s.power := rfl
@[simp] theorem State.withPcie_boot (s : State) (v : Pcie) : (s.withPcie v).boot = s.boot := rfl

@[simp] theorem State.withLogs_pending (s : State) (v : Logs) : (s.withLogs v).pending = s.pending := rfl
@[simp] theorem State.withLogs_regs (s : State) (v : Logs) : (s.withLogs v).regs = s.regs := rfl
@[simp] theorem State.withLogs_clk (s : State) (v : Logs) : (s.withLogs v).clk = s.clk := rfl
@[simp] theorem State.withLogs_host (s : State) (v : Logs) : (s.withLogs v).host = s.host := rfl
@[simp] theorem State.withLogs_pcie (s : State) (v : Logs) : (s.withLogs v).pcie = s.pcie := rfl
@[simp] theorem State.withLogs_logs (s : State) (v : Logs) : (s.withLogs v).logs = v := rfl
@[simp] theorem State.withLogs_out (s : State) (v : Logs) : (s.withLogs v).out = s.out := rfl
@[simp] theorem State.withLogs_freeCount (s : State) (v : Logs) : (s.withLogs v).freeCount = s.freeCount := rfl
@[simp] theorem State.withLogs_perf (s : State) (v : Logs) : (s.withLogs v).perf = s.perf := rfl
@[simp] theorem State.withLogs_chain (s : State) (v : Logs) : (s.withLogs v).chain = s.chain := rfl
@[simp] theorem State.withLogs_messages (s : State) (v : Logs) : (s.withLogs v).messages = s.messages := rfl
@[simp] theorem State.withLogs_signing (s : State) (v : Logs) : (s.withLogs v).signing = s.signing := rfl
@[simp] theorem State.withLogs_signCount (s : State) (v : Logs) : (s.withLogs v).signCount = s.signCount := rfl
@[simp] theorem State.withLogs_links (s : State) (v : Logs) : (s.withLogs v).links = s.links := rfl
@[simp] theorem State.withLogs_coefs (s : State) (v : Logs) : (s.withLogs v).coefs = s.coefs := rfl
@[simp] theorem State.withLogs_trips (s : State) (v : Logs) : (s.withLogs v).trips = s.trips := rfl
@[simp] theorem State.withLogs_pins (s : State) (v : Logs) : (s.withLogs v).pins = s.pins := rfl
@[simp] theorem State.withLogs_pool (s : State) (v : Logs) : (s.withLogs v).pool = s.pool := rfl
@[simp] theorem State.withLogs_reach (s : State) (v : Logs) : (s.withLogs v).reach = s.reach := rfl
@[simp] theorem State.withLogs_lpi (s : State) (v : Logs) : (s.withLogs v).lpi = s.lpi := rfl
@[simp] theorem State.withLogs_classes (s : State) (v : Logs) : (s.withLogs v).classes = s.classes := rfl
@[simp] theorem State.withLogs_mons (s : State) (v : Logs) : (s.withLogs v).mons = s.mons := rfl
@[simp] theorem State.withLogs_cal (s : State) (v : Logs) : (s.withLogs v).cal = s.cal := rfl
@[simp] theorem State.withLogs_lanes (s : State) (v : Logs) : (s.withLogs v).lanes = s.lanes := rfl
@[simp] theorem State.withLogs_sides (s : State) (v : Logs) : (s.withLogs v).sides = s.sides := rfl
@[simp] theorem State.withLogs_sram (s : State) (v : Logs) : (s.withLogs v).sram = s.sram := rfl
@[simp] theorem State.withLogs_wheel (s : State) (v : Logs) : (s.withLogs v).wheel = s.wheel := rfl
@[simp] theorem State.withLogs_seq (s : State) (v : Logs) : (s.withLogs v).seq = s.seq := rfl
@[simp] theorem State.withLogs_dma (s : State) (v : Logs) : (s.withLogs v).dma = s.dma := rfl
@[simp] theorem State.withLogs_net (s : State) (v : Logs) : (s.withLogs v).net = s.net := rfl
@[simp] theorem State.withLogs_trust (s : State) (v : Logs) : (s.withLogs v).trust = s.trust := rfl
@[simp] theorem State.withLogs_fw (s : State) (v : Logs) : (s.withLogs v).fw = s.fw := rfl
@[simp] theorem State.withLogs_power (s : State) (v : Logs) : (s.withLogs v).power = s.power := rfl
@[simp] theorem State.withLogs_boot (s : State) (v : Logs) : (s.withLogs v).boot = s.boot := rfl

@[simp] theorem State.withOut_pending (s : State) (v : List Output) : (s.withOut v).pending = s.pending := rfl
@[simp] theorem State.withOut_regs (s : State) (v : List Output) : (s.withOut v).regs = s.regs := rfl
@[simp] theorem State.withOut_clk (s : State) (v : List Output) : (s.withOut v).clk = s.clk := rfl
@[simp] theorem State.withOut_host (s : State) (v : List Output) : (s.withOut v).host = s.host := rfl
@[simp] theorem State.withOut_pcie (s : State) (v : List Output) : (s.withOut v).pcie = s.pcie := rfl
@[simp] theorem State.withOut_logs (s : State) (v : List Output) : (s.withOut v).logs = s.logs := rfl
@[simp] theorem State.withOut_out (s : State) (v : List Output) : (s.withOut v).out = v := rfl
@[simp] theorem State.withOut_freeCount (s : State) (v : List Output) : (s.withOut v).freeCount = s.freeCount := rfl
@[simp] theorem State.withOut_perf (s : State) (v : List Output) : (s.withOut v).perf = s.perf := rfl
@[simp] theorem State.withOut_chain (s : State) (v : List Output) : (s.withOut v).chain = s.chain := rfl
@[simp] theorem State.withOut_messages (s : State) (v : List Output) : (s.withOut v).messages = s.messages := rfl
@[simp] theorem State.withOut_signing (s : State) (v : List Output) : (s.withOut v).signing = s.signing := rfl
@[simp] theorem State.withOut_signCount (s : State) (v : List Output) : (s.withOut v).signCount = s.signCount := rfl
@[simp] theorem State.withOut_links (s : State) (v : List Output) : (s.withOut v).links = s.links := rfl
@[simp] theorem State.withOut_coefs (s : State) (v : List Output) : (s.withOut v).coefs = s.coefs := rfl
@[simp] theorem State.withOut_trips (s : State) (v : List Output) : (s.withOut v).trips = s.trips := rfl
@[simp] theorem State.withOut_pins (s : State) (v : List Output) : (s.withOut v).pins = s.pins := rfl
@[simp] theorem State.withOut_pool (s : State) (v : List Output) : (s.withOut v).pool = s.pool := rfl
@[simp] theorem State.withOut_reach (s : State) (v : List Output) : (s.withOut v).reach = s.reach := rfl
@[simp] theorem State.withOut_lpi (s : State) (v : List Output) : (s.withOut v).lpi = s.lpi := rfl
@[simp] theorem State.withOut_classes (s : State) (v : List Output) : (s.withOut v).classes = s.classes := rfl
@[simp] theorem State.withOut_mons (s : State) (v : List Output) : (s.withOut v).mons = s.mons := rfl
@[simp] theorem State.withOut_cal (s : State) (v : List Output) : (s.withOut v).cal = s.cal := rfl
@[simp] theorem State.withOut_lanes (s : State) (v : List Output) : (s.withOut v).lanes = s.lanes := rfl
@[simp] theorem State.withOut_sides (s : State) (v : List Output) : (s.withOut v).sides = s.sides := rfl
@[simp] theorem State.withOut_sram (s : State) (v : List Output) : (s.withOut v).sram = s.sram := rfl
@[simp] theorem State.withOut_wheel (s : State) (v : List Output) : (s.withOut v).wheel = s.wheel := rfl
@[simp] theorem State.withOut_seq (s : State) (v : List Output) : (s.withOut v).seq = s.seq := rfl
@[simp] theorem State.withOut_dma (s : State) (v : List Output) : (s.withOut v).dma = s.dma := rfl
@[simp] theorem State.withOut_net (s : State) (v : List Output) : (s.withOut v).net = s.net := rfl
@[simp] theorem State.withOut_trust (s : State) (v : List Output) : (s.withOut v).trust = s.trust := rfl
@[simp] theorem State.withOut_fw (s : State) (v : List Output) : (s.withOut v).fw = s.fw := rfl
@[simp] theorem State.withOut_power (s : State) (v : List Output) : (s.withOut v).power = s.power := rfl
@[simp] theorem State.withOut_boot (s : State) (v : List Output) : (s.withOut v).boot = s.boot := rfl

@[simp] theorem State.withFreeCount_pending (s : State) (v : Nat) : (s.withFreeCount v).pending = s.pending := rfl
@[simp] theorem State.withFreeCount_regs (s : State) (v : Nat) : (s.withFreeCount v).regs = s.regs := rfl
@[simp] theorem State.withFreeCount_clk (s : State) (v : Nat) : (s.withFreeCount v).clk = s.clk := rfl
@[simp] theorem State.withFreeCount_host (s : State) (v : Nat) : (s.withFreeCount v).host = s.host := rfl
@[simp] theorem State.withFreeCount_pcie (s : State) (v : Nat) : (s.withFreeCount v).pcie = s.pcie := rfl
@[simp] theorem State.withFreeCount_logs (s : State) (v : Nat) : (s.withFreeCount v).logs = s.logs := rfl
@[simp] theorem State.withFreeCount_out (s : State) (v : Nat) : (s.withFreeCount v).out = s.out := rfl
@[simp] theorem State.withFreeCount_freeCount (s : State) (v : Nat) : (s.withFreeCount v).freeCount = v := rfl
@[simp] theorem State.withFreeCount_perf (s : State) (v : Nat) : (s.withFreeCount v).perf = s.perf := rfl
@[simp] theorem State.withFreeCount_chain (s : State) (v : Nat) : (s.withFreeCount v).chain = s.chain := rfl
@[simp] theorem State.withFreeCount_messages (s : State) (v : Nat) : (s.withFreeCount v).messages = s.messages := rfl
@[simp] theorem State.withFreeCount_signing (s : State) (v : Nat) : (s.withFreeCount v).signing = s.signing := rfl
@[simp] theorem State.withFreeCount_signCount (s : State) (v : Nat) : (s.withFreeCount v).signCount = s.signCount := rfl
@[simp] theorem State.withFreeCount_links (s : State) (v : Nat) : (s.withFreeCount v).links = s.links := rfl
@[simp] theorem State.withFreeCount_coefs (s : State) (v : Nat) : (s.withFreeCount v).coefs = s.coefs := rfl
@[simp] theorem State.withFreeCount_trips (s : State) (v : Nat) : (s.withFreeCount v).trips = s.trips := rfl
@[simp] theorem State.withFreeCount_pins (s : State) (v : Nat) : (s.withFreeCount v).pins = s.pins := rfl
@[simp] theorem State.withFreeCount_pool (s : State) (v : Nat) : (s.withFreeCount v).pool = s.pool := rfl
@[simp] theorem State.withFreeCount_reach (s : State) (v : Nat) : (s.withFreeCount v).reach = s.reach := rfl
@[simp] theorem State.withFreeCount_lpi (s : State) (v : Nat) : (s.withFreeCount v).lpi = s.lpi := rfl
@[simp] theorem State.withFreeCount_classes (s : State) (v : Nat) : (s.withFreeCount v).classes = s.classes := rfl
@[simp] theorem State.withFreeCount_mons (s : State) (v : Nat) : (s.withFreeCount v).mons = s.mons := rfl
@[simp] theorem State.withFreeCount_cal (s : State) (v : Nat) : (s.withFreeCount v).cal = s.cal := rfl
@[simp] theorem State.withFreeCount_lanes (s : State) (v : Nat) : (s.withFreeCount v).lanes = s.lanes := rfl
@[simp] theorem State.withFreeCount_sides (s : State) (v : Nat) : (s.withFreeCount v).sides = s.sides := rfl
@[simp] theorem State.withFreeCount_sram (s : State) (v : Nat) : (s.withFreeCount v).sram = s.sram := rfl
@[simp] theorem State.withFreeCount_wheel (s : State) (v : Nat) : (s.withFreeCount v).wheel = s.wheel := rfl
@[simp] theorem State.withFreeCount_seq (s : State) (v : Nat) : (s.withFreeCount v).seq = s.seq := rfl
@[simp] theorem State.withFreeCount_dma (s : State) (v : Nat) : (s.withFreeCount v).dma = s.dma := rfl
@[simp] theorem State.withFreeCount_net (s : State) (v : Nat) : (s.withFreeCount v).net = s.net := rfl
@[simp] theorem State.withFreeCount_trust (s : State) (v : Nat) : (s.withFreeCount v).trust = s.trust := rfl
@[simp] theorem State.withFreeCount_fw (s : State) (v : Nat) : (s.withFreeCount v).fw = s.fw := rfl
@[simp] theorem State.withFreeCount_power (s : State) (v : Nat) : (s.withFreeCount v).power = s.power := rfl
@[simp] theorem State.withFreeCount_boot (s : State) (v : Nat) : (s.withFreeCount v).boot = s.boot := rfl

@[simp] theorem State.withPerf_pending (s : State) (v : Perf) : (s.withPerf v).pending = s.pending := rfl
@[simp] theorem State.withPerf_regs (s : State) (v : Perf) : (s.withPerf v).regs = s.regs := rfl
@[simp] theorem State.withPerf_clk (s : State) (v : Perf) : (s.withPerf v).clk = s.clk := rfl
@[simp] theorem State.withPerf_host (s : State) (v : Perf) : (s.withPerf v).host = s.host := rfl
@[simp] theorem State.withPerf_pcie (s : State) (v : Perf) : (s.withPerf v).pcie = s.pcie := rfl
@[simp] theorem State.withPerf_logs (s : State) (v : Perf) : (s.withPerf v).logs = s.logs := rfl
@[simp] theorem State.withPerf_out (s : State) (v : Perf) : (s.withPerf v).out = s.out := rfl
@[simp] theorem State.withPerf_freeCount (s : State) (v : Perf) : (s.withPerf v).freeCount = s.freeCount := rfl
@[simp] theorem State.withPerf_perf (s : State) (v : Perf) : (s.withPerf v).perf = v := rfl
@[simp] theorem State.withPerf_chain (s : State) (v : Perf) : (s.withPerf v).chain = s.chain := rfl
@[simp] theorem State.withPerf_messages (s : State) (v : Perf) : (s.withPerf v).messages = s.messages := rfl
@[simp] theorem State.withPerf_signing (s : State) (v : Perf) : (s.withPerf v).signing = s.signing := rfl
@[simp] theorem State.withPerf_signCount (s : State) (v : Perf) : (s.withPerf v).signCount = s.signCount := rfl
@[simp] theorem State.withPerf_links (s : State) (v : Perf) : (s.withPerf v).links = s.links := rfl
@[simp] theorem State.withPerf_coefs (s : State) (v : Perf) : (s.withPerf v).coefs = s.coefs := rfl
@[simp] theorem State.withPerf_trips (s : State) (v : Perf) : (s.withPerf v).trips = s.trips := rfl
@[simp] theorem State.withPerf_pins (s : State) (v : Perf) : (s.withPerf v).pins = s.pins := rfl
@[simp] theorem State.withPerf_pool (s : State) (v : Perf) : (s.withPerf v).pool = s.pool := rfl
@[simp] theorem State.withPerf_reach (s : State) (v : Perf) : (s.withPerf v).reach = s.reach := rfl
@[simp] theorem State.withPerf_lpi (s : State) (v : Perf) : (s.withPerf v).lpi = s.lpi := rfl
@[simp] theorem State.withPerf_classes (s : State) (v : Perf) : (s.withPerf v).classes = s.classes := rfl
@[simp] theorem State.withPerf_mons (s : State) (v : Perf) : (s.withPerf v).mons = s.mons := rfl
@[simp] theorem State.withPerf_cal (s : State) (v : Perf) : (s.withPerf v).cal = s.cal := rfl
@[simp] theorem State.withPerf_lanes (s : State) (v : Perf) : (s.withPerf v).lanes = s.lanes := rfl
@[simp] theorem State.withPerf_sides (s : State) (v : Perf) : (s.withPerf v).sides = s.sides := rfl
@[simp] theorem State.withPerf_sram (s : State) (v : Perf) : (s.withPerf v).sram = s.sram := rfl
@[simp] theorem State.withPerf_wheel (s : State) (v : Perf) : (s.withPerf v).wheel = s.wheel := rfl
@[simp] theorem State.withPerf_seq (s : State) (v : Perf) : (s.withPerf v).seq = s.seq := rfl
@[simp] theorem State.withPerf_dma (s : State) (v : Perf) : (s.withPerf v).dma = s.dma := rfl
@[simp] theorem State.withPerf_net (s : State) (v : Perf) : (s.withPerf v).net = s.net := rfl
@[simp] theorem State.withPerf_trust (s : State) (v : Perf) : (s.withPerf v).trust = s.trust := rfl
@[simp] theorem State.withPerf_fw (s : State) (v : Perf) : (s.withPerf v).fw = s.fw := rfl
@[simp] theorem State.withPerf_power (s : State) (v : Perf) : (s.withPerf v).power = s.power := rfl
@[simp] theorem State.withPerf_boot (s : State) (v : Perf) : (s.withPerf v).boot = s.boot := rfl

@[simp] theorem State.withChain_pending (s : State) (v : AuditChain) : (s.withChain v).pending = s.pending := rfl
@[simp] theorem State.withChain_regs (s : State) (v : AuditChain) : (s.withChain v).regs = s.regs := rfl
@[simp] theorem State.withChain_clk (s : State) (v : AuditChain) : (s.withChain v).clk = s.clk := rfl
@[simp] theorem State.withChain_host (s : State) (v : AuditChain) : (s.withChain v).host = s.host := rfl
@[simp] theorem State.withChain_pcie (s : State) (v : AuditChain) : (s.withChain v).pcie = s.pcie := rfl
@[simp] theorem State.withChain_logs (s : State) (v : AuditChain) : (s.withChain v).logs = s.logs := rfl
@[simp] theorem State.withChain_out (s : State) (v : AuditChain) : (s.withChain v).out = s.out := rfl
@[simp] theorem State.withChain_freeCount (s : State) (v : AuditChain) : (s.withChain v).freeCount = s.freeCount := rfl
@[simp] theorem State.withChain_perf (s : State) (v : AuditChain) : (s.withChain v).perf = s.perf := rfl
@[simp] theorem State.withChain_chain (s : State) (v : AuditChain) : (s.withChain v).chain = v := rfl
@[simp] theorem State.withChain_messages (s : State) (v : AuditChain) : (s.withChain v).messages = s.messages := rfl
@[simp] theorem State.withChain_signing (s : State) (v : AuditChain) : (s.withChain v).signing = s.signing := rfl
@[simp] theorem State.withChain_signCount (s : State) (v : AuditChain) : (s.withChain v).signCount = s.signCount := rfl
@[simp] theorem State.withChain_links (s : State) (v : AuditChain) : (s.withChain v).links = s.links := rfl
@[simp] theorem State.withChain_coefs (s : State) (v : AuditChain) : (s.withChain v).coefs = s.coefs := rfl
@[simp] theorem State.withChain_trips (s : State) (v : AuditChain) : (s.withChain v).trips = s.trips := rfl
@[simp] theorem State.withChain_pins (s : State) (v : AuditChain) : (s.withChain v).pins = s.pins := rfl
@[simp] theorem State.withChain_pool (s : State) (v : AuditChain) : (s.withChain v).pool = s.pool := rfl
@[simp] theorem State.withChain_reach (s : State) (v : AuditChain) : (s.withChain v).reach = s.reach := rfl
@[simp] theorem State.withChain_lpi (s : State) (v : AuditChain) : (s.withChain v).lpi = s.lpi := rfl
@[simp] theorem State.withChain_classes (s : State) (v : AuditChain) : (s.withChain v).classes = s.classes := rfl
@[simp] theorem State.withChain_mons (s : State) (v : AuditChain) : (s.withChain v).mons = s.mons := rfl
@[simp] theorem State.withChain_cal (s : State) (v : AuditChain) : (s.withChain v).cal = s.cal := rfl
@[simp] theorem State.withChain_lanes (s : State) (v : AuditChain) : (s.withChain v).lanes = s.lanes := rfl
@[simp] theorem State.withChain_sides (s : State) (v : AuditChain) : (s.withChain v).sides = s.sides := rfl
@[simp] theorem State.withChain_sram (s : State) (v : AuditChain) : (s.withChain v).sram = s.sram := rfl
@[simp] theorem State.withChain_wheel (s : State) (v : AuditChain) : (s.withChain v).wheel = s.wheel := rfl
@[simp] theorem State.withChain_seq (s : State) (v : AuditChain) : (s.withChain v).seq = s.seq := rfl
@[simp] theorem State.withChain_dma (s : State) (v : AuditChain) : (s.withChain v).dma = s.dma := rfl
@[simp] theorem State.withChain_net (s : State) (v : AuditChain) : (s.withChain v).net = s.net := rfl
@[simp] theorem State.withChain_trust (s : State) (v : AuditChain) : (s.withChain v).trust = s.trust := rfl
@[simp] theorem State.withChain_fw (s : State) (v : AuditChain) : (s.withChain v).fw = s.fw := rfl
@[simp] theorem State.withChain_power (s : State) (v : AuditChain) : (s.withChain v).power = s.power := rfl
@[simp] theorem State.withChain_boot (s : State) (v : AuditChain) : (s.withChain v).boot = s.boot := rfl

@[simp] theorem State.withMessages_pending (s : State) (v : List SsMsg) : (s.withMessages v).pending = s.pending := rfl
@[simp] theorem State.withMessages_regs (s : State) (v : List SsMsg) : (s.withMessages v).regs = s.regs := rfl
@[simp] theorem State.withMessages_clk (s : State) (v : List SsMsg) : (s.withMessages v).clk = s.clk := rfl
@[simp] theorem State.withMessages_host (s : State) (v : List SsMsg) : (s.withMessages v).host = s.host := rfl
@[simp] theorem State.withMessages_pcie (s : State) (v : List SsMsg) : (s.withMessages v).pcie = s.pcie := rfl
@[simp] theorem State.withMessages_logs (s : State) (v : List SsMsg) : (s.withMessages v).logs = s.logs := rfl
@[simp] theorem State.withMessages_out (s : State) (v : List SsMsg) : (s.withMessages v).out = s.out := rfl
@[simp] theorem State.withMessages_freeCount (s : State) (v : List SsMsg) : (s.withMessages v).freeCount = s.freeCount := rfl
@[simp] theorem State.withMessages_perf (s : State) (v : List SsMsg) : (s.withMessages v).perf = s.perf := rfl
@[simp] theorem State.withMessages_chain (s : State) (v : List SsMsg) : (s.withMessages v).chain = s.chain := rfl
@[simp] theorem State.withMessages_messages (s : State) (v : List SsMsg) : (s.withMessages v).messages = v := rfl
@[simp] theorem State.withMessages_signing (s : State) (v : List SsMsg) : (s.withMessages v).signing = s.signing := rfl
@[simp] theorem State.withMessages_signCount (s : State) (v : List SsMsg) : (s.withMessages v).signCount = s.signCount := rfl
@[simp] theorem State.withMessages_links (s : State) (v : List SsMsg) : (s.withMessages v).links = s.links := rfl
@[simp] theorem State.withMessages_coefs (s : State) (v : List SsMsg) : (s.withMessages v).coefs = s.coefs := rfl
@[simp] theorem State.withMessages_trips (s : State) (v : List SsMsg) : (s.withMessages v).trips = s.trips := rfl
@[simp] theorem State.withMessages_pins (s : State) (v : List SsMsg) : (s.withMessages v).pins = s.pins := rfl
@[simp] theorem State.withMessages_pool (s : State) (v : List SsMsg) : (s.withMessages v).pool = s.pool := rfl
@[simp] theorem State.withMessages_reach (s : State) (v : List SsMsg) : (s.withMessages v).reach = s.reach := rfl
@[simp] theorem State.withMessages_lpi (s : State) (v : List SsMsg) : (s.withMessages v).lpi = s.lpi := rfl
@[simp] theorem State.withMessages_classes (s : State) (v : List SsMsg) : (s.withMessages v).classes = s.classes := rfl
@[simp] theorem State.withMessages_mons (s : State) (v : List SsMsg) : (s.withMessages v).mons = s.mons := rfl
@[simp] theorem State.withMessages_cal (s : State) (v : List SsMsg) : (s.withMessages v).cal = s.cal := rfl
@[simp] theorem State.withMessages_lanes (s : State) (v : List SsMsg) : (s.withMessages v).lanes = s.lanes := rfl
@[simp] theorem State.withMessages_sides (s : State) (v : List SsMsg) : (s.withMessages v).sides = s.sides := rfl
@[simp] theorem State.withMessages_sram (s : State) (v : List SsMsg) : (s.withMessages v).sram = s.sram := rfl
@[simp] theorem State.withMessages_wheel (s : State) (v : List SsMsg) : (s.withMessages v).wheel = s.wheel := rfl
@[simp] theorem State.withMessages_seq (s : State) (v : List SsMsg) : (s.withMessages v).seq = s.seq := rfl
@[simp] theorem State.withMessages_dma (s : State) (v : List SsMsg) : (s.withMessages v).dma = s.dma := rfl
@[simp] theorem State.withMessages_net (s : State) (v : List SsMsg) : (s.withMessages v).net = s.net := rfl
@[simp] theorem State.withMessages_trust (s : State) (v : List SsMsg) : (s.withMessages v).trust = s.trust := rfl
@[simp] theorem State.withMessages_fw (s : State) (v : List SsMsg) : (s.withMessages v).fw = s.fw := rfl
@[simp] theorem State.withMessages_power (s : State) (v : List SsMsg) : (s.withMessages v).power = s.power := rfl
@[simp] theorem State.withMessages_boot (s : State) (v : List SsMsg) : (s.withMessages v).boot = s.boot := rfl

@[simp] theorem State.withSigning_pending (s : State) (v : List SignJob) : (s.withSigning v).pending = s.pending := rfl
@[simp] theorem State.withSigning_regs (s : State) (v : List SignJob) : (s.withSigning v).regs = s.regs := rfl
@[simp] theorem State.withSigning_clk (s : State) (v : List SignJob) : (s.withSigning v).clk = s.clk := rfl
@[simp] theorem State.withSigning_host (s : State) (v : List SignJob) : (s.withSigning v).host = s.host := rfl
@[simp] theorem State.withSigning_pcie (s : State) (v : List SignJob) : (s.withSigning v).pcie = s.pcie := rfl
@[simp] theorem State.withSigning_logs (s : State) (v : List SignJob) : (s.withSigning v).logs = s.logs := rfl
@[simp] theorem State.withSigning_out (s : State) (v : List SignJob) : (s.withSigning v).out = s.out := rfl
@[simp] theorem State.withSigning_freeCount (s : State) (v : List SignJob) : (s.withSigning v).freeCount = s.freeCount := rfl
@[simp] theorem State.withSigning_perf (s : State) (v : List SignJob) : (s.withSigning v).perf = s.perf := rfl
@[simp] theorem State.withSigning_chain (s : State) (v : List SignJob) : (s.withSigning v).chain = s.chain := rfl
@[simp] theorem State.withSigning_messages (s : State) (v : List SignJob) : (s.withSigning v).messages = s.messages := rfl
@[simp] theorem State.withSigning_signing (s : State) (v : List SignJob) : (s.withSigning v).signing = v := rfl
@[simp] theorem State.withSigning_signCount (s : State) (v : List SignJob) : (s.withSigning v).signCount = s.signCount := rfl
@[simp] theorem State.withSigning_links (s : State) (v : List SignJob) : (s.withSigning v).links = s.links := rfl
@[simp] theorem State.withSigning_coefs (s : State) (v : List SignJob) : (s.withSigning v).coefs = s.coefs := rfl
@[simp] theorem State.withSigning_trips (s : State) (v : List SignJob) : (s.withSigning v).trips = s.trips := rfl
@[simp] theorem State.withSigning_pins (s : State) (v : List SignJob) : (s.withSigning v).pins = s.pins := rfl
@[simp] theorem State.withSigning_pool (s : State) (v : List SignJob) : (s.withSigning v).pool = s.pool := rfl
@[simp] theorem State.withSigning_reach (s : State) (v : List SignJob) : (s.withSigning v).reach = s.reach := rfl
@[simp] theorem State.withSigning_lpi (s : State) (v : List SignJob) : (s.withSigning v).lpi = s.lpi := rfl
@[simp] theorem State.withSigning_classes (s : State) (v : List SignJob) : (s.withSigning v).classes = s.classes := rfl
@[simp] theorem State.withSigning_mons (s : State) (v : List SignJob) : (s.withSigning v).mons = s.mons := rfl
@[simp] theorem State.withSigning_cal (s : State) (v : List SignJob) : (s.withSigning v).cal = s.cal := rfl
@[simp] theorem State.withSigning_lanes (s : State) (v : List SignJob) : (s.withSigning v).lanes = s.lanes := rfl
@[simp] theorem State.withSigning_sides (s : State) (v : List SignJob) : (s.withSigning v).sides = s.sides := rfl
@[simp] theorem State.withSigning_sram (s : State) (v : List SignJob) : (s.withSigning v).sram = s.sram := rfl
@[simp] theorem State.withSigning_wheel (s : State) (v : List SignJob) : (s.withSigning v).wheel = s.wheel := rfl
@[simp] theorem State.withSigning_seq (s : State) (v : List SignJob) : (s.withSigning v).seq = s.seq := rfl
@[simp] theorem State.withSigning_dma (s : State) (v : List SignJob) : (s.withSigning v).dma = s.dma := rfl
@[simp] theorem State.withSigning_net (s : State) (v : List SignJob) : (s.withSigning v).net = s.net := rfl
@[simp] theorem State.withSigning_trust (s : State) (v : List SignJob) : (s.withSigning v).trust = s.trust := rfl
@[simp] theorem State.withSigning_fw (s : State) (v : List SignJob) : (s.withSigning v).fw = s.fw := rfl
@[simp] theorem State.withSigning_power (s : State) (v : List SignJob) : (s.withSigning v).power = s.power := rfl
@[simp] theorem State.withSigning_boot (s : State) (v : List SignJob) : (s.withSigning v).boot = s.boot := rfl

@[simp] theorem State.withSignCount_pending (s : State) (v : Nat) : (s.withSignCount v).pending = s.pending := rfl
@[simp] theorem State.withSignCount_regs (s : State) (v : Nat) : (s.withSignCount v).regs = s.regs := rfl
@[simp] theorem State.withSignCount_clk (s : State) (v : Nat) : (s.withSignCount v).clk = s.clk := rfl
@[simp] theorem State.withSignCount_host (s : State) (v : Nat) : (s.withSignCount v).host = s.host := rfl
@[simp] theorem State.withSignCount_pcie (s : State) (v : Nat) : (s.withSignCount v).pcie = s.pcie := rfl
@[simp] theorem State.withSignCount_logs (s : State) (v : Nat) : (s.withSignCount v).logs = s.logs := rfl
@[simp] theorem State.withSignCount_out (s : State) (v : Nat) : (s.withSignCount v).out = s.out := rfl
@[simp] theorem State.withSignCount_freeCount (s : State) (v : Nat) : (s.withSignCount v).freeCount = s.freeCount := rfl
@[simp] theorem State.withSignCount_perf (s : State) (v : Nat) : (s.withSignCount v).perf = s.perf := rfl
@[simp] theorem State.withSignCount_chain (s : State) (v : Nat) : (s.withSignCount v).chain = s.chain := rfl
@[simp] theorem State.withSignCount_messages (s : State) (v : Nat) : (s.withSignCount v).messages = s.messages := rfl
@[simp] theorem State.withSignCount_signing (s : State) (v : Nat) : (s.withSignCount v).signing = s.signing := rfl
@[simp] theorem State.withSignCount_signCount (s : State) (v : Nat) : (s.withSignCount v).signCount = v := rfl
@[simp] theorem State.withSignCount_links (s : State) (v : Nat) : (s.withSignCount v).links = s.links := rfl
@[simp] theorem State.withSignCount_coefs (s : State) (v : Nat) : (s.withSignCount v).coefs = s.coefs := rfl
@[simp] theorem State.withSignCount_trips (s : State) (v : Nat) : (s.withSignCount v).trips = s.trips := rfl
@[simp] theorem State.withSignCount_pins (s : State) (v : Nat) : (s.withSignCount v).pins = s.pins := rfl
@[simp] theorem State.withSignCount_pool (s : State) (v : Nat) : (s.withSignCount v).pool = s.pool := rfl
@[simp] theorem State.withSignCount_reach (s : State) (v : Nat) : (s.withSignCount v).reach = s.reach := rfl
@[simp] theorem State.withSignCount_lpi (s : State) (v : Nat) : (s.withSignCount v).lpi = s.lpi := rfl
@[simp] theorem State.withSignCount_classes (s : State) (v : Nat) : (s.withSignCount v).classes = s.classes := rfl
@[simp] theorem State.withSignCount_mons (s : State) (v : Nat) : (s.withSignCount v).mons = s.mons := rfl
@[simp] theorem State.withSignCount_cal (s : State) (v : Nat) : (s.withSignCount v).cal = s.cal := rfl
@[simp] theorem State.withSignCount_lanes (s : State) (v : Nat) : (s.withSignCount v).lanes = s.lanes := rfl
@[simp] theorem State.withSignCount_sides (s : State) (v : Nat) : (s.withSignCount v).sides = s.sides := rfl
@[simp] theorem State.withSignCount_sram (s : State) (v : Nat) : (s.withSignCount v).sram = s.sram := rfl
@[simp] theorem State.withSignCount_wheel (s : State) (v : Nat) : (s.withSignCount v).wheel = s.wheel := rfl
@[simp] theorem State.withSignCount_seq (s : State) (v : Nat) : (s.withSignCount v).seq = s.seq := rfl
@[simp] theorem State.withSignCount_dma (s : State) (v : Nat) : (s.withSignCount v).dma = s.dma := rfl
@[simp] theorem State.withSignCount_net (s : State) (v : Nat) : (s.withSignCount v).net = s.net := rfl
@[simp] theorem State.withSignCount_trust (s : State) (v : Nat) : (s.withSignCount v).trust = s.trust := rfl
@[simp] theorem State.withSignCount_fw (s : State) (v : Nat) : (s.withSignCount v).fw = s.fw := rfl
@[simp] theorem State.withSignCount_power (s : State) (v : Nat) : (s.withSignCount v).power = s.power := rfl
@[simp] theorem State.withSignCount_boot (s : State) (v : Nat) : (s.withSignCount v).boot = s.boot := rfl

@[simp] theorem State.withLinks_pending (s : State) (v : List (Nat × Link)) : (s.withLinks v).pending = s.pending := rfl
@[simp] theorem State.withLinks_regs (s : State) (v : List (Nat × Link)) : (s.withLinks v).regs = s.regs := rfl
@[simp] theorem State.withLinks_clk (s : State) (v : List (Nat × Link)) : (s.withLinks v).clk = s.clk := rfl
@[simp] theorem State.withLinks_host (s : State) (v : List (Nat × Link)) : (s.withLinks v).host = s.host := rfl
@[simp] theorem State.withLinks_pcie (s : State) (v : List (Nat × Link)) : (s.withLinks v).pcie = s.pcie := rfl
@[simp] theorem State.withLinks_logs (s : State) (v : List (Nat × Link)) : (s.withLinks v).logs = s.logs := rfl
@[simp] theorem State.withLinks_out (s : State) (v : List (Nat × Link)) : (s.withLinks v).out = s.out := rfl
@[simp] theorem State.withLinks_freeCount (s : State) (v : List (Nat × Link)) : (s.withLinks v).freeCount = s.freeCount := rfl
@[simp] theorem State.withLinks_perf (s : State) (v : List (Nat × Link)) : (s.withLinks v).perf = s.perf := rfl
@[simp] theorem State.withLinks_chain (s : State) (v : List (Nat × Link)) : (s.withLinks v).chain = s.chain := rfl
@[simp] theorem State.withLinks_messages (s : State) (v : List (Nat × Link)) : (s.withLinks v).messages = s.messages := rfl
@[simp] theorem State.withLinks_signing (s : State) (v : List (Nat × Link)) : (s.withLinks v).signing = s.signing := rfl
@[simp] theorem State.withLinks_signCount (s : State) (v : List (Nat × Link)) : (s.withLinks v).signCount = s.signCount := rfl
@[simp] theorem State.withLinks_links (s : State) (v : List (Nat × Link)) : (s.withLinks v).links = v := rfl
@[simp] theorem State.withLinks_coefs (s : State) (v : List (Nat × Link)) : (s.withLinks v).coefs = s.coefs := rfl
@[simp] theorem State.withLinks_trips (s : State) (v : List (Nat × Link)) : (s.withLinks v).trips = s.trips := rfl
@[simp] theorem State.withLinks_pins (s : State) (v : List (Nat × Link)) : (s.withLinks v).pins = s.pins := rfl
@[simp] theorem State.withLinks_pool (s : State) (v : List (Nat × Link)) : (s.withLinks v).pool = s.pool := rfl
@[simp] theorem State.withLinks_reach (s : State) (v : List (Nat × Link)) : (s.withLinks v).reach = s.reach := rfl
@[simp] theorem State.withLinks_lpi (s : State) (v : List (Nat × Link)) : (s.withLinks v).lpi = s.lpi := rfl
@[simp] theorem State.withLinks_classes (s : State) (v : List (Nat × Link)) : (s.withLinks v).classes = s.classes := rfl
@[simp] theorem State.withLinks_mons (s : State) (v : List (Nat × Link)) : (s.withLinks v).mons = s.mons := rfl
@[simp] theorem State.withLinks_cal (s : State) (v : List (Nat × Link)) : (s.withLinks v).cal = s.cal := rfl
@[simp] theorem State.withLinks_lanes (s : State) (v : List (Nat × Link)) : (s.withLinks v).lanes = s.lanes := rfl
@[simp] theorem State.withLinks_sides (s : State) (v : List (Nat × Link)) : (s.withLinks v).sides = s.sides := rfl
@[simp] theorem State.withLinks_sram (s : State) (v : List (Nat × Link)) : (s.withLinks v).sram = s.sram := rfl
@[simp] theorem State.withLinks_wheel (s : State) (v : List (Nat × Link)) : (s.withLinks v).wheel = s.wheel := rfl
@[simp] theorem State.withLinks_seq (s : State) (v : List (Nat × Link)) : (s.withLinks v).seq = s.seq := rfl
@[simp] theorem State.withLinks_dma (s : State) (v : List (Nat × Link)) : (s.withLinks v).dma = s.dma := rfl
@[simp] theorem State.withLinks_net (s : State) (v : List (Nat × Link)) : (s.withLinks v).net = s.net := rfl
@[simp] theorem State.withLinks_trust (s : State) (v : List (Nat × Link)) : (s.withLinks v).trust = s.trust := rfl
@[simp] theorem State.withLinks_fw (s : State) (v : List (Nat × Link)) : (s.withLinks v).fw = s.fw := rfl
@[simp] theorem State.withLinks_power (s : State) (v : List (Nat × Link)) : (s.withLinks v).power = s.power := rfl
@[simp] theorem State.withLinks_boot (s : State) (v : List (Nat × Link)) : (s.withLinks v).boot = s.boot := rfl

@[simp] theorem State.withCoefs_pending (s : State) (v : List (Nat × BitVec 18)) : (s.withCoefs v).pending = s.pending := rfl
@[simp] theorem State.withCoefs_regs (s : State) (v : List (Nat × BitVec 18)) : (s.withCoefs v).regs = s.regs := rfl
@[simp] theorem State.withCoefs_clk (s : State) (v : List (Nat × BitVec 18)) : (s.withCoefs v).clk = s.clk := rfl
@[simp] theorem State.withCoefs_host (s : State) (v : List (Nat × BitVec 18)) : (s.withCoefs v).host = s.host := rfl
@[simp] theorem State.withCoefs_pcie (s : State) (v : List (Nat × BitVec 18)) : (s.withCoefs v).pcie = s.pcie := rfl
@[simp] theorem State.withCoefs_logs (s : State) (v : List (Nat × BitVec 18)) : (s.withCoefs v).logs = s.logs := rfl
@[simp] theorem State.withCoefs_out (s : State) (v : List (Nat × BitVec 18)) : (s.withCoefs v).out = s.out := rfl
@[simp] theorem State.withCoefs_freeCount (s : State) (v : List (Nat × BitVec 18)) : (s.withCoefs v).freeCount = s.freeCount := rfl
@[simp] theorem State.withCoefs_perf (s : State) (v : List (Nat × BitVec 18)) : (s.withCoefs v).perf = s.perf := rfl
@[simp] theorem State.withCoefs_chain (s : State) (v : List (Nat × BitVec 18)) : (s.withCoefs v).chain = s.chain := rfl
@[simp] theorem State.withCoefs_messages (s : State) (v : List (Nat × BitVec 18)) : (s.withCoefs v).messages = s.messages := rfl
@[simp] theorem State.withCoefs_signing (s : State) (v : List (Nat × BitVec 18)) : (s.withCoefs v).signing = s.signing := rfl
@[simp] theorem State.withCoefs_signCount (s : State) (v : List (Nat × BitVec 18)) : (s.withCoefs v).signCount = s.signCount := rfl
@[simp] theorem State.withCoefs_links (s : State) (v : List (Nat × BitVec 18)) : (s.withCoefs v).links = s.links := rfl
@[simp] theorem State.withCoefs_coefs (s : State) (v : List (Nat × BitVec 18)) : (s.withCoefs v).coefs = v := rfl
@[simp] theorem State.withCoefs_trips (s : State) (v : List (Nat × BitVec 18)) : (s.withCoefs v).trips = s.trips := rfl
@[simp] theorem State.withCoefs_pins (s : State) (v : List (Nat × BitVec 18)) : (s.withCoefs v).pins = s.pins := rfl
@[simp] theorem State.withCoefs_pool (s : State) (v : List (Nat × BitVec 18)) : (s.withCoefs v).pool = s.pool := rfl
@[simp] theorem State.withCoefs_reach (s : State) (v : List (Nat × BitVec 18)) : (s.withCoefs v).reach = s.reach := rfl
@[simp] theorem State.withCoefs_lpi (s : State) (v : List (Nat × BitVec 18)) : (s.withCoefs v).lpi = s.lpi := rfl
@[simp] theorem State.withCoefs_classes (s : State) (v : List (Nat × BitVec 18)) : (s.withCoefs v).classes = s.classes := rfl
@[simp] theorem State.withCoefs_mons (s : State) (v : List (Nat × BitVec 18)) : (s.withCoefs v).mons = s.mons := rfl
@[simp] theorem State.withCoefs_cal (s : State) (v : List (Nat × BitVec 18)) : (s.withCoefs v).cal = s.cal := rfl
@[simp] theorem State.withCoefs_lanes (s : State) (v : List (Nat × BitVec 18)) : (s.withCoefs v).lanes = s.lanes := rfl
@[simp] theorem State.withCoefs_sides (s : State) (v : List (Nat × BitVec 18)) : (s.withCoefs v).sides = s.sides := rfl
@[simp] theorem State.withCoefs_sram (s : State) (v : List (Nat × BitVec 18)) : (s.withCoefs v).sram = s.sram := rfl
@[simp] theorem State.withCoefs_wheel (s : State) (v : List (Nat × BitVec 18)) : (s.withCoefs v).wheel = s.wheel := rfl
@[simp] theorem State.withCoefs_seq (s : State) (v : List (Nat × BitVec 18)) : (s.withCoefs v).seq = s.seq := rfl
@[simp] theorem State.withCoefs_dma (s : State) (v : List (Nat × BitVec 18)) : (s.withCoefs v).dma = s.dma := rfl
@[simp] theorem State.withCoefs_net (s : State) (v : List (Nat × BitVec 18)) : (s.withCoefs v).net = s.net := rfl
@[simp] theorem State.withCoefs_trust (s : State) (v : List (Nat × BitVec 18)) : (s.withCoefs v).trust = s.trust := rfl
@[simp] theorem State.withCoefs_fw (s : State) (v : List (Nat × BitVec 18)) : (s.withCoefs v).fw = s.fw := rfl
@[simp] theorem State.withCoefs_power (s : State) (v : List (Nat × BitVec 18)) : (s.withCoefs v).power = s.power := rfl
@[simp] theorem State.withCoefs_boot (s : State) (v : List (Nat × BitVec 18)) : (s.withCoefs v).boot = s.boot := rfl

@[simp] theorem State.withTrips_pending (s : State) (v : List (Nat × TripPort)) : (s.withTrips v).pending = s.pending := rfl
@[simp] theorem State.withTrips_regs (s : State) (v : List (Nat × TripPort)) : (s.withTrips v).regs = s.regs := rfl
@[simp] theorem State.withTrips_clk (s : State) (v : List (Nat × TripPort)) : (s.withTrips v).clk = s.clk := rfl
@[simp] theorem State.withTrips_host (s : State) (v : List (Nat × TripPort)) : (s.withTrips v).host = s.host := rfl
@[simp] theorem State.withTrips_pcie (s : State) (v : List (Nat × TripPort)) : (s.withTrips v).pcie = s.pcie := rfl
@[simp] theorem State.withTrips_logs (s : State) (v : List (Nat × TripPort)) : (s.withTrips v).logs = s.logs := rfl
@[simp] theorem State.withTrips_out (s : State) (v : List (Nat × TripPort)) : (s.withTrips v).out = s.out := rfl
@[simp] theorem State.withTrips_freeCount (s : State) (v : List (Nat × TripPort)) : (s.withTrips v).freeCount = s.freeCount := rfl
@[simp] theorem State.withTrips_perf (s : State) (v : List (Nat × TripPort)) : (s.withTrips v).perf = s.perf := rfl
@[simp] theorem State.withTrips_chain (s : State) (v : List (Nat × TripPort)) : (s.withTrips v).chain = s.chain := rfl
@[simp] theorem State.withTrips_messages (s : State) (v : List (Nat × TripPort)) : (s.withTrips v).messages = s.messages := rfl
@[simp] theorem State.withTrips_signing (s : State) (v : List (Nat × TripPort)) : (s.withTrips v).signing = s.signing := rfl
@[simp] theorem State.withTrips_signCount (s : State) (v : List (Nat × TripPort)) : (s.withTrips v).signCount = s.signCount := rfl
@[simp] theorem State.withTrips_links (s : State) (v : List (Nat × TripPort)) : (s.withTrips v).links = s.links := rfl
@[simp] theorem State.withTrips_coefs (s : State) (v : List (Nat × TripPort)) : (s.withTrips v).coefs = s.coefs := rfl
@[simp] theorem State.withTrips_trips (s : State) (v : List (Nat × TripPort)) : (s.withTrips v).trips = v := rfl
@[simp] theorem State.withTrips_pins (s : State) (v : List (Nat × TripPort)) : (s.withTrips v).pins = s.pins := rfl
@[simp] theorem State.withTrips_pool (s : State) (v : List (Nat × TripPort)) : (s.withTrips v).pool = s.pool := rfl
@[simp] theorem State.withTrips_reach (s : State) (v : List (Nat × TripPort)) : (s.withTrips v).reach = s.reach := rfl
@[simp] theorem State.withTrips_lpi (s : State) (v : List (Nat × TripPort)) : (s.withTrips v).lpi = s.lpi := rfl
@[simp] theorem State.withTrips_classes (s : State) (v : List (Nat × TripPort)) : (s.withTrips v).classes = s.classes := rfl
@[simp] theorem State.withTrips_mons (s : State) (v : List (Nat × TripPort)) : (s.withTrips v).mons = s.mons := rfl
@[simp] theorem State.withTrips_cal (s : State) (v : List (Nat × TripPort)) : (s.withTrips v).cal = s.cal := rfl
@[simp] theorem State.withTrips_lanes (s : State) (v : List (Nat × TripPort)) : (s.withTrips v).lanes = s.lanes := rfl
@[simp] theorem State.withTrips_sides (s : State) (v : List (Nat × TripPort)) : (s.withTrips v).sides = s.sides := rfl
@[simp] theorem State.withTrips_sram (s : State) (v : List (Nat × TripPort)) : (s.withTrips v).sram = s.sram := rfl
@[simp] theorem State.withTrips_wheel (s : State) (v : List (Nat × TripPort)) : (s.withTrips v).wheel = s.wheel := rfl
@[simp] theorem State.withTrips_seq (s : State) (v : List (Nat × TripPort)) : (s.withTrips v).seq = s.seq := rfl
@[simp] theorem State.withTrips_dma (s : State) (v : List (Nat × TripPort)) : (s.withTrips v).dma = s.dma := rfl
@[simp] theorem State.withTrips_net (s : State) (v : List (Nat × TripPort)) : (s.withTrips v).net = s.net := rfl
@[simp] theorem State.withTrips_trust (s : State) (v : List (Nat × TripPort)) : (s.withTrips v).trust = s.trust := rfl
@[simp] theorem State.withTrips_fw (s : State) (v : List (Nat × TripPort)) : (s.withTrips v).fw = s.fw := rfl
@[simp] theorem State.withTrips_power (s : State) (v : List (Nat × TripPort)) : (s.withTrips v).power = s.power := rfl
@[simp] theorem State.withTrips_boot (s : State) (v : List (Nat × TripPort)) : (s.withTrips v).boot = s.boot := rfl

@[simp] theorem State.withPins_pending (s : State) (v : TripPins) : (s.withPins v).pending = s.pending := rfl
@[simp] theorem State.withPins_regs (s : State) (v : TripPins) : (s.withPins v).regs = s.regs := rfl
@[simp] theorem State.withPins_clk (s : State) (v : TripPins) : (s.withPins v).clk = s.clk := rfl
@[simp] theorem State.withPins_host (s : State) (v : TripPins) : (s.withPins v).host = s.host := rfl
@[simp] theorem State.withPins_pcie (s : State) (v : TripPins) : (s.withPins v).pcie = s.pcie := rfl
@[simp] theorem State.withPins_logs (s : State) (v : TripPins) : (s.withPins v).logs = s.logs := rfl
@[simp] theorem State.withPins_out (s : State) (v : TripPins) : (s.withPins v).out = s.out := rfl
@[simp] theorem State.withPins_freeCount (s : State) (v : TripPins) : (s.withPins v).freeCount = s.freeCount := rfl
@[simp] theorem State.withPins_perf (s : State) (v : TripPins) : (s.withPins v).perf = s.perf := rfl
@[simp] theorem State.withPins_chain (s : State) (v : TripPins) : (s.withPins v).chain = s.chain := rfl
@[simp] theorem State.withPins_messages (s : State) (v : TripPins) : (s.withPins v).messages = s.messages := rfl
@[simp] theorem State.withPins_signing (s : State) (v : TripPins) : (s.withPins v).signing = s.signing := rfl
@[simp] theorem State.withPins_signCount (s : State) (v : TripPins) : (s.withPins v).signCount = s.signCount := rfl
@[simp] theorem State.withPins_links (s : State) (v : TripPins) : (s.withPins v).links = s.links := rfl
@[simp] theorem State.withPins_coefs (s : State) (v : TripPins) : (s.withPins v).coefs = s.coefs := rfl
@[simp] theorem State.withPins_trips (s : State) (v : TripPins) : (s.withPins v).trips = s.trips := rfl
@[simp] theorem State.withPins_pins (s : State) (v : TripPins) : (s.withPins v).pins = v := rfl
@[simp] theorem State.withPins_pool (s : State) (v : TripPins) : (s.withPins v).pool = s.pool := rfl
@[simp] theorem State.withPins_reach (s : State) (v : TripPins) : (s.withPins v).reach = s.reach := rfl
@[simp] theorem State.withPins_lpi (s : State) (v : TripPins) : (s.withPins v).lpi = s.lpi := rfl
@[simp] theorem State.withPins_classes (s : State) (v : TripPins) : (s.withPins v).classes = s.classes := rfl
@[simp] theorem State.withPins_mons (s : State) (v : TripPins) : (s.withPins v).mons = s.mons := rfl
@[simp] theorem State.withPins_cal (s : State) (v : TripPins) : (s.withPins v).cal = s.cal := rfl
@[simp] theorem State.withPins_lanes (s : State) (v : TripPins) : (s.withPins v).lanes = s.lanes := rfl
@[simp] theorem State.withPins_sides (s : State) (v : TripPins) : (s.withPins v).sides = s.sides := rfl
@[simp] theorem State.withPins_sram (s : State) (v : TripPins) : (s.withPins v).sram = s.sram := rfl
@[simp] theorem State.withPins_wheel (s : State) (v : TripPins) : (s.withPins v).wheel = s.wheel := rfl
@[simp] theorem State.withPins_seq (s : State) (v : TripPins) : (s.withPins v).seq = s.seq := rfl
@[simp] theorem State.withPins_dma (s : State) (v : TripPins) : (s.withPins v).dma = s.dma := rfl
@[simp] theorem State.withPins_net (s : State) (v : TripPins) : (s.withPins v).net = s.net := rfl
@[simp] theorem State.withPins_trust (s : State) (v : TripPins) : (s.withPins v).trust = s.trust := rfl
@[simp] theorem State.withPins_fw (s : State) (v : TripPins) : (s.withPins v).fw = s.fw := rfl
@[simp] theorem State.withPins_power (s : State) (v : TripPins) : (s.withPins v).power = s.power := rfl
@[simp] theorem State.withPins_boot (s : State) (v : TripPins) : (s.withPins v).boot = s.boot := rfl

@[simp] theorem State.withPool_pending (s : State) (v : Pool) : (s.withPool v).pending = s.pending := rfl
@[simp] theorem State.withPool_regs (s : State) (v : Pool) : (s.withPool v).regs = s.regs := rfl
@[simp] theorem State.withPool_clk (s : State) (v : Pool) : (s.withPool v).clk = s.clk := rfl
@[simp] theorem State.withPool_host (s : State) (v : Pool) : (s.withPool v).host = s.host := rfl
@[simp] theorem State.withPool_pcie (s : State) (v : Pool) : (s.withPool v).pcie = s.pcie := rfl
@[simp] theorem State.withPool_logs (s : State) (v : Pool) : (s.withPool v).logs = s.logs := rfl
@[simp] theorem State.withPool_out (s : State) (v : Pool) : (s.withPool v).out = s.out := rfl
@[simp] theorem State.withPool_freeCount (s : State) (v : Pool) : (s.withPool v).freeCount = s.freeCount := rfl
@[simp] theorem State.withPool_perf (s : State) (v : Pool) : (s.withPool v).perf = s.perf := rfl
@[simp] theorem State.withPool_chain (s : State) (v : Pool) : (s.withPool v).chain = s.chain := rfl
@[simp] theorem State.withPool_messages (s : State) (v : Pool) : (s.withPool v).messages = s.messages := rfl
@[simp] theorem State.withPool_signing (s : State) (v : Pool) : (s.withPool v).signing = s.signing := rfl
@[simp] theorem State.withPool_signCount (s : State) (v : Pool) : (s.withPool v).signCount = s.signCount := rfl
@[simp] theorem State.withPool_links (s : State) (v : Pool) : (s.withPool v).links = s.links := rfl
@[simp] theorem State.withPool_coefs (s : State) (v : Pool) : (s.withPool v).coefs = s.coefs := rfl
@[simp] theorem State.withPool_trips (s : State) (v : Pool) : (s.withPool v).trips = s.trips := rfl
@[simp] theorem State.withPool_pins (s : State) (v : Pool) : (s.withPool v).pins = s.pins := rfl
@[simp] theorem State.withPool_pool (s : State) (v : Pool) : (s.withPool v).pool = v := rfl
@[simp] theorem State.withPool_reach (s : State) (v : Pool) : (s.withPool v).reach = s.reach := rfl
@[simp] theorem State.withPool_lpi (s : State) (v : Pool) : (s.withPool v).lpi = s.lpi := rfl
@[simp] theorem State.withPool_classes (s : State) (v : Pool) : (s.withPool v).classes = s.classes := rfl
@[simp] theorem State.withPool_mons (s : State) (v : Pool) : (s.withPool v).mons = s.mons := rfl
@[simp] theorem State.withPool_cal (s : State) (v : Pool) : (s.withPool v).cal = s.cal := rfl
@[simp] theorem State.withPool_lanes (s : State) (v : Pool) : (s.withPool v).lanes = s.lanes := rfl
@[simp] theorem State.withPool_sides (s : State) (v : Pool) : (s.withPool v).sides = s.sides := rfl
@[simp] theorem State.withPool_sram (s : State) (v : Pool) : (s.withPool v).sram = s.sram := rfl
@[simp] theorem State.withPool_wheel (s : State) (v : Pool) : (s.withPool v).wheel = s.wheel := rfl
@[simp] theorem State.withPool_seq (s : State) (v : Pool) : (s.withPool v).seq = s.seq := rfl
@[simp] theorem State.withPool_dma (s : State) (v : Pool) : (s.withPool v).dma = s.dma := rfl
@[simp] theorem State.withPool_net (s : State) (v : Pool) : (s.withPool v).net = s.net := rfl
@[simp] theorem State.withPool_trust (s : State) (v : Pool) : (s.withPool v).trust = s.trust := rfl
@[simp] theorem State.withPool_fw (s : State) (v : Pool) : (s.withPool v).fw = s.fw := rfl
@[simp] theorem State.withPool_power (s : State) (v : Pool) : (s.withPool v).power = s.power := rfl
@[simp] theorem State.withPool_boot (s : State) (v : Pool) : (s.withPool v).boot = s.boot := rfl

@[simp] theorem State.withReach_pending (s : State) (v : List (Nat × Reach)) : (s.withReach v).pending = s.pending := rfl
@[simp] theorem State.withReach_regs (s : State) (v : List (Nat × Reach)) : (s.withReach v).regs = s.regs := rfl
@[simp] theorem State.withReach_clk (s : State) (v : List (Nat × Reach)) : (s.withReach v).clk = s.clk := rfl
@[simp] theorem State.withReach_host (s : State) (v : List (Nat × Reach)) : (s.withReach v).host = s.host := rfl
@[simp] theorem State.withReach_pcie (s : State) (v : List (Nat × Reach)) : (s.withReach v).pcie = s.pcie := rfl
@[simp] theorem State.withReach_logs (s : State) (v : List (Nat × Reach)) : (s.withReach v).logs = s.logs := rfl
@[simp] theorem State.withReach_out (s : State) (v : List (Nat × Reach)) : (s.withReach v).out = s.out := rfl
@[simp] theorem State.withReach_freeCount (s : State) (v : List (Nat × Reach)) : (s.withReach v).freeCount = s.freeCount := rfl
@[simp] theorem State.withReach_perf (s : State) (v : List (Nat × Reach)) : (s.withReach v).perf = s.perf := rfl
@[simp] theorem State.withReach_chain (s : State) (v : List (Nat × Reach)) : (s.withReach v).chain = s.chain := rfl
@[simp] theorem State.withReach_messages (s : State) (v : List (Nat × Reach)) : (s.withReach v).messages = s.messages := rfl
@[simp] theorem State.withReach_signing (s : State) (v : List (Nat × Reach)) : (s.withReach v).signing = s.signing := rfl
@[simp] theorem State.withReach_signCount (s : State) (v : List (Nat × Reach)) : (s.withReach v).signCount = s.signCount := rfl
@[simp] theorem State.withReach_links (s : State) (v : List (Nat × Reach)) : (s.withReach v).links = s.links := rfl
@[simp] theorem State.withReach_coefs (s : State) (v : List (Nat × Reach)) : (s.withReach v).coefs = s.coefs := rfl
@[simp] theorem State.withReach_trips (s : State) (v : List (Nat × Reach)) : (s.withReach v).trips = s.trips := rfl
@[simp] theorem State.withReach_pins (s : State) (v : List (Nat × Reach)) : (s.withReach v).pins = s.pins := rfl
@[simp] theorem State.withReach_pool (s : State) (v : List (Nat × Reach)) : (s.withReach v).pool = s.pool := rfl
@[simp] theorem State.withReach_reach (s : State) (v : List (Nat × Reach)) : (s.withReach v).reach = v := rfl
@[simp] theorem State.withReach_lpi (s : State) (v : List (Nat × Reach)) : (s.withReach v).lpi = s.lpi := rfl
@[simp] theorem State.withReach_classes (s : State) (v : List (Nat × Reach)) : (s.withReach v).classes = s.classes := rfl
@[simp] theorem State.withReach_mons (s : State) (v : List (Nat × Reach)) : (s.withReach v).mons = s.mons := rfl
@[simp] theorem State.withReach_cal (s : State) (v : List (Nat × Reach)) : (s.withReach v).cal = s.cal := rfl
@[simp] theorem State.withReach_lanes (s : State) (v : List (Nat × Reach)) : (s.withReach v).lanes = s.lanes := rfl
@[simp] theorem State.withReach_sides (s : State) (v : List (Nat × Reach)) : (s.withReach v).sides = s.sides := rfl
@[simp] theorem State.withReach_sram (s : State) (v : List (Nat × Reach)) : (s.withReach v).sram = s.sram := rfl
@[simp] theorem State.withReach_wheel (s : State) (v : List (Nat × Reach)) : (s.withReach v).wheel = s.wheel := rfl
@[simp] theorem State.withReach_seq (s : State) (v : List (Nat × Reach)) : (s.withReach v).seq = s.seq := rfl
@[simp] theorem State.withReach_dma (s : State) (v : List (Nat × Reach)) : (s.withReach v).dma = s.dma := rfl
@[simp] theorem State.withReach_net (s : State) (v : List (Nat × Reach)) : (s.withReach v).net = s.net := rfl
@[simp] theorem State.withReach_trust (s : State) (v : List (Nat × Reach)) : (s.withReach v).trust = s.trust := rfl
@[simp] theorem State.withReach_fw (s : State) (v : List (Nat × Reach)) : (s.withReach v).fw = s.fw := rfl
@[simp] theorem State.withReach_power (s : State) (v : List (Nat × Reach)) : (s.withReach v).power = s.power := rfl
@[simp] theorem State.withReach_boot (s : State) (v : List (Nat × Reach)) : (s.withReach v).boot = s.boot := rfl

@[simp] theorem State.withLpi_pending (s : State) (v : List (Nat × Lpi)) : (s.withLpi v).pending = s.pending := rfl
@[simp] theorem State.withLpi_regs (s : State) (v : List (Nat × Lpi)) : (s.withLpi v).regs = s.regs := rfl
@[simp] theorem State.withLpi_clk (s : State) (v : List (Nat × Lpi)) : (s.withLpi v).clk = s.clk := rfl
@[simp] theorem State.withLpi_host (s : State) (v : List (Nat × Lpi)) : (s.withLpi v).host = s.host := rfl
@[simp] theorem State.withLpi_pcie (s : State) (v : List (Nat × Lpi)) : (s.withLpi v).pcie = s.pcie := rfl
@[simp] theorem State.withLpi_logs (s : State) (v : List (Nat × Lpi)) : (s.withLpi v).logs = s.logs := rfl
@[simp] theorem State.withLpi_out (s : State) (v : List (Nat × Lpi)) : (s.withLpi v).out = s.out := rfl
@[simp] theorem State.withLpi_freeCount (s : State) (v : List (Nat × Lpi)) : (s.withLpi v).freeCount = s.freeCount := rfl
@[simp] theorem State.withLpi_perf (s : State) (v : List (Nat × Lpi)) : (s.withLpi v).perf = s.perf := rfl
@[simp] theorem State.withLpi_chain (s : State) (v : List (Nat × Lpi)) : (s.withLpi v).chain = s.chain := rfl
@[simp] theorem State.withLpi_messages (s : State) (v : List (Nat × Lpi)) : (s.withLpi v).messages = s.messages := rfl
@[simp] theorem State.withLpi_signing (s : State) (v : List (Nat × Lpi)) : (s.withLpi v).signing = s.signing := rfl
@[simp] theorem State.withLpi_signCount (s : State) (v : List (Nat × Lpi)) : (s.withLpi v).signCount = s.signCount := rfl
@[simp] theorem State.withLpi_links (s : State) (v : List (Nat × Lpi)) : (s.withLpi v).links = s.links := rfl
@[simp] theorem State.withLpi_coefs (s : State) (v : List (Nat × Lpi)) : (s.withLpi v).coefs = s.coefs := rfl
@[simp] theorem State.withLpi_trips (s : State) (v : List (Nat × Lpi)) : (s.withLpi v).trips = s.trips := rfl
@[simp] theorem State.withLpi_pins (s : State) (v : List (Nat × Lpi)) : (s.withLpi v).pins = s.pins := rfl
@[simp] theorem State.withLpi_pool (s : State) (v : List (Nat × Lpi)) : (s.withLpi v).pool = s.pool := rfl
@[simp] theorem State.withLpi_reach (s : State) (v : List (Nat × Lpi)) : (s.withLpi v).reach = s.reach := rfl
@[simp] theorem State.withLpi_lpi (s : State) (v : List (Nat × Lpi)) : (s.withLpi v).lpi = v := rfl
@[simp] theorem State.withLpi_classes (s : State) (v : List (Nat × Lpi)) : (s.withLpi v).classes = s.classes := rfl
@[simp] theorem State.withLpi_mons (s : State) (v : List (Nat × Lpi)) : (s.withLpi v).mons = s.mons := rfl
@[simp] theorem State.withLpi_cal (s : State) (v : List (Nat × Lpi)) : (s.withLpi v).cal = s.cal := rfl
@[simp] theorem State.withLpi_lanes (s : State) (v : List (Nat × Lpi)) : (s.withLpi v).lanes = s.lanes := rfl
@[simp] theorem State.withLpi_sides (s : State) (v : List (Nat × Lpi)) : (s.withLpi v).sides = s.sides := rfl
@[simp] theorem State.withLpi_sram (s : State) (v : List (Nat × Lpi)) : (s.withLpi v).sram = s.sram := rfl
@[simp] theorem State.withLpi_wheel (s : State) (v : List (Nat × Lpi)) : (s.withLpi v).wheel = s.wheel := rfl
@[simp] theorem State.withLpi_seq (s : State) (v : List (Nat × Lpi)) : (s.withLpi v).seq = s.seq := rfl
@[simp] theorem State.withLpi_dma (s : State) (v : List (Nat × Lpi)) : (s.withLpi v).dma = s.dma := rfl
@[simp] theorem State.withLpi_net (s : State) (v : List (Nat × Lpi)) : (s.withLpi v).net = s.net := rfl
@[simp] theorem State.withLpi_trust (s : State) (v : List (Nat × Lpi)) : (s.withLpi v).trust = s.trust := rfl
@[simp] theorem State.withLpi_fw (s : State) (v : List (Nat × Lpi)) : (s.withLpi v).fw = s.fw := rfl
@[simp] theorem State.withLpi_power (s : State) (v : List (Nat × Lpi)) : (s.withLpi v).power = s.power := rfl
@[simp] theorem State.withLpi_boot (s : State) (v : List (Nat × Lpi)) : (s.withLpi v).boot = s.boot := rfl

@[simp] theorem State.withClasses_pending (s : State) (v : List (Nat × Nat)) : (s.withClasses v).pending = s.pending := rfl
@[simp] theorem State.withClasses_regs (s : State) (v : List (Nat × Nat)) : (s.withClasses v).regs = s.regs := rfl
@[simp] theorem State.withClasses_clk (s : State) (v : List (Nat × Nat)) : (s.withClasses v).clk = s.clk := rfl
@[simp] theorem State.withClasses_host (s : State) (v : List (Nat × Nat)) : (s.withClasses v).host = s.host := rfl
@[simp] theorem State.withClasses_pcie (s : State) (v : List (Nat × Nat)) : (s.withClasses v).pcie = s.pcie := rfl
@[simp] theorem State.withClasses_logs (s : State) (v : List (Nat × Nat)) : (s.withClasses v).logs = s.logs := rfl
@[simp] theorem State.withClasses_out (s : State) (v : List (Nat × Nat)) : (s.withClasses v).out = s.out := rfl
@[simp] theorem State.withClasses_freeCount (s : State) (v : List (Nat × Nat)) : (s.withClasses v).freeCount = s.freeCount := rfl
@[simp] theorem State.withClasses_perf (s : State) (v : List (Nat × Nat)) : (s.withClasses v).perf = s.perf := rfl
@[simp] theorem State.withClasses_chain (s : State) (v : List (Nat × Nat)) : (s.withClasses v).chain = s.chain := rfl
@[simp] theorem State.withClasses_messages (s : State) (v : List (Nat × Nat)) : (s.withClasses v).messages = s.messages := rfl
@[simp] theorem State.withClasses_signing (s : State) (v : List (Nat × Nat)) : (s.withClasses v).signing = s.signing := rfl
@[simp] theorem State.withClasses_signCount (s : State) (v : List (Nat × Nat)) : (s.withClasses v).signCount = s.signCount := rfl
@[simp] theorem State.withClasses_links (s : State) (v : List (Nat × Nat)) : (s.withClasses v).links = s.links := rfl
@[simp] theorem State.withClasses_coefs (s : State) (v : List (Nat × Nat)) : (s.withClasses v).coefs = s.coefs := rfl
@[simp] theorem State.withClasses_trips (s : State) (v : List (Nat × Nat)) : (s.withClasses v).trips = s.trips := rfl
@[simp] theorem State.withClasses_pins (s : State) (v : List (Nat × Nat)) : (s.withClasses v).pins = s.pins := rfl
@[simp] theorem State.withClasses_pool (s : State) (v : List (Nat × Nat)) : (s.withClasses v).pool = s.pool := rfl
@[simp] theorem State.withClasses_reach (s : State) (v : List (Nat × Nat)) : (s.withClasses v).reach = s.reach := rfl
@[simp] theorem State.withClasses_lpi (s : State) (v : List (Nat × Nat)) : (s.withClasses v).lpi = s.lpi := rfl
@[simp] theorem State.withClasses_classes (s : State) (v : List (Nat × Nat)) : (s.withClasses v).classes = v := rfl
@[simp] theorem State.withClasses_mons (s : State) (v : List (Nat × Nat)) : (s.withClasses v).mons = s.mons := rfl
@[simp] theorem State.withClasses_cal (s : State) (v : List (Nat × Nat)) : (s.withClasses v).cal = s.cal := rfl
@[simp] theorem State.withClasses_lanes (s : State) (v : List (Nat × Nat)) : (s.withClasses v).lanes = s.lanes := rfl
@[simp] theorem State.withClasses_sides (s : State) (v : List (Nat × Nat)) : (s.withClasses v).sides = s.sides := rfl
@[simp] theorem State.withClasses_sram (s : State) (v : List (Nat × Nat)) : (s.withClasses v).sram = s.sram := rfl
@[simp] theorem State.withClasses_wheel (s : State) (v : List (Nat × Nat)) : (s.withClasses v).wheel = s.wheel := rfl
@[simp] theorem State.withClasses_seq (s : State) (v : List (Nat × Nat)) : (s.withClasses v).seq = s.seq := rfl
@[simp] theorem State.withClasses_dma (s : State) (v : List (Nat × Nat)) : (s.withClasses v).dma = s.dma := rfl
@[simp] theorem State.withClasses_net (s : State) (v : List (Nat × Nat)) : (s.withClasses v).net = s.net := rfl
@[simp] theorem State.withClasses_trust (s : State) (v : List (Nat × Nat)) : (s.withClasses v).trust = s.trust := rfl
@[simp] theorem State.withClasses_fw (s : State) (v : List (Nat × Nat)) : (s.withClasses v).fw = s.fw := rfl
@[simp] theorem State.withClasses_power (s : State) (v : List (Nat × Nat)) : (s.withClasses v).power = s.power := rfl
@[simp] theorem State.withClasses_boot (s : State) (v : List (Nat × Nat)) : (s.withClasses v).boot = s.boot := rfl

@[simp] theorem State.withMons_pending (s : State) (v : List (Nat × Mon)) : (s.withMons v).pending = s.pending := rfl
@[simp] theorem State.withMons_regs (s : State) (v : List (Nat × Mon)) : (s.withMons v).regs = s.regs := rfl
@[simp] theorem State.withMons_clk (s : State) (v : List (Nat × Mon)) : (s.withMons v).clk = s.clk := rfl
@[simp] theorem State.withMons_host (s : State) (v : List (Nat × Mon)) : (s.withMons v).host = s.host := rfl
@[simp] theorem State.withMons_pcie (s : State) (v : List (Nat × Mon)) : (s.withMons v).pcie = s.pcie := rfl
@[simp] theorem State.withMons_logs (s : State) (v : List (Nat × Mon)) : (s.withMons v).logs = s.logs := rfl
@[simp] theorem State.withMons_out (s : State) (v : List (Nat × Mon)) : (s.withMons v).out = s.out := rfl
@[simp] theorem State.withMons_freeCount (s : State) (v : List (Nat × Mon)) : (s.withMons v).freeCount = s.freeCount := rfl
@[simp] theorem State.withMons_perf (s : State) (v : List (Nat × Mon)) : (s.withMons v).perf = s.perf := rfl
@[simp] theorem State.withMons_chain (s : State) (v : List (Nat × Mon)) : (s.withMons v).chain = s.chain := rfl
@[simp] theorem State.withMons_messages (s : State) (v : List (Nat × Mon)) : (s.withMons v).messages = s.messages := rfl
@[simp] theorem State.withMons_signing (s : State) (v : List (Nat × Mon)) : (s.withMons v).signing = s.signing := rfl
@[simp] theorem State.withMons_signCount (s : State) (v : List (Nat × Mon)) : (s.withMons v).signCount = s.signCount := rfl
@[simp] theorem State.withMons_links (s : State) (v : List (Nat × Mon)) : (s.withMons v).links = s.links := rfl
@[simp] theorem State.withMons_coefs (s : State) (v : List (Nat × Mon)) : (s.withMons v).coefs = s.coefs := rfl
@[simp] theorem State.withMons_trips (s : State) (v : List (Nat × Mon)) : (s.withMons v).trips = s.trips := rfl
@[simp] theorem State.withMons_pins (s : State) (v : List (Nat × Mon)) : (s.withMons v).pins = s.pins := rfl
@[simp] theorem State.withMons_pool (s : State) (v : List (Nat × Mon)) : (s.withMons v).pool = s.pool := rfl
@[simp] theorem State.withMons_reach (s : State) (v : List (Nat × Mon)) : (s.withMons v).reach = s.reach := rfl
@[simp] theorem State.withMons_lpi (s : State) (v : List (Nat × Mon)) : (s.withMons v).lpi = s.lpi := rfl
@[simp] theorem State.withMons_classes (s : State) (v : List (Nat × Mon)) : (s.withMons v).classes = s.classes := rfl
@[simp] theorem State.withMons_mons (s : State) (v : List (Nat × Mon)) : (s.withMons v).mons = v := rfl
@[simp] theorem State.withMons_cal (s : State) (v : List (Nat × Mon)) : (s.withMons v).cal = s.cal := rfl
@[simp] theorem State.withMons_lanes (s : State) (v : List (Nat × Mon)) : (s.withMons v).lanes = s.lanes := rfl
@[simp] theorem State.withMons_sides (s : State) (v : List (Nat × Mon)) : (s.withMons v).sides = s.sides := rfl
@[simp] theorem State.withMons_sram (s : State) (v : List (Nat × Mon)) : (s.withMons v).sram = s.sram := rfl
@[simp] theorem State.withMons_wheel (s : State) (v : List (Nat × Mon)) : (s.withMons v).wheel = s.wheel := rfl
@[simp] theorem State.withMons_seq (s : State) (v : List (Nat × Mon)) : (s.withMons v).seq = s.seq := rfl
@[simp] theorem State.withMons_dma (s : State) (v : List (Nat × Mon)) : (s.withMons v).dma = s.dma := rfl
@[simp] theorem State.withMons_net (s : State) (v : List (Nat × Mon)) : (s.withMons v).net = s.net := rfl
@[simp] theorem State.withMons_trust (s : State) (v : List (Nat × Mon)) : (s.withMons v).trust = s.trust := rfl
@[simp] theorem State.withMons_fw (s : State) (v : List (Nat × Mon)) : (s.withMons v).fw = s.fw := rfl
@[simp] theorem State.withMons_power (s : State) (v : List (Nat × Mon)) : (s.withMons v).power = s.power := rfl
@[simp] theorem State.withMons_boot (s : State) (v : List (Nat × Mon)) : (s.withMons v).boot = s.boot := rfl

@[simp] theorem State.withCal_pending (s : State) (v : Cal) : (s.withCal v).pending = s.pending := rfl
@[simp] theorem State.withCal_regs (s : State) (v : Cal) : (s.withCal v).regs = s.regs := rfl
@[simp] theorem State.withCal_clk (s : State) (v : Cal) : (s.withCal v).clk = s.clk := rfl
@[simp] theorem State.withCal_host (s : State) (v : Cal) : (s.withCal v).host = s.host := rfl
@[simp] theorem State.withCal_pcie (s : State) (v : Cal) : (s.withCal v).pcie = s.pcie := rfl
@[simp] theorem State.withCal_logs (s : State) (v : Cal) : (s.withCal v).logs = s.logs := rfl
@[simp] theorem State.withCal_out (s : State) (v : Cal) : (s.withCal v).out = s.out := rfl
@[simp] theorem State.withCal_freeCount (s : State) (v : Cal) : (s.withCal v).freeCount = s.freeCount := rfl
@[simp] theorem State.withCal_perf (s : State) (v : Cal) : (s.withCal v).perf = s.perf := rfl
@[simp] theorem State.withCal_chain (s : State) (v : Cal) : (s.withCal v).chain = s.chain := rfl
@[simp] theorem State.withCal_messages (s : State) (v : Cal) : (s.withCal v).messages = s.messages := rfl
@[simp] theorem State.withCal_signing (s : State) (v : Cal) : (s.withCal v).signing = s.signing := rfl
@[simp] theorem State.withCal_signCount (s : State) (v : Cal) : (s.withCal v).signCount = s.signCount := rfl
@[simp] theorem State.withCal_links (s : State) (v : Cal) : (s.withCal v).links = s.links := rfl
@[simp] theorem State.withCal_coefs (s : State) (v : Cal) : (s.withCal v).coefs = s.coefs := rfl
@[simp] theorem State.withCal_trips (s : State) (v : Cal) : (s.withCal v).trips = s.trips := rfl
@[simp] theorem State.withCal_pins (s : State) (v : Cal) : (s.withCal v).pins = s.pins := rfl
@[simp] theorem State.withCal_pool (s : State) (v : Cal) : (s.withCal v).pool = s.pool := rfl
@[simp] theorem State.withCal_reach (s : State) (v : Cal) : (s.withCal v).reach = s.reach := rfl
@[simp] theorem State.withCal_lpi (s : State) (v : Cal) : (s.withCal v).lpi = s.lpi := rfl
@[simp] theorem State.withCal_classes (s : State) (v : Cal) : (s.withCal v).classes = s.classes := rfl
@[simp] theorem State.withCal_mons (s : State) (v : Cal) : (s.withCal v).mons = s.mons := rfl
@[simp] theorem State.withCal_cal (s : State) (v : Cal) : (s.withCal v).cal = v := rfl
@[simp] theorem State.withCal_lanes (s : State) (v : Cal) : (s.withCal v).lanes = s.lanes := rfl
@[simp] theorem State.withCal_sides (s : State) (v : Cal) : (s.withCal v).sides = s.sides := rfl
@[simp] theorem State.withCal_sram (s : State) (v : Cal) : (s.withCal v).sram = s.sram := rfl
@[simp] theorem State.withCal_wheel (s : State) (v : Cal) : (s.withCal v).wheel = s.wheel := rfl
@[simp] theorem State.withCal_seq (s : State) (v : Cal) : (s.withCal v).seq = s.seq := rfl
@[simp] theorem State.withCal_dma (s : State) (v : Cal) : (s.withCal v).dma = s.dma := rfl
@[simp] theorem State.withCal_net (s : State) (v : Cal) : (s.withCal v).net = s.net := rfl
@[simp] theorem State.withCal_trust (s : State) (v : Cal) : (s.withCal v).trust = s.trust := rfl
@[simp] theorem State.withCal_fw (s : State) (v : Cal) : (s.withCal v).fw = s.fw := rfl
@[simp] theorem State.withCal_power (s : State) (v : Cal) : (s.withCal v).power = s.power := rfl
@[simp] theorem State.withCal_boot (s : State) (v : Cal) : (s.withCal v).boot = s.boot := rfl

@[simp] theorem State.withLanes_pending (s : State) (v : List (Nat × Lane)) : (s.withLanes v).pending = s.pending := rfl
@[simp] theorem State.withLanes_regs (s : State) (v : List (Nat × Lane)) : (s.withLanes v).regs = s.regs := rfl
@[simp] theorem State.withLanes_clk (s : State) (v : List (Nat × Lane)) : (s.withLanes v).clk = s.clk := rfl
@[simp] theorem State.withLanes_host (s : State) (v : List (Nat × Lane)) : (s.withLanes v).host = s.host := rfl
@[simp] theorem State.withLanes_pcie (s : State) (v : List (Nat × Lane)) : (s.withLanes v).pcie = s.pcie := rfl
@[simp] theorem State.withLanes_logs (s : State) (v : List (Nat × Lane)) : (s.withLanes v).logs = s.logs := rfl
@[simp] theorem State.withLanes_out (s : State) (v : List (Nat × Lane)) : (s.withLanes v).out = s.out := rfl
@[simp] theorem State.withLanes_freeCount (s : State) (v : List (Nat × Lane)) : (s.withLanes v).freeCount = s.freeCount := rfl
@[simp] theorem State.withLanes_perf (s : State) (v : List (Nat × Lane)) : (s.withLanes v).perf = s.perf := rfl
@[simp] theorem State.withLanes_chain (s : State) (v : List (Nat × Lane)) : (s.withLanes v).chain = s.chain := rfl
@[simp] theorem State.withLanes_messages (s : State) (v : List (Nat × Lane)) : (s.withLanes v).messages = s.messages := rfl
@[simp] theorem State.withLanes_signing (s : State) (v : List (Nat × Lane)) : (s.withLanes v).signing = s.signing := rfl
@[simp] theorem State.withLanes_signCount (s : State) (v : List (Nat × Lane)) : (s.withLanes v).signCount = s.signCount := rfl
@[simp] theorem State.withLanes_links (s : State) (v : List (Nat × Lane)) : (s.withLanes v).links = s.links := rfl
@[simp] theorem State.withLanes_coefs (s : State) (v : List (Nat × Lane)) : (s.withLanes v).coefs = s.coefs := rfl
@[simp] theorem State.withLanes_trips (s : State) (v : List (Nat × Lane)) : (s.withLanes v).trips = s.trips := rfl
@[simp] theorem State.withLanes_pins (s : State) (v : List (Nat × Lane)) : (s.withLanes v).pins = s.pins := rfl
@[simp] theorem State.withLanes_pool (s : State) (v : List (Nat × Lane)) : (s.withLanes v).pool = s.pool := rfl
@[simp] theorem State.withLanes_reach (s : State) (v : List (Nat × Lane)) : (s.withLanes v).reach = s.reach := rfl
@[simp] theorem State.withLanes_lpi (s : State) (v : List (Nat × Lane)) : (s.withLanes v).lpi = s.lpi := rfl
@[simp] theorem State.withLanes_classes (s : State) (v : List (Nat × Lane)) : (s.withLanes v).classes = s.classes := rfl
@[simp] theorem State.withLanes_mons (s : State) (v : List (Nat × Lane)) : (s.withLanes v).mons = s.mons := rfl
@[simp] theorem State.withLanes_cal (s : State) (v : List (Nat × Lane)) : (s.withLanes v).cal = s.cal := rfl
@[simp] theorem State.withLanes_lanes (s : State) (v : List (Nat × Lane)) : (s.withLanes v).lanes = v := rfl
@[simp] theorem State.withLanes_sides (s : State) (v : List (Nat × Lane)) : (s.withLanes v).sides = s.sides := rfl
@[simp] theorem State.withLanes_sram (s : State) (v : List (Nat × Lane)) : (s.withLanes v).sram = s.sram := rfl
@[simp] theorem State.withLanes_wheel (s : State) (v : List (Nat × Lane)) : (s.withLanes v).wheel = s.wheel := rfl
@[simp] theorem State.withLanes_seq (s : State) (v : List (Nat × Lane)) : (s.withLanes v).seq = s.seq := rfl
@[simp] theorem State.withLanes_dma (s : State) (v : List (Nat × Lane)) : (s.withLanes v).dma = s.dma := rfl
@[simp] theorem State.withLanes_net (s : State) (v : List (Nat × Lane)) : (s.withLanes v).net = s.net := rfl
@[simp] theorem State.withLanes_trust (s : State) (v : List (Nat × Lane)) : (s.withLanes v).trust = s.trust := rfl
@[simp] theorem State.withLanes_fw (s : State) (v : List (Nat × Lane)) : (s.withLanes v).fw = s.fw := rfl
@[simp] theorem State.withLanes_power (s : State) (v : List (Nat × Lane)) : (s.withLanes v).power = s.power := rfl
@[simp] theorem State.withLanes_boot (s : State) (v : List (Nat × Lane)) : (s.withLanes v).boot = s.boot := rfl

@[simp] theorem State.withSides_pending (s : State) (v : List (Nat × SideChan)) : (s.withSides v).pending = s.pending := rfl
@[simp] theorem State.withSides_regs (s : State) (v : List (Nat × SideChan)) : (s.withSides v).regs = s.regs := rfl
@[simp] theorem State.withSides_clk (s : State) (v : List (Nat × SideChan)) : (s.withSides v).clk = s.clk := rfl
@[simp] theorem State.withSides_host (s : State) (v : List (Nat × SideChan)) : (s.withSides v).host = s.host := rfl
@[simp] theorem State.withSides_pcie (s : State) (v : List (Nat × SideChan)) : (s.withSides v).pcie = s.pcie := rfl
@[simp] theorem State.withSides_logs (s : State) (v : List (Nat × SideChan)) : (s.withSides v).logs = s.logs := rfl
@[simp] theorem State.withSides_out (s : State) (v : List (Nat × SideChan)) : (s.withSides v).out = s.out := rfl
@[simp] theorem State.withSides_freeCount (s : State) (v : List (Nat × SideChan)) : (s.withSides v).freeCount = s.freeCount := rfl
@[simp] theorem State.withSides_perf (s : State) (v : List (Nat × SideChan)) : (s.withSides v).perf = s.perf := rfl
@[simp] theorem State.withSides_chain (s : State) (v : List (Nat × SideChan)) : (s.withSides v).chain = s.chain := rfl
@[simp] theorem State.withSides_messages (s : State) (v : List (Nat × SideChan)) : (s.withSides v).messages = s.messages := rfl
@[simp] theorem State.withSides_signing (s : State) (v : List (Nat × SideChan)) : (s.withSides v).signing = s.signing := rfl
@[simp] theorem State.withSides_signCount (s : State) (v : List (Nat × SideChan)) : (s.withSides v).signCount = s.signCount := rfl
@[simp] theorem State.withSides_links (s : State) (v : List (Nat × SideChan)) : (s.withSides v).links = s.links := rfl
@[simp] theorem State.withSides_coefs (s : State) (v : List (Nat × SideChan)) : (s.withSides v).coefs = s.coefs := rfl
@[simp] theorem State.withSides_trips (s : State) (v : List (Nat × SideChan)) : (s.withSides v).trips = s.trips := rfl
@[simp] theorem State.withSides_pins (s : State) (v : List (Nat × SideChan)) : (s.withSides v).pins = s.pins := rfl
@[simp] theorem State.withSides_pool (s : State) (v : List (Nat × SideChan)) : (s.withSides v).pool = s.pool := rfl
@[simp] theorem State.withSides_reach (s : State) (v : List (Nat × SideChan)) : (s.withSides v).reach = s.reach := rfl
@[simp] theorem State.withSides_lpi (s : State) (v : List (Nat × SideChan)) : (s.withSides v).lpi = s.lpi := rfl
@[simp] theorem State.withSides_classes (s : State) (v : List (Nat × SideChan)) : (s.withSides v).classes = s.classes := rfl
@[simp] theorem State.withSides_mons (s : State) (v : List (Nat × SideChan)) : (s.withSides v).mons = s.mons := rfl
@[simp] theorem State.withSides_cal (s : State) (v : List (Nat × SideChan)) : (s.withSides v).cal = s.cal := rfl
@[simp] theorem State.withSides_lanes (s : State) (v : List (Nat × SideChan)) : (s.withSides v).lanes = s.lanes := rfl
@[simp] theorem State.withSides_sides (s : State) (v : List (Nat × SideChan)) : (s.withSides v).sides = v := rfl
@[simp] theorem State.withSides_sram (s : State) (v : List (Nat × SideChan)) : (s.withSides v).sram = s.sram := rfl
@[simp] theorem State.withSides_wheel (s : State) (v : List (Nat × SideChan)) : (s.withSides v).wheel = s.wheel := rfl
@[simp] theorem State.withSides_seq (s : State) (v : List (Nat × SideChan)) : (s.withSides v).seq = s.seq := rfl
@[simp] theorem State.withSides_dma (s : State) (v : List (Nat × SideChan)) : (s.withSides v).dma = s.dma := rfl
@[simp] theorem State.withSides_net (s : State) (v : List (Nat × SideChan)) : (s.withSides v).net = s.net := rfl
@[simp] theorem State.withSides_trust (s : State) (v : List (Nat × SideChan)) : (s.withSides v).trust = s.trust := rfl
@[simp] theorem State.withSides_fw (s : State) (v : List (Nat × SideChan)) : (s.withSides v).fw = s.fw := rfl
@[simp] theorem State.withSides_power (s : State) (v : List (Nat × SideChan)) : (s.withSides v).power = s.power := rfl
@[simp] theorem State.withSides_boot (s : State) (v : List (Nat × SideChan)) : (s.withSides v).boot = s.boot := rfl

@[simp] theorem State.withSram_pending (s : State) (v : List Host.Cell) : (s.withSram v).pending = s.pending := rfl
@[simp] theorem State.withSram_regs (s : State) (v : List Host.Cell) : (s.withSram v).regs = s.regs := rfl
@[simp] theorem State.withSram_clk (s : State) (v : List Host.Cell) : (s.withSram v).clk = s.clk := rfl
@[simp] theorem State.withSram_host (s : State) (v : List Host.Cell) : (s.withSram v).host = s.host := rfl
@[simp] theorem State.withSram_pcie (s : State) (v : List Host.Cell) : (s.withSram v).pcie = s.pcie := rfl
@[simp] theorem State.withSram_logs (s : State) (v : List Host.Cell) : (s.withSram v).logs = s.logs := rfl
@[simp] theorem State.withSram_out (s : State) (v : List Host.Cell) : (s.withSram v).out = s.out := rfl
@[simp] theorem State.withSram_freeCount (s : State) (v : List Host.Cell) : (s.withSram v).freeCount = s.freeCount := rfl
@[simp] theorem State.withSram_perf (s : State) (v : List Host.Cell) : (s.withSram v).perf = s.perf := rfl
@[simp] theorem State.withSram_chain (s : State) (v : List Host.Cell) : (s.withSram v).chain = s.chain := rfl
@[simp] theorem State.withSram_messages (s : State) (v : List Host.Cell) : (s.withSram v).messages = s.messages := rfl
@[simp] theorem State.withSram_signing (s : State) (v : List Host.Cell) : (s.withSram v).signing = s.signing := rfl
@[simp] theorem State.withSram_signCount (s : State) (v : List Host.Cell) : (s.withSram v).signCount = s.signCount := rfl
@[simp] theorem State.withSram_links (s : State) (v : List Host.Cell) : (s.withSram v).links = s.links := rfl
@[simp] theorem State.withSram_coefs (s : State) (v : List Host.Cell) : (s.withSram v).coefs = s.coefs := rfl
@[simp] theorem State.withSram_trips (s : State) (v : List Host.Cell) : (s.withSram v).trips = s.trips := rfl
@[simp] theorem State.withSram_pins (s : State) (v : List Host.Cell) : (s.withSram v).pins = s.pins := rfl
@[simp] theorem State.withSram_pool (s : State) (v : List Host.Cell) : (s.withSram v).pool = s.pool := rfl
@[simp] theorem State.withSram_reach (s : State) (v : List Host.Cell) : (s.withSram v).reach = s.reach := rfl
@[simp] theorem State.withSram_lpi (s : State) (v : List Host.Cell) : (s.withSram v).lpi = s.lpi := rfl
@[simp] theorem State.withSram_classes (s : State) (v : List Host.Cell) : (s.withSram v).classes = s.classes := rfl
@[simp] theorem State.withSram_mons (s : State) (v : List Host.Cell) : (s.withSram v).mons = s.mons := rfl
@[simp] theorem State.withSram_cal (s : State) (v : List Host.Cell) : (s.withSram v).cal = s.cal := rfl
@[simp] theorem State.withSram_lanes (s : State) (v : List Host.Cell) : (s.withSram v).lanes = s.lanes := rfl
@[simp] theorem State.withSram_sides (s : State) (v : List Host.Cell) : (s.withSram v).sides = s.sides := rfl
@[simp] theorem State.withSram_sram (s : State) (v : List Host.Cell) : (s.withSram v).sram = v := rfl
@[simp] theorem State.withSram_wheel (s : State) (v : List Host.Cell) : (s.withSram v).wheel = s.wheel := rfl
@[simp] theorem State.withSram_seq (s : State) (v : List Host.Cell) : (s.withSram v).seq = s.seq := rfl
@[simp] theorem State.withSram_dma (s : State) (v : List Host.Cell) : (s.withSram v).dma = s.dma := rfl
@[simp] theorem State.withSram_net (s : State) (v : List Host.Cell) : (s.withSram v).net = s.net := rfl
@[simp] theorem State.withSram_trust (s : State) (v : List Host.Cell) : (s.withSram v).trust = s.trust := rfl
@[simp] theorem State.withSram_fw (s : State) (v : List Host.Cell) : (s.withSram v).fw = s.fw := rfl
@[simp] theorem State.withSram_power (s : State) (v : List Host.Cell) : (s.withSram v).power = s.power := rfl
@[simp] theorem State.withSram_boot (s : State) (v : List Host.Cell) : (s.withSram v).boot = s.boot := rfl

@[simp] theorem State.withWheel_pending (s : State) (v : Wheel) : (s.withWheel v).pending = s.pending := rfl
@[simp] theorem State.withWheel_regs (s : State) (v : Wheel) : (s.withWheel v).regs = s.regs := rfl
@[simp] theorem State.withWheel_clk (s : State) (v : Wheel) : (s.withWheel v).clk = s.clk := rfl
@[simp] theorem State.withWheel_host (s : State) (v : Wheel) : (s.withWheel v).host = s.host := rfl
@[simp] theorem State.withWheel_pcie (s : State) (v : Wheel) : (s.withWheel v).pcie = s.pcie := rfl
@[simp] theorem State.withWheel_logs (s : State) (v : Wheel) : (s.withWheel v).logs = s.logs := rfl
@[simp] theorem State.withWheel_out (s : State) (v : Wheel) : (s.withWheel v).out = s.out := rfl
@[simp] theorem State.withWheel_freeCount (s : State) (v : Wheel) : (s.withWheel v).freeCount = s.freeCount := rfl
@[simp] theorem State.withWheel_perf (s : State) (v : Wheel) : (s.withWheel v).perf = s.perf := rfl
@[simp] theorem State.withWheel_chain (s : State) (v : Wheel) : (s.withWheel v).chain = s.chain := rfl
@[simp] theorem State.withWheel_messages (s : State) (v : Wheel) : (s.withWheel v).messages = s.messages := rfl
@[simp] theorem State.withWheel_signing (s : State) (v : Wheel) : (s.withWheel v).signing = s.signing := rfl
@[simp] theorem State.withWheel_signCount (s : State) (v : Wheel) : (s.withWheel v).signCount = s.signCount := rfl
@[simp] theorem State.withWheel_links (s : State) (v : Wheel) : (s.withWheel v).links = s.links := rfl
@[simp] theorem State.withWheel_coefs (s : State) (v : Wheel) : (s.withWheel v).coefs = s.coefs := rfl
@[simp] theorem State.withWheel_trips (s : State) (v : Wheel) : (s.withWheel v).trips = s.trips := rfl
@[simp] theorem State.withWheel_pins (s : State) (v : Wheel) : (s.withWheel v).pins = s.pins := rfl
@[simp] theorem State.withWheel_pool (s : State) (v : Wheel) : (s.withWheel v).pool = s.pool := rfl
@[simp] theorem State.withWheel_reach (s : State) (v : Wheel) : (s.withWheel v).reach = s.reach := rfl
@[simp] theorem State.withWheel_lpi (s : State) (v : Wheel) : (s.withWheel v).lpi = s.lpi := rfl
@[simp] theorem State.withWheel_classes (s : State) (v : Wheel) : (s.withWheel v).classes = s.classes := rfl
@[simp] theorem State.withWheel_mons (s : State) (v : Wheel) : (s.withWheel v).mons = s.mons := rfl
@[simp] theorem State.withWheel_cal (s : State) (v : Wheel) : (s.withWheel v).cal = s.cal := rfl
@[simp] theorem State.withWheel_lanes (s : State) (v : Wheel) : (s.withWheel v).lanes = s.lanes := rfl
@[simp] theorem State.withWheel_sides (s : State) (v : Wheel) : (s.withWheel v).sides = s.sides := rfl
@[simp] theorem State.withWheel_sram (s : State) (v : Wheel) : (s.withWheel v).sram = s.sram := rfl
@[simp] theorem State.withWheel_wheel (s : State) (v : Wheel) : (s.withWheel v).wheel = v := rfl
@[simp] theorem State.withWheel_seq (s : State) (v : Wheel) : (s.withWheel v).seq = s.seq := rfl
@[simp] theorem State.withWheel_dma (s : State) (v : Wheel) : (s.withWheel v).dma = s.dma := rfl
@[simp] theorem State.withWheel_net (s : State) (v : Wheel) : (s.withWheel v).net = s.net := rfl
@[simp] theorem State.withWheel_trust (s : State) (v : Wheel) : (s.withWheel v).trust = s.trust := rfl
@[simp] theorem State.withWheel_fw (s : State) (v : Wheel) : (s.withWheel v).fw = s.fw := rfl
@[simp] theorem State.withWheel_power (s : State) (v : Wheel) : (s.withWheel v).power = s.power := rfl
@[simp] theorem State.withWheel_boot (s : State) (v : Wheel) : (s.withWheel v).boot = s.boot := rfl

@[simp] theorem State.withSeq_pending (s : State) (v : Seq) : (s.withSeq v).pending = s.pending := rfl
@[simp] theorem State.withSeq_regs (s : State) (v : Seq) : (s.withSeq v).regs = s.regs := rfl
@[simp] theorem State.withSeq_clk (s : State) (v : Seq) : (s.withSeq v).clk = s.clk := rfl
@[simp] theorem State.withSeq_host (s : State) (v : Seq) : (s.withSeq v).host = s.host := rfl
@[simp] theorem State.withSeq_pcie (s : State) (v : Seq) : (s.withSeq v).pcie = s.pcie := rfl
@[simp] theorem State.withSeq_logs (s : State) (v : Seq) : (s.withSeq v).logs = s.logs := rfl
@[simp] theorem State.withSeq_out (s : State) (v : Seq) : (s.withSeq v).out = s.out := rfl
@[simp] theorem State.withSeq_freeCount (s : State) (v : Seq) : (s.withSeq v).freeCount = s.freeCount := rfl
@[simp] theorem State.withSeq_perf (s : State) (v : Seq) : (s.withSeq v).perf = s.perf := rfl
@[simp] theorem State.withSeq_chain (s : State) (v : Seq) : (s.withSeq v).chain = s.chain := rfl
@[simp] theorem State.withSeq_messages (s : State) (v : Seq) : (s.withSeq v).messages = s.messages := rfl
@[simp] theorem State.withSeq_signing (s : State) (v : Seq) : (s.withSeq v).signing = s.signing := rfl
@[simp] theorem State.withSeq_signCount (s : State) (v : Seq) : (s.withSeq v).signCount = s.signCount := rfl
@[simp] theorem State.withSeq_links (s : State) (v : Seq) : (s.withSeq v).links = s.links := rfl
@[simp] theorem State.withSeq_coefs (s : State) (v : Seq) : (s.withSeq v).coefs = s.coefs := rfl
@[simp] theorem State.withSeq_trips (s : State) (v : Seq) : (s.withSeq v).trips = s.trips := rfl
@[simp] theorem State.withSeq_pins (s : State) (v : Seq) : (s.withSeq v).pins = s.pins := rfl
@[simp] theorem State.withSeq_pool (s : State) (v : Seq) : (s.withSeq v).pool = s.pool := rfl
@[simp] theorem State.withSeq_reach (s : State) (v : Seq) : (s.withSeq v).reach = s.reach := rfl
@[simp] theorem State.withSeq_lpi (s : State) (v : Seq) : (s.withSeq v).lpi = s.lpi := rfl
@[simp] theorem State.withSeq_classes (s : State) (v : Seq) : (s.withSeq v).classes = s.classes := rfl
@[simp] theorem State.withSeq_mons (s : State) (v : Seq) : (s.withSeq v).mons = s.mons := rfl
@[simp] theorem State.withSeq_cal (s : State) (v : Seq) : (s.withSeq v).cal = s.cal := rfl
@[simp] theorem State.withSeq_lanes (s : State) (v : Seq) : (s.withSeq v).lanes = s.lanes := rfl
@[simp] theorem State.withSeq_sides (s : State) (v : Seq) : (s.withSeq v).sides = s.sides := rfl
@[simp] theorem State.withSeq_sram (s : State) (v : Seq) : (s.withSeq v).sram = s.sram := rfl
@[simp] theorem State.withSeq_wheel (s : State) (v : Seq) : (s.withSeq v).wheel = s.wheel := rfl
@[simp] theorem State.withSeq_seq (s : State) (v : Seq) : (s.withSeq v).seq = v := rfl
@[simp] theorem State.withSeq_dma (s : State) (v : Seq) : (s.withSeq v).dma = s.dma := rfl
@[simp] theorem State.withSeq_net (s : State) (v : Seq) : (s.withSeq v).net = s.net := rfl
@[simp] theorem State.withSeq_trust (s : State) (v : Seq) : (s.withSeq v).trust = s.trust := rfl
@[simp] theorem State.withSeq_fw (s : State) (v : Seq) : (s.withSeq v).fw = s.fw := rfl
@[simp] theorem State.withSeq_power (s : State) (v : Seq) : (s.withSeq v).power = s.power := rfl
@[simp] theorem State.withSeq_boot (s : State) (v : Seq) : (s.withSeq v).boot = s.boot := rfl

@[simp] theorem State.withDma_pending (s : State) (v : Dma) : (s.withDma v).pending = s.pending := rfl
@[simp] theorem State.withDma_regs (s : State) (v : Dma) : (s.withDma v).regs = s.regs := rfl
@[simp] theorem State.withDma_clk (s : State) (v : Dma) : (s.withDma v).clk = s.clk := rfl
@[simp] theorem State.withDma_host (s : State) (v : Dma) : (s.withDma v).host = s.host := rfl
@[simp] theorem State.withDma_pcie (s : State) (v : Dma) : (s.withDma v).pcie = s.pcie := rfl
@[simp] theorem State.withDma_logs (s : State) (v : Dma) : (s.withDma v).logs = s.logs := rfl
@[simp] theorem State.withDma_out (s : State) (v : Dma) : (s.withDma v).out = s.out := rfl
@[simp] theorem State.withDma_freeCount (s : State) (v : Dma) : (s.withDma v).freeCount = s.freeCount := rfl
@[simp] theorem State.withDma_perf (s : State) (v : Dma) : (s.withDma v).perf = s.perf := rfl
@[simp] theorem State.withDma_chain (s : State) (v : Dma) : (s.withDma v).chain = s.chain := rfl
@[simp] theorem State.withDma_messages (s : State) (v : Dma) : (s.withDma v).messages = s.messages := rfl
@[simp] theorem State.withDma_signing (s : State) (v : Dma) : (s.withDma v).signing = s.signing := rfl
@[simp] theorem State.withDma_signCount (s : State) (v : Dma) : (s.withDma v).signCount = s.signCount := rfl
@[simp] theorem State.withDma_links (s : State) (v : Dma) : (s.withDma v).links = s.links := rfl
@[simp] theorem State.withDma_coefs (s : State) (v : Dma) : (s.withDma v).coefs = s.coefs := rfl
@[simp] theorem State.withDma_trips (s : State) (v : Dma) : (s.withDma v).trips = s.trips := rfl
@[simp] theorem State.withDma_pins (s : State) (v : Dma) : (s.withDma v).pins = s.pins := rfl
@[simp] theorem State.withDma_pool (s : State) (v : Dma) : (s.withDma v).pool = s.pool := rfl
@[simp] theorem State.withDma_reach (s : State) (v : Dma) : (s.withDma v).reach = s.reach := rfl
@[simp] theorem State.withDma_lpi (s : State) (v : Dma) : (s.withDma v).lpi = s.lpi := rfl
@[simp] theorem State.withDma_classes (s : State) (v : Dma) : (s.withDma v).classes = s.classes := rfl
@[simp] theorem State.withDma_mons (s : State) (v : Dma) : (s.withDma v).mons = s.mons := rfl
@[simp] theorem State.withDma_cal (s : State) (v : Dma) : (s.withDma v).cal = s.cal := rfl
@[simp] theorem State.withDma_lanes (s : State) (v : Dma) : (s.withDma v).lanes = s.lanes := rfl
@[simp] theorem State.withDma_sides (s : State) (v : Dma) : (s.withDma v).sides = s.sides := rfl
@[simp] theorem State.withDma_sram (s : State) (v : Dma) : (s.withDma v).sram = s.sram := rfl
@[simp] theorem State.withDma_wheel (s : State) (v : Dma) : (s.withDma v).wheel = s.wheel := rfl
@[simp] theorem State.withDma_seq (s : State) (v : Dma) : (s.withDma v).seq = s.seq := rfl
@[simp] theorem State.withDma_dma (s : State) (v : Dma) : (s.withDma v).dma = v := rfl
@[simp] theorem State.withDma_net (s : State) (v : Dma) : (s.withDma v).net = s.net := rfl
@[simp] theorem State.withDma_trust (s : State) (v : Dma) : (s.withDma v).trust = s.trust := rfl
@[simp] theorem State.withDma_fw (s : State) (v : Dma) : (s.withDma v).fw = s.fw := rfl
@[simp] theorem State.withDma_power (s : State) (v : Dma) : (s.withDma v).power = s.power := rfl
@[simp] theorem State.withDma_boot (s : State) (v : Dma) : (s.withDma v).boot = s.boot := rfl

@[simp] theorem State.withNet_pending (s : State) (v : Net) : (s.withNet v).pending = s.pending := rfl
@[simp] theorem State.withNet_regs (s : State) (v : Net) : (s.withNet v).regs = s.regs := rfl
@[simp] theorem State.withNet_clk (s : State) (v : Net) : (s.withNet v).clk = s.clk := rfl
@[simp] theorem State.withNet_host (s : State) (v : Net) : (s.withNet v).host = s.host := rfl
@[simp] theorem State.withNet_pcie (s : State) (v : Net) : (s.withNet v).pcie = s.pcie := rfl
@[simp] theorem State.withNet_logs (s : State) (v : Net) : (s.withNet v).logs = s.logs := rfl
@[simp] theorem State.withNet_out (s : State) (v : Net) : (s.withNet v).out = s.out := rfl
@[simp] theorem State.withNet_freeCount (s : State) (v : Net) : (s.withNet v).freeCount = s.freeCount := rfl
@[simp] theorem State.withNet_perf (s : State) (v : Net) : (s.withNet v).perf = s.perf := rfl
@[simp] theorem State.withNet_chain (s : State) (v : Net) : (s.withNet v).chain = s.chain := rfl
@[simp] theorem State.withNet_messages (s : State) (v : Net) : (s.withNet v).messages = s.messages := rfl
@[simp] theorem State.withNet_signing (s : State) (v : Net) : (s.withNet v).signing = s.signing := rfl
@[simp] theorem State.withNet_signCount (s : State) (v : Net) : (s.withNet v).signCount = s.signCount := rfl
@[simp] theorem State.withNet_links (s : State) (v : Net) : (s.withNet v).links = s.links := rfl
@[simp] theorem State.withNet_coefs (s : State) (v : Net) : (s.withNet v).coefs = s.coefs := rfl
@[simp] theorem State.withNet_trips (s : State) (v : Net) : (s.withNet v).trips = s.trips := rfl
@[simp] theorem State.withNet_pins (s : State) (v : Net) : (s.withNet v).pins = s.pins := rfl
@[simp] theorem State.withNet_pool (s : State) (v : Net) : (s.withNet v).pool = s.pool := rfl
@[simp] theorem State.withNet_reach (s : State) (v : Net) : (s.withNet v).reach = s.reach := rfl
@[simp] theorem State.withNet_lpi (s : State) (v : Net) : (s.withNet v).lpi = s.lpi := rfl
@[simp] theorem State.withNet_classes (s : State) (v : Net) : (s.withNet v).classes = s.classes := rfl
@[simp] theorem State.withNet_mons (s : State) (v : Net) : (s.withNet v).mons = s.mons := rfl
@[simp] theorem State.withNet_cal (s : State) (v : Net) : (s.withNet v).cal = s.cal := rfl
@[simp] theorem State.withNet_lanes (s : State) (v : Net) : (s.withNet v).lanes = s.lanes := rfl
@[simp] theorem State.withNet_sides (s : State) (v : Net) : (s.withNet v).sides = s.sides := rfl
@[simp] theorem State.withNet_sram (s : State) (v : Net) : (s.withNet v).sram = s.sram := rfl
@[simp] theorem State.withNet_wheel (s : State) (v : Net) : (s.withNet v).wheel = s.wheel := rfl
@[simp] theorem State.withNet_seq (s : State) (v : Net) : (s.withNet v).seq = s.seq := rfl
@[simp] theorem State.withNet_dma (s : State) (v : Net) : (s.withNet v).dma = s.dma := rfl
@[simp] theorem State.withNet_net (s : State) (v : Net) : (s.withNet v).net = v := rfl
@[simp] theorem State.withNet_trust (s : State) (v : Net) : (s.withNet v).trust = s.trust := rfl
@[simp] theorem State.withNet_fw (s : State) (v : Net) : (s.withNet v).fw = s.fw := rfl
@[simp] theorem State.withNet_power (s : State) (v : Net) : (s.withNet v).power = s.power := rfl
@[simp] theorem State.withNet_boot (s : State) (v : Net) : (s.withNet v).boot = s.boot := rfl

@[simp] theorem State.withTrust_pending (s : State) (v : Trust) : (s.withTrust v).pending = s.pending := rfl
@[simp] theorem State.withTrust_regs (s : State) (v : Trust) : (s.withTrust v).regs = s.regs := rfl
@[simp] theorem State.withTrust_clk (s : State) (v : Trust) : (s.withTrust v).clk = s.clk := rfl
@[simp] theorem State.withTrust_host (s : State) (v : Trust) : (s.withTrust v).host = s.host := rfl
@[simp] theorem State.withTrust_pcie (s : State) (v : Trust) : (s.withTrust v).pcie = s.pcie := rfl
@[simp] theorem State.withTrust_logs (s : State) (v : Trust) : (s.withTrust v).logs = s.logs := rfl
@[simp] theorem State.withTrust_out (s : State) (v : Trust) : (s.withTrust v).out = s.out := rfl
@[simp] theorem State.withTrust_freeCount (s : State) (v : Trust) : (s.withTrust v).freeCount = s.freeCount := rfl
@[simp] theorem State.withTrust_perf (s : State) (v : Trust) : (s.withTrust v).perf = s.perf := rfl
@[simp] theorem State.withTrust_chain (s : State) (v : Trust) : (s.withTrust v).chain = s.chain := rfl
@[simp] theorem State.withTrust_messages (s : State) (v : Trust) : (s.withTrust v).messages = s.messages := rfl
@[simp] theorem State.withTrust_signing (s : State) (v : Trust) : (s.withTrust v).signing = s.signing := rfl
@[simp] theorem State.withTrust_signCount (s : State) (v : Trust) : (s.withTrust v).signCount = s.signCount := rfl
@[simp] theorem State.withTrust_links (s : State) (v : Trust) : (s.withTrust v).links = s.links := rfl
@[simp] theorem State.withTrust_coefs (s : State) (v : Trust) : (s.withTrust v).coefs = s.coefs := rfl
@[simp] theorem State.withTrust_trips (s : State) (v : Trust) : (s.withTrust v).trips = s.trips := rfl
@[simp] theorem State.withTrust_pins (s : State) (v : Trust) : (s.withTrust v).pins = s.pins := rfl
@[simp] theorem State.withTrust_pool (s : State) (v : Trust) : (s.withTrust v).pool = s.pool := rfl
@[simp] theorem State.withTrust_reach (s : State) (v : Trust) : (s.withTrust v).reach = s.reach := rfl
@[simp] theorem State.withTrust_lpi (s : State) (v : Trust) : (s.withTrust v).lpi = s.lpi := rfl
@[simp] theorem State.withTrust_classes (s : State) (v : Trust) : (s.withTrust v).classes = s.classes := rfl
@[simp] theorem State.withTrust_mons (s : State) (v : Trust) : (s.withTrust v).mons = s.mons := rfl
@[simp] theorem State.withTrust_cal (s : State) (v : Trust) : (s.withTrust v).cal = s.cal := rfl
@[simp] theorem State.withTrust_lanes (s : State) (v : Trust) : (s.withTrust v).lanes = s.lanes := rfl
@[simp] theorem State.withTrust_sides (s : State) (v : Trust) : (s.withTrust v).sides = s.sides := rfl
@[simp] theorem State.withTrust_sram (s : State) (v : Trust) : (s.withTrust v).sram = s.sram := rfl
@[simp] theorem State.withTrust_wheel (s : State) (v : Trust) : (s.withTrust v).wheel = s.wheel := rfl
@[simp] theorem State.withTrust_seq (s : State) (v : Trust) : (s.withTrust v).seq = s.seq := rfl
@[simp] theorem State.withTrust_dma (s : State) (v : Trust) : (s.withTrust v).dma = s.dma := rfl
@[simp] theorem State.withTrust_net (s : State) (v : Trust) : (s.withTrust v).net = s.net := rfl
@[simp] theorem State.withTrust_trust (s : State) (v : Trust) : (s.withTrust v).trust = v := rfl
@[simp] theorem State.withTrust_fw (s : State) (v : Trust) : (s.withTrust v).fw = s.fw := rfl
@[simp] theorem State.withTrust_power (s : State) (v : Trust) : (s.withTrust v).power = s.power := rfl
@[simp] theorem State.withTrust_boot (s : State) (v : Trust) : (s.withTrust v).boot = s.boot := rfl

@[simp] theorem State.withFw_pending (s : State) (v : Firmware) : (s.withFw v).pending = s.pending := rfl
@[simp] theorem State.withFw_regs (s : State) (v : Firmware) : (s.withFw v).regs = s.regs := rfl
@[simp] theorem State.withFw_clk (s : State) (v : Firmware) : (s.withFw v).clk = s.clk := rfl
@[simp] theorem State.withFw_host (s : State) (v : Firmware) : (s.withFw v).host = s.host := rfl
@[simp] theorem State.withFw_pcie (s : State) (v : Firmware) : (s.withFw v).pcie = s.pcie := rfl
@[simp] theorem State.withFw_logs (s : State) (v : Firmware) : (s.withFw v).logs = s.logs := rfl
@[simp] theorem State.withFw_out (s : State) (v : Firmware) : (s.withFw v).out = s.out := rfl
@[simp] theorem State.withFw_freeCount (s : State) (v : Firmware) : (s.withFw v).freeCount = s.freeCount := rfl
@[simp] theorem State.withFw_perf (s : State) (v : Firmware) : (s.withFw v).perf = s.perf := rfl
@[simp] theorem State.withFw_chain (s : State) (v : Firmware) : (s.withFw v).chain = s.chain := rfl
@[simp] theorem State.withFw_messages (s : State) (v : Firmware) : (s.withFw v).messages = s.messages := rfl
@[simp] theorem State.withFw_signing (s : State) (v : Firmware) : (s.withFw v).signing = s.signing := rfl
@[simp] theorem State.withFw_signCount (s : State) (v : Firmware) : (s.withFw v).signCount = s.signCount := rfl
@[simp] theorem State.withFw_links (s : State) (v : Firmware) : (s.withFw v).links = s.links := rfl
@[simp] theorem State.withFw_coefs (s : State) (v : Firmware) : (s.withFw v).coefs = s.coefs := rfl
@[simp] theorem State.withFw_trips (s : State) (v : Firmware) : (s.withFw v).trips = s.trips := rfl
@[simp] theorem State.withFw_pins (s : State) (v : Firmware) : (s.withFw v).pins = s.pins := rfl
@[simp] theorem State.withFw_pool (s : State) (v : Firmware) : (s.withFw v).pool = s.pool := rfl
@[simp] theorem State.withFw_reach (s : State) (v : Firmware) : (s.withFw v).reach = s.reach := rfl
@[simp] theorem State.withFw_lpi (s : State) (v : Firmware) : (s.withFw v).lpi = s.lpi := rfl
@[simp] theorem State.withFw_classes (s : State) (v : Firmware) : (s.withFw v).classes = s.classes := rfl
@[simp] theorem State.withFw_mons (s : State) (v : Firmware) : (s.withFw v).mons = s.mons := rfl
@[simp] theorem State.withFw_cal (s : State) (v : Firmware) : (s.withFw v).cal = s.cal := rfl
@[simp] theorem State.withFw_lanes (s : State) (v : Firmware) : (s.withFw v).lanes = s.lanes := rfl
@[simp] theorem State.withFw_sides (s : State) (v : Firmware) : (s.withFw v).sides = s.sides := rfl
@[simp] theorem State.withFw_sram (s : State) (v : Firmware) : (s.withFw v).sram = s.sram := rfl
@[simp] theorem State.withFw_wheel (s : State) (v : Firmware) : (s.withFw v).wheel = s.wheel := rfl
@[simp] theorem State.withFw_seq (s : State) (v : Firmware) : (s.withFw v).seq = s.seq := rfl
@[simp] theorem State.withFw_dma (s : State) (v : Firmware) : (s.withFw v).dma = s.dma := rfl
@[simp] theorem State.withFw_net (s : State) (v : Firmware) : (s.withFw v).net = s.net := rfl
@[simp] theorem State.withFw_trust (s : State) (v : Firmware) : (s.withFw v).trust = s.trust := rfl
@[simp] theorem State.withFw_fw (s : State) (v : Firmware) : (s.withFw v).fw = v := rfl
@[simp] theorem State.withFw_power (s : State) (v : Firmware) : (s.withFw v).power = s.power := rfl
@[simp] theorem State.withFw_boot (s : State) (v : Firmware) : (s.withFw v).boot = s.boot := rfl

@[simp] theorem State.withPower_pending (s : State) (v : Power) : (s.withPower v).pending = s.pending := rfl
@[simp] theorem State.withPower_regs (s : State) (v : Power) : (s.withPower v).regs = s.regs := rfl
@[simp] theorem State.withPower_clk (s : State) (v : Power) : (s.withPower v).clk = s.clk := rfl
@[simp] theorem State.withPower_host (s : State) (v : Power) : (s.withPower v).host = s.host := rfl
@[simp] theorem State.withPower_pcie (s : State) (v : Power) : (s.withPower v).pcie = s.pcie := rfl
@[simp] theorem State.withPower_logs (s : State) (v : Power) : (s.withPower v).logs = s.logs := rfl
@[simp] theorem State.withPower_out (s : State) (v : Power) : (s.withPower v).out = s.out := rfl
@[simp] theorem State.withPower_freeCount (s : State) (v : Power) : (s.withPower v).freeCount = s.freeCount := rfl
@[simp] theorem State.withPower_perf (s : State) (v : Power) : (s.withPower v).perf = s.perf := rfl
@[simp] theorem State.withPower_chain (s : State) (v : Power) : (s.withPower v).chain = s.chain := rfl
@[simp] theorem State.withPower_messages (s : State) (v : Power) : (s.withPower v).messages = s.messages := rfl
@[simp] theorem State.withPower_signing (s : State) (v : Power) : (s.withPower v).signing = s.signing := rfl
@[simp] theorem State.withPower_signCount (s : State) (v : Power) : (s.withPower v).signCount = s.signCount := rfl
@[simp] theorem State.withPower_links (s : State) (v : Power) : (s.withPower v).links = s.links := rfl
@[simp] theorem State.withPower_coefs (s : State) (v : Power) : (s.withPower v).coefs = s.coefs := rfl
@[simp] theorem State.withPower_trips (s : State) (v : Power) : (s.withPower v).trips = s.trips := rfl
@[simp] theorem State.withPower_pins (s : State) (v : Power) : (s.withPower v).pins = s.pins := rfl
@[simp] theorem State.withPower_pool (s : State) (v : Power) : (s.withPower v).pool = s.pool := rfl
@[simp] theorem State.withPower_reach (s : State) (v : Power) : (s.withPower v).reach = s.reach := rfl
@[simp] theorem State.withPower_lpi (s : State) (v : Power) : (s.withPower v).lpi = s.lpi := rfl
@[simp] theorem State.withPower_classes (s : State) (v : Power) : (s.withPower v).classes = s.classes := rfl
@[simp] theorem State.withPower_mons (s : State) (v : Power) : (s.withPower v).mons = s.mons := rfl
@[simp] theorem State.withPower_cal (s : State) (v : Power) : (s.withPower v).cal = s.cal := rfl
@[simp] theorem State.withPower_lanes (s : State) (v : Power) : (s.withPower v).lanes = s.lanes := rfl
@[simp] theorem State.withPower_sides (s : State) (v : Power) : (s.withPower v).sides = s.sides := rfl
@[simp] theorem State.withPower_sram (s : State) (v : Power) : (s.withPower v).sram = s.sram := rfl
@[simp] theorem State.withPower_wheel (s : State) (v : Power) : (s.withPower v).wheel = s.wheel := rfl
@[simp] theorem State.withPower_seq (s : State) (v : Power) : (s.withPower v).seq = s.seq := rfl
@[simp] theorem State.withPower_dma (s : State) (v : Power) : (s.withPower v).dma = s.dma := rfl
@[simp] theorem State.withPower_net (s : State) (v : Power) : (s.withPower v).net = s.net := rfl
@[simp] theorem State.withPower_trust (s : State) (v : Power) : (s.withPower v).trust = s.trust := rfl
@[simp] theorem State.withPower_fw (s : State) (v : Power) : (s.withPower v).fw = s.fw := rfl
@[simp] theorem State.withPower_power (s : State) (v : Power) : (s.withPower v).power = v := rfl
@[simp] theorem State.withPower_boot (s : State) (v : Power) : (s.withPower v).boot = s.boot := rfl

@[simp] theorem State.withBoot_pending (s : State) (v : Boot) : (s.withBoot v).pending = s.pending := rfl
@[simp] theorem State.withBoot_regs (s : State) (v : Boot) : (s.withBoot v).regs = s.regs := rfl
@[simp] theorem State.withBoot_clk (s : State) (v : Boot) : (s.withBoot v).clk = s.clk := rfl
@[simp] theorem State.withBoot_host (s : State) (v : Boot) : (s.withBoot v).host = s.host := rfl
@[simp] theorem State.withBoot_pcie (s : State) (v : Boot) : (s.withBoot v).pcie = s.pcie := rfl
@[simp] theorem State.withBoot_logs (s : State) (v : Boot) : (s.withBoot v).logs = s.logs := rfl
@[simp] theorem State.withBoot_out (s : State) (v : Boot) : (s.withBoot v).out = s.out := rfl
@[simp] theorem State.withBoot_freeCount (s : State) (v : Boot) : (s.withBoot v).freeCount = s.freeCount := rfl
@[simp] theorem State.withBoot_perf (s : State) (v : Boot) : (s.withBoot v).perf = s.perf := rfl
@[simp] theorem State.withBoot_chain (s : State) (v : Boot) : (s.withBoot v).chain = s.chain := rfl
@[simp] theorem State.withBoot_messages (s : State) (v : Boot) : (s.withBoot v).messages = s.messages := rfl
@[simp] theorem State.withBoot_signing (s : State) (v : Boot) : (s.withBoot v).signing = s.signing := rfl
@[simp] theorem State.withBoot_signCount (s : State) (v : Boot) : (s.withBoot v).signCount = s.signCount := rfl
@[simp] theorem State.withBoot_links (s : State) (v : Boot) : (s.withBoot v).links = s.links := rfl
@[simp] theorem State.withBoot_coefs (s : State) (v : Boot) : (s.withBoot v).coefs = s.coefs := rfl
@[simp] theorem State.withBoot_trips (s : State) (v : Boot) : (s.withBoot v).trips = s.trips := rfl
@[simp] theorem State.withBoot_pins (s : State) (v : Boot) : (s.withBoot v).pins = s.pins := rfl
@[simp] theorem State.withBoot_pool (s : State) (v : Boot) : (s.withBoot v).pool = s.pool := rfl
@[simp] theorem State.withBoot_reach (s : State) (v : Boot) : (s.withBoot v).reach = s.reach := rfl
@[simp] theorem State.withBoot_lpi (s : State) (v : Boot) : (s.withBoot v).lpi = s.lpi := rfl
@[simp] theorem State.withBoot_classes (s : State) (v : Boot) : (s.withBoot v).classes = s.classes := rfl
@[simp] theorem State.withBoot_mons (s : State) (v : Boot) : (s.withBoot v).mons = s.mons := rfl
@[simp] theorem State.withBoot_cal (s : State) (v : Boot) : (s.withBoot v).cal = s.cal := rfl
@[simp] theorem State.withBoot_lanes (s : State) (v : Boot) : (s.withBoot v).lanes = s.lanes := rfl
@[simp] theorem State.withBoot_sides (s : State) (v : Boot) : (s.withBoot v).sides = s.sides := rfl
@[simp] theorem State.withBoot_sram (s : State) (v : Boot) : (s.withBoot v).sram = s.sram := rfl
@[simp] theorem State.withBoot_wheel (s : State) (v : Boot) : (s.withBoot v).wheel = s.wheel := rfl
@[simp] theorem State.withBoot_seq (s : State) (v : Boot) : (s.withBoot v).seq = s.seq := rfl
@[simp] theorem State.withBoot_dma (s : State) (v : Boot) : (s.withBoot v).dma = s.dma := rfl
@[simp] theorem State.withBoot_net (s : State) (v : Boot) : (s.withBoot v).net = s.net := rfl
@[simp] theorem State.withBoot_trust (s : State) (v : Boot) : (s.withBoot v).trust = s.trust := rfl
@[simp] theorem State.withBoot_fw (s : State) (v : Boot) : (s.withBoot v).fw = s.fw := rfl
@[simp] theorem State.withBoot_power (s : State) (v : Boot) : (s.withBoot v).power = s.power := rfl
@[simp] theorem State.withBoot_boot (s : State) (v : Boot) : (s.withBoot v).boot = v := rfl

end Sys2Proof.Machine
end

