-- ==== Sys2Proof/Laws/Store.lean ====
section
/-! SUPPORT. Sparse stores: what a store reads after each operation, and that the canonical form is kept. -/

namespace Sys2Proof.Machine

variable {β : Type}

@[simp] theorem sget_nil (d : Nat → β) (a : Nat) : sget d [] a = d a := rfl

theorem sget_serase_same (d : Nat → β) (m : List (Nat × β)) (a : Nat) : sget d (serase m a) a = d a := by
  induction m with
  | nil => rfl
  | cons e t ih =>
    obtain ⟨k, v⟩ := e
    by_cases h : k = a
    · simpa [serase, h] using ih
    · simpa [serase, h, sget] using ih

theorem sget_serase_ne (d : Nat → β) (m : List (Nat × β)) {a b : Nat} (h : b ≠ a) : sget d (serase m a) b = sget d m b := by
  induction m with
  | nil => rfl
  | cons e t ih =>
    obtain ⟨k, v⟩ := e
    by_cases hk : k = a
    · subst hk
      have : ¬ k = b := fun e => h e.symm
      simpa [serase, sget, this] using ih
    · have e : serase ((k, v) :: t) a = (k, v) :: serase t a := by simp [serase, hk]
      by_cases hb : k = b
      · rw [e]; simp [sget, hb]
      · rw [e]; simpa [sget, hb] using ih

/-- A store without a key reads the pair inserted at that key, and is unchanged elsewhere. -/
theorem sget_sinsert (d : Nat → β) (m : List (Nat × β)) (a b : Nat) (v : β) (h : ∀ e ∈ m, e.1 ≠ a) :
    sget d (sinsert m a v) b = if b = a then v else sget d m b := by
  induction m with
  | nil => by_cases hb : a = b <;> simp [sinsert, sget, hb, eq_comm]
  | cons e t ih =>
    obtain ⟨k, w⟩ := e
    have hk : k ≠ a := h (k, w) (by simp)
    have ih' := ih (fun e he => h e (by simp [he]))
    by_cases hlt : a < k
    · have e : sinsert ((k, w) :: t) a v = (a, v) :: (k, w) :: t := by simp [sinsert, hlt]
      by_cases hb : a = b
      · rw [e]; simp [sget, hb]
      · have : ¬ b = a := fun e => hb e.symm
        rw [e]; simp [sget, hb, this]
    · have e : sinsert ((k, w) :: t) a v = (k, w) :: sinsert t a v := by simp [sinsert, hlt]
      by_cases hb : k = b
      · have : ¬ b = a := fun e => hk (hb.trans e)
        rw [e]; simp [sget, hb, this]
      · rw [e]; simp [sget, hb, ih']

theorem mem_serase_ne (m : List (Nat × β)) (a : Nat) : ∀ e ∈ serase m a, e.1 ≠ a := by
  intro e he
  simpa [serase] using (List.mem_filter.mp he).2

/-- A store reads what was put at the key, and is unchanged elsewhere. -/
theorem sget_sput [DecidableEq β] (d : Nat → β) (m : List (Nat × β)) (a b : Nat) (v : β) :
    sget d (sput d m a v) b = if b = a then v else sget d m b := by
  unfold sput
  split
  · rename_i h
    by_cases hb : b = a
    · subst hb; simp [sget_serase_same, h]
    · simp [hb, sget_serase_ne d m hb]
  · rw [sget_sinsert d _ a b v (mem_serase_ne m a)]
    by_cases hb : b = a
    · simp [hb]
    · simp [hb, sget_serase_ne d m hb]

@[simp] theorem sget_sput_same [DecidableEq β] (d : Nat → β) (m : List (Nat × β)) (a : Nat) (v : β) :
    sget d (sput d m a v) a = v := by simp [sget_sput]

theorem sget_sput_ne [DecidableEq β] (d : Nat → β) (m : List (Nat × β)) {a b : Nat} (v : β) (h : b ≠ a) :
    sget d (sput d m a v) b = sget d m b := by simp [sget_sput, h]

theorem storeWf_nil (d : Nat → β) : storeWf d ([] : List (Nat × β)) := by simp [storeWf]

theorem storeWf_filter (d : Nat → β) {m : List (Nat × β)} (p : Nat × β → Bool) (h : storeWf d m) : storeWf d (m.filter p) :=
  ⟨h.1.sublist List.filter_sublist, fun e he => h.2 e (List.mem_filter.mp he).1⟩

theorem storeWf_serase (d : Nat → β) {m : List (Nat × β)} (a : Nat) (h : storeWf d m) : storeWf d (serase m a) :=
  storeWf_filter d _ h

theorem mem_sinsert {m : List (Nat × β)} {a : Nat} {v : β} {e : Nat × β} (h : e ∈ sinsert m a v) : e = (a, v) ∨ e ∈ m := by
  induction m with
  | nil => simpa [sinsert] using h
  | cons x t ih =>
    obtain ⟨k, w⟩ := x
    unfold sinsert at h
    split at h
    · simpa using h
    · rcases List.mem_cons.mp h with h | h
      · exact .inr (by simp [h])
      · rcases ih h with h | h
        · exact .inl h
        · exact .inr (by simp [h])

theorem storeWf_sinsert (d : Nat → β) {m : List (Nat × β)} (a : Nat) (v : β) (hv : v ≠ d a) (hm : ∀ e ∈ m, e.1 ≠ a)
    (h : storeWf d m) : storeWf d (sinsert m a v) := by
  refine ⟨?_, fun e he => ?_⟩
  · induction m with
    | nil => simp [sinsert]
    | cons x t ih =>
      obtain ⟨k, w⟩ := x
      have hk : k ≠ a := hm (k, w) (by simp)
      have hp := List.pairwise_cons.mp h.1
      unfold sinsert
      split
      · rename_i hlt
        refine List.pairwise_cons.mpr ⟨fun e he => ?_, h.1⟩
        rcases List.mem_cons.mp he with he | he
        · subst he; exact hlt
        · exact Nat.lt_trans hlt (hp.1 e he)
      · rename_i hlt
        have ht : storeWf d t := ⟨hp.2, fun e he => h.2 e (by simp [he])⟩
        refine List.pairwise_cons.mpr ⟨fun e he => ?_, ih (fun e he => hm e (by simp [he])) ht⟩
        rcases mem_sinsert he with he | he
        · subst he; simp; omega
        · exact hp.1 e he
  · rcases mem_sinsert he with he | he
    · subst he; exact hv
    · exact h.2 e he

/-- Writing a key keeps the canonical form. -/
theorem storeWf_sput [DecidableEq β] (d : Nat → β) {m : List (Nat × β)} (a : Nat) (v : β) (h : storeWf d m) :
    storeWf d (sput d m a v) := by
  unfold sput
  split
  · exact storeWf_serase d a h
  · rename_i hv
    exact storeWf_sinsert d a v hv (mem_serase_ne m a) (storeWf_serase d a h)

theorem storeWf_supd [DecidableEq β] (d : Nat → β) {m : List (Nat × β)} (a : Nat) (f : β → β) (h : storeWf d m) :
    storeWf d (supd d m a f) := storeWf_sput d a _ h

/-- A key no entry has reads its default. -/
theorem sget_unlisted (d : Nat → β) (m : List (Nat × β)) (a : Nat) (h : ∀ e ∈ m, e.1 ≠ a) : sget d m a = d a := by
  induction m with
  | nil => rfl
  | cons e t ih =>
    obtain ⟨k, v⟩ := e
    have hk : ¬ k = a := h (k, v) (by simp)
    simpa [sget, hk] using ih (fun e he => h e (by simp [he]))

/-- A key below the first of a rising store reads its default. -/
theorem sget_below (d : Nat → β) {t : List (Nat × β)} {k a : Nat} {v : β} (hw : storeWf d ((k, v) :: t)) (hlt : a < k) :
    sget d ((k, v) :: t) a = d a := by
  refine sget_unlisted d _ a (fun e he => ?_)
  rcases List.mem_cons.mp he with he | he
  · subst he; exact Nat.ne_of_gt hlt
  · exact Nat.ne_of_gt (Nat.lt_trans hlt ((List.pairwise_cons.mp hw.1).1 e he))

/-- Two stores in canonical form that read the same are the same data. -/
theorem storeWf_ext (d : Nat → β) {m n : List (Nat × β)} (hm : storeWf d m) (hn : storeWf d n)
    (h : ∀ a, sget d m a = sget d n a) : m = n := by
  have tail : ∀ {k : Nat} {v : β} {t : List (Nat × β)}, storeWf d ((k, v) :: t) →
      storeWf d t ∧ sget d t k = d k := fun {k v t} hw =>
    ⟨⟨(List.pairwise_cons.mp hw.1).2, fun e he => hw.2 e (by simp [he])⟩,
      sget_unlisted d t k (fun e he => Nat.ne_of_gt ((List.pairwise_cons.mp hw.1).1 e he))⟩
  induction m generalizing n with
  | nil =>
    cases n with
    | nil => rfl
    | cons e t =>
      obtain ⟨k, v⟩ := e
      exact absurd (by simpa [sget] using (h k).symm) (hn.2 (k, v) (by simp))
  | cons e t ih =>
    obtain ⟨k, v⟩ := e
    cases n with
    | nil => exact absurd (by simpa [sget] using h k) (hm.2 (k, v) (by simp))
    | cons x u =>
      obtain ⟨q, w⟩ := x
      rcases Nat.lt_trichotomy k q with hlt | heq | hlt
      · have h1 := h k
        rw [sget_below d hn hlt] at h1
        exact absurd (by simpa [sget] using h1) (hm.2 (k, v) (by simp))
      · subst heq
        have hv : v = w := by simpa [sget] using h k
        subst hv
        have : t = u := ih (tail hm).1 (tail hn).1 (fun a => by
          by_cases ha : k = a
          · subst ha; rw [(tail hm).2, (tail hn).2]
          · simpa [sget, ha] using h a)
        rw [this]
      · have h1 := h q
        rw [sget_below d hm hlt] at h1
        exact absurd (by simpa [sget] using h1.symm) (hn.2 (q, w) (by simp))

end Sys2Proof.Machine
end

