-- ==== Sys2Proof/Laws/Registers.lean ====
section
/-! SUPPORT. What registers, their fields and data SRAM read after each named operation. -/

namespace Sys2Proof.Machine

/-! ### Bit fields -/

theorem withBits_toNat (w : Word) (l k v : Nat) (h : l + k ≤ 32) :
    (withBits w l k v).toNat = w.toNat % 2 ^ l + v % 2 ^ k * 2 ^ l + w.toNat / 2 ^ (l + k) * 2 ^ (l + k) := by
  have hw := w.isLt
  have e : (2 : Nat) ^ 32 = 2 ^ (l + k) * 2 ^ (32 - (l + k)) := by rw [← Nat.pow_add]; congr 1; omega
  have h1 : w.toNat % 2 ^ l < 2 ^ l := Nat.mod_lt _ (Nat.two_pow_pos l)
  have h2 : v % 2 ^ k < 2 ^ k := Nat.mod_lt _ (Nat.two_pow_pos k)
  have h3 : w.toNat / 2 ^ (l + k) < 2 ^ (32 - (l + k)) := by
    rw [Nat.div_lt_iff_lt_mul (Nat.two_pow_pos _), Nat.mul_comm, ← e]; exact hw
  have h4 : w.toNat % 2 ^ l + v % 2 ^ k * 2 ^ l < 2 ^ (l + k) := by
    rw [Nat.pow_add]
    have : (v % 2 ^ k + 1) * 2 ^ l ≤ 2 ^ k * 2 ^ l := Nat.mul_le_mul_right _ h2
    rw [Nat.add_mul] at this
    rw [Nat.mul_comm (2 ^ l)]
    omega
  unfold withBits
  rw [BitVec.toNat_ofNat]
  apply Nat.mod_eq_of_lt
  have : (w.toNat / 2 ^ (l + k) + 1) * 2 ^ (l + k) ≤ 2 ^ (32 - (l + k)) * 2 ^ (l + k) := Nat.mul_le_mul_right _ h3
  rw [Nat.add_mul, Nat.mul_comm (2 ^ (32 - (l + k))), ← e] at this
  omega

/-- A field reads what was written into it, cut to its width. -/
theorem bitsOf_withBits (w : Word) (l k v : Nat) (h : l + k ≤ 32) : bitsOf (withBits w l k v) l k = v % 2 ^ k := by
  have h1 : w.toNat % 2 ^ l < 2 ^ l := Nat.mod_lt _ (Nat.two_pow_pos l)
  unfold bitsOf
  rw [withBits_toNat w l k v h, Nat.pow_add]
  have : w.toNat % 2 ^ l + v % 2 ^ k * 2 ^ l + w.toNat / (2 ^ l * 2 ^ k) * (2 ^ l * 2 ^ k) =
      w.toNat % 2 ^ l + 2 ^ l * (v % 2 ^ k + 2 ^ k * (w.toNat / (2 ^ l * 2 ^ k))) := by ring
  rw [this, Nat.add_mul_div_left _ _ (Nat.two_pow_pos l), Nat.div_eq_of_lt h1, Nat.zero_add, Nat.add_mul_mod_self_left,
    Nat.mod_mod]

/-- A field below the one written keeps its value. -/
theorem bitsOf_withBits_below (w : Word) (l k v l' k' : Nat) (h : l + k ≤ 32) (hd : l' + k' ≤ l) :
    bitsOf (withBits w l k v) l' k' = bitsOf w l' k' := by
  unfold bitsOf
  rw [withBits_toNat w l k v h]
  have e1 : (2 : Nat) ^ l = 2 ^ (l' + k') * 2 ^ (l - (l' + k')) := by rw [← Nat.pow_add]; congr 1; omega
  have e2 : (2 : Nat) ^ (l + k) = 2 ^ (l' + k') * 2 ^ (l + k - (l' + k')) := by rw [← Nat.pow_add]; congr 1; omega
  have key : ∀ a b : Nat, a % 2 ^ (l' + k') = b % 2 ^ (l' + k') → a / 2 ^ l' % 2 ^ k' = b / 2 ^ l' % 2 ^ k' := by
    intro a b hab
    rw [← Nat.mod_mul_right_div_self, ← Nat.mod_mul_right_div_self, ← Nat.pow_add, hab]
  apply key
  have e3 : w.toNat % 2 ^ l + v % 2 ^ k * 2 ^ l + w.toNat / 2 ^ (l + k) * 2 ^ (l + k) =
      w.toNat % 2 ^ l + 2 ^ (l' + k') *
        (v % 2 ^ k * 2 ^ (l - (l' + k')) + w.toNat / 2 ^ (l + k) * 2 ^ (l + k - (l' + k'))) := by
    rw [Nat.mul_add, ← Nat.mul_assoc, ← Nat.mul_assoc, Nat.mul_comm (2 ^ (l' + k')) (v % 2 ^ k),
      Nat.mul_comm (2 ^ (l' + k')) (w.toNat / 2 ^ (l + k)), Nat.mul_assoc, Nat.mul_assoc (w.toNat / 2 ^ (l + k)), ← e1, ← e2,
      Nat.add_assoc]
  rw [e3, Nat.add_mul_mod_self_left, Nat.mod_mod_of_dvd _ (Nat.pow_dvd_pow 2 hd)]

/-- A field above the one written keeps its value. -/
theorem bitsOf_withBits_above (w : Word) (l k v l' k' : Nat) (h : l + k ≤ 32) (hd : l + k ≤ l') :
    bitsOf (withBits w l k v) l' k' = bitsOf w l' k' := by
  unfold bitsOf
  rw [withBits_toNat w l k v h]
  have h1 : w.toNat % 2 ^ l < 2 ^ l := Nat.mod_lt _ (Nat.two_pow_pos l)
  have h2 : v % 2 ^ k < 2 ^ k := Nat.mod_lt _ (Nat.two_pow_pos k)
  have h4 : w.toNat % 2 ^ l + v % 2 ^ k * 2 ^ l < 2 ^ (l + k) := by
    rw [Nat.pow_add]
    have : (v % 2 ^ k + 1) * 2 ^ l ≤ 2 ^ k * 2 ^ l := Nat.mul_le_mul_right _ h2
    rw [Nat.add_mul] at this
    rw [Nat.mul_comm (2 ^ l)]
    omega
  have e : (2 : Nat) ^ l' = 2 ^ (l + k) * 2 ^ (l' - (l + k)) := by rw [← Nat.pow_add]; congr 1; omega
  have : (w.toNat % 2 ^ l + v % 2 ^ k * 2 ^ l + w.toNat / 2 ^ (l + k) * 2 ^ (l + k)) / 2 ^ l' = w.toNat / 2 ^ l' := by
    rw [e, ← Nat.div_div_eq_div_mul, ← Nat.div_div_eq_div_mul, Nat.add_mul_div_right _ _ (Nat.two_pow_pos _),
      Nat.div_eq_of_lt h4, Nat.zero_add]
  rw [this]

/-! ### Words -/

theorem word_setWord (s : State) (a b : Nat) (w : Word) : (s.setWord a w).word b = if b = a then w else s.word b := by
  simp [State.word, State.setWord, sget_sput]

@[simp] theorem word_setWord_same (s : State) (a : Nat) (w : Word) : (s.setWord a w).word a = w := by simp [word_setWord]

theorem word_setWord_ne (s : State) {a b : Nat} (w : Word) (h : b ≠ a) : (s.setWord a w).word b = s.word b := by
  simp [word_setWord, h]

theorem word_wr (s : State) (f : Field) (v b : Nat) :
    (s.wr f v).word b = if b = f.addr then withBits (s.word f.addr) f.lsb f.width v else s.word b := by
  simp [State.wr, word_setWord]

theorem word_wr_ne (s : State) (f : Field) (v : Nat) {b : Nat} (h : b ≠ f.addr) : (s.wr f v).word b = s.word b := by
  simp [word_wr, h]

/-- A field reads what was written into it. -/
theorem rd_wr_same (s : State) (f : Field) (v : Nat) (h : f.lsb + f.width ≤ 32) : (s.wr f v).rd f = v % 2 ^ f.width := by
  simp [State.rd, word_wr, bitsOf_withBits _ _ _ _ h]

/-- A field of another register keeps its value. -/
theorem rd_wr_addr (s : State) (f g : Field) (v : Nat) (h : g.addr ≠ f.addr) : (s.wr f v).rd g = s.rd g := by
  simp [State.rd, word_wr, h]

/-- A field of the same register that does not overlap keeps its value. -/
theorem rd_wr_apart (s : State) (f g : Field) (v : Nat) (hf : f.lsb + f.width ≤ 32)
    (h : g.lsb + g.width ≤ f.lsb ∨ f.lsb + f.width ≤ g.lsb) : (s.wr f v).rd g = s.rd g := by
  unfold State.rd
  rw [word_wr]
  split
  · rename_i ha
    rcases h with h | h
    · rw [bitsOf_withBits_below _ _ _ _ _ _ hf h, ha]
    · rw [bitsOf_withBits_above _ _ _ _ _ _ hf h, ha]
  · rfl

theorem word_wrs_ne (s : State) (l : List (Field × Nat)) {b : Nat} (h : ∀ e ∈ l, b ≠ e.1.addr) :
    (s.wrs l).word b = s.word b := by
  induction l generalizing s with
  | nil => rfl
  | cons e t ih =>
    have := ih (s.wr e.1 e.2) (fun x hx => h x (by simp [hx]))
    simpa [State.wrs, word_wr_ne s e.1 e.2 (h e (by simp))] using this

theorem word_orWord (s : State) (a b : Nat) (w : Word) :
    (s.orWord a w).word b = if b = a then s.word a ||| w else s.word b := by simp [State.orWord, word_setWord]

theorem rd_addSat_same (s : State) (f : Field) (k : Nat) (h : f.lsb + f.width ≤ 32) :
    (s.addSat f k).rd f = satAdd (2 ^ f.width - 1) (s.rd f) k := by
  have hp := Nat.two_pow_pos f.width
  unfold State.addSat
  rw [rd_wr_same _ _ _ h, Nat.mod_eq_of_lt]
  unfold satAdd
  omega

theorem word_addSat_ne (s : State) (f : Field) (k : Nat) {b : Nat} (h : b ≠ f.addr) : (s.addSat f k).word b = s.word b :=
  word_wr_ne _ _ _ h

theorem rd_addWrap_same (s : State) (f : Field) (k : Nat) (h : f.lsb + f.width ≤ 32) :
    (s.addWrap f k).rd f = (s.rd f + k) % 2 ^ f.width := by
  unfold State.addWrap
  rw [rd_wr_same _ _ _ h, Nat.mod_mod]

/-- A pair of registers reads the 64-bit number written into it. -/
theorem pair_setPair (s : State) (lo hi v : Nat) (h : lo ≠ hi) : (s.setPair lo hi v).pair lo hi = v % 2 ^ 64 := by
  have h' : ¬ lo = hi := h
  simp [State.pair, State.setPair, word_setWord, h']
  omega

theorem word_setPair_ne (s : State) (lo hi v : Nat) {b : Nat} (h1 : b ≠ lo) (h2 : b ≠ hi) :
    (s.setPair lo hi v).word b = s.word b := by simp [State.setPair, word_setWord, h1, h2]

/-! ### Every operation on a register changes the register file alone -/

theorem setWord_regs (s : State) (a : Nat) (w : Word) : ∃ r, s.setWord a w = s.withRegs r := ⟨_, rfl⟩

theorem wr_regs (s : State) (f : Field) (v : Nat) : ∃ r, s.wr f v = s.withRegs r := ⟨_, rfl⟩

/-- The register file stays in canonical form. -/
theorem setWord_wf (s : State) (a : Nat) (w : Word) (h : storeWf resetWord s.regs) : storeWf resetWord (s.setWord a w).regs :=
  storeWf_sput _ _ _ h

theorem wr_wf (s : State) (f : Field) (v : Nat) (h : storeWf resetWord s.regs) : storeWf resetWord (s.wr f v).regs :=
  setWord_wf _ _ _ h

/-! ### Data SRAM -/

/-- A byte of SRAM reads what was written there; every other byte is unchanged. -/
theorem byteAt_setByte (s : State) (a b : Nat) (v : Byte) : (s.setByte a v).byteAt b = if b = a then v else s.byteAt b := by
  simp [State.byteAt, State.setByte, sget_sput]

theorem setByte_wf (s : State) (a : Nat) (v : Byte) (h : Memory.wf s.sram) : Memory.wf (s.setByte a v).sram :=
  storeWf_sput _ _ _ h

/-- Writing bytes keeps the canonical form of data SRAM. -/
theorem putBytes_wf (s : State) (a : Nat) (l : List Byte) (h : Memory.wf s.sram) : Memory.wf (s.putBytes a l).sram := by
  unfold State.putBytes
  generalize l.zipIdx = z
  induction z generalizing s with
  | nil => exact h
  | cons e t ih => exact ih _ (setByte_wf s _ _ h)

theorem clearMarks_wf (a k : Nat) (s : State) (h : Memory.wf s.sram) : Memory.wf (clearMarks a k s).sram := h

theorem writeWord_wf (a : Nat) (w : Word) (s : State) (h : Memory.wf s.sram) : Memory.wf (writeWord a w s).sram :=
  putBytes_wf _ _ _ h

theorem writeNarrow_wf (a k v : Nat) (s : State) (h : Memory.wf s.sram) : Memory.wf (writeNarrow a k v s).sram := by
  unfold writeNarrow
  split
  · exact h
  · exact putBytes_wf _ _ _ h

theorem writeBytes_wf (a : Nat) (l : List Byte) (s : State) (h : Memory.wf s.sram) : Memory.wf (writeBytes a l s).sram := by
  unfold writeBytes
  generalize l.zipIdx = z
  have h0 : Memory.wf (clearMarks a l.length s).sram := h
  revert h0
  generalize clearMarks a l.length s = s0
  intro h0
  induction z generalizing s0 with
  | nil => exact h0
  | cons e t ih =>
    apply ih
    dsimp only
    split
    · exact h0
    · exact setByte_wf _ _ _ h0

/-- Bytes outside those written keep their values. -/
theorem byteAt_putBytes_out (s : State) (a b : Nat) (l : List Byte) (h : b < a ∨ a + l.length ≤ b) :
    (s.putBytes a l).byteAt b = s.byteAt b := by
  unfold State.putBytes
  have hz : ∀ e ∈ l.zipIdx, b ≠ a + e.2 := by
    intro e he
    have : e.2 < l.length := by simpa using List.snd_lt_of_mem_zipIdx he
    omega
  revert hz
  generalize l.zipIdx = z
  induction z generalizing s with
  | nil => intro _; rfl
  | cons e t ih =>
    intro hz
    have h1 := ih (s.setByte (a + e.2) e.1) (fun x hx => hz x (by simp [hx]))
    have h2 : ¬ b = a + e.2 := hz e (by simp)
    simpa [byteAt_setByte, h2] using h1

end Sys2Proof.Machine
end

