-- ==== Sys2Proof/Laws/Events.lean ====
section
/-! SUPPORT. Once for all what counting, raising an event and writing ALARM and TRACE records can change. -/

namespace Sys2Proof.Machine

/-- `t` is `s` but for what counting, events and records may change: registers of EVT, LOG and PERF, the logs, the counters'
hidden state, messages sent. The register file keeps its canonical form. -/
structure Aside (s t : State) : Prop where
  words : ∀ a, recordArea a = false → t.word a = s.word a
  wf : storeWf resetWord s.regs → storeWf resetWord t.regs
  rest : t = { s with regs := t.regs, logs := t.logs, perf := t.perf, out := t.out }

theorem Aside.pending {s t : State} (h : Aside s t) : t.pending = s.pending := by rw [h.rest]
theorem Aside.clk {s t : State} (h : Aside s t) : t.clk = s.clk := by rw [h.rest]
theorem Aside.host {s t : State} (h : Aside s t) : t.host = s.host := by rw [h.rest]
theorem Aside.pcie {s t : State} (h : Aside s t) : t.pcie = s.pcie := by rw [h.rest]
theorem Aside.freeCount {s t : State} (h : Aside s t) : t.freeCount = s.freeCount := by rw [h.rest]
theorem Aside.chain {s t : State} (h : Aside s t) : t.chain = s.chain := by rw [h.rest]
theorem Aside.messages {s t : State} (h : Aside s t) : t.messages = s.messages := by rw [h.rest]
theorem Aside.signing {s t : State} (h : Aside s t) : t.signing = s.signing := by rw [h.rest]
theorem Aside.signCount {s t : State} (h : Aside s t) : t.signCount = s.signCount := by rw [h.rest]
theorem Aside.links {s t : State} (h : Aside s t) : t.links = s.links := by rw [h.rest]
theorem Aside.coefs {s t : State} (h : Aside s t) : t.coefs = s.coefs := by rw [h.rest]
theorem Aside.trips {s t : State} (h : Aside s t) : t.trips = s.trips := by rw [h.rest]
theorem Aside.pins {s t : State} (h : Aside s t) : t.pins = s.pins := by rw [h.rest]
theorem Aside.pool {s t : State} (h : Aside s t) : t.pool = s.pool := by rw [h.rest]
theorem Aside.reach {s t : State} (h : Aside s t) : t.reach = s.reach := by rw [h.rest]
theorem Aside.lpi {s t : State} (h : Aside s t) : t.lpi = s.lpi := by rw [h.rest]
theorem Aside.classes {s t : State} (h : Aside s t) : t.classes = s.classes := by rw [h.rest]
theorem Aside.mons {s t : State} (h : Aside s t) : t.mons = s.mons := by rw [h.rest]
theorem Aside.cal {s t : State} (h : Aside s t) : t.cal = s.cal := by rw [h.rest]
theorem Aside.lanes {s t : State} (h : Aside s t) : t.lanes = s.lanes := by rw [h.rest]
theorem Aside.sides {s t : State} (h : Aside s t) : t.sides = s.sides := by rw [h.rest]
theorem Aside.sram {s t : State} (h : Aside s t) : t.sram = s.sram := by rw [h.rest]
theorem Aside.wheel {s t : State} (h : Aside s t) : t.wheel = s.wheel := by rw [h.rest]
theorem Aside.seq {s t : State} (h : Aside s t) : t.seq = s.seq := by rw [h.rest]
theorem Aside.dma {s t : State} (h : Aside s t) : t.dma = s.dma := by rw [h.rest]
theorem Aside.net {s t : State} (h : Aside s t) : t.net = s.net := by rw [h.rest]
theorem Aside.trust {s t : State} (h : Aside s t) : t.trust = s.trust := by rw [h.rest]
theorem Aside.fw {s t : State} (h : Aside s t) : t.fw = s.fw := by rw [h.rest]
theorem Aside.power {s t : State} (h : Aside s t) : t.power = s.power := by rw [h.rest]
theorem Aside.boot {s t : State} (h : Aside s t) : t.boot = s.boot := by rw [h.rest]

theorem Aside.refl (s : State) : Aside s s := ⟨fun _ _ => rfl, id, rfl⟩

theorem Aside.trans {a b c : State} (h : Aside a b) (k : Aside b c) : Aside a c where
  words := fun x hx => (k.words x hx).trans (h.words x hx)
  wf := fun w => k.wf (h.wf w)
  rest := by rw [k.rest, h.rest]

/-- A field outside EVT, LOG and PERF reads as before. -/
theorem Aside.rd {s t : State} (h : Aside s t) (f : Field) (hf : recordArea f.addr = false) : t.rd f = s.rd f := by
  simp [State.rd, h.words _ hf]

theorem aside_setWord (s : State) (a : Nat) (w : Word) (h : recordArea a = true) : Aside s (s.setWord a w) :=
  ⟨fun b hb => word_setWord_ne s w (fun e => by subst e; rw [hb] at h; cases h), setWord_wf s a w, rfl⟩

theorem aside_wr (s : State) (f : Field) (v : Nat) (h : recordArea f.addr = true) : Aside s (s.wr f v) := aside_setWord _ _ _ h

theorem aside_emit (s : State) (o : Output) : Aside s (s.emit o) := ⟨fun _ _ => rfl, id, rfl⟩

theorem aside_logs (s : State) (l : Logs) : Aside s { s with logs := l } := ⟨fun _ _ => rfl, id, rfl⟩

theorem aside_perf (s : State) (l : Perf) : Aside s { s with perf := l } := ⟨fun _ _ => rfl, id, rfl⟩

/-- A fold whose every step stays aside stays aside. -/
theorem aside_foldl {α : Type} (f : State → α → State) (l : List α) (s : State) (h : ∀ s, ∀ x ∈ l, Aside s (f s x)) :
    Aside s (l.foldl f s) := by
  induction l generalizing s with
  | nil => exact Aside.refl s
  | cons x t ih => exact (h s x (by simp)).trans (ih _ (fun s y hy => h s y (by simp [hy])))

/-- The same for a fold that carries a flag along. -/
theorem aside_foldl_flag {α : Type} (f : State × Bool → α → State × Bool) (l : List α) (r : State × Bool)
    (h : ∀ r, ∀ x ∈ l, Aside r.1 (f r x).1) : Aside r.1 (l.foldl f r).1 := by
  induction l generalizing r with
  | nil => exact Aside.refl _
  | cons x t ih => exact (h r x (by simp)).trans (ih _ (fun s y hy => h s y (by simp [hy])))

/-! ### Events -/

theorem area_pend {b : Nat} (h : b < 256) : recordArea (EVT.PEND + 4 * (b / 32)) = true := by
  have h1 : EVT.PEND ≤ EVT.PEND + 4 * (b / 32) := by omega
  have h2 : EVT.PEND + 4 * (b / 32) < EVT.PEND + 32 := by omega
  simp [recordArea, h1, h2]

theorem area_pba {b : Nat} (h : b < 256) : recordArea (EVT.PBA + 4 * (b / 32)) = true := by
  have h1 : EVT.PBA ≤ EVT.PBA + 4 * (b / 32) := by omega
  have h2 : EVT.PBA + 4 * (b / 32) < EVT.PBA + 32 := by omega
  simp [recordArea, h1, h2]

theorem area_cnt {a : Nat} (h1 : PERF.CNT ≤ a) (h2 : a < PERF.CNT + 320) : recordArea a = true := by
  simp [recordArea, h1, h2]

theorem area_ovf {k : Nat} (h : k < 40) : recordArea (PERF.OVF + 4 * (k / 8)) = true := by
  have h1 : PERF.OVF ≤ PERF.OVF + 4 * (k / 8) := by omega
  have h2 : PERF.OVF + 4 * (k / 8) < PERF.OVF + 20 := by omega
  simp [recordArea, h1, h2]

theorem aside_setPendCore (e : Nat) (s : State) (h : e < 256) : Aside s (setPendCore e s).1 := by
  unfold setPendCore
  split
  · exact Aside.refl s
  · dsimp only
    have h1 : Aside s (s.setArrayBit EVT.PEND e) := aside_setWord _ _ _ (area_pend h)
    split
    · exact h1.trans (aside_emit _ _)
    · exact h1.trans (aside_setWord _ _ _ (area_pba h))

theorem aside_setPair (s : State) (lo hi v : Nat) (h1 : recordArea lo = true) (h2 : recordArea hi = true) :
    Aside s (s.setPair lo hi v) := (aside_setWord _ _ _ h1).trans (aside_setWord _ _ _ h2)

theorem aside_setPerfCnt (k v : Nat) (s : State) (h : k < 40) : Aside s (s.setPerfCnt k v) := by
  apply aside_setPair <;> apply area_cnt <;> simp only [PERF.CNT, PERF.CNT_HI] <;> omega

theorem aside_bumpCounter (k : Nat) (s : State) (h : k < 40) : Aside s (bumpCounter k s).1 := by
  unfold bumpCounter
  have h1 := aside_setPerfCnt k (s.perfCnt k + 1) s h
  dsimp only
  split
  · exact h1
  · have h2 := h1.trans (aside_setWord _ (PERF.OVF + 4 * (k / 8)) ((s.setPerfCnt k (s.perfCnt k + 1)).word (PERF.OVF + 4 * (k / 8)) |||
      BitVec.ofNat 32 (2 ^ (k % 8))) (area_ovf h))
    split
    · exact h2
    · exact h2.trans (aside_setWord _ _ _ (by decide))

theorem aside_bumpGroup (g code : Nat) (s : State) (h : g < 5) : Aside s (bumpGroup g code s).1 := by
  unfold bumpGroup
  dsimp only
  refine Aside.trans (aside_foldl_flag (r := (s, false)) _ (List.range 8) (fun r i hi => ?_)) (aside_perf _ _)
  have : i < 8 := List.mem_range.mp hi
  split
  · exact aside_bumpCounter _ _ (by omega)
  · exact Aside.refl _

/-- Counting an occurrence. -/
theorem aside_perfCount (g code : Nat) (s : State) (h : g < 5) : Aside s (perfCount g code s) := by
  unfold perfCount
  dsimp only
  have h1 := aside_bumpGroup g code s h
  split
  · have h2 := h1.trans (aside_setPendCore 248 _ (by decide))
    split
    · exact h2.trans (aside_bumpGroup _ _ _ (by decide))
    · exact h2
  · exact h1

/-- Raising an event. -/
theorem aside_setPend (e : Nat) (s : State) (h : e < 256) : Aside s (setPend e s) := by
  unfold setPend
  dsimp only
  split
  · exact (aside_setPendCore e s h).trans (aside_perfCount _ _ _ (by decide))
  · exact aside_setPendCore e s h

theorem aside_noteAlarm (x : Nat) (o : Bool) (s : State) : Aside s (noteAlarm x o s) := aside_logs _ _

theorem aside_openAlarm (h : HeldAlarm) (s : State) : Aside s (openAlarm h s) := by
  unfold openAlarm
  dsimp only
  exact ((aside_logs s _).trans (aside_perfCount _ _ _ (by decide))).trans
    ((aside_setWord _ _ _ (by decide)).trans (aside_setPend _ _ (by decide)))

/-- An ALARM occurrence. -/
theorem aside_alarm (source typ : Nat) (detail : Word) (s : State) : Aside s (alarm source typ detail s) := by
  unfold alarm
  dsimp only
  repeat' split
  all_goals first
    | exact (aside_openAlarm _ _).trans (aside_noteAlarm _ _ _)
    | exact (aside_logs s _).trans (aside_noteAlarm _ _ _)

theorem aside_putTrace (typ source time : Nat) (body : List Byte) (s : State) : Aside s (putTrace typ source time body s) :=
  (aside_logs s _).trans (aside_perfCount _ _ _ (by decide))

theorem aside_gapMarker (s : State) : Aside s (gapMarker s) := by
  unfold gapMarker
  split
  · split
    · exact ((aside_putTrace _ _ _ _ s).trans (aside_logs _ _)).trans (aside_wr _ _ _ (by decide))
    · exact Aside.refl s
  · exact Aside.refl s

/-- A TRACE occurrence. -/
theorem aside_trace (typ source : Nat) (body : List Byte) (s : State) : Aside s (trace typ source body s) := by
  unfold trace
  dsimp only
  have h1 := aside_gapMarker s
  have h2 : ∀ t, Aside s t →
      Aside s (perfCount 4 0x0E ((t.addSat LOG.TRACE_DROP.count 1).wr LOG.STATUS.trace_dropping 1)) := fun t ht =>
    ((ht.trans (aside_wr t LOG.TRACE_DROP.count _ (by decide))).trans (aside_wr _ _ _ (by decide))).trans
      (aside_perfCount _ _ _ (by decide))
  split
  · exact h1.trans (aside_putTrace _ _ _ _ _)
  · split
    · exact (h2 _ (h1.trans (aside_logs _ _))).trans ((aside_setWord _ _ _ (by decide)).trans (aside_setPend _ _ (by decide)))
    · exact h2 _ (h1.trans (aside_logs _ _))

theorem aside_mapped (e typ : Nat) (detail : Word) (s : State) : Aside s (mapped e typ detail s) := by
  unfold mapped
  dsimp only
  split
  · exact Aside.refl s
  · have h1 : ∀ p : Prop, [Decidable p] → Aside s (if p then trace 2 e (mappedBody detail) s else s) := by
      intro p _
      split
      · exact aside_trace _ _ _ s
      · exact Aside.refl s
    split
    · exact (h1 _).trans (aside_alarm _ _ _ _)
    · exact h1 _

/-- An occurrence of an event whose detail register is no cause register. -/
theorem aside_plainEvent (e : Nat) (detail : Word) (s : State) (h : e < 256) : Aside s (plainEvent e detail s) :=
  (aside_setPend e s h).trans (aside_mapped _ _ _ _)

/-- An occurrence with a cause bit: beside the cause register only what events change. -/
theorem causeEvent_aside (a b e : Nat) (s : State) (h : e < 256) :
    Aside (s.orWord a (BitVec.ofNat 32 (2 ^ b))) (causeEvent a b e s) :=
  (aside_setPend e _ h).trans (aside_mapped _ _ _ _)

/-- The same where the chapter writes the ALARM record itself. -/
theorem causeAlarm_aside (a b e : Nat) (s : State) (h : e < 256) :
    Aside (s.orWord a (BitVec.ofNat 32 (2 ^ b))) (causeAlarm a b e s) :=
  (aside_setPend e _ h).trans (aside_alarm _ _ _ _)

end Sys2Proof.Machine
end

