-- ==== Sys2Proof/Laws/Keeps.lean ====
section
/-! SUPPORT. Once for every operation: the parts of the state it can change, and that it keeps a canonical state canonical.
`Keeps` composes, so a meaning's lemma follows from those of the operations it calls. -/

namespace Sys2Proof.Machine

theorem Part.same_refl (p : Part) (s : State) : p.same s s := by cases p <;> rfl

theorem Part.same_trans {p : Part} {a b c : State} (h : p.same a b) (k : p.same b c) : p.same a c := by
  cases p <;> exact k.trans h

/-- Only the parts listed change, and a canonical state stays canonical. -/
structure Keeps (l : List Part) (s t : State) : Prop where
  within : Within l s t
  canonical : s.Canonical → t.Canonical

theorem Keeps.refl (l : List Part) (s : State) : Keeps l s s := ⟨fun p _ => p.same_refl s, id⟩

theorem Keeps.trans {l : List Part} {a b c : State} (h : Keeps l a b) (k : Keeps l b c) : Keeps l a c :=
  ⟨fun p hp => Part.same_trans (h.within p hp) (k.within p hp), fun w => k.canonical (h.canonical w)⟩

theorem Within.mono {l m : List Part} {s t : State} (h : Within l s t) (k : l.all (m.contains ·) = true) : Within m s t := by
  intro p hp
  apply h p
  cases e : l.contains p with
  | false => rfl
  | true =>
    have := List.all_eq_true.mp k p (by simpa using e)
    rw [hp] at this
    cases this

theorem Keeps.mono {l m : List Part} {s t : State} (h : Keeps l s t) (k : l.all (m.contains ·) = true) : Keeps m s t :=
  ⟨h.within.mono k, h.canonical⟩

theorem Keeps.step {l m : List Part} {a b c : State} (h : Keeps l b c) (k : l.all (m.contains ·) = true)
    (g : Keeps m a b) : Keeps m a c := g.trans (h.mono k)

theorem Keeps.foldl {α : Type} {l : List Part} {s m : State} {f : State → α → State} {xs : List α}
    (h : ∀ x a, Keeps l x (f x a)) (k : Keeps l s m) : Keeps l s (xs.foldl f m) := by
  induction xs generalizing m with
  | nil => exact k
  | cons a t ih => exact ih (k.trans (h m a))

theorem Keeps.foldl_fst {α β : Type} {l : List Part} {s : State} {m : State × β} {f : State × β → α → State × β} {xs : List α}
    (h : ∀ x a, Keeps l x.1 (f x a).1) (k : Keeps l s m.1) : Keeps l s (xs.foldl f m).1 := by
  induction xs generalizing m with
  | nil => exact k
  | cons a t ih => exact ih (k.trans (h m a))

theorem Keeps.foldl_snd {α β : Type} {l : List Part} {s : State} {m : β × State} {f : β × State → α → β × State} {xs : List α}
    (h : ∀ x a, Keeps l x.2 (f x a).2) (k : Keeps l s m.2) : Keeps l s (xs.foldl f m).2 := by
  induction xs generalizing m with
  | nil => exact k
  | cons a t ih => exact ih (k.trans (h m a))

/-! ### Replacing one part -/

theorem Keeps.upd_pending {l : List Part} {s m : State} {v} (h : l.contains .pending = true) (k : Keeps l s m) :
    Keeps l s { m with pending := v } :=
  k.trans ⟨fun p hp => by cases p <;> first | rfl | (rw [h] at hp; cases hp), fun w => ⟨w.regs, w.memory, w.cycle, w.slot, w.blocks⟩⟩

theorem Keeps.upd_regs {l : List Part} {s m : State} {v} (h : l.contains .regs = true) (g : storeWf resetWord m.regs → storeWf resetWord v)
    (k : Keeps l s m) : Keeps l s { m with regs := v } :=
  k.trans ⟨fun p hp => by cases p <;> first | rfl | (rw [h] at hp; cases hp), fun w => ⟨g w.regs, w.memory, w.cycle, w.slot, w.blocks⟩⟩

theorem Keeps.upd_clk {l : List Part} {s m : State} {v : Clock} (h : l.contains .clk = true)
    (g : m.clk.cycle ≤ 124 ∧ m.clk.slot ≤ 4095 → v.cycle ≤ 124 ∧ v.slot ≤ 4095)
    (k : Keeps l s m) : Keeps l s { m with clk := v } :=
  k.trans ⟨fun p hp => by cases p <;> first | rfl | (rw [h] at hp; cases hp),
    fun w => ⟨w.regs, w.memory, (g ⟨w.cycle, w.slot⟩).1, (g ⟨w.cycle, w.slot⟩).2, w.blocks⟩⟩

theorem Keeps.upd_host {l : List Part} {s m : State} {v} (h : l.contains .host = true) (k : Keeps l s m) :
    Keeps l s { m with host := v } :=
  k.trans ⟨fun p hp => by cases p <;> first | rfl | (rw [h] at hp; cases hp), fun w => ⟨w.regs, w.memory, w.cycle, w.slot, w.blocks⟩⟩

theorem Keeps.upd_pcie {l : List Part} {s m : State} {v} (h : l.contains .pcie = true) (k : Keeps l s m) :
    Keeps l s { m with pcie := v } :=
  k.trans ⟨fun p hp => by cases p <;> first | rfl | (rw [h] at hp; cases hp), fun w => ⟨w.regs, w.memory, w.cycle, w.slot, w.blocks⟩⟩

theorem Keeps.upd_logs {l : List Part} {s m : State} {v} (h : l.contains .logs = true) (k : Keeps l s m) :
    Keeps l s { m with logs := v } :=
  k.trans ⟨fun p hp => by cases p <;> first | rfl | (rw [h] at hp; cases hp), fun w => ⟨w.regs, w.memory, w.cycle, w.slot, w.blocks⟩⟩

theorem Keeps.upd_out {l : List Part} {s m : State} {v} (h : l.contains .out = true) (k : Keeps l s m) :
    Keeps l s { m with out := v } :=
  k.trans ⟨fun p hp => by cases p <;> first | rfl | (rw [h] at hp; cases hp), fun w => ⟨w.regs, w.memory, w.cycle, w.slot, w.blocks⟩⟩

theorem Keeps.upd_freeCount {l : List Part} {s m : State} {v} (h : l.contains .freeCount = true) (k : Keeps l s m) :
    Keeps l s { m with freeCount := v } :=
  k.trans ⟨fun p hp => by cases p <;> first | rfl | (rw [h] at hp; cases hp), fun w => ⟨w.regs, w.memory, w.cycle, w.slot, w.blocks⟩⟩

theorem Keeps.upd_perf {l : List Part} {s m : State} {v} (h : l.contains .perf = true) (k : Keeps l s m) :
    Keeps l s { m with perf := v } :=
  k.trans ⟨fun p hp => by cases p <;> first | rfl | (rw [h] at hp; cases hp), fun w => ⟨w.regs, w.memory, w.cycle, w.slot, w.blocks⟩⟩

theorem Keeps.upd_chain {l : List Part} {s m : State} {v} (h : l.contains .chain = true) (k : Keeps l s m) :
    Keeps l s { m with chain := v } :=
  k.trans ⟨fun p hp => by cases p <;> first | rfl | (rw [h] at hp; cases hp), fun w => ⟨w.regs, w.memory, w.cycle, w.slot, w.blocks⟩⟩

theorem Keeps.upd_messages {l : List Part} {s m : State} {v} (h : l.contains .messages = true) (k : Keeps l s m) :
    Keeps l s { m with messages := v } :=
  k.trans ⟨fun p hp => by cases p <;> first | rfl | (rw [h] at hp; cases hp), fun w => ⟨w.regs, w.memory, w.cycle, w.slot, w.blocks⟩⟩

theorem Keeps.upd_signing {l : List Part} {s m : State} {v} (h : l.contains .signing = true) (k : Keeps l s m) :
    Keeps l s { m with signing := v } :=
  k.trans ⟨fun p hp => by cases p <;> first | rfl | (rw [h] at hp; cases hp), fun w => ⟨w.regs, w.memory, w.cycle, w.slot, w.blocks⟩⟩

theorem Keeps.upd_signCount {l : List Part} {s m : State} {v} (h : l.contains .signCount = true) (k : Keeps l s m) :
    Keeps l s { m with signCount := v } :=
  k.trans ⟨fun p hp => by cases p <;> first | rfl | (rw [h] at hp; cases hp), fun w => ⟨w.regs, w.memory, w.cycle, w.slot, w.blocks⟩⟩

theorem Keeps.upd_links {l : List Part} {s m : State} {v} (h : l.contains .links = true) (k : Keeps l s m) :
    Keeps l s { m with links := v } :=
  k.trans ⟨fun p hp => by cases p <;> first | rfl | (rw [h] at hp; cases hp), fun w => ⟨w.regs, w.memory, w.cycle, w.slot, w.blocks⟩⟩

theorem Keeps.upd_coefs {l : List Part} {s m : State} {v} (h : l.contains .coefs = true) (k : Keeps l s m) :
    Keeps l s { m with coefs := v } :=
  k.trans ⟨fun p hp => by cases p <;> first | rfl | (rw [h] at hp; cases hp), fun w => ⟨w.regs, w.memory, w.cycle, w.slot, w.blocks⟩⟩

theorem Keeps.upd_trips {l : List Part} {s m : State} {v} (h : l.contains .trips = true) (k : Keeps l s m) :
    Keeps l s { m with trips := v } :=
  k.trans ⟨fun p hp => by cases p <;> first | rfl | (rw [h] at hp; cases hp), fun w => ⟨w.regs, w.memory, w.cycle, w.slot, w.blocks⟩⟩

theorem Keeps.upd_pins {l : List Part} {s m : State} {v} (h : l.contains .pins = true) (k : Keeps l s m) :
    Keeps l s { m with pins := v } :=
  k.trans ⟨fun p hp => by cases p <;> first | rfl | (rw [h] at hp; cases hp), fun w => ⟨w.regs, w.memory, w.cycle, w.slot, w.blocks⟩⟩

theorem Keeps.upd_pool {l : List Part} {s m : State} {v : Pool} (h : l.contains .pool = true)
    (g : inPool m.pool.descs → inPool v.descs) (k : Keeps l s m) :
    Keeps l s { m with pool := v } :=
  k.trans ⟨fun p hp => by cases p <;> first | rfl | (rw [h] at hp; cases hp), fun w => ⟨w.regs, w.memory, w.cycle, w.slot, g w.blocks⟩⟩

theorem Keeps.upd_reach {l : List Part} {s m : State} {v} (h : l.contains .reach = true) (k : Keeps l s m) :
    Keeps l s { m with reach := v } :=
  k.trans ⟨fun p hp => by cases p <;> first | rfl | (rw [h] at hp; cases hp), fun w => ⟨w.regs, w.memory, w.cycle, w.slot, w.blocks⟩⟩

theorem Keeps.upd_lpi {l : List Part} {s m : State} {v} (h : l.contains .lpi = true) (k : Keeps l s m) :
    Keeps l s { m with lpi := v } :=
  k.trans ⟨fun p hp => by cases p <;> first | rfl | (rw [h] at hp; cases hp), fun w => ⟨w.regs, w.memory, w.cycle, w.slot, w.blocks⟩⟩

theorem Keeps.upd_classes {l : List Part} {s m : State} {v} (h : l.contains .classes = true) (k : Keeps l s m) :
    Keeps l s { m with classes := v } :=
  k.trans ⟨fun p hp => by cases p <;> first | rfl | (rw [h] at hp; cases hp), fun w => ⟨w.regs, w.memory, w.cycle, w.slot, w.blocks⟩⟩

theorem Keeps.upd_mons {l : List Part} {s m : State} {v} (h : l.contains .mons = true) (k : Keeps l s m) :
    Keeps l s { m with mons := v } :=
  k.trans ⟨fun p hp => by cases p <;> first | rfl | (rw [h] at hp; cases hp), fun w => ⟨w.regs, w.memory, w.cycle, w.slot, w.blocks⟩⟩

theorem Keeps.upd_cal {l : List Part} {s m : State} {v} (h : l.contains .cal = true) (k : Keeps l s m) :
    Keeps l s { m with cal := v } :=
  k.trans ⟨fun p hp => by cases p <;> first | rfl | (rw [h] at hp; cases hp), fun w => ⟨w.regs, w.memory, w.cycle, w.slot, w.blocks⟩⟩

theorem Keeps.upd_lanes {l : List Part} {s m : State} {v} (h : l.contains .lanes = true) (k : Keeps l s m) :
    Keeps l s { m with lanes := v } :=
  k.trans ⟨fun p hp => by cases p <;> first | rfl | (rw [h] at hp; cases hp), fun w => ⟨w.regs, w.memory, w.cycle, w.slot, w.blocks⟩⟩

theorem Keeps.upd_sides {l : List Part} {s m : State} {v} (h : l.contains .sides = true) (k : Keeps l s m) :
    Keeps l s { m with sides := v } :=
  k.trans ⟨fun p hp => by cases p <;> first | rfl | (rw [h] at hp; cases hp), fun w => ⟨w.regs, w.memory, w.cycle, w.slot, w.blocks⟩⟩

theorem Keeps.upd_sram {l : List Part} {s m : State} {v} (h : l.contains .sram = true) (g : Memory.wf m.sram → Memory.wf v)
    (k : Keeps l s m) : Keeps l s { m with sram := v } :=
  k.trans ⟨fun p hp => by cases p <;> first | rfl | (rw [h] at hp; cases hp), fun w => ⟨w.regs, g w.memory, w.cycle, w.slot, w.blocks⟩⟩

theorem Keeps.upd_wheel {l : List Part} {s m : State} {v} (h : l.contains .wheel = true) (k : Keeps l s m) :
    Keeps l s { m with wheel := v } :=
  k.trans ⟨fun p hp => by cases p <;> first | rfl | (rw [h] at hp; cases hp), fun w => ⟨w.regs, w.memory, w.cycle, w.slot, w.blocks⟩⟩

theorem Keeps.upd_seq {l : List Part} {s m : State} {v} (h : l.contains .seq = true) (k : Keeps l s m) :
    Keeps l s { m with seq := v } :=
  k.trans ⟨fun p hp => by cases p <;> first | rfl | (rw [h] at hp; cases hp), fun w => ⟨w.regs, w.memory, w.cycle, w.slot, w.blocks⟩⟩

theorem Keeps.upd_dma {l : List Part} {s m : State} {v} (h : l.contains .dma = true) (k : Keeps l s m) :
    Keeps l s { m with dma := v } :=
  k.trans ⟨fun p hp => by cases p <;> first | rfl | (rw [h] at hp; cases hp), fun w => ⟨w.regs, w.memory, w.cycle, w.slot, w.blocks⟩⟩

theorem Keeps.upd_net {l : List Part} {s m : State} {v} (h : l.contains .net = true) (k : Keeps l s m) :
    Keeps l s { m with net := v } :=
  k.trans ⟨fun p hp => by cases p <;> first | rfl | (rw [h] at hp; cases hp), fun w => ⟨w.regs, w.memory, w.cycle, w.slot, w.blocks⟩⟩

theorem Keeps.upd_trust {l : List Part} {s m : State} {v} (h : l.contains .trust = true) (k : Keeps l s m) :
    Keeps l s { m with trust := v } :=
  k.trans ⟨fun p hp => by cases p <;> first | rfl | (rw [h] at hp; cases hp), fun w => ⟨w.regs, w.memory, w.cycle, w.slot, w.blocks⟩⟩

theorem Keeps.upd_fw {l : List Part} {s m : State} {v} (h : l.contains .fw = true) (k : Keeps l s m) :
    Keeps l s { m with fw := v } :=
  k.trans ⟨fun p hp => by cases p <;> first | rfl | (rw [h] at hp; cases hp), fun w => ⟨w.regs, w.memory, w.cycle, w.slot, w.blocks⟩⟩

theorem Keeps.upd_power {l : List Part} {s m : State} {v} (h : l.contains .power = true) (k : Keeps l s m) :
    Keeps l s { m with power := v } :=
  k.trans ⟨fun p hp => by cases p <;> first | rfl | (rw [h] at hp; cases hp), fun w => ⟨w.regs, w.memory, w.cycle, w.slot, w.blocks⟩⟩

theorem Keeps.upd_boot {l : List Part} {s m : State} {v} (h : l.contains .boot = true) (k : Keeps l s m) :
    Keeps l s { m with boot := v } :=
  k.trans ⟨fun p hp => by cases p <;> first | rfl | (rw [h] at hp; cases hp), fun w => ⟨w.regs, w.memory, w.cycle, w.slot, w.blocks⟩⟩

/-- Several parts replaced at once, none of them one that the canonical form is about. -/
theorem Keeps.of_parts {l : List Part} {s t : State} (h : Within l s t) (hr : t.regs = s.regs) (hm : t.sram = s.sram)
    (hc : t.clk = s.clk) (hb : inPool s.pool.descs → inPool t.pool.descs) : Keeps l s t :=
  ⟨h, fun w => ⟨by unfold State.regsWf; rw [hr]; exact w.regs, by rw [hm]; exact w.memory, by rw [hc]; exact w.cycle,
    by rw [hc]; exact w.slot, hb w.blocks⟩⟩

end Sys2Proof.Machine
end

