-- ==== Sys2Proof/Laws/Changes.lean ====
section
/-! SUPPORT. How frames compose: `Changes` of one write, of a record, and of what follows one another. -/

namespace Sys2Proof.Machine

theorem within_refl (l : List Part) (s : State) : Within l s s := fun p _ => p.same_refl s

theorem Within.trans {l : List Part} {a b c : State} (h : Within l a b) (k : Within l b c) : Within l a c :=
  fun p hp => Part.same_trans (h p hp) (k p hp)

/-- What counting, events and records change lies in `records`. -/
theorem Aside.within {s t : State} (h : Aside s t) : Within records s t := by
  intro p hp
  rw [h.rest]
  cases p <;> first | rfl | (exact absurd hp (by decide))

/-- A field outside the record area reads as before, unless its register is listed. -/
theorem Changes.rd {words : List Nat} {parts : List Part} {s t : State} (h : Changes words parts s t) (f : Field)
    (hw : f.addr ∉ words) (hf : recordArea f.addr = false) : t.rd f = s.rd f := by
  simp [State.rd, h.registers _ hw hf]

theorem changes_refl (words : List Nat) (parts : List Part) (s : State) : Changes words parts s s :=
  ⟨fun _ _ _ => rfl, within_refl _ s⟩

theorem Changes.trans {words : List Nat} {parts : List Part} {a b c : State} (h : Changes words parts a b)
    (k : Changes words parts b c) : Changes words parts a c :=
  ⟨fun x hx hr => (k.registers x hx hr).trans (h.registers x hx hr), h.rest.trans k.rest⟩

theorem Changes.mono {w w' : List Nat} {p p' : List Part} {s t : State} (h : Changes w p s t) (hw : ∀ a, a ∈ w → a ∈ w')
    (hp : (records ++ p).all ((records ++ p').contains ·) = true) : Changes w' p' s t :=
  ⟨fun a ha hr => h.registers a (fun k => ha (hw a k)) hr, h.rest.mono hp⟩

/-- Records, with any list. -/
theorem Aside.changes {words : List Nat} {parts : List Part} {s t : State} (h : Aside s t) : Changes words parts s t :=
  ⟨fun a _ hr => h.words a hr, h.within.mono (by
    simp only [records, List.all_cons, List.all_nil, List.contains_eq_mem]
    simp)⟩

/-- Writing a listed register. -/
theorem changes_setWord {words : List Nat} {parts : List Part} (s : State) (a : Nat) (w : Word) (h : a ∈ words) :
    Changes words parts s (s.setWord a w) :=
  ⟨fun b hb _ => word_setWord_ne s w (fun e => hb (e ▸ h)), fun p hp => by
    cases p <;> first | rfl | (simp [records] at hp)⟩

theorem changes_wr {words : List Nat} {parts : List Part} (s : State) (f : Field) (v : Nat) (h : f.addr ∈ words) :
    Changes words parts s (s.wr f v) := changes_setWord s _ _ h

theorem changes_wrs {words : List Nat} {parts : List Part} (s : State) (l : List (Field × Nat)) (h : ∀ e ∈ l, e.1.addr ∈ words) :
    Changes words parts s (s.wrs l) := by
  unfold State.wrs
  induction l generalizing s with
  | nil => exact changes_refl _ _ s
  | cons e t ih =>
    exact (changes_wr s e.1 e.2 (h e (by simp))).trans (ih _ (fun x hx => h x (by simp [hx])))

/-- Two states with one register file differ in their other parts only. -/
theorem changes_parts {words : List Nat} {parts : List Part} {s t : State} (h : t.regs = s.regs)
    (k : Within (records ++ parts) s t) : Changes words parts s t :=
  ⟨fun a _ _ => by simp [State.word, h], k⟩

end Sys2Proof.Machine
end

