-- ==== Sys2Proof/Laws/KeepsRecords.lean ====
section
/-! SUPPORT. The parts each operation can change, and that it keeps a canonical state canonical: registers, events, records, data SRAM, banks. -/

set_option linter.unusedTactic false
set_option linter.unreachableTactic false

namespace Sys2Proof.Machine

/-! ### Fields -/

theorem State.withClk_keeps {l : List Part} {s m : State} {v : Clock} (h : l.contains .clk = true)
    (g : m.clk.cycle ≤ 124 ∧ m.clk.slot ≤ 4095 → v.cycle ≤ 124 ∧ v.slot ≤ 4095) (k : Keeps l s m) : Keeps l s (m.withClk v) :=
  Keeps.upd_clk h g k

theorem State.withHost_keeps (x0 : State) (x1) : Keeps [.host] x0 (Sys2Proof.Machine.State.withHost x0 x1) := by
  unfold Sys2Proof.Machine.State.withHost
  try dsimp only
  repeat' first
    | with_reducible exact Keeps.refl _ _
    | ((with_reducible apply Keeps.upd_host); exact rfl)
    | (refine Keeps.of_parts ?_ rfl rfl rfl (fun h => h); intro p hp; cases p <;> first | rfl | exact absurd hp (by decide))

theorem State.withPcie_keeps (x0 : State) (x1) : Keeps [.pcie] x0 (Sys2Proof.Machine.State.withPcie x0 x1) := by
  unfold Sys2Proof.Machine.State.withPcie
  try dsimp only
  repeat' first
    | with_reducible exact Keeps.refl _ _
    | ((with_reducible apply Keeps.upd_pcie); exact rfl)
    | (refine Keeps.of_parts ?_ rfl rfl rfl (fun h => h); intro p hp; cases p <;> first | rfl | exact absurd hp (by decide))

theorem State.withLogs_keeps (x0 : State) (x1) : Keeps [.logs] x0 (Sys2Proof.Machine.State.withLogs x0 x1) := by
  unfold Sys2Proof.Machine.State.withLogs
  try dsimp only
  repeat' first
    | with_reducible exact Keeps.refl _ _
    | ((with_reducible apply Keeps.upd_logs); exact rfl)
    | (refine Keeps.of_parts ?_ rfl rfl rfl (fun h => h); intro p hp; cases p <;> first | rfl | exact absurd hp (by decide))

theorem State.withOut_keeps (x0 : State) (x1) : Keeps [.out] x0 (Sys2Proof.Machine.State.withOut x0 x1) := by
  unfold Sys2Proof.Machine.State.withOut
  try dsimp only
  repeat' first
    | with_reducible exact Keeps.refl _ _
    | ((with_reducible apply Keeps.upd_out); exact rfl)
    | (refine Keeps.of_parts ?_ rfl rfl rfl (fun h => h); intro p hp; cases p <;> first | rfl | exact absurd hp (by decide))

theorem State.withFreeCount_keeps (x0 : State) (x1) : Keeps [.freeCount] x0 (Sys2Proof.Machine.State.withFreeCount x0 x1) := by
  unfold Sys2Proof.Machine.State.withFreeCount
  try dsimp only
  repeat' first
    | with_reducible exact Keeps.refl _ _
    | ((with_reducible apply Keeps.upd_freeCount); exact rfl)
    | (refine Keeps.of_parts ?_ rfl rfl rfl (fun h => h); intro p hp; cases p <;> first | rfl | exact absurd hp (by decide))

theorem State.withPerf_keeps (x0 : State) (x1) : Keeps [.perf] x0 (Sys2Proof.Machine.State.withPerf x0 x1) := by
  unfold Sys2Proof.Machine.State.withPerf
  try dsimp only
  repeat' first
    | with_reducible exact Keeps.refl _ _
    | ((with_reducible apply Keeps.upd_perf); exact rfl)
    | (refine Keeps.of_parts ?_ rfl rfl rfl (fun h => h); intro p hp; cases p <;> first | rfl | exact absurd hp (by decide))

theorem State.withChain_keeps (x0 : State) (x1) : Keeps [.chain] x0 (Sys2Proof.Machine.State.withChain x0 x1) := by
  unfold Sys2Proof.Machine.State.withChain
  try dsimp only
  repeat' first
    | with_reducible exact Keeps.refl _ _
    | ((with_reducible apply Keeps.upd_chain); exact rfl)
    | (refine Keeps.of_parts ?_ rfl rfl rfl (fun h => h); intro p hp; cases p <;> first | rfl | exact absurd hp (by decide))

theorem State.withMessages_keeps (x0 : State) (x1) : Keeps [.messages] x0 (Sys2Proof.Machine.State.withMessages x0 x1) := by
  unfold Sys2Proof.Machine.State.withMessages
  try dsimp only
  repeat' first
    | with_reducible exact Keeps.refl _ _
    | ((with_reducible apply Keeps.upd_messages); exact rfl)
    | (refine Keeps.of_parts ?_ rfl rfl rfl (fun h => h); intro p hp; cases p <;> first | rfl | exact absurd hp (by decide))

theorem State.withSigning_keeps (x0 : State) (x1) : Keeps [.signing] x0 (Sys2Proof.Machine.State.withSigning x0 x1) := by
  unfold Sys2Proof.Machine.State.withSigning
  try dsimp only
  repeat' first
    | with_reducible exact Keeps.refl _ _
    | ((with_reducible apply Keeps.upd_signing); exact rfl)
    | (refine Keeps.of_parts ?_ rfl rfl rfl (fun h => h); intro p hp; cases p <;> first | rfl | exact absurd hp (by decide))

theorem State.withSignCount_keeps (x0 : State) (x1) : Keeps [.signCount] x0 (Sys2Proof.Machine.State.withSignCount x0 x1) := by
  unfold Sys2Proof.Machine.State.withSignCount
  try dsimp only
  repeat' first
    | with_reducible exact Keeps.refl _ _
    | ((with_reducible apply Keeps.upd_signCount); exact rfl)
    | (refine Keeps.of_parts ?_ rfl rfl rfl (fun h => h); intro p hp; cases p <;> first | rfl | exact absurd hp (by decide))

theorem State.withLinks_keeps (x0 : State) (x1) : Keeps [.links] x0 (Sys2Proof.Machine.State.withLinks x0 x1) := by
  unfold Sys2Proof.Machine.State.withLinks
  try dsimp only
  repeat' first
    | with_reducible exact Keeps.refl _ _
    | ((with_reducible apply Keeps.upd_links); exact rfl)
    | (refine Keeps.of_parts ?_ rfl rfl rfl (fun h => h); intro p hp; cases p <;> first | rfl | exact absurd hp (by decide))

theorem State.withCoefs_keeps (x0 : State) (x1) : Keeps [.coefs] x0 (Sys2Proof.Machine.State.withCoefs x0 x1) := by
  unfold Sys2Proof.Machine.State.withCoefs
  try dsimp only
  repeat' first
    | with_reducible exact Keeps.refl _ _
    | ((with_reducible apply Keeps.upd_coefs); exact rfl)
    | (refine Keeps.of_parts ?_ rfl rfl rfl (fun h => h); intro p hp; cases p <;> first | rfl | exact absurd hp (by decide))

theorem State.withTrips_keeps (x0 : State) (x1) : Keeps [.trips] x0 (Sys2Proof.Machine.State.withTrips x0 x1) := by
  unfold Sys2Proof.Machine.State.withTrips
  try dsimp only
  repeat' first
    | with_reducible exact Keeps.refl _ _
    | ((with_reducible apply Keeps.upd_trips); exact rfl)
    | (refine Keeps.of_parts ?_ rfl rfl rfl (fun h => h); intro p hp; cases p <;> first | rfl | exact absurd hp (by decide))

theorem State.withPins_keeps (x0 : State) (x1) : Keeps [.pins] x0 (Sys2Proof.Machine.State.withPins x0 x1) := by
  unfold Sys2Proof.Machine.State.withPins
  try dsimp only
  repeat' first
    | with_reducible exact Keeps.refl _ _
    | ((with_reducible apply Keeps.upd_pins); exact rfl)
    | (refine Keeps.of_parts ?_ rfl rfl rfl (fun h => h); intro p hp; cases p <;> first | rfl | exact absurd hp (by decide))

theorem State.withReach_keeps (x0 : State) (x1) : Keeps [.reach] x0 (Sys2Proof.Machine.State.withReach x0 x1) := by
  unfold Sys2Proof.Machine.State.withReach
  try dsimp only
  repeat' first
    | with_reducible exact Keeps.refl _ _
    | ((with_reducible apply Keeps.upd_reach); exact rfl)
    | (refine Keeps.of_parts ?_ rfl rfl rfl (fun h => h); intro p hp; cases p <;> first | rfl | exact absurd hp (by decide))

theorem State.withLpi_keeps (x0 : State) (x1) : Keeps [.lpi] x0 (Sys2Proof.Machine.State.withLpi x0 x1) := by
  unfold Sys2Proof.Machine.State.withLpi
  try dsimp only
  repeat' first
    | with_reducible exact Keeps.refl _ _
    | ((with_reducible apply Keeps.upd_lpi); exact rfl)
    | (refine Keeps.of_parts ?_ rfl rfl rfl (fun h => h); intro p hp; cases p <;> first | rfl | exact absurd hp (by decide))

theorem State.withClasses_keeps (x0 : State) (x1) : Keeps [.classes] x0 (Sys2Proof.Machine.State.withClasses x0 x1) := by
  unfold Sys2Proof.Machine.State.withClasses
  try dsimp only
  repeat' first
    | with_reducible exact Keeps.refl _ _
    | ((with_reducible apply Keeps.upd_classes); exact rfl)
    | (refine Keeps.of_parts ?_ rfl rfl rfl (fun h => h); intro p hp; cases p <;> first | rfl | exact absurd hp (by decide))

theorem State.withMons_keeps (x0 : State) (x1) : Keeps [.mons] x0 (Sys2Proof.Machine.State.withMons x0 x1) := by
  unfold Sys2Proof.Machine.State.withMons
  try dsimp only
  repeat' first
    | with_reducible exact Keeps.refl _ _
    | ((with_reducible apply Keeps.upd_mons); exact rfl)
    | (refine Keeps.of_parts ?_ rfl rfl rfl (fun h => h); intro p hp; cases p <;> first | rfl | exact absurd hp (by decide))

theorem State.withCal_keeps (x0 : State) (x1) : Keeps [.cal] x0 (Sys2Proof.Machine.State.withCal x0 x1) := by
  unfold Sys2Proof.Machine.State.withCal
  try dsimp only
  repeat' first
    | with_reducible exact Keeps.refl _ _
    | ((with_reducible apply Keeps.upd_cal); exact rfl)
    | (refine Keeps.of_parts ?_ rfl rfl rfl (fun h => h); intro p hp; cases p <;> first | rfl | exact absurd hp (by decide))

theorem State.withLanes_keeps (x0 : State) (x1) : Keeps [.lanes] x0 (Sys2Proof.Machine.State.withLanes x0 x1) := by
  unfold Sys2Proof.Machine.State.withLanes
  try dsimp only
  repeat' first
    | with_reducible exact Keeps.refl _ _
    | ((with_reducible apply Keeps.upd_lanes); exact rfl)
    | (refine Keeps.of_parts ?_ rfl rfl rfl (fun h => h); intro p hp; cases p <;> first | rfl | exact absurd hp (by decide))

theorem State.withSides_keeps (x0 : State) (x1) : Keeps [.sides] x0 (Sys2Proof.Machine.State.withSides x0 x1) := by
  unfold Sys2Proof.Machine.State.withSides
  try dsimp only
  repeat' first
    | with_reducible exact Keeps.refl _ _
    | ((with_reducible apply Keeps.upd_sides); exact rfl)
    | (refine Keeps.of_parts ?_ rfl rfl rfl (fun h => h); intro p hp; cases p <;> first | rfl | exact absurd hp (by decide))

theorem State.withSram_keeps {l : List Part} {s m : State} {v : List Host.Cell} (h : l.contains .sram = true)
    (g : Memory.wf m.sram → Memory.wf v) (k : Keeps l s m) : Keeps l s (m.withSram v) := Keeps.upd_sram h g k

theorem State.withWheel_keeps (x0 : State) (x1) : Keeps [.wheel] x0 (Sys2Proof.Machine.State.withWheel x0 x1) := by
  unfold Sys2Proof.Machine.State.withWheel
  try dsimp only
  repeat' first
    | with_reducible exact Keeps.refl _ _
    | ((with_reducible apply Keeps.upd_wheel); exact rfl)
    | (refine Keeps.of_parts ?_ rfl rfl rfl (fun h => h); intro p hp; cases p <;> first | rfl | exact absurd hp (by decide))

theorem State.withSeq_keeps (x0 : State) (x1) : Keeps [.seq] x0 (Sys2Proof.Machine.State.withSeq x0 x1) := by
  unfold Sys2Proof.Machine.State.withSeq
  try dsimp only
  repeat' first
    | with_reducible exact Keeps.refl _ _
    | ((with_reducible apply Keeps.upd_seq); exact rfl)
    | (refine Keeps.of_parts ?_ rfl rfl rfl (fun h => h); intro p hp; cases p <;> first | rfl | exact absurd hp (by decide))

theorem State.withDma_keeps (x0 : State) (x1) : Keeps [.dma] x0 (Sys2Proof.Machine.State.withDma x0 x1) := by
  unfold Sys2Proof.Machine.State.withDma
  try dsimp only
  repeat' first
    | with_reducible exact Keeps.refl _ _
    | ((with_reducible apply Keeps.upd_dma); exact rfl)
    | (refine Keeps.of_parts ?_ rfl rfl rfl (fun h => h); intro p hp; cases p <;> first | rfl | exact absurd hp (by decide))

theorem State.withNet_keeps (x0 : State) (x1) : Keeps [.net] x0 (Sys2Proof.Machine.State.withNet x0 x1) := by
  unfold Sys2Proof.Machine.State.withNet
  try dsimp only
  repeat' first
    | with_reducible exact Keeps.refl _ _
    | ((with_reducible apply Keeps.upd_net); exact rfl)
    | (refine Keeps.of_parts ?_ rfl rfl rfl (fun h => h); intro p hp; cases p <;> first | rfl | exact absurd hp (by decide))

theorem State.withTrust_keeps (x0 : State) (x1) : Keeps [.trust] x0 (Sys2Proof.Machine.State.withTrust x0 x1) := by
  unfold Sys2Proof.Machine.State.withTrust
  try dsimp only
  repeat' first
    | with_reducible exact Keeps.refl _ _
    | ((with_reducible apply Keeps.upd_trust); exact rfl)
    | (refine Keeps.of_parts ?_ rfl rfl rfl (fun h => h); intro p hp; cases p <;> first | rfl | exact absurd hp (by decide))

theorem State.withFw_keeps (x0 : State) (x1) : Keeps [.fw] x0 (Sys2Proof.Machine.State.withFw x0 x1) := by
  unfold Sys2Proof.Machine.State.withFw
  try dsimp only
  repeat' first
    | with_reducible exact Keeps.refl _ _
    | ((with_reducible apply Keeps.upd_fw); exact rfl)
    | (refine Keeps.of_parts ?_ rfl rfl rfl (fun h => h); intro p hp; cases p <;> first | rfl | exact absurd hp (by decide))

theorem State.withPower_keeps (x0 : State) (x1) : Keeps [.power] x0 (Sys2Proof.Machine.State.withPower x0 x1) := by
  unfold Sys2Proof.Machine.State.withPower
  try dsimp only
  repeat' first
    | with_reducible exact Keeps.refl _ _
    | ((with_reducible apply Keeps.upd_power); exact rfl)
    | (refine Keeps.of_parts ?_ rfl rfl rfl (fun h => h); intro p hp; cases p <;> first | rfl | exact absurd hp (by decide))

theorem State.withBoot_keeps (x0 : State) (x1) : Keeps [.boot] x0 (Sys2Proof.Machine.State.withBoot x0 x1) := by
  unfold Sys2Proof.Machine.State.withBoot
  try dsimp only
  repeat' first
    | with_reducible exact Keeps.refl _ _
    | ((with_reducible apply Keeps.upd_boot); exact rfl)
    | (refine Keeps.of_parts ?_ rfl rfl rfl (fun h => h); intro p hp; cases p <;> first | rfl | exact absurd hp (by decide))

/-! ### Ops -/

theorem State.setWord_keeps (x0 : State) (x1) (x2) : Keeps [.regs] x0 (Sys2Proof.Machine.State.setWord x0 x1 x2) :=
  Keeps.upd_regs rfl (fun h => storeWf_sput _ _ _ h) (Keeps.refl _ _)

theorem State.wr_keeps (x0 : State) (x1) (x2) : Keeps [.regs] x0 (Sys2Proof.Machine.State.wr x0 x1 x2) := by
  unfold Sys2Proof.Machine.State.wr
  try dsimp only
  repeat' first
    | ((with_reducible intro _ _); dsimp only)
    | ((with_reducible intro _); dsimp only)
    | (with_reducible intro _)
    | with_reducible exact Keeps.refl _ _
    | with_reducible assumption
    | ((with_reducible apply Keeps.step (State.setWord_keeps _ _ _ )); exact rfl)
    | with_reducible apply Keeps.foldl
    | with_reducible apply Keeps.foldl_fst

theorem State.wrs_keeps (x0 : State) (x1) : Keeps [.regs] x0 (Sys2Proof.Machine.State.wrs x0 x1) := by
  unfold Sys2Proof.Machine.State.wrs
  try dsimp only
  repeat' first
    | ((with_reducible intro _ _); dsimp only)
    | ((with_reducible intro _); dsimp only)
    | (with_reducible intro _)
    | with_reducible exact Keeps.refl _ _
    | with_reducible assumption
    | ((with_reducible apply Keeps.step (State.wr_keeps _ _ _ )); exact rfl)
    | with_reducible apply Keeps.foldl
    | with_reducible apply Keeps.foldl_fst

theorem State.orWord_keeps (x0 : State) (x1) (x2) : Keeps [.regs] x0 (Sys2Proof.Machine.State.orWord x0 x1 x2) := by
  unfold Sys2Proof.Machine.State.orWord
  try dsimp only
  repeat' first
    | ((with_reducible intro _ _); dsimp only)
    | ((with_reducible intro _); dsimp only)
    | (with_reducible intro _)
    | with_reducible exact Keeps.refl _ _
    | with_reducible assumption
    | ((with_reducible apply Keeps.step (State.setWord_keeps _ _ _ )); exact rfl)
    | with_reducible apply Keeps.foldl
    | with_reducible apply Keeps.foldl_fst

theorem State.clearBits_keeps (x0 : State) (x1) (x2) : Keeps [.regs] x0 (Sys2Proof.Machine.State.clearBits x0 x1 x2) := by
  unfold Sys2Proof.Machine.State.clearBits
  try dsimp only
  repeat' first
    | ((with_reducible intro _ _); dsimp only)
    | ((with_reducible intro _); dsimp only)
    | (with_reducible intro _)
    | with_reducible exact Keeps.refl _ _
    | with_reducible assumption
    | ((with_reducible apply Keeps.step (State.setWord_keeps _ _ _ )); exact rfl)
    | with_reducible apply Keeps.foldl
    | with_reducible apply Keeps.foldl_fst

theorem State.addSat_keeps (x0 : State) (x1) (x2) : Keeps [.regs] x0 (Sys2Proof.Machine.State.addSat x0 x1 x2) := by
  unfold Sys2Proof.Machine.State.addSat
  try dsimp only
  repeat' first
    | ((with_reducible intro _ _); dsimp only)
    | ((with_reducible intro _); dsimp only)
    | (with_reducible intro _)
    | with_reducible exact Keeps.refl _ _
    | with_reducible assumption
    | ((with_reducible apply Keeps.step (State.wr_keeps _ _ _ )); exact rfl)
    | with_reducible apply Keeps.foldl
    | with_reducible apply Keeps.foldl_fst

theorem State.addWrap_keeps (x0 : State) (x1) (x2) : Keeps [.regs] x0 (Sys2Proof.Machine.State.addWrap x0 x1 x2) := by
  unfold Sys2Proof.Machine.State.addWrap
  try dsimp only
  repeat' first
    | ((with_reducible intro _ _); dsimp only)
    | ((with_reducible intro _); dsimp only)
    | (with_reducible intro _)
    | with_reducible exact Keeps.refl _ _
    | with_reducible assumption
    | ((with_reducible apply Keeps.step (State.wr_keeps _ _ _ )); exact rfl)
    | with_reducible apply Keeps.foldl
    | with_reducible apply Keeps.foldl_fst

theorem State.setPair_keeps (x0 : State) (x1) (x2) (x3) : Keeps [.regs] x0 (Sys2Proof.Machine.State.setPair x0 x1 x2 x3) := by
  unfold Sys2Proof.Machine.State.setPair
  try dsimp only
  repeat' first
    | with_reducible exact Keeps.refl _ _
    | ((with_reducible apply Keeps.step (State.setWord_keeps _ _ _ )); exact rfl)

theorem State.addPair_keeps (x0 : State) (x1) (x2) (x3) : Keeps [.regs] x0 (Sys2Proof.Machine.State.addPair x0 x1 x2 x3) := by
  unfold Sys2Proof.Machine.State.addPair
  try dsimp only
  repeat' first
    | ((with_reducible intro _ _); dsimp only)
    | ((with_reducible intro _); dsimp only)
    | (with_reducible intro _)
    | with_reducible exact Keeps.refl _ _
    | with_reducible assumption
    | ((with_reducible apply Keeps.step (State.setPair_keeps _ _ _ _ )); exact rfl)
    | with_reducible apply Keeps.foldl
    | with_reducible apply Keeps.foldl_fst

theorem State.draw_keeps (x0 : State) : Keeps [.freeCount] x0 (Sys2Proof.Machine.State.draw x0).2 := by
  unfold Sys2Proof.Machine.State.draw
  try dsimp only
  repeat' first
    | with_reducible exact Keeps.refl _ _
    | ((with_reducible apply Keeps.step (State.withFreeCount_keeps _ _ )); exact rfl)

theorem State.emit_keeps (x0 : State) (x1) : Keeps [.out] x0 (Sys2Proof.Machine.State.emit x0 x1) := by
  unfold Sys2Proof.Machine.State.emit
  try dsimp only
  repeat' first
    | with_reducible exact Keeps.refl _ _
    | ((with_reducible apply Keeps.step (State.withOut_keeps _ _ )); exact rfl)

theorem State.emits_keeps (x0 : State) (x1) : Keeps [.out] x0 (Sys2Proof.Machine.State.emits x0 x1) := by
  unfold Sys2Proof.Machine.State.emits
  try dsimp only
  repeat' first
    | with_reducible exact Keeps.refl _ _
    | ((with_reducible apply Keeps.step (State.withOut_keeps _ _ )); exact rfl)

/-! ### Events -/

theorem State.setArrayBit_keeps (x0 : State) (x1) (x2) : Keeps [.regs] x0 (Sys2Proof.Machine.State.setArrayBit x0 x1 x2) := by
  unfold Sys2Proof.Machine.State.setArrayBit
  try dsimp only
  repeat' first
    | ((with_reducible intro _ _); dsimp only)
    | ((with_reducible intro _); dsimp only)
    | (with_reducible intro _)
    | with_reducible exact Keeps.refl _ _
    | with_reducible assumption
    | ((with_reducible apply Keeps.step (State.setWord_keeps _ _ _ )); exact rfl)
    | with_reducible apply Keeps.foldl
    | with_reducible apply Keeps.foldl_fst

theorem State.clearArrayBit_keeps (x0 : State) (x1) (x2) : Keeps [.regs] x0 (Sys2Proof.Machine.State.clearArrayBit x0 x1 x2) := by
  unfold Sys2Proof.Machine.State.clearArrayBit
  try dsimp only
  repeat' first
    | ((with_reducible intro _ _); dsimp only)
    | ((with_reducible intro _); dsimp only)
    | (with_reducible intro _)
    | with_reducible exact Keeps.refl _ _
    | with_reducible assumption
    | ((with_reducible apply Keeps.step (State.setWord_keeps _ _ _ )); exact rfl)
    | with_reducible apply Keeps.foldl
    | with_reducible apply Keeps.foldl_fst

theorem State.sendMsix_keeps (x0 : State) (x1) : Keeps [.out] x0 (Sys2Proof.Machine.State.sendMsix x0 x1) := by
  unfold Sys2Proof.Machine.State.sendMsix
  try dsimp only
  repeat' first
    | ((with_reducible intro _ _); dsimp only)
    | ((with_reducible intro _); dsimp only)
    | (with_reducible intro _)
    | with_reducible exact Keeps.refl _ _
    | with_reducible assumption
    | ((with_reducible apply Keeps.step (State.emit_keeps _ _ )); exact rfl)
    | with_reducible apply Keeps.foldl
    | with_reducible apply Keeps.foldl_fst

theorem setPendCore_keeps (x0) (x1 : State) : Keeps [.regs, .out] x1 (setPendCore x0 x1).1 := by
  unfold setPendCore
  try dsimp only
  repeat' first
    | ((with_reducible intro _ _); dsimp only)
    | ((with_reducible intro _); dsimp only)
    | (with_reducible intro _)
    | with_reducible exact Keeps.refl _ _
    | with_reducible assumption
    | ((with_reducible apply Keeps.step (State.setArrayBit_keeps _ _ _ )); exact rfl)
    | ((with_reducible apply Keeps.step (State.sendMsix_keeps _ _ )); exact rfl)
    | with_reducible apply Keeps.foldl
    | with_reducible apply Keeps.foldl_fst
    | split

theorem State.setPerfCnt_keeps (x0 : State) (x1) (x2) : Keeps [.regs] x0 (Sys2Proof.Machine.State.setPerfCnt x0 x1 x2) := by
  unfold Sys2Proof.Machine.State.setPerfCnt
  try dsimp only
  repeat' first
    | with_reducible exact Keeps.refl _ _
    | ((with_reducible apply Keeps.step (State.setPair_keeps _ _ _ _ )); exact rfl)

theorem bumpCounter_keeps (x0) (x1 : State) : Keeps [.regs] x1 (bumpCounter x0 x1).1 := by
  unfold bumpCounter
  try dsimp only
  repeat' first
    | ((with_reducible intro _ _); dsimp only)
    | ((with_reducible intro _); dsimp only)
    | (with_reducible intro _)
    | with_reducible exact Keeps.refl _ _
    | with_reducible assumption
    | ((with_reducible apply Keeps.step (State.setPerfCnt_keeps _ _ _ )); exact rfl)
    | ((with_reducible apply Keeps.step (State.orWord_keeps _ _ _ )); exact rfl)
    | with_reducible apply Keeps.foldl
    | with_reducible apply Keeps.foldl_fst
    | split

theorem bumpGroup_keeps (x0) (x1) (x2 : State) : Keeps [.regs, .perf] x2 (bumpGroup x0 x1 x2).1 := by
  unfold bumpGroup
  try dsimp only
  repeat' first
    | ((with_reducible intro _ _); dsimp only)
    | ((with_reducible intro _); dsimp only)
    | (with_reducible intro _)
    | with_reducible exact Keeps.refl _ _
    | with_reducible assumption
    | ((with_reducible apply Keeps.step (bumpCounter_keeps _ _ )); exact rfl)
    | with_reducible apply Keeps.foldl
    | with_reducible apply Keeps.foldl_fst
    | split
    | ((with_reducible apply Keeps.upd_perf); exact rfl)
    | (refine Keeps.of_parts ?_ rfl rfl rfl (fun h => h); intro p hp; cases p <;> first | rfl | exact absurd hp (by decide))

theorem perfCount_keeps (x0) (x1) (x2 : State) : Keeps [.regs, .out, .perf] x2 (perfCount x0 x1 x2) := by
  unfold perfCount
  try dsimp only
  repeat' first
    | with_reducible exact Keeps.refl _ _
    | ((with_reducible apply Keeps.step (bumpGroup_keeps _ _ _ )); exact rfl)
    | ((with_reducible apply Keeps.step (setPendCore_keeps _ _ )); exact rfl)
    | split

theorem setPend_keeps (x0) (x1 : State) : Keeps [.regs, .out, .perf] x1 (setPend x0 x1) := by
  unfold setPend
  try dsimp only
  repeat' first
    | with_reducible exact Keeps.refl _ _
    | ((with_reducible apply Keeps.step (setPendCore_keeps _ _ )); exact rfl)
    | ((with_reducible apply Keeps.step (perfCount_keeps _ _ _ )); exact rfl)
    | split

theorem noteAlarm_keeps (x0) (x1) (x2 : State) : Keeps [.logs] x2 (noteAlarm x0 x1 x2) := by
  unfold noteAlarm
  try dsimp only
  repeat' first
    | ((with_reducible intro _ _); dsimp only)
    | ((with_reducible intro _); dsimp only)
    | (with_reducible intro _)
    | with_reducible exact Keeps.refl _ _
    | with_reducible assumption
    | with_reducible apply Keeps.foldl
    | with_reducible apply Keeps.foldl_fst
    | ((with_reducible apply Keeps.upd_logs); exact rfl)
    | (refine Keeps.of_parts ?_ rfl rfl rfl (fun h => h); intro p hp; cases p <;> first | rfl | exact absurd hp (by decide))

theorem openAlarm_keeps (x0) (x1 : State) : Keeps [.regs, .logs, .out, .perf] x1 (openAlarm x0 x1) := by
  unfold openAlarm
  try dsimp only
  repeat' first
    | with_reducible exact Keeps.refl _ _
    | ((with_reducible apply Keeps.step (setPend_keeps _ _ )); exact rfl)
    | ((with_reducible apply Keeps.step (perfCount_keeps _ _ _ )); exact rfl)
    | ((with_reducible apply Keeps.step (State.orWord_keeps _ _ _ )); exact rfl)
    | ((with_reducible apply Keeps.upd_logs); exact rfl)
    | (refine Keeps.of_parts ?_ rfl rfl rfl (fun h => h); intro p hp; cases p <;> first | rfl | exact absurd hp (by decide))

theorem alarm_keeps (x0) (x1) (x2) (x3 : State) : Keeps [.regs, .logs, .out, .perf] x3 (alarm x0 x1 x2 x3) := by
  unfold alarm
  try dsimp only
  repeat' first
    | with_reducible exact Keeps.refl _ _
    | ((with_reducible apply Keeps.step (noteAlarm_keeps _ _ _ )); exact rfl)
    | ((with_reducible apply Keeps.step (openAlarm_keeps _ _ )); exact rfl)
    | split
    | ((with_reducible apply Keeps.upd_logs); exact rfl)
    | (refine Keeps.of_parts ?_ rfl rfl rfl (fun h => h); intro p hp; cases p <;> first | rfl | exact absurd hp (by decide))

theorem putTrace_keeps (x0) (x1) (x2) (x3) (x4 : State) : Keeps [.regs, .logs, .out, .perf] x4 (putTrace x0 x1 x2 x3 x4) := by
  unfold putTrace
  try dsimp only
  repeat' first
    | with_reducible exact Keeps.refl _ _
    | ((with_reducible apply Keeps.step (perfCount_keeps _ _ _ )); exact rfl)
    | ((with_reducible apply Keeps.upd_logs); exact rfl)
    | (refine Keeps.of_parts ?_ rfl rfl rfl (fun h => h); intro p hp; cases p <;> first | rfl | exact absurd hp (by decide))

theorem gapMarker_keeps (x0 : State) : Keeps [.regs, .logs, .out, .perf] x0 (gapMarker x0) := by
  unfold gapMarker
  try dsimp only
  repeat' first
    | with_reducible exact Keeps.refl _ _
    | ((with_reducible apply Keeps.step (putTrace_keeps _ _ _ _ _ )); exact rfl)
    | ((with_reducible apply Keeps.step (State.wr_keeps _ _ _ )); exact rfl)
    | split
    | ((with_reducible apply Keeps.upd_logs); exact rfl)
    | (refine Keeps.of_parts ?_ rfl rfl rfl (fun h => h); intro p hp; cases p <;> first | rfl | exact absurd hp (by decide))

theorem trace_keeps (x0) (x1) (x2) (x3 : State) : Keeps [.regs, .logs, .out, .perf] x3 (trace x0 x1 x2 x3) := by
  unfold trace
  try dsimp only
  repeat' first
    | with_reducible exact Keeps.refl _ _
    | ((with_reducible apply Keeps.step (putTrace_keeps _ _ _ _ _ )); exact rfl)
    | ((with_reducible apply Keeps.step (State.addSat_keeps _ _ _ )); exact rfl)
    | ((with_reducible apply Keeps.step (gapMarker_keeps _ )); exact rfl)
    | ((with_reducible apply Keeps.step (State.wr_keeps _ _ _ )); exact rfl)
    | ((with_reducible apply Keeps.step (setPend_keeps _ _ )); exact rfl)
    | ((with_reducible apply Keeps.step (perfCount_keeps _ _ _ )); exact rfl)
    | ((with_reducible apply Keeps.step (State.orWord_keeps _ _ _ )); exact rfl)
    | split
    | ((with_reducible apply Keeps.upd_logs); exact rfl)
    | (refine Keeps.of_parts ?_ rfl rfl rfl (fun h => h); intro p hp; cases p <;> first | rfl | exact absurd hp (by decide))

theorem mapped_keeps (x0) (x1) (x2) (x3 : State) : Keeps [.regs, .logs, .out, .perf] x3 (mapped x0 x1 x2 x3) := by
  unfold mapped
  try dsimp only
  repeat' first
    | ((with_reducible intro _ _); dsimp only)
    | ((with_reducible intro _); dsimp only)
    | (with_reducible intro _)
    | with_reducible exact Keeps.refl _ _
    | with_reducible assumption
    | ((with_reducible apply Keeps.step (alarm_keeps _ _ _ _ )); exact rfl)
    | ((with_reducible apply Keeps.step (trace_keeps _ _ _ _ )); exact rfl)
    | with_reducible apply Keeps.foldl
    | with_reducible apply Keeps.foldl_fst
    | split

theorem causeEvent_keeps (x0) (x1) (x2) (x3 : State) : Keeps [.regs, .logs, .out, .perf] x3 (causeEvent x0 x1 x2 x3) := by
  unfold causeEvent
  try dsimp only
  repeat' first
    | ((with_reducible intro _ _); dsimp only)
    | ((with_reducible intro _); dsimp only)
    | (with_reducible intro _)
    | with_reducible exact Keeps.refl _ _
    | with_reducible assumption
    | ((with_reducible apply Keeps.step (mapped_keeps _ _ _ _ )); exact rfl)
    | ((with_reducible apply Keeps.step (setPend_keeps _ _ )); exact rfl)
    | ((with_reducible apply Keeps.step (State.orWord_keeps _ _ _ )); exact rfl)
    | with_reducible apply Keeps.foldl
    | with_reducible apply Keeps.foldl_fst

theorem causeAlarm_keeps (x0) (x1) (x2) (x3 : State) : Keeps [.regs, .logs, .out, .perf] x3 (causeAlarm x0 x1 x2 x3) := by
  unfold causeAlarm
  try dsimp only
  repeat' first
    | ((with_reducible intro _ _); dsimp only)
    | ((with_reducible intro _); dsimp only)
    | (with_reducible intro _)
    | with_reducible exact Keeps.refl _ _
    | with_reducible assumption
    | ((with_reducible apply Keeps.step (alarm_keeps _ _ _ _ )); exact rfl)
    | ((with_reducible apply Keeps.step (setPend_keeps _ _ )); exact rfl)
    | ((with_reducible apply Keeps.step (State.orWord_keeps _ _ _ )); exact rfl)
    | with_reducible apply Keeps.foldl
    | with_reducible apply Keeps.foldl_fst

theorem plainEvent_keeps (x0) (x1) (x2 : State) : Keeps [.regs, .logs, .out, .perf] x2 (plainEvent x0 x1 x2) := by
  unfold plainEvent
  try dsimp only
  repeat' first
    | with_reducible exact Keeps.refl _ _
    | ((with_reducible apply Keeps.step (mapped_keeps _ _ _ _ )); exact rfl)
    | ((with_reducible apply Keeps.step (setPend_keeps _ _ )); exact rfl)

theorem linkEvent_keeps (x0) (x1 : State) : Keeps [.regs, .logs, .out, .perf] x1 (linkEvent x0 x1) := by
  unfold linkEvent
  try dsimp only
  repeat' first
    | ((with_reducible intro _ _); dsimp only)
    | ((with_reducible intro _); dsimp only)
    | (with_reducible intro _)
    | with_reducible exact Keeps.refl _ _
    | with_reducible assumption
    | ((with_reducible apply Keeps.step (plainEvent_keeps _ _ _ )); exact rfl)
    | with_reducible apply Keeps.foldl
    | with_reducible apply Keeps.foldl_fst

theorem trainFailEvent_keeps (x0) (x1 : State) : Keeps [.regs, .logs, .out, .perf] x1 (trainFailEvent x0 x1) := by
  unfold trainFailEvent
  try dsimp only
  repeat' first
    | ((with_reducible intro _ _); dsimp only)
    | ((with_reducible intro _); dsimp only)
    | (with_reducible intro _)
    | with_reducible exact Keeps.refl _ _
    | with_reducible assumption
    | ((with_reducible apply Keeps.step (plainEvent_keeps _ _ _ )); exact rfl)
    | with_reducible apply Keeps.foldl
    | with_reducible apply Keeps.foldl_fst

theorem tripEvent_keeps (x0) (x1) (x2 : State) : Keeps [.regs, .logs, .out, .perf] x2 (tripEvent x0 x1 x2) := by
  unfold tripEvent
  try dsimp only
  repeat' first
    | with_reducible exact Keeps.refl _ _
    | ((with_reducible apply Keeps.step (causeEvent_keeps _ _ _ _ )); exact rfl)

theorem diagEvent_keeps (x0) (x1) (x2 : State) : Keeps [.regs, .logs, .out, .perf] x2 (diagEvent x0 x1 x2) := by
  unfold diagEvent
  try dsimp only
  repeat' first
    | with_reducible exact Keeps.refl _ _
    | ((with_reducible apply Keeps.step (causeEvent_keeps _ _ _ _ )); exact rfl)

theorem marginEvent_keeps (x0) (x1) (x2 : State) : Keeps [.regs, .logs, .out, .perf] x2 (marginEvent x0 x1 x2) := by
  unfold marginEvent
  try dsimp only
  repeat' first
    | with_reducible exact Keeps.refl _ _
    | ((with_reducible apply Keeps.step (causeEvent_keeps _ _ _ _ )); exact rfl)

theorem calEvent_keeps (x0) (x1) (x2 : State) : Keeps [.regs, .logs, .out, .perf] x2 (calEvent x0 x1 x2) := by
  unfold calEvent
  try dsimp only
  repeat' first
    | with_reducible exact Keeps.refl _ _
    | ((with_reducible apply Keeps.step (causeEvent_keeps _ _ _ _ )); exact rfl)

theorem laneEvent_keeps (x0) (x1) (x2) (x3 : State) : Keeps [.regs, .logs, .out, .perf] x3 (laneEvent x0 x1 x2 x3) := by
  unfold laneEvent
  try dsimp only
  repeat' first
    | with_reducible exact Keeps.refl _ _
    | ((with_reducible apply Keeps.step (causeEvent_keeps _ _ _ _ )); exact rfl)

theorem ssEvent_keeps (x0) (x1 : State) : Keeps [.regs, .logs, .out, .perf] x1 (ssEvent x0 x1) := by
  unfold ssEvent
  try dsimp only
  repeat' first
    | with_reducible exact Keeps.refl _ _
    | ((with_reducible apply Keeps.step (causeEvent_keeps _ _ _ _ )); exact rfl)

theorem tstEvent_keeps (x0) (x1 : State) : Keeps [.regs, .logs, .out, .perf] x1 (tstEvent x0 x1) := by
  unfold tstEvent
  try dsimp only
  repeat' first
    | with_reducible exact Keeps.refl _ _
    | ((with_reducible apply Keeps.step (causeEvent_keeps _ _ _ _ )); exact rfl)

theorem logEvent_keeps (x0) (x1 : State) : Keeps [.regs, .logs, .out, .perf] x1 (logEvent x0 x1) := by
  unfold logEvent
  try dsimp only
  repeat' first
    | with_reducible exact Keeps.refl _ _
    | ((with_reducible apply Keeps.step (causeEvent_keeps _ _ _ _ )); exact rfl)

theorem wheelEvent_keeps (x0) (x1 : State) : Keeps [.regs, .logs, .out, .perf] x1 (wheelEvent x0 x1) := by
  unfold wheelEvent
  try dsimp only
  repeat' first
    | with_reducible exact Keeps.refl _ _
    | ((with_reducible apply Keeps.step (causeEvent_keeps _ _ _ _ )); exact rfl)

theorem pwrEvent_keeps (x0) (x1 : State) : Keeps [.regs, .logs, .out, .perf] x1 (pwrEvent x0 x1) := by
  unfold pwrEvent
  try dsimp only
  repeat' first
    | with_reducible exact Keeps.refl _ _
    | ((with_reducible apply Keeps.step (causeEvent_keeps _ _ _ _ )); exact rfl)

theorem perfEvent_keeps (x0) (x1 : State) : Keeps [.regs, .logs, .out, .perf] x1 (perfEvent x0 x1) := by
  unfold perfEvent
  try dsimp only
  repeat' first
    | with_reducible exact Keeps.refl _ _
    | ((with_reducible apply Keeps.step (causeEvent_keeps _ _ _ _ )); exact rfl)

theorem auditRoom_keeps (x0) (x1 : State) : Keeps [.regs, .logs, .out, .perf] x1 (auditRoom x0 x1) := by
  unfold auditRoom
  try dsimp only
  repeat' first
    | ((with_reducible intro _ _); dsimp only)
    | ((with_reducible intro _); dsimp only)
    | (with_reducible intro _)
    | with_reducible exact Keeps.refl _ _
    | with_reducible assumption
    | ((with_reducible apply Keeps.step (logEvent_keeps _ _ )); exact rfl)
    | ((with_reducible apply Keeps.step (State.wr_keeps _ _ _ )); exact rfl)
    | with_reducible apply Keeps.foldl
    | with_reducible apply Keeps.foldl_fst
    | split

theorem putAudit_keeps (x0) (x1) (x2) (x3) (x4) (x5) (x6 : State) : Keeps [.regs, .logs, .out, .perf, .chain, .signing] x6 (putAudit x0 x1 x2 x3 x4 x5 x6) := by
  unfold putAudit
  try dsimp only
  repeat' first
    | with_reducible exact Keeps.refl _ _
    | ((with_reducible apply Keeps.step (auditRoom_keeps _ _ )); exact rfl)
    | ((with_reducible apply Keeps.step (perfCount_keeps _ _ _ )); exact rfl)
    | split
    | ((with_reducible apply Keeps.upd_logs); exact rfl)
    | ((with_reducible apply Keeps.upd_chain); exact rfl)
    | ((with_reducible apply Keeps.upd_signing); exact rfl)
    | (refine Keeps.of_parts ?_ rfl rfl rfl (fun h => h); intro p hp; cases p <;> first | rfl | exact absurd hp (by decide))

theorem auditN_keeps (x0) (x1) (x2) (x3) (x4) (x5 : State) : Keeps [.regs, .logs, .out, .perf, .chain, .signing] x5 (auditN x0 x1 x2 x3 x4 x5) := by
  unfold auditN
  try dsimp only
  repeat' first
    | with_reducible exact Keeps.refl _ _
    | ((with_reducible apply Keeps.step (putAudit_keeps _ _ _ _ _ _ _ )); exact rfl)
    | split
    | ((with_reducible apply Keeps.upd_logs); exact rfl)
    | (refine Keeps.of_parts ?_ rfl rfl rfl (fun h => h); intro p hp; cases p <;> first | rfl | exact absurd hp (by decide))

theorem audit_keeps (x0) (x1) (x2) (x3) (x4 : State) : Keeps [.regs, .logs, .out, .perf, .chain, .signing] x4 (audit x0 x1 x2 x3 x4) := by
  unfold audit
  try dsimp only
  repeat' first
    | with_reducible exact Keeps.refl _ _
    | ((with_reducible apply Keeps.step (auditN_keeps _ _ _ _ _ _ )); exact rfl)

theorem drainHeldAudit_keeps (x0) (x1 : State) : Keeps [.regs, .logs, .out, .perf, .chain, .signing] x1 (drainHeldAudit x0 x1) := by
  induction x0 generalizing x1 with
  | zero => exact Keeps.refl _ _
  | succ k ih =>
    unfold drainHeldAudit
    split
    · exact Keeps.refl _ _
    · split
      · exact ((Keeps.upd_logs rfl (Keeps.refl _ _)).trans ((putAudit_keeps _ _ _ _ _ _ _).mono rfl)).trans (ih _)
      · exact Keeps.refl _ _

theorem drainHeldAlarm_keeps (x0) (x1 : State) : Keeps [.regs, .logs, .out, .perf] x1 (drainHeldAlarm x0 x1) := by
  induction x0 generalizing x1 with
  | zero => exact Keeps.refl _ _
  | succ k ih =>
    unfold drainHeldAlarm
    split
    · exact Keeps.refl _ _
    · split
      · exact ((Keeps.upd_logs rfl (Keeps.refl _ _)).trans ((openAlarm_keeps _ _).mono rfl)).trans (ih _)
      · exact Keeps.refl _ _

/-! ### Regs -/

theorem ignored_keeps (x0) (x1) (x2 : State) : Keeps [.regs, .host] x2 (ignored x0 x1 x2) := by
  unfold ignored
  try dsimp only
  repeat' first
    | with_reducible exact Keeps.refl _ _
    | ((with_reducible apply Keeps.step (State.addSat_keeps _ _ _ )); exact rfl)
    | ((with_reducible apply Keeps.step (State.orWord_keeps _ _ _ )); exact rfl)
    | ((with_reducible apply Keeps.step (State.wrs_keeps _ _ )); exact rfl)
    | split
    | ((with_reducible apply Keeps.upd_host); exact rfl)
    | (refine Keeps.of_parts ?_ rfl rfl rfl (fun h => h); intro p hp; cases p <;> first | rfl | exact absurd hp (by decide))

theorem busError_keeps (x0) (x1) (x2 : State) : Keeps [.regs, .host, .logs, .out, .perf] x2 (busError x0 x1 x2) := by
  unfold busError
  try dsimp only
  repeat' first
    | with_reducible exact Keeps.refl _ _
    | ((with_reducible apply Keeps.step (logEvent_keeps _ _ )); exact rfl)
    | ((with_reducible apply Keeps.step (State.addSat_keeps _ _ _ )); exact rfl)
    | ((with_reducible apply Keeps.step (State.wrs_keeps _ _ )); exact rfl)
    | split
    | ((with_reducible apply Keeps.upd_host); exact rfl)
    | (refine Keeps.of_parts ?_ rfl rfl rfl (fun h => h); intro p hp; cases p <;> first | rfl | exact absurd hp (by decide))

theorem refuseSealed_keeps (x0) (x1) (x2 : State) : Keeps [.regs, .host] x2 (refuseSealed x0 x1 x2) := by
  unfold refuseSealed
  try dsimp only
  repeat' first
    | with_reducible exact Keeps.refl _ _
    | ((with_reducible apply Keeps.step (ignored_keeps _ _ _ )); exact rfl)
    | ((with_reducible apply Keeps.upd_host); exact rfl)
    | (refine Keeps.of_parts ?_ rfl rfl rfl (fun h => h); intro p hp; cases p <;> first | rfl | exact absurd hp (by decide))

theorem clampPush_keeps (x0) (x1 : State) : Keeps [.regs, .host, .logs, .out, .perf] x1 (clampPush x0 x1) := by
  unfold clampPush
  try dsimp only
  repeat' first
    | with_reducible exact Keeps.refl _ _
    | ((with_reducible apply Keeps.step (logEvent_keeps _ _ )); exact rfl)
    | ((with_reducible apply Keeps.step (State.addSat_keeps _ _ _ )); exact rfl)
    | split
    | ((with_reducible apply Keeps.upd_host); exact rfl)
    | (refine Keeps.of_parts ?_ rfl rfl rfl (fun h => h); intro p hp; cases p <;> first | rfl | exact absurd hp (by decide))

theorem agree_keeps (x0) (x1) (x2 : State) : Keeps [.regs, .host, .logs, .out, .perf] x2 (agree x0 x1 x2) := by
  unfold agree
  try dsimp only
  repeat' first
    | ((with_reducible intro _ _); dsimp only)
    | ((with_reducible intro _); dsimp only)
    | (with_reducible intro _)
    | with_reducible exact Keeps.refl _ _
    | with_reducible assumption
    | ((with_reducible apply Keeps.step (clampPush_keeps _ _ )); exact rfl)
    | ((with_reducible apply Keeps.step (State.wr_keeps _ _ _ )); exact rfl)
    | with_reducible apply Keeps.foldl
    | with_reducible apply Keeps.foldl_fst
    | split

theorem hwSet_keeps (x0) (x1) (x2 : State) : Keeps [.regs, .host, .logs, .out, .perf] x2 (hwSet x0 x1 x2) := by
  unfold hwSet
  try dsimp only
  repeat' first
    | ((with_reducible intro _ _); dsimp only)
    | ((with_reducible intro _); dsimp only)
    | (with_reducible intro _)
    | with_reducible exact Keeps.refl _ _
    | with_reducible assumption
    | ((with_reducible apply Keeps.step (clampPush_keeps _ _ )); exact rfl)
    | ((with_reducible apply Keeps.step (State.wr_keeps _ _ _ )); exact rfl)
    | ((with_reducible apply Keeps.step (State.orWord_keeps _ _ _ )); exact rfl)
    | with_reducible apply Keeps.foldl
    | with_reducible apply Keeps.foldl_fst
    | split

theorem shadowToActive_keeps (x0) (x1 : State) : Keeps [.regs] x1 (shadowToActive x0 x1) := by
  unfold shadowToActive
  try dsimp only
  repeat' first
    | ((with_reducible intro _ _); dsimp only)
    | ((with_reducible intro _); dsimp only)
    | (with_reducible intro _)
    | with_reducible exact Keeps.refl _ _
    | with_reducible assumption
    | ((with_reducible apply Keeps.step (State.setWord_keeps _ _ _ )); exact rfl)
    | with_reducible apply Keeps.foldl
    | with_reducible apply Keeps.foldl_fst

theorem activeToShadow_keeps (x0) (x1 : State) : Keeps [.regs] x1 (activeToShadow x0 x1) := by
  unfold activeToShadow
  try dsimp only
  repeat' first
    | ((with_reducible intro _ _); dsimp only)
    | ((with_reducible intro _); dsimp only)
    | (with_reducible intro _)
    | with_reducible exact Keeps.refl _ _
    | with_reducible assumption
    | ((with_reducible apply Keeps.step (State.setWord_keeps _ _ _ )); exact rfl)
    | with_reducible apply Keeps.foldl
    | with_reducible apply Keeps.foldl_fst

theorem State.setPending_keeps (x0 : State) (x1) (x2) : Keeps [.regs] x0 (Sys2Proof.Machine.State.setPending x0 x1 x2) := by
  unfold Sys2Proof.Machine.State.setPending
  try dsimp only
  repeat' first
    | ((with_reducible intro _ _); dsimp only)
    | ((with_reducible intro _); dsimp only)
    | (with_reducible intro _)
    | with_reducible exact Keeps.refl _ _
    | with_reducible assumption
    | ((with_reducible apply Keeps.step (State.setWord_keeps _ _ _ )); exact rfl)
    | with_reducible apply Keeps.foldl
    | with_reducible apply Keeps.foldl_fst
    | split

theorem State.toggleBank_keeps (x0 : State) (x1) : Keeps [.regs] x0 (Sys2Proof.Machine.State.toggleBank x0 x1) := by
  unfold Sys2Proof.Machine.State.toggleBank
  try dsimp only
  repeat' first
    | ((with_reducible intro _ _); dsimp only)
    | ((with_reducible intro _); dsimp only)
    | (with_reducible intro _)
    | with_reducible exact Keeps.refl _ _
    | with_reducible assumption
    | ((with_reducible apply Keeps.step (State.setWord_keeps _ _ _ )); exact rfl)
    | with_reducible apply Keeps.foldl
    | with_reducible apply Keeps.foldl_fst
    | split

theorem switchBank_keeps {T : List Part} {b : Block} {checks : State → State} {s m : State} (h : [Part.regs].all (T.contains ·) = true)
    (hf : ∀ x, Keeps T x (checks x)) (k : Keeps T s m) : Keeps T s (switchBank b checks m) := by
  unfold switchBank
  split
  · exact ((((k.trans ((shadowToActive_keeps _ _).mono h)).trans (hf _)).trans ((activeToShadow_keeps _ _).mono h)).trans
      ((State.toggleBank_keeps _ _).mono h)).trans ((State.setPending_keeps _ _ _).mono h)
  · exact k

theorem commitBank_keeps (x0) (x1) (x2 : State) : Keeps [.regs, .host] x2 (commitBank x0 x1 x2) := by
  unfold commitBank
  try dsimp only
  repeat' first
    | ((with_reducible intro _ _); dsimp only)
    | ((with_reducible intro _); dsimp only)
    | (with_reducible intro _)
    | with_reducible exact Keeps.refl _ _
    | with_reducible assumption
    | ((with_reducible apply Keeps.step (State.setPending_keeps _ _ _ )); exact rfl)
    | ((with_reducible apply Keeps.step (ignored_keeps _ _ _ )); exact rfl)
    | with_reducible apply Keeps.foldl
    | with_reducible apply Keeps.foldl_fst
    | split

theorem State.setWc_keeps (x0 : State) (x1) (x2) : Keeps [.host] x0 (Sys2Proof.Machine.State.setWc x0 x1 x2) := by
  unfold Sys2Proof.Machine.State.setWc
  try dsimp only
  repeat' first
    | with_reducible exact Keeps.refl _ _
    | ((with_reducible apply Keeps.upd_host); exact rfl)
    | (refine Keeps.of_parts ?_ rfl rfl rfl (fun h => h); intro p hp; cases p <;> first | rfl | exact absurd hp (by decide))

theorem wcWrite_keeps {T : List Part} {a bit : Nat} {start : State → State} {s m : State} (h : [Part.regs, .host].all (T.contains ·) = true)
    (hf : ∀ x, Keeps T x (start x)) (k : Keeps T s m) : Keeps T s (wcWrite a bit start m) := by
  have h2 : [Part.host].all (T.contains ·) = true := by simp at h; simp [h]
  unfold wcWrite
  split
  · exact (k.trans ((State.setWc_keeps _ _ _).mono h2)).trans (hf _)
  · exact k.trans ((State.setWc_keeps _ _ _).mono h2)
  · exact k.trans ((ignored_keeps _ _ _).mono h)

theorem wcDone_keeps {T : List Part} {a bit : Nat} {start : State → State} {s m : State} (h : [Part.host].all (T.contains ·) = true)
    (hf : ∀ x, Keeps T x (start x)) (k : Keeps T s m) : Keeps T s (wcDone a bit start m) := by
  unfold wcDone
  split
  · exact (k.trans ((State.setWc_keeps _ _ _).mono h)).trans (hf _)
  · exact k.trans ((State.setWc_keeps _ _ _).mono h)

/-! ### Sram -/

theorem State.setByte_keeps (x0 : State) (x1) (x2) : Keeps [.sram] x0 (Sys2Proof.Machine.State.setByte x0 x1 x2) :=
  State.withSram_keeps rfl (fun h => storeWf_sput _ _ _ h) (Keeps.refl _ _)

theorem State.putBytes_keeps (x0 : State) (x1) (x2) : Keeps [.sram] x0 (Sys2Proof.Machine.State.putBytes x0 x1 x2) := by
  unfold Sys2Proof.Machine.State.putBytes
  try dsimp only
  repeat' first
    | ((with_reducible intro _ _); dsimp only)
    | ((with_reducible intro _); dsimp only)
    | (with_reducible intro _)
    | with_reducible exact Keeps.refl _ _
    | with_reducible assumption
    | ((with_reducible apply Keeps.step (State.setByte_keeps _ _ _ )); exact rfl)
    | with_reducible apply Keeps.foldl
    | with_reducible apply Keeps.foldl_fst

theorem clearMarks_keeps (x0) (x1) (x2 : State) : Keeps [.dma] x2 (clearMarks x0 x1 x2) := by
  unfold clearMarks
  try dsimp only
  repeat' first
    | with_reducible exact Keeps.refl _ _
    | ((with_reducible apply Keeps.upd_dma); exact rfl)
    | (refine Keeps.of_parts ?_ rfl rfl rfl (fun h => h); intro p hp; cases p <;> first | rfl | exact absurd hp (by decide))

theorem writeWord_keeps (x0) (x1) (x2 : State) : Keeps [.sram, .dma] x2 (writeWord x0 x1 x2) := by
  unfold writeWord
  try dsimp only
  repeat' first
    | with_reducible exact Keeps.refl _ _
    | ((with_reducible apply Keeps.step (clearMarks_keeps _ _ _ )); exact rfl)
    | ((with_reducible apply Keeps.step (State.putBytes_keeps _ _ _ )); exact rfl)

theorem writeNarrow_keeps (x0) (x1) (x2) (x3 : State) : Keeps [.sram] x3 (writeNarrow x0 x1 x2 x3) := by
  unfold writeNarrow
  try dsimp only
  repeat' first
    | with_reducible exact Keeps.refl _ _
    | ((with_reducible apply Keeps.step (State.putBytes_keeps _ _ _ )); exact rfl)
    | split

theorem writeBytes_keeps (x0) (x1) (x2 : State) : Keeps [.sram, .dma] x2 (writeBytes x0 x1 x2) := by
  unfold writeBytes
  try dsimp only
  repeat' first
    | ((with_reducible intro _ _); dsimp only)
    | ((with_reducible intro _); dsimp only)
    | (with_reducible intro _)
    | with_reducible exact Keeps.refl _ _
    | with_reducible assumption
    | ((with_reducible apply Keeps.step (State.setByte_keeps _ _ _ )); exact rfl)
    | ((with_reducible apply Keeps.step (clearMarks_keeps _ _ _ )); exact rfl)
    | with_reducible apply Keeps.foldl
    | with_reducible apply Keeps.foldl_fst
    | split

theorem markWord_keeps (x0) (x1 : State) : Keeps [.regs, .logs, .out, .perf, .dma] x1 (markWord x0 x1) := by
  unfold markWord
  try dsimp only
  repeat' first
    | ((with_reducible intro _ _); dsimp only)
    | ((with_reducible intro _); dsimp only)
    | (with_reducible intro _)
    | with_reducible exact Keeps.refl _ _
    | with_reducible assumption
    | ((with_reducible apply Keeps.step (State.addSat_keeps _ _ _ )); exact rfl)
    | ((with_reducible apply Keeps.step (State.setWord_keeps _ _ _ )); exact rfl)
    | ((with_reducible apply Keeps.step (plainEvent_keeps _ _ _ )); exact rfl)
    | with_reducible apply Keeps.foldl
    | with_reducible apply Keeps.foldl_fst
    | split
    | ((with_reducible apply Keeps.upd_dma); exact rfl)
    | (refine Keeps.of_parts ?_ rfl rfl rfl (fun h => h); intro p hp; cases p <;> first | rfl | exact absurd hp (by decide))

theorem countCorrection_keeps (x0 : State) : Keeps [.regs, .out, .perf, .dma] x0 (countCorrection x0) := by
  unfold countCorrection
  try dsimp only
  repeat' first
    | with_reducible exact Keeps.refl _ _
    | ((with_reducible apply Keeps.step (State.addSat_keeps _ _ _ )); exact rfl)
    | ((with_reducible apply Keeps.step (perfCount_keeps _ _ _ )); exact rfl)
    | ((with_reducible apply Keeps.upd_dma); exact rfl)
    | (refine Keeps.of_parts ?_ rfl rfl rfl (fun h => h); intro p hp; cases p <;> first | rfl | exact absurd hp (by decide))

theorem eccBoundary_keeps (x0 : State) : Keeps [.regs, .logs, .out, .perf, .dma] x0 (eccBoundary x0) := by
  unfold eccBoundary
  try dsimp only
  repeat' first
    | ((with_reducible intro _ _); dsimp only)
    | ((with_reducible intro _); dsimp only)
    | (with_reducible intro _)
    | with_reducible exact Keeps.refl _ _
    | with_reducible assumption
    | ((with_reducible apply Keeps.step (plainEvent_keeps _ _ _ )); exact rfl)
    | with_reducible apply Keeps.foldl
    | with_reducible apply Keeps.foldl_fst
    | split
    | ((with_reducible apply Keeps.upd_dma); exact rfl)
    | (refine Keeps.of_parts ?_ rfl rfl rfl (fun h => h); intro p hp; cases p <;> first | rfl | exact absurd hp (by decide))

theorem scrubAccess_keeps (x0) (x1) (x2 : State) : Keeps [.regs, .logs, .out, .perf, .dma] x2 (scrubAccess x0 x1 x2) := by
  unfold scrubAccess
  try dsimp only
  repeat' first
    | ((with_reducible intro _ _); dsimp only)
    | ((with_reducible intro _); dsimp only)
    | (with_reducible intro _)
    | with_reducible exact Keeps.refl _ _
    | with_reducible assumption
    | ((with_reducible apply Keeps.step (markWord_keeps _ _ )); exact rfl)
    | ((with_reducible apply Keeps.step (State.addWrap_keeps _ _ _ )); exact rfl)
    | ((with_reducible apply Keeps.step (countCorrection_keeps _ )); exact rfl)
    | ((with_reducible apply Keeps.step (plainEvent_keeps _ _ _ )); exact rfl)
    | with_reducible apply Keeps.foldl
    | with_reducible apply Keeps.foldl_fst
    | split
    | ((with_reducible apply Keeps.upd_dma); exact rfl)
    | (refine Keeps.of_parts ?_ rfl rfl rfl (fun h => h); intro p hp; cases p <;> first | rfl | exact absurd hp (by decide))

theorem execScrubAccess_keeps (x0) (x1) (x2 : State) : ∃ t, execScrubAccess x0 x1 x2 = .next t ∧ Keeps [.regs, .logs, .out, .perf, .dma] x2 t := by
  unfold execScrubAccess
  refine ⟨_, rfl, ?_⟩
  try dsimp only
  repeat' first
    | with_reducible exact Keeps.refl _ _
    | ((with_reducible apply Keeps.step (scrubAccess_keeps _ _ _ )); exact rfl)
    | split

theorem State.setJob_keeps (x0 : State) (x1) (x2) : Keeps [.seq] x0 (Sys2Proof.Machine.State.setJob x0 x1 x2) := by
  unfold Sys2Proof.Machine.State.setJob
  try dsimp only
  repeat' first
    | with_reducible exact Keeps.refl _ _
    | split
    | ((with_reducible apply Keeps.upd_seq); exact rfl)
    | (refine Keeps.of_parts ?_ rfl rfl rfl (fun h => h); intro p hp; cases p <;> first | rfl | exact absurd hp (by decide))

theorem endJob_keeps (x0) (x1) (x2 : State) : Keeps [.seq] x2 (endJob x0 x1 x2) := by
  unfold endJob
  try dsimp only
  repeat' first
    | with_reducible exact Keeps.refl _ _
    | ((with_reducible apply Keeps.step (State.setJob_keeps _ _ _ )); exact rfl)
    | split

theorem startJob_keeps (x0) (x1 : State) : Keeps [.seq] x1 (startJob x0 x1) := by
  unfold startJob
  try dsimp only
  repeat' first
    | with_reducible exact Keeps.refl _ _
    | ((with_reducible apply Keeps.step (State.setJob_keeps _ _ _ )); exact rfl)
    | split

theorem placeJob_keeps (x0) (x1) (x2) (x3) (x4 : State) : Keeps [.seq] x4 (placeJob x0 x1 x2 x3 x4).2.2 := by
  unfold placeJob
  try dsimp only
  repeat' first
    | with_reducible exact Keeps.refl _ _
    | ((with_reducible apply Keeps.step (State.setJob_keeps _ _ _ )); exact rfl)
    | ((with_reducible apply Keeps.upd_seq); exact rfl)
    | (refine Keeps.of_parts ?_ rfl rfl rfl (fun h => h); intro p hp; cases p <;> first | rfl | exact absurd hp (by decide))

theorem jobRefused_keeps (x0 : State) : Keeps [.regs] x0 (jobRefused x0) := by
  unfold jobRefused
  try dsimp only
  repeat' first
    | with_reducible exact Keeps.refl _ _
    | ((with_reducible apply Keeps.step (State.addSat_keeps _ _ _ )); exact rfl)

end Sys2Proof.Machine
end

