-- ==== Sys2Proof/Laws/KeepsUnits.lean ====
section
/-! SUPPORT. The parts each operation can change, and that it keeps a canonical state canonical: ports, power requests, the access gate, cancellation, rings, tasks, keys. -/

set_option linter.unusedTactic false
set_option linter.unreachableTactic false

namespace Sys2Proof.Machine

/-! ### Ports -/

theorem State.setLink_keeps (x0 : State) (x1) (x2) : Keeps [.links] x0 (Sys2Proof.Machine.State.setLink x0 x1 x2) := by
  unfold Sys2Proof.Machine.State.setLink
  try dsimp only
  repeat' first
    | with_reducible exact Keeps.refl _ _
    | ((with_reducible apply Keeps.step (State.withLinks_keeps _ _ )); exact rfl)

theorem State.modLink_keeps (x0 : State) (x1) (x2) : Keeps [.links] x0 (Sys2Proof.Machine.State.modLink x0 x1 x2) := by
  unfold Sys2Proof.Machine.State.modLink
  try dsimp only
  repeat' first
    | with_reducible exact Keeps.refl _ _
    | ((with_reducible apply Keeps.step (State.setLink_keeps _ _ _ )); exact rfl)

theorem State.setTrip_keeps (x0 : State) (x1) (x2) : Keeps [.trips] x0 (Sys2Proof.Machine.State.setTrip x0 x1 x2) := by
  unfold Sys2Proof.Machine.State.setTrip
  try dsimp only
  repeat' first
    | with_reducible exact Keeps.refl _ _
    | ((with_reducible apply Keeps.step (State.withTrips_keeps _ _ )); exact rfl)

theorem State.modTrip_keeps (x0 : State) (x1) (x2) : Keeps [.trips] x0 (Sys2Proof.Machine.State.modTrip x0 x1 x2) := by
  unfold Sys2Proof.Machine.State.modTrip
  try dsimp only
  repeat' first
    | with_reducible exact Keeps.refl _ _
    | ((with_reducible apply Keeps.step (State.setTrip_keeps _ _ _ )); exact rfl)

theorem State.setRch_keeps (x0 : State) (x1) (x2) : Keeps [.reach] x0 (Sys2Proof.Machine.State.setRch x0 x1 x2) := by
  unfold Sys2Proof.Machine.State.setRch
  try dsimp only
  repeat' first
    | with_reducible exact Keeps.refl _ _
    | ((with_reducible apply Keeps.step (State.withReach_keeps _ _ )); exact rfl)

theorem State.modRch_keeps (x0 : State) (x1) (x2) : Keeps [.reach] x0 (Sys2Proof.Machine.State.modRch x0 x1 x2) := by
  unfold Sys2Proof.Machine.State.modRch
  try dsimp only
  repeat' first
    | with_reducible exact Keeps.refl _ _
    | ((with_reducible apply Keeps.step (State.setRch_keeps _ _ _ )); exact rfl)

theorem State.setIdle_keeps (x0 : State) (x1) (x2) : Keeps [.lpi] x0 (Sys2Proof.Machine.State.setIdle x0 x1 x2) := by
  unfold Sys2Proof.Machine.State.setIdle
  try dsimp only
  repeat' first
    | with_reducible exact Keeps.refl _ _
    | ((with_reducible apply Keeps.step (State.withLpi_keeps _ _ )); exact rfl)

theorem State.setMon_keeps (x0 : State) (x1) (x2) : Keeps [.mons] x0 (Sys2Proof.Machine.State.setMon x0 x1 x2) := by
  unfold Sys2Proof.Machine.State.setMon
  try dsimp only
  repeat' first
    | with_reducible exact Keeps.refl _ _
    | ((with_reducible apply Keeps.step (State.withMons_keeps _ _ )); exact rfl)

theorem State.modMon_keeps (x0 : State) (x1) (x2) : Keeps [.mons] x0 (Sys2Proof.Machine.State.modMon x0 x1 x2) := by
  unfold Sys2Proof.Machine.State.modMon
  try dsimp only
  repeat' first
    | with_reducible exact Keeps.refl _ _
    | ((with_reducible apply Keeps.step (State.setMon_keeps _ _ _ )); exact rfl)

theorem State.modSide_keeps (x0 : State) (x1) (x2) : Keeps [.sides] x0 (Sys2Proof.Machine.State.modSide x0 x1 x2) := by
  unfold Sys2Proof.Machine.State.modSide
  try dsimp only
  repeat' first
    | with_reducible exact Keeps.refl _ _
    | ((with_reducible apply Keeps.step (State.withSides_keeps _ _ )); exact rfl)

theorem noteTrip_keeps (x0) (x1) (x2 : State) : Keeps [.sides] x2 (noteTrip x0 x1 x2) := by
  unfold noteTrip
  try dsimp only
  repeat' first
    | ((with_reducible intro _ _); dsimp only)
    | ((with_reducible intro _); dsimp only)
    | (with_reducible intro _)
    | with_reducible exact Keeps.refl _ _
    | with_reducible assumption
    | ((with_reducible apply Keeps.step (State.modSide_keeps _ _ _ )); exact rfl)
    | with_reducible apply Keeps.foldl
    | with_reducible apply Keeps.foldl_fst
    | split

theorem deliver_keeps (x0) (x1) (x2) (x3 : State) : Keeps [.regs, .out] x3 (deliver x0 x1 x2 x3) := by
  unfold deliver
  try dsimp only
  repeat' first
    | ((with_reducible intro _ _); dsimp only)
    | ((with_reducible intro _); dsimp only)
    | (with_reducible intro _)
    | with_reducible exact Keeps.refl _ _
    | with_reducible assumption
    | ((with_reducible apply Keeps.step (State.addPair_keeps _ _ _ _ )); exact rfl)
    | ((with_reducible apply Keeps.step (State.emit_keeps _ _ )); exact rfl)
    | with_reducible apply Keeps.foldl
    | with_reducible apply Keeps.foldl_fst
    | split

theorem State.setCoef_keeps (x0 : State) (x1) (x2) : Keeps [.coefs] x0 (Sys2Proof.Machine.State.setCoef x0 x1 x2) := by
  unfold Sys2Proof.Machine.State.setCoef
  try dsimp only
  repeat' first
    | with_reducible exact Keeps.refl _ _
    | ((with_reducible apply Keeps.step (State.withCoefs_keeps _ _ )); exact rfl)

theorem State.clearCoefs_keeps (x0 : State) (x1) : Keeps [.coefs] x0 (Sys2Proof.Machine.State.clearCoefs x0 x1) := by
  unfold Sys2Proof.Machine.State.clearCoefs
  try dsimp only
  repeat' first
    | with_reducible exact Keeps.refl _ _
    | ((with_reducible apply Keeps.step (State.withCoefs_keeps _ _ )); exact rfl)

theorem fit18_keeps (x0) (x1 : State) : Keeps [.freeCount] x1 (fit18 x0 x1).2 := by
  unfold fit18
  try dsimp only
  repeat' first
    | with_reducible exact Keeps.refl _ _
    | ((with_reducible apply Keeps.step (State.draw_keeps _ )); exact rfl)
    | split

theorem sendMessage_keeps (x0) (x1 : State) : Keeps [.messages, .sram, .dma] x1 (sendMessage x0 x1) := by
  unfold sendMessage
  try dsimp only
  repeat' first
    | with_reducible exact Keeps.refl _ _
    | ((with_reducible apply Keeps.step (State.withMessages_keeps _ _ )); exact rfl)
    | ((with_reducible apply Keeps.step (writeBytes_keeps _ _ _ )); exact rfl)
    | split

theorem askSignature_keeps (x0) (x1 : State) : Keeps [.signing] x1 (askSignature x0 x1) := by
  unfold askSignature
  try dsimp only
  repeat' first
    | with_reducible exact Keeps.refl _ _
    | ((with_reducible apply Keeps.step (State.withSigning_keeps _ _ )); exact rfl)

theorem sendReply_keeps (x0) (x1) (x2) (x3 : State) : Keeps [.messages, .signing, .sram, .dma] x3 (sendReply x0 x1 x2 x3) := by
  unfold sendReply
  try dsimp only
  repeat' first
    | with_reducible exact Keeps.refl _ _
    | ((with_reducible apply Keeps.step (sendMessage_keeps _ _ )); exact rfl)
    | ((with_reducible apply Keeps.step (askSignature_keeps _ _ )); exact rfl)
    | split

theorem auditOperational_keeps (x0) (x1) (x2 : State) : Keeps [.regs, .logs, .out, .perf, .chain, .signing] x2 (auditOperational x0 x1 x2) := by
  unfold auditOperational
  try dsimp only
  repeat' first
    | ((with_reducible intro _ _); dsimp only)
    | ((with_reducible intro _); dsimp only)
    | (with_reducible intro _)
    | with_reducible exact Keeps.refl _ _
    | with_reducible assumption
    | ((with_reducible apply Keeps.step (audit_keeps _ _ _ _ _ )); exact rfl)
    | with_reducible apply Keeps.foldl
    | with_reducible apply Keeps.foldl_fst
    | split

/-! ### PowerBase -/

theorem State.modPower_keeps (x0 : State) (x1) : Keeps [.power] x0 (Sys2Proof.Machine.State.modPower x0 x1) := by
  unfold Sys2Proof.Machine.State.modPower
  try dsimp only
  repeat' first
    | with_reducible exact Keeps.refl _ _
    | ((with_reducible apply Keeps.upd_power); exact rfl)
    | (refine Keeps.of_parts ?_ rfl rfl rfl (fun h => h); intro p hp; cases p <;> first | rfl | exact absurd hp (by decide))

theorem askWake_keeps (x0) (x1 : State) : Keeps [.regs, .power] x1 (askWake x0 x1) := by
  unfold askWake
  try dsimp only
  repeat' first
    | ((with_reducible intro _ _); dsimp only)
    | ((with_reducible intro _); dsimp only)
    | (with_reducible intro _)
    | with_reducible exact Keeps.refl _ _
    | with_reducible assumption
    | ((with_reducible apply Keeps.step (State.wr_keeps _ _ _ )); exact rfl)
    | ((with_reducible apply Keeps.step (State.modPower_keeps _ _ )); exact rfl)
    | with_reducible apply Keeps.foldl
    | with_reducible apply Keeps.foldl_fst
    | split

theorem setRtc_keeps (x0) (x1) (x2 : State) : Keeps [.regs, .power] x2 (setRtc x0 x1 x2) := by
  unfold setRtc
  try dsimp only
  repeat' first
    | with_reducible exact Keeps.refl _ _
    | ((with_reducible apply Keeps.step (State.wr_keeps _ _ _ )); exact rfl)
    | ((with_reducible apply Keeps.step (State.modPower_keeps _ _ )); exact rfl)

theorem nextRail_keeps (x0) (x1) (x2 : State) : Keeps [.out, .power] x2 (nextRail x0 x1 x2) := by
  unfold nextRail
  try dsimp only
  repeat' first
    | ((with_reducible intro _ _); dsimp only)
    | ((with_reducible intro _); dsimp only)
    | (with_reducible intro _)
    | with_reducible exact Keeps.refl _ _
    | with_reducible assumption
    | ((with_reducible apply Keeps.step (State.modPower_keeps _ _ )); exact rfl)
    | ((with_reducible apply Keeps.step (State.emit_keeps _ _ )); exact rfl)
    | with_reducible apply Keeps.foldl
    | with_reducible apply Keeps.foldl_fst
    | split

theorem startRails_keeps (x0) (x1) (x2 : State) : Keeps [.out, .power] x2 (startRails x0 x1 x2) := by
  unfold startRails
  try dsimp only
  repeat' first
    | ((with_reducible intro _ _); dsimp only)
    | ((with_reducible intro _); dsimp only)
    | (with_reducible intro _)
    | with_reducible exact Keeps.refl _ _
    | with_reducible assumption
    | ((with_reducible apply Keeps.step (nextRail_keeps _ _ _ )); exact rfl)
    | ((with_reducible apply Keeps.step (State.modPower_keeps _ _ )); exact rfl)
    | with_reducible apply Keeps.foldl
    | with_reducible apply Keeps.foldl_fst

/-! ### Gate -/

theorem accessInSleep_keeps (x0) (x1) (x2) (x3 : State) : Keeps [.regs, .logs, .out, .perf, .power] x3 (accessInSleep x0 x1 x2 x3) := by
  unfold accessInSleep
  try dsimp only
  repeat' first
    | ((with_reducible intro _ _); dsimp only)
    | ((with_reducible intro _); dsimp only)
    | (with_reducible intro _)
    | with_reducible exact Keeps.refl _ _
    | with_reducible assumption
    | ((with_reducible apply Keeps.step (State.addSat_keeps _ _ _ )); exact rfl)
    | ((with_reducible apply Keeps.step (pwrEvent_keeps _ _ )); exact rfl)
    | ((with_reducible apply Keeps.step (askWake_keeps _ _ )); exact rfl)
    | ((with_reducible apply Keeps.step (State.emit_keeps _ _ )); exact rfl)
    | with_reducible apply Keeps.foldl
    | with_reducible apply Keeps.foldl_fst
    | split

theorem hostCommand_keeps {T : List Part} {a : Nat} {f : State → State} {s m : State}
    (h : [Part.regs, .host, .logs, .out, .perf, .power].all (T.contains ·) = true)
    (hf : ∀ x, Keeps T x (f x)) (k : Keeps T s m) : Keeps T s (hostCommand a f m) := by
  have h2 : [Part.regs, .host, .logs, .out, .perf].all (T.contains ·) = true := by simp at h; simp [h]
  have h3 : [Part.regs, .logs, .out, .perf, .power].all (T.contains ·) = true := by simp at h; simp [h]
  unfold hostCommand
  split
  · exact k.trans (hf _)
  · exact k.trans ((accessInSleep_keeps _ _ _ _).mono h3)
  · exact k.trans ((busError_keeps _ _ _).mono h2)
  · exact k

theorem whileAwake_keeps {T : List Part} {f : State → State} {s m : State} (h : ([] : List Part).all (T.contains ·) = true)
    (hf : ∀ x, Keeps T x (f x)) (k : Keeps T s m) : Keeps T s (whileAwake f m) := by
  unfold whileAwake
  split
  · exact k.trans (hf _)
  · exact k

/-! ### NeighbourCancel -/

theorem clearTaps_keeps (x0) (x1 : State) : Keeps [.pool] x1 (clearTaps x0 x1) := by
  unfold clearTaps
  try dsimp only
  repeat' first
    | with_reducible exact Keeps.refl _ _
    | ((with_reducible apply Keeps.upd_pool); exact rfl; exact fun h => h)
    | (refine Keeps.of_parts ?_ rfl rfl rfl (fun h => h); intro p hp; cases p <;> first | rfl | exact absurd hp (by decide))

theorem startAcquisition_keeps (x0) (x1 : State) : Keeps [.pool] x1 (startAcquisition x0 x1) := by
  unfold startAcquisition
  try dsimp only
  repeat' first
    | with_reducible exact Keeps.refl _ _
    | ((with_reducible apply Keeps.upd_pool); exact rfl; exact fun h => h)
    | (refine Keeps.of_parts ?_ rfl rfl rfl (fun h => h); intro p hp; cases p <;> first | rfl | exact absurd hp (by decide))

theorem refreshBlock_keeps (x0 : State) (x1) : Keeps [.regs, .pool] x0 (refreshBlock x0 x1) := by
  unfold refreshBlock
  try dsimp only
  repeat' first
    | ((with_reducible intro _ _); dsimp only)
    | ((with_reducible intro _); dsimp only)
    | (with_reducible intro _)
    | with_reducible exact Keeps.refl _ _
    | with_reducible assumption
    | ((with_reducible apply Keeps.step (clearTaps_keeps _ _ )); exact rfl)
    | ((with_reducible apply Keeps.step (State.wr_keeps _ _ _ )); exact rfl)
    | ((with_reducible apply Keeps.step (startAcquisition_keeps _ _ )); exact rfl)
    | with_reducible apply Keeps.foldl
    | with_reducible apply Keeps.foldl_fst
    | split

theorem refreshPool_keeps (x0 : State) : Keeps [.regs, .pool] x0 (refreshPool x0) := by
  unfold refreshPool
  try dsimp only
  repeat' first
    | ((with_reducible intro _ _); dsimp only)
    | ((with_reducible intro _); dsimp only)
    | (with_reducible intro _)
    | with_reducible exact Keeps.refl _ _
    | with_reducible assumption
    | ((with_reducible apply Keeps.step (State.wr_keeps _ _ _ )); exact rfl)
    | ((with_reducible apply Keeps.step (refreshBlock_keeps _ _ )); exact rfl)
    | ((with_reducible apply Keeps.step (State.wrs_keeps _ _ )); exact rfl)
    | with_reducible apply Keeps.foldl
    | with_reducible apply Keeps.foldl_fst
    | split

theorem switchBlocks_keeps (x0) (x1 : State) : Keeps [.regs, .pool] x1 (switchBlocks x0 x1) := by
  unfold switchBlocks
  extract_lets old new same from? taps acq states s1 s2 s3 s4 s5
  refine Keeps.step (refreshPool_keeps _) rfl (Keeps.upd_pool rfl (fun _ e he => ?_) ?_)
  · have h1 := (List.mem_filter.mp he).1
    have h2 := (List.mem_filter.mp h1).2
    simpa using h2
  · refine Keeps.step (State.setWord_keeps _ _ _) rfl (Keeps.foldl (fun x a => ?_) (Keeps.foldl (fun x a => ?_)
      (Keeps.foldl (fun x a => ?_) (Keeps.foldl (fun x a => ?_) (Keeps.refl _ _)))))
    · split
      · exact (State.wr_keeps _ _ _).mono rfl
      · exact Keeps.refl _ _
    · split
      · exact (State.setWord_keeps _ _ _).mono rfl
      · exact Keeps.refl _ _
    · exact (State.setWord_keeps _ _ _).mono rfl
    · exact (State.setWord_keeps _ _ _).mono rfl

theorem State.setTap_keeps (x0 : State) (x1) (x2) (x3) : Keeps [.pool] x0 (Sys2Proof.Machine.State.setTap x0 x1 x2 x3) := by
  unfold Sys2Proof.Machine.State.setTap
  try dsimp only
  repeat' first
    | with_reducible exact Keeps.refl _ _
    | ((with_reducible apply Keeps.upd_pool); exact rfl; exact fun h => h)
    | (refine Keeps.of_parts ?_ rfl rfl rfl (fun h => h); intro p hp; cases p <;> first | rfl | exact absurd hp (by decide))

theorem blockUpdated_keeps (x0) (x1 : State) : Keeps [.regs] x1 (blockUpdated x0 x1) := by
  unfold blockUpdated
  try dsimp only
  repeat' first
    | ((with_reducible intro _ _); dsimp only)
    | ((with_reducible intro _); dsimp only)
    | (with_reducible intro _)
    | with_reducible exact Keeps.refl _ _
    | with_reducible assumption
    | ((with_reducible apply Keeps.step (State.wr_keeps _ _ _ )); exact rfl)
    | ((with_reducible apply Keeps.step (State.addWrap_keeps _ _ _ )); exact rfl)
    | with_reducible apply Keeps.foldl
    | with_reducible apply Keeps.foldl_fst
    | split

theorem execNcLms_keeps (x0) (x1) (x2) (x3) (x4 : State) : ∃ t, execNcLms x0 x1 x2 x3 x4 = .next t ∧ Keeps [.regs, .freeCount, .pool] x4 t := by
  unfold execNcLms
  refine ⟨_, rfl, ?_⟩
  try dsimp only
  repeat' first
    | ((with_reducible intro _ _); dsimp only)
    | ((with_reducible intro _); dsimp only)
    | (with_reducible intro _)
    | with_reducible exact Keeps.refl _ _
    | with_reducible assumption
    | ((with_reducible apply Keeps.step (State.setTap_keeps _ _ _ _ )); exact rfl)
    | ((with_reducible apply Keeps.step (fit18_keeps _ _ )); exact rfl)
    | ((with_reducible apply Keeps.step (blockUpdated_keeps _ _ )); exact rfl)
    | with_reducible apply Keeps.foldl
    | with_reducible apply Keeps.foldl_fst
    | split

theorem execReachVec_keeps (x0) (x1) (x2) (x3 : State) : ∃ t, execReachVec x0 x1 x2 x3 = .next t ∧ Keeps [.regs, .pool] x3 t := by
  unfold execReachVec
  refine ⟨_, rfl, ?_⟩
  try dsimp only
  repeat' first
    | ((with_reducible intro _ _); dsimp only)
    | ((with_reducible intro _); dsimp only)
    | (with_reducible intro _)
    | with_reducible exact Keeps.refl _ _
    | with_reducible assumption
    | ((with_reducible apply Keeps.step (State.setTap_keeps _ _ _ _ )); exact rfl)
    | ((with_reducible apply Keeps.step (blockUpdated_keeps _ _ )); exact rfl)
    | with_reducible apply Keeps.foldl
    | with_reducible apply Keeps.foldl_fst
    | split

theorem writeMap_keeps (x0 : State) : Keeps [.regs, .pool] x0 (writeMap x0) := by
  unfold writeMap
  try dsimp only
  repeat' first
    | ((with_reducible intro _ _); dsimp only)
    | ((with_reducible intro _); dsimp only)
    | (with_reducible intro _)
    | with_reducible exact Keeps.refl _ _
    | with_reducible assumption
    | ((with_reducible apply Keeps.step (State.setWord_keeps _ _ _ )); exact rfl)
    | with_reducible apply Keeps.foldl
    | with_reducible apply Keeps.foldl_fst
    | split
    | ((with_reducible apply Keeps.upd_pool); exact rfl; exact fun h => h)
    | (refine Keeps.of_parts ?_ rfl rfl rfl (fun h => h); intro p hp; cases p <;> first | rfl | exact absurd hp (by decide))

theorem scanReply_keeps (x0) (x1) (x2 : State) : Keeps [.messages, .signing, .sram, .dma] x2 (scanReply x0 x1 x2) := by
  unfold scanReply
  try dsimp only
  repeat' first
    | ((with_reducible intro _ _); dsimp only)
    | ((with_reducible intro _); dsimp only)
    | (with_reducible intro _)
    | with_reducible exact Keeps.refl _ _
    | with_reducible assumption
    | ((with_reducible apply Keeps.step (sendReply_keeps _ _ _ _ )); exact rfl)
    | with_reducible apply Keeps.foldl
    | with_reducible apply Keeps.foldl_fst

theorem victimDone_keeps (x0) (x1) (x2) (x3 : State) : Keeps [.regs, .logs, .out, .perf, .pool] x3 (victimDone x0 x1 x2 x3) := by
  unfold victimDone
  try dsimp only
  repeat' first
    | ((with_reducible intro _ _); dsimp only)
    | ((with_reducible intro _); dsimp only)
    | (with_reducible intro _)
    | with_reducible exact Keeps.refl _ _
    | with_reducible assumption
    | ((with_reducible apply Keeps.step (diagEvent_keeps _ _ _ )); exact rfl)
    | ((with_reducible apply Keeps.step (State.wr_keeps _ _ _ )); exact rfl)
    | with_reducible apply Keeps.foldl
    | with_reducible apply Keeps.foldl_fst
    | split
    | ((with_reducible apply Keeps.upd_pool); exact rfl; exact fun h => h)
    | (refine Keeps.of_parts ?_ rfl rfl rfl (fun h => h); intro p hp; cases p <;> first | rfl | exact absurd hp (by decide))

theorem skipVictims_keeps (x0) (x1 : State) : Keeps [.regs, .logs, .out, .perf, .pool] x1 (skipVictims x0 x1) := by
  induction x0 generalizing x1 with
  | zero => exact Keeps.refl _ _
  | succ k ih =>
    unfold skipVictims
    try dsimp only
    repeat' first
      | ((with_reducible apply Keeps.step (ih _)); exact rfl)
      | ((with_reducible intro _ _); dsimp only)
      | ((with_reducible intro _); dsimp only)
      | (with_reducible intro _)
      | with_reducible exact Keeps.refl _ _
      | with_reducible assumption
      | ((with_reducible apply Keeps.step (victimDone_keeps _ _ _ _ )); exact rfl)
      | with_reducible apply Keeps.foldl
      | with_reducible apply Keeps.foldl_fst
      | split

theorem judgeScan_keeps (x0 : State) : Keeps [.regs] x0 (judgeScan x0) := by
  unfold judgeScan
  try dsimp only
  repeat' first
    | with_reducible exact Keeps.refl _ _
    | ((with_reducible apply Keeps.step (State.wr_keeps _ _ _ )); exact rfl)

theorem beginScan_keeps (x0) (x1 : State) : Keeps [.regs, .logs, .out, .perf, .pool] x1 (beginScan x0 x1) := by
  unfold beginScan
  try dsimp only
  repeat' first
    | with_reducible exact Keeps.refl _ _
    | ((with_reducible apply Keeps.step (judgeScan_keeps _ )); exact rfl)
    | ((with_reducible apply Keeps.step (State.wr_keeps _ _ _ )); exact rfl)
    | ((with_reducible apply Keeps.step (skipVictims_keeps _ _ )); exact rfl)
    | ((with_reducible apply Keeps.step (State.wrs_keeps _ _ )); exact rfl)
    | ((with_reducible apply Keeps.upd_pool); exact rfl; exact fun h => h)
    | (refine Keeps.of_parts ?_ rfl rfl rfl (fun h => h); intro p hp; cases p <;> first | rfl | exact absurd hp (by decide))

theorem endScan_keeps (x0) (x1 : State) : Keeps [.regs, .host, .logs, .out, .perf, .messages, .signing, .pool, .sram, .dma] x1 (endScan x0 x1) := by
  induction x0 generalizing x1 with
  | zero => exact Keeps.refl _ _
  | succ k ih =>
    unfold endScan
    try dsimp only
    repeat' first
      | ((with_reducible apply Keeps.step (ih _)); exact rfl)
      | ((with_reducible intro _ _); dsimp only)
      | ((with_reducible intro _); dsimp only)
      | (with_reducible intro _)
      | with_reducible exact Keeps.refl _ _
      | with_reducible assumption
      | ((with_reducible apply Keeps.step (State.setWc_keeps _ _ _ )); exact rfl)
      | ((with_reducible apply Keeps.step (judgeScan_keeps _ )); exact rfl)
      | ((with_reducible apply Keeps.step (writeMap_keeps _ )); exact rfl)
      | ((with_reducible apply Keeps.step (beginScan_keeps _ _ )); exact rfl)
      | ((with_reducible apply Keeps.step (State.wr_keeps _ _ _ )); exact rfl)
      | ((with_reducible apply Keeps.step (scanReply_keeps _ _ _ )); exact rfl)
      | with_reducible apply Keeps.foldl
      | with_reducible apply Keeps.foldl_fst
      | split
      | ((with_reducible apply Keeps.upd_pool); exact rfl; exact fun h => h)
      | (refine Keeps.of_parts ?_ rfl rfl rfl (fun h => h); intro p hp; cases p <;> first | rfl | exact absurd hp (by decide))

theorem runScan_keeps (x0) (x1 : State) : Keeps [.regs, .host, .logs, .out, .perf, .messages, .signing, .pool, .sram, .dma] x1 (runScan x0 x1) := by
  unfold runScan
  try dsimp only
  repeat' first
    | with_reducible exact Keeps.refl _ _
    | ((with_reducible apply Keeps.step (endScan_keeps _ _ )); exact rfl)
    | ((with_reducible apply Keeps.step (beginScan_keeps _ _ )); exact rfl)
    | split

theorem scanStart_keeps (x0 : State) : Keeps [.regs, .host, .logs, .out, .perf, .messages, .signing, .pool, .sram, .dma] x0 (scanStart x0) := by
  unfold scanStart
  try dsimp only
  repeat' first
    | ((with_reducible intro _ _); dsimp only)
    | ((with_reducible intro _); dsimp only)
    | (with_reducible intro _)
    | with_reducible exact Keeps.refl _ _
    | with_reducible assumption
    | ((with_reducible apply Keeps.step (State.setWc_keeps _ _ _ )); exact rfl)
    | ((with_reducible apply Keeps.step (runScan_keeps _ _ )); exact rfl)
    | ((with_reducible apply Keeps.step (ignored_keeps _ _ _ )); exact rfl)
    | with_reducible apply Keeps.foldl
    | with_reducible apply Keeps.foldl_fst
    | split

theorem scanStop_keeps (x0 : State) : Keeps [.regs, .host, .logs, .out, .perf, .messages, .signing, .pool, .sram, .dma] x0 (scanStop x0) := by
  unfold scanStop
  try dsimp only
  repeat' first
    | with_reducible exact Keeps.refl _ _
    | ((with_reducible apply Keeps.step (endScan_keeps _ _ )); exact rfl)

theorem execScanStart_keeps (x0 : State) : ∃ t, execScanStart x0 = .next t ∧ Keeps [.regs, .host, .logs, .out, .perf, .messages, .signing, .pool, .sram, .dma, .power] x0 t := by
  unfold execScanStart
  refine ⟨_, rfl, ?_⟩
  try dsimp only
  repeat' first
    | ((with_reducible intro _ _); dsimp only)
    | ((with_reducible intro _); dsimp only)
    | (with_reducible intro _)
    | with_reducible exact Keeps.refl _ _
    | with_reducible assumption
    | ((with_reducible apply Keeps.step (scanStart_keeps _ )); exact rfl)
    | ((with_reducible apply hostCommand_keeps); exact rfl)

theorem execScanStop_keeps (x0 : State) : ∃ t, execScanStop x0 = .next t ∧ Keeps [.regs, .host, .logs, .out, .perf, .messages, .signing, .pool, .sram, .dma, .power] x0 t := by
  unfold execScanStop
  refine ⟨_, rfl, ?_⟩
  try dsimp only
  repeat' first
    | ((with_reducible intro _ _); dsimp only)
    | ((with_reducible intro _); dsimp only)
    | (with_reducible intro _)
    | with_reducible exact Keeps.refl _ _
    | with_reducible assumption
    | ((with_reducible apply Keeps.step (scanStop_keeps _ )); exact rfl)
    | ((with_reducible apply hostCommand_keeps); exact rfl)

theorem execScanPairComplete_keeps (x0) (x1) (x2 : State) : ∃ t, execScanPairComplete x0 x1 x2 = .next t ∧ Keeps [.regs, .host, .logs, .out, .perf, .messages, .signing, .pool, .sram, .dma] x2 t := by
  unfold execScanPairComplete
  refine ⟨_, rfl, ?_⟩
  try dsimp only
  repeat' first
    | ((with_reducible intro _ _); dsimp only)
    | ((with_reducible intro _); dsimp only)
    | (with_reducible intro _)
    | with_reducible exact Keeps.refl _ _
    | with_reducible assumption
    | ((with_reducible apply Keeps.step (endScan_keeps _ _ )); exact rfl)
    | ((with_reducible apply Keeps.step (victimDone_keeps _ _ _ _ )); exact rfl)
    | ((with_reducible apply Keeps.step (State.wr_keeps _ _ _ )); exact rfl)
    | ((with_reducible apply Keeps.step (skipVictims_keeps _ _ )); exact rfl)
    | with_reducible apply Keeps.foldl
    | with_reducible apply Keeps.foldl_fst
    | split

theorem jugChecks_keeps (x0 : State) : Keeps [.regs, .host, .logs, .out, .perf] x0 (jugChecks x0) := by
  unfold jugChecks
  try dsimp only
  repeat' first
    | ((with_reducible intro _ _); dsimp only)
    | ((with_reducible intro _); dsimp only)
    | (with_reducible intro _)
    | with_reducible exact Keeps.refl _ _
    | with_reducible assumption
    | ((with_reducible apply Keeps.step (agree_keeps _ _ _ )); exact rfl)
    | with_reducible apply Keeps.foldl
    | with_reducible apply Keeps.foldl_fst

/-! ### Export -/

theorem State.setExp_keeps (x0 : State) (x1) (x2) : Keeps [.logs] x0 (Sys2Proof.Machine.State.setExp x0 x1 x2) := by
  unfold Sys2Proof.Machine.State.setExp
  try dsimp only
  repeat' first
    | with_reducible exact Keeps.refl _ _
    | split
    | ((with_reducible apply Keeps.upd_logs); exact rfl)
    | (refine Keeps.of_parts ?_ rfl rfl rfl (fun h => h); intro p hp; cases p <;> first | rfl | exact absurd hp (by decide))

theorem markExported_keeps (x0) (x1) (x2 : State) : Keeps [.regs, .logs, .out, .perf] x2 (markExported x0 x1 x2) := by
  unfold markExported
  try dsimp only
  repeat' first
    | with_reducible exact Keeps.refl _ _
    | ((with_reducible apply Keeps.step (auditRoom_keeps _ _ )); exact rfl)
    | split
    | ((with_reducible apply Keeps.upd_logs); exact rfl)
    | (refine Keeps.of_parts ?_ rfl rfl rfl (fun h => h); intro p hp; cases p <;> first | rfl | exact absurd hp (by decide))

theorem closeForExport_keeps (x0) (x1) (x2 : State) : Keeps [.logs] x2 (closeForExport x0 x1 x2) := by
  unfold closeForExport
  try dsimp only
  repeat' first
    | with_reducible exact Keeps.refl _ _
    | split
    | ((with_reducible apply Keeps.upd_logs); exact rfl)
    | (refine Keeps.of_parts ?_ rfl rfl rfl (fun h => h); intro p hp; cases p <;> first | rfl | exact absurd hp (by decide))

theorem exportDone_keeps (x0) (x1) (x2 : State) : Keeps [.regs, .logs, .out, .perf] x2 (exportDone x0 x1 x2) := by
  unfold exportDone
  try dsimp only
  repeat' first
    | with_reducible exact Keeps.refl _ _
    | ((with_reducible apply Keeps.step (State.setExp_keeps _ _ _ )); exact rfl)
    | ((with_reducible apply Keeps.step (markExported_keeps _ _ _ )); exact rfl)
    | ((with_reducible apply Keeps.step (State.addWrap_keeps _ _ _ )); exact rfl)
    | split

theorem dumpDone_keeps (x0) (x1 : State) : Keeps [.regs, .logs, .out, .perf] x1 (dumpDone x0 x1) := by
  unfold dumpDone
  try dsimp only
  repeat' first
    | with_reducible exact Keeps.refl _ _
    | ((with_reducible apply Keeps.step (State.addWrap_keeps _ _ _ )); exact rfl)
    | ((with_reducible apply Keeps.step (perfEvent_keeps _ _ )); exact rfl)
    | split
    | ((with_reducible apply Keeps.upd_perf); exact rfl)
    | (refine Keeps.of_parts ?_ rfl rfl rfl (fun h => h); intro p hp; cases p <;> first | rfl | exact absurd hp (by decide))

/-! ### Dma -/

theorem State.setRing_keeps (x0 : State) (x1) (x2) : Keeps [.regs, .dma] x0 (Sys2Proof.Machine.State.setRing x0 x1 x2) := by
  unfold Sys2Proof.Machine.State.setRing
  try dsimp only
  repeat' first
    | with_reducible exact Keeps.refl _ _
    | ((with_reducible apply Keeps.step (State.wr_keeps _ _ _ )); exact rfl)
    | ((with_reducible apply Keeps.upd_dma); exact rfl)
    | (refine Keeps.of_parts ?_ rfl rfl rfl (fun h => h); intro p hp; cases p <;> first | rfl | exact absurd hp (by decide))

theorem State.setRingState_keeps (x0 : State) (x1) (x2) : Keeps [.regs] x0 (Sys2Proof.Machine.State.setRingState x0 x1 x2) := by
  unfold Sys2Proof.Machine.State.setRingState
  try dsimp only
  repeat' first
    | with_reducible exact Keeps.refl _ _
    | ((with_reducible apply Keeps.step (State.wr_keeps _ _ _ )); exact rfl)

theorem pushDesc_keeps (x0) (x1) (x2) (x3 : State) : Keeps [.regs, .dma] x3 (pushDesc x0 x1 x2 x3) := by
  unfold pushDesc
  try dsimp only
  repeat' first
    | ((with_reducible intro _ _); dsimp only)
    | ((with_reducible intro _); dsimp only)
    | (with_reducible intro _)
    | with_reducible exact Keeps.refl _ _
    | with_reducible assumption
    | ((with_reducible apply Keeps.step (State.setRingState_keeps _ _ _ )); exact rfl)
    | ((with_reducible apply Keeps.step (State.setRing_keeps _ _ _ )); exact rfl)
    | with_reducible apply Keeps.foldl
    | with_reducible apply Keeps.foldl_fst
    | split

theorem fetchHost_keeps (x0) (x1) (x2 : State) : Keeps [.regs, .dma] x2 (fetchHost x0 x1 x2) := by
  induction x1 generalizing x2 with
  | zero => exact Keeps.refl _ _
  | succ k ih =>
    unfold fetchHost
    try dsimp only
    repeat' first
      | ((with_reducible apply Keeps.step (ih _)); exact rfl)
      | ((with_reducible intro _ _); dsimp only)
      | ((with_reducible intro _); dsimp only)
      | (with_reducible intro _)
      | with_reducible exact Keeps.refl _ _
      | with_reducible assumption
      | ((with_reducible apply Keeps.step (pushDesc_keeps _ _ _ _ )); exact rfl)
      | with_reducible apply Keeps.foldl
      | with_reducible apply Keeps.foldl_fst
      | split

theorem ringProdWrite_keeps (x0) (x1) (x2 : State) : Keeps [.regs, .dma] x2 (ringProdWrite x0 x1 x2) := by
  unfold ringProdWrite
  try dsimp only
  repeat' first
    | with_reducible exact Keeps.refl _ _
    | ((with_reducible apply Keeps.step (fetchHost_keeps _ _ _ )); exact rfl)
    | ((with_reducible apply Keeps.step (State.wr_keeps _ _ _ )); exact rfl)

theorem execRingProdWrite_keeps (x0) (x1) (x2 : State) : ∃ t, execRingProdWrite x0 x1 x2 = .next t ∧ Keeps [.regs, .host, .logs, .out, .perf, .dma, .power] x2 t := by
  unfold execRingProdWrite
  refine ⟨_, rfl, ?_⟩
  try dsimp only
  repeat' first
    | ((with_reducible intro _ _); dsimp only)
    | ((with_reducible intro _); dsimp only)
    | (with_reducible intro _)
    | with_reducible exact Keeps.refl _ _
    | with_reducible assumption
    | ((with_reducible apply Keeps.step (ringProdWrite_keeps _ _ _ )); exact rfl)
    | ((with_reducible apply hostCommand_keeps); exact rfl)

theorem useDone_keeps (x0) (x1) (x2 : State) : Keeps [.regs, .logs, .out, .perf, .seq] x2 (useDone x0 x1 x2) := by
  unfold useDone
  try dsimp only
  repeat' first
    | with_reducible exact Keeps.refl _ _
    | ((with_reducible apply Keeps.step (dumpDone_keeps _ _ )); exact rfl)
    | ((with_reducible apply Keeps.step (endJob_keeps _ _ _ )); exact rfl)
    | ((with_reducible apply Keeps.step (exportDone_keeps _ _ _ )); exact rfl)
    | split

theorem completeHead_keeps (x0) (x1) (x2) (x3 : State) : Keeps [.regs, .logs, .out, .perf, .sram, .seq, .dma] x3 (completeHead x0 x1 x2 x3) := by
  unfold completeHead
  try dsimp only
  repeat' first
    | ((with_reducible intro _ _); dsimp only)
    | ((with_reducible intro _); dsimp only)
    | (with_reducible intro _)
    | with_reducible exact Keeps.refl _ _
    | with_reducible assumption
    | ((with_reducible apply Keeps.step (writeWord_keeps _ _ _ )); exact rfl)
    | ((with_reducible apply Keeps.step (State.setArrayBit_keeps _ _ _ )); exact rfl)
    | ((with_reducible apply Keeps.step (fetchHost_keeps _ _ _ )); exact rfl)
    | ((with_reducible apply Keeps.step (mapped_keeps _ _ _ _ )); exact rfl)
    | ((with_reducible apply Keeps.step (setPend_keeps _ _ )); exact rfl)
    | ((with_reducible apply Keeps.step (State.setRing_keeps _ _ _ )); exact rfl)
    | ((with_reducible apply Keeps.step (useDone_keeps _ _ _ )); exact rfl)
    | ((with_reducible apply Keeps.step (State.wrs_keeps _ _ )); exact rfl)
    | with_reducible apply Keeps.foldl
    | with_reducible apply Keeps.foldl_fst
    | split

theorem stopRing_keeps (x0) (x1) (x2) (x3) (x4) (x5 : State) : Keeps [.regs, .logs, .out, .perf] x5 (stopRing x0 x1 x2 x3 x4 x5) := by
  unfold stopRing
  try dsimp only
  repeat' first
    | ((with_reducible intro _ _); dsimp only)
    | ((with_reducible intro _); dsimp only)
    | (with_reducible intro _)
    | with_reducible exact Keeps.refl _ _
    | with_reducible assumption
    | ((with_reducible apply Keeps.step (State.setRingState_keeps _ _ _ )); exact rfl)
    | ((with_reducible apply Keeps.step (State.setArrayBit_keeps _ _ _ )); exact rfl)
    | ((with_reducible apply Keeps.step (State.addSat_keeps _ _ _ )); exact rfl)
    | ((with_reducible apply Keeps.step (State.setWord_keeps _ _ _ )); exact rfl)
    | ((with_reducible apply Keeps.step (mapped_keeps _ _ _ _ )); exact rfl)
    | ((with_reducible apply Keeps.step (setPend_keeps _ _ )); exact rfl)
    | ((with_reducible apply Keeps.step (State.setPair_keeps _ _ _ _ )); exact rfl)
    | with_reducible apply Keeps.foldl
    | with_reducible apply Keeps.foldl_fst
    | split

theorem freeVa_keeps (x0 : State) : Keeps [.freeCount] x0 (freeVa x0).2 := by
  unfold freeVa
  try dsimp only
  repeat' first
    | with_reducible exact Keeps.refl _ _
    | ((with_reducible apply Keeps.step (State.draw_keeps _ )); exact rfl)

theorem touchTlb_keeps (x0) (x1 : State) : Keeps [.dma] x1 (touchTlb x0 x1) := by
  unfold touchTlb
  try dsimp only
  repeat' first
    | with_reducible exact Keeps.refl _ _
    | ((with_reducible apply Keeps.upd_dma); exact rfl)
    | (refine Keeps.of_parts ?_ rfl rfl rfl (fun h => h); intro p hp; cases p <;> first | rfl | exact absurd hp (by decide))

theorem startHead_keeps (x0) (x1 : State) : Keeps [.regs, .seq, .dma] x1 (startHead x0 x1) := by
  unfold startHead
  try dsimp only
  repeat' first
    | with_reducible exact Keeps.refl _ _
    | ((with_reducible apply Keeps.step (startJob_keeps _ _ )); exact rfl)
    | ((with_reducible apply Keeps.step (State.setRing_keeps _ _ _ )); exact rfl)
    | split

theorem prepareRing_keeps (x0) (x1) (x2 : State) : Keeps [.regs, .logs, .out, .freeCount, .perf, .sram, .seq, .dma] x2 (prepareRing x0 x1 x2) := by
  induction x1 generalizing x2 with
  | zero => exact Keeps.refl _ _
  | succ k ih =>
    unfold prepareRing
    try dsimp only
    repeat' first
      | ((with_reducible apply Keeps.step (ih _)); exact rfl)
      | ((with_reducible intro _ _); dsimp only)
      | ((with_reducible intro _); dsimp only)
      | (with_reducible intro _)
      | with_reducible exact Keeps.refl _ _
      | with_reducible assumption
      | ((with_reducible apply Keeps.step (State.setRingState_keeps _ _ _ )); exact rfl)
      | ((with_reducible apply Keeps.step (completeHead_keeps _ _ _ _ )); exact rfl)
      | ((with_reducible apply Keeps.step (stopRing_keeps _ _ _ _ _ _ )); exact rfl)
      | ((with_reducible apply Keeps.step (perfCount_keeps _ _ _ )); exact rfl)
      | ((with_reducible apply Keeps.step (freeVa_keeps _ )); exact rfl)
      | ((with_reducible apply Keeps.step (startHead_keeps _ _ )); exact rfl)
      | with_reducible apply Keeps.foldl
      | with_reducible apply Keeps.foldl_fst
      | split

theorem preemptBelow_keeps (x0) (x1 : State) : Keeps [.regs] x1 (preemptBelow x0 x1) := by
  unfold preemptBelow
  try dsimp only
  repeat' first
    | ((with_reducible intro _ _); dsimp only)
    | ((with_reducible intro _); dsimp only)
    | (with_reducible intro _)
    | with_reducible exact Keeps.refl _ _
    | with_reducible assumption
    | ((with_reducible apply Keeps.step (State.setRingState_keeps _ _ _ )); exact rfl)
    | with_reducible apply Keeps.foldl
    | with_reducible apply Keeps.foldl_fst
    | split

theorem issueBurst_keeps (x0) (x1) (x2 : State) : Keeps [.regs, .logs, .out, .perf, .sram, .seq, .dma] x2 (issueBurst x0 x1 x2) := by
  unfold issueBurst
  try dsimp only
  repeat' first
    | ((with_reducible intro _ _); dsimp only)
    | ((with_reducible intro _); dsimp only)
    | (with_reducible intro _)
    | with_reducible exact Keeps.refl _ _
    | with_reducible assumption
    | ((with_reducible apply Keeps.step (State.setRingState_keeps _ _ _ )); exact rfl)
    | ((with_reducible apply Keeps.step (State.wr_keeps _ _ _ )); exact rfl)
    | ((with_reducible apply Keeps.step (touchTlb_keeps _ _ )); exact rfl)
    | ((with_reducible apply Keeps.step (completeHead_keeps _ _ _ _ )); exact rfl)
    | ((with_reducible apply Keeps.step (stopRing_keeps _ _ _ _ _ _ )); exact rfl)
    | ((with_reducible apply Keeps.step (State.setRing_keeps _ _ _ )); exact rfl)
    | ((with_reducible apply Keeps.step (perfCount_keeps _ _ _ )); exact rfl)
    | ((with_reducible apply Keeps.step (preemptBelow_keeps _ _ )); exact rfl)
    | ((with_reducible apply Keeps.step (State.emit_keeps _ _ )); exact rfl)
    | with_reducible apply Keeps.foldl
    | with_reducible apply Keeps.foldl_fst
    | split
    | ((with_reducible apply Keeps.upd_dma); exact rfl)
    | (refine Keeps.of_parts ?_ rfl rfl rfl (fun h => h); intro p hp; cases p <;> first | rfl | exact absurd hp (by decide))

theorem exportClass_keeps (x0) (x1 : State) : Keeps [.regs, .logs, .dma] x1 (exportClass x0 x1) := by
  unfold exportClass
  try dsimp only
  repeat' first
    | ((with_reducible intro _ _); dsimp only)
    | ((with_reducible intro _); dsimp only)
    | (with_reducible intro _)
    | with_reducible exact Keeps.refl _ _
    | with_reducible assumption
    | ((with_reducible apply Keeps.step (State.setExp_keeps _ _ _ )); exact rfl)
    | ((with_reducible apply Keeps.step (closeForExport_keeps _ _ _ )); exact rfl)
    | ((with_reducible apply Keeps.step (pushDesc_keeps _ _ _ _ )); exact rfl)
    | with_reducible apply Keeps.foldl
    | with_reducible apply Keeps.foldl_fst
    | split

theorem runExporters_keeps (x0 : State) : Keeps [.regs, .logs, .dma] x0 (runExporters x0) := by
  unfold runExporters
  try dsimp only
  repeat' first
    | with_reducible exact Keeps.refl _ _
    | ((with_reducible apply Keeps.step (exportClass_keeps _ _ )); exact rfl)

theorem dmaBurst_keeps (x0 : State) : Keeps [.regs, .logs, .out, .freeCount, .perf, .sram, .seq, .dma] x0 (dmaBurst x0) := by
  unfold dmaBurst
  try dsimp only
  repeat' first
    | ((with_reducible intro _ _); dsimp only)
    | ((with_reducible intro _); dsimp only)
    | (with_reducible intro _)
    | with_reducible exact Keeps.refl _ _
    | with_reducible assumption
    | ((with_reducible apply Keeps.step (runExporters_keeps _ )); exact rfl)
    | ((with_reducible apply Keeps.step (prepareRing_keeps _ _ _ )); exact rfl)
    | ((with_reducible apply Keeps.step (issueBurst_keeps _ _ _ )); exact rfl)
    | with_reducible apply Keeps.foldl
    | with_reducible apply Keeps.foldl_fst
    | split

theorem execDmaBurst_keeps (x0 : State) : ∃ t, execDmaBurst x0 = .next t ∧ Keeps [.regs, .logs, .out, .freeCount, .perf, .sram, .seq, .dma] x0 t := by
  unfold execDmaBurst
  refine ⟨_, rfl, ?_⟩
  try dsimp only
  repeat' first
    | with_reducible exact Keeps.refl _ _
    | ((with_reducible apply Keeps.step (dmaBurst_keeps _ )); exact rfl)

theorem readAdvance_keeps (x0) (x1) (x2 : State) : Keeps [.regs, .logs, .out, .perf, .sram, .seq, .dma] x2 (readAdvance x0 x1 x2) := by
  unfold readAdvance
  try dsimp only
  repeat' first
    | ((with_reducible intro _ _); dsimp only)
    | ((with_reducible intro _); dsimp only)
    | (with_reducible intro _)
    | with_reducible exact Keeps.refl _ _
    | with_reducible assumption
    | ((with_reducible apply Keeps.step (State.wr_keeps _ _ _ )); exact rfl)
    | ((with_reducible apply Keeps.step (completeHead_keeps _ _ _ _ )); exact rfl)
    | with_reducible apply Keeps.foldl
    | with_reducible apply Keeps.foldl_fst
    | split

theorem readFailed_keeps (x0) (x1 : State) : Keeps [.regs, .logs, .out, .perf, .dma] x1 (readFailed x0 x1) := by
  unfold readFailed
  try dsimp only
  repeat' first
    | ((with_reducible intro _ _); dsimp only)
    | ((with_reducible intro _); dsimp only)
    | (with_reducible intro _)
    | with_reducible exact Keeps.refl _ _
    | with_reducible assumption
    | ((with_reducible apply Keeps.step (State.wr_keeps _ _ _ )); exact rfl)
    | ((with_reducible apply Keeps.step (stopRing_keeps _ _ _ _ _ _ )); exact rfl)
    | ((with_reducible apply Keeps.step (State.setRing_keeps _ _ _ )); exact rfl)
    | with_reducible apply Keeps.foldl
    | with_reducible apply Keeps.foldl_fst
    | split

theorem readCompletion_keeps (x0) (x1) (x2 : State) : Keeps [.regs, .logs, .out, .perf, .sram, .seq, .dma] x2 (readCompletion x0 x1 x2) := by
  unfold readCompletion
  try dsimp only
  repeat' first
    | with_reducible exact Keeps.refl _ _
    | ((with_reducible apply Keeps.step (readFailed_keeps _ _ )); exact rfl)
    | ((with_reducible apply Keeps.step (readAdvance_keeps _ _ _ )); exact rfl)
    | ((with_reducible apply Keeps.step (perfCount_keeps _ _ _ )); exact rfl)
    | ((with_reducible apply Keeps.step (writeBytes_keeps _ _ _ )); exact rfl)
    | split
    | ((with_reducible apply Keeps.upd_dma); exact rfl)
    | (refine Keeps.of_parts ?_ rfl rfl rfl (fun h => h); intro p hp; cases p <;> first | rfl | exact absurd hp (by decide))

theorem execDmaReadCompletion_keeps (x0) (x1) (x2 : State) : ∃ t, execDmaReadCompletion x0 x1 x2 = .next t ∧ Keeps [.regs, .logs, .out, .perf, .sram, .seq, .dma] x2 t := by
  unfold execDmaReadCompletion
  refine ⟨_, rfl, ?_⟩
  try dsimp only
  repeat' first
    | with_reducible exact Keeps.refl _ _
    | ((with_reducible apply Keeps.step (readCompletion_keeps _ _ _ )); exact rfl)

theorem walkDone_keeps (x0 : State) : Keeps [.regs, .logs, .out, .freeCount, .perf, .dma] x0 (walkDone x0) := by
  unfold walkDone
  try dsimp only
  repeat' first
    | ((with_reducible intro _ _); dsimp only)
    | ((with_reducible intro _); dsimp only)
    | (with_reducible intro _)
    | with_reducible exact Keeps.refl _ _
    | with_reducible assumption
    | ((with_reducible apply Keeps.step (State.setRingState_keeps _ _ _ )); exact rfl)
    | ((with_reducible apply Keeps.step (touchTlb_keeps _ _ )); exact rfl)
    | ((with_reducible apply Keeps.step (stopRing_keeps _ _ _ _ _ _ )); exact rfl)
    | ((with_reducible apply Keeps.step (freeVa_keeps _ )); exact rfl)
    | with_reducible apply Keeps.foldl
    | with_reducible apply Keeps.foldl_fst
    | split
    | ((with_reducible apply Keeps.upd_dma); exact rfl)
    | (refine Keeps.of_parts ?_ rfl rfl rfl (fun h => h); intro p hp; cases p <;> first | rfl | exact absurd hp (by decide))

theorem execTlbWalkDone_keeps (x0 : State) : ∃ t, execTlbWalkDone x0 = .next t ∧ Keeps [.regs, .logs, .out, .freeCount, .perf, .dma] x0 t := by
  unfold execTlbWalkDone
  refine ⟨_, rfl, ?_⟩
  try dsimp only
  repeat' first
    | with_reducible exact Keeps.refl _ _
    | ((with_reducible apply Keeps.step (walkDone_keeps _ )); exact rfl)

theorem ringResume_keeps (x0) (x1 : State) : Keeps [.regs] x1 (ringResume x0 x1) := by
  unfold ringResume
  try dsimp only
  repeat' first
    | ((with_reducible intro _ _); dsimp only)
    | ((with_reducible intro _); dsimp only)
    | (with_reducible intro _)
    | with_reducible exact Keeps.refl _ _
    | with_reducible assumption
    | ((with_reducible apply Keeps.step (State.setRingState_keeps _ _ _ )); exact rfl)
    | with_reducible apply Keeps.foldl
    | with_reducible apply Keeps.foldl_fst
    | split

theorem ringAbort_keeps (x0) (x1 : State) : Keeps [.regs, .logs, .out, .perf, .sram, .seq, .dma] x1 (ringAbort x0 x1) := by
  unfold ringAbort
  try dsimp only
  repeat' first
    | ((with_reducible intro _ _); dsimp only)
    | ((with_reducible intro _); dsimp only)
    | (with_reducible intro _)
    | with_reducible exact Keeps.refl _ _
    | with_reducible assumption
    | ((with_reducible apply Keeps.step (State.setRingState_keeps _ _ _ )); exact rfl)
    | ((with_reducible apply Keeps.step (completeHead_keeps _ _ _ _ )); exact rfl)
    | with_reducible apply Keeps.foldl
    | with_reducible apply Keeps.foldl_fst
    | split

theorem execResume_keeps (x0) (x1 : State) : ∃ t, execResume x0 x1 = .next t ∧ Keeps [.regs, .host, .logs, .out, .perf, .power] x1 t := by
  unfold execResume
  refine ⟨_, rfl, ?_⟩
  try dsimp only
  repeat' first
    | ((with_reducible intro _ _); dsimp only)
    | ((with_reducible intro _); dsimp only)
    | (with_reducible intro _)
    | with_reducible exact Keeps.refl _ _
    | with_reducible assumption
    | ((with_reducible apply Keeps.step (ringResume_keeps _ _ )); exact rfl)
    | ((with_reducible apply hostCommand_keeps); exact rfl)

theorem execAbort_keeps (x0) (x1 : State) : ∃ t, execAbort x0 x1 = .next t ∧ Keeps [.regs, .host, .logs, .out, .perf, .sram, .seq, .dma, .power] x1 t := by
  unfold execAbort
  refine ⟨_, rfl, ?_⟩
  try dsimp only
  repeat' first
    | ((with_reducible intro _ _); dsimp only)
    | ((with_reducible intro _); dsimp only)
    | (with_reducible intro _)
    | with_reducible exact Keeps.refl _ _
    | with_reducible assumption
    | ((with_reducible apply Keeps.step (ringAbort_keeps _ _ )); exact rfl)
    | ((with_reducible apply hostCommand_keeps); exact rfl)

theorem endAll_keeps (x0) (x1) (x2 : State) : Keeps [.regs, .logs, .out, .perf, .sram, .seq, .dma] x2 (endAll x0 x1 x2) := by
  induction x1 generalizing x2 with
  | zero => exact Keeps.refl _ _
  | succ k ih =>
    unfold endAll
    try dsimp only
    repeat' first
      | ((with_reducible apply Keeps.step (ih _)); exact rfl)
      | with_reducible exact Keeps.refl _ _
      | ((with_reducible apply Keeps.step (completeHead_keeps _ _ _ _ )); exact rfl)
      | split

theorem disableRing_keeps (x0) (x1 : State) : Keeps [.regs, .logs, .out, .perf, .sram, .seq, .dma] x1 (disableRing x0 x1) := by
  unfold disableRing
  try dsimp only
  repeat' first
    | ((with_reducible intro _ _); dsimp only)
    | ((with_reducible intro _); dsimp only)
    | (with_reducible intro _)
    | with_reducible exact Keeps.refl _ _
    | with_reducible assumption
    | ((with_reducible apply Keeps.step (State.setRingState_keeps _ _ _ )); exact rfl)
    | ((with_reducible apply Keeps.step (endAll_keeps _ _ _ )); exact rfl)
    | ((with_reducible apply Keeps.step (State.wr_keeps _ _ _ )); exact rfl)
    | ((with_reducible apply Keeps.step (State.setRing_keeps _ _ _ )); exact rfl)
    | with_reducible apply Keeps.foldl
    | with_reducible apply Keeps.foldl_fst
    | split

theorem enableRing_keeps (x0) (x1 : State) : Keeps [.regs, .host, .logs, .out, .perf, .dma] x1 (enableRing x0 x1) := by
  unfold enableRing
  try dsimp only
  repeat' first
    | ((with_reducible intro _ _); dsimp only)
    | ((with_reducible intro _); dsimp only)
    | (with_reducible intro _)
    | with_reducible exact Keeps.refl _ _
    | with_reducible assumption
    | ((with_reducible apply Keeps.step (State.setRingState_keeps _ _ _ )); exact rfl)
    | ((with_reducible apply Keeps.step (clampPush_keeps _ _ )); exact rfl)
    | ((with_reducible apply Keeps.step (fetchHost_keeps _ _ _ )); exact rfl)
    | ((with_reducible apply Keeps.step (State.wr_keeps _ _ _ )); exact rfl)
    | with_reducible apply Keeps.foldl
    | with_reducible apply Keeps.foldl_fst
    | split

theorem startInvalidate_keeps (x0) (x1 : State) : Keeps [.dma] x1 (startInvalidate x0 x1) := by
  unfold startInvalidate
  try dsimp only
  repeat' first
    | ((with_reducible intro _ _); dsimp only)
    | ((with_reducible intro _); dsimp only)
    | (with_reducible intro _)
    | with_reducible exact Keeps.refl _ _
    | with_reducible assumption
    | with_reducible apply Keeps.foldl
    | with_reducible apply Keeps.foldl_fst
    | split
    | ((with_reducible apply Keeps.upd_dma); exact rfl)
    | (refine Keeps.of_parts ?_ rfl rfl rfl (fun h => h); intro p hp; cases p <;> first | rfl | exact absurd hp (by decide))

theorem execInvOne_keeps (x0 : State) : ∃ t, execInvOne x0 = .next t ∧ Keeps [.regs, .host, .logs, .out, .perf, .dma, .power] x0 t := by
  unfold execInvOne
  refine ⟨_, rfl, ?_⟩
  try dsimp only
  repeat' first
    | ((with_reducible intro _ _); dsimp only)
    | ((with_reducible intro _); dsimp only)
    | (with_reducible intro _)
    | with_reducible exact Keeps.refl _ _
    | with_reducible assumption
    | ((with_reducible apply Keeps.step (startInvalidate_keeps _ _ )); exact rfl)
    | ((with_reducible apply wcWrite_keeps); exact rfl)
    | ((with_reducible apply hostCommand_keeps); exact rfl)

theorem execInvAll_keeps (x0 : State) : ∃ t, execInvAll x0 = .next t ∧ Keeps [.regs, .host, .logs, .out, .perf, .dma, .power] x0 t := by
  unfold execInvAll
  refine ⟨_, rfl, ?_⟩
  try dsimp only
  repeat' first
    | ((with_reducible intro _ _); dsimp only)
    | ((with_reducible intro _); dsimp only)
    | (with_reducible intro _)
    | with_reducible exact Keeps.refl _ _
    | with_reducible assumption
    | ((with_reducible apply Keeps.step (startInvalidate_keeps _ _ )); exact rfl)
    | ((with_reducible apply wcWrite_keeps); exact rfl)
    | ((with_reducible apply hostCommand_keeps); exact rfl)

theorem invalidateDone_keeps (x0 : State) : Keeps [.regs, .host, .logs, .out, .perf, .dma] x0 (invalidateDone x0) := by
  unfold invalidateDone
  try dsimp only
  repeat' first
    | ((with_reducible intro _ _); dsimp only)
    | ((with_reducible intro _); dsimp only)
    | (with_reducible intro _)
    | with_reducible exact Keeps.refl _ _
    | with_reducible assumption
    | ((with_reducible apply Keeps.step (startInvalidate_keeps _ _ )); exact rfl)
    | ((with_reducible apply wcDone_keeps); exact rfl)
    | ((with_reducible apply Keeps.step (plainEvent_keeps _ _ _ )); exact rfl)
    | with_reducible apply Keeps.foldl
    | with_reducible apply Keeps.foldl_fst
    | split

theorem execInvalidateDone_keeps (x0 : State) : ∃ t, execInvalidateDone x0 = .next t ∧ Keeps [.regs, .host, .logs, .out, .perf, .dma] x0 t := by
  unfold execInvalidateDone
  refine ⟨_, rfl, ?_⟩
  try dsimp only
  repeat' first
    | with_reducible exact Keeps.refl _ _
    | ((with_reducible apply Keeps.step (invalidateDone_keeps _ )); exact rfl)

/-! ### Tasks -/

theorem State.setCtx_keeps (x0 : State) (x1) (x2) : Keeps [.seq] x0 (Sys2Proof.Machine.State.setCtx x0 x1 x2) := by
  unfold Sys2Proof.Machine.State.setCtx
  try dsimp only
  repeat' first
    | with_reducible exact Keeps.refl _ _
    | ((with_reducible apply Keeps.upd_seq); exact rfl)
    | (refine Keeps.of_parts ?_ rfl rfl rfl (fun h => h); intro p hp; cases p <;> first | rfl | exact absurd hp (by decide))

theorem State.modCtx_keeps (x0 : State) (x1) (x2) : Keeps [.seq] x0 (Sys2Proof.Machine.State.modCtx x0 x1 x2) := by
  unfold Sys2Proof.Machine.State.modCtx
  try dsimp only
  repeat' first
    | with_reducible exact Keeps.refl _ _
    | ((with_reducible apply Keeps.step (State.setCtx_keeps _ _ _ )); exact rfl)

theorem refreshCore_keeps (x0) (x1 : State) : Keeps [.regs] x1 (refreshCore x0 x1) := by
  unfold refreshCore
  try dsimp only
  repeat' first
    | ((with_reducible intro _ _); dsimp only)
    | ((with_reducible intro _); dsimp only)
    | (with_reducible intro _)
    | with_reducible exact Keeps.refl _ _
    | with_reducible assumption
    | ((with_reducible apply Keeps.step (State.wr_keeps _ _ _ )); exact rfl)
    | ((with_reducible apply Keeps.step (State.wrs_keeps _ _ )); exact rfl)
    | with_reducible apply Keeps.foldl
    | with_reducible apply Keeps.foldl_fst
    | split

theorem startTask_keeps (x0) (x1 : State) : Keeps [.regs, .seq] x1 (startTask x0 x1) := by
  unfold startTask
  try dsimp only
  repeat' first
    | with_reducible exact Keeps.refl _ _
    | ((with_reducible apply Keeps.step (refreshCore_keeps _ _ )); exact rfl)
    | ((with_reducible apply Keeps.step (State.setCtx_keeps _ _ _ )); exact rfl)

theorem skipDesc_keeps (x0) (x1) (x2 : State) : Keeps [.regs, .dma] x2 (skipDesc x0 x1 x2) := by
  unfold skipDesc
  try dsimp only
  repeat' first
    | with_reducible exact Keeps.refl _ _
    | ((with_reducible apply Keeps.step (State.setRing_keeps _ _ _ )); exact rfl)
    | split

theorem abandonJob_keeps (x0) (x1 : State) : Keeps [.regs, .seq, .dma] x1 (abandonJob x0 x1) := by
  unfold abandonJob
  try dsimp only
  repeat' first
    | with_reducible exact Keeps.refl _ _
    | ((with_reducible apply Keeps.step (endJob_keeps _ _ _ )); exact rfl)
    | ((with_reducible apply Keeps.step (State.setJob_keeps _ _ _ )); exact rfl)
    | ((with_reducible apply Keeps.step (skipDesc_keeps _ _ _ )); exact rfl)
    | split

theorem abandonJobs_keeps (x0) (x1 : State) : Keeps [.regs, .seq, .dma] x1 (abandonJobs x0 x1) := by
  unfold abandonJobs
  try dsimp only
  repeat' first
    | ((with_reducible intro _ _); dsimp only)
    | ((with_reducible intro _); dsimp only)
    | (with_reducible intro _)
    | with_reducible exact Keeps.refl _ _
    | with_reducible assumption
    | ((with_reducible apply Keeps.step (abandonJob_keeps _ _ )); exact rfl)
    | with_reducible apply Keeps.foldl
    | with_reducible apply Keeps.foldl_fst

theorem takeException_keeps (x0) (x1) (x2) (x3) (x4 : State) : Keeps [.regs, .logs, .out, .perf, .pool, .seq, .dma] x4 (takeException x0 x1 x2 x3 x4) := by
  unfold takeException
  try dsimp only
  repeat' first
    | ((with_reducible intro _ _); dsimp only)
    | ((with_reducible intro _); dsimp only)
    | (with_reducible intro _)
    | with_reducible exact Keeps.refl _ _
    | with_reducible assumption
    | ((with_reducible apply Keeps.step (refreshCore_keeps _ _ )); exact rfl)
    | ((with_reducible apply Keeps.step (State.setWord_keeps _ _ _ )); exact rfl)
    | ((with_reducible apply Keeps.step (refreshPool_keeps _ )); exact rfl)
    | ((with_reducible apply Keeps.step (State.modCtx_keeps _ _ _ )); exact rfl)
    | ((with_reducible apply Keeps.step (perfCount_keeps _ _ _ )); exact rfl)
    | ((with_reducible apply Keeps.step (abandonJobs_keeps _ _ )); exact rfl)
    | ((with_reducible apply Keeps.step (plainEvent_keeps _ _ _ )); exact rfl)
    | with_reducible apply Keeps.foldl
    | with_reducible apply Keeps.foldl_fst
    | ((with_reducible apply Keeps.upd_pool); exact rfl; exact fun h => h)
    | (refine Keeps.of_parts ?_ rfl rfl rfl (fun h => h); intro p hp; cases p <;> first | rfl | exact absurd hp (by decide))

theorem restartPortTasks_keeps (x0) (x1 : State) : Keeps [.regs, .pool, .seq, .dma] x1 (restartPortTasks x0 x1) := by
  unfold restartPortTasks
  try dsimp only
  repeat' first
    | ((with_reducible intro _ _); dsimp only)
    | ((with_reducible intro _); dsimp only)
    | (with_reducible intro _)
    | with_reducible exact Keeps.refl _ _
    | with_reducible assumption
    | ((with_reducible apply Keeps.step (refreshPool_keeps _ )); exact rfl)
    | ((with_reducible apply Keeps.step (startTask_keeps _ _ )); exact rfl)
    | ((with_reducible apply Keeps.step (abandonJobs_keeps _ _ )); exact rfl)
    | with_reducible apply Keeps.foldl
    | with_reducible apply Keeps.foldl_fst
    | ((with_reducible apply Keeps.upd_pool); exact rfl; exact fun h => h)
    | (refine Keeps.of_parts ?_ rfl rfl rfl (fun h => h); intro p hp; cases p <;> first | rfl | exact absurd hp (by decide))

theorem engineJobEnd_keeps (x0) (x1 : State) : Keeps [.regs, .out, .perf, .seq] x1 (engineJobEnd x0 x1) := by
  unfold engineJobEnd
  try dsimp only
  repeat' first
    | with_reducible exact Keeps.refl _ _
    | ((with_reducible apply Keeps.step (endJob_keeps _ _ _ )); exact rfl)
    | ((with_reducible apply Keeps.step (perfCount_keeps _ _ _ )); exact rfl)
    | split

theorem execEngineJobEnd_keeps (x0) (x1 : State) : ∃ t, execEngineJobEnd x0 x1 = .next t ∧ Keeps [.regs, .out, .perf, .seq] x1 t := by
  unfold execEngineJobEnd
  refine ⟨_, rfl, ?_⟩
  try dsimp only
  repeat' first
    | with_reducible exact Keeps.refl _ _
    | ((with_reducible apply Keeps.step (engineJobEnd_keeps _ _ )); exact rfl)

theorem hashJob_keeps (x0) (x1 : State) : Keeps [.sram, .dma] x1 (hashJob x0 x1).1 := by
  unfold hashJob
  try dsimp only
  repeat' first
    | with_reducible exact Keeps.refl _ _
    | ((with_reducible apply Keeps.step (writeBytes_keeps _ _ _ )); exact rfl)
    | split

theorem hashJobEnd_keeps (x0 : State) : Keeps [.regs, .out, .perf, .sram, .seq, .dma] x0 (hashJobEnd x0) := by
  unfold hashJobEnd
  try dsimp only
  repeat' first
    | with_reducible exact Keeps.refl _ _
    | ((with_reducible apply Keeps.step (hashJob_keeps _ _ )); exact rfl)
    | ((with_reducible apply Keeps.step (endJob_keeps _ _ _ )); exact rfl)
    | ((with_reducible apply Keeps.step (perfCount_keeps _ _ _ )); exact rfl)
    | split

theorem execHashJobEnd_keeps (x0 : State) : ∃ t, execHashJobEnd x0 = .next t ∧ Keeps [.regs, .out, .perf, .sram, .seq, .dma] x0 t := by
  unfold execHashJobEnd
  refine ⟨_, rfl, ?_⟩
  try dsimp only
  repeat' first
    | with_reducible exact Keeps.refl _ _
    | ((with_reducible apply Keeps.step (hashJobEnd_keeps _ )); exact rfl)

theorem State.fresh_keeps (x0 : State) : Keeps [.trust] x0 (Sys2Proof.Machine.State.fresh x0).2 := by
  unfold Sys2Proof.Machine.State.fresh
  try dsimp only
  repeat' first
    | with_reducible exact Keeps.refl _ _
    | ((with_reducible apply Keeps.upd_trust); exact rfl)
    | (refine Keeps.of_parts ?_ rfl rfl rfl (fun h => h); intro p hp; cases p <;> first | rfl | exact absurd hp (by decide))

theorem latticeJob_keeps (x0) (x1) (x2 : State) : Keeps [.signCount, .sram, .dma, .trust] x2 (latticeJob x0 x1 x2).1 := by
  unfold latticeJob
  try dsimp only
  repeat' first
    | ((with_reducible intro _ _); dsimp only)
    | ((with_reducible intro _); dsimp only)
    | (with_reducible intro _)
    | with_reducible exact Keeps.refl _ _
    | with_reducible assumption
    | ((with_reducible apply Keeps.step (State.withSignCount_keeps _ _ )); exact rfl)
    | ((with_reducible apply Keeps.step (State.fresh_keeps _ )); exact rfl)
    | ((with_reducible apply Keeps.step (writeBytes_keeps _ _ _ )); exact rfl)
    | with_reducible apply Keeps.foldl
    | with_reducible apply Keeps.foldl_fst
    | split
    | ((with_reducible apply Keeps.upd_trust); exact rfl)
    | (refine Keeps.of_parts ?_ rfl rfl rfl (fun h => h); intro p hp; cases p <;> first | rfl | exact absurd hp (by decide))

theorem latticeJobEnd_keeps (x0) (x1 : State) : Keeps [.regs, .out, .perf, .signCount, .sram, .seq, .dma, .trust] x1 (latticeJobEnd x0 x1) := by
  unfold latticeJobEnd
  try dsimp only
  repeat' first
    | with_reducible exact Keeps.refl _ _
    | ((with_reducible apply Keeps.step (endJob_keeps _ _ _ )); exact rfl)
    | ((with_reducible apply Keeps.step (perfCount_keeps _ _ _ )); exact rfl)
    | ((with_reducible apply Keeps.step (latticeJob_keeps _ _ _ )); exact rfl)
    | split

/-! ### Keys -/

theorem State.setDigest_keeps (x0 : State) (x1) (x2) : Keeps [.regs] x0 (Sys2Proof.Machine.State.setDigest x0 x1 x2) := by
  unfold Sys2Proof.Machine.State.setDigest
  try dsimp only
  repeat' first
    | ((with_reducible intro _ _); dsimp only)
    | ((with_reducible intro _); dsimp only)
    | (with_reducible intro _)
    | with_reducible exact Keeps.refl _ _
    | with_reducible assumption
    | ((with_reducible apply Keeps.step (State.setWord_keeps _ _ _ )); exact rfl)
    | with_reducible apply Keeps.foldl
    | with_reducible apply Keeps.foldl_fst

theorem extendMeas_keeps (x0) (x1) (x2 : State) : Keeps [.regs, .logs, .out, .perf] x2 (extendMeas x0 x1 x2) := by
  unfold extendMeas
  try dsimp only
  repeat' first
    | ((with_reducible intro _ _); dsimp only)
    | ((with_reducible intro _); dsimp only)
    | (with_reducible intro _)
    | with_reducible exact Keeps.refl _ _
    | with_reducible assumption
    | ((with_reducible apply Keeps.step (State.setDigest_keeps _ _ _ )); exact rfl)
    | ((with_reducible apply Keeps.step (tstEvent_keeps _ _ )); exact rfl)
    | with_reducible apply Keeps.foldl
    | with_reducible apply Keeps.foldl_fst

theorem refreshTrust_keeps (x0 : State) : Keeps [.regs] x0 (refreshTrust x0) := by
  unfold refreshTrust
  try dsimp only
  repeat' first
    | ((with_reducible intro _ _); dsimp only)
    | ((with_reducible intro _); dsimp only)
    | (with_reducible intro _)
    | with_reducible exact Keeps.refl _ _
    | with_reducible assumption
    | ((with_reducible apply Keeps.step (State.setDigest_keeps _ _ _ )); exact rfl)
    | ((with_reducible apply Keeps.step (State.wrs_keeps _ _ )); exact rfl)
    | with_reducible apply Keeps.foldl
    | with_reducible apply Keeps.foldl_fst

theorem State.modOtp_keeps (x0 : State) (x1) : Keeps [.trust] x0 (Sys2Proof.Machine.State.modOtp x0 x1) := by
  unfold Sys2Proof.Machine.State.modOtp
  try dsimp only
  repeat' first
    | with_reducible exact Keeps.refl _ _
    | ((with_reducible apply Keeps.upd_trust); exact rfl)
    | (refine Keeps.of_parts ?_ rfl rfl rfl (fun h => h); intro p hp; cases p <;> first | rfl | exact absurd hp (by decide))

theorem signWith_keeps (x0) (x1) (x2) (x3 : State) : Keeps [.signing] x3 (signWith x0 x1 x2 x3) := by
  unfold signWith
  try dsimp only
  repeat' first
    | ((with_reducible intro _ _); dsimp only)
    | ((with_reducible intro _); dsimp only)
    | (with_reducible intro _)
    | with_reducible exact Keeps.refl _ _
    | with_reducible assumption
    | ((with_reducible apply Keeps.step (askSignature_keeps _ _ )); exact rfl)
    | with_reducible apply Keeps.foldl
    | with_reducible apply Keeps.foldl_fst
    | split

end Sys2Proof.Machine
end

