-- ==== Sys2Proof/Laws/KeepsSideshow.lean ====
section
/-! SUPPORT. The parts each operation can change, and that it keeps a canonical state canonical: the modem, items to be judged, the trip path, peers and sessions. -/

set_option linter.unusedTactic false
set_option linter.unreachableTactic false

namespace Sys2Proof.Machine

/-! ### Modem -/

theorem State.modModem_keeps (x0 : State) (x1) (x2) : Keeps [.net] x0 (Sys2Proof.Machine.State.modModem x0 x1 x2) := by
  unfold Sys2Proof.Machine.State.modModem
  try dsimp only
  repeat' first
    | with_reducible exact Keeps.refl _ _
    | ((with_reducible apply Keeps.upd_net); exact rfl)
    | (refine Keeps.of_parts ?_ rfl rfl rfl (fun h => h); intro p hp; cases p <;> first | rfl | exact absurd hp (by decide))

theorem State.modNet_keeps (x0 : State) (x1) : Keeps [.net] x0 (Sys2Proof.Machine.State.modNet x0 x1) := by
  unfold Sys2Proof.Machine.State.modNet
  try dsimp only
  repeat' first
    | with_reducible exact Keeps.refl _ _
    | ((with_reducible apply Keeps.upd_net); exact rfl)
    | (refine Keeps.of_parts ?_ rfl rfl rfl (fun h => h); intro p hp; cases p <;> first | rfl | exact absurd hp (by decide))

theorem syncModem_keeps (x0) (x1 : State) : Keeps [.regs] x1 (syncModem x0 x1) := by
  unfold syncModem
  try dsimp only
  repeat' first
    | ((with_reducible intro _ _); dsimp only)
    | ((with_reducible intro _); dsimp only)
    | (with_reducible intro _)
    | with_reducible exact Keeps.refl _ _
    | with_reducible assumption
    | ((with_reducible apply Keeps.step (State.wrs_keeps _ _ )); exact rfl)
    | with_reducible apply Keeps.foldl
    | with_reducible apply Keeps.foldl_fst

theorem oscRest_keeps (x0 : State) : Keeps [.net] x0 (oscRest x0) := by
  unfold oscRest
  try dsimp only
  repeat' first
    | ((with_reducible intro _ _); dsimp only)
    | ((with_reducible intro _); dsimp only)
    | (with_reducible intro _)
    | with_reducible exact Keeps.refl _ _
    | with_reducible assumption
    | ((with_reducible apply Keeps.step (State.modNet_keeps _ _ )); exact rfl)
    | with_reducible apply Keeps.foldl
    | with_reducible apply Keeps.foldl_fst
    | split

theorem errorReport_keeps (x0) (x1) (x2) (x3) (x4 : State) : Keeps [.messages, .sram, .dma] x4 (errorReport x0 x1 x2 x3 x4) := by
  unfold errorReport
  try dsimp only
  repeat' first
    | with_reducible exact Keeps.refl _ _
    | ((with_reducible apply Keeps.step (sendMessage_keeps _ _ )); exact rfl)
    | split

theorem frameFailed_keeps (x0) (x1) (x2) (x3 : State) : Keeps [.regs, .logs, .out, .perf, .messages, .sram, .dma] x3 (frameFailed x0 x1 x2 x3) := by
  unfold frameFailed
  try dsimp only
  repeat' first
    | ((with_reducible intro _ _); dsimp only)
    | ((with_reducible intro _); dsimp only)
    | (with_reducible intro _)
    | with_reducible exact Keeps.refl _ _
    | with_reducible assumption
    | ((with_reducible apply Keeps.step (logEvent_keeps _ _ )); exact rfl)
    | ((with_reducible apply Keeps.step (State.addSat_keeps _ _ _ )); exact rfl)
    | ((with_reducible apply Keeps.step (State.wr_keeps _ _ _ )); exact rfl)
    | ((with_reducible apply Keeps.step (ssEvent_keeps _ _ )); exact rfl)
    | ((with_reducible apply Keeps.step (errorReport_keeps _ _ _ _ _ )); exact rfl)
    | with_reducible apply Keeps.foldl
    | with_reducible apply Keeps.foldl_fst
    | split

theorem failQueued_keeps (x0) (x1 : State) : Keeps [.regs, .logs, .out, .perf, .messages, .sram, .dma, .net] x1 (failQueued x0 x1) := by
  unfold failQueued
  try dsimp only
  repeat' first
    | ((with_reducible intro _ _); dsimp only)
    | ((with_reducible intro _); dsimp only)
    | (with_reducible intro _)
    | with_reducible exact Keeps.refl _ _
    | with_reducible assumption
    | ((with_reducible apply Keeps.step (frameFailed_keeps _ _ _ _ )); exact rfl)
    | ((with_reducible apply Keeps.step (syncModem_keeps _ _ )); exact rfl)
    | ((with_reducible apply Keeps.step (State.modModem_keeps _ _ _ )); exact rfl)
    | with_reducible apply Keeps.foldl
    | with_reducible apply Keeps.foldl_fst

theorem enqueueFrame_keeps (x0) (x1) (x2 : State) : Keeps [.regs, .logs, .out, .perf, .messages, .sram, .dma, .net] x2 (enqueueFrame x0 x1 x2) := by
  unfold enqueueFrame
  try dsimp only
  repeat' first
    | ((with_reducible intro _ _); dsimp only)
    | ((with_reducible intro _); dsimp only)
    | (with_reducible intro _)
    | with_reducible exact Keeps.refl _ _
    | with_reducible assumption
    | ((with_reducible apply Keeps.step (frameFailed_keeps _ _ _ _ )); exact rfl)
    | ((with_reducible apply Keeps.step (syncModem_keeps _ _ )); exact rfl)
    | ((with_reducible apply Keeps.step (State.modModem_keeps _ _ _ )); exact rfl)
    | with_reducible apply Keeps.foldl
    | with_reducible apply Keeps.foldl_fst
    | split

theorem sendHead_keeps (x0) (x1 : State) : Keeps [.regs, .out, .net] x1 (sendHead x0 x1) := by
  unfold sendHead
  try dsimp only
  repeat' first
    | ((with_reducible intro _ _); dsimp only)
    | ((with_reducible intro _); dsimp only)
    | (with_reducible intro _)
    | with_reducible exact Keeps.refl _ _
    | with_reducible assumption
    | ((with_reducible apply Keeps.step (State.addSat_keeps _ _ _ )); exact rfl)
    | ((with_reducible apply Keeps.step (oscRest_keeps _ )); exact rfl)
    | ((with_reducible apply Keeps.step (syncModem_keeps _ _ )); exact rfl)
    | ((with_reducible apply Keeps.step (State.modModem_keeps _ _ _ )); exact rfl)
    | ((with_reducible apply Keeps.step (State.emit_keeps _ _ )); exact rfl)
    | with_reducible apply Keeps.foldl
    | with_reducible apply Keeps.foldl_fst
    | split

theorem execSsFrameTransmit_keeps (x0) (x1 : State) : ∃ t, execSsFrameTransmit x0 x1 = .next t ∧ Keeps [.regs, .out, .net] x1 t := by
  unfold execSsFrameTransmit
  refine ⟨_, rfl, ?_⟩
  try dsimp only
  repeat' first
    | ((with_reducible intro _ _); dsimp only)
    | ((with_reducible intro _); dsimp only)
    | (with_reducible intro _)
    | with_reducible exact Keeps.refl _ _
    | with_reducible assumption
    | ((with_reducible apply Keeps.step (sendHead_keeps _ _ )); exact rfl)
    | with_reducible apply Keeps.foldl
    | with_reducible apply Keeps.foldl_fst
    | split

theorem ackTimeout_keeps (x0) (x1 : State) : Keeps [.regs, .logs, .out, .perf, .messages, .sram, .dma, .net] x1 (ackTimeout x0 x1) := by
  unfold ackTimeout
  try dsimp only
  repeat' first
    | ((with_reducible intro _ _); dsimp only)
    | ((with_reducible intro _); dsimp only)
    | (with_reducible intro _)
    | with_reducible exact Keeps.refl _ _
    | with_reducible assumption
    | ((with_reducible apply Keeps.step (State.addSat_keeps _ _ _ )); exact rfl)
    | ((with_reducible apply Keeps.step (frameFailed_keeps _ _ _ _ )); exact rfl)
    | ((with_reducible apply Keeps.step (syncModem_keeps _ _ )); exact rfl)
    | ((with_reducible apply Keeps.step (State.modModem_keeps _ _ _ )); exact rfl)
    | with_reducible apply Keeps.foldl
    | with_reducible apply Keeps.foldl_fst
    | split

theorem execSsAckTimeout_keeps (x0) (x1 : State) : ∃ t, execSsAckTimeout x0 x1 = .next t ∧ Keeps [.regs, .logs, .out, .perf, .messages, .sram, .dma, .net] x1 t := by
  unfold execSsAckTimeout
  refine ⟨_, rfl, ?_⟩
  try dsimp only
  repeat' first
    | with_reducible exact Keeps.refl _ _
    | ((with_reducible apply Keeps.step (ackTimeout_keeps _ _ )); exact rfl)

theorem execSsBusyTimeout_keeps (x0) (x1 : State) : ∃ t, execSsBusyTimeout x0 x1 = .next t ∧ Keeps [.regs, .logs, .out, .perf, .messages, .sram, .dma, .net] x1 t := by
  unfold execSsBusyTimeout
  refine ⟨_, rfl, ?_⟩
  try dsimp only
  repeat' first
    | with_reducible exact Keeps.refl _ _
    | ((with_reducible apply Keeps.step (frameFailed_keeps _ _ _ _ )); exact rfl)
    | ((with_reducible apply Keeps.step (syncModem_keeps _ _ )); exact rfl)
    | ((with_reducible apply Keeps.step (State.modModem_keeps _ _ _ )); exact rfl)
    | split

theorem execAckTx_keeps (x0) (x1 : State) : ∃ t, execAckTx x0 x1 = .next t ∧ Keeps [.regs, .out, .net] x1 t := by
  unfold execAckTx
  refine ⟨_, rfl, ?_⟩
  try dsimp only
  repeat' first
    | ((with_reducible intro _ _); dsimp only)
    | ((with_reducible intro _); dsimp only)
    | (with_reducible intro _)
    | with_reducible exact Keeps.refl _ _
    | with_reducible assumption
    | ((with_reducible apply Keeps.step (syncModem_keeps _ _ )); exact rfl)
    | ((with_reducible apply Keeps.step (State.modModem_keeps _ _ _ )); exact rfl)
    | ((with_reducible apply Keeps.step (State.emit_keeps _ _ )); exact rfl)
    | with_reducible apply Keeps.foldl
    | with_reducible apply Keeps.foldl_fst
    | split

theorem count1_keeps (x0) (x1) (x2 : State) : Keeps [.regs] x2 (count1 x0 x1 x2) := by
  unfold count1
  try dsimp only
  repeat' first
    | with_reducible exact Keeps.refl _ _
    | ((with_reducible apply Keeps.step (State.addSat_keeps _ _ _ )); exact rfl)

theorem takeAck_keeps (x0) (x1) (x2 : State) : Keeps [.regs, .net] x2 (takeAck x0 x1 x2) := by
  unfold takeAck
  try dsimp only
  repeat' first
    | ((with_reducible intro _ _); dsimp only)
    | ((with_reducible intro _); dsimp only)
    | (with_reducible intro _)
    | with_reducible exact Keeps.refl _ _
    | with_reducible assumption
    | ((with_reducible apply Keeps.step (State.addSat_keeps _ _ _ )); exact rfl)
    | ((with_reducible apply Keeps.step (State.modModem_keeps _ _ _ )); exact rfl)
    | with_reducible apply Keeps.foldl
    | with_reducible apply Keeps.foldl_fst
    | split

theorem deliverAwake_keeps (x0) (x1) (x2 : State) : Keeps [.regs, .logs, .out, .perf, .net] x2 (deliverAwake x0 x1 x2) := by
  unfold deliverAwake
  try dsimp only
  repeat' first
    | ((with_reducible intro _ _); dsimp only)
    | ((with_reducible intro _); dsimp only)
    | (with_reducible intro _)
    | with_reducible exact Keeps.refl _ _
    | with_reducible assumption
    | ((with_reducible apply Keeps.step (State.wr_keeps _ _ _ )); exact rfl)
    | ((with_reducible apply Keeps.step (count1_keeps _ _ _ )); exact rfl)
    | ((with_reducible apply Keeps.step (State.modModem_keeps _ _ _ )); exact rfl)
    | ((with_reducible apply Keeps.step (perfCount_keeps _ _ _ )); exact rfl)
    | ((with_reducible apply Keeps.step (takeAck_keeps _ _ _ )); exact rfl)
    | ((with_reducible apply Keeps.step (ssEvent_keeps _ _ )); exact rfl)
    | with_reducible apply Keeps.foldl
    | with_reducible apply Keeps.foldl_fst
    | split

theorem touchBeacon_keeps (x0) (x1 : State) : Keeps [.net] x1 (touchBeacon x0 x1) := by
  unfold touchBeacon
  try dsimp only
  repeat' first
    | with_reducible exact Keeps.refl _ _
    | ((with_reducible apply Keeps.step (State.modNet_keeps _ _ )); exact rfl)
    | split

theorem deliverAsleep_keeps (x0) (x1) (x2 : State) : Keeps [.regs, .logs, .out, .perf, .net, .power] x2 (deliverAsleep x0 x1 x2) := by
  unfold deliverAsleep
  try dsimp only
  repeat' first
    | ((with_reducible intro _ _); dsimp only)
    | ((with_reducible intro _); dsimp only)
    | (with_reducible intro _)
    | with_reducible exact Keeps.refl _ _
    | with_reducible assumption
    | ((with_reducible apply Keeps.step (State.addSat_keeps _ _ _ )); exact rfl)
    | ((with_reducible apply Keeps.step (touchBeacon_keeps _ _ )); exact rfl)
    | ((with_reducible apply Keeps.step (askWake_keeps _ _ )); exact rfl)
    | ((with_reducible apply Keeps.step (State.wr_keeps _ _ _ )); exact rfl)
    | ((with_reducible apply Keeps.step (count1_keeps _ _ _ )); exact rfl)
    | ((with_reducible apply Keeps.step (ssEvent_keeps _ _ )); exact rfl)
    | ((with_reducible apply Keeps.step (State.wrs_keeps _ _ )); exact rfl)
    | ((with_reducible apply Keeps.step (State.modNet_keeps _ _ )); exact rfl)
    | with_reducible apply Keeps.foldl
    | with_reducible apply Keeps.foldl_fst
    | split

theorem deliverFrame_keeps (x0) (x1) (x2 : State) : Keeps [.regs, .logs, .out, .perf, .net, .power] x2 (deliverFrame x0 x1 x2) := by
  unfold deliverFrame
  try dsimp only
  repeat' first
    | ((with_reducible intro _ _); dsimp only)
    | ((with_reducible intro _); dsimp only)
    | (with_reducible intro _)
    | with_reducible exact Keeps.refl _ _
    | with_reducible assumption
    | ((with_reducible apply Keeps.step (deliverAsleep_keeps _ _ _ )); exact rfl)
    | ((with_reducible apply Keeps.step (deliverAwake_keeps _ _ _ )); exact rfl)
    | with_reducible apply Keeps.foldl
    | with_reducible apply Keeps.foldl_fst
    | split

theorem collide_keeps (x0) (x1) (x2 : State) : Keeps [.regs] x2 (collide x0 x1 x2) := by
  unfold collide
  try dsimp only
  repeat' first
    | with_reducible exact Keeps.refl _ _
    | ((with_reducible apply Keeps.step (count1_keeps _ _ _ )); exact rfl)
    | split

theorem headerEnd_keeps (x0) (x1) (x2) (x3 : State) : Keeps [.regs, .logs, .out, .perf, .net, .power] x3 (headerEnd x0 x1 x2 x3).2 := by
  unfold headerEnd
  try dsimp only
  repeat' first
    | ((with_reducible intro _ _); dsimp only)
    | ((with_reducible intro _); dsimp only)
    | (with_reducible intro _)
    | with_reducible exact Keeps.refl _ _
    | with_reducible assumption
    | ((with_reducible apply Keeps.step (collide_keeps _ _ _ )); exact rfl)
    | ((with_reducible apply Keeps.step (deliverFrame_keeps _ _ _ )); exact rfl)
    | ((with_reducible apply Keeps.step (count1_keeps _ _ _ )); exact rfl)
    | with_reducible apply Keeps.foldl
    | with_reducible apply Keeps.foldl_fst
    | split

theorem rxStep_keeps (n : Nat) (x : Reception × State) (e : RxStep) : Keeps [.regs, .logs, .out, .perf, .net, .power] x.2 (rxStep n x e).2 := by
  unfold rxStep
  dsimp only
  repeat' first
    | with_reducible exact Keeps.refl _ _
    | ((with_reducible apply Keeps.step (headerEnd_keeps _ _ _ _)); exact rfl)
    | ((with_reducible apply Keeps.step (count1_keeps _ _ _)); exact rfl)
    | ((with_reducible apply Keeps.step (deliverFrame_keeps _ _ _)); exact rfl)
    | split

theorem execSsFrameReceived_keeps (x0) (x1) (x2 : State) : ∃ t, execSsFrameReceived x0 x1 x2 = .next t ∧ Keeps [.regs, .logs, .out, .perf, .net, .power] x2 t := by
  unfold execSsFrameReceived
  refine ⟨_, rfl, ?_⟩
  split
  · exact Keeps.step (oscRest_keeps _) rfl (Keeps.step (syncModem_keeps _ _) rfl
      (Keeps.foldl_snd (m := (Reception.start, x2)) (fun _ _ => rxStep_keeps _ _ _) (Keeps.refl _ _)))
  · exact Keeps.refl _ _

theorem execSsPreambleTimeout_keeps (x0) (x1 : State) : ∃ t, execSsPreambleTimeout x0 x1 = .next t ∧ Keeps [.regs, .net] x1 t := by
  unfold execSsPreambleTimeout
  refine ⟨_, rfl, ?_⟩
  try dsimp only
  repeat' first
    | ((with_reducible intro _ _); dsimp only)
    | ((with_reducible intro _); dsimp only)
    | (with_reducible intro _)
    | with_reducible exact Keeps.refl _ _
    | with_reducible assumption
    | ((with_reducible apply Keeps.step (oscRest_keeps _ )); exact rfl)
    | ((with_reducible apply Keeps.step (count1_keeps _ _ _ )); exact rfl)
    | with_reducible apply Keeps.foldl
    | with_reducible apply Keeps.foldl_fst
    | split

theorem oscStart_keeps (x0 : State) : Keeps [.net] x0 (oscStart x0) := by
  unfold oscStart
  try dsimp only
  repeat' first
    | ((with_reducible intro _ _); dsimp only)
    | ((with_reducible intro _); dsimp only)
    | (with_reducible intro _)
    | with_reducible exact Keeps.refl _ _
    | with_reducible assumption
    | ((with_reducible apply Keeps.step (State.modNet_keeps _ _ )); exact rfl)
    | with_reducible apply Keeps.foldl
    | with_reducible apply Keeps.foldl_fst
    | split

theorem execEnergyDetect_keeps (x0) (x1 : State) : ∃ t, execEnergyDetect x0 x1 = .next t ∧ Keeps [.regs, .net, .power] x1 t := by
  unfold execEnergyDetect
  refine ⟨_, rfl, ?_⟩
  try dsimp only
  repeat' first
    | ((with_reducible intro _ _); dsimp only)
    | ((with_reducible intro _); dsimp only)
    | (with_reducible intro _)
    | with_reducible exact Keeps.refl _ _
    | with_reducible assumption
    | ((with_reducible apply Keeps.step (askWake_keeps _ _ )); exact rfl)
    | ((with_reducible apply Keeps.step (oscStart_keeps _ )); exact rfl)
    | with_reducible apply Keeps.foldl
    | with_reducible apply Keeps.foldl_fst
    | split

theorem execOscillatorReady_keeps (x0 : State) : ∃ t, execOscillatorReady x0 = .next t ∧ Keeps [.net] x0 t := by
  unfold execOscillatorReady
  refine ⟨_, rfl, ?_⟩
  try dsimp only
  repeat' first
    | with_reducible exact Keeps.refl _ _
    | ((with_reducible apply Keeps.step (State.modNet_keeps _ _ )); exact rfl)
    | split

theorem execOscillatorStartFail_keeps (x0 : State) : ∃ t, execOscillatorStartFail x0 = .next t ∧ Keeps [.regs, .logs, .out, .perf, .net] x0 t := by
  unfold execOscillatorStartFail
  refine ⟨_, rfl, ?_⟩
  try dsimp only
  repeat' first
    | with_reducible exact Keeps.refl _ _
    | ((with_reducible apply Keeps.step (State.wr_keeps _ _ _ )); exact rfl)
    | ((with_reducible apply Keeps.step (ssEvent_keeps _ _ )); exact rfl)
    | ((with_reducible apply Keeps.step (State.modNet_keeps _ _ )); exact rfl)
    | split

theorem ssChecks_keeps (x0 : State) : Keeps [.regs, .host, .logs, .out, .perf] x0 (ssChecks x0) := by
  unfold ssChecks
  try dsimp only
  repeat' first
    | ((with_reducible intro _ _); dsimp only)
    | ((with_reducible intro _); dsimp only)
    | (with_reducible intro _)
    | with_reducible exact Keeps.refl _ _
    | with_reducible assumption
    | ((with_reducible apply Keeps.step (agree_keeps _ _ _ )); exact rfl)
    | with_reducible apply Keeps.foldl
    | with_reducible apply Keeps.foldl_fst
    | split

/-! ### Items -/

theorem State.modTrust_keeps (x0 : State) (x1) : Keeps [.trust] x0 (Sys2Proof.Machine.State.modTrust x0 x1) := by
  unfold Sys2Proof.Machine.State.modTrust
  try dsimp only
  repeat' first
    | with_reducible exact Keeps.refl _ _
    | ((with_reducible apply Keeps.upd_trust); exact rfl)
    | (refine Keeps.of_parts ?_ rfl rfl rfl (fun h => h); intro p hp; cases p <;> first | rfl | exact absurd hp (by decide))

theorem noteJudgement_keeps (x0) (x1) (x2) (x3 : State) : Keeps [.regs, .host, .logs, .out, .perf] x3 (noteJudgement x0 x1 x2 x3) := by
  unfold noteJudgement
  try dsimp only
  repeat' first
    | with_reducible exact Keeps.refl _ _
    | ((with_reducible apply Keeps.step (State.addSat_keeps _ _ _ )); exact rfl)
    | ((with_reducible apply Keeps.step (ssEvent_keeps _ _ )); exact rfl)
    | ((with_reducible apply Keeps.step (State.wrs_keeps _ _ )); exact rfl)
    | split
    | ((with_reducible apply Keeps.upd_host); exact rfl)
    | (refine Keeps.of_parts ?_ rfl rfl rfl (fun h => h); intro p hp; cases p <;> first | rfl | exact absurd hp (by decide))

theorem submitStart_keeps (x0 : State) : Keeps [.regs, .trust] x0 (submitStart x0) := by
  unfold submitStart
  try dsimp only
  repeat' first
    | ((with_reducible intro _ _); dsimp only)
    | ((with_reducible intro _); dsimp only)
    | (with_reducible intro _)
    | with_reducible exact Keeps.refl _ _
    | with_reducible assumption
    | ((with_reducible apply Keeps.step (State.modTrust_keeps _ _ )); exact rfl)
    | ((with_reducible apply Keeps.step (State.wrs_keeps _ _ )); exact rfl)
    | with_reducible apply Keeps.foldl
    | with_reducible apply Keeps.foldl_fst
    | split

theorem mailboxDone_keeps (x0) (x1) (x2 : State) : Keeps [.regs, .host, .trust] x2 (mailboxDone x0 x1 x2) := by
  unfold mailboxDone
  try dsimp only
  repeat' first
    | ((with_reducible intro _ _); dsimp only)
    | ((with_reducible intro _); dsimp only)
    | (with_reducible intro _)
    | with_reducible exact Keeps.refl _ _
    | with_reducible assumption
    | ((with_reducible apply Keeps.step (submitStart_keeps _ )); exact rfl)
    | ((with_reducible apply wcDone_keeps); exact rfl)
    | ((with_reducible apply Keeps.step (State.wrs_keeps _ _ )); exact rfl)
    | split

theorem refuseCommand_keeps (x0) (x1) (x2 : State) : Keeps [.regs, .host, .logs, .out, .perf, .messages, .signing, .sram, .dma, .trust] x2 (refuseCommand x0 x1 x2) := by
  unfold refuseCommand
  try dsimp only
  repeat' first
    | ((with_reducible intro _ _); dsimp only)
    | ((with_reducible intro _); dsimp only)
    | (with_reducible intro _)
    | with_reducible exact Keeps.refl _ _
    | with_reducible assumption
    | ((with_reducible apply Keeps.step (noteJudgement_keeps _ _ _ _ )); exact rfl)
    | ((with_reducible apply Keeps.step (sendReply_keeps _ _ _ _ )); exact rfl)
    | ((with_reducible apply Keeps.step (mailboxDone_keeps _ _ _ )); exact rfl)
    | with_reducible apply Keeps.foldl
    | with_reducible apply Keeps.foldl_fst

theorem dropItem_keeps (x0 : State) : Keeps [.trust] x0 (dropItem x0) := by
  unfold dropItem
  try dsimp only
  repeat' first
    | with_reducible exact Keeps.refl _ _
    | ((with_reducible apply Keeps.step (State.modTrust_keeps _ _ )); exact rfl)

theorem settle_keeps (x0) (x1 : State) : Keeps [.regs, .host, .logs, .out, .perf, .messages, .signing, .sram, .dma, .trust] x1 (settle x0 x1) := by
  induction x0 generalizing x1 with
  | zero => exact Keeps.refl _ _
  | succ k ih =>
    unfold settle
    try dsimp only
    repeat' first
      | ((with_reducible apply Keeps.step (ih _)); exact rfl)
      | ((with_reducible intro _ _); dsimp only)
      | ((with_reducible intro _); dsimp only)
      | (with_reducible intro _)
      | with_reducible exact Keeps.refl _ _
      | with_reducible assumption
      | ((with_reducible apply Keeps.step (dropItem_keeps _ )); exact rfl)
      | ((with_reducible apply Keeps.step (refuseCommand_keeps _ _ _ )); exact rfl)
      | with_reducible apply Keeps.foldl
      | with_reducible apply Keeps.foldl_fst
      | split

theorem settleItems_keeps (x0 : State) : Keeps [.regs, .host, .logs, .out, .perf, .messages, .signing, .sram, .dma, .trust] x0 (settleItems x0) := by
  unfold settleItems
  try dsimp only
  repeat' first
    | with_reducible exact Keeps.refl _ _
    | ((with_reducible apply Keeps.step (settle_keeps _ _ )); exact rfl)

theorem arrive_keeps (x0) (x1 : State) : Keeps [.regs, .host, .logs, .out, .perf, .messages, .signing, .sram, .dma, .trust] x1 (arrive x0 x1) := by
  unfold arrive
  try dsimp only
  repeat' first
    | with_reducible exact Keeps.refl _ _
    | ((with_reducible apply Keeps.step (settleItems_keeps _ )); exact rfl)
    | ((with_reducible apply Keeps.step (State.modTrust_keeps _ _ )); exact rfl)

theorem submit_keeps (x0 : State) : Keeps [.regs, .host, .logs, .out, .perf, .messages, .signing, .sram, .dma, .trust] x0 (submit x0) := by
  unfold submit
  try dsimp only
  repeat' first
    | ((with_reducible intro _ _); dsimp only)
    | ((with_reducible intro _); dsimp only)
    | (with_reducible intro _)
    | with_reducible exact Keeps.refl _ _
    | with_reducible assumption
    | ((with_reducible apply Keeps.step (submitStart_keeps _ )); exact rfl)
    | ((with_reducible apply wcWrite_keeps); exact rfl)
    | ((with_reducible apply Keeps.step (settleItems_keeps _ )); exact rfl)

theorem measureStatus_keeps (x0 : State) : Keeps [.regs, .logs, .out, .perf] x0 (measureStatus x0) := by
  unfold measureStatus
  try dsimp only
  repeat' first
    | ((with_reducible intro _ _); dsimp only)
    | ((with_reducible intro _); dsimp only)
    | (with_reducible intro _)
    | with_reducible exact Keeps.refl _ _
    | with_reducible assumption
    | ((with_reducible apply Keeps.step (extendMeas_keeps _ _ _ )); exact rfl)
    | with_reducible apply Keeps.foldl
    | with_reducible apply Keeps.foldl_fst

theorem burnOwner_keeps (x0) (x1) (x2) (x3) (x4 : State) : Keeps [.trust] x4 (burnOwner x0 x1 x2 x3 x4) := by
  unfold burnOwner
  try dsimp only
  repeat' first
    | with_reducible exact Keeps.refl _ _
    | ((with_reducible apply Keeps.step (State.modOtp_keeps _ _ )); exact rfl)

theorem ownerChanged_keeps (x0) (x1) (x2 : State) : Keeps [.regs, .logs, .out, .perf, .chain, .signing] x2 (ownerChanged x0 x1 x2) := by
  unfold ownerChanged
  try dsimp only
  repeat' first
    | with_reducible exact Keeps.refl _ _
    | ((with_reducible apply Keeps.step (refreshTrust_keeps _ )); exact rfl)
    | ((with_reducible apply Keeps.step (measureStatus_keeps _ )); exact rfl)
    | ((with_reducible apply Keeps.step (audit_keeps _ _ _ _ _ )); exact rfl)

theorem enrol_keeps (x0) (x1 : State) : Keeps [.regs, .logs, .out, .perf, .chain, .signing, .trust] x1 (enrol x0 x1) := by
  unfold enrol
  try dsimp only
  repeat' first
    | ((with_reducible intro _ _); dsimp only)
    | ((with_reducible intro _); dsimp only)
    | (with_reducible intro _)
    | with_reducible exact Keeps.refl _ _
    | with_reducible assumption
    | ((with_reducible apply Keeps.step (State.wr_keeps _ _ _ )); exact rfl)
    | ((with_reducible apply Keeps.step (ownerChanged_keeps _ _ _ )); exact rfl)
    | ((with_reducible apply Keeps.step (refreshTrust_keeps _ )); exact rfl)
    | ((with_reducible apply Keeps.step (burnOwner_keeps _ _ _ _ _ )); exact rfl)
    | ((with_reducible apply Keeps.step (State.wrs_keeps _ _ )); exact rfl)
    | ((with_reducible apply Keeps.step (tstEvent_keeps _ _ )); exact rfl)
    | with_reducible apply Keeps.foldl
    | with_reducible apply Keeps.foldl_fst
    | split

theorem checkpointStart_keeps (x0 : State) : Keeps [.host, .signing] x0 (checkpointStart x0) := by
  unfold checkpointStart
  try dsimp only
  repeat' first
    | ((with_reducible intro _ _); dsimp only)
    | ((with_reducible intro _); dsimp only)
    | (with_reducible intro _)
    | with_reducible exact Keeps.refl _ _
    | with_reducible assumption
    | ((with_reducible apply Keeps.step (State.setWc_keeps _ _ _ )); exact rfl)
    | ((with_reducible apply wcDone_keeps); exact rfl)
    | ((with_reducible apply Keeps.step (askSignature_keeps _ _ )); exact rfl)
    | with_reducible apply Keeps.foldl
    | with_reducible apply Keeps.foldl_fst
    | split

theorem checkpoint_keeps (x0 : State) : Keeps [.regs, .host, .signing] x0 (checkpoint x0) := by
  unfold checkpoint
  try dsimp only
  repeat' first
    | ((with_reducible intro _ _); dsimp only)
    | ((with_reducible intro _); dsimp only)
    | (with_reducible intro _)
    | with_reducible exact Keeps.refl _ _
    | with_reducible assumption
    | ((with_reducible apply wcWrite_keeps); exact rfl)
    | ((with_reducible apply Keeps.step (checkpointStart_keeps _ )); exact rfl)

theorem execEnrol_keeps (x0) (x1 : State) : ∃ t, execEnrol x0 x1 = .next t ∧ Keeps [.regs, .host, .logs, .out, .perf, .chain, .signing, .trust, .power] x1 t := by
  unfold execEnrol
  refine ⟨_, rfl, ?_⟩
  try dsimp only
  repeat' first
    | ((with_reducible intro _ _); dsimp only)
    | ((with_reducible intro _); dsimp only)
    | (with_reducible intro _)
    | with_reducible exact Keeps.refl _ _
    | with_reducible assumption
    | ((with_reducible apply Keeps.step (enrol_keeps _ _ )); exact rfl)
    | ((with_reducible apply hostCommand_keeps); exact rfl)

theorem execCheckpoint_keeps (x0 : State) : ∃ t, execCheckpoint x0 = .next t ∧ Keeps [.regs, .host, .logs, .out, .perf, .signing, .power] x0 t := by
  unfold execCheckpoint
  refine ⟨_, rfl, ?_⟩
  try dsimp only
  repeat' first
    | ((with_reducible intro _ _); dsimp only)
    | ((with_reducible intro _); dsimp only)
    | (with_reducible intro _)
    | with_reducible exact Keeps.refl _ _
    | with_reducible assumption
    | ((with_reducible apply Keeps.step (checkpoint_keeps _ )); exact rfl)
    | ((with_reducible apply hostCommand_keeps); exact rfl)

/-! ### Trip -/

theorem syncTrip_keeps (x0) (x1 : State) : Keeps [.regs] x1 (syncTrip x0 x1) := by
  unfold syncTrip
  try dsimp only
  repeat' first
    | with_reducible exact Keeps.refl _ _
    | ((with_reducible apply Keeps.step (State.setPair_keeps _ _ _ _ )); exact rfl)
    | ((with_reducible apply Keeps.step (State.wrs_keeps _ _ )); exact rfl)
    | split

theorem changeTrip_keeps (x0) (x1) (x2 : State) : Keeps [.regs, .logs, .out, .perf, .trips] x2 (changeTrip x0 x1 x2) := by
  unfold changeTrip
  try dsimp only
  repeat' first
    | with_reducible exact Keeps.refl _ _
    | ((with_reducible apply Keeps.step (tripEvent_keeps _ _ _ )); exact rfl)
    | ((with_reducible apply Keeps.step (syncTrip_keeps _ _ )); exact rfl)
    | ((with_reducible apply Keeps.step (State.modTrip_keeps _ _ _ )); exact rfl)
    | split

theorem refreshOuts_keeps (x0) (x1 : State) : Keeps [.regs, .out] x1 (refreshOuts x0 x1) := by
  unfold refreshOuts
  try dsimp only
  repeat' first
    | ((with_reducible intro _ _); dsimp only)
    | ((with_reducible intro _); dsimp only)
    | (with_reducible intro _)
    | with_reducible exact Keeps.refl _ _
    | with_reducible assumption
    | ((with_reducible apply Keeps.step (State.wr_keeps _ _ _ )); exact rfl)
    | ((with_reducible apply Keeps.step (State.emits_keeps _ _ )); exact rfl)
    | with_reducible apply Keeps.foldl
    | with_reducible apply Keeps.foldl_fst
    | split

theorem withOuts_keeps {T : List Part} {f : State → State} {s m : State} (h : [Part.regs, .out].all (T.contains ·) = true)
    (hf : ∀ x, Keeps T x (f x)) (k : Keeps T s m) : Keeps T s (withOuts f m) := by
  unfold withOuts
  exact (k.trans (hf _)).trans ((refreshOuts_keeps _ _).mono h)

theorem driveOuts_keeps (x0) (x1 : State) : Keeps [.regs, .out, .pins] x1 (driveOuts x0 x1) := by
  unfold driveOuts
  try dsimp only
  repeat' first
    | ((with_reducible intro _ _); dsimp only)
    | ((with_reducible intro _); dsimp only)
    | (with_reducible intro _)
    | with_reducible exact Keeps.refl _ _
    | with_reducible assumption
    | ((with_reducible apply withOuts_keeps); exact rfl)
    | ((with_reducible apply Keeps.step (State.orWord_keeps _ _ _ )); exact rfl)
    | with_reducible apply Keeps.foldl
    | with_reducible apply Keeps.foldl_fst
    | split
    | ((with_reducible apply Keeps.upd_pins); exact rfl)
    | (refine Keeps.of_parts ?_ rfl rfl rfl (fun h => h); intro p hp; cases p <;> first | rfl | exact absurd hp (by decide))

theorem hbSilent_keeps (x0) (x1 : State) : Keeps [.regs, .out] x1 (hbSilent x0 x1) := by
  unfold hbSilent
  try dsimp only
  repeat' first
    | ((with_reducible intro _ _); dsimp only)
    | ((with_reducible intro _); dsimp only)
    | (with_reducible intro _)
    | with_reducible exact Keeps.refl _ _
    | with_reducible assumption
    | ((with_reducible apply withOuts_keeps); exact rfl)
    | ((with_reducible apply Keeps.step (State.wr_keeps _ _ _ )); exact rfl)

theorem sendSsTrip_keeps (x0) (x1 : State) : Keeps [.regs, .messages, .trips, .sram, .dma] x1 (sendSsTrip x0 x1) := by
  unfold sendSsTrip
  try dsimp only
  repeat' first
    | with_reducible exact Keeps.refl _ _
    | ((with_reducible apply Keeps.step (State.setTrip_keeps _ _ _ )); exact rfl)
    | ((with_reducible apply Keeps.step (syncTrip_keeps _ _ )); exact rfl)
    | ((with_reducible apply Keeps.step (sendMessage_keeps _ _ )); exact rfl)
    | split

theorem fallback_keeps (x0) (x1 : State) : Keeps [.regs, .messages, .trips, .sram, .dma] x1 (fallback x0 x1) := by
  unfold fallback
  try dsimp only
  repeat' first
    | ((with_reducible intro _ _); dsimp only)
    | ((with_reducible intro _); dsimp only)
    | (with_reducible intro _)
    | with_reducible exact Keeps.refl _ _
    | with_reducible assumption
    | ((with_reducible apply Keeps.step (State.wr_keeps _ _ _ )); exact rfl)
    | ((with_reducible apply Keeps.step (sendSsTrip_keeps _ _ )); exact rfl)
    | with_reducible apply Keeps.foldl
    | with_reducible apply Keeps.foldl_fst
    | split

theorem startBurst_keeps (x0) (x1 : State) : Keeps [.regs, .trips] x1 (startBurst x0 x1) := by
  unfold startBurst
  try dsimp only
  repeat' first
    | ((with_reducible intro _ _); dsimp only)
    | ((with_reducible intro _); dsimp only)
    | (with_reducible intro _)
    | with_reducible exact Keeps.refl _ _
    | with_reducible assumption
    | ((with_reducible apply Keeps.step (State.setTrip_keeps _ _ _ )); exact rfl)
    | ((with_reducible apply Keeps.step (State.wr_keeps _ _ _ )); exact rfl)
    | with_reducible apply Keeps.foldl
    | with_reducible apply Keeps.foldl_fst
    | split

theorem launch_keeps (x0) (x1 : State) : Keeps [.regs, .messages, .trips, .sram, .dma] x1 (launch x0 x1) := by
  unfold launch
  try dsimp only
  repeat' first
    | ((with_reducible intro _ _); dsimp only)
    | ((with_reducible intro _); dsimp only)
    | (with_reducible intro _)
    | with_reducible exact Keeps.refl _ _
    | with_reducible assumption
    | ((with_reducible apply Keeps.step (fallback_keeps _ _ )); exact rfl)
    | ((with_reducible apply Keeps.step (State.setTrip_keeps _ _ _ )); exact rfl)
    | ((with_reducible apply Keeps.step (startBurst_keeps _ _ )); exact rfl)
    | ((with_reducible apply Keeps.step (sendSsTrip_keeps _ _ )); exact rfl)
    | with_reducible apply Keeps.foldl
    | with_reducible apply Keeps.foldl_fst
    | split

theorem launchAll_keeps (x0) (x1 : State) : Keeps [.regs, .messages, .trips, .sram, .dma] x1 (launchAll x0 x1) := by
  unfold launchAll
  try dsimp only
  repeat' first
    | ((with_reducible intro _ _); dsimp only)
    | ((with_reducible intro _); dsimp only)
    | (with_reducible intro _)
    | with_reducible exact Keeps.refl _ _
    | with_reducible assumption
    | ((with_reducible apply Keeps.step (launch_keeps _ _ )); exact rfl)
    | with_reducible apply Keeps.foldl
    | with_reducible apply Keeps.foldl_fst
    | split

theorem keepalive_keeps (x0 : State) : Keeps [.regs, .messages, .trips, .sram, .dma] x0 (keepalive x0) := by
  unfold keepalive
  try dsimp only
  repeat' first
    | ((with_reducible intro _ _); dsimp only)
    | ((with_reducible intro _); dsimp only)
    | (with_reducible intro _)
    | with_reducible exact Keeps.refl _ _
    | with_reducible assumption
    | ((with_reducible apply Keeps.step (launchAll_keeps _ _ )); exact rfl)
    | with_reducible apply Keeps.foldl
    | with_reducible apply Keeps.foldl_fst
    | split

theorem sendSlot_keeps (x0) (x1 : State) : Keeps [.regs, .out, .trips] x1 (sendSlot x0 x1) := by
  unfold sendSlot
  try dsimp only
  repeat' first
    | ((with_reducible intro _ _); dsimp only)
    | ((with_reducible intro _); dsimp only)
    | (with_reducible intro _)
    | with_reducible exact Keeps.refl _ _
    | with_reducible assumption
    | ((with_reducible apply Keeps.step (State.setTrip_keeps _ _ _ )); exact rfl)
    | ((with_reducible apply Keeps.step (startBurst_keeps _ _ )); exact rfl)
    | ((with_reducible apply Keeps.step (syncTrip_keeps _ _ )); exact rfl)
    | ((with_reducible apply Keeps.step (State.emit_keeps _ _ )); exact rfl)
    | with_reducible apply Keeps.foldl
    | with_reducible apply Keeps.foldl_fst
    | split

theorem auditSession_keeps (x0) (x1) (x2 : State) : Keeps [.regs, .logs, .out, .perf, .chain, .signing] x2 (auditSession x0 x1 x2) := by
  unfold auditSession
  try dsimp only
  repeat' first
    | with_reducible exact Keeps.refl _ _
    | ((with_reducible apply Keeps.step (audit_keeps _ _ _ _ _ )); exact rfl)

theorem completeChangeover_keeps (x0) (x1 : State) : Keeps [.regs, .logs, .out, .perf, .chain, .signing, .trips] x1 (completeChangeover x0 x1) := by
  unfold completeChangeover
  try dsimp only
  repeat' first
    | with_reducible exact Keeps.refl _ _
    | ((with_reducible apply Keeps.step (State.wr_keeps _ _ _ )); exact rfl)
    | ((with_reducible apply Keeps.step (changeTrip_keeps _ _ _ )); exact rfl)
    | ((with_reducible apply Keeps.step (auditSession_keeps _ _ _ )); exact rfl)
    | ((with_reducible apply Keeps.step (State.wrs_keeps _ _ )); exact rfl)
    | ((with_reducible apply Keeps.step (tstEvent_keeps _ _ )); exact rfl)
    | split

theorem goodSlot_keeps (x0) (x1 : State) : Keeps [.regs, .logs, .out, .perf, .trips, .sides] x1 (goodSlot x0 x1) := by
  unfold goodSlot
  try dsimp only
  repeat' first
    | ((with_reducible intro _ _); dsimp only)
    | ((with_reducible intro _); dsimp only)
    | (with_reducible intro _)
    | with_reducible exact Keeps.refl _ _
    | with_reducible assumption
    | ((with_reducible apply withOuts_keeps); exact rfl)
    | ((with_reducible apply Keeps.step (State.wr_keeps _ _ _ )); exact rfl)
    | ((with_reducible apply Keeps.step (noteTrip_keeps _ _ _ )); exact rfl)
    | ((with_reducible apply Keeps.step (tripEvent_keeps _ _ _ )); exact rfl)
    | ((with_reducible apply Keeps.step (State.modTrip_keeps _ _ _ )); exact rfl)
    | with_reducible apply Keeps.foldl
    | with_reducible apply Keeps.foldl_fst
    | split

theorem acceptEffects_keeps (x0) (x1 : State) : Keeps [.regs, .out, .messages, .trips, .pins, .sram, .dma] x1 (acceptEffects x0 x1) := by
  unfold acceptEffects
  try dsimp only
  repeat' first
    | ((with_reducible intro _ _); dsimp only)
    | ((with_reducible intro _); dsimp only)
    | (with_reducible intro _)
    | with_reducible exact Keeps.refl _ _
    | with_reducible assumption
    | ((with_reducible apply Keeps.step (driveOuts_keeps _ _ )); exact rfl)
    | ((with_reducible apply Keeps.step (launchAll_keeps _ _ )); exact rfl)
    | with_reducible apply Keeps.foldl
    | with_reducible apply Keeps.foldl_fst

theorem switchRx_keeps (x0) (x1 : State) : Keeps [.trips] x1 (switchRx x0 x1) := by
  unfold switchRx
  try dsimp only
  repeat' first
    | with_reducible exact Keeps.refl _ _
    | ((with_reducible apply Keeps.step (State.modTrip_keeps _ _ _ )); exact rfl)

theorem wrongCode_keeps (x0) (x1 : State) : Keeps [.regs, .logs, .out, .perf, .trips, .sides] x1 (wrongCode x0 x1) := by
  unfold wrongCode
  try dsimp only
  repeat' first
    | ((with_reducible intro _ _); dsimp only)
    | ((with_reducible intro _); dsimp only)
    | (with_reducible intro _)
    | with_reducible exact Keeps.refl _ _
    | with_reducible assumption
    | ((with_reducible apply Keeps.step (State.addSat_keeps _ _ _ )); exact rfl)
    | ((with_reducible apply Keeps.step (State.wr_keeps _ _ _ )); exact rfl)
    | ((with_reducible apply Keeps.step (causeAlarm_keeps _ _ _ _ )); exact rfl)
    | ((with_reducible apply Keeps.step (noteTrip_keeps _ _ _ )); exact rfl)
    | ((with_reducible apply Keeps.step (State.modTrip_keeps _ _ _ )); exact rfl)
    | with_reducible apply Keeps.foldl
    | with_reducible apply Keeps.foldl_fst
    | split

theorem damagedSlot_keeps (x0) (x1 : State) : Keeps [.regs, .trips] x1 (damagedSlot x0 x1) := by
  unfold damagedSlot
  try dsimp only
  repeat' first
    | with_reducible exact Keeps.refl _ _
    | ((with_reducible apply Keeps.step (State.addPair_keeps _ _ _ _ )); exact rfl)
    | ((with_reducible apply Keeps.step (State.modTrip_keeps _ _ _ )); exact rfl)

theorem takeStatus_keeps (x0) (x1) (x2 : State) : Keeps [.regs, .logs, .out, .perf, .chain, .signing, .trips] x2 (takeStatus x0 x1 x2) := by
  unfold takeStatus
  try dsimp only
  repeat' first
    | ((with_reducible intro _ _); dsimp only)
    | ((with_reducible intro _); dsimp only)
    | (with_reducible intro _)
    | with_reducible exact Keeps.refl _ _
    | with_reducible assumption
    | ((with_reducible apply Keeps.step (State.wr_keeps _ _ _ )); exact rfl)
    | ((with_reducible apply Keeps.step (completeChangeover_keeps _ _ )); exact rfl)
    | ((with_reducible apply Keeps.step (changeTrip_keeps _ _ _ )); exact rfl)
    | ((with_reducible apply Keeps.step (switchRx_keeps _ _ )); exact rfl)
    | ((with_reducible apply Keeps.step (tripEvent_keeps _ _ _ )); exact rfl)
    | with_reducible apply Keeps.foldl
    | with_reducible apply Keeps.foldl_fst
    | split

theorem judgeSlot_keeps (x0) (x1) (x2 : State) : Keeps [.regs, .logs, .out, .perf, .chain, .messages, .signing, .trips, .pins, .sides, .sram, .dma] x2 (judgeSlot x0 x1 x2) := by
  unfold judgeSlot
  try dsimp only
  repeat' first
    | ((with_reducible intro _ _); dsimp only)
    | ((with_reducible intro _); dsimp only)
    | (with_reducible intro _)
    | with_reducible exact Keeps.refl _ _
    | with_reducible assumption
    | ((with_reducible apply Keeps.step (State.addSat_keeps _ _ _ )); exact rfl)
    | ((with_reducible apply Keeps.step (acceptEffects_keeps _ _ )); exact rfl)
    | ((with_reducible apply Keeps.step (goodSlot_keeps _ _ )); exact rfl)
    | ((with_reducible apply Keeps.step (State.setTrip_keeps _ _ _ )); exact rfl)
    | ((with_reducible apply Keeps.step (completeChangeover_keeps _ _ )); exact rfl)
    | ((with_reducible apply Keeps.step (damagedSlot_keeps _ _ )); exact rfl)
    | ((with_reducible apply Keeps.step (switchRx_keeps _ _ )); exact rfl)
    | ((with_reducible apply Keeps.step (noteTrip_keeps _ _ _ )); exact rfl)
    | ((with_reducible apply Keeps.step (tripEvent_keeps _ _ _ )); exact rfl)
    | ((with_reducible apply Keeps.step (syncTrip_keeps _ _ )); exact rfl)
    | ((with_reducible apply Keeps.step (State.modTrip_keeps _ _ _ )); exact rfl)
    | ((with_reducible apply Keeps.step (takeStatus_keeps _ _ _ )); exact rfl)
    | ((with_reducible apply Keeps.step (wrongCode_keeps _ _ )); exact rfl)
    | with_reducible apply Keeps.foldl
    | with_reducible apply Keeps.foldl_fst
    | split

theorem suspendSession_keeps (x0) (x1 : State) : Keeps [.regs, .logs, .out, .perf, .trips] x1 (suspendSession x0 x1) := by
  unfold suspendSession
  try dsimp only
  repeat' first
    | with_reducible exact Keeps.refl _ _
    | ((with_reducible apply Keeps.step (changeTrip_keeps _ _ _ )); exact rfl)
    | ((with_reducible apply Keeps.step (State.modTrip_keeps _ _ _ )); exact rfl)
    | split

theorem leaveTripData_keeps (x0) (x1 : State) : Keeps [.regs, .logs, .out, .perf, .trips] x1 (leaveTripData x0 x1) := by
  unfold leaveTripData
  try dsimp only
  repeat' first
    | with_reducible exact Keeps.refl _ _
    | ((with_reducible apply Keeps.step (suspendSession_keeps _ _ )); exact rfl)
    | ((with_reducible apply Keeps.step (hbSilent_keeps _ _ )); exact rfl)

theorem endSession_keeps (x0) (x1) (x2 : State) : Keeps [.regs, .logs, .out, .perf, .chain, .signing, .trips] x2 (endSession x0 x1 x2) := by
  unfold endSession
  try dsimp only
  repeat' first
    | ((with_reducible intro _ _); dsimp only)
    | ((with_reducible intro _); dsimp only)
    | (with_reducible intro _)
    | with_reducible exact Keeps.refl _ _
    | with_reducible assumption
    | ((with_reducible apply withOuts_keeps); exact rfl)
    | ((with_reducible apply Keeps.step (State.wr_keeps _ _ _ )); exact rfl)
    | ((with_reducible apply Keeps.step (changeTrip_keeps _ _ _ )); exact rfl)
    | ((with_reducible apply Keeps.step (auditSession_keeps _ _ _ )); exact rfl)
    | split

theorem execTripSlotReceived_keeps (x0) (x1) (x2 : State) : ∃ t, execTripSlotReceived x0 x1 x2 = .next t ∧ Keeps [.regs, .logs, .out, .perf, .chain, .messages, .signing, .trips, .pins, .sides, .sram, .dma] x2 t := by
  unfold execTripSlotReceived
  refine ⟨_, rfl, ?_⟩
  try dsimp only
  repeat' first
    | with_reducible exact Keeps.refl _ _
    | ((with_reducible apply Keeps.step (judgeSlot_keeps _ _ _ )); exact rfl)

theorem execHeartbeatWatchdog_keeps (x0) (x1 : State) : ∃ t, execHeartbeatWatchdog x0 x1 = .next t ∧ Keeps [.regs, .logs, .out, .perf, .trips, .sides] x1 t := by
  unfold execHeartbeatWatchdog
  refine ⟨_, rfl, ?_⟩
  try dsimp only
  repeat' first
    | ((with_reducible intro _ _); dsimp only)
    | ((with_reducible intro _); dsimp only)
    | (with_reducible intro _)
    | with_reducible exact Keeps.refl _ _
    | with_reducible assumption
    | ((with_reducible apply withOuts_keeps); exact rfl)
    | ((with_reducible apply Keeps.step (State.wr_keeps _ _ _ )); exact rfl)
    | ((with_reducible apply Keeps.step (noteTrip_keeps _ _ _ )); exact rfl)
    | ((with_reducible apply Keeps.step (tripEvent_keeps _ _ _ )); exact rfl)
    | ((with_reducible apply Keeps.step (State.modTrip_keeps _ _ _ )); exact rfl)
    | with_reducible apply Keeps.foldl
    | with_reducible apply Keeps.foldl_fst
    | split

theorem execTripSlotSend_keeps (x0) (x1 : State) : ∃ t, execTripSlotSend x0 x1 = .next t ∧ Keeps [.regs, .out, .trips] x1 t := by
  unfold execTripSlotSend
  refine ⟨_, rfl, ?_⟩
  try dsimp only
  repeat' first
    | with_reducible exact Keeps.refl _ _
    | ((with_reducible apply Keeps.step (sendSlot_keeps _ _ )); exact rfl)

theorem execTripInEdge_keeps (x0) (x1 : State) : ∃ t, execTripInEdge x0 x1 = .next t ∧ Keeps [.regs, .messages, .trips, .pins, .sram, .dma] x1 t := by
  unfold execTripInEdge
  refine ⟨_, rfl, ?_⟩
  try dsimp only
  repeat' first
    | ((with_reducible intro _ _); dsimp only)
    | ((with_reducible intro _); dsimp only)
    | (with_reducible intro _)
    | with_reducible exact Keeps.refl _ _
    | with_reducible assumption
    | ((with_reducible apply Keeps.step (launchAll_keeps _ _ )); exact rfl)
    | with_reducible apply Keeps.foldl
    | with_reducible apply Keeps.foldl_fst
    | split
    | ((with_reducible apply Keeps.upd_pins); exact rfl)
    | (refine Keeps.of_parts ?_ rfl rfl rfl (fun h => h); intro p hp; cases p <;> first | rfl | exact absurd hp (by decide))

theorem execTripInDeassert_keeps (x0) (x1 : State) : ∃ t, execTripInDeassert x0 x1 = .next t ∧ Keeps [.pins] x1 t := by
  unfold execTripInDeassert
  refine ⟨_, rfl, ?_⟩
  try dsimp only
  repeat' first
    | ((with_reducible intro _ _); dsimp only)
    | ((with_reducible intro _); dsimp only)
    | (with_reducible intro _)
    | with_reducible exact Keeps.refl _ _
    | with_reducible assumption
    | with_reducible apply Keeps.foldl
    | with_reducible apply Keeps.foldl_fst
    | split
    | ((with_reducible apply Keeps.upd_pins); exact rfl)
    | (refine Keeps.of_parts ?_ rfl rfl rfl (fun h => h); intro p hp; cases p <;> first | rfl | exact absurd hp (by decide))

theorem codeComputed_keeps (x0) (x1) (x2 : State) : Keeps [.regs, .trips] x2 (codeComputed x0 x1 x2) := by
  unfold codeComputed
  try dsimp only
  repeat' first
    | ((with_reducible intro _ _); dsimp only)
    | ((with_reducible intro _); dsimp only)
    | (with_reducible intro _)
    | with_reducible exact Keeps.refl _ _
    | with_reducible assumption
    | ((with_reducible apply Keeps.step (syncTrip_keeps _ _ )); exact rfl)
    | ((with_reducible apply Keeps.step (State.modTrip_keeps _ _ _ )); exact rfl)
    | with_reducible apply Keeps.foldl
    | with_reducible apply Keeps.foldl_fst
    | split

theorem execTripCodeComputed_keeps (x0) (x1) (x2 : State) : ∃ t, execTripCodeComputed x0 x1 x2 = .next t ∧ Keeps [.regs, .trips] x2 t := by
  unfold execTripCodeComputed
  refine ⟨_, rfl, ?_⟩
  try dsimp only
  repeat' first
    | with_reducible exact Keeps.refl _ _
    | ((with_reducible apply Keeps.step (codeComputed_keeps _ _ _ )); exact rfl)

theorem execTripOutHoldExpiry_keeps (x0) (x1 : State) : ∃ t, execTripOutHoldExpiry x0 x1 = .next t ∧ Keeps [.regs, .out, .pins] x1 t := by
  unfold execTripOutHoldExpiry
  refine ⟨_, rfl, ?_⟩
  try dsimp only
  repeat' first
    | ((with_reducible intro _ _); dsimp only)
    | ((with_reducible intro _); dsimp only)
    | (with_reducible intro _)
    | with_reducible exact Keeps.refl _ _
    | with_reducible assumption
    | ((with_reducible apply withOuts_keeps); exact rfl)
    | split
    | ((with_reducible apply Keeps.upd_pins); exact rfl)
    | (refine Keeps.of_parts ?_ rfl rfl rfl (fun h => h); intro p hp; cases p <;> first | rfl | exact absurd hp (by decide))

theorem releaseOuts_keeps (x0) (x1 : State) : Keeps [.regs, .logs, .out, .perf, .chain, .signing] x1 (releaseOuts x0 x1) := by
  unfold releaseOuts
  try dsimp only
  repeat' first
    | ((with_reducible intro _ _); dsimp only)
    | ((with_reducible intro _); dsimp only)
    | (with_reducible intro _)
    | with_reducible exact Keeps.refl _ _
    | with_reducible assumption
    | ((with_reducible apply withOuts_keeps); exact rfl)
    | ((with_reducible apply Keeps.step (State.clearBits_keeps _ _ _ )); exact rfl)
    | ((with_reducible apply Keeps.step (auditOperational_keeps _ _ _ )); exact rfl)
    | split

theorem execTripOutRelease_keeps (x0) (x1 : State) : ∃ t, execTripOutRelease x0 x1 = .next t ∧ Keeps [.regs, .host, .logs, .out, .perf, .chain, .signing, .power] x1 t := by
  unfold execTripOutRelease
  refine ⟨_, rfl, ?_⟩
  try dsimp only
  repeat' first
    | ((with_reducible intro _ _); dsimp only)
    | ((with_reducible intro _); dsimp only)
    | (with_reducible intro _)
    | with_reducible exact Keeps.refl _ _
    | with_reducible assumption
    | ((with_reducible apply Keeps.step (releaseOuts_keeps _ _ )); exact rfl)
    | ((with_reducible apply hostCommand_keeps); exact rfl)

theorem ssTripMessage_keeps (x0) (x1) (x2 : State) : Keeps [.regs, .logs, .out, .perf, .chain, .messages, .signing, .trips, .pins, .sides, .sram, .dma] x2 (ssTripMessage x0 x1 x2) := by
  unfold ssTripMessage
  try dsimp only
  repeat' first
    | ((with_reducible intro _ _); dsimp only)
    | ((with_reducible intro _); dsimp only)
    | (with_reducible intro _)
    | with_reducible exact Keeps.refl _ _
    | with_reducible assumption
    | ((with_reducible apply Keeps.step (State.addSat_keeps _ _ _ )); exact rfl)
    | ((with_reducible apply Keeps.step (acceptEffects_keeps _ _ )); exact rfl)
    | ((with_reducible apply Keeps.step (completeChangeover_keeps _ _ )); exact rfl)
    | ((with_reducible apply Keeps.step (switchRx_keeps _ _ )); exact rfl)
    | ((with_reducible apply Keeps.step (noteTrip_keeps _ _ _ )); exact rfl)
    | ((with_reducible apply Keeps.step (tripEvent_keeps _ _ _ )); exact rfl)
    | ((with_reducible apply Keeps.step (syncTrip_keeps _ _ )); exact rfl)
    | ((with_reducible apply Keeps.step (State.modTrip_keeps _ _ _ )); exact rfl)
    | ((with_reducible apply Keeps.step (ssEvent_keeps _ _ )); exact rfl)
    | ((with_reducible apply Keeps.step (wrongCode_keeps _ _ )); exact rfl)
    | with_reducible apply Keeps.foldl
    | with_reducible apply Keeps.foldl_fst
    | split

theorem execSideshowTripMessage_keeps (x0) (x1) (x2 : State) : ∃ t, execSideshowTripMessage x0 x1 x2 = .next t ∧ Keeps [.regs, .logs, .out, .perf, .chain, .messages, .signing, .trips, .pins, .sides, .sram, .dma] x2 t := by
  unfold execSideshowTripMessage
  refine ⟨_, rfl, ?_⟩
  try dsimp only
  repeat' first
    | ((with_reducible intro _ _); dsimp only)
    | ((with_reducible intro _); dsimp only)
    | (with_reducible intro _)
    | with_reducible exact Keeps.refl _ _
    | with_reducible assumption
    | ((with_reducible apply Keeps.step (ssTripMessage_keeps _ _ _ )); exact rfl)
    | ((with_reducible apply whileAwake_keeps); exact rfl)

theorem tripChecks_keeps (x0 : State) : Keeps [.regs, .host, .logs, .out, .perf] x0 (tripChecks x0) := by
  unfold tripChecks
  try dsimp only
  repeat' first
    | ((with_reducible intro _ _); dsimp only)
    | ((with_reducible intro _); dsimp only)
    | (with_reducible intro _)
    | with_reducible exact Keeps.refl _ _
    | with_reducible assumption
    | ((with_reducible apply Keeps.step (agree_keeps _ _ _ )); exact rfl)
    | with_reducible apply Keeps.foldl
    | with_reducible apply Keeps.foldl_fst
    | split

/-! ### Peers -/

theorem State.setPeer_keeps (x0 : State) (x1) (x2) : Keeps [.regs, .net] x0 (Sys2Proof.Machine.State.setPeer x0 x1 x2) := by
  unfold Sys2Proof.Machine.State.setPeer
  try dsimp only
  repeat' first
    | with_reducible exact Keeps.refl _ _
    | ((with_reducible apply Keeps.step (State.wr_keeps _ _ _ )); exact rfl)
    | ((with_reducible apply Keeps.step (State.modNet_keeps _ _ )); exact rfl)

theorem modPeer_keeps (x0) (x1) (x2 : State) : Keeps [.regs, .net] x2 (modPeer x0 x1 x2) := by
  unfold modPeer
  try dsimp only
  repeat' first
    | with_reducible exact Keeps.refl _ _
    | ((with_reducible apply Keeps.step (State.setPeer_keeps _ _ _ )); exact rfl)
    | split

theorem nbrEvent_keeps (x0) (x1 : State) : Keeps [.regs, .logs, .out, .perf] x1 (nbrEvent x0 x1) := by
  unfold nbrEvent
  try dsimp only
  repeat' first
    | with_reducible exact Keeps.refl _ _
    | ((with_reducible apply Keeps.step (ssEvent_keeps _ _ )); exact rfl)
    | split

theorem beaconReceived_keeps (x0) (x1) (x2 : State) : Keeps [.regs, .logs, .out, .perf, .net] x2 (beaconReceived x0 x1 x2) := by
  unfold beaconReceived
  try dsimp only
  repeat' first
    | ((with_reducible intro _ _); dsimp only)
    | ((with_reducible intro _); dsimp only)
    | (with_reducible intro _)
    | with_reducible exact Keeps.refl _ _
    | with_reducible assumption
    | ((with_reducible apply Keeps.step (nbrEvent_keeps _ _ )); exact rfl)
    | ((with_reducible apply Keeps.step (State.setPeer_keeps _ _ _ )); exact rfl)
    | with_reducible apply Keeps.foldl
    | with_reducible apply Keeps.foldl_fst
    | split

theorem execBeaconReceived_keeps (x0) (x1) (x2 : State) : ∃ t, execBeaconReceived x0 x1 x2 = .next t ∧ Keeps [.regs, .logs, .out, .perf, .net] x2 t := by
  unfold execBeaconReceived
  refine ⟨_, rfl, ?_⟩
  try dsimp only
  repeat' first
    | ((with_reducible intro _ _); dsimp only)
    | ((with_reducible intro _); dsimp only)
    | (with_reducible intro _)
    | with_reducible exact Keeps.refl _ _
    | with_reducible assumption
    | ((with_reducible apply Keeps.step (beaconReceived_keeps _ _ _ )); exact rfl)
    | ((with_reducible apply whileAwake_keeps); exact rfl)

theorem neighbourMissing_keeps (x0) (x1 : State) : Keeps [.regs, .logs, .out, .perf, .net] x1 (neighbourMissing x0 x1) := by
  unfold neighbourMissing
  try dsimp only
  repeat' first
    | with_reducible exact Keeps.refl _ _
    | ((with_reducible apply Keeps.step (nbrEvent_keeps _ _ )); exact rfl)
    | ((with_reducible apply Keeps.step (State.setPeer_keeps _ _ _ )); exact rfl)
    | split

theorem execNeighbourMissing_keeps (x0) (x1 : State) : ∃ t, execNeighbourMissing x0 x1 = .next t ∧ Keeps [.regs, .logs, .out, .perf, .net] x1 t := by
  unfold execNeighbourMissing
  refine ⟨_, rfl, ?_⟩
  try dsimp only
  repeat' first
    | with_reducible exact Keeps.refl _ _
    | ((with_reducible apply Keeps.step (neighbourMissing_keeps _ _ )); exact rfl)

theorem ctxSelWrite_keeps (x0) (x1 : State) : Keeps [.regs] x1 (ctxSelWrite x0 x1) := by
  unfold ctxSelWrite
  try dsimp only
  repeat' first
    | ((with_reducible intro _ _); dsimp only)
    | ((with_reducible intro _); dsimp only)
    | (with_reducible intro _)
    | with_reducible exact Keeps.refl _ _
    | with_reducible assumption
    | ((with_reducible apply Keeps.step (State.setWord_keeps _ _ _ )); exact rfl)
    | ((with_reducible apply Keeps.step (State.wr_keeps _ _ _ )); exact rfl)
    | with_reducible apply Keeps.foldl
    | with_reducible apply Keeps.foldl_fst
    | split

theorem execSsCtxSelWrite_keeps (x0) (x1 : State) : ∃ t, execSsCtxSelWrite x0 x1 = .next t ∧ Keeps [.regs, .host, .logs, .out, .perf, .power] x1 t := by
  unfold execSsCtxSelWrite
  refine ⟨_, rfl, ?_⟩
  try dsimp only
  repeat' first
    | ((with_reducible intro _ _); dsimp only)
    | ((with_reducible intro _); dsimp only)
    | (with_reducible intro _)
    | with_reducible exact Keeps.refl _ _
    | with_reducible assumption
    | ((with_reducible apply Keeps.step (ctxSelWrite_keeps _ _ )); exact rfl)
    | ((with_reducible apply hostCommand_keeps); exact rfl)

/-! ### Session -/

theorem State.setArm_keeps (x0 : State) (x1) (x2) : Keeps [.trust] x0 (Sys2Proof.Machine.State.setArm x0 x1 x2) := by
  unfold Sys2Proof.Machine.State.setArm
  try dsimp only
  repeat' first
    | with_reducible exact Keeps.refl _ _
    | ((with_reducible apply Keeps.step (State.modTrust_keeps _ _ )); exact rfl)

theorem sesStatus_keeps (x0) (x1) (x2) (x3 : State) : Keeps [.regs] x3 (sesStatus x0 x1 x2 x3) := by
  unfold sesStatus
  try dsimp only
  repeat' first
    | with_reducible exact Keeps.refl _ _
    | ((with_reducible apply Keeps.step (State.wrs_keeps _ _ )); exact rfl)

theorem sesErr_keeps (x0) (x1) (x2 : State) : Keeps [.regs] x2 (sesErr x0 x1 x2) := by
  unfold sesErr
  try dsimp only
  repeat' first
    | with_reducible exact Keeps.refl _ _
    | ((with_reducible apply Keeps.step (State.wr_keeps _ _ _ )); exact rfl)

theorem sendOffer_keeps (x0) (x1) (x2 : State) : Keeps [.regs, .signing, .trust] x2 (sendOffer x0 x1 x2) := by
  unfold sendOffer
  try dsimp only
  repeat' first
    | ((with_reducible intro _ _); dsimp only)
    | ((with_reducible intro _); dsimp only)
    | (with_reducible intro _)
    | with_reducible exact Keeps.refl _ _
    | with_reducible assumption
    | ((with_reducible apply Keeps.step (State.fresh_keeps _ )); exact rfl)
    | ((with_reducible apply Keeps.step (sesStatus_keeps _ _ _ _ )); exact rfl)
    | ((with_reducible apply Keeps.step (State.setArm_keeps _ _ _ )); exact rfl)
    | ((with_reducible apply Keeps.step (sesErr_keeps _ _ _ )); exact rfl)
    | ((with_reducible apply Keeps.step (signWith_keeps _ _ _ _ )); exact rfl)
    | with_reducible apply Keeps.foldl
    | with_reducible apply Keeps.foldl_fst
    | split

theorem armPort_keeps (x0) (x1) (x2) (x3 : State) : Keeps [.regs, .logs, .out, .perf, .signing, .trips, .net, .trust] x3 (armPort x0 x1 x2 x3) := by
  unfold armPort
  try dsimp only
  repeat' first
    | ((with_reducible intro _ _); dsimp only)
    | ((with_reducible intro _); dsimp only)
    | (with_reducible intro _)
    | with_reducible exact Keeps.refl _ _
    | with_reducible assumption
    | ((with_reducible apply Keeps.step (modPeer_keeps _ _ _ )); exact rfl)
    | ((with_reducible apply Keeps.step (State.setArm_keeps _ _ _ )); exact rfl)
    | ((with_reducible apply Keeps.step (changeTrip_keeps _ _ _ )); exact rfl)
    | ((with_reducible apply Keeps.step (sendOffer_keeps _ _ _ )); exact rfl)
    | ((with_reducible apply Keeps.step (State.wrs_keeps _ _ )); exact rfl)
    | ((with_reducible apply Keeps.step (State.modNet_keeps _ _ )); exact rfl)
    | with_reducible apply Keeps.foldl
    | with_reducible apply Keeps.foldl_fst
    | split

theorem abandonArm_keeps (x0) (x1 : State) : Keeps [.regs, .logs, .out, .perf, .trips, .trust] x1 (abandonArm x0 x1) := by
  unfold abandonArm
  try dsimp only
  repeat' first
    | with_reducible exact Keeps.refl _ _
    | ((with_reducible apply Keeps.step (changeTrip_keeps _ _ _ )); exact rfl)
    | ((with_reducible apply Keeps.step (State.modTrust_keeps _ _ )); exact rfl)
    | ((with_reducible apply Keeps.step (State.wrs_keeps _ _ )); exact rfl)

theorem strayStep_keeps (x0 : State) : Keeps [.regs, .logs, .out, .perf] x0 (strayStep x0) := by
  unfold strayStep
  try dsimp only
  repeat' first
    | with_reducible exact Keeps.refl _ _
    | ((with_reducible apply Keeps.step (ssEvent_keeps _ _ )); exact rfl)

theorem failedStep_keeps (x0) (x1) (x2 : State) : Keeps [.regs, .logs, .out, .perf] x2 (failedStep x0 x1 x2) := by
  unfold failedStep
  try dsimp only
  repeat' first
    | with_reducible exact Keeps.refl _ _
    | ((with_reducible apply Keeps.step (strayStep_keeps _ )); exact rfl)
    | ((with_reducible apply Keeps.step (sesErr_keeps _ _ _ )); exact rfl)

theorem holdKey_keeps (x0) (x1) (x2) (x3) (x4 : State) : Keeps [.regs, .trips] x4 (holdKey x0 x1 x2 x3 x4) := by
  unfold holdKey
  try dsimp only
  repeat' first
    | with_reducible exact Keeps.refl _ _
    | ((with_reducible apply Keeps.step (syncTrip_keeps _ _ )); exact rfl)
    | ((with_reducible apply Keeps.step (State.modTrip_keeps _ _ _ )); exact rfl)

theorem learnIdentity_keeps (x0) (x1 : State) : Keeps [.regs, .net] x1 (learnIdentity x0 x1) := by
  unfold learnIdentity
  try dsimp only
  repeat' first
    | with_reducible exact Keeps.refl _ _
    | ((with_reducible apply Keeps.step (modPeer_keeps _ _ _ )); exact rfl)

theorem switchTx_keeps (x0) (x1 : State) : Keeps [.regs, .logs, .out, .perf, .chain, .signing, .trips] x1 (switchTx x0 x1) := by
  unfold switchTx
  try dsimp only
  repeat' first
    | with_reducible exact Keeps.refl _ _
    | ((with_reducible apply Keeps.step (sesStatus_keeps _ _ _ _ )); exact rfl)
    | ((with_reducible apply Keeps.step (completeChangeover_keeps _ _ )); exact rfl)
    | ((with_reducible apply Keeps.step (syncTrip_keeps _ _ )); exact rfl)
    | ((with_reducible apply Keeps.step (State.modTrip_keeps _ _ _ )); exact rfl)
    | split

theorem offerReceived_keeps (x0) (x1) (x2 : State) : Keeps [.regs, .logs, .out, .perf, .signing, .trips, .net, .trust] x2 (offerReceived x0 x1 x2) := by
  unfold offerReceived
  try dsimp only
  repeat' first
    | ((with_reducible intro _ _); dsimp only)
    | ((with_reducible intro _); dsimp only)
    | (with_reducible intro _)
    | with_reducible exact Keeps.refl _ _
    | with_reducible assumption
    | ((with_reducible apply Keeps.step (State.fresh_keeps _ )); exact rfl)
    | ((with_reducible apply Keeps.step (sesStatus_keeps _ _ _ _ )); exact rfl)
    | ((with_reducible apply Keeps.step (learnIdentity_keeps _ _ )); exact rfl)
    | ((with_reducible apply Keeps.step (failedStep_keeps _ _ _ )); exact rfl)
    | ((with_reducible apply Keeps.step (State.setArm_keeps _ _ _ )); exact rfl)
    | ((with_reducible apply Keeps.step (holdKey_keeps _ _ _ _ _ )); exact rfl)
    | ((with_reducible apply Keeps.step (strayStep_keeps _ )); exact rfl)
    | ((with_reducible apply Keeps.step (signWith_keeps _ _ _ _ )); exact rfl)
    | with_reducible apply Keeps.foldl
    | with_reducible apply Keeps.foldl_fst
    | split

theorem acceptReceived_keeps (x0) (x1) (x2 : State) : Keeps [.regs, .logs, .out, .perf, .signing, .trips, .net, .trust] x2 (acceptReceived x0 x1 x2) := by
  unfold acceptReceived
  try dsimp only
  repeat' first
    | ((with_reducible intro _ _); dsimp only)
    | ((with_reducible intro _); dsimp only)
    | (with_reducible intro _)
    | with_reducible exact Keeps.refl _ _
    | with_reducible assumption
    | ((with_reducible apply Keeps.step (sesStatus_keeps _ _ _ _ )); exact rfl)
    | ((with_reducible apply Keeps.step (learnIdentity_keeps _ _ )); exact rfl)
    | ((with_reducible apply Keeps.step (failedStep_keeps _ _ _ )); exact rfl)
    | ((with_reducible apply Keeps.step (State.setArm_keeps _ _ _ )); exact rfl)
    | ((with_reducible apply Keeps.step (holdKey_keeps _ _ _ _ _ )); exact rfl)
    | ((with_reducible apply Keeps.step (strayStep_keeps _ )); exact rfl)
    | ((with_reducible apply Keeps.step (sesErr_keeps _ _ _ )); exact rfl)
    | ((with_reducible apply Keeps.step (signWith_keeps _ _ _ _ )); exact rfl)
    | with_reducible apply Keeps.foldl
    | with_reducible apply Keeps.foldl_fst
    | split

theorem confirmReceived_keeps (x0) (x1) (x2 : State) : Keeps [.regs, .logs, .out, .perf, .chain, .messages, .signing, .trips, .sram, .dma] x2 (confirmReceived x0 x1 x2) := by
  unfold confirmReceived
  try dsimp only
  repeat' first
    | ((with_reducible intro _ _); dsimp only)
    | ((with_reducible intro _); dsimp only)
    | (with_reducible intro _)
    | with_reducible exact Keeps.refl _ _
    | with_reducible assumption
    | ((with_reducible apply Keeps.step (failedStep_keeps _ _ _ )); exact rfl)
    | ((with_reducible apply Keeps.step (strayStep_keeps _ )); exact rfl)
    | ((with_reducible apply Keeps.step (switchTx_keeps _ _ )); exact rfl)
    | ((with_reducible apply Keeps.step (sendMessage_keeps _ _ )); exact rfl)
    | with_reducible apply Keeps.foldl
    | with_reducible apply Keeps.foldl_fst
    | split

theorem readyReceived_keeps (x0) (x1) (x2 : State) : Keeps [.regs, .logs, .out, .perf, .chain, .signing, .trips] x2 (readyReceived x0 x1 x2) := by
  unfold readyReceived
  try dsimp only
  repeat' first
    | ((with_reducible intro _ _); dsimp only)
    | ((with_reducible intro _); dsimp only)
    | (with_reducible intro _)
    | with_reducible exact Keeps.refl _ _
    | with_reducible assumption
    | ((with_reducible apply Keeps.step (failedStep_keeps _ _ _ )); exact rfl)
    | ((with_reducible apply Keeps.step (strayStep_keeps _ )); exact rfl)
    | ((with_reducible apply Keeps.step (switchTx_keeps _ _ )); exact rfl)
    | with_reducible apply Keeps.foldl
    | with_reducible apply Keeps.foldl_fst
    | split

theorem sessionMessage_keeps (x0) (x1) (x2 : State) : Keeps [.regs, .logs, .out, .perf, .chain, .messages, .signing, .trips, .sram, .dma, .net, .trust] x2 (sessionMessage x0 x1 x2) := by
  unfold sessionMessage
  try dsimp only
  repeat' first
    | ((with_reducible intro _ _); dsimp only)
    | ((with_reducible intro _); dsimp only)
    | (with_reducible intro _)
    | with_reducible exact Keeps.refl _ _
    | with_reducible assumption
    | ((with_reducible apply Keeps.step (acceptReceived_keeps _ _ _ )); exact rfl)
    | ((with_reducible apply Keeps.step (strayStep_keeps _ )); exact rfl)
    | ((with_reducible apply Keeps.step (readyReceived_keeps _ _ _ )); exact rfl)
    | ((with_reducible apply Keeps.step (confirmReceived_keeps _ _ _ )); exact rfl)
    | ((with_reducible apply Keeps.step (offerReceived_keeps _ _ _ )); exact rfl)
    | with_reducible apply Keeps.foldl
    | with_reducible apply Keeps.foldl_fst
    | split

theorem execSessionOffer_keeps (x0) (x1) (x2 : State) : ∃ t, execSessionOffer x0 x1 x2 = .next t ∧ Keeps [.regs, .logs, .out, .perf, .signing, .trips, .net, .trust] x2 t := by
  unfold execSessionOffer
  refine ⟨_, rfl, ?_⟩
  try dsimp only
  repeat' first
    | ((with_reducible intro _ _); dsimp only)
    | ((with_reducible intro _); dsimp only)
    | (with_reducible intro _)
    | with_reducible exact Keeps.refl _ _
    | with_reducible assumption
    | ((with_reducible apply whileAwake_keeps); exact rfl)
    | ((with_reducible apply Keeps.step (offerReceived_keeps _ _ _ )); exact rfl)

theorem execSessionAccept_keeps (x0) (x1) (x2 : State) : ∃ t, execSessionAccept x0 x1 x2 = .next t ∧ Keeps [.regs, .logs, .out, .perf, .signing, .trips, .net, .trust] x2 t := by
  unfold execSessionAccept
  refine ⟨_, rfl, ?_⟩
  try dsimp only
  repeat' first
    | ((with_reducible intro _ _); dsimp only)
    | ((with_reducible intro _); dsimp only)
    | (with_reducible intro _)
    | with_reducible exact Keeps.refl _ _
    | with_reducible assumption
    | ((with_reducible apply Keeps.step (acceptReceived_keeps _ _ _ )); exact rfl)
    | ((with_reducible apply whileAwake_keeps); exact rfl)

theorem execSessionConfirm_keeps (x0) (x1) (x2 : State) : ∃ t, execSessionConfirm x0 x1 x2 = .next t ∧ Keeps [.regs, .logs, .out, .perf, .chain, .messages, .signing, .trips, .sram, .dma] x2 t := by
  unfold execSessionConfirm
  refine ⟨_, rfl, ?_⟩
  try dsimp only
  repeat' first
    | ((with_reducible intro _ _); dsimp only)
    | ((with_reducible intro _); dsimp only)
    | (with_reducible intro _)
    | with_reducible exact Keeps.refl _ _
    | with_reducible assumption
    | ((with_reducible apply whileAwake_keeps); exact rfl)
    | ((with_reducible apply Keeps.step (confirmReceived_keeps _ _ _ )); exact rfl)

theorem execSessionReady_keeps (x0) (x1) (x2 : State) : ∃ t, execSessionReady x0 x1 x2 = .next t ∧ Keeps [.regs, .logs, .out, .perf, .chain, .signing, .trips] x2 t := by
  unfold execSessionReady
  refine ⟨_, rfl, ?_⟩
  try dsimp only
  repeat' first
    | ((with_reducible intro _ _); dsimp only)
    | ((with_reducible intro _); dsimp only)
    | (with_reducible intro _)
    | with_reducible exact Keeps.refl _ _
    | with_reducible assumption
    | ((with_reducible apply whileAwake_keeps); exact rfl)
    | ((with_reducible apply Keeps.step (readyReceived_keeps _ _ _ )); exact rfl)

theorem execOfferRetryTimer_keeps (x0) (x1 : State) : ∃ t, execOfferRetryTimer x0 x1 = .next t ∧ Keeps [.regs, .signing, .trust] x1 t := by
  unfold execOfferRetryTimer
  refine ⟨_, rfl, ?_⟩
  try dsimp only
  repeat' first
    | ((with_reducible intro _ _); dsimp only)
    | ((with_reducible intro _); dsimp only)
    | (with_reducible intro _)
    | with_reducible exact Keeps.refl _ _
    | with_reducible assumption
    | ((with_reducible apply Keeps.step (sendOffer_keeps _ _ _ )); exact rfl)
    | with_reducible apply Keeps.foldl
    | with_reducible apply Keeps.foldl_fst
    | split

theorem execSessionEstablishTimeout_keeps (x0) (x1 : State) : ∃ t, execSessionEstablishTimeout x0 x1 = .next t ∧ Keeps [.regs, .logs, .out, .perf, .trips, .trust] x1 t := by
  unfold execSessionEstablishTimeout
  refine ⟨_, rfl, ?_⟩
  try dsimp only
  repeat' first
    | with_reducible exact Keeps.refl _ _
    | ((with_reducible apply Keeps.step (abandonArm_keeps _ _ )); exact rfl)
    | ((with_reducible apply Keeps.step (sesErr_keeps _ _ _ )); exact rfl)
    | split

end Sys2Proof.Machine
end

