-- ==== Sys2Proof/Laws/KeepsLinks.lean ====
section
/-! SUPPORT. The parts each operation can change, and that it keeps a canonical state canonical: loading, links, low power, host lanes. -/

set_option linter.unusedTactic false
set_option linter.unreachableTactic false

namespace Sys2Proof.Machine

/-! ### Loading -/

theorem applyLoading_keeps (x0) (x1) (x2) (x3 : State) : Keeps [.regs, .reach] x3 (applyLoading x0 x1 x2 x3) := by
  unfold applyLoading
  try dsimp only
  repeat' first
    | ((with_reducible intro _ _); dsimp only)
    | ((with_reducible intro _); dsimp only)
    | (with_reducible intro _)
    | with_reducible exact Keeps.refl _ _
    | with_reducible assumption
    | ((with_reducible apply Keeps.step (State.wrs_keeps _ _ )); exact rfl)
    | ((with_reducible apply Keeps.step (State.modRch_keeps _ _ _ )); exact rfl)
    | with_reducible apply Keeps.foldl
    | with_reducible apply Keeps.foldl_fst

theorem clearReach_keeps (x0) (x1 : State) : Keeps [.regs, .reach] x1 (clearReach x0 x1) := by
  unfold clearReach
  try dsimp only
  repeat' first
    | ((with_reducible intro _ _); dsimp only)
    | ((with_reducible intro _); dsimp only)
    | (with_reducible intro _)
    | with_reducible exact Keeps.refl _ _
    | with_reducible assumption
    | ((with_reducible apply Keeps.step (State.setWord_keeps _ _ _ )); exact rfl)
    | ((with_reducible apply Keeps.step (State.wr_keeps _ _ _ )); exact rfl)
    | ((with_reducible apply Keeps.step (State.modRch_keeps _ _ _ )); exact rfl)
    | with_reducible apply Keeps.foldl
    | with_reducible apply Keeps.foldl_fst

theorem loadPort_keeps {n : Nat} {x : List (Fin 4 × Fin 4096 × Int)} {s t : State} (h : loadPort n x s = some t) :
    Keeps [.regs, .reach] s t := by
  unfold loadPort at h
  dsimp only at h
  split at h
  · cases h
  · have e := Option.some.inj h
    subst e
    exact (applyLoading_keeps _ _ _ _).mono rfl

/-! ### Link -/

theorem writeTest_keeps (x0) (x1) (x2) (x3 : State) : Keeps [.regs, .logs, .out, .perf] x3 (writeTest x0 x1 x2 x3) := by
  unfold writeTest
  try dsimp only
  repeat' first
    | ((with_reducible intro _ _); dsimp only)
    | ((with_reducible intro _); dsimp only)
    | (with_reducible intro _)
    | with_reducible exact Keeps.refl _ _
    | with_reducible assumption
    | ((with_reducible apply Keeps.step (State.setWord_keeps _ _ _ )); exact rfl)
    | ((with_reducible apply Keeps.step (State.wr_keeps _ _ _ )); exact rfl)
    | ((with_reducible apply Keeps.step (causeAlarm_keeps _ _ _ _ )); exact rfl)
    | ((with_reducible apply Keeps.step (setPend_keeps _ _ )); exact rfl)
    | ((with_reducible apply Keeps.step (trace_keeps _ _ _ _ )); exact rfl)
    | ((with_reducible apply Keeps.step (State.addWrap_keeps _ _ _ )); exact rfl)
    | ((with_reducible apply Keeps.step (State.orWord_keeps _ _ _ )); exact rfl)
    | ((with_reducible apply Keeps.step (State.wrs_keeps _ _ )); exact rfl)
    | with_reducible apply Keeps.foldl
    | with_reducible apply Keeps.foldl_fst
    | split

theorem syncTestBit_keeps (x0) (x1 : State) : Keeps [.regs, .host] x1 (syncTestBit x0 x1) := by
  unfold syncTestBit
  try dsimp only
  repeat' first
    | with_reducible exact Keeps.refl _ _
    | ((with_reducible apply Keeps.step (State.setWc_keeps _ _ _ )); exact rfl)
    | ((with_reducible apply Keeps.step (State.wr_keeps _ _ _ )); exact rfl)

theorem answerTest_keeps (x0) (x1) (x2 : State) : Keeps [.messages, .signing, .sram, .dma] x2 (answerTest x0 x1 x2) := by
  unfold answerTest
  try dsimp only
  repeat' first
    | ((with_reducible intro _ _); dsimp only)
    | ((with_reducible intro _); dsimp only)
    | (with_reducible intro _)
    | with_reducible exact Keeps.refl _ _
    | with_reducible assumption
    | ((with_reducible apply Keeps.step (sendReply_keeps _ _ _ _ )); exact rfl)
    | with_reducible apply Keeps.foldl
    | with_reducible apply Keeps.foldl_fst
    | split

theorem refuseTest_keeps (x0) (x1) (x2 : State) : Keeps [.regs, .messages, .signing, .sram, .dma] x2 (refuseTest x0 x1 x2) := by
  unfold refuseTest
  try dsimp only
  repeat' first
    | with_reducible exact Keeps.refl _ _
    | ((with_reducible apply Keeps.step (State.wr_keeps _ _ _ )); exact rfl)
    | ((with_reducible apply Keeps.step (answerTest_keeps _ _ _ )); exact rfl)

theorem refuseTests_keeps (x0) (x1 : State) : Keeps [.regs, .host, .messages, .signing, .links, .sram, .dma] x1 (refuseTests x0 x1) := by
  unfold refuseTests
  try dsimp only
  repeat' first
    | ((with_reducible intro _ _); dsimp only)
    | ((with_reducible intro _); dsimp only)
    | (with_reducible intro _)
    | with_reducible exact Keeps.refl _ _
    | with_reducible assumption
    | ((with_reducible apply Keeps.step (State.modLink_keeps _ _ _ )); exact rfl)
    | ((with_reducible apply Keeps.step (refuseTest_keeps _ _ _ )); exact rfl)
    | ((with_reducible apply Keeps.step (syncTestBit_keeps _ _ )); exact rfl)
    | with_reducible apply Keeps.foldl
    | with_reducible apply Keeps.foldl_fst

theorem closeTest_keeps (x0) (x1) (x2) (x3 : State) : Keeps [.regs, .host, .logs, .out, .perf, .messages, .signing, .links, .sram, .dma] x3 (closeTest x0 x1 x2 x3) := by
  unfold closeTest
  try dsimp only
  repeat' first
    | with_reducible exact Keeps.refl _ _
    | ((with_reducible apply Keeps.step (writeTest_keeps _ _ _ _ )); exact rfl)
    | ((with_reducible apply Keeps.step (State.modLink_keeps _ _ _ )); exact rfl)
    | ((with_reducible apply Keeps.step (answerTest_keeps _ _ _ )); exact rfl)
    | ((with_reducible apply Keeps.step (syncTestBit_keeps _ _ )); exact rfl)
    | split

theorem sendProbe_keeps (x0) (x1 : State) : Keeps [.messages, .sram, .dma] x1 (sendProbe x0 x1) := by
  unfold sendProbe
  try dsimp only
  repeat' first
    | with_reducible exact Keeps.refl _ _
    | ((with_reducible apply Keeps.step (sendMessage_keeps _ _ )); exact rfl)

theorem enter_keeps (x0) (x1) (x2 : State) : Keeps [.regs, .host, .logs, .out, .perf, .messages, .signing, .links, .sram, .dma] x2 (enter x0 x1 x2) := by
  unfold enter
  try dsimp only
  repeat' first
    | ((with_reducible intro _ _); dsimp only)
    | ((with_reducible intro _); dsimp only)
    | (with_reducible intro _)
    | with_reducible exact Keeps.refl _ _
    | with_reducible assumption
    | ((with_reducible apply Keeps.step (State.modLink_keeps _ _ _ )); exact rfl)
    | ((with_reducible apply Keeps.step (refuseTests_keeps _ _ )); exact rfl)
    | ((with_reducible apply Keeps.step (State.wr_keeps _ _ _ )); exact rfl)
    | ((with_reducible apply Keeps.step (sendProbe_keeps _ _ )); exact rfl)
    | ((with_reducible apply Keeps.step (closeTest_keeps _ _ _ _ )); exact rfl)
    | ((with_reducible apply Keeps.step (State.wrs_keeps _ _ )); exact rfl)
    | with_reducible apply Keeps.foldl
    | with_reducible apply Keeps.foldl_fst
    | split

theorem countLpi_keeps (x0) (x1 : State) : Keeps [.regs, .lpi] x1 (countLpi x0 x1) := by
  unfold countLpi
  try dsimp only
  repeat' first
    | with_reducible exact Keeps.refl _ _
    | ((with_reducible apply Keeps.step (State.addPair_keeps _ _ _ _ )); exact rfl)
    | ((with_reducible apply Keeps.step (State.setIdle_keeps _ _ _ )); exact rfl)
    | split

theorem stopCount_keeps (x0) (x1 : State) : Keeps [.regs, .lpi] x1 (stopCount x0 x1) := by
  unfold stopCount
  try dsimp only
  repeat' first
    | with_reducible exact Keeps.refl _ _
    | ((with_reducible apply Keeps.step (State.setIdle_keeps _ _ _ )); exact rfl)
    | ((with_reducible apply Keeps.step (countLpi_keeps _ _ )); exact rfl)

theorem endLpi_keeps (x0) (x1 : State) : Keeps [.regs, .links, .lpi] x1 (endLpi x0 x1) := by
  unfold endLpi
  try dsimp only
  repeat' first
    | with_reducible exact Keeps.refl _ _
    | ((with_reducible apply Keeps.step (State.modLink_keeps _ _ _ )); exact rfl)
    | ((with_reducible apply Keeps.step (State.setIdle_keeps _ _ _ )); exact rfl)
    | ((with_reducible apply Keeps.step (stopCount_keeps _ _ )); exact rfl)
    | ((with_reducible apply Keeps.step (State.wrs_keeps _ _ )); exact rfl)

theorem linkDown_keeps (x0) (x1) (x2 : State) : Keeps [.regs, .host, .logs, .out, .perf, .messages, .signing, .links, .trips, .pool, .reach, .lpi, .mons, .sram, .dma] x2 (linkDown x0 x1 x2) := by
  unfold linkDown
  try dsimp only
  repeat' first
    | ((with_reducible intro _ _); dsimp only)
    | ((with_reducible intro _); dsimp only)
    | (with_reducible intro _)
    | with_reducible exact Keeps.refl _ _
    | with_reducible assumption
    | ((with_reducible apply Keeps.step (State.modLink_keeps _ _ _ )); exact rfl)
    | ((with_reducible apply Keeps.step (State.modMon_keeps _ _ _ )); exact rfl)
    | ((with_reducible apply Keeps.step (State.setWc_keeps _ _ _ )); exact rfl)
    | ((with_reducible apply Keeps.step (State.addSat_keeps _ _ _ )); exact rfl)
    | ((with_reducible apply Keeps.step (enter_keeps _ _ _ )); exact rfl)
    | ((with_reducible apply Keeps.step (State.setWord_keeps _ _ _ )); exact rfl)
    | ((with_reducible apply Keeps.step (leaveTripData_keeps _ _ )); exact rfl)
    | ((with_reducible apply Keeps.step (linkEvent_keeps _ _ )); exact rfl)
    | ((with_reducible apply Keeps.step (endLpi_keeps _ _ )); exact rfl)
    | ((with_reducible apply Keeps.step (refreshPool_keeps _ )); exact rfl)
    | ((with_reducible apply Keeps.step (clearReach_keeps _ _ )); exact rfl)
    | ((with_reducible apply Keeps.step (State.wrs_keeps _ _ )); exact rfl)
    | with_reducible apply Keeps.foldl
    | with_reducible apply Keeps.foldl_fst
    | split
    | ((with_reducible apply Keeps.upd_host); exact rfl)
    | (refine Keeps.of_parts ?_ rfl rfl rfl (fun h => h); intro p hp; cases p <;> first | rfl | exact absurd hp (by decide))

theorem lastFail_keeps (x0) (x1) (x2 : State) : Keeps [.regs] x2 (lastFail x0 x1 x2) := by
  unfold lastFail
  try dsimp only
  repeat' first
    | with_reducible exact Keeps.refl _ _
    | ((with_reducible apply Keeps.step (State.wr_keeps _ _ _ )); exact rfl)

theorem fullRetrain_keeps (x0) (x1 : State) : Keeps [.regs, .host, .logs, .out, .perf, .messages, .signing, .links, .trips, .pool, .reach, .lpi, .mons, .sram, .dma] x1 (fullRetrain x0 x1) := by
  unfold fullRetrain
  try dsimp only
  repeat' first
    | with_reducible exact Keeps.refl _ _
    | ((with_reducible apply Keeps.step (lastFail_keeps _ _ _ )); exact rfl)
    | ((with_reducible apply Keeps.step (linkDown_keeps _ _ _ )); exact rfl)

theorem saveAdv_keeps (x0) (x1 : State) : Keeps [.regs] x1 (saveAdv x0 x1) := by
  unfold saveAdv
  try dsimp only
  repeat' first
    | ((with_reducible intro _ _); dsimp only)
    | ((with_reducible intro _); dsimp only)
    | (with_reducible intro _)
    | with_reducible exact Keeps.refl _ _
    | with_reducible assumption
    | ((with_reducible apply Keeps.step (State.wrs_keeps _ _ )); exact rfl)
    | with_reducible apply Keeps.foldl
    | with_reducible apply Keeps.foldl_fst
    | split

theorem downshift_keeps (x0) (x1 : State) : Keeps [.regs, .host, .logs, .out, .perf] x1 (downshift x0 x1).1 := by
  unfold downshift
  try dsimp only
  repeat' first
    | ((with_reducible intro _ _); dsimp only)
    | ((with_reducible intro _); dsimp only)
    | (with_reducible intro _)
    | with_reducible exact Keeps.refl _ _
    | with_reducible assumption
    | ((with_reducible apply Keeps.step (hwSet_keeps _ _ _ )); exact rfl)
    | ((with_reducible apply Keeps.step (saveAdv_keeps _ _ )); exact rfl)
    | ((with_reducible apply Keeps.step (State.wr_keeps _ _ _ )); exact rfl)
    | with_reducible apply Keeps.foldl
    | with_reducible apply Keeps.foldl_fst
    | split

theorem failTraining_keeps (x0) (x1) (x2 : State) : Keeps [.regs, .host, .logs, .out, .perf, .messages, .signing, .links, .pool, .reach, .sram, .dma] x2 (failTraining x0 x1 x2) := by
  unfold failTraining
  try dsimp only
  repeat' first
    | ((with_reducible intro _ _); dsimp only)
    | ((with_reducible intro _); dsimp only)
    | (with_reducible intro _)
    | with_reducible exact Keeps.refl _ _
    | with_reducible assumption
    | ((with_reducible apply Keeps.step (lastFail_keeps _ _ _ )); exact rfl)
    | ((with_reducible apply Keeps.step (State.addSat_keeps _ _ _ )); exact rfl)
    | ((with_reducible apply Keeps.step (enter_keeps _ _ _ )); exact rfl)
    | ((with_reducible apply Keeps.step (trainFailEvent_keeps _ _ )); exact rfl)
    | ((with_reducible apply Keeps.step (downshift_keeps _ _ )); exact rfl)
    | ((with_reducible apply Keeps.step (refreshPool_keeps _ )); exact rfl)
    | ((with_reducible apply Keeps.step (clearReach_keeps _ _ )); exact rfl)
    | with_reducible apply Keeps.foldl
    | with_reducible apply Keeps.foldl_fst
    | split

theorem restoreAdv_keeps (x0) (x1 : State) : Keeps [.regs, .host, .logs, .out, .perf] x1 (restoreAdv x0 x1) := by
  unfold restoreAdv
  try dsimp only
  repeat' first
    | ((with_reducible intro _ _); dsimp only)
    | ((with_reducible intro _); dsimp only)
    | (with_reducible intro _)
    | with_reducible exact Keeps.refl _ _
    | with_reducible assumption
    | ((with_reducible apply Keeps.step (hwSet_keeps _ _ _ )); exact rfl)
    | ((with_reducible apply Keeps.step (State.wr_keeps _ _ _ )); exact rfl)
    | with_reducible apply Keeps.foldl
    | with_reducible apply Keeps.foldl_fst
    | split

theorem startPages_keeps (x0) (x1 : State) : Keeps [.regs, .host, .logs, .out, .perf, .messages, .signing, .links, .sram, .dma] x1 (startPages x0 x1) := by
  unfold startPages
  try dsimp only
  repeat' first
    | ((with_reducible intro _ _); dsimp only)
    | ((with_reducible intro _); dsimp only)
    | (with_reducible intro _)
    | with_reducible exact Keeps.refl _ _
    | with_reducible assumption
    | ((with_reducible apply Keeps.step (State.modLink_keeps _ _ _ )); exact rfl)
    | ((with_reducible apply Keeps.step (enter_keeps _ _ _ )); exact rfl)
    | ((with_reducible apply Keeps.step (State.setWord_keeps _ _ _ )); exact rfl)
    | with_reducible apply Keeps.foldl
    | with_reducible apply Keeps.foldl_fst

theorem startTraining_keeps (x0) (x1) (x2) (x3 : State) : Keeps [.regs, .host, .logs, .out, .perf, .messages, .signing, .links, .sram, .dma] x3 (startTraining x0 x1 x2 x3) := by
  unfold startTraining
  try dsimp only
  repeat' first
    | with_reducible exact Keeps.refl _ _
    | ((with_reducible apply Keeps.step (State.modLink_keeps _ _ _ )); exact rfl)
    | ((with_reducible apply Keeps.step (enter_keeps _ _ _ )); exact rfl)
    | ((with_reducible apply Keeps.step (State.wr_keeps _ _ _ )); exact rfl)
    | split

theorem failExchange_keeps (x0) (x1) (x2 : State) : Keeps [.regs, .host, .logs, .out, .perf, .messages, .signing, .links, .sram, .dma] x2 (failExchange x0 x1 x2) := by
  unfold failExchange
  try dsimp only
  repeat' first
    | with_reducible exact Keeps.refl _ _
    | ((with_reducible apply Keeps.step (lastFail_keeps _ _ _ )); exact rfl)
    | ((with_reducible apply Keeps.step (State.modLink_keeps _ _ _ )); exact rfl)
    | ((with_reducible apply Keeps.step (enter_keeps _ _ _ )); exact rfl)
    | ((with_reducible apply Keeps.step (trainFailEvent_keeps _ _ )); exact rfl)

theorem chosen_keeps (x0) (x1) (x2) (x3) (x4 : State) : Keeps [.regs, .host, .logs, .out, .perf, .messages, .signing, .links, .sram, .dma] x4 (chosen x0 x1 x2 x3 x4) := by
  unfold chosen
  try dsimp only
  repeat' first
    | ((with_reducible intro _ _); dsimp only)
    | ((with_reducible intro _); dsimp only)
    | (with_reducible intro _)
    | with_reducible exact Keeps.refl _ _
    | with_reducible assumption
    | ((with_reducible apply Keeps.step (State.modLink_keeps _ _ _ )); exact rfl)
    | ((with_reducible apply Keeps.step (failExchange_keeps _ _ _ )); exact rfl)
    | ((with_reducible apply Keeps.step (State.wr_keeps _ _ _ )); exact rfl)
    | ((with_reducible apply Keeps.step (startTraining_keeps _ _ _ _ )); exact rfl)
    | with_reducible apply Keeps.foldl
    | with_reducible apply Keeps.foldl_fst
    | split

theorem resolve_keeps (x0) (x1) (x2 : State) : Keeps [.regs, .host, .logs, .out, .perf, .messages, .signing, .links, .sram, .dma] x2 (resolve x0 x1 x2) := by
  unfold resolve
  try dsimp only
  repeat' first
    | ((with_reducible intro _ _); dsimp only)
    | ((with_reducible intro _); dsimp only)
    | (with_reducible intro _)
    | with_reducible exact Keeps.refl _ _
    | with_reducible assumption
    | ((with_reducible apply Keeps.step (lastFail_keeps _ _ _ )); exact rfl)
    | ((with_reducible apply Keeps.step (failExchange_keeps _ _ _ )); exact rfl)
    | ((with_reducible apply Keeps.step (enter_keeps _ _ _ )); exact rfl)
    | ((with_reducible apply Keeps.step (State.setWord_keeps _ _ _ )); exact rfl)
    | ((with_reducible apply Keeps.step (chosen_keeps _ _ _ _ _ )); exact rfl)
    | ((with_reducible apply Keeps.step (State.wrs_keeps _ _ )); exact rfl)
    | with_reducible apply Keeps.foldl
    | with_reducible apply Keeps.foldl_fst
    | split

theorem applyPhase_keeps (x0) (x1) (x2 : State) : Keeps [.regs, .coefs] x2 (applyPhase x0 x1 x2) := by
  unfold applyPhase
  try dsimp only
  repeat' first
    | ((with_reducible intro _ _); dsimp only)
    | ((with_reducible intro _); dsimp only)
    | (with_reducible intro _)
    | with_reducible exact Keeps.refl _ _
    | with_reducible assumption
    | ((with_reducible apply Keeps.step (State.wr_keeps _ _ _ )); exact rfl)
    | ((with_reducible apply Keeps.step (State.setCoef_keeps _ _ _ )); exact rfl)
    | ((with_reducible apply Keeps.step (State.wrs_keeps _ _ )); exact rfl)
    | with_reducible apply Keeps.foldl
    | with_reducible apply Keeps.foldl_fst
    | split

theorem startFrames_keeps (x0) (x1 : State) : Keeps [.trips] x1 (startFrames x0 x1) := by
  unfold startFrames
  try dsimp only
  repeat' first
    | with_reducible exact Keeps.refl _ _
    | ((with_reducible apply Keeps.step (State.modTrip_keeps _ _ _ )); exact rfl)

theorem writeQual_keeps (x0) (x1) (x2 : State) : Keeps [.regs] x2 (writeQual x0 x1 x2) := by
  unfold writeQual
  try dsimp only
  repeat' first
    | ((with_reducible intro _ _); dsimp only)
    | ((with_reducible intro _); dsimp only)
    | (with_reducible intro _)
    | with_reducible exact Keeps.refl _ _
    | with_reducible assumption
    | ((with_reducible apply Keeps.step (State.setWord_keeps _ _ _ )); exact rfl)
    | with_reducible apply Keeps.foldl
    | with_reducible apply Keeps.foldl_fst
    | split

theorem reachPhase_keeps (x0) (x1) (x2 : State) : Keeps [.regs, .links] x2 (reachPhase x0 x1 x2) := by
  unfold reachPhase
  try dsimp only
  repeat' first
    | with_reducible exact Keeps.refl _ _
    | ((with_reducible apply Keeps.step (State.modLink_keeps _ _ _ )); exact rfl)
    | ((with_reducible apply Keeps.step (State.wr_keeps _ _ _ )); exact rfl)

theorem startJoin_keeps (x0) (x1 : State) : Keeps [.regs, .reach] x1 (startJoin x0 x1) := by
  unfold startJoin
  try dsimp only
  repeat' first
    | ((with_reducible intro _ _); dsimp only)
    | ((with_reducible intro _); dsimp only)
    | (with_reducible intro _)
    | with_reducible exact Keeps.refl _ _
    | with_reducible assumption
    | ((with_reducible apply Keeps.step (State.wr_keeps _ _ _ )); exact rfl)
    | ((with_reducible apply Keeps.step (State.modRch_keeps _ _ _ )); exact rfl)
    | with_reducible apply Keeps.foldl
    | with_reducible apply Keeps.foldl_fst

theorem phaseEnd_keeps (x0) (x1) (x2 : State) : Keeps [.regs, .host, .logs, .out, .perf, .messages, .signing, .links, .coefs, .trips, .pool, .reach, .sram, .dma] x2 (phaseEnd x0 x1 x2) := by
  unfold phaseEnd
  extract_lets l s1
  have h1 : Keeps [.regs, .host, .logs, .out, .perf, .messages, .signing, .links, .coefs, .trips, .pool, .reach, .sram, .dma] x2 s1 :=
    (applyPhase_keeps _ _ _).mono rfl
  clear_value s1
  split
  · split
    · split
      · rename_i h
        exact Keeps.step (reachPhase_keeps _ _ _) rfl (Keeps.step (loadPort_keeps h) rfl h1)
      · exact Keeps.step (reachPhase_keeps _ _ _) rfl (Keeps.step (State.setWord_keeps _ _ _) rfl
          (Keeps.step (State.modRch_keeps _ _ _) rfl h1))
    · split
      · exact Keeps.step (failTraining_keeps _ _ _) rfl h1
      · split
        · exact Keeps.step (reachPhase_keeps _ _ _) rfl (Keeps.step (startJoin_keeps _ _) rfl h1)
        · exact Keeps.step (reachPhase_keeps _ _ _) rfl (Keeps.step (startFrames_keeps _ _) rfl h1)
    · exact Keeps.step (reachPhase_keeps _ _ _) rfl (Keeps.step (startFrames_keeps _ _) rfl h1)
    · split
      · exact Keeps.step (reachPhase_keeps _ _ _) rfl h1
      · exact h1
  · split
    · split
      · exact Keeps.step (failTraining_keeps _ _ _) rfl (Keeps.step (writeQual_keeps _ _ _) rfl h1)
      · exact Keeps.step (startFrames_keeps _ _) rfl (Keeps.step (State.modLink_keeps _ _ _) rfl
          (Keeps.step (writeQual_keeps _ _ _) rfl h1))
    · split
      · exact Keeps.step (State.modLink_keeps _ _ _) rfl h1
      · exact h1

theorem linkUp_keeps (x0) (x1 : State) : Keeps [.regs, .logs, .out, .perf, .links, .pool] x1 (linkUp x0 x1) := by
  unfold linkUp
  try dsimp only
  repeat' first
    | ((with_reducible intro _ _); dsimp only)
    | ((with_reducible intro _); dsimp only)
    | (with_reducible intro _)
    | with_reducible exact Keeps.refl _ _
    | with_reducible assumption
    | ((with_reducible apply Keeps.step (State.modLink_keeps _ _ _ )); exact rfl)
    | ((with_reducible apply Keeps.step (State.wr_keeps _ _ _ )); exact rfl)
    | ((with_reducible apply Keeps.step (linkEvent_keeps _ _ )); exact rfl)
    | ((with_reducible apply Keeps.step (refreshPool_keeps _ )); exact rfl)
    | ((with_reducible apply Keeps.step (State.wrs_keeps _ _ )); exact rfl)
    | with_reducible apply Keeps.foldl
    | with_reducible apply Keeps.foldl_fst
    | split

theorem startRetrain_keeps (x0) (x1 : State) : Keeps [.regs, .host, .logs, .out, .perf, .messages, .signing, .links, .trips, .pool, .reach, .lpi, .mons, .sram, .dma] x1 (startRetrain x0 x1) := by
  unfold startRetrain
  try dsimp only
  repeat' first
    | ((with_reducible intro _ _); dsimp only)
    | ((with_reducible intro _); dsimp only)
    | (with_reducible intro _)
    | with_reducible exact Keeps.refl _ _
    | with_reducible assumption
    | ((with_reducible apply Keeps.step (State.modLink_keeps _ _ _ )); exact rfl)
    | ((with_reducible apply Keeps.step (State.addSat_keeps _ _ _ )); exact rfl)
    | ((with_reducible apply Keeps.step (fullRetrain_keeps _ _ )); exact rfl)
    | ((with_reducible apply Keeps.step (State.wr_keeps _ _ _ )); exact rfl)
    | ((with_reducible apply Keeps.step (refreshPool_keeps _ )); exact rfl)
    | ((with_reducible apply Keeps.step (State.modTrip_keeps _ _ _ )); exact rfl)
    | ((with_reducible apply Keeps.step (State.modRch_keeps _ _ _ )); exact rfl)
    | with_reducible apply Keeps.foldl
    | with_reducible apply Keeps.foldl_fst
    | split

theorem retrainTrigger_keeps (x0) (x1) (x2 : State) : Keeps [.regs, .host, .logs, .out, .perf, .messages, .signing, .links, .trips, .pool, .reach, .lpi, .mons, .sram, .dma] x2 (retrainTrigger x0 x1 x2) := by
  unfold retrainTrigger
  try dsimp only
  repeat' first
    | ((with_reducible intro _ _); dsimp only)
    | ((with_reducible intro _); dsimp only)
    | (with_reducible intro _)
    | with_reducible exact Keeps.refl _ _
    | with_reducible assumption
    | ((with_reducible apply Keeps.step (State.modLink_keeps _ _ _ )); exact rfl)
    | ((with_reducible apply Keeps.step (fullRetrain_keeps _ _ )); exact rfl)
    | ((with_reducible apply Keeps.step (State.wr_keeps _ _ _ )); exact rfl)
    | ((with_reducible apply Keeps.step (startRetrain_keeps _ _ )); exact rfl)
    | ((with_reducible apply Keeps.step (stopCount_keeps _ _ )); exact rfl)
    | with_reducible apply Keeps.foldl
    | with_reducible apply Keeps.foldl_fst
    | split

theorem fastRetrainCmd_keeps (x0) (x1 : State) : Keeps [.regs, .host, .logs, .out, .perf, .chain, .messages, .signing, .links, .trips, .pool, .reach, .lpi, .mons, .sram, .dma] x1 (fastRetrainCmd x0 x1) := by
  unfold fastRetrainCmd
  try dsimp only
  repeat' first
    | ((with_reducible intro _ _); dsimp only)
    | ((with_reducible intro _); dsimp only)
    | (with_reducible intro _)
    | with_reducible exact Keeps.refl _ _
    | with_reducible assumption
    | ((with_reducible apply Keeps.step (State.modLink_keeps _ _ _ )); exact rfl)
    | ((with_reducible apply Keeps.step (State.setWc_keeps _ _ _ )); exact rfl)
    | ((with_reducible apply Keeps.step (retrainTrigger_keeps _ _ _ )); exact rfl)
    | ((with_reducible apply Keeps.step (ignored_keeps _ _ _ )); exact rfl)
    | ((with_reducible apply Keeps.step (auditOperational_keeps _ _ _ )); exact rfl)
    | with_reducible apply Keeps.foldl
    | with_reducible apply Keeps.foldl_fst
    | split

theorem retrainDone_keeps (x0) (x1 : State) : Keeps [.regs, .host, .logs, .out, .perf, .messages, .signing, .links, .trips, .pool, .reach, .lpi, .mons, .sram, .dma] x1 (retrainDone x0 x1) := by
  unfold retrainDone
  try dsimp only
  repeat' first
    | ((with_reducible intro _ _); dsimp only)
    | ((with_reducible intro _); dsimp only)
    | (with_reducible intro _)
    | with_reducible exact Keeps.refl _ _
    | with_reducible assumption
    | ((with_reducible apply Keeps.step (State.modLink_keeps _ _ _ )); exact rfl)
    | ((with_reducible apply Keeps.step (State.setWc_keeps _ _ _ )); exact rfl)
    | ((with_reducible apply Keeps.step (retrainTrigger_keeps _ _ _ )); exact rfl)
    | ((with_reducible apply Keeps.step (State.wr_keeps _ _ _ )); exact rfl)
    | ((with_reducible apply Keeps.step (refreshPool_keeps _ )); exact rfl)
    | with_reducible apply Keeps.foldl
    | with_reducible apply Keeps.foldl_fst
    | split

theorem restartPort_keeps (x0) (x1 : State) : Keeps [.regs, .host, .logs, .out, .perf, .messages, .signing, .links, .coefs, .trips, .pool, .reach, .lpi, .mons, .sram, .dma] x1 (restartPort x0 x1) := by
  unfold restartPort
  try dsimp only
  repeat' first
    | ((with_reducible intro _ _); dsimp only)
    | ((with_reducible intro _); dsimp only)
    | (with_reducible intro _)
    | with_reducible exact Keeps.refl _ _
    | with_reducible assumption
    | ((with_reducible apply Keeps.step (lastFail_keeps _ _ _ )); exact rfl)
    | ((with_reducible apply Keeps.step (State.modLink_keeps _ _ _ )); exact rfl)
    | ((with_reducible apply Keeps.step (suspendSession_keeps _ _ )); exact rfl)
    | ((with_reducible apply Keeps.step (linkDown_keeps _ _ _ )); exact rfl)
    | ((with_reducible apply Keeps.step (State.clearCoefs_keeps _ _ )); exact rfl)
    | ((with_reducible apply Keeps.step (State.wr_keeps _ _ _ )); exact rfl)
    | ((with_reducible apply Keeps.step (restoreAdv_keeps _ _ )); exact rfl)
    | with_reducible apply Keeps.foldl
    | with_reducible apply Keeps.foldl_fst
    | split

theorem anRestart_keeps (x0) (x1 : State) : Keeps [.regs, .host, .logs, .out, .perf, .chain, .messages, .signing, .links, .coefs, .trips, .pool, .reach, .lpi, .mons, .sram, .dma] x1 (anRestart x0 x1) := by
  unfold anRestart
  try dsimp only
  repeat' first
    | ((with_reducible intro _ _); dsimp only)
    | ((with_reducible intro _); dsimp only)
    | (with_reducible intro _)
    | with_reducible exact Keeps.refl _ _
    | with_reducible assumption
    | ((with_reducible apply Keeps.step (lastFail_keeps _ _ _ )); exact rfl)
    | ((with_reducible apply Keeps.step (linkDown_keeps _ _ _ )); exact rfl)
    | ((with_reducible apply Keeps.step (State.clearCoefs_keeps _ _ )); exact rfl)
    | ((with_reducible apply Keeps.step (auditOperational_keeps _ _ _ )); exact rfl)
    | with_reducible apply Keeps.foldl
    | with_reducible apply Keeps.foldl_fst
    | split

theorem restartCmd_keeps (x0) (x1 : State) : Keeps [.regs, .host, .logs, .out, .perf, .chain, .signing] x1 (restartCmd x0 x1) := by
  unfold restartCmd
  try dsimp only
  repeat' first
    | ((with_reducible intro _ _); dsimp only)
    | ((with_reducible intro _); dsimp only)
    | (with_reducible intro _)
    | with_reducible exact Keeps.refl _ _
    | with_reducible assumption
    | ((with_reducible apply wcWrite_keeps); exact rfl)
    | ((with_reducible apply Keeps.step (auditOperational_keeps _ _ _ )); exact rfl)

theorem startTest_keeps (x0) (x1) (x2 : State) : Keeps [.regs, .host, .logs, .out, .perf, .messages, .signing, .links, .sram, .dma] x2 (startTest x0 x1 x2) := by
  unfold startTest
  try dsimp only
  repeat' first
    | ((with_reducible intro _ _); dsimp only)
    | ((with_reducible intro _); dsimp only)
    | (with_reducible intro _)
    | with_reducible exact Keeps.refl _ _
    | with_reducible assumption
    | ((with_reducible apply Keeps.step (State.modLink_keeps _ _ _ )); exact rfl)
    | ((with_reducible apply Keeps.step (enter_keeps _ _ _ )); exact rfl)
    | ((with_reducible apply Keeps.step (refuseTest_keeps _ _ _ )); exact rfl)
    | ((with_reducible apply Keeps.step (syncTestBit_keeps _ _ )); exact rfl)
    | with_reducible apply Keeps.foldl
    | with_reducible apply Keeps.foldl_fst
    | split

theorem cableTestCmd_keeps (x0) (x1 : State) : Keeps [.regs, .host, .logs, .out, .perf, .chain, .messages, .signing, .links, .sram, .dma] x1 (cableTestCmd x0 x1) := by
  unfold cableTestCmd
  try dsimp only
  repeat' first
    | with_reducible exact Keeps.refl _ _
    | ((with_reducible apply Keeps.step (startTest_keeps _ _ _ )); exact rfl)
    | ((with_reducible apply Keeps.step (ignored_keeps _ _ _ )); exact rfl)
    | ((with_reducible apply Keeps.step (auditOperational_keeps _ _ _ )); exact rfl)
    | split

theorem probeEnd_keeps (x0) (x1) (x2) (x3 : State) : Keeps [.regs, .host, .logs, .out, .perf, .messages, .signing, .links, .sram, .dma] x3 (probeEnd x0 x1 x2 x3) := by
  unfold probeEnd
  try dsimp only
  repeat' first
    | ((with_reducible intro _ _); dsimp only)
    | ((with_reducible intro _); dsimp only)
    | (with_reducible intro _)
    | with_reducible exact Keeps.refl _ _
    | with_reducible assumption
    | ((with_reducible apply Keeps.step (State.modLink_keeps _ _ _ )); exact rfl)
    | ((with_reducible apply Keeps.step (enter_keeps _ _ _ )); exact rfl)
    | ((with_reducible apply Keeps.step (State.wrs_keeps _ _ )); exact rfl)
    | with_reducible apply Keeps.foldl
    | with_reducible apply Keeps.foldl_fst
    | split

theorem portChecks_keeps (x0) (x1 : State) : Keeps [.regs, .host, .logs, .out, .perf] x1 (portChecks x0 x1) := by
  unfold portChecks
  try dsimp only
  repeat' first
    | ((with_reducible intro _ _); dsimp only)
    | ((with_reducible intro _); dsimp only)
    | (with_reducible intro _)
    | with_reducible exact Keeps.refl _ _
    | with_reducible assumption
    | ((with_reducible apply Keeps.step (agree_keeps _ _ _ )); exact rfl)
    | with_reducible apply Keeps.foldl
    | with_reducible apply Keeps.foldl_fst
    | split

theorem applyPortOff_keeps (x0) (x1 : State) : Keeps [.regs, .host, .logs, .out, .perf, .messages, .signing, .links, .trips, .pool, .reach, .lpi, .mons, .sram, .dma] x1 (applyPortOff x0 x1) := by
  unfold applyPortOff
  try dsimp only
  repeat' first
    | ((with_reducible intro _ _); dsimp only)
    | ((with_reducible intro _); dsimp only)
    | (with_reducible intro _)
    | with_reducible exact Keeps.refl _ _
    | with_reducible assumption
    | ((with_reducible apply Keeps.step (linkDown_keeps _ _ _ )); exact rfl)
    | ((with_reducible apply Keeps.step (enter_keeps _ _ _ )); exact rfl)
    | ((with_reducible apply Keeps.step (State.wr_keeps _ _ _ )); exact rfl)
    | with_reducible apply Keeps.foldl
    | with_reducible apply Keeps.foldl_fst
    | split

theorem portBankActive_keeps (x0) (x1) (x2) (x3 : State) : Keeps [.regs, .host, .logs, .out, .perf, .messages, .signing, .links, .trips, .pool, .reach, .lpi, .mons, .sram, .dma] x3 (portBankActive x0 x1 x2 x3) := by
  unfold portBankActive
  try dsimp only
  repeat' first
    | ((with_reducible intro _ _); dsimp only)
    | ((with_reducible intro _); dsimp only)
    | (with_reducible intro _)
    | with_reducible exact Keeps.refl _ _
    | with_reducible assumption
    | ((with_reducible apply Keeps.step (lastFail_keeps _ _ _ )); exact rfl)
    | ((with_reducible apply Keeps.step (linkDown_keeps _ _ _ )); exact rfl)
    | ((with_reducible apply Keeps.step (retrainTrigger_keeps _ _ _ )); exact rfl)
    | ((with_reducible apply Keeps.step (enter_keeps _ _ _ )); exact rfl)
    | ((with_reducible apply Keeps.step (applyPortOff_keeps _ _ )); exact rfl)
    | ((with_reducible apply Keeps.step (State.wr_keeps _ _ _ )); exact rfl)
    | with_reducible apply Keeps.foldl
    | with_reducible apply Keeps.foldl_fst
    | split

theorem applyClass_keeps (x0) (x1 : State) : Keeps [.regs, .host, .logs, .out, .perf, .messages, .signing, .links, .trips, .pool, .reach, .lpi, .mons, .sram, .dma] x1 (applyClass x0 x1) := by
  unfold applyClass
  try dsimp only
  repeat' first
    | ((with_reducible intro _ _); dsimp only)
    | ((with_reducible intro _); dsimp only)
    | (with_reducible intro _)
    | with_reducible exact Keeps.refl _ _
    | with_reducible assumption
    | ((with_reducible apply Keeps.step (lastFail_keeps _ _ _ )); exact rfl)
    | ((with_reducible apply Keeps.step (linkDown_keeps _ _ _ )); exact rfl)
    | ((with_reducible apply Keeps.step (applyPortOff_keeps _ _ )); exact rfl)
    | with_reducible apply Keeps.foldl
    | with_reducible apply Keeps.foldl_fst
    | split

theorem selectBus_keeps (x0) (x1) (x2 : State) : Keeps [.regs, .host, .logs, .out, .perf, .messages, .signing, .links, .trips, .pool, .reach, .lpi, .mons, .sram, .dma] x2 (selectBus x0 x1 x2) := by
  unfold selectBus
  try dsimp only
  repeat' first
    | ((with_reducible intro _ _); dsimp only)
    | ((with_reducible intro _); dsimp only)
    | (with_reducible intro _)
    | with_reducible exact Keeps.refl _ _
    | with_reducible assumption
    | ((with_reducible apply Keeps.step (linkDown_keeps _ _ _ )); exact rfl)
    | ((with_reducible apply Keeps.step (enter_keeps _ _ _ )); exact rfl)
    | ((with_reducible apply Keeps.step (State.wr_keeps _ _ _ )); exact rfl)
    | with_reducible apply Keeps.foldl
    | with_reducible apply Keeps.foldl_fst
    | split

theorem execPartnerPulsesSeen_keeps (x0) (x1 : State) : ∃ t, execPartnerPulsesSeen x0 x1 = .next t ∧ Keeps [.regs, .host, .logs, .out, .perf, .messages, .signing, .links, .sram, .dma] x1 t := by
  unfold execPartnerPulsesSeen
  refine ⟨_, rfl, ?_⟩
  try dsimp only
  repeat' first
    | ((with_reducible intro _ _); dsimp only)
    | ((with_reducible intro _); dsimp only)
    | (with_reducible intro _)
    | with_reducible exact Keeps.refl _ _
    | with_reducible assumption
    | ((with_reducible apply Keeps.step (enter_keeps _ _ _ )); exact rfl)
    | ((with_reducible apply Keeps.step (startPages_keeps _ _ )); exact rfl)
    | ((with_reducible apply Keeps.step (State.wr_keeps _ _ _ )); exact rfl)
    | with_reducible apply Keeps.foldl
    | with_reducible apply Keeps.foldl_fst
    | split

theorem execIdleDetected_keeps (x0) (x1 : State) : ∃ t, execIdleDetected x0 x1 = .next t ∧ Keeps [.regs, .host, .logs, .out, .perf, .messages, .signing, .links, .sram, .dma] x1 t := by
  unfold execIdleDetected
  refine ⟨_, rfl, ?_⟩
  try dsimp only
  repeat' first
    | ((with_reducible intro _ _); dsimp only)
    | ((with_reducible intro _); dsimp only)
    | (with_reducible intro _)
    | with_reducible exact Keeps.refl _ _
    | with_reducible assumption
    | ((with_reducible apply Keeps.step (State.modLink_keeps _ _ _ )); exact rfl)
    | ((with_reducible apply Keeps.step (State.wr_keeps _ _ _ )); exact rfl)
    | ((with_reducible apply Keeps.step (startTraining_keeps _ _ _ _ )); exact rfl)
    | ((with_reducible apply Keeps.step (State.wrs_keeps _ _ )); exact rfl)
    | with_reducible apply Keeps.foldl
    | with_reducible apply Keeps.foldl_fst
    | split

theorem execPageExchangeComplete_keeps (x0) (x1) (x2 : State) : ∃ t, execPageExchangeComplete x0 x1 x2 = .next t ∧ Keeps [.regs, .host, .logs, .out, .perf, .messages, .signing, .links, .sram, .dma] x2 t := by
  unfold execPageExchangeComplete
  refine ⟨_, rfl, ?_⟩
  try dsimp only
  repeat' first
    | ((with_reducible intro _ _); dsimp only)
    | ((with_reducible intro _); dsimp only)
    | (with_reducible intro _)
    | with_reducible exact Keeps.refl _ _
    | with_reducible assumption
    | ((with_reducible apply Keeps.step (resolve_keeps _ _ _ )); exact rfl)
    | with_reducible apply Keeps.foldl
    | with_reducible apply Keeps.foldl_fst
    | split

theorem execBreakLinkTimer_keeps (x0) (x1 : State) : ∃ t, execBreakLinkTimer x0 x1 = .next t ∧ Keeps [.regs, .host, .logs, .out, .perf, .messages, .signing, .links, .sram, .dma] x1 t := by
  unfold execBreakLinkTimer
  refine ⟨_, rfl, ?_⟩
  try dsimp only
  repeat' first
    | ((with_reducible intro _ _); dsimp only)
    | ((with_reducible intro _); dsimp only)
    | (with_reducible intro _)
    | with_reducible exact Keeps.refl _ _
    | with_reducible assumption
    | ((with_reducible apply Keeps.step (enter_keeps _ _ _ )); exact rfl)
    | with_reducible apply Keeps.foldl
    | with_reducible apply Keeps.foldl_fst
    | split

theorem execAutonegWaitTimer_keeps (x0) (x1 : State) : ∃ t, execAutonegWaitTimer x0 x1 = .next t ∧ Keeps [.regs, .host, .logs, .out, .perf, .messages, .signing, .links, .sram, .dma] x1 t := by
  unfold execAutonegWaitTimer
  refine ⟨_, rfl, ?_⟩
  try dsimp only
  repeat' first
    | ((with_reducible intro _ _); dsimp only)
    | ((with_reducible intro _); dsimp only)
    | (with_reducible intro _)
    | with_reducible exact Keeps.refl _ _
    | with_reducible assumption
    | ((with_reducible apply Keeps.step (lastFail_keeps _ _ _ )); exact rfl)
    | ((with_reducible apply Keeps.step (State.modLink_keeps _ _ _ )); exact rfl)
    | ((with_reducible apply Keeps.step (enter_keeps _ _ _ )); exact rfl)
    | with_reducible apply Keeps.foldl
    | with_reducible apply Keeps.foldl_fst
    | split

theorem execLinkFailInhibitTimer_keeps (x0) (x1 : State) : ∃ t, execLinkFailInhibitTimer x0 x1 = .next t ∧ Keeps [.regs, .host, .logs, .out, .perf, .messages, .signing, .links, .pool, .reach, .sram, .dma] x1 t := by
  unfold execLinkFailInhibitTimer
  refine ⟨_, rfl, ?_⟩
  try dsimp only
  repeat' first
    | ((with_reducible intro _ _); dsimp only)
    | ((with_reducible intro _); dsimp only)
    | (with_reducible intro _)
    | with_reducible exact Keeps.refl _ _
    | with_reducible assumption
    | ((with_reducible apply Keeps.step (failTraining_keeps _ _ _ )); exact rfl)
    | with_reducible apply Keeps.foldl
    | with_reducible apply Keeps.foldl_fst
    | split

theorem execReachTrainingTimeout_keeps (x0) (x1 : State) : ∃ t, execReachTrainingTimeout x0 x1 = .next t ∧ Keeps [.regs, .host, .logs, .out, .perf, .messages, .signing, .links, .pool, .reach, .sram, .dma] x1 t := by
  unfold execReachTrainingTimeout
  refine ⟨_, rfl, ?_⟩
  try dsimp only
  repeat' first
    | ((with_reducible intro _ _); dsimp only)
    | ((with_reducible intro _); dsimp only)
    | (with_reducible intro _)
    | with_reducible exact Keeps.refl _ _
    | with_reducible assumption
    | ((with_reducible apply Keeps.step (failTraining_keeps _ _ _ )); exact rfl)
    | with_reducible apply Keeps.foldl
    | with_reducible apply Keeps.foldl_fst
    | split

theorem execTrainPhaseEnd_keeps (x0) (x1) (x2 : State) : ∃ t, execTrainPhaseEnd x0 x1 x2 = .next t ∧ Keeps [.regs, .host, .logs, .out, .perf, .messages, .signing, .links, .coefs, .trips, .pool, .reach, .sram, .dma] x2 t := by
  unfold execTrainPhaseEnd
  refine ⟨_, rfl, ?_⟩
  try dsimp only
  repeat' first
    | ((with_reducible intro _ _); dsimp only)
    | ((with_reducible intro _); dsimp only)
    | (with_reducible intro _)
    | with_reducible exact Keeps.refl _ _
    | with_reducible assumption
    | ((with_reducible apply Keeps.step (phaseEnd_keeps _ _ _ )); exact rfl)
    | with_reducible apply Keeps.foldl
    | with_reducible apply Keeps.foldl_fst
    | split

theorem execReceiverStatusOk_keeps (x0) (x1 : State) : ∃ t, execReceiverStatusOk x0 x1 = .next t ∧ Keeps [.regs, .logs, .out, .perf, .links, .pool] x1 t := by
  unfold execReceiverStatusOk
  refine ⟨_, rfl, ?_⟩
  try dsimp only
  repeat' first
    | ((with_reducible intro _ _); dsimp only)
    | ((with_reducible intro _); dsimp only)
    | (with_reducible intro _)
    | with_reducible exact Keeps.refl _ _
    | with_reducible assumption
    | ((with_reducible apply Keeps.step (linkUp_keeps _ _ )); exact rfl)
    | with_reducible apply Keeps.foldl
    | with_reducible apply Keeps.foldl_fst
    | split

theorem execPartnerLost_keeps (x0) (x1 : State) : ∃ t, execPartnerLost x0 x1 = .next t ∧ Keeps [.regs, .host, .logs, .out, .perf, .messages, .signing, .links, .coefs, .trips, .pool, .reach, .lpi, .mons, .sram, .dma] x1 t := by
  unfold execPartnerLost
  refine ⟨_, rfl, ?_⟩
  try dsimp only
  repeat' first
    | ((with_reducible intro _ _); dsimp only)
    | ((with_reducible intro _); dsimp only)
    | (with_reducible intro _)
    | with_reducible exact Keeps.refl _ _
    | with_reducible assumption
    | ((with_reducible apply Keeps.step (lastFail_keeps _ _ _ )); exact rfl)
    | ((with_reducible apply Keeps.step (linkDown_keeps _ _ _ )); exact rfl)
    | ((with_reducible apply Keeps.step (State.addSat_keeps _ _ _ )); exact rfl)
    | ((with_reducible apply Keeps.step (State.clearCoefs_keeps _ _ )); exact rfl)
    | ((with_reducible apply Keeps.step (trainFailEvent_keeps _ _ )); exact rfl)
    | with_reducible apply Keeps.foldl
    | with_reducible apply Keeps.foldl_fst
    | split

theorem execLinkStatusFailure_keeps (x0) (x1 : State) : ∃ t, execLinkStatusFailure x0 x1 = .next t ∧ Keeps [.regs, .host, .logs, .out, .perf, .messages, .signing, .links, .trips, .pool, .reach, .lpi, .mons, .sram, .dma] x1 t := by
  unfold execLinkStatusFailure
  refine ⟨_, rfl, ?_⟩
  try dsimp only
  repeat' first
    | ((with_reducible intro _ _); dsimp only)
    | ((with_reducible intro _); dsimp only)
    | (with_reducible intro _)
    | with_reducible exact Keeps.refl _ _
    | with_reducible assumption
    | ((with_reducible apply Keeps.step (lastFail_keeps _ _ _ )); exact rfl)
    | ((with_reducible apply Keeps.step (linkDown_keeps _ _ _ )); exact rfl)
    | with_reducible apply Keeps.foldl
    | with_reducible apply Keeps.foldl_fst
    | split

theorem execAdvertisementRestore_keeps (x0) (x1 : State) : ∃ t, execAdvertisementRestore x0 x1 = .next t ∧ Keeps [.regs, .host, .logs, .out, .perf] x1 t := by
  unfold execAdvertisementRestore
  refine ⟨_, rfl, ?_⟩
  try dsimp only
  repeat' first
    | ((with_reducible intro _ _); dsimp only)
    | ((with_reducible intro _); dsimp only)
    | (with_reducible intro _)
    | with_reducible exact Keeps.refl _ _
    | with_reducible assumption
    | ((with_reducible apply Keeps.step (restoreAdv_keeps _ _ )); exact rfl)
    | with_reducible apply Keeps.foldl
    | with_reducible apply Keeps.foldl_fst
    | split

theorem execPartnerEnergyReturn_keeps (x0) (x1 : State) : ∃ t, execPartnerEnergyReturn x0 x1 = .next t ∧ Keeps [.regs, .host, .logs, .out, .perf, .messages, .signing, .links, .sram, .dma] x1 t := by
  unfold execPartnerEnergyReturn
  refine ⟨_, rfl, ?_⟩
  try dsimp only
  repeat' first
    | ((with_reducible intro _ _); dsimp only)
    | ((with_reducible intro _); dsimp only)
    | (with_reducible intro _)
    | with_reducible exact Keeps.refl _ _
    | with_reducible assumption
    | ((with_reducible apply Keeps.step (enter_keeps _ _ _ )); exact rfl)
    | with_reducible apply Keeps.foldl
    | with_reducible apply Keeps.foldl_fst
    | split

theorem execProbeSTimer_keeps (x0) (x1 : State) : ∃ t, execProbeSTimer x0 x1 = .next t ∧ Keeps [.regs, .messages, .links, .sram, .dma] x1 t := by
  unfold execProbeSTimer
  refine ⟨_, rfl, ?_⟩
  try dsimp only
  repeat' first
    | ((with_reducible intro _ _); dsimp only)
    | ((with_reducible intro _); dsimp only)
    | (with_reducible intro _)
    | with_reducible exact Keeps.refl _ _
    | with_reducible assumption
    | ((with_reducible apply Keeps.step (State.modLink_keeps _ _ _ )); exact rfl)
    | ((with_reducible apply Keeps.step (State.wr_keeps _ _ _ )); exact rfl)
    | ((with_reducible apply Keeps.step (sendProbe_keeps _ _ )); exact rfl)
    | with_reducible apply Keeps.foldl
    | with_reducible apply Keeps.foldl_fst
    | split

theorem execProbeTimeout_keeps (x0) (x1 : State) : ∃ t, execProbeTimeout x0 x1 = .next t ∧ Keeps [.regs, .host, .logs, .out, .perf, .messages, .signing, .links, .sram, .dma] x1 t := by
  unfold execProbeTimeout
  refine ⟨_, rfl, ?_⟩
  try dsimp only
  repeat' first
    | ((with_reducible intro _ _); dsimp only)
    | ((with_reducible intro _); dsimp only)
    | (with_reducible intro _)
    | with_reducible exact Keeps.refl _ _
    | with_reducible assumption
    | ((with_reducible apply Keeps.step (State.modLink_keeps _ _ _ )); exact rfl)
    | ((with_reducible apply Keeps.step (sendProbe_keeps _ _ )); exact rfl)
    | ((with_reducible apply Keeps.step (probeEnd_keeps _ _ _ _ )); exact rfl)
    | with_reducible apply Keeps.foldl
    | with_reducible apply Keeps.foldl_fst
    | split

theorem execProbeAnswer_keeps (x0) (x1) (x2 : State) : ∃ t, execProbeAnswer x0 x1 x2 = .next t ∧ Keeps [.regs, .host, .logs, .out, .perf, .messages, .signing, .links, .sram, .dma] x2 t := by
  unfold execProbeAnswer
  refine ⟨_, rfl, ?_⟩
  try dsimp only
  repeat' first
    | ((with_reducible intro _ _); dsimp only)
    | ((with_reducible intro _); dsimp only)
    | (with_reducible intro _)
    | with_reducible exact Keeps.refl _ _
    | with_reducible assumption
    | ((with_reducible apply Keeps.step (probeEnd_keeps _ _ _ _ )); exact rfl)
    | with_reducible apply Keeps.foldl
    | with_reducible apply Keeps.foldl_fst
    | split

theorem execProbeRequest_keeps (x0) (x1 : State) : ∃ t, execProbeRequest x0 x1 = .next t ∧ Keeps [.messages, .sram, .dma] x1 t := by
  unfold execProbeRequest
  refine ⟨_, rfl, ?_⟩
  try dsimp only
  repeat' first
    | ((with_reducible intro _ _); dsimp only)
    | ((with_reducible intro _); dsimp only)
    | (with_reducible intro _)
    | with_reducible exact Keeps.refl _ _
    | with_reducible assumption
    | ((with_reducible apply whileAwake_keeps); exact rfl)
    | ((with_reducible apply Keeps.step (sendMessage_keeps _ _ )); exact rfl)
    | with_reducible apply Keeps.foldl
    | with_reducible apply Keeps.foldl_fst

theorem execCableTestEnd_keeps (x0) (x1) (x2 : State) : ∃ t, execCableTestEnd x0 x1 x2 = .next t ∧ Keeps [.regs, .host, .logs, .out, .perf, .messages, .signing, .links, .sram, .dma] x2 t := by
  unfold execCableTestEnd
  refine ⟨_, rfl, ?_⟩
  try dsimp only
  repeat' first
    | ((with_reducible intro _ _); dsimp only)
    | ((with_reducible intro _); dsimp only)
    | (with_reducible intro _)
    | with_reducible exact Keeps.refl _ _
    | with_reducible assumption
    | ((with_reducible apply Keeps.step (enter_keeps _ _ _ )); exact rfl)
    | ((with_reducible apply Keeps.step (State.wr_keeps _ _ _ )); exact rfl)
    | ((with_reducible apply Keeps.step (closeTest_keeps _ _ _ _ )); exact rfl)
    | with_reducible apply Keeps.foldl
    | with_reducible apply Keeps.foldl_fst
    | split

theorem execCableTestStop_keeps (x0) (x1) (x2 : State) : ∃ t, execCableTestStop x0 x1 x2 = .next t ∧ Keeps [.regs, .host, .logs, .out, .perf, .messages, .signing, .links, .sram, .dma] x2 t := by
  unfold execCableTestStop
  refine ⟨_, rfl, ?_⟩
  try dsimp only
  repeat' first
    | ((with_reducible intro _ _); dsimp only)
    | ((with_reducible intro _); dsimp only)
    | (with_reducible intro _)
    | with_reducible exact Keeps.refl _ _
    | with_reducible assumption
    | ((with_reducible apply Keeps.step (enter_keeps _ _ _ )); exact rfl)
    | ((with_reducible apply Keeps.step (State.wr_keeps _ _ _ )); exact rfl)
    | ((with_reducible apply Keeps.step (closeTest_keeps _ _ _ _ )); exact rfl)
    | with_reducible apply Keeps.foldl
    | with_reducible apply Keeps.foldl_fst
    | split

theorem execCableTest_keeps (x0) (x1 : State) : ∃ t, execCableTest x0 x1 = .next t ∧ Keeps [.regs, .host, .logs, .out, .perf, .chain, .messages, .signing, .links, .sram, .dma, .power] x1 t := by
  unfold execCableTest
  refine ⟨_, rfl, ?_⟩
  try dsimp only
  repeat' first
    | ((with_reducible intro _ _); dsimp only)
    | ((with_reducible intro _); dsimp only)
    | (with_reducible intro _)
    | with_reducible exact Keeps.refl _ _
    | with_reducible assumption
    | ((with_reducible apply Keeps.step (cableTestCmd_keeps _ _ )); exact rfl)
    | ((with_reducible apply hostCommand_keeps); exact rfl)

theorem execFastRetrain_keeps (x0) (x1 : State) : ∃ t, execFastRetrain x0 x1 = .next t ∧ Keeps [.regs, .host, .logs, .out, .perf, .chain, .messages, .signing, .links, .trips, .pool, .reach, .lpi, .mons, .sram, .dma, .power] x1 t := by
  unfold execFastRetrain
  refine ⟨_, rfl, ?_⟩
  try dsimp only
  repeat' first
    | ((with_reducible intro _ _); dsimp only)
    | ((with_reducible intro _); dsimp only)
    | (with_reducible intro _)
    | with_reducible exact Keeps.refl _ _
    | with_reducible assumption
    | ((with_reducible apply hostCommand_keeps); exact rfl)
    | ((with_reducible apply Keeps.step (fastRetrainCmd_keeps _ _ )); exact rfl)

theorem execAnRestart_keeps (x0) (x1 : State) : ∃ t, execAnRestart x0 x1 = .next t ∧ Keeps [.regs, .host, .logs, .out, .perf, .chain, .messages, .signing, .links, .coefs, .trips, .pool, .reach, .lpi, .mons, .sram, .dma, .power] x1 t := by
  unfold execAnRestart
  refine ⟨_, rfl, ?_⟩
  try dsimp only
  repeat' first
    | ((with_reducible intro _ _); dsimp only)
    | ((with_reducible intro _); dsimp only)
    | (with_reducible intro _)
    | with_reducible exact Keeps.refl _ _
    | with_reducible assumption
    | ((with_reducible apply Keeps.step (anRestart_keeps _ _ )); exact rfl)
    | ((with_reducible apply hostCommand_keeps); exact rfl)

theorem execRestart_keeps (x0) (x1 : State) : ∃ t, execRestart x0 x1 = .next t ∧ Keeps [.regs, .host, .logs, .out, .perf, .chain, .signing, .power] x1 t := by
  unfold execRestart
  refine ⟨_, rfl, ?_⟩
  try dsimp only
  repeat' first
    | ((with_reducible intro _ _); dsimp only)
    | ((with_reducible intro _); dsimp only)
    | (with_reducible intro _)
    | with_reducible exact Keeps.refl _ _
    | with_reducible assumption
    | ((with_reducible apply Keeps.step (restartCmd_keeps _ _ )); exact rfl)
    | ((with_reducible apply hostCommand_keeps); exact rfl)

theorem execPartnerRetrainRequest_keeps (x0) (x1 : State) : ∃ t, execPartnerRetrainRequest x0 x1 = .next t ∧ Keeps [.regs, .host, .logs, .out, .perf, .messages, .signing, .links, .trips, .pool, .reach, .lpi, .mons, .sram, .dma] x1 t := by
  unfold execPartnerRetrainRequest
  refine ⟨_, rfl, ?_⟩
  try dsimp only
  repeat' first
    | with_reducible exact Keeps.refl _ _
    | ((with_reducible apply Keeps.step (retrainTrigger_keeps _ _ _ )); exact rfl)

theorem execFastRetrainComplete_keeps (x0) (x1) (x2 : State) : ∃ t, execFastRetrainComplete x0 x1 x2 = .next t ∧ Keeps [.regs, .host, .logs, .out, .perf, .messages, .signing, .links, .coefs, .trips, .pool, .reach, .lpi, .mons, .sram, .dma] x2 t := by
  unfold execFastRetrainComplete
  refine ⟨_, rfl, ?_⟩
  try dsimp only
  repeat' first
    | ((with_reducible intro _ _); dsimp only)
    | ((with_reducible intro _); dsimp only)
    | (with_reducible intro _)
    | with_reducible exact Keeps.refl _ _
    | with_reducible assumption
    | ((with_reducible apply Keeps.step (retrainDone_keeps _ _ )); exact rfl)
    | ((with_reducible apply Keeps.step (State.setCoef_keeps _ _ _ )); exact rfl)
    | with_reducible apply Keeps.foldl
    | with_reducible apply Keeps.foldl_fst
    | split

theorem execFastRetrainTimeout_keeps (x0) (x1 : State) : ∃ t, execFastRetrainTimeout x0 x1 = .next t ∧ Keeps [.regs, .host, .logs, .out, .perf, .messages, .signing, .links, .trips, .pool, .reach, .lpi, .mons, .sram, .dma] x1 t := by
  unfold execFastRetrainTimeout
  refine ⟨_, rfl, ?_⟩
  try dsimp only
  repeat' first
    | ((with_reducible intro _ _); dsimp only)
    | ((with_reducible intro _); dsimp only)
    | (with_reducible intro _)
    | with_reducible exact Keeps.refl _ _
    | with_reducible assumption
    | ((with_reducible apply Keeps.step (fullRetrain_keeps _ _ )); exact rfl)
    | with_reducible apply Keeps.foldl
    | with_reducible apply Keeps.foldl_fst
    | split

/-! ### Lpi -/

theorem setLpi_keeps (x0) (x1) (x2 : State) : Keeps [.regs] x2 (setLpi x0 x1 x2) := by
  unfold setLpi
  try dsimp only
  repeat' first
    | with_reducible exact Keeps.refl _ _
    | ((with_reducible apply Keeps.step (State.wr_keeps _ _ _ )); exact rfl)

theorem takeSnapshot_keeps (x0) (x1 : State) : Keeps [.regs, .lpi] x1 (takeSnapshot x0 x1) := by
  unfold takeSnapshot
  try dsimp only
  repeat' first
    | ((with_reducible intro _ _); dsimp only)
    | ((with_reducible intro _); dsimp only)
    | (with_reducible intro _)
    | with_reducible exact Keeps.refl _ _
    | with_reducible assumption
    | ((with_reducible apply Keeps.step (State.wr_keeps _ _ _ )); exact rfl)
    | ((with_reducible apply Keeps.step (State.setIdle_keeps _ _ _ )); exact rfl)
    | with_reducible apply Keeps.foldl
    | with_reducible apply Keeps.foldl_fst
    | split

theorem restoreSnapshot_keeps (x0) (x1 : State) : Keeps [.coefs, .pool] x1 (restoreSnapshot x0 x1) := by
  unfold restoreSnapshot
  try dsimp only
  repeat' first
    | ((with_reducible intro _ _); dsimp only)
    | ((with_reducible intro _); dsimp only)
    | (with_reducible intro _)
    | with_reducible exact Keeps.refl _ _
    | with_reducible assumption
    | ((with_reducible apply Keeps.step (clearTaps_keeps _ _ )); exact rfl)
    | ((with_reducible apply Keeps.step (State.clearCoefs_keeps _ _ )); exact rfl)
    | ((with_reducible apply Keeps.step (State.setCoef_keeps _ _ _ )); exact rfl)
    | with_reducible apply Keeps.foldl
    | with_reducible apply Keeps.foldl_fst
    | ((with_reducible apply Keeps.upd_pool); exact rfl; exact fun h => h)
    | (refine Keeps.of_parts ?_ rfl rfl rfl (fun h => h); intro p hp; cases p <;> first | rfl | exact absurd hp (by decide))

theorem judgeWander_keeps (x0) (x1) (x2 : State) : Keeps [.regs, .host, .logs, .out, .perf, .messages, .signing, .links, .coefs, .trips, .pool, .reach, .lpi, .mons, .sram, .dma] x2 (judgeWander x0 x1 x2) := by
  unfold judgeWander
  try dsimp only
  repeat' first
    | ((with_reducible intro _ _); dsimp only)
    | ((with_reducible intro _); dsimp only)
    | (with_reducible intro _)
    | with_reducible exact Keeps.refl _ _
    | with_reducible assumption
    | ((with_reducible apply Keeps.step (retrainTrigger_keeps _ _ _ )); exact rfl)
    | ((with_reducible apply Keeps.step (State.addSat_keeps _ _ _ )); exact rfl)
    | ((with_reducible apply Keeps.step (State.wr_keeps _ _ _ )); exact rfl)
    | ((with_reducible apply Keeps.step (restoreSnapshot_keeps _ _ )); exact rfl)
    | ((with_reducible apply Keeps.step (State.wrs_keeps _ _ )); exact rfl)
    | ((with_reducible apply Keeps.step (plainEvent_keeps _ _ _ )); exact rfl)
    | with_reducible apply Keeps.foldl
    | with_reducible apply Keeps.foldl_fst
    | split

theorem wakePort_keeps (x0) (x1) (x2 : State) : Keeps [.regs, .host, .logs, .out, .perf, .messages, .signing, .links, .coefs, .trips, .pool, .reach, .lpi, .mons, .sram, .dma] x2 (wakePort x0 x1 x2) := by
  unfold wakePort
  try dsimp only
  repeat' first
    | ((with_reducible intro _ _); dsimp only)
    | ((with_reducible intro _); dsimp only)
    | (with_reducible intro _)
    | with_reducible exact Keeps.refl _ _
    | with_reducible assumption
    | ((with_reducible apply Keeps.step (judgeWander_keeps _ _ _ )); exact rfl)
    | ((with_reducible apply Keeps.step (stopCount_keeps _ _ )); exact rfl)
    | ((with_reducible apply Keeps.step (setLpi_keeps _ _ _ )); exact rfl)
    | with_reducible apply Keeps.foldl
    | with_reducible apply Keeps.foldl_fst
    | split

theorem wakeDone_keeps (x0) (x1 : State) : Keeps [.regs, .host, .logs, .out, .perf, .messages, .signing, .links, .trips, .pool, .reach, .lpi, .mons, .sram, .dma] x1 (wakeDone x0 x1) := by
  unfold wakeDone
  try dsimp only
  repeat' first
    | with_reducible exact Keeps.refl _ _
    | ((with_reducible apply Keeps.step (State.modLink_keeps _ _ _ )); exact rfl)
    | ((with_reducible apply Keeps.step (State.wr_keeps _ _ _ )); exact rfl)
    | ((with_reducible apply Keeps.step (startRetrain_keeps _ _ )); exact rfl)
    | ((with_reducible apply Keeps.step (State.setIdle_keeps _ _ _ )); exact rfl)
    | ((with_reducible apply Keeps.step (State.wrs_keeps _ _ )); exact rfl)
    | split

theorem execLpiEntryTimer_keeps (x0) (x1 : State) : ∃ t, execLpiEntryTimer x0 x1 = .next t ∧ Keeps [.regs] x1 t := by
  unfold execLpiEntryTimer
  refine ⟨_, rfl, ?_⟩
  try dsimp only
  repeat' first
    | ((with_reducible intro _ _); dsimp only)
    | ((with_reducible intro _); dsimp only)
    | (with_reducible intro _)
    | with_reducible exact Keeps.refl _ _
    | with_reducible assumption
    | ((with_reducible apply Keeps.step (State.addSat_keeps _ _ _ )); exact rfl)
    | ((with_reducible apply Keeps.step (State.wr_keeps _ _ _ )); exact rfl)
    | ((with_reducible apply Keeps.step (setLpi_keeps _ _ _ )); exact rfl)
    | with_reducible apply Keeps.foldl
    | with_reducible apply Keeps.foldl_fst
    | split

theorem execLpiPhaseEnd_keeps (x0) (x1) (x2 : State) : ∃ t, execLpiPhaseEnd x0 x1 x2 = .next t ∧ Keeps [.regs, .host, .logs, .out, .perf, .messages, .signing, .links, .coefs, .trips, .pool, .reach, .lpi, .mons, .sram, .dma] x2 t := by
  unfold execLpiPhaseEnd
  refine ⟨_, rfl, ?_⟩
  try dsimp only
  repeat' first
    | ((with_reducible intro _ _); dsimp only)
    | ((with_reducible intro _); dsimp only)
    | (with_reducible intro _)
    | with_reducible exact Keeps.refl _ _
    | with_reducible assumption
    | ((with_reducible apply Keeps.step (State.setIdle_keeps _ _ _ )); exact rfl)
    | ((with_reducible apply Keeps.step (takeSnapshot_keeps _ _ )); exact rfl)
    | ((with_reducible apply Keeps.step (countLpi_keeps _ _ )); exact rfl)
    | ((with_reducible apply Keeps.step (judgeWander_keeps _ _ _ )); exact rfl)
    | ((with_reducible apply Keeps.step (setLpi_keeps _ _ _ )); exact rfl)
    | with_reducible apply Keeps.foldl
    | with_reducible apply Keeps.foldl_fst
    | split

theorem execLpiWakeRequest_keeps (x0) (x1) (x2) (x3 : State) : ∃ t, execLpiWakeRequest x0 x1 x2 x3 = .next t ∧ Keeps [.regs, .host, .logs, .out, .perf, .messages, .signing, .links, .coefs, .trips, .pool, .reach, .lpi, .mons, .sram, .dma] x3 t := by
  unfold execLpiWakeRequest
  refine ⟨_, rfl, ?_⟩
  try dsimp only
  repeat' first
    | with_reducible exact Keeps.refl _ _
    | ((with_reducible apply Keeps.step (State.wr_keeps _ _ _ )); exact rfl)
    | ((with_reducible apply Keeps.step (wakePort_keeps _ _ _ )); exact rfl)
    | split

theorem execLpiWakeDone_keeps (x0) (x1 : State) : ∃ t, execLpiWakeDone x0 x1 = .next t ∧ Keeps [.regs, .host, .logs, .out, .perf, .messages, .signing, .links, .trips, .pool, .reach, .lpi, .mons, .sram, .dma] x1 t := by
  unfold execLpiWakeDone
  refine ⟨_, rfl, ?_⟩
  try dsimp only
  repeat' first
    | ((with_reducible intro _ _); dsimp only)
    | ((with_reducible intro _); dsimp only)
    | (with_reducible intro _)
    | with_reducible exact Keeps.refl _ _
    | with_reducible assumption
    | ((with_reducible apply Keeps.step (wakeDone_keeps _ _ )); exact rfl)
    | ((with_reducible apply Keeps.step (stopCount_keeps _ _ )); exact rfl)
    | with_reducible apply Keeps.foldl
    | with_reducible apply Keeps.foldl_fst
    | split

theorem execPartnerLpiSignal_keeps (x0) (x1 : State) : ∃ t, execPartnerLpiSignal x0 x1 = .next t ∧ Keeps [.regs] x1 t := by
  unfold execPartnerLpiSignal
  refine ⟨_, rfl, ?_⟩
  try dsimp only
  repeat' first
    | ((with_reducible intro _ _); dsimp only)
    | ((with_reducible intro _); dsimp only)
    | (with_reducible intro _)
    | with_reducible exact Keeps.refl _ _
    | with_reducible assumption
    | ((with_reducible apply Keeps.step (State.wr_keeps _ _ _ )); exact rfl)
    | with_reducible apply Keeps.foldl
    | with_reducible apply Keeps.foldl_fst
    | split

/-! ### HostLanes -/

theorem State.modLane_keeps (x0 : State) (x1) (x2) : Keeps [.lanes] x0 (Sys2Proof.Machine.State.modLane x0 x1 x2) := by
  unfold Sys2Proof.Machine.State.modLane
  try dsimp only
  repeat' first
    | with_reducible exact Keeps.refl _ _
    | ((with_reducible apply Keeps.step (State.withLanes_keeps _ _ )); exact rfl)

theorem setLane_keeps (x0) (x1) (x2 : State) : Keeps [.regs] x2 (setLane x0 x1 x2) := by
  unfold setLane
  try dsimp only
  repeat' first
    | with_reducible exact Keeps.refl _ _
    | ((with_reducible apply Keeps.step (State.wr_keeps _ _ _ )); exact rfl)

theorem dropLock_keeps (x0) (x1 : State) : Keeps [.regs, .lanes] x1 (dropLock x0 x1) := by
  unfold dropLock
  try dsimp only
  repeat' first
    | with_reducible exact Keeps.refl _ _
    | ((with_reducible apply Keeps.step (State.modLane_keeps _ _ _ )); exact rfl)
    | ((with_reducible apply Keeps.step (State.wr_keeps _ _ _ )); exact rfl)

theorem refreshLane_keeps (x0) (x1 : State) : Keeps [.regs, .lanes] x1 (refreshLane x0 x1) := by
  unfold refreshLane
  try dsimp only
  repeat' first
    | ((with_reducible intro _ _); dsimp only)
    | ((with_reducible intro _); dsimp only)
    | (with_reducible intro _)
    | with_reducible exact Keeps.refl _ _
    | with_reducible assumption
    | ((with_reducible apply Keeps.step (State.wr_keeps _ _ _ )); exact rfl)
    | ((with_reducible apply Keeps.step (setLane_keeps _ _ _ )); exact rfl)
    | ((with_reducible apply Keeps.step (dropLock_keeps _ _ )); exact rfl)
    | with_reducible apply Keeps.foldl
    | with_reducible apply Keeps.foldl_fst
    | split

theorem refreshLanes_keeps (x0 : State) : Keeps [.regs, .lanes] x0 (refreshLanes x0) := by
  unfold refreshLanes
  try dsimp only
  repeat' first
    | ((with_reducible intro _ _); dsimp only)
    | ((with_reducible intro _); dsimp only)
    | (with_reducible intro _)
    | with_reducible exact Keeps.refl _ _
    | with_reducible assumption
    | ((with_reducible apply Keeps.step (refreshLane_keeps _ _ )); exact rfl)
    | with_reducible apply Keeps.foldl
    | with_reducible apply Keeps.foldl_fst

theorem laneChecks_keeps (x0) (x1 : State) : Keeps [.regs, .host, .logs, .out, .perf] x1 (laneChecks x0 x1) := by
  unfold laneChecks
  try dsimp only
  repeat' first
    | ((with_reducible intro _ _); dsimp only)
    | ((with_reducible intro _); dsimp only)
    | (with_reducible intro _)
    | with_reducible exact Keeps.refl _ _
    | with_reducible assumption
    | ((with_reducible apply Keeps.step (clampPush_keeps _ _ )); exact rfl)
    | ((with_reducible apply Keeps.step (State.wr_keeps _ _ _ )); exact rfl)
    | with_reducible apply Keeps.foldl
    | with_reducible apply Keeps.foldl_fst
    | split

theorem laneLost_keeps (x0) (x1 : State) : Keeps [.regs, .logs, .out, .perf] x1 (laneLost x0 x1) := by
  unfold laneLost
  try dsimp only
  repeat' first
    | with_reducible exact Keeps.refl _ _
    | ((with_reducible apply Keeps.step (laneEvent_keeps _ _ _ _ )); exact rfl)

theorem laneGained_keeps (x0) (x1 : State) : Keeps [.regs, .logs, .out, .perf] x1 (laneGained x0 x1) := by
  unfold laneGained
  try dsimp only
  repeat' first
    | with_reducible exact Keeps.refl _ _
    | ((with_reducible apply Keeps.step (laneEvent_keeps _ _ _ _ )); exact rfl)

theorem execLaneExitDone_keeps (x0) (x1 : State) : ∃ t, execLaneExitDone x0 x1 = .next t ∧ Keeps [.regs, .logs, .out, .perf] x1 t := by
  unfold execLaneExitDone
  refine ⟨_, rfl, ?_⟩
  try dsimp only
  repeat' first
    | ((with_reducible intro _ _); dsimp only)
    | ((with_reducible intro _); dsimp only)
    | (with_reducible intro _)
    | with_reducible exact Keeps.refl _ _
    | with_reducible assumption
    | ((with_reducible apply Keeps.step (laneEvent_keeps _ _ _ _ )); exact rfl)
    | ((with_reducible apply Keeps.step (setLane_keeps _ _ _ )); exact rfl)
    | with_reducible apply Keeps.foldl
    | with_reducible apply Keeps.foldl_fst
    | split

theorem execCdrLock_keeps (x0) (x1 : State) : ∃ t, execCdrLock x0 x1 = .next t ∧ Keeps [.regs] x1 t := by
  unfold execCdrLock
  refine ⟨_, rfl, ?_⟩
  try dsimp only
  repeat' first
    | ((with_reducible intro _ _); dsimp only)
    | ((with_reducible intro _); dsimp only)
    | (with_reducible intro _)
    | with_reducible exact Keeps.refl _ _
    | with_reducible assumption
    | ((with_reducible apply Keeps.step (State.wr_keeps _ _ _ )); exact rfl)
    | ((with_reducible apply Keeps.step (setLane_keeps _ _ _ )); exact rfl)
    | with_reducible apply Keeps.foldl
    | with_reducible apply Keeps.foldl_fst
    | split

theorem execCdrLockLost_keeps (x0) (x1) (x2 : State) : ∃ t, execCdrLockLost x0 x1 x2 = .next t ∧ Keeps [.regs, .logs, .out, .perf, .lanes] x2 t := by
  unfold execCdrLockLost
  refine ⟨_, rfl, ?_⟩
  try dsimp only
  repeat' first
    | ((with_reducible intro _ _); dsimp only)
    | ((with_reducible intro _); dsimp only)
    | (with_reducible intro _)
    | with_reducible exact Keeps.refl _ _
    | with_reducible assumption
    | ((with_reducible apply Keeps.step (laneLost_keeps _ _ )); exact rfl)
    | ((with_reducible apply Keeps.step (State.wr_keeps _ _ _ )); exact rfl)
    | ((with_reducible apply Keeps.step (setLane_keeps _ _ _ )); exact rfl)
    | ((with_reducible apply Keeps.step (dropLock_keeps _ _ )); exact rfl)
    | with_reducible apply Keeps.foldl
    | with_reducible apply Keeps.foldl_fst
    | split

theorem execLaneLockGained_keeps (x0) (x1 : State) : ∃ t, execLaneLockGained x0 x1 = .next t ∧ Keeps [.regs, .logs, .out, .perf] x1 t := by
  unfold execLaneLockGained
  refine ⟨_, rfl, ?_⟩
  try dsimp only
  repeat' first
    | ((with_reducible intro _ _); dsimp only)
    | ((with_reducible intro _); dsimp only)
    | (with_reducible intro _)
    | with_reducible exact Keeps.refl _ _
    | with_reducible assumption
    | ((with_reducible apply Keeps.step (laneEvent_keeps _ _ _ _ )); exact rfl)
    | ((with_reducible apply Keeps.step (laneGained_keeps _ _ )); exact rfl)
    | ((with_reducible apply Keeps.step (setLane_keeps _ _ _ )); exact rfl)
    | ((with_reducible apply Keeps.step (State.wrs_keeps _ _ )); exact rfl)
    | with_reducible apply Keeps.foldl
    | with_reducible apply Keeps.foldl_fst
    | split

theorem loseLock_keeps (x0) (x1 : State) : Keeps [.regs, .logs, .out, .perf, .lanes] x1 (loseLock x0 x1) := by
  unfold loseLock
  try dsimp only
  repeat' first
    | ((with_reducible intro _ _); dsimp only)
    | ((with_reducible intro _); dsimp only)
    | (with_reducible intro _)
    | with_reducible exact Keeps.refl _ _
    | with_reducible assumption
    | ((with_reducible apply Keeps.step (laneLost_keeps _ _ )); exact rfl)
    | ((with_reducible apply Keeps.step (setLane_keeps _ _ _ )); exact rfl)
    | ((with_reducible apply Keeps.step (dropLock_keeps _ _ )); exact rfl)
    | with_reducible apply Keeps.foldl
    | with_reducible apply Keeps.foldl_fst
    | split

theorem execLaneLockLost_keeps (x0) (x1) (x2 : State) : ∃ t, execLaneLockLost x0 x1 x2 = .next t ∧ Keeps [.regs, .logs, .out, .perf, .lanes] x2 t := by
  unfold execLaneLockLost
  refine ⟨_, rfl, ?_⟩
  try dsimp only
  repeat' first
    | ((with_reducible intro _ _); dsimp only)
    | ((with_reducible intro _); dsimp only)
    | (with_reducible intro _)
    | with_reducible exact Keeps.refl _ _
    | with_reducible assumption
    | ((with_reducible apply Keeps.step (loseLock_keeps _ _ )); exact rfl)
    | ((with_reducible apply Keeps.step (State.wrs_keeps _ _ )); exact rfl)
    | with_reducible apply Keeps.foldl
    | with_reducible apply Keeps.foldl_fst
    | split

theorem slip_keeps (x0) (x1 : State) : Keeps [.regs, .logs, .out, .perf, .lanes] x1 (slip x0 x1) := by
  unfold slip
  try dsimp only
  repeat' first
    | ((with_reducible intro _ _); dsimp only)
    | ((with_reducible intro _); dsimp only)
    | (with_reducible intro _)
    | with_reducible exact Keeps.refl _ _
    | with_reducible assumption
    | ((with_reducible apply Keeps.step (loseLock_keeps _ _ )); exact rfl)
    | ((with_reducible apply Keeps.step (State.wrs_keeps _ _ )); exact rfl)
    | with_reducible apply Keeps.foldl
    | with_reducible apply Keeps.foldl_fst
    | split

theorem execSlip_keeps (x0) (x1 : State) : ∃ t, execSlip x0 x1 = .next t ∧ Keeps [.regs, .host, .logs, .out, .perf, .lanes, .power] x1 t := by
  unfold execSlip
  refine ⟨_, rfl, ?_⟩
  try dsimp only
  repeat' first
    | ((with_reducible intro _ _); dsimp only)
    | ((with_reducible intro _); dsimp only)
    | (with_reducible intro _)
    | with_reducible exact Keeps.refl _ _
    | with_reducible assumption
    | ((with_reducible apply Keeps.step (slip_keeps _ _ )); exact rfl)
    | ((with_reducible apply hostCommand_keeps); exact rfl)

theorem rewriteSkew_keeps (x0 : State) : Keeps [.regs, .logs, .out, .perf] x0 (rewriteSkew x0) := by
  unfold rewriteSkew
  try dsimp only
  repeat' first
    | ((with_reducible intro _ _); dsimp only)
    | ((with_reducible intro _); dsimp only)
    | (with_reducible intro _)
    | with_reducible exact Keeps.refl _ _
    | with_reducible assumption
    | ((with_reducible apply Keeps.step (laneEvent_keeps _ _ _ _ )); exact rfl)
    | ((with_reducible apply Keeps.step (State.wrs_keeps _ _ )); exact rfl)
    | with_reducible apply Keeps.foldl
    | with_reducible apply Keeps.foldl_fst
    | split

theorem execMarkerReceived_keeps (x0) (x1) (x2 : State) : ∃ t, execMarkerReceived x0 x1 x2 = .next t ∧ Keeps [.regs, .logs, .out, .perf, .lanes] x2 t := by
  unfold execMarkerReceived
  refine ⟨_, rfl, ?_⟩
  try dsimp only
  repeat' first
    | ((with_reducible intro _ _); dsimp only)
    | ((with_reducible intro _); dsimp only)
    | (with_reducible intro _)
    | with_reducible exact Keeps.refl _ _
    | with_reducible assumption
    | ((with_reducible apply Keeps.step (rewriteSkew_keeps _ )); exact rfl)
    | ((with_reducible apply Keeps.step (State.modLane_keeps _ _ _ )); exact rfl)
    | ((with_reducible apply Keeps.step (State.wr_keeps _ _ _ )); exact rfl)
    | ((with_reducible apply Keeps.step (dropLock_keeps _ _ )); exact rfl)
    | ((with_reducible apply Keeps.step (State.wrs_keeps _ _ )); exact rfl)
    | with_reducible apply Keeps.foldl
    | with_reducible apply Keeps.foldl_fst
    | split

theorem execMequelCodeword_keeps (x0) (x1) (x2 : State) : ∃ t, execMequelCodeword x0 x1 x2 = .next t ∧ Keeps [.regs, .logs, .out, .perf] x2 t := by
  unfold execMequelCodeword
  refine ⟨_, rfl, ?_⟩
  try dsimp only
  repeat' first
    | ((with_reducible intro _ _); dsimp only)
    | ((with_reducible intro _); dsimp only)
    | (with_reducible intro _)
    | with_reducible exact Keeps.refl _ _
    | with_reducible assumption
    | ((with_reducible apply Keeps.step (laneEvent_keeps _ _ _ _ )); exact rfl)
    | ((with_reducible apply Keeps.step (State.addPair_keeps _ _ _ _ )); exact rfl)
    | with_reducible apply Keeps.foldl
    | with_reducible apply Keeps.foldl_fst
    | split

theorem countSideBad_keeps (x0) (x1 : State) : Keeps [.regs] x1 (countSideBad x0 x1) := by
  unfold countSideBad
  try dsimp only
  repeat' first
    | with_reducible exact Keeps.refl _ _
    | ((with_reducible apply Keeps.step (State.addPair_keeps _ _ _ _ )); exact rfl)

theorem sendSide_keeps (x0) (x1) (x2) (x3 : State) : Keeps [.out, .sides] x3 (sendSide x0 x1 x2 x3) := by
  unfold sendSide
  try dsimp only
  repeat' first
    | with_reducible exact Keeps.refl _ _
    | ((with_reducible apply Keeps.step (State.modSide_keeps _ _ _ )); exact rfl)
    | ((with_reducible apply Keeps.step (State.emit_keeps _ _ )); exact rfl)

theorem sendTripBlock_keeps (x0) (x1 : State) : Keeps [.out, .sides] x1 (sendTripBlock x0 x1) := by
  unfold sendTripBlock
  try dsimp only
  repeat' first
    | ((with_reducible intro _ _); dsimp only)
    | ((with_reducible intro _); dsimp only)
    | (with_reducible intro _)
    | with_reducible exact Keeps.refl _ _
    | with_reducible assumption
    | ((with_reducible apply Keeps.step (sendSide_keeps _ _ _ _ )); exact rfl)
    | ((with_reducible apply Keeps.step (State.modSide_keeps _ _ _ )); exact rfl)
    | with_reducible apply Keeps.foldl
    | with_reducible apply Keeps.foldl_fst
    | split

theorem sendTelemetry_keeps (x0) (x1 : State) : Keeps [.out, .sides] x1 (sendTelemetry x0 x1) := by
  unfold sendTelemetry
  try dsimp only
  repeat' first
    | ((with_reducible intro _ _); dsimp only)
    | ((with_reducible intro _); dsimp only)
    | (with_reducible intro _)
    | with_reducible exact Keeps.refl _ _
    | with_reducible assumption
    | ((with_reducible apply Keeps.step (sendSide_keeps _ _ _ _ )); exact rfl)
    | with_reducible apply Keeps.foldl
    | with_reducible apply Keeps.foldl_fst
    | split

theorem sendTunnel_keeps (x0) (x1) (x2 : State) : Keeps [.out, .sides] x2 (sendTunnel x0 x1 x2) := by
  unfold sendTunnel
  try dsimp only
  repeat' first
    | ((with_reducible intro _ _); dsimp only)
    | ((with_reducible intro _); dsimp only)
    | (with_reducible intro _)
    | with_reducible exact Keeps.refl _ _
    | with_reducible assumption
    | ((with_reducible apply Keeps.step (sendSide_keeps _ _ _ _ )); exact rfl)
    | with_reducible apply Keeps.foldl
    | with_reducible apply Keeps.foldl_fst
    | split

theorem tunnelBlock_keeps (x0) (x1) (x2) (x3) (x4) (x5 : State) : Keeps [.regs, .sides] x5 (tunnelBlock x0 x1 x2 x3 x4 x5) := by
  unfold tunnelBlock
  try dsimp only
  repeat' first
    | with_reducible exact Keeps.refl _ _
    | ((with_reducible apply Keeps.step (countSideBad_keeps _ _ )); exact rfl)
    | ((with_reducible apply Keeps.step (State.modSide_keeps _ _ _ )); exact rfl)
    | split

theorem execSideBlockReceived_keeps (x0) (x1) (x2 : State) : ∃ t, execSideBlockReceived x0 x1 x2 = .next t ∧ Keeps [.regs, .logs, .out, .perf, .sides] x2 t := by
  unfold execSideBlockReceived
  refine ⟨_, rfl, ?_⟩
  try dsimp only
  repeat' first
    | ((with_reducible intro _ _); dsimp only)
    | ((with_reducible intro _); dsimp only)
    | (with_reducible intro _)
    | with_reducible exact Keeps.refl _ _
    | with_reducible assumption
    | ((with_reducible apply Keeps.step (laneEvent_keeps _ _ _ _ )); exact rfl)
    | ((with_reducible apply Keeps.step (countSideBad_keeps _ _ )); exact rfl)
    | ((with_reducible apply Keeps.step (tunnelBlock_keeps _ _ _ _ _ _ )); exact rfl)
    | with_reducible apply Keeps.foldl
    | with_reducible apply Keeps.foldl_fst
    | split

theorem execUsxgmiiAnAck_keeps (x0) (x1 : State) : ∃ t, execUsxgmiiAnAck x0 x1 = .next t ∧ Keeps [.lanes] x1 t := by
  unfold execUsxgmiiAnAck
  refine ⟨_, rfl, ?_⟩
  try dsimp only
  repeat' first
    | ((with_reducible intro _ _); dsimp only)
    | ((with_reducible intro _); dsimp only)
    | (with_reducible intro _)
    | with_reducible exact Keeps.refl _ _
    | with_reducible assumption
    | ((with_reducible apply Keeps.step (State.modLane_keeps _ _ _ )); exact rfl)
    | with_reducible apply Keeps.foldl
    | with_reducible apply Keeps.foldl_fst
    | split

theorem execHostFaultReceived_keeps (x0) (x1) (x2) (x3 : State) : ∃ t, execHostFaultReceived x0 x1 x2 x3 = .next t ∧ Keeps [.regs, .logs, .out, .perf] x3 t := by
  unfold execHostFaultReceived
  refine ⟨_, rfl, ?_⟩
  try dsimp only
  repeat' first
    | ((with_reducible intro _ _); dsimp only)
    | ((with_reducible intro _); dsimp only)
    | (with_reducible intro _)
    | with_reducible exact Keeps.refl _ _
    | with_reducible assumption
    | ((with_reducible apply Keeps.step (laneEvent_keeps _ _ _ _ )); exact rfl)
    | ((with_reducible apply Keeps.step (State.setWord_keeps _ _ _ )); exact rfl)
    | with_reducible apply Keeps.foldl
    | with_reducible apply Keeps.foldl_fst
    | split

theorem eyeUpdate_keeps (x0 : State) (x1) : Keeps [.regs, .logs, .out, .perf, .lanes] x0 (eyeUpdate x0 x1) := by
  unfold eyeUpdate
  try dsimp only
  repeat' first
    | ((with_reducible intro _ _); dsimp only)
    | ((with_reducible intro _); dsimp only)
    | (with_reducible intro _)
    | with_reducible exact Keeps.refl _ _
    | with_reducible assumption
    | ((with_reducible apply Keeps.step (laneEvent_keeps _ _ _ _ )); exact rfl)
    | ((with_reducible apply Keeps.step (State.setWord_keeps _ _ _ )); exact rfl)
    | ((with_reducible apply Keeps.step (State.modLane_keeps _ _ _ )); exact rfl)
    | ((with_reducible apply Keeps.step (State.addPair_keeps _ _ _ _ )); exact rfl)
    | with_reducible apply Keeps.foldl
    | with_reducible apply Keeps.foldl_fst
    | split

theorem laneBoundary_keeps (x0) (x1 : State) : Keeps [.regs, .logs, .out, .perf, .lanes, .sides] x1 (laneBoundary x0 x1) := by
  unfold laneBoundary
  try dsimp only
  repeat' first
    | ((with_reducible intro _ _); dsimp only)
    | ((with_reducible intro _); dsimp only)
    | (with_reducible intro _)
    | with_reducible exact Keeps.refl _ _
    | with_reducible assumption
    | ((with_reducible apply Keeps.step (eyeUpdate_keeps _ _ )); exact rfl)
    | ((with_reducible apply Keeps.step (refreshLanes_keeps _ )); exact rfl)
    | ((with_reducible apply Keeps.step (sendTelemetry_keeps _ _ )); exact rfl)
    | with_reducible apply Keeps.foldl
    | with_reducible apply Keeps.foldl_fst

end Sys2Proof.Machine
end

