-- ==== Sys2Proof/Laws/KeepsCommands.lean ====
section
/-! SUPPORT. The parts each operation can change, and that it keeps a canonical state canonical: the network, the logs, commands and manifests. -/

set_option linter.unusedTactic false
set_option linter.unreachableTactic false

namespace Sys2Proof.Machine

/-! ### Network -/

theorem nextMsgId_keeps (x0 : State) : Keeps [.net] x0 (nextMsgId x0).2 := by
  unfold nextMsgId
  try dsimp only
  repeat' first
    | with_reducible exact Keeps.refl _ _
    | ((with_reducible apply Keeps.step (State.modNet_keeps _ _ )); exact rfl)

theorem sendOut_keeps (x0) (x1) (x2) (x3) (x4 : State) : Keeps [.net] x4 (sendOut x0 x1 x2 x3 x4) := by
  unfold sendOut
  try dsimp only
  repeat' first
    | with_reducible exact Keeps.refl _ _
    | ((with_reducible apply Keeps.step (State.modNet_keeps _ _ )); exact rfl)

theorem sendVia_keeps (x0) (x1) (x2) (x3 : State) : Keeps [.net] x3 (sendVia x0 x1 x2 x3) := by
  unfold sendVia
  try dsimp only
  repeat' first
    | ((with_reducible intro _ _); dsimp only)
    | ((with_reducible intro _); dsimp only)
    | (with_reducible intro _)
    | with_reducible exact Keeps.refl _ _
    | with_reducible assumption
    | ((with_reducible apply Keeps.step (sendOut_keeps _ _ _ _ _ )); exact rfl)
    | with_reducible apply Keeps.foldl
    | with_reducible apply Keeps.foldl_fst
    | split

theorem noRoute_keeps (x0 : State) : Keeps [.regs] x0 (noRoute x0) := by
  unfold noRoute
  try dsimp only
  repeat' first
    | with_reducible exact Keeps.refl _ _
    | ((with_reducible apply Keeps.step (State.addSat_keeps _ _ _ )); exact rfl)

theorem syncReasm_keeps (x0 : State) : Keeps [.regs] x0 (syncReasm x0) := by
  unfold syncReasm
  try dsimp only
  repeat' first
    | with_reducible exact Keeps.refl _ _
    | ((with_reducible apply Keeps.step (State.wr_keeps _ _ _ )); exact rfl)

theorem originate_keeps (x0) (x1 : State) : Keeps [.regs, .net] x1 (originate x0 x1) := by
  unfold originate
  try dsimp only
  repeat' first
    | ((with_reducible intro _ _); dsimp only)
    | ((with_reducible intro _); dsimp only)
    | (with_reducible intro _)
    | with_reducible exact Keeps.refl _ _
    | with_reducible assumption
    | ((with_reducible apply Keeps.step (sendVia_keeps _ _ _ _ )); exact rfl)
    | ((with_reducible apply Keeps.step (syncReasm_keeps _ )); exact rfl)
    | ((with_reducible apply Keeps.step (sendOut_keeps _ _ _ _ _ )); exact rfl)
    | ((with_reducible apply Keeps.step (noRoute_keeps _ )); exact rfl)
    | ((with_reducible apply Keeps.step (State.modNet_keeps _ _ )); exact rfl)
    | ((with_reducible apply Keeps.step (nextMsgId_keeps _ )); exact rfl)
    | with_reducible apply Keeps.foldl
    | with_reducible apply Keeps.foldl_fst
    | split

theorem originateAll_keeps (x0 : State) : Keeps [.regs, .messages, .net] x0 (originateAll x0) := by
  unfold originateAll
  try dsimp only
  repeat' first
    | ((with_reducible intro _ _); dsimp only)
    | ((with_reducible intro _); dsimp only)
    | (with_reducible intro _)
    | with_reducible exact Keeps.refl _ _
    | with_reducible assumption
    | ((with_reducible apply Keeps.step (State.withMessages_keeps _ _ )); exact rfl)
    | ((with_reducible apply Keeps.step (originate_keeps _ _ )); exact rfl)
    | with_reducible apply Keeps.foldl
    | with_reducible apply Keeps.foldl_fst

theorem enqueueNext_keeps (x0 : State) : Keeps [.regs, .logs, .out, .perf, .messages, .sram, .dma, .net] x0 (enqueueNext x0) := by
  unfold enqueueNext
  try dsimp only
  repeat' first
    | ((with_reducible intro _ _); dsimp only)
    | ((with_reducible intro _); dsimp only)
    | (with_reducible intro _)
    | with_reducible exact Keeps.refl _ _
    | with_reducible assumption
    | ((with_reducible apply Keeps.step (enqueueFrame_keeps _ _ _ )); exact rfl)
    | ((with_reducible apply Keeps.step (originateAll_keeps _ )); exact rfl)
    | ((with_reducible apply Keeps.step (State.modNet_keeps _ _ )); exact rfl)
    | with_reducible apply Keeps.foldl
    | with_reducible apply Keeps.foldl_fst
    | split

theorem execSsFrameEnqueue_keeps (x0 : State) : ∃ t, execSsFrameEnqueue x0 = .next t ∧ Keeps [.regs, .logs, .out, .perf, .messages, .sram, .dma, .net] x0 t := by
  unfold execSsFrameEnqueue
  refine ⟨_, rfl, ?_⟩
  try dsimp only
  repeat' first
    | with_reducible exact Keeps.refl _ _
    | ((with_reducible apply Keeps.step (enqueueNext_keeps _ )); exact rfl)

theorem sendBeacon_keeps (x0) (x1) (x2 : State) : Keeps [.regs, .logs, .out, .perf, .messages, .sram, .dma, .net] x2 (sendBeacon x0 x1 x2) := by
  unfold sendBeacon
  try dsimp only
  repeat' first
    | ((with_reducible intro _ _); dsimp only)
    | ((with_reducible intro _); dsimp only)
    | (with_reducible intro _)
    | with_reducible exact Keeps.refl _ _
    | with_reducible assumption
    | ((with_reducible apply Keeps.step (enqueueFrame_keeps _ _ _ )); exact rfl)
    | ((with_reducible apply Keeps.step (State.modModem_keeps _ _ _ )); exact rfl)
    | ((with_reducible apply Keeps.step (nextMsgId_keeps _ )); exact rfl)
    | with_reducible apply Keeps.foldl
    | with_reducible apply Keeps.foldl_fst
    | split

theorem execBeaconTimer_keeps (x0) (x1 : State) : ∃ t, execBeaconTimer x0 x1 = .next t ∧ Keeps [.regs, .logs, .out, .perf, .messages, .sram, .dma, .net] x1 t := by
  unfold execBeaconTimer
  refine ⟨_, rfl, ?_⟩
  try dsimp only
  repeat' first
    | ((with_reducible intro _ _); dsimp only)
    | ((with_reducible intro _); dsimp only)
    | (with_reducible intro _)
    | with_reducible exact Keeps.refl _ _
    | with_reducible assumption
    | ((with_reducible apply Keeps.step (oscStart_keeps _ )); exact rfl)
    | ((with_reducible apply Keeps.step (sendBeacon_keeps _ _ _ )); exact rfl)
    | with_reducible apply Keeps.foldl
    | with_reducible apply Keeps.foldl_fst
    | split

theorem probeAnswered_keeps (x0) (x1) (x2 : State) : Keeps [.regs, .host, .logs, .out, .perf, .messages, .signing, .links, .sram, .dma] x2 (probeAnswered x0 x1 x2) := by
  unfold probeAnswered
  try dsimp only
  repeat' first
    | ((with_reducible intro _ _); dsimp only)
    | ((with_reducible intro _); dsimp only)
    | (with_reducible intro _)
    | with_reducible exact Keeps.refl _ _
    | with_reducible assumption
    | ((with_reducible apply Keeps.step (probeEnd_keeps _ _ _ _ )); exact rfl)
    | with_reducible apply Keeps.foldl
    | with_reducible apply Keeps.foldl_fst
    | split

theorem takeFragment_keeps (x0) (x1) (x2) (x3) (x4 : State) : Keeps [.regs, .messages, .sram, .dma, .net] x4 (takeFragment x0 x1 x2 x3 x4) := by
  unfold takeFragment
  try dsimp only
  repeat' first
    | ((with_reducible intro _ _); dsimp only)
    | ((with_reducible intro _); dsimp only)
    | (with_reducible intro _)
    | with_reducible exact Keeps.refl _ _
    | with_reducible assumption
    | ((with_reducible apply Keeps.step (syncReasm_keeps _ )); exact rfl)
    | ((with_reducible apply Keeps.step (State.modNet_keeps _ _ )); exact rfl)
    | ((with_reducible apply Keeps.step (errorReport_keeps _ _ _ _ _ )); exact rfl)
    | with_reducible apply Keeps.foldl
    | with_reducible apply Keeps.foldl_fst
    | split

theorem takeRecord_keeps (x0) (x1 : State) : Keeps [.regs, .host, .logs, .out, .perf, .chain, .messages, .signing, .links, .trips, .pins, .sides, .sram, .dma, .net] x1 (takeRecord x0 x1) := by
  unfold takeRecord
  try dsimp only
  repeat' first
    | ((with_reducible intro _ _); dsimp only)
    | ((with_reducible intro _); dsimp only)
    | (with_reducible intro _)
    | with_reducible exact Keeps.refl _ _
    | with_reducible assumption
    | ((with_reducible apply Keeps.step (ssTripMessage_keeps _ _ _ )); exact rfl)
    | ((with_reducible apply Keeps.step (State.addSat_keeps _ _ _ )); exact rfl)
    | ((with_reducible apply Keeps.step (beaconReceived_keeps _ _ _ )); exact rfl)
    | ((with_reducible apply Keeps.step (takeFragment_keeps _ _ _ _ _ )); exact rfl)
    | ((with_reducible apply Keeps.step (sendMessage_keeps _ _ )); exact rfl)
    | ((with_reducible apply Keeps.step (probeAnswered_keeps _ _ _ )); exact rfl)
    | with_reducible apply Keeps.foldl
    | with_reducible apply Keeps.foldl_fst
    | split

theorem drainReceive_keeps (x0 : State) : Keeps [.regs, .host, .logs, .out, .perf, .chain, .messages, .signing, .links, .trips, .pins, .sides, .sram, .dma, .net] x0 (drainReceive x0) := by
  unfold drainReceive
  try dsimp only
  repeat' first
    | ((with_reducible intro _ _); dsimp only)
    | ((with_reducible intro _); dsimp only)
    | (with_reducible intro _)
    | with_reducible exact Keeps.refl _ _
    | with_reducible assumption
    | ((with_reducible apply Keeps.step (State.wr_keeps _ _ _ )); exact rfl)
    | ((with_reducible apply Keeps.step (takeRecord_keeps _ _ )); exact rfl)
    | ((with_reducible apply Keeps.step (syncModem_keeps _ _ )); exact rfl)
    | ((with_reducible apply Keeps.step (State.modModem_keeps _ _ _ )); exact rfl)
    | ((with_reducible apply Keeps.step (State.modNet_keeps _ _ )); exact rfl)
    | with_reducible apply Keeps.foldl
    | with_reducible apply Keeps.foldl_fst
    | split

theorem reasmTimeout_keeps (x0 : State) : Keeps [.regs, .messages, .sram, .dma, .net] x0 (reasmTimeout x0) := by
  unfold reasmTimeout
  try dsimp only
  repeat' first
    | ((with_reducible intro _ _); dsimp only)
    | ((with_reducible intro _); dsimp only)
    | (with_reducible intro _)
    | with_reducible exact Keeps.refl _ _
    | with_reducible assumption
    | ((with_reducible apply Keeps.step (State.addSat_keeps _ _ _ )); exact rfl)
    | ((with_reducible apply Keeps.step (syncReasm_keeps _ )); exact rfl)
    | ((with_reducible apply Keeps.step (State.modNet_keeps _ _ )); exact rfl)
    | ((with_reducible apply Keeps.step (errorReport_keeps _ _ _ _ _ )); exact rfl)
    | with_reducible apply Keeps.foldl
    | with_reducible apply Keeps.foldl_fst

theorem execReassemblyTimeout_keeps (x0 : State) : ∃ t, execReassemblyTimeout x0 = .next t ∧ Keeps [.regs, .messages, .sram, .dma, .net] x0 t := by
  unfold execReassemblyTimeout
  refine ⟨_, rfl, ?_⟩
  try dsimp only
  repeat' first
    | with_reducible exact Keeps.refl _ _
    | ((with_reducible apply Keeps.step (reasmTimeout_keeps _ )); exact rfl)

theorem dropReady_keeps (x0) (x1 : State) : Keeps [.regs, .net] x1 (dropReady x0 x1) := by
  unfold dropReady
  try dsimp only
  repeat' first
    | with_reducible exact Keeps.refl _ _
    | ((with_reducible apply Keeps.step (syncReasm_keeps _ )); exact rfl)
    | ((with_reducible apply Keeps.step (State.modNet_keeps _ _ )); exact rfl)

theorem deliverLocal_keeps (x0) (x1 : State) : Keeps [.regs, .host, .logs, .out, .perf, .chain, .messages, .signing, .trips, .sides, .sram, .dma, .net, .trust] x1 (deliverLocal x0 x1) := by
  unfold deliverLocal
  try dsimp only
  repeat' first
    | with_reducible exact Keeps.refl _ _
    | ((with_reducible apply Keeps.step (dropReady_keeps _ _ )); exact rfl)
    | ((with_reducible apply Keeps.step (arrive_keeps _ _ )); exact rfl)
    | ((with_reducible apply Keeps.step (sessionMessage_keeps _ _ _ )); exact rfl)
    | ((with_reducible apply Keeps.step (sendTunnel_keeps _ _ _ )); exact rfl)
    | split

theorem relay_keeps (x0) (x1 : State) : Keeps [.regs, .messages, .sram, .dma, .net] x1 (relay x0 x1) := by
  unfold relay
  try dsimp only
  repeat' first
    | ((with_reducible intro _ _); dsimp only)
    | ((with_reducible intro _); dsimp only)
    | (with_reducible intro _)
    | with_reducible exact Keeps.refl _ _
    | with_reducible assumption
    | ((with_reducible apply Keeps.step (dropReady_keeps _ _ )); exact rfl)
    | ((with_reducible apply Keeps.step (sendVia_keeps _ _ _ _ )); exact rfl)
    | ((with_reducible apply Keeps.step (State.addSat_keeps _ _ _ )); exact rfl)
    | ((with_reducible apply Keeps.step (noRoute_keeps _ )); exact rfl)
    | ((with_reducible apply Keeps.step (errorReport_keeps _ _ _ _ _ )); exact rfl)
    | with_reducible apply Keeps.foldl
    | with_reducible apply Keeps.foldl_fst
    | split

theorem takeMessage_keeps (x0) (x1 : State) : Keeps [.regs, .host, .logs, .out, .perf, .chain, .messages, .signing, .trips, .sides, .sram, .dma, .net, .trust] x1 (takeMessage x0 x1) := by
  unfold takeMessage
  try dsimp only
  repeat' first
    | ((with_reducible intro _ _); dsimp only)
    | ((with_reducible intro _); dsimp only)
    | (with_reducible intro _)
    | with_reducible exact Keeps.refl _ _
    | with_reducible assumption
    | ((with_reducible apply Keeps.step (dropReady_keeps _ _ )); exact rfl)
    | ((with_reducible apply Keeps.step (deliverLocal_keeps _ _ )); exact rfl)
    | ((with_reducible apply Keeps.step (noRoute_keeps _ )); exact rfl)
    | ((with_reducible apply Keeps.step (relay_keeps _ _ )); exact rfl)
    | with_reducible apply Keeps.foldl
    | with_reducible apply Keeps.foldl_fst
    | split

theorem execMessageReassembled_keeps (x0 : State) : ∃ t, execMessageReassembled x0 = .next t ∧ Keeps [.regs, .host, .logs, .out, .perf, .chain, .messages, .signing, .trips, .sides, .sram, .dma, .net, .trust] x0 t := by
  unfold execMessageReassembled
  refine ⟨_, rfl, ?_⟩
  try dsimp only
  repeat' first
    | ((with_reducible intro _ _); dsimp only)
    | ((with_reducible intro _); dsimp only)
    | (with_reducible intro _)
    | with_reducible exact Keeps.refl _ _
    | with_reducible assumption
    | ((with_reducible apply Keeps.step (takeMessage_keeps _ _ )); exact rfl)
    | with_reducible apply Keeps.foldl
    | with_reducible apply Keeps.foldl_fst
    | split

theorem tunnelMessage_keeps (x0) (x1) (x2 : State) : Keeps [.regs, .host, .logs, .out, .perf, .messages, .signing, .sram, .dma, .trust] x2 (tunnelMessage x0 x1 x2) := by
  unfold tunnelMessage
  try dsimp only
  repeat' first
    | ((with_reducible intro _ _); dsimp only)
    | ((with_reducible intro _); dsimp only)
    | (with_reducible intro _)
    | with_reducible exact Keeps.refl _ _
    | with_reducible assumption
    | ((with_reducible apply Keeps.step (State.addSat_keeps _ _ _ )); exact rfl)
    | ((with_reducible apply Keeps.step (arrive_keeps _ _ )); exact rfl)
    | ((with_reducible apply Keeps.step (sendMessage_keeps _ _ )); exact rfl)
    | with_reducible apply Keeps.foldl
    | with_reducible apply Keeps.foldl_fst
    | split

theorem execTunnelMessage_keeps (x0) (x1 : State) : ∃ t, execTunnelMessage x0 x1 = .next t ∧ Keeps [.regs, .host, .logs, .out, .perf, .messages, .signing, .sides, .sram, .dma, .trust] x1 t := by
  unfold execTunnelMessage
  refine ⟨_, rfl, ?_⟩
  try dsimp only
  repeat' first
    | ((with_reducible intro _ _); dsimp only)
    | ((with_reducible intro _); dsimp only)
    | (with_reducible intro _)
    | with_reducible exact Keeps.refl _ _
    | with_reducible assumption
    | ((with_reducible apply Keeps.step (State.modSide_keeps _ _ _ )); exact rfl)
    | ((with_reducible apply Keeps.step (tunnelMessage_keeps _ _ _ )); exact rfl)
    | with_reducible apply Keeps.foldl
    | with_reducible apply Keeps.foldl_fst
    | split

/-! ### Logging -/

theorem msixHeldSend_keeps (x0) (x1 : State) : Keeps [.regs, .out, .perf] x1 (msixHeldSend x0 x1) := by
  unfold msixHeldSend
  try dsimp only
  repeat' first
    | ((with_reducible intro _ _); dsimp only)
    | ((with_reducible intro _); dsimp only)
    | (with_reducible intro _)
    | with_reducible exact Keeps.refl _ _
    | with_reducible assumption
    | ((with_reducible apply Keeps.step (State.sendMsix_keeps _ _ )); exact rfl)
    | ((with_reducible apply Keeps.step (perfCount_keeps _ _ _ )); exact rfl)
    | ((with_reducible apply Keeps.step (State.clearArrayBit_keeps _ _ _ )); exact rfl)
    | with_reducible apply Keeps.foldl
    | with_reducible apply Keeps.foldl_fst
    | split

theorem execMsixHeldSend_keeps (x0) (x1 : State) : ∃ t, execMsixHeldSend x0 x1 = .next t ∧ Keeps [.regs, .out, .perf] x1 t := by
  unfold execMsixHeldSend
  refine ⟨_, rfl, ?_⟩
  try dsimp only
  repeat' first
    | with_reducible exact Keeps.refl _ _
    | ((with_reducible apply Keeps.step (msixHeldSend_keeps _ _ )); exact rfl)

theorem markBadRecord_keeps (x0) (x1) (x2) (x3 : State) : Keeps [.logs] x3 (markBadRecord x0 x1 x2 x3).1 := by
  unfold markBadRecord
  try dsimp only
  repeat' first
    | with_reducible exact Keeps.refl _ _
    | split
    | ((with_reducible apply Keeps.upd_logs); exact rfl)
    | (refine Keeps.of_parts ?_ rfl rfl rfl (fun h => h); intro p hp; cases p <;> first | rfl | exact absurd hp (by decide))

theorem logWordBad_keeps (x0) (x1 : State) : Keeps [.regs, .logs, .out, .perf] x1 (logWordBad x0 x1) := by
  unfold logWordBad
  try dsimp only
  repeat' first
    | with_reducible exact Keeps.refl _ _
    | ((with_reducible apply Keeps.step (logEvent_keeps _ _ )); exact rfl)
    | ((with_reducible apply Keeps.step (State.addSat_keeps _ _ _ )); exact rfl)
    | ((with_reducible apply Keeps.step (markBadRecord_keeps _ _ _ _ )); exact rfl)
    | split

theorem logScrub_keeps (x0) (x1 : State) : Keeps [.regs, .logs, .out, .perf] x1 (logScrub x0 x1) := by
  unfold logScrub
  try dsimp only
  repeat' first
    | ((with_reducible intro _ _); dsimp only)
    | ((with_reducible intro _); dsimp only)
    | (with_reducible intro _)
    | with_reducible exact Keeps.refl _ _
    | with_reducible assumption
    | ((with_reducible apply Keeps.step (logWordBad_keeps _ _ )); exact rfl)
    | with_reducible apply Keeps.foldl
    | with_reducible apply Keeps.foldl_fst
    | ((with_reducible apply Keeps.upd_logs); exact rfl)
    | (refine Keeps.of_parts ?_ rfl rfl rfl (fun h => h); intro p hp; cases p <;> first | rfl | exact absurd hp (by decide))

theorem execLogScrubAccess_keeps (x0) (x1 : State) : ∃ t, execLogScrubAccess x0 x1 = .next t ∧ Keeps [.regs, .logs, .out, .perf] x1 t := by
  unfold execLogScrubAccess
  refine ⟨_, rfl, ?_⟩
  try dsimp only
  repeat' first
    | ((with_reducible intro _ _); dsimp only)
    | ((with_reducible intro _); dsimp only)
    | (with_reducible intro _)
    | with_reducible exact Keeps.refl _ _
    | with_reducible assumption
    | ((with_reducible apply Keeps.step (logScrub_keeps _ _ )); exact rfl)
    | with_reducible apply Keeps.foldl
    | with_reducible apply Keeps.foldl_fst
    | split

theorem alarmAck_keeps (x0) (x1 : State) : Keeps [.regs, .logs] x1 (alarmAck x0 x1) := by
  unfold alarmAck
  try dsimp only
  repeat' first
    | with_reducible exact Keeps.refl _ _
    | ((with_reducible apply Keeps.step (State.setWord_keeps _ _ _ )); exact rfl)
    | split
    | ((with_reducible apply Keeps.upd_logs); exact rfl)
    | (refine Keeps.of_parts ?_ rfl rfl rfl (fun h => h); intro p hp; cases p <;> first | rfl | exact absurd hp (by decide))

theorem execAlarmAckWrite_keeps (x0) (x1 : State) : ∃ t, execAlarmAckWrite x0 x1 = .next t ∧ Keeps [.regs, .host, .logs, .out, .perf, .power] x1 t := by
  unfold execAlarmAckWrite
  refine ⟨_, rfl, ?_⟩
  try dsimp only
  repeat' first
    | ((with_reducible intro _ _); dsimp only)
    | ((with_reducible intro _); dsimp only)
    | (with_reducible intro _)
    | with_reducible exact Keeps.refl _ _
    | with_reducible assumption
    | ((with_reducible apply Keeps.step (alarmAck_keeps _ _ )); exact rfl)
    | ((with_reducible apply hostCommand_keeps); exact rfl)

theorem expRdWrite_keeps (x0) (x1) (x2 : State) : Keeps [.regs, .logs] x2 (expRdWrite x0 x1 x2) := by
  unfold expRdWrite
  try dsimp only
  repeat' first
    | ((with_reducible intro _ _); dsimp only)
    | ((with_reducible intro _); dsimp only)
    | (with_reducible intro _)
    | with_reducible exact Keeps.refl _ _
    | with_reducible assumption
    | ((with_reducible apply Keeps.step (State.setExp_keeps _ _ _ )); exact rfl)
    | ((with_reducible apply Keeps.step (State.wr_keeps _ _ _ )); exact rfl)
    | with_reducible apply Keeps.foldl
    | with_reducible apply Keeps.foldl_fst
    | split

theorem execExpRdWrite_keeps (x0) (x1) (x2 : State) : ∃ t, execExpRdWrite x0 x1 x2 = .next t ∧ Keeps [.regs, .host, .logs, .out, .perf, .power] x2 t := by
  unfold execExpRdWrite
  refine ⟨_, rfl, ?_⟩
  try dsimp only
  repeat' first
    | ((with_reducible intro _ _); dsimp only)
    | ((with_reducible intro _); dsimp only)
    | (with_reducible intro _)
    | with_reducible exact Keeps.refl _ _
    | with_reducible assumption
    | ((with_reducible apply Keeps.step (expRdWrite_keeps _ _ _ )); exact rfl)
    | ((with_reducible apply hostCommand_keeps); exact rfl)

theorem execExportStallTimeout_keeps (x0) (x1 : State) : ∃ t, execExportStallTimeout x0 x1 = .next t ∧ Keeps [.regs, .logs, .out, .perf] x1 t := by
  unfold execExportStallTimeout
  refine ⟨_, rfl, ?_⟩
  try dsimp only
  repeat' first
    | ((with_reducible intro _ _); dsimp only)
    | ((with_reducible intro _); dsimp only)
    | (with_reducible intro _)
    | with_reducible exact Keeps.refl _ _
    | with_reducible assumption
    | ((with_reducible apply Keeps.step (State.setExp_keeps _ _ _ )); exact rfl)
    | ((with_reducible apply Keeps.step (logEvent_keeps _ _ )); exact rfl)
    | with_reducible apply Keeps.foldl
    | with_reducible apply Keeps.foldl_fst
    | split

theorem recordsFreed_keeps (x0 : State) : Keeps [.regs, .logs, .out, .perf, .chain, .signing] x0 (recordsFreed x0) := by
  unfold recordsFreed
  try dsimp only
  repeat' first
    | with_reducible exact Keeps.refl _ _
    | ((with_reducible apply Keeps.step (drainHeldAudit_keeps _ _ )); exact rfl)
    | ((with_reducible apply Keeps.step (gapMarker_keeps _ )); exact rfl)
    | ((with_reducible apply Keeps.step (drainHeldAlarm_keeps _ _ )); exact rfl)

theorem execLogRecordsFreed_keeps (x0 : State) : ∃ t, execLogRecordsFreed x0 = .next t ∧ Keeps [.regs, .logs, .out, .perf, .chain, .signing] x0 t := by
  unfold execLogRecordsFreed
  refine ⟨_, rfl, ?_⟩
  try dsimp only
  repeat' first
    | with_reducible exact Keeps.refl _ _
    | ((with_reducible apply Keeps.step (recordsFreed_keeps _ )); exact rfl)

theorem mmdLoad_keeps (x0) (x1) (x2 : State) : Keeps [.logs] x2 (mmdLoad x0 x1 x2) := by
  unfold mmdLoad
  try dsimp only
  repeat' first
    | with_reducible exact Keeps.refl _ _
    | ((with_reducible apply Keeps.upd_logs); exact rfl)
    | (refine Keeps.of_parts ?_ rfl rfl rfl (fun h => h); intro p hp; cases p <;> first | rfl | exact absurd hp (by decide))

theorem execMmd31LoadRecord_keeps (x0) (x1) (x2 : State) : ∃ t, execMmd31LoadRecord x0 x1 x2 = .next t ∧ Keeps [.regs, .host, .logs, .out, .perf, .power] x2 t := by
  unfold execMmd31LoadRecord
  refine ⟨_, rfl, ?_⟩
  try dsimp only
  repeat' first
    | ((with_reducible intro _ _); dsimp only)
    | ((with_reducible intro _); dsimp only)
    | (with_reducible intro _)
    | with_reducible exact Keeps.refl _ _
    | with_reducible assumption
    | ((with_reducible apply Keeps.step (mmdLoad_keeps _ _ _ )); exact rfl)
    | ((with_reducible apply hostCommand_keeps); exact rfl)

theorem execMmd31LastWordRead_keeps (x0) (x1 : State) : ∃ t, execMmd31LastWordRead x0 x1 = .next t ∧ Keeps [.regs, .host, .logs, .out, .perf, .power] x1 t := by
  unfold execMmd31LastWordRead
  refine ⟨_, rfl, ?_⟩
  try dsimp only
  repeat' first
    | ((with_reducible intro _ _); dsimp only)
    | ((with_reducible intro _); dsimp only)
    | (with_reducible intro _)
    | with_reducible exact Keeps.refl _ _
    | with_reducible assumption
    | ((with_reducible apply Keeps.step (mmdLoad_keeps _ _ _ )); exact rfl)
    | ((with_reducible apply hostCommand_keeps); exact rfl)
    | ((with_reducible apply Keeps.step (State.emit_keeps _ _ )); exact rfl)
    | with_reducible apply Keeps.foldl
    | with_reducible apply Keeps.foldl_fst

theorem mmdAck_keeps (x0) (x1) (x2 : State) : Keeps [.regs, .logs, .out, .perf] x2 (mmdAck x0 x1 x2) := by
  unfold mmdAck
  try dsimp only
  repeat' first
    | ((with_reducible intro _ _); dsimp only)
    | ((with_reducible intro _); dsimp only)
    | (with_reducible intro _)
    | with_reducible exact Keeps.refl _ _
    | with_reducible assumption
    | ((with_reducible apply Keeps.step (markExported_keeps _ _ _ )); exact rfl)
    | ((with_reducible apply Keeps.step (alarmAck_keeps _ _ )); exact rfl)
    | with_reducible apply Keeps.foldl
    | with_reducible apply Keeps.foldl_fst
    | split
    | ((with_reducible apply Keeps.upd_logs); exact rfl)
    | (refine Keeps.of_parts ?_ rfl rfl rfl (fun h => h); intro p hp; cases p <;> first | rfl | exact absurd hp (by decide))

theorem execMmd31Acknowledge_keeps (x0) (x1) (x2 : State) : ∃ t, execMmd31Acknowledge x0 x1 x2 = .next t ∧ Keeps [.regs, .host, .logs, .out, .perf, .power] x2 t := by
  unfold execMmd31Acknowledge
  refine ⟨_, rfl, ?_⟩
  try dsimp only
  repeat' first
    | ((with_reducible intro _ _); dsimp only)
    | ((with_reducible intro _); dsimp only)
    | (with_reducible intro _)
    | with_reducible exact Keeps.refl _ _
    | with_reducible assumption
    | ((with_reducible apply Keeps.step (mmdAck_keeps _ _ _ )); exact rfl)
    | ((with_reducible apply hostCommand_keeps); exact rfl)

theorem recSelWrite_keeps (x0) (x1 : State) : Keeps [.regs, .logs] x1 (recSelWrite x0 x1) := by
  unfold recSelWrite
  try dsimp only
  repeat' first
    | ((with_reducible intro _ _); dsimp only)
    | ((with_reducible intro _); dsimp only)
    | (with_reducible intro _)
    | with_reducible exact Keeps.refl _ _
    | with_reducible assumption
    | ((with_reducible apply Keeps.step (State.setWord_keeps _ _ _ )); exact rfl)
    | with_reducible apply Keeps.foldl
    | with_reducible apply Keeps.foldl_fst
    | ((with_reducible apply Keeps.upd_logs); exact rfl)
    | (refine Keeps.of_parts ?_ rfl rfl rfl (fun h => h); intro p hp; cases p <;> first | rfl | exact absurd hp (by decide))

theorem execRecSelWrite_keeps (x0) (x1 : State) : ∃ t, execRecSelWrite x0 x1 = .next t ∧ Keeps [.regs, .host, .logs, .out, .perf, .power] x1 t := by
  unfold execRecSelWrite
  refine ⟨_, rfl, ?_⟩
  try dsimp only
  repeat' first
    | ((with_reducible intro _ _); dsimp only)
    | ((with_reducible intro _); dsimp only)
    | (with_reducible intro _)
    | with_reducible exact Keeps.refl _ _
    | with_reducible assumption
    | ((with_reducible apply Keeps.step (recSelWrite_keeps _ _ )); exact rfl)
    | ((with_reducible apply hostCommand_keeps); exact rfl)

theorem sendSummary_keeps (x0 : State) : Keeps [.logs, .messages, .sram, .dma] x0 (sendSummary x0) := by
  unfold sendSummary
  try dsimp only
  repeat' first
    | ((with_reducible intro _ _); dsimp only)
    | ((with_reducible intro _); dsimp only)
    | (with_reducible intro _)
    | with_reducible exact Keeps.refl _ _
    | with_reducible assumption
    | ((with_reducible apply Keeps.step (sendMessage_keeps _ _ )); exact rfl)
    | with_reducible apply Keeps.foldl
    | with_reducible apply Keeps.foldl_fst
    | ((with_reducible apply Keeps.upd_logs); exact rfl)
    | (refine Keeps.of_parts ?_ rfl rfl rfl (fun h => h); intro p hp; cases p <;> first | rfl | exact absurd hp (by decide))

theorem execSsLogSummaryDue_keeps (x0 : State) : ∃ t, execSsLogSummaryDue x0 = .next t ∧ Keeps [.logs, .messages, .sram, .dma] x0 t := by
  unfold execSsLogSummaryDue
  refine ⟨_, rfl, ?_⟩
  try dsimp only
  repeat' first
    | ((with_reducible intro _ _); dsimp only)
    | ((with_reducible intro _); dsimp only)
    | (with_reducible intro _)
    | with_reducible exact Keeps.refl _ _
    | with_reducible assumption
    | ((with_reducible apply Keeps.step (sendSummary_keeps _ )); exact rfl)
    | with_reducible apply Keeps.foldl
    | with_reducible apply Keeps.foldl_fst
    | split

/-! ### Commands -/

theorem judgeCommand_keeps (x0) (x1 : State) : Keeps [.regs, .host, .logs, .out, .perf, .messages, .signing, .sram, .dma, .trust] x1 (judgeCommand x0 x1) := by
  unfold judgeCommand
  try dsimp only
  repeat' first
    | ((with_reducible intro _ _); dsimp only)
    | ((with_reducible intro _); dsimp only)
    | (with_reducible intro _)
    | with_reducible exact Keeps.refl _ _
    | with_reducible assumption
    | ((with_reducible apply Keeps.step (dropItem_keeps _ )); exact rfl)
    | ((with_reducible apply Keeps.step (refuseCommand_keeps _ _ _ )); exact rfl)
    | ((with_reducible apply Keeps.step (settleItems_keeps _ )); exact rfl)
    | ((with_reducible apply Keeps.step (State.modTrust_keeps _ _ )); exact rfl)
    | with_reducible apply Keeps.foldl
    | with_reducible apply Keeps.foldl_fst
    | split

theorem execPortSet_keeps (x0 : State) : ∃ t, execPortSet x0 = .next t ∧ Keeps [.regs, .host, .logs, .out, .perf, .messages, .signing, .sram, .dma, .trust] x0 t := by
  unfold execPortSet
  refine ⟨_, rfl, ?_⟩
  try dsimp only
  repeat' first
    | with_reducible exact Keeps.refl _ _
    | ((with_reducible apply Keeps.step (judgeCommand_keeps _ _ )); exact rfl)

theorem execAttest_keeps (x0 : State) : ∃ t, execAttest x0 = .next t ∧ Keeps [.regs, .host, .logs, .out, .perf, .messages, .signing, .sram, .dma, .trust] x0 t := by
  unfold execAttest
  refine ⟨_, rfl, ?_⟩
  try dsimp only
  repeat' first
    | with_reducible exact Keeps.refl _ _
    | ((with_reducible apply Keeps.step (judgeCommand_keeps _ _ )); exact rfl)

theorem execTripArm_keeps (x0 : State) : ∃ t, execTripArm x0 = .next t ∧ Keeps [.regs, .host, .logs, .out, .perf, .messages, .signing, .sram, .dma, .trust] x0 t := by
  unfold execTripArm
  refine ⟨_, rfl, ?_⟩
  try dsimp only
  repeat' first
    | with_reducible exact Keeps.refl _ _
    | ((with_reducible apply Keeps.step (judgeCommand_keeps _ _ )); exact rfl)

theorem execTripDisarm_keeps (x0 : State) : ∃ t, execTripDisarm x0 = .next t ∧ Keeps [.regs, .host, .logs, .out, .perf, .messages, .signing, .sram, .dma, .trust] x0 t := by
  unfold execTripDisarm
  refine ⟨_, rfl, ?_⟩
  try dsimp only
  repeat' first
    | with_reducible exact Keeps.refl _ _
    | ((with_reducible apply Keeps.step (judgeCommand_keeps _ _ )); exact rfl)

theorem execDiagRun_keeps (x0 : State) : ∃ t, execDiagRun x0 = .next t ∧ Keeps [.regs, .host, .logs, .out, .perf, .messages, .signing, .sram, .dma, .trust] x0 t := by
  unfold execDiagRun
  refine ⟨_, rfl, ?_⟩
  try dsimp only
  repeat' first
    | with_reducible exact Keeps.refl _ _
    | ((with_reducible apply Keeps.step (judgeCommand_keeps _ _ )); exact rfl)

theorem execTimeSet_keeps (x0 : State) : ∃ t, execTimeSet x0 = .next t ∧ Keeps [.regs, .host, .logs, .out, .perf, .messages, .signing, .sram, .dma, .trust] x0 t := by
  unfold execTimeSet
  refine ⟨_, rfl, ?_⟩
  try dsimp only
  repeat' first
    | with_reducible exact Keeps.refl _ _
    | ((with_reducible apply Keeps.step (judgeCommand_keeps _ _ )); exact rfl)

theorem execLogSummary_keeps (x0 : State) : ∃ t, execLogSummary x0 = .next t ∧ Keeps [.regs, .host, .logs, .out, .perf, .messages, .signing, .sram, .dma, .trust] x0 t := by
  unfold execLogSummary
  refine ⟨_, rfl, ?_⟩
  try dsimp only
  repeat' first
    | with_reducible exact Keeps.refl _ _
    | ((with_reducible apply Keeps.step (judgeCommand_keeps _ _ )); exact rfl)

theorem execCtxClear_keeps (x0 : State) : ∃ t, execCtxClear x0 = .next t ∧ Keeps [.regs, .host, .logs, .out, .perf, .messages, .signing, .sram, .dma, .trust] x0 t := by
  unfold execCtxClear
  refine ⟨_, rfl, ?_⟩
  try dsimp only
  repeat' first
    | with_reducible exact Keeps.refl _ _
    | ((with_reducible apply Keeps.step (judgeCommand_keeps _ _ )); exact rfl)

theorem portSet_keeps (x0) (x1) (x2 : State) : Keeps [.regs] x2 (portSet x0 x1 x2) := by
  unfold portSet
  try dsimp only
  repeat' first
    | ((with_reducible intro _ _); dsimp only)
    | ((with_reducible intro _); dsimp only)
    | (with_reducible intro _)
    | with_reducible exact Keeps.refl _ _
    | with_reducible assumption
    | ((with_reducible apply Keeps.step (State.wr_keeps _ _ _ )); exact rfl)
    | ((with_reducible apply Keeps.step (State.setPending_keeps _ _ _ )); exact rfl)
    | with_reducible apply Keeps.foldl
    | with_reducible apply Keeps.foldl_fst
    | split

theorem disarm_keeps (x0) (x1 : State) : Keeps [.regs, .logs, .out, .perf, .chain, .signing, .trips, .trust] x1 (disarm x0 x1) := by
  unfold disarm
  try dsimp only
  repeat' first
    | with_reducible exact Keeps.refl _ _
    | ((with_reducible apply Keeps.step (abandonArm_keeps _ _ )); exact rfl)
    | ((with_reducible apply Keeps.step (State.wr_keeps _ _ _ )); exact rfl)
    | ((with_reducible apply Keeps.step (auditSession_keeps _ _ _ )); exact rfl)
    | ((with_reducible apply Keeps.step (endSession_keeps _ _ _ )); exact rfl)
    | split

theorem clearPeer_keeps (x0) (x1) (x2 : State) : Keeps [.regs, .net] x2 (clearPeer x0 x1 x2) := by
  unfold clearPeer
  try dsimp only
  repeat' first
    | with_reducible exact Keeps.refl _ _
    | ((with_reducible apply Keeps.step (State.setPeer_keeps _ _ _ )); exact rfl)

theorem refuseJudged_keeps (x0) (x1) (x2 : State) : Keeps [.regs, .host, .logs, .out, .perf, .messages, .signing, .sram, .dma, .trust] x2 (refuseJudged x0 x1 x2) := by
  unfold refuseJudged
  try dsimp only
  repeat' first
    | with_reducible exact Keeps.refl _ _
    | ((with_reducible apply Keeps.step (noteJudgement_keeps _ _ _ _ )); exact rfl)
    | ((with_reducible apply Keeps.step (sendReply_keeps _ _ _ _ )); exact rfl)
    | ((with_reducible apply Keeps.step (mailboxDone_keeps _ _ _ )); exact rfl)

theorem advanceReplay_keeps (x0) (x1) (x2 : State) : Keeps [.regs, .net, .trust] x2 (advanceReplay x0 x1 x2) := by
  unfold advanceReplay
  try dsimp only
  repeat' first
    | with_reducible exact Keeps.refl _ _
    | ((with_reducible apply Keeps.step (State.setPeer_keeps _ _ _ )); exact rfl)
    | ((with_reducible apply Keeps.step (State.modTrust_keeps _ _ )); exact rfl)
    | split

theorem diagScan_keeps {n : Nat} {r : DueReply} {s t : State} (h : diagScan n r s = some t) :
    Keeps [.regs, .host, .logs, .out, .perf, .messages, .signing, .pool, .sram, .dma] s t := by
  unfold diagScan at h
  dsimp only at h
  split at h
  · have e := Option.some.inj h
    subst e
    exact runScan_keeps _ _
  · split at h
    · have e := Option.some.inj h
      subst e
      exact Keeps.upd_pool rfl (fun h => h) (Keeps.refl _ _)
    · cases h

theorem executeCommand_keeps (c : Command) (s : State) :
    Keeps [.regs, .host, .logs, .out, .perf, .chain, .messages, .signing, .links, .trips, .pool, .sram, .dma, .net, .trust, .power] s
      (executeCommand c s).state := by
  unfold executeCommand
  dsimp only
  split
  · split
    · exact (portSet_keeps _ _ _).mono rfl
    · exact Keeps.refl _ _
  · exact Keeps.refl _ _
  · split
    · exact Keeps.refl _ _
    · split
      · exact Keeps.refl _ _
      · exact Keeps.step (armPort_keeps _ _ _ _) rfl ((State.setPeer_keeps _ _ _).mono rfl)
  · split
    · exact Keeps.refl _ _
    · exact (disarm_keeps _ _).mono rfl
  · split
    · exact Keeps.refl _ _
    · split
      · exact (startTest_keeps _ _ _).mono rfl
      · split
        · rename_i h
          exact (diagScan_keeps h).mono rfl
        · exact Keeps.refl _ _
  · split
    · exact Keeps.refl _ _
    · exact (setRtc_keeps _ _ _).mono rfl
  · exact Keeps.refl _ _
  · split
    · split
      · exact Keeps.refl _ _
      · exact (clearPeer_keeps _ _ _).mono rfl
    · exact Keeps.refl _ _
  · exact Keeps.refl _ _

theorem commandJournaled_keeps (x0) (x1) (x2 : State) : Keeps [.regs, .host, .logs, .out, .perf, .chain, .messages, .signing, .links, .trips, .pool, .sram, .dma, .net, .trust, .power] x2 (commandJournaled x0 x1 x2) := by
  unfold commandJournaled
  split
  · exact (refuseJudged_keeps _ _ _).mono rfl
  · extract_lets x s1 s2
    have hx : Keeps [.regs, .host, .logs, .out, .perf, .chain, .messages, .signing, .links, .trips, .pool, .sram, .dma, .net, .trust, .power] x2 x.state :=
      Keeps.step (executeCommand_keeps _ _) rfl ((advanceReplay_keeps _ _ _).mono rfl)
    clear_value x
    have h1 : Keeps [.regs, .host, .logs, .out, .perf, .chain, .messages, .signing, .links, .trips, .pool, .sram, .dma, .net, .trust, .power] x2 s1 :=
      Keeps.step (audit_keeps _ _ _ _ _) rfl (Keeps.step (noteJudgement_keeps _ _ _ _) rfl hx)
    clear_value s1
    have h2 : Keeps [.regs, .host, .logs, .out, .perf, .chain, .messages, .signing, .links, .trips, .pool, .sram, .dma, .net, .trust, .power] x2 s2 := by
      subst s2
      split
      · exact Keeps.step (sendReply_keeps _ _ _ _) rfl h1
      · exact h1
    clear_value s2
    split
    · exact Keeps.step (refuseJudged_keeps _ _ _) rfl hx
    · exact Keeps.step (mailboxDone_keeps _ _ _) rfl h2

theorem signatureMade_keeps (x0) (x1) (x2 : State) : Keeps [.regs, .host, .logs, .out, .perf, .chain, .messages, .signing, .sram, .dma] x2 (signatureMade x0 x1 x2) := by
  unfold signatureMade
  try dsimp only
  repeat' first
    | ((with_reducible intro _ _); dsimp only)
    | ((with_reducible intro _); dsimp only)
    | (with_reducible intro _)
    | with_reducible exact Keeps.refl _ _
    | with_reducible assumption
    | ((with_reducible apply Keeps.step (checkpointStart_keeps _ )); exact rfl)
    | ((with_reducible apply Keeps.step (writeBytes_keeps _ _ _ )); exact rfl)
    | ((with_reducible apply Keeps.step (sendMessage_keeps _ _ )); exact rfl)
    | ((with_reducible apply wcDone_keeps); exact rfl)
    | ((with_reducible apply Keeps.step (tstEvent_keeps _ _ )); exact rfl)
    | ((with_reducible apply Keeps.step (audit_keeps _ _ _ _ _ )); exact rfl)
    | with_reducible apply Keeps.foldl
    | with_reducible apply Keeps.foldl_fst
    | split

theorem signatureFault_keeps (x0) (x1 : State) : Keeps [.host, .signing] x1 (signatureFault x0 x1) := by
  unfold signatureFault
  try dsimp only
  repeat' first
    | ((with_reducible intro _ _); dsimp only)
    | ((with_reducible intro _); dsimp only)
    | (with_reducible intro _)
    | with_reducible exact Keeps.refl _ _
    | with_reducible assumption
    | ((with_reducible apply Keeps.step (checkpointStart_keeps _ )); exact rfl)
    | ((with_reducible apply wcDone_keeps); exact rfl)
    | split

theorem ownSignatureEnd_keeps (x0) (x1 : State) : Keeps [.regs, .host, .logs, .out, .perf, .chain, .messages, .signing, .signCount, .sram, .dma] x1 (ownSignatureEnd x0 x1) := by
  unfold ownSignatureEnd
  try dsimp only
  repeat' first
    | ((with_reducible intro _ _); dsimp only)
    | ((with_reducible intro _); dsimp only)
    | (with_reducible intro _)
    | with_reducible exact Keeps.refl _ _
    | with_reducible assumption
    | ((with_reducible apply Keeps.step (State.withSignCount_keeps _ _ )); exact rfl)
    | ((with_reducible apply Keeps.step (signatureFault_keeps _ _ )); exact rfl)
    | ((with_reducible apply Keeps.step (signatureMade_keeps _ _ _ )); exact rfl)
    | ((with_reducible apply Keeps.step (State.withSigning_keeps _ _ )); exact rfl)
    | ((with_reducible apply Keeps.step (perfCount_keeps _ _ _ )); exact rfl)
    | with_reducible apply Keeps.foldl
    | with_reducible apply Keeps.foldl_fst
    | split

theorem execLatticeJobEnd_keeps (x0) (x1) (x2 : State) : ∃ t, execLatticeJobEnd x0 x1 x2 = .next t ∧ Keeps [.regs, .host, .logs, .out, .perf, .chain, .messages, .signing, .signCount, .sram, .seq, .dma, .trust] x2 t := by
  unfold execLatticeJobEnd
  refine ⟨_, rfl, ?_⟩
  try dsimp only
  repeat' first
    | with_reducible exact Keeps.refl _ _
    | ((with_reducible apply Keeps.step (ownSignatureEnd_keeps _ _ )); exact rfl)
    | ((with_reducible apply Keeps.step (latticeJobEnd_keeps _ _ )); exact rfl)
    | split

/-! ### Manifest -/

theorem answerManifest_keeps (x0) (x1) (x2) (x3) (x4 : State) : Keeps [.regs, .host, .messages, .signing, .sram, .dma, .trust] x4 (answerManifest x0 x1 x2 x3 x4) := by
  unfold answerManifest
  try dsimp only
  repeat' first
    | with_reducible exact Keeps.refl _ _
    | ((with_reducible apply Keeps.step (State.wr_keeps _ _ _ )); exact rfl)
    | ((with_reducible apply Keeps.step (sendReply_keeps _ _ _ _ )); exact rfl)
    | ((with_reducible apply Keeps.step (mailboxDone_keeps _ _ _ )); exact rfl)
    | split

theorem refuseManifest_keeps (x0) (x1) (x2) (x3) (x4 : State) : Keeps [.regs, .host, .logs, .out, .perf, .chain, .messages, .signing, .sram, .dma, .trust] x4 (refuseManifest x0 x1 x2 x3 x4) := by
  unfold refuseManifest
  try dsimp only
  repeat' first
    | with_reducible exact Keeps.refl _ _
    | ((with_reducible apply Keeps.step (answerManifest_keeps _ _ _ _ _ )); exact rfl)
    | ((with_reducible apply Keeps.step (tstEvent_keeps _ _ )); exact rfl)
    | ((with_reducible apply Keeps.step (audit_keeps _ _ _ _ _ )); exact rfl)

theorem manifestReceived_keeps (x0 : State) : Keeps [.regs, .host, .logs, .out, .perf, .chain, .messages, .signing, .sram, .dma, .trust] x0 (manifestReceived x0) := by
  unfold manifestReceived
  try dsimp only
  repeat' first
    | ((with_reducible intro _ _); dsimp only)
    | ((with_reducible intro _); dsimp only)
    | (with_reducible intro _)
    | with_reducible exact Keeps.refl _ _
    | with_reducible assumption
    | ((with_reducible apply Keeps.step (dropItem_keeps _ )); exact rfl)
    | ((with_reducible apply Keeps.step (refuseManifest_keeps _ _ _ _ _ )); exact rfl)
    | ((with_reducible apply Keeps.step (settleItems_keeps _ )); exact rfl)
    | ((with_reducible apply Keeps.step (State.modTrust_keeps _ _ )); exact rfl)
    | with_reducible apply Keeps.foldl
    | with_reducible apply Keeps.foldl_fst
    | split

theorem execManifestReceived_keeps (x0 : State) : ∃ t, execManifestReceived x0 = .next t ∧ Keeps [.regs, .host, .logs, .out, .perf, .chain, .messages, .signing, .sram, .dma, .trust] x0 t := by
  unfold execManifestReceived
  refine ⟨_, rfl, ?_⟩
  try dsimp only
  repeat' first
    | with_reducible exact Keeps.refl _ _
    | ((with_reducible apply Keeps.step (manifestReceived_keeps _ )); exact rfl)

theorem burnEntry_keeps (x0) (x1) (x2 : State) : Keeps [.trust] x2 (burnEntry x0 x1 x2) := by
  unfold burnEntry
  try dsimp only
  repeat' first
    | with_reducible exact Keeps.refl _ _
    | ((with_reducible apply Keeps.step (State.modOtp_keeps _ _ )); exact rfl)
    | ((with_reducible apply Keeps.step (burnOwner_keeps _ _ _ _ _ )); exact rfl)
    | split

theorem stageManifest_keeps (x0) (x1) (x2 : State) : Keeps [.regs, .host, .logs, .out, .perf, .chain, .messages, .signing, .sram, .dma, .trust] x2 (stageManifest x0 x1 x2) := by
  unfold stageManifest
  try dsimp only
  repeat' first
    | ((with_reducible intro _ _); dsimp only)
    | ((with_reducible intro _); dsimp only)
    | (with_reducible intro _)
    | with_reducible exact Keeps.refl _ _
    | with_reducible assumption
    | ((with_reducible apply Keeps.step (refuseManifest_keeps _ _ _ _ _ )); exact rfl)
    | ((with_reducible apply Keeps.step (extendMeas_keeps _ _ _ )); exact rfl)
    | ((with_reducible apply Keeps.step (answerManifest_keeps _ _ _ _ _ )); exact rfl)
    | ((with_reducible apply Keeps.step (State.modTrust_keeps _ _ )); exact rfl)
    | ((with_reducible apply Keeps.step (burnEntry_keeps _ _ _ )); exact rfl)
    | ((with_reducible apply Keeps.step (State.setPair_keeps _ _ _ _ )); exact rfl)
    | ((with_reducible apply Keeps.step (tstEvent_keeps _ _ )); exact rfl)
    | ((with_reducible apply Keeps.step (audit_keeps _ _ _ _ _ )); exact rfl)
    | with_reducible apply Keeps.foldl
    | with_reducible apply Keeps.foldl_fst
    | split

theorem journalDone_keeps (x0) (x1) (x2 : State) : Keeps [.regs, .host, .logs, .out, .perf, .chain, .messages, .signing, .links, .trips, .pool, .sram, .dma, .net, .trust, .power] x2 (journalDone x0 x1 x2) := by
  unfold journalDone
  try dsimp only
  repeat' first
    | with_reducible exact Keeps.refl _ _
    | ((with_reducible apply Keeps.step (stageManifest_keeps _ _ _ )); exact rfl)
    | ((with_reducible apply Keeps.step (refuseManifest_keeps _ _ _ _ _ )); exact rfl)
    | ((with_reducible apply Keeps.step (commandJournaled_keeps _ _ _ )); exact rfl)
    | ((with_reducible apply Keeps.step (settleItems_keeps _ )); exact rfl)
    | ((with_reducible apply Keeps.step (State.modTrust_keeps _ _ )); exact rfl)
    | split

theorem execJournalWriteDone_keeps (x0) (x1) (x2 : State) : ∃ t, execJournalWriteDone x0 x1 x2 = .next t ∧ Keeps [.regs, .host, .logs, .out, .perf, .chain, .messages, .signing, .links, .trips, .pool, .sram, .dma, .net, .trust, .power] x2 t := by
  unfold execJournalWriteDone
  refine ⟨_, rfl, ?_⟩
  try dsimp only
  repeat' first
    | with_reducible exact Keeps.refl _ _
    | ((with_reducible apply Keeps.step (journalDone_keeps _ _ _ )); exact rfl)

end Sys2Proof.Machine
end

