-- ==== Sys2Proof/Laws/KeepsDevice.lean ====
section
/-! SUPPORT. The parts each operation can change, and that it keeps a canonical state canonical: firmware, wheel, resets, power states, calibration, snapshot, start, monitoring. -/

set_option linter.unusedTactic false
set_option linter.unreachableTactic false

namespace Sys2Proof.Machine

/-! ### FwImage -/

theorem writeModules_keeps (x0) (x1) (x2 : State) : Keeps [.seq] x2 (writeModules x0 x1 x2) := by
  unfold writeModules
  try dsimp only
  repeat' first
    | ((with_reducible intro _ _); dsimp only)
    | ((with_reducible intro _); dsimp only)
    | (with_reducible intro _)
    | with_reducible exact Keeps.refl _ _
    | with_reducible assumption
    | with_reducible apply Keeps.foldl
    | with_reducible apply Keeps.foldl_fst
    | ((with_reducible apply Keeps.upd_seq); exact rfl)
    | (refine Keeps.of_parts ?_ rfl rfl rfl (fun h => h); intro p hp; cases p <;> first | rfl | exact absurd hp (by decide))

theorem setFlashSlot_keeps (x0) (x1) (x2 : State) : Keeps [.trust] x2 (setFlashSlot x0 x1 x2) := by
  unfold setFlashSlot
  try dsimp only
  repeat' first
    | with_reducible exact Keeps.refl _ _
    | split
    | ((with_reducible apply Keeps.upd_trust); exact rfl)
    | (refine Keeps.of_parts ?_ rfl rfl rfl (fun h => h); intro p hp; cases p <;> first | rfl | exact absurd hp (by decide))

/-! ### Wheel -/

theorem State.modWheel_keeps (x0 : State) (x1) : Keeps [.wheel] x0 (Sys2Proof.Machine.State.modWheel x0 x1) := by
  unfold Sys2Proof.Machine.State.modWheel
  try dsimp only
  repeat' first
    | with_reducible exact Keeps.refl _ _
    | ((with_reducible apply Keeps.step (State.withWheel_keeps _ _ )); exact rfl)

theorem writeLoad_keeps (x0) (x1) (x2) (x3 : State) : Keeps [.regs] x3 (writeLoad x0 x1 x2 x3) := by
  unfold writeLoad
  try dsimp only
  repeat' first
    | with_reducible exact Keeps.refl _ _
    | ((with_reducible apply Keeps.step (State.wrs_keeps _ _ )); exact rfl)

theorem beginLoad_keeps (x0) (x1 : State) : Keeps [.regs, .host, .wheel] x1 (beginLoad x0 x1) := by
  unfold beginLoad
  try dsimp only
  repeat' first
    | ((with_reducible intro _ _); dsimp only)
    | ((with_reducible intro _); dsimp only)
    | (with_reducible intro _)
    | with_reducible exact Keeps.refl _ _
    | with_reducible assumption
    | ((with_reducible apply Keeps.step (State.setWc_keeps _ _ _ )); exact rfl)
    | ((with_reducible apply Keeps.step (writeLoad_keeps _ _ _ _ )); exact rfl)
    | ((with_reducible apply Keeps.step (State.setWord_keeps _ _ _ )); exact rfl)
    | ((with_reducible apply Keeps.step (State.wr_keeps _ _ _ )); exact rfl)
    | ((with_reducible apply Keeps.step (State.modWheel_keeps _ _ )); exact rfl)
    | with_reducible apply Keeps.foldl
    | with_reducible apply Keeps.foldl_fst

theorem endLoad_keeps (x0) (x1) (x2) (x3) (x4 : State) : Keeps [.regs, .host, .logs, .out, .perf, .chain, .signing, .wheel] x4 (endLoad x0 x1 x2 x3 x4) := by
  unfold endLoad
  try dsimp only
  repeat' first
    | ((with_reducible intro _ _); dsimp only)
    | ((with_reducible intro _); dsimp only)
    | (with_reducible intro _)
    | with_reducible exact Keeps.refl _ _
    | with_reducible assumption
    | ((with_reducible apply Keeps.step (State.setWc_keeps _ _ _ )); exact rfl)
    | ((with_reducible apply Keeps.step (writeLoad_keeps _ _ _ _ )); exact rfl)
    | ((with_reducible apply Keeps.step (wheelEvent_keeps _ _ )); exact rfl)
    | ((with_reducible apply Keeps.step (State.setWord_keeps _ _ _ )); exact rfl)
    | ((with_reducible apply Keeps.step (beginLoad_keeps _ _ )); exact rfl)
    | ((with_reducible apply Keeps.step (State.modWheel_keeps _ _ )); exact rfl)
    | ((with_reducible apply Keeps.step (audit_keeps _ _ _ _ _ )); exact rfl)
    | with_reducible apply Keeps.foldl
    | with_reducible apply Keeps.foldl_fst
    | split

theorem loadWrite_keeps (x0) (x1 : State) : Keeps [.regs, .host, .logs, .out, .perf, .chain, .signing, .wheel] x1 (loadWrite x0 x1) := by
  unfold loadWrite
  try dsimp only
  repeat' first
    | ((with_reducible intro _ _); dsimp only)
    | ((with_reducible intro _); dsimp only)
    | (with_reducible intro _)
    | with_reducible exact Keeps.refl _ _
    | with_reducible assumption
    | ((with_reducible apply Keeps.step (State.setWc_keeps _ _ _ )); exact rfl)
    | ((with_reducible apply Keeps.step (beginLoad_keeps _ _ )); exact rfl)
    | ((with_reducible apply Keeps.step (State.wr_keeps _ _ _ )); exact rfl)
    | ((with_reducible apply Keeps.step (State.modWheel_keeps _ _ )); exact rfl)
    | ((with_reducible apply Keeps.step (endLoad_keeps _ _ _ _ _ )); exact rfl)
    | ((with_reducible apply Keeps.step (ignored_keeps _ _ _ )); exact rfl)
    | with_reducible apply Keeps.foldl
    | with_reducible apply Keeps.foldl_fst
    | split

theorem execLoad_keeps (x0 : State) : ∃ t, execLoad x0 = .next t ∧ Keeps [.regs, .host, .logs, .out, .perf, .chain, .signing, .wheel, .power] x0 t := by
  unfold execLoad
  refine ⟨_, rfl, ?_⟩
  try dsimp only
  repeat' first
    | ((with_reducible intro _ _); dsimp only)
    | ((with_reducible intro _); dsimp only)
    | (with_reducible intro _)
    | with_reducible exact Keeps.refl _ _
    | with_reducible assumption
    | ((with_reducible apply Keeps.step (loadWrite_keeps _ _ )); exact rfl)
    | ((with_reducible apply hostCommand_keeps); exact rfl)

theorem execFromFlash_keeps (x0 : State) : ∃ t, execFromFlash x0 = .next t ∧ Keeps [.regs, .host, .logs, .out, .perf, .chain, .signing, .wheel, .power] x0 t := by
  unfold execFromFlash
  refine ⟨_, rfl, ?_⟩
  try dsimp only
  repeat' first
    | ((with_reducible intro _ _); dsimp only)
    | ((with_reducible intro _); dsimp only)
    | (with_reducible intro _)
    | with_reducible exact Keeps.refl _ _
    | with_reducible assumption
    | ((with_reducible apply Keeps.step (loadWrite_keeps _ _ )); exact rfl)
    | ((with_reducible apply hostCommand_keeps); exact rfl)

theorem imageFetched_keeps (x0) (x1 : State) : Keeps [.regs, .host, .logs, .out, .perf, .chain, .signing, .wheel] x1 (imageFetched x0 x1) := by
  unfold imageFetched
  try dsimp only
  repeat' first
    | ((with_reducible intro _ _); dsimp only)
    | ((with_reducible intro _); dsimp only)
    | (with_reducible intro _)
    | with_reducible exact Keeps.refl _ _
    | with_reducible assumption
    | ((with_reducible apply Keeps.step (writeLoad_keeps _ _ _ _ )); exact rfl)
    | ((with_reducible apply Keeps.step (State.modWheel_keeps _ _ )); exact rfl)
    | ((with_reducible apply Keeps.step (endLoad_keeps _ _ _ _ _ )); exact rfl)
    | with_reducible apply Keeps.foldl
    | with_reducible apply Keeps.foldl_fst
    | split

theorem execWheelImageFetched_keeps (x0) (x1 : State) : ∃ t, execWheelImageFetched x0 x1 = .next t ∧ Keeps [.regs, .host, .logs, .out, .perf, .chain, .signing, .wheel] x1 t := by
  unfold execWheelImageFetched
  refine ⟨_, rfl, ?_⟩
  try dsimp only
  repeat' first
    | with_reducible exact Keeps.refl _ _
    | ((with_reducible apply Keeps.step (imageFetched_keeps _ _ )); exact rfl)

theorem readyToActivate_keeps (x0 : State) : Keeps [.regs, .seq] x0 (readyToActivate x0) := by
  unfold readyToActivate
  try dsimp only
  repeat' first
    | ((with_reducible intro _ _); dsimp only)
    | ((with_reducible intro _); dsimp only)
    | (with_reducible intro _)
    | with_reducible exact Keeps.refl _ _
    | with_reducible assumption
    | ((with_reducible apply Keeps.step (State.wr_keeps _ _ _ )); exact rfl)
    | ((with_reducible apply Keeps.step (writeModules_keeps _ _ _ )); exact rfl)
    | with_reducible apply Keeps.foldl
    | with_reducible apply Keeps.foldl_fst

theorem admitted_keeps (x0) (x1 : State) : Keeps [.regs, .wheel, .seq] x1 (admitted x0 x1) := by
  unfold admitted
  try dsimp only
  repeat' first
    | ((with_reducible intro _ _); dsimp only)
    | ((with_reducible intro _); dsimp only)
    | (with_reducible intro _)
    | with_reducible exact Keeps.refl _ _
    | with_reducible assumption
    | ((with_reducible apply Keeps.step (writeLoad_keeps _ _ _ _ )); exact rfl)
    | ((with_reducible apply Keeps.step (State.setWord_keeps _ _ _ )); exact rfl)
    | ((with_reducible apply Keeps.step (State.modWheel_keeps _ _ )); exact rfl)
    | ((with_reducible apply Keeps.step (readyToActivate_keeps _ )); exact rfl)
    | ((with_reducible apply Keeps.step (State.wrs_keeps _ _ )); exact rfl)
    | with_reducible apply Keeps.foldl
    | with_reducible apply Keeps.foldl_fst
    | split
    | ((with_reducible apply Keeps.upd_seq); exact rfl)
    | (refine Keeps.of_parts ?_ rfl rfl rfl (fun h => h); intro p hp; cases p <;> first | rfl | exact absurd hp (by decide))

theorem admissionDone_keeps (x0 : State) : Keeps [.regs, .host, .logs, .out, .perf, .chain, .signing, .wheel, .seq] x0 (admissionDone x0) := by
  unfold admissionDone
  try dsimp only
  repeat' first
    | ((with_reducible intro _ _); dsimp only)
    | ((with_reducible intro _); dsimp only)
    | (with_reducible intro _)
    | with_reducible exact Keeps.refl _ _
    | with_reducible assumption
    | ((with_reducible apply Keeps.step (endLoad_keeps _ _ _ _ _ )); exact rfl)
    | ((with_reducible apply Keeps.step (admitted_keeps _ _ )); exact rfl)
    | with_reducible apply Keeps.foldl
    | with_reducible apply Keeps.foldl_fst
    | split

theorem execWheelAdmissionDone_keeps (x0 : State) : ∃ t, execWheelAdmissionDone x0 = .next t ∧ Keeps [.regs, .host, .logs, .out, .perf, .chain, .signing, .wheel, .seq] x0 t := by
  unfold execWheelAdmissionDone
  refine ⟨_, rfl, ?_⟩
  try dsimp only
  repeat' first
    | with_reducible exact Keeps.refl _ _
    | ((with_reducible apply Keeps.step (admissionDone_keeps _ )); exact rfl)

theorem cancelLoad_keeps (x0 : State) : Keeps [.regs, .host, .logs, .out, .perf, .chain, .signing, .wheel] x0 (cancelLoad x0) := by
  unfold cancelLoad
  try dsimp only
  repeat' first
    | ((with_reducible intro _ _); dsimp only)
    | ((with_reducible intro _); dsimp only)
    | (with_reducible intro _)
    | with_reducible exact Keeps.refl _ _
    | with_reducible assumption
    | ((with_reducible apply Keeps.step (wheelEvent_keeps _ _ )); exact rfl)
    | ((with_reducible apply Keeps.step (endLoad_keeps _ _ _ _ _ )); exact rfl)
    | with_reducible apply Keeps.foldl
    | with_reducible apply Keeps.foldl_fst
    | split

theorem execCancel_keeps (x0 : State) : ∃ t, execCancel x0 = .next t ∧ Keeps [.regs, .host, .logs, .out, .perf, .chain, .signing, .wheel, .power] x0 t := by
  unfold execCancel
  refine ⟨_, rfl, ?_⟩
  try dsimp only
  repeat' first
    | ((with_reducible intro _ _); dsimp only)
    | ((with_reducible intro _); dsimp only)
    | (with_reducible intro _)
    | with_reducible exact Keeps.refl _ _
    | with_reducible assumption
    | ((with_reducible apply Keeps.step (cancelLoad_keeps _ )); exact rfl)
    | ((with_reducible apply hostCommand_keeps); exact rfl)

theorem revertWrite_keeps (x0 : State) : Keeps [.regs, .wheel] x0 (revertWrite x0) := by
  unfold revertWrite
  try dsimp only
  repeat' first
    | ((with_reducible intro _ _); dsimp only)
    | ((with_reducible intro _); dsimp only)
    | (with_reducible intro _)
    | with_reducible exact Keeps.refl _ _
    | with_reducible assumption
    | ((with_reducible apply Keeps.step (State.wr_keeps _ _ _ )); exact rfl)
    | ((with_reducible apply Keeps.step (State.modWheel_keeps _ _ )); exact rfl)
    | with_reducible apply Keeps.foldl
    | with_reducible apply Keeps.foldl_fst
    | split

theorem revertCmd_keeps (x0 : State) : Keeps [.regs, .host, .wheel] x0 (revertCmd x0) := by
  unfold revertCmd
  try dsimp only
  repeat' first
    | ((with_reducible intro _ _); dsimp only)
    | ((with_reducible intro _); dsimp only)
    | (with_reducible intro _)
    | with_reducible exact Keeps.refl _ _
    | with_reducible assumption
    | ((with_reducible apply Keeps.step (refuseSealed_keeps _ _ _ )); exact rfl)
    | ((with_reducible apply Keeps.step (revertWrite_keeps _ )); exact rfl)
    | with_reducible apply Keeps.foldl
    | with_reducible apply Keeps.foldl_fst
    | split

theorem execRevert_keeps (x0 : State) : ∃ t, execRevert x0 = .next t ∧ Keeps [.regs, .host, .logs, .out, .perf, .wheel, .power] x0 t := by
  unfold execRevert
  refine ⟨_, rfl, ?_⟩
  try dsimp only
  repeat' first
    | ((with_reducible intro _ _); dsimp only)
    | ((with_reducible intro _); dsimp only)
    | (with_reducible intro _)
    | with_reducible exact Keeps.refl _ _
    | with_reducible assumption
    | ((with_reducible apply Keeps.step (revertCmd_keeps _ )); exact rfl)
    | ((with_reducible apply hostCommand_keeps); exact rfl)

theorem dropTask_keeps (x0) (x1 : State) : Keeps [.regs, .seq, .dma] x1 (dropTask x0 x1) := by
  unfold dropTask
  try dsimp only
  repeat' first
    | ((with_reducible intro _ _); dsimp only)
    | ((with_reducible intro _); dsimp only)
    | (with_reducible intro _)
    | with_reducible exact Keeps.refl _ _
    | with_reducible assumption
    | ((with_reducible apply Keeps.step (abandonJob_keeps _ _ )); exact rfl)
    | ((with_reducible apply Keeps.step (State.setJob_keeps _ _ _ )); exact rfl)
    | ((with_reducible apply Keeps.step (State.setCtx_keeps _ _ _ )); exact rfl)
    | with_reducible apply Keeps.foldl
    | with_reducible apply Keeps.foldl_fst
    | split

theorem carryAcross_keeps (x0) (x1 : State) : Keeps [.regs, .host, .logs, .out, .perf, .messages, .signing, .links, .trips, .pool, .reach, .lpi, .classes, .mons, .sram, .wheel, .seq, .dma] x1 (carryAcross x0 x1) := by
  unfold carryAcross
  try dsimp only
  repeat' first
    | ((with_reducible intro _ _); dsimp only)
    | ((with_reducible intro _); dsimp only)
    | (with_reducible intro _)
    | with_reducible exact Keeps.refl _ _
    | with_reducible assumption
    | ((with_reducible apply Keeps.step (dropTask_keeps _ _ )); exact rfl)
    | ((with_reducible apply Keeps.step (State.withClasses_keeps _ _ )); exact rfl)
    | ((with_reducible apply Keeps.step (State.wr_keeps _ _ _ )); exact rfl)
    | ((with_reducible apply Keeps.step (State.setPair_keeps _ _ _ _ )); exact rfl)
    | ((with_reducible apply Keeps.step (startTask_keeps _ _ )); exact rfl)
    | ((with_reducible apply Keeps.step (switchBlocks_keeps _ _ )); exact rfl)
    | ((with_reducible apply Keeps.step (abandonJobs_keeps _ _ )); exact rfl)
    | ((with_reducible apply Keeps.step (applyClass_keeps _ _ )); exact rfl)
    | with_reducible apply Keeps.foldl
    | with_reducible apply Keeps.foldl_fst
    | split
    | ((with_reducible apply Keeps.upd_wheel); exact rfl)
    | (refine Keeps.of_parts ?_ rfl rfl rfl (fun h => h); intro p hp; cases p <;> first | rfl | exact absurd hp (by decide))

theorem switchTo_keeps (x0) (x1 : State) : Keeps [.regs, .host, .logs, .out, .perf, .messages, .signing, .links, .trips, .pool, .reach, .lpi, .classes, .mons, .sram, .wheel, .seq, .dma] x1 (switchTo x0 x1) := by
  unfold switchTo
  try dsimp only
  repeat' first
    | with_reducible exact Keeps.refl _ _
    | ((with_reducible apply Keeps.step (wheelEvent_keeps _ _ )); exact rfl)
    | ((with_reducible apply Keeps.step (carryAcross_keeps _ _ )); exact rfl)
    | ((with_reducible apply Keeps.step (extendMeas_keeps _ _ _ )); exact rfl)

theorem switchFirmware_keeps (x0 : State) : Keeps [.regs, .logs, .out, .perf, .chain, .signing, .seq, .trust, .fw] x0 (switchFirmware x0) := by
  unfold switchFirmware
  try dsimp only
  repeat' first
    | ((with_reducible intro _ _); dsimp only)
    | ((with_reducible intro _); dsimp only)
    | (with_reducible intro _)
    | with_reducible exact Keeps.refl _ _
    | with_reducible assumption
    | ((with_reducible apply Keeps.step (extendMeas_keeps _ _ _ )); exact rfl)
    | ((with_reducible apply Keeps.step (State.wrs_keeps _ _ )); exact rfl)
    | ((with_reducible apply Keeps.step (audit_keeps _ _ _ _ _ )); exact rfl)
    | with_reducible apply Keeps.foldl
    | with_reducible apply Keeps.foldl_fst
    | split
    | ((with_reducible apply Keeps.upd_seq); exact rfl)
    | ((with_reducible apply Keeps.upd_trust); exact rfl)
    | ((with_reducible apply Keeps.upd_fw); exact rfl)
    | (refine Keeps.of_parts ?_ rfl rfl rfl (fun h => h); intro p hp; cases p <;> first | rfl | exact absurd hp (by decide))

theorem wheelBoundary_keeps (x0 : State) : Keeps [.regs, .host, .logs, .out, .perf, .chain, .messages, .signing, .links, .trips, .pool, .reach, .lpi, .classes, .mons, .sram, .wheel, .seq, .dma, .trust, .fw] x0 (wheelBoundary x0) := by
  unfold wheelBoundary
  try dsimp only
  repeat' first
    | ((with_reducible intro _ _); dsimp only)
    | ((with_reducible intro _); dsimp only)
    | (with_reducible intro _)
    | with_reducible exact Keeps.refl _ _
    | with_reducible assumption
    | ((with_reducible apply Keeps.step (writeLoad_keeps _ _ _ _ )); exact rfl)
    | ((with_reducible apply Keeps.step (wheelEvent_keeps _ _ )); exact rfl)
    | ((with_reducible apply Keeps.step (State.setWord_keeps _ _ _ )); exact rfl)
    | ((with_reducible apply Keeps.step (switchTo_keeps _ _ )); exact rfl)
    | ((with_reducible apply Keeps.step (State.modWheel_keeps _ _ )); exact rfl)
    | ((with_reducible apply Keeps.step (endLoad_keeps _ _ _ _ _ )); exact rfl)
    | ((with_reducible apply Keeps.step (audit_keeps _ _ _ _ _ )); exact rfl)
    | ((with_reducible apply Keeps.step (switchFirmware_keeps _ )); exact rfl)
    | with_reducible apply Keeps.foldl
    | with_reducible apply Keeps.foldl_fst
    | split
    | ((with_reducible apply Keeps.upd_fw); exact rfl)
    | (refine Keeps.of_parts ?_ rfl rfl rfl (fun h => h); intro p hp; cases p <;> first | rfl | exact absurd hp (by decide))

theorem ceilingChecks_keeps (x0 : State) : Keeps [.regs, .host, .logs, .out, .perf] x0 (ceilingChecks x0) := by
  unfold ceilingChecks
  try dsimp only
  repeat' first
    | ((with_reducible intro _ _); dsimp only)
    | ((with_reducible intro _); dsimp only)
    | (with_reducible intro _)
    | with_reducible exact Keeps.refl _ _
    | with_reducible assumption
    | ((with_reducible apply Keeps.step (agree_keeps _ _ _ )); exact rfl)
    | with_reducible apply Keeps.foldl
    | with_reducible apply Keeps.foldl_fst
    | split

theorem endSlot_keeps (x0) (x1 : State) : Keeps [.regs, .logs, .out, .perf, .pool, .wheel, .seq, .dma] x1 (endSlot x0 x1) := by
  unfold endSlot
  try dsimp only
  repeat' first
    | ((with_reducible intro _ _); dsimp only)
    | ((with_reducible intro _); dsimp only)
    | (with_reducible intro _)
    | with_reducible exact Keeps.refl _ _
    | with_reducible assumption
    | ((with_reducible apply Keeps.step (takeException_keeps _ _ _ _ _ )); exact rfl)
    | ((with_reducible apply Keeps.step (wheelEvent_keeps _ _ )); exact rfl)
    | ((with_reducible apply Keeps.step (State.modWheel_keeps _ _ )); exact rfl)
    | with_reducible apply Keeps.foldl
    | with_reducible apply Keeps.foldl_fst
    | split

theorem enterSlot_keeps (x0) (x1 : State) : Keeps [.regs, .seq] x1 (enterSlot x0 x1) := by
  unfold enterSlot
  try dsimp only
  repeat' first
    | with_reducible exact Keeps.refl _ _
    | ((with_reducible apply Keeps.step (refreshCore_keeps _ _ )); exact rfl)
    | ((with_reducible apply Keeps.step (State.modCtx_keeps _ _ _ )); exact rfl)
    | ((with_reducible apply Keeps.step (State.wrs_keeps _ _ )); exact rfl)
    | split

theorem taskSelect_keeps (x0) (x1 : State) : Keeps [.regs] x1 (taskSelect x0 x1) := by
  unfold taskSelect
  try dsimp only
  repeat' first
    | ((with_reducible intro _ _); dsimp only)
    | ((with_reducible intro _); dsimp only)
    | (with_reducible intro _)
    | with_reducible exact Keeps.refl _ _
    | with_reducible assumption
    | ((with_reducible apply Keeps.step (State.setWord_keeps _ _ _ )); exact rfl)
    | with_reducible apply Keeps.foldl
    | with_reducible apply Keeps.foldl_fst
    | split

theorem execTaskSelWrite_keeps (x0) (x1 : State) : ∃ t, execTaskSelWrite x0 x1 = .next t ∧ Keeps [.regs, .host, .logs, .out, .perf, .power] x1 t := by
  unfold execTaskSelWrite
  refine ⟨_, rfl, ?_⟩
  try dsimp only
  repeat' first
    | ((with_reducible intro _ _); dsimp only)
    | ((with_reducible intro _); dsimp only)
    | (with_reducible intro _)
    | with_reducible exact Keeps.refl _ _
    | with_reducible assumption
    | ((with_reducible apply Keeps.step (taskSelect_keeps _ _ )); exact rfl)
    | ((with_reducible apply hostCommand_keeps); exact rfl)

theorem ctxCopy_keeps (x0 : State) : Keeps [.regs, .seq] x0 (ctxCopy x0) := by
  unfold ctxCopy
  try dsimp only
  repeat' first
    | ((with_reducible intro _ _); dsimp only)
    | ((with_reducible intro _); dsimp only)
    | (with_reducible intro _)
    | with_reducible exact Keeps.refl _ _
    | with_reducible assumption
    | ((with_reducible apply Keeps.step (State.setWord_keeps _ _ _ )); exact rfl)
    | ((with_reducible apply Keeps.step (State.wr_keeps _ _ _ )); exact rfl)
    | with_reducible apply Keeps.foldl
    | with_reducible apply Keeps.foldl_fst
    | split
    | ((with_reducible apply Keeps.upd_seq); exact rfl)
    | (refine Keeps.of_parts ?_ rfl rfl rfl (fun h => h); intro p hp; cases p <;> first | rfl | exact absurd hp (by decide))

theorem ctxSelect_keeps (x0) (x1 : State) : Keeps [.regs, .seq] x1 (ctxSelect x0 x1) := by
  unfold ctxSelect
  try dsimp only
  repeat' first
    | with_reducible exact Keeps.refl _ _
    | ((with_reducible apply Keeps.step (State.setWord_keeps _ _ _ )); exact rfl)
    | ((with_reducible apply Keeps.upd_seq); exact rfl)
    | (refine Keeps.of_parts ?_ rfl rfl rfl (fun h => h); intro p hp; cases p <;> first | rfl | exact absurd hp (by decide))

theorem execSqCtxSelWrite_keeps (x0) (x1 : State) : ∃ t, execSqCtxSelWrite x0 x1 = .next t ∧ Keeps [.regs, .host, .logs, .out, .perf, .seq, .power] x1 t := by
  unfold execSqCtxSelWrite
  refine ⟨_, rfl, ?_⟩
  try dsimp only
  repeat' first
    | ((with_reducible intro _ _); dsimp only)
    | ((with_reducible intro _); dsimp only)
    | (with_reducible intro _)
    | with_reducible exact Keeps.refl _ _
    | with_reducible assumption
    | ((with_reducible apply Keeps.step (ctxSelect_keeps _ _ )); exact rfl)
    | ((with_reducible apply hostCommand_keeps); exact rfl)

/-! ### Firmware -/

theorem State.modFw_keeps (x0 : State) (x1) : Keeps [.fw] x0 (Sys2Proof.Machine.State.modFw x0 x1) := by
  unfold Sys2Proof.Machine.State.modFw
  try dsimp only
  repeat' first
    | with_reducible exact Keeps.refl _ _
    | ((with_reducible apply Keeps.upd_fw); exact rfl)
    | (refine Keeps.of_parts ?_ rfl rfl rfl (fun h => h); intro p hp; cases p <;> first | rfl | exact absurd hp (by decide))

theorem writeFw_keeps (x0) (x1) (x2) (x3) (x4 : State) : Keeps [.regs] x4 (writeFw x0 x1 x2 x3 x4) := by
  unfold writeFw
  try dsimp only
  repeat' first
    | with_reducible exact Keeps.refl _ _
    | ((with_reducible apply Keeps.step (State.wrs_keeps _ _ )); exact rfl)

theorem refuseFw_keeps (x0) (x1 : State) : Keeps [.host, .fw] x1 (refuseFw x0 x1) := by
  unfold refuseFw
  try dsimp only
  repeat' first
    | with_reducible exact Keeps.refl _ _
    | ((with_reducible apply Keeps.step (State.setWc_keeps _ _ _ )); exact rfl)
    | ((with_reducible apply Keeps.step (State.modFw_keeps _ _ )); exact rfl)

theorem startFwWrite_keeps (x0 : State) : Keeps [.regs, .host, .seq, .trust, .fw] x0 (startFwWrite x0) := by
  unfold startFwWrite
  try dsimp only
  repeat' first
    | ((with_reducible intro _ _); dsimp only)
    | ((with_reducible intro _); dsimp only)
    | (with_reducible intro _)
    | with_reducible exact Keeps.refl _ _
    | with_reducible assumption
    | ((with_reducible apply Keeps.step (setFlashSlot_keeps _ _ _ )); exact rfl)
    | ((with_reducible apply Keeps.step (refuseFw_keeps _ _ )); exact rfl)
    | ((with_reducible apply Keeps.step (writeFw_keeps _ _ _ _ _ )); exact rfl)
    | ((with_reducible apply Keeps.step (State.modFw_keeps _ _ )); exact rfl)
    | with_reducible apply Keeps.foldl
    | with_reducible apply Keeps.foldl_fst
    | split
    | ((with_reducible apply Keeps.upd_seq); exact rfl)
    | (refine Keeps.of_parts ?_ rfl rfl rfl (fun h => h); intro p hp; cases p <;> first | rfl | exact absurd hp (by decide))

theorem fwWrite_keeps (x0 : State) : Keeps [.regs, .host, .seq, .trust, .fw] x0 (fwWrite x0) := by
  unfold fwWrite
  try dsimp only
  repeat' first
    | ((with_reducible intro _ _); dsimp only)
    | ((with_reducible intro _); dsimp only)
    | (with_reducible intro _)
    | with_reducible exact Keeps.refl _ _
    | with_reducible assumption
    | ((with_reducible apply wcWrite_keeps); exact rfl)
    | ((with_reducible apply Keeps.step (startFwWrite_keeps _ )); exact rfl)

theorem execWrite_keeps (x0 : State) : ∃ t, execWrite x0 = .next t ∧ Keeps [.regs, .host, .logs, .out, .perf, .seq, .trust, .fw, .power] x0 t := by
  unfold execWrite
  refine ⟨_, rfl, ?_⟩
  try dsimp only
  repeat' first
    | ((with_reducible intro _ _); dsimp only)
    | ((with_reducible intro _); dsimp only)
    | (with_reducible intro _)
    | with_reducible exact Keeps.refl _ _
    | with_reducible assumption
    | ((with_reducible apply Keeps.step (fwWrite_keeps _ )); exact rfl)
    | ((with_reducible apply hostCommand_keeps); exact rfl)

theorem fwWriteDone_keeps (x0) (x1) (x2 : State) : Keeps [.regs, .host, .seq, .trust, .fw] x2 (fwWriteDone x0 x1 x2) := by
  unfold fwWriteDone
  try dsimp only
  repeat' first
    | ((with_reducible intro _ _); dsimp only)
    | ((with_reducible intro _); dsimp only)
    | (with_reducible intro _)
    | with_reducible exact Keeps.refl _ _
    | with_reducible assumption
    | ((with_reducible apply Keeps.step (setFlashSlot_keeps _ _ _ )); exact rfl)
    | ((with_reducible apply Keeps.step (startFwWrite_keeps _ )); exact rfl)
    | ((with_reducible apply Keeps.step (writeFw_keeps _ _ _ _ _ )); exact rfl)
    | ((with_reducible apply Keeps.step (State.modFw_keeps _ _ )); exact rfl)
    | ((with_reducible apply wcDone_keeps); exact rfl)
    | with_reducible apply Keeps.foldl
    | with_reducible apply Keeps.foldl_fst
    | split

theorem execFwWriteDone_keeps (x0) (x1) (x2 : State) : ∃ t, execFwWriteDone x0 x1 x2 = .next t ∧ Keeps [.regs, .host, .seq, .trust, .fw] x2 t := by
  unfold execFwWriteDone
  refine ⟨_, rfl, ?_⟩
  try dsimp only
  repeat' first
    | with_reducible exact Keeps.refl _ _
    | ((with_reducible apply Keeps.step (fwWriteDone_keeps _ _ _ )); exact rfl)

theorem startFwVerify_keeps (x0 : State) : Keeps [.regs, .host, .seq, .fw] x0 (startFwVerify x0) := by
  unfold startFwVerify
  try dsimp only
  repeat' first
    | ((with_reducible intro _ _); dsimp only)
    | ((with_reducible intro _); dsimp only)
    | (with_reducible intro _)
    | with_reducible exact Keeps.refl _ _
    | with_reducible assumption
    | ((with_reducible apply Keeps.step (refuseFw_keeps _ _ )); exact rfl)
    | ((with_reducible apply Keeps.step (writeFw_keeps _ _ _ _ _ )); exact rfl)
    | ((with_reducible apply Keeps.step (State.modFw_keeps _ _ )); exact rfl)
    | with_reducible apply Keeps.foldl
    | with_reducible apply Keeps.foldl_fst
    | split
    | ((with_reducible apply Keeps.upd_seq); exact rfl)
    | (refine Keeps.of_parts ?_ rfl rfl rfl (fun h => h); intro p hp; cases p <;> first | rfl | exact absurd hp (by decide))

theorem fwVerify_keeps (x0 : State) : Keeps [.regs, .host, .seq, .fw] x0 (fwVerify x0) := by
  unfold fwVerify
  try dsimp only
  repeat' first
    | ((with_reducible intro _ _); dsimp only)
    | ((with_reducible intro _); dsimp only)
    | (with_reducible intro _)
    | with_reducible exact Keeps.refl _ _
    | with_reducible assumption
    | ((with_reducible apply Keeps.step (startFwVerify_keeps _ )); exact rfl)
    | ((with_reducible apply wcWrite_keeps); exact rfl)

theorem execVerify_keeps (x0 : State) : ∃ t, execVerify x0 = .next t ∧ Keeps [.regs, .host, .logs, .out, .perf, .seq, .fw, .power] x0 t := by
  unfold execVerify
  refine ⟨_, rfl, ?_⟩
  try dsimp only
  repeat' first
    | ((with_reducible intro _ _); dsimp only)
    | ((with_reducible intro _); dsimp only)
    | (with_reducible intro _)
    | with_reducible exact Keeps.refl _ _
    | with_reducible assumption
    | ((with_reducible apply Keeps.step (fwVerify_keeps _ )); exact rfl)
    | ((with_reducible apply hostCommand_keeps); exact rfl)

theorem fwVerifyDone_keeps (x0) (x1 : State) : Keeps [.regs, .host, .seq, .fw] x1 (fwVerifyDone x0 x1) := by
  unfold fwVerifyDone
  try dsimp only
  repeat' first
    | ((with_reducible intro _ _); dsimp only)
    | ((with_reducible intro _); dsimp only)
    | (with_reducible intro _)
    | with_reducible exact Keeps.refl _ _
    | with_reducible assumption
    | ((with_reducible apply Keeps.step (startFwVerify_keeps _ )); exact rfl)
    | ((with_reducible apply Keeps.step (writeFw_keeps _ _ _ _ _ )); exact rfl)
    | ((with_reducible apply Keeps.step (State.modFw_keeps _ _ )); exact rfl)
    | ((with_reducible apply wcDone_keeps); exact rfl)
    | with_reducible apply Keeps.foldl
    | with_reducible apply Keeps.foldl_fst
    | split
    | ((with_reducible apply Keeps.upd_seq); exact rfl)
    | (refine Keeps.of_parts ?_ rfl rfl rfl (fun h => h); intro p hp; cases p <;> first | rfl | exact absurd hp (by decide))

theorem execFwVerifyDone_keeps (x0) (x1 : State) : ∃ t, execFwVerifyDone x0 x1 = .next t ∧ Keeps [.regs, .host, .seq, .fw] x1 t := by
  unfold execFwVerifyDone
  refine ⟨_, rfl, ?_⟩
  try dsimp only
  repeat' first
    | with_reducible exact Keeps.refl _ _
    | ((with_reducible apply Keeps.step (fwVerifyDone_keeps _ _ )); exact rfl)

theorem fwActivate_keeps (x0 : State) : Keeps [.regs, .host, .seq, .fw] x0 (fwActivate x0) := by
  unfold fwActivate
  try dsimp only
  repeat' first
    | ((with_reducible intro _ _); dsimp only)
    | ((with_reducible intro _); dsimp only)
    | (with_reducible intro _)
    | with_reducible exact Keeps.refl _ _
    | with_reducible assumption
    | ((with_reducible apply Keeps.step (readyToActivate_keeps _ )); exact rfl)
    | ((with_reducible apply Keeps.step (refuseFw_keeps _ _ )); exact rfl)
    | ((with_reducible apply Keeps.step (State.modFw_keeps _ _ )); exact rfl)
    | with_reducible apply Keeps.foldl
    | with_reducible apply Keeps.foldl_fst
    | split

theorem execActivate_keeps (x0 : State) : ∃ t, execActivate x0 = .next t ∧ Keeps [.regs, .host, .logs, .out, .perf, .seq, .fw, .power] x0 t := by
  unfold execActivate
  refine ⟨_, rfl, ?_⟩
  try dsimp only
  repeat' first
    | ((with_reducible intro _ _); dsimp only)
    | ((with_reducible intro _); dsimp only)
    | (with_reducible intro _)
    | with_reducible exact Keeps.refl _ _
    | with_reducible assumption
    | ((with_reducible apply Keeps.step (fwActivate_keeps _ )); exact rfl)
    | ((with_reducible apply hostCommand_keeps); exact rfl)

theorem fwCancel_keeps (x0 : State) : Keeps [.regs, .host, .seq, .trust, .fw] x0 (fwCancel x0) := by
  unfold fwCancel
  try dsimp only
  repeat' first
    | ((with_reducible intro _ _); dsimp only)
    | ((with_reducible intro _); dsimp only)
    | (with_reducible intro _)
    | with_reducible exact Keeps.refl _ _
    | with_reducible assumption
    | ((with_reducible apply Keeps.step (startFwVerify_keeps _ )); exact rfl)
    | ((with_reducible apply Keeps.step (setFlashSlot_keeps _ _ _ )); exact rfl)
    | ((with_reducible apply Keeps.step (startFwWrite_keeps _ )); exact rfl)
    | ((with_reducible apply Keeps.step (writeFw_keeps _ _ _ _ _ )); exact rfl)
    | ((with_reducible apply Keeps.step (State.modFw_keeps _ _ )); exact rfl)
    | ((with_reducible apply wcDone_keeps); exact rfl)
    | with_reducible apply Keeps.foldl
    | with_reducible apply Keeps.foldl_fst
    | split

theorem execFwCancel_keeps (x0 : State) : ∃ t, execFwCancel x0 = .next t ∧ Keeps [.regs, .host, .logs, .out, .perf, .seq, .trust, .fw, .power] x0 t := by
  unfold execFwCancel
  refine ⟨_, rfl, ?_⟩
  try dsimp only
  repeat' first
    | ((with_reducible intro _ _); dsimp only)
    | ((with_reducible intro _); dsimp only)
    | (with_reducible intro _)
    | with_reducible exact Keeps.refl _ _
    | with_reducible assumption
    | ((with_reducible apply Keeps.step (fwCancel_keeps _ )); exact rfl)
    | ((with_reducible apply hostCommand_keeps); exact rfl)

/-! ### Reset -/

theorem State.keptRegs_keeps (x0 : State) (x1) (x2 : State) : Keeps [.regs] x2 (Sys2Proof.Machine.State.keptRegs x0 x1 x2) := by
  unfold Sys2Proof.Machine.State.keptRegs
  try dsimp only
  repeat' first
    | ((with_reducible intro _ _); dsimp only)
    | ((with_reducible intro _); dsimp only)
    | (with_reducible intro _)
    | with_reducible exact Keeps.refl _ _
    | with_reducible assumption
    | ((with_reducible apply Keeps.step (State.setWord_keeps _ _ _ )); exact rfl)
    | ((with_reducible apply Keeps.step (State.wr_keeps _ _ _ )); exact rfl)
    | with_reducible apply Keeps.foldl
    | with_reducible apply Keeps.foldl_fst
    | split

theorem State.cleared_keeps (x0 : State) (x1) : Keeps [.regs, .clk, .host, .pcie, .logs, .perf, .chain, .messages, .signing, .links, .coefs, .trips, .pins, .pool, .reach, .lpi, .classes, .mons, .cal, .lanes, .sides, .sram, .wheel, .seq, .dma, .net, .trust, .fw, .power, .boot] x0 (Sys2Proof.Machine.State.cleared x0 x1) := by
  unfold Sys2Proof.Machine.State.cleared
  dsimp only
  refine Keeps.step (State.wr_keeps _ _ _) rfl ?_
  refine Keeps.step (State.keptRegs_keeps _ _ _) rfl ?_
  refine ⟨fun p hp => ?_, fun w => ⟨storeWf_nil _, storeWf_nil _, Nat.zero_le _, Nat.zero_le _, fun e he => absurd he (by simp [State.reset, Pool.reset])⟩⟩
  cases p <;> first | rfl | exact absurd hp (by decide)

theorem startBoot_keeps (x0 : State) : Keeps [.regs, .clk, .out, .power, .boot] x0 (startBoot x0) := by
  unfold startBoot
  try dsimp only
  repeat' first
    | ((with_reducible intro _ _); dsimp only)
    | ((with_reducible intro _); dsimp only)
    | (with_reducible intro _)
    | with_reducible exact Keeps.refl _ _
    | with_reducible assumption
    | ((with_reducible apply State.withClk_keeps); exact rfl; first | exact fun h => h | exact fun _ => ⟨Nat.zero_le _, Nat.zero_le _⟩)
    | ((with_reducible apply Keeps.step (startRails_keeps _ _ _ )); exact rfl)
    | ((with_reducible apply Keeps.step (State.wrs_keeps _ _ )); exact rfl)
    | with_reducible apply Keeps.foldl
    | with_reducible apply Keeps.foldl_fst
    | split
    | ((with_reducible apply Keeps.upd_boot); exact rfl)
    | (refine Keeps.of_parts ?_ rfl rfl rfl (fun h => h); intro p hp; cases p <;> first | rfl | exact absurd hp (by decide))

theorem resetDevice_keeps (x0) (x1 : State) : Keeps [.regs, .clk, .host, .pcie, .logs, .out, .perf, .chain, .messages, .signing, .links, .coefs, .trips, .pins, .pool, .reach, .lpi, .classes, .mons, .cal, .lanes, .sides, .sram, .wheel, .seq, .dma, .net, .trust, .fw, .power, .boot] x1 (resetDevice x0 x1) := by
  unfold resetDevice
  try dsimp only
  repeat' first
    | ((with_reducible intro _ _); dsimp only)
    | ((with_reducible intro _); dsimp only)
    | (with_reducible intro _)
    | with_reducible exact Keeps.refl _ _
    | with_reducible assumption
    | ((with_reducible apply withOuts_keeps); exact rfl)
    | ((with_reducible apply Keeps.step (startBoot_keeps _ )); exact rfl)
    | ((with_reducible apply Keeps.step (State.cleared_keeps _ _ )); exact rfl)
    | split
    | ((with_reducible apply Keeps.upd_boot); exact rfl)
    | (refine Keeps.of_parts ?_ rfl rfl rfl (fun h => h); intro p hp; cases p <;> first | rfl | exact absurd hp (by decide))

theorem powerLost_keeps (x0 : State) : Keeps [.regs, .clk, .host, .pcie, .logs, .out, .perf, .chain, .messages, .signing, .links, .coefs, .trips, .pins, .pool, .reach, .lpi, .classes, .mons, .cal, .lanes, .sides, .sram, .wheel, .seq, .dma, .net, .trust, .fw, .power, .boot] x0 (powerLost x0) := by
  unfold powerLost
  try dsimp only
  repeat' first
    | ((with_reducible intro _ _); dsimp only)
    | ((with_reducible intro _); dsimp only)
    | (with_reducible intro _)
    | with_reducible exact Keeps.refl _ _
    | with_reducible assumption
    | ((with_reducible apply withOuts_keeps); exact rfl)
    | ((with_reducible apply Keeps.step (State.cleared_keeps _ _ )); exact rfl)
    | ((with_reducible apply Keeps.step (State.wr_keeps _ _ _ )); exact rfl)
    | ((with_reducible apply Keeps.upd_boot); exact rfl)
    | (refine Keeps.of_parts ?_ rfl rfl rfl (fun h => h); intro p hp; cases p <;> first | rfl | exact absurd hp (by decide))

theorem execPowerOnReset_keeps (x0 : State) : ∃ t, execPowerOnReset x0 = .next t ∧ Keeps [.regs, .clk, .host, .pcie, .logs, .out, .perf, .chain, .messages, .signing, .links, .coefs, .trips, .pins, .pool, .reach, .lpi, .classes, .mons, .cal, .lanes, .sides, .sram, .wheel, .seq, .dma, .net, .trust, .fw, .power, .boot] x0 t := by
  unfold execPowerOnReset
  refine ⟨_, rfl, ?_⟩
  try dsimp only
  repeat' first
    | with_reducible exact Keeps.refl _ _
    | ((with_reducible apply Keeps.step (resetDevice_keeps _ _ )); exact rfl)

theorem execResetN_keeps (x0 : State) : ∃ t, execResetN x0 = .next t ∧ Keeps [.regs, .clk, .host, .pcie, .logs, .out, .perf, .chain, .messages, .signing, .links, .coefs, .trips, .pins, .pool, .reach, .lpi, .classes, .mons, .cal, .lanes, .sides, .sram, .wheel, .seq, .dma, .net, .trust, .fw, .power, .boot] x0 t := by
  unfold execResetN
  refine ⟨_, rfl, ?_⟩
  try dsimp only
  repeat' first
    | with_reducible exact Keeps.refl _ _
    | ((with_reducible apply Keeps.step (resetDevice_keeps _ _ )); exact rfl)
    | split

theorem execSupplyDrop_keeps (x0 : State) : ∃ t, execSupplyDrop x0 = .next t ∧ Keeps [.regs, .clk, .host, .pcie, .logs, .out, .perf, .chain, .messages, .signing, .links, .coefs, .trips, .pins, .pool, .reach, .lpi, .classes, .mons, .cal, .lanes, .sides, .sram, .wheel, .seq, .dma, .net, .trust, .fw, .power, .boot] x0 t := by
  unfold execSupplyDrop
  refine ⟨_, rfl, ?_⟩
  try dsimp only
  repeat' first
    | with_reducible exact Keeps.refl _ _
    | ((with_reducible apply Keeps.step (resetDevice_keeps _ _ )); exact rfl)
    | split

theorem execAonSupplyFall_keeps (x0 : State) : ∃ t, execAonSupplyFall x0 = .next t ∧ Keeps [.regs, .clk, .host, .pcie, .logs, .out, .perf, .chain, .messages, .signing, .links, .coefs, .trips, .pins, .pool, .reach, .lpi, .classes, .mons, .cal, .lanes, .sides, .sram, .wheel, .seq, .dma, .net, .trust, .fw, .power, .boot] x0 t := by
  unfold execAonSupplyFall
  refine ⟨_, rfl, ?_⟩
  try dsimp only
  repeat' first
    | with_reducible exact Keeps.refl _ _
    | ((with_reducible apply Keeps.step (powerLost_keeps _ )); exact rfl)

theorem execJtagTapReset_keeps (x0 : State) : ∃ t, execJtagTapReset x0 = .next t ∧ Keeps [.regs] x0 t := by
  unfold execJtagTapReset
  refine ⟨_, rfl, ?_⟩
  try dsimp only
  repeat' first
    | ((with_reducible intro _ _); dsimp only)
    | ((with_reducible intro _); dsimp only)
    | (with_reducible intro _)
    | with_reducible exact Keeps.refl _ _
    | with_reducible assumption
    | ((with_reducible apply Keeps.step (State.wr_keeps _ _ _ )); exact rfl)
    | with_reducible apply Keeps.foldl
    | with_reducible apply Keeps.foldl_fst
    | split

/-! ### Power -/

theorem endRequest_keeps (x0) (x1 : State) : Keeps [.regs, .power] x1 (endRequest x0 x1) := by
  unfold endRequest
  try dsimp only
  repeat' first
    | with_reducible exact Keeps.refl _ _
    | ((with_reducible apply Keeps.step (State.wrs_keeps _ _ )); exact rfl)
    | ((with_reducible apply Keeps.step (State.modPower_keeps _ _ )); exact rfl)

theorem refuseEntry_keeps (x0) (x1 : State) : Keeps [.regs, .logs, .out, .perf, .power] x1 (refuseEntry x0 x1) := by
  unfold refuseEntry
  try dsimp only
  repeat' first
    | with_reducible exact Keeps.refl _ _
    | ((with_reducible apply Keeps.step (endRequest_keeps _ _ )); exact rfl)
    | ((with_reducible apply Keeps.step (pwrEvent_keeps _ _ )); exact rfl)
    | ((with_reducible apply Keeps.step (State.wr_keeps _ _ _ )); exact rfl)
    | ((with_reducible apply Keeps.step (State.modPower_keeps _ _ )); exact rfl)

theorem askBlocks_keeps (x0) (x1 : State) : Keeps [.regs, .logs, .out, .perf, .power] x1 (askBlocks x0 x1) := by
  unfold askBlocks
  try dsimp only
  repeat' first
    | ((with_reducible intro _ _); dsimp only)
    | ((with_reducible intro _); dsimp only)
    | (with_reducible intro _)
    | with_reducible exact Keeps.refl _ _
    | with_reducible assumption
    | ((with_reducible apply Keeps.step (refuseEntry_keeps _ _ )); exact rfl)
    | ((with_reducible apply Keeps.step (State.modPower_keeps _ _ )); exact rfl)
    | with_reducible apply Keeps.foldl
    | with_reducible apply Keeps.foldl_fst
    | split

theorem startWake_keeps (x0) (x1 : State) : Keeps [.regs, .out, .power] x1 (startWake x0 x1) := by
  unfold startWake
  try dsimp only
  repeat' first
    | ((with_reducible intro _ _); dsimp only)
    | ((with_reducible intro _); dsimp only)
    | (with_reducible intro _)
    | with_reducible exact Keeps.refl _ _
    | with_reducible assumption
    | ((with_reducible apply Keeps.step (startRails_keeps _ _ _ )); exact rfl)
    | ((with_reducible apply Keeps.step (State.wrs_keeps _ _ )); exact rfl)
    | ((with_reducible apply Keeps.step (State.modPower_keeps _ _ )); exact rfl)
    | with_reducible apply Keeps.foldl
    | with_reducible apply Keeps.foldl_fst

theorem startRequest_keeps (x0) (x1) (x2 : State) : Keeps [.regs, .logs, .out, .perf, .messages, .sram, .dma, .net, .power] x2 (startRequest x0 x1 x2) := by
  unfold startRequest
  try dsimp only
  repeat' first
    | ((with_reducible intro _ _); dsimp only)
    | ((with_reducible intro _); dsimp only)
    | (with_reducible intro _)
    | with_reducible exact Keeps.refl _ _
    | with_reducible assumption
    | ((with_reducible apply Keeps.step (endRequest_keeps _ _ )); exact rfl)
    | ((with_reducible apply Keeps.step (askWake_keeps _ _ )); exact rfl)
    | ((with_reducible apply Keeps.step (askBlocks_keeps _ _ )); exact rfl)
    | ((with_reducible apply Keeps.step (oscStart_keeps _ )); exact rfl)
    | ((with_reducible apply Keeps.step (sendBeacon_keeps _ _ _ )); exact rfl)
    | ((with_reducible apply Keeps.step (State.wrs_keeps _ _ )); exact rfl)
    | ((with_reducible apply Keeps.step (State.modPower_keeps _ _ )); exact rfl)
    | with_reducible apply Keeps.foldl
    | with_reducible apply Keeps.foldl_fst
    | split

theorem startPending_keeps (x0 : State) : Keeps [.regs, .logs, .out, .perf, .messages, .sram, .dma, .net, .power] x0 (startPending x0) := by
  unfold startPending
  try dsimp only
  repeat' first
    | ((with_reducible intro _ _); dsimp only)
    | ((with_reducible intro _); dsimp only)
    | (with_reducible intro _)
    | with_reducible exact Keeps.refl _ _
    | with_reducible assumption
    | ((with_reducible apply Keeps.step (startRequest_keeps _ _ _ )); exact rfl)
    | ((with_reducible apply Keeps.step (State.wrs_keeps _ _ )); exact rfl)
    | with_reducible apply Keeps.foldl
    | with_reducible apply Keeps.foldl_fst
    | split

theorem refuseRequest_keeps (x0) (x1 : State) : Keeps [.regs, .logs, .out, .perf] x1 (refuseRequest x0 x1) := by
  unfold refuseRequest
  try dsimp only
  repeat' first
    | with_reducible exact Keeps.refl _ _
    | ((with_reducible apply Keeps.step (pwrEvent_keeps _ _ )); exact rfl)
    | ((with_reducible apply Keeps.step (State.wr_keeps _ _ _ )); exact rfl)

theorem takeRequest_keeps (x0) (x1) (x2 : State) : Keeps [.regs, .logs, .out, .perf, .chain, .messages, .signing, .sram, .dma, .net, .power] x2 (takeRequest x0 x1 x2) := by
  unfold takeRequest
  try dsimp only
  repeat' first
    | ((with_reducible intro _ _); dsimp only)
    | ((with_reducible intro _); dsimp only)
    | (with_reducible intro _)
    | with_reducible exact Keeps.refl _ _
    | with_reducible assumption
    | ((with_reducible apply Keeps.step (startRequest_keeps _ _ _ )); exact rfl)
    | ((with_reducible apply Keeps.step (pwrEvent_keeps _ _ )); exact rfl)
    | ((with_reducible apply Keeps.step (askWake_keeps _ _ )); exact rfl)
    | ((with_reducible apply Keeps.step (State.wr_keeps _ _ _ )); exact rfl)
    | ((with_reducible apply Keeps.step (refuseRequest_keeps _ _ )); exact rfl)
    | ((with_reducible apply Keeps.step (State.wrs_keeps _ _ )); exact rfl)
    | ((with_reducible apply Keeps.step (State.modPower_keeps _ _ )); exact rfl)
    | ((with_reducible apply Keeps.step (auditOperational_keeps _ _ _ )); exact rfl)
    | with_reducible apply Keeps.foldl
    | with_reducible apply Keeps.foldl_fst
    | split

theorem execPowerRequest_keeps (x0) (x1) (x2 : State) : ∃ t, execPowerRequest x0 x1 x2 = .next t ∧ Keeps [.regs, .logs, .out, .perf, .chain, .messages, .signing, .sram, .dma, .net, .power] x2 t := by
  unfold execPowerRequest
  refine ⟨_, rfl, ?_⟩
  try dsimp only
  repeat' first
    | with_reducible exact Keeps.refl _ _
    | ((with_reducible apply Keeps.step (takeRequest_keeps _ _ _ )); exact rfl)
    | split

theorem handshakeAnswer_keeps (x0) (x1) (x2 : State) : Keeps [.regs, .logs, .out, .perf, .messages, .sram, .dma, .net, .power] x2 (handshakeAnswer x0 x1 x2) := by
  unfold handshakeAnswer
  try dsimp only
  repeat' first
    | with_reducible exact Keeps.refl _ _
    | ((with_reducible apply Keeps.step (startPending_keeps _ )); exact rfl)
    | ((with_reducible apply Keeps.step (refuseEntry_keeps _ _ )); exact rfl)
    | ((with_reducible apply Keeps.step (State.modPower_keeps _ _ )); exact rfl)
    | split

theorem execEntryHandshakeAnswer_keeps (x0) (x1) (x2 : State) : ∃ t, execEntryHandshakeAnswer x0 x1 x2 = .next t ∧ Keeps [.regs, .logs, .out, .perf, .messages, .sram, .dma, .net, .power] x2 t := by
  unfold execEntryHandshakeAnswer
  refine ⟨_, rfl, ?_⟩
  try dsimp only
  repeat' first
    | with_reducible exact Keeps.refl _ _
    | ((with_reducible apply Keeps.step (handshakeAnswer_keeps _ _ _ )); exact rfl)

theorem slotPower_keeps (x0 : State) : Keeps [.regs, .logs, .out, .perf, .messages, .sram, .dma, .net, .power] x0 (slotPower x0) := by
  unfold slotPower
  try dsimp only
  repeat' first
    | ((with_reducible intro _ _); dsimp only)
    | ((with_reducible intro _); dsimp only)
    | (with_reducible intro _)
    | with_reducible exact Keeps.refl _ _
    | with_reducible assumption
    | ((with_reducible apply Keeps.step (endRequest_keeps _ _ )); exact rfl)
    | ((with_reducible apply Keeps.step (startPending_keeps _ )); exact rfl)
    | ((with_reducible apply Keeps.step (State.wr_keeps _ _ _ )); exact rfl)
    | with_reducible apply Keeps.foldl
    | with_reducible apply Keeps.foldl_fst
    | split

theorem stopWheel_keeps (x0 : State) : Keeps [.regs, .clk, .host, .logs, .out, .perf, .messages, .signing, .links, .trips, .pool, .reach, .lpi, .mons, .lanes, .sram, .dma, .power, .boot] x0 (stopWheel x0) := by
  unfold stopWheel
  try dsimp only
  repeat' first
    | ((with_reducible intro _ _); dsimp only)
    | ((with_reducible intro _); dsimp only)
    | (with_reducible intro _)
    | with_reducible exact Keeps.refl _ _
    | with_reducible assumption
    | ((with_reducible apply Keeps.step (linkDown_keeps _ _ _ )); exact rfl)
    | ((with_reducible apply withOuts_keeps); exact rfl)
    | ((with_reducible apply Keeps.step (State.setWord_keeps _ _ _ )); exact rfl)
    | ((with_reducible apply Keeps.step (State.wr_keeps _ _ _ )); exact rfl)
    | ((with_reducible apply State.withClk_keeps); exact rfl; first | exact fun h => h | exact fun _ => ⟨Nat.zero_le _, Nat.zero_le _⟩)
    | ((with_reducible apply Keeps.step (startRails_keeps _ _ _ )); exact rfl)
    | ((with_reducible apply Keeps.step (refreshLanes_keeps _ )); exact rfl)
    | ((with_reducible apply Keeps.step (State.wrs_keeps _ _ )); exact rfl)
    | ((with_reducible apply Keeps.step (State.modPower_keeps _ _ )); exact rfl)
    | with_reducible apply Keeps.foldl
    | with_reducible apply Keeps.foldl_fst
    | split
    | ((with_reducible apply Keeps.upd_boot); exact rfl)
    | (refine Keeps.of_parts ?_ rfl rfl rfl (fun h => h); intro p hp; cases p <;> first | rfl | exact absurd hp (by decide))

theorem finishEntry_keeps (x0 : State) : Keeps [.regs, .clk, .host, .pcie, .logs, .out, .perf, .chain, .messages, .signing, .links, .coefs, .trips, .pins, .pool, .reach, .lpi, .classes, .mons, .cal, .lanes, .sides, .sram, .wheel, .seq, .dma, .net, .trust, .fw, .power, .boot] x0 (finishEntry x0) := by
  unfold finishEntry
  try dsimp only
  repeat' first
    | ((with_reducible intro _ _); dsimp only)
    | ((with_reducible intro _); dsimp only)
    | (with_reducible intro _)
    | with_reducible exact Keeps.refl _ _
    | with_reducible assumption
    | ((with_reducible apply Keeps.step (endRequest_keeps _ _ )); exact rfl)
    | ((with_reducible apply Keeps.step (startPending_keeps _ )); exact rfl)
    | ((with_reducible apply Keeps.step (State.wr_keeps _ _ _ )); exact rfl)
    | ((with_reducible apply Keeps.step (syncModem_keeps _ _ )); exact rfl)
    | ((with_reducible apply Keeps.step (resetDevice_keeps _ _ )); exact rfl)
    | ((with_reducible apply Keeps.step (State.modNet_keeps _ _ )); exact rfl)
    | with_reducible apply Keeps.foldl
    | with_reducible apply Keeps.foldl_fst
    | split

theorem entryRails_keeps (x0 : State) : Keeps [.regs, .clk, .host, .pcie, .logs, .out, .perf, .chain, .messages, .signing, .links, .coefs, .trips, .pins, .pool, .reach, .lpi, .classes, .mons, .cal, .lanes, .sides, .sram, .wheel, .seq, .dma, .net, .trust, .fw, .power, .boot] x0 (entryRails x0) := by
  unfold entryRails
  try dsimp only
  repeat' first
    | ((with_reducible intro _ _); dsimp only)
    | ((with_reducible intro _); dsimp only)
    | (with_reducible intro _)
    | with_reducible exact Keeps.refl _ _
    | with_reducible assumption
    | ((with_reducible apply State.withClk_keeps); exact rfl; first | exact fun h => h | exact fun _ => ⟨Nat.zero_le _, Nat.zero_le _⟩)
    | ((with_reducible apply Keeps.step (startRails_keeps _ _ _ )); exact rfl)
    | ((with_reducible apply Keeps.step (finishEntry_keeps _ )); exact rfl)
    | ((with_reducible apply Keeps.step (State.modPower_keeps _ _ )); exact rfl)
    | with_reducible apply Keeps.foldl
    | with_reducible apply Keeps.foldl_fst
    | split

theorem entryCrcDone_keeps (x0 : State) : Keeps [.regs, .clk, .host, .pcie, .logs, .out, .perf, .chain, .messages, .signing, .links, .coefs, .trips, .pins, .pool, .reach, .lpi, .classes, .mons, .cal, .lanes, .sides, .sram, .wheel, .seq, .dma, .net, .trust, .fw, .power, .boot] x0 (entryCrcDone x0) := by
  unfold entryCrcDone
  try dsimp only
  repeat' first
    | ((with_reducible intro _ _); dsimp only)
    | ((with_reducible intro _); dsimp only)
    | (with_reducible intro _)
    | with_reducible exact Keeps.refl _ _
    | with_reducible assumption
    | ((with_reducible apply Keeps.step (entryRails_keeps _ )); exact rfl)
    | ((with_reducible apply Keeps.step (sendBeacon_keeps _ _ _ )); exact rfl)
    | ((with_reducible apply Keeps.step (State.modPower_keeps _ _ )); exact rfl)
    | with_reducible apply Keeps.foldl
    | with_reducible apply Keeps.foldl_fst
    | split

theorem execEntryCrcDone_keeps (x0 : State) : ∃ t, execEntryCrcDone x0 = .next t ∧ Keeps [.regs, .clk, .host, .pcie, .logs, .out, .perf, .chain, .messages, .signing, .links, .coefs, .trips, .pins, .pool, .reach, .lpi, .classes, .mons, .cal, .lanes, .sides, .sram, .wheel, .seq, .dma, .net, .trust, .fw, .power, .boot] x0 t := by
  unfold execEntryCrcDone
  refine ⟨_, rfl, ?_⟩
  try dsimp only
  repeat' first
    | with_reducible exact Keeps.refl _ _
    | ((with_reducible apply Keeps.step (entryCrcDone_keeps _ )); exact rfl)

theorem beaconsDone_keeps (x0 : State) : Keeps [.regs, .clk, .host, .pcie, .logs, .out, .perf, .chain, .messages, .signing, .links, .coefs, .trips, .pins, .pool, .reach, .lpi, .classes, .mons, .cal, .lanes, .sides, .sram, .wheel, .seq, .dma, .net, .trust, .fw, .power, .boot] x0 (beaconsDone x0) := by
  unfold beaconsDone
  try dsimp only
  repeat' first
    | with_reducible exact Keeps.refl _ _
    | ((with_reducible apply Keeps.step (entryRails_keeps _ )); exact rfl)
    | ((with_reducible apply Keeps.step (State.modNet_keeps _ _ )); exact rfl)
    | split

theorem execDeepSleepBeaconTimeout_keeps (x0 : State) : ∃ t, execDeepSleepBeaconTimeout x0 = .next t ∧ Keeps [.regs, .clk, .host, .pcie, .logs, .out, .perf, .chain, .messages, .signing, .links, .coefs, .trips, .pins, .pool, .reach, .lpi, .classes, .mons, .cal, .lanes, .sides, .sram, .wheel, .seq, .dma, .net, .trust, .fw, .power, .boot] x0 t := by
  unfold execDeepSleepBeaconTimeout
  refine ⟨_, rfl, ?_⟩
  try dsimp only
  repeat' first
    | with_reducible exact Keeps.refl _ _
    | ((with_reducible apply Keeps.step (beaconsDone_keeps _ )); exact rfl)

theorem wakeClocksReady_keeps (x0 : State) : Keeps [.clk, .power] x0 (wakeClocksReady x0) := by
  unfold wakeClocksReady
  try dsimp only
  repeat' first
    | with_reducible exact Keeps.refl _ _
    | ((with_reducible apply State.withClk_keeps); exact rfl; first | exact fun h => h | exact fun _ => ⟨Nat.zero_le _, Nat.zero_le _⟩)
    | ((with_reducible apply Keeps.step (State.modPower_keeps _ _ )); exact rfl)
    | split

theorem execWakeClocksReady_keeps (x0 : State) : ∃ t, execWakeClocksReady x0 = .next t ∧ Keeps [.clk, .power] x0 t := by
  unfold execWakeClocksReady
  refine ⟨_, rfl, ?_⟩
  try dsimp only
  repeat' first
    | with_reducible exact Keeps.refl _ _
    | ((with_reducible apply Keeps.step (wakeClocksReady_keeps _ )); exact rfl)

theorem scrubBank_keeps (x0) (x1 : State) : Keeps [.sram, .dma] x1 (scrubBank x0 x1) := by
  unfold scrubBank
  exact Keeps.upd_dma rfl (State.withSram_keeps rfl (fun h => storeWf_filter _ _ h) (Keeps.refl _ _))

theorem loseCode_keeps (x0) (x1 : State) : Keeps [.regs, .seq] x1 (loseCode x0 x1) := by
  unfold loseCode
  try dsimp only
  repeat' first
    | ((with_reducible intro _ _); dsimp only)
    | ((with_reducible intro _); dsimp only)
    | (with_reducible intro _)
    | with_reducible exact Keeps.refl _ _
    | with_reducible assumption
    | ((with_reducible apply Keeps.step (refreshCore_keeps _ _ )); exact rfl)
    | ((with_reducible apply Keeps.step (State.modCtx_keeps _ _ _ )); exact rfl)
    | with_reducible apply Keeps.foldl
    | with_reducible apply Keeps.foldl_fst
    | split
    | ((with_reducible apply Keeps.upd_seq); exact rfl)
    | (refine Keeps.of_parts ?_ rfl rfl rfl (fun h => h); intro p hp; cases p <;> first | rfl | exact absurd hp (by decide))

theorem loseLogs_keeps (x0) (x1 : State) : Keeps [.logs] x1 (loseLogs x0 x1) := by
  unfold loseLogs
  try dsimp only
  repeat' first
    | with_reducible exact Keeps.refl _ _
    | ((with_reducible apply Keeps.upd_logs); exact rfl)
    | (refine Keeps.of_parts ?_ rfl rfl rfl (fun h => h); intro p hp; cases p <;> first | rfl | exact absurd hp (by decide))

theorem clearBank_keeps (x0) (x1 : State) : Keeps [.regs, .logs, .sram, .seq, .dma] x1 (clearBank x0 x1) := by
  unfold clearBank
  try dsimp only
  repeat' first
    | with_reducible exact Keeps.refl _ _
    | ((with_reducible apply Keeps.step (scrubBank_keeps _ _ )); exact rfl)
    | ((with_reducible apply Keeps.step (loseCode_keeps _ _ )); exact rfl)
    | ((with_reducible apply Keeps.step (loseLogs_keeps _ _ )); exact rfl)
    | split

theorem restoreReplay_keeps (x0 : State) : Keeps [.net] x0 (restoreReplay x0) := by
  unfold restoreReplay
  try dsimp only
  repeat' first
    | with_reducible exact Keeps.refl _ _
    | ((with_reducible apply Keeps.step (State.modNet_keeps _ _ )); exact rfl)

theorem dataBankLost_keeps (x0) (x1 : State) : Keeps [.regs, .seq, .dma, .net, .fw] x1 (dataBankLost x0 x1) := by
  unfold dataBankLost
  try dsimp only
  repeat' first
    | ((with_reducible intro _ _); dsimp only)
    | ((with_reducible intro _); dsimp only)
    | (with_reducible intro _)
    | with_reducible exact Keeps.refl _ _
    | with_reducible assumption
    | ((with_reducible apply Keeps.step (restoreReplay_keeps _ )); exact rfl)
    | ((with_reducible apply Keeps.step (State.modFw_keeps _ _ )); exact rfl)
    | ((with_reducible apply Keeps.step (startTask_keeps _ _ )); exact rfl)
    | ((with_reducible apply Keeps.step (abandonJobs_keeps _ _ )); exact rfl)
    | with_reducible apply Keeps.foldl
    | with_reducible apply Keeps.foldl_fst

theorem resumePorts_keeps (x0 : State) : Keeps [.regs, .host, .logs, .out, .perf, .messages, .signing, .links, .sram, .dma] x0 (resumePorts x0) := by
  unfold resumePorts
  try dsimp only
  repeat' first
    | ((with_reducible intro _ _); dsimp only)
    | ((with_reducible intro _); dsimp only)
    | (with_reducible intro _)
    | with_reducible exact Keeps.refl _ _
    | with_reducible assumption
    | ((with_reducible apply Keeps.step (enter_keeps _ _ _ )); exact rfl)
    | ((with_reducible apply Keeps.step (State.wr_keeps _ _ _ )); exact rfl)
    | with_reducible apply Keeps.foldl
    | with_reducible apply Keeps.foldl_fst
    | split

theorem resumeWheel_keeps (x0 : State) : Keeps [.regs, .clk, .host, .logs, .out, .perf, .messages, .signing, .links, .lanes, .sram, .seq, .dma, .net] x0 (resumeWheel x0) := by
  unfold resumeWheel
  try dsimp only
  repeat' first
    | ((with_reducible intro _ _); dsimp only)
    | ((with_reducible intro _); dsimp only)
    | (with_reducible intro _)
    | with_reducible exact Keeps.refl _ _
    | with_reducible assumption
    | ((with_reducible apply withOuts_keeps); exact rfl)
    | ((with_reducible apply Keeps.step (State.wr_keeps _ _ _ )); exact rfl)
    | ((with_reducible apply State.withClk_keeps); exact rfl; first | exact fun h => h | exact fun _ => ⟨Nat.zero_le _, Nat.zero_le _⟩)
    | ((with_reducible apply Keeps.step (syncModem_keeps _ _ )); exact rfl)
    | ((with_reducible apply Keeps.step (refreshLanes_keeps _ )); exact rfl)
    | ((with_reducible apply Keeps.step (enterSlot_keeps _ _ )); exact rfl)
    | ((with_reducible apply Keeps.step (State.modNet_keeps _ _ )); exact rfl)
    | ((with_reducible apply Keeps.step (resumePorts_keeps _ )); exact rfl)
    | with_reducible apply Keeps.foldl
    | with_reducible apply Keeps.foldl_fst

theorem wakeCrcCheck_keeps (x0) (x1) (x2 : State) : Keeps [.regs, .clk, .host, .logs, .out, .perf, .chain, .messages, .signing, .links, .trips, .lanes, .sram, .seq, .dma, .net, .fw, .power] x2 (wakeCrcCheck x0 x1 x2) := by
  unfold wakeCrcCheck
  try dsimp only
  repeat' first
    | ((with_reducible intro _ _); dsimp only)
    | ((with_reducible intro _); dsimp only)
    | (with_reducible intro _)
    | with_reducible exact Keeps.refl _ _
    | with_reducible assumption
    | ((with_reducible apply Keeps.step (startPending_keeps _ )); exact rfl)
    | ((with_reducible apply Keeps.step (pwrEvent_keeps _ _ )); exact rfl)
    | ((with_reducible apply Keeps.step (clearBank_keeps _ _ )); exact rfl)
    | ((with_reducible apply Keeps.step (causeAlarm_keeps _ _ _ _ )); exact rfl)
    | ((with_reducible apply Keeps.step (endSession_keeps _ _ _ )); exact rfl)
    | ((with_reducible apply Keeps.step (dataBankLost_keeps _ _ )); exact rfl)
    | ((with_reducible apply Keeps.step (resumeWheel_keeps _ )); exact rfl)
    | ((with_reducible apply Keeps.step (State.wrs_keeps _ _ )); exact rfl)
    | ((with_reducible apply Keeps.step (State.modPower_keeps _ _ )); exact rfl)
    | with_reducible apply Keeps.foldl
    | with_reducible apply Keeps.foldl_fst
    | split

theorem execWakeCrcCheck_keeps (x0) (x1) (x2 : State) : ∃ t, execWakeCrcCheck x0 x1 x2 = .next t ∧ Keeps [.regs, .clk, .host, .logs, .out, .perf, .chain, .messages, .signing, .links, .trips, .lanes, .sram, .seq, .dma, .net, .fw, .power] x2 t := by
  unfold execWakeCrcCheck
  refine ⟨_, rfl, ?_⟩
  try dsimp only
  repeat' first
    | with_reducible exact Keeps.refl _ _
    | ((with_reducible apply Keeps.step (wakeCrcCheck_keeps _ _ _ )); exact rfl)

theorem railAdvance_keeps (x0 : State) : Keeps [.regs, .clk, .host, .pcie, .logs, .out, .perf, .chain, .messages, .signing, .links, .coefs, .trips, .pins, .pool, .reach, .lpi, .classes, .mons, .cal, .lanes, .sides, .sram, .wheel, .seq, .dma, .net, .trust, .fw, .power, .boot] x0 (railAdvance x0) := by
  unfold railAdvance
  try dsimp only
  repeat' first
    | ((with_reducible intro _ _); dsimp only)
    | ((with_reducible intro _); dsimp only)
    | (with_reducible intro _)
    | with_reducible exact Keeps.refl _ _
    | with_reducible assumption
    | ((with_reducible apply Keeps.step (nextRail_keeps _ _ _ )); exact rfl)
    | ((with_reducible apply Keeps.step (finishEntry_keeps _ )); exact rfl)
    | with_reducible apply Keeps.foldl
    | with_reducible apply Keeps.foldl_fst
    | split

theorem execRailAcknowledge_keeps (x0) (x1 : State) : ∃ t, execRailAcknowledge x0 x1 = .next t ∧ Keeps [.regs, .clk, .host, .pcie, .logs, .out, .perf, .chain, .messages, .signing, .links, .coefs, .trips, .pins, .pool, .reach, .lpi, .classes, .mons, .cal, .lanes, .sides, .sram, .wheel, .seq, .dma, .net, .trust, .fw, .power, .boot] x1 t := by
  unfold execRailAcknowledge
  refine ⟨_, rfl, ?_⟩
  try dsimp only
  repeat' first
    | ((with_reducible intro _ _); dsimp only)
    | ((with_reducible intro _); dsimp only)
    | (with_reducible intro _)
    | with_reducible exact Keeps.refl _ _
    | with_reducible assumption
    | ((with_reducible apply Keeps.step (railAdvance_keeps _ )); exact rfl)
    | with_reducible apply Keeps.foldl
    | with_reducible apply Keeps.foldl_fst
    | split

theorem statusPoll_keeps (x0) (x1) (x2) (x3 : State) : Keeps [.regs, .clk, .host, .pcie, .logs, .out, .perf, .chain, .messages, .signing, .links, .coefs, .trips, .pins, .pool, .reach, .lpi, .classes, .mons, .cal, .lanes, .sides, .sram, .wheel, .seq, .dma, .net, .trust, .fw, .power, .boot] x3 (statusPoll x0 x1 x2 x3) := by
  unfold statusPoll
  try dsimp only
  repeat' first
    | ((with_reducible intro _ _); dsimp only)
    | ((with_reducible intro _); dsimp only)
    | (with_reducible intro _)
    | with_reducible exact Keeps.refl _ _
    | with_reducible assumption
    | ((with_reducible apply Keeps.step (railAdvance_keeps _ )); exact rfl)
    | ((with_reducible apply Keeps.step (State.wr_keeps _ _ _ )); exact rfl)
    | with_reducible apply Keeps.foldl
    | with_reducible apply Keeps.foldl_fst
    | split

theorem execStatusWordPoll_keeps (x0) (x1) (x2) (x3 : State) : ∃ t, execStatusWordPoll x0 x1 x2 x3 = .next t ∧ Keeps [.regs, .clk, .host, .pcie, .logs, .out, .perf, .chain, .messages, .signing, .links, .coefs, .trips, .pins, .pool, .reach, .lpi, .classes, .mons, .cal, .lanes, .sides, .sram, .wheel, .seq, .dma, .net, .trust, .fw, .power, .boot] x3 t := by
  unfold execStatusWordPoll
  refine ⟨_, rfl, ?_⟩
  try dsimp only
  repeat' first
    | with_reducible exact Keeps.refl _ _
    | ((with_reducible apply Keeps.step (statusPoll_keeps _ _ _ _ )); exact rfl)

theorem railFaulted_keeps (x0) (x1) (x2 : State) : Keeps [.regs, .clk, .host, .pcie, .logs, .out, .perf, .chain, .messages, .signing, .links, .coefs, .trips, .pins, .pool, .reach, .lpi, .classes, .mons, .cal, .lanes, .sides, .sram, .wheel, .seq, .dma, .net, .trust, .fw, .power, .boot] x2 (railFaulted x0 x1 x2) := by
  unfold railFaulted
  try dsimp only
  repeat' first
    | ((with_reducible intro _ _); dsimp only)
    | ((with_reducible intro _); dsimp only)
    | (with_reducible intro _)
    | with_reducible exact Keeps.refl _ _
    | with_reducible assumption
    | ((with_reducible apply Keeps.step (railAdvance_keeps _ )); exact rfl)
    | ((with_reducible apply Keeps.step (pwrEvent_keeps _ _ )); exact rfl)
    | ((with_reducible apply Keeps.step (State.wr_keeps _ _ _ )); exact rfl)
    | ((with_reducible apply Keeps.step (State.modPower_keeps _ _ )); exact rfl)
    | ((with_reducible apply Keeps.step (State.emit_keeps _ _ )); exact rfl)
    | with_reducible apply Keeps.foldl
    | with_reducible apply Keeps.foldl_fst
    | split

theorem execRailFault_keeps (x0) (x1) (x2 : State) : ∃ t, execRailFault x0 x1 x2 = .next t ∧ Keeps [.regs, .clk, .host, .pcie, .logs, .out, .perf, .chain, .messages, .signing, .links, .coefs, .trips, .pins, .pool, .reach, .lpi, .classes, .mons, .cal, .lanes, .sides, .sram, .wheel, .seq, .dma, .net, .trust, .fw, .power, .boot] x2 t := by
  unfold execRailFault
  refine ⟨_, rfl, ?_⟩
  try dsimp only
  repeat' first
    | with_reducible exact Keeps.refl _ _
    | ((with_reducible apply Keeps.step (railFaulted_keeps _ _ _ )); exact rfl)
    | split

theorem execPmbusAlert_keeps (x0) (x1 : State) : ∃ t, execPmbusAlert x0 x1 = .next t ∧ Keeps [.regs, .logs, .out, .perf] x1 t := by
  unfold execPmbusAlert
  refine ⟨_, rfl, ?_⟩
  try dsimp only
  repeat' first
    | ((with_reducible intro _ _); dsimp only)
    | ((with_reducible intro _); dsimp only)
    | (with_reducible intro _)
    | with_reducible exact Keeps.refl _ _
    | with_reducible assumption
    | ((with_reducible apply Keeps.step (pwrEvent_keeps _ _ )); exact rfl)
    | ((with_reducible apply Keeps.step (State.wr_keeps _ _ _ )); exact rfl)
    | with_reducible apply Keeps.foldl
    | with_reducible apply Keeps.foldl_fst
    | split

theorem rtcAlarm_keeps (x0 : State) : Keeps [.regs, .logs, .out, .perf, .power] x0 (rtcAlarm x0) := by
  unfold rtcAlarm
  try dsimp only
  repeat' first
    | ((with_reducible intro _ _); dsimp only)
    | ((with_reducible intro _); dsimp only)
    | (with_reducible intro _)
    | with_reducible exact Keeps.refl _ _
    | with_reducible assumption
    | ((with_reducible apply Keeps.step (pwrEvent_keeps _ _ )); exact rfl)
    | ((with_reducible apply Keeps.step (askWake_keeps _ _ )); exact rfl)
    | ((with_reducible apply Keeps.step (State.modPower_keeps _ _ )); exact rfl)
    | with_reducible apply Keeps.foldl
    | with_reducible apply Keeps.foldl_fst
    | split

theorem execRtcAlarm_keeps (x0 : State) : ∃ t, execRtcAlarm x0 = .next t ∧ Keeps [.regs, .logs, .out, .perf, .power] x0 t := by
  unfold execRtcAlarm
  refine ⟨_, rfl, ?_⟩
  try dsimp only
  repeat' first
    | with_reducible exact Keeps.refl _ _
    | ((with_reducible apply Keeps.step (rtcAlarm_keeps _ )); exact rfl)

theorem execHostAccessInSleep_keeps (x0) (x1) (x2) (x3 : State) : ∃ t, execHostAccessInSleep x0 x1 x2 x3 = .next t ∧ Keeps [.regs, .logs, .out, .perf, .power] x3 t := by
  unfold execHostAccessInSleep
  refine ⟨_, rfl, ?_⟩
  try dsimp only
  repeat' first
    | with_reducible exact Keeps.refl _ _
    | ((with_reducible apply Keeps.step (accessInSleep_keeps _ _ _ _ )); exact rfl)

/-! ### Calibration -/

theorem State.modElem_keeps (x0 : State) (x1) (x2) (x3) : Keeps [.cal] x0 (Sys2Proof.Machine.State.modElem x0 x1 x2 x3) := by
  unfold Sys2Proof.Machine.State.modElem
  try dsimp only
  repeat' first
    | with_reducible exact Keeps.refl _ _
    | ((with_reducible apply Keeps.upd_cal); exact rfl)
    | (refine Keeps.of_parts ?_ rfl rfl rfl (fun h => h); intro p hp; cases p <;> first | rfl | exact absurd hp (by decide))

theorem State.setShadow_keeps (x0 : State) (x1) (x2) (x3) : Keeps [.cal] x0 (Sys2Proof.Machine.State.setShadow x0 x1 x2 x3) := by
  unfold Sys2Proof.Machine.State.setShadow
  try dsimp only
  repeat' first
    | with_reducible exact Keeps.refl _ _
    | ((with_reducible apply Keeps.upd_cal); exact rfl)
    | (refine Keeps.of_parts ?_ rfl rfl rfl (fun h => h); intro p hp; cases p <;> first | rfl | exact absurd hp (by decide))

theorem syncSpares_keeps (x0) (x1 : State) : Keeps [.regs] x1 (syncSpares x0 x1) := by
  unfold syncSpares
  try dsimp only
  repeat' first
    | with_reducible exact Keeps.refl _ _
    | ((with_reducible apply Keeps.step (State.wrs_keeps _ _ )); exact rfl)

theorem shadowAt_keeps (x0) (x1) (x2) (x3 : State) : Keeps [.cal] x3 (shadowAt x0 x1 x2 x3) := by
  unfold shadowAt
  try dsimp only
  repeat' first
    | with_reducible exact Keeps.refl _ _
    | ((with_reducible apply Keeps.step (State.setShadow_keeps _ _ _ _ )); exact rfl)
    | ((with_reducible apply Keeps.step (State.modElem_keeps _ _ _ _ )); exact rfl)

theorem nextVisit_keeps (x0 : State) : Keeps [.regs, .cal] x0 (nextVisit x0) := by
  unfold nextVisit
  try dsimp only
  repeat' first
    | ((with_reducible intro _ _); dsimp only)
    | ((with_reducible intro _); dsimp only)
    | (with_reducible intro _)
    | with_reducible exact Keeps.refl _ _
    | with_reducible assumption
    | ((with_reducible apply Keeps.step (State.wr_keeps _ _ _ )); exact rfl)
    | with_reducible apply Keeps.foldl
    | with_reducible apply Keeps.foldl_fst
    | split
    | ((with_reducible apply Keeps.upd_cal); exact rfl)
    | (refine Keeps.of_parts ?_ rfl rfl rfl (fun h => h); intro p hp; cases p <;> first | rfl | exact absurd hp (by decide))

theorem judgeSlots_keeps (x0 : State) : Keeps [.regs, .logs, .out, .perf] x0 (judgeSlots x0) := by
  unfold judgeSlots
  try dsimp only
  repeat' first
    | ((with_reducible intro _ _); dsimp only)
    | ((with_reducible intro _); dsimp only)
    | (with_reducible intro _)
    | with_reducible exact Keeps.refl _ _
    | with_reducible assumption
    | ((with_reducible apply Keeps.step (State.wr_keeps _ _ _ )); exact rfl)
    | ((with_reducible apply Keeps.step (plainEvent_keeps _ _ _ )); exact rfl)
    | with_reducible apply Keeps.foldl
    | with_reducible apply Keeps.foldl_fst
    | split

theorem applyErrors_keeps (x0) (x1) (x2 : State) : Keeps [.cal] x2 (applyErrors x0 x1 x2) := by
  unfold applyErrors
  try dsimp only
  repeat' first
    | ((with_reducible intro _ _); dsimp only)
    | ((with_reducible intro _); dsimp only)
    | (with_reducible intro _)
    | with_reducible exact Keeps.refl _ _
    | with_reducible assumption
    | ((with_reducible apply Keeps.step (State.modElem_keeps _ _ _ _ )); exact rfl)
    | with_reducible apply Keeps.foldl
    | with_reducible apply Keeps.foldl_fst
    | split

theorem State.setRot_keeps (x0 : State) (x1) : Keeps [.cal] x0 (Sys2Proof.Machine.State.setRot x0 x1) := by
  unfold Sys2Proof.Machine.State.setRot
  try dsimp only
  repeat' first
    | with_reducible exact Keeps.refl _ _
    | ((with_reducible apply Keeps.upd_cal); exact rfl)
    | (refine Keeps.of_parts ?_ rfl rfl rfl (fun h => h); intro p hp; cases p <;> first | rfl | exact absurd hp (by decide))

theorem abandonTest_keeps (x0) (x1) (x2) (x3 : State) : Keeps [.cal] x3 (abandonTest x0 x1 x2 x3) := by
  unfold abandonTest
  try dsimp only
  repeat' first
    | with_reducible exact Keeps.refl _ _
    | ((with_reducible apply Keeps.step (shadowAt_keeps _ _ _ _ )); exact rfl)
    | ((with_reducible apply Keeps.step (State.setRot_keeps _ _ )); exact rfl)
    | ((with_reducible apply Keeps.step (State.modElem_keeps _ _ _ _ )); exact rfl)

theorem prepare_keeps {v w : Nat} {why : SwitchWhy} {s t : State} (h : prepare v w why s = some t) : Keeps [.cal] s t := by
  unfold prepare at h
  dsimp only at h
  split at h
  · cases h
  · have e := Option.some.inj h
    subst e
    apply Keeps.upd_cal rfl
    split
    · exact Keeps.refl _ _
    · exact shadowAt_keeps _ _ _ _

theorem replaceDue_keeps (x0) (x1) (x2) (x3 : State) : Keeps [.cal] x3 (replaceDue x0 x1 x2 x3).1 := by
  unfold replaceDue
  split
  · exact Keeps.refl _ _
  · split
    · rename_i h
      exact prepare_keeps h
    · split
      · split
        · dsimp only
          split
          · exact Keeps.refl _ _
          · split
            · exact Keeps.upd_cal rfl (Keeps.refl _ _)
            · split
              · rename_i h
                exact (abandonTest_keeps _ _ _ _).trans (prepare_keeps h)
              · exact abandonTest_keeps _ _ _ _
        · exact Keeps.refl _ _
      · exact Keeps.refl _ _

theorem shadowVisit_keeps (x0) (x1 : State) : Keeps [.cal] x1 (shadowVisit x0 x1) := by
  unfold shadowVisit
  try dsimp only
  repeat' first
    | ((with_reducible intro _ _); dsimp only)
    | ((with_reducible intro _); dsimp only)
    | (with_reducible intro _)
    | with_reducible exact Keeps.refl _ _
    | with_reducible assumption
    | ((with_reducible apply Keeps.step (shadowAt_keeps _ _ _ _ )); exact rfl)
    | ((with_reducible apply Keeps.step (State.setShadow_keeps _ _ _ _ )); exact rfl)
    | with_reducible apply Keeps.foldl
    | with_reducible apply Keeps.foldl_fst
    | split
    | ((with_reducible apply Keeps.upd_cal); exact rfl)
    | (refine Keeps.of_parts ?_ rfl rfl rfl (fun h => h); intro p hp; cases p <;> first | rfl | exact absurd hp (by decide))

theorem bistEvent_keeps (x0) (x1 : State) : Keeps [.regs, .logs, .out, .perf] x1 (bistEvent x0 x1) := by
  unfold bistEvent
  try dsimp only
  repeat' first
    | with_reducible exact Keeps.refl _ _
    | ((with_reducible apply Keeps.step (causeEvent_keeps _ _ _ _ )); exact rfl)

theorem endStep_keeps (x0 : State) : Keeps [.regs, .cal] x0 (endStep x0) := by
  unfold endStep
  try dsimp only
  repeat' first
    | with_reducible exact Keeps.refl _ _
    | ((with_reducible apply Keeps.step (State.wr_keeps _ _ _ )); exact rfl)
    | ((with_reducible apply Keeps.step (State.addWrap_keeps _ _ _ )); exact rfl)
    | split
    | ((with_reducible apply Keeps.upd_cal); exact rfl)
    | (refine Keeps.of_parts ?_ rfl rfl rfl (fun h => h); intro p hp; cases p <;> first | rfl | exact absurd hp (by decide))

theorem nextElement_keeps (x0) (x1 : State) : Keeps [.regs, .cal] x1 (nextElement x0 x1) := by
  induction x0 generalizing x1 with
  | zero => exact Keeps.refl _ _
  | succ k ih =>
    unfold nextElement
    split
    · exact Keeps.refl _ _
    · split
      · exact endStep_keeps _
      · dsimp only
        split
        · split
          · exact ((State.setRot_keeps _ _).mono rfl).trans (ih _)
          · exact Keeps.step (State.setRot_keeps _ _) rfl (Keeps.step (State.setShadow_keeps _ _ _ _) rfl
              ((State.modElem_keeps _ _ _ _).mono rfl))
        · split
          · rename_i h
            exact Keeps.step (State.setRot_keeps _ _) rfl ((prepare_keeps h).mono rfl)
          · exact ((State.setRot_keeps _ _).mono rfl).trans (ih _)
        · exact ((State.setRot_keeps _ _).mono rfl).trans (ih _)

theorem checkWorking_keeps (x0) (x1 : State) : Keeps [.regs, .host, .logs, .out, .perf, .messages, .signing, .links, .trips, .pool, .reach, .lpi, .mons, .sram, .dma] x1 (checkWorking x0 x1) := by
  unfold checkWorking
  try dsimp only
  repeat' first
    | with_reducible exact Keeps.refl _ _
    | ((with_reducible apply Keeps.step (State.modLink_keeps _ _ _ )); exact rfl)
    | ((with_reducible apply Keeps.step (applyPortOff_keeps _ _ )); exact rfl)
    | split

theorem skipStep_keeps (x0) (x1 : State) : Keeps [.regs, .logs, .out, .perf, .cal] x1 (skipStep x0 x1) := by
  unfold skipStep
  try dsimp only
  repeat' first
    | with_reducible exact Keeps.refl _ _
    | ((with_reducible apply Keeps.step (bistEvent_keeps _ _ )); exact rfl)
    | ((with_reducible apply Keeps.step (State.setRot_keeps _ _ )); exact rfl)
    | ((with_reducible apply Keeps.step (endStep_keeps _ )); exact rfl)
    | split

theorem rotationStep_keeps (x0 : State) : Keeps [.regs, .logs, .out, .perf, .cal] x0 (rotationStep x0) := by
  unfold rotationStep
  try dsimp only
  repeat' first
    | ((with_reducible intro _ _); dsimp only)
    | ((with_reducible intro _); dsimp only)
    | (with_reducible intro _)
    | with_reducible exact Keeps.refl _ _
    | with_reducible assumption
    | ((with_reducible apply Keeps.step (nextElement_keeps _ _ )); exact rfl)
    | ((with_reducible apply Keeps.step (State.setRot_keeps _ _ )); exact rfl)
    | ((with_reducible apply Keeps.step (skipStep_keeps _ _ )); exact rfl)
    | ((with_reducible apply Keeps.step (State.wrs_keeps _ _ )); exact rfl)
    | with_reducible apply Keeps.foldl
    | with_reducible apply Keeps.foldl_fst
    | split
    | ((with_reducible apply Keeps.upd_cal); exact rfl)
    | (refine Keeps.of_parts ?_ rfl rfl rfl (fun h => h); intro p hp; cases p <;> first | rfl | exact absurd hp (by decide))

theorem jspBoundary_keeps (x0 : State) : Keeps [.regs, .cal] x0 (jspBoundary x0) := by
  unfold jspBoundary
  try dsimp only
  repeat' first
    | ((with_reducible intro _ _); dsimp only)
    | ((with_reducible intro _); dsimp only)
    | (with_reducible intro _)
    | with_reducible exact Keeps.refl _ _
    | with_reducible assumption
    | ((with_reducible apply Keeps.step (State.wrs_keeps _ _ )); exact rfl)
    | with_reducible apply Keeps.foldl
    | with_reducible apply Keeps.foldl_fst
    | split
    | ((with_reducible apply Keeps.upd_cal); exact rfl)
    | (refine Keeps.of_parts ?_ rfl rfl rfl (fun h => h); intro p hp; cases p <;> first | rfl | exact absurd hp (by decide))

theorem jspPermanent_keeps (x0) (x1 : State) : Keeps [.regs, .logs, .out, .perf, .cal] x1 (jspPermanent x0 x1) := by
  unfold jspPermanent
  try dsimp only
  repeat' first
    | with_reducible exact Keeps.refl _ _
    | ((with_reducible apply Keeps.step (bistEvent_keeps _ _ )); exact rfl)
    | ((with_reducible apply Keeps.step (State.wrs_keeps _ _ )); exact rfl)
    | ((with_reducible apply Keeps.upd_cal); exact rfl)
    | (refine Keeps.of_parts ?_ rfl rfl rfl (fun h => h); intro p hp; cases p <;> first | rfl | exact absurd hp (by decide))

theorem engineResult_keeps (x0) (x1) (x2 : State) : Keeps [.regs, .logs, .out, .perf, .cal] x2 (engineResult x0 x1 x2) := by
  unfold engineResult
  try dsimp only
  repeat' first
    | with_reducible exact Keeps.refl _ _
    | ((with_reducible apply Keeps.step (bistEvent_keeps _ _ )); exact rfl)
    | ((with_reducible apply Keeps.step (jspPermanent_keeps _ _ )); exact rfl)
    | split
    | ((with_reducible apply Keeps.upd_cal); exact rfl)
    | (refine Keeps.of_parts ?_ rfl rfl rfl (fun h => h); intro p hp; cases p <;> first | rfl | exact absurd hp (by decide))

theorem elementResult_keeps (x0) (x1) (x2) (x3) (x4 : State) : Keeps [.regs, .host, .logs, .out, .perf, .messages, .signing, .links, .trips, .pool, .reach, .lpi, .mons, .cal, .sram, .dma] x4 (elementResult x0 x1 x2 x3 x4) := by
  unfold elementResult
  try dsimp only
  repeat' first
    | with_reducible exact Keeps.refl _ _
    | ((with_reducible apply Keeps.step (bistEvent_keeps _ _ )); exact rfl)
    | ((with_reducible apply Keeps.step (shadowAt_keeps _ _ _ _ )); exact rfl)
    | ((with_reducible apply Keeps.step (checkWorking_keeps _ _ )); exact rfl)
    | ((with_reducible apply Keeps.step (syncSpares_keeps _ _ )); exact rfl)
    | ((with_reducible apply Keeps.step (State.modElem_keeps _ _ _ _ )); exact rfl)
    | split

theorem elementEnd_keeps (x0) (x1 : State) : Keeps [.regs, .host, .logs, .out, .perf, .messages, .signing, .links, .trips, .pool, .reach, .lpi, .mons, .cal, .sram, .dma] x1 (elementEnd x0 x1) := by
  unfold elementEnd
  try dsimp only
  repeat' first
    | with_reducible exact Keeps.refl _ _
    | ((with_reducible apply Keeps.step (nextElement_keeps _ _ )); exact rfl)
    | ((with_reducible apply Keeps.step (engineResult_keeps _ _ _ )); exact rfl)
    | ((with_reducible apply Keeps.step (State.setRot_keeps _ _ )); exact rfl)
    | ((with_reducible apply Keeps.step (endStep_keeps _ )); exact rfl)
    | ((with_reducible apply Keeps.step (elementResult_keeps _ _ _ _ _ )); exact rfl)
    | ((with_reducible apply Keeps.step (State.modElem_keeps _ _ _ _ )); exact rfl)
    | split
    | ((with_reducible apply Keeps.upd_cal); exact rfl)
    | (refine Keeps.of_parts ?_ rfl rfl rfl (fun h => h); intro p hp; cases p <;> first | rfl | exact absurd hp (by decide))

theorem switchIn_keeps (x0) (x1 : State) : Keeps [.regs, .logs, .out, .perf, .cal] x1 (switchIn x0 x1) := by
  unfold switchIn
  try dsimp only
  repeat' first
    | with_reducible exact Keeps.refl _ _
    | ((with_reducible apply Keeps.step (nextElement_keeps _ _ )); exact rfl)
    | ((with_reducible apply Keeps.step (State.setRot_keeps _ _ )); exact rfl)
    | ((with_reducible apply Keeps.step (calEvent_keeps _ _ _ )); exact rfl)
    | ((with_reducible apply Keeps.step (syncSpares_keeps _ _ )); exact rfl)
    | ((with_reducible apply Keeps.step (State.modElem_keeps _ _ _ _ )); exact rfl)
    | split
    | ((with_reducible apply Keeps.upd_cal); exact rfl)
    | (refine Keeps.of_parts ?_ rfl rfl rfl (fun h => h); intro p hp; cases p <;> first | rfl | exact absurd hp (by decide))

theorem refuseCal_keeps (x0) (x1 : State) : Keeps [.regs, .logs, .out, .perf, .chain, .signing] x1 (refuseCal x0 x1) := by
  unfold refuseCal
  try dsimp only
  repeat' first
    | ((with_reducible intro _ _); dsimp only)
    | ((with_reducible intro _); dsimp only)
    | (with_reducible intro _)
    | with_reducible exact Keeps.refl _ _
    | with_reducible assumption
    | ((with_reducible apply Keeps.step (State.wr_keeps _ _ _ )); exact rfl)
    | ((with_reducible apply Keeps.step (audit_keeps _ _ _ _ _ )); exact rfl)
    | with_reducible apply Keeps.foldl
    | with_reducible apply Keeps.foldl_fst
    | split

theorem startForce_keeps (x0 : State) : Keeps [.regs, .host, .logs, .out, .perf, .chain, .signing, .cal] x0 (startForce x0) := by
  unfold startForce
  try dsimp only
  repeat' first
    | ((with_reducible intro _ _); dsimp only)
    | ((with_reducible intro _); dsimp only)
    | (with_reducible intro _)
    | with_reducible exact Keeps.refl _ _
    | with_reducible assumption
    | ((with_reducible apply Keeps.step (State.setWc_keeps _ _ _ )); exact rfl)
    | ((with_reducible apply Keeps.step (refuseCal_keeps _ _ )); exact rfl)
    | with_reducible apply Keeps.foldl
    | with_reducible apply Keeps.foldl_fst
    | split
    | ((with_reducible apply Keeps.upd_cal); exact rfl)
    | (refine Keeps.of_parts ?_ rfl rfl rfl (fun h => h); intro p hp; cases p <;> first | rfl | exact absurd hp (by decide))

theorem startSwap_keeps (x0 : State) : Keeps [.regs, .host, .logs, .out, .perf, .chain, .signing, .cal] x0 (startSwap x0) := by
  unfold startSwap
  try dsimp only
  repeat' first
    | ((with_reducible intro _ _); dsimp only)
    | ((with_reducible intro _); dsimp only)
    | (with_reducible intro _)
    | with_reducible exact Keeps.refl _ _
    | with_reducible assumption
    | ((with_reducible apply Keeps.step (State.setWc_keeps _ _ _ )); exact rfl)
    | ((with_reducible apply Keeps.step (replaceDue_keeps _ _ _ _ )); exact rfl)
    | ((with_reducible apply Keeps.step (refuseCal_keeps _ _ )); exact rfl)
    | with_reducible apply Keeps.foldl
    | with_reducible apply Keeps.foldl_fst
    | split

theorem forceCmd_keeps (x0 : State) : Keeps [.regs, .host, .logs, .out, .perf, .chain, .signing, .cal] x0 (forceCmd x0) := by
  unfold forceCmd
  try dsimp only
  repeat' first
    | ((with_reducible intro _ _); dsimp only)
    | ((with_reducible intro _); dsimp only)
    | (with_reducible intro _)
    | with_reducible exact Keeps.refl _ _
    | with_reducible assumption
    | ((with_reducible apply wcWrite_keeps); exact rfl)
    | ((with_reducible apply Keeps.step (startForce_keeps _ )); exact rfl)

theorem swapCmd_keeps (x0 : State) : Keeps [.regs, .host, .logs, .out, .perf, .chain, .signing, .cal] x0 (swapCmd x0) := by
  unfold swapCmd
  try dsimp only
  repeat' first
    | ((with_reducible intro _ _); dsimp only)
    | ((with_reducible intro _); dsimp only)
    | (with_reducible intro _)
    | with_reducible exact Keeps.refl _ _
    | with_reducible assumption
    | ((with_reducible apply wcWrite_keeps); exact rfl)
    | ((with_reducible apply Keeps.step (startSwap_keeps _ )); exact rfl)

theorem reportVisit_keeps (x0) (x1) (x2) (x3) (x4 : State) : Keeps [.regs, .logs, .out, .perf] x4 (reportVisit x0 x1 x2 x3 x4) := by
  unfold reportVisit
  try dsimp only
  repeat' first
    | ((with_reducible intro _ _); dsimp only)
    | ((with_reducible intro _); dsimp only)
    | (with_reducible intro _)
    | with_reducible exact Keeps.refl _ _
    | with_reducible assumption
    | ((with_reducible apply Keeps.step (calEvent_keeps _ _ _ )); exact rfl)
    | ((with_reducible apply Keeps.step (State.addWrap_keeps _ _ _ )); exact rfl)
    | ((with_reducible apply Keeps.step (State.wrs_keeps _ _ )); exact rfl)
    | with_reducible apply Keeps.foldl
    | with_reducible apply Keeps.foldl_fst
    | split

theorem replaceAtVisit_keeps (x0) (x1) (x2 : State) : Keeps [.regs, .logs, .out, .perf, .cal] x2 (replaceAtVisit x0 x1 x2) := by
  unfold replaceAtVisit
  try dsimp only
  repeat' first
    | ((with_reducible intro _ _); dsimp only)
    | ((with_reducible intro _); dsimp only)
    | (with_reducible intro _)
    | with_reducible exact Keeps.refl _ _
    | with_reducible assumption
    | ((with_reducible apply Keeps.step (replaceDue_keeps _ _ _ _ )); exact rfl)
    | ((with_reducible apply Keeps.step (calEvent_keeps _ _ _ )); exact rfl)
    | with_reducible apply Keeps.foldl
    | with_reducible apply Keeps.foldl_fst
    | split

theorem visitEnd_keeps (x0) (x1 : State) : Keeps [.regs, .host, .logs, .out, .perf, .chain, .signing, .cal] x1 (visitEnd x0 x1) := by
  unfold visitEnd
  try dsimp only
  repeat' first
    | ((with_reducible intro _ _); dsimp only)
    | ((with_reducible intro _); dsimp only)
    | (with_reducible intro _)
    | with_reducible exact Keeps.refl _ _
    | with_reducible assumption
    | ((with_reducible apply Keeps.step (applyErrors_keeps _ _ _ )); exact rfl)
    | ((with_reducible apply Keeps.step (reportVisit_keeps _ _ _ _ _ )); exact rfl)
    | ((with_reducible apply Keeps.step (startForce_keeps _ )); exact rfl)
    | ((with_reducible apply Keeps.step (nextVisit_keeps _ )); exact rfl)
    | ((with_reducible apply Keeps.step (calEvent_keeps _ _ _ )); exact rfl)
    | ((with_reducible apply Keeps.step (shadowVisit_keeps _ _ )); exact rfl)
    | ((with_reducible apply wcDone_keeps); exact rfl)
    | ((with_reducible apply Keeps.step (replaceAtVisit_keeps _ _ _ )); exact rfl)
    | ((with_reducible apply Keeps.step (syncSpares_keeps _ _ )); exact rfl)
    | with_reducible apply Keeps.foldl
    | with_reducible apply Keeps.foldl_fst
    | split
    | ((with_reducible apply Keeps.upd_cal); exact rfl)
    | (refine Keeps.of_parts ?_ rfl rfl rfl (fun h => h); intro p hp; cases p <;> first | rfl | exact absurd hp (by decide))

theorem execCalVisitEnd_keeps (x0) (x1 : State) : ∃ t, execCalVisitEnd x0 x1 = .next t ∧ Keeps [.regs, .host, .logs, .out, .perf, .chain, .signing, .cal] x1 t := by
  unfold execCalVisitEnd
  refine ⟨_, rfl, ?_⟩
  try dsimp only
  repeat' first
    | ((with_reducible intro _ _); dsimp only)
    | ((with_reducible intro _); dsimp only)
    | (with_reducible intro _)
    | with_reducible exact Keeps.refl _ _
    | with_reducible assumption
    | ((with_reducible apply whileAwake_keeps); exact rfl)
    | ((with_reducible apply Keeps.step (visitEnd_keeps _ _ )); exact rfl)

theorem execSpareSwitchIn_keeps (x0) (x1 : State) : ∃ t, execSpareSwitchIn x0 x1 = .next t ∧ Keeps [.regs, .host, .logs, .out, .perf, .chain, .signing, .cal] x1 t := by
  unfold execSpareSwitchIn
  refine ⟨_, rfl, ?_⟩
  try dsimp only
  repeat' first
    | ((with_reducible intro _ _); dsimp only)
    | ((with_reducible intro _); dsimp only)
    | (with_reducible intro _)
    | with_reducible exact Keeps.refl _ _
    | with_reducible assumption
    | ((with_reducible apply Keeps.step (startSwap_keeps _ )); exact rfl)
    | ((with_reducible apply Keeps.step (switchIn_keeps _ _ )); exact rfl)
    | ((with_reducible apply wcDone_keeps); exact rfl)
    | split

theorem execForce_keeps (x0 : State) : ∃ t, execForce x0 = .next t ∧ Keeps [.regs, .host, .logs, .out, .perf, .chain, .signing, .cal, .power] x0 t := by
  unfold execForce
  refine ⟨_, rfl, ?_⟩
  try dsimp only
  repeat' first
    | ((with_reducible intro _ _); dsimp only)
    | ((with_reducible intro _); dsimp only)
    | (with_reducible intro _)
    | with_reducible exact Keeps.refl _ _
    | with_reducible assumption
    | ((with_reducible apply Keeps.step (forceCmd_keeps _ )); exact rfl)
    | ((with_reducible apply hostCommand_keeps); exact rfl)

theorem execSwap_keeps (x0 : State) : ∃ t, execSwap x0 = .next t ∧ Keeps [.regs, .host, .logs, .out, .perf, .chain, .signing, .cal, .power] x0 t := by
  unfold execSwap
  refine ⟨_, rfl, ?_⟩
  try dsimp only
  repeat' first
    | ((with_reducible intro _ _); dsimp only)
    | ((with_reducible intro _); dsimp only)
    | (with_reducible intro _)
    | with_reducible exact Keeps.refl _ _
    | with_reducible assumption
    | ((with_reducible apply Keeps.step (swapCmd_keeps _ )); exact rfl)
    | ((with_reducible apply hostCommand_keeps); exact rfl)

theorem trimSelect_keeps (x0) (x1 : State) : Keeps [.regs] x1 (trimSelect x0 x1) := by
  unfold trimSelect
  try dsimp only
  repeat' first
    | ((with_reducible intro _ _); dsimp only)
    | ((with_reducible intro _); dsimp only)
    | (with_reducible intro _)
    | with_reducible exact Keeps.refl _ _
    | with_reducible assumption
    | ((with_reducible apply Keeps.step (State.setWord_keeps _ _ _ )); exact rfl)
    | with_reducible apply Keeps.foldl
    | with_reducible apply Keeps.foldl_fst

theorem execTrimSelWrite_keeps (x0) (x1 : State) : ∃ t, execTrimSelWrite x0 x1 = .next t ∧ Keeps [.regs, .host, .logs, .out, .perf, .power] x1 t := by
  unfold execTrimSelWrite
  refine ⟨_, rfl, ?_⟩
  try dsimp only
  repeat' first
    | ((with_reducible intro _ _); dsimp only)
    | ((with_reducible intro _); dsimp only)
    | (with_reducible intro _)
    | with_reducible exact Keeps.refl _ _
    | with_reducible assumption
    | ((with_reducible apply Keeps.step (trimSelect_keeps _ _ )); exact rfl)
    | ((with_reducible apply hostCommand_keeps); exact rfl)

theorem execRotationStep_keeps (x0 : State) : ∃ t, execRotationStep x0 = .next t ∧ Keeps [.regs, .logs, .out, .perf, .cal] x0 t := by
  unfold execRotationStep
  refine ⟨_, rfl, ?_⟩
  try dsimp only
  repeat' first
    | ((with_reducible intro _ _); dsimp only)
    | ((with_reducible intro _); dsimp only)
    | (with_reducible intro _)
    | with_reducible exact Keeps.refl _ _
    | with_reducible assumption
    | ((with_reducible apply whileAwake_keeps); exact rfl)
    | ((with_reducible apply Keeps.step (rotationStep_keeps _ )); exact rfl)

theorem execRotationElementEnd_keeps (x0) (x1 : State) : ∃ t, execRotationElementEnd x0 x1 = .next t ∧ Keeps [.regs, .host, .logs, .out, .perf, .messages, .signing, .links, .trips, .pool, .reach, .lpi, .mons, .cal, .sram, .dma] x1 t := by
  unfold execRotationElementEnd
  refine ⟨_, rfl, ?_⟩
  try dsimp only
  repeat' first
    | with_reducible exact Keeps.refl _ _
    | ((with_reducible apply Keeps.step (elementEnd_keeps _ _ )); exact rfl)

theorem calChecks_keeps (x0 : State) : Keeps [.regs, .host, .logs, .out, .perf] x0 (calChecks x0) := by
  unfold calChecks
  try dsimp only
  repeat' first
    | ((with_reducible intro _ _); dsimp only)
    | ((with_reducible intro _); dsimp only)
    | (with_reducible intro _)
    | with_reducible exact Keeps.refl _ _
    | with_reducible assumption
    | ((with_reducible apply Keeps.step (agree_keeps _ _ _ )); exact rfl)
    | with_reducible apply Keeps.foldl
    | with_reducible apply Keeps.foldl_fst

theorem calBankActive_keeps (x0 : State) : Keeps [.regs] x0 (calBankActive x0) := by
  unfold calBankActive
  try dsimp only
  repeat' first
    | ((with_reducible intro _ _); dsimp only)
    | ((with_reducible intro _); dsimp only)
    | (with_reducible intro _)
    | with_reducible exact Keeps.refl _ _
    | with_reducible assumption
    | ((with_reducible apply Keeps.step (State.wr_keeps _ _ _ )); exact rfl)
    | with_reducible apply Keeps.foldl
    | with_reducible apply Keeps.foldl_fst
    | split

/-! ### Snapshot -/

theorem writeCopy_keeps (x0) (x1 : State) : Keeps [.sram, .dma] x1 (writeCopy x0 x1) := by
  unfold writeCopy
  exact Keeps.foldl (fun _ _ => (State.setByte_keeps _ _ _).mono rfl)
    (State.withSram_keeps rfl (fun h => storeWf_filter _ _ h) ((clearMarks_keeps _ _ _).mono rfl))

theorem stateSnapshot_keeps (x0 : State) : Keeps [.sram, .dma, .fw] x0 (stateSnapshot x0) := by
  unfold stateSnapshot
  try dsimp only
  repeat' first
    | ((with_reducible intro _ _); dsimp only)
    | ((with_reducible intro _); dsimp only)
    | (with_reducible intro _)
    | with_reducible exact Keeps.refl _ _
    | with_reducible assumption
    | ((with_reducible apply Keeps.step (writeCopy_keeps _ _ )); exact rfl)
    | with_reducible apply Keeps.foldl
    | with_reducible apply Keeps.foldl_fst
    | split
    | ((with_reducible apply Keeps.upd_fw); exact rfl)
    | (refine Keeps.of_parts ?_ rfl rfl rfl (fun h => h); intro p hp; cases p <;> first | rfl | exact absurd hp (by decide))

theorem snapHold_keeps (x0) (x1 : State) : Keeps [.regs, .fw] x1 (snapHold x0 x1) := by
  unfold snapHold
  try dsimp only
  repeat' first
    | with_reducible exact Keeps.refl _ _
    | ((with_reducible apply Keeps.step (State.wr_keeps _ _ _ )); exact rfl)
    | ((with_reducible apply Keeps.step (State.wrs_keeps _ _ )); exact rfl)
    | split
    | ((with_reducible apply Keeps.upd_fw); exact rfl)
    | (refine Keeps.of_parts ?_ rfl rfl rfl (fun h => h); intro p hp; cases p <;> first | rfl | exact absurd hp (by decide))

theorem execSnapHoldWrite_keeps (x0) (x1 : State) : ∃ t, execSnapHoldWrite x0 x1 = .next t ∧ Keeps [.regs, .host, .logs, .out, .perf, .fw, .power] x1 t := by
  unfold execSnapHoldWrite
  refine ⟨_, rfl, ?_⟩
  try dsimp only
  repeat' first
    | ((with_reducible intro _ _); dsimp only)
    | ((with_reducible intro _); dsimp only)
    | (with_reducible intro _)
    | with_reducible exact Keeps.refl _ _
    | with_reducible assumption
    | ((with_reducible apply Keeps.step (snapHold_keeps _ _ )); exact rfl)
    | ((with_reducible apply hostCommand_keeps); exact rfl)

theorem execSnapHoldExpiry_keeps (x0 : State) : ∃ t, execSnapHoldExpiry x0 = .next t ∧ Keeps [.regs, .fw] x0 t := by
  unfold execSnapHoldExpiry
  refine ⟨_, rfl, ?_⟩
  try dsimp only
  repeat' first
    | with_reducible exact Keeps.refl _ _
    | ((with_reducible apply Keeps.step (snapHold_keeps _ _ )); exact rfl)
    | split

/-! ### Boot -/

theorem deviceReset_keeps (x0 : State) : Keeps [.regs, .clk, .host, .pcie, .logs, .out, .perf, .chain, .messages, .signing, .links, .coefs, .trips, .pins, .pool, .reach, .lpi, .classes, .mons, .cal, .lanes, .sides, .sram, .wheel, .seq, .dma, .net, .trust, .fw, .power, .boot] x0 (deviceReset x0) := by
  unfold deviceReset
  try dsimp only
  repeat' first
    | ((with_reducible intro _ _); dsimp only)
    | ((with_reducible intro _); dsimp only)
    | (with_reducible intro _)
    | with_reducible exact Keeps.refl _ _
    | with_reducible assumption
    | ((with_reducible apply Keeps.step (refuseSealed_keeps _ _ _ )); exact rfl)
    | ((with_reducible apply Keeps.step (resetDevice_keeps _ _ )); exact rfl)
    | with_reducible apply Keeps.foldl
    | with_reducible apply Keeps.foldl_fst
    | split

theorem execDevice_keeps (x0 : State) : ∃ t, execDevice x0 = .next t ∧ Keeps [.regs, .clk, .host, .pcie, .logs, .out, .perf, .chain, .messages, .signing, .links, .coefs, .trips, .pins, .pool, .reach, .lpi, .classes, .mons, .cal, .lanes, .sides, .sram, .wheel, .seq, .dma, .net, .trust, .fw, .power, .boot] x0 t := by
  unfold execDevice
  refine ⟨_, rfl, ?_⟩
  try dsimp only
  repeat' first
    | ((with_reducible intro _ _); dsimp only)
    | ((with_reducible intro _); dsimp only)
    | (with_reducible intro _)
    | with_reducible exact Keeps.refl _ _
    | with_reducible assumption
    | ((with_reducible apply Keeps.step (deviceReset_keeps _ )); exact rfl)
    | ((with_reducible apply hostCommand_keeps); exact rfl)

theorem longNext_keeps (x0 : State) : Keeps [.regs] x0 (longNext x0) := by
  unfold longNext
  try dsimp only
  repeat' first
    | with_reducible exact Keeps.refl _ _
    | ((with_reducible apply Keeps.step (State.wrs_keeps _ _ )); exact rfl)

theorem longNextCmd_keeps (x0 : State) : Keeps [.regs, .host] x0 (longNextCmd x0) := by
  unfold longNextCmd
  try dsimp only
  repeat' first
    | ((with_reducible intro _ _); dsimp only)
    | ((with_reducible intro _); dsimp only)
    | (with_reducible intro _)
    | with_reducible exact Keeps.refl _ _
    | with_reducible assumption
    | ((with_reducible apply Keeps.step (refuseSealed_keeps _ _ _ )); exact rfl)
    | ((with_reducible apply Keeps.step (longNext_keeps _ )); exact rfl)
    | with_reducible apply Keeps.foldl
    | with_reducible apply Keeps.foldl_fst
    | split

theorem execLongNext_keeps (x0 : State) : ∃ t, execLongNext x0 = .next t ∧ Keeps [.regs, .host, .logs, .out, .perf, .power] x0 t := by
  unfold execLongNext
  refine ⟨_, rfl, ?_⟩
  try dsimp only
  repeat' first
    | ((with_reducible intro _ _); dsimp only)
    | ((with_reducible intro _); dsimp only)
    | (with_reducible intro _)
    | with_reducible exact Keeps.refl _ _
    | with_reducible assumption
    | ((with_reducible apply Keeps.step (longNextCmd_keeps _ )); exact rfl)
    | ((with_reducible apply hostCommand_keeps); exact rfl)

theorem execResetRelease_keeps (x0 : State) : ∃ t, execResetRelease x0 = .next t ∧ Keeps [.regs, .clk, .out, .power, .boot] x0 t := by
  unfold execResetRelease
  refine ⟨_, rfl, ?_⟩
  try dsimp only
  repeat' first
    | with_reducible exact Keeps.refl _ _
    | ((with_reducible apply Keeps.step (startBoot_keeps _ )); exact rfl)
    | split

theorem resetMsix_keeps (x0 : State) : Keeps [.regs] x0 (resetMsix x0) := by
  unfold resetMsix
  try dsimp only
  repeat' first
    | ((with_reducible intro _ _); dsimp only)
    | ((with_reducible intro _); dsimp only)
    | (with_reducible intro _)
    | with_reducible exact Keeps.refl _ _
    | with_reducible assumption
    | ((with_reducible apply Keeps.step (State.wrs_keeps _ _ )); exact rfl)
    | with_reducible apply Keeps.foldl
    | with_reducible apply Keeps.foldl_fst

theorem execPerstN_keeps (x0 : State) : ∃ t, execPerstN x0 = .next t ∧ Keeps [.regs, .pcie] x0 t := by
  unfold execPerstN
  refine ⟨_, rfl, ?_⟩
  try dsimp only
  repeat' first
    | with_reducible exact Keeps.refl _ _
    | ((with_reducible apply Keeps.step (resetMsix_keeps _ )); exact rfl)
    | ((with_reducible apply Keeps.upd_pcie); exact rfl)
    | (refine Keeps.of_parts ?_ rfl rfl rfl (fun h => h); intro p hp; cases p <;> first | rfl | exact absurd hp (by decide))

theorem execPcieLinkChange_keeps (x0) (x1 : State) : ∃ t, execPcieLinkChange x0 x1 = .next t ∧ Keeps [.pcie] x1 t := by
  unfold execPcieLinkChange
  refine ⟨_, rfl, ?_⟩
  try dsimp only
  repeat' first
    | with_reducible exact Keeps.refl _ _
    | ((with_reducible apply Keeps.upd_pcie); exact rfl)
    | (refine Keeps.of_parts ?_ rfl rfl rfl (fun h => h); intro p hp; cases p <;> first | rfl | exact absurd hp (by decide))

theorem execWakePin_keeps (x0) (x1 : State) : ∃ t, execWakePin x0 x1 = .next t ∧ Keeps [.regs, .power] x1 t := by
  unfold execWakePin
  refine ⟨_, rfl, ?_⟩
  try dsimp only
  repeat' first
    | with_reducible exact Keeps.refl _ _
    | ((with_reducible apply Keeps.step (askWake_keeps _ _ )); exact rfl)
    | ((with_reducible apply Keeps.step (State.modPower_keeps _ _ )); exact rfl)
    | split

theorem enterSafeHold_keeps (x0) (x1 : State) : Keeps [.regs, .clk, .out, .boot] x1 (enterSafeHold x0 x1) := by
  unfold enterSafeHold
  try dsimp only
  repeat' first
    | ((with_reducible intro _ _); dsimp only)
    | ((with_reducible intro _); dsimp only)
    | (with_reducible intro _)
    | with_reducible exact Keeps.refl _ _
    | with_reducible assumption
    | ((with_reducible apply withOuts_keeps); exact rfl)
    | ((with_reducible apply Keeps.step (State.wr_keeps _ _ _ )); exact rfl)
    | ((with_reducible apply State.withClk_keeps); exact rfl; first | exact fun h => h | exact fun _ => ⟨Nat.zero_le _, Nat.zero_le _⟩)
    | ((with_reducible apply Keeps.upd_boot); exact rfl)
    | (refine Keeps.of_parts ?_ rfl rfl rfl (fun h => h); intro p hp; cases p <;> first | rfl | exact absurd hp (by decide))

theorem safeSubmit_keeps (x0 : State) : Keeps [.regs, .boot] x0 (safeSubmit x0) := by
  unfold safeSubmit
  try dsimp only
  repeat' first
    | ((with_reducible intro _ _); dsimp only)
    | ((with_reducible intro _); dsimp only)
    | (with_reducible intro _)
    | with_reducible exact Keeps.refl _ _
    | with_reducible assumption
    | ((with_reducible apply Keeps.step (State.wr_keeps _ _ _ )); exact rfl)
    | with_reducible apply Keeps.foldl
    | with_reducible apply Keeps.foldl_fst
    | split
    | ((with_reducible apply Keeps.upd_boot); exact rfl)
    | (refine Keeps.of_parts ?_ rfl rfl rfl (fun h => h); intro p hp; cases p <;> first | rfl | exact absurd hp (by decide))

theorem execSubmit_keeps (x0 : State) : ∃ t, execSubmit x0 = .next t ∧ Keeps [.regs, .host, .logs, .out, .perf, .messages, .signing, .sram, .dma, .trust, .power, .boot] x0 t := by
  unfold execSubmit
  refine ⟨_, rfl, ?_⟩
  try dsimp only
  repeat' first
    | ((with_reducible intro _ _); dsimp only)
    | ((with_reducible intro _); dsimp only)
    | (with_reducible intro _)
    | with_reducible exact Keeps.refl _ _
    | with_reducible assumption
    | ((with_reducible apply Keeps.step (submit_keeps _ )); exact rfl)
    | ((with_reducible apply Keeps.step (safeSubmit_keeps _ )); exact rfl)
    | ((with_reducible apply hostCommand_keeps); exact rfl)
    | split

theorem setSeg_keeps (x0) (x1) (x2 : State) : Keeps [.regs] x2 (setSeg x0 x1 x2) := by
  unfold setSeg
  try dsimp only
  repeat' first
    | ((with_reducible intro _ _); dsimp only)
    | ((with_reducible intro _); dsimp only)
    | (with_reducible intro _)
    | with_reducible exact Keeps.refl _ _
    | with_reducible assumption
    | ((with_reducible apply Keeps.step (State.setWord_keeps _ _ _ )); exact rfl)
    | with_reducible apply Keeps.foldl
    | with_reducible apply Keeps.foldl_fst

theorem judgeEngines_keeps (x0 : State) : Keeps [.regs, .logs, .out, .perf, .cal] x0 (judgeEngines x0) := by
  unfold judgeEngines
  try dsimp only
  repeat' first
    | ((with_reducible intro _ _); dsimp only)
    | ((with_reducible intro _); dsimp only)
    | (with_reducible intro _)
    | with_reducible exact Keeps.refl _ _
    | with_reducible assumption
    | ((with_reducible apply Keeps.step (jspPermanent_keeps _ _ )); exact rfl)
    | with_reducible apply Keeps.foldl
    | with_reducible apply Keeps.foldl_fst
    | split
    | ((with_reducible apply Keeps.upd_cal); exact rfl)
    | (refine Keeps.of_parts ?_ rfl rfl rfl (fun h => h); intro p hp; cases p <;> first | rfl | exact absurd hp (by decide))

theorem segFailed_keeps (x0) (x1) (x2 : State) : Keeps [.regs, .clk, .out, .links, .boot] x2 (segFailed x0 x1 x2) := by
  unfold segFailed
  try dsimp only
  repeat' first
    | with_reducible exact Keeps.refl _ _
    | ((with_reducible apply Keeps.step (State.modLink_keeps _ _ _ )); exact rfl)
    | ((with_reducible apply Keeps.step (enterSafeHold_keeps _ _ )); exact rfl)
    | split

theorem startTestOver_keeps (x0 : State) : Keeps [.out, .power, .boot] x0 (startTestOver x0) := by
  unfold startTestOver
  try dsimp only
  repeat' first
    | with_reducible exact Keeps.refl _ _
    | ((with_reducible apply Keeps.step (startRails_keeps _ _ _ )); exact rfl)
    | ((with_reducible apply Keeps.upd_boot); exact rfl)
    | (refine Keeps.of_parts ?_ rfl rfl rfl (fun h => h); intro p hp; cases p <;> first | rfl | exact absurd hp (by decide))

theorem bootSegment_keeps (x0) (x1 : State) : Keeps [.regs, .clk, .logs, .out, .perf, .links, .cal, .power, .boot] x1 (bootSegment x0 x1) := by
  unfold bootSegment
  try dsimp only
  repeat' first
    | with_reducible exact Keeps.refl _ _
    | ((with_reducible apply Keeps.step (judgeEngines_keeps _ )); exact rfl)
    | ((with_reducible apply Keeps.step (setSeg_keeps _ _ _ )); exact rfl)
    | ((with_reducible apply Keeps.step (segFailed_keeps _ _ _ )); exact rfl)
    | ((with_reducible apply Keeps.step (startTestOver_keeps _ )); exact rfl)
    | split
    | ((with_reducible apply Keeps.upd_boot); exact rfl)
    | (refine Keeps.of_parts ?_ rfl rfl rfl (fun h => h); intro p hp; cases p <;> first | rfl | exact absurd hp (by decide))

theorem shutSegment_keeps (x0) (x1 : State) : Keeps [.regs, .power, .boot] x1 (shutSegment x0 x1) := by
  unfold shutSegment
  try dsimp only
  repeat' first
    | ((with_reducible intro _ _); dsimp only)
    | ((with_reducible intro _); dsimp only)
    | (with_reducible intro _)
    | with_reducible exact Keeps.refl _ _
    | with_reducible assumption
    | ((with_reducible apply Keeps.step (setSeg_keeps _ _ _ )); exact rfl)
    | ((with_reducible apply Keeps.step (State.wr_keeps _ _ _ )); exact rfl)
    | ((with_reducible apply Keeps.step (State.wrs_keeps _ _ )); exact rfl)
    | ((with_reducible apply Keeps.step (State.modPower_keeps _ _ )); exact rfl)
    | with_reducible apply Keeps.foldl
    | with_reducible apply Keeps.foldl_fst
    | split
    | ((with_reducible apply Keeps.upd_boot); exact rfl)
    | (refine Keeps.of_parts ?_ rfl rfl rfl (fun h => h); intro p hp; cases p <;> first | rfl | exact absurd hp (by decide))

theorem segmentEnd_keeps (x0) (x1 : State) : Keeps [.regs, .clk, .logs, .out, .perf, .links, .cal, .power, .boot] x1 (segmentEnd x0 x1) := by
  unfold segmentEnd
  try dsimp only
  repeat' first
    | with_reducible exact Keeps.refl _ _
    | ((with_reducible apply Keeps.step (shutSegment_keeps _ _ )); exact rfl)
    | ((with_reducible apply Keeps.step (bootSegment_keeps _ _ )); exact rfl)
    | split

theorem execSegmentEnd_keeps (x0) (x1 : State) : ∃ t, execSegmentEnd x0 x1 = .next t ∧ Keeps [.regs, .clk, .logs, .out, .perf, .links, .cal, .power, .boot] x1 t := by
  unfold execSegmentEnd
  refine ⟨_, rfl, ?_⟩
  try dsimp only
  repeat' first
    | with_reducible exact Keeps.refl _ _
    | ((with_reducible apply Keeps.step (segmentEnd_keeps _ _ )); exact rfl)

theorem abandonShutdownTest_keeps (x0) (x1 : State) : Keeps [.regs, .clk, .host, .logs, .out, .perf, .messages, .signing, .links, .lanes, .sram, .seq, .dma, .net, .power] x1 (abandonShutdownTest x0 x1) := by
  unfold abandonShutdownTest
  try dsimp only
  repeat' first
    | ((with_reducible intro _ _); dsimp only)
    | ((with_reducible intro _); dsimp only)
    | (with_reducible intro _)
    | with_reducible exact Keeps.refl _ _
    | with_reducible assumption
    | ((with_reducible apply Keeps.step (endRequest_keeps _ _ )); exact rfl)
    | ((with_reducible apply Keeps.step (startPending_keeps _ )); exact rfl)
    | ((with_reducible apply Keeps.step (pwrEvent_keeps _ _ )); exact rfl)
    | ((with_reducible apply Keeps.step (State.wr_keeps _ _ _ )); exact rfl)
    | ((with_reducible apply Keeps.step (startRails_keeps _ _ _ )); exact rfl)
    | ((with_reducible apply Keeps.step (resumeWheel_keeps _ )); exact rfl)
    | ((with_reducible apply Keeps.step (State.wrs_keeps _ _ )); exact rfl)
    | ((with_reducible apply Keeps.step (State.modPower_keeps _ _ )); exact rfl)
    | with_reducible apply Keeps.foldl
    | with_reducible apply Keeps.foldl_fst
    | split

theorem readOtp_keeps (x0 : State) : Keeps [.regs, .logs, .out, .perf] x0 (readOtp x0) := by
  unfold readOtp
  try dsimp only
  repeat' first
    | with_reducible exact Keeps.refl _ _
    | ((with_reducible apply Keeps.step (State.setDigest_keeps _ _ _ )); exact rfl)
    | ((with_reducible apply Keeps.step (State.setWord_keeps _ _ _ )); exact rfl)
    | ((with_reducible apply Keeps.step (extendMeas_keeps _ _ _ )); exact rfl)
    | ((with_reducible apply Keeps.step (refreshTrust_keeps _ )); exact rfl)

theorem deriveIdentity_keeps (x0) (x1 : State) : Keeps [.regs, .logs, .out, .perf, .trust] x1 (deriveIdentity x0 x1) := by
  unfold deriveIdentity
  try dsimp only
  repeat' first
    | with_reducible exact Keeps.refl _ _
    | ((with_reducible apply Keeps.step (State.wr_keeps _ _ _ )); exact rfl)
    | ((with_reducible apply Keeps.step (State.modTrust_keeps _ _ )); exact rfl)
    | ((with_reducible apply Keeps.step (tstEvent_keeps _ _ )); exact rfl)
    | split

theorem tryImage_keeps (x0) (x1 : State) : Keeps [.regs] x1 (tryImage x0 x1).1 := by
  unfold tryImage
  try dsimp only
  repeat' first
    | ((with_reducible intro _ _); dsimp only)
    | ((with_reducible intro _); dsimp only)
    | (with_reducible intro _)
    | with_reducible exact Keeps.refl _ _
    | with_reducible assumption
    | ((with_reducible apply Keeps.step (State.wr_keeps _ _ _ )); exact rfl)
    | with_reducible apply Keeps.foldl
    | with_reducible apply Keeps.foldl_fst
    | split

theorem chooseImage_keeps (x0 : State) : Keeps [.regs] x0 (chooseImage x0).1 := by
  unfold chooseImage
  try dsimp only
  repeat' first
    | ((with_reducible intro _ _); dsimp only)
    | ((with_reducible intro _); dsimp only)
    | (with_reducible intro _)
    | with_reducible exact Keeps.refl _ _
    | with_reducible assumption
    | ((with_reducible apply Keeps.step (State.wr_keeps _ _ _ )); exact rfl)
    | ((with_reducible apply Keeps.step (tryImage_keeps _ _ )); exact rfl)
    | with_reducible apply Keeps.foldl
    | with_reducible apply Keeps.foldl_fst
    | split

theorem takeFirmware_keeps (x0) (x1) (x2) (x3 : State) : Keeps [.regs, .logs, .out, .perf, .chain, .signing, .sram, .seq, .dma, .trust, .fw] x3 (takeFirmware x0 x1 x2 x3) := by
  unfold takeFirmware
  dsimp only
  refine Keeps.step (audit_keeps _ _ _ _ _) rfl (Keeps.step (audit_keeps _ _ _ _ _) rfl ?_)
  refine Keeps.upd_chain rfl (Keeps.step (State.setPair_keeps _ _ _ _) rfl (Keeps.step (State.modTrust_keeps _ _) rfl ?_))
  refine Keeps.upd_dma rfl (State.withSram_keeps rfl (fun _ => storeWf_nil _) ?_)
  refine Keeps.step (State.wrs_keeps _ _) rfl (Keeps.step (State.modFw_keeps _ _) rfl (Keeps.step (writeModules_keeps _ _ _) rfl ?_))
  exact Keeps.upd_seq rfl (Keeps.step (extendMeas_keeps _ _ _) rfl ((extendMeas_keeps _ _ _).mono rfl))

theorem startWheel_keeps (x0) (x1 : State) : Keeps [.regs, .clk, .host, .logs, .out, .perf, .messages, .signing, .links, .pool, .classes, .lanes, .sram, .wheel, .seq, .dma, .net] x1 (startWheel x0 x1) := by
  unfold startWheel
  try dsimp only
  repeat' first
    | ((with_reducible intro _ _); dsimp only)
    | ((with_reducible intro _); dsimp only)
    | (with_reducible intro _)
    | with_reducible exact Keeps.refl _ _
    | with_reducible assumption
    | ((with_reducible apply Keeps.step (State.withClasses_keeps _ _ )); exact rfl)
    | ((with_reducible apply Keeps.step (State.modWheel_keeps _ _ )); exact rfl)
    | ((with_reducible apply Keeps.step (State.setPair_keeps _ _ _ _ )); exact rfl)
    | ((with_reducible apply Keeps.step (startTask_keeps _ _ )); exact rfl)
    | ((with_reducible apply Keeps.step (resumeWheel_keeps _ )); exact rfl)
    | ((with_reducible apply Keeps.step (switchBlocks_keeps _ _ )); exact rfl)
    | with_reducible apply Keeps.foldl
    | with_reducible apply Keeps.foldl_fst
    | ((with_reducible apply Keeps.upd_seq); exact rfl)
    | (refine Keeps.of_parts ?_ rfl rfl rfl (fun h => h); intro p hp; cases p <;> first | rfl | exact absurd hp (by decide))

theorem becomeReady_keeps (x0 : State) : Keeps [.regs, .logs, .out, .perf, .messages, .sram, .dma, .net, .boot] x0 (becomeReady x0) := by
  unfold becomeReady
  try dsimp only
  repeat' first
    | ((with_reducible intro _ _); dsimp only)
    | ((with_reducible intro _); dsimp only)
    | (with_reducible intro _)
    | with_reducible exact Keeps.refl _ _
    | with_reducible assumption
    | ((with_reducible apply Keeps.step (bistEvent_keeps _ _ )); exact rfl)
    | ((with_reducible apply Keeps.step (causeAlarm_keeps _ _ _ _ )); exact rfl)
    | ((with_reducible apply Keeps.step (sendBeacon_keeps _ _ _ )); exact rfl)
    | ((with_reducible apply Keeps.step (State.wrs_keeps _ _ )); exact rfl)
    | with_reducible apply Keeps.foldl
    | with_reducible apply Keeps.foldl_fst
    | split
    | ((with_reducible apply Keeps.upd_boot); exact rfl)
    | (refine Keeps.of_parts ?_ rfl rfl rfl (fun h => h); intro p hp; cases p <;> first | rfl | exact absurd hp (by decide))

theorem managementReady_keeps (x0) (x1 : State) : Keeps [.regs, .clk, .host, .logs, .out, .perf, .chain, .messages, .signing, .links, .pool, .classes, .lanes, .sram, .wheel, .seq, .dma, .net, .trust, .fw, .boot] x1 (managementReady x0 x1) := by
  unfold managementReady
  split
  · exact Keeps.refl _ _
  · split
    · exact (enterSafeHold_keeps _ _).mono rfl
    · extract_lets s1
      have h1 : Keeps [.regs, .clk, .host, .logs, .out, .perf, .chain, .messages, .signing, .links, .pool, .classes, .lanes, .sram, .wheel, .seq, .dma, .net, .trust, .fw, .boot] x1 s1 :=
        Keeps.step (deriveIdentity_keeps _ _) rfl ((readOtp_keeps _).mono rfl)
      clear_value s1
      have hc := chooseImage_keeps s1
      split
      · exact Keeps.step (enterSafeHold_keeps _ _) rfl h1
      · split
        · rename_i e
          rw [e] at hc
          exact Keeps.step (enterSafeHold_keeps _ _) rfl (Keeps.step hc rfl h1)
        · rename_i e
          rw [e] at hc
          extract_lets s2 s3
          have h2 : Keeps [.regs, .clk, .host, .logs, .out, .perf, .chain, .messages, .signing, .links, .pool, .classes, .lanes, .sram, .wheel, .seq, .dma, .net, .trust, .fw, .boot] x1 s2 :=
            Keeps.step (takeFirmware_keeps _ _ _ _) rfl (Keeps.step hc rfl h1)
          clear_value s2
          have h3 : Keeps [.regs, .clk, .host, .logs, .out, .perf, .chain, .messages, .signing, .links, .pool, .classes, .lanes, .sram, .wheel, .seq, .dma, .net, .trust, .fw, .boot] x1 s3 :=
            Keeps.step (State.wrs_keeps _ _) rfl h2
          clear_value s3
          exact Keeps.step (stateSnapshot_keeps _) rfl (Keeps.step (becomeReady_keeps _) rfl (Keeps.step (startWheel_keeps _ _) rfl h3))

theorem execManagementReady_keeps (x0) (x1 : State) : ∃ t, execManagementReady x0 x1 = .next t ∧ Keeps [.regs, .clk, .host, .logs, .out, .perf, .chain, .messages, .signing, .links, .pool, .classes, .lanes, .sram, .wheel, .seq, .dma, .net, .trust, .fw, .boot] x1 t := by
  unfold execManagementReady
  refine ⟨_, rfl, ?_⟩
  try dsimp only
  repeat' first
    | with_reducible exact Keeps.refl _ _
    | ((with_reducible apply Keeps.step (managementReady_keeps _ _ )); exact rfl)

/-! ### Perf -/

theorem counterWrap_keeps (x0) (x1 : State) : Keeps [.regs, .out, .perf] x1 (counterWrap x0 x1) := by
  unfold counterWrap
  try dsimp only
  repeat' first
    | ((with_reducible intro _ _); dsimp only)
    | ((with_reducible intro _); dsimp only)
    | (with_reducible intro _)
    | with_reducible exact Keeps.refl _ _
    | with_reducible assumption
    | ((with_reducible apply Keeps.step (bumpCounter_keeps _ _ )); exact rfl)
    | ((with_reducible apply Keeps.step (setPend_keeps _ _ )); exact rfl)
    | with_reducible apply Keeps.foldl
    | with_reducible apply Keeps.foldl_fst
    | split

theorem execPerfCounterWrap_keeps (x0) (x1 : State) : ∃ t, execPerfCounterWrap x0 x1 = .next t ∧ Keeps [.regs, .out, .perf] x1 t := by
  unfold execPerfCounterWrap
  refine ⟨_, rfl, ?_⟩
  try dsimp only
  repeat' first
    | with_reducible exact Keeps.refl _ _
    | ((with_reducible apply Keeps.step (counterWrap_keeps _ _ )); exact rfl)

theorem clearAll_keeps (x0) (x1 : State) : Keeps [.regs] x1 (clearAll x0 x1) := by
  unfold clearAll
  try dsimp only
  repeat' first
    | ((with_reducible intro _ _); dsimp only)
    | ((with_reducible intro _); dsimp only)
    | (with_reducible intro _)
    | with_reducible exact Keeps.refl _ _
    | with_reducible assumption
    | ((with_reducible apply Keeps.step (State.setPerfCnt_keeps _ _ _ )); exact rfl)
    | ((with_reducible apply Keeps.step (State.setWord_keeps _ _ _ )); exact rfl)
    | with_reducible apply Keeps.foldl
    | with_reducible apply Keeps.foldl_fst

theorem execClearAll_keeps (x0) (x1 : State) : ∃ t, execClearAll x0 x1 = .next t ∧ Keeps [.regs, .host, .logs, .out, .perf, .power] x1 t := by
  unfold execClearAll
  refine ⟨_, rfl, ?_⟩
  try dsimp only
  repeat' first
    | ((with_reducible intro _ _); dsimp only)
    | ((with_reducible intro _); dsimp only)
    | (with_reducible intro _)
    | with_reducible exact Keeps.refl _ _
    | with_reducible assumption
    | ((with_reducible apply Keeps.step (clearAll_keeps _ _ )); exact rfl)
    | ((with_reducible apply hostCommand_keeps); exact rfl)

theorem perfDump_keeps (x0) (x1 : State) : Keeps [.regs, .logs, .out, .perf, .dma] x1 (perfDump x0 x1) := by
  unfold perfDump
  try dsimp only
  repeat' first
    | ((with_reducible intro _ _); dsimp only)
    | ((with_reducible intro _); dsimp only)
    | (with_reducible intro _)
    | with_reducible exact Keeps.refl _ _
    | with_reducible assumption
    | ((with_reducible apply Keeps.step (State.addSat_keeps _ _ _ )); exact rfl)
    | ((with_reducible apply Keeps.step (pushDesc_keeps _ _ _ _ )); exact rfl)
    | ((with_reducible apply Keeps.step (perfEvent_keeps _ _ )); exact rfl)
    | with_reducible apply Keeps.foldl
    | with_reducible apply Keeps.foldl_fst
    | split
    | ((with_reducible apply Keeps.upd_perf); exact rfl)
    | (refine Keeps.of_parts ?_ rfl rfl rfl (fun h => h); intro p hp; cases p <;> first | rfl | exact absurd hp (by decide))

theorem putSample_keeps (x0) (x1 : State) : Keeps [.regs, .logs, .out, .perf] x1 (putSample x0 x1) := by
  unfold putSample
  try dsimp only
  repeat' first
    | ((with_reducible intro _ _); dsimp only)
    | ((with_reducible intro _); dsimp only)
    | (with_reducible intro _)
    | with_reducible exact Keeps.refl _ _
    | with_reducible assumption
    | ((with_reducible apply Keeps.step (State.addSat_keeps _ _ _ )); exact rfl)
    | ((with_reducible apply Keeps.step (State.setWord_keeps _ _ _ )); exact rfl)
    | ((with_reducible apply Keeps.step (State.addWrap_keeps _ _ _ )); exact rfl)
    | ((with_reducible apply Keeps.step (perfEvent_keeps _ _ )); exact rfl)
    | with_reducible apply Keeps.foldl
    | with_reducible apply Keeps.foldl_fst
    | split
    | ((with_reducible apply Keeps.upd_perf); exact rfl)
    | (refine Keeps.of_parts ?_ rfl rfl rfl (fun h => h); intro p hp; cases p <;> first | rfl | exact absurd hp (by decide))

theorem sampleInstr_keeps (x0) (x1 : State) : Keeps [.regs, .logs, .out, .perf] x1 (sampleInstr x0 x1) := by
  unfold sampleInstr
  try dsimp only
  repeat' first
    | ((with_reducible intro _ _); dsimp only)
    | ((with_reducible intro _); dsimp only)
    | (with_reducible intro _)
    | with_reducible exact Keeps.refl _ _
    | with_reducible assumption
    | ((with_reducible apply Keeps.step (putSample_keeps _ _ )); exact rfl)
    | with_reducible apply Keeps.foldl
    | with_reducible apply Keeps.foldl_fst
    | split
    | ((with_reducible apply Keeps.upd_perf); exact rfl)
    | (refine Keeps.of_parts ?_ rfl rfl rfl (fun h => h); intro p hp; cases p <;> first | rfl | exact absurd hp (by decide))

theorem sampleRead_keeps (x0) (x1 : State) : Keeps [.regs, .perf] x1 (sampleRead x0 x1) := by
  unfold sampleRead
  try dsimp only
  repeat' first
    | with_reducible exact Keeps.refl _ _
    | ((with_reducible apply Keeps.step (State.wr_keeps _ _ _ )); exact rfl)
    | ((with_reducible apply Keeps.upd_perf); exact rfl)
    | (refine Keeps.of_parts ?_ rfl rfl rfl (fun h => h); intro p hp; cases p <;> first | rfl | exact absurd hp (by decide))

/-! ### Monitor -/

theorem addPort_keeps (x0) (x1) (x2) (x3 : State) : Keeps [.regs] x3 (addPort x0 x1 x2 x3) := by
  unfold addPort
  try dsimp only
  repeat' first
    | with_reducible exact Keeps.refl _ _
    | ((with_reducible apply Keeps.step (State.addPair_keeps _ _ _ _ )); exact rfl)

theorem countErrors_keeps (x0) (x1) (x2 : State) : Keeps [.regs, .mons] x2 (countErrors x0 x1 x2) := by
  unfold countErrors
  try dsimp only
  repeat' first
    | with_reducible exact Keeps.refl _ _
    | ((with_reducible apply Keeps.step (State.modMon_keeps _ _ _ )); exact rfl)
    | ((with_reducible apply Keeps.step (addPort_keeps _ _ _ _ )); exact rfl)

theorem countDecoded_keeps (x0) (x1) (x2) (x3 : State) : Keeps [.regs, .mons] x3 (countDecoded x0 x1 x2 x3) := by
  unfold countDecoded
  try dsimp only
  repeat' first
    | with_reducible exact Keeps.refl _ _
    | ((with_reducible apply Keeps.step (State.modMon_keeps _ _ _ )); exact rfl)
    | ((with_reducible apply Keeps.step (addPort_keeps _ _ _ _ )); exact rfl)
    | split

theorem countFailed_keeps (x0) (x1) (x2 : State) : Keeps [.regs, .mons] x2 (countFailed x0 x1 x2) := by
  unfold countFailed
  try dsimp only
  repeat' first
    | with_reducible exact Keeps.refl _ _
    | ((with_reducible apply Keeps.step (countErrors_keeps _ _ _ )); exact rfl)
    | ((with_reducible apply Keeps.step (State.modMon_keeps _ _ _ )); exact rfl)
    | ((with_reducible apply Keeps.step (addPort_keeps _ _ _ _ )); exact rfl)

theorem execLdpcFrameDecode_keeps (x0) (x1) (x2) (x3) (x4 : State) : ∃ t, execLdpcFrameDecode x0 x1 x2 x3 x4 = .next t ∧ Keeps [.regs, .out, .mons] x4 t := by
  unfold execLdpcFrameDecode
  refine ⟨_, rfl, ?_⟩
  try dsimp only
  repeat' first
    | ((with_reducible intro _ _); dsimp only)
    | ((with_reducible intro _); dsimp only)
    | (with_reducible intro _)
    | with_reducible exact Keeps.refl _ _
    | with_reducible assumption
    | ((with_reducible apply Keeps.step (countDecoded_keeps _ _ _ _ )); exact rfl)
    | ((with_reducible apply Keeps.step (deliver_keeps _ _ _ _ )); exact rfl)
    | ((with_reducible apply Keeps.step (countFailed_keeps _ _ _ )); exact rfl)
    | with_reducible apply Keeps.foldl
    | with_reducible apply Keeps.foldl_fst
    | split

theorem rewriteQual_keeps (x0) (x1) (x2 : State) : Keeps [.regs] x2 (rewriteQual x0 x1 x2) := by
  unfold rewriteQual
  try dsimp only
  repeat' first
    | ((with_reducible intro _ _); dsimp only)
    | ((with_reducible intro _); dsimp only)
    | (with_reducible intro _)
    | with_reducible exact Keeps.refl _ _
    | with_reducible assumption
    | ((with_reducible apply Keeps.step (writeQual_keeps _ _ _ )); exact rfl)
    | with_reducible apply Keeps.foldl
    | with_reducible apply Keeps.foldl_fst
    | split

theorem judgeMargin_keeps (x0) (x1 : State) : Keeps [.regs, .logs, .out, .perf, .mons] x1 (judgeMargin x0 x1) := by
  unfold judgeMargin
  try dsimp only
  repeat' first
    | ((with_reducible intro _ _); dsimp only)
    | ((with_reducible intro _); dsimp only)
    | (with_reducible intro _)
    | with_reducible exact Keeps.refl _ _
    | with_reducible assumption
    | ((with_reducible apply Keeps.step (State.addSat_keeps _ _ _ )); exact rfl)
    | ((with_reducible apply Keeps.step (State.wr_keeps _ _ _ )); exact rfl)
    | ((with_reducible apply Keeps.step (causeAlarm_keeps _ _ _ _ )); exact rfl)
    | ((with_reducible apply Keeps.step (marginEvent_keeps _ _ _ )); exact rfl)
    | ((with_reducible apply Keeps.step (State.setMon_keeps _ _ _ )); exact rfl)
    | with_reducible apply Keeps.foldl
    | with_reducible apply Keeps.foldl_fst
    | split

theorem restartRuns_keeps (x0) (x1 : State) : Keeps [.mons] x1 (restartRuns x0 x1) := by
  unfold restartRuns
  try dsimp only
  repeat' first
    | with_reducible exact Keeps.refl _ _
    | ((with_reducible apply Keeps.step (State.modMon_keeps _ _ _ )); exact rfl)

theorem judgeBurst_keeps (x0) (x1 : State) : Keeps [.regs, .logs, .out, .perf, .mons] x1 (judgeBurst x0 x1) := by
  unfold judgeBurst
  try dsimp only
  repeat' first
    | ((with_reducible intro _ _); dsimp only)
    | ((with_reducible intro _); dsimp only)
    | (with_reducible intro _)
    | with_reducible exact Keeps.refl _ _
    | with_reducible assumption
    | ((with_reducible apply Keeps.step (State.modMon_keeps _ _ _ )); exact rfl)
    | ((with_reducible apply Keeps.step (causeAlarm_keeps _ _ _ _ )); exact rfl)
    | with_reducible apply Keeps.foldl
    | with_reducible apply Keeps.foldl_fst
    | split

theorem takeReference_keeps (x0) (x1 : State) : Keeps [.regs, .mons] x1 (takeReference x0 x1) := by
  unfold takeReference
  try dsimp only
  repeat' first
    | with_reducible exact Keeps.refl _ _
    | ((with_reducible apply Keeps.step (State.modMon_keeps _ _ _ )); exact rfl)
    | ((with_reducible apply Keeps.step (State.wr_keeps _ _ _ )); exact rfl)

theorem rewriteEcho_keeps (x0) (x1) (x2 : State) : Keeps [.regs, .logs, .out, .perf, .mons] x2 (rewriteEcho x0 x1 x2) := by
  unfold rewriteEcho
  extract_lets seen inData s1 s2 rise s3 delta
  have h1 : Keeps [.regs, .logs, .out, .perf, .mons] x2 s1 := (State.modMon_keeps _ _ _).mono rfl
  clear_value s1
  have h2 : Keeps [.regs, .logs, .out, .perf, .mons] x2 s2 := by
    subst s2
    split
    · exact Keeps.step (takeReference_keeps _ _) rfl h1
    · exact h1
  clear_value s2
  have h3 : Keeps [.regs, .logs, .out, .perf, .mons] x2 s3 :=
    Keeps.foldl (fun _ _ => (State.setWord_keeps _ _ _).mono rfl) h2
  clear_value s3
  split
  · exact Keeps.step (causeAlarm_keeps _ _ _ _) rfl (Keeps.step (State.wr_keeps _ _ _) rfl h3)
  · exact h3

theorem rewriteMisc_keeps (x0) (x1) (x2 : State) : Keeps [.regs, .logs, .out, .perf] x2 (rewriteMisc x0 x1 x2) := by
  unfold rewriteMisc
  try dsimp only
  repeat' first
    | ((with_reducible intro _ _); dsimp only)
    | ((with_reducible intro _); dsimp only)
    | (with_reducible intro _)
    | with_reducible exact Keeps.refl _ _
    | with_reducible assumption
    | ((with_reducible apply Keeps.step (State.setWord_keeps _ _ _ )); exact rfl)
    | ((with_reducible apply Keeps.step (State.wr_keeps _ _ _ )); exact rfl)
    | ((with_reducible apply Keeps.step (causeAlarm_keeps _ _ _ _ )); exact rfl)
    | with_reducible apply Keeps.foldl
    | with_reducible apply Keeps.foldl_fst
    | split

theorem rewriteNoise_keeps (x0) (x1) (x2 : State) : Keeps [.regs] x2 (rewriteNoise x0 x1 x2) := by
  unfold rewriteNoise
  try dsimp only
  repeat' first
    | ((with_reducible intro _ _); dsimp only)
    | ((with_reducible intro _); dsimp only)
    | (with_reducible intro _)
    | with_reducible exact Keeps.refl _ _
    | with_reducible assumption
    | ((with_reducible apply Keeps.step (State.setWord_keeps _ _ _ )); exact rfl)
    | with_reducible apply Keeps.foldl
    | with_reducible apply Keeps.foldl_fst
    | split

theorem rewriteGain_keeps (x0) (x1) (x2 : State) : Keeps [.regs] x2 (rewriteGain x0 x1 x2) := by
  unfold rewriteGain
  try dsimp only
  repeat' first
    | ((with_reducible intro _ _); dsimp only)
    | ((with_reducible intro _); dsimp only)
    | (with_reducible intro _)
    | with_reducible exact Keeps.refl _ _
    | with_reducible assumption
    | ((with_reducible apply Keeps.step (State.wr_keeps _ _ _ )); exact rfl)
    | with_reducible apply Keeps.foldl
    | with_reducible apply Keeps.foldl_fst
    | split

theorem exportPort_keeps (x0) (x1 : State) : Keeps [.regs, .logs, .out, .perf, .mons] x1 (exportPort x0 x1) := by
  unfold exportPort
  try dsimp only
  repeat' first
    | ((with_reducible intro _ _); dsimp only)
    | ((with_reducible intro _); dsimp only)
    | (with_reducible intro _)
    | with_reducible exact Keeps.refl _ _
    | with_reducible assumption
    | ((with_reducible apply Keeps.step (trace_keeps _ _ _ _ )); exact rfl)
    | ((with_reducible apply Keeps.step (State.setMon_keeps _ _ _ )); exact rfl)
    | with_reducible apply Keeps.foldl
    | with_reducible apply Keeps.foldl_fst
    | split

theorem lmsStep_keeps (x0) (x1 : State) (x2) : Keeps [.freeCount, .coefs] x1 (lmsStep x0 x1 x2) := by
  unfold lmsStep
  try dsimp only
  repeat' first
    | ((with_reducible intro _ _); dsimp only)
    | ((with_reducible intro _); dsimp only)
    | (with_reducible intro _)
    | with_reducible exact Keeps.refl _ _
    | with_reducible assumption
    | ((with_reducible apply Keeps.step (State.setCoef_keeps _ _ _ )); exact rfl)
    | ((with_reducible apply Keeps.step (fit18_keeps _ _ )); exact rfl)
    | with_reducible apply Keeps.foldl
    | with_reducible apply Keeps.foldl_fst
    | split

theorem adapt_keeps (x0) (x1) (x2 : State) : Keeps [.freeCount, .coefs] x2 (adapt x0 x1 x2) := by
  unfold adapt
  try dsimp only
  repeat' first
    | ((with_reducible intro _ _); dsimp only)
    | ((with_reducible intro _); dsimp only)
    | (with_reducible intro _)
    | with_reducible exact Keeps.refl _ _
    | with_reducible assumption
    | ((with_reducible apply Keeps.step (lmsStep_keeps _ _ _ )); exact rfl)
    | with_reducible apply Keeps.foldl
    | with_reducible apply Keeps.foldl_fst
    | split

theorem rebase_keeps (x0) (x1 : State) : Keeps [.regs, .logs, .out, .perf, .chain, .signing, .mons] x1 (rebase x0 x1) := by
  unfold rebase
  try dsimp only
  repeat' first
    | with_reducible exact Keeps.refl _ _
    | ((with_reducible apply Keeps.step (takeReference_keeps _ _ )); exact rfl)
    | ((with_reducible apply Keeps.step (auditOperational_keeps _ _ _ )); exact rfl)

theorem execRebase_keeps (x0) (x1 : State) : ∃ t, execRebase x0 x1 = .next t ∧ Keeps [.regs, .host, .logs, .out, .perf, .chain, .signing, .mons, .power] x1 t := by
  unfold execRebase
  refine ⟨_, rfl, ?_⟩
  try dsimp only
  repeat' first
    | ((with_reducible intro _ _); dsimp only)
    | ((with_reducible intro _); dsimp only)
    | (with_reducible intro _)
    | with_reducible exact Keeps.refl _ _
    | with_reducible assumption
    | ((with_reducible apply Keeps.step (rebase_keeps _ _ )); exact rfl)
    | ((with_reducible apply hostCommand_keeps); exact rfl)

theorem monitorPort_keeps (x0) (x1) (x2 : State) : Keeps [.regs, .logs, .out, .freeCount, .perf, .coefs, .mons] x2 (monitorPort x0 x1 x2) := by
  unfold monitorPort
  try dsimp only
  repeat' first
    | ((with_reducible intro _ _); dsimp only)
    | ((with_reducible intro _); dsimp only)
    | (with_reducible intro _)
    | with_reducible exact Keeps.refl _ _
    | with_reducible assumption
    | ((with_reducible apply Keeps.step (countErrors_keeps _ _ _ )); exact rfl)
    | ((with_reducible apply Keeps.step (adapt_keeps _ _ _ )); exact rfl)
    | ((with_reducible apply Keeps.step (rewriteMisc_keeps _ _ _ )); exact rfl)
    | ((with_reducible apply Keeps.step (judgeMargin_keeps _ _ )); exact rfl)
    | ((with_reducible apply Keeps.step (rewriteEcho_keeps _ _ _ )); exact rfl)
    | ((with_reducible apply Keeps.step (exportPort_keeps _ _ )); exact rfl)
    | ((with_reducible apply Keeps.step (rewriteNoise_keeps _ _ _ )); exact rfl)
    | ((with_reducible apply Keeps.step (judgeBurst_keeps _ _ )); exact rfl)
    | ((with_reducible apply Keeps.step (rewriteGain_keeps _ _ _ )); exact rfl)
    | ((with_reducible apply Keeps.step (rewriteQual_keeps _ _ _ )); exact rfl)
    | with_reducible apply Keeps.foldl
    | with_reducible apply Keeps.foldl_fst
    | split

end Sys2Proof.Machine
end

