-- ==== Sys2Proof/Laws/KeepsAccess.lean ====
section
/-! SUPPORT. The parts each operation can change, and that it keeps a canonical state canonical: accesses of the host, the always-on tick. -/

set_option linter.unusedTactic false
set_option linter.unreachableTactic false

namespace Sys2Proof.Machine

/-! ### Bus -/

theorem putField_keeps (x0) (x1) (x2) (x3 : State) (x4) : Keeps [.regs, .host, .logs, .out, .perf] x3 (putField x0 x1 x2 x3 x4) := by
  unfold putField
  try dsimp only
  repeat' first
    | ((with_reducible intro _ _); dsimp only)
    | ((with_reducible intro _); dsimp only)
    | (with_reducible intro _)
    | with_reducible exact Keeps.refl _ _
    | with_reducible assumption
    | ((with_reducible apply Keeps.step (clampPush_keeps _ _ )); exact rfl)
    | ((with_reducible apply Keeps.step (State.setWord_keeps _ _ _ )); exact rfl)
    | with_reducible apply Keeps.foldl
    | with_reducible apply Keeps.foldl_fst
    | split

theorem clampReserved_keeps (x0) (x1) (x2 : State) (x3) : Keeps [.regs, .host, .logs, .out, .perf] x2 (clampReserved x0 x1 x2 x3) := by
  unfold clampReserved
  try dsimp only
  repeat' first
    | with_reducible exact Keeps.refl _ _
    | ((with_reducible apply Keeps.step (clampPush_keeps _ _ )); exact rfl)
    | split

theorem putFields_keeps (x0) (x1) (x2) (x3) (x4 : State) : Keeps [.regs, .host, .logs, .out, .perf] x4 (putFields x0 x1 x2 x3 x4) := by
  unfold putFields
  try dsimp only
  repeat' first
    | ((with_reducible intro _ _); dsimp only)
    | ((with_reducible intro _); dsimp only)
    | (with_reducible intro _)
    | with_reducible exact Keeps.refl _ _
    | with_reducible assumption
    | ((with_reducible apply Keeps.step (clampReserved_keeps _ _ _ _ )); exact rfl)
    | ((with_reducible apply Keeps.step (putField_keeps _ _ _ _ _ )); exact rfl)
    | with_reducible apply Keeps.foldl
    | with_reducible apply Keeps.foldl_fst

theorem railEnabled_keeps (x0) (x1) (x2 : State) : Keeps [.regs, .host, .logs, .out, .perf] x2 (railEnabled x0 x1 x2) := by
  unfold railEnabled
  try dsimp only
  repeat' first
    | with_reducible exact Keeps.refl _ _
    | ((with_reducible apply Keeps.step (clampPush_keeps _ _ )); exact rfl)
    | ((with_reducible apply Keeps.step (State.wr_keeps _ _ _ )); exact rfl)
    | split

theorem afterWrite_keeps (x0) (x1) (x2) (x3) (x4 : State) : Keeps [.regs, .host, .logs, .out, .perf, .lanes, .sram, .seq, .dma, .fw, .power] x4 (afterWrite x0 x1 x2 x3 x4) := by
  unfold afterWrite
  try dsimp only
  repeat' first
    | ((with_reducible intro _ _); dsimp only)
    | ((with_reducible intro _); dsimp only)
    | (with_reducible intro _)
    | with_reducible exact Keeps.refl _ _
    | with_reducible assumption
    | ((with_reducible apply Keeps.step (trimSelect_keeps _ _ )); exact rfl)
    | ((with_reducible apply Keeps.step (ctxSelWrite_keeps _ _ )); exact rfl)
    | ((with_reducible apply Keeps.step (snapHold_keeps _ _ )); exact rfl)
    | ((with_reducible apply Keeps.step (laneChecks_keeps _ _ )); exact rfl)
    | ((with_reducible apply Keeps.step (enableRing_keeps _ _ )); exact rfl)
    | ((with_reducible apply Keeps.step (expRdWrite_keeps _ _ _ )); exact rfl)
    | ((with_reducible apply Keeps.step (recSelWrite_keeps _ _ )); exact rfl)
    | ((with_reducible apply Keeps.step (refreshLanes_keeps _ )); exact rfl)
    | ((with_reducible apply Keeps.step (ringProdWrite_keeps _ _ _ )); exact rfl)
    | ((with_reducible apply Keeps.step (ctxSelect_keeps _ _ )); exact rfl)
    | ((with_reducible apply Keeps.step (sampleRead_keeps _ _ )); exact rfl)
    | ((with_reducible apply Keeps.step (railEnabled_keeps _ _ _ )); exact rfl)
    | ((with_reducible apply Keeps.step (disableRing_keeps _ _ )); exact rfl)
    | ((with_reducible apply Keeps.step (alarmAck_keeps _ _ )); exact rfl)
    | ((with_reducible apply Keeps.step (taskSelect_keeps _ _ )); exact rfl)
    | ((with_reducible apply Keeps.step (State.modPower_keeps _ _ )); exact rfl)
    | with_reducible apply Keeps.foldl
    | with_reducible apply Keeps.foldl_fst
    | split

theorem wcCommand_keeps (x0) (x1) (x2) (x3) (x4 : State) : Keeps [.regs, .clk, .host, .pcie, .logs, .out, .perf, .chain, .messages, .signing, .links, .coefs, .trips, .pins, .pool, .reach, .lpi, .classes, .mons, .cal, .lanes, .sides, .sram, .wheel, .seq, .dma, .net, .trust, .fw, .power, .boot] x4 (wcCommand x0 x1 x2 x3 x4) := by
  unfold wcCommand
  try dsimp only
  repeat' first
    | ((with_reducible intro _ _); dsimp only)
    | ((with_reducible intro _); dsimp only)
    | (with_reducible intro _)
    | with_reducible exact Keeps.refl _ _
    | with_reducible assumption
    | ((with_reducible apply Keeps.step (restartCmd_keeps _ _ )); exact rfl)
    | ((with_reducible apply Keeps.step (fwWrite_keeps _ )); exact rfl)
    | ((with_reducible apply Keeps.step (enrol_keeps _ _ )); exact rfl)
    | ((with_reducible apply Keeps.step (revertCmd_keeps _ )); exact rfl)
    | ((with_reducible apply Keeps.step (checkpoint_keeps _ )); exact rfl)
    | ((with_reducible apply Keeps.step (ringAbort_keeps _ _ )); exact rfl)
    | ((with_reducible apply Keeps.step (startInvalidate_keeps _ _ )); exact rfl)
    | ((with_reducible apply Keeps.step (slip_keeps _ _ )); exact rfl)
    | ((with_reducible apply Keeps.step (fwVerify_keeps _ )); exact rfl)
    | ((with_reducible apply Keeps.step (submit_keeps _ )); exact rfl)
    | ((with_reducible apply Keeps.step (fwActivate_keeps _ )); exact rfl)
    | ((with_reducible apply Keeps.step (commitBank_keeps _ _ _ )); exact rfl)
    | ((with_reducible apply Keeps.step (ringResume_keeps _ _ )); exact rfl)
    | ((with_reducible apply wcWrite_keeps); exact rfl)
    | ((with_reducible apply Keeps.step (safeSubmit_keeps _ )); exact rfl)
    | ((with_reducible apply Keeps.step (fwCancel_keeps _ )); exact rfl)
    | ((with_reducible apply Keeps.step (releaseOuts_keeps _ _ )); exact rfl)
    | ((with_reducible apply Keeps.step (longNext_keeps _ )); exact rfl)
    | ((with_reducible apply Keeps.step (cancelLoad_keeps _ )); exact rfl)
    | ((with_reducible apply Keeps.step (loadWrite_keeps _ _ )); exact rfl)
    | ((with_reducible apply Keeps.step (rebase_keeps _ _ )); exact rfl)
    | ((with_reducible apply Keeps.step (anRestart_keeps _ _ )); exact rfl)
    | ((with_reducible apply Keeps.step (scanStop_keeps _ )); exact rfl)
    | ((with_reducible apply Keeps.step (forceCmd_keeps _ )); exact rfl)
    | ((with_reducible apply Keeps.step (clearAll_keeps _ _ )); exact rfl)
    | ((with_reducible apply Keeps.step (swapCmd_keeps _ )); exact rfl)
    | ((with_reducible apply Keeps.step (resetDevice_keeps _ _ )); exact rfl)
    | ((with_reducible apply Keeps.step (scanStart_keeps _ )); exact rfl)
    | ((with_reducible apply Keeps.step (cableTestCmd_keeps _ _ )); exact rfl)
    | ((with_reducible apply Keeps.step (fastRetrainCmd_keeps _ _ )); exact rfl)
    | split
    | ((with_reducible apply Keeps.upd_host); exact rfl)
    | (refine Keeps.of_parts ?_ rfl rfl rfl (fun h => h); intro p hp; cases p <;> first | rfl | exact absurd hp (by decide))

theorem takeWrite_keeps (x0) (x1) (x2) (x3) (x4) (x5) (x6 : State) : Keeps [.regs, .clk, .host, .pcie, .logs, .out, .perf, .chain, .messages, .signing, .links, .coefs, .trips, .pins, .pool, .reach, .lpi, .classes, .mons, .cal, .lanes, .sides, .sram, .wheel, .seq, .dma, .net, .trust, .fw, .power, .boot] x6 (takeWrite x0 x1 x2 x3 x4 x5 x6) := by
  unfold takeWrite
  try dsimp only
  repeat' first
    | ((with_reducible intro _ _); dsimp only)
    | ((with_reducible intro _); dsimp only)
    | (with_reducible intro _)
    | with_reducible exact Keeps.refl _ _
    | with_reducible assumption
    | ((with_reducible apply Keeps.step (wcCommand_keeps _ _ _ _ _ )); exact rfl)
    | ((with_reducible apply Keeps.step (putFields_keeps _ _ _ _ _ )); exact rfl)
    | ((with_reducible apply Keeps.step (afterWrite_keeps _ _ _ _ _ )); exact rfl)
    | with_reducible apply Keeps.foldl
    | with_reducible apply Keeps.foldl_fst
    | split

theorem judgeWrite_keeps (x0) (x1) (x2) (x3) (x4) (x5) (x6) (x7 : State) : Keeps [.regs, .clk, .host, .pcie, .logs, .out, .perf, .chain, .messages, .signing, .links, .coefs, .trips, .pins, .pool, .reach, .lpi, .classes, .mons, .cal, .lanes, .sides, .sram, .wheel, .seq, .dma, .net, .trust, .fw, .power, .boot] x7 (judgeWrite x0 x1 x2 x3 x4 x5 x6 x7) := by
  unfold judgeWrite
  try dsimp only
  repeat' first
    | ((with_reducible intro _ _); dsimp only)
    | ((with_reducible intro _); dsimp only)
    | (with_reducible intro _)
    | with_reducible exact Keeps.refl _ _
    | with_reducible assumption
    | ((with_reducible apply Keeps.step (refuseSealed_keeps _ _ _ )); exact rfl)
    | ((with_reducible apply Keeps.step (takeWrite_keeps _ _ _ _ _ _ _ )); exact rfl)
    | ((with_reducible apply Keeps.step (ignored_keeps _ _ _ )); exact rfl)
    | with_reducible apply Keeps.foldl
    | with_reducible apply Keeps.foldl_fst
    | split

theorem queuePwr_keeps (x0) (x1) (x2) (x3 : State) : Keeps [.regs, .power] x3 (queuePwr x0 x1 x2 x3) := by
  unfold queuePwr
  try dsimp only
  repeat' first
    | with_reducible exact Keeps.refl _ _
    | ((with_reducible apply Keeps.step (State.wr_keeps _ _ _ )); exact rfl)
    | ((with_reducible apply Keeps.step (State.modPower_keeps _ _ )); exact rfl)

theorem writeReg_keeps (x0) (x1) (x2) (x3) (x4 : State) : Keeps [.regs, .clk, .host, .pcie, .logs, .out, .perf, .chain, .messages, .signing, .links, .coefs, .trips, .pins, .pool, .reach, .lpi, .classes, .mons, .cal, .lanes, .sides, .sram, .wheel, .seq, .dma, .net, .trust, .fw, .power, .boot] x4 (writeReg x0 x1 x2 x3 x4) := by
  unfold writeReg
  try dsimp only
  repeat' first
    | with_reducible exact Keeps.refl _ _
    | ((with_reducible apply Keeps.step (busError_keeps _ _ _ )); exact rfl)
    | ((with_reducible apply Keeps.step (judgeWrite_keeps _ _ _ _ _ _ _ _ )); exact rfl)
    | ((with_reducible apply Keeps.step (queuePwr_keeps _ _ _ _ )); exact rfl)
    | ((with_reducible apply Keeps.step (ignored_keeps _ _ _ )); exact rfl)
    | split

theorem settlePwr_keeps (x0) (x1 : State) (x2) : Keeps [.regs, .clk, .host, .pcie, .logs, .out, .perf, .chain, .messages, .signing, .links, .coefs, .trips, .pins, .pool, .reach, .lpi, .classes, .mons, .cal, .lanes, .sides, .sram, .wheel, .seq, .dma, .net, .trust, .fw, .power, .boot] x1 (settlePwr x0 x1 x2) := by
  unfold settlePwr
  try dsimp only
  repeat' first
    | with_reducible exact Keeps.refl _ _
    | ((with_reducible apply Keeps.step (judgeWrite_keeps _ _ _ _ _ _ _ _ )); exact rfl)
    | ((with_reducible apply Keeps.step (State.modPower_keeps _ _ )); exact rfl)
    | split

theorem loadLatch_keeps (x0) (x1) (x2) (x3 : State) : Keeps [.host] x3 (loadLatch x0 x1 x2 x3) := by
  unfold loadLatch
  try dsimp only
  repeat' first
    | with_reducible exact Keeps.refl _ _
    | ((with_reducible apply Keeps.upd_host); exact rfl)
    | (refine Keeps.of_parts ?_ rfl rfl rfl (fun h => h); intro p hp; cases p <;> first | rfl | exact absurd hp (by decide))

theorem clearRead_keeps (x0) (x1) (x2 : State) : Keeps [.regs, .host] x2 (clearRead x0 x1 x2) := by
  unfold clearRead
  try dsimp only
  repeat' first
    | with_reducible exact Keeps.refl _ _
    | ((with_reducible apply Keeps.step (State.clearBits_keeps _ _ _ )); exact rfl)
    | split
    | ((with_reducible apply Keeps.upd_host); exact rfl)
    | (refine Keeps.of_parts ?_ rfl rfl rfl (fun h => h); intro p hp; cases p <;> first | rfl | exact absurd hp (by decide))

theorem beforeRead_keeps (x0) (x1 : State) : Keeps [.regs, .lpi] x1 (beforeRead x0 x1) := by
  unfold beforeRead
  try dsimp only
  repeat' first
    | with_reducible exact Keeps.refl _ _
    | ((with_reducible apply Keeps.step (countLpi_keeps _ _ )); exact rfl)
    | split

theorem readReg_keeps (x0) (x1) (x2) (x3) (x4) (x5 : State) : Keeps [.regs, .host, .lpi] x5 (readReg x0 x1 x2 x3 x4 x5).2 := by
  unfold readReg
  try dsimp only
  repeat' first
    | ((with_reducible intro _ _); dsimp only)
    | ((with_reducible intro _); dsimp only)
    | (with_reducible intro _)
    | with_reducible exact Keeps.refl _ _
    | with_reducible assumption
    | ((with_reducible apply Keeps.step (clearRead_keeps _ _ _ )); exact rfl)
    | ((with_reducible apply Keeps.step (beforeRead_keeps _ _ )); exact rfl)
    | ((with_reducible apply Keeps.step (loadLatch_keeps _ _ _ _ )); exact rfl)
    | with_reducible apply Keeps.foldl
    | with_reducible apply Keeps.foldl_fst
    | split

/-! ### AonTick -/

theorem tickTime_keeps (x0 : State) : Keeps [.clk] x0 (tickTime x0) := by
  unfold tickTime
  try dsimp only
  repeat' first
    | with_reducible exact Keeps.refl _ _
    | ((with_reducible apply State.withClk_keeps); exact rfl; first | exact fun h => h | exact fun _ => ⟨Nat.zero_le _, Nat.zero_le _⟩)
    | split

theorem tickFrac_keeps (x0 : State) : Keeps [.power] x0 (tickFrac x0) := by
  unfold tickFrac
  try dsimp only
  repeat' first
    | with_reducible exact Keeps.refl _ _
    | ((with_reducible apply Keeps.step (State.modPower_keeps _ _ )); exact rfl)

theorem takeAsked_keeps (x0 : State) : Keeps [.regs, .logs, .out, .perf, .chain, .messages, .signing, .sram, .dma, .net, .power] x0 (takeAsked x0) := by
  unfold takeAsked
  try dsimp only
  repeat' first
    | ((with_reducible intro _ _); dsimp only)
    | ((with_reducible intro _); dsimp only)
    | (with_reducible intro _)
    | with_reducible exact Keeps.refl _ _
    | with_reducible assumption
    | ((with_reducible apply Keeps.step (takeRequest_keeps _ _ _ )); exact rfl)
    | ((with_reducible apply Keeps.step (State.modPower_keeps _ _ )); exact rfl)
    | with_reducible apply Keeps.foldl
    | with_reducible apply Keeps.foldl_fst
    | split

theorem settleWrites_keeps (x0) (x1 : State) : Keeps [.regs, .clk, .host, .pcie, .logs, .out, .perf, .chain, .messages, .signing, .links, .coefs, .trips, .pins, .pool, .reach, .lpi, .classes, .mons, .cal, .lanes, .sides, .sram, .wheel, .seq, .dma, .net, .trust, .fw, .power, .boot] x1 (settleWrites x0 x1) := by
  unfold settleWrites
  try dsimp only
  repeat' first
    | ((with_reducible intro _ _); dsimp only)
    | ((with_reducible intro _); dsimp only)
    | (with_reducible intro _)
    | with_reducible exact Keeps.refl _ _
    | with_reducible assumption
    | ((with_reducible apply Keeps.step (settlePwr_keeps _ _ _ )); exact rfl)
    | ((with_reducible apply Keeps.step (setRtc_keeps _ _ _ )); exact rfl)
    | ((with_reducible apply Keeps.step (State.wr_keeps _ _ _ )); exact rfl)
    | ((with_reducible apply Keeps.step (State.modPower_keeps _ _ )); exact rfl)
    | with_reducible apply Keeps.foldl
    | with_reducible apply Keeps.foldl_fst
    | split

theorem takeWake_keeps (x0 : State) : Keeps [.regs, .clk, .host, .pcie, .logs, .out, .perf, .chain, .messages, .signing, .links, .coefs, .trips, .pins, .pool, .reach, .lpi, .classes, .mons, .cal, .lanes, .sides, .sram, .wheel, .seq, .dma, .net, .trust, .fw, .power, .boot] x0 (takeWake x0) := by
  unfold takeWake
  try dsimp only
  repeat' first
    | ((with_reducible intro _ _); dsimp only)
    | ((with_reducible intro _); dsimp only)
    | (with_reducible intro _)
    | with_reducible exact Keeps.refl _ _
    | with_reducible assumption
    | ((with_reducible apply Keeps.step (abandonShutdownTest_keeps _ _ )); exact rfl)
    | ((with_reducible apply Keeps.step (resetDevice_keeps _ _ )); exact rfl)
    | ((with_reducible apply Keeps.step (startWake_keeps _ _ )); exact rfl)
    | with_reducible apply Keeps.foldl
    | with_reducible apply Keeps.foldl_fst
    | split

theorem beaconsOver_keeps (x0 : State) : Keeps [.regs, .clk, .host, .pcie, .logs, .out, .perf, .chain, .messages, .signing, .links, .coefs, .trips, .pins, .pool, .reach, .lpi, .classes, .mons, .cal, .lanes, .sides, .sram, .wheel, .seq, .dma, .net, .trust, .fw, .power, .boot] x0 (beaconsOver x0) := by
  unfold beaconsOver
  try dsimp only
  repeat' first
    | with_reducible exact Keeps.refl _ _
    | ((with_reducible apply Keeps.step (beaconsDone_keeps _ )); exact rfl)
    | split

theorem aonTick_keeps (x0) (x1 : State) : Keeps [.regs, .clk, .host, .pcie, .logs, .out, .perf, .chain, .messages, .signing, .links, .coefs, .trips, .pins, .pool, .reach, .lpi, .classes, .mons, .cal, .lanes, .sides, .sram, .wheel, .seq, .dma, .net, .trust, .fw, .power, .boot] x1 (aonTick x0 x1) := by
  unfold aonTick
  try dsimp only
  repeat' first
    | ((with_reducible intro _ _); dsimp only)
    | ((with_reducible intro _); dsimp only)
    | (with_reducible intro _)
    | with_reducible exact Keeps.refl _ _
    | with_reducible assumption
    | ((with_reducible apply Keeps.step (startPending_keeps _ )); exact rfl)
    | ((with_reducible apply Keeps.step (takeAsked_keeps _ )); exact rfl)
    | ((with_reducible apply Keeps.step (settleWrites_keeps _ _ )); exact rfl)
    | ((with_reducible apply Keeps.step (takeWake_keeps _ )); exact rfl)
    | ((with_reducible apply Keeps.step (beaconsOver_keeps _ )); exact rfl)
    | ((with_reducible apply Keeps.step (tickTime_keeps _ )); exact rfl)
    | ((with_reducible apply Keeps.step (tickFrac_keeps _ )); exact rfl)
    | with_reducible apply Keeps.foldl
    | with_reducible apply Keeps.foldl_fst
    | split

theorem execAonTick_keeps (x0) (x1 : State) : ∃ t, execAonTick x0 x1 = .next t ∧ Keeps [.regs, .clk, .host, .pcie, .logs, .out, .perf, .chain, .messages, .signing, .links, .coefs, .trips, .pins, .pool, .reach, .lpi, .classes, .mons, .cal, .lanes, .sides, .sram, .wheel, .seq, .dma, .net, .trust, .fw, .power, .boot] x1 t := by
  unfold execAonTick
  refine ⟨_, rfl, ?_⟩
  try dsimp only
  repeat' first
    | with_reducible exact Keeps.refl _ _
    | ((with_reducible apply Keeps.step (aonTick_keeps _ _ )); exact rfl)

theorem summarise_keeps (x0) (x1) (x2 : State) : Keeps [.regs, .logs, .out, .perf, .chain, .signing] x2 (summarise x0 x1 x2) := by
  unfold summarise
  try dsimp only
  repeat' first
    | with_reducible exact Keeps.refl _ _
    | ((with_reducible apply Keeps.step (auditN_keeps _ _ _ _ _ _ )); exact rfl)
    | split

theorem auditRefusals_keeps (x0 : State) : Keeps [.regs, .host, .logs, .out, .perf, .chain, .signing] x0 (auditRefusals x0) := by
  unfold auditRefusals
  try dsimp only
  repeat' first
    | with_reducible exact Keeps.refl _ _
    | ((with_reducible apply Keeps.step (summarise_keeps _ _ _ )); exact rfl)
    | ((with_reducible apply Keeps.upd_host); exact rfl)
    | (refine Keeps.of_parts ?_ rfl rfl rfl (fun h => h); intro p hp; cases p <;> first | rfl | exact absurd hp (by decide))

theorem rtcSecond_keeps (x0 : State) : Keeps [.regs, .host, .logs, .out, .perf, .chain, .signing, .power] x0 (rtcSecond x0) := by
  unfold rtcSecond
  try dsimp only
  repeat' first
    | ((with_reducible intro _ _); dsimp only)
    | ((with_reducible intro _); dsimp only)
    | (with_reducible intro _)
    | with_reducible exact Keeps.refl _ _
    | with_reducible assumption
    | ((with_reducible apply Keeps.step (State.modPower_keeps _ _ )); exact rfl)
    | ((with_reducible apply Keeps.step (auditRefusals_keeps _ )); exact rfl)
    | ((with_reducible apply Keeps.step (startWake_keeps _ _ )); exact rfl)
    | with_reducible apply Keeps.foldl
    | with_reducible apply Keeps.foldl_fst
    | split
    | ((with_reducible apply Keeps.upd_logs); exact rfl)
    | (refine Keeps.of_parts ?_ rfl rfl rfl (fun h => h); intro p hp; cases p <;> first | rfl | exact absurd hp (by decide))

theorem execRtcSecond_keeps (x0 : State) : ∃ t, execRtcSecond x0 = .next t ∧ Keeps [.regs, .host, .logs, .out, .perf, .chain, .signing, .power] x0 t := by
  unfold execRtcSecond
  refine ⟨_, rfl, ?_⟩
  try dsimp only
  repeat' first
    | with_reducible exact Keeps.refl _ _
    | ((with_reducible apply Keeps.step (rtcSecond_keeps _ )); exact rfl)

/-! ### HostPort -/

theorem windowWrite_keeps (x0) (x1) (x2) (x3 : State) : Keeps [.regs, .host, .logs, .out, .perf, .sram, .dma] x3 (windowWrite x0 x1 x2 x3) := by
  unfold windowWrite
  try dsimp only
  repeat' first
    | ((with_reducible intro _ _); dsimp only)
    | ((with_reducible intro _); dsimp only)
    | (with_reducible intro _)
    | with_reducible exact Keeps.refl _ _
    | with_reducible assumption
    | ((with_reducible apply Keeps.step (writeWord_keeps _ _ _ )); exact rfl)
    | ((with_reducible apply Keeps.step (writeNarrow_keeps _ _ _ _ )); exact rfl)
    | ((with_reducible apply Keeps.step (ignored_keeps _ _ _ )); exact rfl)
    | ((with_reducible apply Keeps.step (plainEvent_keeps _ _ _ )); exact rfl)
    | with_reducible apply Keeps.foldl
    | with_reducible apply Keeps.foldl_fst
    | split
    | ((with_reducible apply Keeps.upd_host); exact rfl)
    | (refine Keeps.of_parts ?_ rfl rfl rfl (fun h => h); intro p hp; cases p <;> first | rfl | exact absurd hp (by decide))

theorem aliasWrite_keeps (x0) (x1) (x2) (x3) (x4 : State) : Keeps [.regs, .clk, .host, .pcie, .logs, .out, .perf, .chain, .messages, .signing, .links, .coefs, .trips, .pins, .pool, .reach, .lpi, .classes, .mons, .cal, .lanes, .sides, .sram, .wheel, .seq, .dma, .net, .trust, .fw, .power, .boot] x4 (aliasWrite x0 x1 x2 x3 x4) := by
  unfold aliasWrite
  split
  · exact (busError_keeps _ _ _).mono rfl
  · split <;> first | exact (ignored_keeps _ _ _).mono rfl | exact (writeReg_keeps _ _ _ _ _).mono rfl

theorem writePart_keeps (x0) (x1) (x2) (x3) (x4) (x5 : State) : Keeps [.regs, .clk, .host, .pcie, .logs, .out, .perf, .chain, .messages, .signing, .links, .coefs, .trips, .pins, .pool, .reach, .lpi, .classes, .mons, .cal, .lanes, .sides, .sram, .wheel, .seq, .dma, .net, .trust, .fw, .power, .boot] x5 (writePart x0 x1 x2 x3 x4 x5) := by
  unfold writePart
  try dsimp only
  repeat' first
    | ((with_reducible intro _ _); dsimp only)
    | ((with_reducible intro _); dsimp only)
    | (with_reducible intro _)
    | with_reducible exact Keeps.refl _ _
    | with_reducible assumption
    | ((with_reducible apply Keeps.step (writeReg_keeps _ _ _ _ _ )); exact rfl)
    | ((with_reducible apply Keeps.step (aliasWrite_keeps _ _ _ _ _ )); exact rfl)
    | ((with_reducible apply Keeps.step (busError_keeps _ _ _ )); exact rfl)
    | ((with_reducible apply Keeps.step (accessInSleep_keeps _ _ _ _ )); exact rfl)
    | ((with_reducible apply Keeps.step (perfCount_keeps _ _ _ )); exact rfl)
    | ((with_reducible apply Keeps.step (windowWrite_keeps _ _ _ _ )); exact rfl)
    | with_reducible apply Keeps.foldl
    | with_reducible apply Keeps.foldl_fst
    | split

theorem writeParts_keeps (x0) (x1) (x2) (x3) (x4 : State) : Keeps [.regs, .clk, .host, .pcie, .logs, .out, .perf, .chain, .messages, .signing, .links, .coefs, .trips, .pins, .pool, .reach, .lpi, .classes, .mons, .cal, .lanes, .sides, .sram, .wheel, .seq, .dma, .net, .trust, .fw, .power, .boot] x4 (writeParts x0 x1 x2 x3 x4) := by
  induction x3 generalizing x2 x4 with
  | nil => exact Keeps.refl _ _
  | cons b t ih =>
    unfold writeParts
    exact ((writePart_keeps _ _ _ _ _ _).mono rfl).trans (ih _ _)

theorem execHostRegisterWrite_keeps (x0) (x1) (x2) (x3 : State) : ∃ t, execHostRegisterWrite x0 x1 x2 x3 = .next t ∧ Keeps [.regs, .clk, .host, .pcie, .logs, .out, .perf, .chain, .messages, .signing, .links, .coefs, .trips, .pins, .pool, .reach, .lpi, .classes, .mons, .cal, .lanes, .sides, .sram, .wheel, .seq, .dma, .net, .trust, .fw, .power, .boot] x3 t := by
  unfold execHostRegisterWrite
  refine ⟨_, rfl, ?_⟩
  try dsimp only
  repeat' first
    | with_reducible exact Keeps.refl _ _
    | ((with_reducible apply Keeps.step (writeParts_keeps _ _ _ _ _ )); exact rfl)

theorem execBitAliasWrite_keeps (x0) (x1) (x2) (x3 : State) : ∃ t, execBitAliasWrite x0 x1 x2 x3 = .next t ∧ Keeps [.regs, .clk, .host, .pcie, .logs, .out, .perf, .chain, .messages, .signing, .links, .coefs, .trips, .pins, .pool, .reach, .lpi, .classes, .mons, .cal, .lanes, .sides, .sram, .wheel, .seq, .dma, .net, .trust, .fw, .power, .boot] x3 t := by
  unfold execBitAliasWrite
  refine ⟨_, rfl, ?_⟩
  try dsimp only
  repeat' first
    | with_reducible exact Keeps.refl _ _
    | ((with_reducible apply Keeps.step (writePart_keeps _ _ _ _ _ _ )); exact rfl)
    | split

theorem hostWrite_keeps (x0) (x1) (x2 : State) : Keeps [.regs, .clk, .host, .pcie, .logs, .out, .perf, .chain, .messages, .signing, .links, .coefs, .trips, .pins, .pool, .reach, .lpi, .classes, .mons, .cal, .lanes, .sides, .sram, .wheel, .seq, .dma, .net, .trust, .fw, .power, .boot] x2 (hostWrite x0 x1 x2) := by
  unfold hostWrite
  try dsimp only
  repeat' first
    | with_reducible exact Keeps.refl _ _
    | ((with_reducible apply Keeps.step (writePart_keeps _ _ _ _ _ _ )); exact rfl)

theorem execBankCommit_keeps (x0) (x1 : State) : ∃ t, execBankCommit x0 x1 = .next t ∧ Keeps [.regs, .clk, .host, .pcie, .logs, .out, .perf, .chain, .messages, .signing, .links, .coefs, .trips, .pins, .pool, .reach, .lpi, .classes, .mons, .cal, .lanes, .sides, .sram, .wheel, .seq, .dma, .net, .trust, .fw, .power, .boot] x1 t := by
  unfold execBankCommit
  refine ⟨_, rfl, ?_⟩
  try dsimp only
  repeat' first
    | with_reducible exact Keeps.refl _ _
    | ((with_reducible apply Keeps.step (hostWrite_keeps _ _ _ )); exact rfl)

theorem execClampPop_keeps (x0 : State) : ∃ t, execClampPop x0 = .next t ∧ Keeps [.regs, .clk, .host, .pcie, .logs, .out, .perf, .chain, .messages, .signing, .links, .coefs, .trips, .pins, .pool, .reach, .lpi, .classes, .mons, .cal, .lanes, .sides, .sram, .wheel, .seq, .dma, .net, .trust, .fw, .power, .boot] x0 t := by
  unfold execClampPop
  refine ⟨_, rfl, ?_⟩
  try dsimp only
  repeat' first
    | with_reducible exact Keeps.refl _ _
    | ((with_reducible apply Keeps.step (hostWrite_keeps _ _ _ )); exact rfl)

theorem execCoefSelWrite_keeps (x0) (x1) (x2 : State) : ∃ t, execCoefSelWrite x0 x1 x2 = .next t ∧ Keeps [.regs, .clk, .host, .pcie, .logs, .out, .perf, .chain, .messages, .signing, .links, .coefs, .trips, .pins, .pool, .reach, .lpi, .classes, .mons, .cal, .lanes, .sides, .sram, .wheel, .seq, .dma, .net, .trust, .fw, .power, .boot] x2 t := by
  unfold execCoefSelWrite
  refine ⟨_, rfl, ?_⟩
  try dsimp only
  repeat' first
    | with_reducible exact Keeps.refl _ _
    | ((with_reducible apply Keeps.step (hostWrite_keeps _ _ _ )); exact rfl)

theorem execRtcSetWrite_keeps (x0) (x1 : State) : ∃ t, execRtcSetWrite x0 x1 = .next t ∧ Keeps [.regs, .clk, .host, .pcie, .logs, .out, .perf, .chain, .messages, .signing, .links, .coefs, .trips, .pins, .pool, .reach, .lpi, .classes, .mons, .cal, .lanes, .sides, .sram, .wheel, .seq, .dma, .net, .trust, .fw, .power, .boot] x1 t := by
  unfold execRtcSetWrite
  refine ⟨_, rfl, ?_⟩
  try dsimp only
  repeat' first
    | with_reducible exact Keeps.refl _ _
    | ((with_reducible apply Keeps.step (hostWrite_keeps _ _ _ )); exact rfl)

theorem aliasRead_keeps (x0) (x1) (x2 : State) : Keeps [.regs, .host] x2 (aliasRead x0 x1 x2).2 := by
  unfold aliasRead
  split
  · exact Keeps.refl _ _
  · dsimp only
    split
    · exact clearRead_keeps _ _ _
    · exact Keeps.refl _ _

theorem readPart_keeps (x0) (x1) (x2 : State) : Keeps [.regs, .host, .out, .freeCount, .perf, .lpi] x2 (readPart x0 x1 x2).2 := by
  unfold readPart
  try dsimp only
  repeat' first
    | with_reducible exact Keeps.refl _ _
    | ((with_reducible apply Keeps.step (State.draw_keeps _ )); exact rfl)
    | ((with_reducible apply Keeps.step (readReg_keeps _ _ _ _ _ _ )); exact rfl)
    | ((with_reducible apply Keeps.step (aliasRead_keeps _ _ _ )); exact rfl)
    | ((with_reducible apply Keeps.step (perfCount_keeps _ _ _ )); exact rfl)
    | split

theorem readParts_keeps (x0) (x1) (x2 : State) : Keeps [.regs, .host, .out, .freeCount, .perf, .lpi] x2 (readParts x0 x1 x2) := by
  induction x1 generalizing x0 x2 with
  | nil => exact Keeps.refl _ _
  | cons b t ih =>
    unfold readParts
    exact (Keeps.step (State.emit_keeps _ _) rfl ((readPart_keeps _ _ _).mono rfl)).trans (ih _ _)

theorem readWide_keeps (x0) (x1 : State) : Keeps [.regs, .host, .out, .perf, .lpi] x1 (readWide x0 x1) := by
  unfold readWide
  try dsimp only
  repeat' first
    | with_reducible exact Keeps.refl _ _
    | ((with_reducible apply Keeps.step (readReg_keeps _ _ _ _ _ _ )); exact rfl)
    | ((with_reducible apply Keeps.step (perfCount_keeps _ _ _ )); exact rfl)
    | ((with_reducible apply Keeps.step (State.emit_keeps _ _ )); exact rfl)

theorem hostRead_keeps (x0) (x1) (x2 : State) : Keeps [.regs, .host, .logs, .out, .freeCount, .perf, .lpi, .power] x2 (hostRead x0 x1 x2) := by
  unfold hostRead
  try dsimp only
  repeat' first
    | ((with_reducible intro _ _); dsimp only)
    | ((with_reducible intro _); dsimp only)
    | (with_reducible intro _)
    | with_reducible exact Keeps.refl _ _
    | with_reducible assumption
    | ((with_reducible apply Keeps.step (busError_keeps _ _ _ )); exact rfl)
    | ((with_reducible apply Keeps.step (accessInSleep_keeps _ _ _ _ )); exact rfl)
    | ((with_reducible apply Keeps.step (readParts_keeps _ _ _ )); exact rfl)
    | ((with_reducible apply Keeps.step (readWide_keeps _ _ )); exact rfl)
    | ((with_reducible apply Keeps.step (State.emit_keeps _ _ )); exact rfl)
    | with_reducible apply Keeps.foldl
    | with_reducible apply Keeps.foldl_fst
    | split

theorem execRcRead_keeps (x0) (x1) (x2 : State) : ∃ t, execRcRead x0 x1 x2 = .next t ∧ Keeps [.regs, .host, .logs, .out, .freeCount, .perf, .lpi, .power] x2 t := by
  unfold execRcRead
  refine ⟨_, rfl, ?_⟩
  try dsimp only
  repeat' first
    | with_reducible exact Keeps.refl _ _
    | ((with_reducible apply Keeps.step (hostRead_keeps _ _ _ )); exact rfl)

theorem execCounterLowRead_keeps (x0) (x1 : State) : ∃ t, execCounterLowRead x0 x1 = .next t ∧ Keeps [.regs, .host, .logs, .out, .freeCount, .perf, .lpi, .power] x1 t := by
  unfold execCounterLowRead
  refine ⟨_, rfl, ?_⟩
  try dsimp only
  repeat' first
    | with_reducible exact Keeps.refl _ _
    | ((with_reducible apply Keeps.step (hostRead_keeps _ _ _ )); exact rfl)

end Sys2Proof.Machine
end

