-- ==== Sys2Proof/Laws/KeepsCores.lean ====
section
/-! SUPPORT. The parts each operation can change, and that it keeps a canonical state canonical: instructions, jobs, manifests at their boundary, Reach mode. -/

set_option linter.unusedTactic false
set_option linter.unreachableTactic false

namespace Sys2Proof.Machine

/-! ### Sequencer -/

theorem trap_keeps (x0) (x1) (x2) (x3 : State) : Keeps [.regs, .logs, .out, .perf, .pool, .seq, .dma] x3 (trap x0 x1 x2 x3) := by
  unfold trap
  try dsimp only
  repeat' first
    | with_reducible exact Keeps.refl _ _
    | ((with_reducible apply Keeps.step (takeException_keeps _ _ _ _ _ )); exact rfl)
    | ((with_reducible apply Keeps.step (sampleInstr_keeps _ _ )); exact rfl)

theorem countIssue_keeps (x0) (x1) (x2 : State) : Keeps [.regs, .out, .perf] x2 (countIssue x0 x1 x2) := by
  unfold countIssue
  try dsimp only
  repeat' first
    | with_reducible exact Keeps.refl _ _
    | ((with_reducible apply Keeps.step (perfCount_keeps _ _ _ )); exact rfl)
    | split

theorem retire_keeps (x0) (x1) (x2) (x3 : State) : Keeps [.regs, .logs, .out, .perf, .seq] x3 (retire x0 x1 x2 x3) := by
  unfold retire
  try dsimp only
  repeat' first
    | with_reducible exact Keeps.refl _ _
    | ((with_reducible apply Keeps.step (refreshCore_keeps _ _ )); exact rfl)
    | ((with_reducible apply Keeps.step (sampleInstr_keeps _ _ )); exact rfl)
    | ((with_reducible apply Keeps.step (State.modCtx_keeps _ _ _ )); exact rfl)

theorem done_keeps (x0) (x1) (x2 : State) : Keeps [.regs, .logs, .out, .perf, .seq] x2 (done x0 x1 x2) := by
  unfold done
  try dsimp only
  repeat' first
    | with_reducible exact Keeps.refl _ _
    | ((with_reducible apply Keeps.step (retire_keeps _ _ _ _ )); exact rfl)

theorem skipped_keeps (x0) (x1 : State) : Keeps [.regs, .logs, .out, .perf, .seq] x1 (skipped x0 x1) := by
  unfold skipped
  try dsimp only
  repeat' first
    | with_reducible exact Keeps.refl _ _
    | ((with_reducible apply Keeps.step (refreshCore_keeps _ _ )); exact rfl)
    | ((with_reducible apply Keeps.step (countIssue_keeps _ _ _ )); exact rfl)
    | ((with_reducible apply Keeps.step (sampleInstr_keeps _ _ )); exact rfl)
    | ((with_reducible apply Keeps.step (State.modCtx_keeps _ _ _ )); exact rfl)

theorem issue_keeps {T : List Part} {x : Issue} {i : Nelno} {body : Turn → State → State} {s m : State}
    (h : [Part.regs, .logs, .out, .perf, .pool, .seq, .dma].all (T.contains ·) = true)
    (hf : ∀ t x, Keeps T x (body t x)) (k : Keeps T s m) : Keeps T s (issue x i body m) := by
  have h3 : [Part.regs, .out, .perf].all (T.contains ·) = true := by simp at h; simp [h]
  have h4 : [Part.regs, .logs, .out, .perf, .seq].all (T.contains ·) = true := by simp at h; simp [h]
  unfold issue
  split
  · exact k
  · split
    · exact k.trans ((trap_keeps _ _ _ _).mono h)
    · split
      · exact k.trans ((trap_keeps _ _ _ _).mono h)
      · split
        · exact k
        · split
          · exact (k.trans ((countIssue_keeps _ _ _).mono h3)).trans (hf _ _)
          · exact k.trans ((skipped_keeps _ _).mono h4)

theorem supervisor_keeps {T : List Part} {body : Turn → State → State} {t : Turn} {s m : State}
    (h : [Part.regs, .logs, .out, .perf, .pool, .seq, .dma].all (T.contains ·) = true)
    (hf : ∀ t x, Keeps T x (body t x)) (k : Keeps T s m) : Keeps T s (supervisor body t m) := by
  unfold supervisor
  split
  · exact k.trans ((trap_keeps _ _ _ _).mono h)
  · exact k.trans (hf _ _)

/-! ### Arithmetic -/

theorem runAlu_keeps (x0) (x1) (x2) (x3) (x4) (x5 : State) : Keeps [.regs, .logs, .out, .perf, .seq] x5 (runAlu x0 x1 x2 x3 x4 x5) := by
  unfold runAlu
  try dsimp only
  repeat' first
    | with_reducible exact Keeps.refl _ _
    | ((with_reducible apply Keeps.step (done_keeps _ _ _ )); exact rfl)

theorem runMul_keeps (x0) (x1) (x2) (x3) (x4) (x5 : State) : Keeps [.regs, .logs, .out, .perf, .seq] x5 (runMul x0 x1 x2 x3 x4 x5) := by
  unfold runMul
  try dsimp only
  repeat' first
    | with_reducible exact Keeps.refl _ _
    | ((with_reducible apply Keeps.step (done_keeps _ _ _ )); exact rfl)

theorem runImm_keeps (x0) (x1) (x2) (x3) (x4) (x5 : State) : Keeps [.regs, .logs, .out, .perf, .seq] x5 (runImm x0 x1 x2 x3 x4 x5) := by
  unfold runImm
  try dsimp only
  repeat' first
    | with_reducible exact Keeps.refl _ _
    | ((with_reducible apply Keeps.step (done_keeps _ _ _ )); exact rfl)

theorem runShift_keeps (x0) (x1) (x2) (x3) (x4) (x5 : State) : Keeps [.regs, .logs, .out, .perf, .seq] x5 (runShift x0 x1 x2 x3 x4 x5) := by
  unfold runShift
  try dsimp only
  repeat' first
    | with_reducible exact Keeps.refl _ _
    | ((with_reducible apply Keeps.step (done_keeps _ _ _ )); exact rfl)

theorem runPred_keeps (x0) (x1) (x2) (x3) (x4) (x5 : State) : Keeps [.regs, .logs, .out, .perf, .seq] x5 (runPred x0 x1 x2 x3 x4 x5) := by
  unfold runPred
  try dsimp only
  repeat' first
    | with_reducible exact Keeps.refl _ _
    | ((with_reducible apply Keeps.step (done_keeps _ _ _ )); exact rfl)

theorem execAdd_keeps (x0) (x1) (x2) (x3) (x4 : State) : ∃ t, execAdd x0 x1 x2 x3 x4 = .next t ∧ Keeps [.regs, .logs, .out, .perf, .pool, .seq, .dma] x4 t := by
  unfold execAdd
  refine ⟨_, rfl, ?_⟩
  try dsimp only
  repeat' first
    | ((with_reducible intro _ _); dsimp only)
    | ((with_reducible intro _); dsimp only)
    | (with_reducible intro _)
    | with_reducible exact Keeps.refl _ _
    | with_reducible assumption
    | ((with_reducible apply Keeps.step (runAlu_keeps _ _ _ _ _ _ )); exact rfl)
    | ((with_reducible apply issue_keeps); exact rfl)

theorem execSub_keeps (x0) (x1) (x2) (x3) (x4 : State) : ∃ t, execSub x0 x1 x2 x3 x4 = .next t ∧ Keeps [.regs, .logs, .out, .perf, .pool, .seq, .dma] x4 t := by
  unfold execSub
  refine ⟨_, rfl, ?_⟩
  try dsimp only
  repeat' first
    | ((with_reducible intro _ _); dsimp only)
    | ((with_reducible intro _); dsimp only)
    | (with_reducible intro _)
    | with_reducible exact Keeps.refl _ _
    | with_reducible assumption
    | ((with_reducible apply Keeps.step (runAlu_keeps _ _ _ _ _ _ )); exact rfl)
    | ((with_reducible apply issue_keeps); exact rfl)

theorem execAnd_keeps (x0) (x1) (x2) (x3) (x4 : State) : ∃ t, execAnd x0 x1 x2 x3 x4 = .next t ∧ Keeps [.regs, .logs, .out, .perf, .pool, .seq, .dma] x4 t := by
  unfold execAnd
  refine ⟨_, rfl, ?_⟩
  try dsimp only
  repeat' first
    | ((with_reducible intro _ _); dsimp only)
    | ((with_reducible intro _); dsimp only)
    | (with_reducible intro _)
    | with_reducible exact Keeps.refl _ _
    | with_reducible assumption
    | ((with_reducible apply Keeps.step (runAlu_keeps _ _ _ _ _ _ )); exact rfl)
    | ((with_reducible apply issue_keeps); exact rfl)

theorem execOr_keeps (x0) (x1) (x2) (x3) (x4 : State) : ∃ t, execOr x0 x1 x2 x3 x4 = .next t ∧ Keeps [.regs, .logs, .out, .perf, .pool, .seq, .dma] x4 t := by
  unfold execOr
  refine ⟨_, rfl, ?_⟩
  try dsimp only
  repeat' first
    | ((with_reducible intro _ _); dsimp only)
    | ((with_reducible intro _); dsimp only)
    | (with_reducible intro _)
    | with_reducible exact Keeps.refl _ _
    | with_reducible assumption
    | ((with_reducible apply Keeps.step (runAlu_keeps _ _ _ _ _ _ )); exact rfl)
    | ((with_reducible apply issue_keeps); exact rfl)

theorem execXor_keeps (x0) (x1) (x2) (x3) (x4 : State) : ∃ t, execXor x0 x1 x2 x3 x4 = .next t ∧ Keeps [.regs, .logs, .out, .perf, .pool, .seq, .dma] x4 t := by
  unfold execXor
  refine ⟨_, rfl, ?_⟩
  try dsimp only
  repeat' first
    | ((with_reducible intro _ _); dsimp only)
    | ((with_reducible intro _); dsimp only)
    | (with_reducible intro _)
    | with_reducible exact Keeps.refl _ _
    | with_reducible assumption
    | ((with_reducible apply Keeps.step (runAlu_keeps _ _ _ _ _ _ )); exact rfl)
    | ((with_reducible apply issue_keeps); exact rfl)

theorem execSll_keeps (x0) (x1) (x2) (x3) (x4 : State) : ∃ t, execSll x0 x1 x2 x3 x4 = .next t ∧ Keeps [.regs, .logs, .out, .perf, .pool, .seq, .dma] x4 t := by
  unfold execSll
  refine ⟨_, rfl, ?_⟩
  try dsimp only
  repeat' first
    | ((with_reducible intro _ _); dsimp only)
    | ((with_reducible intro _); dsimp only)
    | (with_reducible intro _)
    | with_reducible exact Keeps.refl _ _
    | with_reducible assumption
    | ((with_reducible apply Keeps.step (runAlu_keeps _ _ _ _ _ _ )); exact rfl)
    | ((with_reducible apply issue_keeps); exact rfl)

theorem execSrl_keeps (x0) (x1) (x2) (x3) (x4 : State) : ∃ t, execSrl x0 x1 x2 x3 x4 = .next t ∧ Keeps [.regs, .logs, .out, .perf, .pool, .seq, .dma] x4 t := by
  unfold execSrl
  refine ⟨_, rfl, ?_⟩
  try dsimp only
  repeat' first
    | ((with_reducible intro _ _); dsimp only)
    | ((with_reducible intro _); dsimp only)
    | (with_reducible intro _)
    | with_reducible exact Keeps.refl _ _
    | with_reducible assumption
    | ((with_reducible apply Keeps.step (runAlu_keeps _ _ _ _ _ _ )); exact rfl)
    | ((with_reducible apply issue_keeps); exact rfl)

theorem execSra_keeps (x0) (x1) (x2) (x3) (x4 : State) : ∃ t, execSra x0 x1 x2 x3 x4 = .next t ∧ Keeps [.regs, .logs, .out, .perf, .pool, .seq, .dma] x4 t := by
  unfold execSra
  refine ⟨_, rfl, ?_⟩
  try dsimp only
  repeat' first
    | ((with_reducible intro _ _); dsimp only)
    | ((with_reducible intro _); dsimp only)
    | (with_reducible intro _)
    | with_reducible exact Keeps.refl _ _
    | with_reducible assumption
    | ((with_reducible apply Keeps.step (runAlu_keeps _ _ _ _ _ _ )); exact rfl)
    | ((with_reducible apply issue_keeps); exact rfl)

theorem execSlt_keeps (x0) (x1) (x2) (x3) (x4 : State) : ∃ t, execSlt x0 x1 x2 x3 x4 = .next t ∧ Keeps [.regs, .logs, .out, .perf, .pool, .seq, .dma] x4 t := by
  unfold execSlt
  refine ⟨_, rfl, ?_⟩
  try dsimp only
  repeat' first
    | ((with_reducible intro _ _); dsimp only)
    | ((with_reducible intro _); dsimp only)
    | (with_reducible intro _)
    | with_reducible exact Keeps.refl _ _
    | with_reducible assumption
    | ((with_reducible apply Keeps.step (runAlu_keeps _ _ _ _ _ _ )); exact rfl)
    | ((with_reducible apply issue_keeps); exact rfl)

theorem execSltu_keeps (x0) (x1) (x2) (x3) (x4 : State) : ∃ t, execSltu x0 x1 x2 x3 x4 = .next t ∧ Keeps [.regs, .logs, .out, .perf, .pool, .seq, .dma] x4 t := by
  unfold execSltu
  refine ⟨_, rfl, ?_⟩
  try dsimp only
  repeat' first
    | ((with_reducible intro _ _); dsimp only)
    | ((with_reducible intro _); dsimp only)
    | (with_reducible intro _)
    | with_reducible exact Keeps.refl _ _
    | with_reducible assumption
    | ((with_reducible apply Keeps.step (runAlu_keeps _ _ _ _ _ _ )); exact rfl)
    | ((with_reducible apply issue_keeps); exact rfl)

theorem execMin_keeps (x0) (x1) (x2) (x3) (x4 : State) : ∃ t, execMin x0 x1 x2 x3 x4 = .next t ∧ Keeps [.regs, .logs, .out, .perf, .pool, .seq, .dma] x4 t := by
  unfold execMin
  refine ⟨_, rfl, ?_⟩
  try dsimp only
  repeat' first
    | ((with_reducible intro _ _); dsimp only)
    | ((with_reducible intro _); dsimp only)
    | (with_reducible intro _)
    | with_reducible exact Keeps.refl _ _
    | with_reducible assumption
    | ((with_reducible apply Keeps.step (runAlu_keeps _ _ _ _ _ _ )); exact rfl)
    | ((with_reducible apply issue_keeps); exact rfl)

theorem execMax_keeps (x0) (x1) (x2) (x3) (x4 : State) : ∃ t, execMax x0 x1 x2 x3 x4 = .next t ∧ Keeps [.regs, .logs, .out, .perf, .pool, .seq, .dma] x4 t := by
  unfold execMax
  refine ⟨_, rfl, ?_⟩
  try dsimp only
  repeat' first
    | ((with_reducible intro _ _); dsimp only)
    | ((with_reducible intro _); dsimp only)
    | (with_reducible intro _)
    | with_reducible exact Keeps.refl _ _
    | with_reducible assumption
    | ((with_reducible apply Keeps.step (runAlu_keeps _ _ _ _ _ _ )); exact rfl)
    | ((with_reducible apply issue_keeps); exact rfl)

theorem execMul_keeps (x0) (x1) (x2) (x3) (x4 : State) : ∃ t, execMul x0 x1 x2 x3 x4 = .next t ∧ Keeps [.regs, .logs, .out, .perf, .pool, .seq, .dma] x4 t := by
  unfold execMul
  refine ⟨_, rfl, ?_⟩
  try dsimp only
  repeat' first
    | ((with_reducible intro _ _); dsimp only)
    | ((with_reducible intro _); dsimp only)
    | (with_reducible intro _)
    | with_reducible exact Keeps.refl _ _
    | with_reducible assumption
    | ((with_reducible apply issue_keeps); exact rfl)
    | ((with_reducible apply Keeps.step (runMul_keeps _ _ _ _ _ _ )); exact rfl)

theorem execMulh_keeps (x0) (x1) (x2) (x3) (x4 : State) : ∃ t, execMulh x0 x1 x2 x3 x4 = .next t ∧ Keeps [.regs, .logs, .out, .perf, .pool, .seq, .dma] x4 t := by
  unfold execMulh
  refine ⟨_, rfl, ?_⟩
  try dsimp only
  repeat' first
    | ((with_reducible intro _ _); dsimp only)
    | ((with_reducible intro _); dsimp only)
    | (with_reducible intro _)
    | with_reducible exact Keeps.refl _ _
    | with_reducible assumption
    | ((with_reducible apply issue_keeps); exact rfl)
    | ((with_reducible apply Keeps.step (runMul_keeps _ _ _ _ _ _ )); exact rfl)

theorem execMulhu_keeps (x0) (x1) (x2) (x3) (x4 : State) : ∃ t, execMulhu x0 x1 x2 x3 x4 = .next t ∧ Keeps [.regs, .logs, .out, .perf, .pool, .seq, .dma] x4 t := by
  unfold execMulhu
  refine ⟨_, rfl, ?_⟩
  try dsimp only
  repeat' first
    | ((with_reducible intro _ _); dsimp only)
    | ((with_reducible intro _); dsimp only)
    | (with_reducible intro _)
    | with_reducible exact Keeps.refl _ _
    | with_reducible assumption
    | ((with_reducible apply issue_keeps); exact rfl)
    | ((with_reducible apply Keeps.step (runMul_keeps _ _ _ _ _ _ )); exact rfl)

theorem execDiv_keeps (x0) (x1) (x2) (x3) (x4 : State) : ∃ t, execDiv x0 x1 x2 x3 x4 = .next t ∧ Keeps [.regs, .logs, .out, .perf, .pool, .seq, .dma] x4 t := by
  unfold execDiv
  refine ⟨_, rfl, ?_⟩
  try dsimp only
  repeat' first
    | ((with_reducible intro _ _); dsimp only)
    | ((with_reducible intro _); dsimp only)
    | (with_reducible intro _)
    | with_reducible exact Keeps.refl _ _
    | with_reducible assumption
    | ((with_reducible apply issue_keeps); exact rfl)
    | ((with_reducible apply Keeps.step (runMul_keeps _ _ _ _ _ _ )); exact rfl)

theorem execDivu_keeps (x0) (x1) (x2) (x3) (x4 : State) : ∃ t, execDivu x0 x1 x2 x3 x4 = .next t ∧ Keeps [.regs, .logs, .out, .perf, .pool, .seq, .dma] x4 t := by
  unfold execDivu
  refine ⟨_, rfl, ?_⟩
  try dsimp only
  repeat' first
    | ((with_reducible intro _ _); dsimp only)
    | ((with_reducible intro _); dsimp only)
    | (with_reducible intro _)
    | with_reducible exact Keeps.refl _ _
    | with_reducible assumption
    | ((with_reducible apply issue_keeps); exact rfl)
    | ((with_reducible apply Keeps.step (runMul_keeps _ _ _ _ _ _ )); exact rfl)

theorem execRem_keeps (x0) (x1) (x2) (x3) (x4 : State) : ∃ t, execRem x0 x1 x2 x3 x4 = .next t ∧ Keeps [.regs, .logs, .out, .perf, .pool, .seq, .dma] x4 t := by
  unfold execRem
  refine ⟨_, rfl, ?_⟩
  try dsimp only
  repeat' first
    | ((with_reducible intro _ _); dsimp only)
    | ((with_reducible intro _); dsimp only)
    | (with_reducible intro _)
    | with_reducible exact Keeps.refl _ _
    | with_reducible assumption
    | ((with_reducible apply issue_keeps); exact rfl)
    | ((with_reducible apply Keeps.step (runMul_keeps _ _ _ _ _ _ )); exact rfl)

theorem execRemu_keeps (x0) (x1) (x2) (x3) (x4 : State) : ∃ t, execRemu x0 x1 x2 x3 x4 = .next t ∧ Keeps [.regs, .logs, .out, .perf, .pool, .seq, .dma] x4 t := by
  unfold execRemu
  refine ⟨_, rfl, ?_⟩
  try dsimp only
  repeat' first
    | ((with_reducible intro _ _); dsimp only)
    | ((with_reducible intro _); dsimp only)
    | (with_reducible intro _)
    | with_reducible exact Keeps.refl _ _
    | with_reducible assumption
    | ((with_reducible apply issue_keeps); exact rfl)
    | ((with_reducible apply Keeps.step (runMul_keeps _ _ _ _ _ _ )); exact rfl)

theorem execAddi_keeps (x0) (x1) (x2) (x3) (x4 : State) : ∃ t, execAddi x0 x1 x2 x3 x4 = .next t ∧ Keeps [.regs, .logs, .out, .perf, .pool, .seq, .dma] x4 t := by
  unfold execAddi
  refine ⟨_, rfl, ?_⟩
  try dsimp only
  repeat' first
    | ((with_reducible intro _ _); dsimp only)
    | ((with_reducible intro _); dsimp only)
    | (with_reducible intro _)
    | with_reducible exact Keeps.refl _ _
    | with_reducible assumption
    | ((with_reducible apply issue_keeps); exact rfl)
    | ((with_reducible apply Keeps.step (runImm_keeps _ _ _ _ _ _ )); exact rfl)

theorem execAndi_keeps (x0) (x1) (x2) (x3) (x4 : State) : ∃ t, execAndi x0 x1 x2 x3 x4 = .next t ∧ Keeps [.regs, .logs, .out, .perf, .pool, .seq, .dma] x4 t := by
  unfold execAndi
  refine ⟨_, rfl, ?_⟩
  try dsimp only
  repeat' first
    | ((with_reducible intro _ _); dsimp only)
    | ((with_reducible intro _); dsimp only)
    | (with_reducible intro _)
    | with_reducible exact Keeps.refl _ _
    | with_reducible assumption
    | ((with_reducible apply issue_keeps); exact rfl)
    | ((with_reducible apply Keeps.step (runImm_keeps _ _ _ _ _ _ )); exact rfl)

theorem execOri_keeps (x0) (x1) (x2) (x3) (x4 : State) : ∃ t, execOri x0 x1 x2 x3 x4 = .next t ∧ Keeps [.regs, .logs, .out, .perf, .pool, .seq, .dma] x4 t := by
  unfold execOri
  refine ⟨_, rfl, ?_⟩
  try dsimp only
  repeat' first
    | ((with_reducible intro _ _); dsimp only)
    | ((with_reducible intro _); dsimp only)
    | (with_reducible intro _)
    | with_reducible exact Keeps.refl _ _
    | with_reducible assumption
    | ((with_reducible apply issue_keeps); exact rfl)
    | ((with_reducible apply Keeps.step (runImm_keeps _ _ _ _ _ _ )); exact rfl)

theorem execXori_keeps (x0) (x1) (x2) (x3) (x4 : State) : ∃ t, execXori x0 x1 x2 x3 x4 = .next t ∧ Keeps [.regs, .logs, .out, .perf, .pool, .seq, .dma] x4 t := by
  unfold execXori
  refine ⟨_, rfl, ?_⟩
  try dsimp only
  repeat' first
    | ((with_reducible intro _ _); dsimp only)
    | ((with_reducible intro _); dsimp only)
    | (with_reducible intro _)
    | with_reducible exact Keeps.refl _ _
    | with_reducible assumption
    | ((with_reducible apply issue_keeps); exact rfl)
    | ((with_reducible apply Keeps.step (runImm_keeps _ _ _ _ _ _ )); exact rfl)

theorem execSlli_keeps (x0) (x1) (x2) (x3) (x4 : State) : ∃ t, execSlli x0 x1 x2 x3 x4 = .next t ∧ Keeps [.regs, .logs, .out, .perf, .pool, .seq, .dma] x4 t := by
  unfold execSlli
  refine ⟨_, rfl, ?_⟩
  try dsimp only
  repeat' first
    | ((with_reducible intro _ _); dsimp only)
    | ((with_reducible intro _); dsimp only)
    | (with_reducible intro _)
    | with_reducible exact Keeps.refl _ _
    | with_reducible assumption
    | ((with_reducible apply Keeps.step (runShift_keeps _ _ _ _ _ _ )); exact rfl)
    | ((with_reducible apply issue_keeps); exact rfl)

theorem execSrli_keeps (x0) (x1) (x2) (x3) (x4 : State) : ∃ t, execSrli x0 x1 x2 x3 x4 = .next t ∧ Keeps [.regs, .logs, .out, .perf, .pool, .seq, .dma] x4 t := by
  unfold execSrli
  refine ⟨_, rfl, ?_⟩
  try dsimp only
  repeat' first
    | ((with_reducible intro _ _); dsimp only)
    | ((with_reducible intro _); dsimp only)
    | (with_reducible intro _)
    | with_reducible exact Keeps.refl _ _
    | with_reducible assumption
    | ((with_reducible apply Keeps.step (runShift_keeps _ _ _ _ _ _ )); exact rfl)
    | ((with_reducible apply issue_keeps); exact rfl)

theorem execSrai_keeps (x0) (x1) (x2) (x3) (x4 : State) : ∃ t, execSrai x0 x1 x2 x3 x4 = .next t ∧ Keeps [.regs, .logs, .out, .perf, .pool, .seq, .dma] x4 t := by
  unfold execSrai
  refine ⟨_, rfl, ?_⟩
  try dsimp only
  repeat' first
    | ((with_reducible intro _ _); dsimp only)
    | ((with_reducible intro _); dsimp only)
    | (with_reducible intro _)
    | with_reducible exact Keeps.refl _ _
    | with_reducible assumption
    | ((with_reducible apply Keeps.step (runShift_keeps _ _ _ _ _ _ )); exact rfl)
    | ((with_reducible apply issue_keeps); exact rfl)

theorem execMovl_keeps (x0) (x1) (x2) (x3 : State) : ∃ t, execMovl x0 x1 x2 x3 = .next t ∧ Keeps [.regs, .logs, .out, .perf, .pool, .seq, .dma] x3 t := by
  unfold execMovl
  refine ⟨_, rfl, ?_⟩
  try dsimp only
  repeat' first
    | ((with_reducible intro _ _); dsimp only)
    | ((with_reducible intro _); dsimp only)
    | (with_reducible intro _)
    | with_reducible exact Keeps.refl _ _
    | with_reducible assumption
    | ((with_reducible apply Keeps.step (done_keeps _ _ _ )); exact rfl)
    | ((with_reducible apply issue_keeps); exact rfl)

theorem execMovh_keeps (x0) (x1) (x2) (x3 : State) : ∃ t, execMovh x0 x1 x2 x3 = .next t ∧ Keeps [.regs, .logs, .out, .perf, .pool, .seq, .dma] x3 t := by
  unfold execMovh
  refine ⟨_, rfl, ?_⟩
  try dsimp only
  repeat' first
    | ((with_reducible intro _ _); dsimp only)
    | ((with_reducible intro _); dsimp only)
    | (with_reducible intro _)
    | with_reducible exact Keeps.refl _ _
    | with_reducible assumption
    | ((with_reducible apply Keeps.step (done_keeps _ _ _ )); exact rfl)
    | ((with_reducible apply issue_keeps); exact rfl)

theorem execCmp_keeps (x0) (x1) (x2) (x3) (x4) (x5 : State) : ∃ t, execCmp x0 x1 x2 x3 x4 x5 = .next t ∧ Keeps [.regs, .logs, .out, .perf, .pool, .seq, .dma] x5 t := by
  unfold execCmp
  refine ⟨_, rfl, ?_⟩
  try dsimp only
  repeat' first
    | ((with_reducible intro _ _); dsimp only)
    | ((with_reducible intro _); dsimp only)
    | (with_reducible intro _)
    | with_reducible exact Keeps.refl _ _
    | with_reducible assumption
    | ((with_reducible apply Keeps.step (done_keeps _ _ _ )); exact rfl)
    | ((with_reducible apply issue_keeps); exact rfl)

theorem execCmpi_keeps (x0) (x1) (x2) (x3) (x4) (x5 : State) : ∃ t, execCmpi x0 x1 x2 x3 x4 x5 = .next t ∧ Keeps [.regs, .logs, .out, .perf, .pool, .seq, .dma] x5 t := by
  unfold execCmpi
  refine ⟨_, rfl, ?_⟩
  try dsimp only
  repeat' first
    | ((with_reducible intro _ _); dsimp only)
    | ((with_reducible intro _); dsimp only)
    | (with_reducible intro _)
    | with_reducible exact Keeps.refl _ _
    | with_reducible assumption
    | ((with_reducible apply Keeps.step (done_keeps _ _ _ )); exact rfl)
    | ((with_reducible apply issue_keeps); exact rfl)

theorem execPand_keeps (x0) (x1) (x2) (x3) (x4 : State) : ∃ t, execPand x0 x1 x2 x3 x4 = .next t ∧ Keeps [.regs, .logs, .out, .perf, .pool, .seq, .dma] x4 t := by
  unfold execPand
  refine ⟨_, rfl, ?_⟩
  try dsimp only
  repeat' first
    | ((with_reducible intro _ _); dsimp only)
    | ((with_reducible intro _); dsimp only)
    | (with_reducible intro _)
    | with_reducible exact Keeps.refl _ _
    | with_reducible assumption
    | ((with_reducible apply issue_keeps); exact rfl)
    | ((with_reducible apply Keeps.step (runPred_keeps _ _ _ _ _ _ )); exact rfl)

theorem execPor_keeps (x0) (x1) (x2) (x3) (x4 : State) : ∃ t, execPor x0 x1 x2 x3 x4 = .next t ∧ Keeps [.regs, .logs, .out, .perf, .pool, .seq, .dma] x4 t := by
  unfold execPor
  refine ⟨_, rfl, ?_⟩
  try dsimp only
  repeat' first
    | ((with_reducible intro _ _); dsimp only)
    | ((with_reducible intro _); dsimp only)
    | (with_reducible intro _)
    | with_reducible exact Keeps.refl _ _
    | with_reducible assumption
    | ((with_reducible apply issue_keeps); exact rfl)
    | ((with_reducible apply Keeps.step (runPred_keeps _ _ _ _ _ _ )); exact rfl)

theorem execPxor_keeps (x0) (x1) (x2) (x3) (x4 : State) : ∃ t, execPxor x0 x1 x2 x3 x4 = .next t ∧ Keeps [.regs, .logs, .out, .perf, .pool, .seq, .dma] x4 t := by
  unfold execPxor
  refine ⟨_, rfl, ?_⟩
  try dsimp only
  repeat' first
    | ((with_reducible intro _ _); dsimp only)
    | ((with_reducible intro _); dsimp only)
    | (with_reducible intro _)
    | with_reducible exact Keeps.refl _ _
    | with_reducible assumption
    | ((with_reducible apply issue_keeps); exact rfl)
    | ((with_reducible apply Keeps.step (runPred_keeps _ _ _ _ _ _ )); exact rfl)

theorem execPandn_keeps (x0) (x1) (x2) (x3) (x4 : State) : ∃ t, execPandn x0 x1 x2 x3 x4 = .next t ∧ Keeps [.regs, .logs, .out, .perf, .pool, .seq, .dma] x4 t := by
  unfold execPandn
  refine ⟨_, rfl, ?_⟩
  try dsimp only
  repeat' first
    | ((with_reducible intro _ _); dsimp only)
    | ((with_reducible intro _); dsimp only)
    | (with_reducible intro _)
    | with_reducible exact Keeps.refl _ _
    | with_reducible assumption
    | ((with_reducible apply issue_keeps); exact rfl)
    | ((with_reducible apply Keeps.step (runPred_keeps _ _ _ _ _ _ )); exact rfl)

/-! ### Commit -/

theorem opKeysChanged_keeps (x0) (x1) (x2 : State) : Keeps [.regs, .logs, .out, .perf, .chain, .signing] x2 (opKeysChanged x0 x1 x2) := by
  unfold opKeysChanged
  try dsimp only
  repeat' first
    | with_reducible exact Keeps.refl _ _
    | ((with_reducible apply Keeps.step (extendMeas_keeps _ _ _ )); exact rfl)
    | ((with_reducible apply Keeps.step (audit_keeps _ _ _ _ _ )); exact rfl)

theorem setOpKey_keeps (x0) (x1) (x2 : State) : Keeps [.trust] x2 (setOpKey x0 x1 x2) := by
  unfold setOpKey
  try dsimp only
  repeat' first
    | with_reducible exact Keeps.refl _ _
    | ((with_reducible apply Keeps.step (State.modTrust_keeps _ _ )); exact rfl)
    | split

theorem regEntry_keeps (x0) (x1) (x2 : State) : Keeps [.regs, .clk, .host, .pcie, .logs, .out, .perf, .chain, .messages, .signing, .links, .coefs, .trips, .pins, .pool, .reach, .lpi, .classes, .mons, .cal, .lanes, .sides, .sram, .wheel, .seq, .dma, .net, .trust, .fw, .power, .boot] x2 (regEntry x0 x1 x2) := by
  unfold regEntry
  try dsimp only
  repeat' first
    | with_reducible exact Keeps.refl _ _
    | ((with_reducible apply Keeps.step (writeReg_keeps _ _ _ _ _ )); exact rfl)

theorem routeEntry_keeps (x0) (x1) (x2) (x3) (x4 : State) : Keeps [.regs, .net] x4 (routeEntry x0 x1 x2 x3 x4) := by
  unfold routeEntry
  try dsimp only
  repeat' first
    | with_reducible exact Keeps.refl _ _
    | ((with_reducible apply Keeps.step (State.setPeer_keeps _ _ _ )); exact rfl)
    | split

theorem routeDelEntry_keeps (x0) (x1 : State) : Keeps [.regs, .net] x1 (routeDelEntry x0 x1) := by
  unfold routeDelEntry
  try dsimp only
  repeat' first
    | with_reducible exact Keeps.refl _ _
    | ((with_reducible apply Keeps.step (modPeer_keeps _ _ _ )); exact rfl)
    | split

theorem opKeyEntry_keeps (x0) (x1) (x2) (x3 : State) : Keeps [.regs, .logs, .out, .perf, .chain, .signing, .trust] x3 (opKeyEntry x0 x1 x2 x3) := by
  unfold opKeyEntry
  try dsimp only
  repeat' first
    | with_reducible exact Keeps.refl _ _
    | ((with_reducible apply Keeps.step (opKeysChanged_keeps _ _ _ )); exact rfl)
    | ((with_reducible apply Keeps.step (setOpKey_keeps _ _ _ )); exact rfl)

theorem opKeyDelEntry_keeps (x0) (x1 : State) : Keeps [.regs, .logs, .out, .perf, .chain, .signing, .trust] x1 (opKeyDelEntry x0 x1) := by
  unfold opKeyDelEntry
  try dsimp only
  repeat' first
    | with_reducible exact Keeps.refl _ _
    | ((with_reducible apply Keeps.step (opKeysChanged_keeps _ _ _ )); exact rfl)
    | ((with_reducible apply Keeps.step (setOpKey_keeps _ _ _ )); exact rfl)

theorem svnEntry_keeps (x0) (x1 : State) : Keeps [.regs, .logs, .out, .perf, .chain, .signing] x1 (svnEntry x0 x1) := by
  unfold svnEntry
  try dsimp only
  repeat' first
    | with_reducible exact Keeps.refl _ _
    | ((with_reducible apply Keeps.step (refreshTrust_keeps _ )); exact rfl)
    | ((with_reducible apply Keeps.step (measureStatus_keeps _ )); exact rfl)
    | ((with_reducible apply Keeps.step (tstEvent_keeps _ _ )); exact rfl)
    | ((with_reducible apply Keeps.step (audit_keeps _ _ _ _ _ )); exact rfl)

theorem sealEntry_keeps (x0 : State) : Keeps [.regs, .logs, .out, .perf, .chain, .signing] x0 (sealEntry x0) := by
  unfold sealEntry
  try dsimp only
  repeat' first
    | with_reducible exact Keeps.refl _ _
    | ((with_reducible apply Keeps.step (refreshTrust_keeps _ )); exact rfl)
    | ((with_reducible apply Keeps.step (measureStatus_keeps _ )); exact rfl)
    | ((with_reducible apply Keeps.step (tstEvent_keeps _ _ )); exact rfl)
    | ((with_reducible apply Keeps.step (audit_keeps _ _ _ _ _ )); exact rfl)

theorem applyEntry_keeps (x0 : State) (x1) : Keeps [.regs, .clk, .host, .pcie, .logs, .out, .perf, .chain, .messages, .signing, .links, .coefs, .trips, .pins, .pool, .reach, .lpi, .classes, .mons, .cal, .lanes, .sides, .sram, .wheel, .seq, .dma, .net, .trust, .fw, .power, .boot] x0 (applyEntry x0 x1) := by
  unfold applyEntry
  try dsimp only
  repeat' first
    | with_reducible exact Keeps.refl _ _
    | ((with_reducible apply Keeps.step (regEntry_keeps _ _ _ )); exact rfl)
    | ((with_reducible apply Keeps.step (ownerChanged_keeps _ _ _ )); exact rfl)
    | ((with_reducible apply Keeps.step (opKeyEntry_keeps _ _ _ _ )); exact rfl)
    | ((with_reducible apply Keeps.step (sealEntry_keeps _ )); exact rfl)
    | ((with_reducible apply Keeps.step (svnEntry_keeps _ _ )); exact rfl)
    | ((with_reducible apply Keeps.step (opKeyDelEntry_keeps _ _ )); exact rfl)
    | ((with_reducible apply Keeps.step (routeDelEntry_keeps _ _ )); exact rfl)
    | ((with_reducible apply Keeps.step (routeEntry_keeps _ _ _ _ _ )); exact rfl)
    | split

theorem commitEntries_keeps (x0) (x1 : State) : Keeps [.regs, .clk, .host, .pcie, .logs, .out, .perf, .chain, .messages, .signing, .links, .coefs, .trips, .pins, .pool, .reach, .lpi, .classes, .mons, .cal, .lanes, .sides, .sram, .wheel, .seq, .dma, .net, .trust, .fw, .power, .boot] x1 (commitEntries x0 x1) := by
  unfold commitEntries
  try dsimp only
  repeat' first
    | ((with_reducible intro _ _); dsimp only)
    | ((with_reducible intro _); dsimp only)
    | (with_reducible intro _)
    | with_reducible exact Keeps.refl _ _
    | with_reducible assumption
    | ((with_reducible apply Keeps.step (applyEntry_keeps _ _ )); exact rfl)
    | ((with_reducible apply Keeps.step (State.setPending_keeps _ _ _ )); exact rfl)
    | with_reducible apply Keeps.foldl
    | with_reducible apply Keeps.foldl_fst

theorem commitStaged_keeps (x0 : State) : Keeps [.regs, .clk, .host, .pcie, .logs, .out, .perf, .chain, .messages, .signing, .links, .coefs, .trips, .pins, .pool, .reach, .lpi, .classes, .mons, .cal, .lanes, .sides, .sram, .wheel, .seq, .dma, .net, .trust, .fw, .power, .boot] x0 (commitStaged x0) := by
  unfold commitStaged
  try dsimp only
  repeat' first
    | ((with_reducible intro _ _); dsimp only)
    | ((with_reducible intro _); dsimp only)
    | (with_reducible intro _)
    | with_reducible exact Keeps.refl _ _
    | with_reducible assumption
    | ((with_reducible apply Keeps.step (commitEntries_keeps _ _ )); exact rfl)
    | ((with_reducible apply Keeps.step (State.modTrust_keeps _ _ )); exact rfl)
    | with_reducible apply Keeps.foldl
    | with_reducible apply Keeps.foldl_fst

theorem oneEntry_keeps (x0) (x1) (x2 : State) : Keeps [.regs, .clk, .host, .pcie, .logs, .out, .perf, .chain, .messages, .signing, .links, .coefs, .trips, .pins, .pool, .reach, .lpi, .classes, .mons, .cal, .lanes, .sides, .sram, .wheel, .seq, .dma, .net, .trust, .fw, .power, .boot] x2 (oneEntry x0 x1 x2) := by
  unfold oneEntry
  try dsimp only
  repeat' first
    | ((with_reducible intro _ _); dsimp only)
    | ((with_reducible intro _); dsimp only)
    | (with_reducible intro _)
    | with_reducible exact Keeps.refl _ _
    | with_reducible assumption
    | ((with_reducible apply Keeps.step (commitEntries_keeps _ _ )); exact rfl)
    | ((with_reducible apply Keeps.step (burnEntry_keeps _ _ _ )); exact rfl)
    | with_reducible apply Keeps.foldl
    | with_reducible apply Keeps.foldl_fst
    | split

theorem execManifestReg_keeps (x0) (x1) (x2 : State) : ∃ t, execManifestReg x0 x1 x2 = .next t ∧ Keeps [.regs, .clk, .host, .pcie, .logs, .out, .perf, .chain, .messages, .signing, .links, .coefs, .trips, .pins, .pool, .reach, .lpi, .classes, .mons, .cal, .lanes, .sides, .sram, .wheel, .seq, .dma, .net, .trust, .fw, .power, .boot] x2 t := by
  unfold execManifestReg
  refine ⟨_, rfl, ?_⟩
  try dsimp only
  repeat' first
    | with_reducible exact Keeps.refl _ _
    | ((with_reducible apply Keeps.step (oneEntry_keeps _ _ _ )); exact rfl)

theorem execManifestRoute_keeps (x0) (x1) (x2) (x3) (x4 : State) : ∃ t, execManifestRoute x0 x1 x2 x3 x4 = .next t ∧ Keeps [.regs, .clk, .host, .pcie, .logs, .out, .perf, .chain, .messages, .signing, .links, .coefs, .trips, .pins, .pool, .reach, .lpi, .classes, .mons, .cal, .lanes, .sides, .sram, .wheel, .seq, .dma, .net, .trust, .fw, .power, .boot] x4 t := by
  unfold execManifestRoute
  refine ⟨_, rfl, ?_⟩
  try dsimp only
  repeat' first
    | with_reducible exact Keeps.refl _ _
    | ((with_reducible apply Keeps.step (oneEntry_keeps _ _ _ )); exact rfl)

theorem execManifestRouteDel_keeps (x0) (x1 : State) : ∃ t, execManifestRouteDel x0 x1 = .next t ∧ Keeps [.regs, .clk, .host, .pcie, .logs, .out, .perf, .chain, .messages, .signing, .links, .coefs, .trips, .pins, .pool, .reach, .lpi, .classes, .mons, .cal, .lanes, .sides, .sram, .wheel, .seq, .dma, .net, .trust, .fw, .power, .boot] x1 t := by
  unfold execManifestRouteDel
  refine ⟨_, rfl, ?_⟩
  try dsimp only
  repeat' first
    | with_reducible exact Keeps.refl _ _
    | ((with_reducible apply Keeps.step (oneEntry_keeps _ _ _ )); exact rfl)

theorem execOpKey_keeps (x0) (x1) (x2) (x3 : State) : ∃ t, execOpKey x0 x1 x2 x3 = .next t ∧ Keeps [.regs, .clk, .host, .pcie, .logs, .out, .perf, .chain, .messages, .signing, .links, .coefs, .trips, .pins, .pool, .reach, .lpi, .classes, .mons, .cal, .lanes, .sides, .sram, .wheel, .seq, .dma, .net, .trust, .fw, .power, .boot] x3 t := by
  unfold execOpKey
  refine ⟨_, rfl, ?_⟩
  try dsimp only
  repeat' first
    | with_reducible exact Keeps.refl _ _
    | ((with_reducible apply Keeps.step (oneEntry_keeps _ _ _ )); exact rfl)

theorem execOpKeyDel_keeps (x0) (x1 : State) : ∃ t, execOpKeyDel x0 x1 = .next t ∧ Keeps [.regs, .clk, .host, .pcie, .logs, .out, .perf, .chain, .messages, .signing, .links, .coefs, .trips, .pins, .pool, .reach, .lpi, .classes, .mons, .cal, .lanes, .sides, .sram, .wheel, .seq, .dma, .net, .trust, .fw, .power, .boot] x1 t := by
  unfold execOpKeyDel
  refine ⟨_, rfl, ?_⟩
  try dsimp only
  repeat' first
    | with_reducible exact Keeps.refl _ _
    | ((with_reducible apply Keeps.step (oneEntry_keeps _ _ _ )); exact rfl)

theorem execOwnerEnrol_keeps (x0) (x1) (x2 : State) : ∃ t, execOwnerEnrol x0 x1 x2 = .next t ∧ Keeps [.regs, .clk, .host, .pcie, .logs, .out, .perf, .chain, .messages, .signing, .links, .coefs, .trips, .pins, .pool, .reach, .lpi, .classes, .mons, .cal, .lanes, .sides, .sram, .wheel, .seq, .dma, .net, .trust, .fw, .power, .boot] x2 t := by
  unfold execOwnerEnrol
  refine ⟨_, rfl, ?_⟩
  try dsimp only
  repeat' first
    | with_reducible exact Keeps.refl _ _
    | ((with_reducible apply Keeps.step (oneEntry_keeps _ _ _ )); exact rfl)

theorem execOwnerRevoke_keeps (x0) (x1) (x2 : State) : ∃ t, execOwnerRevoke x0 x1 x2 = .next t ∧ Keeps [.regs, .clk, .host, .pcie, .logs, .out, .perf, .chain, .messages, .signing, .links, .coefs, .trips, .pins, .pool, .reach, .lpi, .classes, .mons, .cal, .lanes, .sides, .sram, .wheel, .seq, .dma, .net, .trust, .fw, .power, .boot] x2 t := by
  unfold execOwnerRevoke
  refine ⟨_, rfl, ?_⟩
  try dsimp only
  repeat' first
    | with_reducible exact Keeps.refl _ _
    | ((with_reducible apply Keeps.step (oneEntry_keeps _ _ _ )); exact rfl)

theorem execSvnCommit_keeps (x0) (x1 : State) : ∃ t, execSvnCommit x0 x1 = .next t ∧ Keeps [.regs, .clk, .host, .pcie, .logs, .out, .perf, .chain, .messages, .signing, .links, .coefs, .trips, .pins, .pool, .reach, .lpi, .classes, .mons, .cal, .lanes, .sides, .sram, .wheel, .seq, .dma, .net, .trust, .fw, .power, .boot] x1 t := by
  unfold execSvnCommit
  refine ⟨_, rfl, ?_⟩
  try dsimp only
  repeat' first
    | with_reducible exact Keeps.refl _ _
    | ((with_reducible apply Keeps.step (oneEntry_keeps _ _ _ )); exact rfl)

theorem execSeal_keeps (x0 : State) : ∃ t, execSeal x0 = .next t ∧ Keeps [.regs, .clk, .host, .pcie, .logs, .out, .perf, .chain, .messages, .signing, .links, .coefs, .trips, .pins, .pool, .reach, .lpi, .classes, .mons, .cal, .lanes, .sides, .sram, .wheel, .seq, .dma, .net, .trust, .fw, .power, .boot] x0 t := by
  unfold execSeal
  refine ⟨_, rfl, ?_⟩
  try dsimp only
  repeat' first
    | with_reducible exact Keeps.refl _ _
    | ((with_reducible apply Keeps.step (oneEntry_keeps _ _ _ )); exact rfl)

/-! ### JobIssue -/

theorem issued_keeps (x0) (x1) (x2) (x3 : State) : Keeps [.regs, .logs, .out, .perf, .seq] x3 (issued x0 x1 x2 x3) := by
  unfold issued
  try dsimp only
  repeat' first
    | with_reducible exact Keeps.refl _ _
    | ((with_reducible apply Keeps.step (done_keeps _ _ _ )); exact rfl)
    | ((with_reducible apply Keeps.step (perfCount_keeps _ _ _ )); exact rfl)

theorem issueRefused_keeps (x0) (x1) (x2 : State) : Keeps [.regs, .logs, .out, .perf, .seq] x2 (issueRefused x0 x1 x2) := by
  unfold issueRefused
  try dsimp only
  repeat' first
    | with_reducible exact Keeps.refl _ _
    | ((with_reducible apply Keeps.step (done_keeps _ _ _ )); exact rfl)
    | ((with_reducible apply Keeps.step (jobRefused_keeps _ )); exact rfl)
    | ((with_reducible apply Keeps.step (perfCount_keeps _ _ _ )); exact rfl)

theorem queueJob_keeps (x0) (x1) (x2) (x3) (x4 : State) : Keeps [.regs, .logs, .out, .perf, .seq] x4 (queueJob x0 x1 x2 x3 x4) := by
  unfold queueJob
  try dsimp only
  repeat' first
    | with_reducible exact Keeps.refl _ _
    | ((with_reducible apply Keeps.step (issued_keeps _ _ _ _ )); exact rfl)
    | ((with_reducible apply Keeps.step (issueRefused_keeps _ _ _ )); exact rfl)
    | ((with_reducible apply Keeps.step (placeJob_keeps _ _ _ _ _ )); exact rfl)
    | split

theorem runEjob_keeps (x0) (x1) (x2) (x3) (x4 : State) : Keeps [.regs, .logs, .out, .perf, .seq] x4 (runEjob x0 x1 x2 x3 x4) := by
  unfold runEjob
  try dsimp only
  repeat' first
    | with_reducible exact Keeps.refl _ _
    | ((with_reducible apply Keeps.step (queueJob_keeps _ _ _ _ _ )); exact rfl)

theorem runHash_keeps (x0) (x1) (x2) (x3) (x4 : State) : Keeps [.regs, .logs, .out, .perf, .seq] x4 (runHash x0 x1 x2 x3 x4) := by
  unfold runHash
  try dsimp only
  repeat' first
    | with_reducible exact Keeps.refl _ _
    | ((with_reducible apply Keeps.step (queueJob_keeps _ _ _ _ _ )); exact rfl)

theorem runSnap_keeps (x0) (x1) (x2) (x3) (x4 : State) : Keeps [.regs, .logs, .out, .perf, .seq] x4 (runSnap x0 x1 x2 x3 x4) := by
  unfold runSnap
  try dsimp only
  repeat' first
    | with_reducible exact Keeps.refl _ _
    | ((with_reducible apply Keeps.step (queueJob_keeps _ _ _ _ _ )); exact rfl)

theorem runLatt_keeps (x0) (x1) (x2) (x3) (x4 : State) : Keeps [.regs, .logs, .out, .perf, .pool, .seq, .dma] x4 (runLatt x0 x1 x2 x3 x4) := by
  unfold runLatt
  try dsimp only
  repeat' first
    | with_reducible exact Keeps.refl _ _
    | ((with_reducible apply Keeps.step (queueJob_keeps _ _ _ _ _ )); exact rfl)
    | ((with_reducible apply Keeps.step (trap_keeps _ _ _ _ )); exact rfl)
    | split

theorem lattRow_keeps (x0) (x1) (x2) (x3) (x4) (x5 : State) : Keeps [.regs, .logs, .out, .perf, .pool, .seq, .dma] x5 (lattRow x0 x1 x2 x3 x4 x5) := by
  unfold lattRow
  try dsimp only
  repeat' first
    | ((with_reducible intro _ _); dsimp only)
    | ((with_reducible intro _); dsimp only)
    | (with_reducible intro _)
    | with_reducible exact Keeps.refl _ _
    | with_reducible assumption
    | ((with_reducible apply Keeps.step (runLatt_keeps _ _ _ _ _ )); exact rfl)
    | ((with_reducible apply issue_keeps); exact rfl)
    | split

theorem dmaFault_keeps (x0) (x1) (x2) (x3) (x4) (x5) (x6 : State) : Keeps [.regs, .logs, .out, .perf, .sram, .seq, .dma] x6 (dmaFault x0 x1 x2 x3 x4 x5 x6) := by
  unfold dmaFault
  try dsimp only
  repeat' first
    | with_reducible exact Keeps.refl _ _
    | ((with_reducible apply Keeps.step (issued_keeps _ _ _ _ )); exact rfl)
    | ((with_reducible apply Keeps.step (writeWord_keeps _ _ _ )); exact rfl)
    | ((with_reducible apply Keeps.step (endJob_keeps _ _ _ )); exact rfl)
    | ((with_reducible apply Keeps.step (placeJob_keeps _ _ _ _ _ )); exact rfl)
    | split

theorem shareRefused_keeps (x0) (x1 : State) : Keeps [.regs, .logs, .out, .perf] x1 (shareRefused x0 x1) := by
  unfold shareRefused
  try dsimp only
  repeat' first
    | ((with_reducible intro _ _); dsimp only)
    | ((with_reducible intro _); dsimp only)
    | (with_reducible intro _)
    | with_reducible exact Keeps.refl _ _
    | with_reducible assumption
    | ((with_reducible apply Keeps.step (State.addSat_keeps _ _ _ )); exact rfl)
    | ((with_reducible apply Keeps.step (plainEvent_keeps _ _ _ )); exact rfl)
    | with_reducible apply Keeps.foldl
    | with_reducible apply Keeps.foldl_fst

theorem runDmaq_keeps (x0) (x1) (x2) (x3) (x4 : State) : Keeps [.regs, .logs, .out, .perf, .sram, .seq, .dma] x4 (runDmaq x0 x1 x2 x3 x4) := by
  unfold runDmaq
  try dsimp only
  repeat' first
    | ((with_reducible intro _ _); dsimp only)
    | ((with_reducible intro _); dsimp only)
    | (with_reducible intro _)
    | with_reducible exact Keeps.refl _ _
    | with_reducible assumption
    | ((with_reducible apply Keeps.step (issued_keeps _ _ _ _ )); exact rfl)
    | ((with_reducible apply Keeps.step (issueRefused_keeps _ _ _ )); exact rfl)
    | ((with_reducible apply Keeps.step (pushDesc_keeps _ _ _ _ )); exact rfl)
    | ((with_reducible apply Keeps.step (shareRefused_keeps _ _ )); exact rfl)
    | ((with_reducible apply Keeps.step (placeJob_keeps _ _ _ _ _ )); exact rfl)
    | ((with_reducible apply Keeps.step (dmaFault_keeps _ _ _ _ _ _ _ )); exact rfl)
    | with_reducible apply Keeps.foldl
    | with_reducible apply Keeps.foldl_fst
    | split

theorem runJpoll_keeps (x0) (x1) (x2) (x3 : State) : Keeps [.regs, .logs, .out, .perf, .pool, .seq, .dma] x3 (runJpoll x0 x1 x2 x3) := by
  unfold runJpoll
  try dsimp only
  repeat' first
    | ((with_reducible intro _ _); dsimp only)
    | ((with_reducible intro _); dsimp only)
    | (with_reducible intro _)
    | with_reducible exact Keeps.refl _ _
    | with_reducible assumption
    | ((with_reducible apply Keeps.step (done_keeps _ _ _ )); exact rfl)
    | ((with_reducible apply Keeps.step (State.setJob_keeps _ _ _ )); exact rfl)
    | ((with_reducible apply Keeps.step (trap_keeps _ _ _ _ )); exact rfl)
    | with_reducible apply Keeps.foldl
    | with_reducible apply Keeps.foldl_fst
    | split

theorem runJwait_keeps (x0) (x1) (x2) (x3 : State) : Keeps [.regs, .logs, .out, .perf, .pool, .seq, .dma] x3 (runJwait x0 x1 x2 x3) := by
  unfold runJwait
  try dsimp only
  repeat' first
    | ((with_reducible intro _ _); dsimp only)
    | ((with_reducible intro _); dsimp only)
    | (with_reducible intro _)
    | with_reducible exact Keeps.refl _ _
    | with_reducible assumption
    | ((with_reducible apply Keeps.step (done_keeps _ _ _ )); exact rfl)
    | ((with_reducible apply Keeps.step (refreshCore_keeps _ _ )); exact rfl)
    | ((with_reducible apply Keeps.step (State.setJob_keeps _ _ _ )); exact rfl)
    | ((with_reducible apply Keeps.step (State.modCtx_keeps _ _ _ )); exact rfl)
    | ((with_reducible apply Keeps.step (trap_keeps _ _ _ _ )); exact rfl)
    | with_reducible apply Keeps.foldl
    | with_reducible apply Keeps.foldl_fst
    | split

theorem captureList_keeps (x0) (x1 : State) : Keeps [.sram, .dma] x1 (captureList x0 x1).1 := by
  unfold captureList
  try dsimp only
  repeat' first
    | ((with_reducible intro _ _); dsimp only)
    | ((with_reducible intro _); dsimp only)
    | (with_reducible intro _)
    | with_reducible exact Keeps.refl _ _
    | with_reducible assumption
    | ((with_reducible apply Keeps.step (writeBytes_keeps _ _ _ )); exact rfl)
    | with_reducible apply Keeps.foldl
    | with_reducible apply Keeps.foldl_fst
    | split

theorem takeSnaps_keeps (x0 : State) : Keeps [.sram, .seq, .dma] x0 (takeSnaps x0) := by
  unfold takeSnaps
  try dsimp only
  repeat' first
    | ((with_reducible intro _ _); dsimp only)
    | ((with_reducible intro _); dsimp only)
    | (with_reducible intro _)
    | with_reducible exact Keeps.refl _ _
    | with_reducible assumption
    | ((with_reducible apply Keeps.step (endJob_keeps _ _ _ )); exact rfl)
    | ((with_reducible apply Keeps.step (captureList_keeps _ _ )); exact rfl)
    | with_reducible apply Keeps.foldl
    | with_reducible apply Keeps.foldl_fst
    | split

theorem execEjob_keeps (x0) (x1) (x2) (x3) (x4 : State) : ∃ t, execEjob x0 x1 x2 x3 x4 = .next t ∧ Keeps [.regs, .logs, .out, .perf, .pool, .seq, .dma] x4 t := by
  unfold execEjob
  refine ⟨_, rfl, ?_⟩
  try dsimp only
  repeat' first
    | ((with_reducible intro _ _); dsimp only)
    | ((with_reducible intro _); dsimp only)
    | (with_reducible intro _)
    | with_reducible exact Keeps.refl _ _
    | with_reducible assumption
    | ((with_reducible apply issue_keeps); exact rfl)
    | ((with_reducible apply Keeps.step (runEjob_keeps _ _ _ _ _ )); exact rfl)

theorem execDmaq_keeps (x0) (x1) (x2) (x3) (x4 : State) : ∃ t, execDmaq x0 x1 x2 x3 x4 = .next t ∧ Keeps [.regs, .logs, .out, .perf, .pool, .sram, .seq, .dma] x4 t := by
  unfold execDmaq
  refine ⟨_, rfl, ?_⟩
  try dsimp only
  repeat' first
    | ((with_reducible intro _ _); dsimp only)
    | ((with_reducible intro _); dsimp only)
    | (with_reducible intro _)
    | with_reducible exact Keeps.refl _ _
    | with_reducible assumption
    | ((with_reducible apply issue_keeps); exact rfl)
    | ((with_reducible apply supervisor_keeps); exact rfl)
    | ((with_reducible apply Keeps.step (runDmaq_keeps _ _ _ _ _ )); exact rfl)

theorem execHash_keeps (x0) (x1) (x2) (x3) (x4 : State) : ∃ t, execHash x0 x1 x2 x3 x4 = .next t ∧ Keeps [.regs, .logs, .out, .perf, .pool, .seq, .dma] x4 t := by
  unfold execHash
  refine ⟨_, rfl, ?_⟩
  try dsimp only
  repeat' first
    | ((with_reducible intro _ _); dsimp only)
    | ((with_reducible intro _); dsimp only)
    | (with_reducible intro _)
    | with_reducible exact Keeps.refl _ _
    | with_reducible assumption
    | ((with_reducible apply issue_keeps); exact rfl)
    | ((with_reducible apply Keeps.step (runHash_keeps _ _ _ _ _ )); exact rfl)

theorem execLattVerify_keeps (x0) (x1) (x2) (x3) (x4 : State) : ∃ t, execLattVerify x0 x1 x2 x3 x4 = .next t ∧ Keeps [.regs, .logs, .out, .perf, .pool, .seq, .dma] x4 t := by
  unfold execLattVerify
  refine ⟨_, rfl, ?_⟩
  try dsimp only
  repeat' first
    | ((with_reducible intro _ _); dsimp only)
    | ((with_reducible intro _); dsimp only)
    | (with_reducible intro _)
    | with_reducible exact Keeps.refl _ _
    | with_reducible assumption
    | ((with_reducible apply Keeps.step (lattRow_keeps _ _ _ _ _ _ )); exact rfl)
    | with_reducible apply Keeps.foldl
    | with_reducible apply Keeps.foldl_fst

theorem execLattSign_keeps (x0) (x1) (x2) (x3) (x4 : State) : ∃ t, execLattSign x0 x1 x2 x3 x4 = .next t ∧ Keeps [.regs, .logs, .out, .perf, .pool, .seq, .dma] x4 t := by
  unfold execLattSign
  refine ⟨_, rfl, ?_⟩
  try dsimp only
  repeat' first
    | ((with_reducible intro _ _); dsimp only)
    | ((with_reducible intro _); dsimp only)
    | (with_reducible intro _)
    | with_reducible exact Keeps.refl _ _
    | with_reducible assumption
    | ((with_reducible apply Keeps.step (lattRow_keeps _ _ _ _ _ _ )); exact rfl)
    | with_reducible apply Keeps.foldl
    | with_reducible apply Keeps.foldl_fst

theorem execLattEncapsulate_keeps (x0) (x1) (x2) (x3) (x4 : State) : ∃ t, execLattEncapsulate x0 x1 x2 x3 x4 = .next t ∧ Keeps [.regs, .logs, .out, .perf, .pool, .seq, .dma] x4 t := by
  unfold execLattEncapsulate
  refine ⟨_, rfl, ?_⟩
  try dsimp only
  repeat' first
    | ((with_reducible intro _ _); dsimp only)
    | ((with_reducible intro _); dsimp only)
    | (with_reducible intro _)
    | with_reducible exact Keeps.refl _ _
    | with_reducible assumption
    | ((with_reducible apply Keeps.step (lattRow_keeps _ _ _ _ _ _ )); exact rfl)
    | with_reducible apply Keeps.foldl
    | with_reducible apply Keeps.foldl_fst

theorem execLattDecapsulate_keeps (x0) (x1) (x2) (x3) (x4 : State) : ∃ t, execLattDecapsulate x0 x1 x2 x3 x4 = .next t ∧ Keeps [.regs, .logs, .out, .perf, .pool, .seq, .dma] x4 t := by
  unfold execLattDecapsulate
  refine ⟨_, rfl, ?_⟩
  try dsimp only
  repeat' first
    | ((with_reducible intro _ _); dsimp only)
    | ((with_reducible intro _); dsimp only)
    | (with_reducible intro _)
    | with_reducible exact Keeps.refl _ _
    | with_reducible assumption
    | ((with_reducible apply Keeps.step (lattRow_keeps _ _ _ _ _ _ )); exact rfl)
    | with_reducible apply Keeps.foldl
    | with_reducible apply Keeps.foldl_fst

theorem execLattKeygen_keeps (x0) (x1) (x2) (x3) (x4 : State) : ∃ t, execLattKeygen x0 x1 x2 x3 x4 = .next t ∧ Keeps [.regs, .logs, .out, .perf, .pool, .seq, .dma] x4 t := by
  unfold execLattKeygen
  refine ⟨_, rfl, ?_⟩
  try dsimp only
  repeat' first
    | ((with_reducible intro _ _); dsimp only)
    | ((with_reducible intro _); dsimp only)
    | (with_reducible intro _)
    | with_reducible exact Keeps.refl _ _
    | with_reducible assumption
    | ((with_reducible apply Keeps.step (lattRow_keeps _ _ _ _ _ _ )); exact rfl)
    | with_reducible apply Keeps.foldl
    | with_reducible apply Keeps.foldl_fst

theorem execLattInvalid_keeps (x0) (x1) (x2) (x3) (x4 : State) : ∃ t, execLattInvalid x0 x1 x2 x3 x4 = .next t ∧ Keeps [.regs, .logs, .out, .perf, .pool, .seq, .dma] x4 t := by
  unfold execLattInvalid
  refine ⟨_, rfl, ?_⟩
  try dsimp only
  repeat' first
    | ((with_reducible intro _ _); dsimp only)
    | ((with_reducible intro _); dsimp only)
    | (with_reducible intro _)
    | with_reducible exact Keeps.refl _ _
    | with_reducible assumption
    | ((with_reducible apply Keeps.step (lattRow_keeps _ _ _ _ _ _ )); exact rfl)
    | with_reducible apply Keeps.foldl
    | with_reducible apply Keeps.foldl_fst

theorem execSnap_keeps (x0) (x1) (x2) (x3) (x4 : State) : ∃ t, execSnap x0 x1 x2 x3 x4 = .next t ∧ Keeps [.regs, .logs, .out, .perf, .pool, .seq, .dma] x4 t := by
  unfold execSnap
  refine ⟨_, rfl, ?_⟩
  try dsimp only
  repeat' first
    | ((with_reducible intro _ _); dsimp only)
    | ((with_reducible intro _); dsimp only)
    | (with_reducible intro _)
    | with_reducible exact Keeps.refl _ _
    | with_reducible assumption
    | ((with_reducible apply issue_keeps); exact rfl)
    | ((with_reducible apply supervisor_keeps); exact rfl)
    | ((with_reducible apply Keeps.step (runSnap_keeps _ _ _ _ _ )); exact rfl)

theorem execJpoll_keeps (x0) (x1) (x2) (x3 : State) : ∃ t, execJpoll x0 x1 x2 x3 = .next t ∧ Keeps [.regs, .logs, .out, .perf, .pool, .seq, .dma] x3 t := by
  unfold execJpoll
  refine ⟨_, rfl, ?_⟩
  try dsimp only
  repeat' first
    | ((with_reducible intro _ _); dsimp only)
    | ((with_reducible intro _); dsimp only)
    | (with_reducible intro _)
    | with_reducible exact Keeps.refl _ _
    | with_reducible assumption
    | ((with_reducible apply issue_keeps); exact rfl)
    | ((with_reducible apply Keeps.step (runJpoll_keeps _ _ _ _ )); exact rfl)

theorem execJwait_keeps (x0) (x1) (x2) (x3 : State) : ∃ t, execJwait x0 x1 x2 x3 = .next t ∧ Keeps [.regs, .logs, .out, .perf, .pool, .seq, .dma] x3 t := by
  unfold execJwait
  refine ⟨_, rfl, ?_⟩
  try dsimp only
  repeat' first
    | ((with_reducible intro _ _); dsimp only)
    | ((with_reducible intro _); dsimp only)
    | (with_reducible intro _)
    | with_reducible exact Keeps.refl _ _
    | with_reducible assumption
    | ((with_reducible apply issue_keeps); exact rfl)
    | ((with_reducible apply Keeps.step (runJwait_keeps _ _ _ _ )); exact rfl)

/-! ### Reach -/

theorem applyChange_keeps (x0) (x1) (x2) (x3 : State) : Keeps [.regs, .logs, .out, .perf, .links, .reach] x3 (applyChange x0 x1 x2 x3) := by
  unfold applyChange
  try dsimp only
  repeat' first
    | ((with_reducible intro _ _); dsimp only)
    | ((with_reducible intro _); dsimp only)
    | (with_reducible intro _)
    | with_reducible exact Keeps.refl _ _
    | with_reducible assumption
    | ((with_reducible apply Keeps.step (State.modLink_keeps _ _ _ )); exact rfl)
    | ((with_reducible apply Keeps.step (State.addSat_keeps _ _ _ )); exact rfl)
    | ((with_reducible apply Keeps.step (linkEvent_keeps _ _ )); exact rfl)
    | ((with_reducible apply Keeps.step (applyLoading_keeps _ _ _ _ )); exact rfl)
    | ((with_reducible apply Keeps.step (State.modRch_keeps _ _ _ )); exact rfl)
    | with_reducible apply Keeps.foldl
    | with_reducible apply Keeps.foldl_fst
    | split

theorem armedSymbol_keeps (x0) (x1) (x2 : State) : Keeps [.regs, .logs, .out, .perf, .links, .reach] x2 (armedSymbol x0 x1 x2) := by
  unfold armedSymbol
  try dsimp only
  repeat' first
    | ((with_reducible intro _ _); dsimp only)
    | ((with_reducible intro _); dsimp only)
    | (with_reducible intro _)
    | with_reducible exact Keeps.refl _ _
    | with_reducible assumption
    | ((with_reducible apply Keeps.step (applyChange_keeps _ _ _ _ )); exact rfl)
    | ((with_reducible apply Keeps.step (State.setRch_keeps _ _ _ )); exact rfl)
    | with_reducible apply Keeps.foldl
    | with_reducible apply Keeps.foldl_fst
    | split

theorem applyDue_keeps (x0) (x1 : State) : Keeps [.regs, .logs, .out, .perf, .links, .reach] x1 (applyDue x0 x1) := by
  unfold applyDue
  try dsimp only
  repeat' first
    | with_reducible exact Keeps.refl _ _
    | ((with_reducible apply Keeps.step (armedSymbol_keeps _ _ _ )); exact rfl)
    | split

theorem takeToneSnrs_keeps (x0) (x1) (x2 : State) : Keeps [.reach] x2 (takeToneSnrs x0 x1 x2) := by
  unfold takeToneSnrs
  try dsimp only
  repeat' first
    | ((with_reducible intro _ _); dsimp only)
    | ((with_reducible intro _); dsimp only)
    | (with_reducible intro _)
    | with_reducible exact Keeps.refl _ _
    | with_reducible assumption
    | ((with_reducible apply Keeps.step (State.modRch_keeps _ _ _ )); exact rfl)
    | with_reducible apply Keeps.foldl
    | with_reducible apply Keeps.foldl_fst
    | split

theorem writeCap_keeps (x0) (x1) (x2 : State) : Keeps [.regs] x2 (writeCap x0 x1 x2) := by
  unfold writeCap
  try dsimp only
  repeat' first
    | ((with_reducible intro _ _); dsimp only)
    | ((with_reducible intro _); dsimp only)
    | (with_reducible intro _)
    | with_reducible exact Keeps.refl _ _
    | with_reducible assumption
    | ((with_reducible apply Keeps.step (State.setWord_keeps _ _ _ )); exact rfl)
    | with_reducible apply Keeps.foldl
    | with_reducible apply Keeps.foldl_fst
    | split

theorem keepLoading_keeps (x0) (x1 : State) : Keeps [.out, .reach] x1 (keepLoading x0 x1).1 := by
  unfold keepLoading
  try dsimp only
  repeat' first
    | ((with_reducible intro _ _); dsimp only)
    | ((with_reducible intro _); dsimp only)
    | (with_reducible intro _)
    | with_reducible exact Keeps.refl _ _
    | with_reducible assumption
    | ((with_reducible apply Keeps.step (State.modRch_keeps _ _ _ )); exact rfl)
    | ((with_reducible apply Keeps.step (State.emit_keeps _ _ )); exact rfl)
    | with_reducible apply Keeps.foldl
    | with_reducible apply Keeps.foldl_fst
    | split

theorem psdStep_keeps (x0) (x1 : State) : Keeps [.reach] x1 (psdStep x0 x1) := by
  unfold psdStep
  try dsimp only
  repeat' first
    | ((with_reducible intro _ _); dsimp only)
    | ((with_reducible intro _); dsimp only)
    | (with_reducible intro _)
    | with_reducible exact Keeps.refl _ _
    | with_reducible assumption
    | ((with_reducible apply Keeps.step (State.setRch_keeps _ _ _ )); exact rfl)
    | with_reducible apply Keeps.foldl
    | with_reducible apply Keeps.foldl_fst
    | split

theorem execReachFeq_keeps (x0) (x1) (x2) (x3) (x4 : State) : ∃ t, execReachFeq x0 x1 x2 x3 x4 = .next t ∧ Keeps [.reach] x4 t := by
  unfold execReachFeq
  refine ⟨_, rfl, ?_⟩
  try dsimp only
  repeat' first
    | ((with_reducible intro _ _); dsimp only)
    | ((with_reducible intro _); dsimp only)
    | (with_reducible intro _)
    | with_reducible exact Keeps.refl _ _
    | with_reducible assumption
    | ((with_reducible apply Keeps.step (State.modRch_keeps _ _ _ )); exact rfl)
    | with_reducible apply Keeps.foldl
    | with_reducible apply Keeps.foldl_fst
    | split

theorem countWord_keeps (x0) (x1 : State) (x2) : Keeps [.regs, .mons] x1 (countWord x0 x1 x2) := by
  unfold countWord
  try dsimp only
  repeat' first
    | with_reducible exact Keeps.refl _ _
    | ((with_reducible apply Keeps.step (countDecoded_keeps _ _ _ _ )); exact rfl)
    | ((with_reducible apply Keeps.step (countFailed_keeps _ _ _ )); exact rfl)
    | split

theorem execReachSymbol_keeps (x0) (x1) (x2) (x3) (x4) (x5 : State) : ∃ t, execReachSymbol x0 x1 x2 x3 x4 x5 = .next t ∧ Keeps [.regs, .logs, .out, .perf, .chain, .messages, .signing, .links, .trips, .pins, .reach, .mons, .sides, .sram, .dma] x5 t := by
  unfold execReachSymbol
  refine ⟨_, rfl, ?_⟩
  try dsimp only
  repeat' first
    | ((with_reducible intro _ _); dsimp only)
    | ((with_reducible intro _); dsimp only)
    | (with_reducible intro _)
    | with_reducible exact Keeps.refl _ _
    | with_reducible assumption
    | ((with_reducible apply Keeps.step (applyDue_keeps _ _ )); exact rfl)
    | ((with_reducible apply Keeps.step (judgeSlot_keeps _ _ _ )); exact rfl)
    | ((with_reducible apply Keeps.step (countWord_keeps _ _ _ )); exact rfl)
    | ((with_reducible apply Keeps.step (deliver_keeps _ _ _ _ )); exact rfl)
    | ((with_reducible apply Keeps.step (State.modRch_keeps _ _ _ )); exact rfl)
    | with_reducible apply Keeps.foldl
    | with_reducible apply Keeps.foldl_fst
    | split

theorem execBitSwapRequest_keeps (x0) (x1) (x2) (x3 : State) : ∃ t, execBitSwapRequest x0 x1 x2 x3 = .next t ∧ Keeps [.out, .reach] x3 t := by
  unfold execBitSwapRequest
  refine ⟨_, rfl, ?_⟩
  try dsimp only
  repeat' first
    | ((with_reducible intro _ _); dsimp only)
    | ((with_reducible intro _); dsimp only)
    | (with_reducible intro _)
    | with_reducible exact Keeps.refl _ _
    | with_reducible assumption
    | ((with_reducible apply Keeps.step (State.modRch_keeps _ _ _ )); exact rfl)
    | ((with_reducible apply Keeps.step (State.emit_keeps _ _ )); exact rfl)
    | with_reducible apply Keeps.foldl
    | with_reducible apply Keeps.foldl_fst
    | split

theorem execArm_keeps (x0) (x1) (x2 : State) : ∃ t, execArm x0 x1 x2 = .next t ∧ Keeps [.reach] x2 t := by
  unfold execArm
  refine ⟨_, rfl, ?_⟩
  try dsimp only
  repeat' first
    | ((with_reducible intro _ _); dsimp only)
    | ((with_reducible intro _); dsimp only)
    | (with_reducible intro _)
    | with_reducible exact Keeps.refl _ _
    | with_reducible assumption
    | ((with_reducible apply Keeps.step (State.modRch_keeps _ _ _ )); exact rfl)
    | with_reducible apply Keeps.foldl
    | with_reducible apply Keeps.foldl_fst
    | split

theorem execSwapArmedSymbol_keeps (x0) (x1) (x2 : State) : ∃ t, execSwapArmedSymbol x0 x1 x2 = .next t ∧ Keeps [.regs, .logs, .out, .perf, .links, .reach] x2 t := by
  unfold execSwapArmedSymbol
  refine ⟨_, rfl, ?_⟩
  try dsimp only
  repeat' first
    | ((with_reducible intro _ _); dsimp only)
    | ((with_reducible intro _); dsimp only)
    | (with_reducible intro _)
    | with_reducible exact Keeps.refl _ _
    | with_reducible assumption
    | ((with_reducible apply Keeps.step (armedSymbol_keeps _ _ _ )); exact rfl)
    | with_reducible apply Keeps.foldl
    | with_reducible apply Keeps.foldl_fst
    | split

theorem execRateStepDown_keeps (x0) (x1) (x2 : State) : ∃ t, execRateStepDown x0 x1 x2 = .next t ∧ Keeps [.out, .reach] x2 t := by
  unfold execRateStepDown
  refine ⟨_, rfl, ?_⟩
  try dsimp only
  repeat' first
    | ((with_reducible intro _ _); dsimp only)
    | ((with_reducible intro _); dsimp only)
    | (with_reducible intro _)
    | with_reducible exact Keeps.refl _ _
    | with_reducible assumption
    | ((with_reducible apply Keeps.step (State.modRch_keeps _ _ _ )); exact rfl)
    | ((with_reducible apply Keeps.step (State.emit_keeps _ _ )); exact rfl)
    | with_reducible apply Keeps.foldl
    | with_reducible apply Keeps.foldl_fst
    | split

theorem execLoadingTable_keeps (x0) (x1) (x2 : State) : ∃ t, execLoadingTable x0 x1 x2 = .next t ∧ Keeps [.reach] x2 t := by
  unfold execLoadingTable
  refine ⟨_, rfl, ?_⟩
  try dsimp only
  repeat' first
    | ((with_reducible intro _ _); dsimp only)
    | ((with_reducible intro _); dsimp only)
    | (with_reducible intro _)
    | with_reducible exact Keeps.refl _ _
    | with_reducible assumption
    | ((with_reducible apply Keeps.step (State.modRch_keeps _ _ _ )); exact rfl)
    | with_reducible apply Keeps.foldl
    | with_reducible apply Keeps.foldl_fst
    | split

theorem execLoadingRetrainComplete_keeps (x0) (x1) (x2 : State) : ∃ t, execLoadingRetrainComplete x0 x1 x2 = .next t ∧ Keeps [.regs, .host, .logs, .out, .perf, .messages, .signing, .links, .trips, .pool, .reach, .lpi, .mons, .sram, .dma] x2 t := by
  unfold execLoadingRetrainComplete
  refine ⟨_, rfl, ?_⟩
  split
  · have h1 := State.modRch_keeps x2 x0 (fun r => { r with rampShort := false, psdSteps := 0 })
    dsimp only
    split
    · rename_i h
      exact Keeps.step (retrainDone_keeps _ _) rfl (Keeps.step (State.emit_keeps _ _) rfl (Keeps.step (loadPort_keeps h) rfl (h1.mono rfl)))
    · exact Keeps.step (fullRetrain_keeps _ _) rfl (h1.mono rfl)
  · exact Keeps.refl _ _

theorem execVectorJoinTimeout_keeps (x0) (x1 : State) : ∃ t, execVectorJoinTimeout x0 x1 = .next t ∧ Keeps [.regs, .links, .trips, .reach] x1 t := by
  unfold execVectorJoinTimeout
  refine ⟨_, rfl, ?_⟩
  try dsimp only
  repeat' first
    | ((with_reducible intro _ _); dsimp only)
    | ((with_reducible intro _); dsimp only)
    | (with_reducible intro _)
    | with_reducible exact Keeps.refl _ _
    | with_reducible assumption
    | ((with_reducible apply Keeps.step (reachPhase_keeps _ _ _ )); exact rfl)
    | ((with_reducible apply Keeps.step (startFrames_keeps _ _ )); exact rfl)
    | ((with_reducible apply Keeps.step (State.wr_keeps _ _ _ )); exact rfl)
    | ((with_reducible apply Keeps.step (State.modRch_keeps _ _ _ )); exact rfl)
    | with_reducible apply Keeps.foldl
    | with_reducible apply Keeps.foldl_fst
    | split

theorem execPauseRepeatTimer_keeps (x0) (x1 : State) : ∃ t, execPauseRepeatTimer x0 x1 = .next t ∧ Keeps [.out] x1 t := by
  unfold execPauseRepeatTimer
  refine ⟨_, rfl, ?_⟩
  try dsimp only
  repeat' first
    | ((with_reducible intro _ _); dsimp only)
    | ((with_reducible intro _); dsimp only)
    | (with_reducible intro _)
    | with_reducible exact Keeps.refl _ _
    | with_reducible assumption
    | ((with_reducible apply Keeps.step (State.emit_keeps _ _ )); exact rfl)
    | with_reducible apply Keeps.foldl
    | with_reducible apply Keeps.foldl_fst
    | split

theorem execHostFrameToFifo_keeps (x0) (x1) (x2 : State) : ∃ t, execHostFrameToFifo x0 x1 x2 = .next t ∧ Keeps [.regs, .out, .reach] x2 t := by
  unfold execHostFrameToFifo
  refine ⟨_, rfl, ?_⟩
  try dsimp only
  repeat' first
    | ((with_reducible intro _ _); dsimp only)
    | ((with_reducible intro _); dsimp only)
    | (with_reducible intro _)
    | with_reducible exact Keeps.refl _ _
    | with_reducible assumption
    | ((with_reducible apply Keeps.step (State.addWrap_keeps _ _ _ )); exact rfl)
    | ((with_reducible apply Keeps.step (State.modRch_keeps _ _ _ )); exact rfl)
    | ((with_reducible apply Keeps.step (State.emit_keeps _ _ )); exact rfl)
    | with_reducible apply Keeps.foldl
    | with_reducible apply Keeps.foldl_fst
    | split

theorem execRateMatchFifoDrain_keeps (x0) (x1) (x2 : State) : ∃ t, execRateMatchFifoDrain x0 x1 x2 = .next t ∧ Keeps [.out, .reach] x2 t := by
  unfold execRateMatchFifoDrain
  refine ⟨_, rfl, ?_⟩
  try dsimp only
  repeat' first
    | ((with_reducible intro _ _); dsimp only)
    | ((with_reducible intro _); dsimp only)
    | (with_reducible intro _)
    | with_reducible exact Keeps.refl _ _
    | with_reducible assumption
    | ((with_reducible apply Keeps.step (State.modRch_keeps _ _ _ )); exact rfl)
    | ((with_reducible apply Keeps.step (State.emit_keeps _ _ )); exact rfl)
    | with_reducible apply Keeps.foldl
    | with_reducible apply Keeps.foldl_fst
    | split

end Sys2Proof.Machine
end

