-- ==== Sys2Proof/Laws/Cores.lean ====
section
/-! SUPPORT. The lemmas of a core's issue: what a completed instruction, an instruction whose guard is false and an exception do. -/

namespace Sys2Proof.Machine

/-! ### Contexts -/

theorem ctx_setCtx (s : State) (k j : Nat) (v : Ctx) : (s.setCtx k v).ctx j = if j = k then v else s.ctx j := by
  simp [State.ctx, State.setCtx, sget_sput]

theorem ctx_modCtx (s : State) (k j : Nat) (f : Ctx → Ctx) : (s.modCtx k f).ctx j = if j = k then f (s.ctx k) else s.ctx j :=
  ctx_setCtx s k j _

theorem Aside.ctx {s t : State} (h : Aside s t) (k : Nat) : t.ctx k = s.ctx k := by simp [State.ctx, h.seq]

/-! ### Samples (R405, R406) -/

theorem area_samp {k : Nat} (h : k < 8192) : recordArea (PERF.SAMP + k) = true := by
  have h1 : PERF.SAMP ≤ PERF.SAMP + k := by omega
  have h2 : PERF.SAMP + k < PERF.SAMP + 8192 := by omega
  simp [recordArea, h1, h2]

theorem aside_perfEvent (b : Nat) (s : State) (h : b < 8) : Aside s (perfEvent b s) :=
  (aside_setWord s PERF.CAUSE _ (by decide)).trans (causeEvent_aside PERF.CAUSE b (248 + b) s (by omega))

theorem aside_putSample (x : Sample) (s : State) : Aside s (putSample x s) := by
  unfold putSample
  have hd : recordArea PERF.SAMP_STATUS.dropped.addr = true := by decide
  have hw : recordArea PERF.SAMP_STATUS.wr.addr = true := by decide
  split
  · dsimp only
    have h1 : Aside s { s.addSat PERF.SAMP_STATUS.dropped 1 with perf := { s.perf with dropFresh := false } } :=
      (aside_wr s _ _ hd).trans (aside_perf _ _)
    split
    · exact h1.trans (aside_perfEvent 3 _ (by omega))
    · exact h1
  · dsimp only
    have h1 : ∀ (n : Nat) (l : List (Word × Nat)) (r : State), n % 16 = 0 → n < 8192 → (∀ e ∈ l, e.2 < 4) →
        Aside r (l.foldl (fun s e => s.setWord (PERF.SAMP + n + 4 * e.2) e.1) r) := by
      intro n l r hm hn hl
      refine aside_foldl _ l r (fun s e he => aside_setWord _ _ _ ?_)
      rw [Nat.add_assoc]
      exact area_samp (by have := hl e he; omega)
    have h2 := h1 (16 * (s.rd PERF.SAMP_STATUS.wr % 512)) x.words.zipIdx s (by omega) (by omega) (by
      intro e he
      have := List.snd_lt_of_mem_zipIdx he
      simpa [Sample.words] using this)
    have h3 := fun v => h2.trans (aside_wr _ PERF.SAMP_STATUS.wr v hw)
    split
    · exact (h3 _).trans (aside_perfEvent 3 _ (by omega))
    · exact h3 _

/-- Sampling an instruction. -/
theorem aside_sampleInstr (x : Sample) (s : State) : Aside s (sampleInstr x s) := by
  unfold sampleInstr
  dsimp only
  split
  · exact Aside.refl s
  · split
    · exact (aside_perf _ _).trans (aside_putSample _ _)
    · exact aside_perf _ _

/-! ### The end of an instruction -/

theorem turn_core_lt {s : State} {c : Nat} {l : BitVec 16} {t : Turn} (h : s.turn c l = some t) :
    t.core = c := by
  unfold State.turn at h
  split at h
  · cases h
  · rename_i k hk
    dsimp only at h
    split at h
    · cases h
    · cases h
      unfold State.coreTask at hk
      split at hk
      · cases hk
      · cases hk
        have : s.rd (SQ.CORE_STATUS.task.nth c) < 64 := Nat.mod_lt _ (Nat.two_pow_pos 6)
        simp only [Turn.core, taskKey]
        omega

theorem refreshCore_changes (c : Nat) (parts : List Part) (s : State) :
    Changes [SQ.CORE_STATUS + 4 * c] parts s (refreshCore c s) := by
  have e1 : (SQ.CORE_STATUS.quarantined.nth c).addr = SQ.CORE_STATUS + 4 * c := by
    simp only [Field.nth, SQ.CORE_STATUS, SQ.CORE_STATUS.quarantined]
  have e2 : (SQ.CORE_STATUS.user.nth c).addr = SQ.CORE_STATUS + 4 * c := by
    simp only [Field.nth, SQ.CORE_STATUS, SQ.CORE_STATUS.user]
  have e3 : (SQ.CORE_STATUS.waiting.nth c).addr = SQ.CORE_STATUS + 4 * c := by
    simp only [Field.nth, SQ.CORE_STATUS, SQ.CORE_STATUS.waiting]
  unfold refreshCore
  dsimp only
  have h1 : Changes [SQ.CORE_STATUS + 4 * c] parts s
      (s.wr (SQ.CORE_STATUS.quarantined.nth c) (s.seq.ctxs.filter (fun e => e.1 / 64 == c && e.2.quarantined)).length) :=
    changes_wr s _ _ (by rw [e1]; exact List.mem_singleton_self _)
  split <;>
  · refine h1.trans (changes_wrs _ _ ?_)
    intro e he
    simp only [List.mem_cons, List.not_mem_nil, or_false] at he
    rcases he with rfl | rfl <;> simp only [e2, e3, List.mem_singleton]

theorem refreshCore_seq (c : Nat) (s : State) : (refreshCore c s).seq = s.seq :=
  (refreshCore_keeps c s).within .seq rfl

theorem Retires.of_aside {t : Turn} {x : Ctx} {words : List Nat} {parts : List Part} {s r u : State} (h : Aside s r)
    (k : Retires t x words parts r u) : Retires t x words parts s u :=
  ⟨k.ctx, fun j hj => (k.others j hj).trans (h.ctx j), h.changes.trans k.changes⟩

/-- A completed instruction leaves the context it gives. -/
theorem retire_retires (t : Turn) (next : Word) (f : Ctx → Ctx) (s : State) :
    Retires t { f (s.ctx t.key) with pc := next, wait := 0 } [] [] s (retire t next f s) ∧ OnlyContexts s (retire t next f s) := by
  have h1 := aside_sampleInstr (t.sample false false s) s
  have h2 : (retire t next f s).seq =
      ((sampleInstr (t.sample false false s) s).modCtx t.key (fun x => { f x with pc := next, wait := 0 })).seq :=
    refreshCore_seq _ _
  have hc : ∀ j, (retire t next f s).ctx j = if j = t.key then { f (s.ctx t.key) with pc := next, wait := 0 } else s.ctx j := by
    intro j
    have : (retire t next f s).ctx j =
        ((sampleInstr (t.sample false false s) s).modCtx t.key (fun x => { f x with pc := next, wait := 0 })).ctx j := by
      simp [State.ctx, h2]
    rw [this, ctx_modCtx, h1.ctx, h1.ctx]
  refine ⟨⟨by simp [hc], fun j hj => by simp [hc, hj], ?_⟩, ?_⟩
  · refine h1.changes.trans (Changes.trans ?_ (refreshCore_changes t.core [.seq] _))
    exact changes_parts rfl (fun p hp => by cases p <;> first | rfl | (exact absurd hp (by decide)))
  · show (retire t next f s).seq = _
    simp only [h2, State.modCtx, State.setCtx, h1.seq]

/-- The instruction completes and the next one follows. -/
theorem done_retires (t : Turn) (f : Ctx → Ctx) (s : State) :
    Retires t (t.after (f (s.ctx t.key))) [] [] s (done t f s) ∧ OnlyContexts s (done t f s) := retire_retires t t.next f s

theorem aside_countIssue (t : Turn) (g : Bool) (s : State) (h : t.core < 4) : Aside s (countIssue t g s) := by
  unfold countIssue
  split
  · exact Aside.refl s
  · exact (aside_perfCount _ _ _ (by omega)).trans (aside_perfCount _ _ _ (by omega))

/-- An issue whose turn, fetch, word and guard are as they should be runs the instruction, with the issue counted. -/
theorem issue_runs {s : State} {i : Issue} {n : Nelno} {t : Turn} (h : s.Issues i n t) (body : Turn → State → State) :
    issue i n body s = body t (countIssue t true s) ∧ Aside s (countIssue t true s) := by
  obtain ⟨g, hg, hn, hh⟩ := h.word
  refine ⟨?_, aside_countIssue t true s ?_⟩
  · unfold issue
    simp [h.turn, h.fetch, hg, hn, hh]
  · have := turn_core_lt h.turn
    omega

/-- An instruction that only computes: its context, and nothing else. -/
theorem issue_done {s : State} {i : Issue} {n : Nelno} {t : Turn} (h : s.Issues i n t) (f : Ctx → Ctx) :
    Retires t (t.after (f (s.ctx t.key))) [] [] s (issue i n (fun t => done t f) s) ∧
      OnlyContexts s (issue i n (fun t => done t f) s) := by
  obtain ⟨h1, h2⟩ := issue_runs h (fun t => done t f)
  obtain ⟨h3, h4⟩ := done_retires t f (countIssue t true s)
  rw [h1]
  rw [h2.ctx] at h3
  refine ⟨h3.of_aside h2, ?_⟩
  unfold OnlyContexts at h4 ⊢
  rw [h4, h2.seq]

end Sys2Proof.Machine
end

