-- ==== Sys2Proof/Laws/KeepsWhole.lean ====
section
/-! SUPPORT. The parts each operation can change, and that it keeps a canonical state canonical: boundaries, control instructions, MDIO, memory accesses, the idle cycle, every command. -/

set_option linter.unusedTactic false
set_option linter.unreachableTactic false

namespace Sys2Proof.Machine

/-! ### Boundary -/

theorem passCycles_keeps (x0) (x1 : State) : Keeps [.clk, .perf] x1 (passCycles x0 x1) := by
  unfold passCycles
  try dsimp only
  repeat' first
    | with_reducible exact Keeps.refl _ _
    | ((with_reducible apply State.withClk_keeps); exact rfl; first | exact fun h => h | exact fun _ => ⟨Nat.zero_le _, Nat.zero_le _⟩)
    | ((with_reducible apply Keeps.upd_perf); exact rfl)
    | (refine Keeps.of_parts ?_ rfl rfl rfl (fun h => h); intro p hp; cases p <;> first | rfl | exact absurd hp (by decide))

theorem atSlot_keeps {l : List Part} {n : Nat} {s m : State} (h : l.contains .clk = true) (hn : n ≤ 4095) (k : Keeps l s m) :
    Keeps l s (atSlot n m) := State.withClk_keeps h (fun _ => ⟨Nat.zero_le _, hn⟩) k

theorem endSlots_keeps (x0 : State) : Keeps [.regs, .logs, .out, .perf, .pool, .wheel, .seq, .dma] x0 (endSlots x0) := by
  unfold endSlots
  try dsimp only
  repeat' first
    | ((with_reducible intro _ _); dsimp only)
    | ((with_reducible intro _); dsimp only)
    | (with_reducible intro _)
    | with_reducible exact Keeps.refl _ _
    | with_reducible assumption
    | ((with_reducible apply Keeps.step (endSlot_keeps _ _ )); exact rfl)
    | with_reducible apply Keeps.foldl
    | with_reducible apply Keeps.foldl_fst

theorem beginSlot_keeps (x0 : State) : Keeps [.regs, .logs, .out, .perf, .messages, .sides, .sram, .seq, .dma, .net, .power] x0 (beginSlot x0) := by
  unfold beginSlot
  try dsimp only
  repeat' first
    | ((with_reducible intro _ _); dsimp only)
    | ((with_reducible intro _); dsimp only)
    | (with_reducible intro _)
    | with_reducible exact Keeps.refl _ _
    | with_reducible assumption
    | ((with_reducible apply Keeps.step (takeSnaps_keeps _ )); exact rfl)
    | ((with_reducible apply Keeps.step (sendTripBlock_keeps _ _ )); exact rfl)
    | ((with_reducible apply Keeps.step (slotPower_keeps _ )); exact rfl)
    | ((with_reducible apply Keeps.step (enterSlot_keeps _ _ )); exact rfl)
    | ((with_reducible apply Keeps.step (ctxCopy_keeps _ )); exact rfl)
    | with_reducible apply Keeps.foldl
    | with_reducible apply Keeps.foldl_fst

theorem slotBoundary_keeps (x0 : State) : Keeps [.regs, .clk, .logs, .out, .perf, .messages, .pool, .sides, .sram, .wheel, .seq, .dma, .net, .power] x0 (slotBoundary x0) := by
  unfold slotBoundary
  split
  · rename_i h
    have hs : x0.clk.slot < 4095 := by simp at h; exact h.2
    have h1 := passCycles_keeps x0.cyclesLeft x0
    have h2 := endSlots_keeps (passCycles x0.cyclesLeft x0)
    have e : (endSlots (passCycles x0.cyclesLeft x0)).clk.slot = x0.clk.slot :=
      (congrArg Clock.slot (h2.within .clk rfl)).trans rfl
    exact Keeps.step (beginSlot_keeps _) rfl (atSlot_keeps rfl (by omega) (Keeps.step h2 rfl (h1.mono rfl)))
  · exact Keeps.refl _ _

theorem execSlotBoundary_keeps (x0 : State) : ∃ t, execSlotBoundary x0 = .next t ∧ Keeps [.regs, .clk, .logs, .out, .perf, .messages, .pool, .sides, .sram, .wheel, .seq, .dma, .net, .power] x0 t := by
  unfold execSlotBoundary
  refine ⟨_, rfl, ?_⟩
  try dsimp only
  repeat' first
    | with_reducible exact Keeps.refl _ _
    | ((with_reducible apply Keeps.step (slotBoundary_keeps _ )); exact rfl)

theorem countLow_keeps (x0) (x1 : State) : Keeps [.links] x1 (countLow x0 x1) := by
  unfold countLow
  try dsimp only
  repeat' first
    | ((with_reducible intro _ _); dsimp only)
    | ((with_reducible intro _); dsimp only)
    | (with_reducible intro _)
    | with_reducible exact Keeps.refl _ _
    | with_reducible assumption
    | ((with_reducible apply Keeps.step (State.modLink_keeps _ _ _ )); exact rfl)
    | with_reducible apply Keeps.foldl
    | with_reducible apply Keeps.foldl_fst
    | split

theorem judgeLow_keeps (x0) (x1 : State) : Keeps [.regs, .host, .logs, .out, .perf, .messages, .signing, .links, .trips, .pool, .reach, .lpi, .mons, .sram, .dma] x1 (judgeLow x0 x1) := by
  unfold judgeLow
  try dsimp only
  repeat' first
    | ((with_reducible intro _ _); dsimp only)
    | ((with_reducible intro _); dsimp only)
    | (with_reducible intro _)
    | with_reducible exact Keeps.refl _ _
    | with_reducible assumption
    | ((with_reducible apply Keeps.step (retrainTrigger_keeps _ _ _ )); exact rfl)
    | ((with_reducible apply Keeps.step (keepLoading_keeps _ _ )); exact rfl)
    | with_reducible apply Keeps.foldl
    | with_reducible apply Keeps.foldl_fst
    | split

theorem reviewPort_keeps (x0) (x1) (x2 : State) : Keeps [.regs, .host, .logs, .out, .freeCount, .perf, .messages, .signing, .links, .coefs, .trips, .pool, .reach, .lpi, .mons, .sram, .dma] x2 (reviewPort x0 x1 x2) := by
  unfold reviewPort
  try dsimp only
  repeat' first
    | ((with_reducible intro _ _); dsimp only)
    | ((with_reducible intro _); dsimp only)
    | (with_reducible intro _)
    | with_reducible exact Keeps.refl _ _
    | with_reducible assumption
    | ((with_reducible apply Keeps.step (countLow_keeps _ _ )); exact rfl)
    | ((with_reducible apply Keeps.step (psdStep_keeps _ _ )); exact rfl)
    | ((with_reducible apply Keeps.step (writeCap_keeps _ _ _ )); exact rfl)
    | ((with_reducible apply Keeps.step (monitorPort_keeps _ _ _ )); exact rfl)
    | ((with_reducible apply Keeps.step (takeToneSnrs_keeps _ _ _ )); exact rfl)
    | ((with_reducible apply Keeps.step (judgeLow_keeps _ _ )); exact rfl)
    | with_reducible apply Keeps.foldl
    | with_reducible apply Keeps.foldl_fst
    | split

theorem writeTemps_keeps (x0) (x1 : State) : Keeps [.regs] x1 (writeTemps x0 x1) := by
  unfold writeTemps
  try dsimp only
  repeat' first
    | ((with_reducible intro _ _); dsimp only)
    | ((with_reducible intro _); dsimp only)
    | (with_reducible intro _)
    | with_reducible exact Keeps.refl _ _
    | with_reducible assumption
    | ((with_reducible apply Keeps.step (State.setWord_keeps _ _ _ )); exact rfl)
    | with_reducible apply Keeps.foldl
    | with_reducible apply Keeps.foldl_fst

theorem switchPort_keeps (x0) (x1 : State) : Keeps [.regs, .host, .logs, .out, .perf, .messages, .signing, .links, .coefs, .trips, .pool, .reach, .lpi, .mons, .sram, .dma] x1 (switchPort x0 x1) := by
  unfold switchPort
  try dsimp only
  repeat' first
    | ((with_reducible intro _ _); dsimp only)
    | ((with_reducible intro _); dsimp only)
    | (with_reducible intro _)
    | with_reducible exact Keeps.refl _ _
    | with_reducible assumption
    | ((with_reducible apply Keeps.step (restartRuns_keeps _ _ )); exact rfl)
    | ((with_reducible apply Keeps.step (portChecks_keeps _ _ )); exact rfl)
    | ((with_reducible apply Keeps.step (wakePort_keeps _ _ _ )); exact rfl)
    | ((with_reducible apply switchBank_keeps); exact rfl)
    | ((with_reducible apply Keeps.step (portBankActive_keeps _ _ _ _ )); exact rfl)
    | with_reducible apply Keeps.foldl
    | with_reducible apply Keeps.foldl_fst
    | split

theorem switchModem_keeps (x0) (x1 : State) : Keeps [.regs, .host, .logs, .out, .perf, .messages, .signing, .links, .trips, .pool, .reach, .lpi, .mons, .sram, .dma, .net] x1 (switchModem x0 x1) := by
  unfold switchModem
  try dsimp only
  repeat' first
    | ((with_reducible intro _ _); dsimp only)
    | ((with_reducible intro _); dsimp only)
    | (with_reducible intro _)
    | with_reducible exact Keeps.refl _ _
    | with_reducible assumption
    | ((with_reducible apply Keeps.step (selectBus_keeps _ _ _ )); exact rfl)
    | ((with_reducible apply Keeps.step (State.wr_keeps _ _ _ )); exact rfl)
    | ((with_reducible apply Keeps.step (failQueued_keeps _ _ )); exact rfl)
    | ((with_reducible apply Keeps.step (ssEvent_keeps _ _ )); exact rfl)
    | with_reducible apply Keeps.foldl
    | with_reducible apply Keeps.foldl_fst
    | split

theorem switchSs_keeps (x0 : State) : Keeps [.regs, .host, .logs, .out, .perf, .messages, .signing, .links, .trips, .pool, .reach, .lpi, .mons, .sram, .dma, .net] x0 (switchSs x0) := by
  unfold switchSs
  try dsimp only
  repeat' first
    | ((with_reducible intro _ _); dsimp only)
    | ((with_reducible intro _); dsimp only)
    | (with_reducible intro _)
    | with_reducible exact Keeps.refl _ _
    | with_reducible assumption
    | ((with_reducible apply Keeps.step (switchModem_keeps _ _ )); exact rfl)
    | ((with_reducible apply Keeps.step (ssChecks_keeps _ )); exact rfl)
    | ((with_reducible apply switchBank_keeps); exact rfl)
    | with_reducible apply Keeps.foldl
    | with_reducible apply Keeps.foldl_fst
    | split

theorem switchCal_keeps (x0 : State) : Keeps [.regs, .host, .logs, .out, .perf] x0 (switchCal x0) := by
  unfold switchCal
  try dsimp only
  repeat' first
    | ((with_reducible intro _ _); dsimp only)
    | ((with_reducible intro _); dsimp only)
    | (with_reducible intro _)
    | with_reducible exact Keeps.refl _ _
    | with_reducible assumption
    | ((with_reducible apply Keeps.step (calChecks_keeps _ )); exact rfl)
    | ((with_reducible apply switchBank_keeps); exact rfl)
    | ((with_reducible apply Keeps.step (calBankActive_keeps _ )); exact rfl)
    | with_reducible apply Keeps.foldl
    | with_reducible apply Keeps.foldl_fst
    | split

theorem switchBanks_keeps (x0 : State) : Keeps [.regs, .host, .logs, .out, .perf, .messages, .signing, .links, .coefs, .trips, .pool, .reach, .lpi, .mons, .sram, .dma, .net] x0 (switchBanks x0) := by
  unfold switchBanks
  try dsimp only
  repeat' first
    | ((with_reducible intro _ _); dsimp only)
    | ((with_reducible intro _); dsimp only)
    | (with_reducible intro _)
    | with_reducible exact Keeps.refl _ _
    | with_reducible assumption
    | ((with_reducible apply withOuts_keeps); exact rfl)
    | ((with_reducible apply Keeps.step (switchCal_keeps _ )); exact rfl)
    | ((with_reducible apply Keeps.step (refreshPool_keeps _ )); exact rfl)
    | ((with_reducible apply switchBank_keeps); exact rfl)
    | ((with_reducible apply Keeps.step (switchPort_keeps _ _ )); exact rfl)
    | ((with_reducible apply Keeps.step (jugChecks_keeps _ )); exact rfl)
    | ((with_reducible apply Keeps.step (switchSs_keeps _ )); exact rfl)
    | ((with_reducible apply Keeps.step (tripChecks_keeps _ )); exact rfl)
    | ((with_reducible apply Keeps.step (ceilingChecks_keeps _ )); exact rfl)
    | with_reducible apply Keeps.foldl
    | with_reducible apply Keeps.foldl_fst

theorem restartDue_keeps (x0) (x1 : State) : Keeps [.regs, .host, .logs, .out, .perf, .messages, .signing, .links, .coefs, .trips, .pool, .reach, .lpi, .mons, .sram, .seq, .dma, .fw] x1 (restartDue x0 x1) := by
  unfold restartDue
  try dsimp only
  repeat' first
    | ((with_reducible intro _ _); dsimp only)
    | ((with_reducible intro _); dsimp only)
    | (with_reducible intro _)
    | with_reducible exact Keeps.refl _ _
    | with_reducible assumption
    | ((with_reducible apply Keeps.step (restartPortTasks_keeps _ _ )); exact rfl)
    | ((with_reducible apply Keeps.step (restartPort_keeps _ _ )); exact rfl)
    | ((with_reducible apply wcDone_keeps); exact rfl)
    | split
    | ((with_reducible apply Keeps.upd_fw); exact rfl)
    | (refine Keeps.of_parts ?_ rfl rfl rfl (fun h => h); intro p hp; cases p <;> first | rfl | exact absurd hp (by decide))

theorem endRevolution_keeps (x0 : State) : Keeps [.regs, .clk, .logs, .out, .perf, .pool, .wheel, .seq, .dma] x0 (endRevolution x0) := by
  unfold endRevolution
  try dsimp only
  repeat' first
    | with_reducible exact Keeps.refl _ _
    | ((with_reducible apply State.withClk_keeps); exact rfl; first | exact fun h => h | exact fun _ => ⟨Nat.zero_le _, Nat.zero_le _⟩)
    | ((with_reducible apply atSlot_keeps); exact rfl; exact Nat.zero_le _)
    | ((with_reducible apply Keeps.step (endSlots_keeps _ )); exact rfl)
    | ((with_reducible apply Keeps.step (perfDump_keeps _ _ )); exact rfl)
    | ((with_reducible apply Keeps.step (passCycles_keeps _ _ )); exact rfl)

theorem reviewRevolution_keeps (x0) (x1) (x2) (x3 : State) : Keeps [.regs, .host, .logs, .out, .freeCount, .perf, .chain, .messages, .signing, .links, .coefs, .trips, .pins, .pool, .reach, .lpi, .mons, .lanes, .sides, .sram, .dma, .net] x3 (reviewRevolution x0 x1 x2 x3) := by
  unfold reviewRevolution
  try dsimp only
  repeat' first
    | ((with_reducible intro _ _); dsimp only)
    | ((with_reducible intro _); dsimp only)
    | (with_reducible intro _)
    | with_reducible exact Keeps.refl _ _
    | with_reducible assumption
    | ((with_reducible apply Keeps.step (writeMap_keeps _ )); exact rfl)
    | ((with_reducible apply Keeps.step (keepalive_keeps _ )); exact rfl)
    | ((with_reducible apply Keeps.step (drainReceive_keeps _ )); exact rfl)
    | ((with_reducible apply Keeps.step (eccBoundary_keeps _ )); exact rfl)
    | ((with_reducible apply Keeps.step (reviewPort_keeps _ _ _ )); exact rfl)
    | ((with_reducible apply Keeps.step (laneBoundary_keeps _ _ )); exact rfl)
    | ((with_reducible apply Keeps.step (writeTemps_keeps _ _ )); exact rfl)
    | with_reducible apply Keeps.foldl
    | with_reducible apply Keeps.foldl_fst

theorem switchAll_keeps (x0 : State) : Keeps [.regs, .clk, .host, .pcie, .logs, .out, .perf, .chain, .messages, .signing, .links, .coefs, .trips, .pins, .pool, .reach, .lpi, .classes, .mons, .cal, .lanes, .sides, .sram, .wheel, .seq, .dma, .net, .trust, .fw, .power, .boot] x0 (switchAll x0) := by
  unfold switchAll
  try dsimp only
  repeat' first
    | ((with_reducible intro _ _); dsimp only)
    | ((with_reducible intro _); dsimp only)
    | (with_reducible intro _)
    | with_reducible exact Keeps.refl _ _
    | with_reducible assumption
    | ((with_reducible apply Keeps.step (jspBoundary_keeps _ )); exact rfl)
    | ((with_reducible apply Keeps.step (judgeScan_keeps _ )); exact rfl)
    | ((with_reducible apply Keeps.step (judgeSlots_keeps _ )); exact rfl)
    | ((with_reducible apply Keeps.step (restartDue_keeps _ _ )); exact rfl)
    | ((with_reducible apply Keeps.step (refreshLanes_keeps _ )); exact rfl)
    | ((with_reducible apply Keeps.step (wheelBoundary_keeps _ )); exact rfl)
    | ((with_reducible apply Keeps.step (commitStaged_keeps _ )); exact rfl)
    | ((with_reducible apply Keeps.step (switchBanks_keeps _ )); exact rfl)
    | with_reducible apply Keeps.foldl
    | with_reducible apply Keeps.foldl_fst
    | split

theorem beginRevolution_keeps (x0 : State) : Keeps [.regs, .clk, .host, .logs, .out, .perf, .messages, .signing, .links, .trips, .pool, .reach, .lpi, .mons, .lanes, .sides, .sram, .seq, .dma, .net, .fw, .power, .boot] x0 (beginRevolution x0) := by
  unfold beginRevolution
  try dsimp only
  repeat' first
    | ((with_reducible intro _ _); dsimp only)
    | ((with_reducible intro _); dsimp only)
    | (with_reducible intro _)
    | with_reducible exact Keeps.refl _ _
    | with_reducible assumption
    | ((with_reducible apply Keeps.step (stateSnapshot_keeps _ )); exact rfl)
    | ((with_reducible apply Keeps.step (stopWheel_keeps _ )); exact rfl)
    | ((with_reducible apply Keeps.step (enterSlot_keeps _ _ )); exact rfl)
    | ((with_reducible apply Keeps.step (beginSlot_keeps _ )); exact rfl)
    | with_reducible apply Keeps.foldl
    | with_reducible apply Keeps.foldl_fst
    | split

theorem revolutionBoundary_keeps (x0) (x1) (x2) (x3 : State) : Keeps [.regs, .clk, .host, .pcie, .logs, .out, .freeCount, .perf, .chain, .messages, .signing, .links, .coefs, .trips, .pins, .pool, .reach, .lpi, .classes, .mons, .cal, .lanes, .sides, .sram, .wheel, .seq, .dma, .net, .trust, .fw, .power, .boot] x3 (revolutionBoundary x0 x1 x2 x3) := by
  unfold revolutionBoundary
  try dsimp only
  repeat' first
    | with_reducible exact Keeps.refl _ _
    | ((with_reducible apply Keeps.step (switchAll_keeps _ )); exact rfl)
    | ((with_reducible apply Keeps.step (reviewRevolution_keeps _ _ _ _ )); exact rfl)
    | ((with_reducible apply Keeps.step (beginRevolution_keeps _ )); exact rfl)
    | ((with_reducible apply Keeps.step (endRevolution_keeps _ )); exact rfl)
    | split

theorem execRevolutionBoundary_keeps (x0) (x1) (x2) (x3 : State) : ∃ t, execRevolutionBoundary x0 x1 x2 x3 = .next t ∧ Keeps [.regs, .clk, .host, .pcie, .logs, .out, .freeCount, .perf, .chain, .messages, .signing, .links, .coefs, .trips, .pins, .pool, .reach, .lpi, .classes, .mons, .cal, .lanes, .sides, .sram, .wheel, .seq, .dma, .net, .trust, .fw, .power, .boot] x3 t := by
  unfold execRevolutionBoundary
  refine ⟨_, rfl, ?_⟩
  try dsimp only
  repeat' first
    | with_reducible exact Keeps.refl _ _
    | ((with_reducible apply Keeps.step (revolutionBoundary_keeps _ _ _ _ )); exact rfl)

/-! ### Control -/

theorem runBr_keeps (x0) (x1) (x2 : State) : Keeps [.regs, .logs, .out, .perf, .seq] x2 (runBr x0 x1 x2) := by
  unfold runBr
  try dsimp only
  repeat' first
    | with_reducible exact Keeps.refl _ _
    | ((with_reducible apply Keeps.step (perfCount_keeps _ _ _ )); exact rfl)
    | ((with_reducible apply Keeps.step (retire_keeps _ _ _ _ )); exact rfl)

theorem runBl_keeps (x0) (x1) (x2 : State) : Keeps [.regs, .logs, .out, .perf, .seq] x2 (runBl x0 x1 x2) := by
  unfold runBl
  try dsimp only
  repeat' first
    | with_reducible exact Keeps.refl _ _
    | ((with_reducible apply Keeps.step (perfCount_keeps _ _ _ )); exact rfl)
    | ((with_reducible apply Keeps.step (retire_keeps _ _ _ _ )); exact rfl)
    | split

theorem runJr_keeps (x0) (x1) (x2 : State) : Keeps [.regs, .logs, .out, .perf, .seq] x2 (runJr x0 x1 x2) := by
  unfold runJr
  try dsimp only
  repeat' first
    | with_reducible exact Keeps.refl _ _
    | ((with_reducible apply Keeps.step (retire_keeps _ _ _ _ )); exact rfl)

theorem runCsrr_keeps (x0) (x1) (x2) (x3 : State) : Keeps [.regs, .logs, .out, .perf, .pool, .seq, .dma] x3 (runCsrr x0 x1 x2 x3) := by
  unfold runCsrr
  try dsimp only
  repeat' first
    | with_reducible exact Keeps.refl _ _
    | ((with_reducible apply Keeps.step (done_keeps _ _ _ )); exact rfl)
    | ((with_reducible apply Keeps.step (trap_keeps _ _ _ _ )); exact rfl)
    | split

theorem runCsrw_keeps (x0) (x1) (x2) (x3 : State) : Keeps [.regs, .logs, .out, .perf, .pool, .seq, .dma] x3 (runCsrw x0 x1 x2 x3) := by
  unfold runCsrw
  try dsimp only
  repeat' first
    | with_reducible exact Keeps.refl _ _
    | ((with_reducible apply Keeps.step (done_keeps _ _ _ )); exact rfl)
    | ((with_reducible apply Keeps.step (trap_keeps _ _ _ _ )); exact rfl)
    | split

theorem runSysc_keeps (x0) (x1) (x2 : State) : Keeps [.regs, .logs, .out, .perf, .pool, .seq, .dma] x2 (runSysc x0 x1 x2) := by
  unfold runSysc
  try dsimp only
  repeat' first
    | with_reducible exact Keeps.refl _ _
    | ((with_reducible apply Keeps.step (perfCount_keeps _ _ _ )); exact rfl)
    | ((with_reducible apply Keeps.step (trap_keeps _ _ _ _ )); exact rfl)
    | ((with_reducible apply Keeps.step (retire_keeps _ _ _ _ )); exact rfl)
    | split

theorem runEret_keeps (x0) (x1 : State) : Keeps [.regs, .logs, .out, .perf, .seq] x1 (runEret x0 x1) := by
  unfold runEret
  try dsimp only
  repeat' first
    | with_reducible exact Keeps.refl _ _
    | ((with_reducible apply Keeps.step (retire_keeps _ _ _ _ )); exact rfl)

theorem giveUp_keeps (x0) (x1) (x2) (x3 : State) : Keeps [.regs, .logs, .out, .perf, .seq] x3 (giveUp x0 x1 x2 x3) := by
  unfold giveUp
  try dsimp only
  repeat' first
    | with_reducible exact Keeps.refl _ _
    | ((with_reducible apply Keeps.step (done_keeps _ _ _ )); exact rfl)
    | ((with_reducible apply Keeps.step (refreshCore_keeps _ _ )); exact rfl)
    | ((with_reducible apply Keeps.step (State.modCtx_keeps _ _ _ )); exact rfl)

theorem runWaits_keeps (x0) (x1) (x2 : State) : Keeps [.regs, .logs, .out, .perf, .seq] x2 (runWaits x0 x1 x2) := by
  unfold runWaits
  try dsimp only
  repeat' first
    | with_reducible exact Keeps.refl _ _
    | ((with_reducible apply Keeps.step (giveUp_keeps _ _ _ _ )); exact rfl)
    | split

theorem runYield_keeps (x0) (x1 : State) : Keeps [.regs, .logs, .out, .perf, .seq] x1 (runYield x0 x1) := by
  unfold runYield
  try dsimp only
  repeat' first
    | with_reducible exact Keeps.refl _ _
    | ((with_reducible apply Keeps.step (giveUp_keeps _ _ _ _ )); exact rfl)
    | split

theorem runTrip_keeps (x0) (x1) (x2 : State) : Keeps [.regs, .logs, .out, .perf, .messages, .trips, .pool, .sram, .seq, .dma] x2 (runTrip x0 x1 x2) := by
  unfold runTrip
  try dsimp only
  repeat' first
    | with_reducible exact Keeps.refl _ _
    | ((with_reducible apply Keeps.step (done_keeps _ _ _ )); exact rfl)
    | ((with_reducible apply Keeps.step (launchAll_keeps _ _ )); exact rfl)
    | ((with_reducible apply Keeps.step (trap_keeps _ _ _ _ )); exact rfl)
    | split

theorem execBr_keeps (x0) (x1) (x2 : State) : ∃ t, execBr x0 x1 x2 = .next t ∧ Keeps [.regs, .logs, .out, .perf, .pool, .seq, .dma] x2 t := by
  unfold execBr
  refine ⟨_, rfl, ?_⟩
  try dsimp only
  repeat' first
    | ((with_reducible intro _ _); dsimp only)
    | ((with_reducible intro _); dsimp only)
    | (with_reducible intro _)
    | with_reducible exact Keeps.refl _ _
    | with_reducible assumption
    | ((with_reducible apply Keeps.step (runBr_keeps _ _ _ )); exact rfl)
    | ((with_reducible apply issue_keeps); exact rfl)

theorem execBl_keeps (x0) (x1) (x2 : State) : ∃ t, execBl x0 x1 x2 = .next t ∧ Keeps [.regs, .logs, .out, .perf, .pool, .seq, .dma] x2 t := by
  unfold execBl
  refine ⟨_, rfl, ?_⟩
  try dsimp only
  repeat' first
    | ((with_reducible intro _ _); dsimp only)
    | ((with_reducible intro _); dsimp only)
    | (with_reducible intro _)
    | with_reducible exact Keeps.refl _ _
    | with_reducible assumption
    | ((with_reducible apply Keeps.step (runBl_keeps _ _ _ )); exact rfl)
    | ((with_reducible apply issue_keeps); exact rfl)

theorem execJr_keeps (x0) (x1) (x2 : State) : ∃ t, execJr x0 x1 x2 = .next t ∧ Keeps [.regs, .logs, .out, .perf, .pool, .seq, .dma] x2 t := by
  unfold execJr
  refine ⟨_, rfl, ?_⟩
  try dsimp only
  repeat' first
    | ((with_reducible intro _ _); dsimp only)
    | ((with_reducible intro _); dsimp only)
    | (with_reducible intro _)
    | with_reducible exact Keeps.refl _ _
    | with_reducible assumption
    | ((with_reducible apply Keeps.step (runJr_keeps _ _ _ )); exact rfl)
    | ((with_reducible apply issue_keeps); exact rfl)

theorem execCsrr_keeps (x0) (x1) (x2) (x3 : State) : ∃ t, execCsrr x0 x1 x2 x3 = .next t ∧ Keeps [.regs, .logs, .out, .perf, .pool, .seq, .dma] x3 t := by
  unfold execCsrr
  refine ⟨_, rfl, ?_⟩
  try dsimp only
  repeat' first
    | ((with_reducible intro _ _); dsimp only)
    | ((with_reducible intro _); dsimp only)
    | (with_reducible intro _)
    | with_reducible exact Keeps.refl _ _
    | with_reducible assumption
    | ((with_reducible apply issue_keeps); exact rfl)
    | ((with_reducible apply Keeps.step (runCsrr_keeps _ _ _ _ )); exact rfl)

theorem execCsrw_keeps (x0) (x1) (x2) (x3 : State) : ∃ t, execCsrw x0 x1 x2 x3 = .next t ∧ Keeps [.regs, .logs, .out, .perf, .pool, .seq, .dma] x3 t := by
  unfold execCsrw
  refine ⟨_, rfl, ?_⟩
  try dsimp only
  repeat' first
    | ((with_reducible intro _ _); dsimp only)
    | ((with_reducible intro _); dsimp only)
    | (with_reducible intro _)
    | with_reducible exact Keeps.refl _ _
    | with_reducible assumption
    | ((with_reducible apply issue_keeps); exact rfl)
    | ((with_reducible apply Keeps.step (runCsrw_keeps _ _ _ _ )); exact rfl)

theorem execSysc_keeps (x0) (x1) (x2 : State) : ∃ t, execSysc x0 x1 x2 = .next t ∧ Keeps [.regs, .logs, .out, .perf, .pool, .seq, .dma] x2 t := by
  unfold execSysc
  refine ⟨_, rfl, ?_⟩
  try dsimp only
  repeat' first
    | ((with_reducible intro _ _); dsimp only)
    | ((with_reducible intro _); dsimp only)
    | (with_reducible intro _)
    | with_reducible exact Keeps.refl _ _
    | with_reducible assumption
    | ((with_reducible apply issue_keeps); exact rfl)
    | ((with_reducible apply Keeps.step (runSysc_keeps _ _ _ )); exact rfl)

theorem execEret_keeps (x0) (x1 : State) : ∃ t, execEret x0 x1 = .next t ∧ Keeps [.regs, .logs, .out, .perf, .pool, .seq, .dma] x1 t := by
  unfold execEret
  refine ⟨_, rfl, ?_⟩
  try dsimp only
  repeat' first
    | ((with_reducible intro _ _); dsimp only)
    | ((with_reducible intro _); dsimp only)
    | (with_reducible intro _)
    | with_reducible exact Keeps.refl _ _
    | with_reducible assumption
    | ((with_reducible apply issue_keeps); exact rfl)
    | ((with_reducible apply supervisor_keeps); exact rfl)
    | ((with_reducible apply Keeps.step (runEret_keeps _ _ )); exact rfl)

theorem execWaits_keeps (x0) (x1) (x2 : State) : ∃ t, execWaits x0 x1 x2 = .next t ∧ Keeps [.regs, .logs, .out, .perf, .pool, .seq, .dma] x2 t := by
  unfold execWaits
  refine ⟨_, rfl, ?_⟩
  try dsimp only
  repeat' first
    | ((with_reducible intro _ _); dsimp only)
    | ((with_reducible intro _); dsimp only)
    | (with_reducible intro _)
    | with_reducible exact Keeps.refl _ _
    | with_reducible assumption
    | ((with_reducible apply Keeps.step (runWaits_keeps _ _ _ )); exact rfl)
    | ((with_reducible apply issue_keeps); exact rfl)

theorem execYield_keeps (x0) (x1 : State) : ∃ t, execYield x0 x1 = .next t ∧ Keeps [.regs, .logs, .out, .perf, .pool, .seq, .dma] x1 t := by
  unfold execYield
  refine ⟨_, rfl, ?_⟩
  try dsimp only
  repeat' first
    | ((with_reducible intro _ _); dsimp only)
    | ((with_reducible intro _); dsimp only)
    | (with_reducible intro _)
    | with_reducible exact Keeps.refl _ _
    | with_reducible assumption
    | ((with_reducible apply issue_keeps); exact rfl)
    | ((with_reducible apply Keeps.step (runYield_keeps _ _ )); exact rfl)

theorem execTrip_keeps (x0) (x1) (x2 : State) : ∃ t, execTrip x0 x1 x2 = .next t ∧ Keeps [.regs, .logs, .out, .perf, .messages, .trips, .pool, .sram, .seq, .dma] x2 t := by
  unfold execTrip
  refine ⟨_, rfl, ?_⟩
  try dsimp only
  repeat' first
    | ((with_reducible intro _ _); dsimp only)
    | ((with_reducible intro _); dsimp only)
    | (with_reducible intro _)
    | with_reducible exact Keeps.refl _ _
    | with_reducible assumption
    | ((with_reducible apply issue_keeps); exact rfl)
    | ((with_reducible apply Keeps.step (runTrip_keeps _ _ _ )); exact rfl)

/-! ### Mdio -/

theorem mdioErr_keeps (x0 : State) : Keeps [.regs] x0 (mdioErr x0) := by
  unfold mdioErr
  try dsimp only
  repeat' first
    | with_reducible exact Keeps.refl _ _
    | ((with_reducible apply Keeps.step (State.wr_keeps _ _ _ )); exact rfl)

theorem mdioStart_keeps (x0) (x1 : State) : Keeps [.regs, .host] x1 (mdioStart x0 x1) := by
  unfold mdioStart
  try dsimp only
  repeat' first
    | with_reducible exact Keeps.refl _ _
    | ((with_reducible apply Keeps.step (mdioErr_keeps _ )); exact rfl)
    | split
    | ((with_reducible apply Keeps.upd_host); exact rfl)
    | (refine Keeps.of_parts ?_ rfl rfl rfl (fun h => h); intro p hp; cases p <;> first | rfl | exact absurd hp (by decide))

theorem execMdioWindowRead_keeps (x0 : State) : ∃ t, execMdioWindowRead x0 = .next t ∧ Keeps [.regs, .host] x0 t := by
  unfold execMdioWindowRead
  refine ⟨_, rfl, ?_⟩
  try dsimp only
  repeat' first
    | with_reducible exact Keeps.refl _ _
    | ((with_reducible apply Keeps.step (mdioStart_keeps _ _ )); exact rfl)

theorem execMdioWindowWrite_keeps (x0 : State) : ∃ t, execMdioWindowWrite x0 = .next t ∧ Keeps [.regs, .host] x0 t := by
  unfold execMdioWindowWrite
  refine ⟨_, rfl, ?_⟩
  try dsimp only
  repeat' first
    | with_reducible exact Keeps.refl _ _
    | ((with_reducible apply Keeps.step (mdioStart_keeps _ _ )); exact rfl)

theorem mdioLoad_keeps (x0) (x1 : State) : Keeps [.host] x1 (mdioLoad x0 x1) := by
  unfold mdioLoad
  try dsimp only
  repeat' first
    | with_reducible exact Keeps.refl _ _
    | ((with_reducible apply Keeps.upd_host); exact rfl)
    | (refine Keeps.of_parts ?_ rfl rfl rfl (fun h => h); intro p hp; cases p <;> first | rfl | exact absurd hp (by decide))

theorem mdioReadDone_keeps (x0) (x1 : State) : Keeps [.regs, .host, .logs, .out, .freeCount, .perf, .lpi] x1 (mdioReadDone x0 x1) := by
  unfold mdioReadDone
  try dsimp only
  repeat' first
    | ((with_reducible intro _ _); dsimp only)
    | ((with_reducible intro _); dsimp only)
    | (with_reducible intro _)
    | with_reducible exact Keeps.refl _ _
    | with_reducible assumption
    | ((with_reducible apply Keeps.step (readPart_keeps _ _ _ )); exact rfl)
    | ((with_reducible apply Keeps.step (busError_keeps _ _ _ )); exact rfl)
    | ((with_reducible apply Keeps.step (mdioErr_keeps _ )); exact rfl)
    | ((with_reducible apply Keeps.step (mdioLoad_keeps _ _ )); exact rfl)
    | with_reducible apply Keeps.foldl
    | with_reducible apply Keeps.foldl_fst
    | split

theorem mdioWriteDone_keeps (x0) (x1) (x2) (x3 : State) : Keeps [.regs, .clk, .host, .pcie, .logs, .out, .perf, .chain, .messages, .signing, .links, .coefs, .trips, .pins, .pool, .reach, .lpi, .classes, .mons, .cal, .lanes, .sides, .sram, .wheel, .seq, .dma, .net, .trust, .fw, .power, .boot] x3 (mdioWriteDone x0 x1 x2 x3) := by
  unfold mdioWriteDone
  try dsimp only
  repeat' first
    | ((with_reducible intro _ _); dsimp only)
    | ((with_reducible intro _); dsimp only)
    | (with_reducible intro _)
    | with_reducible exact Keeps.refl _ _
    | with_reducible assumption
    | ((with_reducible apply Keeps.step (busError_keeps _ _ _ )); exact rfl)
    | ((with_reducible apply Keeps.step (mdioErr_keeps _ )); exact rfl)
    | ((with_reducible apply Keeps.step (writePart_keeps _ _ _ _ _ _ )); exact rfl)
    | with_reducible apply Keeps.foldl
    | with_reducible apply Keeps.foldl_fst
    | split

theorem mdioDone_keeps (x0) (x1 : State) : Keeps [.regs, .clk, .host, .pcie, .logs, .out, .freeCount, .perf, .chain, .messages, .signing, .links, .coefs, .trips, .pins, .pool, .reach, .lpi, .classes, .mons, .cal, .lanes, .sides, .sram, .wheel, .seq, .dma, .net, .trust, .fw, .power, .boot] x1 (mdioDone x0 x1) := by
  unfold mdioDone
  try dsimp only
  repeat' first
    | ((with_reducible intro _ _); dsimp only)
    | ((with_reducible intro _); dsimp only)
    | (with_reducible intro _)
    | with_reducible exact Keeps.refl _ _
    | with_reducible assumption
    | ((with_reducible apply Keeps.step (mdioWriteDone_keeps _ _ _ _ )); exact rfl)
    | ((with_reducible apply Keeps.step (accessInSleep_keeps _ _ _ _ )); exact rfl)
    | ((with_reducible apply Keeps.step (mdioReadDone_keeps _ _ )); exact rfl)
    | ((with_reducible apply Keeps.step (mdioLoad_keeps _ _ )); exact rfl)
    | with_reducible apply Keeps.foldl
    | with_reducible apply Keeps.foldl_fst
    | split
    | ((with_reducible apply Keeps.upd_host); exact rfl)
    | (refine Keeps.of_parts ?_ rfl rfl rfl (fun h => h); intro p hp; cases p <;> first | rfl | exact absurd hp (by decide))

theorem execMdioWindowAccessDone_keeps (x0) (x1 : State) : ∃ t, execMdioWindowAccessDone x0 x1 = .next t ∧ Keeps [.regs, .clk, .host, .pcie, .logs, .out, .freeCount, .perf, .chain, .messages, .signing, .links, .coefs, .trips, .pins, .pool, .reach, .lpi, .classes, .mons, .cal, .lanes, .sides, .sram, .wheel, .seq, .dma, .net, .trust, .fw, .power, .boot] x1 t := by
  unfold execMdioWindowAccessDone
  refine ⟨_, rfl, ?_⟩
  try dsimp only
  repeat' first
    | with_reducible exact Keeps.refl _ _
    | ((with_reducible apply Keeps.step (mdioDone_keeps _ _ )); exact rfl)

theorem windowReg_keeps (x0) (x1) (x2 : State) : Keeps [.regs, .host] x2 (windowReg x0 x1 x2) := by
  unfold windowReg
  try dsimp only
  repeat' first
    | with_reducible exact Keeps.refl _ _
    | ((with_reducible apply Keeps.step (mdioStart_keeps _ _ )); exact rfl)
    | ((with_reducible apply Keeps.step (mdioErr_keeps _ )); exact rfl)
    | ((with_reducible apply Keeps.step (mdioLoad_keeps _ _ )); exact rfl)
    | split
    | ((with_reducible apply Keeps.upd_host); exact rfl)
    | (refine Keeps.of_parts ?_ rfl rfl rfl (fun h => h); intro p hp; cases p <;> first | rfl | exact absurd hp (by decide))

theorem restoreLink_keeps (x0) (x1) (x2 : State) : Keeps [.host] x2 (restoreLink x0 x1 x2) := by
  unfold restoreLink
  try dsimp only
  repeat' first
    | ((with_reducible intro _ _); dsimp only)
    | ((with_reducible intro _); dsimp only)
    | (with_reducible intro _)
    | with_reducible exact Keeps.refl _ _
    | with_reducible assumption
    | with_reducible apply Keeps.foldl
    | with_reducible apply Keeps.foldl_fst
    | ((with_reducible apply Keeps.upd_host); exact rfl)
    | (refine Keeps.of_parts ?_ rfl rfl rfl (fun h => h); intro p hp; cases p <;> first | rfl | exact absurd hp (by decide))

theorem mdioRead_keeps (x0) (x1) (x2) (x3 : State) : Keeps [.regs, .host, .logs, .out] x3 (mdioRead x0 x1 x2 x3) := by
  unfold mdioRead
  try dsimp only
  repeat' first
    | ((with_reducible intro _ _); dsimp only)
    | ((with_reducible intro _); dsimp only)
    | (with_reducible intro _)
    | with_reducible exact Keeps.refl _ _
    | with_reducible assumption
    | ((with_reducible apply Keeps.step (mdioErr_keeps _ )); exact rfl)
    | ((with_reducible apply Keeps.step (restoreLink_keeps _ _ _ )); exact rfl)
    | ((with_reducible apply Keeps.step (mmdLoad_keeps _ _ _ )); exact rfl)
    | ((with_reducible apply Keeps.step (State.emit_keeps _ _ )); exact rfl)
    | with_reducible apply Keeps.foldl
    | with_reducible apply Keeps.foldl_fst
    | split

theorem latchLowRead_keeps (x0) (x1) (x2) (x3 : State) : Keeps [.regs, .host, .logs, .out, .perf, .power] x3 (latchLowRead x0 x1 x2 x3) := by
  unfold latchLowRead
  try dsimp only
  repeat' first
    | ((with_reducible intro _ _); dsimp only)
    | ((with_reducible intro _); dsimp only)
    | (with_reducible intro _)
    | with_reducible exact Keeps.refl _ _
    | with_reducible assumption
    | ((with_reducible apply Keeps.step (accessInSleep_keeps _ _ _ _ )); exact rfl)
    | ((with_reducible apply Keeps.step (mdioErr_keeps _ )); exact rfl)
    | ((with_reducible apply Keeps.step (mdioRead_keeps _ _ _ _ )); exact rfl)
    | ((with_reducible apply Keeps.step (State.emit_keeps _ _ )); exact rfl)
    | with_reducible apply Keeps.foldl
    | with_reducible apply Keeps.foldl_fst
    | split

theorem execLatchLowRead_keeps (x0) (x1) (x2) (x3 : State) : ∃ t, execLatchLowRead x0 x1 x2 x3 = .next t ∧ Keeps [.regs, .host, .logs, .out, .perf, .power] x3 t := by
  unfold execLatchLowRead
  refine ⟨_, rfl, ?_⟩
  try dsimp only
  repeat' first
    | with_reducible exact Keeps.refl _ _
    | ((with_reducible apply Keeps.step (latchLowRead_keeps _ _ _ _ )); exact rfl)

theorem standardField_keeps (x0) (x1) (x2) (x3 : State) : Keeps [.regs, .clk, .host, .pcie, .logs, .out, .perf, .chain, .messages, .signing, .links, .coefs, .trips, .pins, .pool, .reach, .lpi, .classes, .mons, .cal, .lanes, .sides, .sram, .wheel, .seq, .dma, .net, .trust, .fw, .power, .boot] x3 (standardField x0 x1 x2 x3) := by
  unfold standardField
  try dsimp only
  repeat' first
    | ((with_reducible intro _ _); dsimp only)
    | ((with_reducible intro _); dsimp only)
    | (with_reducible intro _)
    | with_reducible exact Keeps.refl _ _
    | with_reducible assumption
    | ((with_reducible apply Keeps.step (writeReg_keeps _ _ _ _ _ )); exact rfl)
    | ((with_reducible apply Keeps.step (State.setPending_keeps _ _ _ )); exact rfl)
    | with_reducible apply Keeps.foldl
    | with_reducible apply Keeps.foldl_fst
    | split

theorem standardCmd_keeps (x0) (x1) (x2 : State) : Keeps [.regs, .clk, .host, .pcie, .logs, .out, .perf, .chain, .messages, .signing, .links, .coefs, .trips, .pins, .pool, .reach, .lpi, .classes, .mons, .cal, .lanes, .sides, .sram, .wheel, .seq, .dma, .net, .trust, .fw, .power, .boot] x2 (standardCmd x0 x1 x2) := by
  unfold standardCmd
  try dsimp only
  repeat' first
    | with_reducible exact Keeps.refl _ _
    | ((with_reducible apply Keeps.step (writeReg_keeps _ _ _ _ _ )); exact rfl)

theorem standardWrite_keeps (x0) (x1) (x2) (x3) (x4 : State) : Keeps [.regs, .clk, .host, .pcie, .logs, .out, .perf, .chain, .messages, .signing, .links, .coefs, .trips, .pins, .pool, .reach, .lpi, .classes, .mons, .cal, .lanes, .sides, .sram, .wheel, .seq, .dma, .net, .trust, .fw, .power, .boot] x4 (standardWrite x0 x1 x2 x3 x4) := by
  unfold standardWrite
  try dsimp only
  repeat' first
    | ((with_reducible intro _ _); dsimp only)
    | ((with_reducible intro _); dsimp only)
    | (with_reducible intro _)
    | with_reducible exact Keeps.refl _ _
    | with_reducible assumption
    | ((with_reducible apply Keeps.step (standardCmd_keeps _ _ _ )); exact rfl)
    | ((with_reducible apply Keeps.step (standardField_keeps _ _ _ _ )); exact rfl)
    | ((with_reducible apply Keeps.step (mdioErr_keeps _ )); exact rfl)
    | ((with_reducible apply Keeps.step (ignored_keeps _ _ _ )); exact rfl)
    | with_reducible apply Keeps.foldl
    | with_reducible apply Keeps.foldl_fst
    | split

theorem mdioWrite_keeps (x0) (x1) (x2) (x3) (x4 : State) : Keeps [.regs, .clk, .host, .pcie, .logs, .out, .perf, .chain, .messages, .signing, .links, .coefs, .trips, .pins, .pool, .reach, .lpi, .classes, .mons, .cal, .lanes, .sides, .sram, .wheel, .seq, .dma, .net, .trust, .fw, .power, .boot] x4 (mdioWrite x0 x1 x2 x3 x4) := by
  unfold mdioWrite
  try dsimp only
  repeat' first
    | ((with_reducible intro _ _); dsimp only)
    | ((with_reducible intro _); dsimp only)
    | (with_reducible intro _)
    | with_reducible exact Keeps.refl _ _
    | with_reducible assumption
    | ((with_reducible apply Keeps.step (accessInSleep_keeps _ _ _ _ )); exact rfl)
    | ((with_reducible apply Keeps.step (standardWrite_keeps _ _ _ _ _ )); exact rfl)
    | ((with_reducible apply Keeps.step (windowReg_keeps _ _ _ )); exact rfl)
    | ((with_reducible apply Keeps.step (mdioErr_keeps _ )); exact rfl)
    | with_reducible apply Keeps.foldl
    | with_reducible apply Keeps.foldl_fst
    | split

theorem execMdioStandardWrite_keeps (x0) (x1) (x2) (x3) (x4 : State) : ∃ t, execMdioStandardWrite x0 x1 x2 x3 x4 = .next t ∧ Keeps [.regs, .clk, .host, .pcie, .logs, .out, .perf, .chain, .messages, .signing, .links, .coefs, .trips, .pins, .pool, .reach, .lpi, .classes, .mons, .cal, .lanes, .sides, .sram, .wheel, .seq, .dma, .net, .trust, .fw, .power, .boot] x4 t := by
  unfold execMdioStandardWrite
  refine ⟨_, rfl, ?_⟩
  try dsimp only
  repeat' first
    | with_reducible exact Keeps.refl _ _
    | ((with_reducible apply Keeps.step (mdioWrite_keeps _ _ _ _ _ )); exact rfl)

/-! ### MemoryAccess -/

theorem runLoad_keeps (x0) (x1) (x2) (x3) (x4) (x5 : State) : Keeps [.regs, .host, .logs, .out, .perf, .pool, .lpi, .seq, .dma] x5 (runLoad x0 x1 x2 x3 x4 x5) := by
  unfold runLoad
  try dsimp only
  repeat' first
    | ((with_reducible intro _ _); dsimp only)
    | ((with_reducible intro _); dsimp only)
    | (with_reducible intro _)
    | with_reducible exact Keeps.refl _ _
    | with_reducible assumption
    | ((with_reducible apply Keeps.step (done_keeps _ _ _ )); exact rfl)
    | ((with_reducible apply Keeps.step (readReg_keeps _ _ _ _ _ _ )); exact rfl)
    | ((with_reducible apply Keeps.step (perfCount_keeps _ _ _ )); exact rfl)
    | ((with_reducible apply Keeps.step (trap_keeps _ _ _ _ )); exact rfl)
    | with_reducible apply Keeps.foldl
    | with_reducible apply Keeps.foldl_fst
    | split

theorem runStore_keeps (x0) (x1) (x2) (x3) (x4) (x5 : State) : Keeps [.regs, .clk, .host, .pcie, .logs, .out, .perf, .chain, .messages, .signing, .links, .coefs, .trips, .pins, .pool, .reach, .lpi, .classes, .mons, .cal, .lanes, .sides, .sram, .wheel, .seq, .dma, .net, .trust, .fw, .power, .boot] x5 (runStore x0 x1 x2 x3 x4 x5) := by
  unfold runStore
  try dsimp only
  repeat' first
    | ((with_reducible intro _ _); dsimp only)
    | ((with_reducible intro _); dsimp only)
    | (with_reducible intro _)
    | with_reducible exact Keeps.refl _ _
    | with_reducible assumption
    | ((with_reducible apply Keeps.step (done_keeps _ _ _ )); exact rfl)
    | ((with_reducible apply Keeps.step (writeReg_keeps _ _ _ _ _ )); exact rfl)
    | ((with_reducible apply Keeps.step (writeWord_keeps _ _ _ )); exact rfl)
    | ((with_reducible apply Keeps.step (writeNarrow_keeps _ _ _ _ )); exact rfl)
    | ((with_reducible apply Keeps.step (perfCount_keeps _ _ _ )); exact rfl)
    | ((with_reducible apply Keeps.step (trap_keeps _ _ _ _ )); exact rfl)
    | with_reducible apply Keeps.foldl
    | with_reducible apply Keeps.foldl_fst
    | split

theorem copyWord_keeps {rd rs1 rs2 : Fin 32} {k : Nat} {s t : State} (h : copyWord rd rs1 rs2 k s = .inl t) :
    Keeps [.sram, .seq, .dma] s t := by
  unfold copyWord at h
  dsimp only at h
  split at h
  · cases h
  · split at h
    · cases h
    · split at h
      · cases h
      · have e := Sum.inl.inj h
        subst e
        exact Keeps.step (State.modCtx_keeps _ _ _) rfl ((writeWord_keeps _ _ _).mono rfl)

theorem copyWords_keeps (x0) (x1) (x2) (x3) (x4) (x5 : State) : Keeps [.sram, .seq, .dma] x5 (copyWords x0 x1 x2 x3 x4 x5).1 := by
  induction x4 generalizing x5 with
  | zero => exact Keeps.refl _ _
  | succ n ih =>
    unfold copyWords
    split
    · exact Keeps.refl _ _
    · split
      · rename_i h
        exact (copyWord_keeps h).trans (ih _)
      · exact Keeps.refl _ _

theorem runBcopy_keeps (x0) (x1) (x2) (x3) (x4) (x5 : State) : Keeps [.regs, .logs, .out, .perf, .pool, .sram, .seq, .dma] x5 (runBcopy x0 x1 x2 x3 x4 x5) := by
  unfold runBcopy
  try dsimp only
  repeat' first
    | with_reducible exact Keeps.refl _ _
    | ((with_reducible apply Keeps.step (done_keeps _ _ _ )); exact rfl)
    | ((with_reducible apply Keeps.step (copyWords_keeps _ _ _ _ _ _ )); exact rfl)
    | ((with_reducible apply Keeps.step (refreshCore_keeps _ _ )); exact rfl)
    | ((with_reducible apply Keeps.step (State.modCtx_keeps _ _ _ )); exact rfl)
    | ((with_reducible apply Keeps.step (trap_keeps _ _ _ _ )); exact rfl)
    | split

theorem execLdw_keeps (x0) (x1) (x2) (x3) (x4 : State) : ∃ t, execLdw x0 x1 x2 x3 x4 = .next t ∧ Keeps [.regs, .host, .logs, .out, .perf, .pool, .lpi, .seq, .dma] x4 t := by
  unfold execLdw
  refine ⟨_, rfl, ?_⟩
  try dsimp only
  repeat' first
    | ((with_reducible intro _ _); dsimp only)
    | ((with_reducible intro _); dsimp only)
    | (with_reducible intro _)
    | with_reducible exact Keeps.refl _ _
    | with_reducible assumption
    | ((with_reducible apply Keeps.step (runLoad_keeps _ _ _ _ _ _ )); exact rfl)
    | ((with_reducible apply issue_keeps); exact rfl)

theorem execLdh_keeps (x0) (x1) (x2) (x3) (x4 : State) : ∃ t, execLdh x0 x1 x2 x3 x4 = .next t ∧ Keeps [.regs, .host, .logs, .out, .perf, .pool, .lpi, .seq, .dma] x4 t := by
  unfold execLdh
  refine ⟨_, rfl, ?_⟩
  try dsimp only
  repeat' first
    | ((with_reducible intro _ _); dsimp only)
    | ((with_reducible intro _); dsimp only)
    | (with_reducible intro _)
    | with_reducible exact Keeps.refl _ _
    | with_reducible assumption
    | ((with_reducible apply Keeps.step (runLoad_keeps _ _ _ _ _ _ )); exact rfl)
    | ((with_reducible apply issue_keeps); exact rfl)

theorem execLdhu_keeps (x0) (x1) (x2) (x3) (x4 : State) : ∃ t, execLdhu x0 x1 x2 x3 x4 = .next t ∧ Keeps [.regs, .host, .logs, .out, .perf, .pool, .lpi, .seq, .dma] x4 t := by
  unfold execLdhu
  refine ⟨_, rfl, ?_⟩
  try dsimp only
  repeat' first
    | ((with_reducible intro _ _); dsimp only)
    | ((with_reducible intro _); dsimp only)
    | (with_reducible intro _)
    | with_reducible exact Keeps.refl _ _
    | with_reducible assumption
    | ((with_reducible apply Keeps.step (runLoad_keeps _ _ _ _ _ _ )); exact rfl)
    | ((with_reducible apply issue_keeps); exact rfl)

theorem execLdb_keeps (x0) (x1) (x2) (x3) (x4 : State) : ∃ t, execLdb x0 x1 x2 x3 x4 = .next t ∧ Keeps [.regs, .host, .logs, .out, .perf, .pool, .lpi, .seq, .dma] x4 t := by
  unfold execLdb
  refine ⟨_, rfl, ?_⟩
  try dsimp only
  repeat' first
    | ((with_reducible intro _ _); dsimp only)
    | ((with_reducible intro _); dsimp only)
    | (with_reducible intro _)
    | with_reducible exact Keeps.refl _ _
    | with_reducible assumption
    | ((with_reducible apply Keeps.step (runLoad_keeps _ _ _ _ _ _ )); exact rfl)
    | ((with_reducible apply issue_keeps); exact rfl)

theorem execLdbu_keeps (x0) (x1) (x2) (x3) (x4 : State) : ∃ t, execLdbu x0 x1 x2 x3 x4 = .next t ∧ Keeps [.regs, .host, .logs, .out, .perf, .pool, .lpi, .seq, .dma] x4 t := by
  unfold execLdbu
  refine ⟨_, rfl, ?_⟩
  try dsimp only
  repeat' first
    | ((with_reducible intro _ _); dsimp only)
    | ((with_reducible intro _); dsimp only)
    | (with_reducible intro _)
    | with_reducible exact Keeps.refl _ _
    | with_reducible assumption
    | ((with_reducible apply Keeps.step (runLoad_keeps _ _ _ _ _ _ )); exact rfl)
    | ((with_reducible apply issue_keeps); exact rfl)

theorem execStw_keeps (x0) (x1) (x2) (x3) (x4 : State) : ∃ t, execStw x0 x1 x2 x3 x4 = .next t ∧ Keeps [.regs, .clk, .host, .pcie, .logs, .out, .perf, .chain, .messages, .signing, .links, .coefs, .trips, .pins, .pool, .reach, .lpi, .classes, .mons, .cal, .lanes, .sides, .sram, .wheel, .seq, .dma, .net, .trust, .fw, .power, .boot] x4 t := by
  unfold execStw
  refine ⟨_, rfl, ?_⟩
  try dsimp only
  repeat' first
    | ((with_reducible intro _ _); dsimp only)
    | ((with_reducible intro _); dsimp only)
    | (with_reducible intro _)
    | with_reducible exact Keeps.refl _ _
    | with_reducible assumption
    | ((with_reducible apply issue_keeps); exact rfl)
    | ((with_reducible apply Keeps.step (runStore_keeps _ _ _ _ _ _ )); exact rfl)

theorem execSth_keeps (x0) (x1) (x2) (x3) (x4 : State) : ∃ t, execSth x0 x1 x2 x3 x4 = .next t ∧ Keeps [.regs, .clk, .host, .pcie, .logs, .out, .perf, .chain, .messages, .signing, .links, .coefs, .trips, .pins, .pool, .reach, .lpi, .classes, .mons, .cal, .lanes, .sides, .sram, .wheel, .seq, .dma, .net, .trust, .fw, .power, .boot] x4 t := by
  unfold execSth
  refine ⟨_, rfl, ?_⟩
  try dsimp only
  repeat' first
    | ((with_reducible intro _ _); dsimp only)
    | ((with_reducible intro _); dsimp only)
    | (with_reducible intro _)
    | with_reducible exact Keeps.refl _ _
    | with_reducible assumption
    | ((with_reducible apply issue_keeps); exact rfl)
    | ((with_reducible apply Keeps.step (runStore_keeps _ _ _ _ _ _ )); exact rfl)

theorem execStb_keeps (x0) (x1) (x2) (x3) (x4 : State) : ∃ t, execStb x0 x1 x2 x3 x4 = .next t ∧ Keeps [.regs, .clk, .host, .pcie, .logs, .out, .perf, .chain, .messages, .signing, .links, .coefs, .trips, .pins, .pool, .reach, .lpi, .classes, .mons, .cal, .lanes, .sides, .sram, .wheel, .seq, .dma, .net, .trust, .fw, .power, .boot] x4 t := by
  unfold execStb
  refine ⟨_, rfl, ?_⟩
  try dsimp only
  repeat' first
    | ((with_reducible intro _ _); dsimp only)
    | ((with_reducible intro _); dsimp only)
    | (with_reducible intro _)
    | with_reducible exact Keeps.refl _ _
    | with_reducible assumption
    | ((with_reducible apply issue_keeps); exact rfl)
    | ((with_reducible apply Keeps.step (runStore_keeps _ _ _ _ _ _ )); exact rfl)

theorem execBcopy_keeps (x0) (x1) (x2) (x3) (x4) (x5 : State) : ∃ t, execBcopy x0 x1 x2 x3 x4 x5 = .next t ∧ Keeps [.regs, .logs, .out, .perf, .pool, .sram, .seq, .dma] x5 t := by
  unfold execBcopy
  refine ⟨_, rfl, ?_⟩
  try dsimp only
  repeat' first
    | ((with_reducible intro _ _); dsimp only)
    | ((with_reducible intro _); dsimp only)
    | (with_reducible intro _)
    | with_reducible exact Keeps.refl _ _
    | with_reducible assumption
    | ((with_reducible apply Keeps.step (runBcopy_keeps _ _ _ _ _ _ )); exact rfl)
    | ((with_reducible apply issue_keeps); exact rfl)

theorem execFence_keeps (x0) (x1 : State) : ∃ t, execFence x0 x1 = .next t ∧ Keeps [.regs, .logs, .out, .perf, .pool, .seq, .dma] x1 t := by
  unfold execFence
  refine ⟨_, rfl, ?_⟩
  try dsimp only
  repeat' first
    | ((with_reducible intro _ _); dsimp only)
    | ((with_reducible intro _); dsimp only)
    | (with_reducible intro _)
    | with_reducible exact Keeps.refl _ _
    | with_reducible assumption
    | ((with_reducible apply Keeps.step (done_keeps _ _ _ )); exact rfl)
    | ((with_reducible apply issue_keeps); exact rfl)

/-! ### Idle -/

theorem idleCycle_keeps (x0 : State) : Keeps [.regs, .clk, .out, .perf] x0 (idleCycle x0) := by
  unfold idleCycle
  split
  · have h1 : Keeps [.regs, .clk, .out, .perf] x0
        (x0.cycleEvents.foldl (fun s (e : Nat × Nat) => perfCount e.1 e.2 s) x0) :=
      Keeps.foldl (fun _ _ => (perfCount_keeps _ _ _).mono rfl) (Keeps.refl _ _)
    have h2 := Keeps.step (passCycles_keeps 1 _) rfl h1
    dsimp only
    split
    · rename_i h
      exact State.withClk_keeps rfl (fun w => ⟨by simp at h; have := h.2; show _ + 1 ≤ 124; omega, w.2⟩) h2
    · exact h2
  · exact Keeps.refl _ _

/-! ### Every command -/

/-- Every part but the queue. -/
def notQueue : List Part :=
  [.regs, .clk, .host, .pcie, .logs, .out, .freeCount, .perf, .chain, .messages, .signing, .signCount, .links, .coefs, .trips,
   .pins, .pool, .reach, .lpi, .classes, .mons, .cal, .lanes, .sides, .sram, .wheel, .seq, .dma, .net, .trust, .fw, .power, .boot]

/-- A command's own list of parts widens to every part but the queue. -/
theorem Keeps.widen {l : List Part} {s : State} {o : Host.Outcome State Fault Refusal}
    (h : ∃ t, o = .next t ∧ Keeps l s t) (k : l.all (notQueue.contains ·) = true) : ∃ t, o = .next t ∧ Keeps notQueue s t :=
  h.elim (fun t e => ⟨t, e.1, e.2.mono k⟩)

/-- Every command answers a next state, leaves the queue alone and keeps a canonical state canonical. -/
theorem exec_keeps (c : Instr) (s : State) : ∃ t, exec c s = .next t ∧ Keeps notQueue s t := by
  cases c with
  | slotBoundary => exact Keeps.widen (execSlotBoundary_keeps s) rfl
  | revolutionBoundary ports eyes temps => exact Keeps.widen (execRevolutionBoundary_keeps ports eyes temps s) rfl
  | scrubAccess bank found => exact Keeps.widen (execScrubAccess_keeps bank found s) rfl
  | logScrubAccess bad => exact Keeps.widen (execLogScrubAccess_keeps bad s) rfl
  | aonTick linear => exact Keeps.widen (execAonTick_keeps linear s) rfl
  | rtcSecond => exact Keeps.widen (execRtcSecond_keeps s) rfl
  | hostRegisterWrite a parts fuse => exact Keeps.widen (execHostRegisterWrite_keeps a parts fuse s) rfl
  | rcRead a parts => exact Keeps.widen (execRcRead_keeps a parts s) rfl
  | counterLowRead a => exact Keeps.widen (execCounterLowRead_keeps a s) rfl
  | bitAliasWrite word bit v => exact Keeps.widen (execBitAliasWrite_keeps word bit v s) rfl
  | bankCommit b => exact Keeps.widen (execBankCommit_keeps b s) rfl
  | clampPop => exact Keeps.widen (execClampPop_keeps s) rfl
  | mdioWindowRead => exact Keeps.widen (execMdioWindowRead_keeps s) rfl
  | mdioWindowWrite => exact Keeps.widen (execMdioWindowWrite_keeps s) rfl
  | mdioWindowAccessDone fuse => exact Keeps.widen (execMdioWindowAccessDone_keeps fuse s) rfl
  | mdioStandardWrite n mmd reg v => exact Keeps.widen (execMdioStandardWrite_keeps n mmd reg v s) rfl
  | latchLowRead n mmd reg => exact Keeps.widen (execLatchLowRead_keeps n mmd reg s) rfl
  | ldpcFrameDecode n iterations result frames => exact Keeps.widen (execLdpcFrameDecode_keeps n iterations result frames s) rfl
  | partnerPulsesSeen n => exact Keeps.widen (execPartnerPulsesSeen_keeps n s) rfl
  | idleDetected n => exact Keeps.widen (execIdleDetected_keeps n s) rfl
  | pageExchangeComplete n ex => exact Keeps.widen (execPageExchangeComplete_keeps n ex s) rfl
  | breakLinkTimer n => exact Keeps.widen (execBreakLinkTimer_keeps n s) rfl
  | autonegWaitTimer n => exact Keeps.widen (execAutonegWaitTimer_keeps n s) rfl
  | linkFailInhibitTimer n => exact Keeps.widen (execLinkFailInhibitTimer_keeps n s) rfl
  | trainPhaseEnd n r => exact Keeps.widen (execTrainPhaseEnd_keeps n r s) rfl
  | receiverStatusOk n => exact Keeps.widen (execReceiverStatusOk_keeps n s) rfl
  | partnerLost n => exact Keeps.widen (execPartnerLost_keeps n s) rfl
  | linkStatusFailure n => exact Keeps.widen (execLinkStatusFailure_keeps n s) rfl
  | advertisementRestore n => exact Keeps.widen (execAdvertisementRestore_keeps n s) rfl
  | partnerEnergyReturn n => exact Keeps.widen (execPartnerEnergyReturn_keeps n s) rfl
  | probeSTimer n => exact Keeps.widen (execProbeSTimer_keeps n s) rfl
  | probeTimeout n => exact Keeps.widen (execProbeTimeout_keeps n s) rfl
  | probeAnswer n partner => exact Keeps.widen (execProbeAnswer_keeps n partner s) rfl
  | probeRequest n => exact Keeps.widen (execProbeRequest_keeps n s) rfl
  | cableTestEnd n results => exact Keeps.widen (execCableTestEnd_keeps n results s) rfl
  | cableTestStop n classified => exact Keeps.widen (execCableTestStop_keeps n classified s) rfl
  | cableTest n => exact Keeps.widen (execCableTest_keeps n s) rfl
  | fastRetrain n => exact Keeps.widen (execFastRetrain_keeps n s) rfl
  | anRestart n => exact Keeps.widen (execAnRestart_keeps n s) rfl
  | restart n => exact Keeps.widen (execRestart_keeps n s) rfl
  | partnerRetrainRequest n => exact Keeps.widen (execPartnerRetrainRequest_keeps n s) rfl
  | fastRetrainComplete n coefs => exact Keeps.widen (execFastRetrainComplete_keeps n coefs s) rfl
  | fastRetrainTimeout n => exact Keeps.widen (execFastRetrainTimeout_keeps n s) rfl
  | tripSlotReceived n word => exact Keeps.widen (execTripSlotReceived_keeps n word s) rfl
  | heartbeatWatchdog n => exact Keeps.widen (execHeartbeatWatchdog_keeps n s) rfl
  | tripSlotSend n => exact Keeps.widen (execTripSlotSend_keeps n s) rfl
  | tripInEdge i0 => exact Keeps.widen (execTripInEdge_keeps i0 s) rfl
  | tripCodeComputed n set => exact Keeps.widen (execTripCodeComputed_keeps n set s) rfl
  | tripOutHoldExpiry j => exact Keeps.widen (execTripOutHoldExpiry_keeps j s) rfl
  | tripOutRelease mask => exact Keeps.widen (execTripOutRelease_keeps mask s) rfl
  | sideshowTripMessage n body => exact Keeps.widen (execSideshowTripMessage_keeps n body s) rfl
  | sessionOffer n m => exact Keeps.widen (execSessionOffer_keeps n m s) rfl
  | sessionAccept n m => exact Keeps.widen (execSessionAccept_keeps n m s) rfl
  | sessionConfirm n m => exact Keeps.widen (execSessionConfirm_keeps n m s) rfl
  | sessionReady n m => exact Keeps.widen (execSessionReady_keeps n m s) rfl
  | offerRetryTimer n => exact Keeps.widen (execOfferRetryTimer_keeps n s) rfl
  | sessionEstablishTimeout n => exact Keeps.widen (execSessionEstablishTimeout_keeps n s) rfl
  | ncLms b errors symbols quiet => exact Keeps.widen (execNcLms_keeps b errors symbols quiet s) rfl
  | reachFeq n p first coefs => exact Keeps.widen (execReachFeq_keeps n p first coefs s) rfl
  | reachVec b taps quiet => exact Keeps.widen (execReachVec_keeps b taps quiet s) rfl
  | scanStart => exact Keeps.widen (execScanStart_keeps s) rfl
  | scanStop => exact Keeps.widen (execScanStop_keeps s) rfl
  | scanPairComplete v found => exact Keeps.widen (execScanPairComplete_keeps v found s) rfl
  | reachSymbol n overhead trip words frames => exact Keeps.widen (execReachSymbol_keeps n overhead trip words frames s) rfl
  | bitSwapRequest n entries symCnt => exact Keeps.widen (execBitSwapRequest_keeps n entries symCnt s) rfl
  | arm n symCnt => exact Keeps.widen (execArm_keeps n symCnt s) rfl
  | swapArmedSymbol n transmit => exact Keeps.widen (execSwapArmedSymbol_keeps n transmit s) rfl
  | rateStepDown n symCnt => exact Keeps.widen (execRateStepDown_keeps n symCnt s) rfl
  | loadingTable n table => exact Keeps.widen (execLoadingTable_keeps n table s) rfl
  | loadingRetrainComplete n tones => exact Keeps.widen (execLoadingRetrainComplete_keeps n tones s) rfl
  | reachTrainingTimeout n => exact Keeps.widen (execReachTrainingTimeout_keeps n s) rfl
  | vectorJoinTimeout n => exact Keeps.widen (execVectorJoinTimeout_keeps n s) rfl
  | pauseRepeatTimer n => exact Keeps.widen (execPauseRepeatTimer_keeps n s) rfl
  | hostFrameToFifo n length => exact Keeps.widen (execHostFrameToFifo_keeps n length s) rfl
  | ssFrameReceived n steps => exact Keeps.widen (execSsFrameReceived_keeps n steps s) rfl
  | ssPreambleTimeout n => exact Keeps.widen (execSsPreambleTimeout_keeps n s) rfl
  | ackTx n => exact Keeps.widen (execAckTx_keeps n s) rfl
  | ssFrameEnqueue => exact Keeps.widen (execSsFrameEnqueue_keeps s) rfl
  | ssFrameTransmit n => exact Keeps.widen (execSsFrameTransmit_keeps n s) rfl
  | ssAckTimeout n => exact Keeps.widen (execSsAckTimeout_keeps n s) rfl
  | ssBusyTimeout n => exact Keeps.widen (execSsBusyTimeout_keeps n s) rfl
  | energyDetect n => exact Keeps.widen (execEnergyDetect_keeps n s) rfl
  | oscillatorStartFail => exact Keeps.widen (execOscillatorStartFail_keeps s) rfl
  | messageReassembled => exact Keeps.widen (execMessageReassembled_keeps s) rfl
  | reassemblyTimeout => exact Keeps.widen (execReassemblyTimeout_keeps s) rfl
  | beaconTimer n => exact Keeps.widen (execBeaconTimer_keeps n s) rfl
  | beaconReceived n b => exact Keeps.widen (execBeaconReceived_keeps n b s) rfl
  | neighbourMissing i0 => exact Keeps.widen (execNeighbourMissing_keeps i0 s) rfl
  | portSet => exact Keeps.widen (execPortSet_keeps s) rfl
  | attest => exact Keeps.widen (execAttest_keeps s) rfl
  | tripArm => exact Keeps.widen (execTripArm_keeps s) rfl
  | tripDisarm => exact Keeps.widen (execTripDisarm_keeps s) rfl
  | diagRun => exact Keeps.widen (execDiagRun_keeps s) rfl
  | timeSet => exact Keeps.widen (execTimeSet_keeps s) rfl
  | logSummary => exact Keeps.widen (execLogSummary_keeps s) rfl
  | ctxClear => exact Keeps.widen (execCtxClear_keeps s) rfl
  | journalWriteDone ok fuse => exact Keeps.widen (execJournalWriteDone_keeps ok fuse s) rfl
  | rebase n => exact Keeps.widen (execRebase_keeps n s) rfl
  | calVisitEnd obs => exact Keeps.widen (execCalVisitEnd_keeps obs s) rfl
  | spareSwitchIn v => exact Keeps.widen (execSpareSwitchIn_keeps v s) rfl
  | force => exact Keeps.widen (execForce_keeps s) rfl
  | swap => exact Keeps.widen (execSwap_keeps s) rfl
  | lpiEntryTimer n => exact Keeps.widen (execLpiEntryTimer_keeps n s) rfl
  | lpiPhaseEnd n changes => exact Keeps.widen (execLpiPhaseEnd_keeps n changes s) rfl
  | lpiWakeRequest n alert changes => exact Keeps.widen (execLpiWakeRequest_keeps n alert changes s) rfl
  | lpiWakeDone n => exact Keeps.widen (execLpiWakeDone_keeps n s) rfl
  | laneExitDone l => exact Keeps.widen (execLaneExitDone_keeps l s) rfl
  | cdrLock l => exact Keeps.widen (execCdrLock_keeps l s) rfl
  | cdrLockLost l signal => exact Keeps.widen (execCdrLockLost_keeps l signal s) rfl
  | laneLockGained l => exact Keeps.widen (execLaneLockGained_keeps l s) rfl
  | laneLockLost l hdrGood => exact Keeps.widen (execLaneLockLost_keeps l hdrGood s) rfl
  | slip l => exact Keeps.widen (execSlip_keeps l s) rfl
  | markerReceived l m => exact Keeps.widen (execMarkerReceived_keeps l m s) rfl
  | mequelCodeword l result => exact Keeps.widen (execMequelCodeword_keeps l result s) rfl
  | sideBlockReceived l block => exact Keeps.widen (execSideBlockReceived_keeps l block s) rfl
  | tunnelMessage n => exact Keeps.widen (execTunnelMessage_keeps n s) rfl
  | usxgmiiAnAck l => exact Keeps.widen (execUsxgmiiAnAck_keeps l s) rfl
  | hostFaultReceived l stream fault => exact Keeps.widen (execHostFaultReceived_keeps l stream fault s) rfl
  | add i0 rd rs1 rs2 => exact Keeps.widen (execAdd_keeps i0 rd rs1 rs2 s) rfl
  | sub i0 rd rs1 rs2 => exact Keeps.widen (execSub_keeps i0 rd rs1 rs2 s) rfl
  | and i0 rd rs1 rs2 => exact Keeps.widen (execAnd_keeps i0 rd rs1 rs2 s) rfl
  | or i0 rd rs1 rs2 => exact Keeps.widen (execOr_keeps i0 rd rs1 rs2 s) rfl
  | xor i0 rd rs1 rs2 => exact Keeps.widen (execXor_keeps i0 rd rs1 rs2 s) rfl
  | sll i0 rd rs1 rs2 => exact Keeps.widen (execSll_keeps i0 rd rs1 rs2 s) rfl
  | srl i0 rd rs1 rs2 => exact Keeps.widen (execSrl_keeps i0 rd rs1 rs2 s) rfl
  | sra i0 rd rs1 rs2 => exact Keeps.widen (execSra_keeps i0 rd rs1 rs2 s) rfl
  | slt i0 rd rs1 rs2 => exact Keeps.widen (execSlt_keeps i0 rd rs1 rs2 s) rfl
  | sltu i0 rd rs1 rs2 => exact Keeps.widen (execSltu_keeps i0 rd rs1 rs2 s) rfl
  | min i0 rd rs1 rs2 => exact Keeps.widen (execMin_keeps i0 rd rs1 rs2 s) rfl
  | max i0 rd rs1 rs2 => exact Keeps.widen (execMax_keeps i0 rd rs1 rs2 s) rfl
  | mul i0 rd rs1 rs2 => exact Keeps.widen (execMul_keeps i0 rd rs1 rs2 s) rfl
  | mulh i0 rd rs1 rs2 => exact Keeps.widen (execMulh_keeps i0 rd rs1 rs2 s) rfl
  | mulhu i0 rd rs1 rs2 => exact Keeps.widen (execMulhu_keeps i0 rd rs1 rs2 s) rfl
  | div i0 rd rs1 rs2 => exact Keeps.widen (execDiv_keeps i0 rd rs1 rs2 s) rfl
  | divu i0 rd rs1 rs2 => exact Keeps.widen (execDivu_keeps i0 rd rs1 rs2 s) rfl
  | rem i0 rd rs1 rs2 => exact Keeps.widen (execRem_keeps i0 rd rs1 rs2 s) rfl
  | remu i0 rd rs1 rs2 => exact Keeps.widen (execRemu_keeps i0 rd rs1 rs2 s) rfl
  | addi i0 rd rs1 v => exact Keeps.widen (execAddi_keeps i0 rd rs1 v s) rfl
  | andi i0 rd rs1 v => exact Keeps.widen (execAndi_keeps i0 rd rs1 v s) rfl
  | ori i0 rd rs1 v => exact Keeps.widen (execOri_keeps i0 rd rs1 v s) rfl
  | xori i0 rd rs1 v => exact Keeps.widen (execXori_keeps i0 rd rs1 v s) rfl
  | slli i0 rd rs1 sh => exact Keeps.widen (execSlli_keeps i0 rd rs1 sh s) rfl
  | srli i0 rd rs1 sh => exact Keeps.widen (execSrli_keeps i0 rd rs1 sh s) rfl
  | srai i0 rd rs1 sh => exact Keeps.widen (execSrai_keeps i0 rd rs1 sh s) rfl
  | movl i0 rd v => exact Keeps.widen (execMovl_keeps i0 rd v s) rfl
  | movh i0 rd v => exact Keeps.widen (execMovh_keeps i0 rd v s) rfl
  | cmp i0 pd cond rs1 rs2 => exact Keeps.widen (execCmp_keeps i0 pd cond rs1 rs2 s) rfl
  | cmpi i0 pd cond rs1 v => exact Keeps.widen (execCmpi_keeps i0 pd cond rs1 v s) rfl
  | pand i0 pd ps1 ps2 => exact Keeps.widen (execPand_keeps i0 pd ps1 ps2 s) rfl
  | por i0 pd ps1 ps2 => exact Keeps.widen (execPor_keeps i0 pd ps1 ps2 s) rfl
  | pxor i0 pd ps1 ps2 => exact Keeps.widen (execPxor_keeps i0 pd ps1 ps2 s) rfl
  | pandn i0 pd ps1 ps2 => exact Keeps.widen (execPandn_keeps i0 pd ps1 ps2 s) rfl
  | ldw i0 rd rs1 off => exact Keeps.widen (execLdw_keeps i0 rd rs1 off s) rfl
  | ldh i0 rd rs1 off => exact Keeps.widen (execLdh_keeps i0 rd rs1 off s) rfl
  | ldhu i0 rd rs1 off => exact Keeps.widen (execLdhu_keeps i0 rd rs1 off s) rfl
  | ldb i0 rd rs1 off => exact Keeps.widen (execLdb_keeps i0 rd rs1 off s) rfl
  | ldbu i0 rd rs1 off => exact Keeps.widen (execLdbu_keeps i0 rd rs1 off s) rfl
  | stw i0 rs2 rs1 off => exact Keeps.widen (execStw_keeps i0 rs2 rs1 off s) rfl
  | sth i0 rs2 rs1 off => exact Keeps.widen (execSth_keeps i0 rs2 rs1 off s) rfl
  | stb i0 rs2 rs1 off => exact Keeps.widen (execStb_keeps i0 rs2 rs1 off s) rfl
  | bcopy i0 rd rs1 rs2 words => exact Keeps.widen (execBcopy_keeps i0 rd rs1 rs2 words s) rfl
  | fence i0 => exact Keeps.widen (execFence_keeps i0 s) rfl
  | br i0 off => exact Keeps.widen (execBr_keeps i0 off s) rfl
  | bl i0 off => exact Keeps.widen (execBl_keeps i0 off s) rfl
  | jr i0 rs1 => exact Keeps.widen (execJr_keeps i0 rs1 s) rfl
  | csrr i0 rd csr => exact Keeps.widen (execCsrr_keeps i0 rd csr s) rfl
  | csrw i0 rs2 csr => exact Keeps.widen (execCsrw_keeps i0 rs2 csr s) rfl
  | sysc i0 v => exact Keeps.widen (execSysc_keeps i0 v s) rfl
  | eret i0 => exact Keeps.widen (execEret_keeps i0 s) rfl
  | waits i0 slot => exact Keeps.widen (execWaits_keeps i0 slot s) rfl
  | yield i0 => exact Keeps.widen (execYield_keeps i0 s) rfl
  | ejob i0 rd rs1 rs2 => exact Keeps.widen (execEjob_keeps i0 rd rs1 rs2 s) rfl
  | dmaq i0 rd rs1 rs2 => exact Keeps.widen (execDmaq_keeps i0 rd rs1 rs2 s) rfl
  | hash i0 rd rs1 rs2 => exact Keeps.widen (execHash_keeps i0 rd rs1 rs2 s) rfl
  | lattVerify i0 rd rs1 rs2 => exact Keeps.widen (execLattVerify_keeps i0 rd rs1 rs2 s) rfl
  | lattSign i0 rd rs1 rs2 => exact Keeps.widen (execLattSign_keeps i0 rd rs1 rs2 s) rfl
  | lattEncapsulate i0 rd rs1 rs2 => exact Keeps.widen (execLattEncapsulate_keeps i0 rd rs1 rs2 s) rfl
  | lattDecapsulate i0 rd rs1 rs2 => exact Keeps.widen (execLattDecapsulate_keeps i0 rd rs1 rs2 s) rfl
  | lattKeygen i0 rd rs1 rs2 => exact Keeps.widen (execLattKeygen_keeps i0 rd rs1 rs2 s) rfl
  | lattInvalid i0 rd rs1 rs2 => exact Keeps.widen (execLattInvalid_keeps i0 rd rs1 rs2 s) rfl
  | trip i0 rs1 => exact Keeps.widen (execTrip_keeps i0 rs1 s) rfl
  | snap i0 rd rs1 rs2 => exact Keeps.widen (execSnap_keeps i0 rd rs1 rs2 s) rfl
  | jpoll i0 pd rs1 => exact Keeps.widen (execJpoll_keeps i0 pd rs1 s) rfl
  | jwait i0 rd rs1 => exact Keeps.widen (execJwait_keeps i0 rd rs1 s) rfl
  | engineJobEnd e => exact Keeps.widen (execEngineJobEnd_keeps e s) rfl
  | hashJobEnd => exact Keeps.widen (execHashJobEnd_keeps s) rfl
  | latticeJobEnd own failed => exact Keeps.widen (execLatticeJobEnd_keeps own failed s) rfl
  | load => exact Keeps.widen (execLoad_keeps s) rfl
  | fromFlash => exact Keeps.widen (execFromFlash_keeps s) rfl
  | revert => exact Keeps.widen (execRevert_keeps s) rfl
  | cancel => exact Keeps.widen (execCancel_keeps s) rfl
  | wheelImageFetched result => exact Keeps.widen (execWheelImageFetched_keeps result s) rfl
  | wheelAdmissionDone => exact Keeps.widen (execWheelAdmissionDone_keeps s) rfl
  | taskSelWrite w => exact Keeps.widen (execTaskSelWrite_keeps w s) rfl
  | sqCtxSelWrite w => exact Keeps.widen (execSqCtxSelWrite_keeps w s) rfl
  | ssCtxSelWrite w => exact Keeps.widen (execSsCtxSelWrite_keeps w s) rfl
  | trimSelWrite w => exact Keeps.widen (execTrimSelWrite_keeps w s) rfl
  | coefSelWrite n w => exact Keeps.widen (execCoefSelWrite_keeps n w s) rfl
  | ringProdWrite r prod => exact Keeps.widen (execRingProdWrite_keeps r prod s) rfl
  | dmaBurst => exact Keeps.widen (execDmaBurst_keeps s) rfl
  | dmaReadCompletion k result => exact Keeps.widen (execDmaReadCompletion_keeps k result s) rfl
  | tlbWalkDone => exact Keeps.widen (execTlbWalkDone_keeps s) rfl
  | resume r => exact Keeps.widen (execResume_keeps r s) rfl
  | abort r => exact Keeps.widen (execAbort_keeps r s) rfl
  | invOne => exact Keeps.widen (execInvOne_keeps s) rfl
  | invAll => exact Keeps.widen (execInvAll_keeps s) rfl
  | invalidateDone => exact Keeps.widen (execInvalidateDone_keeps s) rfl
  | submit => exact Keeps.widen (execSubmit_keeps s) rfl
  | enrol fuse => exact Keeps.widen (execEnrol_keeps fuse s) rfl
  | checkpoint => exact Keeps.widen (execCheckpoint_keeps s) rfl
  | manifestReceived => exact Keeps.widen (execManifestReceived_keeps s) rfl
  | manifestReg a v => exact Keeps.widen (execManifestReg_keeps a v s) rfl
  | manifestRoute node port metric hop => exact Keeps.widen (execManifestRoute_keeps node port metric hop s) rfl
  | manifestRouteDel node => exact Keeps.widen (execManifestRouteDel_keeps node s) rfl
  | opKey slot permitted key => exact Keeps.widen (execOpKey_keeps slot permitted key s) rfl
  | opKeyDel slot => exact Keeps.widen (execOpKeyDel_keeps slot s) rfl
  | ownerEnrol slot hash => exact Keeps.widen (execOwnerEnrol_keeps slot hash s) rfl
  | ownerRevoke slot signer => exact Keeps.widen (execOwnerRevoke_keeps slot signer s) rfl
  | svnCommit v => exact Keeps.widen (execSvnCommit_keeps v s) rfl
  | sealDevice => exact Keeps.widen (execSeal_keeps s) rfl
  | msixHeldSend e => exact Keeps.widen (execMsixHeldSend_keeps e s) rfl
  | alarmAckWrite seq => exact Keeps.widen (execAlarmAckWrite_keeps seq s) rfl
  | expRdWrite c idx => exact Keeps.widen (execExpRdWrite_keeps c idx s) rfl
  | exportStallTimeout c => exact Keeps.widen (execExportStallTimeout_keeps c s) rfl
  | logRecordsFreed => exact Keeps.widen (execLogRecordsFreed_keeps s) rfl
  | ssLogSummaryDue => exact Keeps.widen (execSsLogSummaryDue_keeps s) rfl
  | mmd31LoadRecord c seq => exact Keeps.widen (execMmd31LoadRecord_keeps c seq s) rfl
  | mmd31LastWordRead port => exact Keeps.widen (execMmd31LastWordRead_keeps port s) rfl
  | mmd31Acknowledge c seq => exact Keeps.widen (execMmd31Acknowledge_keeps c seq s) rfl
  | recSelWrite seq => exact Keeps.widen (execRecSelWrite_keeps seq s) rfl
  | clearAll hits => exact Keeps.widen (execClearAll_keeps hits s) rfl
  | powerRequest target src => exact Keeps.widen (execPowerRequest_keeps target src s) rfl
  | entryHandshakeAnswer b limit => exact Keeps.widen (execEntryHandshakeAnswer_keeps b limit s) rfl
  | entryCrcDone => exact Keeps.widen (execEntryCrcDone_keeps s) rfl
  | deepSleepBeaconTimeout => exact Keeps.widen (execDeepSleepBeaconTimeout_keeps s) rfl
  | railAcknowledge r => exact Keeps.widen (execRailAcknowledge_keeps r s) rfl
  | statusWordPoll r status vout => exact Keeps.widen (execStatusWordPoll_keeps r status vout s) rfl
  | railFault r f => exact Keeps.widen (execRailFault_keeps r f s) rfl
  | pmbusAlert status => exact Keeps.widen (execPmbusAlert_keeps status s) rfl
  | wakePin asserted => exact Keeps.widen (execWakePin_keeps asserted s) rfl
  | rtcAlarm => exact Keeps.widen (execRtcAlarm_keeps s) rfl
  | hostAccessInSleep addr isRead mdio => exact Keeps.widen (execHostAccessInSleep_keeps addr isRead mdio s) rfl
  | wakeClocksReady => exact Keeps.widen (execWakeClocksReady_keeps s) rfl
  | wakeCrcCheck bad held => exact Keeps.widen (execWakeCrcCheck_keeps bad held s) rfl
  | rtcSetWrite w => exact Keeps.widen (execRtcSetWrite_keeps w s) rfl
  | powerOnReset => exact Keeps.widen (execPowerOnReset_keeps s) rfl
  | resetN => exact Keeps.widen (execResetN_keeps s) rfl
  | device => exact Keeps.widen (execDevice_keeps s) rfl
  | longNext => exact Keeps.widen (execLongNext_keeps s) rfl
  | supplyDrop => exact Keeps.widen (execSupplyDrop_keeps s) rfl
  | jtagTapReset => exact Keeps.widen (execJtagTapReset_keeps s) rfl
  | perstN => exact Keeps.widen (execPerstN_keeps s) rfl
  | managementReady b => exact Keeps.widen (execManagementReady_keeps b s) rfl
  | segmentEnd run => exact Keeps.widen (execSegmentEnd_keeps run s) rfl
  | rotationStep => exact Keeps.widen (execRotationStep_keeps s) rfl
  | rotationElementEnd run => exact Keeps.widen (execRotationElementEnd_keeps run s) rfl
  | write => exact Keeps.widen (execWrite_keeps s) rfl
  | verify => exact Keeps.widen (execVerify_keeps s) rfl
  | activate => exact Keeps.widen (execActivate_keeps s) rfl
  | fwCancel => exact Keeps.widen (execFwCancel_keeps s) rfl
  | fwWriteDone result programmed => exact Keeps.widen (execFwWriteDone_keeps result programmed s) rfl
  | fwVerifyDone places => exact Keeps.widen (execFwVerifyDone_keeps places s) rfl
  | snapHoldWrite v => exact Keeps.widen (execSnapHoldWrite_keeps v s) rfl
  | snapHoldExpiry => exact Keeps.widen (execSnapHoldExpiry_keeps s) rfl
  | resetRelease => exact Keeps.widen (execResetRelease_keeps s) rfl
  | aonSupplyFall => exact Keeps.widen (execAonSupplyFall_keeps s) rfl
  | pcieLinkChange c => exact Keeps.widen (execPcieLinkChange_keeps c s) rfl
  | tripInDeassert i0 => exact Keeps.widen (execTripInDeassert_keeps i0 s) rfl
  | partnerLpiSignal n => exact Keeps.widen (execPartnerLpiSignal_keeps n s) rfl
  | oscillatorReady => exact Keeps.widen (execOscillatorReady_keeps s) rfl
  | perfCounterWrap k => exact Keeps.widen (execPerfCounterWrap_keeps k s) rfl
  | rateMatchFifoDrain n bytes => exact Keeps.widen (execRateMatchFifoDrain_keeps n bytes s) rfl

/-- A command leaves the queue as it was. -/
theorem exec_pending {c : Instr} {s t : State} (h : exec c s = .next t) : t.pending = s.pending := by
  obtain ⟨u, hu, k⟩ := exec_keeps c s
  rw [hu] at h
  cases h
  exact k.within .pending rfl

end Sys2Proof.Machine
end

section
/-! SUPPORT. What a step is, by the queue, and that it keeps a sound state sound. -/

namespace Sys2Proof.Machine


theorem step_of_cons {c : Instr} {rest : List Instr} {s : State} (h : s.pending = c :: rest) :
    step s = exec c (s.withPending rest) := by
  rw [step, h]

theorem step_of_nil {s : State} (h : s.pending = []) : step s = .next (idleCycle s) := by
  rw [step, h]

/-- Settles O55: the queue's front is what the step's own case split takes. -/
theorem stepRunsTheFrontCommand : Obligations.StepRunsTheFrontCommand := by
  unfold Obligations.StepRunsTheFrontCommand
  intro c rest s h
  exact step_of_cons h

/-- The queue is no store of the canonical form. -/
theorem withPending_canonical {s : State} (l : List Instr) (h : s.Canonical) : (s.withPending l).Canonical :=
  ⟨h.regs, h.memory, h.cycle, h.slot, h.blocks⟩

/-- A cycle without a command keeps a sound state sound. -/
theorem idleCycle_sound {s : State} (h : s.Sound) : (idleCycle s).Sound := by
  obtain ⟨within, canonical⟩ := idleCycle_keeps s
  refine ⟨canonical h.canonical, fun c hc => h.queue c ?_⟩
  rwa [← show (idleCycle s).pending = s.pending from within .pending rfl]

/-- A command keeps a sound state sound. -/
theorem exec_sound {c : Instr} {s t : State} (h : s.Sound) (ht : exec c s = .next t) : t.Sound := by
  obtain ⟨u, hu, keeps⟩ := exec_keeps c s
  obtain rfl : u = t := by rw [hu] at ht; cases ht; rfl
  exact ⟨keeps.canonical h.canonical, fun d hd => h.queue d (exec_pending ht ▸ hd)⟩

/-- Settles O57: a step is an idle cycle or the front command on the rest of the queue, and both keep a sound state sound. -/
theorem stepKeepsStateSound : Obligations.StepKeepsStateSound := by
  unfold Obligations.StepKeepsStateSound
  intro s t hs ht
  cases hq : s.pending with
  | nil =>
    rw [step_of_nil hq] at ht
    cases ht
    exact idleCycle_sound hs
  | cons c rest =>
    rw [step_of_cons hq] at ht
    have hrest : (s.withPending rest).Sound :=
      ⟨withPending_canonical rest hs.canonical, fun d hd => hs.queue d (hq ▸ List.mem_cons_of_mem c hd)⟩
    exact exec_sound hrest ht

end Sys2Proof.Machine
end

section
/-! SUPPORT. The job table, and bytes written to data SRAM. -/

namespace Sys2Proof.Machine

/-! ### Entries of the job table -/

theorem find?_sinsert {β : Type} (m : List (Nat × β)) (a b : Nat) (v : β) (h : ∀ e ∈ m, e.1 ≠ a) :
    (sinsert m a v).find? (fun x => x.1 == b) = if b = a then some (a, v) else m.find? (fun x => x.1 == b) := by
  induction m with
  | nil =>
    by_cases hb : b = a
    · simp [sinsert, hb]
    · simp [sinsert, hb, Ne.symm hb]
  | cons x t ih =>
    obtain ⟨k, w⟩ := x
    have hk : k ≠ a := h (k, w) (by simp)
    have iht := ih (fun e he => h e (by simp [he]))
    unfold sinsert
    split
    · by_cases hb : a = b
      · simp [hb]
      · simp [hb, Ne.symm hb]
    · by_cases hb : k = b
      · simp [hb, show b ≠ a from hb ▸ hk]
      · simp [hb, iht]

theorem find?_filter_ne {β : Type} (m : List (Nat × β)) {a b : Nat} (h : b ≠ a) :
    (m.filter (fun x => x.1 != a)).find? (fun x => x.1 == b) = m.find? (fun x => x.1 == b) := by
  rw [List.find?_filter]
  congr 1
  funext x
  by_cases hx : x.1 = b <;> simp [hx, h]

/-- An entry reads what it was set to; every other entry is unchanged. -/
theorem job_setJob (s : State) (e i : Nat) (v : Option Job) : (s.setJob e v).job i = if i = e then v else s.job i := by
  have hfree : ∀ x ∈ s.seq.jobs.filter (fun x => x.1 != e), x.1 ≠ e := fun x hx => by simpa using (List.mem_filter.mp hx).2
  cases v with
  | none =>
    by_cases hi : i = e
    · subst hi
      simp [State.job, State.setJob]
    · simp [State.job, State.setJob, hi, find?_filter_ne _ hi]
  | some j =>
    by_cases hi : i = e
    · simp [State.job, State.setJob, find?_sinsert _ _ _ _ hfree, hi]
    · simp [State.job, State.setJob, find?_sinsert _ _ _ _ hfree, hi, find?_filter_ne _ hi]

/-- What a job's entry holds once it has ended: the status until its handle is read, nothing for a detached job (R303, R305). -/
def Job.ended (j : Job) (st : Nat) : Option Job :=
  if j.detach then none else some { j with status := some st, started := true }

theorem endJob_eq {s : State} {e : Nat} {j : Job} (h : s.job e = some j) (st : Nat) : endJob e st s = s.setJob e (j.ended st) := by
  unfold endJob Job.ended
  simp only [h]
  split <;> rfl

/-! ### Bytes of data SRAM -/

theorem bytesAt_of_sram {s t : State} (h : t.sram = s.sram) (a k : Nat) : t.bytesAt a k = s.bytesAt a k := by
  simp [State.bytesAt, State.byteAt, h]

/-- Bytes put one after another from `a + k` on are read there; every other byte is unchanged. -/
theorem byteAt_putFrom (a : Nat) (l : List Byte) (k : Nat) (s : State) (b : Nat) :
    ((l.zipIdx k).foldl (fun s e => s.setByte (a + e.2) e.1) s).byteAt b =
      if a + k ≤ b ∧ b < a + k + l.length then l.getD (b - (a + k)) 0 else s.byteAt b := by
  induction l generalizing k s with
  | nil => simp
  | cons x t ih =>
    simp only [List.zipIdx_cons, List.foldl_cons, ih, byteAt_setByte, List.length_cons]
    rcases Nat.lt_trichotomy b (a + k) with hb | hb | hb
    · simp [show ¬ a + k ≤ b by omega, show ¬ a + (k + 1) ≤ b by omega, show b ≠ a + k by omega]
    · subst hb
      simp
    · have hd : b - (a + k) = b - (a + (k + 1)) + 1 := by omega
      simp only [hd, List.getD_cons_succ]
      simp [show b ≠ a + k by omega, show a + (k + 1) ≤ b by omega, show a + k ≤ b by omega]
      congr 1
      simp
      omega

theorem byteAt_putBytes (s : State) (a : Nat) (l : List Byte) (b : Nat) :
    (s.putBytes a l).byteAt b = if a ≤ b ∧ b < a + l.length then l.getD (b - a) 0 else s.byteAt b :=
  byteAt_putFrom a l 0 s b

/-- A range without marks holds no byte of a marked word. -/
theorem isMarked_of_anyMarked {s : State} {a k b : Nat} (h : s.anyMarked a k = false) (h1 : a ≤ b) (h2 : b < a + k) :
    s.isMarked b = false := by
  have hw := List.any_eq_false.mp h (b / 4 * 4)
  simp only [State.isMarked, List.contains_eq_mem, decide_eq_false_iff_not]
  intro hm
  exact hw hm (by simp; omega)

/-- Clearing marks leaves none where there was none. -/
theorem anyMarked_clearMarks {s : State} {b m : Nat} (a k : Nat) (h : s.anyMarked b m = false) :
    (clearMarks a k s).anyMarked b m = false :=
  List.any_eq_false.mpr fun w hw => List.any_eq_false.mp h w (List.mem_filter.mp hw).1

theorem foldl_unmarked (a : Nat) (z : List (Byte × Nat)) (s : State) (h : ∀ e ∈ z, s.isMarked (a + e.2) = false) :
    z.foldl (fun s e => if s.isMarked (a + e.2) then s else s.setByte (a + e.2) e.1) s =
      z.foldl (fun s e => s.setByte (a + e.2) e.1) s := by
  induction z generalizing s with
  | nil => rfl
  | cons e t ih =>
    simp only [List.foldl_cons, h e (by simp), Bool.false_eq_true, if_false]
    exact ih _ (fun x hx => h x (by simp [hx]))

/-- Into a range without marks every byte is written. -/
theorem writeBytes_unmarked {s : State} {a : Nat} {l : List Byte} (h : s.anyMarked a l.length = false) :
    writeBytes a l s = (clearMarks a l.length s).putBytes a l := by
  refine foldl_unmarked a _ _ (fun e he => ?_)
  have : e.2 < l.length := by simpa using List.snd_lt_of_mem_zipIdx he
  exact isMarked_of_anyMarked (anyMarked_clearMarks _ _ h) (by omega) (by omega)

theorem byteAt_writeBytes {s : State} {a : Nat} {l : List Byte} (h : s.anyMarked a l.length = false) (b : Nat) :
    (writeBytes a l s).byteAt b = if a ≤ b ∧ b < a + l.length then l.getD (b - a) 0 else s.byteAt b := by
  rw [writeBytes_unmarked h, byteAt_putBytes]
  rfl

/-- The range written reads the bytes written. -/
theorem bytesAt_writeBytes_same {s : State} {a : Nat} {l : List Byte} (h : s.anyMarked a l.length = false) :
    (writeBytes a l s).bytesAt a l.length = l := by
  refine List.ext_getElem (by simp [State.bytesAt]) (fun i h1 h2 => ?_)
  simp [State.bytesAt, byteAt_writeBytes h, h2]

theorem byteAt_writeBytes_out {s : State} {a b : Nat} {l : List Byte} (h : s.anyMarked a l.length = false)
    (hb : b < a ∨ a + l.length ≤ b) : (writeBytes a l s).byteAt b = s.byteAt b := by
  rw [byteAt_writeBytes h, if_neg (by omega)]

/-- A range apart from the one written reads as before. -/
theorem bytesAt_writeBytes_apart {s : State} {a b k : Nat} {l : List Byte} (h : s.anyMarked a l.length = false)
    (hb : b + k ≤ a ∨ a + l.length ≤ b) : (writeBytes a l s).bytesAt b k = s.bytesAt b k :=
  List.map_congr_left fun i hi => byteAt_writeBytes_out h (by have := List.mem_range.mp hi; omega)

theorem foldl_dma {α : Type} (f : State → α → State) (hf : ∀ s x, (f s x).dma = s.dma) (l : List α) (s : State) :
    (l.foldl f s).dma = s.dma := by
  induction l generalizing s with
  | nil => rfl
  | cons x t ih => rw [List.foldl_cons, ih, hf]

/-- Writing marks nothing. -/
theorem anyMarked_writeBytes {s : State} {b m : Nat} (a : Nat) (l : List Byte) (h : s.anyMarked b m = false) :
    (writeBytes a l s).anyMarked b m = false := by
  have hd : (writeBytes a l s).dma = (clearMarks a l.length s).dma :=
    foldl_dma _ (fun s e => by split <;> rfl) _ _
  have hc := anyMarked_clearMarks a l.length h
  unfold State.anyMarked at hc ⊢
  rwa [hd]

/-- A range without marks has none in its first bytes. -/
theorem anyMarked_prefix {s : State} {a k m : Nat} (h : s.anyMarked a k = false) (hm : m ≤ k) : s.anyMarked a m = false :=
  List.any_eq_false.mpr fun w hw hc => List.any_eq_false.mp h w hw (by simp at hc ⊢; omega)

theorem bytesBE_length (n v : Nat) : (bytesBE n v).length = n := by
  induction n with
  | zero => rfl
  | succ n ih => simp [bytesBE, ih]

end Sys2Proof.Machine
end

section
/-! SUPPORT. How the jobs of the engines, the hash unit and the lattice unit end (R21, R303 to R307, R357). -/

namespace Sys2Proof.Machine

/-! ### The end of a unit's job -/

/-- The job of entry `e` has ended in `t`, and its unit counts one occurrence of `code` (R303, R398): how every unit's job ends. -/
def unitJobEnd (code e st : Nat) (t : State) : State := perfCount 4 code (endJob e st t)

theorem unitJobEnd_aside (code e st : Nat) (t : State) : Aside (endJob e st t) (unitJobEnd code e st t) :=
  aside_perfCount _ _ _ (by decide)

/-- What the operation of a job has written to data SRAM stands. -/
@[simp] theorem unitJobEnd_sram (code e st : Nat) (t : State) : (unitJobEnd code e st t).sram = t.sram :=
  (unitJobEnd_aside code e st t).sram.trans ((endJob_keeps e st t).within .sram rfl)

@[simp] theorem unitJobEnd_trust (code e st : Nat) (t : State) : (unitJobEnd code e st t).trust = t.trust :=
  (unitJobEnd_aside code e st t).trust.trans ((endJob_keeps e st t).within .trust rfl)

@[simp] theorem unitJobEnd_byteAt (code e st : Nat) (t : State) (b : Nat) : (unitJobEnd code e st t).byteAt b = t.byteAt b := by
  simp [State.byteAt]

@[simp] theorem unitJobEnd_bytesAt (code e st : Nat) (t : State) (a k : Nat) : (unitJobEnd code e st t).bytesAt a k = t.bytesAt a k :=
  bytesAt_of_sram (unitJobEnd_sram code e st t) a k

/-- Entry `e` alone of the job table changes, to `v`; of the rest of the device only `parts` and what counting changes. -/
structure EndsJob (e : Nat) (v : Option Job) (parts : List Part) (s u : State) : Prop where
  entry : u.job e = v
  others : ∀ i, i ≠ e → u.job i = s.job i
  changes : Changes [] (.seq :: parts) s u

theorem Within.weaken_seq {parts : List Part} {s t : State} (h : Within [.seq] s t) : Within (records ++ .seq :: parts) s t :=
  fun p hp => h p (by cases p <;> first | rfl | simp [records] at hp)

/-- A job ends in a state that differs from `s` in `parts` alone, neither registers nor cores among them. -/
theorem unitJobEnd_endsJob {s t : State} {e : Nat} {j : Job} {parts : List Part} (code st : Nat) (hj : s.job e = some j)
    (hseq : t.seq = s.seq) (hregs : t.regs = s.regs) (hw : Within (records ++ .seq :: parts) s t) :
    EndsJob e (j.ended st) parts s (unitJobEnd code e st t) := by
  have hjob : ∀ i, t.job i = s.job i := fun i => by simp [State.job, hseq]
  have hu : ∀ i, (unitJobEnd code e st t).job i = if i = e then j.ended st else s.job i := fun i => by
    rw [← hjob, ← job_setJob, ← endJob_eq ((hjob e).trans hj)]
    simp [State.job, (unitJobEnd_aside code e st t).seq]
  have hend := (endJob_keeps e st t).within
  exact ⟨by simp [hu], fun i hi => by simp [hu, hi],
    ((changes_parts hregs hw).trans (changes_parts (hend .regs rfl) (hend.weaken_seq))).trans (unitJobEnd_aside code e st t).changes⟩

/-- The same where the operation has changed nothing. -/
theorem unitJobEnd_endsJob_same {s : State} {e : Nat} {j : Job} (code st : Nat) (hj : s.job e = some j) :
    EndsJob e (j.ended st) [] s (unitJobEnd code e st s) :=
  unitJobEnd_endsJob code st hj rfl rfl (within_refl _ s)

/-- The same where the operation has written bytes to data SRAM. -/
theorem unitJobEnd_endsJob_write {s : State} {e : Nat} {j : Job} (code st a : Nat) (l : List Byte) (hj : s.job e = some j) :
    EndsJob e (j.ended st) [.sram, .dma] s (unitJobEnd code e st (writeBytes a l s)) :=
  have h := (writeBytes_keeps a l s).within
  unitJobEnd_endsJob code st hj (h .seq rfl) (h .regs rfl) (h.mono rfl)

/-! ### Which job ends -/

def JobKind.isHash : JobKind → Bool
  | .hash _ => true
  | _ => false

def JobKind.isLattice : JobKind → Bool
  | .lattice _ _ => true
  | _ => false

/-- A queued engine job ends with OK. -/
theorem exec_engineJobEnd {s : State} {n : Fin 16384} {c p : Nat} {j : Job} (hj : s.job n = some j) (hs : j.status = none)
    (hk : j.kind = .engine c p) : exec (.engineJobEnd n) s = .next (unitJobEnd 0x0B n stOk s) := by
  show Host.Outcome.next (engineJobEnd n s) = _
  simp only [engineJobEnd, hj, hk, hs]
  rfl

/-- The hash unit's oldest request ends, with what its operation gives. -/
theorem exec_hashJobEnd {s t : State} {e req st : Nat} {j : Job} (h : s.oldestJob JobKind.isHash = some (e, j))
    (hk : j.kind = .hash req) (hr : hashJob req s = (t, st)) : exec .hashJobEnd s = .next (unitJobEnd 0x09 e st t) := by
  show Host.Outcome.next (hashJobEnd s) = _
  unfold hashJobEnd
  split
  · rename_i e' j' h'
    cases (h'.symm.trans h : some (e', j') = some (e, j))
    simp only [hk, hr]
    rfl
  · rename_i h'
    cases (h'.symm.trans h : none = some (e, j))

/-- The lattice unit's oldest request ends, with what its operation gives; a signature not found in 6 ms ends with FAULT (R357). -/
theorem exec_latticeJobEnd {s t : State} {e op req st : Nat} {j : Job} {failed : Bool}
    (h : s.oldestJob JobKind.isLattice = some (e, j)) (hk : j.kind = .lattice op req)
    (hr : (if op = 1 && failed then (s, stFault) else latticeJob op req s) = (t, st)) :
    exec (.latticeJobEnd false failed) s = .next (unitJobEnd 0x0A e st t) := by
  show Host.Outcome.next (latticeJobEnd failed s) = _
  unfold latticeJobEnd
  split
  · rename_i e' j' h'
    cases (h'.symm.trans h : some (e', j') = some (e, j))
    simp only [hk, hr]
    rfl
  · rename_i h'
    cases (h'.symm.trans h : none = some (e, j))

/-! ### What the units' operations give -/

theorem hashJob_ok {s : State} {req a n o : Nat} (ha : a = (s.wordAt req).toNat) (hn : n = (s.wordAt (req + 4)).toNat)
    (ho : o = (s.wordAt (req + 8)).toNat) (hreq : req + 12 ≤ 0x800000) (hm : s.anyMarked req 12 = false) (hin : a + n ≤ 0x800000)
    (hout : o + 64 ≤ 0x800000) (hmin : s.anyMarked a n = false) :
    hashJob req s = (writeBytes o (digestBytes (Config.sha3_512 (s.bytesAt a n))) s, stOk) := by
  simp [hashJob, inSram, sramSize, hreq, hm, ← ha, ← hn, ← ho, hin, hout, hmin]

/-- A request or one of its ranges outside data SRAM gives FAULT. -/
theorem hashJob_fault {s : State} {req a n o : Nat} (ha : a = (s.wordAt req).toNat) (hn : n = (s.wordAt (req + 4)).toNat)
    (ho : o = (s.wordAt (req + 8)).toNat) (h : 0x800000 < req + 12 ∨ 0x800000 < a + n ∨ 0x800000 < o + 64) :
    hashJob req s = (s, stFault) := by
  unfold hashJob
  simp only [← ha, ← hn, ← ho, inSram, sramSize]
  split
  · rfl
  · rename_i h1
    rw [if_pos]
    simp at h1 ⊢
    omega

/-- The next draw is taken and kept as the key pair of slot `k` (R307). -/
def State.keepDraw (s : State) (k : Nat) : State :=
  { s with trust := { s.trust with draws := s.trust.draws + 1, kem := s.trust.kem.filter (fun e => e.1 != k) ++ [(k, s.trust.draws)] } }

theorem State.keepDraw_within (s : State) (k : Nat) : Within [.trust] s (s.keepDraw k) :=
  (Keeps.upd_trust rfl (Keeps.refl _ s)).within

/-- The slot now holds the draw, whatever it held before. -/
theorem State.keepDraw_find (s : State) (k : Nat) : (s.keepDraw k).trust.kem.find? (fun e => e.1 == k) = some (k, s.trust.draws) := by
  have hold : (s.trust.kem.filter (fun e => e.1 != k)).find? (fun e => e.1 == k) = none :=
    List.find?_eq_none.mpr fun e he => by simpa using (List.mem_filter.mp he).2
  simp [State.keepDraw, List.find?_append, hold]

section Lattice

variable {s : State} {req : Nat} {w : Nat → Nat} (hw : w = fun k => (s.wordAt (req + 4 * k)).toNat) (hreq : req + 20 ≤ 0x800000)
  (hm : s.anyMarked req 20 = false)

include hw hreq hm

theorem latticeJob_verify (h0 : w 0 + 2592 ≤ 0x800000) (h1 : w 1 + w 2 ≤ 0x800000) (h3 : w 3 + 4627 ≤ 0x800000) :
    latticeJob 0 req s = (s, if Config.mldsaVerify (s.bytesAt (w 0) 2592) (s.bytesAt (w 1) (w 2)) (s.bytesAt (w 3) 4627)
      then stOk else stVerifyFail) := by
  unfold latticeJob
  rw [← hw]
  simp only [inSram, sramSize, hreq, hm, h0, h1, h3, decide_true, Bool.not_true, Bool.or_self, Bool.false_eq_true, if_false]
  split <;> rfl

theorem latticeJob_sign (hid : s.idOk = true) (h1 : w 1 + w 2 ≤ 0x800000) (h3 : w 3 + 4627 ≤ 0x800000) :
    latticeJob 1 req s = (writeBytes (w 3) ((Config.mldsaSign s.signCount (s.bytesAt (w 1) (w 2))).take 4627)
      (s.withSignCount (s.signCount + 1)), stOk) := by
  unfold latticeJob
  rw [← hw]
  simp [inSram, sramSize, hreq, hm, hid, h1, h3]

theorem latticeJob_encapsulate (h0 : w 0 + 1568 ≤ 0x800000) (h3 : w 3 + 1568 ≤ 0x800000) (h4 : w 4 + 32 ≤ 0x800000) :
    latticeJob 2 req s = (writeBytes (w 4) (bytesBE 32 (Config.mlkemShared s.trust.draws (s.bytesAt (w 0) 1568)).toNat)
      (writeBytes (w 3) ((Config.mlkemCipher s.trust.draws (s.bytesAt (w 0) 1568)).take 1568) s.fresh.2), stOk) := by
  unfold latticeJob
  rw [← hw]
  simp [inSram, sramSize, hreq, hm, h0, h3, h4, State.fresh]

theorem latticeJob_decapsulate {k d : Nat} (hk : s.trust.kem.find? (fun p => p.1 == w 0) = some (k, d)) (h1 : w 1 + 1568 ≤ 0x800000)
    (h4 : w 4 + 32 ≤ 0x800000) : latticeJob 3 req s =
      (writeBytes (w 4) (bytesBE 32 (Config.mlkemDecapsulate (Config.mlkemSecret d) (s.bytesAt (w 1) 1568)).toNat) s, stOk) := by
  unfold latticeJob
  rw [← hw]
  simp [inSram, sramSize, hreq, hm, hk, h1, h4]

theorem latticeJob_keygen (h3 : w 3 + 1568 ≤ 0x800000) :
    latticeJob 4 req s = (writeBytes (w 3) ((Config.mlkemPublic s.trust.draws).take 1568) (s.keepDraw (w 0)), stOk) := by
  unfold latticeJob
  rw [← hw]
  simp [inSram, sramSize, hreq, hm, h3, State.fresh, State.keepDraw]

omit hw in
theorem latticeJob_unknown {op : Nat} (hop : 5 ≤ op) : latticeJob op req s = (s, stFault) := by
  obtain ⟨k, rfl⟩ : ∃ k, op = k + 5 := ⟨op - 5, by omega⟩
  simp [latticeJob, inSram, sramSize, hreq, hm]

end Lattice
end Sys2Proof.Machine
end

section
/-! The statement on the ends of units' jobs. -/

namespace Sys2Proof.Machine

/-! ### How the units' jobs end -/

theorem hashJobEnd_writes_digest {s : State} {e req a n o : Nat} {j : Job} (hj : s.job e = some j)
    (hold : s.oldestJob JobKind.isHash = some (e, j)) (hk : j.kind = .hash req) (ha : a = (s.wordAt req).toNat)
    (hn : n = (s.wordAt (req + 4)).toNat) (ho : o = (s.wordAt (req + 8)).toNat) (hreq : req + 12 ≤ 0x800000)
    (hm : s.anyMarked req 12 = false) (hin : a + n ≤ 0x800000) (hout : o + 64 ≤ 0x800000) (hmin : s.anyMarked a n = false)
    (hmout : s.anyMarked o 64 = false) :
    ∃ u, exec .hashJobEnd s = .next u ∧ u.bytesAt o 64 = digestBytes (Config.sha3_512 (s.bytesAt a n)) ∧
      (∀ b, b < o ∨ o + 64 ≤ b → u.byteAt b = s.byteAt b) ∧ EndsJob e (j.ended stOk) [.sram, .dma] s u := by
  have hl : (digestBytes (Config.sha3_512 (s.bytesAt a n))).length = 64 := bytesBE_length _ _
  have hrun := exec_hashJobEnd hold hk (hashJob_ok ha hn ho hreq hm hin hout hmin)
  generalize digestBytes (Config.sha3_512 (s.bytesAt a n)) = l at hl hrun
  rw [← hl] at hmout ⊢
  exact ⟨_, hrun, by rw [unitJobEnd_bytesAt, bytesAt_writeBytes_same hmout],
    fun b hb => by rw [unitJobEnd_byteAt, byteAt_writeBytes_out hmout hb], unitJobEnd_endsJob_write _ _ _ _ hj⟩

section Lattice

variable {s : State} {e op req : Nat} {j : Job} {failed : Bool} {w : Nat → Nat} (hj : s.job e = some j)
  (hold : s.oldestJob JobKind.isLattice = some (e, j)) (hk : j.kind = .lattice op req) (hreq : req + 20 ≤ 0x800000)
  (hm : s.anyMarked req 20 = false) (hw : w = fun k => (s.wordAt (req + 4 * k)).toNat)

include hj hold hk in
/-- An operation that changes nothing leaves its status in the entry. -/
theorem latticeJobEnd_unchanged {st : Nat} (hr : (if op = 1 && failed then (s, stFault) else latticeJob op req s) = (s, st)) :
    ∃ u, exec (.latticeJobEnd false failed) s = .next u ∧ EndsJob e (j.ended st) [] s u :=
  ⟨_, exec_latticeJobEnd hold hk hr, unitJobEnd_endsJob_same _ _ hj⟩

include hj hold hk hreq hm hw

/-- A signature that was found is written whole (R307). -/
theorem latticeJobEnd_writes_signature (hop : op = 1) (hf : failed = false) (hid : s.idOk = true) (h1 : w 1 + w 2 ≤ 0x800000)
    (h3 : w 3 + 4627 ≤ 0x800000) (hm3 : s.anyMarked (w 3) 4627 = false) {sig : List Byte}
    (hsig : sig = (Config.mldsaSign s.signCount (s.bytesAt (w 1) (w 2))).take 4627) :
    ∃ u, exec (.latticeJobEnd false failed) s = .next u ∧ EndsJob e (j.ended stOk) [.sram, .dma, .signCount] s u ∧
      u.bytesAt (w 3) sig.length = sig ∧ ∀ b, b < w 3 ∨ w 3 + sig.length ≤ b → u.byteAt b = s.byteAt b := by
  subst hop hf
  have hmark : (s.withSignCount (s.signCount + 1)).anyMarked (w 3) sig.length = false :=
    anyMarked_prefix (s := s.withSignCount (s.signCount + 1)) hm3 (by rw [hsig, List.length_take]; omega)
  have hcount := (State.withSignCount_keeps s (s.signCount + 1)).within
  have hwrite := (writeBytes_keeps (w 3) sig (s.withSignCount (s.signCount + 1))).within
  exact ⟨_, exec_latticeJobEnd hold hk (hsig ▸ latticeJob_sign hw hreq hm hid h1 h3),
    unitJobEnd_endsJob _ _ hj (hwrite .seq rfl) (hwrite .regs rfl) ((hcount.mono rfl).trans (hwrite.mono rfl)),
    by rw [unitJobEnd_bytesAt, bytesAt_writeBytes_same hmark],
    fun b hb => (unitJobEnd_byteAt _ _ _ _ b).trans (byteAt_writeBytes_out hmark hb)⟩

/-- An encapsulation takes one draw and writes ciphertext and shared secret (R307). -/
theorem latticeJobEnd_encapsulates (hop : op = 2) (h0 : w 0 + 1568 ≤ 0x800000) (h3 : w 3 + 1568 ≤ 0x800000) (h4 : w 4 + 32 ≤ 0x800000)
    (hapart : w 3 + 1568 ≤ w 4 ∨ w 4 + 32 ≤ w 3) (hm3 : s.anyMarked (w 3) 1568 = false) (hm4 : s.anyMarked (w 4) 32 = false)
    {y : List Byte} (hy : y = (Config.mlkemCipher s.trust.draws (s.bytesAt (w 0) 1568)).take 1568) :
    ∃ u, exec (.latticeJobEnd false failed) s = .next u ∧ EndsJob e (j.ended stOk) [.sram, .dma, .trust] s u ∧
      u.bytesAt (w 3) y.length = y ∧
      u.bytesAt (w 4) 32 = bytesBE 32 (Config.mlkemShared s.trust.draws (s.bytesAt (w 0) 1568)).toNat ∧
      u.trust.draws = s.trust.draws + 1 := by
  subst hop
  have hrun := exec_latticeJobEnd hold hk (failed := failed) (latticeJob_encapsulate hw hreq hm h0 h3 h4)
  rw [← hy] at hrun
  have hylen : y.length ≤ 1568 := by rw [hy, List.length_take]; omega
  have hslen := bytesBE_length 32 (Config.mlkemShared s.trust.draws (s.bytesAt (w 0) 1568)).toNat
  generalize bytesBE 32 (Config.mlkemShared s.trust.draws (s.bytesAt (w 0) 1568)).toNat = l at hrun hslen
  have hmy : s.fresh.2.anyMarked (w 3) y.length = false := anyMarked_prefix (s := s.fresh.2) hm3 hylen
  have hml : (writeBytes (w 3) y s.fresh.2).anyMarked (w 4) l.length = false :=
    anyMarked_writeBytes (s := s.fresh.2) _ _ (hslen ▸ hm4)
  have hdraw := (State.fresh_keeps s).within
  have hfirst := (writeBytes_keeps (w 3) y s.fresh.2).within
  have hsecond := (writeBytes_keeps (w 4) l (writeBytes (w 3) y s.fresh.2)).within
  refine ⟨_, hrun, unitJobEnd_endsJob _ _ hj ((hsecond .seq rfl).trans (hfirst .seq rfl)) ((hsecond .regs rfl).trans (hfirst .regs rfl))
    ((hdraw.mono rfl).trans ((hfirst.mono rfl).trans (hsecond.mono rfl))), ?_, ?_, ?_⟩
  · rw [unitJobEnd_bytesAt, bytesAt_writeBytes_apart hml (by omega), bytesAt_writeBytes_same hmy]
  · rw [unitJobEnd_bytesAt, ← hslen, bytesAt_writeBytes_same hml]
  · rw [unitJobEnd_trust, hsecond .trust rfl, hfirst .trust rfl]
    rfl

/-- A decapsulation writes the shared secret (R307). -/
theorem latticeJobEnd_decapsulates {k d : Nat} (hop : op = 3) (hkey : s.trust.kem.find? (fun p => p.1 == w 0) = some (k, d))
    (h1 : w 1 + 1568 ≤ 0x800000) (h4 : w 4 + 32 ≤ 0x800000) (hm4 : s.anyMarked (w 4) 32 = false) :
    ∃ u, exec (.latticeJobEnd false failed) s = .next u ∧ EndsJob e (j.ended stOk) [.sram, .dma] s u ∧
      u.bytesAt (w 4) 32 = bytesBE 32 (Config.mlkemDecapsulate (Config.mlkemSecret d) (s.bytesAt (w 1) 1568)).toNat := by
  subst hop
  have hrun := exec_latticeJobEnd hold hk (failed := failed) (latticeJob_decapsulate hw hreq hm hkey h1 h4)
  have hlen := bytesBE_length 32 (Config.mlkemDecapsulate (Config.mlkemSecret d) (s.bytesAt (w 1) 1568)).toNat
  generalize bytesBE 32 (Config.mlkemDecapsulate (Config.mlkemSecret d) (s.bytesAt (w 1) 1568)).toNat = l at hrun hlen
  exact ⟨_, hrun, unitJobEnd_endsJob_write _ _ _ _ hj,
    by rw [unitJobEnd_bytesAt, ← hlen, bytesAt_writeBytes_same (hlen ▸ hm4)]⟩

/-- A key generation keeps its draw under the slot and writes the public key (R307). -/
theorem latticeJobEnd_generates (hop : op = 4) (h3 : w 3 + 1568 ≤ 0x800000) (hm3 : s.anyMarked (w 3) 1568 = false) {y : List Byte}
    (hy : y = (Config.mlkemPublic s.trust.draws).take 1568) :
    ∃ u, exec (.latticeJobEnd false failed) s = .next u ∧ EndsJob e (j.ended stOk) [.sram, .dma, .trust] s u ∧
      u.bytesAt (w 3) y.length = y ∧ u.trust.kem.find? (fun p => p.1 == w 0) = some (w 0, s.trust.draws) := by
  subst hop
  have hrun := exec_latticeJobEnd hold hk (failed := failed) (latticeJob_keygen hw hreq hm h3)
  rw [← hy] at hrun
  have hylen : y.length ≤ 1568 := by rw [hy, List.length_take]; omega
  have hmy : (s.keepDraw (w 0)).anyMarked (w 3) y.length = false := anyMarked_prefix (s := s.keepDraw (w 0)) hm3 hylen
  have hdraw := s.keepDraw_within (w 0)
  have hwrite := (writeBytes_keeps (w 3) y (s.keepDraw (w 0))).within
  refine ⟨_, hrun, unitJobEnd_endsJob _ _ hj (hwrite .seq rfl) (hwrite .regs rfl) ((hdraw.mono rfl).trans (hwrite.mono rfl)), ?_, ?_⟩
  · rw [unitJobEnd_bytesAt, bytesAt_writeBytes_same hmy]
  · rw [unitJobEnd_trust, hwrite .trust rfl, s.keepDraw_find (w 0)]

end Lattice

/-- Settles O40: the oldest job of a unit takes what its operation gives to its entry, and every range written reads the bytes
written. -/
theorem unitJobsEndInOrder : Obligations.UnitJobsEndInOrder := by
  unfold Obligations.UnitJobsEndInOrder
  intro s e j hj hs ended hended
  subst hended
  refine ⟨?engine, ?hash, ?lattice⟩
  case engine =>
    rintro n c p rfl hk
    obtain ⟨entry, others, changes⟩ := unitJobEnd_endsJob_same 0x0B stOk hj
    exact ⟨_, exec_engineJobEnd hj hs hk, entry, others, changes⟩
  case hash =>
    intro req a n o hold hk ha hn ho
    refine ⟨fun hreq hm hin hout hmin hmout => ?_, fun hout => ?_⟩
    · obtain ⟨u, hu, digest, rest, entry, others, changes⟩ :=
        hashJobEnd_writes_digest hj hold hk ha hn ho hreq hm hin hout hmin hmout
      exact ⟨u, hu, digest, rest, entry, others, changes⟩
    · obtain ⟨entry, others, changes⟩ := unitJobEnd_endsJob_same 0x09 stFault hj
      exact ⟨_, exec_hashJobEnd hold hk (hashJob_fault ha hn ho (hout.imp_right And.right)), entry, others, changes⟩
  case lattice =>
    intro op req failed w hold hk hreq hm hw
    refine ⟨?verify, ?sign, ?encapsulate, ?decapsulate, ?keygen, ?unknown⟩
    case verify =>
      rintro rfl h0 h1 h3
      obtain ⟨u, hu, entry, others, changes⟩ :=
        latticeJobEnd_unchanged (failed := failed) hj hold hk (latticeJob_verify hw hreq hm h0 h1 h3)
      exact ⟨u, hu, entry, others, changes⟩
    case sign =>
      intro hop hid h1 h3 hm3
      refine ⟨fun hf => ?_, fun hf sig hsig => ?_⟩
      · obtain ⟨u, hu, entry, -, changes⟩ := latticeJobEnd_unchanged hj hold hk (failed := failed) (by rw [if_pos (by simp [hop, hf])])
        exact ⟨u, hu, entry, changes⟩
      · obtain ⟨u, hu, ⟨entry, -, changes⟩, bytes, rest⟩ :=
          latticeJobEnd_writes_signature hj hold hk hreq hm hw hop hf hid h1 h3 hm3 hsig
        exact ⟨u, hu, entry, bytes, rest, changes⟩
    case encapsulate =>
      rintro hop h0 h3 h4 hapart hm3 hm4 x y rfl hy
      obtain ⟨u, hu, ⟨entry, -, changes⟩, cipher, secret, draws⟩ :=
        latticeJobEnd_encapsulates (failed := failed) hj hold hk hreq hm hw hop h0 h3 h4 hapart hm3 hm4 hy
      exact ⟨u, hu, entry, cipher, secret, draws, changes⟩
    case decapsulate =>
      intro hop k d hkey h1 h4 hm4
      obtain ⟨u, hu, ⟨entry, -, changes⟩, secret⟩ :=
        latticeJobEnd_decapsulates (failed := failed) hj hold hk hreq hm hw hop hkey h1 h4 hm4
      exact ⟨u, hu, entry, secret, changes⟩
    case keygen =>
      intro hop h3 hm3 y hy
      obtain ⟨u, hu, ⟨entry, -, changes⟩, key, slot⟩ :=
        latticeJobEnd_generates (failed := failed) hj hold hk hreq hm hw hop h3 hm3 hy
      exact ⟨u, hu, entry, key, slot, changes⟩
    case unknown =>
      intro hop
      obtain ⟨u, hu, entry, -, changes⟩ := latticeJobEnd_unchanged hj hold hk (failed := failed)
        (by rw [latticeJob_unknown hreq hm hop, if_neg (by simp; omega)])
      exact ⟨u, hu, entry, changes⟩

end Sys2Proof.Machine
end

section
/-! SUPPORT. What counting, events, records and the boundaries leave of PERF.CYCLE and of the AUDIT records. -/

namespace Sys2Proof.Machine

/-! ### What counting, events, and ALARM and TRACE records leave alone -/

/-- PERF.CYCLE and the AUDIT records are as they were: whatever is counted, raised or recorded in another class leaves them. -/
structure Steady (s t : State) : Prop where
  cycle : t.perf.cycle = s.perf.cycle
  audit : t.logs.audit = s.logs.audit

theorem Steady.refl (s : State) : Steady s s := ⟨rfl, rfl⟩

theorem Steady.trans {a b c : State} (h : Steady a b) (k : Steady b c) : Steady a c :=
  ⟨k.cycle.trans h.cycle, k.audit.trans h.audit⟩

/-- `trans` with the last part first: the state between is read off it. -/
theorem Steady.step {a b c : State} (k : Steady b c) (h : Steady a b) : Steady a c := h.trans k

/-- What touches neither the counters nor the logs. -/
theorem Keeps.steady {l : List Part} {s t : State} (h : Keeps l s t) (hp : l.contains .perf = false) (hl : l.contains .logs = false) :
    Steady s t :=
  ⟨congrArg Perf.cycle (h.within .perf hp), congrArg Logs.audit (h.within .logs hl)⟩

theorem Steady.foldl {α : Type} {f : State → α → State} (l : List α) (s : State) (h : ∀ s, ∀ x ∈ l, Steady s (f s x)) :
    Steady s (l.foldl f s) := by
  induction l generalizing s with
  | nil => exact Steady.refl s
  | cons x t ih => exact (h s x (by simp)).trans (ih _ (fun s y hy => h s y (by simp [hy])))

theorem Steady.foldl_flag {f : State × Bool → Nat → State × Bool} (l : List Nat) (r : State × Bool)
    (h : ∀ r i, Steady r.1 (f r i).1) : Steady r.1 (l.foldl f r).1 := by
  induction l generalizing r with
  | nil => exact Steady.refl _
  | cons x t ih => exact (h r x).trans (ih _)

theorem setPendCore_steady (e : Nat) (s : State) : Steady s (setPendCore e s).1 := (setPendCore_keeps e s).steady rfl rfl

theorem bumpGroup_steady (g code : Nat) (s : State) : Steady s (bumpGroup g code s).1 := by
  refine Steady.trans (b := ((List.range 8).foldl _ (s, false)).1) (Steady.foldl_flag _ (s, false) (fun r i => ?_)) ⟨rfl, rfl⟩
  dsimp only
  split
  · exact (bumpCounter_keeps _ _).steady rfl rfl
  · exact Steady.refl _

theorem perfCount_steady (g code : Nat) (s : State) : Steady s (perfCount g code s) := by
  have hcount := bumpGroup_steady g code s
  have hraise := hcount.trans (setPendCore_steady 248 (bumpGroup g code s).1)
  unfold perfCount
  dsimp only
  split
  · split
    · exact hraise.trans (bumpGroup_steady _ _ _)
    · exact hraise
  · exact hcount

theorem setPend_steady (e : Nat) (s : State) : Steady s (setPend e s) := by
  unfold setPend
  dsimp only
  split
  · exact (setPendCore_steady e s).trans (perfCount_steady _ _ _)
  · exact setPendCore_steady e s

theorem setWord_steady (s : State) (a : Nat) (w : Word) : Steady s (s.setWord a w) := ⟨rfl, rfl⟩

theorem wr_steady (s : State) (f : Field) (v : Nat) : Steady s (s.wr f v) := ⟨rfl, rfl⟩

theorem orWord_steady (s : State) (a : Nat) (w : Word) : Steady s (s.orWord a w) := ⟨rfl, rfl⟩

theorem openAlarm_steady (h : HeldAlarm) (s : State) : Steady s (openAlarm h s) := by
  unfold openAlarm
  exact Steady.step (setPend_steady 219 _) (Steady.step (orWord_steady _ _ _) (Steady.step (perfCount_steady 4 0x0D _) ⟨rfl, rfl⟩))

theorem noteAlarm_steady (x : Nat) (o : Bool) (s : State) : Steady s (noteAlarm x o s) := ⟨rfl, rfl⟩

theorem alarm_steady (source typ : Nat) (detail : Word) (s : State) : Steady s (alarm source typ detail s) := by
  have hjoin : ∀ l h, Steady s (noteAlarm source false { s with logs := { s.logs with alarm := l, heldAlarm := h } }) :=
    fun _ _ => ⟨rfl, rfl⟩
  unfold alarm
  dsimp only
  split
  · exact hjoin _ _
  · split
    · exact (openAlarm_steady _ s).trans (noteAlarm_steady _ _ _)
    · split
      · exact hjoin _ _
      · split <;> exact hjoin _ _

theorem putTrace_steady (typ source time : Nat) (body : List Byte) (s : State) : Steady s (putTrace typ source time body s) := by
  unfold putTrace
  exact Steady.step (perfCount_steady 4 0x0D _) ⟨rfl, rfl⟩

theorem gapMarker_steady (s : State) : Steady s (gapMarker s) := by
  unfold gapMarker
  split
  · split
    · exact (putTrace_steady _ _ _ _ s).trans ⟨rfl, rfl⟩
    · exact Steady.refl s
  · exact Steady.refl s

theorem trace_steady (typ source : Nat) (body : List Byte) (s : State) : Steady s (trace typ source body s) := by
  have hdrop : ∀ t, Steady s t →
      Steady s (perfCount 4 0x0E ((t.addSat LOG.TRACE_DROP.count 1).wr LOG.STATUS.trace_dropping 1)) :=
    fun t h => Steady.step (perfCount_steady 4 0x0E _) (Steady.step (wr_steady _ _ _) (Steady.step (wr_steady _ _ _) h))
  have hgap := gapMarker_steady s
  unfold trace
  dsimp only
  split
  · exact hgap.trans (putTrace_steady _ _ _ _ _)
  · split
    · exact Steady.step (setPend_steady 220 _) (Steady.step (orWord_steady _ _ _) (hdrop _ (hgap.trans ⟨rfl, rfl⟩)))
    · exact hdrop _ (hgap.trans ⟨rfl, rfl⟩)

theorem mapped_steady (e typ : Nat) (detail : Word) (s : State) : Steady s (mapped e typ detail s) := by
  have htrace : ∀ p : Prop, [Decidable p] → Steady s (if p then trace 2 e (mappedBody detail) s else s) := by
    intro p _
    split
    · exact trace_steady _ _ _ s
    · exact Steady.refl s
  unfold mapped
  dsimp only
  split
  · exact Steady.refl s
  · split
    · exact (htrace _).trans (alarm_steady _ _ _ _)
    · exact htrace _

theorem plainEvent_steady (e : Nat) (detail : Word) (s : State) : Steady s (plainEvent e detail s) :=
  (setPend_steady e s).trans (mapped_steady _ _ _ _)

/-- An occurrence with a cause bit. -/
theorem causeEvent_steady (a b e : Nat) (s : State) : Steady s (causeEvent a b e s) := by
  unfold causeEvent
  exact Steady.step (mapped_steady _ _ _ _) (Steady.step (setPend_steady e _) (orWord_steady _ _ _))

/-! ### What a slot boundary leaves alone -/

theorem takeException_steady (k cause pc : Nat) (val : Word) (s : State) : Steady s (takeException k cause pc val s) := by
  unfold takeException
  dsimp only
  generalize habandoned : abandonJobs _ _ = t
  have ht : Steady s t := by
    rw [← habandoned]
    exact Steady.step ((abandonJobs_keeps _ _).steady rfl rfl) (Steady.step ((State.modCtx_keeps _ _ _).steady rfl rfl)
      (Steady.step (setWord_steady _ _ _) (setWord_steady _ _ _)))
  refine Steady.step (plainEvent_steady _ _ _) (Steady.step (perfCount_steady _ _ _) ?_)
  exact Steady.step ((refreshCore_keeps _ _).steady rfl rfl)
    (Steady.step ((refreshPool_keeps _).steady rfl rfl) ⟨ht.cycle, ht.audit⟩)

theorem endSlot_steady (c : Nat) (s : State) : Steady s (endSlot c s) := by
  unfold endSlot
  split
  · exact Steady.refl s
  · split
    · exact Steady.refl s
    · split
      · exact Steady.refl s
      · dsimp only
        split
        · exact takeException_steady _ _ _ _ s
        · split
          · exact Steady.step (causeEvent_steady _ _ _ _) ((State.modWheel_keeps _ _).steady rfl rfl)
          · exact (State.modWheel_keeps _ _).steady rfl rfl

theorem endSlots_steady (s : State) : Steady s (endSlots s) := Steady.foldl _ s fun s c _ => endSlot_steady c s

theorem frameFailed_steady (n reason : Nat) (f : TxFrame) (s : State) : Steady s (frameFailed n reason f s) := by
  have hfail : Steady s (ssEvent 0 ((s.wr (SS.PORT_STATUS.last_fail.nth n) reason).addSat (SS.PORT_CNT_TX_FAIL.count.nth n) 1)) :=
    Steady.step (causeEvent_steady _ _ _ _) (Steady.step (wr_steady _ _ _) (wr_steady _ _ _))
  unfold frameFailed
  dsimp only
  split
  · exact hfail
  · split
    · exact Steady.step ((errorReport_keeps _ _ _ _ _).steady rfl rfl) hfail
    · split
      · exact Steady.step (causeEvent_steady _ _ _ _) hfail
      · exact hfail

theorem enqueueFrame_steady (n : Nat) (f : SsFrame) (s : State) : Steady s (enqueueFrame n f s) := by
  unfold enqueueFrame
  dsimp only
  split
  · exact frameFailed_steady _ _ _ _
  · split
    · exact frameFailed_steady _ _ _ _
    · exact Steady.step ((syncModem_keeps _ _).steady rfl rfl) ((State.modModem_keeps _ _ _).steady rfl rfl)

theorem sendBeacon_steady (n power : Nat) (s : State) : Steady s (sendBeacon n power s) := by
  unfold sendBeacon
  dsimp only
  split
  · exact Steady.step (enqueueFrame_steady _ _ _)
      (Steady.step ((State.modModem_keeps _ _ _).steady rfl rfl) ((nextMsgId_keeps s).steady rfl rfl))
  · exact Steady.refl s

theorem modPower_steady (s : State) (f : Power → Power) : Steady s (s.modPower f) := ⟨rfl, rfl⟩

theorem askBlocks_steady (target : Nat) (s : State) : Steady s (askBlocks target s) := by
  unfold askBlocks
  split
  · exact Steady.step (causeEvent_steady _ _ _ _)
      (Steady.step (wr_steady _ _ _) (Steady.step ((endRequest_keeps _ _).steady rfl rfl) (modPower_steady _ _)))
  · exact modPower_steady _ _

theorem startRequest_steady (target src : Nat) (s : State) : Steady s (startRequest target src s) := by
  unfold startRequest
  dsimp only
  generalize hw : s.wrs _ = t
  have ht : Steady s t := hw ▸ (State.wrs_keeps s _).steady rfl rfl
  refine ht.trans ?_
  split
  · exact (endRequest_keeps _ _).steady rfl rfl
  · split
    · split
      · exact modPower_steady _ _
      · exact askBlocks_steady _ _
    · split
      · exact Steady.step ((oscStart_keeps _).steady rfl rfl)
          (Steady.step (Steady.foldl _ _ fun s n _ => sendBeacon_steady n 3 s) (modPower_steady _ _))
      · have hask : Steady t (askWake 6 (endRequest prOk t)) :=
          Steady.step ((askWake_keeps 6 _).steady rfl rfl) ((endRequest_keeps _ _).steady rfl rfl)
        split
        · exact hask
        · exact Steady.step ((State.wrs_keeps _ _).steady rfl rfl) (Steady.step (modPower_steady _ _) hask)

theorem startPending_steady (s : State) : Steady s (startPending s) := by
  unfold startPending
  split
  · exact Steady.step (startRequest_steady _ _ _) ((State.wrs_keeps _ _).steady rfl rfl)
  · exact Steady.refl s

theorem slotPower_steady (s : State) : Steady s (slotPower s) := by
  unfold slotPower
  split
  · exact Steady.step (startPending_steady _) (Steady.step ((endRequest_keeps _ _).steady rfl rfl) (wr_steady _ _ _))
  · exact Steady.refl s

theorem beginSlot_steady (s : State) : Steady s (beginSlot s) := by
  unfold beginSlot
  refine Steady.step (slotPower_steady _) (Steady.step (Steady.foldl _ _ fun s n _ => (sendTripBlock_keeps n s).steady rfl rfl) ?_)
  refine Steady.step ((takeSnaps_keeps _).steady rfl rfl) (Steady.step ((ctxCopy_keeps _).steady rfl rfl) ?_)
  exact Steady.foldl _ _ fun s c _ => (enterSlot_keeps c s).steady rfl rfl

end Sys2Proof.Machine
end

section
/-! SUPPORT. What leaves the power request in progress alone (R411, R413). -/

namespace Sys2Proof.Machine

/-! ### What leaves the request in progress alone -/

/-- PWR.REQ_STATUS reads as before from bit 16 on: target, result and block of the request in progress, and the pending one (R411). -/
def RequestKept (s t : State) : Prop := ∀ f : Field, f.addr = PWR.REQ_STATUS → 16 ≤ f.lsb → t.rd f = s.rd f

theorem RequestKept.refl (s : State) : RequestKept s s := fun _ _ _ => rfl

/-- Transitivity with the last part first: the state between is read off it. -/
theorem RequestKept.step {a b c : State} (k : RequestKept b c) (h : RequestKept a b) : RequestKept a c :=
  fun f hf hl => (k f hf hl).trans (h f hf hl)

theorem RequestKept.foldl {α : Type} {f : State → α → State} (l : List α) (s : State)
    (h : ∀ s, ∀ x ∈ l, RequestKept s (f s x)) : RequestKept s (l.foldl f s) := by
  induction l generalizing s with
  | nil => exact RequestKept.refl s
  | cons x t ih => exact (ih _ fun s y hy => h s y (by simp [hy])).step (h s x (by simp))

/-- What writes no register. -/
theorem Keeps.requestKept {l : List Part} {s t : State} (h : Keeps l s t) (hr : l.contains .regs = false) : RequestKept s t :=
  fun f _ _ => by
    have e : t.regs = s.regs := h.within .regs hr
    simp [State.rd, State.word, e]

/-- A state with the same register file. -/
theorem RequestKept.congr {s t u : State} (h : RequestKept s t) (e : u.regs = t.regs) : RequestKept s u :=
  fun f hf hl => by
    have hu : u.rd f = t.rd f := by simp [State.rd, State.word, e]
    rw [hu, h f hf hl]

/-- Counting, events and records. -/
theorem Aside.requestKept {s t : State} (h : Aside s t) : RequestKept s t :=
  fun f hf _ => h.rd f (hf ▸ by decide)

theorem setWord_requestKept {s : State} {a : Nat} {w : Word} (h : a ≠ PWR.REQ_STATUS) : RequestKept s (s.setWord a w) :=
  fun f hf _ => by simp [State.rd, word_setWord, hf, Ne.symm h]

/-- Writing a field of another register, or one below bit 16. -/
theorem wr_requestKept {s : State} {g : Field} {v : Nat} (h : g.addr ≠ PWR.REQ_STATUS ∨ g.lsb + g.width ≤ 16) :
    RequestKept s (s.wr g v) := by
  intro f hf hl
  rcases h with h | h
  · exact rd_wr_addr s g f v (by rw [hf]; exact h.symm)
  · exact rd_wr_apart s g f v (by omega) (.inr (by omega))

/-- Writing two fields of other registers. -/
theorem wrs_requestKept {s : State} {f g : Field} {v w : Nat} (hf : f.addr ≠ PWR.REQ_STATUS) (hg : g.addr ≠ PWR.REQ_STATUS) :
    RequestKept s (s.wrs [(f, v), (g, w)]) := (wr_requestKept (.inl hg)).step (wr_requestKept (.inl hf))

/-- A block's state and rate stand below bit 16 of their word, wherever a descriptor's number puts it. -/
theorem refreshBlock_requestKept (s : State) (e : Nat × Word) : RequestKept s (refreshBlock s e) := by
  have hcleared : RequestKept s (if (s.blockTarget e.1 e.2 == 1 || s.blockTarget e.1 e.2 == 2) && descKind e.2 == 0 &&
      s.rd (JUG.BLOCK_STATE.rate.nth e.1) != 7 && s.rd (JUG.BLOCK_STATE.rate.nth e.1) != s.portRate (descVictim e.2 / 4) then
      startAcquisition e.1 ((clearTaps e.1 s).wr (JUG.BLOCK_STATE.rate.nth e.1) 7) else s) := by
    split
    · exact ((startAcquisition_keeps _ _).requestKept rfl).step
        ((wr_requestKept (.inr (show 13 + 3 ≤ 16 by decide))).step ((clearTaps_keeps _ _).requestKept rfl))
    · exact RequestKept.refl s
  unfold refreshBlock
  refine (wr_requestKept (.inr (show 8 + 2 ≤ 16 by decide))).step ?_
  split
  · exact ((startAcquisition_keeps _ _).requestKept rfl).step hcleared
  · exact hcleared

theorem victimPairs_lt {s : State} {v : Nat} (h : v ∈ s.victimPairs) : v < 128 := by
  obtain ⟨e, -, rfl⟩ := List.mem_map.mp (List.mem_eraseDups.mp h)
  exact Nat.mod_lt _ (by decide)

theorem refreshPool_requestKept (s : State) : RequestKept s (refreshPool s) := by
  unfold refreshPool
  split
  · exact RequestKept.refl s
  · refine (RequestKept.foldl _ _ fun t n _ => ?ports).step ((wrs_requestKept (by decide) (by decide)).step
      ((RequestKept.foldl _ _ fun t v hv => ?pairs).step (RequestKept.foldl _ s fun t e _ => refreshBlock_requestKept t e)))
    case pairs =>
      have hv := victimPairs_lt hv
      have hword : JUG.NC_PAIR + 4 * v ≠ PWR.REQ_STATUS := by simp only [JUG.NC_PAIR, PWR.REQ_STATUS]; omega
      dsimp only
      split
      · exact (wr_requestKept (.inl hword)).step (wrs_requestKept hword hword)
      · exact wrs_requestKept hword hword
    case ports =>
      have hactive : P.LINE_STATUS + 0x10000 * n ≠ PWR.REQ_STATUS := by simp only [P.LINE_STATUS, PWR.REQ_STATUS]; omega
      have hvector : P.REACH_STATUS + 0x10000 * n ≠ PWR.REQ_STATUS := by simp only [P.REACH_STATUS, PWR.REQ_STATUS]; omega
      dsimp only
      split
      · exact (wr_requestKept (.inl hvector)).step (wr_requestKept (.inl hactive))
      · exact wr_requestKept (.inl hactive)

/-- No ring's status is at REQ_STATUS, whatever ring a job names. -/
theorem skipDesc_requestKept (r i : Nat) (s : State) : RequestKept s (skipDesc r i s) := by
  have hring : DMA.RING_STATUS + 64 * r ≠ PWR.REQ_STATUS := by simp only [DMA.RING_STATUS, PWR.REQ_STATUS]; omega
  exact (wr_requestKept (.inl hring)).step (RequestKept.refl s)

theorem abandonJob_requestKept (e : Nat) (s : State) : RequestKept s (abandonJob e s) := by
  have hset : ∀ v, RequestKept s (s.setJob e v) := fun v => (State.setJob_keeps s e v).requestKept rfl
  have hend : ∀ v, RequestKept s (endJob e stAborted (s.setJob e v)) := fun v =>
    ((endJob_keeps _ _ _).requestKept rfl).step (hset v)
  unfold abandonJob
  split
  · exact RequestKept.refl s
  · split
    · exact hset _
    · dsimp only
      split
      · exact hset _
      · split
        · exact (skipDesc_requestKept _ _ _).step (hset _)
        all_goals exact hend _

theorem abandonJobs_requestKept (p : Job → Bool) (s : State) : RequestKept s (abandonJobs p s) :=
  RequestKept.foldl _ s fun t x _ => abandonJob_requestKept x.1 t

theorem refreshCore_requestKept {c : Nat} (s : State) (h : c < 4) : RequestKept s (refreshCore c s) := by
  have hcore : SQ.CORE_STATUS + 4 * c ≠ PWR.REQ_STATUS := by simp only [SQ.CORE_STATUS, PWR.REQ_STATUS]; omega
  unfold refreshCore
  dsimp only
  split <;> exact (wrs_requestKept hcore hcore).step (wr_requestKept (.inl hcore))

end Sys2Proof.Machine
end

section
/-! SUPPORT. The slot boundary (R16, R20, R413). -/

namespace Sys2Proof.Machine

/-! ### The request through the end and the beginning of a slot -/

theorem takeException_requestKept {k : Nat} (cause pc : Nat) (val : Word) (s : State) (h : k / 64 < 4) :
    RequestKept s (takeException k cause pc val s) := by
  have hfault : SQ.FAULT + 4 * (k / 64) ≠ PWR.REQ_STATUS := by simp only [SQ.FAULT, PWR.REQ_STATUS]; omega
  have hval : SQ.FAULT_VAL + 4 * (k / 64) ≠ PWR.REQ_STATUS := by simp only [SQ.FAULT_VAL, PWR.REQ_STATUS]; omega
  unfold takeException
  dsimp only
  generalize habandoned : abandonJobs _ _ = t
  have ht : RequestKept s t := by
    rw [← habandoned]
    exact (abandonJobs_requestKept _ _).step (((State.modCtx_keeps _ _ _).requestKept rfl).step
      ((setWord_requestKept hval).step (setWord_requestKept hfault)))
  refine (aside_plainEvent _ _ _ (by omega)).requestKept.step ((aside_perfCount _ _ _ (by omega)).requestKept.step ?_)
  exact (refreshCore_requestKept _ h).step ((refreshPool_requestKept _).step (ht.congr rfl))

/-- A core's task in the slot is one of that core's. -/
theorem coreTask_core {s : State} {c k : Nat} (h : s.coreTask c = some k) : k / 64 = c := by
  unfold State.coreTask at h
  split at h
  · cases h
  · cases h
    have : s.rd (SQ.CORE_STATUS.task.nth c) < 2 ^ 6 := Nat.mod_lt _ (Nat.two_pow_pos _)
    unfold taskKey
    omega

theorem endSlot_requestKept {c : Nat} (s : State) (h : c < 4) : RequestKept s (endSlot c s) := by
  unfold endSlot
  split
  · exact RequestKept.refl s
  · rename_i k hk
    split
    · exact RequestKept.refl s
    · split
      · exact RequestKept.refl s
      · dsimp only
        split
        · exact takeException_requestKept _ _ _ s (coreTask_core hk ▸ h)
        · split
          · exact (causeEvent_aside _ _ _ _ (by decide)).requestKept.step
              ((setWord_requestKept (by decide)).step ((State.modWheel_keeps _ _).requestKept rfl))
          · exact (State.modWheel_keeps _ _).requestKept rfl

theorem endSlots_requestKept (s : State) : RequestKept s (endSlots s) :=
  RequestKept.foldl _ s fun t _ hc => endSlot_requestKept t (List.mem_range.mp hc)

theorem enterSlot_requestKept {c : Nat} (s : State) (h : c < 4) : RequestKept s (enterSlot c s) := by
  have hcore : SQ.CORE_STATUS + 4 * c ≠ PWR.REQ_STATUS := by simp only [SQ.CORE_STATUS, PWR.REQ_STATUS]; omega
  unfold enterSlot
  split
  · exact (refreshCore_requestKept _ h).step (wrs_requestKept hcore hcore)
  · exact (refreshCore_requestKept _ h).step (((State.modCtx_keeps _ _ _).requestKept rfl).step (wrs_requestKept hcore hcore))

theorem ctxCopy_requestKept (s : State) : RequestKept s (ctxCopy s) := by
  have hwindow : ∀ i, i < 36 → SQ.CTX_WIN + 4 * i ≠ PWR.REQ_STATUS := fun i hi => by
    simp only [SQ.CTX_WIN, PWR.REQ_STATUS]
    omega
  unfold ctxCopy
  split
  · dsimp only
    generalize hcopied : List.foldl _ _ _ = t
    have ht : RequestKept s t := by
      rw [← hcopied]
      exact RequestKept.foldl _ s fun _ i hi => setWord_requestKept (hwindow i (List.mem_range.mp hi))
    have hready : RequestKept s (t.wr SQ.CTX_SEL.ready 1) := (wr_requestKept (.inl (by decide))).step ht
    exact hready.congr rfl
  · exact RequestKept.refl s

/-- The part of a slot's beginning that comes before a change between RUN and IDLE: tasks, context copy, SNAP jobs, trip blocks. -/
def enterTasks (s : State) : State :=
  (List.range 32).foldl (fun s n => sendTripBlock n s) (takeSnaps (ctxCopy ((List.range 4).foldl (fun s c => enterSlot c s) s)))

theorem beginSlot_eq (s : State) : beginSlot s = slotPower (enterTasks s) := rfl

theorem enterTasks_requestKept (s : State) : RequestKept s (enterTasks s) := by
  refine (RequestKept.foldl _ _ fun t n _ => (sendTripBlock_keeps n t).requestKept rfl).step ?_
  refine ((takeSnaps_keeps _).requestKept rfl).step ((ctxCopy_requestKept _).step ?_)
  exact RequestKept.foldl _ s fun t c hc => enterSlot_requestKept t (List.mem_range.mp hc)

theorem enterTasks_power (s : State) : (enterTasks s).power = s.power := by
  have hcores : Keeps [.regs, .seq] s ((List.range 4).foldl (fun s c => enterSlot c s) s) :=
    Keeps.foldl (fun t c => enterSlot_keeps c t) (Keeps.refl _ s)
  have hblocks := Keeps.foldl (xs := List.range 32) (fun t n => sendTripBlock_keeps n t)
    (Keeps.refl _ (takeSnaps (ctxCopy ((List.range 4).foldl (fun s c => enterSlot c s) s))))
  exact (hblocks.within .power rfl).trans (((takeSnaps_keeps _).within .power rfl).trans
    (((ctxCopy_keeps _).within .power rfl).trans (hcores.within .power rfl)))

/-! ### A change between RUN and IDLE (R413) -/

/-- A request that ends writes its result and busy; every field of REQ_STATUS beside them, and of any other register, stays. -/
theorem rd_endRequest (result : Nat) (s : State) (f : Field) (h : f.lsb + f.width ≤ 20 ∨ 24 ≤ f.lsb)
    (hbusy : f.lsb + f.width ≤ 31) : (endRequest result s).rd f = s.rd f :=
  (rd_wr_apart _ PWR.REQ_STATUS.result f result (by decide) h).trans
    (rd_wr_apart _ PWR.REQ_STATUS.busy f 0 (by decide) (.inl hbusy))

theorem rd_endRequest_result (result : Nat) (s : State) : (endRequest result s).rd PWR.REQ_STATUS.result = result % 16 :=
  rd_wr_same _ PWR.REQ_STATUS.result result (by decide)

theorem startPending_none {s : State} (h : s.rd PWR.REQ_STATUS.pend_valid = 0) : startPending s = s := by
  simp [startPending, State.flag, h]

/-- With nothing pending the request ends with OK in the state asked for. -/
theorem slotPower_takes_effect {s : State} (hstage : s.power.stage = .slot) (hpend : s.rd PWR.REQ_STATUS.pend_valid = 0) :
    (slotPower s).powerState = s.rd PWR.REQ_STATUS.target ∧ (slotPower s).rd PWR.REQ_STATUS.result = 0 := by
  have hkept : (endRequest prOk (s.wr PWR.REQ_STATUS.state s.reqTarget)).rd PWR.REQ_STATUS.pend_valid = 0 :=
    (rd_endRequest _ _ _ (by decide) (by decide)).trans ((rd_wr_apart _ _ _ _ (by decide) (by decide)).trans hpend)
  have hended : slotPower s = endRequest prOk (s.wr PWR.REQ_STATUS.state s.reqTarget) := by
    unfold slotPower
    rw [if_pos (by simp [hstage]), startPending_none hkept]
  have htarget : s.rd PWR.REQ_STATUS.target % 2 ^ 3 = s.rd PWR.REQ_STATUS.target := Nat.mod_mod _ _
  rw [hended]
  exact ⟨(rd_endRequest _ _ _ (by decide) (by decide)).trans ((rd_wr_same _ _ _ (by decide)).trans htarget),
    rd_endRequest_result _ _⟩

/-! ### The boundary between two slots -/

theorem atSlot_clk (n : Nat) (s : State) : (atSlot n s).clk = { s.clk with slot := n, cycle := 0 } := rfl

theorem atSlot_perf (n : Nat) (s : State) : (atSlot n s).perf = s.perf := rfl

/-- The slot that is to end: the rest of its cycles has passed, and the cores' windows are judged. -/
def slotEnded (s : State) : State := endSlots (passCycles s.cyclesLeft s)

theorem slotBoundary_eq {s : State} (hon : s.clk.wheelOn = true) (hslot : s.clk.slot < 4095) :
    slotBoundary s = beginSlot (atSlot ((slotEnded s).clk.slot + 1) (slotEnded s)) := by
  unfold slotBoundary
  rw [if_pos (by simp [hon, hslot])]
  rfl

/-- The rest of the slot passes, 2 ns a cycle, and the next slot begins (R16, R20). -/
theorem slotBoundary_clk {s : State} (hon : s.clk.wheelOn = true) (hslot : s.clk.slot < 4095) : (slotBoundary s).clk =
    { s.clk with devTime := s.clk.devTime + BitVec.ofNat 64 (2 * (125 - s.clk.cycle)), slot := s.clk.slot + 1, cycle := 0 } := by
  have hended : (slotEnded s).clk = (passCycles s.cyclesLeft s).clk := (endSlots_keeps _).within .clk rfl
  have hbegun : ∀ t, (beginSlot t).clk = t.clk := fun t => (beginSlot_keeps t).within .clk rfl
  rw [slotBoundary_eq hon hslot, hbegun, atSlot_clk, hended]
  rfl

/-- PERF.CYCLE counts the cycles that pass, and nothing else at the boundary touches it (R397). -/
theorem slotBoundary_cycle {s : State} (hon : s.clk.wheelOn = true) (hslot : s.clk.slot < 4095) :
    (slotBoundary s).perf.cycle = s.perf.cycle + BitVec.ofNat 64 (125 - s.clk.cycle) := by
  have hended : (slotEnded s).perf.cycle = (passCycles s.cyclesLeft s).perf.cycle := (endSlots_steady _).cycle
  rw [slotBoundary_eq hon hslot, (beginSlot_steady _).cycle, atSlot_perf, hended]
  rfl

/-- A change between RUN and IDLE that waits for the slot takes effect (R413). -/
theorem slotBoundary_power {s : State} (hon : s.clk.wheelOn = true) (hslot : s.clk.slot < 4095) (hstage : s.power.stage = .slot)
    (hpend : s.rd PWR.REQ_STATUS.pend_valid = 0) :
    (slotBoundary s).powerState = s.rd PWR.REQ_STATUS.target ∧ (slotBoundary s).rd PWR.REQ_STATUS.result = 0 := by
  have hended : RequestKept s (slotEnded s) :=
    (endSlots_requestKept _).step ((passCycles_keeps s.cyclesLeft s).requestKept rfl)
  have hpower : (slotEnded s).power = s.power :=
    ((endSlots_keeps _).within .power rfl).trans ((passCycles_keeps _ _).within .power rfl)
  rw [slotBoundary_eq hon hslot, beginSlot_eq]
  generalize slotEnded s = t at hended hpower
  have hentered : RequestKept s (enterTasks (atSlot (t.clk.slot + 1) t)) := (enterTasks_requestKept _).step (hended.congr rfl)
  have htarget := hentered PWR.REQ_STATUS.target rfl (by decide)
  have hstage' : (enterTasks (atSlot (t.clk.slot + 1) t)).power.stage = .slot := by
    rw [enterTasks_power, show (atSlot (t.clk.slot + 1) t).power = s.power from hpower, hstage]
  have h := slotPower_takes_effect hstage' ((hentered PWR.REQ_STATUS.pend_valid rfl (by decide)).trans hpend)
  rw [htarget] at h
  exact h

end Sys2Proof.Machine
end

section
/-! SUPPORT. The tick of the always-on domain (R16, R17, R420, R421). -/

namespace Sys2Proof.Machine

/-! ### A tick of the always-on domain (R16, R17) -/

theorem wr_power (s : State) (f : Field) (v : Nat) : (s.wr f v).power = s.power := rfl

theorem wr_clk (s : State) (f : Field) (v : Nat) : (s.wr f v).clk = s.clk := rfl

theorem takeAsked_none {s : State} (h : s.power.asked = []) : takeAsked s = s := by
  simp only [takeAsked, h, List.foldl_nil, State.modPower]
  rw [← h]

theorem settleWrites_none (lin : BitVec 4) {s : State} (hw : s.power.writes = []) (hr : s.power.rtcSet = false) :
    settleWrites lin s = s.wr PWR.AON_STATUS.wr_pending 0 := by
  have hp : s.modPower (fun p => { p with writes := [] }) = s := by
    simp only [State.modPower]
    rw [← hw]
  simp only [settleWrites, hw, List.foldl_nil, hp]
  exact if_neg (by rw [wr_power, hr]; decide)

theorem takeWake_none {s : State} (h : s.power.wake = none) : takeWake s = s := by
  simp [takeWake, h]

theorem beaconsOver_none {s : State} (h : s.power.stage ≠ .beacons) : beaconsOver s = s := by
  simp [beaconsOver, h]

theorem aonOn_of_ready {s : State} (hb : s.boot.stage = .ready) (hp : s.powerState ≠ 4) : s.aonOn = true := by
  simp [State.aonOn, hb, hp, stOff]

theorem tickFrac_power (s : State) : (tickFrac s).power = { s.power with rtcFrac := min 32767 (s.power.rtcFrac + 1) } := rfl

theorem tickFrac_tickTime_power (s : State) :
    (tickFrac (tickTime s)).power = { s.power with rtcFrac := min 32767 (s.power.rtcFrac + 1) } := by
  have h : (tickTime s).power = s.power := (tickTime_keeps s).within .power rfl
  rw [tickFrac_power, h]

/-- DEV_TIME and RTC_FRAC have counted a tick, and the writes that waited are settled: what every tick does first. -/
def ticked (s : State) : State := (tickFrac (tickTime s)).wr PWR.AON_STATUS.wr_pending 0

theorem ticked_keeps (s : State) : Keeps [.regs, .clk, .power] s (ticked s) :=
  Keeps.step (State.wr_keeps _ _ _) rfl (Keeps.step (tickFrac_keeps _) rfl ((tickTime_keeps s).mono rfl))

/-- A tick for which no request, write or RTC setting waits goes on from `ticked` with wakes, beacons and the pending request. -/
theorem aonTick_eq (lin : BitVec 4) {s : State} (hb : s.boot.stage = .ready) (hp : s.powerState ≠ 4) (ha : s.power.asked = [])
    (hw : s.power.writes = []) (hr : s.power.rtcSet = false) :
    aonTick lin s = startPending (beaconsOver (takeWake (ticked s))) := by
  have hasked : takeAsked (tickFrac (tickTime s)) = tickFrac (tickTime s) :=
    takeAsked_none (by rw [tickFrac_tickTime_power, ha])
  have hsettled : settleWrites lin (tickFrac (tickTime s)) = ticked s :=
    settleWrites_none lin (by rw [tickFrac_tickTime_power, hw]) (by rw [tickFrac_tickTime_power, hr])
  have hboot : (ticked s).boot = s.boot := (ticked_keeps s).within .boot rfl
  have hstarted : (ticked s).started = true := by simp [State.started, hboot, hb]
  unfold aonTick
  rw [if_pos (aonOn_of_ready hb hp), hasked, hsettled]
  exact if_pos hstarted

theorem ticked_power (s : State) : (ticked s).power = { s.power with rtcFrac := min 32767 (s.power.rtcFrac + 1) } := by
  rw [ticked, wr_power, tickFrac_tickTime_power]

theorem ticked_word (s : State) {a : Nat} (h : a ≠ PWR.AON_STATUS) : (ticked s).word a = s.word a := by
  have hregs : (tickFrac (tickTime s)).regs = s.regs := (Keeps.step (tickFrac_keeps _) rfl ((tickTime_keeps s).mono rfl) :
    Keeps [.clk, .power] _ _).within .regs rfl
  rw [ticked, word_wr_ne _ _ _ h, State.word, hregs]
  rfl

theorem ticked_powerState (s : State) : (ticked s).powerState = s.powerState := by
  rw [State.powerState, State.rd, ticked_word s (by decide), ← State.rd, ← State.powerState]

theorem ticked_wr_pending (s : State) : (ticked s).rd PWR.AON_STATUS.wr_pending = 0 := rd_wr_same _ _ _ (by decide)

/-- With the PLL off DEV_TIME advances by 30,517 and 37/64 ns, the fraction carried (R16). -/
theorem ticked_time {s : State} (hoff : s.clk.pllOn = false) (hfrac : s.clk.frac < 64) (hnow : s.now + 30518 < 2 ^ 64) :
    64 * (ticked s).now + (ticked s).clk.frac = 64 * s.now + s.clk.frac + 1953125 ∧ (ticked s).clk.frac < 64 ∧
      (ticked s).clk = { s.clk with devTime := (ticked s).clk.devTime, frac := (ticked s).clk.frac } := by
  have hclk : (ticked s).clk = { s.clk with
      devTime := s.clk.devTime + BitVec.ofNat 64 (30517 + (s.clk.frac + 37) / 64), frac := (s.clk.frac + 37) % 64 } := by
    have hfracClk : (tickFrac (tickTime s)).clk = (tickTime s).clk := (tickFrac_keeps _).within .clk rfl
    rw [ticked, wr_clk, hfracClk]
    simp [tickTime, hoff]
  have htime : (ticked s).now = s.now + (30517 + (s.clk.frac + 37) / 64) := by
    unfold State.now at hnow ⊢
    rw [hclk, BitVec.toNat_add, BitVec.toNat_ofNat]
    omega
  rw [htime, hclk]
  refine ⟨?_, Nat.mod_lt _ (by decide), rfl⟩
  show 64 * (s.now + (30517 + (s.clk.frac + 37) / 64)) + (s.clk.frac + 37) % 64 = 64 * s.now + s.clk.frac + 1953125
  omega

/-- A tick at which no wake waits, no beacons are sent and no request is pending. -/
theorem aonTick_quiet (lin : BitVec 4) {s : State} (hb : s.boot.stage = .ready) (hp : s.powerState ≠ 4) (ha : s.power.asked = [])
    (hw : s.power.writes = []) (hr : s.power.rtcSet = false) (hwake : s.power.wake = none) (hstage : s.power.stage ≠ .beacons)
    (hpend : s.rd PWR.REQ_STATUS.pend_valid = 0) : aonTick lin s = ticked s := by
  have hpend' : (ticked s).rd PWR.REQ_STATUS.pend_valid = 0 := by
    rw [State.rd, ticked_word s (by decide)]
    exact hpend
  rw [aonTick_eq lin hb hp ha hw hr, takeWake_none (by rw [ticked_power]; exact hwake),
    beaconsOver_none (by rw [ticked_power]; exact hstage), startPending_none hpend']

/-! ### A tick that takes a wake (R420, R421) -/

/-- The rails to command and the one awaited: nothing else of the Ringmaster changes. -/
theorem startRails_power (target : Nat) (test : Bool) (s : State) :
    ∃ due rail, (startRails target test s).power = { s.power with railsDue := due, rail := rail } := by
  unfold startRails nextRail
  dsimp only
  split <;> exact ⟨_, _, rfl⟩

theorem startRails_regs (target : Nat) (test : Bool) (s : State) : (startRails target test s).regs = s.regs :=
  (startRails_keeps target test s).within .regs rfl

theorem modPower_regs (s : State) (f : Power → Power) : (s.modPower f).regs = s.regs := rfl

theorem wrs_pair (s : State) (f g : Field) (v w : Nat) : s.wrs [(f, v), (g, w)] = (s.wr f v).wr g w := rfl

theorem wrs_power (s : State) (l : List (Field × Nat)) : (s.wrs l).power = s.power := (State.wrs_keeps s l).within .power rfl

theorem modPower_power (s : State) (f : Power → Power) : (s.modPower f).power = f s.power := rfl

theorem startWake_eq (src : Nat) (s : State) : startWake src s = startRails stRun false
    ((s.wrs [(PWR.AON_STATUS.last_wake, src), (PWR.AON_STATUS.last_state, s.powerState)]).modPower (fun p =>
      { p with stage := .waking, wake := none, crystal := false, retry := false, railFault := false })) := rfl

theorem startWake_power (src : Nat) (s : State) : ∃ due rail, (startWake src s).power = { s.power with
    stage := .waking, wake := none, crystal := false, retry := false, railFault := false, railsDue := due, rail := rail } := by
  rw [startWake_eq]
  obtain ⟨due, rail, h⟩ := startRails_power stRun false _
  exact ⟨due, rail, by rw [h, modPower_power, wrs_power]⟩

/-- Of the registers a wake that starts writes AON_STATUS alone: its source and the state it leaves. -/
theorem startWake_word (src : Nat) (s : State) (a : Nat) : (startWake src s).word a =
    ((s.wr PWR.AON_STATUS.last_wake src).wr PWR.AON_STATUS.last_state s.powerState).word a := by
  have h : (startWake src s).regs = ((s.wr PWR.AON_STATUS.last_wake src).wr PWR.AON_STATUS.last_state s.powerState).regs := by
    rw [startWake_eq, startRails_regs, modPower_regs, wrs_pair]
  rw [State.word, h, State.word]

theorem startWake_word_ne (src : Nat) (s : State) {a : Nat} (h : a ≠ PWR.AON_STATUS) : (startWake src s).word a = s.word a := by
  rw [startWake_word, word_wr_ne _ _ _ h, word_wr_ne _ _ _ h]

theorem startWake_last_wake {src : Nat} (s : State) (h : src < 16) : (startWake src s).rd PWR.AON_STATUS.last_wake = src := by
  have hrd : (startWake src s).rd PWR.AON_STATUS.last_wake = src % 2 ^ 4 := by
    rw [State.rd, startWake_word, ← State.rd, rd_wr_apart _ _ _ _ (by decide) (by decide)]
    exact rd_wr_same _ _ _ (by decide)
  omega

theorem startWake_last_state (src : Nat) (s : State) : (startWake src s).rd PWR.AON_STATUS.last_state = s.powerState := by
  have hstate : s.powerState % 2 ^ 3 = s.powerState := Nat.mod_mod _ _
  rw [State.rd, startWake_word, ← State.rd]
  exact (rd_wr_same _ _ _ (by decide)).trans hstate

/-- A tick at rest in SLEEP or DEEP_SLEEP takes the wake that waits. -/
theorem aonTick_wakes (lin : BitVec 4) {s : State} {src : Nat} (hb : s.boot.stage = .ready) (hp : s.powerState = 2 ∨ s.powerState = 3)
    (hstage : s.power.stage = .rest) (ha : s.power.asked = []) (hw : s.power.writes = []) (hr : s.power.rtcSet = false)
    (hwake : s.power.wake = some src) : aonTick lin s = startWake src (ticked s) := by
  have htaken : takeWake (ticked s) = startWake src (ticked s) := by
    have hwake' : (ticked s).power.wake = some src := by rw [ticked_power]; exact hwake
    have hstage' : (ticked s).power.stage = .rest := by rw [ticked_power]; exact hstage
    have hat : (ticked s).powerState = 2 ∨ (ticked s).powerState = 3 := (ticked_powerState s).symm ▸ hp
    rcases hat with hat | hat <;> simp [takeWake, hwake', hstage', hat, stSleep, stOff]
  obtain ⟨due, rail, hpower⟩ := startWake_power src (ticked s)
  have hwaking : (startWake src (ticked s)).power.stage = .waking := by rw [hpower]
  rw [aonTick_eq lin hb (by omega) ha hw hr, htaken, beaconsOver_none (by simp [hwaking])]
  simp [startPending, hwaking]

end Sys2Proof.Machine
end

section
/-! SUPPORT. AUDIT records and the RTC second (R17, R53, R374). -/

namespace Sys2Proof.Machine

/-! ### AUDIT records (R374, R388) -/

theorem Steady.whenever {s t : State} {p : Prop} [Decidable p] (h : Steady s t) : Steady s (if p then t else s) := by
  split
  · exact h
  · exact Steady.refl s

theorem Changes.step {words : List Nat} {parts : List Part} {a b c : State} (k : Changes words parts b c)
    (h : Changes words parts a b) : Changes words parts a c := h.trans k

theorem Changes.whenever {words : List Nat} {parts : List Part} {s t : State} {p : Prop} [Decidable p]
    (h : Changes words parts s t) : Changes words parts s (if p then t else s) := by
  split
  · exact h
  · exact changes_refl _ _ s

/-- The log's own cause register is one that records write. -/
theorem logEvent_aside {b : Nat} (s : State) (h : b < 40) : Aside s (logEvent b s) :=
  (aside_setWord _ _ _ (by decide)).trans (causeEvent_aside LOG.CAUSE b (216 + b) s (by omega))

theorem auditRoom_steady (before : Nat) (s : State) : Steady s (auditRoom before s) := by
  unfold auditRoom
  refine Steady.step (Steady.whenever (wr_steady _ _ _)) ?_
  refine Steady.step (Steady.whenever (Steady.step (causeEvent_steady _ _ _ _) (wr_steady _ _ _))) ?_
  exact Steady.step (Steady.whenever (causeEvent_steady _ _ _ _))
    (Steady.step (wr_steady _ _ _) (Steady.step (wr_steady _ _ _) (wr_steady _ _ _)))

theorem auditRoom_changes (before : Nat) (s : State) : Changes [TST.STATUS] [] s (auditRoom before s) := by
  have hfull : ∀ t v, Changes [TST.STATUS] [] t (t.wr TST.STATUS.audit_full v) := fun t v => changes_wr t _ v (by decide)
  have hstatus : ∀ t f v, f.addr = LOG.STATUS → Changes [TST.STATUS] [] t (t.wr f v) := fun t f v hf =>
    (aside_wr t f v (hf ▸ by decide)).changes
  unfold auditRoom
  refine Changes.step (Changes.whenever (hfull _ _)) ?_
  refine Changes.step (Changes.whenever (Changes.step (logEvent_aside _ (by decide)).changes (hfull _ _))) ?_
  exact Changes.step (Changes.whenever (logEvent_aside _ (by decide)).changes)
    (Changes.step (hstatus _ _ _ rfl) (Changes.step (hstatus _ _ _ rfl) (hstatus _ _ _ rfl)))

theorem mem_regionPut {α : Type} (cap : Nat) (p : α → Bool) (l : List α) (r : α) : r ∈ regionPut cap p l r := by
  unfold regionPut
  split <;> simp

/-- The record that is written stands in the region. -/
theorem putAudit_recorded (typ result count subject detail time : Nat) (s : State) :
    ∃ r ∈ (putAudit typ result count subject detail time s).logs.audit,
      r.typ = typ ∧ r.subject = subject ∧ r.detail = detail ∧ r.count = count := by
  unfold putAudit
  dsimp only
  rw [(auditRoom_steady _ _).audit, (perfCount_steady _ _ _).audit]
  exact ⟨_, mem_regionPut _ _ _ _, rfl, rfl, rfl, rfl⟩

/-- It takes the next sequence of the chain (R375). -/
theorem putAudit_seq (typ result count subject detail time : Nat) (s : State) :
    (putAudit typ result count subject detail time s).chain.seq = s.chain.seq + 1 := by
  unfold putAudit
  dsimp only
  rw [show (auditRoom _ _).chain = _ from (auditRoom_keeps _ _).within .chain rfl,
    show (perfCount _ _ _).chain = _ from (perfCount_keeps _ _ _).within .chain rfl]

theorem putAudit_changes (typ result count subject detail time : Nat) (s : State) :
    Changes [TST.STATUS] [.chain, .signing] s (putAudit typ result count subject detail time s) := by
  unfold putAudit
  dsimp only
  refine Changes.step ((auditRoom_changes _ _).mono (fun _ h => h) rfl) (Changes.step (aside_perfCount _ _ _ (by decide)).changes ?_)
  exact changes_parts rfl fun p hp => by cases p <;> first | rfl | simp [records] at hp

/-! ### An RTC second (R17, R53) -/

/-- The RTC has advanced, the refusals of the past second are taken off the host's side: what every RTC second does first. -/
def rtcCounted (s : State) : State :=
  { s.modPower (fun p => { p with rtcSec := (p.rtcSec + 1) % 2 ^ 64, rtcFrac := 0 }) with
    host := { s.host with refusedWrites := none, refusedSram := none, refusedCmds := none } }

/-- The refused configuration writes of the past second stand in one record (R53). -/
def rtcAudited (x : RefusalTally) (s : State) : State :=
  putAudit 3 x.result (min 0xFFFF x.count) x.subject x.detail s.now (rtcCounted s)

/-- The log summary is a second older (R393). -/
def summaryAged (s : State) : State := { s with logs := { s.logs with summaryAge := s.logs.summaryAge + 1 } }

theorem auditRefusals_none {s : State} (hc : s.host.refusedCmds = none) (hs : s.host.refusedSram = none)
    (hw : s.host.refusedWrites = none) : auditRefusals s =
      { s with host := { s.host with refusedWrites := none, refusedSram := none, refusedCmds := none } } := by
  simp [auditRefusals, summarise, hc, hs, hw]

theorem auditRefusals_writes {s : State} {x : RefusalTally} (hc : s.host.refusedCmds = none) (hs : s.host.refusedSram = none)
    (hw : s.host.refusedWrites = some x) : auditRefusals s = auditN 3 x.result (min 0xFFFF x.count) x.subject x.detail
      { s with host := { s.host with refusedWrites := none, refusedSram := none, refusedCmds := none } } := by
  simp [auditRefusals, summarise, hc, hs, hw]

/-- With no rail to try again, a second in the always-on domain is its count, its audit and the summary's age. -/
theorem rtcSecond_eq {s t : State} (hon : s.aonOn = true) (hretry : t.power.retry = false)
    (ht : auditRefusals (s.modPower (fun p => { p with rtcSec := (p.rtcSec + 1) % 2 ^ 64, rtcFrac := 0 })) = t) :
    rtcSecond s = summaryAged t := by
  unfold rtcSecond
  rw [if_pos hon]
  dsimp only
  rw [ht]
  exact if_neg (by simpa using hretry)

theorem rtcSecond_quiet {s : State} (hon : s.aonOn = true) (hretry : s.power.retry = false) (hc : s.host.refusedCmds = none)
    (hs : s.host.refusedSram = none) (hw : s.host.refusedWrites = none) : rtcSecond s = summaryAged (rtcCounted s) :=
  rtcSecond_eq hon (t := rtcCounted s) hretry (auditRefusals_none (s := s.modPower _) hc hs hw)

theorem rtcSecond_audited {s : State} {x : RefusalTally} (hon : s.aonOn = true) (hretry : s.power.retry = false)
    (hc : s.host.refusedCmds = none) (hs : s.host.refusedSram = none) (hw : s.host.refusedWrites = some x)
    (hheld : s.logs.heldAudit = []) (hfree : 0 < s.auditFree) :
    rtcSecond s = summaryAged (rtcAudited x s) := by
  have hput : auditN 3 x.result (min 0xFFFF x.count) x.subject x.detail (rtcCounted s) = rtcAudited x s := by
    unfold auditN
    have hfree' : 0 < (rtcCounted s).auditFree := hfree
    have hheld' : (rtcCounted s).logs.heldAudit = [] := hheld
    rw [if_pos (by simp [hfree', hheld'])]
    rfl
  refine rtcSecond_eq hon ?_ ((auditRefusals_writes (s := s.modPower _) hc hs hw).trans hput)
  rw [show (rtcAudited x s).power = _ from (putAudit_keeps _ _ _ _ _ _ _).within .power rfl]
  exact hretry

theorem rtcCounted_within (s : State) : Within [.power, .host] s (rtcCounted s) := fun p hp => by
  cases p <;> first | rfl | simp at hp

theorem summaryAged_within (s : State) : Within [.logs] s (summaryAged s) := fun p hp => by
  cases p <;> first | rfl | simp at hp

theorem rtcAudited_keeps (x : RefusalTally) (s : State) :
    Keeps [.regs, .logs, .out, .perf, .chain, .signing] (rtcCounted s) (rtcAudited x s) := putAudit_keeps _ _ _ _ _ _ _

theorem summaryAged_power (s : State) : (summaryAged s).power = s.power := rfl

theorem summaryAged_host (s : State) : (summaryAged s).host = s.host := rfl

theorem summaryAged_chain (s : State) : (summaryAged s).chain = s.chain := rfl

theorem summaryAged_audit (s : State) : (summaryAged s).logs.audit = s.logs.audit := rfl

theorem rtcAudited_power (x : RefusalTally) (s : State) : (rtcAudited x s).power =
    { s.power with rtcSec := (s.power.rtcSec + 1) % 2 ^ 64, rtcFrac := 0 } :=
  ((rtcAudited_keeps x s).within .power rfl : (rtcAudited x s).power = (rtcCounted s).power)

theorem rtcAudited_refused (x : RefusalTally) (s : State) : (rtcAudited x s).host.refusedWrites = none :=
  congrArg HostSide.refusedWrites ((rtcAudited_keeps x s).within .host rfl : (rtcAudited x s).host = (rtcCounted s).host)

theorem rtcAudited_recorded (x : RefusalTally) (s : State) : ∃ r ∈ (rtcAudited x s).logs.audit,
    r.typ = 3 ∧ r.subject = x.subject ∧ r.detail = x.detail ∧ r.count = min 0xFFFF x.count :=
  putAudit_recorded 3 x.result (min 0xFFFF x.count) x.subject x.detail s.now (rtcCounted s)

theorem rtcAudited_seq (x : RefusalTally) (s : State) : (rtcAudited x s).chain.seq = s.chain.seq + 1 :=
  putAudit_seq 3 x.result (min 0xFFFF x.count) x.subject x.detail s.now (rtcCounted s)

/-- A second that audits changes what the record changes, the RTC and the host's refusals. -/
theorem rtcAudited_changes (x : RefusalTally) (s : State) :
    Changes [TST.STATUS] [.power, .host, .chain, .signing] s (summaryAged (rtcAudited x s)) := by
  have hcounted : Changes [TST.STATUS] [.power, .host, .chain, .signing] s (rtcCounted s) :=
    changes_parts rfl ((rtcCounted_within s).mono rfl)
  have hrecord : Changes [TST.STATUS] [.power, .host, .chain, .signing] (rtcCounted s) (rtcAudited x s) :=
    (putAudit_changes _ _ _ _ _ _ _).mono (fun _ h => h) rfl
  exact (hcounted.trans hrecord).trans (aside_logs _ _).changes

end Sys2Proof.Machine
end

section
/-! SUPPORT. The revolution boundary and the idle cycle (R16, R27). -/

namespace Sys2Proof.Machine

/-! ### A revolution boundary (R27) -/

theorem passCycles_clk (k : Nat) (s : State) :
    (passCycles k s).clk = { s.clk with devTime := s.clk.devTime + BitVec.ofNat 64 (2 * k) } := rfl

/-- The rest of the revolution passes, 2 ns a cycle, and its count advances (R16, R27). -/
theorem endRevolution_clk {s : State} (hc : s.clk.cycle ≤ 124) : (endRevolution s).clk = { s.clk with
    devTime := s.clk.devTime + BitVec.ofNat 64 (2 * (125 - s.clk.cycle + 125 * (4095 - s.clk.slot))),
    rev := s.clk.rev + 1, slot := 0, cycle := 0 } := by
  have hlast : ∀ t, (endSlots (passCycles 1 t)).clk = { t.clk with devTime := t.clk.devTime + 2 } := fun t =>
    ((endSlots_keeps _).within .clk rfl).trans (passCycles_clk 1 t)
  have hdump : ∀ r t, (perfDump r t).clk = t.clk := fun r t => (perfDump_keeps r t).within .clk rfl
  have hsum : BitVec.ofNat 64 (2 * (s.cyclesLeft + 125 * (4095 - s.clk.slot) - 1)) + 2 =
      BitVec.ofNat 64 (2 * (125 - s.clk.cycle + 125 * (4095 - s.clk.slot))) := by
    rw [show (2 : BitVec 64) = BitVec.ofNat 64 2 from rfl, ← BitVec.ofNat_add]
    congr 1
    unfold State.cyclesLeft
    omega
  unfold endRevolution
  dsimp only
  rw [atSlot_clk, State.withClk_clk, hlast, hdump, passCycles_clk, BitVec.add_assoc, hsum]

/-- The firmware switch of a boundary writes the flash's record; manifests that wait for the boundary still wait (R363, R446). -/
theorem switchFirmware_staged (s : State) : (switchFirmware s).trust.staged = s.trust.staged := by
  unfold switchFirmware
  split
  · rfl
  · dsimp only
    rw [show (audit _ _ _ _ _).trust = _ from (audit_keeps _ _ _ _ _).within .trust rfl,
      show (extendMeas _ _ _).trust = _ from (extendMeas_keeps _ _ _).within .trust rfl,
      show (extendMeas _ _ _).trust = _ from (extendMeas_keeps _ _ _).within .trust rfl,
      show (State.wrs _ _).trust = _ from (State.wrs_keeps _ _).within .trust rfl]

theorem endLoad_trust (state reason kind index : Nat) (s : State) : (endLoad state reason kind index s).trust = s.trust :=
  (endLoad_keeps state reason kind index s).within .trust rfl

theorem setWord_trust (s : State) (a : Nat) (w : Word) : (s.setWord a w).trust = s.trust := rfl

theorem modWheel_trust (s : State) (f : Wheel → Wheel) : (s.modWheel f).trust = s.trust := rfl

theorem switchTo_trust (w : WheelImg) (s : State) : (switchTo w s).trust = s.trust := (switchTo_keeps w s).within .trust rfl

theorem wheelBoundary_staged (s : State) : (wheelBoundary s).trust.staged = s.trust.staged := by
  have hswitch : ∀ (p : Bool) w t, (if p then switchFirmware (switchTo w t) else switchTo w t).trust.staged = t.trust.staged := by
    intro p w t
    split
    · rw [switchFirmware_staged, switchTo_trust]
    · rw [switchTo_trust]
  unfold wheelBoundary
  dsimp only
  split
  · split
    · split
      · rw [endLoad_trust]
        rfl
      · rw [endLoad_trust, modWheel_trust, hswitch]
        rfl
    · rfl
  · split
    · rw [show (wheelEvent _ _).trust = _ from (wheelEvent_keeps _ _).within .trust rfl, setWord_trust,
        show (writeLoad _ _ _ _).trust = _ from (writeLoad_keeps _ _ _ _).within .trust rfl, modWheel_trust]
      rfl
    · rw [show (audit _ _ _ _ _).trust = _ from (audit_keeps _ _ _ _ _).within .trust rfl, switchTo_trust]
      rfl
  · rfl

/-- What the switches of a boundary change while no manifest is staged. -/
def switchParts : List Part :=
  [.regs, .host, .logs, .out, .perf, .chain, .messages, .signing, .links, .coefs, .trips, .pool, .reach, .lpi, .classes, .mons, .cal,
    .lanes, .sram, .wheel, .seq, .dma, .net, .trust, .fw]

/-- With no manifest staged the switches of a boundary leave the clock, the Ringmaster and the start alone. -/
theorem switchAll_keeps_unstaged {s : State} (h : s.trust.staged = []) : Keeps switchParts s (switchAll s) := by
  have hcommit : Keeps [.trust] (wheelBoundary s) (commitStaged (wheelBoundary s)) := by
    unfold commitStaged
    rw [wheelBoundary_staged, h]
    exact Keeps.upd_trust rfl (Keeps.refl _ _)
  have hwheel : Keeps switchParts s (jspBoundary (commitStaged (wheelBoundary s))) :=
    Keeps.step (jspBoundary_keeps _) rfl (Keeps.step hcommit rfl ((wheelBoundary_keeps s).mono rfl))
  unfold switchAll
  dsimp only
  split
  · exact Keeps.step (refreshLanes_keeps _) rfl (Keeps.step (judgeScan_keeps _) rfl (Keeps.step (judgeSlots_keeps _) rfl
      (Keeps.foldl (fun t n => (restartDue_keeps n t).mono rfl) (Keeps.step (switchBanks_keeps _) rfl hwheel))))
  · exact hwheel

theorem revolutionBoundary_clk (ports : List PortObs) (eyes : List EyeObs) (temps : Vector (BitVec 16) 8) {s : State}
    (hon : s.clk.wheelOn = true) (hb : s.boot.stage = .ready) (hp : s.power.stage ≠ .stopping) (hs : s.trust.staged = []) :
    (revolutionBoundary ports eyes temps s).clk = (endRevolution s).clk ∧ (revolutionBoundary ports eyes temps s).boot = s.boot := by
  have hended := (endRevolution_keeps s).within
  have hreviewed := (reviewRevolution_keeps ports eyes temps (endRevolution s)).within
  unfold revolutionBoundary
  rw [if_pos hon]
  dsimp only
  generalize reviewRevolution ports eyes temps (endRevolution s) = t at hreviewed
  have hswitched := (switchAll_keeps_unstaged (s := t) (by rw [hreviewed .trust rfl, hended .trust rfl, hs])).within
  have hboot : (switchAll t).boot = s.boot := (hswitched .boot rfl).trans ((hreviewed .boot rfl).trans (hended .boot rfl))
  have hpower : (switchAll t).power = s.power := (hswitched .power rfl).trans ((hreviewed .power rfl).trans (hended .power rfl))
  have hclk : (switchAll t).clk = (endRevolution s).clk := (hswitched .clk rfl).trans (hreviewed .clk rfl)
  generalize switchAll t = v at hboot hpower hclk
  have hsnap := (stateSnapshot_keeps v).within
  have hbegun : beginRevolution v = beginSlot (stateSnapshot v) := by
    unfold beginRevolution
    dsimp only
    rw [if_neg]
    rw [hsnap .power rfl, hpower]
    simpa using hp
  have hslot := (beginSlot_keeps (stateSnapshot v)).within
  rw [if_pos (by simp [State.started, hboot, hb]), hbegun]
  exact ⟨(hslot .clk rfl).trans ((hsnap .clk rfl).trans hclk), (hslot .boot rfl).trans ((hsnap .boot rfl).trans hboot)⟩

/-! ### A cycle without a command (log entry 2) -/

theorem idleCycle_off {s : State} (h : s.clk.pllOn = false) : idleCycle s = s := by
  simp [idleCycle, h]

/-- Counting the events of a cycle leaves the clock and PERF.CYCLE alone. -/
theorem cycleEvents_counted (l : List (Nat × Nat)) (s : State) :
    (l.foldl (fun s e => perfCount e.1 e.2 s) s).clk = s.clk ∧ (l.foldl (fun s e => perfCount e.1 e.2 s) s).perf.cycle = s.perf.cycle :=
  ⟨(Keeps.foldl (fun t (e : Nat × Nat) => perfCount_keeps e.1 e.2 t) (Keeps.refl _ s)).within .clk rfl,
    (Steady.foldl _ s fun t (e : Nat × Nat) _ => perfCount_steady e.1 e.2 t).cycle⟩

theorem idleCycle_on {s : State} (h : s.clk.pllOn = true) : (idleCycle s).clk.devTime = s.clk.devTime + 2 ∧
    (idleCycle s).perf.cycle = s.perf.cycle + 1 ∧ (idleCycle s).clk.rev = s.clk.rev ∧ (idleCycle s).clk.slot = s.clk.slot := by
  obtain ⟨hclk, hcycle⟩ := cycleEvents_counted s.cycleEvents s
  unfold idleCycle
  rw [if_pos h]
  dsimp only
  generalize s.cycleEvents.foldl _ s = t at hclk hcycle
  have hpassed : (passCycles 1 t).clk = { s.clk with devTime := s.clk.devTime + 2 } := by rw [passCycles_clk, hclk]; rfl
  have hperf : (passCycles 1 t).perf.cycle = s.perf.cycle + 1 := by
    rw [← hcycle]
    rfl
  split
  · exact ⟨by rw [State.withClk_clk, hpassed], hperf, by rw [State.withClk_clk, hpassed], by rw [State.withClk_clk, hpassed]⟩
  · exact ⟨by rw [hpassed], hperf, by rw [hpassed], by rw [hpassed]⟩

end Sys2Proof.Machine
end

section
/-! The statement on the clocks. -/

namespace Sys2Proof.Machine

/-! ### The statement -/

theorem exec_aonTick (lin : BitVec 4) (s : State) : exec (.aonTick lin) s = .next (aonTick lin s) := rfl

theorem exec_rtcSecond (s : State) : exec .rtcSecond s = .next (rtcSecond s) := rfl

/-- Settles O27: each of the clocks' commands by what it leaves after its own counting. -/
theorem clocksAdvance : Obligations.ClocksAdvance := by
  unfold Obligations.ClocksAdvance
  intro s
  refine ⟨?tick, ?wake, ?second, ?slot, ?revolution, ?idle⟩
  case tick =>
    intro lin hb hp hoff hfrac hnow ha hw hr hwake hstage hpend
    obtain ⟨time, frac, clk⟩ := ticked_time hoff hfrac hnow
    exact ⟨ticked s, by rw [exec_aonTick, aonTick_quiet lin hb hp ha hw hr hwake hstage hpend], time, frac, ticked_power s, clk,
      ticked_wr_pending s, fun a h => ticked_word s h, (ticked_keeps s).within⟩
  case wake =>
    intro lin src hb hp hstage ha hw hr hwake hsrc
    obtain ⟨due, rail, hpower⟩ := startWake_power src (ticked s)
    exact ⟨startWake src (ticked s), by rw [exec_aonTick, aonTick_wakes lin hb hp hstage ha hw hr hwake],
      by rw [hpower], by rw [hpower], by rw [hpower], startWake_last_wake _ hsrc, (startWake_last_state _ _).trans (ticked_powerState s),
      fun a h => (startWake_word_ne src _ h).trans (ticked_word s h),
      (Keeps.step (startWake_keeps src _) rfl ((ticked_keeps s).mono rfl)).within⟩
  case second =>
    intro hb hp hretry hc hs
    have hon : s.aonOn = true := by simp [State.aonOn, hb, hp, stOff]
    refine ⟨fun hw => ?_, fun x hw hheld hfree => ?_⟩
    · exact ⟨summaryAged (rtcCounted s), by rw [exec_rtcSecond, rtcSecond_quiet hon hretry hc hs hw], rfl, rfl,
        ((rtcCounted_within s).mono rfl).trans ((summaryAged_within _).mono rfl)⟩
    · obtain ⟨r, hr, typ, subject, detail, count⟩ := rtcAudited_recorded x s
      exact ⟨summaryAged (rtcAudited x s), r, by rw [exec_rtcSecond, rtcSecond_audited hon hretry hc hs hw hheld hfree],
        by rw [summaryAged_power, rtcAudited_power], by rw [summaryAged_host, rtcAudited_refused], by rwa [summaryAged_audit],
        typ, subject, detail, count, by rw [summaryAged_chain, rtcAudited_seq], rtcAudited_changes x s⟩
  case slot =>
    intro hon hcycle hslot
    exact ⟨slotBoundary s, rfl, slotBoundary_clk hon hslot, slotBoundary_cycle hon hslot, slotBoundary_power hon hslot,
      (slotBoundary_keeps s).within.mono rfl⟩
  case revolution =>
    intro ports eyes temps hon hb hp hs hcycle hslot
    obtain ⟨hclk, hboot⟩ := revolutionBoundary_clk ports eyes temps hon hb hp hs
    rw [endRevolution_clk hcycle] at hclk
    exact ⟨revolutionBoundary ports eyes temps s, rfl, by rw [hclk], by rw [hclk], by rw [hclk], by rw [hclk], by rw [hclk]; exact hon,
      by rw [hboot]; exact hb, (revolutionBoundary_keeps ports eyes temps s).within .pending rfl⟩
  case idle =>
    intro hq
    refine ⟨idleCycle s, step_of_nil hq, idleCycle_off, fun hon => ?_⟩
    obtain ⟨time, cycle, rev, slot⟩ := idleCycle_on hon
    exact ⟨time, cycle, rev, slot, (idleCycle_keeps s).within.mono rfl⟩

end Sys2Proof.Machine
end

section
/-! SUPPORT. A step answers, and takes the front command alone. -/

namespace Sys2Proof.Machine

/-- A cycle without a command leaves the queue as it was. -/
theorem idleCycle_pending (s : State) : (idleCycle s).pending = s.pending := (idleCycle_keeps s).within .pending rfl

/-- Settles O56: an idle cycle and every command answer and leave the queue as they find it; the step has taken the front off. -/
theorem stepAnswersAndTakesOneCommand : Obligations.StepAnswersAndTakesOneCommand := by
  unfold Obligations.StepAnswersAndTakesOneCommand
  intro s
  cases hq : s.pending with
  | nil => exact ⟨idleCycle s, step_of_nil hq, (idleCycle_pending s).trans hq⟩
  | cons c rest =>
    obtain ⟨t, ht, _⟩ := exec_keeps c (s.withPending rest)
    exact ⟨t, (step_of_cons hq).trans ht, exec_pending ht⟩

end Sys2Proof.Machine
end

section
/-! SUPPORT. What counting, events and records never undo: a bit once set outside the counters, and what was sent. -/

namespace Sys2Proof.Machine

/-- The registers of the record area in which a bit can fall: the counters, LOG.STATUS and LOG.TRACE_DROP. -/
def fallArea (a : Nat) : Bool :=
  (decide (PERF.CNT ≤ a) && decide (a < PERF.CNT + 320)) || decide (a = LOG.STATUS) || decide (a = LOG.TRACE_DROP)

/-- From `s` to `t` no bit of a register outside `fallArea` falls, and what was sent stays sent. -/
structure Rises (s t : State) : Prop where
  bits : ∀ a, fallArea a = false → ∀ k, bitOf (s.word a) k = true → bitOf (t.word a) k = true
  out : s.out <+: t.out

theorem Rises.refl (s : State) : Rises s s := ⟨fun _ _ _ h => h, List.prefix_refl _⟩

theorem Rises.trans {a b c : State} (h : Rises a b) (k : Rises b c) : Rises a c :=
  ⟨fun x hx i hi => k.bits x hx i (h.bits x hx i hi), h.out.trans k.out⟩

theorem logs_rises (s : State) (l : Logs) : Rises s { s with logs := l } := ⟨fun _ _ _ h => h, List.prefix_refl _⟩

theorem perf_rises (s : State) (p : Perf) : Rises s { s with perf := p } := ⟨fun _ _ _ h => h, List.prefix_refl _⟩

theorem Rises.foldl_flag {α : Type} (f : State × Bool → α → State × Bool) (l : List α) (r : State × Bool)
    (h : ∀ r, ∀ x ∈ l, Rises r.1 (f r x).1) : Rises r.1 (l.foldl f r).1 := by
  induction l generalizing r with
  | nil => exact Rises.refl _
  | cons x t ih => exact (h r x (by simp)).trans (ih _ fun s y hy => h s y (by simp [hy]))

theorem setWord_rises {s : State} {a : Nat} {w : Word} (h : fallArea a = true) : Rises s (s.setWord a w) :=
  ⟨fun b hb k hk => by rwa [word_setWord_ne s w (fun e => by simp [e, h] at hb)], List.prefix_refl _⟩

theorem orWord_rises (s : State) (a : Nat) (w : Word) : Rises s (s.orWord a w) := by
  refine ⟨fun b _ k hk => ?_, List.prefix_refl _⟩
  rw [word_orWord]
  split
  · next e => subst e; simp_all [bitOf]
  · exact hk

theorem setArrayBit_rises (s : State) (a b : Nat) : Rises s (s.setArrayBit a b) := orWord_rises s _ _

theorem emit_rises (s : State) (o : Output) : Rises s (s.emit o) := ⟨fun _ _ _ h => h, List.prefix_append _ _⟩

/-! ### Counting and raising -/

theorem setPendCore_rises (e : Nat) (s : State) : Rises s (setPendCore e s).1 := by
  unfold setPendCore
  split
  · exact Rises.refl s
  · dsimp only
    have h := setArrayBit_rises s EVT.PEND e
    split
    · exact h.trans (emit_rises _ _)
    · exact h.trans (setArrayBit_rises _ _ _)

theorem fallArea_cnt {a : Nat} (h : PERF.CNT ≤ a) (h' : a < PERF.CNT + 320) : fallArea a = true := by simp [fallArea, h, h']

theorem setPerfCnt_rises {k : Nat} (v : Nat) (s : State) (h : k < 40) : Rises s (s.setPerfCnt k v) := by
  have lo : fallArea (PERF.CNT + 8 * k) = true := fallArea_cnt (by omega) (by omega)
  have hi : fallArea (PERF.CNT_HI + 8 * k) = true :=
    fallArea_cnt (by simp only [PERF.CNT, PERF.CNT_HI]; omega) (by simp only [PERF.CNT, PERF.CNT_HI]; omega)
  exact (setWord_rises lo).trans (setWord_rises hi)

theorem bumpCounter_rises {k : Nat} (s : State) (h : k < 40) : Rises s (bumpCounter k s).1 := by
  unfold bumpCounter
  have h1 := setPerfCnt_rises (s.perfCnt k + 1) s h
  dsimp only
  split
  · exact h1
  · split
    · exact h1.trans (orWord_rises _ _ _)
    · exact (h1.trans (orWord_rises _ _ _)).trans (orWord_rises _ _ _)

theorem bumpGroup_rises {g : Nat} (code : Nat) (s : State) (h : g < 5) : Rises s (bumpGroup g code s).1 := by
  unfold bumpGroup
  dsimp only
  refine Rises.trans (Rises.foldl_flag (r := (s, false)) _ (List.range 8) fun r i hi => ?_) (perf_rises _ _)
  have : i < 8 := List.mem_range.mp hi
  split
  · exact bumpCounter_rises _ (by omega)
  · exact Rises.refl _

theorem perfCount_rises {g : Nat} (code : Nat) (s : State) (h : g < 5) : Rises s (perfCount g code s) := by
  unfold perfCount
  dsimp only
  have h1 := bumpGroup_rises code s h
  split
  · have h2 := h1.trans (setPendCore_rises 248 _)
    split
    · exact h2.trans (bumpGroup_rises _ _ (by decide))
    · exact h2
  · exact h1

theorem setPend_rises (e : Nat) (s : State) : Rises s (setPend e s) := by
  unfold setPend
  dsimp only
  split
  · exact (setPendCore_rises e s).trans (perfCount_rises _ _ (by decide))
  · exact setPendCore_rises e s

/-! ### Records -/

theorem noteAlarm_rises (x : Nat) (o : Bool) (s : State) : Rises s (noteAlarm x o s) := logs_rises _ _

theorem openAlarm_rises (h : HeldAlarm) (s : State) : Rises s (openAlarm h s) := by
  unfold openAlarm
  dsimp only
  exact ((logs_rises s _).trans (perfCount_rises _ _ (by decide))).trans ((orWord_rises _ _ _).trans (setPend_rises _ _))

theorem alarm_rises (source typ : Nat) (detail : Word) (s : State) : Rises s (alarm source typ detail s) := by
  unfold alarm
  dsimp only
  repeat' split
  case isTrue => exact (logs_rises s _).trans (noteAlarm_rises _ _ _)
  case isFalse.isTrue => exact (openAlarm_rises _ _).trans (noteAlarm_rises _ _ _)
  all_goals exact (logs_rises s _).trans (noteAlarm_rises _ _ _)

theorem putTrace_rises (typ source time : Nat) (body : List Byte) (s : State) : Rises s (putTrace typ source time body s) :=
  (logs_rises s _).trans (perfCount_rises _ _ (by decide))

theorem wr_rises {s : State} (f : Field) (v : Nat) (h : fallArea f.addr = true) : Rises s (s.wr f v) := setWord_rises h

theorem gapMarker_rises (s : State) : Rises s (gapMarker s) := by
  unfold gapMarker
  split
  · split
    · exact ((putTrace_rises _ _ _ _ s).trans (logs_rises _ _)).trans (wr_rises _ _ (by decide))
    · exact Rises.refl s
  · exact Rises.refl s

theorem trace_rises (typ source : Nat) (body : List Byte) (s : State) : Rises s (trace typ source body s) := by
  unfold trace
  dsimp only
  have dropped : ∀ t, Rises s t → Rises s (perfCount 4 0x0E ((t.addSat LOG.TRACE_DROP.count 1).wr LOG.STATUS.trace_dropping 1)) :=
    fun t ht => ((ht.trans (wr_rises LOG.TRACE_DROP.count _ (by decide))).trans (wr_rises LOG.STATUS.trace_dropping _ (by decide))).trans
      (perfCount_rises _ _ (by decide))
  have h1 := gapMarker_rises s
  split
  · exact h1.trans (putTrace_rises _ _ _ _ _)
  · split
    · exact (dropped _ (h1.trans (logs_rises _ _))).trans ((orWord_rises _ _ _).trans (setPend_rises _ _))
    · exact dropped _ (h1.trans (logs_rises _ _))

theorem mapped_rises (e typ : Nat) (detail : Word) (s : State) : Rises s (mapped e typ detail s) := by
  unfold mapped
  dsimp only
  have traced : ∀ p : Prop, [Decidable p] → Rises s (if p then trace 2 e (mappedBody detail) s else s) := by
    intro p _
    split
    · exact trace_rises _ _ _ s
    · exact Rises.refl s
  split
  · exact Rises.refl s
  · split
    · exact (traced _).trans (alarm_rises _ _ _ _)
    · exact traced _

/-! ### Pending events -/

theorem pendWord_lt {e : Nat} (h : e < 256) : EVT.PEND + 4 * (e / 32) < 0xA0 := by simp only [EVT.PEND]; omega

theorem fallArea_pend {e : Nat} (h : e < 256) : fallArea (EVT.PEND + 4 * (e / 32)) = false := by
  have := pendWord_lt h
  generalize EVT.PEND + 4 * (e / 32) = a at this
  simp only [fallArea, Bool.or_eq_false_iff, Bool.and_eq_false_iff, decide_eq_false_iff_not]
  simp only [PERF.CNT, LOG.STATUS, LOG.TRACE_DROP]
  omega

theorem Rises.pend {s t : State} (h : Rises s t) {e : Nat} (he : e < 256) (hp : s.pend e = true) : t.pend e = true :=
  h.bits _ (fallArea_pend he) _ hp

theorem bitOf_two_pow {b : Nat} (k : Nat) (hb : b < 32) : bitOf (BitVec.ofNat 32 (2 ^ b)) k = decide (k = b) := by
  rw [bitOf, BitVec.getLsbD_ofNat, Nat.testBit_two_pow]
  by_cases h : b = k
  · subst h; simp [hb]
  · simp [h, Ne.symm h]

theorem bitOf_withBitSet {b : Nat} (w : Word) (k : Nat) (hb : b < 32) : bitOf (withBitSet w b) k = (bitOf w k || decide (k = b)) := by
  rw [← bitOf_two_pow k hb]
  exact BitVec.getLsbD_or

/-- Raising an event leaves its bit of EVT.PEND set. -/
theorem setPend_pend {e : Nat} (s : State) (h : e < 256) : (setPend e s).pend e = true := by
  have set : (s.setArrayBit EVT.PEND e).pend e = true := by
    simp [State.pend, State.arrayBit, State.setArrayBit, bitOf_withBitSet _ _ (Nat.mod_lt e (by decide : 0 < 32))]
  have core : (setPendCore e s).1.pend e = true := by
    unfold setPendCore
    split
    · assumption
    · dsimp only
      split
      · exact (emit_rises _ _).pend h set
      · exact (setArrayBit_rises _ _ _).pend h set
  unfold setPend
  dsimp only
  split
  · exact (perfCount_rises _ _ (by decide)).pend h core
  · exact core

theorem causeEvent_pend {e : Nat} (a b : Nat) (s : State) (h : e < 256) : (causeEvent a b e s).pend e = true :=
  (mapped_rises _ _ _ _).pend h (setPend_pend _ h)

/-- The registers that counting alone writes: PERF.CNT and PERF.CNT_HI, PERF.OVF and PERF.CAUSE. -/
def countArea (a : Nat) : Bool :=
  (decide (PERF.CNT ≤ a) && decide (a < PERF.CNT + 320)) || (decide (PERF.OVF ≤ a) && decide (a < PERF.OVF + 20)) || decide (a = PERF.CAUSE)

theorem word_bumpCounter {k a : Nat} (s : State) (hk : k < 40) (h : countArea a = false) : (bumpCounter k s).1.word a = s.word a := by
  simp only [countArea, Bool.or_eq_false_iff, Bool.and_eq_false_iff, decide_eq_false_iff_not] at h
  obtain ⟨⟨hcnt, hovf⟩, hcause⟩ := h
  have lo : a ≠ PERF.CNT + 8 * k := by omega
  have hi : a ≠ PERF.CNT_HI + 8 * k := by simp only [PERF.CNT, PERF.CNT_HI] at *; omega
  have ovf : a ≠ PERF.OVF + 4 * (k / 8) := by omega
  unfold bumpCounter
  dsimp only
  repeat' split
  all_goals simp [word_orWord, State.setPerfCnt, word_setPair_ne, lo, hi, ovf, hcause]

/-- What holds of the state a fold starts from and is kept by each of its steps holds of the state it ends in. -/
theorem foldl_flag_keeps {α : Type} {q : State → Prop} {f : State × Bool → α → State × Bool} (l : List α) (r : State × Bool)
    (h0 : q r.1) (h : ∀ r, ∀ x ∈ l, q r.1 → q (f r x).1) : q (l.foldl f r).1 := by
  induction l generalizing r with
  | nil => exact h0
  | cons x t ih => exact ih _ (h r x (by simp) h0) fun s y hy => h s y (by simp [hy])

theorem word_bumpGroup {g a : Nat} (code : Nat) (s : State) (hg : g < 5) (h : countArea a = false) :
    (bumpGroup g code s).1.word a = s.word a := by
  unfold bumpGroup
  refine foldl_flag_keeps (q := fun t => t.word a = s.word a) (List.range 8) (s, false) rfl fun r i hi hr => ?_
  have : i < 8 := List.mem_range.mp hi
  dsimp only
  split
  · exact (word_bumpCounter _ (by omega) h).trans hr
  · exact hr

theorem pend_bumpGroup {g e : Nat} (code : Nat) (s : State) (hg : g < 5) (he : e < 256) : (bumpGroup g code s).1.pend e = s.pend e := by
  have : countArea (EVT.PEND + 4 * (e / 32)) = false := by
    have := pendWord_lt he
    generalize EVT.PEND + 4 * (e / 32) = a at this
    simp only [countArea, Bool.or_eq_false_iff, Bool.and_eq_false_iff, decide_eq_false_iff_not]
    simp only [PERF.CNT, PERF.OVF, PERF.CAUSE]
    omega
  rw [State.pend, State.arrayBit, word_bumpGroup code s hg this]
  rfl

theorem pend_setPendCore {e d : Nat} (s : State) (hd : d < 256) (he : e < 256) (h : e ≠ d) : (setPendCore d s).1.pend e = s.pend e := by
  have set : (s.setArrayBit EVT.PEND d).pend e = s.pend e := by
    rw [State.pend, State.arrayBit, State.setArrayBit, word_setWord]
    split
    · have hb : e % 32 ≠ d % 32 := by omega
      rw [bitOf_withBitSet _ _ (Nat.mod_lt _ (by decide)), State.pend, State.arrayBit, show e / 32 = d / 32 by omega]
      simp [hb]
    · rfl
  have pba : ∀ t : State, (t.setArrayBit EVT.PBA d).pend e = t.pend e := fun t => by
    rw [State.pend, State.arrayBit, State.setArrayBit, word_setWord_ne _ _ (by simp only [EVT.PEND, EVT.PBA]; omega)]
    rfl
  unfold setPendCore
  split
  · rfl
  · dsimp only
    split
    · exact set
    · exact (pba _).trans set

/-- Counting raises no event but 248, the overflow (R399). -/
theorem pend_perfCount {g e : Nat} (code : Nat) (s : State) (hg : g < 5) (he : e < 256) (h : e ≠ 248) :
    (perfCount g code s).pend e = s.pend e := by
  unfold perfCount
  dsimp only
  split
  · split
    · rw [pend_bumpGroup _ _ (by decide) he, pend_setPendCore _ (by decide) he h, pend_bumpGroup _ _ hg he]
    · rw [pend_setPendCore _ (by decide) he h, pend_bumpGroup _ _ hg he]
  · exact pend_bumpGroup _ _ hg he

end Sys2Proof.Machine
end

section
/-! SUPPORT. Where an offset of the register file leads: blocks, table lines, the record area. -/

namespace Sys2Proof.Machine

/-! ### Blocks and table lines (R32, R460) -/

theorem ite_cases {α : Type} {p : Prop} [Decidable p] {x y z : α} (h : (if p then x else y) = z) : p ∧ x = z ∨ ¬p ∧ y = z := by
  by_cases hp : p
  · exact .inl ⟨hp, by rwa [if_pos hp] at h⟩
  · exact .inr ⟨hp, by rwa [if_neg hp] at h⟩

/-- The lowest offset of a block and the one past its highest. -/
def Block.span : Block → Nat × Nat
  | .chip => (0, 0x80) | .evt => (0x80, 0x10000) | .port n => (0x100000 + 0x10000 * n, 0x110000 + 0x10000 * n)
  | .hsl => (0x300000, 0x400000) | .sq => (0x400000, 0x401000) | .wheel => (0x401000, 0x500000) | .jug => (0x500000, 0x600000)
  | .ss => (0x600000, 0x680000) | .trip => (0x680000, 0x700000) | .tst => (0x700000, 0x800000) | .log => (0x800000, 0x900000)
  | .perf => (0x900000, 0xA00000) | .dma => (0xA00000, 0xB00000) | .pwr => (0xB00000, 0xC00000) | .cal => (0xC00000, 0xC09000)
  | .bist => (0xC01000, 0xD00000)

/-- The map has 32 ports. -/
def Block.mapped : Block → Bool
  | .port n => decide (n < 32)
  | _ => true

/-- What an offset that lies in a block says of both. -/
structure InBlock (a off : Nat) (b : Block) : Prop where
  eq : a = b.base + off
  low : b.span.1 ≤ a
  high : a < b.span.2
  mapped : b.mapped = true

theorem blockOf_inBlock {a off : Nat} {b : Block} (h : blockOf a = some (b, off)) : InBlock a off b := by
  unfold blockOf at h
  iterate 21
    replace h := ite_cases h
    obtain ⟨c, h⟩ | ⟨c, h⟩ := h
    · first
        | (simp only [reduceCtorEq] at h)
        | (cases h
           refine ⟨?_, ?_, ?_, ?_⟩ <;> simp only [Block.base, Block.span, Block.mapped, decide_eq_true_eq] <;> omega)
  simp only [reduceCtorEq] at h

theorem blockOf_eq {a off : Nat} {b : Block} (h : blockOf a = some (b, off)) : a = b.base + off := (blockOf_inBlock h).eq

theorem blockOf_port {a n off : Nat} (h : blockOf a = some (.port n, off)) : n < 32 := by
  simpa [Block.mapped] using (blockOf_inBlock h).mapped

theorem blockOf_lt {a off : Nat} {b : Block} (h : blockOf a = some (b, off)) : a < 0xD00000 := by
  obtain ⟨_, _, high, mapped⟩ := blockOf_inBlock h
  cases b with
  | port n =>
    simp only [Block.mapped, decide_eq_true_eq] at mapped
    simp only [Block.span] at high
    omega
  | _ => simp only [Block.span] at high; omega

theorem findReg_mem {t : List RegDef} {off : Nat} {r : RegDef} (h : findReg t off = some r) : r ∈ t ∧ r.covers off = true :=
  ⟨List.mem_of_find?_eq_some h, by simpa using List.find?_some h⟩

/-- A register stands in its block's table. -/
theorem homeOf_reg {a off : Nat} {b : Block} {r : RegDef} (h : homeOf a = some (.reg b off r)) :
    blockOf a = some (b, off) ∧ findReg (tableOf b) off = some r := by
  unfold homeOf at h
  split at h
  · cases h
  · next b' off' hb =>
    split at h
    · next r' hr =>
      simp only [Option.some.injEq, RegHome.reg.injEq] at h
      obtain ⟨rfl, rfl, rfl⟩ := h
      exact ⟨hb, hr⟩
    · split at h
      · split at h
        · split at h <;> simp at h
        · cases h
      · cases h

theorem homeOf_of_find {a off : Nat} {b : Block} {r : RegDef} (hb : blockOf a = some (b, off)) (hr : findReg (tableOf b) off = some r) :
    homeOf a = some (.reg b off r) := by
  rw [homeOf, hb]
  simp only [hr]

theorem homeOf_lt {a : Nat} (h : (homeOf a).isSome = true) : a < 0xD00000 := by
  unfold homeOf at h
  split at h
  · cases h
  · next hb => exact blockOf_lt hb

theorem inWindow_of_home {a : Nat} (h : (homeOf a).isSome = true) : inWindow a = false := by
  have := homeOf_lt h
  simp only [inWindow, Bool.and_eq_false_iff, decide_eq_false_iff_not]
  omega

theorem inAlias_of_home {a : Nat} (h : (homeOf a).isSome = true) : inAlias a = false := by
  have := homeOf_lt h
  simp only [inAlias, Bool.and_eq_false_iff, decide_eq_false_iff_not]
  omega

/-! ### The record area -/

theorem recordArea_outside {a : Nat} (h : a < 0x80 ∨ 0xA0 ≤ a) (h' : a < 0x9000 ∨ 0x9020 ≤ a) (h'' : a < 0x800000 ∨ 0xA00000 ≤ a) :
    recordArea a = false := by
  simp only [recordArea, Bool.or_eq_false_iff, Bool.and_eq_false_iff, decide_eq_false_iff_not]
  simp only [EVT.PEND, EVT.PBA, LOG.STATUS, LOG.TRACE_DROP, LOG.CAUSE, PERF.CAUSE, PERF.OVF, PERF.CNT, PERF.SAMP_STATUS, PERF.SAMP]
  omega

theorem recordArea_perf {off : Nat} (h : off < 0x4000) (h1 : off ≠ 8) (h2 : off < 0x20 ∨ 0x34 ≤ off) (h3 : off ≠ 0x64)
    (h4 : off < 0x200 ∨ 0x340 ≤ off) : recordArea (0x900000 + off) = false := by
  simp only [recordArea, Bool.or_eq_false_iff, Bool.and_eq_false_iff, decide_eq_false_iff_not]
  simp only [EVT.PEND, EVT.PBA, LOG.STATUS, LOG.TRACE_DROP, LOG.CAUSE, PERF.CAUSE, PERF.OVF, PERF.CNT, PERF.SAMP_STATUS, PERF.SAMP]
  omega

/-- A double-buffered block lies beyond CHIP and EVT, and its registers are no records unless it is PERF. -/
theorem doubleBuffered_place {a off : Nat} {b : Block} (h : blockOf a = some (b, off)) (hb : b.doubleBuffered = true) :
    0x10000 ≤ a ∧ (b = .perf ∨ recordArea a = false) := by
  obtain ⟨_, low, high, mapped⟩ := blockOf_inBlock h
  cases b with
  | chip | evt | hsl | sq | tst | log | dma | pwr => cases hb
  | perf => exact ⟨by simp only [Block.span] at low; omega, .inl rfl⟩
  | port n =>
    simp only [Block.mapped, decide_eq_true_eq] at mapped
    simp only [Block.span] at low high
    exact ⟨by omega, .inr (recordArea_outside (by omega) (by omega) (by omega))⟩
  | _ =>
    simp only [Block.span] at low high
    exact ⟨by omega, .inr (recordArea_outside (by omega) (by omega) (by omega))⟩

/-- The RW registers of PERF are CFG to SEL: none is a record. -/
theorem perf_rw_place {off : Nat} {r : RegDef} (h : findReg tablePERF off = some r) (hr : r.hasRW = true) :
    recordArea (0x900000 + off) = false := by
  obtain ⟨mem, cov⟩ := findReg_mem h
  have line : ∀ r ∈ tablePERF, r.hasRW = true → r.off + r.stride * r.count < 0x200 ∧ (r.stride = 0 ∧ r.off ∈ [0, 0x40, 0x44, 0x48, 0x60] ∨
      r.stride = 4 ∧ r.off = 0x100 ∧ r.count = 40) := by decide
  obtain ⟨_, hline⟩ := line r mem hr
  simp only [RegDef.covers, Bool.and_eq_true, decide_eq_true_eq] at cov
  obtain ⟨low, high⟩ := cov
  rcases hline with ⟨hs, ho⟩ | ⟨hs, ho, hc⟩
  · rw [if_pos hs, decide_eq_true_eq] at high
    rw [high]
    revert ho
    generalize r.off = o
    simp only [List.mem_cons, List.not_mem_nil, or_false]
    rintro (rfl | rfl | rfl | rfl | rfl) <;> rfl
  · rw [if_neg (by omega), Bool.and_eq_true, decide_eq_true_eq, decide_eq_true_eq, hs, ho, hc] at high
    exact recordArea_perf (by omega) (by omega) (by omega) (by omega) (by omega)

/-- An RW register of a double-buffered block is no record. -/
theorem rw_place {a off : Nat} {b : Block} {r : RegDef} (h : homeOf a = some (.reg b off r)) (hb : b.doubleBuffered = true)
    (hr : r.hasRW = true) : recordArea a = false := by
  obtain ⟨hblock, hreg⟩ := homeOf_reg h
  obtain ⟨_, rfl | apart⟩ := doubleBuffered_place hblock hb
  · rw [blockOf_eq hblock]
    exact perf_rw_place hreg hr
  · exact apart

/-- BANK_STATUS of a block that is mapped is a register of no records, beyond CHIP and EVT. -/
theorem bankStatus_place {a off st : Nat} {b : Block} (h : blockOf a = some (b, off)) (hst : b.bankStatus = some st) :
    0x10000 ≤ st ∧ recordArea st = false := by
  cases b with
  | port n =>
    have hn := blockOf_port h
    simp only [Block.bankStatus, Option.some.injEq, portAddr, P.BANK_STATUS] at hst
    exact ⟨by omega, recordArea_outside (by omega) (by omega) (by omega)⟩
  | chip | evt | sq | wheel | tst => cases hst
  | _ => cases hst; exact ⟨by decide, rfl⟩

/-- The register that holds a mapped block's pending bit is a register of no records, beyond CHIP and EVT. -/
theorem bankCtrl_place {a off c : Nat} {b : Block} (h : blockOf a = some (b, off)) (hc : b.bankCtrl = some c) :
    0x10000 ≤ c ∧ recordArea c = false := by
  cases b with
  | port n =>
    have hn := blockOf_port h
    simp only [Block.bankCtrl, Option.some.injEq, portAddr, P.BANK_CTRL] at hc
    exact ⟨by omega, recordArea_outside (by omega) (by omega) (by omega)⟩
  | chip | evt | hsl | sq | tst | log | dma | pwr => cases hc
  | _ => cases hc; exact ⟨by decide, rfl⟩

end Sys2Proof.Machine
end

section
/-! SUPPORT. What is recorded of a write without effect, of a bus error, and of a value that was changed (R36, R39, R47). -/

namespace Sys2Proof.Machine

/-! ### The capture of a first offence -/

/-- The first of its kind since the last read: an address and a code are captured and the host's flag falls; each is counted. -/
def capture (f g c : Field) (v k : Nat) (fresh : Bool) (h : HostSide) (s : State) : State :=
  (if fresh then { s.wrs [(f, v), (g, k)] with host := h } else s).addSat c 1

/-- Fields a capture can use: the address in one register, the code and above it the count in another. -/
structure CaptureFields (f g c : Field) : Prop where
  apart : f.addr ≠ g.addr
  shared : c.addr = g.addr
  fits : f.lsb + f.width ≤ 32 ∧ g.lsb + g.width ≤ 32 ∧ c.lsb + c.width ≤ 32
  above : g.lsb + g.width ≤ c.lsb

/-- What a capture leaves. -/
structure Captured (f g c : Field) (v k : Nat) (fresh : Bool) (h : HostSide) (s u : State) : Prop where
  count : u.rd c = satAdd (2 ^ c.width - 1) (s.rd c) 1
  first : fresh = true → u.rd g = k % 2 ^ g.width ∧ u.rd f = v % 2 ^ f.width ∧ u.host = h
  later : fresh = false → u.rd g = s.rd g ∧ u.word f.addr = s.word f.addr ∧ u.host = s.host
  words : ∀ x, x ≠ f.addr → x ≠ g.addr → u.word x = s.word x
  within : Within [.regs, .host] s u

theorem wrs_within (s : State) (l : List (Field × Nat)) : Within [.regs] s (s.wrs l) := (State.wrs_keeps s l).within

theorem addSat_within (s : State) (f : Field) (k : Nat) : Within [.regs] s (s.addSat f k) := (State.addSat_keeps s f k).within

theorem withHost_within (s : State) (h : HostSide) : Within [.host] s (s.withHost h) := (State.withHost_keeps s h).within

/-- A field reads the same after the host's side changes. -/
theorem withHost_rd (s : State) (h : HostSide) (f : Field) : (s.withHost h).rd f = s.rd f := rfl

theorem withHost_word (s : State) (h : HostSide) (a : Nat) : (s.withHost h).word a = s.word a := rfl

theorem capture_captured {f g c : Field} (hf : CaptureFields f g c) (v k : Nat) (fresh : Bool) (h : HostSide) (s : State) :
    Captured f g c v k fresh h s (capture f g c v k fresh h s) := by
  obtain ⟨apart, shared, ⟨fitf, fitg, fitc⟩, above⟩ := hf
  have cf : c.addr ≠ f.addr := fun e => apart (e.symm.trans shared)
  cases fresh with
  | true =>
    change Captured f g c v k true h s (((s.wrs [(f, v), (g, k)]).withHost h).addSat c 1)
    have hfield : (s.wrs [(f, v), (g, k)]).rd f = v % 2 ^ f.width := by rw [wrs_pair, rd_wr_addr _ _ _ _ apart, rd_wr_same _ _ _ fitf]
    have hcode : (s.wrs [(f, v), (g, k)]).rd g = k % 2 ^ g.width := by rw [wrs_pair, rd_wr_same _ _ _ fitg]
    have hcount : (s.wrs [(f, v), (g, k)]).rd c = s.rd c := by
      rw [wrs_pair, rd_wr_apart _ _ _ _ fitg (.inr above), rd_wr_addr _ _ _ _ cf]
    have hwords : ∀ x, x ≠ f.addr → x ≠ g.addr → (s.wrs [(f, v), (g, k)]).word x = s.word x := fun x h1 h2 => by
      rw [wrs_pair, word_wr_ne _ _ _ h2, word_wr_ne _ _ _ h1]
    have hwithin := wrs_within s [(f, v), (g, k)]
    generalize s.wrs [(f, v), (g, k)] = t at *
    refine ⟨?_, fun _ => ⟨?_, ?_, rfl⟩, fun h => absurd h (by decide), fun x h1 h2 => ?_, ?_⟩
    · rw [rd_addSat_same _ _ _ fitc, withHost_rd, hcount]
    · rw [State.addSat, rd_wr_apart _ _ _ _ fitc (.inl above), withHost_rd, hcode]
    · rw [State.addSat, rd_wr_addr _ _ _ _ cf.symm, withHost_rd, hfield]
    · rw [word_addSat_ne _ _ _ (shared ▸ h2), withHost_word, hwords x h1 h2]
    · exact ((hwithin.mono rfl).trans ((withHost_within t h).mono rfl)).trans ((addSat_within _ c 1).mono rfl)
  | false =>
    change Captured f g c v k false h s (s.addSat c 1)
    refine ⟨rd_addSat_same _ _ _ fitc, fun h => absurd h (by decide), fun _ => ⟨rd_wr_apart _ _ _ _ fitc (.inl above),
      word_addSat_ne _ _ _ cf.symm, rfl⟩, fun x _ h2 => word_addSat_ne _ _ _ (shared ▸ h2), (addSat_within s c 1).mono rfl⟩

theorem Captured.changes {f g c : Field} {v k : Nat} {fresh : Bool} {h : HostSide} {s u : State} (hc : Captured f g c v k fresh h s u)
    {l : List Nat} (hf : f.addr ∈ l) (hg : g.addr ∈ l) : Changes l [.host] s u :=
  ⟨fun x hx _ => hc.words x (fun e => hx (e ▸ hf)) (fun e => hx (e ▸ hg)), hc.within.mono rfl⟩

/-! ### Bus errors (R47) -/

/-- What a bus error with cause `k` at offset `a` leaves. -/
structure BusErrorRecorded (k a : Nat) (s u : State) : Prop where
  event : u.pend 216 = true
  count : u.rd CHIP.BUSERR_STATUS.count = min 0xFFFF (s.rd CHIP.BUSERR_STATUS.count + 1)
  first : s.host.busFresh = true → u.rd CHIP.BUSERR_STATUS.cause = k ∧ u.rd CHIP.BUSERR_ADDR.addr = a
  later : s.host.busFresh = false → u.rd CHIP.BUSERR_STATUS.cause = s.rd CHIP.BUSERR_STATUS.cause ∧
    u.word CHIP.BUSERR_ADDR = s.word CHIP.BUSERR_ADDR
  host : u.host = { s.host with busFresh := false }
  changes : Changes [CHIP.BUSERR_STATUS, CHIP.BUSERR_ADDR] [.host] s u

theorem busError_eq (c : BusCause) (a : Nat) (s : State) : busError c a s = logEvent 0 (capture CHIP.BUSERR_ADDR.addr
    CHIP.BUSERR_STATUS.cause CHIP.BUSERR_STATUS.count a c.code s.host.busFresh { s.host with busFresh := false } s) := rfl

theorem BusCause.code_lt (c : BusCause) : c.code < 4 := by cases c <;> decide

theorem busError_recorded (c : BusCause) {a : Nat} (s : State) (ha : a < 2 ^ 26) : BusErrorRecorded c.code a s (busError c a s) := by
  rw [busError_eq]
  have captured := capture_captured (f := CHIP.BUSERR_ADDR.addr) (g := CHIP.BUSERR_STATUS.cause) (c := CHIP.BUSERR_STATUS.count)
    ⟨by decide, rfl, by decide, by decide⟩ a c.code s.host.busFresh { s.host with busFresh := false } s
  generalize capture _ _ _ _ _ _ _ s = t at captured
  have aside : Aside t (logEvent 0 t) := logEvent_aside _ (by decide)
  refine ⟨causeEvent_pend _ _ _ (by decide), (aside.rd _ rfl).trans captured.count, fun h => ?_, fun h => ?_, aside.host.trans ?_,
    (captured.changes (by decide) (by decide)).trans aside.changes⟩
  · obtain ⟨hcause, haddr, _⟩ := captured.first h
    exact ⟨(aside.rd _ rfl).trans (hcause.trans (Nat.mod_eq_of_lt c.code_lt)), (aside.rd _ rfl).trans (haddr.trans (Nat.mod_eq_of_lt ha))⟩
  · obtain ⟨hcause, haddr, _⟩ := captured.later h
    exact ⟨(aside.rd _ rfl).trans hcause, (aside.words _ rfl).trans haddr⟩
  · cases h : s.host.busFresh with
    | true => exact (captured.first h).2.2
    | false => exact (captured.later h).2.2.trans (by rw [← h])

/-- A change of output or counting after the bus error. -/
theorem BusErrorRecorded.emit {k a : Nat} {s u : State} (h : BusErrorRecorded k a s u) (o : Output) : BusErrorRecorded k a s (u.emit o) :=
  ⟨h.event, h.count, h.first, h.later, h.host, h.changes.trans (aside_emit _ _).changes⟩

/-! ### Writes without effect (R36) -/

/-- What a write at `a` in block `b` without effect, for reason `k`, leaves. -/
structure WriteIgnored (k a : Nat) (b : Block) (s u : State) : Prop where
  count : u.rd CHIP.IGN_WRITE_STATUS.count = min 0xFFFF (s.rd CHIP.IGN_WRITE_STATUS.count + 1)
  first : s.host.ignFresh = true → u.rd CHIP.IGN_WRITE_STATUS.reason = k ∧ u.rd CHIP.IGN_WRITE_ADDR.addr = a
  later : s.host.ignFresh = false → u.rd CHIP.IGN_WRITE_STATUS.reason = s.rd CHIP.IGN_WRITE_STATUS.reason ∧
    u.word CHIP.IGN_WRITE_ADDR = s.word CHIP.IGN_WRITE_ADDR
  block : ∀ st, b.bankStatus = some st → u.word st = s.word st ||| 0x10000
  host : u.host = { s.host with ignFresh := false }
  changes : Changes ([CHIP.IGN_WRITE_STATUS, CHIP.IGN_WRITE_ADDR] ++ b.bankStatus.toList) [.host] s u

/-- The block's ign_write bit, the first thing an ignored write sets. -/
def Block.markIgnored (b : Block) (s : State) : State :=
  match b.bankStatus with
  | some st => s.orWord st ignWriteBit
  | none => s

theorem ignored_eq {r : Ignored} {a off : Nat} {b : Block} {s : State} (hb : blockOf a = some (b, off)) :
    ignored r a s = capture CHIP.IGN_WRITE_ADDR.addr CHIP.IGN_WRITE_STATUS.reason CHIP.IGN_WRITE_STATUS.count a r.code
      (b.markIgnored s).host.ignFresh { (b.markIgnored s).host with ignFresh := false } (b.markIgnored s) := by
  unfold ignored
  rw [hb]
  rfl

theorem Ignored.code_lt (r : Ignored) : r.code < 8 := by cases r <;> decide

theorem markIgnored_host (b : Block) (s : State) : (b.markIgnored s).host = s.host := by
  unfold Block.markIgnored
  split <;> rfl

theorem word_markIgnored (b : Block) (s : State) (x : Nat) :
    (b.markIgnored s).word x = if b.bankStatus = some x then s.word x ||| ignWriteBit else s.word x := by
  unfold Block.markIgnored
  split
  · next st h =>
    rw [word_orWord]
    by_cases e : x = st
    · subst e; simp [h]
    · simp [h, e, Ne.symm e]
  · next h => simp [h]

theorem markIgnored_changes (b : Block) (s : State) (l : List Nat) : Changes (l ++ b.bankStatus.toList) [.host] s (b.markIgnored s) := by
  unfold Block.markIgnored
  split
  · next st h => exact changes_setWord _ _ _ (by simp [h])
  · exact changes_refl _ _ _

theorem ignored_recorded (r : Ignored) {a off : Nat} {b : Block} (s : State) (hb : blockOf a = some (b, off)) :
    WriteIgnored r.code a b s (ignored r a s) := by
  have ha : a < 2 ^ 26 := Nat.lt_trans (blockOf_lt hb) (by decide)
  have far {st : Nat} (h : b.bankStatus = some st) : 0x10000 ≤ st := (bankStatus_place hb h).1
  have hmark : ∀ st, b.bankStatus = some st → (b.markIgnored s).word st = s.word st ||| 0x10000 := fun st h => by
    rw [word_markIgnored, if_pos h]; rfl
  have hword (x : Nat) (hx : x < 0x10000) : (b.markIgnored s).word x = s.word x := by
    rw [word_markIgnored, if_neg fun h => by have := far h; omega]
  have hhost := markIgnored_host b s
  have hm := markIgnored_changes b s [CHIP.IGN_WRITE_STATUS, CHIP.IGN_WRITE_ADDR]
  rw [ignored_eq hb]
  generalize b.markIgnored s = m at hhost hm hword hmark
  have captured := capture_captured (f := CHIP.IGN_WRITE_ADDR.addr) (g := CHIP.IGN_WRITE_STATUS.reason) (c := CHIP.IGN_WRITE_STATUS.count)
    ⟨by decide, rfl, by decide, by decide⟩ a r.code m.host.ignFresh { m.host with ignFresh := false } m
  generalize capture _ _ _ _ _ _ _ m = t at captured
  rw [hhost] at captured
  have hrd (f : Field) (hf : f.addr < 0x10000) : m.rd f = s.rd f := by rw [State.rd, hword _ hf]; rfl
  refine ⟨captured.count.trans (by rw [hrd _ (by decide)]; rfl), fun h => ?_, fun h => ?_, fun st h => ?_, ?_,
    hm.trans (captured.changes (by simp [CHIP.IGN_WRITE_ADDR, CHIP.IGN_WRITE_ADDR.addr]) (by simp [CHIP.IGN_WRITE_STATUS, CHIP.IGN_WRITE_STATUS.reason]))⟩
  · obtain ⟨hreason, haddr, _⟩ := captured.first h
    exact ⟨hreason.trans (Nat.mod_eq_of_lt r.code_lt), haddr.trans (Nat.mod_eq_of_lt ha)⟩
  · obtain ⟨hreason, haddr, _⟩ := captured.later h
    exact ⟨hreason.trans (hrd _ (by decide)), haddr.trans (hword _ (by decide))⟩
  · have := far h
    refine (captured.words st ?_ ?_).trans (hmark st h)
    · simp only [CHIP.IGN_WRITE_ADDR.addr]; omega
    · simp only [CHIP.IGN_WRITE_STATUS.reason]; omega
  · cases h : s.host.ignFresh with
    | true => exact (captured.first h).2.2
    | false => exact (captured.later h).2.2.trans (hhost.trans (by rw [← h]))

/-- What is counted after an ignored write leaves its record. -/
theorem WriteIgnored.aside {k a a' off : Nat} {b : Block} {s t u : State} (h : WriteIgnored k a b s t) (hb : blockOf a' = some (b, off))
    (hu : Aside t u) : WriteIgnored k a b s u where
  count := (hu.rd _ rfl).trans h.count
  first := fun hf => ⟨(hu.rd _ rfl).trans (h.first hf).1, (hu.rd _ rfl).trans (h.first hf).2⟩
  later := fun hf => ⟨(hu.rd _ rfl).trans (h.later hf).1, (hu.words _ rfl).trans (h.later hf).2⟩
  block := fun st hst => (hu.words _ (bankStatus_place hb hst).2).trans (h.block st hst)
  host := hu.host.trans h.host
  changes := h.changes.trans hu.changes

/-! ### The clamp log (R39) -/

theorem clampPush_changes (e : ClampEntry) (s : State) (l : List Nat) (h : CHIP.CLAMP_STATUS ∈ l) : Changes l [.host] s (clampPush e s) := by
  unfold clampPush
  split
  · exact changes_wr _ _ _ h
  · dsimp only
    have logged : Changes l [.host] s { s with host := { s.host with clampLog := s.host.clampLog ++ [e] } } := by
      refine changes_parts rfl fun p hp => ?_
      cases p <;> first | rfl | (simp [records] at hp)
    split
    · exact logged.trans (logEvent_aside _ (by decide)).changes
    · exact logged

end Sys2Proof.Machine
end

section
/-! SUPPORT. A register write, by the kind of its register: the fields of an RW register, a commit, a write without effect. -/

namespace Sys2Proof.Machine

/-! ### Table lines (R37, R489) -/

/-- A field the write stores. -/
def FieldDef.stores (f : FieldDef) : Bool := f.access == .rw || f.access == .rh

/-- Every legal value fits the field. -/
def FieldDef.legalFits (f : FieldDef) : Bool :=
  match f.legal with
  | .any => true
  | .range lo hi => decide (lo < 2 ^ f.width) && decide (hi < 2 ^ f.width)
  | .pow2 => decide (64 < 2 ^ f.width)
  | .counterEvent => true

/-- A register's fields fall from high to low without overlap, lie in the word, and hold every legal value. -/
abbrev RegDef.Sound (r : RegDef) : Prop :=
  r.fields.Pairwise (fun f g => g.lsb + g.width ≤ f.lsb) ∧ ∀ f ∈ r.fields, f.lsb + f.width ≤ 32 ∧ f.legalFits = true

theorem tableOf_sound (b : Block) : ∀ r ∈ tableOf b, r.Sound := by
  cases b with
  | port n => exact (by decide : ∀ r ∈ tableP, r.Sound)
  | _ => decide

theorem nearest_lt {f : FieldDef} {v : Nat} (i : Nat) (hf : f.legalFits = true) (hv : v < 2 ^ f.width) : f.legal.nearest i v < 2 ^ f.width := by
  unfold FieldDef.legalFits at hf
  cases hl : f.legal with
  | any => exact hv
  | range lo hi =>
    simp only [hl, Bool.and_eq_true, decide_eq_true_eq] at hf
    simp only [Legal.nearest]
    split_ifs <;> omega
  | pow2 =>
    simp only [hl, decide_eq_true_eq] at hf
    simp only [Legal.nearest]
    split_ifs <;> omega
  | counterEvent =>
    have := Nat.two_pow_pos f.width
    simp only [Legal.nearest]
    split_ifs <;> omega

theorem bitsOf_lt (w : Word) (l k : Nat) : bitsOf w l k < 2 ^ k := Nat.mod_lt _ (Nat.two_pow_pos k)

theorem bitsOf_withBits_apart (w : Word) {l k l' k' : Nat} (v : Nat) (h : l + k ≤ 32) (hd : l' + k' ≤ l ∨ l + k ≤ l') :
    bitsOf (withBits w l k v) l' k' = bitsOf w l' k' := by
  rcases hd with hd | hd
  · exact bitsOf_withBits_below _ _ _ _ _ _ h hd
  · exact bitsOf_withBits_above _ _ _ _ _ _ h hd

/-! ### The fields of a written register -/

section
variable {a : Nat} (i : Nat) (v : Word)

theorem putField_skip {f : FieldDef} (s : State) (h : f.stores = false) : putField a i v s f = s := if_neg (by rw [← FieldDef.stores, h]; decide)

theorem putField_same {f : FieldDef} (s : State) (h : f.stores = true)
    (hl : f.legal.nearest i (bitsOf v f.lsb f.width) = bitsOf v f.lsb f.width) :
    putField a i v s f = s.setWord a (withBits (s.word a) f.lsb f.width (f.legal.nearest i (bitsOf v f.lsb f.width))) := by
  exact (if_pos h).trans (if_pos hl.symm)

theorem putField_clamped {f : FieldDef} (s : State) (h : f.stores = true)
    (hl : f.legal.nearest i (bitsOf v f.lsb f.width) ≠ bitsOf v f.lsb f.width) :
    putField a i v s f = clampPush
      { addr := a, lsb := f.lsb, width := f.width, source := 0, written := bitsOf v f.lsb f.width, applied := f.legal.nearest i (bitsOf v f.lsb f.width) }
      (s.setWord a (withBits (s.word a) f.lsb f.width (f.legal.nearest i (bitsOf v f.lsb f.width)))) := by
  exact (if_pos h).trans (if_neg (Ne.symm hl))

theorem putField_changes (s : State) (f : FieldDef) : Changes [a, CHIP.CLAMP_STATUS] [.host] s (putField a i v s f) := by
  have hset (w : Word) : Changes [a, CHIP.CLAMP_STATUS] [.host] s (s.setWord a w) := changes_setWord _ _ _ (by simp)
  cases h : f.stores with
  | false => rw [putField_skip i v s h]; exact changes_refl _ _ _
  | true =>
    by_cases hl : f.legal.nearest i (bitsOf v f.lsb f.width) = bitsOf v f.lsb f.width
    · rw [putField_same i v s h hl]; exact hset _
    · rw [putField_clamped i v s h hl]; exact (hset _).trans (clampPush_changes _ _ _ (by simp))

theorem word_clampPush (e : ClampEntry) (s : State) (ha : a ≠ CHIP.CLAMP_STATUS) (hr : recordArea a = false) :
    (clampPush e s).word a = s.word a :=
  (clampPush_changes e s [CHIP.CLAMP_STATUS] (by simp)).registers a (by simpa using ha) hr

theorem word_putField {f : FieldDef} (s : State) (ha : a ≠ CHIP.CLAMP_STATUS) (hr : recordArea a = false) (h : f.stores = true) :
    (putField a i v s f).word a = withBits (s.word a) f.lsb f.width (f.legal.nearest i (bitsOf v f.lsb f.width)) := by
  by_cases hl : f.legal.nearest i (bitsOf v f.lsb f.width) = bitsOf v f.lsb f.width
  · rw [putField_same i v s h hl, word_setWord_same]
  · rw [putField_clamped i v s h hl, word_clampPush _ _ ha hr, word_setWord_same]

/-- Two fields of one register that do not overlap. -/
def FieldDef.apart (f g : FieldDef) : Prop := g.lsb + g.width ≤ f.lsb ∨ f.lsb + f.width ≤ g.lsb

theorem bits_putField_apart {f g : FieldDef} (s : State) (ha : a ≠ CHIP.CLAMP_STATUS) (hr : recordArea a = false)
    (hf : f.lsb + f.width ≤ 32) (hd : f.apart g) :
    bitsOf ((putField a i v s f).word a) g.lsb g.width = bitsOf (s.word a) g.lsb g.width := by
  cases h : f.stores with
  | false => rw [putField_skip i v s h]
  | true => rw [word_putField i v s ha hr h, bitsOf_withBits_apart _ _ hf hd]

theorem bits_foldl_apart {g : FieldDef} (l : List FieldDef) (s : State) (ha : a ≠ CHIP.CLAMP_STATUS) (hr : recordArea a = false)
    (hl : ∀ f ∈ l, f.lsb + f.width ≤ 32 ∧ f.apart g) :
    bitsOf ((l.foldl (putField a i v) s).word a) g.lsb g.width = bitsOf (s.word a) g.lsb g.width := by
  induction l generalizing s with
  | nil => rfl
  | cons f t ih =>
    obtain ⟨hf, hd⟩ := hl f (by simp)
    rw [List.foldl_cons, ih _ fun x hx => hl x (by simp [hx]), bits_putField_apart i v s ha hr hf hd]

/-- After the fields of a register are written, each that is stored reads its nearest legal value. -/
theorem bits_foldl_putField (l : List FieldDef) (s : State) (ha : a ≠ CHIP.CLAMP_STATUS) (hr : recordArea a = false)
    (hp : l.Pairwise FieldDef.apart) (hl : ∀ f ∈ l, f.lsb + f.width ≤ 32 ∧ f.legalFits = true) {g : FieldDef} (hg : g ∈ l)
    (hs : g.stores = true) :
    bitsOf ((l.foldl (putField a i v) s).word a) g.lsb g.width = g.legal.nearest i (bitsOf v g.lsb g.width) := by
  induction l generalizing s with
  | nil => simp at hg
  | cons f t ih =>
    obtain ⟨hft, ht⟩ := List.pairwise_cons.mp hp
    rw [List.foldl_cons]
    rcases List.mem_cons.mp hg with rfl | hg
    · obtain ⟨fits, legal⟩ := hl g (by simp)
      rw [bits_foldl_apart i v t _ ha hr fun x hx => ⟨(hl x (by simp [hx])).1, (hft x hx).symm⟩, word_putField i v s ha hr hs,
        bitsOf_withBits _ _ _ _ fits, Nat.mod_eq_of_lt (nearest_lt i legal (bitsOf_lt _ _ _))]
    · exact ih _ ht (fun x hx => hl x (by simp [hx])) hg

theorem foldl_putField_changes (l : List FieldDef) (s : State) :
    Changes [a, CHIP.CLAMP_STATUS] [.host] s (l.foldl (putField a i v) s) := by
  induction l generalizing s with
  | nil => exact changes_refl _ _ s
  | cons f t ih => exact (putField_changes i v s f).trans (ih _)

theorem foldl_putField_legal (l : List FieldDef) (s : State)
    (hl : ∀ f ∈ l, f.legal.nearest i (bitsOf v f.lsb f.width) = bitsOf v f.lsb f.width) :
    (l.foldl (putField a i v) s).host = s.host ∧ Changes [a] [] s (l.foldl (putField a i v) s) := by
  induction l generalizing s with
  | nil => exact ⟨rfl, changes_refl _ _ s⟩
  | cons f t ih =>
    have one : (putField a i v s f).host = s.host ∧ Changes [a] [] s (putField a i v s f) := by
      cases h : f.stores with
      | false => rw [putField_skip i v s h]; exact ⟨rfl, changes_refl _ _ s⟩
      | true => rw [putField_same i v s h (hl f (by simp))]; exact ⟨rfl, changes_setWord _ _ _ (by simp)⟩
    obtain ⟨hhost, hchanges⟩ := ih (putField a i v s f) fun x hx => hl x (by simp [hx])
    exact ⟨hhost.trans one.1, one.2.trans hchanges⟩

theorem foldl_putField_none (l : List FieldDef) (s : State) (hl : ∀ f ∈ l, f.stores = false) : l.foldl (putField a i v) s = s := by
  induction l with
  | nil => rfl
  | cons f t ih => rw [List.foldl_cons, putField_skip i v s (hl f (by simp)), ih fun x hx => hl x (by simp [hx])]

/-! ### Its reserved fields -/

theorem clampReserved_changes (s : State) (g : Nat × Nat) : Changes [CHIP.CLAMP_STATUS] [.host] s (clampReserved a v s g) := by
  unfold clampReserved
  dsimp only
  split
  · exact changes_refl _ _ s
  · exact clampPush_changes _ _ _ (by simp)

theorem foldl_clampReserved_changes (l : List (Nat × Nat)) (s : State) :
    Changes [CHIP.CLAMP_STATUS] [.host] s (l.foldl (clampReserved a v) s) := by
  induction l generalizing s with
  | nil => exact changes_refl _ _ s
  | cons g t ih => exact (clampReserved_changes v s g).trans (ih _)

theorem foldl_clampReserved_zero (l : List (Nat × Nat)) (s : State) (hl : ∀ g ∈ l, bitsOf v g.1 g.2 = 0) :
    l.foldl (clampReserved a v) s = s := by
  induction l with
  | nil => rfl
  | cons g t ih =>
    have : clampReserved a v s g = s := if_pos (hl g (by simp))
    rw [List.foldl_cons, this, ih fun x hx => hl x (by simp [hx])]

end

/-! ### The fields together -/

section
variable {a off : Nat} {b : Block} {r : RegDef} (v : Word) (s : State)

theorem putFields_changes : Changes [a, CHIP.CLAMP_STATUS] [.host] s (putFields a off r v s) :=
  (foldl_putField_changes _ _ _ _).trans ((foldl_clampReserved_changes _ _ _).mono (by simp) rfl)

/-- A written register's fields read the nearest legal values. -/
theorem bits_putFields (hmem : r ∈ tableOf b) (ha : a ≠ CHIP.CLAMP_STATUS) (hr : recordArea a = false) {g : FieldDef} (hg : g ∈ r.fields)
    (hs : g.stores = true) :
    bitsOf ((putFields a off r v s).word a) g.lsb g.width = g.legal.nearest (r.index off) (bitsOf v g.lsb g.width) := by
  obtain ⟨apart, fits⟩ := tableOf_sound b r hmem
  have reserved (t : State) : (r.reserved.foldl (clampReserved a v) t).word a = t.word a :=
    (foldl_clampReserved_changes v _ t).registers a (by simpa using ha) hr
  rw [putFields, reserved]
  refine bits_foldl_putField _ v _ s ha hr ?_ (fun f hf => fits f (List.mem_reverse.mp hf)) (List.mem_reverse.mpr hg) hs
  exact List.pairwise_reverse.mpr (apart.imp fun {f g} h => .inr h)

theorem putFields_legal (hl : ∀ g ∈ r.fields, g.legal.nearest (r.index off) (bitsOf v g.lsb g.width) = bitsOf v g.lsb g.width)
    (hz : ∀ g ∈ r.reserved, bitsOf v g.1 g.2 = 0) :
    (putFields a off r v s).host = s.host ∧ Changes [a] [] s (putFields a off r v s) := by
  rw [putFields, foldl_clampReserved_zero v _ _ hz]
  exact foldl_putField_legal _ v _ s fun f hf => hl f (List.mem_reverse.mp hf)

theorem putFields_none (hf : ∀ g ∈ r.fields, g.stores = false) (hz : ∀ g ∈ r.reserved, bitsOf v g.1 g.2 = 0) :
    putFields a off r v s = s := by
  rw [putFields, foldl_clampReserved_zero v _ _ hz, foldl_putField_none _ v _ s fun f hf' => hf f (List.mem_reverse.mp hf')]

end

/-! ### RW registers of double-buffered blocks (R33, R34) -/

/-- The register of a double-buffered block whose write selects what a window shows. -/
def Block.selector : Block → Option Nat
  | .wheel => some 0x40
  | .ss => some 0x28
  | .cal => some 0x20
  | .perf => some 0x68
  | _ => none

theorem afterWrite_of_not_selector {b : Block} {off : Nat} (lin : BitVec 4) (was : Word) (s : State) (hb : b.doubleBuffered = true)
    (h : b.selector ≠ some off) : afterWrite b off lin was s = s := by
  cases b with
  | chip | evt | hsl | sq | tst | log | dma | pwr => cases hb
  | wheel | ss | cal | perf => exact if_neg fun e => h (by rw [e]; rfl)
  | port n => rfl
  | jug | trip | bist => rfl

/-- A register with an RW field in a double-buffered block has RW fields alone and selects nothing. -/
theorem rw_line {b : Block} (hb : b.doubleBuffered = true) : ∀ r ∈ tableOf b, r.hasRW = true →
    (∀ f ∈ r.fields, f.access = .rw) ∧ ∀ off ∈ b.selector, r.covers off = false := by
  cases b with
  | chip | evt | hsl | sq | tst | log | dma | pwr => cases hb
  | port n => exact (by decide : ∀ r ∈ tableP, r.hasRW = true → (∀ f ∈ r.fields, f.access = .rw) ∧ ∀ off ∈ (none : Option Nat), r.covers off = false)
  | _ => decide

theorem wcBits_nil {b : Block} {off : Nat} {r : RegDef} (h : ∀ f ∈ r.fields, f.access = .rw) : r.wcBits b off = [] := by
  have : r.fields.filter (fun f => f.access == .wc) = [] := List.filter_eq_nil_iff.mpr fun f hf => by rw [h f hf]; decide
  simp [RegDef.wcBits, this]

section
variable {a off : Nat} {b : Block} {r : RegDef} {w : Writer} {v : Word} {x : WriteSide} {s : State}

theorem hasRW_takesWrite (hr : r.hasRW = true) : r.fields.any (·.takesWrite) = true := by
  obtain ⟨f, hf, h⟩ := List.any_eq_true.mp hr
  exact List.any_eq_true.mpr ⟨f, hf, by simp only [FieldDef.takesWrite, h, Bool.true_or]⟩

theorem ne_pwr (hb : b.doubleBuffered = true) : (b == .pwr) = false := by cases b <;> first | rfl | cases hb

/-- What a write of a double-buffered block's register that takes writes meets first: Sealed operation, then the pending bank. -/
theorem writeReg_doubleBuffered (h : homeOf a = some (.reg b off r)) (hb : b.doubleBuffered = true)
    (ht : r.fields.any (·.takesWrite) = true) (hseal : w.isHost = false ∨ s.sealed = false) :
    writeReg w a v x s = if r.hasRW && s.bankPending b then ignored .pending a s else takeWrite b a off r v x s := by
  have hs : (w.isHost && s.sealed) = false := by rcases hseal with h | h <;> simp [h]
  have guard : s.guardOf b off = .free := by cases b <;> first | rfl | cases hb
  simp [writeReg, h, ht, ne_pwr hb, judgeWrite, hs, hb, guard]

theorem takeWrite_rw (h : homeOf a = some (.reg b off r)) (hb : b.doubleBuffered = true) (hr : r.hasRW = true) :
    takeWrite b a off r v x s = putFields a off r v s := by
  obtain ⟨mem, cov⟩ := findReg_mem (homeOf_reg h).2
  obtain ⟨hrw, hsel⟩ := rw_line hb r mem hr
  have : b.selector ≠ some off := fun e => by
    have := hsel off (by rw [e]; rfl)
    rw [cov] at this
    cases this
  rw [takeWrite, wcBits_nil hrw, afterWrite_of_not_selector _ _ _ hb this]
  rfl

/-- A write of an RW register whose bank is not pending: its fields (R33, R37). -/
theorem writeReg_rw (h : homeOf a = some (.reg b off r)) (hb : b.doubleBuffered = true) (hr : r.hasRW = true)
    (hseal : w.isHost = false ∨ s.sealed = false) (hp : s.bankPending b = false) : writeReg w a v x s = putFields a off r v s := by
  rw [writeReg_doubleBuffered h hb (hasRW_takesWrite hr) hseal, hp, Bool.and_false, if_neg (by decide), takeWrite_rw h hb hr]

/-- A write of an RW register whose bank is pending is ignored (R34). -/
theorem writeReg_pending (h : homeOf a = some (.reg b off r)) (hb : b.doubleBuffered = true) (hr : r.hasRW = true)
    (hseal : w.isHost = false ∨ s.sealed = false) (hp : s.bankPending b = true) : writeReg w a v x s = ignored .pending a s := by
  rw [writeReg_doubleBuffered h hb (hasRW_takesWrite hr) hseal, hp, hr]
  rfl

end

/-! ### Commits (R33, R465) -/

/-- What the table line of a commit register is: nothing the write stores, one command bit. -/
structure CommitLine (b : Block) (off : Nat) (r : RegDef) : Prop where
  noRW : r.hasRW = false
  takes : r.fields.any (·.takesWrite) = true
  stores : ∀ f ∈ r.fields, f.stores = false
  reserved : ∀ g ∈ r.reserved, bitsOf 1 g.1 g.2 = 0
  bits : r.wcBits b off = [0]
  selects : b.selector ≠ some off

/-- The offset of a block's commit register. -/
def Block.commitOff : Block → Nat
  | .wheel => 0x34 | .ss => 0x18 | .trip => 0x90 | .cal => 0x30 | .bist => 0x30 | .perf => 0xC
  | _ => 0

theorem commitAt_off {b : Block} {off : Nat} (h : b.commitAt = some (b.base + off)) : off = b.commitOff := by
  cases b with
  | chip | evt | hsl | sq | tst | log | dma | pwr => cases h
  | port n =>
    simp only [Block.commitAt, Block.bankCtrl, Block.base, Block.commitOff, portAddr, P.BANK_CTRL, Option.some.injEq] at h ⊢
    omega
  | _ =>
    have := Option.some.inj h
    simp only [Block.base, WHEEL.BANK_CTRL, JUG.BANK_CTRL, SS.BANK_CTRL, TRIP.BANK_CTRL, CAL.BANK_CTRL, BIST.BANK_CTRL, PERF.BANK] at this
    simp only [Block.commitOff]
    omega

theorem commit_line {a off : Nat} {b : Block} {r : RegDef} (h : homeOf a = some (.reg b off r)) (hc : b.commitAt = some a) :
    CommitLine b off r := by
  obtain ⟨hblock, hr⟩ := homeOf_reg h
  rw [blockOf_eq hblock] at hc
  obtain rfl := commitAt_off hc
  cases b with
  | chip | evt | hsl | sq | tst | log | dma | pwr => cases hc
  | _ =>
    obtain rfl := Option.some.inj ((Eq.symm hr).trans rfl)
    exact ⟨by decide, by decide, by decide, by decide, rfl, fun h => by cases h⟩

theorem wcCommand_commit {b : Block} {off : Nat} (f : Option FuseLeft) (s : State) (h : b.commitAt = some (b.base + off)) :
    wcCommand b off 0 f s = commitBank b (b.base + off) s := by
  unfold wcCommand
  exact if_pos (by simp [h])

theorem writeReg_commit {a off : Nat} {b : Block} {r : RegDef} {w : Writer} {x : WriteSide} {s : State}
    (h : homeOf a = some (.reg b off r)) (hb : b.doubleBuffered = true) (hc : b.commitAt = some a)
    (hseal : w.isHost = false ∨ s.sealed = false) : writeReg w a 1 x s = commitBank b a s := by
  have line := commit_line h hc
  rw [writeReg_doubleBuffered h hb line.takes hseal, line.noRW, Bool.false_and, if_neg (by decide), takeWrite,
    putFields_none _ _ line.stores line.reserved, afterWrite_of_not_selector _ _ _ hb line.selects, line.bits]
  obtain rfl := blockOf_eq (homeOf_reg h).1
  exact wcCommand_commit _ _ hc

theorem commitBank_free {a : Nat} {b : Block} {s : State} (h : s.bankPending b = false) : commitBank b a s = s.setPending b true := by
  rw [commitBank, h]
  rfl

theorem commitBank_pending {a : Nat} {b : Block} {s : State} (h : s.bankPending b = true) : commitBank b a s = ignored .pending a s := by
  rw [commitBank, h]
  rfl

theorem setPending_changes (s : State) (b : Block) (v : Bool) : Changes b.bankCtrl.toList [] s (s.setPending b v) := by
  unfold State.setPending
  split
  · next c h => exact changes_setWord _ _ _ (by simp [h])
  · exact changes_refl _ _ _

theorem pendingBit_lt (b : Block) : b.pendingBit < 32 := by
  unfold Block.pendingBit
  split <;> decide

theorem bankPending_setPending {b : Block} (s : State) (hb : b.doubleBuffered = true) : (s.setPending b true).bankPending b = true := by
  obtain ⟨c, hc⟩ : ∃ c, b.bankCtrl = some c := by cases b <;> first | exact ⟨_, rfl⟩ | cases hb
  simp only [State.bankPending, State.setPending, hc, if_true, word_setWord_same, bitOf_withBitSet _ _ (pendingBit_lt b), decide_true,
    Bool.or_true]

/-- A block's pending bit stands in its bankCtrl word. -/
theorem bankPending_congr {b : Block} {s t : State} (h : ∀ c, b.bankCtrl = some c → bitOf (t.word c) b.pendingBit = bitOf (s.word c) b.pendingBit) :
    t.bankPending b = s.bankPending b := by
  unfold State.bankPending
  split
  · next c hc => exact h c hc
  · rfl

theorem bankPending_aside {a off : Nat} {b : Block} {s t : State} (hb : blockOf a = some (b, off)) (h : Aside s t) :
    t.bankPending b = s.bankPending b :=
  bankPending_congr fun c hc => by rw [h.words _ (bankCtrl_place hb hc).2]

/-! ### The host's word (R30, R47) -/

theorem accessError_of_home {a : Nat} {be : BitVec 4} {isRead : Bool} {s : State} (h : (homeOf a).isSome = true)
    (hg : s.gate a isRead ≠ .absent) (hbe : goodEnables be = true) (hz : be ≠ 0) :
    s.accessError a be isRead = if !isRead && be != 15 then some .narrow else none := by
  have hn : (homeOf a).isNone = false := by rw [← Option.not_isSome, h]; rfl
  rw [State.accessError, if_neg hz, hbe, if_neg hg, inWindow_of_home h, inAlias_of_home h, hn]
  rfl

theorem accessError_word {a : Nat} {isRead : Bool} {s : State} (h : (homeOf a).isSome = true) (hg : s.gate a isRead = .served) :
    s.accessError a 15 isRead = none := by
  rw [accessError_of_home h (by rw [hg]; decide) (by decide) (by decide)]
  cases isRead <;> rfl

theorem writePart_served {a : Nat} {w : Writer} {v : Word} {x : WriteSide} {s : State} (h : (homeOf a).isSome = true)
    (hg : s.gate a false = .served) : writePart w a 15 v x s = perfCount 4 0x06 (writeReg w a v x s) := by
  rw [writePart, if_neg (by decide), hg]
  simp only
  rw [accessError_word h hg]
  simp only [inWindow_of_home h, inAlias_of_home h, Bool.false_eq_true, if_false]

theorem exec_hostRegisterWrite_one (a : BitVec 24) (be : BitVec 4) (v : Word) (f : Option FuseLeft) (s : State) :
    exec (.hostRegisterWrite a [(be, v)] f) s = .next (writePart .pcie (4 * a.toNat) be v { fuse := f, linear := 0 } s) := rfl

end Sys2Proof.Machine
end

section
/-! SUPPORT. A pending bank ignores writes (R34). -/

namespace Sys2Proof.Machine

/-- A register beyond CHIP and EVT after an ignored write: unchanged but for the block's ign_write. -/
theorem WriteIgnored.word {k a x : Nat} {b : Block} {s u : State} (h : WriteIgnored k a b s u) (hx : 0x10000 ≤ x) (hr : recordArea x = false) :
    u.word x = if b.bankStatus = some x then s.word x ||| 0x10000 else s.word x := by
  split
  · next e => exact h.block x e
  · next e =>
    refine h.changes.registers x ?_ hr
    simp only [List.mem_append, List.mem_cons, List.not_mem_nil, or_false, Option.mem_toList, e]
    simp only [CHIP.IGN_WRITE_STATUS, CHIP.IGN_WRITE_ADDR]
    omega

theorem pendingBit_ignWrite (b : Block) (w : Word) : bitOf (w ||| 0x10000) b.pendingBit = bitOf w b.pendingBit := by
  have : bitOf (0x10000 : Word) b.pendingBit = false := by
    unfold Block.pendingBit
    split <;> decide
  rw [bitOf, BitVec.getLsbD_or, ← bitOf, ← bitOf, this, Bool.or_false]

/-- An ignored write leaves every pending bit of its block. -/
theorem WriteIgnored.bankPending {k a a' off : Nat} {b : Block} {s u : State} (h : WriteIgnored k a b s u)
    (hb : blockOf a' = some (b, off)) : u.bankPending b = s.bankPending b :=
  bankPending_congr fun c hc => by
    obtain ⟨far, apart⟩ := bankCtrl_place hb hc
    rw [h.word far apart]
    split
    · exact pendingBit_ignWrite _ _
    · rfl

/-- A commit register is no record. -/
theorem commit_place {a off : Nat} {b : Block} (h : blockOf a = some (b, off)) (hb : b.doubleBuffered = true) (hc : b.commitAt = some a) :
    recordArea a = false := by
  obtain ⟨_, rfl | apart⟩ := doubleBuffered_place h hb
  · cases hc; rfl
  · exact apart

/-- A commit written to a block that is not pending makes it pending. -/
theorem commit_written {a off : Nat} {b : Block} {r : RegDef} {x : WriteSide} {s : State} (h : homeOf a = some (.reg b off r))
    (hb : b.doubleBuffered = true) (hc : b.commitAt = some a) (hseal : s.sealed = false) (hp : s.bankPending b = false)
    (hg : s.gate a false = .served) :
    (writePart .pcie a 15 1 x s).bankPending b = true ∧ Changes b.bankCtrl.toList [] s (writePart .pcie a 15 1 x s) := by
  rw [writePart_served (by rw [h]; rfl) hg, writeReg_commit h hb hc (.inr hseal), commitBank_free hp]
  have aside : Aside (s.setPending b true) (perfCount 4 0x06 (s.setPending b true)) := aside_perfCount _ _ _ (by decide)
  exact ⟨(bankPending_aside (homeOf_reg h).1 aside).trans (bankPending_setPending s hb), (setPending_changes s b true).trans aside.changes⟩

/-- Settles O49: a write of a pending bank reaches `ignored` by every path, and what is counted after it leaves the record. -/
theorem pendingBankIgnoresWrites : Obligations.PendingBankIgnoresWrites := by
  unfold Obligations.PendingBankIgnoresWrites
  intro s b off A r v x home hb ign hign
  obtain ⟨block, _⟩ := homeOf_reg home
  have far : 0x10000 ≤ A := (doubleBuffered_place block hb).1
  have said (t : State) (h : WriteIgnored 2 A b s t) (apart : recordArea A = false) (hp : s.bankPending b = true) : ign t := by
    rw [hign]
    exact ⟨h.word far apart, (h.bankPending block).trans hp, h.count, h.first, h.later, h.block, h.host, h.changes⟩
  refine ⟨fun hp hwrite hseal => ?_, fun hp hrw w hw => ?_, fun hp hc hseal a ha hg f => ?_⟩
  · have apart : recordArea A = false := by
      rcases hwrite with hrw | ⟨hc, _⟩
      · exact rw_place home hb hrw
      · exact commit_place block hb hc
    have write (w : Writer) (y : WriteSide) : writeReg w A v y s = ignored .pending A s := by
      rcases hwrite with hrw | ⟨hc, rfl⟩
      · exact writeReg_pending home hb hrw (.inr hseal) hp
      · rw [writeReg_commit home hb hc (.inr hseal), commitBank_pending hp]
    refine ⟨fun w => ?_, fun a ha hg f => ?_⟩
    · rw [write]
      exact said _ (ignored_recorded .pending s block) apart hp
    · subst ha
      refine ⟨_, exec_hostRegisterWrite_one a 15 v f s, ?_⟩
      rw [writePart_served (by rw [home]; rfl) hg, write]
      exact said _ ((ignored_recorded .pending s block).aside block (aside_perfCount _ _ _ (by decide))) apart hp
  · rw [writeReg_pending home hb hrw (.inl hw) hp]
    exact said _ (ignored_recorded .pending s block) (rw_place home hb hrw) hp
  · subst ha
    exact ⟨_, exec_hostRegisterWrite_one a 15 1 f s, commit_written home hb hc hseal hp hg⟩

end Sys2Proof.Machine
end

section
/-! SUPPORT. What a register read answers, clears and leaves (R40, R42, R44). -/

namespace Sys2Proof.Machine

/-! ### Clearing what was read -/

theorem word_clearBits (s : State) (a x : Nat) (w : Word) : (s.clearBits a w).word x = if x = a then s.word a &&& ~~~w else s.word x :=
  word_setWord _ _ _ _

/-- The registers after a clearing read: the one read, and for EVT.PEND its pending messages. -/
def clearedBits (a : Nat) (m : Word) (s : State) : State :=
  if EVT.PEND ≤ a && a < EVT.PEND + 32 then (s.clearBits a m).clearBits (EVT.PBA + (a - EVT.PEND)) m else s.clearBits a m

/-- The captures a read of their status register opens again. -/
def reopenedHost (a : Nat) (h : HostSide) : HostSide :=
  if a = CHIP.IGN_WRITE_STATUS then { h with ignFresh := true } else if a = CHIP.BUSERR_STATUS then { h with busFresh := true } else h

theorem reopened_eq (a : Nat) (t : State) :
    (if a = CHIP.IGN_WRITE_STATUS then { t with host := { t.host with ignFresh := true } }
      else if a = CHIP.BUSERR_STATUS then { t with host := { t.host with busFresh := true } } else t) =
    t.withHost (reopenedHost a t.host) := by
  unfold reopenedHost
  split
  · rfl
  · split <;> rfl

theorem clearRead_eq (a : Nat) (m : Word) (s : State) :
    clearRead a m s = (clearedBits a m s).withHost (reopenedHost a (clearedBits a m s).host) := reopened_eq a (clearedBits a m s)

theorem clearRead_word (a : Nat) (m : Word) (s : State) (x : Nat) : (clearRead a m s).word x = (clearedBits a m s).word x := by
  rw [clearRead_eq]
  generalize clearedBits a m s = t
  rfl

theorem clearedBits_within (a : Nat) (m : Word) (s : State) : Within [.regs] s (clearedBits a m s) := by
  unfold clearedBits
  split
  · exact (State.clearBits_keeps _ _ _).within.trans (State.clearBits_keeps _ _ _).within
  · exact (State.clearBits_keeps _ _ _).within

theorem clearRead_host (a : Nat) (m : Word) (s : State) : (clearRead a m s).host = reopenedHost a s.host := by
  have hhost : (clearedBits a m s).host = s.host := clearedBits_within a m s .host rfl
  rw [clearRead_eq, ← hhost]
  generalize clearedBits a m s = t
  rfl

theorem word_clearRead (a : Nat) (m : Word) (s : State) : (clearRead a m s).word a = s.word a &&& ~~~m := by
  rw [clearRead_word, clearedBits]
  split
  · have : a ≠ EVT.PBA + (a - EVT.PEND) := by simp only [EVT.PBA, EVT.PEND]; omega
    rw [word_clearBits, if_neg this, word_clearBits, if_pos rfl]
  · rw [word_clearBits, if_pos rfl]

theorem word_clearRead_ne {a x : Nat} (m : Word) (s : State) (hx : x ≠ a) (hr : recordArea x = false) : (clearRead a m s).word x = s.word x := by
  rw [clearRead_word, clearedBits]
  split
  · next h =>
    simp only [Bool.and_eq_true, decide_eq_true_eq] at h
    have : x ≠ EVT.PBA + (a - EVT.PEND) := fun e => by
      have : recordArea x = true := by
        rw [e]
        simp only [recordArea, Bool.or_eq_true, Bool.and_eq_true, decide_eq_true_eq]
        omega
      rw [hr] at this
      cases this
    rw [word_clearBits, if_neg this, word_clearBits, if_neg hx]
  · rw [word_clearBits, if_neg hx]

theorem clearRead_changes (a : Nat) (m : Word) (s : State) : Changes [a] [.host] s (clearRead a m s) :=
  ⟨fun _ hx hr => word_clearRead_ne m s (by simpa using hx) hr, (clearRead_keeps a m s).within.mono rfl⟩

theorem clearRead_latches (a : Nat) (m : Word) (s : State) : (clearRead a m s).host.latches = s.host.latches := by
  rw [clearRead_host, reopenedHost]
  split
  · rfl
  · split <;> rfl

theorem clearBits_zero_word (s : State) (a x : Nat) : (s.clearBits a 0).word x = s.word x := by
  rw [word_clearBits]
  split
  · next e => rw [e, show ~~~(0 : Word) = BitVec.allOnes 32 from rfl, BitVec.and_allOnes]
  · rfl

/-- A read of a register without RC fields clears nothing. -/
theorem clearRead_noRC {a : Nat} (h : rcBits a = 0) (k : Nat) (s : State) :
    (∀ x, (clearRead a (BitVec.ofNat 32 (rcBits a &&& k)) s).word x = s.word x) ∧
      Within [.regs] s (clearRead a (BitVec.ofNat 32 (rcBits a &&& k)) s) := by
  have hign : a ≠ CHIP.IGN_WRITE_STATUS := fun e => by rw [e] at h; exact absurd h (by decide)
  have hbus : a ≠ CHIP.BUSERR_STATUS := fun e => by rw [e] at h; exact absurd h (by decide)
  have hhost : reopenedHost a s.host = s.host := by rw [reopenedHost, if_neg hign, if_neg hbus]
  rw [h, Nat.zero_and, show (BitVec.ofNat 32 0) = (0 : Word) from rfl]
  constructor
  · intro x
    rw [clearRead_word, clearedBits]
    split <;> simp only [clearBits_zero_word]
  · intro p hp
    by_cases hph : p = .host
    · subst hph
      exact (clearRead_host a 0 s).trans hhost
    · exact (clearRead_keeps a 0 s).within p (by simp_all)

/-! ### One read -/

theorem beforeRead_host (a : Nat) (s : State) : (beforeRead a s).host = s.host := (beforeRead_keeps a s).within .host rfl

theorem beforeRead_out (a : Nat) (s : State) : (beforeRead a s).out = s.out := (beforeRead_keeps a s).within .out rfl

theorem latch_of_host {s t : State} (h : t.host.latches = s.host.latches) (r a : Nat) : t.latch r a = s.latch r a := by
  rw [State.latch, h]
  rfl

/-- The word a read of a register answers to the host before its byte enables: of a pair's high word the latch, where one is loaded. -/
def State.answer (s : State) (a : Nat) : Word := if 4 ≤ a ∧ pairLow (a - 4) = true then (s.latch 0 a).getD (s.view a) else s.view a

/-- The state whose RC bits a 32-bit or narrow read clears: the latch of the high word is loaded by a whole read of the low one. -/
def State.loaded (s : State) (a : Nat) (be : BitVec 4) : State :=
  if pairLow a = true ∧ be = 15 then loadLatch 0 (a + 4) (s.view (a + 4)) s else s

theorem readReg_eq (a : Nat) (be : BitVec 4) (s : State) : readReg 0 a be false true s =
    ((beforeRead a s).answer a &&& BitVec.ofNat 32 (byteMask be),
      clearRead a (BitVec.ofNat 32 (rcBits a &&& byteMask be)) ((beforeRead a s).loaded a be)) := by
  unfold readReg State.answer State.loaded
  simp

theorem loaded_regs (s : State) (a : Nat) (be : BitVec 4) : (s.loaded a be).regs = s.regs := by
  unfold State.loaded
  split <;> rfl

theorem loaded_word (s : State) (a : Nat) (be : BitVec 4) (x : Nat) : (s.loaded a be).word x = s.word x := by
  rw [State.word, loaded_regs]
  rfl

theorem loadLatch_within (r a : Nat) (v : Word) (s : State) : Within [.host] s (loadLatch r a v s) := (loadLatch_keeps r a v s).within

theorem loaded_changes (s : State) (a : Nat) (be : BitVec 4) (l : List Nat) : Changes l [.host] s (s.loaded a be) := by
  refine ⟨fun x _ _ => loaded_word s a be x, ?_⟩
  unfold State.loaded
  split
  · exact (loadLatch_within _ _ _ _).mono rfl
  · exact within_refl _ s

/-- A latch after another is loaded. -/
theorem latch_loadLatch (a k : Nat) (v : Word) (s : State) : (loadLatch 0 a v s).latch 0 k = if k = a then some v else s.latch 0 k := by
  simp only [State.latch, loadLatch, sget_sput, latchKey, Nat.zero_mul, Nat.zero_add]

theorem latch_loaded (s : State) (a : Nat) (be : BitVec 4) (k : Nat) (h : a + 4 ≠ k ∨ be ≠ 15) : (s.loaded a be).latch 0 k = s.latch 0 k := by
  unfold State.loaded
  split
  · next hl =>
    rw [latch_loadLatch, if_neg]
    rintro rfl
    rcases h with h | h
    · exact h rfl
    · exact h hl.2
  · rfl

/-- The state a host read of a register leaves, its completion apart. -/
def readRegState (a : Nat) (be : BitVec 4) (s : State) : State :=
  perfCount 4 0x06 (clearRead a (BitVec.ofNat 32 (rcBits a &&& byteMask be)) ((beforeRead a s).loaded a be))

theorem readPart_home {a : Nat} {be : BitVec 4} (s : State) (h : (homeOf a).isSome = true) (hz : be ≠ 0) :
    readPart a be s = ((beforeRead a s).answer a &&& BitVec.ofNat 32 (byteMask be), readRegState a be s) := by
  rw [readPart, if_neg hz, inWindow_of_home h, inAlias_of_home h]
  simp only [Bool.false_eq_true, if_false]
  rw [readReg_eq]
  rfl

theorem readRegState_aside (a : Nat) (be : BitVec 4) (s : State) :
    Aside (clearRead a (BitVec.ofNat 32 (rcBits a &&& byteMask be)) ((beforeRead a s).loaded a be)) (readRegState a be s) :=
  aside_perfCount _ _ _ (by decide)

theorem readRegState_rises (a : Nat) (be : BitVec 4) (s : State) :
    Rises (clearRead a (BitVec.ofNat 32 (rcBits a &&& byteMask be)) ((beforeRead a s).loaded a be)) (readRegState a be s) :=
  perfCount_rises _ _ (by decide)

theorem readRegState_changes (a : Nat) (be : BitVec 4) (s : State) : Changes [a] [.host] (beforeRead a s) (readRegState a be s) :=
  ((loaded_changes _ a be [a]).trans (clearRead_changes a _ _)).trans (readRegState_aside a be s).changes

theorem word_readRegState {a : Nat} (be : BitVec 4) (s : State) (hr : recordArea a = false) :
    (readRegState a be s).word a = (beforeRead a s).word a &&& ~~~BitVec.ofNat 32 (rcBits a &&& byteMask be) := by
  rw [(readRegState_aside a be s).words a hr, word_clearRead, loaded_word]

theorem latch_readRegState (a : Nat) (be : BitVec 4) (s : State) (k : Nat) :
    (readRegState a be s).latch 0 k = ((beforeRead a s).loaded a be).latch 0 k :=
  latch_of_host ((congrArg HostSide.latches (readRegState_aside a be s).host).trans (clearRead_latches _ _ _)) 0 k

/-! ### The host's reads (R42, R44, R45, R47) -/

section
variable {a : Nat} {parts : List (BitVec 4)} {be : BitVec 4} {s : State}

theorem exec_rcRead (a : BitVec 24) (parts : List (BitVec 4)) (s : State) : exec (.rcRead a parts) s = .next (hostRead (4 * a.toNat) parts s) := rfl

theorem exec_counterLowRead (a : BitVec 24) (s : State) : exec (.counterLowRead a) s = .next (hostRead (4 * a.toNat) [15] s) := rfl

theorem hostRead_error {e : Nat} {c : BusCause} (hg : s.gate a true = .served ∨ s.gate a true = .absent)
    (he : s.readError a parts = some (e, c)) : hostRead a parts s = (busError c e s).emit (.completerAbort a) := by
  unfold hostRead
  rcases hg with hg | hg <;> rw [hg] <;> simp only <;> rw [he]

theorem hostRead_none (hg : s.gate a true = .served ∨ s.gate a true = .absent) (he : s.readError a parts = none) :
    hostRead a parts s = if isWide a parts then readWide a s else readParts a parts s := by
  unfold hostRead
  rcases hg with hg | hg <;> rw [hg] <;> simp only <;> rw [he]

theorem isWide_one (a : Nat) (be : BitVec 4) : isWide a [be] = false := by simp [isWide]

theorem readError_one (s : State) (a : Nat) (be : BitVec 4) : s.readError a [be] = (s.accessError a be true).map fun c => (a, c) := by
  simp only [State.readError]
  cases s.accessError a be true <;> rfl

theorem hostRead_one (hg : s.gate a true = .served ∨ s.gate a true = .absent) (he : s.accessError a be true = none) :
    hostRead a [be] s = (readPart a be s).2.emit (.readData a (readPart a be s).1) := by
  rw [hostRead_none hg (by rw [readError_one, he]; rfl), isWide_one]
  rfl

theorem ne_zero_of_good (h : be.toNat ∈ [1, 2, 4, 8, 3, 12, 15]) : be ≠ 0 := by
  rintro rfl
  exact absurd h (by decide)

theorem goodEnables_iff : goodEnables be = true ↔ be.toNat ∈ [1, 2, 4, 8, 3, 12, 15] := by simp [goodEnables]

theorem accessError_home_read (h : (homeOf a).isSome = true) (hg : s.gate a true = .served) (hbe : be.toNat ∈ [1, 2, 4, 8, 3, 12, 15]) :
    s.accessError a be true = none := by
  rw [accessError_of_home h (by rw [hg]; decide) (goodEnables_iff.mpr hbe) (ne_zero_of_good hbe)]
  rfl

/-- A host read of a register within one word. -/
theorem hostRead_home (h : (homeOf a).isSome = true) (hg : s.gate a true = .served) (hbe : be.toNat ∈ [1, 2, 4, 8, 3, 12, 15]) :
    hostRead a [be] s = (readRegState a be s).emit (.readData a ((beforeRead a s).answer a &&& BitVec.ofNat 32 (byteMask be))) := by
  rw [hostRead_one (.inl hg) (accessError_home_read h hg hbe), readPart_home s h (ne_zero_of_good hbe)]

theorem goodEnables_unaligned (h : be.toNat ∉ [0, 1, 2, 4, 8, 3, 12, 15]) : goodEnables be = false := by
  rw [Bool.eq_false_iff, Ne, goodEnables_iff]
  exact fun hm => h (List.mem_cons_of_mem 0 hm)

theorem accessError_unaligned (isRead : Bool) (h : be.toNat ∉ [0, 1, 2, 4, 8, 3, 12, 15]) : s.accessError a be isRead = some .unaligned := by
  have hz : be ≠ 0 := by rintro rfl; exact h (by decide)
  rw [State.accessError, if_neg hz, goodEnables_unaligned h]
  rfl

theorem getLast?_emit (s : State) (o : Output) : (s.emit o).out.getLast? = some o := by simp [State.emit]

end

/-! ### RC bits of records -/

theorem rcBits_cnt (k : Nat) (hk : k < 320) : rcBits (PERF.CNT + k) = 0 := by
  have all : ∀ i < 10, ∀ j < 32, rcBits (PERF.CNT + (32 * i + j)) = 0 := by decide
  have at_k := all (k / 32) (by omega) (k % 32) (by omega)
  rwa [Nat.div_add_mod] at at_k

theorem rcBits_pend : ∀ i < 8, rcBits (EVT.PEND + 4 * i) = 0xFFFFFFFF := by decide

/-- Counting lets no bit fall of a register with RC fields. -/
theorem fallArea_of_rc {a : Nat} (h : rcBits a ≠ 0) : fallArea a = false := by
  rw [Bool.eq_false_iff]
  intro hf
  simp only [fallArea, Bool.or_eq_true, Bool.and_eq_true, decide_eq_true_eq] at hf
  rcases hf with (⟨low, high⟩ | rfl) | rfl
  · obtain ⟨k, rfl⟩ := Nat.exists_eq_add_of_le low
    exact h (rcBits_cnt k (by omega))
  · exact h (by decide)
  · exact h (by decide)

theorem bitOf_clear (w : Word) (x y k : Nat) : bitOf (w &&& ~~~BitVec.ofNat 32 (x &&& y)) k =
    (bitOf w k && !(decide (k < 32) && x.testBit k && y.testBit k)) := by
  simp only [bitOf, BitVec.getLsbD_and, BitVec.getLsbD_not, BitVec.getLsbD_ofNat, Nat.testBit_and]
  by_cases hk : k < 32
  · simp [hk]
  · simp [hk, BitVec.getLsbD_of_ge w k (by omega)]

theorem bitOf_ofNat (x k : Nat) : bitOf (BitVec.ofNat 32 x) k = (decide (k < 32) && x.testBit k) := BitVec.getLsbD_ofNat ..

end Sys2Proof.Machine
end

section
/-! SUPPORT. Byte enables (R42, R45). -/

namespace Sys2Proof.Machine

/-- A read with byte enables 0. -/
theorem hostRead_noBytes {a : Nat} {s : State} (hg : s.gate a true = .served ∨ s.gate a true = .absent) :
    hostRead a [0] s = (s.withFreeCount (s.freeCount + 1)).emit (.readData a (Config.freeWord s.freeCount)) := by
  rw [hostRead_one hg rfl]
  rfl

theorem hostRead_window {a : Nat} {be : BitVec 4} {s : State} (hw : inWindow a = true) (hg : s.gate a true = .served)
    (hbe : be.toNat ∈ [1, 2, 4, 8, 3, 12, 15]) : hostRead a [be] s = s.emit (.readData a (s.windowRead a be)) := by
  have hz := ne_zero_of_good hbe
  have herr : s.accessError a be true = none := by
    rw [State.accessError, if_neg hz, goodEnables_iff.mpr hbe, hg, hw]
    rfl
  have hpart : readPart a be s = (s.windowRead a be, s) := by rw [readPart, if_neg hz, if_pos hw]
  rw [hostRead_one (.inl hg) herr, hpart]

/-- The bits a read of a register with RC fields leaves. -/
theorem readRegState_bits {a k : Nat} (be : BitVec 4) (s : State) (hrc : rcBits a ≠ 0) (hk : k < 32)
    (hb : bitOf ((beforeRead a s).word a) k = true) (hm : bitOf (BitVec.ofNat 32 (byteMask be)) k = false) :
    bitOf ((readRegState a be s).word a) k = true := by
  refine (readRegState_rises a be s).bits a (fallArea_of_rc hrc) k ?_
  rw [bitOf_ofNat] at hm
  simp only [hk, decide_true, Bool.true_and] at hm
  rw [word_clearRead, loaded_word, bitOf_clear, hb, hm]
  simp

/-- A pending event that is returned is cleared. -/
theorem readRegState_pend {e : Nat} (be : BitVec 4) (s : State) (he : e < 256) (h248 : e ≠ 248)
    (hm : bitOf (BitVec.ofNat 32 (byteMask be)) (e % 32) = true) : (readRegState (EVT.PEND + 4 * (e / 32)) be s).pend e = false := by
  have he32 : e % 32 < 32 := Nat.mod_lt _ (by decide)
  rw [bitOf_ofNat] at hm
  simp only [he32, decide_true, Bool.true_and] at hm
  rw [readRegState, pend_perfCount _ _ (by decide) he h248, State.pend, State.arrayBit, word_clearRead, bitOf_clear, hm,
    rcBits_pend _ (by omega), show (0xFFFFFFFF : Nat) = 2 ^ 32 - 1 from rfl, Nat.testBit_two_pow_sub_one]
  simp [he32]

/-- Settles O48: an access is judged by its byte enables, and what a read clears is what it returned. -/
theorem byteEnablesDecideEachAccess : Obligations.ByteEnablesDecideEachAccess := by
  unfold Obligations.ByteEnablesDecideEachAccess
  rintro s a be A rfl
  have small : 4 * a.toNat < 2 ^ 26 := by have := a.isLt; omega
  refine ⟨fun v f => rfl, fun hg => ⟨?_, fun hbad => ?_⟩, fun hg hbad v f => ?_, fun hg hbe => ⟨fun low high => ?_, ?_⟩⟩
  · rintro rfl
    refine ⟨_, exec_rcRead a [0] s, ?_⟩
    rw [hostRead_noBytes hg]
    exact ⟨rfl, rfl, ((State.withFreeCount_keeps s _).within.mono rfl).trans ((State.emit_keeps _ _).within.mono rfl)⟩
  · refine ⟨_, exec_rcRead a [be] s, ?_⟩
    rw [hostRead_error hg (by rw [readError_one, accessError_unaligned true hbad]; rfl)]
    have record := (busError_recorded .unaligned s small).emit (.completerAbort (4 * a.toNat))
    exact ⟨getLast?_emit _ _, record.event, record.count, record.first, record.later, record.changes⟩
  · refine ⟨_, exec_hostRegisterWrite_one a be v f s, ?_⟩
    have hz : be ≠ 0 := by rintro rfl; exact hbad (by decide)
    have hwrite : writePart .pcie (4 * a.toNat) be v { fuse := f, linear := 0 } s = busError .unaligned (4 * a.toNat) s := by
      rw [writePart, if_neg hz]
      rcases hg with hg | hg <;> rw [hg] <;> simp only
      · rw [accessError_unaligned false hbad]
      · rw [goodEnables_unaligned hbad]
        rfl
    have record := busError_recorded .unaligned s small
    rw [hwrite]
    exact ⟨record.event, record.count, record.first, record.changes⟩
  · have hw : inWindow (4 * a.toNat) = true := by simp [inWindow, low, high]
    refine ⟨_, exec_rcRead a [be] s, ?_⟩
    rw [hostRead_window hw hg hbe]
    exact ⟨(State.emit_keeps _ _).within, rfl⟩
  · rintro home b rfl
    refine ⟨_, exec_rcRead a [be] s, ?_⟩
    rw [hostRead_home home hg hbe]
    refine ⟨getLast?_emit _ _, fun hr => word_readRegState be s hr, fun hrc k hk hb hm => readRegState_bits be s hrc hk hb hm, ?_,
      (readRegState_changes _ be s).trans (aside_emit _ _).changes⟩
    intro e he h248 hA hm
    have := readRegState_pend be s he h248 hm
    rwa [← hA] at this

end Sys2Proof.Machine
end

section
/-! SUPPORT. Where counter pairs stand and what their words show (R44, R400). -/

namespace Sys2Proof.Machine

/-! ### The places of the pairs -/

/-- The offsets of the low words of a block's pairs. -/
def Block.pairOffsets : Block → List Nat
  | .chip => [8]
  | .port _ => 0x270 :: (List.range 12).map (0x200 + 8 * ·)
  | .hsl => (List.range 128).map (0x800 + 8 * ·)
  | .wheel => [0x1000]
  | .trip => (List.range 32).map (0x408 + 16 * ·) ++ (List.range 64).map (0x800 + 8 * ·)
  | .tst => [0x20, 0x28]
  | .perf => 0x10 :: (List.range 40).map (0x200 + 8 * ·)
  | .pwr => [0x30]
  | .evt | .sq | .jug | .ss | .log | .dma | .cal | .bist => []

theorem mem_steps {n base step off : Nat} (k : Nat) (hk : k < n) (h : off = base + step * k) : off ∈ (List.range n).map (base + step * ·) :=
  List.mem_map.mpr ⟨k, List.mem_range.mpr hk, h.symm⟩

theorem pairLow_place {a : Nat} (h : pairLow a = true) : ∃ b off, blockOf a = some (b, off) ∧ off ∈ b.pairOffsets := by
  unfold pairLow at h
  split at h
  case h_1 off hb => exact ⟨_, _, hb, by simpa [Block.pairOffsets] using h⟩
  case h_2 n off hb =>
    simp only [Bool.and_eq_true, Bool.or_eq_true, decide_eq_true_eq, beq_iff_eq] at h
    obtain ⟨h8, ⟨low, high⟩ | rfl⟩ := h
    · exact ⟨_, _, hb, List.mem_cons_of_mem _ (mem_steps ((off - 0x200) / 8) (by omega) (by omega))⟩
    · exact ⟨_, _, hb, List.mem_cons_self⟩
  case h_3 off hb =>
    simp only [Bool.and_eq_true, decide_eq_true_eq, beq_iff_eq] at h
    obtain ⟨⟨h8, low⟩, high⟩ := h
    exact ⟨_, _, hb, mem_steps ((off - 0x800) / 8) (by omega) (by omega)⟩
  case h_4 off hb => exact ⟨_, _, hb, by simpa [Block.pairOffsets] using h⟩
  case h_5 off hb =>
    simp only [Bool.and_eq_true, Bool.or_eq_true, decide_eq_true_eq, beq_iff_eq] at h
    obtain ⟨⟨low, high⟩, h16⟩ | ⟨⟨low, high⟩, h8⟩ := h
    · exact ⟨_, _, hb, List.mem_append_left _ (mem_steps ((off - 0x408) / 16) (by omega) (by omega))⟩
    · exact ⟨_, _, hb, List.mem_append_right _ (mem_steps ((off - 0x800) / 8) (by omega) (by omega))⟩
  case h_6 off hb => exact ⟨_, _, hb, by simpa [Block.pairOffsets] using h⟩
  case h_7 off hb =>
    simp only [Bool.and_eq_true, Bool.or_eq_true, decide_eq_true_eq, beq_iff_eq] at h
    obtain rfl | ⟨⟨low, high⟩, h8⟩ := h
    · exact ⟨_, _, hb, List.mem_cons_self⟩
    · exact ⟨_, _, hb, List.mem_cons_of_mem _ (mem_steps ((off - 0x200) / 8) (by omega) (by omega))⟩
  case h_8 off hb => exact ⟨_, _, hb, by simpa [Block.pairOffsets] using h⟩
  case h_9 => cases h

/-- A table line that no read clears and that no command is given through. -/
def RegDef.plain (r : RegDef) : Bool := r.rcMask == 0 && r.fields.all (fun f => f.access != .wc)

/-- A table has a plain line at an offset. -/
def plainAt (t : List RegDef) (off : Nat) : Bool :=
  match findReg t off with
  | some r => r.plain
  | none => false

theorem pairOffsets_plain (b : Block) : ∀ off ∈ b.pairOffsets, off % 8 = 0 ∧ plainAt (tableOf b) off = true ∧ plainAt (tableOf b) (off + 4) = true := by
  cases b with
  | evt | sq | jug | ss | log | dma | cal | bist => simp [Block.pairOffsets]
  | port n => exact (by decide : ∀ off ∈ Block.pairOffsets (.port 0), off % 8 = 0 ∧ plainAt tableP off = true ∧ plainAt tableP (off + 4) = true)
  | chip => decide
  | hsl =>
    have line : ∀ i < 4, ∀ j < 32, (0x800 + 8 * (32 * i + j)) % 8 = 0 ∧ plainAt tableHSL (0x800 + 8 * (32 * i + j)) = true ∧
        plainAt tableHSL (0x800 + 8 * (32 * i + j) + 4) = true := by decide
    intro off hm
    obtain ⟨k, hk, rfl⟩ := List.mem_map.mp hm
    have at_k := line (k / 32) (by have := List.mem_range.mp hk; omega) (k % 32) (by omega)
    rwa [Nat.div_add_mod] at at_k
  | wheel => decide
  | trip => decide
  | tst => decide
  | perf => decide
  | pwr => decide

/-- The second word of an 8-byte aligned pair of words lies in the block of the first. -/
theorem blockOf_add_four {a off : Nat} {b : Block} (h : blockOf a = some (b, off)) (h8 : a % 8 = 0) : blockOf (a + 4) = some (b, off + 4) := by
  unfold blockOf at h ⊢
  iterate 21
    replace h := ite_cases h
    obtain ⟨c, h⟩ | ⟨c, h⟩ := h
    · first
        | (simp only [reduceCtorEq] at h)
        | (rw [if_pos (by omega)]
           cases h
           simp only [Option.some.injEq, Prod.mk.injEq, Block.port.injEq, true_and] <;> omega)
    rw [if_neg (by omega)]
  simp only [reduceCtorEq] at h

/-! ### What the words of a pair are -/

/-- A register no read clears and no command is given through. -/
structure PlainReg (a : Nat) (b : Block) (off : Nat) (r : RegDef) : Prop where
  home : homeOf a = some (.reg b off r)
  rc : r.rcMask = 0
  wc : r.wcBits b off = []

theorem plainReg_of_plainAt {a off : Nat} {b : Block} (hb : blockOf a = some (b, off)) (h : plainAt (tableOf b) off = true) :
    ∃ r, PlainReg a b off r := by
  unfold plainAt at h
  split at h
  · next r hr =>
    simp only [RegDef.plain, Bool.and_eq_true, beq_iff_eq, List.all_eq_true, bne_iff_ne] at h
    obtain ⟨hrc, hwc⟩ := h
    have none : r.fields.filter (fun f => f.access == .wc) = [] := List.filter_eq_nil_iff.mpr fun f hf => by simpa using hwc f hf
    refine ⟨r, homeOf_of_find hb hr, hrc, ?_⟩
    rw [RegDef.wcBits, none]
    simp
  · cases h

section
variable {a off : Nat} {b : Block} {r : RegDef}

theorem PlainReg.isSome (h : PlainReg a b off r) : (homeOf a).isSome = true := by rw [h.home]; rfl

theorem PlainReg.rcBits (h : PlainReg a b off r) : rcBits a = 0 := by rw [Machine.rcBits, h.home]; exact h.rc

theorem PlainReg.block (h : PlainReg a b off r) : blockOf a = some (b, off) := (homeOf_reg h.home).1

theorem PlainReg.view (h : PlainReg a b off r) (s : State) : s.view a = s.shown b off := by
  rw [State.view, h.home]
  simp only [State.wcShown, h.wc, List.foldl_nil]
  exact BitVec.or_zero

end

/-- The two registers of a pair. -/
structure PairPlace (a off : Nat) (b : Block) (r q : RegDef) : Prop where
  low : PlainReg a b off r
  high : PlainReg (a + 4) b (off + 4) q
  place : off ∈ b.pairOffsets
  aligned : a % 8 = 0

theorem Block.base_aligned (b : Block) : b.base % 8 = 0 := by
  cases b with
  | port n => simp only [Block.base]; omega
  | _ => rfl

theorem pairLow_pair {a : Nat} (h : pairLow a = true) : ∃ off b r q, PairPlace a off b r q := by
  obtain ⟨b, off, hb, hm⟩ := pairLow_place h
  obtain ⟨h8, hlo, hhi⟩ := pairOffsets_plain b off hm
  have aligned : a % 8 = 0 := by
    have := blockOf_eq hb
    have := b.base_aligned
    omega
  obtain ⟨r, hr⟩ := plainReg_of_plainAt hb hlo
  obtain ⟨q, hq⟩ := plainReg_of_plainAt (blockOf_add_four hb aligned) hhi
  exact ⟨off, b, r, q, hr, hq, hm, aligned⟩

theorem pairLow_aligned {a : Nat} (h : pairLow a = true) : a % 8 = 0 := by
  obtain ⟨_, _, _, _, p⟩ := pairLow_pair h
  exact p.aligned

theorem pairLow_add_four {a : Nat} (h : a % 8 = 0) : pairLow (a + 4) = false :=
  Bool.eq_false_iff.mpr fun hp => by have := pairLow_aligned hp; omega

theorem pairLow_sub_four {a : Nat} (h : a % 8 = 0) (ha : 4 ≤ a) : pairLow (a - 4) = false :=
  Bool.eq_false_iff.mpr fun hp => by have := pairLow_aligned hp; omega

/-- The high word of a pair shows its register, or half of DEV_TIME, WHEEL.REV, the chain's sequence number, PERF.CYCLE or the RTC. -/
theorem shown_high_congr {off : Nat} {b : Block} {s t : State} (hm : off ∈ b.pairOffsets) (hw : ∀ x, t.word x = s.word x)
    (hc : t.clk = s.clk) (hh : t.chain = s.chain) (hf : t.perf = s.perf) (hp : t.power = s.power) : t.shown b (off + 4) = s.shown b (off + 4) := by
  cases b with
  | evt | sq | jug | ss | log | dma | cal | bist => cases hm
  | chip =>
    simp only [Block.pairOffsets, List.mem_singleton] at hm
    simp [State.shown, hm, State.now, hc]
  | port n =>
    have small : off < 0x280 := by
      simp only [Block.pairOffsets, List.mem_cons, List.mem_map, List.mem_range] at hm
      obtain rfl | ⟨k, hk, rfl⟩ := hm <;> omega
    have hdark : t.portDark n (off + 4) = s.portDark n (off + 4) := by simp only [State.portDark, State.fsm, State.rd, hw, hc]
    have tones : decide (0x400 ≤ off + 4) = false := decide_eq_false (by omega)
    have coefs : decide (0x800 ≤ off + 4) = false := decide_eq_false (by omega)
    simp only [State.shown, hdark, hw, tones, coefs, Bool.false_and, Bool.false_eq_true, if_false]
  | hsl =>
    have large : 0x800 ≤ off := by
      simp only [Block.pairOffsets, List.mem_map, List.mem_range] at hm
      obtain ⟨k, hk, rfl⟩ := hm
      omega
    have lanes : decide (off + 4 < 0x280) = false := decide_eq_false (by omega)
    simp only [State.shown, hw, lanes, Bool.and_false, Bool.false_eq_true, if_false]
  | wheel =>
    simp only [Block.pairOffsets, List.mem_singleton] at hm
    simp [State.shown, hm, hc]
  | trip => exact hw _
  | tst => simp only [State.shown, hw, hh]
  | perf => simp only [State.shown, hw, hf]
  | pwr => simp only [State.shown, hw, hp]

end Sys2Proof.Machine
end

section
/-! SUPPORT. Reads of counter pairs, their latches, and accesses of several parts (R44, R47). -/

namespace Sys2Proof.Machine

/-! ### LPI_US at one cycle (R269) -/

/-- No whole microsecond has passed since LPI_US of a port was last brought up to date. -/
def State.lpiSettled (s : State) (n : Nat) : Prop := ∀ t, (s.idle n).since = some t → (s.now - t) / 1000 = 0

theorem idle_countLpi (n : Nat) (s : State) : ((countLpi n s).idle n).since = (s.idle n).since.map fun t => t + 1000 * ((s.now - t) / 1000) := by
  unfold countLpi
  split
  · next t ht => simp only [State.idle, State.setIdle, State.withLpi, sget_sput_same]; rw [← State.idle, ht]; rfl
  · next ht => rw [ht]; rfl

theorem countLpi_settled (n : Nat) (s : State) : (countLpi n s).lpiSettled n := by
  have hnow : (countLpi n s).now = s.now := by rw [State.now, show (countLpi n s).clk = s.clk from (countLpi_keeps n s).within .clk rfl]; rfl
  intro t ht
  rw [idle_countLpi] at ht
  rw [hnow]
  cases hs : (s.idle n).since with
  | none => rw [hs] at ht; cases ht
  | some t' =>
    rw [hs] at ht
    simp only [Option.map_some, Option.some.injEq] at ht
    omega

theorem word_addPair_zero (s : State) (lo hi x : Nat) : (s.addPair lo hi 0).word x = s.word x := by
  have hlo := (s.word lo).isLt
  have whole : BitVec.ofNat 32 (s.pair lo hi) = s.word lo := by
    apply BitVec.eq_of_toNat_eq
    rw [BitVec.toNat_ofNat, State.pair]
    omega
  have high : BitVec.ofNat 32 (s.pair lo hi / 2 ^ 32) = s.word hi := by
    rw [State.pair, Nat.add_mul_div_left _ _ (by decide), Nat.div_eq_of_lt hlo, Nat.zero_add, BitVec.ofNat_toNat, BitVec.setWidth_eq]
  rw [State.addPair, State.setPair, Nat.add_zero, whole, high, word_setWord, word_setWord]
  split
  · next e => rw [e]
  · split
    · next e => rw [e]
    · rfl

theorem countLpi_word_of_settled {n : Nat} {s : State} (h : s.lpiSettled n) (x : Nat) : (countLpi n s).word x = s.word x := by
  unfold countLpi
  split
  · next t ht =>
    rw [h t ht]
    exact word_addPair_zero s _ _ x
  · rfl

/-- The second word of a pair is read at the cycle of the first: LPI_US counts nothing more. -/
theorem beforeRead_high_word {a off : Nat} {b : Block} {r q : RegDef} (h : PairPlace a off b r q) {s t : State}
    (hl : t.lpi = (beforeRead a s).lpi) (hc : t.clk = (beforeRead a s).clk) (x : Nat) : (beforeRead (a + 4) t).word x = t.word x := by
  have hb := h.low.block
  have h8 := (pairOffsets_plain b off h.place).1
  unfold beforeRead at hl hc ⊢
  rw [hb] at hl hc
  rw [h.high.block]
  cases b with
  | port n =>
    simp only at hl hc ⊢
    split
    · next hoff =>
      have low : off = 0x270 := by
        simp only [Bool.or_eq_true, decide_eq_true_eq] at hoff
        omega
      simp only [low, decide_true, Bool.true_or, if_true] at hl hc
      refine countLpi_word_of_settled ?_ x
      have settled := countLpi_settled n s
      unfold State.lpiSettled State.idle State.now at settled ⊢
      rwa [hl, hc]
    · rfl
  | _ => rfl

/-! ### Bytes and gates -/

theorem and_byteMask_all (w : Word) : w &&& BitVec.ofNat 32 (byteMask 15) = w := by
  rw [show BitVec.ofNat 32 (byteMask 15) = BitVec.allOnes 32 from by decide, BitVec.and_allOnes]

theorem servedEarly_of_block {a a' off off' : Nat} {b : Block} (h : blockOf a = some (b, off)) (h' : blockOf a' = some (b, off')) :
    servedEarly a' = servedEarly a := by
  unfold servedEarly
  rw [h, h']
  cases b <;> rfl

/-- Before management-ready the registers of a block are all served or none. -/
theorem gate_not_absent {a a' off off' : Nat} {b : Block} {s : State} (h : blockOf a = some (b, off)) (h' : blockOf a' = some (b, off'))
    (hg : s.gate a true = .served) : s.gate a' true ≠ .absent := by
  unfold State.gate at hg ⊢
  rw [servedEarly_of_block h h']
  split at hg
  · cases hg
  · cases hg
  · rw [hg]; decide
  · rw [hg]; decide
  · simp
  · split
    · decide
    · split <;> decide

/-! ### Reads of pairs -/

/-- A read of a register without RC fields changes no word, and of the host's side at most the latches it loads. -/
theorem readRegState_plain {a : Nat} (h : rcBits a = 0) (be : BitVec 4) (s : State) :
    (readRegState a be s).host = ((beforeRead a s).loaded a be).host ∧ Changes [] [.host] (beforeRead a s) (readRegState a be s) := by
  obtain ⟨words, within⟩ := clearRead_noRC h (byteMask be) ((beforeRead a s).loaded a be)
  refine ⟨(readRegState_aside a be s).host.trans (within .host rfl), ?_⟩
  have plain : Changes [] [.host] ((beforeRead a s).loaded a be)
      (clearRead a (BitVec.ofNat 32 (rcBits a &&& byteMask be)) ((beforeRead a s).loaded a be)) :=
    ⟨fun x _ _ => words x, within.mono rfl⟩
  exact ((loaded_changes _ a be []).trans plain).trans (readRegState_aside a be s).changes

theorem answer_of_low {a : Nat} (h : a % 8 = 0) (s : State) : s.answer a = s.view a := by
  unfold State.answer
  by_cases ha : 4 ≤ a
  · rw [pairLow_sub_four h ha]
    simp
  · simp [ha]

theorem aliasRead_latches (a : Nat) (be : BitVec 4) (s : State) : (aliasRead a be s).2.host.latches = s.host.latches := by
  unfold aliasRead
  split
  · rfl
  · simp only
    split
    · exact clearRead_latches _ _ _
    · rfl

theorem perfCount_latches (s : State) : (perfCount 4 0x06 s).host.latches = s.host.latches :=
  congrArg HostSide.latches (aside_perfCount 4 0x06 s (by decide)).host

theorem latch_readReg {a k : Nat} {be : BitVec 4} (s : State) (h : a + 4 ≠ k ∨ be ≠ 15) :
    (readReg 0 a be false true s).2.latch 0 k = s.latch 0 k := by
  rw [readReg_eq]
  calc (clearRead a (BitVec.ofNat 32 (rcBits a &&& byteMask be)) ((beforeRead a s).loaded a be)).latch 0 k
    _ = ((beforeRead a s).loaded a be).latch 0 k := latch_of_host (clearRead_latches _ _ _) 0 k
    _ = (beforeRead a s).latch 0 k := latch_loaded _ _ _ _ h
    _ = s.latch 0 k := latch_of_host (congrArg HostSide.latches (beforeRead_host a s)) 0 k

theorem latch_readPart {a k : Nat} {be : BitVec 4} (s : State) (h : a + 4 ≠ k ∨ be ≠ 15) : (readPart a be s).2.latch 0 k = s.latch 0 k := by
  unfold readPart
  split
  · exact latch_of_host (congrArg HostSide.latches ((State.withFreeCount_keeps s _).within .host rfl)) 0 k
  · split
    · rfl
    · refine (latch_of_host (perfCount_latches _) 0 k).trans ?_
      split
      · exact latch_of_host (aliasRead_latches a be s) 0 k
      · exact latch_readReg s h

theorem latch_emit (s : State) (o : Output) (k : Nat) : (s.emit o).latch 0 k = s.latch 0 k := rfl

/-- Reads of single parts load the latch of a low word's high word only, and only where the whole low word is read. -/
theorem hostRead_latch {a k : Nat} {be : BitVec 4} (s : State) (ha : a < 2 ^ 26) (h : a + 4 ≠ k ∨ be ≠ 15) :
    (hostRead a [be] s).latch 0 k = s.latch 0 k := by
  unfold hostRead
  split
  · rfl
  · exact latch_of_host (congrArg HostSide.latches ((accessInSleep_keeps a true false s).within .host rfl)) 0 k
  · rw [readError_one]
    cases s.accessError a be true with
    | some c =>
      have latches : (busError c a s).host.latches = s.host.latches := by rw [(busError_recorded c s ha).host]
      exact (latch_emit _ _ k).trans (latch_of_host latches 0 k)
    | none =>
      simp only [Option.map_none, isWide_one, Bool.false_eq_true, if_false]
      exact (latch_emit _ _ k).trans (latch_readPart s h)

/-! ### Accesses of several parts -/

theorem toNat_add_one {a : BitVec 24} (h : a.toNat + 1 < 2 ^ 24) : 4 * (a + 1).toNat = 4 * a.toNat + 4 := by
  rw [BitVec.toNat_add, show BitVec.toNat (1 : BitVec 24) = 1 from rfl, Nat.mod_eq_of_lt h]
  omega

theorem exec_hostRegisterWrite_cons {a : BitVec 24} (h : a.toNat + 1 < 2 ^ 24) (be : BitVec 4) (v : Word) (rest : List (BitVec 4 × Word))
    (f : Option FuseLeft) (s : State) : exec (.hostRegisterWrite a ((be, v) :: rest) f) s =
      exec (.hostRegisterWrite (a + 1) rest f) (writePart .pcie (4 * a.toNat) be v { fuse := f, linear := 0 } s) := by
  change Host.Outcome.next (writeParts .pcie _ (4 * a.toNat) ((be, v) :: rest) s) =
    Host.Outcome.next (writeParts .pcie _ (4 * (a + 1).toNat) rest _)
  rw [toNat_add_one h]
  rfl

theorem readError_cons {s : State} {a : Nat} {be : BitVec 4} {rest : List (BitVec 4)} (h : s.readError a (be :: rest) = none) :
    s.accessError a be true = none := by
  rw [State.readError] at h
  split at h
  · cases h
  · assumption

theorem hostRead_cons {s : State} {a : Nat} {be : BitVec 4} {rest : List (BitVec 4)} (hw : isWide a (be :: rest) = false)
    (hg : s.gate a true = .served) (he : s.readError a (be :: rest) = none) :
    hostRead a (be :: rest) s = readParts (a + 4) rest (hostRead a [be] s) := by
  rw [hostRead_none (.inl hg) he, hw, hostRead_one (.inl hg) (readError_cons he)]
  rfl

/-! ### The wide read -/

/-- An aligned 64-bit read of a pair. -/
theorem hostRead_wide {a : Nat} {s : State} (h : pairLow a = true) (hg : s.gate a true = .served) : hostRead a [15, 15] s = readWide a s := by
  obtain ⟨off, b, r, q, p⟩ := pairLow_pair h
  have free (x : Nat) (hx : (homeOf x).isSome = true) (hgx : s.gate x true ≠ .absent) : s.accessError x 15 true = none := by
    rw [accessError_of_home hx hgx (by decide) (by decide)]
    rfl
  have hlo := free a p.low.isSome (by rw [hg]; decide)
  have hhi := free (a + 4) p.high.isSome (gate_not_absent p.low.block p.high.block hg)
  have none : s.readError a [15, 15] = none := by simp only [State.readError, hlo, hhi]
  have wide : isWide a [15, 15] = true := by simp [isWide, p.aligned, h]
  rw [hostRead_none (.inl hg) none, wide]
  rfl

theorem readReg_wide (a : Nat) (s : State) : readReg 0 a 15 true true s =
    ((beforeRead a s).view a, clearRead a (BitVec.ofNat 32 (rcBits a &&& byteMask 15)) (beforeRead a s)) := by
  unfold readReg
  simp only [Bool.not_true, Bool.and_false, Bool.false_eq_true, if_false, if_true, and_byteMask_all]

/-- An aligned 64-bit read of a pair answers both words as they stand and leaves the latches. -/
theorem readWide_pair {a : Nat} (h : pairLow a = true) (s : State) : ∃ l,
    (readWide a s).out = l ++ [.readData a ((beforeRead a s).view a), .readData (a + 4) ((beforeRead a s).view (a + 4))] ∧
      (readWide a s).host = s.host ∧ Changes [] [.lpi] (beforeRead a s) (readWide a s) := by
  obtain ⟨off, b, r, q, p⟩ := pairLow_pair h
  obtain ⟨words₁, within₁⟩ := clearRead_noRC p.low.rcBits (byteMask 15) (beforeRead a s)
  generalize ht : clearRead a (BitVec.ofNat 32 (rcBits a &&& byteMask 15)) (beforeRead a s) = t at words₁ within₁
  have words₂ (x : Nat) : (beforeRead (a + 4) t).word x = t.word x := beforeRead_high_word p (within₁ .lpi rfl) (within₁ .clk rfl) x
  have within₂ : Within [.regs, .lpi] t (beforeRead (a + 4) t) := (beforeRead_keeps _ t).within
  obtain ⟨words₃, within₃⟩ := clearRead_noRC p.high.rcBits (byteMask 15) (beforeRead (a + 4) t)
  generalize hv : clearRead (a + 4) (BitVec.ofNat 32 (rcBits (a + 4) &&& byteMask 15)) (beforeRead (a + 4) t) = v at words₃ within₃
  have before : Within [.regs, .lpi] (beforeRead a s) (beforeRead (a + 4) t) := (within₁.mono rfl).trans within₂
  have view : (beforeRead (a + 4) t).view (a + 4) = (beforeRead a s).view (a + 4) := by
    rw [p.high.view, p.high.view]
    exact shown_high_congr p.place (fun x => (words₂ x).trans (words₁ x)) (before .clk rfl) (before .chain rfl) (before .perf rfl) (before .power rfl)
  have eq : readWide a s = ((perfCount 4 0x06 v).emit (.readData a ((beforeRead a s).view a))).emit
      (.readData (a + 4) ((beforeRead a s).view (a + 4))) := by
    rw [readWide]
    simp only [readReg_wide, ht, hv, view]
  have counted := aside_perfCount 4 0x06 v (by decide)
  have whole : Within [.regs, .lpi] (beforeRead a s) v := before.trans (within₃.mono rfl)
  rw [eq]
  refine ⟨(perfCount 4 0x06 v).out, by simp [State.emit], ?_, ?_⟩
  · exact counted.host.trans ((whole .host rfl).trans (beforeRead_host a s))
  · have changes : Changes [] [.lpi] (beforeRead a s) v :=
      ⟨fun x _ _ => (words₃ x).trans ((words₂ x).trans (words₁ x)), whole.mono rfl⟩
    exact ((changes.trans counted.changes).trans (aside_emit _ _).changes).trans (aside_emit _ _).changes

theorem changes_same_host {l : List Nat} {s u : State} (h : Changes l [.host] s u) (hh : u.host = s.host) : Changes l [] s u := by
  refine ⟨h.registers, fun p hp => ?_⟩
  by_cases hph : p = .host
  · subst hph
    exact hh
  · refine h.rest p ?_
    cases p <;> first | exact absurd rfl hph | exact hp

/-- A read of a whole low word. -/
theorem hostRead_low {a : Nat} {s : State} (h : pairLow a = true) (hg : s.gate a true = .served) : ∃ u, hostRead a [15] s = u ∧
    u.out.getLast? = some (.readData a ((beforeRead a s).view a)) ∧ u.latch 0 (a + 4) = some ((beforeRead a s).view (a + 4)) ∧
    (∀ k, k ≠ a + 4 → u.latch 0 k = s.latch 0 k) ∧ u.host = { s.host with latches := u.host.latches } ∧ Changes [] [.host] (beforeRead a s) u := by
  obtain ⟨off, b, r, q, p⟩ := pairLow_pair h
  obtain ⟨host, changes⟩ := readRegState_plain p.low.rcBits 15 s
  have loaded : (beforeRead a s).loaded a 15 = loadLatch 0 (a + 4) ((beforeRead a s).view (a + 4)) (beforeRead a s) := by
    rw [State.loaded, if_pos ⟨h, rfl⟩]
  have latch (k : Nat) : (readRegState a 15 s).latch 0 k = if k = a + 4 then some ((beforeRead a s).view (a + 4)) else s.latch 0 k := by
    rw [latch_readRegState, loaded, latch_loadLatch]
    exact if_congr Iff.rfl rfl (latch_of_host (congrArg HostSide.latches (beforeRead_host a s)) 0 k)
  refine ⟨_, hostRead_home p.low.isSome hg (by decide), ?_, ?_, fun k hk => ?_, ?_, changes.trans (aside_emit _ _).changes⟩
  · rw [getLast?_emit, answer_of_low p.aligned, and_byteMask_all]
  · exact (latch (a + 4)).trans (if_pos rfl)
  · exact (latch k).trans (if_neg hk)
  · have : (readRegState a 15 s).host = { s.host with latches := (readRegState a 15 s).host.latches } := by
      rw [host, loaded, ← beforeRead_host a s]
      rfl
    exact this

/-- A read of a high word whose latch is loaded. -/
theorem hostRead_high {a : Nat} {s : State} {v : Word} (ha : 4 ≤ a) (h : pairLow (a - 4) = true) (hg : s.gate a true = .served)
    (hv : s.latch 0 a = some v) : ∃ u, hostRead a [15] s = u ∧ u.out.getLast? = some (.readData a v) ∧ u.host = s.host ∧
    Changes [] [] (beforeRead a s) u := by
  obtain ⟨off, b, r, q, p⟩ := pairLow_pair h
  have high := p.high
  rw [Nat.sub_add_cancel ha] at high
  have low : pairLow a = false := by
    have := pairLow_add_four p.aligned
    rwa [Nat.sub_add_cancel ha] at this
  obtain ⟨host, changes⟩ := readRegState_plain high.rcBits 15 s
  have loaded : (beforeRead a s).loaded a 15 = beforeRead a s := by rw [State.loaded, low]; simp
  rw [loaded] at host
  have answer : (beforeRead a s).answer a = v := by
    rw [State.answer, if_pos ⟨ha, h⟩, latch_of_host (congrArg HostSide.latches (beforeRead_host a s)) 0 a, hv]
    rfl
  refine ⟨_, hostRead_home high.isSome hg (by decide), ?_, host.trans (beforeRead_host a s), ?_⟩
  · rw [getLast?_emit, answer, and_byteMask_all]
  · exact (changes_same_host changes host).trans (aside_emit _ _).changes

/-- Settles O50: no read clears a word of a pair, and LPI_US stands still between the halves of a wide read. -/
theorem counterPairsReadConsistently : Obligations.CounterPairsReadConsistently := by
  unfold Obligations.CounterPairsReadConsistently
  rintro s a A rfl b rfl
  have small : 4 * a.toNat < 2 ^ 26 := by have := a.isLt; omega
  refine ⟨rfl, fun hg hp => ⟨fun _ => ?_, ?_⟩, fun hg h4 hp v hv => ?_, fun be k hk u hu => ?_, fun hlast => ⟨?_, ?_⟩⟩
  · obtain ⟨l, hout, hhost, hch⟩ := readWide_pair hp s
    exact ⟨_, l, (exec_rcRead a [15, 15] s).trans (congrArg _ (hostRead_wide hp hg)), hout, hhost, hch⟩
  · obtain ⟨u, hu, facts⟩ := hostRead_low hp hg
    exact ⟨u, (exec_counterLowRead a s).trans (congrArg _ hu), facts⟩
  · obtain ⟨u, hu, facts⟩ := hostRead_high h4 hp hg hv
    exact ⟨u, (exec_rcRead a [15] s).trans (congrArg _ hu), facts⟩
  · rw [exec_rcRead, Host.Outcome.next.injEq] at hu
    rw [← hu]
    exact hostRead_latch s small hk
  · intro be v rest f u hu
    rw [exec_hostRegisterWrite_one, Host.Outcome.next.injEq] at hu
    rw [exec_hostRegisterWrite_cons hlast, hu]
  · intro be rest u hw hg he hu
    rw [exec_rcRead, Host.Outcome.next.injEq] at hu
    rw [exec_rcRead, hostRead_cons hw hg he, hu]

end Sys2Proof.Machine
end

section
/-! SUPPORT. The performance counters under clearing and wrapping (R399, R401). -/

namespace Sys2Proof.Machine

/-! ### One counter -/

theorem perfCnt_congr {k : Nat} {s t : State} (h : ∀ x, PERF.CNT ≤ x → t.word x = s.word x) : t.perfCnt k = s.perfCnt k := by
  have lo := h (PERF.CNT + 8 * k) (by omega)
  have hi := h (PERF.CNT_HI + 8 * k) (by simp only [PERF.CNT, PERF.CNT_HI]; omega)
  rw [State.perfCnt, State.pair, lo, hi]
  rfl

theorem perfCnt_setPerfCnt (s : State) (j k v : Nat) : (s.setPerfCnt j v).perfCnt k = if k = j then v % 2 ^ 48 else s.perfCnt k := by
  split
  · next h =>
    subst h
    rw [State.perfCnt, State.setPerfCnt, pair_setPair _ _ _ _ (by simp only [PERF.CNT, PERF.CNT_HI]; omega)]
    omega
  · next h =>
    have apart : ∀ x, (x = PERF.CNT + 8 * k ∨ x = PERF.CNT_HI + 8 * k) → (s.setPerfCnt j v).word x = s.word x := fun x hx =>
      word_setPair_ne _ _ _ _ (by simp only [PERF.CNT, PERF.CNT_HI] at *; omega) (by simp only [PERF.CNT, PERF.CNT_HI] at *; omega)
    rw [State.perfCnt, State.pair, apart _ (.inl rfl), apart _ (.inr rfl)]
    rfl

theorem perfCnt_orWord (s : State) {a : Nat} (k : Nat) (w : Word) (h : a < PERF.CNT) : (s.orWord a w).perfCnt k = s.perfCnt k :=
  perfCnt_congr fun x hx => by rw [word_orWord, if_neg (by omega)]

theorem ovf_lt {k : Nat} (h : k < 40) : PERF.OVF + 4 * (k / 8) < PERF.CNT := by simp only [PERF.OVF, PERF.CNT]; omega

/-- Adding to a counter leaves the others. -/
theorem perfCnt_bumpCounter_ne {j k : Nat} (s : State) (hj : j < 40) (h : k ≠ j) : (bumpCounter j s).1.perfCnt k = s.perfCnt k := by
  unfold bumpCounter
  dsimp only
  split
  · rw [perfCnt_setPerfCnt, if_neg h]
  · split
    · rw [perfCnt_orWord _ _ _ (ovf_lt hj), perfCnt_setPerfCnt, if_neg h]
    · rw [perfCnt_orWord _ _ _ (by decide), perfCnt_orWord _ _ _ (ovf_lt hj), perfCnt_setPerfCnt, if_neg h]

theorem perfCnt_bumpGroup_ne {g k : Nat} (code : Nat) (s : State) (hg : g < 5) (h : k < 8 * g) :
    (bumpGroup g code s).1.perfCnt k = s.perfCnt k := by
  unfold bumpGroup
  refine foldl_flag_keeps (q := fun t => t.perfCnt k = s.perfCnt k) (List.range 8) (s, false) rfl fun r i hi hr => ?_
  have : i < 8 := List.mem_range.mp hi
  dsimp only
  split
  · exact (perfCnt_bumpCounter_ne _ (by omega) (by omega)).trans hr
  · exact hr

theorem perfCnt_setPendCore {e : Nat} (k : Nat) (s : State) (he : e < 256) : (setPendCore e s).1.perfCnt k = s.perfCnt k := by
  have set (t : State) (a : Nat) (ha : a + 32 ≤ PERF.CNT) : (t.setArrayBit a e).perfCnt k = t.perfCnt k :=
    perfCnt_congr fun x hx => word_setWord_ne _ _ (by omega)
  unfold setPendCore
  split
  · rfl
  · dsimp only
    split
    · exact set s _ (by decide)
    · exact (set _ _ (by decide)).trans (set s _ (by decide))

/-- Raising an event counts in group 4 alone. -/
theorem perfCnt_setPend {e k : Nat} (s : State) (he : e < 256) (hk : k < 32) : (setPend e s).perfCnt k = s.perfCnt k := by
  have counted (t : State) : (perfCount 4 0x0F t).perfCnt k = t.perfCnt k := by
    have group (t : State) : (bumpGroup 4 0x0F t).1.perfCnt k = t.perfCnt k := perfCnt_bumpGroup_ne _ t (by decide) (by omega)
    unfold perfCount
    dsimp only
    split
    · split
      · rw [group, perfCnt_setPendCore _ _ (by decide), group]
      · rw [perfCnt_setPendCore _ _ (by decide), group]
    · exact group t
  unfold setPend
  dsimp only
  split
  · rw [counted, perfCnt_setPendCore _ _ he]
  · exact perfCnt_setPendCore _ _ he

/-! ### A counter that wraps -/

/-- What adding to a counter at its highest value leaves: 0, and its OVF bit. -/
theorem bumpCounter_wraps {k : Nat} {s : State} (hk : k < 40) (h : s.perfCnt k = 2 ^ 48 - 1) :
    (bumpCounter k s).1.perfCnt k = 0 ∧ bitOf ((bumpCounter k s).1.word (PERF.OVF + 4 * (k / 8))) (k % 8) = true ∧
      bitOf ((bumpCounter k s).1.word PERF.CAUSE) 0 = true ∧ (bumpCounter k s).2 = !bitOf (s.word PERF.CAUSE) 0 := by
  have hov := ovf_lt hk
  have apart : PERF.OVF + 4 * (k / 8) ≠ PERF.CAUSE := by simp only [PERF.OVF, PERF.CAUSE]; omega
  have cause (v : Nat) : (s.setPerfCnt k v).word PERF.CAUSE = s.word PERF.CAUSE :=
    word_setPair_ne _ _ _ _ (by simp only [PERF.CNT, PERF.CAUSE]; omega) (by simp only [PERF.CNT_HI, PERF.CAUSE]; omega)
  have bit : bitOf (BitVec.ofNat 32 (2 ^ (k % 8))) (k % 8) = true := by rw [bitOf_two_pow _ (by omega)]; simp
  unfold bumpCounter
  dsimp only
  rw [h, if_neg (by decide)]
  generalize ht : s.setPerfCnt k _ = t
  have zero : t.perfCnt k = 0 := by rw [← ht, perfCnt_setPerfCnt, if_pos rfl]; rfl
  have tcause : t.word PERF.CAUSE = s.word PERF.CAUSE := ht ▸ cause _
  rw [word_orWord, if_neg apart.symm, tcause]
  split
  · next hc =>
    refine ⟨(perfCnt_orWord _ _ _ hov).trans zero, ?_, ?_, by rw [hc]; rfl⟩
    · rw [word_orWord, if_pos rfl, bitOf, BitVec.getLsbD_or, ← bitOf, ← bitOf, bit, Bool.or_true]
    · rw [word_orWord, if_neg apart.symm, tcause, hc]
  · next hc =>
    rw [Bool.not_eq_true] at hc
    refine ⟨(perfCnt_orWord _ _ _ (by decide)).trans ((perfCnt_orWord _ _ _ hov).trans zero), ?_, ?_, by rw [hc]; rfl⟩
    · rw [word_orWord, if_neg apart, word_orWord, if_pos rfl, bitOf, BitVec.getLsbD_or, ← bitOf, ← bitOf, bit, Bool.or_true]
    · rw [word_orWord, if_pos rfl, bitOf, BitVec.getLsbD_or]
      simp

/-- A counter wraps: it reads 0, its OVF bit and the cause are set, and a cause that was clear raises event 248 (R399). -/
theorem counterWrap_wraps {k : Nat} {s : State} (hk : k < 40) (h : s.perfCnt k = 2 ^ 48 - 1) (hen : s.actFlag (PERF.SEL.enable.nth k) = true) :
    bitOf ((counterWrap k s).word (PERF.OVF + 4 * (k / 8))) (k % 8) = true ∧ bitOf ((counterWrap k s).word PERF.CAUSE) 0 = true ∧
      (k < 32 → (counterWrap k s).perfCnt k = 0) ∧ (bitOf (s.word PERF.CAUSE) 0 = false → (counterWrap k s).pend 248 = true) ∧
      (bitOf (s.word PERF.CAUSE) 0 = true → (counterWrap k s).perfCnt k = 0) ∧ Changes [] [] s (counterWrap k s) := by
  obtain ⟨zero, ovf, cause, first⟩ := bumpCounter_wraps hk h
  have counted := (aside_bumpCounter k s hk).changes (words := []) (parts := [])
  have eq : counterWrap k s = if (bumpCounter k s).2 then setPend 248 (bumpCounter k s).1 else (bumpCounter k s).1 := by
    rw [counterWrap, h, hen]
    rfl
  rw [eq, first]
  generalize (bumpCounter k s).1 = t at *
  cases hc : bitOf (s.word PERF.CAUSE) 0 with
  | true => exact ⟨ovf, cause, fun _ => zero, fun h => absurd h (by decide), fun _ => zero, counted⟩
  | false =>
    have rises := setPend_rises 248 t
    have fall : fallArea (PERF.OVF + 4 * (k / 8)) = false := by
      simp only [fallArea, Bool.or_eq_false_iff, Bool.and_eq_false_iff, decide_eq_false_iff_not]
      simp only [PERF.OVF, PERF.CNT, LOG.STATUS, LOG.TRACE_DROP]
      omega
    exact ⟨rises.bits _ fall _ ovf, rises.bits _ (by decide) _ cause, fun h32 => (perfCnt_setPend t (by decide) h32).trans zero,
      fun _ => setPend_pend t (by decide), fun h => absurd h (by decide), counted.trans (aside_setPend 248 t (by decide)).changes⟩

/-! ### CLEAR_ALL -/

theorem perfCnt_foldl_setPerfCnt (f : Nat → Nat) (n k : Nat) (s : State) :
    ((List.range n).foldl (fun s k => s.setPerfCnt k (f k)) s).perfCnt k = if k < n then f k % 2 ^ 48 else s.perfCnt k := by
  induction n with
  | zero => rfl
  | succ n ih =>
    rw [List.range_succ, List.foldl_append, List.foldl_cons, List.foldl_nil, perfCnt_setPerfCnt, ih]
    by_cases h : k = n
    · simp [h]
    · rw [if_neg h]
      exact if_congr (by omega) rfl rfl

theorem word_foldl_setPerfCnt (f : Nat → Nat) (n x : Nat) (s : State) (h : x < PERF.CNT ∨ PERF.CNT + 8 * n ≤ x) :
    ((List.range n).foldl (fun s k => s.setPerfCnt k (f k)) s).word x = s.word x := by
  induction n with
  | zero => rfl
  | succ n ih =>
    rw [List.range_succ, List.foldl_append, List.foldl_cons, List.foldl_nil]
    refine (word_setPair_ne _ _ _ _ ?_ ?_).trans (ih (by omega))
    · omega
    · simp only [PERF.CNT, PERF.CNT_HI] at h ⊢; omega

theorem word_foldl_zero (n x : Nat) (s : State) : ((List.range n).foldl (fun s g => s.setWord (PERF.OVF + 4 * g) 0) s).word x =
    if ∃ g < n, x = PERF.OVF + 4 * g then 0 else s.word x := by
  induction n with
  | zero => simp
  | succ n ih =>
    rw [List.range_succ, List.foldl_append, List.foldl_cons, List.foldl_nil, word_setWord, ih]
    by_cases h : x = PERF.OVF + 4 * n
    · rw [if_pos h, if_pos ⟨n, by omega, h⟩]
    · rw [if_neg h]
      refine if_congr ⟨?_, ?_⟩ rfl rfl
      · rintro ⟨g, hg, e⟩
        exact ⟨g, by omega, e⟩
      · rintro ⟨g, hg, e⟩
        exact ⟨g, by rcases Nat.lt_succ_iff_lt_or_eq.mp hg with h' | rfl <;> [exact h'; exact absurd e h], e⟩

end Sys2Proof.Machine
end

section
/-! SUPPORT. What single host writes do (R30, R33, R36, R39, R43, R49, R50). -/

namespace Sys2Proof.Machine

/-! ### Registers of a port -/

theorem blockOf_portAddr (n : Fin 32) {a : Nat} (low : 0x100000 ≤ a) (high : a < 0x110000) :
    blockOf (portAddr n a) = some (.port n, a - 0x100000) := by
  have := n.isLt
  have div : (portAddr n a - 0x100000) / 0x10000 = n.val := by simp only [portAddr]; omega
  have mod : (portAddr n a - 0x100000) % 0x10000 = a - 0x100000 := by simp only [portAddr]; omega
  rw [blockOf, if_neg (by simp only [portAddr]; omega), if_neg (by simp only [portAddr]; omega), if_neg (by simp only [portAddr]; omega),
    if_pos (by simp only [portAddr]; omega), div, mod]

theorem homeOf_portAddr (n : Fin 32) {a : Nat} {r : RegDef} (low : 0x100000 ≤ a) (high : a < 0x110000)
    (h : findReg tableP (a - 0x100000) = some r) : homeOf (portAddr n a) = some (.reg (.port n) (a - 0x100000) r) :=
  homeOf_of_find (blockOf_portAddr n low high) h

/-! ### Writes by their register -/

section
variable {a off : Nat} {b : Block} {r : RegDef} {w : Writer} {v : Word} {x : WriteSide} {s : State}

theorem writeReg_readOnly (h : homeOf a = some (.reg b off r)) (ht : r.fields.any (·.takesWrite) = false) :
    writeReg w a v x s = ignored .readOnly a s := by simp [writeReg, h, ht]

theorem writeReg_sealed (h : homeOf a = some (.reg b off r)) (ht : r.fields.any (·.takesWrite) = true) (hb : b ≠ .pwr)
    (hw : w.isHost = true) (hs : s.sealed = true) (hc : isConfigWrite b a r v = true) : writeReg w a v x s = refuseSealed a v.toNat s := by
  simp [writeReg, h, ht, hb, judgeWrite, hw, hs, hc]

theorem writeReg_take (h : homeOf a = some (.reg b off r)) (ht : r.fields.any (·.takesWrite) = true) (hb : b ≠ .pwr)
    (hrw : r.hasRW = false) (hc : isConfigWrite b a r v = false) : writeReg w a v x s = takeWrite b a off r v x s := by
  simp [writeReg, h, ht, hb, judgeWrite, hrw, hc]

theorem writeReg_pwr (h : homeOf a = some (.reg .pwr off r)) (ht : r.fields.any (·.takesWrite) = true) :
    writeReg w a v x s = queuePwr w a v s := by simp [writeReg, h, ht]

/-- A refused write of a Sealed device is recorded, and tallied for the second (R36). -/
theorem refuseSealed_recorded (s : State) (v : Nat) (hb : blockOf a = some (b, off)) :
    WriteIgnored 4 a b (s.withHost { s.host with refusedWrites := tally a v 0 s.host.refusedWrites }) (refuseSealed a v s) ∧
      Changes ([CHIP.IGN_WRITE_STATUS, CHIP.IGN_WRITE_ADDR] ++ b.bankStatus.toList) [.host] s (refuseSealed a v s) := by
  have record := ignored_recorded .isSealed (s.withHost { s.host with refusedWrites := tally a v 0 s.host.refusedWrites }) hb
  have host (h : HostSide) (l : List Nat) : Changes l [.host] s (s.withHost h) :=
    ⟨fun y _ _ => withHost_word s h y, (withHost_within s h).mono rfl⟩
  exact ⟨record, (host _ _).trans record.changes⟩

theorem queuePwr_power (w : Writer) (a : Nat) (v : Word) (s : State) :
    (queuePwr w a v s).power = { s.power with writes := s.power.writes ++ [(a, v, w.code)] } ∧
      (queuePwr w a v s).flag PWR.AON_STATUS.wr_pending = true ∧ Changes [PWR.AON_STATUS] [.power] s (queuePwr w a v s) := by
  unfold queuePwr
  have queued : Changes [PWR.AON_STATUS] [.power] s (s.modPower fun p => { p with writes := p.writes ++ [(a, v, w.code)] }) :=
    changes_parts rfl ((State.modPower_keeps s _).within.mono rfl)
  refine ⟨rfl, ?_, queued.trans (changes_wr _ _ _ (by simp [PWR.AON_STATUS, PWR.AON_STATUS.wr_pending]))⟩
  rw [State.flag, rd_wr_same _ _ _ (by decide)]
  rfl

end

/-! ### Whole host words -/

section
variable {a : Nat} {be : BitVec 4} {w : Writer} {v : Word} {x : WriteSide} {s : State}

theorem writePart_error {c : BusCause} (hg : s.gate a false = .served) (hz : be ≠ 0) (he : s.accessError a be false = some c) :
    writePart w a be v x s = busError c a s := by
  rw [writePart, if_neg hz, hg]
  simp only
  rw [he]

theorem accessError_nothing {isRead : Bool} (hg : s.gate a isRead = .served) (hh : homeOf a = none) (hw : inWindow a = false)
    (ha : inAlias a = false) : s.accessError a 15 isRead = some .unimplemented := by
  rw [State.accessError, if_neg (by decide), if_neg (by decide), hg, hw, ha, hh]
  rfl

theorem accessError_narrow (hg : s.gate a false = .served) (hh : (homeOf a).isSome = true) (hbe : be.toNat ∈ [1, 2, 4, 8, 3, 12]) :
    s.accessError a be false = some .narrow := by
  have hgood : be.toNat ∈ [1, 2, 4, 8, 3, 12, 15] := by simp only [List.mem_cons] at hbe ⊢; tauto
  have hne : be ≠ 15 := by rintro rfl; exact absurd hbe (by decide)
  rw [accessError_of_home hh (by rw [hg]; decide) (goodEnables_iff.mpr hgood) (ne_zero_of_good hgood), bne_iff_ne.mpr hne]
  rfl

/-- A host write of a register is counted beside its effect. -/
theorem writePart_aside (h : (homeOf a).isSome = true) (hg : s.gate a false = .served) :
    Aside (writeReg w a v x s) (writePart w a 15 v x s) := by
  rw [writePart_served h hg]
  exact aside_perfCount 4 0x06 _ (by decide)

end

/-! ### Writes that are flagged, and writes of RW registers -/

section
variable {a off : Nat} {b : Block} {r : RegDef} {v : Word} {x : WriteSide} {s : State}

theorem writePart_readOnly (h : homeOf a = some (.reg b off r)) (hg : s.gate a false = .served) (ht : r.fields.any (·.takesWrite) = false) :
    WriteIgnored 1 a b s (writePart .pcie a 15 v x s) := by
  have aside : Aside (writeReg .pcie a v x s) (writePart .pcie a 15 v x s) := writePart_aside (by rw [h]; rfl) hg
  rw [writeReg_readOnly h ht] at aside
  obtain ⟨block, _⟩ := homeOf_reg h
  exact (ignored_recorded .readOnly s block).aside block aside

theorem writePart_sealed (h : homeOf a = some (.reg b off r)) (hg : s.gate a false = .served) (ht : r.fields.any (·.takesWrite) = true)
    (hb : b ≠ .pwr) (hs : s.sealed = true) (hc : isConfigWrite b a r v = true) :
    WriteIgnored 4 a b (s.withHost { s.host with refusedWrites := tally a v.toNat 0 s.host.refusedWrites }) (writePart .pcie a 15 v x s) ∧
      Changes ([CHIP.IGN_WRITE_STATUS, CHIP.IGN_WRITE_ADDR] ++ b.bankStatus.toList) [.host] s (writePart .pcie a 15 v x s) := by
  have aside : Aside (writeReg .pcie a v x s) (writePart .pcie a 15 v x s) := writePart_aside (by rw [h]; rfl) hg
  rw [writeReg_sealed h ht hb rfl hs hc] at aside
  obtain ⟨block, _⟩ := homeOf_reg h
  obtain ⟨record, changes⟩ := refuseSealed_recorded s v.toNat block
  exact ⟨record.aside block aside, changes.trans aside.changes⟩

/-- An RW register of a bank that is not pending takes the nearest legal values (R37). -/
theorem writePart_rw (h : homeOf a = some (.reg b off r)) (hg : s.gate a false = .served) (hb : b.doubleBuffered = true)
    (hr : r.hasRW = true) (hp : s.bankPending b = false) (hs : s.sealed = false) :
    (∀ g ∈ r.fields, g.access = .rw →
      bitsOf ((writePart .pcie a 15 v x s).word a) g.lsb g.width = g.legal.nearest (r.index off) (bitsOf v g.lsb g.width)) ∧
    ((∀ g ∈ r.fields, g.legal.nearest (r.index off) (bitsOf v g.lsb g.width) = bitsOf v g.lsb g.width) →
      (∀ g ∈ r.reserved, bitsOf v g.1 g.2 = 0) →
      (writePart .pcie a 15 v x s).host = s.host ∧ Changes [a] [] s (writePart .pcie a 15 v x s)) ∧
    Changes [a, CHIP.CLAMP_STATUS] [.host] s (writePart .pcie a 15 v x s) := by
  obtain ⟨block, find⟩ := homeOf_reg h
  have record : recordArea a = false := rw_place h hb hr
  have far : a ≠ CHIP.CLAMP_STATUS := by
    have := (doubleBuffered_place block hb).1
    simp only [CHIP.CLAMP_STATUS]
    omega
  have aside : Aside (writeReg .pcie a v x s) (writePart .pcie a 15 v x s) := writePart_aside (by rw [h]; rfl) hg
  rw [writeReg_rw h hb hr (.inr hs) hp] at aside
  refine ⟨fun g hgm hrw => ?_, fun hl hz => ?_, (putFields_changes v s).trans aside.changes⟩
  · rw [aside.words a record]
    exact bits_putFields v s (findReg_mem find).1 far record hgm (by simp [FieldDef.stores, hrw])
  · obtain ⟨host, changes⟩ := putFields_legal v s hl hz
    exact ⟨aside.host.trans host, changes.trans aside.changes⟩

end

end Sys2Proof.Machine
end

section
/-! SUPPORT. The host's single commands (R33, R39, R49, R50, R399, R467). -/

namespace Sys2Proof.Machine

/-! ### An alias of an event mask bit (R49, R381) -/

/-- EVT.MASK's line of the register table. -/
def evtMaskLine : RegDef := ⟨0x100, 4, 8, [⟨0, 32, .rh, 4294967295, .any⟩]⟩

theorem homeOf_evtMask : ∀ i < 8, homeOf (EVT.MASK + 4 * i) = some (.reg .evt (EVT.MASK + 4 * i) evtMaskLine) := by decide

theorem bitOf_withBitClear {b : Nat} (w : Word) (k : Nat) (hb : b < 32) : bitOf (withBitClear w b) k = (bitOf w k && decide (k ≠ b)) := by
  have hbit := bitOf_two_pow k hb
  simp only [bitOf] at hbit
  by_cases hk : k < 32
  · simp only [withBitClear, bitOf, BitVec.getLsbD_and, BitVec.getLsbD_not, hbit, hk, decide_true, Bool.true_and, decide_not]
  · simp [bitOf, BitVec.getLsbD_of_ge _ k (Nat.le_of_not_lt hk)]

theorem withBits_whole (w v : Word) : withBits w 0 32 (bitsOf v 0 32) = v := by
  apply BitVec.eq_of_toNat_eq
  have hw := w.isLt
  have hv := v.isLt
  simp only [withBits, bitsOf, BitVec.toNat_ofNat]
  omega

/-- A register of one host-written 32-bit field takes the word. -/
theorem takeWrite_evtMask (a off : Nat) (v : Word) (x : WriteSide) (s : State) : takeWrite .evt a off evtMaskLine v x s = s.setWord a v := by
  have put : putFields a off evtMaskLine v s = s.setWord a (withBits (s.word a) 0 32 (bitsOf v 0 32)) := by
    rw [putFields, show evtMaskLine.reserved = [] from by decide]
    exact putField_same (f := ⟨0, 32, .rh, 4294967295, .any⟩) _ v s rfl rfl
  rw [takeWrite, put, withBits_whole]
  rfl

/-- The aliases of the core region's bits lie in their window, each at its own offset. -/
theorem aliasOffset {w bit : Nat} (hw : w < 0x4000) (hb : bit < 32) :
    inWindow (0x2000000 + (w * 32 + bit) * 4) = false ∧ inAlias (0x2000000 + (w * 32 + bit) * 4) = true ∧
      (0x2000000 + (w * 32 + bit) * 4) % 0x2000000 / 4 / 32 = w ∧ (0x2000000 + (w * 32 + bit) * 4) % 0x2000000 / 4 % 32 = bit := by
  simp only [inWindow, inAlias, Bool.and_eq_false_iff, Bool.and_eq_true, decide_eq_false_iff_not, decide_eq_true_eq]
  omega

theorem aliasTarget_evtMask {i bit : Nat} (hi : i < 8) (hb : bit < 32) :
    ∃ f : FieldDef, f.access = .rh ∧ aliasTarget (0x2000000 + ((EVT.MASK + 4 * i) * 32 + bit) * 4) = some (EVT.MASK + 4 * i, bit, f) := by
  obtain ⟨_, _, word, pos⟩ := aliasOffset (w := EVT.MASK + 4 * i) (by simp only [EVT.MASK]; omega) hb
  have aligned : (EVT.MASK + 4 * i) % 4 = 0 := by simp only [EVT.MASK]; omega
  refine ⟨⟨0, 32, .rh, 4294967295, .any⟩, rfl, ?_⟩
  simp only [aliasTarget, word, pos, aligned, homeOf_evtMask i hi]
  simp [RegDef.fieldAt, evtMaskLine, hb]

theorem writeReg_evtMask {i : Nat} (hi : i < 8) (w : Writer) (v : Word) (x : WriteSide) (s : State) :
    writeReg w (EVT.MASK + 4 * i) v x s = s.setWord (EVT.MASK + 4 * i) v := by
  have config : isConfigWrite .evt (EVT.MASK + 4 * i) evtMaskLine v = false := by
    have : EVT.MASK + 4 * i ≠ CHIP.RESET_CMD := by simp only [EVT.MASK, CHIP.RESET_CMD]; omega
    simp [isConfigWrite, this, show evtMaskLine.hasRW = false from rfl, show Block.evt.commitAt = none from rfl]
  rw [writeReg_take (homeOf_evtMask i hi) rfl (by decide) rfl config, takeWrite_evtMask]

/-- An alias write of an event's mask bit writes it alone. -/
theorem aliasWrite_evtMask {i bit : Nat} (hi : i < 8) (hb : bit < 32) (v : Bool) (x : WriteSide) {s : State}
    (hg : s.gate (0x2000000 + ((EVT.MASK + 4 * i) * 32 + bit) * 4) false = .served) :
    Aside (s.setWord (EVT.MASK + 4 * i) (if v then withBitSet (s.word (EVT.MASK + 4 * i)) bit else withBitClear (s.word (EVT.MASK + 4 * i)) bit))
      (writePart .pcie (0x2000000 + ((EVT.MASK + 4 * i) * 32 + bit) * 4) 15 (if v then 1 else 0) x s) := by
  obtain ⟨window, inside, _, _⟩ := aliasOffset (w := EVT.MASK + 4 * i) (by simp only [EVT.MASK]; omega) hb
  obtain ⟨f, access, target⟩ := aliasTarget_evtMask hi hb
  have bit0 : bitOf (if v then 1 else 0 : Word) 0 = v := by cases v <;> rfl
  generalize 0x2000000 + ((EVT.MASK + 4 * i) * 32 + bit) * 4 = a at *
  have noError : s.accessError a 15 false = none := by
    rw [State.accessError, if_neg (by decide), if_neg (by decide), hg, window, inside, target]
    rfl
  have write : aliasWrite .pcie a v x s =
      s.setWord (EVT.MASK + 4 * i) (if v then withBitSet (s.word (EVT.MASK + 4 * i)) bit else withBitClear (s.word (EVT.MASK + 4 * i)) bit) := by
    rw [aliasWrite, target]
    simp only [access]
    exact writeReg_evtMask hi _ _ _ _
  have whole : writePart .pcie a 15 (if v then 1 else 0) x s = perfCount 4 0x06 (aliasWrite .pcie a v x s) := by
    rw [writePart, if_neg (by decide), hg]
    simp only
    rw [noError]
    simp only [window, inside, bit0, Bool.false_eq_true, if_false, if_true]
  rw [whole, write]
  exact aside_perfCount 4 0x06 _ (by decide)

/-! ### Commits (R33) -/

/-- A block found at a commit register is double-buffered, and the register is its commit's. -/
theorem commitReg_block (bb : BankBlock) {b : Block} {off : Nat} (h : blockOf (commitReg bb) = some (b, off)) :
    b.doubleBuffered = true ∧ b.commitAt = some (commitReg bb) := by
  have known {b' : Block} {o : Nat} (hb : blockOf (commitReg bb) = some (b', o)) (hd : b'.doubleBuffered = true)
      (hc : b'.commitAt = some (commitReg bb)) : b.doubleBuffered = true ∧ b.commitAt = some (commitReg bb) := by
    rw [hb] at h
    cases h
    exact ⟨hd, hc⟩
  cases bb with
  | port n => exact known (blockOf_portAddr n (by decide) (by decide)) rfl rfl
  | jug => exact known (b' := .jug) rfl rfl rfl
  | ss => exact known (b' := .ss) rfl rfl rfl
  | trip => exact known (b' := .trip) rfl rfl rfl
  | cal => exact known (b' := .cal) rfl rfl rfl
  | bist => exact known (b' := .bist) rfl rfl rfl
  | perf => exact known (b' := .perf) rfl rfl rfl
  | wheel => exact known (b' := .wheel) rfl rfl rfl

/-! ### CLAMP_POP (R39) -/

/-- CHIP.CLAMP_CTRL's line of the register table. -/
def clampCtrlLine : RegDef := ⟨0x70, 0, 1, [⟨0, 1, .wc, 0, .any⟩]⟩

theorem homeOf_clampCtrl : homeOf CHIP.CLAMP_CTRL = some (.reg .chip 0x70 clampCtrlLine) := by decide

theorem writeReg_clampCtrl (w : Writer) (x : WriteSide) (s : State) :
    writeReg w CHIP.CLAMP_CTRL 1 x s = s.withHost { s.host with clampLog := s.host.clampLog.drop 1 } := by
  rw [writeReg_take homeOf_clampCtrl rfl (by decide) rfl (by decide), takeWrite, putFields_none _ _ (by decide) (by decide),
    show clampCtrlLine.wcBits .chip 0x70 = [0] from rfl]
  rfl

/-! ### COEF_SEL_WRITE (R467) -/

/-- P[n].COEF_SEL's line of the register table. -/
def coefSelLine : RegDef := ⟨0x148, 0, 1, [⟨0, 2, .rh, 0, .any⟩]⟩

theorem homeOf_coefSel (n : Fin 32) : homeOf (portAddr n P.COEF_SEL) = some (.reg (.port n) 0x148 coefSelLine) :=
  homeOf_portAddr n (by decide) (by decide) (by decide)

theorem writeReg_coefSel (n : Fin 32) (w : Writer) (v : Word) (x : WriteSide) (s : State) :
    writeReg w (portAddr n P.COEF_SEL) v x s = putFields (portAddr n P.COEF_SEL) 0x148 coefSelLine v s := by
  have commit : ((Block.port n).commitAt == some (portAddr n P.COEF_SEL)) = false := by
    simp [Block.commitAt, Block.bankCtrl, portAddr, P.BANK_CTRL, P.COEF_SEL]
  have reset : (portAddr n P.COEF_SEL == CHIP.RESET_CMD) = false :=
    beq_eq_false_iff_ne.mpr (by simp only [portAddr, P.COEF_SEL, CHIP.RESET_CMD]; omega)
  have config : isConfigWrite (.port n) (portAddr n P.COEF_SEL) coefSelLine v = false := by
    rw [isConfigWrite, commit, reset]
    rfl
  rw [writeReg_take (homeOf_coefSel n) rfl nofun rfl config, takeWrite, show coefSelLine.wcBits (.port n) 0x148 = [] from rfl]
  rfl

theorem reserved_of_small {v : Word} (h : v.toNat < 4) : ∀ g ∈ coefSelLine.reserved, bitsOf v g.1 g.2 = 0 := by
  rw [show coefSelLine.reserved = [(2, 30)] from by decide]
  simp only [List.mem_singleton, forall_eq, bitsOf]
  omega

/-! ### RTC_SET_WRITE (R50, R427) -/

theorem homeOf_rtcSet : homeOf (PWR.RTC_SET_SEC + 4) = some (.reg .pwr 0x44 ⟨0x40, 4, 2, [⟨0, 32, .rw, 0, .any⟩]⟩) := by decide

/-! ### CLEAR_ALL (R401) -/

theorem clearAll_clears (hits : BitVec 40) (s : State) :
    (∀ k : Fin 40, (clearAll hits s).perfCnt k = bitNat (hits.getLsbD k)) ∧ (∀ g < 5, (clearAll hits s).word (PERF.OVF + 4 * g) = 0) ∧
      (∀ a, ¬(PERF.OVF ≤ a ∧ a < PERF.OVF + 20) → ¬(PERF.CNT ≤ a ∧ a < PERF.CNT + 320) → (clearAll hits s).word a = s.word a) ∧
      Within [.regs] s (clearAll hits s) := by
  refine ⟨fun k => ?_, fun g hg => ?_, fun a hovf hcnt => ?_, (clearAll_keeps hits s).within.mono rfl⟩
  · have keeps (t : State) : ((List.range 5).foldl (fun s g => s.setWord (PERF.OVF + 4 * g) 0) t).perfCnt k = t.perfCnt k :=
      perfCnt_congr fun x hx => by
        rw [word_foldl_zero, if_neg]
        rintro ⟨g, hg, e⟩
        simp only [PERF.OVF, PERF.CNT] at e hx
        omega
    have fits : bitNat (hits.getLsbD k) % 2 ^ 48 = bitNat (hits.getLsbD k) := by cases hits.getLsbD k <;> rfl
    rw [clearAll, keeps, perfCnt_foldl_setPerfCnt, if_pos k.isLt, fits]
  · rw [clearAll, word_foldl_zero, if_pos ⟨g, hg, rfl⟩]
  · rw [clearAll, word_foldl_zero, if_neg, word_foldl_setPerfCnt _ _ _ _ (by omega)]
    rintro ⟨g, hg, rfl⟩
    exact hovf (by omega)

end Sys2Proof.Machine
end

section
/-! SUPPORT. The host's commands by access type (R30, R36, R47). -/

namespace Sys2Proof.Machine

section
variable {s : State}

/-- A host write of one whole word: without effect, refused, or of an RW register. -/
theorem hostWrite_kinds (a : BitVec 24) (v : Word) (f : Option FuseLeft) {b : Block} {off : Nat} {r : RegDef}
    (hg : s.gate (4 * a.toNat) false = .served) (home : homeOf (4 * a.toNat) = some (.reg b off r)) :
    (∀ ign : Nat → State → Prop, ign = (fun k u => u.rd CHIP.IGN_WRITE_STATUS.count = min 0xFFFF (s.rd CHIP.IGN_WRITE_STATUS.count + 1) ∧
        (s.host.ignFresh = true → u.rd CHIP.IGN_WRITE_STATUS.reason = k ∧ u.rd CHIP.IGN_WRITE_ADDR.addr = 4 * a.toNat) ∧
        (∀ st, b.bankStatus = some st → u.word st = s.word st ||| 0x10000) ∧
        Changes ([CHIP.IGN_WRITE_STATUS, CHIP.IGN_WRITE_ADDR] ++ b.bankStatus.toList) [.host] s u) →
      (r.fields.any (·.takesWrite) = false → ∃ u : State, exec (.hostRegisterWrite a [(15, v)] f) s = .next u ∧ ign 1 u ∧
        u.host = { s.host with ignFresh := false }) ∧
      (s.sealed = true → isConfigWrite b (4 * a.toNat) r v = true → b ≠ .pwr → r.fields.any (·.takesWrite) = true →
        ∃ (u : State) (t : RefusalTally), exec (.hostRegisterWrite a [(15, v)] f) s = .next u ∧ ign 4 u ∧
          u.host = { s.host with ignFresh := false, refusedWrites := some t } ∧
          (s.host.refusedWrites = none → t = { subject := 4 * a.toNat, detail := v.toNat, result := 0, count := 1 }) ∧
          (∀ w, s.host.refusedWrites = some w → t = { w with count := w.count + 1 }))) := by
  rintro ign rfl
  refine ⟨fun ht => ?_, fun hs hc hb ht => ?_⟩
  · have record := writePart_readOnly (v := v) (x := { fuse := f, linear := 0 }) home hg ht
    exact ⟨_, exec_hostRegisterWrite_one a 15 v f s, ⟨record.count, record.first, record.block, record.changes⟩, record.host⟩
  · obtain ⟨record, changes⟩ := writePart_sealed (v := v) (x := { fuse := f, linear := 0 }) home hg ht hb hs hc
    obtain ⟨t, tallied, new, more⟩ : ∃ t, tally (4 * a.toNat) v.toNat 0 s.host.refusedWrites = some t ∧
        (s.host.refusedWrites = none → t = { subject := 4 * a.toNat, detail := v.toNat, result := 0, count := 1 }) ∧
        (∀ w, s.host.refusedWrites = some w → t = { w with count := w.count + 1 }) := by
      cases s.host.refusedWrites with
      | none => exact ⟨_, rfl, fun _ => rfl, nofun⟩
      | some w => exact ⟨_, rfl, nofun, fun w' hw => by cases hw; rfl⟩
    refine ⟨_, t, exec_hostRegisterWrite_one a 15 v f s, ⟨record.count, record.first, record.block, changes⟩, ?_, new, more⟩
    rw [record.host, ← tallied]
    rfl

/-- An alias write of an event's mask bit, as the command gives it. -/
theorem exec_bitAliasWrite_mask (w : BitVec 12) (bit : Fin 32) (v : Bool) {e : Fin 256} (hw : 4 * w.toNat = EVT.MASK + 4 * (e / 32))
    (hg : s.gate (0x2000000 + (4 * w.toNat * 32 + bit) * 4) false = .served) :
    ∃ u : State, exec (.bitAliasWrite w bit v) s = .next u ∧ bitOf (u.word (4 * w.toNat)) bit = v ∧
      (∀ k < 32, k ≠ bit.val → bitOf (u.word (4 * w.toNat)) k = bitOf (s.word (4 * w.toNat)) k) ∧ Changes [4 * w.toNat] [] s u := by
  refine ⟨writePart .pcie (0x2000000 + (4 * w.toNat * 32 + bit) * 4) 15 (if v then 1 else 0) WriteSide.none s, rfl, ?_⟩
  have hi : e.val / 32 < 8 := by have := e.isLt; omega
  rw [hw] at hg ⊢
  have aside := aliasWrite_evtMask hi bit.isLt v WriteSide.none hg
  have record : recordArea (EVT.MASK + 4 * (e.val / 32)) = false :=
    recordArea_outside (by simp only [EVT.MASK]; omega) (by simp only [EVT.MASK]; omega) (by simp only [EVT.MASK]; omega)
  generalize EVT.MASK + 4 * (e.val / 32) = m at *
  have bits (k : Nat) : bitOf ((writePart .pcie (0x2000000 + (m * 32 + bit) * 4) 15 (if v then 1 else 0) WriteSide.none s).word m) k =
      if k = bit.val then v else bitOf (s.word m) k := by
    rw [aside.words m record, word_setWord_same]
    cases v with
    | true => by_cases hk : k = bit.val <;> simp [bitOf_withBitSet _ _ bit.isLt, hk]
    | false => by_cases hk : k = bit.val <;> simp [bitOf_withBitClear _ _ bit.isLt, hk]
  exact ⟨(bits _).trans (if_pos rfl), fun k _ hk => (bits k).trans (if_neg hk), (changes_setWord _ _ _ (by simp)).trans aside.changes⟩

/-- The clamp log's head is dropped (R39). -/
theorem exec_clampPop (hg : s.gate CHIP.CLAMP_CTRL false = .served) : ∃ u : State, exec .clampPop s = .next u ∧
    u.host = { s.host with clampLog := s.host.clampLog.drop 1 } ∧ Changes [] [.host] s u := by
  refine ⟨writePart .pcie CHIP.CLAMP_CTRL 15 1 WriteSide.none s, rfl, ?_⟩
  have aside : Aside (writeReg .pcie CHIP.CLAMP_CTRL 1 WriteSide.none s) _ := writePart_aside (by rw [homeOf_clampCtrl]; rfl) hg
  rw [writeReg_clampCtrl] at aside
  exact ⟨aside.host, Changes.trans ⟨fun x _ _ => withHost_word s _ x, (withHost_within s _).mono rfl⟩ aside.changes⟩

/-- The pair whose coefficients a port shows is chosen at once (R467). -/
theorem exec_coefSelWrite (n : Fin 32) (w : Word) (hg : s.gate (portAddr n P.COEF_SEL) false = .served) :
    ∃ u : State, exec (.coefSelWrite n w) s = .next u ∧ u.rd (P.COEF_SEL.pair.port n) = w.toNat % 4 ∧ (w.toNat < 4 → u.host = s.host) ∧
      Changes [portAddr n P.COEF_SEL, CHIP.CLAMP_STATUS] [.host] s u := by
  refine ⟨writePart .pcie (portAddr n P.COEF_SEL) 15 w WriteSide.none s, rfl, ?_⟩
  have aside : Aside (writeReg .pcie (portAddr n P.COEF_SEL) w WriteSide.none s) _ := writePart_aside (by rw [homeOf_coefSel]; rfl) hg
  rw [writeReg_coefSel] at aside
  obtain ⟨block, find⟩ := homeOf_reg (homeOf_coefSel n)
  have record : recordArea (portAddr n P.COEF_SEL) = false := (doubleBuffered_place block rfl).2.resolve_left nofun
  have far : portAddr n P.COEF_SEL ≠ CHIP.CLAMP_STATUS := by simp only [portAddr, P.COEF_SEL, CHIP.CLAMP_STATUS]; omega
  have field := bits_putFields (off := 0x148) w s (findReg_mem find).1 far record (g := ⟨0, 2, .rh, 0, .any⟩) (by decide) rfl
  refine ⟨(congrArg (bitsOf · 0 2) (aside.words _ record)).trans (field.trans ?_), fun hw => ?_, (putFields_changes w s).trans aside.changes⟩
  · simp [Legal.nearest, bitsOf]
  · exact aside.host.trans (putFields_legal w s (by simp [coefSelLine, Legal.nearest]) (reserved_of_small hw)).1

/-- A write of RTC_SET_SEC's high word waits for its tick (R50). -/
theorem exec_rtcSetWrite (w : Word) (hg : s.gate (PWR.RTC_SET_SEC + 4) false = .served) :
    ∃ u : State, exec (.rtcSetWrite w) s = .next u ∧ u.power = { s.power with writes := s.power.writes ++ [(PWR.RTC_SET_SEC + 4, w, 0)] } ∧
      u.flag PWR.AON_STATUS.wr_pending = true ∧ Changes [PWR.AON_STATUS] [.power] s u := by
  refine ⟨writePart .pcie (PWR.RTC_SET_SEC + 4) 15 w WriteSide.none s, rfl, ?_⟩
  have aside : Aside (writeReg .pcie (PWR.RTC_SET_SEC + 4) w WriteSide.none s) _ := writePart_aside (by rw [homeOf_rtcSet]; rfl) hg
  rw [writeReg_pwr homeOf_rtcSet rfl] at aside
  obtain ⟨power, flag, changes⟩ := queuePwr_power .pcie (PWR.RTC_SET_SEC + 4) w s
  refine ⟨aside.power.trans power, ?_, changes.trans aside.changes⟩
  rw [State.flag, aside.rd _ (by decide)]
  exact flag

end

/-- Settles O51: each host write by the line of its register, each command by the operation it names. -/
theorem hostCommandsActByAccessType : Obligations.HostCommandsActByAccessType := by
  unfold Obligations.HostCommandsActByAccessType
  intro s
  refine ⟨?writes, ?reads, ?aliases, ?commits, exec_clampPop, exec_coefSelWrite, exec_rtcSetWrite, ?clears, ?wraps⟩
  case writes =>
    rintro a A v f c rfl rfl hg
    have small : 4 * a.toNat < 2 ^ 26 := by have := a.isLt; omega
    refine ⟨fun b off r home => ⟨hostWrite_kinds a v f hg home, fun hb hr hp hs => ?_⟩, fun hn hw ha => ?_, fun hh be hbe => ?_⟩
    · exact ⟨_, exec_hostRegisterWrite_one a 15 v f s, writePart_rw home hg hb hr hp hs⟩
    · have record := busError_recorded .unimplemented s small
      refine ⟨_, (exec_hostRegisterWrite_one a 15 v f s).trans
        (congrArg _ (writePart_error hg (by decide) (accessError_nothing hg hn hw ha))), ?_⟩
      exact ⟨record.event, record.count, record.first, record.changes⟩
    · have record := busError_recorded .narrow s small
      have hz : be ≠ 0 := by rintro rfl; exact absurd hbe (by decide)
      refine ⟨_, (exec_hostRegisterWrite_one a be v f s).trans (congrArg _ (writePart_error hg hz (accessError_narrow hg hh hbe))), ?_⟩
      exact ⟨record.event, record.count, record.first, record.changes⟩
  case reads =>
    rintro a A l e k rfl hg he hlt
    have record := (busError_recorded k s hlt).emit (.completerAbort (4 * a.toNat))
    exact ⟨_, (exec_rcRead a l s).trans (congrArg _ (hostRead_error (.inl hg) he)), getLast?_emit _ _, record.first, record.changes⟩
  case aliases =>
    intro w bit v e hw hbit hg
    obtain ⟨u, hu, facts⟩ := exec_bitAliasWrite_mask w bit v hw hg
    exact ⟨u, hu, by rw [State.arrayBit, ← hw, hbit], facts⟩
  case commits =>
    intro bb b off r home hg hs hp
    obtain ⟨hb, hc⟩ := commitReg_block bb (homeOf_reg home).1
    exact ⟨writePart .pcie (commitReg bb) 15 1 WriteSide.none s, rfl, commit_written home hb hc hs hp hg⟩
  case clears =>
    intro hits hg
    have exec_eq : exec (.clearAll hits) s = .next (hostCommand PERF.CMD (clearAll hits) s) := rfl
    refine ⟨_, exec_eq.trans (congrArg _ ?_), clearAll_clears hits s⟩
    rw [hostCommand, hg]
  case wraps =>
    intro k hmax hen
    exact ⟨counterWrap k s, rfl, counterWrap_wraps k.isLt hmax hen⟩

end Sys2Proof.Machine
end

section
/-! SUPPORT. Window accesses of the MDIO path (R48, R472). -/

namespace Sys2Proof.Machine

/-! ### The access in progress is no part of what a register shows -/

/-- The state with a window access in progress, or none. -/
def State.withBusy (s : State) (m : Option MdioAccess) : State := s.withHost { s.host with mdioBusy := m }

theorem withBusy_answer (s : State) (m : Option MdioAccess) (a : Nat) : (s.withBusy m).answer a = s.answer a := rfl

theorem withBusy_gate (s : State) (m : Option MdioAccess) (a : Nat) (isRead : Bool) : (s.withBusy m).gate a isRead = s.gate a isRead := rfl

theorem withBusy_changes (s : State) (m : Option MdioAccess) (l : List Nat) : Changes l [.host] s (s.withBusy m) :=
  ⟨fun x _ _ => withHost_word s _ x, (withHost_within s _).mono rfl⟩

theorem countLpi_withHost (n : Nat) (s : State) (h : HostSide) : countLpi n (s.withHost h) = (countLpi n s).withHost h := by
  unfold countLpi
  rw [show (s.withHost h).idle n = s.idle n from rfl]
  split <;> rfl

theorem beforeRead_withBusy (a : Nat) (s : State) (m : Option MdioAccess) : beforeRead a (s.withBusy m) = (beforeRead a s).withBusy m := by
  have host := beforeRead_host a s
  rw [State.withBusy, State.withBusy, host]
  unfold beforeRead
  split
  · split
    · exact countLpi_withHost _ _ _
    · rfl
  · rfl

theorem readRegState_busy (a : Nat) (be : BitVec 4) (s : State) : (readRegState a be s).host.mdioBusy = s.host.mdioBusy := by
  have reopened (h : HostSide) : (reopenedHost a h).mdioBusy = h.mdioBusy := by
    unfold reopenedHost
    split
    · rfl
    · split <;> rfl
  have loaded : ((beforeRead a s).loaded a be).host.mdioBusy = (beforeRead a s).host.mdioBusy := by
    unfold State.loaded
    split <;> rfl
  rw [(readRegState_aside a be s).host, clearRead_host, reopened, loaded, beforeRead_host]

theorem loaded_out (s : State) (a : Nat) (be : BitVec 4) : (s.loaded a be).out = s.out := by
  unfold State.loaded
  split <;> rfl

theorem readRegState_out (a : Nat) (be : BitVec 4) (s : State) : s.out <+: (readRegState a be s).out := by
  have cleared : (clearRead a (BitVec.ofNat 32 (rcBits a &&& byteMask be)) ((beforeRead a s).loaded a be)).out = s.out :=
    ((clearRead_keeps a _ _).within .out rfl).trans ((loaded_out _ a be).trans (beforeRead_out a s))
  exact cleared ▸ (readRegState_rises a be s).out

/-! ### A window access ends -/

theorem mdioDone_eq {s : State} {m : MdioAccess} (f : Option FuseLeft) (hm : s.host.mdioBusy = some m)
    (hg : s.gate (m.addr % 2 ^ 26) (!m.write) = .served) : mdioDone f s =
      if m.write then mdioWriteDone m.addr m.data { fuse := f, linear := 0 } (s.withBusy none) else mdioReadDone m.addr (s.withBusy none) := by
  unfold mdioDone
  rw [hm]
  simp only
  rw [show (State.gate { s with host := { s.host with mdioBusy := none } } (m.addr % 2 ^ 26) (!m.write)) = .served from hg]
  rfl

theorem windowError_none {a : Nat} {isRead : Bool} {s : State} (small : a < 2 ^ 26) (h4 : a % 4 = 0) (hh : (homeOf a).isSome = true)
    (hg : s.gate a isRead = .served) : s.windowError a isRead = none := by
  rw [State.windowError, if_neg (by omega), if_neg (by omega), accessError_word hh hg]

/-- A window read of a register loads what a 32-bit read answers and clears what it clears. -/
theorem mdioReadDone_home {a : Nat} (s : State) (small : a < 2 ^ 26) (h4 : a % 4 = 0) (hh : (homeOf a).isSome = true)
    (hg : s.gate a true = .served) : mdioReadDone a s = mdioLoad ((beforeRead a s).answer a) (readRegState a 15 s) := by
  rw [mdioReadDone, windowError_none small h4 hh hg, readPart_home s hh (by decide), and_byteMask_all]

theorem mdioWriteDone_home {a : Nat} {v : Word} {x : WriteSide} {s : State} (small : a < 2 ^ 26) (h4 : a % 4 = 0)
    (hh : (homeOf a).isSome = true) (hg : s.gate a false = .served) :
    mdioWriteDone a v x s = perfCount 4 0x06 (writeReg .mdio a v x s) := by
  rw [mdioWriteDone, windowError_none small h4 hh hg]
  exact writePart_served hh hg

theorem mdioLoad_changes (v : Word) (s : State) (l : List Nat) : Changes l [.host] s (mdioLoad v s) :=
  ⟨fun x _ _ => withHost_word s _ x, (withHost_within s _).mono rfl⟩

/-- What a window read of a register leaves. -/
theorem mdioRead_home {a : Nat} (s : State) (small : a < 2 ^ 26) (h4 : a % 4 = 0) (hh : (homeOf a).isSome = true)
    (hg : s.gate a true = .served) : ∃ u : State, mdioReadDone a (s.withBusy none) = u ∧ u.host.mdioBusy = none ∧
      u.host.mdioData = (beforeRead a s).answer a ∧
      (recordArea a = false → u.word a = (beforeRead a s).word a &&& ~~~BitVec.ofNat 32 (rcBits a)) ∧ u.out.take s.out.length = s.out ∧
      Changes [a] [.host] (beforeRead a s) u := by
  refine ⟨_, mdioReadDone_home _ small h4 hh (withBusy_gate s none a true ▸ hg), ?_, ?_, fun hr => ?_, ?_, ?_⟩
  · exact readRegState_busy a 15 _
  · change (beforeRead a (s.withBusy none)).answer a = _
    rw [beforeRead_withBusy, withBusy_answer]
  · have mask : BitVec.ofNat 32 (rcBits a &&& byteMask 15) = BitVec.ofNat 32 (rcBits a) := by
      rw [show byteMask 15 = 2 ^ 32 - 1 from by decide, Nat.and_two_pow_sub_one_eq_mod]
      exact BitVec.eq_of_toNat_eq (by simp)
    refine (word_readRegState 15 _ hr).trans ?_
    rw [mask, beforeRead_withBusy]
    rfl
  · exact (List.prefix_iff_eq_take.mp (readRegState_out a 15 (s.withBusy none))).symm
  · have started := withBusy_changes (beforeRead a s) none [a]
    rw [← beforeRead_withBusy] at started
    exact (started.trans (readRegState_changes a 15 _)).trans (mdioLoad_changes _ _ _)

/-! ### A window access that fails -/

theorem mdioErr_flag (s : State) : (mdioErr s).flag CHIP.MDIO_STATUS.mdio_err = true := by
  rw [State.flag, mdioErr, rd_wr_same _ _ _ (by decide)]
  rfl

theorem mdioErr_word (s : State) {a : Nat} (h : a ≠ CHIP.MDIO_STATUS) : (mdioErr s).word a = s.word a := word_wr_ne _ _ _ h

theorem mdioErr_within (s : State) : Within [.regs] s (mdioErr s) := (mdioErr_keeps s).within

theorem mdioErr_changes (s : State) {l : List Nat} (h : CHIP.MDIO_STATUS ∈ l) : Changes l [.host] s (mdioErr s) := changes_wr _ _ _ h

/-- The cause of a failing window access, by its number. -/
theorem windowError_cause {m : Nat} {k : Nat} {isRead : Bool} {s : State} (hg : s.gate (m % 2 ^ 26) isRead = .served)
    (h : 2 ^ 26 ≤ m ∧ k = 3 ∨ m < 2 ^ 26 ∧ m % 2 ^ 26 % 4 ≠ 0 ∧ k = 1 ∨
      m < 2 ^ 26 ∧ m % 2 ^ 26 % 4 = 0 ∧ homeOf (m % 2 ^ 26) = none ∧ inWindow (m % 2 ^ 26) = false ∧ inAlias (m % 2 ^ 26) = false ∧ k = 3) :
    ∃ c : BusCause, s.windowError m isRead = some c ∧ c.code = k := by
  rcases h with ⟨large, rfl⟩ | ⟨small, h4, rfl⟩ | ⟨small, h4, hh, hw, ha, rfl⟩
  · exact ⟨.unimplemented, if_pos large, rfl⟩
  · rw [Nat.mod_eq_of_lt small] at h4
    exact ⟨.unaligned, by rw [State.windowError, if_neg (by omega), if_pos h4], rfl⟩
  · rw [Nat.mod_eq_of_lt small] at h4 hh hw ha hg
    exact ⟨.unimplemented, by rw [State.windowError, if_neg (by omega), if_neg (by omega), accessError_nothing hg hh hw ha], rfl⟩

/-- What a failing window access leaves. -/
structure WindowFailed (k a : Nat) (data : Word) (s u : State) : Prop where
  busy : u.host.mdioBusy = none
  flag : u.flag CHIP.MDIO_STATUS.mdio_err = true
  loaded : u.host.mdioData = data
  event : u.pend 216 = true
  count : u.rd CHIP.BUSERR_STATUS.count = min 0xFFFF (s.rd CHIP.BUSERR_STATUS.count + 1)
  first : s.host.busFresh = true → u.rd CHIP.BUSERR_STATUS.cause = k ∧ u.rd CHIP.BUSERR_ADDR.addr = a
  changes : Changes [CHIP.BUSERR_STATUS, CHIP.BUSERR_ADDR, CHIP.MDIO_STATUS] [.host] s u

/-- A bus error of the window, its data loaded or not, with mdio_err. -/
theorem windowFailed_of_recorded {k a : Nat} {s t u : State} {d : Word} (h : BusErrorRecorded k a (s.withBusy none) t)
    (ht : ∀ x, u.word x = t.word x) (hu : Within [.host] t u) (hbusy : u.host.mdioBusy = t.host.mdioBusy) (hd : u.host.mdioData = d) :
    WindowFailed k a d s (mdioErr u) := by
  have word (x : Nat) (hx : x ≠ CHIP.MDIO_STATUS) : (mdioErr u).word x = t.word x := (mdioErr_word u hx).trans (ht x)
  have rd (g : Field) (hg : g.addr ≠ CHIP.MDIO_STATUS) : (mdioErr u).rd g = t.rd g := congrArg (bitsOf · g.lsb g.width) (word _ hg)
  have host : (mdioErr u).host = u.host := mdioErr_within u .host rfl
  refine ⟨?_, mdioErr_flag u, by rw [host, hd], ?_, ?_, fun hf => ?_, ?_⟩
  · rw [host, hbusy, h.host]
    rfl
  · exact (congrArg (bitOf · _) (word _ (by decide))).trans h.event
  · exact (rd _ (by decide)).trans h.count
  · obtain ⟨cause, addr⟩ := h.first hf
    exact ⟨(rd _ (by decide)).trans cause, (rd _ (by decide)).trans addr⟩
  · have recorded : Changes [CHIP.BUSERR_STATUS, CHIP.BUSERR_ADDR, CHIP.MDIO_STATUS] [.host] (s.withBusy none) t :=
      h.changes.mono (by simp) rfl
    have carried : Changes [CHIP.BUSERR_STATUS, CHIP.BUSERR_ADDR, CHIP.MDIO_STATUS] [.host] t u := ⟨fun x _ _ => ht x, hu.mono rfl⟩
    exact (((withBusy_changes s none _).trans recorded).trans carried).trans (mdioErr_changes u (by simp))

theorem mdioWriteDone_error {a : Nat} {v : Word} {x : WriteSide} {c : BusCause} {s : State} (h : s.windowError a false = some c) :
    mdioWriteDone a v x s = mdioErr (busError c (a % 2 ^ 26) s) := by rw [mdioWriteDone, h]

theorem mdioReadDone_error {a : Nat} {c : BusCause} {s : State} (h : s.windowError a true = some c) :
    mdioReadDone a s = mdioErr (mdioLoad 0xFFFFFFFF (busError c (a % 2 ^ 26) s)) := by rw [mdioReadDone, h]

theorem mdioLoad_failed {k a : Nat} {d : Word} {s t : State} (h : BusErrorRecorded k a (s.withBusy none) t) :
    WindowFailed k a d s (mdioErr (mdioLoad d t)) :=
  windowFailed_of_recorded h (fun _ => rfl) (withHost_within _ _) rfl rfl

theorem noLoad_failed {k a : Nat} {s t : State} (h : BusErrorRecorded k a (s.withBusy none) t) :
    WindowFailed k a s.host.mdioData s (mdioErr t) :=
  windowFailed_of_recorded h (fun _ => rfl) (within_refl _ _) rfl (by rw [h.host]; rfl)

/-- A window access with a bus error: a read loads all ones, a write leaves the data. -/
theorem window_failed {k : Nat} {m : MdioAccess} {s : State} (f : Option FuseLeft) (hm : s.host.mdioBusy = some m)
    (hg : s.gate (m.addr % 2 ^ 26) (!m.write) = .served)
    (hk : ∃ c : BusCause, (s.withBusy none).windowError m.addr (!m.write) = some c ∧ c.code = k) :
    WindowFailed k (m.addr % 2 ^ 26) (if m.write then s.host.mdioData else 0xFFFFFFFF) s (mdioDone f s) := by
  obtain ⟨c, hc, rfl⟩ := hk
  have record := busError_recorded c (s.withBusy none) (Nat.mod_lt m.addr (by decide : 0 < 2 ^ 26))
  rw [mdioDone_eq f hm hg]
  cases hw : m.write with
  | true =>
    rw [hw] at hc
    rw [if_pos rfl, if_pos rfl, mdioWriteDone_error hc]
    exact noLoad_failed record
  | false =>
    rw [hw] at hc
    rw [if_neg (by decide), if_neg (by decide), mdioReadDone_error hc]
    exact mdioLoad_failed record

end Sys2Proof.Machine
end

section
/-! SUPPORT. The standard registers of the MDIO path (R469 to R471). -/

namespace Sys2Proof.Machine

/-! ### Direct reads (R470, R471) -/

/-- A direct read of a standard register is of the management registers alone. -/
theorem latchLowRead_served {n mmd : Fin 32} {reg : BitVec 16} {s : State} (hm : mmd ≠ 30)
    (hg : s.gate (portAddr n P.LINE_STATUS) true = .served) : exec (.latchLowRead n mmd reg) s = .next (mdioRead n mmd reg.toNat s) := by
  have exec_eq : exec (.latchLowRead n mmd reg) s = .next (latchLowRead n mmd reg.toNat s) := rfl
  have hm' : mmd.val ≠ 30 := fun e => hm (Fin.ext e)
  rw [exec_eq, latchLowRead, if_neg hm', hg]

/-- MMDs other than 30 and 31 hold standard registers. -/
theorem mdioView_standard {mmd : Nat} (h : mmd ≠ 30 ∧ mmd ≠ 31) (s : State) (n reg : Nat) : s.mdioView n mmd reg = s.standard n mmd reg := by
  unfold State.mdioView
  split
  · exact absurd rfl h.1
  · exact absurd rfl h.2
  · rfl

theorem odd_bitNat (b : Bool) (k : Nat) : (bitNat b + 2 * k) % 2 = 1 ↔ b = true := by
  rw [Nat.add_mul_mod_self_left]
  cases b <;> decide

/-- Bit 2 of a status register is the latched link status. -/
theorem standard_status {mmd : Nat} (h : mmd = 1 ∨ mmd = 3 ∨ mmd = 7) {s : State} {n v : Nat} (hv : s.standard n mmd 1 = some v) :
    v / 4 % 2 = 1 ↔ s.linkLatched n mmd = true := by
  suffices ∃ k, v / 4 = bitNat (s.linkLatched n mmd) + 2 * k by
    obtain ⟨k, hk⟩ := this
    rw [hk]
    exact odd_bitNat _ k
  rcases h with rfl | rfl | rfl
  · have word : bitNat (s.linkLatched n 1) * 4 + 2 = v := Option.some.inj hv
    exact ⟨0, by omega⟩
  · have word : bitNat (s.linkLatched n 3) * 4 + s.rd (P.LINE_STATUS.lpi_tx.port n) * 2 ^ 9 + s.rd (P.LINE_STATUS.lpi_rx.port n) * 2 ^ 8 = v :=
      Option.some.inj hv
    exact ⟨64 * s.rd (P.LINE_STATUS.lpi_tx.port n) + 32 * s.rd (P.LINE_STATUS.lpi_rx.port n), by omega⟩
  · have word : bitNat (s.fsm n == fsmTrain || s.fsm n == fsmData || s.fsm n == fsmFretrain) * 32 + 8 + bitNat (s.linkLatched n 7) * 4 = v :=
      Option.some.inj hv
    exact ⟨4 * bitNat (s.fsm n == fsmTrain || s.fsm n == fsmData || s.fsm n == fsmFretrain) + 1, by omega⟩

theorem restoreLink_latched (n mmd : Nat) (s : State) (p q : Nat) : (restoreLink n mmd s).linkLatched p q =
    if linkKey p q = linkKey n mmd then s.flag (P.LINE_STATUS.link_up.port n) else s.linkLatched p q := sget_sput _ _ _ _ _

/-- A direct read of a status register. -/
theorem mdioRead_status {n mmd v : Nat} (h : mmd = 1 ∨ mmd = 3 ∨ mmd = 7) {s : State} (hv : s.standard n mmd 1 = some v) :
    mdioRead n mmd 1 s = restoreLink n mmd (s.emit (.mdioData n mmd 1 (BitVec.ofNat 16 v))) := by
  have view : s.mdioView n mmd 1 = some v := (mdioView_standard (by omega) s n 1).trans hv
  have latching : (mmd = 1 ∨ mmd = 3) ∨ mmd = 7 := by omega
  rw [mdioRead, view]
  simp [latching]

theorem mdioRead_none {n mmd reg : Nat} (h : mmd ≠ 30 ∧ mmd ≠ 31) {s : State} (hv : s.standard n mmd reg = none) :
    mdioRead n mmd reg s = mdioErr (s.emit (.mdioData n mmd reg 0xFFFF)) := by
  rw [mdioRead, mdioView_standard h, hv]

/-! ### Direct writes (R471) -/

/-- A direct write of a standard register. -/
theorem mdioStandardWrite_served {n mmd : Fin 32} {reg v : BitVec 16} {s : State} (hm : mmd ≠ 30 ∧ mmd ≠ 31)
    (hg : s.gate (portAddr n P.LINE_CFG) false = .served) :
    exec (.mdioStandardWrite n mmd reg v) s = .next (standardWrite n mmd reg.toNat v s) := by
  have exec_eq : exec (.mdioStandardWrite n mmd reg v) s = .next (mdioWrite n mmd reg.toNat v s) := rfl
  have h30 : mmd.val ≠ 30 := fun e => hm.1 (Fin.ext e)
  have h31 : mmd.val ≠ 31 := fun e => hm.2 (Fin.ext e)
  rw [exec_eq, mdioWrite, if_neg h30, hg]
  simp only
  rw [if_neg h30, if_neg h31]

theorem standardWrite_none {n mmd reg : Nat} (v : BitVec 16) {s : State} (h : s.standard n mmd reg = none) :
    standardWrite n mmd reg v s = mdioErr s := by
  have other (m r : Nat) (hs : (s.standard n m r).isSome = true) : (decide (mmd = m) && decide (reg = r)) = false := by
    rw [Bool.eq_false_iff, Ne, Bool.and_eq_true, decide_eq_true_eq, decide_eq_true_eq]
    rintro ⟨rfl, rfl⟩
    rw [h] at hs
    cases hs
  unfold standardWrite
  simp only [other 1 0 rfl, other 3 0 rfl, other 7 0 rfl, other 7 16 rfl, other 7 32 rfl, other 7 60 rfl, other 7 62 rfl, h, Bool.false_eq_true,
    if_false, Option.isSome_none]

/-- A field of an RW register of a port. -/
structure PortField (f : Field) (r : RegDef) : Prop where
  place : 0x100000 ≤ f.addr ∧ f.addr < 0x110000
  line : findReg tableP (f.addr - 0x100000) = some r
  rw : r.hasRW = true
  field : ∃ g ∈ r.fields, g.lsb = f.lsb ∧ g.width = f.width ∧ g.access = .rw ∧ g.legal = .any

section
variable {f : Field} {r : RegDef} {n : Fin 32} {v : Nat} {s : State}

theorem PortField.home (h : PortField f r) (n : Fin 32) : homeOf (f.port n).addr = some (.reg (.port n) (f.addr - 0x100000) r) :=
  homeOf_portAddr n h.place.1 h.place.2 h.line

/-- TST.STATUS, which says that the device is Sealed, under changes elsewhere. -/
theorem sealed_of_changes {l : List Nat} {p : List Part} {s t : State} (h : Changes l p s t) (hl : TST.STATUS ∉ l) : t.sealed = s.sealed := by
  have word : t.word TST.STATUS.sealed.addr = s.word TST.STATUS.sealed.addr := h.registers TST.STATUS hl (by decide)
  rw [State.sealed, State.flag, State.rd, word]
  rfl

/-- A configuration write through a standard bit, while the port's bank is pending. -/
theorem standardField_pending (h : PortField f r) (hs : s.sealed = false) (hp : s.bankPending (.port n) = true) :
    standardField f n v s = ignored .pending (f.port n).addr s := by
  rw [standardField, writeReg_pending (h.home n) rfl h.rw (.inr hs) hp, hp, Bool.or_true, if_pos rfl]

/-- A configuration write through a standard bit is the write of its field and the port's commit. -/
theorem standardField_write {t : State} (hp : s.bankPending (.port n) = false) (ht : t.sealed = false)
    (hw : writeReg .mdio (f.port n).addr (withBits (s.word (f.port n).addr) f.lsb f.width v) WriteSide.none s = t) :
    standardField f n v s = t.setPending (.port n) true := by
  unfold standardField
  dsimp only
  rw [hp, show (f.port n).lsb = f.lsb from rfl, show (f.port n).width = f.width from rfl, hw, ht]
  exact if_neg (by decide)

/-- A configuration write through a standard bit: the field in the shadow bank, and the commit. -/
theorem standardField_free (h : PortField f r) (hs : s.sealed = false) (hp : s.bankPending (.port n) = false) (hc : f.addr ≠ P.BANK_CTRL) :
    (standardField f n v s).rd (f.port n) = v % 2 ^ f.width ∧ (standardField f n v s).bankPending (.port n) = true ∧
      Changes [(f.port n).addr, portAddr n P.BANK_CTRL, CHIP.CLAMP_STATUS] [.host] s (standardField f n v s) := by
  obtain ⟨block, find⟩ := homeOf_reg (h.home n)
  have small := h.place.1
  have record : recordArea (f.port n).addr = false := (doubleBuffered_place block rfl).2.resolve_left nofun
  have far : (f.port n).addr ≠ CHIP.CLAMP_STATUS := by simp only [Field.port, CHIP.CLAMP_STATUS]; omega
  have high : TST.STATUS ∉ [(f.port n).addr, CHIP.CLAMP_STATUS] := by
    have := h.place.2
    have := n.isLt
    simp only [Field.port, List.mem_cons, List.not_mem_nil, or_false, TST.STATUS, CHIP.CLAMP_STATUS]
    omega
  obtain ⟨g, hg, hlsb, hwidth, haccess, hlegal⟩ := h.field
  have written := putFields_changes (a := (f.port n).addr) (off := f.addr - 0x100000) (r := r) (withBits (s.word (f.port n).addr) f.lsb f.width v) s
  have fits := ((tableOf_sound (.port n) r (findReg_mem find).1).2 g hg).1
  rw [hlsb, hwidth] at fits
  have bits := bits_putFields (off := f.addr - 0x100000) (withBits (s.word (f.port n).addr) f.lsb f.width v) s (findReg_mem find).1 far record hg
    (by simp [FieldDef.stores, haccess])
  rw [hlsb, hwidth, hlegal, Legal.nearest, bitsOf_withBits _ _ _ _ fits] at bits
  have eq := standardField_write hp ((sealed_of_changes written high).trans hs) (writeReg_rw (h.home n) rfl h.rw (.inr hs) hp)
  rw [eq]
  generalize putFields (f.port n).addr (f.addr - 0x100000) r (withBits (s.word (f.port n).addr) f.lsb f.width v) s = t at *
  have pending := setPending_changes t (.port n) true
  refine ⟨?_, bankPending_setPending t rfl, (written.mono (List.cons_subset_cons _ (List.subset_cons_self _ _)) rfl).trans (pending.mono ?_ rfl)⟩
  · have apart : (f.port n).addr ∉ (Block.port n).bankCtrl.toList := by
      simp only [Block.bankCtrl, Option.toList_some, List.mem_singleton, Field.port, portAddr]
      omega
    exact (congrArg (bitsOf · f.lsb f.width) (pending.registers _ apart record)).trans bits
  · intro x hx
    obtain rfl : x = portAddr n P.BANK_CTRL := List.mem_singleton.mp hx
    exact List.mem_cons_of_mem _ List.mem_cons_self

end

end Sys2Proof.Machine
end

section
/-! SUPPORT. MDIO's commands: the window's accesses and the standard registers' bits (R48, R470 to R472). -/

namespace Sys2Proof.Machine

/-! ### The bits a standard register writes -/

theorem portOff_field : PortField P.LINE_CFG.port_off ⟨0x40, 0, 1, [⟨12, 1, .rw, 0, .any⟩, ⟨8, 1, .rw, 0, .any⟩, ⟨4, 3, .rw, 4, (.range 0 4)⟩,
    ⟨0, 3, .rw, 0, (.range 0 2)⟩]⟩ :=
  ⟨by decide, by decide, by decide, ⟨_, List.mem_cons_self, rfl, rfl, rfl, rfl⟩⟩

theorem baseT_field : PortField P.AN_ADV.base_t ⟨0x4C, 0, 1, [⟨13, 1, .rw, 1, .any⟩, ⟨11, 1, .rw, 1, .any⟩, ⟨8, 3, .rw, 7, .any⟩,
    ⟨0, 5, .rw, 31, .any⟩]⟩ :=
  ⟨by decide, by decide, by decide, ⟨⟨0, 5, .rw, 31, .any⟩, by decide, rfl, rfl, rfl, rfl⟩⟩

theorem mixBits_low (old : Nat) (b : Bool) : (mixBits old 1 (bitNat b) % 2 ^ 5).testBit 0 = b := by
  have kept : (1 ^^^ 31 : Nat).testBit 0 = false := by decide
  rw [Nat.testBit_mod_two_pow, mixBits, Nat.testBit_or, Nat.testBit_and, Nat.testBit_and, kept]
  cases b <;> simp [bitNat]

theorem bitOf_zero_of_bits {w : Word} {k x : Nat} (h : bitsOf w 0 (k + 1) = x) : bitOf w 0 = x.testBit 0 := by
  rw [← h, bitsOf, Nat.testBit_mod_two_pow, pow_zero, Nat.div_one, BitVec.testBit_toNat, decide_eq_true (Nat.succ_pos k), Bool.true_and]
  rfl

section
variable (n : Nat) (v : BitVec 16) (s : State)

theorem standardWrite_control (h : v.getLsbD 15 = false) :
    standardWrite n 1 0 v s = standardField P.LINE_CFG.port_off n (bitNat (v.getLsbD 11)) s := by
  rw [BitVec.getLsbD_eq_getElem (by decide)] at h
  simp [standardWrite, h]

theorem standardWrite_advertise :
    standardWrite n 7 16 v s = standardField P.AN_ADV.base_t n (mixBits (s.rd (P.AN_ADV.base_t.port n)) 1 (bitNat (v.getLsbD 8))) s := by
  simp [standardWrite]

theorem standardWrite_disable (h12 : v.getLsbD 12 = false) (h9 : v.getLsbD 9 = false) :
    standardWrite n 7 0 v s = ignored .readOnly (portAddr n P.PORT_CMD) s := by
  rw [BitVec.getLsbD_eq_getElem (by decide)] at h12 h9
  simp [standardWrite, h12, h9]

end

/-! ### The window's commands -/

section
variable {s : State}

theorem mdioStart_free (w : Bool) (hr : s.reachable = true) (hb : s.host.mdioBusy = none) :
    mdioStart w s = s.withBusy (some ⟨w, s.host.mdioAddr.toNat, s.host.mdioData⟩) := by
  rw [mdioStart, hr, hb]
  rfl

theorem mdioStart_busy (w : Bool) (hr : s.reachable = true) (hb : s.host.mdioBusy ≠ none) : mdioStart w s = mdioErr s := by
  obtain ⟨m, hm⟩ := Option.ne_none_iff_exists'.mp hb
  rw [mdioStart, hr, hm]
  rfl

theorem exec_mdioStart {c : Instr} {w : Bool} (hc : c = Instr.mdioWindowRead ∧ w = false ∨ c = Instr.mdioWindowWrite ∧ w = true) :
    exec c s = .next (mdioStart w s) := by
  rcases hc with ⟨rfl, rfl⟩ | ⟨rfl, rfl⟩ <;> rfl

theorem exec_mdioDone (f : Option FuseLeft) : exec (.mdioWindowAccessDone f) s = .next (mdioDone f s) := rfl

/-- A write of ADDR_LO takes its half of the address. -/
theorem mdioWrite_addrLow (n : Fin 32) (v : BitVec 16) (hr : s.reachable = true) (hb : s.host.mdioBusy = none) :
    exec (.mdioStandardWrite n 30 0 v) s = .next (s.withHost { s.host with mdioAddr := putHalf s.host.mdioAddr false v }) := by
  have exec_eq : exec (.mdioStandardWrite n 30 0 v) s = .next (mdioWrite n 30 0 v s) := rfl
  rw [exec_eq, mdioWrite, hr]
  simp only [if_true, windowReg, hb]
  rfl

end

/-! ### What an access and a direct read leave -/

section
variable {s : State}

theorem mdioErr_emit (o : Output) : (mdioErr (s.emit o)).out = s.out ++ [o] ∧ (mdioErr (s.emit o)).flag CHIP.MDIO_STATUS.mdio_err = true ∧
    (∀ a, a ≠ CHIP.MDIO_STATUS → (mdioErr (s.emit o)).word a = s.word a) ∧ Within [.regs, .out] s (mdioErr (s.emit o)) :=
  ⟨rfl, mdioErr_flag _, fun _ ha => mdioErr_word _ ha,
    ((State.emit_keeps s o).within.mono rfl).trans ((mdioErr_within _).mono rfl)⟩

/-- A latching-low bit read is restored to the present link, and no other bit changes. -/
theorem restoreLink_emit (n mmd : Fin 32) (hm : mmd.val < 8) (o : Output) :
    (restoreLink n mmd (s.emit o)).out = s.out ++ [o] ∧
      (restoreLink n mmd (s.emit o)).linkLatched n mmd = s.flag (P.LINE_STATUS.link_up.port n) ∧
      (∀ (p q : Fin 32), q.val < 8 → (p, q) ≠ (n, mmd) → (restoreLink n mmd (s.emit o)).linkLatched p q = s.linkLatched p q) ∧
      Within [.out, .host] s (restoreLink n mmd (s.emit o)) := by
  refine ⟨rfl, (restoreLink_latched _ _ _ _ _).trans (if_pos rfl), fun p q hq hne => ?_,
    ((State.emit_keeps s o).within.mono rfl).trans ((restoreLink_keeps _ _ _).within.mono rfl)⟩
  refine (restoreLink_latched _ _ _ _ _).trans (if_neg fun e => hne ?_)
  simp only [linkKey] at e
  have port : p = n := Fin.ext (by omega)
  have device : q = mmd := Fin.ext (by omega)
  rw [port, device]

end

/-- Settles O52: the window's accesses by the read and write of the register file, the standard registers by the port's fields. -/
theorem mdioWindowAndStandardRegisters : Obligations.MdioWindowAndStandardRegisters := by
  unfold Obligations.MdioWindowAndStandardRegisters
  intro s
  refine ⟨?starts, ?idle, ?done, ?reads, ?writes⟩
  case starts =>
    intro hr c w hc
    rw [exec_mdioStart hc]
    refine ⟨fun hb => ⟨_, rfl, ?_⟩, fun hb => ⟨_, rfl, ?_⟩⟩
    · rw [mdioStart_free w hr hb]
      exact ⟨rfl, withHost_within _ _⟩
    · rw [mdioStart_busy w hr hb]
      exact ⟨mdioErr_flag s, fun a ha => mdioErr_word s ha, mdioErr_within s⟩
  case idle =>
    intro f hb
    rw [exec_mdioDone, mdioDone, hb]
  case done =>
    rintro f m A hm rfl hg
    refine ⟨fun haddr h4 hh => ⟨?_, fun hw => ?_⟩, fun k hk => ?_⟩
    · rintro hw b rfl
      have small : m.addr < 2 ^ 26 := by omega
      rw [← haddr] at h4 hh ⊢
      have served : s.gate m.addr true = .served := by rw [← haddr, hw] at hg; exact hg
      obtain ⟨u, hu, facts⟩ := mdioRead_home s small h4 hh served
      refine ⟨u, ?_, facts⟩
      rw [exec_mdioDone, mdioDone_eq f hm hg, hw, if_neg (by decide), hu]
    · have small : m.addr < 2 ^ 26 := by omega
      rw [← haddr] at h4 hh ⊢
      have served : s.gate m.addr false = .served := by rw [← haddr, hw] at hg; exact hg
      refine (exec_mdioDone f).trans (congrArg _ ?_)
      rw [mdioDone_eq f hm hg, hw, if_pos rfl]
      exact mdioWriteDone_home (s := s.withBusy none) small h4 hh served
    · have failed := window_failed f hm hg (windowError_cause (s := s.withBusy none) hg hk)
      exact ⟨_, exec_mdioDone f, failed.busy, failed.flag, failed.loaded, failed.event, failed.count, failed.first, failed.changes⟩
  case reads =>
    intro n mmd reg hg
    refine ⟨fun v hm hreg hv => ?_, fun hm hv => ?_⟩
    · subst hreg
      have status : mmd.val = 1 ∨ mmd.val = 3 ∨ mmd.val = 7 := by
        simp only [List.mem_cons, List.not_mem_nil, or_false] at hm
        rcases hm with rfl | rfl | rfl <;> decide
      obtain ⟨hout, hrestored, hothers, hwithin⟩ := restoreLink_emit (s := s) n mmd (by omega) (.mdioData n mmd 1 (BitVec.ofNat 16 v))
      refine ⟨_, (latchLowRead_served (fun e => by rw [e] at status; exact absurd status (by decide)) hg).trans
        (congrArg _ (mdioRead_status status hv)), hout, standard_status status hv, hrestored, hothers, hwithin⟩
    · simp only [List.mem_cons, List.not_mem_nil, or_false, not_or] at hm
      have apart : mmd.val ≠ 30 ∧ mmd.val ≠ 31 := ⟨fun e => hm.1 (Fin.ext e), fun e => hm.2 (Fin.ext e)⟩
      exact ⟨_, (latchLowRead_served hm.1 hg).trans (congrArg _ (mdioRead_none apart hv)), mdioErr_emit _⟩
  case writes =>
    intro n v hg hs
    refine ⟨fun hp => ⟨fun h15 => ?_, ?_⟩, fun hp => ?_, fun h12 h9 => ?_, fun mmd reg hm hv => ?_, fun hr hb => ?_⟩
    · obtain ⟨hfield, hpend, hchanges⟩ := standardField_free (n := n) (v := bitNat (v.getLsbD 11)) portOff_field hs hp (by decide)
      have bit : bitNat (v.getLsbD 11) % 2 ^ 1 = bitNat (v.getLsbD 11) := by cases v.getLsbD 11 <;> rfl
      exact ⟨_, (mdioStandardWrite_served (mmd := 1) (reg := 0) (by decide) hg).trans (congrArg _ (standardWrite_control n v s h15)),
        hfield.trans bit, hpend, hchanges⟩
    · obtain ⟨hfield, hpend, hchanges⟩ := standardField_free (n := n) (v := mixBits (s.rd (P.AN_ADV.base_t.port n)) 1 (bitNat (v.getLsbD 8)))
        baseT_field hs hp (by decide)
      exact ⟨_, (mdioStandardWrite_served (mmd := 7) (reg := 16) (by decide) hg).trans (congrArg _ (standardWrite_advertise n v s)),
        (bitOf_zero_of_bits (k := 4) hfield).trans (mixBits_low _ _), hpend, hchanges⟩
    · have block := blockOf_portAddr n (a := P.AN_ADV) (by decide) (by decide)
      have record := ignored_recorded .pending s block
      refine ⟨_, (mdioStandardWrite_served (mmd := 7) (reg := 16) (by decide) hg).trans
        (congrArg _ ((standardWrite_advertise n v s).trans (standardField_pending baseT_field hs hp))), fun hf => (record.first hf).1, ?_, record.changes⟩
      refine (record.word ?_ ((doubleBuffered_place block rfl).2.resolve_left nofun)).trans (if_neg ?_)
      · simp only [portAddr, P.AN_ADV]; omega
      · simp only [Block.bankStatus, Option.some.injEq, portAddr, P.AN_ADV, P.BANK_STATUS]; omega
    · have record := ignored_recorded .readOnly s (blockOf_portAddr n (a := P.PORT_CMD) (by decide) (by decide))
      exact ⟨_, (mdioStandardWrite_served (mmd := 7) (reg := 0) (by decide) hg).trans (congrArg _ (standardWrite_disable n v s h12 h9)),
        fun hf => (record.first hf).1, record.changes⟩
    · simp only [List.mem_cons, List.not_mem_nil, or_false, not_or] at hm
      exact ⟨_, (mdioStandardWrite_served hm hg).trans (congrArg _ (standardWrite_none v hv)), mdioErr_flag s,
        fun a ha => mdioErr_word s ha, mdioErr_within s⟩
    · exact ⟨_, mdioWrite_addrLow n v hr hb, rfl, withHost_within _ _⟩

end Sys2Proof.Machine
end

section
/-! SUPPORT. Frames of the ports' supervision: how `ChangesIn` composes, and what stays with the other ports. -/

namespace Sys2Proof.Machine

/-! ### Areas -/

theorem ChangesIn.trans {area : Nat → Bool} {parts : List Part} {a b c : State} (h : ChangesIn area parts a b)
    (k : ChangesIn area parts b c) : ChangesIn area parts a c :=
  ⟨fun x hx hr => (k.registers x hx hr).trans (h.registers x hx hr), h.rest.trans k.rest⟩

/-- Listed registers, all of them in an area. -/
theorem Changes.inArea {words : List Nat} {area : Nat → Bool} {parts parts' : List Part} {s t : State} (h : Changes words parts s t)
    (ha : ∀ a ∈ words, area a = true) (hp : (records ++ parts).all ((records ++ parts').contains ·) = true) :
    ChangesIn area parts' s t :=
  ⟨fun a hx hr => h.registers a (fun hm => by simp [ha a hm] at hx) hr, h.rest.mono hp⟩

theorem recordArea_port (n : Fin 32) {a : Nat} (low : 0x100000 ≤ a) (high : a < 0x110000) : recordArea (portAddr n a) = false := by
  have := n.isLt
  exact recordArea_outside (.inr (by simp only [portAddr]; omega)) (.inr (by simp only [portAddr]; omega))
    (.inl (by simp only [portAddr]; omega))

/-- A register of a port's own block is in its area. -/
theorem linkArea_port (n : Nat) {a : Nat} (low : 0x100000 ≤ a) (high : a < 0x110000) : linkArea n (portAddr n a) = true := by
  have h1 : 0x100000 + 0x10000 * n ≤ portAddr n a := by simp only [portAddr]; omega
  have h2 : portAddr n a < 0x110000 + 0x10000 * n := by simp only [portAddr]; omega
  simp [linkArea, h1, h2]

/-! ### The other ports -/

/-- No port but `n` has other hidden state in `t` than in `s`. -/
def OthersKept (n : Nat) (s t : State) : Prop :=
  ∀ m, m ≠ n → t.link m = s.link m ∧ t.trip m = s.trip m ∧ t.rch m = s.rch m ∧ t.idle m = s.idle m ∧ t.mon m = s.mon m

theorem OthersKept.refl (n : Nat) (s : State) : OthersKept n s s := fun _ _ => ⟨rfl, rfl, rfl, rfl, rfl⟩

theorem OthersKept.trans {n : Nat} {a b c : State} (h : OthersKept n a b) (k : OthersKept n b c) : OthersKept n a c := by
  intro m hm
  obtain ⟨hl, ht, hr, hi, ho⟩ := h m hm
  obtain ⟨kl, kt, kr, ki, ko⟩ := k m hm
  exact ⟨kl.trans hl, kt.trans ht, kr.trans hr, ki.trans hi, ko.trans ho⟩

/-- What leaves the five stores of the ports alone. -/
theorem Within.others {l : List Part} {s t : State} (h : Within l s t) (n : Nat)
    (hl : [Part.links, .trips, .reach, .lpi, .mons].all (fun p => !l.contains p) = true) : OthersKept n s t := by
  have kept (p : Part) (hp : p ∈ [Part.links, .trips, .reach, .lpi, .mons]) : p.same s t :=
    h p (by simpa using List.all_eq_true.mp hl p hp)
  have links : t.links = s.links := kept .links (by simp)
  have trips : t.trips = s.trips := kept .trips (by simp)
  have reach : t.reach = s.reach := kept .reach (by simp)
  have lpi : t.lpi = s.lpi := kept .lpi (by simp)
  have mons : t.mons = s.mons := kept .mons (by simp)
  intro m _
  simp [State.link, State.trip, State.rch, State.idle, State.mon, links, trips, reach, lpi, mons]

section
variable (n : Nat) (s : State)

theorem modLink_others (f : Link → Link) : OthersKept n s (s.modLink n f) :=
  fun _ hm => ⟨sget_sput_ne _ _ _ hm, rfl, rfl, rfl, rfl⟩

theorem modTrip_others (f : TripPort → TripPort) : OthersKept n s (s.modTrip n f) :=
  fun _ hm => ⟨rfl, sget_sput_ne _ _ _ hm, rfl, rfl, rfl⟩

theorem modRch_others (f : Reach → Reach) : OthersKept n s (s.modRch n f) :=
  fun _ hm => ⟨rfl, rfl, sget_sput_ne _ _ _ hm, rfl, rfl⟩

theorem setIdle_others (l : Lpi) : OthersKept n s (s.setIdle n l) :=
  fun _ hm => ⟨rfl, rfl, rfl, sget_sput_ne _ _ _ hm, rfl⟩

theorem modMon_others (f : Mon → Mon) : OthersKept n s (s.modMon n f) :=
  fun _ hm => ⟨rfl, rfl, rfl, rfl, sget_sput_ne _ _ _ hm⟩

@[simp] theorem link_modLink (f : Link → Link) : (s.modLink n f).link n = f (s.link n) := sget_sput_same _ _ _ _

@[simp] theorem trip_modTrip (f : TripPort → TripPort) : (s.modTrip n f).trip n = f (s.trip n) := sget_sput_same _ _ _ _

end

end Sys2Proof.Machine
end

section
/-! SUPPORT. A link that goes down, up to the state the port enters (R75, R112, R115, R175, R263): its parts in their order. -/

namespace Sys2Proof.Machine

/-! ### Changes on one port -/

/-- From `s` to `t` nothing changes but the registers at `words`, the parts supervision changes, and records; and of the ports' hidden
state only that of port `n`. -/
structure PortChanges (n : Nat) (words : List Nat) (s t : State) : Prop where
  changes : Changes words linkParts s t
  others : OthersKept n s t

theorem PortChanges.refl (n : Nat) (words : List Nat) (s : State) : PortChanges n words s s := ⟨changes_refl _ _ s, OthersKept.refl n s⟩

theorem PortChanges.trans {n : Nat} {words : List Nat} {a b c : State} (h : PortChanges n words a b) (k : PortChanges n words b c) :
    PortChanges n words a c := ⟨h.changes.trans k.changes, h.others.trans k.others⟩

theorem PortChanges.mono {n : Nat} {words words' : List Nat} {s t : State} (h : PortChanges n words s t) (hw : words ⊆ words') :
    PortChanges n words' s t := ⟨h.changes.mono hw rfl, h.others⟩

/-- A field outside the words and the record area reads as before. -/
theorem PortChanges.rd {n : Nat} {words : List Nat} {s t : State} (h : PortChanges n words s t) (f : Field)
    (hw : f.addr ∉ words) (hf : recordArea f.addr = false) : t.rd f = s.rd f := h.changes.rd f hw hf

/-- Changes that leave the ports' hidden state alone. -/
theorem Changes.onPort {words : List Nat} {parts : List Part} {s t : State} (h : Changes words parts s t) (n : Nat)
    (hp : (records ++ parts).all ((records ++ linkParts).contains ·) = true)
    (hl : [Part.links, .trips, .reach, .lpi, .mons].all (fun p => !(records ++ parts).contains p) = true) : PortChanges n words s t :=
  ⟨h.mono (fun _ => id) hp, h.rest.others n hl⟩

/-- Changes that leave the register file alone. -/
theorem Keeps.onPort {words : List Nat} {parts : List Part} {s t : State} {n : Nat} (k : Keeps parts s t) (h : OthersKept n s t)
    (hr : parts.contains .regs = false) (hp : parts.all ((records ++ linkParts).contains ·) = true) : PortChanges n words s t :=
  ⟨changes_parts (k.within .regs hr) (k.within.mono hp), h⟩

section
variable {words : List Nat} (n : Nat) (s : State)

theorem setWord_onPort {a : Nat} (w : Word) (h : a ∈ words) : PortChanges n words s (s.setWord a w) :=
  (changes_setWord (parts := []) s a w h).onPort n rfl rfl

theorem wr_onPort {f : Field} (v : Nat) (h : f.addr ∈ words) : PortChanges n words s (s.wr f v) := setWord_onPort n s _ h

theorem wrs_onPort {l : List (Field × Nat)} (h : ∀ e ∈ l, e.1.addr ∈ words) : PortChanges n words s (s.wrs l) :=
  (changes_wrs (parts := []) s l h).onPort n rfl rfl

theorem setPair_onPort {lo hi : Nat} (v : Nat) (hlo : lo ∈ words) (hhi : hi ∈ words) : PortChanges n words s (s.setPair lo hi v) :=
  (setWord_onPort n s _ hlo).trans (setWord_onPort n _ _ hhi)

theorem modLink_onPort (f : Link → Link) : PortChanges n words s (s.modLink n f) :=
  (State.modLink_keeps s n f).onPort (modLink_others n s f) rfl rfl

theorem modTrip_onPort (f : TripPort → TripPort) : PortChanges n words s (s.modTrip n f) :=
  (State.modTrip_keeps s n f).onPort (modTrip_others n s f) rfl rfl

theorem modRch_onPort (f : Reach → Reach) : PortChanges n words s (s.modRch n f) :=
  (State.modRch_keeps s n f).onPort (modRch_others n s f) rfl rfl

theorem setIdle_onPort (l : Lpi) : PortChanges n words s (s.setIdle n l) :=
  (State.setIdle_keeps s n l).onPort (setIdle_others n s l) rfl rfl

theorem modMon_onPort (f : Mon → Mon) : PortChanges n words s (s.modMon n f) :=
  (State.modMon_keeps s n f).onPort (modMon_others n s f) rfl rfl

theorem setWc_onPort (key v : Nat) : PortChanges n words s (s.setWc key v) :=
  (State.setWc_keeps s key v).onPort ((State.setWc_keeps s key v).within.others n rfl) rfl rfl

/-- An occurrence with a cause bit: its cause register, and what events change. -/
theorem causeEvent_onPort {a e : Nat} (b : Nat) (ha : a ∈ words) (he : e < 256) : PortChanges n words s (causeEvent a b e s) :=
  (setWord_onPort n s _ ha).trans ((causeEvent_aside a b e s he).changes (parts := []) |>.onPort n rfl rfl)

end

/-! ### The session (R115) -/

theorem syncTrip_onPort (n : Nat) (s : State) : PortChanges n (sessionWords n) s (syncTrip n s) := by
  unfold syncTrip
  refine ((wrs_onPort n s ?status).trans (setPair_onPort n _ _ ?_ ?_)).trans (setPair_onPort n _ _ ?_ ?_)
  case status =>
    intro e he
    simp only [List.mem_cons, List.not_mem_nil, or_false] at he
    rcases he with rfl | rfl | rfl <;> exact List.mem_cons_self
  all_goals simp [sessionWords]

/-- The registers of a port's session, its cause register among them. -/
def tripWords (n : Nat) : List Nat := (TRIP.PORT_CAUSE + 4 * n) :: sessionWords n

section
variable {n : Nat} (s : State)

theorem changeTrip_onPort (hn : n < 32) (f : TripPort → TripPort) : PortChanges n (tripWords n) s (changeTrip n f s) := by
  have synced : PortChanges n (tripWords n) s (syncTrip n (s.modTrip n f)) :=
    (modTrip_onPort n s f).trans ((syncTrip_onPort n _).mono (List.subset_cons_self _ _))
  unfold changeTrip
  dsimp only
  split
  · exact synced
  · exact synced.trans (causeEvent_onPort n _ 5 List.mem_cons_self (by omega))

theorem changeTrip_trip (f : TripPort → TripPort) : (changeTrip n f s).trip n = f (s.trip n) := by
  have synced : (syncTrip n (s.modTrip n f)).trips = (s.modTrip n f).trips := (syncTrip_keeps n _).within .trips rfl
  have changed : (changeTrip n f s).trips = (s.modTrip n f).trips := by
    unfold changeTrip
    dsimp only
    split
    · exact synced
    · exact ((tripEvent_keeps _ _ _).within .trips rfl).trans synced
  rw [State.trip, changed]
  exact trip_modTrip n s f

theorem suspendSession_onPort (hn : n < 32) : PortChanges n (tripWords n) s (suspendSession n s) := by
  unfold suspendSession
  dsimp only
  split
  · exact (modTrip_onPort n s _).trans (changeTrip_onPort _ hn _)
  · exact modTrip_onPort n s _

/-- A session is suspended with its port's link. -/
theorem suspendSession_suspended (h : ((suspendSession n s).trip n).sess.isSome = true) : ((suspendSession n s).trip n).suspended = true := by
  unfold suspendSession at h ⊢
  dsimp only at h ⊢
  split at h
  · rw [if_pos ‹_›, changeTrip_trip]
  · rw [if_neg ‹_›]
    simp_all

/-! ### The heartbeat (R112) -/

theorem refreshOuts_onPort (before : List Bool) : PortChanges n [TRIP.OUT_STATUS] s (refreshOuts before s) := by
  have emits (t : State) (l : List Output) : PortChanges n [TRIP.OUT_STATUS] t (t.emits l) :=
    (State.emits_keeps t l).onPort ((State.emits_keeps t l).within.others n rfl) rfl rfl
  exact (wr_onPort n s (f := TRIP.OUT_STATUS.asserted) _ List.mem_cons_self).trans (emits _ _)

theorem hbSilent_onPort : PortChanges n [TRIP.PORT_STATUS + 4 * n, TRIP.OUT_STATUS] s (hbSilent n s) :=
  (wr_onPort n s (f := TRIP.PORT_STATUS.hb_lost.nth n) 1 List.mem_cons_self).trans ((refreshOuts_onPort _ _).mono (List.subset_cons_self _ _))

theorem hbSilent_lost (hn : n < 32) : (hbSilent n s).rd (TRIP.PORT_STATUS.hb_lost.nth n) = 1 := by
  have place : (TRIP.PORT_STATUS.hb_lost.nth n).addr = 0x680200 + 4 * n := rfl
  have kept := (refreshOuts_onPort (n := n) (s.wr (TRIP.PORT_STATUS.hb_lost.nth n) 1) s.outLows).rd (TRIP.PORT_STATUS.hb_lost.nth n)
    (by rw [place, List.mem_singleton, TRIP.OUT_STATUS]; omega) (recordArea_outside (by omega) (by omega) (by omega))
  exact kept.trans (rd_wr_same _ _ _ (show 19 + 1 ≤ 32 by decide))

/-- The registers a port writes that leaves Peer or Reach data mode. -/
def leaveWords (n : Nat) : List Nat := TRIP.OUT_STATUS :: tripWords n

theorem leaveTripData_onPort (hn : n < 32) : PortChanges n (leaveWords n) s (leaveTripData n s) :=
  ((suspendSession_onPort s hn).mono (List.subset_cons_self _ _)).trans
    ((hbSilent_onPort _).mono (by simp [tripWords, sessionWords]))

theorem leaveTripData_lost (hn : n < 32) : (leaveTripData n s).rd (TRIP.PORT_STATUS.hb_lost.nth n) = 1 := by
  rw [leaveTripData]
  exact hbSilent_lost _ hn

theorem leaveTripData_suspended (h : ((leaveTripData n s).trip n).sess.isSome = true) : ((leaveTripData n s).trip n).suspended = true := by
  have same : (leaveTripData n s).trip n = (suspendSession n s).trip n := by
    have kept : (hbSilent n (suspendSession n s)).trips = (suspendSession n s).trips := (hbSilent_keeps n _).within .trips rfl
    rw [State.trip, leaveTripData, kept, State.trip]
  rw [same] at h ⊢
  exact suspendSession_suspended s h

/-! ### Low-power idle and Reach (R263, R175) -/

theorem countLpi_onPort : PortChanges n [portAddr n P.LPI_US, portAddr n P.LPI_US + 4] s (countLpi n s) := by
  unfold countLpi
  split
  · exact (setPair_onPort n s _ (by simp) (by simp)).trans (setIdle_onPort n _ _)
  · exact PortChanges.refl n _ s

theorem countLpi_link (m : Nat) : (countLpi n s).link m = s.link m := by
  have kept : (countLpi n s).links = s.links := (countLpi_keeps n s).within .links rfl
  rw [State.link, kept, State.link]

/-- The registers a port writes that ends low-power idle. -/
def idleWords (n : Nat) : List Nat := [portAddr n P.LPI_US, portAddr n P.LPI_US + 4, portAddr n P.LPI_STATUS, portAddr n P.LINE_STATUS]

/-- What ending low-power idle does before it writes the status fields. -/
def idleForgotten (n : Nat) (s : State) : State :=
  ((stopCount n s).setIdle n Lpi.reset).modLink n (fun l => { l with retrainAfterWake := false })

theorem endLpi_eq (n : Nat) (s : State) : endLpi n s = ((((idleForgotten n s).wr (P.LPI_STATUS.lpi_state.port n) 0).wr
    (P.LPI_STATUS.snap_valid.port n) 0).wr (P.LINE_STATUS.lpi_tx.port n) 0).wr (P.LINE_STATUS.lpi_rx.port n) 0 := rfl

theorem idleForgotten_onPort : PortChanges n [portAddr n P.LPI_US, portAddr n P.LPI_US + 4] s (idleForgotten n s) :=
  (((countLpi_onPort s).trans (setIdle_onPort n _ _)).trans (setIdle_onPort n _ _)).trans (modLink_onPort n _ _)

theorem endLpi_onPort : PortChanges n (idleWords n) s (endLpi n s) := by
  have forgotten : PortChanges n (idleWords n) s (idleForgotten n s) := (idleForgotten_onPort s).mono (by simp [idleWords])
  have status : portAddr n P.LPI_STATUS ∈ idleWords n := by simp [idleWords]
  have line : portAddr n P.LINE_STATUS ∈ idleWords n := by simp [idleWords]
  exact (((forgotten.trans (wr_onPort n _ 0 status)).trans (wr_onPort n _ 0 status)).trans (wr_onPort n _ 0 line)).trans
    (wr_onPort n _ 0 line)

/-- The low half of LINE_STATUS, which says mode, rate and link, is not about low-power idle. -/
theorem endLpi_line {f : Field} (ha : f.addr = portAddr n P.LINE_STATUS) (hf : f.lsb + f.width ≤ 16) (hn : n < 32) :
    (endLpi n s).rd f = s.rd f := by
  have status : f.addr ≠ portAddr n P.LPI_STATUS := by rw [ha]; simp [portAddr, P.LINE_STATUS, P.LPI_STATUS]
  have counter : f.addr ∉ [portAddr n P.LPI_US, portAddr n P.LPI_US + 4] := by
    rw [ha]; simp only [List.mem_cons, List.not_mem_nil, or_false, portAddr, P.LINE_STATUS, P.LPI_US]; omega
  have plain : recordArea f.addr = false := by rw [ha]; exact recordArea_port ⟨n, hn⟩ (by decide) (by decide)
  rw [endLpi_eq, rd_wr_apart _ (P.LINE_STATUS.lpi_rx.port n) f 0 (show 16 + 1 ≤ 32 by decide) (.inl hf),
    rd_wr_apart _ (P.LINE_STATUS.lpi_tx.port n) f 0 (show 17 + 1 ≤ 32 by decide) (.inl (Nat.le_succ_of_le hf)),
    rd_wr_addr _ (P.LPI_STATUS.snap_valid.port n) f 0 status, rd_wr_addr _ (P.LPI_STATUS.lpi_state.port n) f 0 status]
  exact (idleForgotten_onPort s).rd f counter plain

theorem endLpi_link : (endLpi n s).link n = { s.link n with retrainAfterWake := false } := by
  have ended : (endLpi n s).links = (idleForgotten n s).links := (State.wrs_keeps (idleForgotten n s) _).within .links rfl
  have stopped : ((stopCount n s).setIdle n Lpi.reset).link n = s.link n := countLpi_link s n
  rw [State.link, ended, ← State.link, idleForgotten, link_modLink, stopped]

theorem clearReach_onPort : PortChanges n [portAddr n P.REACH_STATUS, portAddr n P.REACH_LOAD] s (clearReach n s) := by
  have status : portAddr n P.REACH_STATUS ∈ [portAddr n P.REACH_STATUS, portAddr n P.REACH_LOAD] := List.mem_cons_self
  have load : portAddr n P.REACH_LOAD ∈ [portAddr n P.REACH_STATUS, portAddr n P.REACH_LOAD] := by simp
  unfold clearReach
  exact (((modRch_onPort n s _).trans (setWord_onPort n _ _ status)).trans (setWord_onPort n _ _ load)).trans (wr_onPort n _ _ status)

/-! ### The parts of a link that goes down -/

/-- LINE_STATUS and LINK_DOWN of a link that goes down, and the latching-low bits of its source (R75, R222, R471). -/
def linkMarkedDown (n : Nat) (s : State) : State :=
  let t := s.setWord (portAddr n P.LINE_STATUS) (s.downWord n)
  let t := if s.flag (P.LINE_STATUS.link_up.port n) then t.addSat (P.LINK_DOWN.count.port n) 1 else t
  t.withHost { t.host with linkHigh := t.host.linkHigh.filter (fun e => e.1 / 8 != n) }

/-- The runs of a link in data mode begin anew, and its commanded retrain ends (R41, R99, R220). -/
def linkForgotten (n : Nat) (s : State) : State :=
  (((s.modLink n (fun l => { l with lowRun := 0, cmdRetrain := false })).setWc (wcKey (portAddr n P.PORT_CMD) 2) 0).modMon n
    (fun m => { m with low := 0, ok := 0, inData := 0 })).wrs [(P.MON_STATUS.margin_alarm.port n, 0), (P.MON_STATUS.split_pair.port n, 0)]

/-- What follows the end of the trip path's data mode: low-power idle ends, Reach is cleared, the runs begin anew. -/
def linkSettled (n : Nat) (s : State) : State := linkForgotten n (clearReach n (endLpi n s))

/-- A link that goes down, before its port enters a state. -/
def linkCleared (n : Nat) (s : State) : State := linkSettled n (leaveTripData n (linkMarkedDown n s))

theorem linkDown_eq (n st : Nat) (s : State) : linkDown n st s =
    if s.flag (P.LINE_STATUS.link_up.port n) then linkEvent n (refreshPool (enter n st (linkCleared n s)))
    else refreshPool (enter n st (linkCleared n s)) := rfl

theorem linkMarkedDown_onPort : PortChanges n [portAddr n P.LINE_STATUS, portAddr n P.LINK_DOWN] s (linkMarkedDown n s) := by
  have host (t : State) (h : HostSide) : PortChanges n [portAddr n P.LINE_STATUS, portAddr n P.LINK_DOWN] t (t.withHost h) :=
    (State.withHost_keeps t h).onPort ((State.withHost_keeps t h).within.others n rfl) rfl rfl
  have line := setWord_onPort (words := [portAddr n P.LINE_STATUS, portAddr n P.LINK_DOWN]) n s (s.downWord n) List.mem_cons_self
  unfold linkMarkedDown
  dsimp only
  refine PortChanges.trans ?_ (host _ _)
  split
  · exact line.trans (wr_onPort n _ (f := P.LINK_DOWN.count.port n) _ (List.mem_cons_of_mem _ List.mem_cons_self))
  · exact line

theorem linkMarkedDown_within : Within [.regs, .host] s (linkMarkedDown n s) := by
  have line : Within [.regs, .host] s (s.setWord (portAddr n P.LINE_STATUS) (s.downWord n)) := (State.setWord_keeps s _ _).within.mono rfl
  unfold linkMarkedDown
  dsimp only
  refine Within.trans ?_ ((withHost_within _ _).mono rfl)
  split
  · exact line.trans ((addSat_within _ _ _).mono rfl)
  · exact line

theorem linkForgotten_within : Within [.regs, .host, .links, .mons] s (linkForgotten n s) := by
  unfold linkForgotten
  exact ((((State.modLink_keeps s n _).within.mono rfl).trans ((State.setWc_keeps _ _ _).within.mono rfl)).trans
    ((State.modMon_keeps _ n _).within.mono rfl)).trans ((wrs_within _ _).mono rfl)

theorem linkForgotten_link : (linkForgotten n s).link n = { s.link n with lowRun := 0, cmdRetrain := false } := by
  have kept : (linkForgotten n s).links = (s.modLink n (fun l => { l with lowRun := 0, cmdRetrain := false })).links :=
    (wrs_within _ _) .links rfl
  rw [State.link, kept, ← State.link, link_modLink]

theorem linkForgotten_onPort : PortChanges n [portAddr n P.MON_STATUS] s (linkForgotten n s) := by
  refine (((modLink_onPort n s _).trans (setWc_onPort n _ _ _)).trans (modMon_onPort n _ _)).trans (wrs_onPort n _ ?_)
  intro e he
  simp only [List.mem_cons, List.not_mem_nil, or_false] at he
  rcases he with rfl | rfl <;> exact List.mem_cons_self

/-- The registers a port writes after it has left data mode. -/
def settleWords (n : Nat) : List Nat := [portAddr n P.REACH_STATUS, portAddr n P.REACH_LOAD, portAddr n P.MON_STATUS] ++ idleWords n

theorem linkSettled_onPort : PortChanges n (settleWords n) s (linkSettled n s) :=
  (((endLpi_onPort s).mono (List.subset_append_right _ _)).trans ((clearReach_onPort _).mono (by simp))).trans
    ((linkForgotten_onPort _).mono (by simp))

theorem linkSettled_link : (linkSettled n s).link n = { s.link n with retrainAfterWake := false, lowRun := 0, cmdRetrain := false } := by
  have cleared : (clearReach n (endLpi n s)).link n = (endLpi n s).link n := by
    rw [State.link, (clearReach_keeps n _).within .links rfl, State.link]
  rw [linkSettled, linkForgotten_link, cleared, endLpi_link]

theorem linkSettled_trip (m : Nat) : (linkSettled n s).trip m = s.trip m := by
  rw [State.trip, linkSettled, linkForgotten_within _ .trips rfl, (clearReach_keeps n _).within .trips rfl,
    (endLpi_keeps n s).within .trips rfl, State.trip]

/-- The registers of a link that goes down, but for AN_STATUS. -/
def downWords (n : Nat) : List Nat := [portAddr n P.LINE_STATUS, portAddr n P.LINK_DOWN] ++ (leaveWords n ++ settleWords n)

theorem linkCleared_onPort (hn : n < 32) : PortChanges n (downWords n) s (linkCleared n s) := by
  have leave : leaveWords n ⊆ downWords n := fun _ h => List.mem_append_right _ (List.mem_append_left _ h)
  have settle : settleWords n ⊆ downWords n := fun _ h => List.mem_append_right _ (List.mem_append_right _ h)
  exact (((linkMarkedDown_onPort s).mono (List.subset_append_left _ _)).trans ((leaveTripData_onPort _ hn).mono leave)).trans
    ((linkSettled_onPort _).mono settle)

/-- The link's record keeps its cable tests and its count of failed exchanges. -/
theorem linkCleared_link :
    (linkCleared n s).link n = { s.link n with retrainAfterWake := false, lowRun := 0, cmdRetrain := false } := by
  have left : (leaveTripData n (linkMarkedDown n s)).link n = s.link n := by
    have kept := (leaveTripData_keeps n (linkMarkedDown n s)).within .links rfl
    rw [State.link, kept, linkMarkedDown_within s .links rfl, State.link]
  rw [linkCleared, linkSettled_link, left]

end

/-! ### What a link that goes down reads -/

@[simp] theorem portAddr_inj (n a b : Nat) : portAddr n a = portAddr n b ↔ a = b := Nat.add_right_cancel_iff

/-- No register of a port's own block is one of its session. -/
theorem portAddr_notMem_leaveWords {n a : Nat} (hn : n < 32) (high : a < 0x110000) : portAddr n a ∉ leaveWords n := by
  simp only [leaveWords, tripWords, sessionWords, List.mem_cons, List.not_mem_nil, or_false, portAddr, TRIP.OUT_STATUS, TRIP.PORT_CAUSE,
    TRIP.PORT_STATUS, TRIP.TX_K, TRIP.TX_K_HI, TRIP.RX_BASE, TRIP.RX_BASE_HI]
  omega

theorem bitsOf_downWord (s : State) (n : Nat) :
    bitsOf (s.downWord n) 0 3 = 7 ∧ bitsOf (s.downWord n) 4 3 = 7 ∧ bitsOf (s.downWord n) 8 1 = 0 := by
  have off : s.rd (P.LINE_STATUS.port_off.port n) < 2 ^ 1 := bitsOf_lt _ _ _
  simp only [State.downWord, bitsOf, BitVec.toNat_ofNat]
  omega

section
variable {n : Nat} (s : State) (hn : n < 32)
include hn

/-- What follows the marking leaves LINE_STATUS alone but for the two bits of low-power idle. -/
theorem linkCleared_line {f : Field} (ha : f.addr = portAddr n P.LINE_STATUS) (hf : f.lsb + f.width ≤ 16) :
    (linkCleared n s).rd f = bitsOf (s.downWord n) f.lsb f.width := by
  have plain : recordArea f.addr = false := by rw [ha]; exact recordArea_port ⟨n, hn⟩ (by decide) (by decide)
  have line : (linkMarkedDown n s).word (portAddr n P.LINE_STATUS) = s.downWord n := by
    have apart : portAddr n P.LINE_STATUS ≠ (P.LINK_DOWN.count.port n).addr := by
      simp [portAddr, P.LINE_STATUS, Field.port, P.LINK_DOWN.count]
    unfold linkMarkedDown
    dsimp only
    rw [withHost_word]
    split
    · rw [word_addSat_ne _ _ _ apart, word_setWord_same]
    · exact word_setWord_same _ _ _
  rw [linkCleared, linkSettled, (linkForgotten_onPort _).rd f (by rw [ha]; simp [P.LINE_STATUS, P.MON_STATUS]) plain,
    (clearReach_onPort _).rd f (by rw [ha]; simp [P.LINE_STATUS, P.REACH_STATUS, P.REACH_LOAD]) plain, endLpi_line _ ha hf hn,
    (leaveTripData_onPort _ hn).rd f (by rw [ha]; exact portAddr_notMem_leaveWords hn (by decide)) plain, State.rd, ha, line]

theorem linkCleared_lost : (linkCleared n s).rd (TRIP.PORT_STATUS.hb_lost.nth n) = 1 := by
  have place : (TRIP.PORT_STATUS.hb_lost.nth n).addr = 0x680200 + 4 * n := rfl
  have apart : (TRIP.PORT_STATUS.hb_lost.nth n).addr ∉ settleWords n := by
    rw [place]
    simp only [settleWords, idleWords, List.cons_append, List.nil_append, List.mem_cons, List.not_mem_nil, or_false, portAddr, P.REACH_STATUS,
      P.REACH_LOAD, P.MON_STATUS, P.LPI_US, P.LPI_STATUS, P.LINE_STATUS]
    omega
  exact ((linkSettled_onPort _).rd _ apart (recordArea_outside (by omega) (by omega) (by omega))).trans (leaveTripData_lost _ hn)

/-- LINK_DOWN counts a link that was up (R222). -/
theorem linkCleared_counted (h : s.rd (P.LINE_STATUS.link_up.port n) = 1) :
    (linkCleared n s).rd (P.LINK_DOWN.count.port n) = min 0xFFFFFFFF (s.rd (P.LINK_DOWN.count.port n) + 1) := by
  have place : (P.LINK_DOWN.count.port n).addr = portAddr n P.LINK_DOWN := rfl
  have plain : recordArea (portAddr n P.LINK_DOWN) = false := recordArea_port ⟨n, hn⟩ (by decide) (by decide)
  have apart : portAddr n P.LINK_DOWN ∉ settleWords n := by
    simp only [settleWords, idleWords, List.cons_append, List.nil_append, List.mem_cons, List.not_mem_nil, or_false, portAddr, P.REACH_STATUS,
      P.REACH_LOAD, P.MON_STATUS, P.LPI_US, P.LPI_STATUS, P.LINE_STATUS, P.LINK_DOWN]
    omega
  have up : s.flag (P.LINE_STATUS.link_up.port n) = true := by rw [State.flag, h]; decide
  have line : (s.setWord (portAddr n P.LINE_STATUS) (s.downWord n)).rd (P.LINK_DOWN.count.port n) = s.rd (P.LINK_DOWN.count.port n) := by
    rw [State.rd, place, word_setWord_ne _ _ (by simp [P.LINK_DOWN, P.LINE_STATUS]), ← place, ← State.rd]
  have marked : (linkMarkedDown n s).rd (P.LINK_DOWN.count.port n) = satAdd (2 ^ 32 - 1) (s.rd (P.LINK_DOWN.count.port n)) 1 := by
    have fits : (P.LINK_DOWN.count.port n).lsb + (P.LINK_DOWN.count.port n).width ≤ 32 := Nat.le_refl 32
    rw [linkMarkedDown, if_pos up, withHost_rd, rd_addSat_same _ _ _ fits, line, show (P.LINK_DOWN.count.port n).width = 32 from rfl]
  have settled := (linkSettled_onPort (leaveTripData n (linkMarkedDown n s))).rd (P.LINK_DOWN.count.port n) apart plain
  have left := (leaveTripData_onPort (linkMarkedDown n s) hn).rd (P.LINK_DOWN.count.port n) (portAddr_notMem_leaveWords hn (by decide)) plain
  rw [linkCleared, settled, left, marked]
  norm_num [satAdd]

omit hn in
theorem linkCleared_suspended (h : ((linkCleared n s).trip n).sess.isSome = true) : ((linkCleared n s).trip n).suspended = true := by
  rw [linkCleared, linkSettled_trip] at h ⊢
  exact leaveTripData_suspended _ h

end

end Sys2Proof.Machine
end

section
/-! SUPPORT. What bringing the tap pool up to date leaves of the ports (R134 to R136, R148, R170). -/

namespace Sys2Proof.Machine

/-- From `s` to `t` no register changes but those that follow the pool's blocks, and of a port's LINE_STATUS nothing below nc_active. -/
structure PoolFollowed (s t : State) : Prop where
  words : ∀ a, poolArea a = false → t.word a = s.word a
  line : ∀ (n : Fin 32) (f : Field), f.addr = portAddr n P.LINE_STATUS → f.lsb + f.width ≤ 18 → t.rd f = s.rd f

theorem PoolFollowed.refl (s : State) : PoolFollowed s s := ⟨fun _ _ => rfl, fun _ _ _ _ => rfl⟩

theorem PoolFollowed.trans {a b c : State} (h : PoolFollowed a b) (k : PoolFollowed b c) : PoolFollowed a c :=
  ⟨fun x hx => (k.words x hx).trans (h.words x hx), fun n f ha hf => (k.line n f ha hf).trans (h.line n f ha hf)⟩

theorem PoolFollowed.foldl {α : Type} {f : State → α → State} (l : List α) (s : State) (h : ∀ s, ∀ x ∈ l, PoolFollowed s (f s x)) :
    PoolFollowed s (l.foldl f s) := by
  induction l generalizing s with
  | nil => exact .refl s
  | cons x t ih => exact (h s x List.mem_cons_self).trans (ih _ fun s y hy => h s y (List.mem_cons_of_mem _ hy))

/-- Hidden state alone. -/
theorem PoolFollowed.of_regs {s t : State} (h : t.regs = s.regs) : PoolFollowed s t :=
  ⟨fun a _ => by rw [State.word, h, State.word], fun _ f _ _ => by rw [State.rd, State.word, h, State.rd, State.word]⟩

/-- A field of the pool's area that is nc_active or of another register than a LINE_STATUS. -/
structure PoolField (f : Field) : Prop where
  area : poolArea f.addr = true
  line : ∀ n : Fin 32, f.addr = portAddr n P.LINE_STATUS → f.lsb = 18 ∧ f.width = 1

theorem PoolField.wr {f : Field} (h : PoolField f) (s : State) (v : Nat) : PoolFollowed s (s.wr f v) := by
  refine ⟨fun a ha => word_wr_ne s f v fun e => ?_, fun n g hg hw => ?_⟩
  · rw [e, h.area] at ha; cases ha
  · by_cases same : g.addr = f.addr
    · obtain ⟨lsb, width⟩ := h.line n (same.symm.trans hg)
      exact rd_wr_apart s f g v (by omega) (.inl (by omega))
    · exact rd_wr_addr s f g v same

theorem PoolField.wrs {l : List (Field × Nat)} (h : ∀ e ∈ l, PoolField e.1) (s : State) : PoolFollowed s (s.wrs l) :=
  PoolFollowed.foldl l s fun t e he => (h e he).wr t e.2

/-! ### The fields of the pool -/

/-- A register of JUG in the pool's area is no LINE_STATUS. -/
theorem PoolField.ofJug {f : Field} (low : 0x500000 ≤ f.addr) (area : poolArea f.addr = true) : PoolField f :=
  ⟨area, fun n e => by
    have := n.isLt
    simp only [portAddr, P.LINE_STATUS] at e
    omega⟩

theorem poolField_block {f : Field} {b : Nat} (hb : b < 1024) (ha : f.addr = JUG.BLOCK_STATE + 4 * b) : PoolField f := by
  simp only [JUG.BLOCK_STATE] at ha
  refine .ofJug (by omega) ?_
  have h1 : JUG.BLOCK_STATE ≤ f.addr := by rw [ha, JUG.BLOCK_STATE]; omega
  have h2 : f.addr < JUG.BLOCK_STATE + 4096 := by rw [ha, JUG.BLOCK_STATE]; omega
  simp [poolArea, h1, h2]

theorem poolField_pair {f : Field} {v : Nat} (hv : v < 128) (ha : f.addr = JUG.NC_PAIR + 4 * v) : PoolField f := by
  simp only [JUG.NC_PAIR] at ha
  refine .ofJug (by omega) ?_
  have h1 : JUG.NC_PAIR ≤ f.addr := by rw [ha, JUG.NC_PAIR]; omega
  have h2 : f.addr < JUG.NC_PAIR + 512 := by rw [ha, JUG.NC_PAIR]; omega
  simp [poolArea, h1, h2]

theorem poolField_status {f : Field} (ha : f.addr = JUG.POOL_STATUS) : PoolField f :=
  .ofJug (by rw [ha]; decide) (by rw [ha]; decide)

theorem poolArea_status {n : Nat} (hn : n < 32) : poolArea (portAddr n P.LINE_STATUS) = true ∧ poolArea (portAddr n P.REACH_STATUS) = true := by
  have listed : n ∈ List.range 32 := List.mem_range.mpr hn
  simp only [poolArea, Bool.or_eq_true]
  exact ⟨.inr (List.any_eq_true.mpr ⟨n, listed, by simp⟩), .inr (List.any_eq_true.mpr ⟨n, listed, by simp⟩)⟩

theorem poolField_active {n : Nat} (hn : n < 32) : PoolField (P.LINE_STATUS.nc_active.port n) :=
  ⟨(poolArea_status hn).1, fun _ _ => ⟨rfl, rfl⟩⟩

theorem poolField_vector {n : Nat} (hn : n < 32) : PoolField (P.REACH_STATUS.vg_state.port n) :=
  ⟨(poolArea_status hn).2, fun m e => by
    have place : (P.REACH_STATUS.vg_state.port n).addr = 0x100130 + 0x10000 * n := rfl
    simp only [place, portAddr, P.LINE_STATUS] at e
    omega⟩

/-! ### Bringing the pool up to date -/

theorem refreshBlock_followed (s : State) {e : Nat × Word} (he : e.1 < 1024) : PoolFollowed s (refreshBlock s e) := by
  have acquired (t : State) : PoolFollowed t (startAcquisition e.1 t) := .of_regs ((startAcquisition_keeps _ t).within .regs rfl)
  have taps (t : State) : PoolFollowed t (clearTaps e.1 t) := .of_regs ((clearTaps_keeps _ t).within .regs rfl)
  have rate : PoolField (JUG.BLOCK_STATE.rate.nth e.1) := poolField_block he rfl
  have state : PoolField (JUG.BLOCK_STATE.state.nth e.1) := poolField_block he rfl
  have relearned (c : Bool) : PoolFollowed s
      (if c then startAcquisition e.1 ((clearTaps e.1 s).wr (JUG.BLOCK_STATE.rate.nth e.1) 7) else s) := by
    split
    · exact ((taps s).trans (rate.wr _ _)).trans (acquired _)
    · exact .refl s
  unfold refreshBlock
  refine PoolFollowed.trans ?_ (state.wr _ _)
  split
  · exact (relearned _).trans (acquired _)
  · exact relearned _

theorem refreshPool_followed {s : State} (h : inPool s.pool.descs) : PoolFollowed s (refreshPool s) := by
  unfold refreshPool
  split
  · exact .refl s
  · refine (((PoolFollowed.foldl _ s fun t e he => refreshBlock_followed t (h e he)).trans (PoolFollowed.foldl _ _ ?pairs)).trans
      (PoolField.wrs ?status _)).trans (PoolFollowed.foldl _ _ ?ports)
    case status =>
      intro e he
      simp only [List.mem_cons, List.not_mem_nil, or_false] at he
      rcases he with rfl | rfl <;> exact poolField_status rfl
    case pairs =>
      intro t v hv
      have pair {f : Field} (ha : f.addr = JUG.NC_PAIR + 4 * v) : PoolField f := poolField_pair (victimPairs_lt hv) ha
      have counted (l : Nat × Nat) : PoolFollowed t (t.wrs [(JUG.NC_PAIR.alloc.nth v, l.1), (JUG.NC_PAIR.live.nth v, l.2)]) := by
        refine PoolField.wrs (fun e he => ?_) t
        simp only [List.mem_cons, List.not_mem_nil, or_false] at he
        rcases he with rfl | rfl <;> exact pair rfl
      dsimp only
      split
      · exact (counted (_, _)).trans ((pair rfl).wr _ _)
      · exact counted (_, _)
    case ports =>
      intro t n hn
      have port : n < 32 := by
        obtain ⟨v, hv, rfl⟩ := List.mem_map.mp (List.mem_eraseDups.mp hn)
        have := victimPairs_lt hv
        omega
      dsimp only
      split
      · exact ((poolField_active port).wr _ _).trans ((poolField_vector port).wr _ _)
      · exact (poolField_active port).wr _ _

end Sys2Proof.Machine
end

section
/-! SUPPORT. A link that goes down: what its port reads then (R75, R93, R99, R101, R112, R115, R491). -/

namespace Sys2Proof.Machine

/-! ### Entering a state from data mode (R101) -/

/-- A port that does not test its cable enters BREAK, or ABILITY where it stays there. -/
theorem enter_plain {n st : Nat} {s : State} (hfsm : s.fsm n ≠ fsmCableTest)
    (hst : st = fsmBreak ∨ st = fsmAbility ∧ s.staysInAbility n) :
    enter n st s = (s.modLink n (fun l => { l with phase := 0 })).wr (P.AN_STATUS.state.port n) st := by
  have tested : (s.fsm n == fsmCableTest) = false := by simpa using hfsm
  unfold enter
  simp only [tested, Bool.false_eq_true, if_false]
  rcases hst with rfl | ⟨rfl, tests, -, fails⟩
  · rfl
  · have few : ¬(s.modLink n (fun l => { l with phase := 0 })).pact n P.AN_CFG.an_fail_max ≤
        ((s.modLink n (fun l => { l with phase := 0 })).link n).exchFails := by rw [link_modLink]; exact Nat.not_le.mpr fails
    have none : (!((s.modLink n (fun l => { l with phase := 0 })).link n).tests.isEmpty) = false := by rw [link_modLink]; simp [tests]
    rw [if_pos rfl, if_neg (by rw [none]; decide), if_neg few]

/-! ### What stays -/

theorem portAddr_notMem_downWords {n a : Nat} (hn : n < 32) (high : a < 0x110000) (h : a ∉ [P.LINE_STATUS, P.LINK_DOWN, P.REACH_STATUS,
    P.REACH_LOAD, P.MON_STATUS, P.LPI_US, P.LPI_US + 4, P.LPI_STATUS]) : portAddr n a ∉ downWords n := by
  have counter : portAddr n P.LPI_US + 4 = portAddr n (P.LPI_US + 4) := by simp only [portAddr]; omega
  have leave := portAddr_notMem_leaveWords hn high
  simp only [List.mem_cons, List.not_mem_nil, or_false, not_or] at h
  simp only [downWords, settleWords, idleWords, List.mem_append, List.mem_cons, List.not_mem_nil, or_false, counter, portAddr_inj, leave]
  tauto

theorem poolArea_port {n a : Nat} (hn : n < 32) (low : 0x100000 ≤ a) (high : a < 0x110000) (line : a ≠ P.LINE_STATUS)
    (reach : a ≠ P.REACH_STATUS) : poolArea (portAddr n a) = false := by
  simp only [P.LINE_STATUS, P.REACH_STATUS] at line reach
  simp only [poolArea, Bool.or_eq_false_iff, Bool.and_eq_false_iff, decide_eq_false_iff_not, List.any_eq_false, List.mem_range, Bool.or_eq_true,
    decide_eq_true_eq]
  simp only [portAddr, JUG.BLOCK_STATE, JUG.NC_PAIR, JUG.POOL_STATUS, P.LINE_STATUS, P.REACH_STATUS]
  refine ⟨⟨⟨by omega, by omega⟩, by omega⟩, fun m _ => by omega⟩

theorem linkCleared_pool (n : Nat) (s : State) : (linkCleared n s).pool = s.pool := by
  rw [linkCleared, linkSettled, linkForgotten_within _ .pool rfl, (clearReach_keeps n _).within .pool rfl, (endLpi_keeps n _).within .pool rfl,
    (leaveTripData_keeps n _).within .pool rfl, linkMarkedDown_within s .pool rfl]

section
variable {n : Nat} {s : State} (hn : n < 32)
include hn

theorem linkCleared_fsm : (linkCleared n s).fsm n = s.fsm n :=
  (linkCleared_onPort s hn).rd _ (portAddr_notMem_downWords (a := P.AN_STATUS) hn (by decide) (by decide))
    (recordArea_port ⟨n, hn⟩ (a := P.AN_STATUS) (by decide) (by decide))

theorem linkCleared_staysInAbility (h : s.staysInAbility n) : (linkCleared n s).staysInAbility n := by
  have place : (P.AN_CFG.an_fail_max.port n).active.addr = portAddr n (P.AN_CFG + 0x8000) := by
    simp only [Field.active, Field.port, P.AN_CFG.an_fail_max, portAddr, P.AN_CFG]; omega
  have limit : (linkCleared n s).pact n P.AN_CFG.an_fail_max = s.pact n P.AN_CFG.an_fail_max := by
    refine (linkCleared_onPort s hn).rd _ ?_ ?_ <;> rw [place]
    · exact portAddr_notMem_downWords hn (by decide) (by decide)
    · exact recordArea_port ⟨n, hn⟩ (by decide) (by decide)
  rw [State.staysInAbility, linkCleared_link, limit]
  exact h

end

/-! ### The port in its new state -/

/-- A port whose link has gone down and that has entered its new state, before the pool follows. -/
def linkEntered (n st : Nat) (s : State) : State :=
  ((linkCleared n s).modLink n (fun l => { l with phase := 0 })).wr (P.AN_STATUS.state.port n) st

theorem modLink_rd (n : Nat) (f : Link → Link) (s : State) (g : Field) : (s.modLink n f).rd g = s.rd g := rfl

theorem linkEntered_onPort (n st : Nat) (s : State) : PortChanges n [portAddr n P.AN_STATUS] (linkCleared n s) (linkEntered n st s) :=
  (modLink_onPort n _ _).trans (wr_onPort n _ (f := P.AN_STATUS.state.port n) st List.mem_cons_self)

theorem linkEntered_trip (n st m : Nat) (s : State) : (linkEntered n st s).trip m = (linkCleared n s).trip m := by
  rw [State.trip, linkEntered, (State.wr_keeps _ _ _).within .trips rfl, (State.modLink_keeps _ _ _).within .trips rfl, State.trip]

theorem linkEntered_pool (n st : Nat) (s : State) : (linkEntered n st s).pool = s.pool := by
  rw [linkEntered, (State.wr_keeps _ _ _).within .pool rfl, (State.modLink_keeps _ _ _).within .pool rfl, linkCleared_pool]

/-- The link change event leaves what it does not record (R379). -/
theorem linkEvent_aside {n : Nat} (hn : n < 32) (s : State) : Aside s (linkEvent n s) := aside_plainEvent _ _ _ (by omega)

theorem linkEvent_pend {n : Nat} (hn : n < 32) (s : State) : (linkEvent n s).pend (6 * n) = true :=
  (mapped_rises _ _ _ _).pend (by omega) (setPend_pend _ (by omega))

/-- A link that goes down enters its state, the pool follows, and only records come after. -/
theorem linkDown_aside {n st : Nat} {s : State} (hn : n < 32) (hfsm : s.fsm n ≠ fsmCableTest)
    (hst : st = fsmBreak ∨ st = fsmAbility ∧ s.staysInAbility n) : Aside (refreshPool (linkEntered n st s)) (linkDown n st s) := by
  have entered : enter n st (linkCleared n s) = linkEntered n st s :=
    enter_plain (by rwa [linkCleared_fsm hn]) (hst.imp_right fun h => ⟨h.1, linkCleared_staysInAbility hn h.2⟩)
  rw [linkDown_eq, entered]
  split
  · exact linkEvent_aside hn _
  · exact Aside.refl _

/-- A field that only the clearing of the link writes: neither the state, the pool nor a record. -/
structure LinkField (n : Nat) (f : Field) : Prop where
  plain : recordArea f.addr = false
  state : f.addr ≠ portAddr n P.AN_STATUS
  pool : poolArea f.addr = false ∨ f.addr = portAddr n P.LINE_STATUS ∧ f.lsb + f.width ≤ 16

/-- The low half of LINE_STATUS. -/
theorem linkField_line (n : Fin 32) {f : Field} (ha : f.addr = portAddr n P.LINE_STATUS) (hf : f.lsb + f.width ≤ 16) : LinkField n f where
  plain := by rw [ha]; exact recordArea_port n (by decide) (by decide)
  state := by rw [ha]; simp [P.LINE_STATUS, P.AN_STATUS]
  pool := .inr ⟨ha, hf⟩

theorem linkField_count (n : Fin 32) : LinkField n (P.LINK_DOWN.count.port n) where
  plain := recordArea_port n (a := P.LINK_DOWN) (by decide) (by decide)
  state := fun e => absurd ((portAddr_inj n P.LINK_DOWN P.AN_STATUS).mp e) (by decide)
  pool := .inl (poolArea_port (a := P.LINK_DOWN) n.isLt (by decide) (by decide) (by decide) (by decide))

theorem linkField_heartbeat (n : Fin 32) : LinkField n (TRIP.PORT_STATUS.hb_lost.nth n) := by
  have place : (TRIP.PORT_STATUS.hb_lost.nth n).addr = 0x680200 + 4 * n := rfl
  refine ⟨recordArea_outside (by omega) (by omega) (by omega), ?_, .inl ?_⟩
  · simp only [place, portAddr, P.AN_STATUS]; omega
  · simp only [poolArea, Bool.or_eq_false_iff, Bool.and_eq_false_iff, decide_eq_false_iff_not, List.any_eq_false, List.mem_range,
      Bool.or_eq_true, decide_eq_true_eq]
    simp only [place, portAddr, JUG.BLOCK_STATE, JUG.NC_PAIR, JUG.POOL_STATUS, P.LINE_STATUS, P.REACH_STATUS]
    exact ⟨⟨⟨by omega, by omega⟩, by omega⟩, fun m _ => by omega⟩

theorem linkDown_followed {n : Fin 32} {st : Nat} {s : State} (hc : s.Canonical) :
    PoolFollowed (linkEntered n st s) (refreshPool (linkEntered n st s)) :=
  refreshPool_followed (by rw [linkEntered_pool]; exact hc.blocks)

/-- What one port alone changes, by the words it writes. -/
theorem PortChanges.only {n : Nat} {words : List Nat} {s t : State} (h : PortChanges n words s t) (hw : ∀ a ∈ words, linkArea n a = true) :
    PortOnly n s t := ⟨h.changes.inArea hw rfl, h.others⟩

theorem PortOnly.trans {n : Nat} {a b c : State} (h : PortOnly n a b) (k : PortOnly n b c) : PortOnly n a c :=
  ⟨h.changes.trans k.changes, OthersKept.trans h.others k.others⟩

theorem Aside.portOnly {s t : State} (h : Aside s t) (n : Nat) : PortOnly n s t :=
  ⟨⟨fun a _ hr => h.words a hr, h.within.mono rfl⟩, h.within.others n rfl⟩

theorem PoolFollowed.portOnly {s t : State} (h : PoolFollowed s t) (k : Keeps [.regs, .pool] s t) (n : Nat) : PortOnly n s t := by
  refine ⟨⟨fun a ha _ => h.words a ?_, k.within.mono rfl⟩, k.within.others n rfl⟩
  simp only [linkArea, Bool.or_eq_false_iff] at ha
  exact ha.2

theorem downWords_linkArea (n : Nat) : ∀ a ∈ downWords n, linkArea n a = true := by
  have counter : portAddr n P.LPI_US + 4 = portAddr n (P.LPI_US + 4) := by simp only [portAddr]; omega
  have port (a : Nat) (low : 0x100000 ≤ a) (high : a < 0x110000) : linkArea n (portAddr n a) = true := linkArea_port n low high
  have session (a : Nat) (h : a ∈ sessionWords n) : linkArea n a = true := by simp [linkArea, h]
  intro a h
  simp only [downWords, leaveWords, tripWords, settleWords, idleWords, counter, List.cons_append, List.nil_append, List.mem_cons,
    List.mem_append, List.not_mem_nil, or_false] at h
  rcases h with rfl | rfl | rfl | rfl | h | rfl | rfl | rfl | rfl | rfl | rfl | rfl
  case inr.inr.inl | inr.inr.inr.inl => simp [linkArea]
  case inr.inr.inr.inr.inl => exact session a h
  all_goals exact port _ (by decide) (by decide)

section
variable {n : Fin 32} {st : Nat} {s : State} (hc : s.Canonical) (hfsm : s.fsm n ≠ fsmCableTest)
  (hst : st = fsmBreak ∨ st = fsmAbility ∧ s.staysInAbility n)
include hc hfsm hst

theorem linkDown_portOnly : PortOnly n s (linkDown n st s) := by
  have entered : PortOnly n (linkCleared n s) (linkEntered n st s) := (linkEntered_onPort n st s).only (by
    intro a ha
    rw [List.mem_singleton.mp ha]
    exact linkArea_port n (by decide) (by decide))
  exact ((((linkCleared_onPort s n.isLt).only (downWords_linkArea n)).trans entered).trans
    ((linkDown_followed hc).portOnly (refreshPool_keeps _) n)).trans ((linkDown_aside n.isLt hfsm hst).portOnly n)

theorem LinkField.read {f : Field} (hf : LinkField n f) : (linkDown n st s).rd f = (linkCleared n s).rd f := by
  have followed : (refreshPool (linkEntered n st s)).rd f = (linkEntered n st s).rd f := by
    rcases hf.pool with area | ⟨line, low⟩
    · rw [State.rd, (linkDown_followed hc).words _ area, State.rd]
    · exact (linkDown_followed hc).line n f line (by omega)
  rw [(linkDown_aside n.isLt hfsm hst).rd f hf.plain, followed]
  exact (linkEntered_onPort n st s).rd f (by simpa using hf.state) hf.plain

theorem linkDown_an (f : Field) (ha : f.addr = portAddr n P.AN_STATUS) : (linkDown n st s).rd f = (linkEntered n st s).rd f := by
  have plain : recordArea f.addr = false := by rw [ha]; exact recordArea_port n (by decide) (by decide)
  have area : poolArea f.addr = false := by rw [ha]; exact poolArea_port n.isLt (by decide) (by decide) (by decide) (by decide)
  rw [(linkDown_aside n.isLt hfsm hst).rd f plain, State.rd, (linkDown_followed hc).words _ area, State.rd]

omit hc in
theorem linkDown_trip : (linkDown n st s).trip n = (linkCleared n s).trip n := by
  rw [State.trip, (linkDown_aside n.isLt hfsm hst).trips, (refreshPool_keeps _).within .trips rfl, ← State.trip, linkEntered_trip]

/-- A port that was not testing its cable goes down into BREAK, or into ABILITY where it stays there. -/
theorem linkDown_isDown : LinkIsDown n st (s.rd (P.AN_STATUS.last_fail.port n)) s (linkDown n st s) where
  state := by
    have small : st % 2 ^ 4 = st := by rcases hst with rfl | ⟨rfl, -⟩ <;> rfl
    exact (linkDown_an hc hfsm hst _ rfl).trans ((rd_wr_same _ (P.AN_STATUS.state.port n) st (show 0 + 4 ≤ 32 by decide)).trans small)
  why := by
    have cleared : (linkCleared n s).rd (P.AN_STATUS.last_fail.port n) = s.rd (P.AN_STATUS.last_fail.port n) :=
      (linkCleared_onPort s n.isLt).rd _ (portAddr_notMem_downWords (a := P.AN_STATUS) n.isLt (by decide) (by decide))
        (recordArea_port n (a := P.AN_STATUS) (by decide) (by decide))
    have entered : (linkEntered n st s).rd (P.AN_STATUS.last_fail.port n) = (linkCleared n s).rd (P.AN_STATUS.last_fail.port n) := by
      rw [linkEntered, rd_wr_apart _ (P.AN_STATUS.state.port n) (P.AN_STATUS.last_fail.port n) st (show 0 + 4 ≤ 32 by decide)
        (.inr (show 0 + 4 ≤ 4 by decide)), modLink_rd]
    rw [linkDown_an hc hfsm hst _ rfl, entered, cleared]
  noLink := by
    obtain ⟨mode, rate, up⟩ := bitsOf_downWord s n
    have read (f : Field) (ha : f.addr = portAddr n P.LINE_STATUS) (hf : f.lsb + f.width ≤ 16) :
        (linkDown n st s).rd f = bitsOf (s.downWord n) f.lsb f.width :=
      ((linkField_line n ha hf).read hc hfsm hst).trans (linkCleared_line s n.isLt ha hf)
    exact ⟨(read (P.LINE_STATUS.link_up.port n) rfl (show 8 + 1 ≤ 16 by decide)).trans up,
      (read (P.LINE_STATUS.mode_now.port n) rfl (show 0 + 3 ≤ 16 by decide)).trans mode,
      (read (P.LINE_STATUS.rate_now.port n) rfl (show 4 + 3 ≤ 16 by decide)).trans rate⟩
  heartbeat := ((linkField_heartbeat n).read hc hfsm hst).trans (linkCleared_lost s n.isLt)
  session := by
    rw [linkDown_trip hfsm hst]
    exact linkCleared_suspended s
  counted := fun up => by
    have was : s.flag (P.LINE_STATUS.link_up.port n) = true := by rw [State.flag, up]; decide
    refine ⟨((linkField_count n).read hc hfsm hst).trans (linkCleared_counted s n.isLt up), ?_⟩
    rw [linkDown_eq, if_pos was]
    exact linkEvent_pend n.isLt _
  only := linkDown_portOnly hc hfsm hst

end

/-- A link down after changes of the port that leave its link's count, is a link down from the state before them. -/
theorem LinkIsDown.after {n st code : Nat} {s t u : State} (h : PortOnly n s t)
    (up : t.rd (P.LINE_STATUS.link_up.port n) = s.rd (P.LINE_STATUS.link_up.port n))
    (count : t.rd (P.LINK_DOWN.count.port n) = s.rd (P.LINK_DOWN.count.port n)) (k : LinkIsDown n st code t u) : LinkIsDown n st code s u :=
  { k with
    counted := fun e => by
      rw [← count]
      exact k.counted (up.trans e)
    only := h.trans k.only }

theorem lastFail_onPort (n code : Nat) (s : State) : PortChanges n [portAddr n P.AN_STATUS] s (lastFail n code s) :=
  wr_onPort n s (f := P.AN_STATUS.last_fail.port n) code List.mem_cons_self

/-- The link goes down after the reason has been recorded (R102). -/
theorem linkDown_lastFail {n : Fin 32} {st code : Nat} {s : State} (hc : s.Canonical) (hfsm : s.fsm n ≠ fsmCableTest)
    (hst : st = fsmBreak ∨ st = fsmAbility ∧ s.staysInAbility n) (hcode : code < 16) :
    LinkIsDown n st code s (linkDown n st (lastFail n code s)) := by
  have recorded := lastFail_onPort n code s
  have apart {f : Field} (a : Nat) (ha : f.addr = portAddr n a) (hne : a ≠ P.AN_STATUS) : (lastFail n code s).rd f = s.rd f :=
    rd_wr_addr s (P.AN_STATUS.last_fail.port n) f code (by rw [ha]; exact fun e => hne ((portAddr_inj n a P.AN_STATUS).mp e))
  have why : (lastFail n code s).rd (P.AN_STATUS.last_fail.port n) = code :=
    (rd_wr_same s (P.AN_STATUS.last_fail.port n) code (show 4 + 4 ≤ 32 by decide)).trans (Nat.mod_eq_of_lt hcode)
  have fsm : (lastFail n code s).fsm n = s.fsm n :=
    rd_wr_apart s (P.AN_STATUS.last_fail.port n) (P.AN_STATUS.state.port n) code (show 4 + 4 ≤ 32 by decide) (.inl (show 0 + 4 ≤ 4 by decide))
  have limit : (lastFail n code s).pact n P.AN_CFG.an_fail_max = s.pact n P.AN_CFG.an_fail_max :=
    apart (P.AN_CFG + 0x8000) (by simp only [Field.active, Field.port, P.AN_CFG.an_fail_max, portAddr, P.AN_CFG]; omega) (by decide)
  have stays (h : s.staysInAbility n) : (lastFail n code s).staysInAbility n := by
    rw [State.staysInAbility, limit]
    exact h
  have down := linkDown_isDown ((lastFail_keeps n code s).canonical hc) (fsm ▸ hfsm) (hst.imp_right fun h => ⟨h.1, stays h.2⟩)
  rw [why] at down
  refine down.after (recorded.only fun a ha => ?_) (apart P.LINE_STATUS rfl (by decide)) (apart P.LINK_DOWN rfl (by decide))
  rw [List.mem_singleton.mp ha]
  exact linkArea_port n (by decide) (by decide)

end Sys2Proof.Machine
end

section
/-! SUPPORT. The advertisement restored, and the links that are lost (R40, R92, R93, R99, R491). -/

namespace Sys2Proof.Machine

/-! ### Hardware updates of a port's configuration (R40, R92) -/

/-- An RW field of a port's shadow bank, past BANK_CTRL and BANK_STATUS. -/
structure ShadowField (n : Fin 32) (f : Field) : Prop where
  place : ∃ a, f.addr = portAddr n a ∧ 0x100008 ≤ a ∧ a < 0x108000
  fits : f.lsb + f.width ≤ 32

section
variable {n : Fin 32} {f g : Field} (v : Nat) (s : State)

/-- A hardware update writes the field in both banks; the loss of the host's value is recorded elsewhere. -/
theorem hwSet_word (hf : ShadowField n f) {x : Nat} (hx : x ≠ portAddr n P.BANK_STATUS) (hc : x ≠ CHIP.CLAMP_STATUS)
    (hr : recordArea x = false) : (hwSet f v s).word x = ((s.wr f v).wr f.active v).word x := by
  obtain ⟨a, ha, low, high⟩ := hf.place
  have block : blockOf f.addr = some (.port n, a - 0x100000) := by
    rw [ha]; exact blockOf_portAddr n (by omega) (by omega)
  unfold hwSet
  dsimp only
  split
  · rw [word_clampPush _ _ hc hr, block]
    exact word_setWord_ne _ _ hx
  · rfl

theorem hwSet_changes (hf : ShadowField n f) :
    Changes [f.addr, f.addr + 0x8000, portAddr n P.BANK_STATUS, CHIP.CLAMP_STATUS] [.host] s (hwSet f v s) := by
  refine ⟨fun x hx hr => ?_, (hwSet_keeps f v s).within.mono rfl⟩
  simp only [List.mem_cons, List.not_mem_nil, or_false, not_or] at hx
  obtain ⟨shadow, active, status, clamp⟩ := hx
  rw [hwSet_word v s hf status clamp hr, word_wr_ne _ _ _ active, word_wr_ne _ _ _ shadow]

/-- Both banks of a field's register are read where the field stands in them. -/
theorem ShadowField.read (hf : ShadowField n f) (hg : ShadowField n g) :
    (hwSet f v s).rd g = ((s.wr f v).wr f.active v).rd g ∧ (hwSet f v s).act g = ((s.wr f v).wr f.active v).act g := by
  obtain ⟨a, ha, low, high⟩ := hg.place
  have := n.isLt
  have shadow : g.addr = 0x10000 * n + a := by rw [ha, portAddr, Nat.add_comm]
  have active : g.active.addr = 0x10000 * n + a + 0x8000 := congrArg (· + 0x8000) shadow
  have word (x : Nat) (hx : x = g.addr ∨ x = g.active.addr) : (hwSet f v s).word x = ((s.wr f v).wr f.active v).word x := by
    have at_ : x = 0x10000 * n + a ∨ x = 0x10000 * n + a + 0x8000 := by rwa [shadow, active] at hx
    refine hwSet_word v s hf ?_ ?_ (recordArea_outside (by omega) (by omega) (by omega))
    · simp only [portAddr, P.BANK_STATUS]; omega
    · simp only [CHIP.CLAMP_STATUS]; omega
  exact ⟨by rw [State.rd, word _ (.inl rfl), State.rd], by rw [State.act, State.rd, word _ (.inr rfl), State.act, State.rd]⟩

/-- Shadow and active copies stand 0x8000 apart. -/
theorem ShadowField.banks (hf : ShadowField n f) (hg : ShadowField n g) : g.addr ≠ f.active.addr ∧ g.active.addr ≠ f.addr := by
  obtain ⟨a, ha, alow, ahigh⟩ := hf.place
  obtain ⟨b, hb, blow, bhigh⟩ := hg.place
  simp only [Field.active, ha, hb, portAddr]
  omega

/-- An updated field reads its value in both banks. -/
theorem hwSet_same (hf : ShadowField n f) :
    (hwSet f v s).rd f = v % 2 ^ f.width ∧ (hwSet f v s).act f = v % 2 ^ f.width := by
  obtain ⟨shadow, active⟩ := hf.read v s hf
  rw [shadow, active]
  exact ⟨(rd_wr_addr _ f.active f v (hf.banks hf).1).trans (rd_wr_same _ _ _ hf.fits), rd_wr_same _ f.active _ hf.fits⟩

/-- A field that does not overlap the updated one keeps its values in both banks. -/
theorem hwSet_apart (hf : ShadowField n f) (hg : ShadowField n g) (h : g.lsb + g.width ≤ f.lsb ∨ f.lsb + f.width ≤ g.lsb) :
    (hwSet f v s).rd g = s.rd g ∧ (hwSet f v s).act g = s.act g := by
  obtain ⟨shadow, active⟩ := hf.read v s hg
  obtain ⟨shadowApart, activeApart⟩ := hf.banks hg
  rw [shadow, active]
  exact ⟨(rd_wr_addr _ f.active g v shadowApart).trans (rd_wr_apart _ _ _ _ hf.fits h),
    (rd_wr_apart _ f.active g.active _ hf.fits h).trans (rd_wr_addr _ f g.active v activeApart)⟩

end

/-! ### The advertisement restored (R93) -/

theorem shadowField_adv (n : Fin 32) {f : Field} (ha : f.addr = P.AN_ADV) (hf : f.lsb + f.width ≤ 32) : ShadowField n (f.port n) :=
  ⟨⟨P.AN_ADV, by rw [Field.port, ha, portAddr], by decide, by decide⟩, hf⟩

/-- The BASE-T rates a restored advertisement names: the saved ones within rate_max, else the highest rate (R86, R93). -/
def restoredBase (n : Nat) (s : State) : Nat :=
  let top := s.pact n P.LINE_CFG.rate_max
  let base := s.rd (P.AN_STATUS.adv_saved.port n) &&& (2 ^ (top + 1) - 1)
  if base = 0 then 2 ^ top else base

/-- The advertisement with the saved rates back in both banks. -/
def advRestored (n peer : Nat) (s : State) : State :=
  hwSet (P.AN_ADV.reach.port n) 1 (hwSet (P.AN_ADV.peer.port n) peer (hwSet (P.AN_ADV.base_t.port n) (restoredBase n s) s))

theorem restoreAdv_downshifted {n : Nat} {s : State} (h : s.flag (P.AN_STATUS.downshifted.port n) = true) :
    ∃ peer, restoreAdv n s = (advRestored n peer s).wr (P.AN_STATUS.downshifted.port n) 0 := by
  unfold restoreAdv
  rw [if_pos h]
  exact ⟨_, rfl⟩

theorem restoreAdv_kept {n : Nat} {s : State} (h : s.flag (P.AN_STATUS.downshifted.port n) = false) : restoreAdv n s = s := by
  unfold restoreAdv
  rw [h, if_neg (by decide)]

section
variable (n : Fin 32) (peer : Nat) (s : State)

theorem advRestored_base : (advRestored n peer s).rd (P.AN_ADV.base_t.port n) = restoredBase n s % 2 ^ 5 ∧
    (advRestored n peer s).act (P.AN_ADV.base_t.port n) = restoredBase n s % 2 ^ 5 := by
  have base := shadowField_adv n (f := P.AN_ADV.base_t) rfl (by decide)
  have reachApart := hwSet_apart 1 (hwSet (P.AN_ADV.peer.port n) peer (hwSet (P.AN_ADV.base_t.port n) (restoredBase n s) s))
    (shadowField_adv n (f := P.AN_ADV.reach) rfl (by decide)) base (.inl (show 0 + 5 ≤ 11 by decide))
  have peerApart := hwSet_apart peer (hwSet (P.AN_ADV.base_t.port n) (restoredBase n s) s)
    (shadowField_adv n (f := P.AN_ADV.peer) rfl (by decide)) base (.inl (show 0 + 5 ≤ 8 by decide))
  have set := hwSet_same (restoredBase n s) s base
  exact ⟨(reachApart.1.trans peerApart.1).trans set.1, (reachApart.2.trans peerApart.2).trans set.2⟩

theorem advRestored_reach : (advRestored n peer s).rd (P.AN_ADV.reach.port n) = 1 ∧ (advRestored n peer s).act (P.AN_ADV.reach.port n) = 1 :=
  hwSet_same 1 _ (shadowField_adv n (f := P.AN_ADV.reach) rfl (by decide))

/-- The registers a restored advertisement writes. -/
def restoreWords (n : Nat) : List Nat :=
  [portAddr n P.AN_ADV, portAddr n P.AN_ADV + 0x8000, portAddr n P.AN_STATUS, portAddr n P.BANK_STATUS, CHIP.CLAMP_STATUS]

theorem advRestored_changes : Changes (restoreWords n) [.host] s (advRestored n peer s) := by
  have update (f : Field) (ha : f.addr = P.AN_ADV) (hf : f.lsb + f.width ≤ 32) (v : Nat) (t : State) :
      Changes (restoreWords n) [.host] t (hwSet (f.port n) v t) := by
    refine (hwSet_changes v t (shadowField_adv n ha hf)).mono (fun a h => ?_) rfl
    have place : (f.port n).addr = portAddr n P.AN_ADV := by rw [Field.port, ha, portAddr]
    rw [place] at h
    simp only [restoreWords, List.mem_cons, List.not_mem_nil, or_false] at h ⊢
    tauto
  exact ((update P.AN_ADV.base_t rfl (by decide) _ _).trans (update P.AN_ADV.peer rfl (by decide) _ _)).trans
    (update P.AN_ADV.reach rfl (by decide) _ _)

/-- A field of AN_ADV, in either bank, is not one of AN_STATUS. -/
theorem advWritten_read {f : Field} (hf : f.addr = P.AN_ADV) (t : State) :
    (t.wr (P.AN_STATUS.downshifted.port n) 0).rd (f.port n) = t.rd (f.port n) ∧
      (t.wr (P.AN_STATUS.downshifted.port n) 0).act (f.port n) = t.act (f.port n) := by
  have place : (f.port n).addr = P.AN_ADV + 0x10000 * n := by rw [Field.port, hf]
  have status : (P.AN_STATUS.downshifted.port n).addr = P.AN_STATUS + 0x10000 * n := rfl
  refine ⟨rd_wr_addr _ _ _ _ ?_, rd_wr_addr _ _ (f.port n).active _ ?_⟩
  · rw [place, status]; simp only [P.AN_ADV, P.AN_STATUS]; omega
  · simp only [Field.active, place, status, P.AN_ADV, P.AN_STATUS]; omega

end

/-- Settles O19: each loss records its reason and takes the link down by one lemma; a restored advertisement stands in both banks. -/
theorem linkLossTakesTheLinkDown : Obligations.LinkLossTakesTheLinkDown := by
  unfold Obligations.LinkLossTakesTheLinkDown
  intro s n hc
  have data (h : s.inData n = true) : s.fsm n ≠ fsmTrain ∧ s.fsm n ≠ fsmCableTest := by
    simp only [State.inData, Bool.or_eq_true, beq_iff_eq, fsmData, fsmFretrain] at h
    simp only [fsmTrain, fsmCableTest]
    omega
  refine ⟨fun h stays => ?lost, fun h => ?failure, fun h => ?timeout, fun hrestore hdown => ?restored, fun hrestore hdown => ?kept⟩
  case lost =>
    have exec_eq : exec (.partnerLost n) s = .next (linkDown n fsmAbility (lastFail n 1 s)) := by
      show execPartnerLost n s = _
      rw [execPartnerLost, if_neg (data h).1, if_pos h]
    exact ⟨_, exec_eq, linkDown_lastFail hc (data h).2 (.inr ⟨rfl, stays⟩) (by decide)⟩
  case failure =>
    have exec_eq : exec (.linkStatusFailure n) s = .next (linkDown n fsmBreak (lastFail n 11 s)) := by
      show execLinkStatusFailure n s = _
      rw [execLinkStatusFailure, if_pos h]
    exact ⟨_, exec_eq, linkDown_lastFail hc (data h).2 (.inl rfl) (by decide)⟩
  case timeout =>
    have exec_eq : exec (.fastRetrainTimeout n) s = .next (linkDown n fsmBreak (lastFail n 8 s)) := by
      show execFastRetrainTimeout n s = _
      rw [execFastRetrainTimeout, if_pos (show s.fsm n = fsmFretrain from h), fullRetrain]
    exact ⟨_, exec_eq, linkDown_lastFail hc (by rw [h]; decide) (.inl rfl) (by decide)⟩
  case restored =>
    obtain ⟨peer, restored⟩ := restoreAdv_downshifted (n := n) (s := s) (by rw [State.flag, hdown]; decide)
    have exec_eq : exec (.advertisementRestore n) s = .next ((advRestored n peer s).wr (P.AN_STATUS.downshifted.port n) 0) := by
      show execAdvertisementRestore n s = _
      rw [execAdvertisementRestore, if_pos hrestore, restored]
    obtain ⟨baseShadow, baseActive⟩ := advRestored_base n peer s
    obtain ⟨reachShadow, reachActive⟩ := advRestored_reach n peer s
    obtain ⟨readBase, actBase⟩ := advWritten_read n (f := P.AN_ADV.base_t) rfl (advRestored n peer s)
    obtain ⟨readReach, actReach⟩ := advWritten_read n (f := P.AN_ADV.reach) rfl (advRestored n peer s)
    refine ⟨_, exec_eq, rd_wr_same _ (P.AN_STATUS.downshifted.port n) 0 (show 16 + 1 ≤ 32 by decide), ?_, actReach.trans reachActive,
      readReach.trans reachShadow, (advRestored_changes n peer s).trans (changes_wr _ (P.AN_STATUS.downshifted.port n) 0 ?_)⟩
    · intro top b htop hb hne
      have saved : s.rd (P.AN_STATUS.adv_saved.port n) < 2 ^ 5 := bitsOf_lt _ _ _
      have small : b < 2 ^ 5 := hb ▸ Nat.lt_of_le_of_lt Nat.and_le_left saved
      have named : restoredBase n s % 2 ^ 5 = b := by
        rw [restoredBase, ← htop, ← hb, if_neg hne, Nat.mod_eq_of_lt small]
      exact ⟨actBase.trans (baseActive.trans named), readBase.trans (baseShadow.trans named)⟩
    · exact List.mem_cons_of_mem _ (List.mem_cons_of_mem _ List.mem_cons_self)
  case kept =>
    show execAdvertisementRestore n s = _
    rw [execAdvertisementRestore, if_pos hrestore, restoreAdv_kept (by rw [State.flag, hdown]; decide)]

end Sys2Proof.Machine
end

section
/-! SUPPORT. Decoded frames and what they count (R69, R70, R221). -/

namespace Sys2Proof.Machine

/-! ### Counters of 64 bits -/

theorem pair_lt (s : State) (lo hi : Nat) : s.pair lo hi < 2 ^ 64 := by
  have := (s.word lo).isLt
  have := (s.word hi).isLt
  simp only [State.pair]
  omega

theorem advances_addPair (a k : Nat) (s : State) : Advances a k s (s.addPair a (a + 4) k) := pair_setPair s a (a + 4) _ (by omega)

theorem pair_congr {a b : Nat} {s t : State} (lo : t.word a = s.word a) (hi : t.word b = s.word b) : t.pair a b = s.pair a b := by
  rw [State.pair, lo, hi, State.pair]

theorem word_addPair_ne (s : State) (lo hi k : Nat) {b : Nat} (h1 : b ≠ lo) (h2 : b ≠ hi) : (s.addPair lo hi k).word b = s.word b :=
  word_setPair_ne s lo hi _ h1 h2

/-- The counter of a port whose low word is register `a` of its block. -/
def State.portPair (s : State) (n a : Nat) : Nat := s.pair (portAddr n a) (portAddr n a + 4)

section
variable (n a k : Nat) (s : State)

theorem portPair_addPort : (addPort n a k s).portPair n a = (s.portPair n a + k) % 2 ^ 64 := advances_addPair (portAddr n a) k s

theorem portPair_addPort_ne {b : Nat} (h : a + 8 ≤ b ∨ b + 8 ≤ a) : (addPort n a k s).portPair n b = s.portPair n b := by
  refine pair_congr (word_addPair_ne _ _ _ _ ?_ ?_) (word_addPair_ne _ _ _ _ ?_ ?_) <;> simp only [portAddr] <;> omega

@[simp] theorem portPair_modMon (f : Mon → Mon) (b : Nat) : (s.modMon n f).portPair n b = s.portPair n b := rfl

theorem addPort_word {x : Nat} (low : 0x100000 ≤ a) (high : a + 4 < 0x110000) (h : linkArea n x = false) :
    (addPort n a k s).word x = s.word x := by
  have next : portAddr n a + 4 = portAddr n (a + 4) := by simp only [portAddr]; omega
  have outside (b : Nat) (hb : linkArea n b = true) : x ≠ b := fun e => by rw [e, hb] at h; cases h
  exact word_addPair_ne _ _ _ _ (outside _ (linkArea_port n low (by omega))) (outside _ (next ▸ linkArea_port n (by omega) high))

end

/-! ### What a frame counts -/

/-- What a decoded frame counts, by its result (R69, R221). -/
def countFrame (n bin : Nat) : FrameResult → State → State
  | .clean, s => countDecoded n bin false s
  | .corrected, s => countDecoded n bin true s
  | .failed k, s => countFailed n k s

/-- The frame could not be corrected, and error blocks go to the host in its place (R70). -/
def frameBad : FrameResult → Bool
  | .clean => false
  | .corrected => false
  | .failed _ => true

theorem exec_ldpcFrameDecode {s : State} {n : Fin 32} (it : Fin 8) (c : FrameResult) (frames : Nat) (hd : s.fsm n = 6)
    (hr : ldpcRate (s.modeNow n) (s.rateNow n) = true) :
    exec (.ldpcFrameDecode n it c frames) s = .next (deliver n frames (frameBad c) (countFrame n it c s)) := by
  have runs : (decide (s.fsm n = fsmData) && ldpcRate (s.modeNow n) (s.rateNow n)) = true := by simp [fsmData, hd, hr]
  show execLdpcFrameDecode n it c frames s = _
  unfold execLdpcFrameDecode
  rw [if_pos runs]
  cases c <;> rfl

section
variable (n bin : Nat) (s : State)

theorem countFailed_eq (k : Nat) : countFailed n k s = (addPort n P.RX_ERR k ((addPort n P.FEC_UNCORR 1 (addPort n P.FEC_FRAMES 1 s)).modMon n
    (fun m => { m with uncorr := m.uncorr + 1, expUncorr := m.expUncorr + 1 }))).modMon n (fun m => { m with expRx := m.expRx + k }) := rfl

theorem countDecoded_corrected : countDecoded n bin true s = addPort n (P.ITER_HIST + 8 * bin) 1
    ((addPort n P.FEC_CORR 1 (addPort n P.FEC_FRAMES 1 s)).modMon n (fun m => { m with expCorr := m.expCorr + 1 })) := rfl

theorem countDecoded_clean : countDecoded n bin false s = addPort n (P.ITER_HIST + 8 * bin) 1 (addPort n P.FEC_FRAMES 1 s) := rfl

/-- Every frame counts in FEC_FRAMES. -/
theorem countFrame_frames (c : FrameResult) :
    (countFrame n bin c s).portPair n P.FEC_FRAMES = (s.portPair n P.FEC_FRAMES + 1) % 2 ^ 64 := by
  have hist : P.ITER_HIST + 8 * bin + 8 ≤ P.FEC_FRAMES ∨ P.FEC_FRAMES + 8 ≤ P.ITER_HIST + 8 * bin := by
    simp only [P.ITER_HIST, P.FEC_FRAMES]; omega
  cases c with
  | clean =>
    rw [countFrame, countDecoded_clean, portPair_addPort_ne _ _ _ _ hist, portPair_addPort]
  | corrected =>
    rw [countFrame, countDecoded_corrected, portPair_addPort_ne _ _ _ _ hist, portPair_modMon, portPair_addPort_ne _ _ _ _ (by decide),
      portPair_addPort]
  | failed k =>
    rw [countFrame, countFailed_eq, portPair_modMon, portPair_addPort_ne _ _ _ _ (by decide), portPair_modMon,
      portPair_addPort_ne _ _ _ _ (by decide), portPair_addPort]

/-- A decoded frame counts in its bin of the iteration histogram. -/
theorem countDecoded_hist (corrected : Bool) : (countDecoded n bin corrected s).portPair n (P.ITER_HIST + 8 * bin) =
    (s.portPair n (P.ITER_HIST + 8 * bin) + 1) % 2 ^ 64 := by
  have frames : P.FEC_FRAMES + 8 ≤ P.ITER_HIST + 8 * bin := by simp only [P.ITER_HIST, P.FEC_FRAMES]; omega
  have corr : P.FEC_CORR + 8 ≤ P.ITER_HIST + 8 * bin := by simp only [P.ITER_HIST, P.FEC_CORR]; omega
  cases corrected
  · rw [countDecoded_clean, portPair_addPort, portPair_addPort_ne _ _ _ _ (.inl frames)]
  · rw [countDecoded_corrected, portPair_addPort, portPair_modMon, portPair_addPort_ne _ _ _ _ (.inl corr),
      portPair_addPort_ne _ _ _ _ (.inl frames)]

/-- A decoded frame counts in FEC_CORR where it was corrected. -/
theorem countDecoded_corr (corrected : Bool) : (countDecoded n bin corrected s).portPair n P.FEC_CORR =
    (s.portPair n P.FEC_CORR + bitNat corrected) % 2 ^ 64 := by
  have hist : P.FEC_CORR + 8 ≤ P.ITER_HIST + 8 * bin := by simp only [P.ITER_HIST, P.FEC_CORR]; omega
  cases corrected
  · rw [countDecoded_clean, portPair_addPort_ne _ _ _ _ (.inr hist), portPair_addPort_ne _ _ _ _ (by decide)]
    exact (Nat.mod_eq_of_lt (pair_lt s _ _)).symm
  · rw [countDecoded_corrected, portPair_addPort_ne _ _ _ _ (.inr hist), portPair_modMon, portPair_addPort,
      portPair_addPort_ne _ _ _ _ (by decide)]
    rfl

/-- A frame that was not corrected counts in FEC_UNCORR, and its error blocks in RX_ERR. -/
theorem countFailed_counts (k : Nat) : (countFailed n k s).portPair n P.FEC_UNCORR = (s.portPair n P.FEC_UNCORR + 1) % 2 ^ 64 ∧
    (countFailed n k s).portPair n P.RX_ERR = (s.portPair n P.RX_ERR + k) % 2 ^ 64 := by
  constructor
  · rw [countFailed_eq, portPair_modMon, portPair_addPort_ne _ _ _ _ (by decide), portPair_modMon, portPair_addPort,
      portPair_addPort_ne _ _ _ _ (by decide)]
  · rw [countFailed_eq, portPair_modMon, portPair_addPort, portPair_modMon, portPair_addPort_ne _ _ _ _ (by decide),
      portPair_addPort_ne _ _ _ _ (by decide)]

/-- Counting a frame writes the port's own registers alone. -/
theorem countFrame_word (c : FrameResult) {x : Nat} (h : bin < 8) (hx : linkArea n x = false) : (countFrame n bin c s).word x = s.word x := by
  have count (a k : Nat) (t : State) (low : 0x100000 ≤ a) (high : a + 4 < 0x110000) : (addPort n a k t).word x = t.word x :=
    addPort_word n a k t low high hx
  have noted (t : State) (f : Mon → Mon) : (t.modMon n f).word x = t.word x := rfl
  have hist : 0x100000 ≤ P.ITER_HIST + 8 * bin ∧ P.ITER_HIST + 8 * bin + 4 < 0x110000 := by simp only [P.ITER_HIST]; omega
  cases c with
  | clean => rw [countFrame, countDecoded_clean, count _ _ _ hist.1 hist.2, count _ _ _ (by decide) (by decide)]
  | corrected =>
    rw [countFrame, countDecoded_corrected, count _ _ _ hist.1 hist.2, noted, count _ _ _ (by decide) (by decide),
      count _ _ _ (by decide) (by decide)]
  | failed k =>
    rw [countFrame, countFailed_eq, noted, count _ _ _ (by decide) (by decide), noted, count _ _ _ (by decide) (by decide),
      count _ _ _ (by decide) (by decide)]

end

/-! ### What a frame delivers (R70, R283) -/

theorem deliver_word {n frames x : Nat} {error : Bool} {s : State} (h1 : x ≠ HSL.LANE_CNT_DISCARD + 0x20 * s.laneOf n)
    (h2 : x ≠ HSL.LANE_CNT_DISCARD + 0x20 * s.laneOf n + 4) : (deliver n frames error s).word x = s.word x := by
  unfold deliver
  dsimp only
  split
  · rfl
  · exact word_addPair_ne _ _ _ _ h1 h2

theorem deliver_portPair {n frames a : Nat} {error : Bool} {s : State} (hn : n < 32) (high : a < 0x110000) :
    (deliver n frames error s).portPair n a = s.portPair n a := by
  refine pair_congr (deliver_word ?_ ?_) (deliver_word ?_ ?_) <;> simp only [portAddr, HSL.LANE_CNT_DISCARD] <;> omega

theorem deliver_locked {n frames : Nat} {error : Bool} {s : State} (h : s.laneLocked (s.laneOf n) = true) :
    (deliver n frames error s).out = s.out ++ [.frameOut n error] := by
  unfold deliver
  dsimp only
  rw [if_pos h]
  rfl

theorem laneOf_lt {n : Nat} (hn : n < 32) (s : State) : s.laneOf n < 32 := by
  unfold State.laneOf
  split <;> omega

/-- A register of the host lanes is none of a port. -/
theorem linkArea_lane {n a : Nat} (hn : n < 32) (low : 0x300000 ≤ a) (high : a < 0x310000) : linkArea n a = false := by
  simp only [linkArea, sessionWords, poolArea, Bool.or_eq_false_iff, Bool.and_eq_false_iff, decide_eq_false_iff_not, List.any_eq_false,
    List.mem_range, Bool.or_eq_true, decide_eq_true_eq, List.contains_eq_mem, List.mem_cons, List.not_mem_nil, or_false]
  simp only [portAddr, TRIP.PORT_STATUS, TRIP.TX_K, TRIP.TX_K_HI, TRIP.RX_BASE, TRIP.RX_BASE_HI, TRIP.PORT_CAUSE, TRIP.OUT_STATUS,
    CHIP.CLAMP_STATUS, JUG.BLOCK_STATE, JUG.NC_PAIR, JUG.POOL_STATUS, P.LINE_STATUS, P.REACH_STATUS]
  have pool (m : Nat) (_ : m < 32) : ¬(a = 0x100100 + 0x10000 * m ∨ a = 0x100130 + 0x10000 * m) := by omega
  refine ⟨⟨⟨⟨⟨by omega, by omega⟩, by omega⟩, by omega⟩, by omega⟩, ⟨⟨by omega, by omega⟩, by omega⟩, pool⟩

theorem countFrame_lanes {n bin : Nat} (hn : n < 32) (h : bin < 8) (s : State) (c : FrameResult) :
    (countFrame n bin c s).laneOf n = s.laneOf n ∧ ∀ l < 32, (countFrame n bin c s).laneLocked l = s.laneLocked l := by
  have word (x : Nat) (low : 0x300000 ≤ x) (high : x < 0x310000) : (countFrame n bin c s).word x = s.word x :=
    countFrame_word n bin s c h (linkArea_lane hn low high)
  have mode : (countFrame n bin c s).mequel = s.mequel := by
    rw [State.mequel, State.flag, State.rd, word _ (by decide) (by decide)]
    rfl
  refine ⟨by rw [State.laneOf, mode, State.laneOf], fun l hl => ?_⟩
  have place : (HSL.LANE_STATUS.state.nth l).addr = 0x300200 + 4 * l := rfl
  have state : (countFrame n bin c s).laneState l = s.laneState l := by
    rw [State.laneState, State.rd, word _ (by omega) (by omega)]
    rfl
  rw [State.laneLocked, state, State.laneLocked]

/-- What one frame leaves of its port: `t` has counted it, `u` has delivered it. -/
theorem deliver_frame {n : Fin 32} (it : Fin 8) (c : FrameResult) (frames : Nat) (s : State) :
    ∀ u, u = deliver n frames (frameBad c) (countFrame n it c s) →
      (∀ a < 0x110000, u.portPair n a = (countFrame n it c s).portPair n a) ∧
      (s.laneLocked (s.laneOf n) = true → u.out = (countFrame n it c s).out ++ [.frameOut n (frameBad c)]) ∧
      (∀ a, linkArea n a = false → (∀ l : Fin 32, a ≠ HSL.LANE_CNT_DISCARD + 0x20 * l ∧ a ≠ HSL.LANE_CNT_DISCARD + 0x20 * l + 4) →
        u.word a = s.word a) := by
  rintro u rfl
  obtain ⟨carries, locked⟩ := countFrame_lanes n.isLt it.isLt s c
  have lane := laneOf_lt n.isLt s
  refine ⟨fun a ha => deliver_portPair n.isLt ha, fun h => deliver_locked ?_, fun a ha hl => ?_⟩
  · rw [carries, locked _ lane, h]
  · obtain ⟨low, high⟩ := hl ⟨s.laneOf n, lane⟩
    exact (deliver_word (by rw [carries]; exact low) (by rw [carries]; exact high)).trans (countFrame_word n it s c it.isLt ha)

theorem countFrame_out (n bin : Nat) (c : FrameResult) (s : State) : (countFrame n bin c s).out = s.out := by
  cases c with
  | clean => exact (countDecoded_keeps n bin false s).within .out rfl
  | corrected => exact (countDecoded_keeps n bin true s).within .out rfl
  | failed k => exact (countFailed_keeps n k s).within .out rfl

/-- A frame of a port in DATA (R69, R70, R221, R283). -/
theorem ldpcFrame_counted {s : State} {n : Fin 32} (it : Fin 8) (frames : Nat) (hd : s.fsm n = 6)
    (hr : ldpcRate (s.modeNow n) (s.rateNow n) = true) (c : FrameResult) :
    ∃ u : State, exec (.ldpcFrameDecode n it c frames) s = .next u ∧ Advances (portAddr n P.FEC_FRAMES) 1 s u ∧
      (c = .clean → Advances (portAddr n P.ITER_HIST + 8 * it) 1 s u ∧ Advances (portAddr n P.FEC_CORR) 0 s u) ∧
      (c = .corrected → Advances (portAddr n P.ITER_HIST + 8 * it) 1 s u ∧ Advances (portAddr n P.FEC_CORR) 1 s u) ∧
      (∀ k, c = .failed k → Advances (portAddr n P.FEC_UNCORR) 1 s u ∧ Advances (portAddr n P.RX_ERR) k s u) ∧
      (s.laneLocked (s.laneOf n) = true → u.out = s.out ++ [.frameOut n (frameBad c)]) ∧
      (∀ a, linkArea n a = false → (∀ l : Fin 32, a ≠ HSL.LANE_CNT_DISCARD + 0x20 * l ∧ a ≠ HSL.LANE_CNT_DISCARD + 0x20 * l + 4) →
        u.word a = s.word a) ∧ Within [.regs, .mons, .out] s u := by
  have exec_eq := exec_ldpcFrameDecode it c frames hd hr
  obtain ⟨counts, sent, words⟩ := deliver_frame it c frames s _ rfl
  rw [countFrame_out] at sent
  have within : Within [.regs, .mons, .out] s (deliver n frames (frameBad c) (countFrame n it c s)) := by
    obtain ⟨t, ht, keeps⟩ := execLdpcFrameDecode_keeps n it c frames s
    have same : execLdpcFrameDecode n it c frames s = exec (.ldpcFrameDecode n it c frames) s := rfl
    rw [same, exec_eq] at ht
    cases ht
    exact keeps.within.mono rfl
  have bin : portAddr n P.ITER_HIST + 8 * it = portAddr n (P.ITER_HIST + 8 * it) := by simp only [portAddr]; omega
  have small : P.ITER_HIST + 8 * it.val < 0x110000 := by simp only [P.ITER_HIST]; omega
  rw [bin]
  refine ⟨_, exec_eq, (counts _ (by decide)).trans (countFrame_frames n it s c), ?clean, ?corrected, ?failed, sent, words, within⟩
  case clean =>
    rintro rfl
    exact ⟨(counts _ small).trans (countDecoded_hist n it s false), (counts _ (by decide)).trans (countDecoded_corr n it s false)⟩
  case corrected =>
    rintro rfl
    exact ⟨(counts _ small).trans (countDecoded_hist n it s true), (counts _ (by decide)).trans (countDecoded_corr n it s true)⟩
  case failed =>
    rintro k rfl
    obtain ⟨uncorr, errors⟩ := countFailed_counts n s k
    exact ⟨(counts _ (by decide)).trans uncorr, (counts _ (by decide)).trans errors⟩

end Sys2Proof.Machine
end

section
/-! SUPPORT. What the host lanes count and report (R273, R281 to R283). -/

namespace Sys2Proof.Machine

/-! ### Counters and causes of a lane -/

theorem recordArea_lane {a : Nat} (low : 0x300000 ≤ a) (high : a < 0x310000) : recordArea a = false :=
  recordArea_outside (by omega) (by omega) (by omega)

/-- An occurrence on a lane: its cause register and records change, and the event is pending. -/
theorem laneEvent_changes {words : List Nat} {l b e : Nat} (s : State) (hl : HSL.LANE_CAUSE + 4 * l ∈ words) (he : e < 256) :
    Changes words [] s (laneEvent l b e s) :=
  Changes.trans (changes_setWord s _ _ hl) (causeEvent_aside _ b e s he).changes

theorem laneEvent_pend {l b e : Nat} (s : State) (he : e < 256) : (laneEvent l b e s).pend e = true := causeEvent_pend _ b s he

/-- No register of the host lanes but its cause register follows an occurrence on a lane. -/
theorem laneEvent_word {l b e a : Nat} (s : State) (he : e < 256) (low : 0x300000 ≤ a) (high : a < 0x310000)
    (ha : a ≠ HSL.LANE_CAUSE + 4 * l) : (laneEvent l b e s).word a = s.word a :=
  (laneEvent_changes (words := [HSL.LANE_CAUSE + 4 * l]) s List.mem_cons_self he).registers a (by simpa using ha) (recordArea_lane low high)

/-- An event that a lane counts: one more in its counter, and the event pending. -/
theorem laneCount_event {l b e lo : Nat} (s : State) (hl : l < 32) (he : e < 256) (low : 0x300800 ≤ lo) (high : lo + 4 < 0x310000) :
    Advances lo 1 s (laneEvent l b e (s.addPair lo (lo + 4) 1)) ∧ (laneEvent l b e (s.addPair lo (lo + 4) 1)).pend e = true ∧
      Changes [lo, lo + 4, HSL.LANE_CAUSE + 4 * l] [] s (laneEvent l b e (s.addPair lo (lo + 4) 1)) := by
  have kept (a : Nat) (ha : 0x300800 ≤ a) (ha' : a < 0x310000) :
      (laneEvent l b e (s.addPair lo (lo + 4) 1)).word a = (s.addPair lo (lo + 4) 1).word a :=
    laneEvent_word _ he (by omega) ha' (by simp only [HSL.LANE_CAUSE]; omega)
  have counted : Changes [lo, lo + 4, HSL.LANE_CAUSE + 4 * l] [] s (s.addPair lo (lo + 4) 1) :=
    (changes_setWord s lo _ (by simp)).trans (changes_setWord _ (lo + 4) _ (by simp))
  refine ⟨?_, laneEvent_pend _ he, counted.trans (laneEvent_changes _ (by simp) he)⟩
  exact (pair_congr (kept lo low (by omega)) (kept (lo + 4) (by omega) high)).trans (advances_addPair lo 1 s)

/-! ### Codewords and side blocks (R282, R276) -/

section
variable {s : State} {l : Fin 32} (hm : s.mequel = true) (hl : s.laneLocked l = true)
include hm hl

theorem exec_mequelCodeword (c : CodewordResult) : exec (.mequelCodeword l c) s = .next (match c with
    | .clean => s
    | .corrected => s.addPair (HSL.LANE_CNT_CORR + 0x20 * l) (HSL.LANE_CNT_CORR_HI + 0x20 * l) 1
    | .uncorrectable => laneEvent l 2 193 (s.addPair (HSL.LANE_CNT_UNCORR + 0x20 * l) (HSL.LANE_CNT_UNCORR_HI + 0x20 * l) 1)) := by
  have runs : (s.mequel && s.laneLocked l) = true := by rw [hm, hl]; rfl
  show execMequelCodeword l c s = _
  unfold execMequelCodeword
  refine congrArg Host.Outcome.next ((if_pos runs).trans ?_)
  cases c <;> rfl

/-- A side block of type 1, of a reserved type or of a port of another lane is discarded, counted and reported. -/
theorem exec_sideBlock_bad {b : BitVec 56}
    (hb : b.toNat / 2 ^ 52 = 1 ∨ 5 ≤ b.toNat / 2 ^ 52 ∨ (s.portsOf l).contains (b.toNat / 2 ^ 47 % 32) = false) :
    exec (.sideBlockReceived l b) s = .next (laneEvent l 5 196 (countSideBad l s)) := by
  have runs : (s.mequel && s.laneLocked l) = true := by rw [hm, hl]; rfl
  have bad : (decide (b.toNat / 2 ^ 52 = 1) || decide (5 ≤ b.toNat / 2 ^ 52) || !(s.portsOf l).contains (b.toNat / 2 ^ 47 % 32)) = true := by
    rcases hb with h | h | h
    · simp only [h, decide_true, Bool.true_or]
    · simp only [h, decide_true, Bool.true_or, Bool.or_true]
    · simp only [h, Bool.not_false, Bool.or_true]
  show execSideBlockReceived l b s = _
  unfold execSideBlockReceived
  dsimp only
  rw [if_pos runs, if_pos bad]

end

/-! ### Faults of the host (R283) -/

section
variable {s : State} {l : Fin 32} {k : Fin 4} (hl : s.laneLocked l = true) (hk : s.mequel = true ∨ k.val = 0)
include hl hk

theorem exec_hostFault (f : HostFault) : exec (.hostFaultReceived l k f) s = .next (match f with
    | .localFault => laneEvent l 4 195 (s.setWord (HSL.LANE_STATUS + 4 * l) (withBitSet (s.word (HSL.LANE_STATUS + 4 * l)) (12 + k)))
    | .remoteFault => laneEvent l 4 195 (s.setWord (HSL.LANE_STATUS + 4 * l) (withBitSet (s.word (HSL.LANE_STATUS + 4 * l)) (24 + k)))
    | .none => s.setWord (HSL.LANE_STATUS + 4 * l) (withBitClear (withBitClear (s.word (HSL.LANE_STATUS + 4 * l)) (12 + k)) (24 + k))) := by
  have runs : (s.laneLocked l && (s.mequel || k.val == 0)) = true := by
    rw [hl]
    rcases hk with h | h <;> simp [h]
  show execHostFaultReceived l k f s = _
  unfold execHostFaultReceived
  refine congrArg Host.Outcome.next ((if_pos runs).trans ?_)
  cases f <;> rfl

end

/-- A status word written with an occurrence on its lane. -/
theorem laneFault_reported {l a : Nat} (w : Word) (s : State) (hl : l < 32) (ha : a = HSL.LANE_STATUS + 4 * l) :
    (laneEvent l 4 195 (s.setWord a w)).word a = w ∧ (laneEvent l 4 195 (s.setWord a w)).pend 195 = true ∧
      Changes [a, HSL.LANE_CAUSE + 4 * l] [] s (laneEvent l 4 195 (s.setWord a w)) := by
  simp only [HSL.LANE_STATUS] at ha
  refine ⟨?_, laneEvent_pend _ (by decide), (changes_setWord s a w (by simp)).trans (laneEvent_changes _ (by simp) (by decide))⟩
  rw [laneEvent_word _ (by decide) (by omega) (by omega) (by simp only [HSL.LANE_CAUSE]; omega), word_setWord_same]

/-! ### The acknowledged control word (R273) -/

theorem bitOf_withBits_one (w : Word) (b : Bool) : bitOf (withBits w 4 1 (bitNat b)) 4 = b := by
  have read := bitsOf_withBits w 4 1 (bitNat b) (by decide)
  have test : bitOf (withBits w 4 1 (bitNat b)) 4 = decide (bitsOf (withBits w 4 1 (bitNat b)) 4 1 = 1) := by
    rw [bitOf, BitVec.getLsbD, Nat.testBit_eq_decide_div_mod_eq, bitsOf, pow_one]
  rw [test, read]
  cases b <;> rfl

theorem exec_usxgmiiAnAck {s : State} {l : Fin 32} (hm : s.mequel = false) (hl : s.laneLocked l = true)
    (hp : s.rd (HSL.LANE_CTRL.proto.nth l) = 1) :
    exec (.usxgmiiAnAck l) s = .next (s.modLane l (fun x => { x with usxAck := some (s.usxWord l) })) := by
  have runs : (!s.mequel && s.laneLocked l && decide (s.rd (HSL.LANE_CTRL.proto.nth l) = 1)) = true := by simp [hm, hl, hp]
  show execUsxgmiiAnAck l s = _
  rw [execUsxgmiiAnAck, if_pos runs]

@[simp] theorem lane_modLane (s : State) (l : Nat) (f : Lane → Lane) : (s.modLane l f).lane l = f (s.lane l) := sget_sput_same _ _ _ _

/-- usx_an_done reads 1 once the present control word is acknowledged. -/
theorem usxAck_done {s : State} {l : Nat} (hm : s.mequel = false) (hp : s.rd (HSL.LANE_CTRL.proto.nth l) = 1) :
    bitOf ((s.modLane l (fun x => { x with usxAck := some (s.usxWord l) })).laneWord l) 4 = true := by
  generalize ht : s.modLane l (fun x => { x with usxAck := some (s.usxWord l) }) = t
  have mode : t.mequel = false := by rw [← ht]; exact hm
  have proto : t.rd (HSL.LANE_CTRL.proto.nth l) = 1 := by rw [← ht]; exact hp
  have word : t.usxWord l = s.usxWord l := by rw [← ht]; rfl
  have ack : (t.lane l).usxAck = some (t.usxWord l) := by rw [word, ← ht, lane_modLane]
  unfold State.laneWord
  dsimp only
  rw [bitOf_withBits_one, mode, proto, ack]
  simp

end Sys2Proof.Machine
end

section
/-! SUPPORT. Alignment markers, the reflection reference, and the traffic that is counted and reported (R225, R280, R281). -/

namespace Sys2Proof.Machine

/-! ### A new reference (R225) -/

theorem exec_rebase {s : State} {n : Fin 32} (hg : s.gate (portAddr n P.MON_CMD) false = .served) (hs : s.sealed = false) :
    exec (.rebase n) s = .next ((s.modMon n (fun m => { m with reference := some m.seen })).wr (P.MON_STATUS.refl_alert.port n) 0) := by
  show execRebase n s = _
  rw [execRebase, hostCommand, hg]
  simp only
  rw [rebase, auditOperational, hs, if_neg (by decide), takeReference]

@[simp] theorem mon_modMon (n : Nat) (s : State) (f : Mon → Mon) : (s.modMon n f).mon n = f (s.mon n) := sget_sput_same _ _ _ _

/-! ### Markers (R280, R281) -/

/-- The place a marker shows (R280). -/
def markerSeen (l : Nat) (m : Marker) (s : State) : State :=
  (s.wr (HSL.ALIGN_STATUS.seen_offset.nth l) m.seenOffset.val).wr (HSL.ALIGN_STATUS.match_here.nth l) (bitNat (decide (m.seenOffset.val = 0)))

/-- A marker names its own lane and the lane's ports in order (R281). -/
def markerExpected (l : Nat) (m : Marker) : Bool :=
  (List.range 4).all (fun k => (m.portMap.toList.getD k 0).toNat % 32 == l + k) && m.lane.toNat == l

/-- A good marker also says whether its map is the expected one. -/
def markerMapped (l : Nat) (m : Marker) (s : State) : State :=
  (markerSeen l m s).wr (HSL.LANE_STATUS.map_err.nth l) (bitNat (!markerExpected l m))

theorem markerExpected_iff (l : Nat) (m : Marker) :
    markerExpected l m = true ↔ m.lane.toNat = l ∧ ∀ k : Fin 4, (m.portMap[k.val]).toNat % 32 = l + k := by
  have stream (k : Nat) (hk : k < 4) : m.portMap.toList.getD k 0 = m.portMap[k] := by
    simp [List.getD_eq_getElem?_getD, hk]
  rw [markerExpected, Bool.and_eq_true, List.all_eq_true, beq_iff_eq, and_comm]
  refine and_congr_right fun _ => ⟨fun h k => ?_, fun h k hk => ?_⟩
  · have := h k (List.mem_range.mpr k.isLt)
    rwa [stream k k.isLt, beq_iff_eq] at this
  · have small : k < 4 := List.mem_range.mp hk
    rw [stream k small, beq_iff_eq]
    exact h ⟨k, small⟩

section
variable (l : Nat) (m : Marker) (s : State)

/-- The lane's state stands apart from what a marker writes. -/
theorem markerSeen_lane (f : Field) (ha : f.addr = HSL.LANE_STATUS + 4 * l) : (markerSeen l m s).rd f = s.rd f := by
  have apart : f.addr ≠ HSL.ALIGN_STATUS + 4 * l := by rw [ha]; simp only [HSL.LANE_STATUS, HSL.ALIGN_STATUS]; omega
  exact (rd_wr_addr _ (HSL.ALIGN_STATUS.match_here.nth l) f _ apart).trans (rd_wr_addr s (HSL.ALIGN_STATUS.seen_offset.nth l) f _ apart)

theorem markerMapped_locked (k : Nat) (hk : k = l) : (markerMapped l m s).laneLocked k = s.laneLocked k := by
  subst hk
  have state : (markerMapped k m s).laneState k = s.laneState k :=
    (rd_wr_apart _ (HSL.LANE_STATUS.map_err.nth k) (HSL.LANE_STATUS.state.nth k) _ (show 28 + 1 ≤ 32 by decide)
      (.inl (show 0 + 3 ≤ 28 by decide))).trans (markerSeen_lane k m s _ rfl)
  rw [State.laneLocked, state, State.laneLocked]

theorem markerSeen_reads : (markerSeen l m s).rd (HSL.ALIGN_STATUS.seen_offset.nth l) = m.seenOffset ∧
    (markerSeen l m s).rd (HSL.ALIGN_STATUS.match_here.nth l) = bitNat (decide (m.seenOffset.val = 0)) := by
  have small : m.seenOffset.val % 2 ^ 20 = m.seenOffset.val := Nat.mod_eq_of_lt (by have := m.seenOffset.isLt; omega)
  have bit (b : Bool) : bitNat b % 2 ^ 1 = bitNat b := by cases b <;> rfl
  constructor
  · exact (rd_wr_apart _ (HSL.ALIGN_STATUS.match_here.nth l) (HSL.ALIGN_STATUS.seen_offset.nth l) _ (show 31 + 1 ≤ 32 by decide)
      (.inl (show 0 + 20 ≤ 31 by decide))).trans
      ((rd_wr_same s (HSL.ALIGN_STATUS.seen_offset.nth l) _ (show 0 + 20 ≤ 32 by decide)).trans small)
  · exact (rd_wr_same _ (HSL.ALIGN_STATUS.match_here.nth l) _ (show 31 + 1 ≤ 32 by decide)).trans (bit _)

end

/-- A marker with no time to compare: what is left of it, by its CRC and the lane's lock. -/
theorem exec_markerReceived {s : State} {l : Fin 32} {m : Marker} (hm : s.mequel = true) (hl : 3 ≤ s.laneState l)
    (ht : m.timestamp = 0 ∨ s.laneLocked l = false) : exec (.markerReceived l m) s = .next
      (if m.crcGood then (if s.laneLocked l then dropLock l (markerMapped l m s) else markerMapped l m s) else markerSeen l m s) := by
  have runs : (s.mequel && decide (laneSearch ≤ s.laneState l)) = true := by simp [hm, laneSearch, hl]
  have locked : (markerMapped l m s).laneLocked l = s.laneLocked l := markerMapped_locked l m s l rfl
  have judged : (if !(markerMapped l m s).laneLocked l then markerMapped l m s else if m.timestamp = 0 then dropLock l (markerMapped l m s)
      else rewriteSkew ((markerMapped l m s).modLane l (fun x => { x with offset := some ((m.arrival : Int) - 425 * m.timestamp.toNat) }))) =
      if s.laneLocked l then dropLock l (markerMapped l m s) else markerMapped l m s := by
    rw [locked]
    rcases ht with h | h
    · cases s.laneLocked l <;> simp [h]
    · simp [h]
  show execMarkerReceived l m s = _
  unfold execMarkerReceived
  rw [if_pos runs, ← judged]
  rfl

/-- What a marker with no time to compare leaves. -/
def markerLeft (l : Nat) (m : Marker) (s : State) : State :=
  if m.crcGood then (if s.laneLocked l then dropLock l (markerMapped l m s) else markerMapped l m s) else markerSeen l m s

section
variable (l : Nat) (m : Marker) (s : State)

theorem dropLock_word {a : Nat} (h : a ≠ HSL.SKEW + 4 * l) : (dropLock l s).word a = s.word a :=
  word_wr_ne _ (HSL.SKEW.valid.nth l) _ h

theorem dropLock_offset : ((dropLock l s).lane l).offset = none := by
  have kept : (dropLock l s).lanes = (s.modLane l (fun x => { x with offset := none })).lanes := rfl
  rw [State.lane, kept, ← State.lane, lane_modLane]

/-- A marker writes the lane's alignment, and only what it judges of the other two words. -/
theorem markerLeft_word {a : Nat} (align : a ≠ HSL.ALIGN_STATUS + 4 * l) (status : a ≠ HSL.LANE_STATUS + 4 * l) (skew : a ≠ HSL.SKEW + 4 * l) :
    (markerLeft l m s).word a = s.word a := by
  have seen : (markerSeen l m s).word a = s.word a :=
    (word_wr_ne _ (HSL.ALIGN_STATUS.match_here.nth l) _ align).trans (word_wr_ne s (HSL.ALIGN_STATUS.seen_offset.nth l) _ align)
  have mapped : (markerMapped l m s).word a = s.word a := (word_wr_ne _ (HSL.LANE_STATUS.map_err.nth l) _ status).trans seen
  unfold markerLeft
  split
  · split
    · exact (dropLock_word l _ skew).trans mapped
    · exact mapped
  · exact seen

theorem markerLeft_align : (markerLeft l m s).word (HSL.ALIGN_STATUS + 4 * l) = (markerSeen l m s).word (HSL.ALIGN_STATUS + 4 * l) := by
  have skew : HSL.ALIGN_STATUS + 4 * l ≠ HSL.SKEW + 4 * l := by simp only [HSL.ALIGN_STATUS, HSL.SKEW]; omega
  have mapped : (markerMapped l m s).word (HSL.ALIGN_STATUS + 4 * l) = (markerSeen l m s).word (HSL.ALIGN_STATUS + 4 * l) :=
    word_wr_ne _ (HSL.LANE_STATUS.map_err.nth l) _
      (show HSL.ALIGN_STATUS + 4 * l ≠ HSL.LANE_STATUS + 4 * l by simp only [HSL.ALIGN_STATUS, HSL.LANE_STATUS]; omega)
  unfold markerLeft
  split
  · split
    · exact (dropLock_word l _ skew).trans mapped
    · exact mapped
  · rfl

theorem markerLeft_reads : (markerLeft l m s).rd (HSL.ALIGN_STATUS.seen_offset.nth l) = m.seenOffset ∧
    (markerLeft l m s).rd (HSL.ALIGN_STATUS.match_here.nth l) = bitNat (decide (m.seenOffset.val = 0)) := by
  have read (f : Field) (ha : f.addr = HSL.ALIGN_STATUS + 4 * l) : (markerLeft l m s).rd f = (markerSeen l m s).rd f := by
    rw [State.rd, ha, markerLeft_align, ← ha, ← State.rd]
  rw [read (HSL.ALIGN_STATUS.seen_offset.nth l) rfl, read (HSL.ALIGN_STATUS.match_here.nth l) rfl]
  exact markerSeen_reads l m s

/-- A good marker's map is judged against the expected one. -/
theorem markerLeft_map (h : m.crcGood = true) : (markerLeft l m s).rd (HSL.LANE_STATUS.map_err.nth l) = 0 ↔
    m.lane.toNat = l ∧ ∀ k : Fin 4, (m.portMap[k.val]).toNat % 32 = l + k := by
  have mapped : (markerMapped l m s).rd (HSL.LANE_STATUS.map_err.nth l) = bitNat (!markerExpected l m) % 2 ^ 1 :=
    rd_wr_same _ (HSL.LANE_STATUS.map_err.nth l) _ (show 28 + 1 ≤ 32 by decide)
  have left : (markerLeft l m s).rd (HSL.LANE_STATUS.map_err.nth l) = (markerMapped l m s).rd (HSL.LANE_STATUS.map_err.nth l) := by
    have skew : (HSL.LANE_STATUS.map_err.nth l).addr ≠ HSL.SKEW + 4 * l := by
      simp only [Field.nth, HSL.LANE_STATUS.map_err, HSL.SKEW]; omega
    rw [markerLeft, if_pos h]
    split
    · rw [State.rd, dropLock_word l _ skew, ← State.rd]
    · rfl
  rw [left, mapped, ← markerExpected_iff]
  cases markerExpected l m <;> decide

/-- A good marker without a time takes the offset of a locked lane back. -/
theorem markerLeft_offset (h : m.crcGood = true) (hl : s.laneLocked l = true) :
    ((markerLeft l m s).lane l).offset = none ∧ (markerLeft l m s).rd (HSL.SKEW.valid.nth l) = 0 := by
  rw [markerLeft, if_pos h, if_pos hl]
  exact ⟨dropLock_offset l _, rd_wr_same _ (HSL.SKEW.valid.nth l) 0 (show 31 + 1 ≤ 32 by decide)⟩

theorem markerLeft_within : Within [.regs, .lanes] s (markerLeft l m s) := by
  have wr (t : State) (f : Field) (v : Nat) : Within [.regs, .lanes] t (t.wr f v) := (State.wr_keeps t f v).within.mono rfl
  have seen : Within [.regs, .lanes] s (markerSeen l m s) := (wr _ _ _).trans (wr _ _ _)
  have mapped : Within [.regs, .lanes] s (markerMapped l m s) := seen.trans (wr _ _ _)
  unfold markerLeft
  split
  · split
    · exact mapped.trans ((dropLock_keeps l _).within.mono rfl)
    · exact mapped
  · exact seen

end

/-- Settles O31: each clause by what its command executes and by what a count, an occurrence or a marker writes. -/
theorem trafficIsCountedAndReported : Obligations.TrafficIsCountedAndReported := by
  unfold Obligations.TrafficIsCountedAndReported
  intro s
  refine ⟨fun n it frames hd hr c => ?frame, fun n hg hs => ?rebase, fun l => ⟨fun m hm hl ht => ?marker, fun hm hl => ?mequel,
    fun hm hl hp => ?ack, fun k hl hk a ha => ?fault⟩⟩
  case frame =>
    have counted := ldpcFrame_counted it frames hd hr c
    cases c <;> exact counted
  case rebase =>
    have taken := mon_modMon n s (fun m => { m with reference := some m.seen })
    exact ⟨_, exec_rebase hg hs, taken, rd_wr_same _ (P.MON_STATUS.refl_alert.port n) 0 (show 2 + 1 ≤ 32 by decide),
      fun a ha => word_wr_ne _ (P.MON_STATUS.refl_alert.port n) _ ha,
      ((State.modMon_keeps s n _).within.mono rfl).trans ((State.wr_keeps _ _ _).within.mono rfl)⟩
  case marker =>
    obtain ⟨seen, here⟩ := markerLeft_reads l m s
    exact ⟨markerLeft l m s, exec_markerReceived hm hl ht, seen, here,
      fun good => ⟨markerLeft_map l m s good, fun locked => markerLeft_offset l m s good locked⟩,
      fun a status align skew => markerLeft_word l m s align status skew, markerLeft_within l m s⟩
  case mequel =>
    have corrHi : HSL.LANE_CNT_CORR_HI + 0x20 * l.val = HSL.LANE_CNT_CORR + 0x20 * l + 4 := by
      simp only [HSL.LANE_CNT_CORR_HI, HSL.LANE_CNT_CORR]; omega
    have uncorrHi : HSL.LANE_CNT_UNCORR_HI + 0x20 * l.val = HSL.LANE_CNT_UNCORR + 0x20 * l + 4 := by
      simp only [HSL.LANE_CNT_UNCORR_HI, HSL.LANE_CNT_UNCORR]; omega
    have badHi : HSL.LANE_CNT_SIDE_BAD_HI + 0x20 * l.val = HSL.LANE_CNT_SIDE_BAD + 0x20 * l + 4 := by
      simp only [HSL.LANE_CNT_SIDE_BAD_HI, HSL.LANE_CNT_SIDE_BAD]; omega
    refine ⟨exec_mequelCodeword hm hl .clean, ⟨_, exec_mequelCodeword hm hl .corrected, ?_, fun a lo hi => word_addPair_ne _ _ _ _ lo hi,
      (State.addPair_keeps _ _ _ _).within⟩, ⟨_, exec_mequelCodeword hm hl .uncorrectable, ?_⟩,
      fun b hb => ⟨_, exec_sideBlock_bad hm hl hb, ?_⟩⟩
    · rw [corrHi]
      exact advances_addPair _ 1 s
    · rw [uncorrHi]
      exact laneCount_event s l.isLt (by decide) (by simp only [HSL.LANE_CNT_UNCORR]; omega) (by simp only [HSL.LANE_CNT_UNCORR]; omega)
    · rw [countSideBad, badHi]
      exact laneCount_event s l.isLt (by decide) (by simp only [HSL.LANE_CNT_SIDE_BAD]; omega) (by simp only [HSL.LANE_CNT_SIDE_BAD]; omega)
  case ack =>
    exact ⟨_, exec_usxgmiiAnAck hm hl hp, usxAck_done hm hp, fun _ => rfl, (State.modLane_keeps s l _).within⟩
  case fault =>
    subst ha
    refine ⟨fun f b hf => ?_, ⟨_, exec_hostFault hl hk .none, word_setWord_same _ _ _, fun a' ha' => word_setWord_ne _ _ ha',
      (State.setWord_keeps _ _ _).within⟩⟩
    rcases hf with ⟨rfl, rfl⟩ | ⟨rfl, rfl⟩
    · exact ⟨_, exec_hostFault hl hk .localFault, laneFault_reported _ s l.isLt rfl⟩
    · exact ⟨_, exec_hostFault hl hk .remoteFault, laneFault_reported _ s l.isLt rfl⟩

end Sys2Proof.Machine
end

section
/-! SUPPORT. Which fields of a port's own block a change of its supervision touches, and that only this port changes (R461). -/

namespace Sys2Proof.Machine

/-! ### Fields of a port's block -/

/-- A field of a register of port 0's block, of at least one bit. -/
def Field.inPort (f : Field) : Bool :=
  decide (0x100000 ≤ f.addr) && decide (f.addr < 0x110000) && decide (0 < f.width) && decide (f.lsb + f.width ≤ 32)

/-- Two fields share no bit. -/
def Field.apart (f g : Field) : Bool :=
  decide (f.addr ≠ g.addr) || decide (f.lsb + f.width ≤ g.lsb) || decide (g.lsb + g.width ≤ f.lsb)

/-- Every bit of `g` is one of `f`. -/
def Field.covers (f g : Field) : Bool :=
  decide (g.addr = f.addr) && decide (f.lsb ≤ g.lsb) && decide (g.lsb + g.width ≤ f.lsb + f.width)

/-- A register as one field. -/
def wholeReg (a : Nat) : Field := ⟨a, 0, 32, 0⟩

theorem Field.inPort_iff {f : Field} :
    f.inPort = true ↔ 0x100000 ≤ f.addr ∧ f.addr < 0x110000 ∧ 0 < f.width ∧ f.lsb + f.width ≤ 32 := by
  simp only [Field.inPort, Bool.and_eq_true, decide_eq_true_eq, and_assoc]

theorem Field.apart_iff {f g : Field} :
    f.apart g = true ↔ f.addr ≠ g.addr ∨ f.lsb + f.width ≤ g.lsb ∨ g.lsb + g.width ≤ f.lsb := by
  simp only [Field.apart, Bool.or_eq_true, decide_eq_true_eq, or_assoc]

theorem Field.covers_iff {f g : Field} :
    f.covers g = true ↔ g.addr = f.addr ∧ f.lsb ≤ g.lsb ∧ g.lsb + g.width ≤ f.lsb + f.width := by
  simp only [Field.covers, Bool.and_eq_true, decide_eq_true_eq, and_assoc]

/-- What is apart from a field is apart from each part of it. -/
theorem Field.covers_apart {f g k : Field} (h : f.covers g = true) (a : f.apart k = true) : g.apart k = true := by
  obtain ⟨addr, low, high⟩ := Field.covers_iff.mp h
  rw [Field.apart_iff] at a ⊢
  omega

theorem recordArea_field (n : Fin 32) {f : Field} (h : f.inPort = true) : recordArea (f.port n).addr = false := by
  obtain ⟨low, high, -, -⟩ := Field.inPort_iff.mp h
  exact recordArea_port n low high

section
variable (s : State) (n v : Nat) {f g : Field}

theorem rd_wr_port_same (h : f.inPort = true) : (s.wr (f.port n) v).rd (f.port n) = v % 2 ^ f.width :=
  rd_wr_same _ _ _ (Field.inPort_iff.mp h).2.2.2

theorem rd_wr_port_apart (h : f.inPort = true) (hg : f.apart g = true) : (s.wr (f.port n) v).rd (g.port n) = s.rd (g.port n) := by
  have fits : (f.port n).lsb + (f.port n).width ≤ 32 := (Field.inPort_iff.mp h).2.2.2
  rcases Field.apart_iff.mp hg with addr | below | above
  · exact rd_wr_addr _ _ _ _ fun e => addr (Nat.add_right_cancel e).symm
  · exact rd_wr_apart _ _ _ _ fits (.inr below)
  · exact rd_wr_apart _ _ _ _ fits (.inl above)

/-- The active copy of a port's configuration field is a field of the port's block. -/
theorem pact_eq (f : Field) : s.pact n f = s.rd (f.active.port n) := by
  simp only [State.pact, State.act, Field.active, Field.port, Nat.add_right_comm]

theorem rd_wholeReg (a : Nat) : s.rd ((wholeReg a).port n) = (s.word (portAddr n a)).toNat := by
  simp only [State.rd, wholeReg, Field.port, portAddr, bitsOf, Nat.pow_zero, Nat.div_one]
  exact Nat.mod_eq_of_lt (BitVec.isLt _)

end

/-! ### Changes of one port by the fields they touch -/

/-- Only port `n` changes, and of its block's registers only the fields listed. -/
structure Touches (n : Fin 32) (fs : List Field) (s t : State) : Prop where
  only : PortOnly n s t
  read : ∀ g : Field, g.inPort = true → fs.all (·.apart g) = true → t.rd (g.port n) = s.rd (g.port n)

theorem PortOnly.refl (n : Nat) (s : State) : PortOnly n s s := ⟨⟨fun _ _ _ => rfl, within_refl _ s⟩, OthersKept.refl n s⟩

section
variable {n : Fin 32} {fs gs : List Field} {s t u : State}

theorem Touches.refl (n : Fin 32) (fs : List Field) (s : State) : Touches n fs s s := ⟨.refl n s, fun _ _ _ => rfl⟩

theorem Touches.trans (h : Touches n fs s t) (k : Touches n fs t u) : Touches n fs s u :=
  ⟨h.only.trans k.only, fun g hg ha => (k.read g hg ha).trans (h.read g hg ha)⟩

/-- A list may be widened to fields that cover its own. -/
theorem Touches.mono (h : Touches n fs s t) (c : fs.all (fun f => gs.any (·.covers f)) = true) : Touches n gs s t := by
  refine ⟨h.only, fun g hg ha => h.read g hg (List.all_eq_true.mpr fun f hf => ?_)⟩
  obtain ⟨k, hk, cover⟩ := List.any_eq_true.mp (List.all_eq_true.mp c f hf)
  exact Field.covers_apart cover (List.all_eq_true.mp ha k hk)

theorem Touches.foldl {α : Type} {f : State → α → State} (l : List α) (s : State) (h : ∀ s, ∀ x ∈ l, Touches n fs s (f s x)) :
    Touches n fs s (l.foldl f s) := by
  induction l generalizing s with
  | nil => exact .refl n fs s
  | cons x t ih => exact (h s x List.mem_cons_self).trans (ih _ fun s y hy => h s y (List.mem_cons_of_mem _ hy))

/-- A register of the block that is not touched. -/
theorem Touches.word (h : Touches n fs s t) {a : Nat} (ha : (wholeReg a).inPort = true) (hf : fs.all (·.apart (wholeReg a)) = true) :
    t.word (portAddr n a) = s.word (portAddr n a) := by
  have same := h.read _ ha hf
  rw [rd_wholeReg, rd_wholeReg] at same
  exact BitVec.eq_of_toNat_eq same

/-- An active configuration field that is not touched. -/
theorem Touches.pact (h : Touches n fs s t) {f : Field} (hf : f.active.inPort = true) (ha : fs.all (·.apart f.active) = true) :
    t.pact n f = s.pact n f := by
  rw [pact_eq, pact_eq]
  exact h.read _ hf ha

/-! ### The single changes -/

theorem wr_touches (s : State) {f : Field} (v : Nat) (h : f.inPort = true) (c : fs.any (·.covers f) = true) :
    Touches n fs s (s.wr (f.port n) v) where
  only := by
    obtain ⟨low, high, -, -⟩ := Field.inPort_iff.mp h
    refine (wr_onPort (words := [portAddr n f.addr]) n s v List.mem_cons_self).only fun a ha => ?_
    rw [List.mem_singleton.mp ha]
    exact linkArea_port n low high
  read := fun g _ ha => by
    obtain ⟨k, hk, cover⟩ := List.any_eq_true.mp c
    exact rd_wr_port_apart _ _ _ h (Field.covers_apart cover (List.all_eq_true.mp ha k hk))

/-- Changes to listed registers of the port's block, and to its hidden state. -/
theorem PortChanges.touches {as : List Nat} (h : PortChanges n (as.map (portAddr n)) s t)
    (c : as.all (fun a => (wholeReg a).inPort && fs.any (·.covers (wholeReg a))) = true) : Touches n fs s t where
  only := by
    refine h.only fun x hx => ?_
    obtain ⟨a, ha, rfl⟩ := List.mem_map.mp hx
    obtain ⟨low, high, -, -⟩ := Field.inPort_iff.mp (Bool.and_eq_true _ _ ▸ List.all_eq_true.mp c a ha).1
    exact linkArea_port n low high
  read := fun g hg apart => by
    obtain ⟨low, high, width, fits⟩ := Field.inPort_iff.mp hg
    refine h.rd (g.port n) (fun hx => ?_) (recordArea_field n hg)
    obtain ⟨a, ha, e⟩ := List.mem_map.mp hx
    obtain ⟨k, hk, cover⟩ := List.any_eq_true.mp (Bool.and_eq_true _ _ ▸ List.all_eq_true.mp c a ha).2
    have same : a = g.addr := Nat.add_right_cancel e
    rcases Field.apart_iff.mp (Field.covers_apart cover (List.all_eq_true.mp apart k hk)) with addr | below | above
    · exact addr same
    · simp only [wholeReg] at below; omega
    · simp only [wholeReg] at above; omega

theorem setWord_touches (s : State) {a : Nat} (w : Word) (h : (wholeReg a).inPort = true) (c : fs.any (·.covers (wholeReg a)) = true) :
    Touches n fs s (s.setWord (portAddr n a) w) :=
  (setWord_onPort (words := [a].map (portAddr n)) n s w List.mem_cons_self).touches (by simp [h, c])

theorem modLink_touches (s : State) (f : Link → Link) : Touches n fs s (s.modLink n f) :=
  (modLink_onPort (words := [].map (portAddr n)) n s f).touches rfl

theorem modTrip_touches (s : State) (f : TripPort → TripPort) : Touches n fs s (s.modTrip n f) :=
  (modTrip_onPort (words := [].map (portAddr n)) n s f).touches rfl

theorem setWc_touches (s : State) (key v : Nat) : Touches n fs s (s.setWc key v) :=
  (setWc_onPort (words := [].map (portAddr n)) n s key v).touches rfl

/-- Parts of the state that are not the ports'. -/
theorem Keeps.touches {parts : List Part} (k : Keeps parts s t) (hr : parts.contains .regs = false)
    (hl : [Part.links, .trips, .reach, .lpi, .mons].all (fun p => !parts.contains p) = true)
    (hp : parts.all ((records ++ linkParts).contains ·) = true) : Touches n fs s t :=
  (k.onPort (words := [].map (portAddr n)) (k.within.others n hl) hr hp).touches rfl

theorem Aside.touches (h : Aside s t) : Touches n fs s t :=
  ⟨h.portOnly n, fun _ hg _ => h.rd _ (recordArea_field n hg)⟩

/-- The fields of a port that follow the pool's blocks (R136, R148). -/
def poolFields : List Field := [⟨P.LINE_STATUS, 18, 14, 0⟩, wholeReg P.REACH_STATUS]

theorem refreshPool_touches (h : inPool s.pool.descs) : Touches n poolFields s (refreshPool s) where
  only := (refreshPool_followed h).portOnly (refreshPool_keeps s) n
  read := fun g hg apart => by
    obtain ⟨low, high, width, fits⟩ := Field.inPort_iff.mp hg
    have line := Field.apart_iff.mp (List.all_eq_true.mp apart _ List.mem_cons_self)
    have reach := Field.apart_iff.mp (List.all_eq_true.mp apart _ (List.mem_cons_of_mem _ List.mem_cons_self))
    simp only [wholeReg] at reach
    by_cases e : g.addr = P.LINE_STATUS
    · refine (refreshPool_followed h).line n (g.port n) (congrArg (· + 0x10000 * n.val) e) ?_
      show g.lsb + g.width ≤ 18
      simp only [e] at line
      omega
    · have outside : poolArea (g.port n).addr = false := poolArea_port n.isLt low high e (by omega)
      rw [State.rd, (refreshPool_followed h).words _ outside, State.rd]

theorem clearReach_touches (s : State) : Touches n [wholeReg P.REACH_STATUS, wholeReg P.REACH_LOAD] s (clearReach n s) :=
  (clearReach_onPort s).touches (as := [P.REACH_STATUS, P.REACH_LOAD]) (by decide)

end

end Sys2Proof.Machine
end

section
/-! SUPPORT. The states of R101: what a port that enters one writes, and which one it is in then (R94, R230 to R236). -/

namespace Sys2Proof.Machine

/-! ### Cable tests (R230 to R236) -/

/-- The fields of a port's cable tests. -/
def testFields : List Field :=
  [P.MON_STATUS.test_busy, P.MON_STATUS.diag_seq, P.PROBE_STATUS.cable, P.PROBE_STATUS.worst_pair, P.PROBE_STATUS.distance,
    wholeReg P.MON_CAUSE, wholeReg P.DIAG_PAIR, wholeReg (P.DIAG_PAIR + 4), wholeReg (P.DIAG_PAIR + 8), wholeReg (P.DIAG_PAIR + 12)]

section
variable {n : Fin 32} {fs : List Field}

theorem syncTestBit_touches (s : State) : Touches n testFields s (syncTestBit n s) :=
  (wr_touches s (f := P.MON_STATUS.test_busy) _ rfl rfl).trans (setWc_touches _ _ _)

theorem answerTest_touches (r : Option DueReply) (s : State) : Touches n fs s (answerTest n r s) :=
  (answerTest_keeps n r s).touches rfl rfl rfl

theorem refuseTest_touches (r : Option DueReply) (s : State) : Touches n testFields s (refuseTest n r s) :=
  (wr_touches s (f := P.PROBE_STATUS.cable) _ rfl rfl).trans (answerTest_touches _ _)

theorem refuseTests_touches (s : State) : Touches n testFields s (refuseTests n s) :=
  ((modLink_touches s _).trans (syncTestBit_touches _)).trans (Touches.foldl _ _ fun t r _ => refuseTest_touches r t)

/-- The four pair results of a cable test (R239). -/
def pairsWritten (n : Nat) (results : List PairDiag) (s : State) : State :=
  (List.range 4).foldl (fun s p => s.setWord (portAddr n P.DIAG_PAIR + 4 * p) (diagWord (results.getD p diagUnclassified))) s

/-- What a cable test shows in PROBE_STATUS (R234). -/
def worstWritten (n : Nat) (results : List PairDiag) (stopped : Bool) (s : State) : State :=
  match worstPair results with
  | some (p, d) => s.wrs [(P.PROBE_STATUS.cable.port n, if stopped then 6 else cableOf d.status.toNat),
      (P.PROBE_STATUS.worst_pair.port n, p), (P.PROBE_STATUS.distance.port n, min 1023 ((d.distance.toNat + 5) / 10))]
  | none => s.wrs [(P.PROBE_STATUS.cable.port n, if stopped then 6 else 0), (P.PROBE_STATUS.worst_pair.port n, 0),
      (P.PROBE_STATUS.distance.port n, 0)]

/-- The results of a cable test, before its event. -/
def testWritten (n : Nat) (results : List PairDiag) (stopped : Bool) (s : State) : State :=
  ((worstWritten n results stopped (pairsWritten n results s)).addWrap (P.MON_STATUS.diag_seq.port n) 1).wr
    (P.MON_STATUS.test_busy.port n) 0

/-- The event of a cable test and its record (R236). -/
def testReported (n : Nat) (results : List PairDiag) (s : State) : State :=
  if results.any (fun d => d.status != 1) || decide (results.length ≠ 4) then
    causeAlarm (portAddr n P.MON_CAUSE) 5 (6 * n + 3) s
  else
    let s := setPend (6 * n + 3) (s.orWord (portAddr n P.MON_CAUSE) 32)
    trace 3 (6 * n + 3) ((List.range 4).flatMap (fun p => wordBytes (s.word (portAddr n P.DIAG_PAIR + 4 * p)))) s

theorem writeTest_eq (n : Nat) (results : List PairDiag) (stopped : Bool) (s : State) :
    writeTest n results stopped s = testReported n results (testWritten n results stopped s) := by
  unfold writeTest testReported testWritten worstWritten pairsWritten
  cases worstPair results <;> rfl

theorem pairAddr (n p : Nat) : portAddr n P.DIAG_PAIR + 4 * p = portAddr n (P.DIAG_PAIR + 4 * p) := by
  simp only [portAddr]; omega

/-- The four pair results. -/
def pairFields : List Field := [wholeReg P.DIAG_PAIR, wholeReg (P.DIAG_PAIR + 4), wholeReg (P.DIAG_PAIR + 8), wholeReg (P.DIAG_PAIR + 12)]

theorem pairsWritten_touches (results : List PairDiag) (s : State) : Touches n pairFields s (pairsWritten n results s) := by
  refine Touches.foldl _ _ fun t p hp => ?_
  have pair : p < 4 := List.mem_range.mp hp
  rw [pairAddr]
  refine setWord_touches t _ ?_ ?_
  · interval_cases p <;> rfl
  · interval_cases p <;> rfl

/-- The fields in which a test's results say what is wrong with the cable. -/
def cableFields : List Field := [P.PROBE_STATUS.cable, P.PROBE_STATUS.worst_pair, P.PROBE_STATUS.distance]

theorem worstWritten_touches (results : List PairDiag) (stopped : Bool) (s : State) :
    Touches n cableFields s (worstWritten n results stopped s) := by
  have written (c p d : Nat) : Touches n cableFields s (s.wrs [(P.PROBE_STATUS.cable.port n, c), (P.PROBE_STATUS.worst_pair.port n, p),
      (P.PROBE_STATUS.distance.port n, d)]) :=
    ((wr_touches s (f := P.PROBE_STATUS.cable) c rfl rfl).trans (wr_touches _ (f := P.PROBE_STATUS.worst_pair) p rfl rfl)).trans
      (wr_touches _ (f := P.PROBE_STATUS.distance) d rfl rfl)
  unfold worstWritten
  split
  · exact written _ _ _
  · exact written _ _ _

theorem testWritten_touches (results : List PairDiag) (stopped : Bool) (s : State) :
    Touches n testFields s (testWritten n results stopped s) :=
  ((((pairsWritten_touches results s).mono rfl).trans ((worstWritten_touches results stopped _).mono rfl)).trans
    (wr_touches _ (f := P.MON_STATUS.diag_seq) _ rfl rfl)).trans (wr_touches _ (f := P.MON_STATUS.test_busy) _ rfl rfl)

theorem testReported_touches (results : List PairDiag) (s : State) :
    Touches n [wholeReg P.MON_CAUSE] s (testReported n results s) := by
  have port := n.isLt
  have cause (w : Word) : Touches n [wholeReg P.MON_CAUSE] s (s.orWord (portAddr n P.MON_CAUSE) w) := setWord_touches s _ rfl rfl
  unfold testReported
  split
  · exact (cause _).trans (causeAlarm_aside _ _ _ _ (by omega)).touches
  · exact (cause _).trans ((aside_setPend _ _ (by omega)).trans (aside_trace _ _ _ _)).touches

theorem writeTest_touches (results : List PairDiag) (stopped : Bool) (s : State) :
    Touches n testFields s (writeTest n results stopped s) := by
  rw [writeTest_eq]
  exact (testWritten_touches results stopped s).trans ((testReported_touches results _).mono rfl)

theorem closeTest_touches (results : List PairDiag) (stopped : Bool) (s : State) :
    Touches n testFields s (closeTest n results stopped s) := by
  have written := writeTest_touches (n := n) results stopped s
  unfold closeTest
  dsimp only
  split
  · exact written.trans ((modLink_touches _ _).trans (syncTestBit_touches _))
  · exact written.trans (((modLink_touches _ _).trans (syncTestBit_touches _)).trans (answerTest_touches _ _))

/-! ### Entering a state (R101) -/

/-- The fields a port writes that enters a state. -/
def enterFields : List Field := P.AN_STATUS.state :: testFields

theorem sendProbe_touches (s : State) : Touches n fs s (sendProbe n s) := (sendProbe_keeps n s).touches rfl rfl rfl

/-- Outside training no phase is in progress. -/
def phaseOver (l : Link) : Link := { l with phase := 0 }

/-- A port that leaves its state: a running test stops (R232), and no training phase is in progress. -/
def stateLeft (n : Nat) (s : State) : State :=
  (if s.fsm n == fsmCableTest then closeTest n [] true s else s).modLink n phaseOver

theorem stateLeft_plain {s : State} (h : s.fsm n ≠ fsmCableTest) : stateLeft n s = s.modLink n phaseOver := by
  rw [stateLeft, if_neg (by simpa using h)]

theorem stateLeft_touches (s : State) : Touches n testFields s (stateLeft n s) := by
  refine Touches.trans ?_ (modLink_touches _ _)
  split
  · exact closeTest_touches [] true s
  · exact .refl n _ s

/-- States in which a waiting test completes without effect (R230). -/
def refusesTests (st : Nat) : Bool := st = fsmTrain || st = fsmOff || st = fsmHoldDown || st = fsmBus

/-- A port that enters another state than ABILITY is in it. -/
theorem enter_state (n st : Nat) (s : State) (h : st ≠ fsmAbility) : enter n st s =
    if refusesTests st then refuseTests n ((stateLeft n s).wr (P.AN_STATUS.state.port n) st)
    else (stateLeft n s).wr (P.AN_STATUS.state.port n) st := by
  unfold enter
  dsimp only
  rw [if_neg h]
  rfl

/-- A port that enters ABILITY runs a test that waits, probes after an_fail_max failed exchanges, or stays there (R94, R230). -/
theorem enter_ability (n : Nat) (s : State) : enter n fsmAbility s =
    if !((stateLeft n s).link n).tests.isEmpty then
      (stateLeft n s).wrs [(P.AN_STATUS.state.port n, fsmCableTest), (P.MON_STATUS.test_busy.port n, 1)]
    else if (stateLeft n s).pact n P.AN_CFG.an_fail_max ≤ ((stateLeft n s).link n).exchFails then
      sendProbe n (((stateLeft n s).modLink n (fun l => { l with exchFails := 0, probeTries := 1 })).wr (P.AN_STATUS.state.port n) fsmProbe)
    else (stateLeft n s).wr (P.AN_STATUS.state.port n) fsmAbility := rfl

theorem enterAbility_touches (s : State) : Touches n [P.AN_STATUS.state, P.MON_STATUS.test_busy] (stateLeft n s) (enter n fsmAbility s) := by
  rw [enter_ability]
  split
  · exact (wr_touches _ (f := P.AN_STATUS.state) _ rfl rfl).trans (wr_touches _ (f := P.MON_STATUS.test_busy) _ rfl rfl)
  · split
    · exact ((modLink_touches _ _).trans (wr_touches _ (f := P.AN_STATUS.state) _ rfl rfl)).trans (sendProbe_touches _)
    · exact wr_touches _ (f := P.AN_STATUS.state) _ rfl rfl

theorem enter_touches (st : Nat) (s : State) : Touches n enterFields s (enter n st s) := by
  have left : Touches n enterFields s (stateLeft n s) := (stateLeft_touches s).mono rfl
  by_cases h : st = fsmAbility
  · rw [h]
    exact left.trans ((enterAbility_touches s).mono rfl)
  · rw [enter_state n st s h]
    have moved := left.trans (wr_touches (stateLeft n s) (f := P.AN_STATUS.state) st rfl rfl)
    split
    · exact moved.trans ((refuseTests_touches _).mono rfl)
    · exact moved

/-- The state a port enters that is not ABILITY. -/
theorem enter_fsm {st : Nat} (s : State) (h : st ≠ fsmAbility) (small : st < 16) : (enter n st s).fsm n = st := by
  have moved : ((stateLeft n s).wr (P.AN_STATUS.state.port n) st).fsm n = st :=
    (rd_wr_port_same _ _ _ rfl).trans (Nat.mod_eq_of_lt small)
  rw [enter_state n st s h]
  split
  · exact ((refuseTests_touches _).read P.AN_STATUS.state rfl rfl).trans moved
  · exact moved

/-- A port that enters ABILITY and stays there. -/
theorem enterAbility_stays {s : State} (hfsm : s.fsm n ≠ fsmCableTest) (h : s.staysInAbility n) : (enter n fsmAbility s).fsm n = fsmAbility := by
  rw [enter_plain hfsm (.inr ⟨rfl, h⟩)]
  exact rd_wr_port_same _ _ _ rfl

section
variable {s : State} (hfsm : s.fsm n ≠ fsmCableTest)
include hfsm

/-- A port that enters ABILITY while a cable test waits. -/
theorem enterAbility_tests (h : (s.link n).tests ≠ []) : enter n fsmAbility s =
    ((s.modLink n phaseOver).wr (P.AN_STATUS.state.port n) fsmCableTest).wr (P.MON_STATUS.test_busy.port n) 1 := by
  rw [enter_ability, stateLeft_plain hfsm, link_modLink, if_pos (by simpa [phaseOver] using h)]
  rfl

/-- A port that enters ABILITY after an_fail_max failed exchanges. -/
theorem enterAbility_probes (h : (s.link n).tests = []) (fails : s.pact n P.AN_CFG.an_fail_max ≤ (s.link n).exchFails) :
    enter n fsmAbility s = sendProbe n (((s.modLink n phaseOver).modLink n
      (fun l => { l with exchFails := 0, probeTries := 1 })).wr (P.AN_STATUS.state.port n) fsmProbe) := by
  rw [enter_ability, stateLeft_plain hfsm, link_modLink]
  have none : ¬(!(phaseOver (s.link n)).tests.isEmpty) = true := by simp [phaseOver, h]
  exact (if_neg none).trans (if_pos fails)

end

/-! ### The record of a port's supervision -/

theorem modLink_fsm (s : State) (n m : Nat) (f : Link → Link) : (s.modLink n f).fsm m = s.fsm m := rfl

theorem wr_link (s : State) (f : Field) (v m : Nat) : (s.wr f v).link m = s.link m := rfl

theorem Within.link {parts : List Part} {s t : State} (h : Within parts s t) (hl : parts.contains .links = false) (m : Nat) :
    t.link m = s.link m := by
  have kept : t.links = s.links := h .links hl
  rw [State.link, kept, State.link]

theorem refuseTests_link (s : State) : (refuseTests n s).link n = { s.link n with tests := [] } := by
  have each (t : State) (r : Option DueReply) : Keeps [.regs, .messages, .signing, .sram, .dma] t (refuseTest n r t) := refuseTest_keeps n r t
  have rest := (Keeps.foldl (xs := (s.link n).tests) each (.refl _ (syncTestBit n (s.modLink n (fun l => { l with tests := [] }))))).within
  have synced := (syncTestBit_keeps n (s.modLink n (fun l => { l with tests := [] }))).within
  exact (rest.link rfl n).trans ((synced.link rfl n).trans (link_modLink n s _))

theorem enter_link {st : Nat} {s : State} (hfsm : s.fsm n ≠ fsmCableTest) (h : st ≠ fsmAbility) :
    (enter n st s).link n = if refusesTests st then { s.link n with phase := 0, tests := [] } else phaseOver (s.link n) := by
  have moved : ((s.modLink n phaseOver).wr (P.AN_STATUS.state.port n) st).link n = phaseOver (s.link n) := link_modLink n s phaseOver
  rw [enter_state n st s h, stateLeft_plain hfsm]
  split
  · rw [refuseTests_link, moved, phaseOver]
  · exact moved

end

end Sys2Proof.Machine
end

section
/-! SUPPORT. The states before training (R78, R81, R83, R94, R101, R230). -/

namespace Sys2Proof.Machine

/-! ### What a port offers (R78, R81) -/

/-- The configuration registers that what a port offers depends on. -/
def offerRegs : List Nat := [P.LINE_CFG, P.AN_CFG, P.AN_ADV, P.LPI_CFG, P.REACH_CFG]

/-- A port offers the same in both states: its configuration in force, its class and the OUI are. -/
structure SameOffer (n : Nat) (s t : State) : Prop where
  config : ∀ a ∈ offerRegs, t.word (portAddr n (a + 0x8000)) = s.word (portAddr n (a + 0x8000))
  classes : t.classes = s.classes
  oui : t.rd CHIP.ID.oui = s.rd CHIP.ID.oui

/-- The registers of CHIP, but for the count of clamp entries dropped, are none that a port's supervision writes. -/
theorem linkArea_chip (n : Fin 32) {a : Nat} (h : a < 0x100000) (hc : a ≠ CHIP.CLAMP_STATUS) : linkArea n a = false := by
  have pool : poolArea a = false := by
    simp only [poolArea, Bool.or_eq_false_iff, Bool.and_eq_false_iff, decide_eq_false_iff_not, List.any_eq_false, List.mem_range, Bool.or_eq_true,
      decide_eq_true_eq]
    simp only [portAddr, JUG.BLOCK_STATE, JUG.NC_PAIR, JUG.POOL_STATUS, P.LINE_STATUS, P.REACH_STATUS]
    exact ⟨⟨⟨by omega, by omega⟩, by omega⟩, fun m _ => by omega⟩
  simp only [linkArea, pool, sessionWords, Bool.or_false, Bool.or_eq_false_iff, Bool.and_eq_false_iff, decide_eq_false_iff_not,
    List.contains_eq_mem, List.mem_cons, List.not_mem_nil, or_false]
  simp only [TRIP.PORT_STATUS, TRIP.TX_K, TRIP.TX_K_HI, TRIP.RX_BASE, TRIP.RX_BASE_HI, TRIP.PORT_CAUSE, TRIP.OUT_STATUS]
  exact ⟨⟨⟨⟨by omega, by omega⟩, by omega⟩, by omega⟩, hc⟩

theorem Touches.sameOffer {n : Fin 32} {fs : List Field} {s t : State} (h : Touches n fs s t)
    (c : offerRegs.all (fun a => fs.all (·.apart (wholeReg (a + 0x8000)))) = true) : SameOffer n s t where
  config := fun a ha => h.word (List.all_eq_true.mp (show offerRegs.all (fun a => (wholeReg (a + 0x8000)).inPort) = true from rfl) a ha)
    (List.all_eq_true.mp c a ha)
  classes := h.only.changes.rest .classes rfl
  oui := by
    rw [State.rd, h.only.changes.registers _ (linkArea_chip n (by decide) (by decide)) (by decide), State.rd]

section
variable {n : Nat} {s t : State} (h : SameOffer n s t)
include h

theorem SameOffer.pact {f : Field} (hf : f.addr ∈ offerRegs) : t.pact n f = s.pact n f := by
  have place : (f.active.port n).addr = portAddr n (f.addr + 0x8000) := rfl
  rw [pact_eq, pact_eq, State.rd, State.rd, place, h.config _ hf]

theorem SameOffer.allows (mode rate : Nat) : t.classAllows n mode rate = s.classAllows n mode rate := by
  rw [State.classAllows, State.classOf, h.classes, State.classAllows, State.classOf]

theorem SameOffer.baseT : t.offeredBaseT n = s.offeredBaseT n := by
  simp only [State.offeredBaseT, h.allows, h.pact (f := P.AN_ADV.base_t) (by decide)]

theorem SameOffer.peer : t.offeredPeer n = s.offeredPeer n := by
  simp only [State.offeredPeer, h.allows, h.pact (f := P.AN_ADV.peer) (by decide), h.pact (f := P.LINE_CFG.mode) (by decide)]

theorem SameOffer.reach : t.offersReach n = s.offersReach n := by
  simp only [State.offersReach, h.allows, h.pact (f := P.AN_ADV.reach) (by decide), h.pact (f := P.LINE_CFG.mode) (by decide)]

theorem SameOffer.cap : t.capWord n = s.capWord n := by
  simp only [State.capWord, h.peer, h.reach, h.pact (f := P.REACH_CFG.rate_cap) (by decide), h.pact (f := P.REACH_CFG.depth_max) (by decide)]

theorem SameOffer.pages : t.pagesOf n = s.pagesOf n := by
  simp only [State.pagesOf, h.baseT, h.peer, h.reach, h.cap, h.oui, h.pact (f := P.AN_CFG.ms_cfg) (by decide),
    h.pact (f := P.AN_CFG.no_oui) (by decide), h.pact (f := P.AN_ADV.fast_retrain) (by decide),
    h.pact (f := P.LPI_CFG.mode) (by decide), h.pact (f := P.LPI_CFG.eee_adv) (by decide)]

end

section
variable {n : Fin 32} {s : State}

/-! ### The page exchange starts -/

/-- A port that has written what it sends. -/
def pagesReady (n : Nat) (s : State) : State :=
  let t := s.setWord (portAddr n P.LOCAL_CAP) (s.capWord n)
  t.modLink n (fun l => { l with pages := t.pagesOf n })

theorem pagesReady_touches : Touches n [wholeReg P.LOCAL_CAP] s (pagesReady n s) := by
  unfold pagesReady
  exact (setWord_touches s _ rfl rfl).trans (modLink_touches _ _)

/-- A port that starts its page exchange shows the capability word it sends and keeps the pages (R78, R81). -/
structure PagesStarted (n : Nat) (s u : State) : Prop where
  only : PortOnly n s u
  state : u.fsm n = 3
  cap : u.word (portAddr n P.LOCAL_CAP) = s.capWord n
  pages : (u.link n).pages = s.pagesOf n
  probe : u.rd (P.PROBE_STATUS.probe.port n) = s.rd (P.PROBE_STATUS.probe.port n)

theorem startPages_started (hfsm : s.fsm n ≠ fsmCableTest) : PagesStarted n s (startPages n s) := by
  have ready : Touches n [wholeReg P.LOCAL_CAP] s (pagesReady n s) := pagesReady_touches
  have entered : Touches n enterFields (pagesReady n s) (startPages n s) := enter_touches fsmPages _
  have waits : (pagesReady n s).fsm n ≠ fsmCableTest := by
    have kept : (pagesReady n s).fsm n = s.fsm n := ready.read P.AN_STATUS.state rfl rfl
    rwa [kept]
  have written : Touches n [wholeReg P.LOCAL_CAP] s (s.setWord (portAddr n P.LOCAL_CAP) (s.capWord n)) := setWord_touches s _ rfl rfl
  have link : (startPages n s).link n = phaseOver ((pagesReady n s).link n) := enter_link waits (by decide)
  refine ⟨ready.only.trans entered.only, enter_fsm _ (by decide) (by decide), ?_, ?_, ?_⟩
  · exact (entered.word rfl rfl).trans (word_setWord_same _ _ _)
  · rw [link, phaseOver, pagesReady, link_modLink]
    exact (written.sameOffer rfl).pages
  · exact (entered.read P.PROBE_STATUS.probe rfl rfl).trans (ready.read P.PROBE_STATUS.probe rfl rfl)

/-! ### Training begins (R83, R91) -/

/-- The record of a link that trains a mode and rate: phased but at 100BASE-TX and 1000BASE-T (R87). -/
def trainingOf (mode rate : Nat) (l : Link) : Link :=
  { l with mode := mode, rate := rate, phase := if mode != modeBaseT || decide (2 ≤ rate) then 1 else 0, training := true }

/-- The fields a port writes whose training begins. -/
def trainFields : List Field := [P.AN_STATUS.tries, P.REACH_STATUS.phase] ++ enterFields

/-- The count of tries returns to 0 at a change of mode or rate (R91). -/
def triesBegun (n mode rate : Nat) (s : State) : State :=
  if (s.link n).mode = mode && (s.link n).rate = rate then s else s.wr (P.AN_STATUS.tries.port n) 0

/-- A port in TRAIN with the mode and rate it trains. -/
def trainEntered (n mode rate : Nat) (s : State) : State :=
  (enter n fsmTrain (triesBegun n mode rate s)).modLink n (trainingOf mode rate)

theorem startTraining_eq (n mode rate : Nat) (s : State) : startTraining n mode rate s =
    if mode = modeReach then (trainEntered n mode rate s).wr (P.REACH_STATUS.phase.port n) 1 else trainEntered n mode rate s := rfl

theorem triesBegun_touches (mode rate : Nat) : Touches n [P.AN_STATUS.tries] s (triesBegun n mode rate s) := by
  unfold triesBegun
  split
  · exact .refl n _ s
  · exact wr_touches s 0 rfl rfl

theorem triesBegun_link (mode rate : Nat) : (triesBegun n mode rate s).link n = s.link n := by
  unfold triesBegun
  split <;> rfl

theorem startTraining_touches (mode rate : Nat) : Touches n trainFields s (startTraining n mode rate s) := by
  have begun : Touches n trainFields s (trainEntered n mode rate s) :=
    (((triesBegun_touches mode rate).mono rfl).trans ((enter_touches fsmTrain _).mono rfl)).trans (modLink_touches _ _)
  rw [startTraining_eq]
  split
  · exact begun.trans (wr_touches _ (f := P.REACH_STATUS.phase) 1 rfl rfl)
  · exact begun

/-- Training begins in TRAIN, with its mode and rate. -/
theorem startTraining_begins (hfsm : s.fsm n ≠ fsmCableTest) (mode rate : Nat) :
    (startTraining n mode rate s).fsm n = 5 ∧ (startTraining n mode rate s).link n = trainingOf mode rate { s.link n with tests := [] } := by
  have plain : (triesBegun n mode rate s).fsm n ≠ fsmCableTest := by
    rwa [State.fsm, (triesBegun_touches mode rate).read P.AN_STATUS.state rfl rfl]
  have state : (trainEntered n mode rate s).fsm n = 5 := (modLink_fsm _ _ _ _).trans (enter_fsm _ (by decide) (by decide))
  have link : (trainEntered n mode rate s).link n = trainingOf mode rate { s.link n with tests := [] } := by
    rw [trainEntered, link_modLink, enter_link plain (by decide), triesBegun_link]
    rfl
  rw [startTraining_eq]
  split
  · exact ⟨(rd_wr_port_apart (f := P.REACH_STATUS.phase) _ _ _ rfl rfl).trans state, link⟩
  · exact ⟨state, link⟩

/-! ### 100BASE-TX idle (R83) -/

/-- Idle says that the partner does not autonegotiate. -/
def idleNoted (n : Nat) (s : State) : State := s.wrs [(P.AN_STATUS.partner_an.port n, 0), (P.AN_STATUS.partner_sircor.port n, 0)]

theorem idleNoted_touches : Touches n [P.AN_STATUS.partner_an, P.AN_STATUS.partner_sircor] s (idleNoted n s) :=
  (wr_touches s (f := P.AN_STATUS.partner_an) 0 rfl rfl).trans (wr_touches _ (f := P.AN_STATUS.partner_sircor) 0 rfl rfl)

theorem idleNoted_partner : (idleNoted n s).rd (P.AN_STATUS.partner_an.port n) = 0 :=
  (rd_wr_port_apart (f := P.AN_STATUS.partner_sircor) (g := P.AN_STATUS.partner_an) _ _ _ rfl rfl).trans (rd_wr_port_same _ _ _ rfl)

theorem exec_idleDetected (h : s.fsm n = 2) : exec (.idleDetected n) s = .next (
    if (s.offeredBaseT n).testBit 0 then
      (startTraining n modeBaseT 0 ((idleNoted n s).modLink n (fun l => { l with fastRetrain := false, partnerEee := 0 }))).wr
        (P.LINE_STATUS.master.port n) 0
    else idleNoted n s) := by
  have offer : (idleNoted n s).offeredBaseT n = s.offeredBaseT n := (idleNoted_touches.sameOffer rfl).baseT
  show execIdleDetected n s = _
  have waits : ¬s.fsm n = fsmProbe := by rw [h]; decide
  rw [← offer, execIdleDetected, if_pos (by simp [h, fsmAbility])]
  dsimp only
  rw [if_neg waits]
  rfl

end

/-- Settles O16: each row of R101's table is one entry of a state, and `Touches` says which fields it writes. -/
theorem supervisionFollowsItsTable : Obligations.SupervisionFollowsItsTable := by
  unfold Obligations.SupervisionFollowsItsTable
  intro s n _
  have elsewhere {k : Nat} (h : s.fsm n = k) (hk : k ≠ fsmCableTest) : s.fsm n ≠ fsmCableTest := h ▸ hk
  refine ⟨fun on h => ?breakOver, fun h => ?pulses, fun h => ?probed, fun h offered => ?idle, fun h offered => ?idleElse, fun h => ?waited,
    fun h => ?energy⟩
  case breakOver =>
    have exec_eq : exec (.breakLinkTimer n) s = .next (enter n fsmAbility s) := by
      show execBreakLinkTimer n s = _
      rw [execBreakLinkTimer, if_pos (by simp [on, h, fsmBreak])]
    have plain := elsewhere h (by decide)
    refine ⟨_, exec_eq, (enter_touches _ s).only, fun stays => enterAbility_stays plain stays, fun tests => ?_, fun none fails => ?_⟩
    · rw [enterAbility_tests plain tests]
      exact ⟨(rd_wr_port_apart (f := P.MON_STATUS.test_busy) _ _ _ rfl rfl).trans (rd_wr_port_same _ _ _ rfl), rd_wr_port_same _ _ _ rfl⟩
    · rw [enterAbility_probes plain none fails]
      have state (t : State) : (sendProbe n (t.wr (P.AN_STATUS.state.port n) fsmProbe)).fsm n = 8 := rd_wr_port_same t n fsmProbe rfl
      exact ⟨state _, rfl⟩
  case pulses =>
    have exec_eq : exec (.partnerPulsesSeen n) s = .next (startPages n s) := by
      show execPartnerPulsesSeen n s = _
      rw [execPartnerPulsesSeen]
      dsimp only
      rw [if_pos (show s.fsm n = fsmAbility from h)]
    obtain ⟨only, state, cap, pages, -⟩ := startPages_started (elsewhere h (by decide))
    exact ⟨_, exec_eq, only, state, cap, pages⟩
  case probed =>
    have exec_eq : exec (.partnerPulsesSeen n) s = .next (startPages n (s.wr (P.PROBE_STATUS.probe.port n) 3)) := by
      show execPartnerPulsesSeen n s = _
      rw [execPartnerPulsesSeen]
      dsimp only
      rw [if_neg (show ¬s.fsm n = fsmAbility by rw [h]; decide), if_pos (show s.fsm n = fsmProbe from h)]
    have ended : Touches n [P.PROBE_STATUS.probe] s (s.wr (P.PROBE_STATUS.probe.port n) 3) := wr_touches s 3 rfl rfl
    have plain : (s.wr (P.PROBE_STATUS.probe.port n) 3).fsm n ≠ fsmCableTest := by
      rw [State.fsm, ended.read P.AN_STATUS.state rfl rfl]
      exact elsewhere h (by decide)
    obtain ⟨only, state, -, -, probe⟩ := startPages_started plain
    exact ⟨_, exec_eq, ended.only.trans only, state, probe.trans (rd_wr_port_same _ _ _ rfl)⟩
  case idle =>
    have noted := idleNoted_touches (n := n) (s := s)
    have plain : ((idleNoted n s).modLink n (fun l => { l with fastRetrain := false, partnerEee := 0 })).fsm n ≠ fsmCableTest := by
      rw [modLink_fsm, State.fsm, noted.read P.AN_STATUS.state rfl rfl]
      exact elsewhere h (by decide)
    obtain ⟨state, link⟩ := startTraining_begins plain modeBaseT 0
    have begun : Touches n trainFields (idleNoted n s) (startTraining n modeBaseT 0 ((idleNoted n s).modLink n
        (fun l => { l with fastRetrain := false, partnerEee := 0 }))) := (modLink_touches _ _).trans (startTraining_touches modeBaseT 0)
    have role (t : State) : Touches n [P.LINE_STATUS.master] t (t.wr (P.LINE_STATUS.master.port n) 0) := wr_touches t 0 rfl rfl
    refine ⟨_, (exec_idleDetected h).trans (by rw [if_pos offered]), (noted.only.trans begun.only).trans (role _).only,
      ((role _).read P.AN_STATUS.state rfl rfl).trans state, ?_, ?_, rd_wr_port_same _ _ _ rfl, ?_⟩
    · rw [wr_link, link]; rfl
    · rw [wr_link, link]; rfl
    · exact (((role _).read P.AN_STATUS.partner_an rfl rfl).trans (begun.read P.AN_STATUS.partner_an rfl rfl)).trans idleNoted_partner
  case idleElse =>
    refine ⟨_, (exec_idleDetected h).trans (by rw [if_neg (by simp [offered])]),
      (idleNoted_touches.read P.AN_STATUS.state rfl rfl).trans h, idleNoted_partner, changes_wrs s _ fun e he => ?_⟩
    simp only [List.mem_cons, List.not_mem_nil, or_false] at he
    rcases he with rfl | rfl <;> exact List.mem_cons_self
  case waited =>
    have exec_eq : exec (.autonegWaitTimer n) s = .next (enter n fsmBreak (lastFail n 5 (s.modLink n (fun l =>
        { l with exchFails := l.exchFails + 1 })))) := by
      show execAutonegWaitTimer n s = _
      rw [execAutonegWaitTimer, if_pos (show s.fsm n = fsmPages from h)]
    have failed : Touches n [P.AN_STATUS.last_fail] s (lastFail n 5 (s.modLink n (fun l => { l with exchFails := l.exchFails + 1 }))) :=
      (modLink_touches s _).trans (wr_touches _ 5 rfl rfl)
    have plain : (lastFail n 5 (s.modLink n (fun l => { l with exchFails := l.exchFails + 1 }))).fsm n ≠ fsmCableTest := by
      rw [State.fsm, failed.read P.AN_STATUS.state rfl rfl]
      exact elsewhere h (by decide)
    refine ⟨_, exec_eq, failed.only.trans (enter_touches _ _).only, enter_fsm _ (by decide) (by decide), ?_, ?_⟩
    · exact ((enter_touches fsmBreak _).read P.AN_STATUS.last_fail rfl rfl).trans (rd_wr_port_same _ _ _ rfl)
    · rw [enter_link plain (by decide), if_neg (by decide), phaseOver, lastFail, wr_link, link_modLink]
  case energy =>
    have exec_eq : exec (.partnerEnergyReturn n) s = .next (enter n fsmBreak s) := by
      show execPartnerEnergyReturn n s = _
      rw [execPartnerEnergyReturn, if_pos (show s.fsm n = fsmHoldDown from h)]
    exact ⟨_, exec_eq, (enter_touches _ s).only, enter_fsm s (by decide) (by decide)⟩

end Sys2Proof.Machine
end

section
/-! SUPPORT. The page exchange completes: roles, the chosen mode and rate, and exchanges that fail (R79, R82, R84, R101). -/

namespace Sys2Proof.Machine

section
variable {n : Fin 32} {fs : List Field} {s : State}

/-! ### Training and exchange failures -/

theorem Aside.link {s t : State} (h : Aside s t) (m : Nat) : t.link m = s.link m := by
  rw [State.link, h.links, State.link]

theorem trainFailEvent_aside (s : State) : Aside s (trainFailEvent n s) := by
  have := n.isLt
  exact aside_plainEvent _ _ _ (by omega)

theorem trainFailEvent_pend (s : State) : (trainFailEvent n s).pend (6 * n + 1) = true := by
  have := n.isLt
  exact (mapped_rises _ _ _ _).pend (by omega) (setPend_pend _ (by omega))

/-- The fields a port writes whose page exchange fails. -/
def failFields : List Field := P.AN_STATUS.last_fail :: enterFields

/-- A page exchange that failed with last_fail `code`: BREAK, event 6n + 1, one more failed exchange (R101). -/
structure ExchangeFailed (n code : Nat) (s u : State) : Prop where
  state : u.fsm n = 1
  why : u.rd (P.AN_STATUS.last_fail.port n) = code
  raised : u.pend (6 * n + 1) = true
  fails : (u.link n).exchFails = (s.link n).exchFails + 1

/-- A failed exchange on record, with its reason. -/
def failNoted (n code : Nat) (s : State) : State := lastFail n code (s.modLink n (fun l => { l with exchFails := l.exchFails + 1 }))

theorem failExchange_eq (n code : Nat) (s : State) : failExchange n code s = trainFailEvent n (enter n fsmBreak (failNoted n code s)) := rfl

theorem failNoted_touches (code : Nat) : Touches n [P.AN_STATUS.last_fail] s (failNoted n code s) :=
  (modLink_touches s _).trans (wr_touches _ code rfl rfl)

theorem failExchange_touches (code : Nat) : Touches n failFields s (failExchange n code s) := by
  rw [failExchange_eq]
  exact (((failNoted_touches code).mono rfl).trans ((enter_touches fsmBreak _).mono rfl)).trans (trainFailEvent_aside _).touches

theorem failExchange_failed (hfsm : s.fsm n ≠ fsmCableTest) {code : Nat} (small : code < 16) :
    ExchangeFailed n code s (failExchange n code s) := by
  have event := (trainFailEvent_aside (n := n) (enter n fsmBreak (failNoted n code s)))
  have plain : (failNoted n code s).fsm n ≠ fsmCableTest := by
    rwa [State.fsm, (failNoted_touches code).read P.AN_STATUS.state rfl rfl]
  rw [failExchange_eq]
  refine ⟨?_, ?_, trainFailEvent_pend _, ?_⟩
  · exact (event.touches.read (fs := []) P.AN_STATUS.state rfl rfl).trans (enter_fsm _ (by decide) (by decide))
  · exact ((event.touches.read (fs := []) P.AN_STATUS.last_fail rfl rfl).trans ((enter_touches fsmBreak _).read P.AN_STATUS.last_fail rfl rfl)).trans
      ((rd_wr_port_same _ _ _ rfl).trans (Nat.mod_eq_of_lt small))
  · rw [event.link, enter_link plain (by decide), if_neg (by decide), phaseOver, failNoted, lastFail, wr_link, link_modLink]

/-! ### A mode and rate are chosen (R82, R84) -/

/-- The role of a port at a mode and rate; 100BASE-TX has none (R84). -/
def roleOf (n mode rate : Nat) (ex : Exchange) (s : State) : Option Bool :=
  if !(mode == modeBaseT && rate == 0) then resolveRole (s.pact n P.AN_CFG.ms_cfg) ex.role.toNat ex.seedMaster else some false

/-- What the record of a link takes over from its exchange. -/
def agreedLink (n mode rate : Nat) (ex : Exchange) (s : State) (l : Link) : Link :=
  { l with
    exchFails := 0
    fastRetrain := (s.pact n P.AN_ADV.fast_retrain != 0 && ex.fastRetrain && (ldpcRate mode rate)) || mode == modeReach
    partnerEee := ex.eee.toNat
    reachCap := min (s.rd (P.LOCAL_CAP.reach_rate_cap.port n)) (bitsOf (s.word (portAddr n P.PARTNER_CAP)) 18 6)
    reachDepth := min (s.rd (P.LOCAL_CAP.reach_depth_max.port n)) (bitsOf (s.word (portAddr n P.PARTNER_CAP)) 16 2) }

/-- Training of the mode and rate that were chosen begins. -/
def chosenBegun (n mode rate : Nat) (ex : Exchange) (s : State) : State :=
  startTraining n mode rate (s.modLink n (agreedLink n mode rate ex s))

/-- The role is shown, and the depth in Reach mode. -/
def roleShown (n mode role : Nat) (s : State) : State :=
  let s := s.wr (P.LINE_STATUS.master.port n) role
  if mode = modeReach then s.wr (P.REACH_STATUS.depth_now.port n) (s.link n).reachDepth else s

theorem chosen_conflict {mode rate : Nat} {ex : Exchange} (h : roleOf n mode rate ex s = none) :
    chosen n mode rate ex s = failExchange n 4 s := by
  unfold chosen
  unfold roleOf at h
  dsimp only
  rw [h]

theorem chosen_resolved {mode rate : Nat} {ex : Exchange} {master : Bool} (h : roleOf n mode rate ex s = some master) :
    chosen n mode rate ex s =
      roleShown n mode (bitNat (master && !(mode == modeBaseT && rate == 0))) (chosenBegun n mode rate ex s) := by
  unfold chosen
  unfold roleOf at h
  dsimp only
  rw [h]
  rfl

/-- The fields a port writes that has chosen a mode and rate. -/
def chosenFields : List Field := [P.LINE_STATUS.master, P.REACH_STATUS.depth_now, P.AN_STATUS.last_fail] ++ trainFields

theorem roleShown_touches (mode role : Nat) : Touches n [P.LINE_STATUS.master, P.REACH_STATUS.depth_now] s (roleShown n mode role s) := by
  have shown := wr_touches (n := n) (fs := [P.LINE_STATUS.master, P.REACH_STATUS.depth_now]) s (f := P.LINE_STATUS.master) role rfl rfl
  unfold roleShown
  dsimp only
  split
  · exact shown.trans (wr_touches _ (f := P.REACH_STATUS.depth_now) _ rfl rfl)
  · exact shown

theorem roleShown_link (mode role : Nat) : (roleShown n mode role s).link n = s.link n := by
  unfold roleShown
  dsimp only
  split
  · exact (wr_link _ _ _ n).trans (wr_link s _ _ n)
  · exact wr_link s _ _ n

theorem chosenBegun_touches (mode rate : Nat) (ex : Exchange) : Touches n trainFields s (chosenBegun n mode rate ex s) :=
  (modLink_touches s _).trans (startTraining_touches mode rate)

theorem chosen_touches (mode rate : Nat) (ex : Exchange) : Touches n chosenFields s (chosen n mode rate ex s) := by
  cases h : roleOf n mode rate ex s with
  | none =>
    rw [chosen_conflict h]
    exact (failExchange_touches 4).mono rfl
  | some master =>
    rw [chosen_resolved h]
    exact ((chosenBegun_touches mode rate ex).mono rfl).trans ((roleShown_touches _ _).mono rfl)

/-- A port whose roles do not conflict is in TRAIN with the mode and rate it has chosen, and the Reach limits of both ends. -/
theorem chosen_trains {mode rate : Nat} {ex : Exchange} (hfsm : s.fsm n ≠ fsmCableTest) (h : (roleOf n mode rate ex s).isSome = true) :
    (chosen n mode rate ex s).fsm n = 5 ∧ (chosen n mode rate ex s).link n =
      trainingOf mode rate { agreedLink n mode rate ex s (s.link n) with tests := [] } := by
  obtain ⟨master, role⟩ := Option.isSome_iff_exists.mp h
  have plain : (s.modLink n (agreedLink n mode rate ex s)).fsm n ≠ fsmCableTest := by rwa [modLink_fsm]
  obtain ⟨state, link⟩ := startTraining_begins plain mode rate
  rw [chosen_resolved role]
  refine ⟨((roleShown_touches _ _).read P.AN_STATUS.state rfl rfl).trans state, ?_⟩
  rw [roleShown_link, chosenBegun, link, link_modLink]

/-! ### The resolution (R82) -/

/-- The capability word of the partner, 0 without Extended Next Pages (R79, R81). -/
def partnerCap (ex : Exchange) : Word := if ex.extNextPage then ex.s2.getD 0 else 0

/-- The partner is a Sircor peer (R80, R81). -/
def sircorPeer (n : Nat) (ex : Exchange) (s : State) : Bool :=
  ex.extNextPage && s.pact n P.AN_CFG.no_oui == 0 && bitsOf (partnerCap ex) 24 8 != 0 &&
    (match ex.s1 with
    | some w => bitsOf w 0 24 == s.rd CHIP.ID.oui
    | none => false)

/-- What the exchange said of the partner. -/
def partnerNoted (n : Nat) (ex : Exchange) (sircor : Bool) (s : State) : State :=
  (s.setWord (portAddr n P.PARTNER_CAP) (partnerCap ex)).wrs
    [(P.AN_STATUS.partner_an.port n, 1), (P.AN_STATUS.partner_sircor.port n, bitNat sircor)]

/-- The fields that say what the partner is. -/
def partnerFields : List Field := [wholeReg P.PARTNER_CAP, P.AN_STATUS.partner_an, P.AN_STATUS.partner_sircor]

theorem partnerNoted_eq (n : Nat) (ex : Exchange) (sircor : Bool) (s : State) : partnerNoted n ex sircor s =
    ((s.setWord (portAddr n P.PARTNER_CAP) (partnerCap ex)).wr (P.AN_STATUS.partner_an.port n) 1).wr (P.AN_STATUS.partner_sircor.port n)
      (bitNat sircor) := by
  simp only [partnerNoted, State.wrs, List.foldl_cons, List.foldl_nil]

theorem partnerNoted_touches (ex : Exchange) (sircor : Bool) : Touches n partnerFields s (partnerNoted n ex sircor s) := by
  rw [partnerNoted_eq]
  exact ((setWord_touches s _ rfl rfl).trans (wr_touches _ (f := P.AN_STATUS.partner_an) 1 rfl rfl)).trans
    (wr_touches _ (f := P.AN_STATUS.partner_sircor) _ rfl rfl)

theorem partnerNoted_cap (ex : Exchange) (sircor : Bool) : (partnerNoted n ex sircor s).word (portAddr n P.PARTNER_CAP) = partnerCap ex := by
  have written (t : State) : Touches n [P.AN_STATUS.partner_an, P.AN_STATUS.partner_sircor] t ((t.wr (P.AN_STATUS.partner_an.port n) 1).wr
      (P.AN_STATUS.partner_sircor.port n) (bitNat sircor)) :=
    (wr_touches t (f := P.AN_STATUS.partner_an) 1 rfl rfl).trans (wr_touches _ (f := P.AN_STATUS.partner_sircor) _ rfl rfl)
  rw [partnerNoted_eq]
  exact ((written _).word (a := P.PARTNER_CAP) rfl rfl).trans (word_setWord_same _ _ _)

theorem partnerNoted_sircor (ex : Exchange) (sircor : Bool) :
    (partnerNoted n ex sircor s).rd (P.AN_STATUS.partner_sircor.port n) = bitNat sircor := by
  rw [partnerNoted_eq, rd_wr_port_same _ _ _ rfl]
  cases sircor <;> rfl

theorem highestBit_zero {w b : Nat} : highestBit w 0 ≠ some b := by
  intro h
  have set := List.find?_some h
  simp at set

/-- The order of R82: what the port does in state `u`, in which it has noted what the partner is, by what it offered in `s`. -/
structure Resolved (n : Fin 32) (ex : Exchange) (s u r : State) : Prop where
  noted : Touches n partnerFields s u
  after : Touches n chosenFields u r
  link : u.link n = s.link n
  cap : u.word (portAddr n P.PARTNER_CAP) = partnerCap ex
  partner : u.rd (P.AN_STATUS.partner_sircor.port n) = bitNat (sircorPeer n ex s)
  peer : ∀ b, s.pact n P.LINE_CFG.mode = 1 → sircorPeer n ex s = true →
    highestBit 3 (s.offeredPeer n &&& bitsOf (partnerCap ex) 0 3) = some b → r = chosen n modePeer (b + 2) ex u
  reach : s.pact n P.LINE_CFG.mode = 2 → sircorPeer n ex s = true → bitOf (partnerCap ex) 5 = true → s.offersReach n = true →
    ∃ rate, r = chosen n modeReach rate ex u
  holds : s.pact n P.LINE_CFG.mode = 1 ∨ s.pact n P.LINE_CFG.mode = 2 → sircorPeer n ex s = false → s.pact n P.AN_CFG.peer_fallback = 0 →
    r = enter n fsmHoldDown (lastFail n 7 u)
  baseT : s.pact n P.LINE_CFG.mode = 0 ∨ sircorPeer n ex s = false ∧ s.pact n P.AN_CFG.peer_fallback ≠ 0 →
    ∀ both, both = s.offeredBaseT n &&& ex.baseT.toNat &&& (if ex.extNextPage then 31 else 3) →
      (∀ k, highestBit 5 both = some k → r = chosen n modeBaseT k ex u) ∧ (highestBit 5 both = none → r = failExchange n 6 u)

theorem resolve_resolved (n : Fin 32) (ex : Exchange) (s : State) : ∃ u, Resolved n ex s u (resolve n ex s) := by
  have touched := partnerNoted_touches (n := n) (s := s) ex (sircorPeer n ex s)
  have shown := partnerNoted_sircor (n := n) (s := s) ex (sircorPeer n ex s)
  have word := partnerNoted_cap (n := n) (s := s) ex (sircorPeer n ex s)
  have link : (partnerNoted n ex (sircorPeer n ex s) s).link n = s.link n := by
    rw [partnerNoted_eq, wr_link, wr_link]
    rfl
  unfold resolve
  extract_lets ext cap sircor t u mode common both
  have noted : partnerNoted n ex (sircorPeer n ex s) s = u := rfl
  have peer : sircor = sircorPeer n ex s := rfl
  rw [noted] at touched shown word link
  have offer : SameOffer n s u := touched.sameOffer rfl
  have configured : mode = s.pact n P.LINE_CFG.mode := offer.pact (f := P.LINE_CFG.mode) (by decide)
  have fallback : u.pact n P.AN_CFG.peer_fallback = s.pact n P.AN_CFG.peer_fallback := offer.pact (by decide)
  have rates : common = s.offeredPeer n &&& bitsOf (partnerCap ex) 0 3 := congrArg (· &&& bitsOf (partnerCap ex) 0 3) offer.peer
  have gigabit : both = s.offeredBaseT n &&& ex.baseT.toNat &&& (if ex.extNextPage then 31 else 3) :=
    congrArg (· &&& ex.baseT.toNat &&& (if ex.extNextPage then 31 else 3)) offer.baseT
  refine ⟨u, touched, ?_, link, word, shown, fun b hm hs hb => ?_, fun hm hs hc hr => ?_, fun hm hs hf => ?_, fun hm all hall => ?_⟩
  · split
    · exact chosen_touches _ _ ex
    · split
      · exact chosen_touches _ _ ex
      · split
        · exact (wr_touches u (f := P.AN_STATUS.last_fail) 7 rfl rfl).trans ((enter_touches fsmHoldDown _).mono rfl)
        · split
          · exact chosen_touches _ _ ex
          · exact (failExchange_touches 6).mono rfl
  · have some : common ≠ 0 := fun e => highestBit_zero (by rwa [← rates, e] at hb)
    rw [if_pos (by simp [configured, peer, hm, hs, some]), rates, hb]
    rfl
  · refine ⟨u.pact n P.LINE_CFG.rate_max, ?_⟩
    rw [if_neg (by simp [configured, hm]), if_pos (by simp [configured, peer, hm, hs, offer.reach, hr]; exact hc)]
  · rw [if_neg (by simp [peer, hs]), if_neg (by simp [peer, hs]), if_pos (by simp [configured, fallback, hf]; exact hm)]
  · have notPeer : ¬(decide (mode = 1) && sircor && common != 0) = true := by
      rcases hm with hm | ⟨hs, -⟩
      · simp [configured, hm]
      · simp [peer, hs]
    have notReach : ¬(decide (mode = 2) && sircor && bitOf cap 5 && u.offersReach n) = true := by
      rcases hm with hm | ⟨hs, -⟩
      · simp [configured, hm]
      · simp [peer, hs]
    have notHeld : ¬((decide (mode = 1) || decide (mode = 2)) && decide (u.pact n P.AN_CFG.peer_fallback = 0)) = true := by
      rcases hm with hm | ⟨-, hf⟩
      · simp [configured, hm]
      · simp [fallback, hf]
    rw [if_neg notPeer, if_neg notReach, if_neg notHeld, gigabit, ← hall]
    constructor
    · intro k hk
      rw [hk]
    · intro hk
      rw [hk]

/-- Two roles that do not conflict are resolved for every mode and rate that has roles. -/
theorem roleOf_of_sameOffer {u : State} (h : SameOffer n s u) {mode rate : Nat} (ex : Exchange) (roles : ¬(mode = 0 ∧ rate = 0)) :
    roleOf n mode rate ex u = resolveRole (s.pact n P.AN_CFG.ms_cfg) ex.role.toNat ex.seedMaster := by
  have other : (!(mode == modeBaseT && rate == 0)) = true := by
    simpa [modeBaseT, -not_and, not_and_or] using roles
  rw [roleOf, if_pos other, h.pact (f := P.AN_CFG.ms_cfg) (by decide)]

end

/-- Settles O17: the order of R82 leads to one choice, and each choice to TRAIN, HOLD_DOWN or a failed exchange by its own lemma. -/
theorem pageExchangeResolves : Obligations.PageExchangeResolves := by
  unfold Obligations.PageExchangeResolves
  intro s n ex _ h
  have exec_eq : exec (.pageExchangeComplete n ex) s = .next (resolve n ex s) := by
    show execPageExchangeComplete n ex s = _
    rw [execPageExchangeComplete, if_pos (show s.fsm n = fsmPages from h)]
  obtain ⟨u, resolved⟩ := resolve_resolved n ex s
  have waits : u.fsm n ≠ fsmCableTest := by
    rw [State.fsm, resolved.noted.read P.AN_STATUS.state rfl rfl]
    exact ne_of_eq_of_ne h (by decide)
  have offer : SameOffer n s u := resolved.noted.sameOffer rfl
  refine ⟨_, exec_eq, resolved.noted.only.trans resolved.after.only, ?_⟩
  intro mode cap sircor free hmode hcap hsircor hfree
  have peer : sircorPeer n ex s = sircor := by rw [hsircor, hcap]; rfl
  have capability : partnerCap ex = cap := hcap.symm
  have settled {m k : Nat} (roles : ¬(m = 0 ∧ k = 0)) (hf : free = true) : (roleOf n m k ex u).isSome = true := by
    rw [roleOf_of_sameOffer offer ex roles, ← hfree, hf]
  refine ⟨?cap, ?partner, fun b hm hs hb hf => ?peer, fun hm hs hc hr hf => ?reach, fun hm hs hf => ?holds, fun both hboth hm => ⟨?base, ?conflict,
    ?none⟩⟩
  case cap =>
    rw [resolved.after.word rfl rfl, resolved.cap, capability]
  case partner =>
    rw [resolved.after.read P.AN_STATUS.partner_sircor rfl rfl, resolved.partner, peer]
  case peer =>
    obtain ⟨state, link⟩ := chosen_trains waits (settled (m := 1) (k := b + 2) (by omega) hf)
    rw [resolved.peer b (by rw [← hmode, hm]) (by rw [peer, hs]) (by rw [capability, hb])]
    exact ⟨state, by rw [show modePeer = 1 from rfl, link]; rfl, by rw [show modePeer = 1 from rfl, link]; rfl⟩
  case reach =>
    obtain ⟨rate, chose⟩ := resolved.reach (by rw [← hmode, hm]) (by rw [peer, hs]) (by rw [capability, hc]) hr
    obtain ⟨state, link⟩ := chosen_trains waits (settled (m := modeReach) (k := rate) (fun e => absurd e.1 (by decide)) hf)
    have limit (f : Field) (hf : f.inPort = true) (ha : partnerFields.all (·.apart f) = true) : u.rd (f.port n) = s.rd (f.port n) :=
      resolved.noted.read f hf ha
    rw [chose]
    refine ⟨state, by rw [link]; rfl, ?_, ?_⟩
    · rw [link, ← capability, ← resolved.cap, ← limit P.LOCAL_CAP.reach_rate_cap rfl rfl]; rfl
    · rw [link, ← capability, ← resolved.cap, ← limit P.LOCAL_CAP.reach_depth_max rfl rfl]; rfl
  case holds =>
    rw [resolved.holds (by rwa [← hmode]) (by rw [peer, hs]) hf]
    exact ⟨enter_fsm _ (by decide) (by decide), ((enter_touches fsmHoldDown _).read P.AN_STATUS.last_fail rfl rfl).trans (rd_wr_port_same _ _ _ rfl)⟩
  case base =>
    intro r hr hf
    obtain ⟨chose, -⟩ := resolved.baseT (by rwa [← hmode, peer]) both hboth
    have role : (roleOf n modeBaseT r ex u).isSome = true := by
      by_cases h100 : r = 0
      · rw [h100]; rfl
      · exact settled (fun e => h100 e.2) (hf.resolve_right h100)
    obtain ⟨state, link⟩ := chosen_trains waits role
    rw [chose r hr]
    exact ⟨state, by rw [link]; rfl, by rw [link]; rfl⟩
  case conflict =>
    intro r hr hf hne
    obtain ⟨chose, -⟩ := resolved.baseT (by rwa [← hmode, peer]) both hboth
    have role : roleOf n modeBaseT r ex u = none := by
      rw [roleOf_of_sameOffer offer ex fun e => hne e.2, ← Option.isNone_iff_eq_none, ← Option.not_isSome, ← hfree, hf]
      rfl
    rw [chose r hr, chosen_conflict role]
    obtain ⟨state, why, raised, -⟩ := failExchange_failed waits (code := 4) (by decide)
    exact ⟨state, why, raised⟩
  case none =>
    intro hr
    obtain ⟨-, fails⟩ := resolved.baseT (by rwa [← hmode, peer]) both hboth
    rw [fails hr]
    obtain ⟨state, why, raised, count⟩ := failExchange_failed waits (code := 6) (by decide)
    exact ⟨state, why, raised, by rw [count, resolved.link]⟩

end Sys2Proof.Machine
end

section
/-! SUPPORT. Dedicated coefficients, and what a training phase applies (R56, R57, R63, R68, R87, R467). -/

namespace Sys2Proof.Machine

/-! ### Coefficients -/

theorem wr_coefs (s : State) (f : Field) (v : Nat) : (s.wr f v).coefs = s.coefs := rfl

theorem coef_setCoef (s : State) (k k' : Nat) (v : BitVec 18) : (s.setCoef k v).coef k' = if k' = k then v else s.coef k' :=
  sget_sput _ _ _ _ _

/-- A store whose entries are kept by their keys reads as before at the keys kept, and its default at the others. -/
theorem sget_filter {β : Type} (d : Nat → β) (m : List (Nat × β)) (p : Nat → Bool) (a : Nat) :
    sget d (m.filter (fun e => p e.1)) a = if p a then sget d m a else d a := by
  induction m with
  | nil => simp
  | cons e t ih =>
    obtain ⟨k, v⟩ := e
    by_cases hk : p k = true
    · rw [List.filter_cons, if_pos hk]
      by_cases ha : k = a
      · subst ha; simp [sget, hk]
      · simpa [sget, ha] using ih
    · rw [List.filter_cons, if_neg hk, ih]
      by_cases ha : k = a
      · subst ha; simp [hk]
      · simp [sget, ha]

theorem coef_clearCoefs (s : State) (n k : Nat) : (s.clearCoefs n).coef k = if k / 10048 = n then 0 else s.coef k := by
  have kept := sget_filter (fun _ => (0 : BitVec 18)) s.coefs (fun k => decide (k / 10048 ≠ n)) k
  refine kept.trans ?_
  by_cases h : k / 10048 = n <;> simp [h, State.coef]

/-- A coefficient to which a list of writes gives one value reads it. -/
theorem coef_foldl_eq {α : Type} (key : α → Nat) (val : α → BitVec 18) {k : Nat} {v : BitVec 18} (l : List α) (s : State)
    (one : ∀ e ∈ l, key e = k → val e = v) (given : s.coef k = v ∨ ∃ e ∈ l, key e = k) :
    (l.foldl (fun s e => s.setCoef (key e) (val e)) s).coef k = v := by
  induction l generalizing s with
  | nil => simpa using given
  | cons x t ih =>
    refine ih _ (fun e he => one e (List.mem_cons_of_mem _ he)) ?_
    rw [coef_setCoef]
    by_cases hx : k = key x
    · exact .inl (by rw [if_pos hx]; exact one x List.mem_cons_self hx.symm)
    · rw [if_neg hx]
      refine given.imp_right fun ⟨e, he, hk⟩ => ⟨e, ?_, hk⟩
      rcases List.mem_cons.mp he with rfl | he
      · exact absurd hk.symm hx
      · exact he

/-- Coefficients of one port are the same where their pair and index are. -/
theorem coefKey_inj {n p q i j : Nat} (hi : i < 2512) (hj : j < 2512) (h : coefKey n p i = coefKey n q j) : p = q ∧ i = j := by
  simp only [coefKey] at h
  omega

/-! ### What a phase applies -/

/-- The coefficients a phase leaves. -/
def coefsApplied (n : Nat) (r : PhaseResult) (s : State) : State :=
  r.coefs.foldl (fun s c => if c.2.1 < 2512 then s.setCoef (coefKey n c.1.val c.2.1) c.2.2 else s) s

/-- The gains a phase leaves. -/
def gainsApplied (n : Nat) (r : PhaseResult) (s : State) : State :=
  r.pga.foldl (fun s g => s.wr (CAL.PAIR_CAL.pga.nth (4 * n + g.1.val)) g.2.val) s

theorem applyPhase_eq (n : Nat) (r : PhaseResult) (s : State) : applyPhase n r s =
    ((gainsApplied n r (coefsApplied n r s)).wr (P.LINE_STATUS.mdix.port n) (bitNat r.mdix)).wr (P.LINE_STATUS.pol_inv.port n) r.polInv.toNat := by
  simp only [applyPhase, State.wrs, List.foldl_cons, List.foldl_nil]
  rfl

/-- The registers a phase writes. -/
def phaseWords (n : Nat) : List Nat :=
  portAddr n P.LINE_STATUS :: (List.range 4).map (fun p => CAL.PAIR_CAL.pga.addr + CAL.PAIR_CAL.pga.stride * (4 * n + p))

theorem Changes.foldl {α : Type} {words : List Nat} {parts : List Part} {f : State → α → State} (l : List α) (s : State)
    (h : ∀ s, ∀ x ∈ l, Changes words parts s (f s x)) : Changes words parts s (l.foldl f s) := by
  induction l generalizing s with
  | nil => exact changes_refl _ _ s
  | cons x t ih => exact (h s x List.mem_cons_self).trans (ih _ fun s y hy => h s y (List.mem_cons_of_mem _ hy))

section
variable (n : Nat) (r : PhaseResult) (s : State)

theorem coefsApplied_keeps : Keeps [.coefs] s (coefsApplied n r s) := by
  refine Keeps.foldl (fun t c => ?_) (.refl _ s)
  split
  · exact State.setCoef_keeps t _ _
  · exact .refl _ t

theorem applyPhase_changes : Changes (phaseWords n) [.coefs] s (applyPhase n r s) := by
  have coefs : Changes (phaseWords n) [.coefs] s (coefsApplied n r s) :=
    changes_parts ((coefsApplied_keeps n r s).within .regs rfl) ((coefsApplied_keeps n r s).within.mono rfl)
  have gains (t : State) : Changes (phaseWords n) [.coefs] t (gainsApplied n r t) :=
    Changes.foldl _ t fun t g _ => changes_wr t _ _
      (List.mem_cons_of_mem _ (List.mem_map.mpr ⟨g.1.val, List.mem_range.mpr g.1.isLt, rfl⟩))
  rw [applyPhase_eq]
  exact ((coefs.trans (gains _)).trans (changes_wr _ _ _ List.mem_cons_self)).trans (changes_wr _ _ _ List.mem_cons_self)

/-- A coefficient named once reads what the phase leaves. -/
theorem applyPhase_coef {e : Fin 4 × Nat × BitVec 18} (he : e ∈ r.coefs) (small : e.2.1 < 2512)
    (once : ∀ e' ∈ r.coefs, e'.1 = e.1 → e'.2.1 = e.2.1 → e' = e) : (applyPhase n r s).coef (coefKey n e.1 e.2.1) = e.2.2 := by
  have later : (applyPhase n r s).coefs = (coefsApplied n r s).coefs := by
    have gains : Keeps [.regs] (coefsApplied n r s) (gainsApplied n r (coefsApplied n r s)) :=
      Keeps.foldl (fun t g => State.wr_keeps t _ _) (.refl _ _)
    rw [applyPhase_eq]
    rw [wr_coefs, wr_coefs]
    exact gains.within .coefs rfl
  have filtered : coefsApplied n r s = (r.coefs.filter (fun c => decide (c.2.1 < 2512))).foldl
      (fun s c => s.setCoef (coefKey n c.1.val c.2.1) c.2.2) s := by
    simp only [coefsApplied, List.foldl_filter, decide_eq_true_eq]
  rw [State.coef, later, filtered, ← State.coef]
  have listed : e ∈ r.coefs.filter (fun c => decide (c.2.1 < 2512)) := List.mem_filter.mpr ⟨he, decide_eq_true small⟩
  refine coef_foldl_eq (fun c => coefKey n c.1.val c.2.1) (fun c => c.2.2) _ s (fun c hc hk => ?_) (.inr ⟨e, listed, rfl⟩)
  obtain ⟨named, low⟩ := List.mem_filter.mp hc
  obtain ⟨pair, index⟩ := coefKey_inj (of_decide_eq_true low) small hk
  rw [once c named (Fin.ext pair) index]

theorem applyPhase_line : (applyPhase n r s).rd (P.LINE_STATUS.mdix.port n) = bitNat r.mdix ∧
    (applyPhase n r s).rd (P.LINE_STATUS.pol_inv.port n) = r.polInv.toNat := by
  rw [applyPhase_eq, rd_wr_port_apart (f := P.LINE_STATUS.pol_inv) (g := P.LINE_STATUS.mdix) _ _ _ rfl rfl, rd_wr_port_same _ _ _ rfl,
    rd_wr_port_same _ _ _ rfl]
  exact ⟨Nat.mod_eq_of_lt (by cases r.mdix <;> decide), Nat.mod_eq_of_lt r.polInv.isLt⟩

theorem applyPhase_link (m : Nat) : (applyPhase n r s).link m = s.link m := (applyPhase_keeps n r s).within.link rfl m

end

/-- A phase leaves AN_STATUS alone. -/
theorem applyPhase_fsm (n : Fin 32) (r : PhaseResult) (s : State) : (applyPhase n r s).fsm n = s.fsm n := by
  have := n.isLt
  refine (applyPhase_changes n r s).rd _ ?_ (recordArea_field n (f := P.AN_STATUS.state) rfl)
  simp only [phaseWords, List.mem_cons, List.mem_map, List.mem_range, not_or, not_exists, not_and, Field.port, P.AN_STATUS.state, portAddr,
    P.LINE_STATUS, CAL.PAIR_CAL.pga]
  exact ⟨by omega, fun p _ => by omega⟩

/-! ### The end of a phase (R87, R89) -/

/-- The line quality at the end of phase 4 (R76, R77). -/
def qualityShown (n : Nat) (r : PhaseResult) (s : State) : State :=
  writeQual n (r.margins.map (fun m => (m.1.val, max 0 (m.2 + refSnr (s.link n).mode (s.link n).rate), m.2))) (applyPhase n r s)

section
variable {n : Fin 32} {s : State} (r : PhaseResult)

/-- Phases 1 to 3 lead to the next. -/
theorem phaseEnd_next (mode : (s.link n).mode ≠ 2) (low : (s.link n).phase ≤ 3) :
    phaseEnd n r s = (applyPhase n r s).modLink n (fun l => { l with phase := (s.link n).phase + 1 }) := by
  unfold phaseEnd
  dsimp only
  rw [if_neg (show ¬(s.link n).mode = modeReach from mode)]
  split
  · omega
  · rw [if_pos (by omega)]

/-- Phase 4 fails the attempt where a pair is below 0 dB, else leads to phase 5. -/
theorem phaseEnd_four (mode : (s.link n).mode ≠ 2) (four : (s.link n).phase = 4) : phaseEnd n r s =
    if r.margins.any (fun m => decide (m.2 < 0)) then failTraining n 3 (qualityShown n r s)
    else startFrames n ((qualityShown n r s).modLink n (fun l => { l with phase := 5 })) := by
  unfold phaseEnd
  dsimp only
  rw [if_neg (show ¬(s.link n).mode = modeReach from mode)]
  split
  · rfl
  · contradiction

/-- The fields that say a line's quality. -/
def qualFields : List Field :=
  [wholeReg P.PAIR_QUAL, wholeReg (P.PAIR_QUAL + 4), wholeReg (P.PAIR_QUAL + 8), wholeReg (P.PAIR_QUAL + 12), wholeReg P.PORT_QUAL]

theorem writeQual_touches (snrs : List (Nat × Int × Int)) (s : State) : Touches n qualFields s (writeQual n snrs s) := by
  have pair (t : State) (p : Nat) (hp : p < 4) (w : Word) : Touches n qualFields t (t.setWord (portAddr n P.PAIR_QUAL + 4 * p) w) := by
    have place : portAddr n P.PAIR_QUAL + 4 * p = portAddr n (P.PAIR_QUAL + 4 * p) := by simp only [portAddr]; omega
    rw [place]
    refine setWord_touches t w ?_ ?_
    · interval_cases p <;> rfl
    · interval_cases p <;> rfl
  have pairs : Touches n qualFields s ((List.range 4).foldl (fun s p =>
      match snrs.find? (fun e => e.1 == p) with
      | some (_, snr, m) => s.setWord (portAddr n P.PAIR_QUAL + 4 * p)
          (BitVec.ofNat 32 (nat16 (clampInt (-32767) 32767 m) * 65536 + (min snr 65535).toNat))
      | none => s.setWord (portAddr n P.PAIR_QUAL + 4 * p) 0x80000000) s) := by
    refine Touches.foldl _ s fun t p hp => ?_
    split
    · exact pair t p (List.mem_range.mp hp) _
    · exact pair t p (List.mem_range.mp hp) _
  unfold writeQual
  extract_lets t worst
  have written : Touches n qualFields s t := pairs
  clear_value worst
  cases worst with
  | none => exact written.trans (setWord_touches t _ rfl rfl)
  | some w => exact written.trans (setWord_touches t _ rfl rfl)

theorem qualityShown_fsm : (qualityShown n r s).fsm n = s.fsm n :=
  ((writeQual_touches _ _).read P.AN_STATUS.state rfl rfl).trans (applyPhase_fsm n r s)

theorem qualityShown_link : (qualityShown n r s).link n = s.link n :=
  ((writeQual_keeps n _ _).within.link rfl n).trans (applyPhase_link n r s n)

theorem qualityShown_canonical (h : s.Canonical) : (qualityShown n r s).Canonical :=
  (writeQual_keeps n _ _).canonical ((applyPhase_keeps n r s).canonical h)

end

end Sys2Proof.Machine
end

section
/-! SUPPORT. Training attempts that fail, downshifts, and links that come up (R89 to R92, R101, R165). -/

namespace Sys2Proof.Machine

section
variable {n : Fin 32} {fs : List Field} {s : State}

/-! ### Hardware updates of a port's configuration (R40) -/

/-- What a hardware update of a configuration field touches: the field in both banks, and BANK_STATUS. -/
def updateFields (f : Field) : List Field := [wholeReg f.addr, wholeReg (f.addr + 0x8000), wholeReg P.BANK_STATUS]

theorem hwSet_touches {f : Field} (h : ShadowField n (f.port n)) (low : 0x100000 ≤ f.addr) (high : f.addr < 0x108000) (v : Nat) :
    Touches n (updateFields f) s (hwSet (f.port n) v s) where
  only := by
    have shadow : linkArea n (f.port n).addr = true := linkArea_port n (a := f.addr) low (by omega)
    have active : linkArea n ((f.port n).addr + 0x8000) = true := by
      have place : (f.port n).addr + 0x8000 = portAddr n (f.addr + 0x8000) := by simp only [Field.port, portAddr]; omega
      rw [place]
      exact linkArea_port n (by omega) (by omega)
    refine ((hwSet_changes v s h).onPort n rfl rfl).only fun a ha => ?_
    simp only [List.mem_cons, List.not_mem_nil, or_false] at ha
    rcases ha with rfl | rfl | rfl | rfl
    · exact shadow
    · exact active
    · exact linkArea_port n (by decide) (by decide)
    · simp [linkArea]
  read := fun g hg apart => by
    obtain ⟨glow, ghigh, width, fits⟩ := Field.inPort_iff.mp hg
    have other (a : Nat) (ha : wholeReg a ∈ updateFields f) : g.addr ≠ a := fun e => by
      rcases Field.apart_iff.mp (List.all_eq_true.mp apart _ ha) with k | k | k <;> simp only [wholeReg] at k <;> omega
    have h1 := other f.addr (by simp [updateFields])
    have h2 := other (f.addr + 0x8000) (by simp [updateFields])
    have h3 := other P.BANK_STATUS (by simp [updateFields])
    refine (hwSet_changes v s h).rd (g.port n) (fun ha => ?_) (recordArea_field n hg)
    simp only [List.mem_cons, List.not_mem_nil, or_false, Field.port, portAddr, P.BANK_STATUS, CHIP.CLAMP_STATUS] at ha h3
    omega

/-- An update of AN_ADV. -/
theorem advSet_touches {f : Field} (ha : f.addr = P.AN_ADV) (hf : f.lsb + f.width ≤ 32) (v : Nat) (s : State) :
    Touches n (updateFields P.AN_ADV.base_t) s (hwSet (f.port n) v s) := by
  have touched := hwSet_touches (s := s) (shadowField_adv n ha hf) (by rw [ha]; decide) (by rw [ha]; decide) v
  have same : updateFields f = updateFields P.AN_ADV.base_t := by rw [updateFields, ha]; rfl
  rwa [same] at touched

/-! ### Downshift (R91, R92, R165) -/

/-- The fields of AN_STATUS a downshift writes, and those of the advertisement. -/
def downshiftFields : List Field :=
  [P.AN_STATUS.adv_saved, P.AN_STATUS.downshifted, P.AN_STATUS.tries] ++ updateFields P.AN_ADV.base_t

theorem saveAdv_touches : Touches n [P.AN_STATUS.adv_saved, P.AN_STATUS.downshifted] s (saveAdv n s) := by
  unfold saveAdv
  split
  · exact .refl n _ s
  · simp only [State.wrs, List.foldl_cons, List.foldl_nil]
    exact (wr_touches s (f := P.AN_STATUS.adv_saved) _ rfl rfl).trans (wr_touches _ (f := P.AN_STATUS.downshifted) _ rfl rfl)

theorem saveAdv_downshifted : (saveAdv n s).rd (P.AN_STATUS.downshifted.port n) = 1 := by
  unfold saveAdv
  split
  · next saved =>
    have one : s.rd (P.AN_STATUS.downshifted.port n) < 2 ^ 1 := bitsOf_lt _ _ _
    have some : s.rd (P.AN_STATUS.downshifted.port n) ≠ 0 := of_decide_eq_true saved
    omega
  · simp only [State.wrs, List.foldl_cons, List.foldl_nil]
    exact rd_wr_port_same _ _ _ rfl

/-- The advertisement saved, and the tries begun anew. -/
def downshiftBegun (n : Nat) (s : State) : State := (saveAdv n s).wr (P.AN_STATUS.tries.port n) 0

theorem downshiftBegun_touches : Touches n downshiftFields s (downshiftBegun n s) :=
  (saveAdv_touches.mono rfl).trans (wr_touches _ (f := P.AN_STATUS.tries) 0 rfl rfl)

theorem downshiftBegun_shown : (downshiftBegun n s).rd (P.AN_STATUS.tries.port n) = 0 ∧
    (downshiftBegun n s).rd (P.AN_STATUS.downshifted.port n) = 1 :=
  ⟨rd_wr_port_same _ _ _ rfl, (rd_wr_port_apart (f := P.AN_STATUS.tries) _ _ _ rfl rfl).trans saveAdv_downshifted⟩

/-- The state a port enters whose advertisement has nothing left of the mode that failed (R91, R165). -/
def holdState (n : Nat) (s : State) : Nat := if s.pact n P.AN_CFG.peer_fallback != 0 then fsmBreak else fsmHoldDown

theorem holdState_cases : holdState n s = fsmBreak ∨ holdState n s = fsmHoldDown := by
  unfold holdState
  split
  · exact .inl rfl
  · exact .inr rfl

/-- A downshift from Reach takes Reach off the advertisement. -/
theorem downshift_reach (mode : (s.link n).mode = 2) :
    downshift n s = (hwSet (P.AN_ADV.reach.port n) 0 (downshiftBegun n s), holdState n s) := by
  unfold downshift
  dsimp only
  rw [if_pos (show (s.link n).mode = modeReach from mode)]
  rfl

/-- A downshift from a BASE-T rate that is not the lowest takes the rate off the advertisement. -/
theorem downshift_baseT {lower : Nat} (mode : (s.link n).mode = 0) (high : (s.link n).rate < 5) (below : lower < (s.link n).rate)
    (offered : (s.pact n P.AN_ADV.base_t).testBit lower = true) : downshift n s =
      (hwSet (P.AN_ADV.base_t.port n) (s.pact n P.AN_ADV.base_t &&& (31 - 2 ^ (s.link n).rate)) (downshiftBegun n s), fsmBreak) := by
  have lowest : (s.link n).rate ≠ ((List.range 5).find? (fun r => (s.pact n P.AN_ADV.base_t).testBit r)).getD 0 := by
    cases h : (List.range 5).find? (fun r => (s.pact n P.AN_ADV.base_t).testBit r) with
    | none => exact absurd offered (by simpa using List.find?_eq_none.mp h lower (List.mem_range.mpr (by omega)))
    | some r =>
      obtain ⟨-, -, first⟩ := List.find?_range_eq_some.mp h
      rintro rfl
      simp only [Bool.not_eq_true'] at first
      exact Bool.false_ne_true ((first lower below).symm.trans offered)
  unfold downshift
  dsimp only
  rw [if_neg (show ¬(s.link n).mode = modeReach by rw [mode]; decide), if_neg (show ¬(s.link n).mode = modePeer by rw [mode]; decide),
    if_neg lowest]
  rfl

theorem downshift_touches : Touches n downshiftFields s (downshift n s).1 := by
  have update {f : Field} (ha : f.addr = P.AN_ADV) (hf : f.lsb + f.width ≤ 32) (v : Nat) :
      Touches n downshiftFields s (hwSet (f.port n) v (downshiftBegun n s)) :=
    downshiftBegun_touches.trans ((advSet_touches ha hf v _).mono rfl)
  unfold downshift
  extract_lets l hold t
  split
  · exact update (f := P.AN_ADV.reach) rfl (by decide) _
  · split
    · exact update (f := P.AN_ADV.peer) rfl (by decide) _
    · split
      · exact .refl n _ s
      · exact update (f := P.AN_ADV.base_t) rfl (by decide) _

theorem downshift_state : (downshift n s).2 = fsmBreak ∨ (downshift n s).2 = fsmHoldDown := by
  have hold := holdState_cases (n := n) (s := s)
  unfold downshift
  extract_lets l h t
  split
  · exact hold
  · split
    · dsimp only
      split
      · exact hold
      · exact .inl rfl
    · split
      · exact .inl rfl
      · exact .inl rfl

/-! ### A training attempt fails (R89, R91) -/

/-- The failure on record: its reason, one more failure and one more try. -/
def attemptFailed (n code : Nat) (s : State) : State :=
  ((lastFail n code s).addSat (P.AN_STATUS.fail_cnt.port n) 1).addSat (P.AN_STATUS.tries.port n) 1

/-- The downshift of a failed attempt, where it is due, and the state the port enters. -/
def downshiftDue (n : Nat) (s : State) : State × Nat :=
  if s.pact n P.AN_CFG.retry ≤ s.rd (P.AN_STATUS.tries.port n) && s.pact n P.AN_CFG.downshift_en != 0 then downshift n s else (s, fsmBreak)

/-- The port leaves training for state `st`, with its event. -/
def trainingLeft (n st : Nat) (s : State) : State := trainFailEvent n (refreshPool (enter n st (clearReach n s)))

theorem failTraining_eq (n code : Nat) (s : State) : failTraining n code s =
    trainingLeft n (downshiftDue n (attemptFailed n code s)).2 (downshiftDue n (attemptFailed n code s)).1 := rfl

/-- The fields a port writes that leaves training. -/
def leftFields : List Field := [wholeReg P.REACH_STATUS, wholeReg P.REACH_LOAD, ⟨P.LINE_STATUS, 18, 14, 0⟩] ++ enterFields

theorem trainingLeft_touches (hc : s.Canonical) (st : Nat) : Touches n leftFields s (trainingLeft n st s) := by
  have blocks : inPool (enter n st (clearReach n s)).pool.descs := ((enter_keeps n st _).canonical ((clearReach_keeps n s).canonical hc)).blocks
  exact ((((clearReach_touches s).mono rfl).trans ((enter_touches st _).mono rfl)).trans ((refreshPool_touches blocks).mono rfl)).trans
    (trainFailEvent_aside _).touches

theorem trainingLeft_fsm (hc : s.Canonical) {st : Nat} (hst : st = fsmBreak ∨ st = fsmHoldDown) : (trainingLeft n st s).fsm n = st := by
  have blocks : inPool (enter n st (clearReach n s)).pool.descs := ((enter_keeps n st _).canonical ((clearReach_keeps n s).canonical hc)).blocks
  have after : Touches n poolFields (enter n st (clearReach n s)) (trainingLeft n st s) :=
    (refreshPool_touches blocks).trans (trainFailEvent_aside _).touches
  have other : st ≠ fsmAbility ∧ st < 16 := by rcases hst with rfl | rfl <;> decide
  exact (after.read P.AN_STATUS.state rfl rfl).trans (enter_fsm _ other.1 other.2)

theorem attemptFailed_touches (code : Nat) :
    Touches n [P.AN_STATUS.last_fail, P.AN_STATUS.fail_cnt, P.AN_STATUS.tries] s (attemptFailed n code s) :=
  ((wr_touches s (f := P.AN_STATUS.last_fail) code rfl rfl).trans (wr_touches _ (f := P.AN_STATUS.fail_cnt) _ rfl rfl)).trans
    (wr_touches _ (f := P.AN_STATUS.tries) _ rfl rfl)

/-- What a failed attempt shows. -/
theorem attemptFailed_shown {code : Nat} (small : code < 16) :
    (attemptFailed n code s).rd (P.AN_STATUS.last_fail.port n) = code ∧
    (attemptFailed n code s).rd (P.AN_STATUS.fail_cnt.port n) = min 255 (s.rd (P.AN_STATUS.fail_cnt.port n) + 1) ∧
    (attemptFailed n code s).rd (P.AN_STATUS.tries.port n) = min 7 (s.rd (P.AN_STATUS.tries.port n) + 1) := by
  have recorded : Touches n [P.AN_STATUS.last_fail] s (lastFail n code s) := wr_touches s code rfl rfl
  have counted (t : State) : Touches n [P.AN_STATUS.fail_cnt] t (t.addSat (P.AN_STATUS.fail_cnt.port n) 1) := wr_touches t _ rfl rfl
  have tried (t : State) : Touches n [P.AN_STATUS.tries] t (t.addSat (P.AN_STATUS.tries.port n) 1) := wr_touches t _ rfl rfl
  refine ⟨?_, ?_, ?_⟩
  · exact (((tried _).read P.AN_STATUS.last_fail rfl rfl).trans ((counted _).read P.AN_STATUS.last_fail rfl rfl)).trans
      ((rd_wr_port_same _ _ _ rfl).trans (Nat.mod_eq_of_lt small))
  · rw [attemptFailed, (tried _).read P.AN_STATUS.fail_cnt rfl rfl, rd_addSat_same _ _ _ (show 24 + 8 ≤ 32 by decide),
      recorded.read P.AN_STATUS.fail_cnt rfl rfl]
    rfl
  · rw [attemptFailed, rd_addSat_same _ _ _ (show 8 + 3 ≤ 32 by decide), (counted _).read P.AN_STATUS.tries rfl rfl,
      recorded.read P.AN_STATUS.tries rfl rfl]
    rfl

theorem downshiftDue_touches : Touches n downshiftFields s (downshiftDue n s).1 := by
  unfold downshiftDue
  split
  · exact downshift_touches
  · exact .refl n _ s

theorem downshiftDue_state : (downshiftDue n s).2 = fsmBreak ∨ (downshiftDue n s).2 = fsmHoldDown := by
  unfold downshiftDue
  split
  · exact downshift_state
  · exact .inl rfl

theorem downshiftDue_canonical (h : s.Canonical) : (downshiftDue n s).1.Canonical := by
  unfold downshiftDue
  split
  · exact (downshift_keeps n s).canonical h
  · exact h

/-- A training attempt that failed with last_fail `code`: one more failure, event 6n + 1, and TRAIN left for BREAK or HOLD_DOWN (R89, R91). -/
structure AttemptFailed (n : Fin 32) (code : Nat) (s u : State) : Prop where
  only : PortOnly n s u
  why : u.rd (P.AN_STATUS.last_fail.port n) = code
  raised : u.pend (6 * n + 1) = true
  counted : u.rd (P.AN_STATUS.fail_cnt.port n) = min 255 (s.rd (P.AN_STATUS.fail_cnt.port n) + 1)
  left : u.fsm n = fsmBreak ∨ u.fsm n = fsmHoldDown

theorem attemptFailed_canonical (hc : s.Canonical) (code : Nat) : (attemptFailed n code s).Canonical :=
  (State.addSat_keeps _ _ _).canonical ((State.addSat_keeps _ _ _).canonical ((lastFail_keeps n code s).canonical hc))

theorem failTraining_failed (hc : s.Canonical) {code : Nat} (small : code < 16) : AttemptFailed n code s (failTraining n code s) := by
  obtain ⟨why, counted, -⟩ := attemptFailed_shown (n := n) (s := s) small
  have due := downshiftDue_canonical (n := n) (attemptFailed_canonical (n := n) hc code)
  have shifted := downshiftDue_touches (n := n) (s := attemptFailed n code s)
  have left := trainingLeft_touches (n := n) due (downshiftDue n (attemptFailed n code s)).2
  rw [failTraining_eq]
  refine ⟨((attemptFailed_touches code).only.trans shifted.only).trans left.only, ?_, trainFailEvent_pend _, ?_, ?_⟩
  · exact ((left.read P.AN_STATUS.last_fail rfl rfl).trans (shifted.read P.AN_STATUS.last_fail rfl rfl)).trans why
  · exact ((left.read P.AN_STATUS.fail_cnt rfl rfl).trans (shifted.read P.AN_STATUS.fail_cnt rfl rfl)).trans counted
  · rw [trainingLeft_fsm due downshiftDue_state]
    exact downshiftDue_state

theorem attemptFailed_link (code : Nat) : (attemptFailed n code s).link n = s.link n :=
  (((State.addSat_keeps _ _ _).within.link rfl n).trans ((State.addSat_keeps _ _ _).within.link rfl n)).trans (wr_link _ _ _ n)

/-- The limit of tries and the downshift's enable are read where the attempt's failure is on record. -/
theorem downshiftDue_attemptFailed {code : Nat} (small : code < 16) : downshiftDue n (attemptFailed n code s) =
    if s.pact n P.AN_CFG.retry ≤ min 7 (s.rd (P.AN_STATUS.tries.port n) + 1) && s.pact n P.AN_CFG.downshift_en != 0 then
      downshift n (attemptFailed n code s) else (attemptFailed n code s, fsmBreak) := by
  have failed := attemptFailed_touches (n := n) (s := s) code
  have retry : (attemptFailed n code s).pact n P.AN_CFG.retry = s.pact n P.AN_CFG.retry := failed.pact rfl rfl
  have enable : (attemptFailed n code s).pact n P.AN_CFG.downshift_en = s.pact n P.AN_CFG.downshift_en := failed.pact rfl rfl
  rw [downshiftDue, retry, enable, (attemptFailed_shown small).2.2]

section
variable (hc : s.Canonical)
include hc

/-- An attempt after which no downshift is due: BREAK, with one more try (R91). -/
theorem failTraining_retries {code : Nat} (small : code < 16) (few : min 7 (s.rd (P.AN_STATUS.tries.port n) + 1) < s.pact n P.AN_CFG.retry ∨
      s.pact n P.AN_CFG.downshift_en = 0) : (failTraining n code s).fsm n = 1 ∧
    (failTraining n code s).rd (P.AN_STATUS.tries.port n) = min 7 (s.rd (P.AN_STATUS.tries.port n) + 1) := by
  obtain ⟨-, -, tried⟩ := attemptFailed_shown (n := n) (s := s) small
  have stays : downshiftDue n (attemptFailed n code s) = (attemptFailed n code s, fsmBreak) := by
    rw [downshiftDue_attemptFailed small, if_neg]
    rcases few with few | off
    · simp; omega
    · simp [off]
  have canonical := attemptFailed_canonical (n := n) hc code
  rw [failTraining_eq, stays]
  exact ⟨trainingLeft_fsm canonical (.inl rfl), ((trainingLeft_touches canonical _).read P.AN_STATUS.tries rfl rfl).trans tried⟩

/-- An attempt after which a downshift is due takes what has failed off the advertisement, in both banks (R91, R92). -/
theorem failTraining_shifts {code : Nat} (small : code < 16) (many : s.pact n P.AN_CFG.retry ≤ min 7 (s.rd (P.AN_STATUS.tries.port n) + 1))
    (on : s.pact n P.AN_CFG.downshift_en ≠ 0) {f : Field} (ha : f.addr = P.AN_ADV) (width : 0 < f.width) (hf : f.lsb + f.width ≤ 32)
    {v st : Nat} (hst : st = fsmBreak ∨ st = fsmHoldDown)
    (shift : downshift n (attemptFailed n code s) = (hwSet (f.port n) v (downshiftBegun n (attemptFailed n code s)), st)) :
    (failTraining n code s).fsm n = st ∧ (failTraining n code s).rd (P.AN_STATUS.tries.port n) = 0 ∧
    (failTraining n code s).rd (P.AN_STATUS.downshifted.port n) = 1 ∧
    (failTraining n code s).pact n f = v % 2 ^ f.width ∧ (failTraining n code s).rd (f.port n) = v % 2 ^ f.width := by
  have due : downshiftDue n (attemptFailed n code s) = downshift n (attemptFailed n code s) := by
    rw [downshiftDue_attemptFailed small, if_pos (by simp [many, on])]
  obtain ⟨none, down⟩ := downshiftBegun_shown (n := n) (s := attemptFailed n code s)
  obtain ⟨shadow, active⟩ := hwSet_same v (downshiftBegun n (attemptFailed n code s)) (shadowField_adv n ha hf)
  have update := advSet_touches (n := n) ha hf v (downshiftBegun n (attemptFailed n code s))
  have canonical := downshiftDue_canonical (n := n) (attemptFailed_canonical (n := n) hc code)
  rw [due, shift] at canonical
  have left := trainingLeft_touches (n := n) canonical st
  have apart (a : Nat) (h : a = P.AN_ADV ∨ a = P.AN_ADV + 0x8000) : leftFields.all (·.apart ⟨a, f.lsb, f.width, 0⟩) = true := by
    have other : leftFields.all (fun g => decide (g.addr ≠ P.AN_ADV) && decide (g.addr ≠ P.AN_ADV + 0x8000)) = true := by decide
    refine List.all_eq_true.mpr fun g hg => Field.apart_iff.mpr (.inl ?_)
    have away := List.all_eq_true.mp other g hg
    simp only [Bool.and_eq_true, decide_eq_true_eq] at away
    rcases h with rfl | rfl
    · exact away.1
    · exact away.2
  have place : f.inPort = true ∧ f.active.inPort = true := by
    simp only [Field.inPort_iff, Field.active, ha, P.AN_ADV]; omega
  rw [failTraining_eq, due, shift]
  refine ⟨trainingLeft_fsm canonical hst, ?_, ?_, ?_, ?_⟩
  · exact ((left.read P.AN_STATUS.tries rfl rfl).trans (update.read P.AN_STATUS.tries rfl rfl)).trans none
  · exact ((left.read P.AN_STATUS.downshifted rfl rfl).trans (update.read P.AN_STATUS.downshifted rfl rfl)).trans down
  · refine Eq.trans ?_ active
    rw [left.pact place.2 (by simpa [Field.apart, Field.active, ha] using apart (P.AN_ADV + 0x8000) (.inr rfl))]
    rfl
  · exact (left.read f place.1 (by simpa [Field.apart, ha] using apart P.AN_ADV (.inl rfl))).trans shadow

end

end

end Sys2Proof.Machine
end

section
/-! SUPPORT. Training ends: links that come up, partners that are lost (R87, R89, R99, R101). -/

namespace Sys2Proof.Machine

section
variable {n : Fin 32} {s : State}

/-! ### A link comes up (R87, R101) -/

/-- What a port shows whose receiver has reported OK. -/
def upShown (n : Nat) (s : State) : State :=
  ((((s.wr (P.AN_STATUS.state.port n) fsmData).wr (P.AN_STATUS.tries.port n) 0).wr (P.LINE_STATUS.link_up.port n) 1).wr
    (P.LINE_STATUS.mode_now.port n) (s.link n).mode).wr (P.LINE_STATUS.rate_now.port n) (s.link n).rate

/-- The phase Reach shows in data mode (R164). -/
def reachUp (n mode : Nat) (s : State) : State := if mode = modeReach then s.wr (P.REACH_STATUS.phase.port n) 7 else s

/-- The link's record at the begin of data mode. -/
def dataBegun (lineCfg adv : Word) (l : Link) : Link :=
  { l with phase := 0, training := false, lowRun := 0, retrains := [], lastLineCfg := lineCfg, lastAdv := adv }

/-- A link that has come up, before the pool follows it and its event is raised. -/
def upBegun (n : Nat) (s : State) : State :=
  let t := reachUp n (s.link n).mode (upShown n s)
  t.modLink n (dataBegun (t.word (portAddr n P.LINE_CFG + 0x8000)) (t.word (portAddr n P.AN_ADV + 0x8000)))

theorem linkUp_eq (n : Nat) (s : State) : linkUp n s = linkEvent n (refreshPool (upBegun n s)) := by
  simp only [linkUp, State.wrs, List.foldl_cons, List.foldl_nil, decide_eq_true_eq]
  rfl

/-- The fields a link that comes up shows. -/
def upFields : List Field := [P.AN_STATUS.state, P.AN_STATUS.tries, P.LINE_STATUS.link_up, P.LINE_STATUS.mode_now, P.LINE_STATUS.rate_now]

theorem upShown_touches : Touches n upFields s (upShown n s) :=
  ((((wr_touches s (f := P.AN_STATUS.state) _ rfl rfl).trans (wr_touches _ (f := P.AN_STATUS.tries) _ rfl rfl)).trans
    (wr_touches _ (f := P.LINE_STATUS.link_up) _ rfl rfl)).trans (wr_touches _ (f := P.LINE_STATUS.mode_now) _ rfl rfl)).trans
    (wr_touches _ (f := P.LINE_STATUS.rate_now) _ rfl rfl)

theorem upBegun_keeps (n : Nat) (s : State) : Keeps [.regs, .links] s (upBegun n s) := by
  have shown : Keeps [.regs, .links] s (upShown n s) :=
    (((((State.wr_keeps s _ _).trans (State.wr_keeps _ _ _)).trans (State.wr_keeps _ _ _)).trans (State.wr_keeps _ _ _)).trans
      (State.wr_keeps _ _ _)).mono rfl
  have reach : Keeps [.regs, .links] (upShown n s) (reachUp n (s.link n).mode (upShown n s)) := by
    unfold reachUp
    split
    · exact (State.wr_keeps _ _ _).mono rfl
    · exact .refl _ _
  exact (shown.trans reach).trans ((State.modLink_keeps _ n _).mono rfl)

theorem reachUp_touches (mode : Nat) : Touches n poolFields s (reachUp n mode s) := by
  unfold reachUp
  split
  · exact wr_touches s (f := P.REACH_STATUS.phase) 7 rfl rfl
  · exact .refl n _ s

/-- What follows the fields shown touches the Reach phase and the pool's fields only. -/
theorem linkUp_after (hc : s.Canonical) : Touches n poolFields (upShown n s) (linkUp n s) := by
  have begun : Touches n poolFields (upShown n s) (upBegun n s) := (reachUp_touches _).trans (modLink_touches _ _)
  rw [linkUp_eq]
  exact (begun.trans (refreshPool_touches ((upBegun_keeps n s).canonical hc).blocks)).trans (linkEvent_aside n.isLt _).touches

theorem linkUp_only (hc : s.Canonical) : PortOnly n s (linkUp n s) := upShown_touches.only.trans (linkUp_after hc).only

/-- What the port of a link that has come up reads. -/
theorem linkUp_shown (hc : s.Canonical) : (linkUp n s).fsm n = 6 ∧ (linkUp n s).rd (P.LINE_STATUS.link_up.port n) = 1 ∧
    (linkUp n s).modeNow n = (s.link n).mode % 8 ∧ (linkUp n s).rateNow n = (s.link n).rate % 8 ∧
    (linkUp n s).rd (P.AN_STATUS.tries.port n) = 0 := by
  have after := linkUp_after (n := n) hc
  have later {t : State} {f g : Field} (v : Nat) (hf : f.inPort = true) (hg : f.apart g = true) :
      (t.wr (f.port n) v).rd (g.port n) = t.rd (g.port n) := rd_wr_port_apart t n v hf hg
  refine ⟨?_, ?_, ?_, ?_, ?_⟩
  · rw [State.fsm, after.read P.AN_STATUS.state rfl rfl, upShown, later _ rfl rfl, later _ rfl rfl, later _ rfl rfl, later _ rfl rfl,
      rd_wr_port_same _ _ _ rfl]
    rfl
  · rw [after.read P.LINE_STATUS.link_up rfl rfl, upShown, later _ rfl rfl, later _ rfl rfl, rd_wr_port_same _ _ _ rfl]
    rfl
  · rw [State.modeNow, after.read P.LINE_STATUS.mode_now rfl rfl, upShown, later _ rfl rfl, rd_wr_port_same _ _ _ rfl]
    rfl
  · rw [State.rateNow, after.read P.LINE_STATUS.rate_now rfl rfl, upShown, rd_wr_port_same _ _ _ rfl]
    rfl
  · rw [after.read P.AN_STATUS.tries rfl rfl, upShown, later _ rfl rfl, later _ rfl rfl, later _ rfl rfl, rd_wr_port_same _ _ _ rfl]
    rfl

theorem linkUp_pend (n : Fin 32) (s : State) : (linkUp n s).pend (6 * n) = true := by
  rw [linkUp_eq]
  exact linkEvent_pend n.isLt _

/-! ### A partner lost in training (R89, R99) -/

/-- A partner lost in training, before the link goes down: the reason, one more failure, no coefficients. -/
def lossNoted (n : Nat) (s : State) : State := ((lastFail n 1 s).addSat (P.AN_STATUS.fail_cnt.port n) 1).clearCoefs n

theorem lossNoted_touches : Touches n [P.AN_STATUS.last_fail, P.AN_STATUS.fail_cnt] s (lossNoted n s) :=
  ((wr_touches s (f := P.AN_STATUS.last_fail) 1 rfl rfl).trans (wr_touches _ (f := P.AN_STATUS.fail_cnt) _ rfl rfl)).trans
    ((State.clearCoefs_keeps _ n).touches rfl rfl rfl)

theorem clearCoefs_rd (s : State) (n : Nat) (f : Field) : (s.clearCoefs n).rd f = s.rd f := rfl

theorem lossNoted_why : (lossNoted n s).rd (P.AN_STATUS.last_fail.port n) = 1 := by
  have counted : Touches n [P.AN_STATUS.fail_cnt] (lastFail n 1 s) ((lastFail n 1 s).addSat (P.AN_STATUS.fail_cnt.port n) 1) :=
    wr_touches _ _ rfl rfl
  rw [lossNoted, clearCoefs_rd, counted.read P.AN_STATUS.last_fail rfl rfl, lastFail, rd_wr_port_same _ _ _ rfl]
  rfl

theorem lossNoted_keeps (n : Nat) (s : State) : Keeps [.regs, .coefs] s (lossNoted n s) :=
  (((lastFail_keeps n 1 s).mono rfl).trans ((State.addSat_keeps _ _ _).mono rfl)).trans ((State.clearCoefs_keeps _ n).mono rfl)

/-- A port's reasons to stay in ABILITY do not read the fields touched. -/
theorem Touches.stays {fs : List Field} {t : State} (h : Touches n fs s t) (ha : fs.all (·.apart P.AN_CFG.an_fail_max.active) = true)
    (link : t.link n = s.link n) (k : s.staysInAbility n) : t.staysInAbility n := by
  rw [State.staysInAbility, link, h.pact (f := P.AN_CFG.an_fail_max) rfl ha]
  exact k

/-- A port that goes down has no coefficients where it had none. -/
theorem linkDown_coefs (n st : Nat) (s : State) : (linkDown n st s).coefs = s.coefs := (linkDown_keeps n st s).within .coefs rfl

/-- A port whose partner is lost in training has no coefficients. -/
theorem trainingLost_coef {k : Nat} (hk : k / 10048 = n) : (trainFailEvent n (linkDown n fsmAbility (lossNoted n s))).coef k = 0 := by
  have event := (trainFailEvent_aside (n := n) (linkDown n fsmAbility (lossNoted n s))).within .coefs rfl
  have cleared : (trainFailEvent n (linkDown n fsmAbility (lossNoted n s))).coefs = (lossNoted n s).coefs := event.trans (linkDown_coefs _ _ _)
  rw [State.coef, cleared, ← State.coef, lossNoted, coef_clearCoefs, if_pos hk]

end

section
variable {s : State} {n : Fin 32} (h : s.fsm n = 5)
include h

theorem exec_trainPhaseEnd (r : PhaseResult) (phase : (s.link n).phase ≠ 0) : exec (.trainPhaseEnd n r) s = .next (phaseEnd n r s) := by
  show execTrainPhaseEnd n r s = _
  rw [execTrainPhaseEnd, if_pos (by rw [h]; simpa [fsmTrain] using phase)]

theorem exec_receiverStatusOk (ready : s.readyForData n = true) : exec (.receiverStatusOk n) s = .next (linkUp n s) := by
  show execReceiverStatusOk n s = _
  rw [execReceiverStatusOk, if_pos (by rw [h, ready]; rfl)]

/-- Both time limits of training fail the attempt with last_fail 2 (R89, R165). -/
theorem exec_trainingTimeout {c : Instr} (hc : c = Instr.linkFailInhibitTimer n ∧ (s.link n).mode ≠ 2 ∨
    c = Instr.reachTrainingTimeout n ∧ (s.link n).mode = 2) : exec c s = .next (failTraining n 2 s) := by
  rcases hc with ⟨rfl, mode⟩ | ⟨rfl, mode⟩
  · show execLinkFailInhibitTimer n s = _
    rw [execLinkFailInhibitTimer, if_pos (by simp [h, fsmTrain, modeReach, mode])]
  · show execReachTrainingTimeout n s = _
    rw [execReachTrainingTimeout, if_pos (by rw [h, mode]; rfl)]

theorem exec_partnerLost_training : exec (.partnerLost n) s = .next (trainFailEvent n (linkDown n fsmAbility (lossNoted n s))) := by
  show execPartnerLost n s = _
  rw [execPartnerLost, if_pos (show s.fsm n = fsmTrain from h)]
  rfl

end

/-- Settles O18: each end of training by its own lemma, a failed attempt by whether a downshift is due. -/
theorem trainingAdvancesAndFails : Obligations.TrainingAdvancesAndFails := by
  unfold Obligations.TrainingAdvancesAndFails
  intro s n hc h l hl
  subst hl
  have untested : s.fsm n ≠ fsmCableTest := by rw [h]; decide
  refine ⟨fun r mode first low => ?next, fun r mode four bad => ?margin, fun r mode four good => ?frames, fun ready => ?up, fun c hcmd => ?fails,
    fun stays => ?lost⟩
  case next =>
    obtain ⟨mdix, polarity⟩ := applyPhase_line n r s
    refine ⟨_, exec_trainPhaseEnd h r (by omega), ?_⟩
    rw [phaseEnd_next r mode low]
    refine ⟨?_, ?_, mdix, polarity, fun e he small once => ?_, ?_⟩
    · rw [modLink_fsm, applyPhase_fsm, h]
    · rw [link_modLink, applyPhase_link]
    · exact applyPhase_coef n r s he small once
    · exact ((applyPhase_changes n r s).mono (List.Subset.refl _) rfl).trans (changes_parts rfl ((State.modLink_keeps _ n _).within.mono rfl))
  case margin =>
    have any : r.margins.any (fun m => decide (m.2 < 0)) = true := by simpa using bad
    have failed := failTraining_failed (n := n) (qualityShown_canonical (n := n) r hc) (code := 3) (by decide)
    refine ⟨_, exec_trainPhaseEnd h r (by omega), ?_⟩
    rw [phaseEnd_four r mode four, if_pos any]
    refine ⟨failed.why, failed.raised, ?_⟩
    rcases failed.left with left | left <;> rw [left] <;> decide
  case frames =>
    have none : ¬r.margins.any (fun m => decide (m.2 < 0)) = true := by simpa using good
    refine ⟨_, exec_trainPhaseEnd h r (by omega), ?_⟩
    rw [phaseEnd_four r mode four, if_neg none]
    refine ⟨?_, ?_, ?_⟩
    · exact ((modTrip_touches (fs := []) _ _).read P.AN_STATUS.state rfl rfl).trans ((modLink_fsm _ _ _ _).trans ((qualityShown_fsm r).trans h))
    · refine ((State.modTrip_keeps _ n _).within.link rfl n).trans ?_
      rw [link_modLink, qualityShown_link]
    · rw [startFrames, trip_modTrip]
      exact ⟨rfl, rfl⟩
  case up =>
    obtain ⟨state, shown, mode, rate, tries⟩ := linkUp_shown (n := n) hc
    exact ⟨_, exec_receiverStatusOk h ready, linkUp_only hc, state, shown, mode, rate, tries, linkUp_pend n s⟩
  case fails =>
    have failed := failTraining_failed (n := n) hc (code := 2) (by decide)
    have adv {f : Field} (hf : f.active.inPort = true) (ha : f.addr = P.AN_ADV ∨ f.addr = P.AN_CFG) :
        (attemptFailed n 2 s).pact n f = s.pact n f := by
      refine (attemptFailed_touches 2).pact hf (List.all_eq_true.mpr fun g hg => Field.apart_iff.mpr (.inl ?_))
      have place : g.addr = P.AN_STATUS := by
        simp only [List.mem_cons, List.not_mem_nil, or_false] at hg
        rcases hg with rfl | rfl | rfl <;> rfl
      rw [place]
      show _ ≠ f.addr + 0x8000
      rcases ha with ha | ha <;> rw [ha] <;> decide
    refine ⟨_, exec_trainingTimeout h hcmd, failed.only, failed.why, failed.raised, failed.counted, failTraining_retries hc (by decide),
      fun many on => ⟨fun lower mode high below offered => ?_, fun mode => ?_⟩⟩
    · have narrow : (s.pact n P.AN_ADV.base_t &&& (31 - 2 ^ (s.link n).rate)) % 2 ^ 5 = s.pact n P.AN_ADV.base_t &&& (31 - 2 ^ (s.link n).rate) :=
        Nat.mod_eq_of_lt (Nat.lt_of_le_of_lt Nat.and_le_left (bitsOf_lt _ _ _))
      have shift := downshift_baseT (n := n) (s := attemptFailed n 2 s) (lower := lower)
      rw [attemptFailed_link, adv (f := P.AN_ADV.base_t) rfl (.inl rfl)] at shift
      obtain ⟨state, tries, down, active, shadow⟩ := failTraining_shifts (f := P.AN_ADV.base_t) hc (by decide) many on rfl (by decide) (by decide)
        (.inl rfl) (shift mode high below offered)
      exact ⟨state, tries, down, active.trans narrow, shadow.trans narrow⟩
    · have shift := downshift_reach (n := n) (s := attemptFailed n 2 s)
      have hold : holdState n (attemptFailed n 2 s) = if s.pact n P.AN_CFG.peer_fallback ≠ 0 then 1 else 10 := by
        rw [holdState, adv (f := P.AN_CFG.peer_fallback) rfl (.inr rfl)]
        simp only [bne_iff_ne, fsmBreak, fsmHoldDown]
      rw [attemptFailed_link] at shift
      obtain ⟨state, -, -, active, shadow⟩ := failTraining_shifts (f := P.AN_ADV.reach) hc (by decide) many on rfl (by decide) (by decide)
        holdState_cases (shift mode)
      exact ⟨active, shadow, state.trans hold⟩
  case lost =>
    have noted := lossNoted_touches (n := n) (s := s)
    have keeps := lossNoted_keeps n s
    have plain : (lossNoted n s).fsm n ≠ fsmCableTest := by rwa [State.fsm, noted.read P.AN_STATUS.state rfl rfl]
    have down := linkDown_isDown (keeps.canonical hc) plain (.inr ⟨rfl, noted.stays rfl (keeps.within.link rfl n) stays⟩)
    have event := trainFailEvent_aside (n := n) (linkDown n fsmAbility (lossNoted n s))
    refine ⟨_, exec_partnerLost_training h, (noted.only.trans down.only).trans (event.portOnly n), ?_, ?_, trainFailEvent_pend _, fun k hk => ?_⟩
    · exact (event.touches.read (fs := []) P.AN_STATUS.state rfl rfl).trans down.state
    · exact ((event.touches.read (fs := []) P.AN_STATUS.last_fail rfl rfl).trans down.why).trans lossNoted_why
    · have index : (k / 10048).val = k.val / 10048 := (Nat.div_zero _).trans (Nat.div_eq_of_lt (by omega)).symm
      exact trainingLost_coef (index.symm.trans (congrArg Fin.val hk))

end Sys2Proof.Machine
end

section
/-! SUPPORT. Probes, and the begin and end of cable tests (R94 to R97, R230 to R239). -/

namespace Sys2Proof.Machine

section
variable {n : Fin 32} {s : State}

/-! ### Probes (R94 to R97) -/

/-- The request of a probe (R95, R206). -/
def probeMessage (n : Fin 32) : SsMsg := { mtype := 5, cls := 1, dest := 0, port := some n, body := [] }

/-- A message without a place in memory waits for the Sideshow link. -/
theorem sendMessage_eq {m : SsMsg} (h : m.place = none) (s : State) : sendMessage m s = s.withMessages (s.messages ++ [m]) := by
  rw [sendMessage, h]

theorem sendProbe_eq (n : Fin 32) (s : State) : sendProbe n s = s.withMessages (s.messages ++ [probeMessage n]) :=
  sendMessage_eq rfl s

theorem sendProbe_changes {words : List Nat} (n : Fin 32) (s : State) : Changes words [.links, .messages] s (sendProbe n s) := by
  rw [sendProbe_eq]
  exact changes_parts rfl ((State.withMessages_keeps s _).within.mono rfl)

theorem sendProbe_link (s : State) : (sendProbe n s).link n = s.link n := (sendProbe_keeps n s).within.link rfl n

theorem portStateCode_eq (s : State) (n : Nat) : BitVec.ofNat 8 (s.portStateCode n) =
    if s.fsm n = 0 then 2 else if s.fsm n = 11 then 5 else if s.fsm n = 5 then 3 else if s.fsm n = 6 ∨ s.fsm n = 7 then 4 else 1 := by
  have linked : (decide (s.fsm n = fsmData) || decide (s.fsm n = fsmFretrain)) = true ↔ s.fsm n = 6 ∨ s.fsm n = 7 := by
    rw [Bool.or_eq_true, decide_eq_true_eq, decide_eq_true_eq]
    rfl
  simp only [State.portStateCode, linked, apply_ite (BitVec.ofNat 8)]
  rfl

/-- The fields a probe's end shows. -/
def probeFields : List Field := [P.PROBE_STATUS.probe, P.PROBE_STATUS.partner_port]

/-- The end of a probe on record (R95). -/
def probeShown (n probe partner : Nat) (s : State) : State :=
  (s.wr (P.PROBE_STATUS.probe.port n) probe).wr (P.PROBE_STATUS.partner_port.port n) partner

/-- A port's own tests are a minute apart (R96). -/
def testRested (now : Nat) (l : Link) : Bool :=
  match l.lastTest with
  | some t => decide (60000000000 ≤ now - t)
  | none => true

/-- A probe that has ended starts a test where LINE_CFG asks for one after it, at most once a minute (R96, R230). -/
def testDue (n : Nat) (s : State) : Bool :=
  (s.link n).tests.isEmpty && s.pact n P.AN_CFG.auto_test != 0 && testRested s.now (s.link n)

/-- A test a port starts for itself (R96, R230). -/
def autoTested (n : Nat) (s : State) : State :=
  ((s.modLink n (fun l => { l with lastTest := some s.now, autoTest := true })).wr (P.AN_STATUS.state.port n) fsmCableTest).wr
    (P.MON_STATUS.test_busy.port n) 1

theorem probeEnd_eq (n probe partner : Nat) (s : State) : probeEnd n probe partner s =
    if testDue n (probeShown n probe partner s) then autoTested n (probeShown n probe partner s)
    else enter n fsmAbility (probeShown n probe partner s) := by
  simp only [probeEnd, State.wrs, List.foldl_cons, List.foldl_nil]
  rfl

theorem probeShown_touches (probe partner : Nat) : Touches n probeFields s (probeShown n probe partner s) :=
  (wr_touches s (f := P.PROBE_STATUS.probe) _ rfl rfl).trans (wr_touches _ (f := P.PROBE_STATUS.partner_port) _ rfl rfl)

theorem probeShown_read {probe partner : Nat} (hp : probe < 4) (hq : partner < 8) :
    (probeShown n probe partner s).rd (P.PROBE_STATUS.probe.port n) = probe ∧
    (probeShown n probe partner s).rd (P.PROBE_STATUS.partner_port.port n) = partner := by
  rw [probeShown, rd_wr_port_apart (f := P.PROBE_STATUS.partner_port) (g := P.PROBE_STATUS.probe) _ _ _ rfl rfl, rd_wr_port_same _ _ _ rfl,
    rd_wr_port_same _ _ _ rfl]
  exact ⟨Nat.mod_eq_of_lt hp, Nat.mod_eq_of_lt hq⟩

theorem probeShown_link (probe partner : Nat) : (probeShown n probe partner s).link n = s.link n :=
  (wr_link _ _ _ n).trans (wr_link _ _ _ n)

theorem autoTested_touches : Touches n enterFields s (autoTested n s) :=
  ((modLink_touches s _).trans (wr_touches _ (f := P.AN_STATUS.state) _ rfl rfl)).trans (wr_touches _ (f := P.MON_STATUS.test_busy) _ rfl rfl)

theorem autoTested_fsm : (autoTested n s).fsm n = 9 := by
  rw [State.fsm, autoTested, rd_wr_port_apart (f := P.MON_STATUS.test_busy) (g := P.AN_STATUS.state) _ _ _ rfl rfl, rd_wr_port_same _ _ _ rfl]
  rfl

theorem probeEnd_touches (probe partner : Nat) : Touches n enterFields (probeShown n probe partner s) (probeEnd n probe partner s) := by
  rw [probeEnd_eq]
  split
  · exact autoTested_touches
  · exact enter_touches _ _

/-- What a probe's end shows. -/
theorem probeEnd_shown {probe partner : Nat} (hp : probe < 4) (hq : partner < 8) : PortOnly n s (probeEnd n probe partner s) ∧
    (probeEnd n probe partner s).rd (P.PROBE_STATUS.probe.port n) = probe ∧
    (probeEnd n probe partner s).rd (P.PROBE_STATUS.partner_port.port n) = partner := by
  have ended := probeEnd_touches (n := n) (s := s) probe partner
  obtain ⟨shown, port⟩ := probeShown_read (n := n) (s := s) hp hq
  exact ⟨(probeShown_touches probe partner).only.trans ended.only, (ended.read P.PROBE_STATUS.probe rfl rfl).trans shown,
    (ended.read P.PROBE_STATUS.partner_port rfl rfl).trans port⟩

theorem testDue_probeShown (probe partner : Nat) : testDue n (probeShown n probe partner s) =
    ((s.link n).tests.isEmpty && s.pact n P.AN_CFG.auto_test != 0 && testRested (probeShown n probe partner s).now (s.link n)) := by
  have asked : (probeShown n probe partner s).pact n P.AN_CFG.auto_test = s.pact n P.AN_CFG.auto_test := (probeShown_touches probe partner).pact rfl rfl
  rw [testDue, probeShown_link, asked]

/-- A port without a test to run stays in ABILITY after a probe. -/
theorem probeEnd_stays (probe partner : Nat) (h : s.fsm n = 8) (stays : s.staysInAbility n) (none : s.pact n P.AN_CFG.auto_test = 0) :
    (probeEnd n probe partner s).fsm n = 2 := by
  have shown := probeShown_touches (n := n) (s := s) probe partner
  have plain : (probeShown n probe partner s).fsm n ≠ fsmCableTest := by
    rw [State.fsm, shown.read P.AN_STATUS.state rfl rfl]
    exact ne_of_eq_of_ne h (by decide)
  rw [probeEnd_eq, testDue_probeShown, if_neg (by simp [none])]
  exact enterAbility_stays plain (shown.stays rfl (probeShown_link _ _) stays)

/-- A port that asks for a test after a probe, and has run none, runs one. -/
theorem probeEnd_tests (probe partner : Nat) (idle : (s.link n).tests = []) (asked : s.pact n P.AN_CFG.auto_test ≠ 0)
    (first : (s.link n).lastTest = none) : (probeEnd n probe partner s).fsm n = 9 := by
  rw [probeEnd_eq, testDue_probeShown, if_pos (by simp [idle, asked, testRested, first])]
  exact autoTested_fsm

/-! ### The end of a cable test (R232 to R239) -/

/-- The pair results and what they say of the cable, in PROBE_STATUS. -/
def testShown (n : Nat) (results : List PairDiag) (stopped : Bool) (s : State) : State := worstWritten n results stopped (pairsWritten n results s)

/-- A test's results, counted. -/
def testCounted (n : Nat) (results : List PairDiag) (stopped : Bool) (s : State) : State :=
  (testShown n results stopped s).addWrap (P.MON_STATUS.diag_seq.port n) 1

theorem testWritten_eq (n : Nat) (results : List PairDiag) (stopped : Bool) (s : State) :
    testWritten n results stopped s = (testCounted n results stopped s).wr (P.MON_STATUS.test_busy.port n) 0 := rfl

theorem setWc_rd (s : State) (key v : Nat) (g : Field) : (s.setWc key v).rd g = s.rd g := rfl

/-- What a port writes after a test's results are counted. -/
def afterFields : List Field := [P.AN_STATUS.state, P.MON_STATUS.test_busy, wholeReg P.MON_CAUSE]

/-- A test asked for by the host ends: its results, and the test no longer waits. -/
theorem closeTest_host (results : List PairDiag) (stopped : Bool) (own : (s.link n).autoTest = false) (tests : (s.link n).tests = [none]) :
    closeTest n results stopped s = syncTestBit n ((writeTest n results stopped s).modLink n (fun l => { l with tests := l.tests.tail })) := by
  have link : (writeTest n results stopped s).link n = s.link n := (writeTest_keeps n results stopped s).within.link rfl n
  unfold closeTest
  dsimp only
  rw [link, own, if_neg (by decide), tests]
  rfl

/-- A test's end: its results, and the port leaves the state of tests for ABILITY. -/
def testEnded (n : Nat) (results : List PairDiag) (stopped : Bool) (s : State) : State :=
  enter n fsmAbility ((closeTest n results stopped s).wr (P.AN_STATUS.state.port n) fsmBreak)

section
variable (own : (s.link n).autoTest = false) (tests : (s.link n).tests = [none])
include own tests

/-- The last test ended: none waits. -/
theorem closeTest_link (results : List PairDiag) (stopped : Bool) :
    (closeTest n results stopped s).link n = { s.link n with tests := [] } := by
  have link : (writeTest n results stopped s).link n = s.link n := (writeTest_keeps n results stopped s).within.link rfl n
  rw [closeTest_host results stopped own tests]
  refine ((syncTestBit_keeps n _).within.link rfl n).trans ?_
  rw [link_modLink, link, tests]
  rfl

theorem closeTest_busy (results : List PairDiag) (stopped : Bool) :
    (closeTest n results stopped s).rd (P.MON_STATUS.test_busy.port n) = 0 := by
  have link : (writeTest n results stopped s).link n = s.link n := (writeTest_keeps n results stopped s).within.link rfl n
  rw [closeTest_host results stopped own tests, syncTestBit, setWc_rd, rd_wr_port_same _ _ _ rfl, link_modLink, link, own, tests]
  rfl

theorem closeTest_after (results : List PairDiag) (stopped : Bool) :
    Touches n afterFields (testCounted n results stopped s) (closeTest n results stopped s) := by
  have idle (t : State) : Touches n afterFields t (syncTestBit n t) :=
    (wr_touches t (f := P.MON_STATUS.test_busy) _ rfl rfl).trans (setWc_touches _ _ _)
  rw [closeTest_host results stopped own tests, writeTest_eq, testWritten_eq]
  exact (((wr_touches _ (f := P.MON_STATUS.test_busy) _ rfl rfl).trans ((testReported_touches results _).mono rfl)).trans
    (modLink_touches _ _)).trans (idle _)

/-- The last test's end leads to ABILITY where no failed exchanges start a probe. -/
theorem testEnded_eq (results : List PairDiag) (stopped : Bool) (few : (s.link n).exchFails < s.pact n P.AN_CFG.an_fail_max) :
    testEnded n results stopped s = (((closeTest n results stopped s).wr (P.AN_STATUS.state.port n) fsmBreak).modLink n phaseOver).wr
      (P.AN_STATUS.state.port n) fsmAbility := by
  have left : Touches n [P.AN_STATUS.state] (closeTest n results stopped s)
      ((closeTest n results stopped s).wr (P.AN_STATUS.state.port n) fsmBreak) := wr_touches _ _ rfl rfl
  have plain : ((closeTest n results stopped s).wr (P.AN_STATUS.state.port n) fsmBreak).fsm n ≠ fsmCableTest := by
    rw [State.fsm, rd_wr_port_same _ _ _ rfl]
    decide
  have limit : ((closeTest n results stopped s).wr (P.AN_STATUS.state.port n) fsmBreak).pact n P.AN_CFG.an_fail_max = s.pact n P.AN_CFG.an_fail_max :=
    (left.pact (f := P.AN_CFG.an_fail_max) rfl rfl).trans ((closeTest_touches results stopped s).pact rfl rfl)
  have link := closeTest_link own tests results stopped
  have stays : ((closeTest n results stopped s).wr (P.AN_STATUS.state.port n) fsmBreak).staysInAbility n := by
    rw [State.staysInAbility, wr_link, link, limit]
    exact ⟨rfl, own, few⟩
  exact enter_plain plain (.inr ⟨rfl, stays⟩)

end

/-! ### Events that stay raised -/

theorem pend_wr_port (s : State) {f : Field} (hf : f.inPort = true) (v e : Nat) (he : e < 256) : (s.wr (f.port n) v).pend e = s.pend e := by
  obtain ⟨low, -, -, -⟩ := Field.inPort_iff.mp hf
  have other : EVT.PEND + 4 * (e / 32) ≠ (f.port n).addr := by
    simp only [EVT.PEND, Field.port]
    omega
  rw [State.pend, State.arrayBit, word_wr_ne _ _ _ other, State.pend, State.arrayBit]

theorem testReported_pend (results : List PairDiag) (s : State) : (testReported n results s).pend (6 * n + 3) = true := by
  have event : 6 * n.val + 3 < 256 := by omega
  unfold testReported
  split
  · exact (alarm_rises _ _ _ _).pend event (setPend_pend _ event)
  · exact (trace_rises _ _ _ _).pend event (setPend_pend _ event)

/-! ### What a test shows (R234, R239) -/

theorem pairsWritten_word (results : List PairDiag) {p : Nat} (hp : p < 4) :
    (pairsWritten n results s).word (portAddr n P.DIAG_PAIR + 4 * p) = diagWord (results.getD p diagUnclassified) := by
  interval_cases p <;> simp [pairsWritten, List.range_succ, word_setWord]

/-- A pair result as PROBE's registers hold it (R239). -/
theorem diagWord_fields (d : PairDiag) : bitsOf (diagWord d) 29 3 = d.status.toNat ∧ bitsOf (diagWord d) 0 16 = d.distance.toNat ∧
    bitsOf (diagWord d) 26 2 = d.xpair ∧ bitsOf (diagWord d) 16 8 = d.gamma.toNat := by
  have status := d.status.isLt
  have distance := d.distance.isLt
  have xpair := d.xpair.isLt
  have gamma := d.gamma.isLt
  have more : bitNat d.more < 2 := by cases d.more <;> decide
  simp only [diagWord, bitsOf, BitVec.toNat_ofNat]
  omega

theorem worstWritten_stopped (results : List PairDiag) (s : State) :
    (worstWritten n results true s).rd (P.PROBE_STATUS.cable.port n) = 6 := by
  have written (p d : Nat) : (s.wrs [(P.PROBE_STATUS.cable.port n, if true then 6 else 0), (P.PROBE_STATUS.worst_pair.port n, p),
      (P.PROBE_STATUS.distance.port n, d)]).rd (P.PROBE_STATUS.cable.port n) = 6 := by
    simp only [State.wrs, List.foldl_cons, List.foldl_nil]
    rw [rd_wr_port_apart (f := P.PROBE_STATUS.distance) (g := P.PROBE_STATUS.cable) _ _ _ rfl rfl,
      rd_wr_port_apart (f := P.PROBE_STATUS.worst_pair) (g := P.PROBE_STATUS.cable) _ _ _ rfl rfl, rd_wr_port_same _ _ _ rfl]
    rfl
  unfold worstWritten
  split
  · exact written _ _
  · exact written _ _

theorem testCounted_touches (results : List PairDiag) (stopped : Bool) :
    Touches n [P.MON_STATUS.diag_seq] (testShown n results stopped s) (testCounted n results stopped s) := wr_touches _ _ rfl rfl

theorem testCounted_seq (results : List PairDiag) (stopped : Bool) : (testCounted n results stopped s).rd (P.MON_STATUS.diag_seq.port n) =
    (s.rd (P.MON_STATUS.diag_seq.port n) + 1) % 256 := by
  have same : (testShown n results stopped s).rd (P.MON_STATUS.diag_seq.port n) = s.rd (P.MON_STATUS.diag_seq.port n) :=
    ((worstWritten_touches results stopped _).read P.MON_STATUS.diag_seq rfl rfl).trans
      ((pairsWritten_touches results s).read P.MON_STATUS.diag_seq rfl rfl)
  rw [testCounted, rd_addWrap_same _ _ _ (show 12 + 8 ≤ 32 by decide), same]
  rfl

section
variable (own : (s.link n).autoTest = false) (tests : (s.link n).tests = [none]) (few : (s.link n).exchFails < s.pact n P.AN_CFG.an_fail_max)
include own tests few

theorem testEnded_closed (results : List PairDiag) (stopped : Bool) :
    Touches n [P.AN_STATUS.state] (closeTest n results stopped s) (testEnded n results stopped s) := by
  rw [testEnded_eq own tests results stopped few]
  exact ((wr_touches _ (f := P.AN_STATUS.state) _ rfl rfl).trans (modLink_touches _ _)).trans (wr_touches _ (f := P.AN_STATUS.state) _ rfl rfl)

theorem testEnded_counted (results : List PairDiag) (stopped : Bool) :
    Touches n afterFields (testCounted n results stopped s) (testEnded n results stopped s) :=
  (closeTest_after own tests results stopped).trans ((testEnded_closed own tests few results stopped).mono rfl)

/-- The end of the last test leads to ABILITY, with the test counted and reported. -/
theorem testEnded_ends (results : List PairDiag) (stopped : Bool) : PortOnly n s (testEnded n results stopped s) ∧
    (testEnded n results stopped s).fsm n = 2 ∧ (testEnded n results stopped s).pend (6 * n + 3) = true ∧
    (testEnded n results stopped s).rd (P.MON_STATUS.test_busy.port n) = 0 ∧
    (testEnded n results stopped s).rd (P.MON_STATUS.diag_seq.port n) = (s.rd (P.MON_STATUS.diag_seq.port n) + 1) % 256 := by
  have closed := testEnded_closed own tests few results stopped
  refine ⟨(closeTest_touches results stopped s).only.trans closed.only, ?_, ?_, ?_, ?_⟩
  · rw [testEnded_eq own tests results stopped few, State.fsm, rd_wr_port_same _ _ _ rfl]
    rfl
  · have event : 6 * n.val + 3 < 256 := by omega
    have linked (t : State) (f : Link → Link) (e : Nat) : (t.modLink n f).pend e = t.pend e := rfl
    have synced (t : State) : (syncTestBit n t).pend (6 * n + 3) = t.pend (6 * n + 3) :=
      pend_wr_port t (f := P.MON_STATUS.test_busy) rfl _ _ event
    rw [testEnded_eq own tests results stopped few, pend_wr_port _ rfl _ _ event, linked, pend_wr_port _ rfl _ _ event,
      closeTest_host results stopped own tests, synced, linked, writeTest_eq]
    exact testReported_pend results _
  · exact (closed.read P.MON_STATUS.test_busy rfl rfl).trans (closeTest_busy own tests results stopped)
  · exact ((testEnded_counted own tests few results stopped).read P.MON_STATUS.diag_seq rfl rfl).trans (testCounted_seq results stopped)

/-- A stopped test shows cable 6 (R232). -/
theorem testEnded_stopped (results : List PairDiag) : (testEnded n results true s).rd (P.PROBE_STATUS.cable.port n) = 6 :=
  (((testEnded_counted own tests few results true).read P.PROBE_STATUS.cable rfl rfl).trans
    ((testCounted_touches results true).read P.PROBE_STATUS.cable rfl rfl)).trans (worstWritten_stopped results _)

/-- Each pair's result reads back. -/
theorem testEnded_pair (results : List PairDiag) (stopped : Bool) {p : Nat} (hp : p < 4) :
    (testEnded n results stopped s).word (portAddr n P.DIAG_PAIR + 4 * p) = diagWord (results.getD p diagUnclassified) := by
  have place : (wholeReg (P.DIAG_PAIR + 4 * p)).inPort = true := by interval_cases p <;> rfl
  have after : afterFields.all (·.apart (wholeReg (P.DIAG_PAIR + 4 * p))) = true := by interval_cases p <;> rfl
  have counted : [P.MON_STATUS.diag_seq].all (·.apart (wholeReg (P.DIAG_PAIR + 4 * p))) = true := by interval_cases p <;> rfl
  have worst : cableFields.all (·.apart (wholeReg (P.DIAG_PAIR + 4 * p))) = true := by interval_cases p <;> rfl
  rw [← pairsWritten_word results hp (s := s) (n := n), pairAddr, (testEnded_counted own tests few results stopped).word place after,
    (testCounted_touches results stopped).word place counted]
  exact (worstWritten_touches results stopped _).word place worst

end

/-! ### PORT_CMD.cable_test (R230) -/

theorem wcLevel_setWc (s : State) (key v : Nat) : (s.setWc key v).wcLevel key = v := sget_sput_same _ _ _ _

/-- A command that a served host gives acts at once. -/
theorem hostCommand_served {a : Nat} (h : s.gate a false = .served) (f : State → State) : hostCommand a f s = f s := by
  rw [hostCommand, h]

theorem auditOperational_unsealed (h : s.sealed = false) (subject detail : Nat) : auditOperational subject detail s = s := by
  rw [auditOperational, h]
  exact if_neg (by decide)

section
variable (served : s.gate (portAddr n P.PORT_CMD) false = .served) (unsealed : s.sealed = false) (idle : (s.link n).tests = [])
include served unsealed idle

theorem exec_cableTest : exec (.cableTest n) s = .next (startTest n none s) := by
  show execCableTest n s = _
  rw [execCableTest, hostCommand_served served, cableTestCmd, auditOperational_unsealed unsealed, if_neg (by rw [idle]; decide)]

end

/-- A test that waits, in ABILITY. -/
def testAsked (n : Nat) (s : State) : State := s.modLink n (fun l => { l with tests := l.tests ++ [none] })

/-- A test runs at once in ABILITY. -/
theorem startTest_ability (h : s.fsm n = 2) (idle : (s.link n).tests = []) : startTest n none s = syncTestBit n
    ((((testAsked n s).modLink n phaseOver).wr (P.AN_STATUS.state.port n) fsmCableTest).wr (P.MON_STATUS.test_busy.port n) 1) := by
  have plain : (testAsked n s).fsm n ≠ fsmCableTest := by
    rw [testAsked, modLink_fsm, h]
    decide
  have waits : ((testAsked n s).link n).tests ≠ [] := by
    rw [testAsked, link_modLink, idle]
    exact List.cons_ne_nil _ _
  rw [startTest, if_pos (show s.fsm n = fsmAbility from h)]
  exact congrArg (syncTestBit n) (enterAbility_tests plain waits)

/-- A test that runs at once, for the host. -/
theorem startTest_runs (h : s.fsm n = 2) (idle : (s.link n).tests = []) : PortOnly n s (startTest n none s) ∧ (startTest n none s).fsm n = 9 ∧
    (startTest n none s).rd (P.MON_STATUS.test_busy.port n) = 1 ∧ ((startTest n none s).link n).tests = [none] ∧
    (startTest n none s).wcLevel (wcKey (portAddr n P.PORT_CMD) 3) = 1 := by
  have asked (t : State) (ht : t = (((testAsked n s).modLink n phaseOver).wr (P.AN_STATUS.state.port n) fsmCableTest).wr
      (P.MON_STATUS.test_busy.port n) 1) : (t.link n).tests = [none] := by
    rw [ht, wr_link, wr_link, link_modLink, testAsked, link_modLink, phaseOver, idle]
    rfl
  have entered : Touches n [P.AN_STATUS.state, P.MON_STATUS.test_busy] s ((((testAsked n s).modLink n phaseOver).wr (P.AN_STATUS.state.port n)
      fsmCableTest).wr (P.MON_STATUS.test_busy.port n) 1) :=
    (((modLink_touches s _).trans (modLink_touches _ _)).trans (wr_touches _ (f := P.AN_STATUS.state) _ rfl rfl)).trans
      (wr_touches _ (f := P.MON_STATUS.test_busy) _ rfl rfl)
  rw [startTest_ability h idle]
  refine ⟨entered.only.trans (syncTestBit_touches _).only, ?_, ?_, ?_, ?_⟩
  · rw [State.fsm, (syncTestBit_touches _).read P.AN_STATUS.state rfl rfl,
      rd_wr_port_apart (f := P.MON_STATUS.test_busy) (g := P.AN_STATUS.state) _ _ _ rfl rfl, rd_wr_port_same _ _ _ rfl]
    rfl
  · rw [syncTestBit, setWc_rd, rd_wr_port_same _ _ _ rfl, asked _ rfl]
    simp [bitNat, P.MON_STATUS.test_busy]
  · rw [(syncTestBit_keeps n _).within.link rfl n]
    exact asked _ rfl
  · rw [syncTestBit, wcLevel_setWc, asked _ rfl]
    rfl

/-- A test is refused outside the states in which it may run or wait. -/
theorem startTest_refused (h : s.fsm n = 0 ∨ s.fsm n = 5 ∨ s.fsm n = 6 ∨ s.fsm n = 7 ∨ s.fsm n = 10 ∨ s.fsm n = 11) :
    startTest n none s = s.wr (P.PROBE_STATUS.cable.port n) 7 := by
  have states : s.fsm n ≠ fsmAbility ∧ (s.fsm n = fsmCableTest || s.fsm n = fsmBreak || s.fsm n = fsmPages || s.fsm n = fsmProbe) = false := by
    rcases h with h | h | h | h | h | h <;> rw [h] <;> decide
  rw [startTest, if_neg states.1, if_neg (by simpa using states.2)]
  rfl

end

section
variable {n : Fin 32} {s : State}

/-! ### The steps (R94 to R97, R232) -/

theorem exec_probeSTimer (h : s.fsm n = 2) (asked : s.pact n P.AN_CFG.probe_s ≠ 0) : exec (.probeSTimer n) s =
    .next (sendProbe n ((s.modLink n (fun l => { l with probeTries := 1 })).wr (P.AN_STATUS.state.port n) fsmProbe)) := by
  show execProbeSTimer n s = _
  rw [execProbeSTimer, if_pos (by simp [h, fsmAbility, asked])]

theorem exec_probeTimeout_once (h : s.fsm n = 8) (few : (s.link n).probeTries < 2) : exec (.probeTimeout n) s =
    .next (sendProbe n (s.modLink n (fun l => { l with probeTries := l.probeTries + 1 }))) := by
  show execProbeTimeout n s = _
  rw [execProbeTimeout, if_pos (show s.fsm n = fsmProbe from h), if_pos few]

theorem exec_probeTimeout_twice (h : s.fsm n = 8) (twice : 2 ≤ (s.link n).probeTries) :
    exec (.probeTimeout n) s = .next (probeEnd n 1 0 s) := by
  show execProbeTimeout n s = _
  rw [execProbeTimeout, if_pos (show s.fsm n = fsmProbe from h), if_neg (by omega)]

theorem exec_probeAnswer (h : s.fsm n = 8) (p : PartnerPort) : exec (.probeAnswer n p) s = .next (probeEnd n 2 (partnerCode p) s) := by
  show execProbeAnswer n p s = _
  rw [execProbeAnswer, if_pos (show s.fsm n = fsmProbe from h)]

/-- A request is answered with the port's state (R97). -/
theorem exec_probeRequest (on : s.clk.wheelOn = true) : exec (.probeRequest n) s =
    .next (sendMessage { mtype := 6, cls := 1, dest := 0, port := some n.val, body := bytesBE 1 (s.portStateCode n) } s) := by
  show execProbeRequest n s = _
  rw [execProbeRequest, whileAwake, if_pos on]

theorem exec_cableTestEnd (h : s.fsm n = 9) (results : List PairDiag) :
    exec (.cableTestEnd n results) s = .next (testEnded n results false s) := by
  show execCableTestEnd n results s = _
  rw [execCableTestEnd, if_pos (show s.fsm n = fsmCableTest from h)]
  rfl

theorem exec_cableTestStop (h : s.fsm n = 9) (results : List PairDiag) :
    exec (.cableTestStop n results) s = .next (testEnded n results true s) := by
  show execCableTestStop n results s = _
  rw [execCableTestStop, if_pos (show s.fsm n = fsmCableTest from h)]
  rfl

end

/-- Settles O20: each clause by what the end of a probe, the end of a test, or the command's begin of a test does. -/
theorem probesAndCableTests : Obligations.ProbesAndCableTests := by
  unfold Obligations.ProbesAndCableTests
  intro s n hc
  refine ⟨fun m hm => ⟨fun h asked => ?first, fun h few => ?again⟩, fun h twice stays off => ?silent, fun p h => ?answer, fun b hb on => ?request,
    fun results h tests own few count => ⟨?done, ?stopped⟩, fun served unsealed idle => ⟨fun h => ?runs, fun h => ?refused⟩⟩
  case first =>
    subst hm
    have counted : Changes [portAddr n P.AN_STATUS] [.links, .messages] s (s.modLink n (fun l => { l with probeTries := 1 })) :=
      changes_parts rfl ((State.modLink_keeps s n _).within.mono rfl)
    have begun (t : State) : Changes [portAddr n P.AN_STATUS] [.links, .messages] t (t.wr (P.AN_STATUS.state.port n) fsmProbe) :=
      changes_wr t _ _ List.mem_cons_self
    refine ⟨_, exec_probeSTimer h asked, ?_, ?_, ?_, (counted.trans (begun _)).trans (sendProbe_changes n _)⟩
    · exact ((sendProbe_touches (fs := []) _).read P.AN_STATUS.state rfl rfl).trans (rd_wr_port_same _ _ _ rfl)
    · rw [sendProbe_eq]
      rfl
    · rw [sendProbe_link, wr_link, link_modLink]
  case again =>
    subst hm
    have counted : Changes [] [.links, .messages] s (s.modLink n (fun l => { l with probeTries := l.probeTries + 1 })) :=
      changes_parts rfl ((State.modLink_keeps s n _).within.mono rfl)
    refine ⟨_, exec_probeTimeout_once h few, ?_, ?_, ?_, counted.trans (sendProbe_changes n _)⟩
    · exact ((sendProbe_touches (fs := []) _).read P.AN_STATUS.state rfl rfl).trans ((modLink_fsm _ _ _ _).trans h)
    · rw [sendProbe_eq]
      rfl
    · rw [sendProbe_link, link_modLink]
  case silent =>
    obtain ⟨only, shown, -⟩ := probeEnd_shown (n := n) (s := s) (probe := 1) (partner := 0) (by decide) (by decide)
    exact ⟨_, exec_probeTimeout_twice h twice, probeEnd_stays 1 0 h stays off, shown, only⟩
  case answer =>
    have code : partnerCode p < 8 := by cases p <;> decide
    obtain ⟨only, shown, port⟩ := probeEnd_shown (n := n) (s := s) (probe := 2) (by decide) code
    exact ⟨_, exec_probeAnswer h p, shown, port, only, fun stays asked first => probeEnd_tests 2 _ stays.1 asked first⟩
  case request =>
    have code : bytesBE 1 (s.portStateCode n) = [b] := by
      have value : b = BitVec.ofNat 8 (s.portStateCode n) := hb.trans (portStateCode_eq s n).symm
      rw [value]
      simp [bytesBE]
    refine ⟨_, exec_probeRequest on, ?_⟩
    rw [code, sendMessage_eq rfl]
    exact ⟨(State.withMessages_keeps s _).within, rfl⟩
  case done =>
    obtain ⟨only, state, raised, busy, seq⟩ := testEnded_ends own tests few results false
    refine ⟨_, exec_cableTestEnd h results, only, state, raised, busy, seq, fun p d hd => ?_⟩
    have word := testEnded_pair own tests few results false p.isLt
    rw [List.getD_eq_getElem?_getD, hd] at word
    have read {f : Field} (ha : f.addr = P.DIAG_PAIR) (hs : f.stride = 4) :
        (testEnded n results false s).rd ((f.nth p).port n) = bitsOf (diagWord d) f.lsb f.width := by
      have place : ((f.nth p).port n).addr = portAddr n P.DIAG_PAIR + 4 * p := by
        simp only [Field.port, Field.nth, ha, hs, portAddr]
        omega
      rw [State.rd, place, word]
      rfl
    obtain ⟨status, distance, xpair, gamma⟩ := diagWord_fields d
    exact ⟨(read rfl rfl).trans status, (read rfl rfl).trans distance, (read rfl rfl).trans xpair, (read rfl rfl).trans gamma⟩
  case stopped =>
    obtain ⟨only, state, raised, busy, -⟩ := testEnded_ends own tests few results true
    exact ⟨_, exec_cableTestStop h results, only, state, raised, testEnded_stopped own tests few results, busy⟩
  case runs =>
    exact ⟨_, exec_cableTest served unsealed idle, startTest_runs h idle⟩
  case refused =>
    refine ⟨_, (exec_cableTest served unsealed idle).trans (congrArg _ (startTest_refused h)), ?_, ?_, ?_⟩
    · rw [rd_wr_port_same _ _ _ rfl]
      rfl
    · exact rd_wr_port_apart (f := P.PROBE_STATUS.cable) (g := P.AN_STATUS.state) s n 7 rfl rfl
    · exact changes_wr s _ _ List.mem_cons_self

end Sys2Proof.Machine
end

section
/-! SUPPORT. Fast retrains, full retrains and restarts of the exchange (R41, R98 to R100, R103, R104). -/

namespace Sys2Proof.Machine

section
variable {n : Fin 32} {s : State}

/-! ### A fast retrain begins and ends (R98, R99) -/

/-- The retrains on record: those of the last 10 s, and one more. -/
def retrainsWith (now : Nat) (l : Link) : Link :=
  { l with retrains := l.retrains.filter (fun t => decide (now - t < 10000000000)) ++ [now], lowRun := 0 }

/-- A retrain that begins: it is on record and counted, and the port is in FRETRAIN. -/
def retrainBegun (n : Nat) (s : State) : State :=
  (((s.modLink n (retrainsWith s.now)).addSat (P.AN_STATUS.fr_count.port n) 1).wr (P.AN_STATUS.state.port n) fsmFretrain).modTrip n
    (fun t => { t with rxLocked := false, goodRun := 0 })

/-- The fields a retrain's begin writes. -/
def retrainFields : List Field := [P.AN_STATUS.fr_count, P.AN_STATUS.state] ++ poolFields

theorem retrainBegun_keeps (n : Nat) (s : State) : Keeps [.regs, .links, .trips] s (retrainBegun n s) :=
  ((((State.modLink_keeps s n _).mono rfl).trans ((State.addSat_keeps _ _ _).mono rfl)).trans ((State.wr_keeps _ _ _).mono rfl)).trans
    ((State.modTrip_keeps _ n _).mono rfl)

theorem retrainBegun_touches : Touches n [P.AN_STATUS.fr_count, P.AN_STATUS.state] s (retrainBegun n s) :=
  (((modLink_touches s _).trans (wr_touches _ (f := P.AN_STATUS.fr_count) _ rfl rfl)).trans (wr_touches _ (f := P.AN_STATUS.state) _ rfl rfl)).trans
    (modTrip_touches _ _)

theorem modTrip_rd (s : State) (m : Nat) (f : TripPort → TripPort) (g : Field) : (s.modTrip m f).rd g = s.rd g := rfl

theorem setWc_link (s : State) (key v m : Nat) : (s.setWc key v).link m = s.link m := rfl

theorem modLink_wcLevel (s : State) (m : Nat) (f : Link → Link) (key : Nat) : (s.modLink m f).wcLevel key = s.wcLevel key := rfl

theorem wr_wcLevel (s : State) (g : Field) (v : Nat) (key : Nat) : (s.wr g v).wcLevel key = s.wcLevel key := rfl

theorem Within.wcLevel {parts : List Part} {t : State} (h : Within parts s t) (hp : parts.contains .host = false) (key : Nat) :
    t.wcLevel key = s.wcLevel key := by
  have kept : t.host = s.host := h .host hp
  rw [State.wcLevel, kept, State.wcLevel]

theorem retrainBegun_shown : (retrainBegun n s).fsm n = 7 ∧
    (retrainBegun n s).rd (P.AN_STATUS.fr_count.port n) = min 15 (s.rd (P.AN_STATUS.fr_count.port n) + 1) := by
  constructor
  · rw [State.fsm, retrainBegun, modTrip_rd, rd_wr_port_same _ _ _ rfl]
    rfl
  · rw [retrainBegun, modTrip_rd, rd_wr_port_apart (f := P.AN_STATUS.state) (g := P.AN_STATUS.fr_count) _ _ _ rfl rfl,
      rd_addSat_same _ _ _ (show 20 + 4 ≤ 32 by decide), modLink_rd]
    rfl

/-- Outside Reach, with fewer than four retrains in the last 10 s, a trigger begins a retrain. -/
theorem startRetrain_eq (mode : s.modeNow n ≠ 2) (few : ((s.link n).retrains.filter (fun t => decide (s.now - t < 10000000000))).length < 4) :
    startRetrain n s = refreshPool (retrainBegun n s) := by
  have kept : (retrainBegun n s).modeNow n = s.modeNow n := retrainBegun_touches.read P.LINE_STATUS.mode_now rfl rfl
  have line : ((retrainBegun n s).modeNow n == modeReach) = false := by
    rw [kept]
    simpa [modeReach] using mode
  have count : ¬5 ≤ ((s.link n).retrains.filter (fun t => decide (s.now - t < 10000000000)) ++ [s.now]).length := by
    rw [List.length_append, List.length_singleton]
    omega
  unfold startRetrain
  dsimp only
  rw [if_neg count]
  refine congrArg refreshPool ?_
  refine (if_neg ?_).trans ?_
  · rw [Bool.not_eq_true]
    exact line
  · rfl

/-- A retrain on its way: the port is in FRETRAIN, with one more in fr_count, and all else of the port as it was (R98). -/
structure Retrains (n : Fin 32) (s u : State) : Prop where
  touched : Touches n retrainFields s u
  state : u.fsm n = 7
  count : u.rd (P.AN_STATUS.fr_count.port n) = min 15 (s.rd (P.AN_STATUS.fr_count.port n) + 1)
  levels : ∀ key, u.wcLevel key = s.wcLevel key

theorem startRetrain_retrains (hc : s.Canonical) (mode : s.modeNow n ≠ 2)
    (few : ((s.link n).retrains.filter (fun t => decide (s.now - t < 10000000000))).length < 4) : Retrains n s (startRetrain n s) := by
  have keeps := retrainBegun_keeps n s
  have pooled : Touches n poolFields (retrainBegun n s) (refreshPool (retrainBegun n s)) := refreshPool_touches (keeps.canonical hc).blocks
  obtain ⟨state, count⟩ := retrainBegun_shown (n := n) (s := s)
  rw [startRetrain_eq mode few]
  refine ⟨(retrainBegun_touches.mono rfl).trans (pooled.mono rfl), ?_, ?_, fun key => ?_⟩
  · exact (pooled.read P.AN_STATUS.state rfl rfl).trans state
  · exact (pooled.read P.AN_STATUS.fr_count rfl rfl).trans count
  · exact ((refreshPool_keeps _).within.wcLevel rfl key).trans (keeps.within.wcLevel rfl key)

/-- A trigger in DATA outside low-power idle, where fast retrain is negotiated. -/
theorem retrainTrigger_starts (full : Bool) (h : s.fsm n = 6) (negotiated : (s.link n).fastRetrain = true)
    (awake : s.rd (P.LPI_STATUS.lpi_state.port n) = 0) : retrainTrigger n full s = startRetrain n s := by
  have idle : ¬s.inLpi n = true := by simp [State.inLpi, awake]
  unfold retrainTrigger
  rw [if_neg (show ¬s.fsm n ≠ fsmData from not_not_intro h), negotiated, if_neg (by decide), if_neg idle, if_neg (by rw [awake]; decide)]

/-- A trigger in DATA where no fast retrain is negotiated. -/
theorem retrainTrigger_none (full : Bool) (h : s.fsm n = 6) (none : (s.link n).fastRetrain = false) :
    retrainTrigger n full s = if full then fullRetrain n s else s := by
  unfold retrainTrigger
  rw [if_neg (show ¬s.fsm n ≠ fsmData from not_not_intro h), none, if_pos (by decide)]

/-- The retrain's completion, where no command waits (R99). -/
theorem retrainDone_eq (mode : s.modeNow n ≠ 2) (own : (s.link n).cmdRetrain = false) (none : s.wcLevel (wcKey (portAddr n P.PORT_CMD) 2) = 0) :
    retrainDone n s = refreshPool ((s.wr (P.AN_STATUS.state.port n) fsmData).modLink n (fun l => { l with cmdRetrain := false })) := by
  have kept : (s.wr (P.AN_STATUS.state.port n) fsmData).modeNow n = s.modeNow n :=
    (wr_touches (fs := [P.AN_STATUS.state]) s (f := P.AN_STATUS.state) _ rfl rfl).read P.LINE_STATUS.mode_now rfl rfl
  have line : ¬((s.wr (P.AN_STATUS.state.port n) fsmData).modeNow n == modeReach) = true := by
    rw [kept]
    simpa [modeReach] using mode
  have level : (refreshPool ((s.wr (P.AN_STATUS.state.port n) fsmData).modLink n (fun l => { l with cmdRetrain := false }))).wcLevel
      (wcKey (portAddr n P.PORT_CMD) 2) = 0 := by
    rw [(refreshPool_keeps _).within.wcLevel rfl, modLink_wcLevel, wr_wcLevel, none]
  unfold retrainDone
  dsimp only
  rw [if_neg line, wr_link, own, if_neg Bool.false_ne_true, if_neg (by rw [level]; exact Nat.lt_irrefl 0)]

/-- A retrain completed returns to DATA, and keeps the coefficients. -/
theorem retrainDone_returns (hc : s.Canonical) (mode : s.modeNow n ≠ 2) (own : (s.link n).cmdRetrain = false)
    (none : s.wcLevel (wcKey (portAddr n P.PORT_CMD) 2) = 0) : Touches n (P.AN_STATUS.state :: poolFields) s (retrainDone n s) ∧
    (retrainDone n s).fsm n = 6 ∧ (retrainDone n s).coefs = s.coefs := by
  have begun : Touches n [P.AN_STATUS.state] s
      ((s.wr (P.AN_STATUS.state.port n) fsmData).modLink n (fun l => { l with cmdRetrain := false })) :=
    (wr_touches s (f := P.AN_STATUS.state) _ rfl rfl).trans (modLink_touches _ _)
  have keeps : Keeps [.regs, .links] s ((s.wr (P.AN_STATUS.state.port n) fsmData).modLink n (fun l => { l with cmdRetrain := false })) :=
    ((State.wr_keeps s _ _).mono rfl).trans ((State.modLink_keeps _ n _).mono rfl)
  have pooled := refreshPool_touches (n := n) (keeps.canonical hc).blocks
  rw [retrainDone_eq mode own none]
  refine ⟨(begun.mono rfl).trans (pooled.mono rfl), (pooled.read P.AN_STATUS.state rfl rfl).trans ?_,
    ((refreshPool_keeps _).within .coefs rfl).trans (keeps.within .coefs rfl)⟩
  rw [modLink_rd, rd_wr_port_same _ _ _ rfl]
  rfl

/-! ### A link that goes down from any state (R101, R104) -/

/-- What follows the marking of a link that goes down. -/
theorem linkDown_after (hc : s.Canonical) (st : Nat) : Touches n (poolFields ++ enterFields) (linkCleared n s) (linkDown n st s) := by
  have entered : Touches n (poolFields ++ enterFields) (linkCleared n s) (enter n st (linkCleared n s)) := (enter_touches st _).mono rfl
  have blocks : inPool (enter n st (linkCleared n s)).pool.descs := by
    rw [(enter_keeps n st _).within .pool rfl, linkCleared_pool]
    exact hc.blocks
  have pooled := entered.trans ((refreshPool_touches blocks).mono rfl)
  rw [linkDown_eq]
  split
  · exact pooled.trans (linkEvent_aside n.isLt _).touches
  · exact pooled

theorem linkDown_only (hc : s.Canonical) (st : Nat) : PortOnly n s (linkDown n st s) :=
  ((linkCleared_onPort s n.isLt).only (downWords_linkArea n)).trans (linkDown_after hc st).only

theorem linkDown_fsm (hc : s.Canonical) : (linkDown n fsmBreak s).fsm n = 1 := by
  have blocks : inPool (enter n fsmBreak (linkCleared n s)).pool.descs := by
    rw [(enter_keeps n fsmBreak _).within .pool rfl, linkCleared_pool]
    exact hc.blocks
  have pooled : (refreshPool (enter n fsmBreak (linkCleared n s))).fsm n = 1 :=
    ((refreshPool_touches blocks).read P.AN_STATUS.state rfl rfl).trans (enter_fsm _ (by decide) (by decide))
  rw [linkDown_eq]
  split
  · exact ((linkEvent_aside n.isLt _).touches (fs := []).read P.AN_STATUS.state rfl rfl).trans pooled
  · exact pooled

theorem linkDown_noLink (hc : s.Canonical) (st : Nat) : (linkDown n st s).rd (P.LINE_STATUS.link_up.port n) = 0 :=
  ((linkDown_after hc st).read P.LINE_STATUS.link_up rfl rfl).trans
    ((linkCleared_line s n.isLt rfl (show 8 + 1 ≤ 16 by decide)).trans (bitsOf_downWord s n).2.2)

theorem linkDown_why (hc : s.Canonical) (st : Nat) :
    (linkDown n st s).rd (P.AN_STATUS.last_fail.port n) = s.rd (P.AN_STATUS.last_fail.port n) :=
  ((linkDown_after hc st).read P.AN_STATUS.last_fail rfl rfl).trans ((linkCleared_onPort s n.isLt).rd _
    (portAddr_notMem_downWords (a := P.AN_STATUS) n.isLt (by decide) (by decide)) (recordArea_field n (f := P.AN_STATUS.last_fail) rfl))

/-- A link that goes down into BREAK waits for no wake. -/
theorem linkDown_awaitsNoWake (h : s.fsm n ≠ fsmCableTest) : ((linkDown n fsmBreak s).link n).retrainAfterWake = false := by
  have plain : (linkCleared n s).fsm n ≠ fsmCableTest := by rwa [linkCleared_fsm n.isLt]
  have pooled : ((refreshPool (enter n fsmBreak (linkCleared n s))).link n).retrainAfterWake = false := by
    rw [(refreshPool_keeps _).within.link rfl n, enter_link plain (by decide), if_neg (by decide), linkCleared_link]
    rfl
  rw [linkDown_eq]
  split
  · rw [(linkEvent_aside n.isLt _).link n]
    exact pooled
  · exact pooled

/-- A link down stays so where only the port's record changes. -/
theorem LinkIsDown.recorded {st code : Nat} {u v : State} (k : LinkIsDown n st code s u) (words : ∀ a, v.word a = u.word a)
    (trip : v.trip n = u.trip n) (only : PortOnly n u v) : LinkIsDown n st code s v := by
  have read (f : Field) : v.rd f = u.rd f := by rw [State.rd, words, State.rd]
  have raised (e : Nat) : v.pend e = u.pend e := by rw [State.pend, State.arrayBit, words, State.pend, State.arrayBit]
  refine ⟨(read _).trans k.state, (read _).trans k.why, ?_, (read _).trans k.heartbeat, ?_, fun up => ?_, k.only.trans only⟩
  · obtain ⟨up, mode, rate⟩ := k.noLink
    exact ⟨(read _).trans up, (read _).trans mode, (read _).trans rate⟩
  · rw [trip]
    exact k.session
  · rw [read, raised]
    exact k.counted up

/-! ### PORT_CMD.fast_retrain (R98) -/

/-- A commanded retrain on record. -/
def retrainAsked (n : Nat) (s : State) : State :=
  (s.setWc (wcKey (portAddr n P.PORT_CMD) 2) 1).modLink n (fun l => { l with cmdRetrain := true })

theorem retrainAsked_touches {fs : List Field} : Touches n fs s (retrainAsked n s) := (setWc_touches s _ _).trans (modLink_touches _ _)

theorem retrainAsked_keeps (n : Nat) (s : State) : Keeps [.host, .links] s (retrainAsked n s) :=
  ((State.setWc_keeps s _ _).mono rfl).trans ((State.modLink_keeps _ n _).mono rfl)

theorem retrainAsked_link : (retrainAsked n s).link n = { s.link n with cmdRetrain := true } := by
  rw [retrainAsked, link_modLink, setWc_link]

theorem retrainAsked_level : (retrainAsked n s).wcLevel (wcKey (portAddr n P.PORT_CMD) 2) = 1 := by
  rw [retrainAsked, modLink_wcLevel, wcLevel_setWc]

theorem retrainAsked_rd (n : Nat) (s : State) (f : Field) : (retrainAsked n s).rd f = s.rd f := rfl

theorem retrainAsked_now (n : Nat) (s : State) : (retrainAsked n s).now = s.now := rfl

/-- A commanded retrain in DATA outside low-power idle begins. -/
theorem retrainAsked_starts (h : s.fsm n = 6) (negotiated : (s.link n).fastRetrain = true)
    (awake : s.rd (P.LPI_STATUS.lpi_state.port n) = 0) :
    retrainTrigger n true (retrainAsked n s) = startRetrain n (retrainAsked n s) := by
  refine retrainTrigger_starts true ((retrainAsked_rd n s _).trans h) ?_ ((retrainAsked_rd n s _).trans awake)
  rw [retrainAsked_link]
  exact negotiated

theorem retrainAsked_retrains (hc : s.Canonical) (mode : s.modeNow n ≠ 2)
    (few : ((s.link n).retrains.filter (fun t => decide (s.now - t < 10000000000))).length < 4) :
    Retrains n (retrainAsked n s) (startRetrain n (retrainAsked n s)) := by
  have line : (retrainAsked n s).modeNow n ≠ 2 := ne_of_eq_of_ne (retrainAsked_rd n s _) mode
  refine startRetrain_retrains ((retrainAsked_keeps n s).canonical hc) line ?_
  rw [retrainAsked_link, retrainAsked_now]
  exact few

/-- A commanded retrain that was not begun. -/
def retrainDropped (n : Nat) (s : State) : State :=
  (s.setWc (wcKey (portAddr n P.PORT_CMD) 2) 0).modLink n (fun l => { l with cmdRetrain := false })

theorem retrainDropped_word (n : Nat) (s : State) (a : Nat) : (retrainDropped n s).word a = s.word a := rfl

theorem retrainDropped_trip (n : Nat) (s : State) (m : Nat) : (retrainDropped n s).trip m = s.trip m := rfl

theorem retrainDropped_touches {fs : List Field} : Touches n fs s (retrainDropped n s) := (setWc_touches s _ _).trans (modLink_touches _ _)

/-- A commanded full retrain takes the link down with last_fail 8, and waits for no wake. -/
theorem retrainAsked_down (hc : s.Canonical) (h : s.fsm n = 6) : LinkIsDown n 1 8 s (fullRetrain n (retrainAsked n s)) ∧
    ((fullRetrain n (retrainAsked n s)).link n).retrainAfterWake = false := by
  have state : (retrainAsked n s).fsm n = 6 := (retrainAsked_rd n s _).trans h
  have untested : (retrainAsked n s).fsm n ≠ fsmCableTest := ne_of_eq_of_ne state (by decide)
  have noted : (lastFail n 8 (retrainAsked n s)).fsm n ≠ fsmCableTest :=
    ne_of_eq_of_ne (rd_wr_port_apart (f := P.AN_STATUS.last_fail) (g := P.AN_STATUS.state) _ n 8 rfl rfl) untested
  refine ⟨?_, linkDown_awaitsNoWake noted⟩
  exact (linkDown_lastFail ((retrainAsked_keeps n s).canonical hc) untested (.inl rfl) (by decide)).after
    (retrainAsked_touches (fs := [])).only (retrainAsked_rd n s _) (retrainAsked_rd n s _)

/-- The command in DATA, where none runs: it stays on record where a retrain begins or waits for a wake. -/
theorem exec_fastRetrain (h : s.fsm n = 6) (served : s.gate (portAddr n P.PORT_CMD) false = .served) (unsealed : s.sealed = false)
    (none : s.wcLevel (wcKey (portAddr n P.PORT_CMD) 2) = 0) : exec (.fastRetrain n) s = .next (
      let t := retrainTrigger n true (retrainAsked n s)
      if t.fsm n = fsmFretrain || (t.link n).retrainAfterWake then t else retrainDropped n t) := by
  show execFastRetrain n s = _
  have other : ¬s.fsm n = fsmFretrain := by rw [h]; decide
  rw [execFastRetrain, hostCommand_served served, fastRetrainCmd]
  dsimp only
  rw [auditOperational_unsealed unsealed, if_neg other, if_pos (show s.fsm n = fsmData from h), if_pos none]
  rfl

theorem exec_partnerRetrainRequest (n : Fin 32) (s : State) : exec (.partnerRetrainRequest n) s = .next (retrainTrigger n false s) := rfl

/-! ### PORT_CMD.an_restart and PORT_CMD.restart (R103, R104) -/

/-- The exchange begins anew: the reason on record, no coefficients. -/
def restartNoted (n : Nat) (s : State) : State := (lastFail n 9 s).clearCoefs n

theorem restartNoted_touches : Touches n [P.AN_STATUS.last_fail] s (restartNoted n s) :=
  (wr_touches s (f := P.AN_STATUS.last_fail) 9 rfl rfl).trans ((State.clearCoefs_keeps _ n).touches rfl rfl rfl)

theorem restartNoted_canonical (hc : s.Canonical) : (restartNoted n s).Canonical :=
  (State.clearCoefs_keeps _ n).canonical ((lastFail_keeps n 9 s).canonical hc)

theorem restartNoted_why : (restartNoted n s).rd (P.AN_STATUS.last_fail.port n) = 9 := by
  rw [restartNoted, clearCoefs_rd, lastFail, rd_wr_port_same _ _ _ rfl]
  rfl

theorem restartNoted_coef (k : Nat) : (restartNoted n s).coef k = if k / 10048 = n then 0 else s.coef k := by
  rw [restartNoted, coef_clearCoefs]
  rfl

section
variable (served : s.gate (portAddr n P.PORT_CMD) false = .served) (unsealed : s.sealed = false)
include served unsealed

theorem exec_anRestart : exec (.anRestart n) s =
    .next (if s.fsm n = fsmOff || s.fsm n = fsmBus then s else linkDown n fsmBreak (restartNoted n s)) := by
  show execAnRestart n s = _
  rw [execAnRestart, hostCommand_served served, anRestart, auditOperational_unsealed unsealed]
  rfl

/-- A restart runs, or waits behind the one that runs. -/
theorem exec_restart {k : Nat} (level : s.wcLevel (wcKey (portAddr n P.PORT_CMD) 0) = k) (free : k < 2) :
    exec (.restart n) s = .next (s.setWc (wcKey (portAddr n P.PORT_CMD) 0) (k + 1)) := by
  show execRestart n s = _
  rw [execRestart, hostCommand_served served, restartCmd, auditOperational_unsealed unsealed, wcWrite, level]
  interval_cases k
  · rfl
  · rfl

end

/-! ### The new coefficients of a retrain (R98) -/

/-- The THP coefficients a retrain leaves. -/
def retrainCoefs (n : Nat) (coefs : List (Fin 4 × Fin 48 × BitVec 18)) (s : State) : State :=
  coefs.foldl (fun s c => s.setCoef (coefKey n c.1.val (2464 + c.2.1.val)) c.2.2) s

theorem retrainCoefs_keeps (n : Nat) (coefs : List (Fin 4 × Fin 48 × BitVec 18)) (s : State) : Keeps [.coefs] s (retrainCoefs n coefs s) :=
  Keeps.foldl (fun t _ => State.setCoef_keeps t _ _) (.refl _ s)

theorem retrainCoefs_touches {fs : List Field} (coefs : List (Fin 4 × Fin 48 × BitVec 18)) : Touches n fs s (retrainCoefs n coefs s) :=
  (retrainCoefs_keeps n coefs s).touches rfl rfl rfl

/-- A coefficient named once reads its new value. -/
theorem retrainCoefs_coef {coefs : List (Fin 4 × Fin 48 × BitVec 18)} {e : Fin 4 × Fin 48 × BitVec 18} (he : e ∈ coefs)
    (once : ∀ e' ∈ coefs, e'.1 = e.1 → e'.2.1 = e.2.1 → e' = e) :
    (retrainCoefs n coefs s).coef (coefKey n e.1 (2464 + e.2.1)) = e.2.2 := by
  refine coef_foldl_eq (fun c => coefKey n c.1.val (2464 + c.2.1.val)) (fun c => c.2.2) _ s (fun c hmem hk => ?_) (.inr ⟨e, he, rfl⟩)
  obtain ⟨pair, index⟩ := coefKey_inj (by omega) (by omega) hk
  rw [once c hmem (Fin.ext pair) (Fin.ext (Nat.add_left_cancel index))]

theorem exec_fastRetrainComplete (h : s.fsm n = 7) (mode : s.modeNow n ≠ 2) (coefs : List (Fin 4 × Fin 48 × BitVec 18)) :
    exec (.fastRetrainComplete n coefs) s = .next (retrainDone n (retrainCoefs n coefs s)) := by
  show execFastRetrainComplete n coefs s = _
  rw [execFastRetrainComplete, if_pos (by simp [h, fsmFretrain, modeReach, mode])]
  rfl

end

/-- Settles O21: a trigger begins a retrain or takes the link down by whether one is negotiated; each command by its own equation. -/
theorem retrainsAndRestarts : Obligations.RetrainsAndRestarts := by
  unfold Obligations.RetrainsAndRestarts
  intro s n hc a l ha hl
  subst ha hl
  refine ⟨fun h negotiated awake mode few c hcmd => ?begins, fun h none => ?nothing, fun h none served unsealed idle => ?full,
    fun coefs h mode own idle => ?ends, fun served unsealed => ⟨fun on wired => ?down, fun off => ?without, fun k level free => ?queued⟩⟩
  case begins =>
    rcases hcmd with rfl | ⟨rfl, served, unsealed, idle⟩
    · have begun := startRetrain_retrains (n := n) hc mode few
      exact ⟨_, (exec_partnerRetrainRequest n s).trans (congrArg _ (retrainTrigger_starts false h negotiated awake)), begun.touched.only, begun.state,
        begun.count, begun.touched.read P.LINE_STATUS.link_up rfl rfl, begun.touched.read P.LINE_STATUS.mode_now rfl rfl,
        begun.touched.read P.LINE_STATUS.rate_now rfl rfl, fun e => by cases e⟩
    · have begun := retrainAsked_retrains hc mode few
      have whole := (retrainAsked_touches (fs := retrainFields)).trans begun.touched
      refine ⟨startRetrain n (retrainAsked n s), ?_, whole.only, begun.state, ?_, whole.read P.LINE_STATUS.link_up rfl rfl,
        whole.read P.LINE_STATUS.mode_now rfl rfl, whole.read P.LINE_STATUS.rate_now rfl rfl, fun _ => (begun.levels _).trans retrainAsked_level⟩
      · rw [exec_fastRetrain h served unsealed idle, retrainAsked_starts h negotiated awake]
        exact congrArg _ (if_pos (by rw [begun.state]; rfl))
      · rw [begun.count, retrainAsked_rd]
  case nothing =>
    rw [exec_partnerRetrainRequest, retrainTrigger_none false h none, if_neg Bool.false_ne_true]
  case full =>
    obtain ⟨down, awaits⟩ := retrainAsked_down hc h
    have starts : retrainTrigger n true (retrainAsked n s) = fullRetrain n (retrainAsked n s) :=
      (retrainTrigger_none true ((retrainAsked_rd n s _).trans h) (by rw [retrainAsked_link]; exact none)).trans (if_pos rfl)
    refine ⟨retrainDropped n (fullRetrain n (retrainAsked n s)), ?_,
      down.recorded (retrainDropped_word _ _) (retrainDropped_trip _ _ _) (retrainDropped_touches (fs := [])).only, ?_⟩
    · rw [exec_fastRetrain h served unsealed idle, starts]
      exact congrArg _ (if_neg (by rw [down.state, awaits]; decide))
    · rw [retrainDropped, modLink_wcLevel, wcLevel_setWc]
  case ends =>
    have given := retrainCoefs_keeps n coefs s
    have applied : Touches n [P.AN_STATUS.state] s (retrainCoefs n coefs s) := retrainCoefs_touches coefs
    have line : (retrainCoefs n coefs s).modeNow n ≠ 2 := ne_of_eq_of_ne (applied.read P.LINE_STATUS.mode_now rfl rfl) mode
    have uncommanded : ((retrainCoefs n coefs s).link n).cmdRetrain = false := by rw [given.within.link rfl n, own]
    have level := (given.within.wcLevel rfl (wcKey (portAddr n P.PORT_CMD) 2)).trans idle
    obtain ⟨touched, state, kept⟩ := retrainDone_returns (given.canonical hc) line uncommanded level
    refine ⟨_, exec_fastRetrainComplete h mode coefs, applied.only.trans touched.only, state, fun e he once => ?_⟩
    rw [State.coef, kept, ← State.coef]
    exact retrainCoefs_coef he once
  case down =>
    have other : (decide (s.fsm n = fsmOff) || decide (s.fsm n = fsmBus)) = false := by simp [fsmOff, fsmBus, on, wired]
    have noted := restartNoted_canonical (n := n) hc
    refine ⟨_, (exec_anRestart served unsealed).trans (congrArg _ (if_neg (by rw [other]; decide))), linkDown_fsm noted, ?_, linkDown_noLink noted _,
      restartNoted_touches.only.trans (linkDown_only noted _), fun k => ?_⟩
    · rw [linkDown_why noted]
      exact restartNoted_why
    · rw [State.coef, linkDown_coefs, ← State.coef]
      exact restartNoted_coef k
  case without =>
    rw [exec_anRestart served unsealed, if_pos (by rcases off with off | off <;> rw [off] <;> decide)]
  case queued =>
    refine ⟨_, exec_restart served unsealed level free, wcLevel_setWc _ _ _, (State.setWc_keeps s _ _).within⟩

end Sys2Proof.Machine
end

section
/-! SUPPORT. The trip path writes registers without events: its frames, the session's registers, launches (R114, R117 to R121). -/

namespace Sys2Proof.Machine

/-! ### Writes without an event -/

/-- From `s` to `t` nothing is written but the registers at `words` and the parts listed; messages may be sent, no event is raised and
no record written. -/
structure Writes (words : List Nat) (parts : List Part) (s t : State) : Prop where
  registers : ∀ a, a ∉ words → t.word a = s.word a
  rest : Within (.regs :: .out :: parts) s t

section
variable {words : List Nat} {parts : List Part} {s t u : State}

theorem Writes.refl (words : List Nat) (parts : List Part) (s : State) : Writes words parts s s := ⟨fun _ _ => rfl, within_refl _ s⟩

theorem Writes.trans (h : Writes words parts s t) (k : Writes words parts t u) : Writes words parts s u :=
  ⟨fun a ha => (k.registers a ha).trans (h.registers a ha), h.rest.trans k.rest⟩

theorem Writes.mono {words' : List Nat} {parts' : List Part} (h : Writes words parts s t) (hw : words ⊆ words')
    (hp : (Part.regs :: .out :: parts).all ((Part.regs :: .out :: parts').contains ·) = true) : Writes words' parts' s t :=
  ⟨fun a ha => h.registers a fun k => ha (hw k), h.rest.mono hp⟩

/-- Transitivity with the last part first: the state between is read off it. -/
theorem Writes.step (k : Writes words parts t u) (h : Writes words parts s t) : Writes words parts s u := h.trans k

theorem Writes.foldl {α : Type} {f : State → α → State} (l : List α) (s : State) (h : ∀ s, ∀ x ∈ l, Writes words parts s (f s x)) :
    Writes words parts s (l.foldl f s) := by
  induction l generalizing s with
  | nil => exact .refl _ _ s
  | cons x l ih => exact (h s x List.mem_cons_self).trans (ih _ fun s y hy => h s y (List.mem_cons_of_mem _ hy))

theorem Writes.changes {parts' : List Part} (h : Writes words parts s t)
    (hp : (Part.regs :: .out :: parts).all ((records ++ parts').contains ·) = true) : Changes words parts' s t :=
  ⟨fun a ha _ => h.registers a ha, h.rest.mono hp⟩

theorem Writes.rd (h : Writes words parts s t) (f : Field) (hf : f.addr ∉ words) : t.rd f = s.rd f := by
  rw [State.rd, h.registers _ hf, State.rd]

theorem Writes.actFlag (h : Writes words parts s t) (f : Field) (hf : f.active.addr ∉ words) : t.actFlag f = s.actFlag f := by
  rw [State.actFlag, State.act, h.rd _ hf, State.actFlag, State.act]

/-- No event rises or falls where none of the registers written is one of EVT. -/
theorem Writes.pend (h : Writes words parts s t) (hw : ∀ a ∈ words, 0xA0 ≤ a) {e : Nat} (he : e < 256) : t.pend e = s.pend e := by
  have low := pendWord_lt he
  rw [State.pend, State.arrayBit, h.registers _ fun hm => absurd (hw _ hm) (by omega), State.pend, State.arrayBit]

theorem writes_setWord (s : State) {a : Nat} (w : Word) (h : a ∈ words) : Writes words parts s (s.setWord a w) :=
  ⟨fun b hb => word_setWord_ne s w fun e => hb (e ▸ h), (State.setWord_keeps s a w).within.mono (by simp)⟩

theorem writes_wr (s : State) {f : Field} (v : Nat) (h : f.addr ∈ words) : Writes words parts s (s.wr f v) := writes_setWord s _ h

theorem writes_wrs (s : State) (l : List (Field × Nat)) (h : ∀ e ∈ l, e.1.addr ∈ words) : Writes words parts s (s.wrs l) :=
  Writes.foldl l s fun t e he => writes_wr t e.2 (h e he)

theorem writes_setPair (s : State) {lo hi : Nat} (v : Nat) (hlo : lo ∈ words) (hhi : hi ∈ words) : Writes words parts s (s.setPair lo hi v) :=
  (writes_setWord s _ hlo).trans (writes_setWord _ _ hhi)

/-- Hidden state alone. -/
theorem Keeps.writes {l : List Part} (h : Keeps l s t) (hr : l.contains .regs = false)
    (hp : l.all ((Part.regs :: .out :: parts).contains ·) = true) : Writes words parts s t :=
  ⟨fun a _ => by rw [State.word, h.within .regs hr, State.word], h.within.mono hp⟩

theorem writes_setTrip (s : State) (n : Nat) (x : TripPort) (h : Part.trips ∈ parts) : Writes words parts s (s.setTrip n x) :=
  (State.setTrip_keeps s n x).writes rfl (by simp [h])

theorem writes_modTrip (s : State) (n : Nat) (f : TripPort → TripPort) (h : Part.trips ∈ parts) : Writes words parts s (s.modTrip n f) :=
  writes_setTrip s n _ h

theorem Within.trip (h : Within parts s t) (ht : parts.contains .trips = false) (m : Nat) : t.trip m = s.trip m := by
  have kept : t.trips = s.trips := h .trips ht
  rw [State.trip, kept, State.trip]

theorem trip_setTrip (s : State) (n m : Nat) (x : TripPort) : (s.setTrip n x).trip m = if m = n then x else s.trip m :=
  sget_sput _ _ _ _ _

end

theorem wr_trip (s : State) (f : Field) (v m : Nat) : (s.wr f v).trip m = s.trip m :=
  (State.wr_keeps s f v).within.trip rfl m

theorem addSat_trip (s : State) (f : Field) (k m : Nat) : (s.addSat f k).trip m = s.trip m := (State.addSat_keeps s f k).within.trip rfl m

/-! ### The registers of the trip block -/

theorem recordArea_trip {a : Nat} (low : 0x680000 ≤ a) (high : a < 0x700000) : recordArea a = false :=
  recordArea_outside (by omega) (by omega) (by omega)

/-- The registers of a port's session stand in three places of the block. -/
theorem mem_sessionWords {n a : Nat} : a ∈ sessionWords n ↔
    a = 0x680200 + 4 * n ∨ a = 0x680800 + 16 * n ∨ a = 0x680804 + 16 * n ∨ a = 0x680808 + 16 * n ∨ a = 0x68080C + 16 * n := by
  simp only [sessionWords, List.mem_cons, List.not_mem_nil, or_false, TRIP.PORT_STATUS, TRIP.TX_K, TRIP.TX_K_HI, TRIP.RX_BASE, TRIP.RX_BASE_HI]

theorem mem_launchWords {a : Nat} : a ∈ launchWords ↔ ∃ n < 32, a ∈ sessionWords n := by
  simp only [launchWords, List.mem_flatMap, List.mem_range]

theorem launchWords_place {a : Nat} (h : a ∈ launchWords) : 0x680200 ≤ a ∧ a < 0x680280 ∨ 0x680800 ≤ a ∧ a < 0x680A00 := by
  obtain ⟨n, hn, ha⟩ := mem_launchWords.mp h
  rw [mem_sessionWords] at ha
  omega

theorem syncTrip_writes (n : Nat) (s : State) : Writes (sessionWords n) [] s (syncTrip n s) := by
  unfold syncTrip
  refine Writes.step (writes_setPair _ _ ?_ ?_) (Writes.step (writes_setPair _ _ ?_ ?_) (writes_wrs s _ ?status))
  case status =>
    intro e he
    simp only [List.mem_cons, List.not_mem_nil, or_false] at he
    rcases he with rfl | rfl | rfl <;> exact List.mem_cons_self
  all_goals simp [sessionWords]

theorem syncTrip_trip (n : Nat) (s : State) (m : Nat) : (syncTrip n s).trip m = s.trip m := (syncTrip_keeps n s).within.trip rfl m

/-! ### A code sent over the Sideshow link (R119, R216) -/

/-- A port's trip state when its next transmit code has been used up. -/
def TripPort.codeTaken (t : TripPort) : TripPort :=
  match t.txSess with
  | some x => t.setTx x.takeTx.2
  | none => t

/-- The state in which the message is sent: the code used up, where there is a session to send under. -/
def ssTripTaken (n : Nat) (s : State) : State :=
  match (s.trip n).txSess with
  | some x => syncTrip n (s.setTrip n ((s.trip n).setTx x.takeTx.2))
  | none => s

theorem sendSsTrip_sent (n : Nat) (s : State) : ∃ l, sendSsTrip n s = (ssTripTaken n s).withMessages l := by
  unfold sendSsTrip ssTripTaken
  dsimp only
  cases (s.trip n).txSess with
  | some x => exact ⟨_, sendMessage_eq rfl _⟩
  | none => exact ⟨_, sendMessage_eq rfl _⟩

theorem sendSsTrip_writes (n : Nat) (s : State) : Writes (sessionWords n) [.trips, .messages] s (sendSsTrip n s) := by
  obtain ⟨l, sent⟩ := sendSsTrip_sent n s
  rw [sent]
  refine Writes.step ((State.withMessages_keeps _ l).writes rfl rfl) ?_
  unfold ssTripTaken
  split
  · exact Writes.step ((syncTrip_writes n _).mono (List.Subset.refl _) rfl) (writes_setTrip s n _ (by simp))
  · exact .refl _ _ s

theorem sendSsTrip_trip (n : Nat) (s : State) (m : Nat) :
    (sendSsTrip n s).trip m = if m = n then (s.trip n).codeTaken else s.trip m := by
  obtain ⟨l, sent⟩ := sendSsTrip_sent n s
  rw [sent]
  refine Eq.trans (b := (ssTripTaken n s).trip m) rfl ?_
  unfold ssTripTaken TripPort.codeTaken
  split
  · rw [syncTrip_trip, trip_setTrip]
  · split
    · next e => rw [e]
    · rfl

/-! ### One launch request (R118 to R120) -/

/-- Transmit codes that are ready. -/
def TripPort.ready (t : TripPort) : Nat :=
  match t.txSess with
  | some x => x.txCodes.length
  | none => 0

/-- A request that waits. -/
def TripPort.awaiting (t : TripPort) : TripPort := { t with waiting := true }

/-- A burst of the codes that are ready, up to `repeats`; with none ready it waits for the first. -/
def TripPort.bursting (t : TripPort) (repeats : Nat) : TripPort :=
  { t with burst := min t.ready repeats, waiting := decide (t.ready = 0) }

/-- The trip state of port `n` after a launch request on it. -/
def launched (n : Nat) (s : State) : TripPort :=
  let t := s.trip n
  if t.armed then
    if s.fsm n == fsmFretrain then
      if s.actFlag (TRIP.PORT_CFG.ss_fallback.nth n) then t.awaiting.codeTaken else t.awaiting
    else if t.burst ≠ 0 || t.waiting then t
    else t.bursting (s.act (TRIP.PORT_CFG.repeat.nth n))
  else if s.actFlag (TRIP.PORT_CFG.ss_fallback.nth n) then t.codeTaken else t

/-- A burst begins in two steps: tx_starved where fewer codes are ready than asked for, then the port's own state. -/
theorem startBurst_eq (n : Nat) (s : State) : startBurst n s =
    (if (s.trip n).ready < s.act (TRIP.PORT_CFG.repeat.nth n) then s.wr (TRIP.PORT_STATUS.tx_starved.nth n) 1 else s).setTrip n
      ((s.trip n).bursting (s.act (TRIP.PORT_CFG.repeat.nth n))) := rfl

theorem startBurst_writes (n : Nat) (s : State) : Writes (sessionWords n) [.trips, .messages] s (startBurst n s) := by
  rw [startBurst_eq]
  refine Writes.step (writes_setTrip _ n _ (by simp)) ?_
  split
  · exact writes_wr s _ List.mem_cons_self
  · exact .refl _ _ s

theorem startBurst_trip (n : Nat) (s : State) (m : Nat) : (startBurst n s).trip m =
    if m = n then (s.trip n).bursting (s.act (TRIP.PORT_CFG.repeat.nth n)) else s.trip m := by
  have kept (t : State) (f : Field) (v : Nat) (p : Prop) [Decidable p] : (if p then t.wr f v else t).trip m = t.trip m := by
    split
    · exact wr_trip t f v m
    · rfl
  rw [startBurst_eq, trip_setTrip, kept]

theorem setTrip_actFlag (s : State) (n : Nat) (x : TripPort) (f : Field) : (s.setTrip n x).actFlag f = s.actFlag f := rfl

theorem launch_eq (n : Nat) (s : State) : launch n s =
    if (s.trip n).armed then
      if s.fsm n == fsmFretrain then
        if s.actFlag (TRIP.PORT_CFG.ss_fallback.nth n) then sendSsTrip n (s.setTrip n (s.trip n).awaiting)
        else s.setTrip n (s.trip n).awaiting
      else if (s.trip n).burst ≠ 0 || (s.trip n).waiting then s
      else startBurst n s
    else if s.actFlag (TRIP.PORT_CFG.ss_fallback.nth n) then sendSsTrip n s else s.wr (TRIP.PORT_STATUS.tx_dropped.nth n) 1 := by
  simp only [launch, fallback, TripPort.awaiting, setTrip_actFlag]
  congr

theorem launch_writes (n : Nat) (s : State) : Writes (sessionWords n) [.trips, .messages] s (launch n s) := by
  have waits := writes_setTrip (words := sessionWords n) (parts := [.trips, .messages]) s n (s.trip n).awaiting (by simp)
  rw [launch_eq]
  repeat' split
  · exact waits.trans (sendSsTrip_writes n _)
  · exact waits
  · exact .refl _ _ s
  · exact startBurst_writes n s
  · exact sendSsTrip_writes n s
  · exact writes_wr s _ List.mem_cons_self

/-- What a launch request does to the ports' trip state. -/
theorem launch_trip (n : Nat) (s : State) (m : Nat) : (launch n s).trip m = if m = n then launched n s else s.trip m := by
  rw [launch_eq, launched]
  by_cases h : m = n
  · subst h
    simp only [if_true]
    repeat' split
    all_goals simp only [sendSsTrip_trip, trip_setTrip, startBurst_trip, wr_trip, if_true]
  · repeat' split
    all_goals simp only [sendSsTrip_trip, trip_setTrip, startBurst_trip, wr_trip, h, if_false]

/-- A port that can start a burst starts it with the codes that are ready. -/
theorem launched_burst {n : Nat} {s : State} (h : s.CanBurst n) :
    launched n s = (s.trip n).bursting (s.act (TRIP.PORT_CFG.repeat.nth n)) := by
  obtain ⟨armed, notRetraining, burst, waiting⟩ := h
  have other : (s.fsm n == fsmFretrain) = false := beq_eq_false_iff_ne.mpr notRetraining
  simp [launched, armed, other, burst, waiting]

theorem launched_dropped {n : Nat} {s : State} (h : (s.trip n).armed = false) (off : s.actFlag (TRIP.PORT_CFG.ss_fallback.nth n) = false) :
    launched n s = s.trip n := by
  rw [launched, if_neg (by simp [h]), if_neg (by simp [off])]

theorem launch_dropped {n : Nat} {s : State} (h : (s.trip n).armed = false) (off : s.actFlag (TRIP.PORT_CFG.ss_fallback.nth n) = false) :
    launch n s = s.wr (TRIP.PORT_STATUS.tx_dropped.nth n) 1 := by
  rw [launch, if_neg (by simp [h]), fallback, if_neg (by simp [off])]

/-! ### The receive side (R110, R121) -/

/-- What the receive side of a port judges by is the same: the seq and check expected, base and entries of the window. -/
structure TripPort.SameReceiver (t u : TripPort) : Prop where
  seq : u.rxSeq = t.rxSeq
  check : u.rxCheck = t.rxCheck
  window : u.sess.map (fun x => (x.rxBase, x.window)) = t.sess.map (fun x => (x.rxBase, x.window))

theorem TripPort.SameReceiver.refl (t : TripPort) : t.SameReceiver t := ⟨rfl, rfl, rfl⟩

theorem TripPort.SameReceiver.trans {t u v : TripPort} (h : t.SameReceiver u) (k : u.SameReceiver v) : t.SameReceiver v :=
  ⟨k.seq.trans h.seq, k.check.trans h.check, k.window.trans h.window⟩

/-- The run of good slots is no part of it. -/
theorem TripPort.SameReceiver.ofRun (t : TripPort) (k : Nat) : t.SameReceiver { t with goodRun := k } := ⟨rfl, rfl, rfl⟩

/-- Sending a code moves the transmit index alone. -/
theorem TripPort.codeTaken_sameReceiver (t : TripPort) : t.SameReceiver t.codeTaken := by
  unfold TripPort.codeTaken
  split
  · next x hx =>
    cases hs : t.txSwitched
    · have own : t.sess = some x := by simpa [TripPort.txSess, hs] using hx
      simp only [TripPort.setTx, hs, Bool.false_eq_true, if_false]
      exact ⟨rfl, rfl, by simp [own, Sess.takeTx]⟩
    · simp only [TripPort.setTx, hs, if_true]
      exact ⟨rfl, rfl, rfl⟩
  · exact .refl t

theorem launched_sameReceiver (n : Nat) (s : State) : (s.trip n).SameReceiver (launched n s) := by
  unfold launched
  dsimp only
  repeat' split
  · exact TripPort.SameReceiver.trans (u := (s.trip n).awaiting) ⟨rfl, rfl, rfl⟩ (TripPort.codeTaken_sameReceiver _)
  · exact ⟨rfl, rfl, rfl⟩
  · exact .refl _
  · exact ⟨rfl, rfl, rfl⟩
  · exact TripPort.codeTaken_sameReceiver _
  · exact .refl _

/-! ### Launch requests on several ports (R117) -/

/-- The registers that follow the sessions of the other ports. -/
def otherSessions (n : Nat) : List Nat := ((List.range 32).filter (· ≠ n)).flatMap sessionWords

theorem mem_otherSessions {n a : Nat} : a ∈ otherSessions n ↔ ∃ m < 32, m ≠ n ∧ a ∈ sessionWords m := by
  simp only [otherSessions, List.mem_flatMap, List.mem_filter, List.mem_range, decide_eq_true_eq, and_assoc]

/-- Port `n` is as it was: its trip state, and every register but those of the other ports' sessions. -/
structure Apart (n : Nat) (s t : State) : Prop where
  trip : t.trip n = s.trip n
  registers : ∀ a, a ∉ otherSessions n → t.word a = s.word a

theorem Apart.rd {n : Nat} {s t : State} (h : Apart n s t) (f : Field) (hf : f.addr ∉ otherSessions n) : t.rd f = s.rd f := by
  rw [State.rd, h.registers _ hf, State.rd]

/-- A register of a port's session, or one outside the status registers, is none of another port's session. -/
theorem notMem_otherSessions {n a : Nat} (hn : n < 32) (h : a = 0x680200 + 4 * n ∨ a < 0x680200 ∨ 0x680A00 ≤ a) : a ∉ otherSessions n := by
  intro hm
  obtain ⟨m, hm, hne, ha⟩ := mem_otherSessions.mp hm
  rw [mem_sessionWords] at ha
  omega

theorem launch_apart {m n : Nat} (hm : m < 32) (h : m ≠ n) (s : State) : Apart n s (launch m s) where
  trip := (launch_trip m s n).trans (if_neg h.symm)
  registers := fun a ha => (launch_writes m s).registers a fun k => ha (mem_otherSessions.mpr ⟨m, hm, h, k⟩)

/-- Requests on a list of other ports. -/
theorem launches_apart {n : Nat} (ports : Word) (l : List Nat) (s : State) (hl : ∀ m ∈ l, m < 32 ∧ m ≠ n) :
    Apart n s (l.foldl (fun s m => if bitOf ports m then launch m s else s) s) := by
  induction l generalizing s with
  | nil => exact ⟨rfl, fun _ _ => rfl⟩
  | cons m l ih =>
    obtain ⟨hm, hne⟩ := hl m List.mem_cons_self
    have rest := ih (if bitOf ports m then launch m s else s) fun k hk => hl k (List.mem_cons_of_mem _ hk)
    have first : Apart n s (if bitOf ports m then launch m s else s) := by
      split
      · exact launch_apart hm hne s
      · exact ⟨rfl, fun _ _ => rfl⟩
    exact ⟨rest.trip.trans first.trip, fun a ha => (rest.registers a ha).trans (first.registers a ha)⟩

/-- A port is reached once: the requests before it and after it leave it alone. -/
theorem launchAll_at {n : Nat} (hn : n < 32) (ports : Word) (s : State) :
    ∃ r, Apart n s r ∧ Apart n (if bitOf ports n then launch n r else r) (launchAll ports s) := by
  obtain ⟨before, after, split⟩ := List.mem_iff_append.mp (List.mem_range.mpr hn)
  have once : (before ++ n :: after).Nodup := split ▸ List.nodup_range
  obtain ⟨outside, -⟩ := List.nodup_cons.mp (List.nodup_middle.mp once)
  have listed (m : Nat) (hm : m ∈ before ++ after) : m < 32 ∧ m ≠ n := by
    refine ⟨List.mem_range.mp (split ▸ ?_), fun e => outside (e ▸ hm)⟩
    rcases List.mem_append.mp hm with h | h
    · exact List.mem_append_left _ h
    · exact List.mem_append_right _ (List.mem_cons_of_mem _ h)
  refine ⟨_, launches_apart ports before s fun m hm => listed m (List.mem_append_left _ hm), ?_⟩
  rw [launchAll, split, List.foldl_append, List.foldl_cons]
  exact launches_apart ports after _ fun m hm => listed m (List.mem_append_right _ hm)

theorem Apart.launched {n : Nat} {s r : State} (hn : n < 32) (h : Apart n s r) : launched n r = launched n s := by
  have config (f : Field) (hf : f.addr = 0x680100 + 4 * n) : r.act f = s.act f :=
    h.rd f.active (notMem_otherSessions hn (.inr (.inr (by simp only [Field.active, hf]; omega))))
  have state : r.fsm n = s.fsm n :=
    h.rd (P.AN_STATUS.state.port n) (notMem_otherSessions hn (.inr (.inl (by simp only [Field.port, P.AN_STATUS.state]; omega))))
  rw [Machine.launched, Machine.launched, h.trip, state, State.actFlag, config _ rfl, config _ rfl, State.actFlag]

/-- What requests on the ports of a mask do to each port's trip state. -/
theorem launchAll_trip {n : Nat} (hn : n < 32) (ports : Word) (s : State) :
    (launchAll ports s).trip n = if bitOf ports n then launched n s else s.trip n := by
  obtain ⟨r, before, after⟩ := launchAll_at hn ports s
  rw [after.trip]
  split
  · rw [launch_trip, if_pos rfl, before.launched hn]
  · exact before.trip

theorem launchAll_writes (ports : Word) (s : State) : Writes launchWords [.trips, .messages] s (launchAll ports s) := by
  refine Writes.foldl _ s fun t n hn => ?_
  split
  · exact (launch_writes n t).mono (fun a ha => mem_launchWords.mpr ⟨n, List.mem_range.mp hn, ha⟩) rfl
  · exact .refl _ _ t

theorem launchAll_sameReceiver {n : Nat} (hn : n < 32) (ports : Word) (s : State) :
    (s.trip n).SameReceiver ((launchAll ports s).trip n) := by
  rw [launchAll_trip hn]
  split
  · exact launched_sameReceiver n s
  · exact .refl _

/-- A request that is dropped shows in tx_dropped of its port. -/
theorem launchAll_dropped {n : Nat} (hn : n < 32) {ports : Word} {s : State} (named : bitOf ports n = true)
    (unarmed : (s.trip n).armed = false) (off : s.actFlag (TRIP.PORT_CFG.ss_fallback.nth n) = false) :
    (launchAll ports s).rd (TRIP.PORT_STATUS.tx_dropped.nth n) = 1 ∧ (launchAll ports s).trip n = s.trip n := by
  refine ⟨?_, by rw [launchAll_trip hn, if_pos named, launched_dropped unarmed off]⟩
  obtain ⟨r, before, after⟩ := launchAll_at hn ports s
  have still : r.actFlag (TRIP.PORT_CFG.ss_fallback.nth n) = false := by
    rw [State.actFlag, State.act, before.rd _ (notMem_otherSessions hn (.inr (.inr ?_)))]
    · exact off
    · simp only [Field.active, Field.nth, TRIP.PORT_CFG.ss_fallback]; omega
  rw [after.rd _ (notMem_otherSessions hn (.inl rfl)), if_pos named, launch_dropped (before.trip ▸ unarmed) still]
  exact rd_wr_same r (TRIP.PORT_STATUS.tx_dropped.nth n) 1 (show 23 + 1 ≤ 32 by decide)

/-- A named port that can start a burst starts it. -/
theorem launchAll_bursts {n : Nat} (hn : n < 32) {ports : Word} {s : State} (named : bitOf ports n = true) (can : s.CanBurst n) :
    Bursts n s (launchAll ports s) := by
  rintro ready rfl
  rw [launchAll_trip hn, if_pos named, launched_burst can]
  rfl

end Sys2Proof.Machine
end

section
/-! SUPPORT. The outputs TRIP_OUT: what OUT_STATUS shows of their conditions, holds, latches (R124, R125). -/

namespace Sys2Proof.Machine

/-! ### Bits of a field -/

/-- The number a list of bits spells, lowest first. -/
def bitsValue (l : List Bool) : Nat := l.foldr (fun b v => bitNat b + 2 * v) 0

theorem sum_zipIdx_eq (l : List Bool) (k : Nat) : ((l.zipIdx k).map (fun e => bitNat e.1 * 2 ^ e.2)).sum = 2 ^ k * bitsValue l := by
  induction l generalizing k with
  | nil => rfl
  | cons b l ih =>
    have next : bitsValue (b :: l) = bitNat b + 2 * bitsValue l := rfl
    rw [List.zipIdx_cons, List.map_cons, List.sum_cons, ih, next]
    ring

theorem testBit_bitsValue (l : List Bool) (j : Nat) : (bitsValue l).testBit j = l.getD j false := by
  induction l generalizing j with
  | nil => simp [bitsValue]
  | cons b l ih =>
    have next : bitsValue (b :: l) = Nat.bit b (bitsValue l) := by
      rw [Nat.bit_val, Nat.add_comm]
      cases b <;> rfl
    cases j with
    | zero => rw [next, Nat.testBit_bit_zero]; rfl
    | succ j => rw [next, Nat.testBit_bit_succ, ih]; rfl

theorem bitOf_eq_bitsOf (w : Word) (l k j : Nat) (h : j < k) : bitOf w (l + j) = (bitsOf w l k).testBit j := by
  rw [bitOf, BitVec.getLsbD, bitsOf, Nat.testBit_mod_two_pow, Nat.testBit_div_two_pow]
  simp [h, Nat.add_comm]

/-- The bits of a field that was written. -/
theorem bitOf_withBits {l k j : Nat} (w : Word) (v : Nat) (h : l + k ≤ 32) (hj : j < k) : bitOf (withBits w l k v) (l + j) = v.testBit j := by
  rw [bitOf_eq_bitsOf _ l k j hj, bitsOf_withBits w l k v h, Nat.testBit_mod_two_pow]
  simp [hj]

/-- The bits beside a field that was written. -/
theorem bitOf_withBits_apart {l k j : Nat} (w : Word) (v : Nat) (h : l + k ≤ 32) (hj : j < l ∨ l + k ≤ j) :
    bitOf (withBits w l k v) j = bitOf w j := by
  rw [← Nat.add_zero j, bitOf_eq_bitsOf _ j 1 0 Nat.one_pos, bitsOf_withBits_apart w v h (by omega), ← bitOf_eq_bitsOf _ j 1 0 Nat.one_pos]

/-! ### OUT_STATUS follows the conditions (R124) -/

theorem refreshOuts_writes (before : List Bool) (s : State) : Writes [TRIP.OUT_STATUS] [] s (refreshOuts before s) := by
  refine Writes.step ((State.emits_keeps _ _).writes rfl rfl) ?_
  exact writes_wr s (f := TRIP.OUT_STATUS.asserted) _ List.mem_cons_self

theorem refreshOuts_word (before : List Bool) (s : State) : (refreshOuts before s).word TRIP.OUT_STATUS =
    withBits (s.word TRIP.OUT_STATUS) 0 8 (bitsValue ((List.range 8).map fun j => s.outAsserted j)) := by
  rw [← Nat.one_mul (bitsValue _), ← Nat.pow_zero 2, ← sum_zipIdx_eq]
  exact word_setWord_same s TRIP.OUT_STATUS _

/-- The low bits show the outputs' conditions. -/
theorem refreshOuts_asserted (before : List Bool) (s : State) {j : Nat} (hj : j < 8) :
    bitOf ((refreshOuts before s).word TRIP.OUT_STATUS) j = s.outAsserted j := by
  rw [refreshOuts_word, ← Nat.zero_add j, bitOf_withBits _ _ (by decide) hj, testBit_bitsValue]
  simp [hj]

/-- The latches stay. -/
theorem refreshOuts_latched (before : List Bool) (s : State) (j : Nat) :
    bitOf ((refreshOuts before s).word TRIP.OUT_STATUS) (8 + j) = bitOf (s.word TRIP.OUT_STATUS) (8 + j) := by
  rw [refreshOuts_word, bitOf_withBits_apart _ _ (by decide) (by omega)]

/-- The registers an output's condition reads beside OUT_STATUS. -/
def conditionArea (a : Nat) : Bool :=
  decide (0x680000 ≤ a) && decide (a < 0x700000) && decide (a ≠ TRIP.OUT_STATUS) || decide (a = PWR.REQ_STATUS) || decide (a = CHIP.RESET_CAUSE)

/-- Two states in which every output's condition is the same: clock, holds, sessions, latches and the registers read. -/
structure SameConditions (s t : State) : Prop where
  clk : t.clk = s.clk
  pins : t.pins = s.pins
  trips : t.trips = s.trips
  registers : ∀ a, conditionArea a = true → t.word a = s.word a
  latched : ∀ j < 8, bitOf (t.word TRIP.OUT_STATUS) (8 + j) = bitOf (s.word TRIP.OUT_STATUS) (8 + j)

theorem conditionArea_trip {a : Nat} (low : 0x680100 ≤ a) (high : a < 0x700000) : conditionArea a = true := by
  simp only [conditionArea, Bool.or_eq_true, Bool.and_eq_true, decide_eq_true_eq]
  simp only [TRIP.OUT_STATUS]
  omega

theorem SameConditions.outAsserted {s t : State} (h : SameConditions s t) {j : Nat} (hj : j < 8) : t.outAsserted j = s.outAsserted j := by
  obtain ⟨clk, pins, trips, registers, latched⟩ := h
  have field (f : Field) (hf : conditionArea f.addr = true) : t.rd f = s.rd f := by rw [State.rd, registers _ hf, State.rd]
  have config (f : Field) (hf : 0x680000 ≤ f.addr ∧ f.addr < 0x680100) : t.actFlag f = s.actFlag f := by
    rw [State.actFlag, State.act, field f.active (conditionArea_trip (by simp only [Field.active]; omega) (by simp only [Field.active]; omega)),
      State.actFlag, State.act]
  have beats (n : Nat) (hn : n < 32) : t.hbAsserts n = s.hbAsserts n := by
    have lost := field (TRIP.PORT_STATUS.hb_lost.nth n) (conditionArea_trip (by simp only [Field.nth, TRIP.PORT_STATUS.hb_lost]; omega)
      (by simp only [Field.nth, TRIP.PORT_STATUS.hb_lost]; omega))
    rw [State.hbAsserts, State.flag, lost, State.trip, trips, State.hbAsserts, State.flag, State.trip]
  have mapped : (List.range 32).any (fun n => bitOf (t.word (TRIP.OUT_MAP + 4 * j + 0x8000)) n && t.hbAsserts n) =
      (List.range 32).any (fun n => bitOf (s.word (TRIP.OUT_MAP + 4 * j + 0x8000)) n && s.hbAsserts n) := by
    rw [registers _ (conditionArea_trip (by simp only [TRIP.OUT_MAP]; omega) (by simp only [TRIP.OUT_MAP]; omega))]
    rw [Bool.eq_iff_iff, List.any_eq_true, List.any_eq_true]
    simp only [List.mem_range]
    exact exists_congr fun n => and_congr_right fun hn => by rw [beats n hn]
  rw [State.outAsserted, config _ (by simp only [Field.nth, TRIP.OUT_CFG.enable]; omega),
    config _ (by simp only [Field.nth, TRIP.OUT_CFG.hb_action]; omega), mapped, latched j hj, State.outHeld, pins, State.awake,
    field PWR.REQ_STATUS.state (by decide), clk, State.safeHold, field CHIP.RESET_CAUSE.safe_reason (by decide)]
  rfl

theorem refreshOuts_sameConditions (before : List Bool) (s : State) : SameConditions s (refreshOuts before s) where
  clk := rfl
  pins := rfl
  trips := rfl
  registers := fun a ha => (refreshOuts_writes before s).registers a fun hm => by
    rw [List.mem_singleton.mp hm] at ha
    exact absurd ha (by decide)
  latched := fun j _ => refreshOuts_latched before s j

/-- What OUT_STATUS shows is each output's condition. -/
theorem refreshOuts_shows (before : List Bool) (s : State) {j : Nat} (hj : j < 8) :
    bitOf ((refreshOuts before s).word TRIP.OUT_STATUS) j = (refreshOuts before s).outAsserted j :=
  (refreshOuts_asserted before s hj).trans ((refreshOuts_sameConditions before s).outAsserted hj).symm

/-- Something that writes registers outside EVT, with the outputs following. -/
theorem withOuts_writes {words : List Nat} {parts : List Part} {f : State → State} {s : State} (h : Writes words parts s (f s)) :
    Writes (TRIP.OUT_STATUS :: words) parts s (withOuts f s) :=
  (h.mono (List.subset_cons_self _ _) (by simp +contextual)).trans ((refreshOuts_writes _ _).mono (by simp) (by simp))

/-- An accepted code starts holds and sets latches. -/
theorem driveOuts_writes (n : Nat) (s : State) : Writes [TRIP.OUT_STATUS] [.pins] s (driveOuts n s) := by
  refine (withOuts_writes (words := [TRIP.OUT_STATUS]) (parts := [.pins]) (Writes.foldl _ s fun t j _ => ?_)).mono (by simp) rfl
  have held (p : TripPins) : Writes [TRIP.OUT_STATUS] [.pins] t { t with pins := p } := (State.withPins_keeps t p).writes rfl rfl
  split
  · dsimp only
    split
    · exact (held _).trans (writes_setWord _ _ List.mem_cons_self)
    · exact held _
  · exact .refl _ _ t

theorem driveOuts_trip (n : Nat) (s : State) (m : Nat) : (driveOuts n s).trip m = s.trip m := (driveOuts_keeps n s).within.trip rfl m

end Sys2Proof.Machine
end

section
/-! SUPPORT. Received slots: codes that are accepted, good, damaged and wrong slots (R110, R111, R121, R122). -/

namespace Sys2Proof.Machine

/-! ### Events with a cause bit -/

theorem causeEvent_changes {words : List Nat} {a b e : Nat} (s : State) (ha : a ∈ words) (he : e < 256) :
    Changes words [] s (causeEvent a b e s) := Changes.trans (changes_setWord s _ _ ha) (causeEvent_aside a b e s he).changes

theorem causeEvent_rises (a b e : Nat) (s : State) : Rises s (causeEvent a b e s) :=
  (orWord_rises s _ _).trans ((setPend_rises e _).trans (mapped_rises e _ _ _))

theorem causeEvent_bit {a b e : Nat} (s : State) (ha : recordArea a = false) (hb : b < 32) (he : e < 256) :
    bitOf ((causeEvent a b e s).word a) b = true := by
  rw [(causeEvent_aside a b e s he).words a ha, word_orWord, if_pos rfl, bitOf, BitVec.getLsbD_or, ← bitOf, ← bitOf, bitOf_two_pow b hb]
  simp

section
variable {n : Nat} (hn : n < 32) (s : State)
include hn

theorem tripEvent_changes (b : Nat) : Changes [TRIP.PORT_CAUSE + 4 * n] [] s (tripEvent n b s) :=
  causeEvent_changes s List.mem_cons_self (by omega)

theorem tripEvent_pend (b : Nat) : (tripEvent n b s).pend (6 * n + 2) = true := causeEvent_pend _ b s (by omega)

theorem recordArea_portCause : recordArea (TRIP.PORT_CAUSE + 4 * n) = false :=
  recordArea_trip (by simp only [TRIP.PORT_CAUSE]; omega) (by simp only [TRIP.PORT_CAUSE]; omega)

theorem tripEvent_bit {b : Nat} (hb : b < 32) : bitOf ((tripEvent n b s).word (TRIP.PORT_CAUSE + 4 * n)) b = true :=
  causeEvent_bit s (recordArea_portCause hn) hb (by omega)

end

theorem fallArea_trip {a : Nat} (low : 0x680000 ≤ a) (high : a < 0x700000) : fallArea a = false := by
  simp only [fallArea, Bool.or_eq_false_iff, Bool.and_eq_false_iff, decide_eq_false_iff_not]
  simp only [PERF.CNT, LOG.STATUS, LOG.TRACE_DROP]
  omega

theorem tripEvent_trip (n b : Nat) (s : State) (m : Nat) : (tripEvent n b s).trip m = s.trip m := (tripEvent_keeps n b s).within.trip rfl m

theorem noteTrip_writes (n kind : Nat) (s : State) : Writes [] [.sides] s (noteTrip n kind s) := (noteTrip_keeps n kind s).writes rfl rfl

theorem noteTrip_trip (n kind : Nat) (s : State) (m : Nat) : (noteTrip n kind s).trip m = s.trip m := (noteTrip_keeps n kind s).within.trip rfl m

theorem withOuts_wr_trip (f : Field) (v : Nat) (s : State) (m : Nat) : (withOuts (fun s => s.wr f v) s).trip m = s.trip m :=
  (refreshOuts_keeps _ _).within.trip rfl m

/-! ### Accepted codes (R121, R124, R126) -/

theorem acceptEffects_writes (n : Nat) (s : State) :
    Writes (TRIP.OUT_STATUS :: launchWords) [.pins, .trips, .messages] s (acceptEffects n s) :=
  ((driveOuts_writes n s).mono (by simp) rfl).trans ((launchAll_writes _ _).mono (List.subset_cons_self _ _) rfl)

theorem acceptEffects_sameReceiver {n : Nat} (hn : n < 32) (s : State) : (s.trip n).SameReceiver ((acceptEffects n s).trip n) := by
  have relayed := launchAll_sameReceiver hn (s.word (TRIP.RELAY_MAP + 4 * n + 0x8000)) (driveOuts n s)
  rwa [driveOuts_trip] at relayed

/-- What a code accepted as entry `i` of the window does: base and window, count, cause bit `b` and event, side channel, outputs, relays. -/
def codeAccepted (n i kind b : Nat) (s : State) : State :=
  acceptEffects n (noteTrip n kind (tripEvent n b
    ((syncTrip n (s.modTrip n (fun t => t.advance false i))).addSat (TRIP.PORT_CNT_ACC.count.nth n) 1)))

/-- What is read of port `n` when a code that equals entry `i` of the window of session `x` has been accepted. -/
structure Accepted (n b i : Nat) (x : Sess) (s u : State) : Prop where
  counted : u.rd (TRIP.PORT_CNT_ACC.count.nth n) = min 0xFFFFFFFF (s.rd (TRIP.PORT_CNT_ACC.count.nth n) + 1)
  wrong : u.rd (TRIP.PORT_CNT_WRONG.count.nth n) = s.rd (TRIP.PORT_CNT_WRONG.count.nth n)
  cause : bitOf (u.word (TRIP.PORT_CAUSE + 4 * n)) b = true
  raised : u.pend (6 * n + 2) = true
  receiver : TripPort.SameReceiver { s.trip n with sess := some (x.acceptAt i) } (u.trip n)

/-- The registers of an accepted code's effects are none of the port's counters and causes. -/
theorem notMem_effects {n a : Nat} (hn : n < 32) (h : a = 0x680280 + 4 * n ∨ a = 0x680400 + 16 * n ∨ a = 0x680404 + 16 * n) :
    a ∉ TRIP.OUT_STATUS :: launchWords := by
  intro hm
  rcases List.mem_cons.mp hm with e | hm
  · rw [TRIP.OUT_STATUS] at e
    omega
  · have := launchWords_place hm
    omega

theorem codeAccepted_accepted {n i b : Nat} {s : State} {x : Sess} (hn : n < 32) (kind : Nat) (hb : b < 32)
    (own : (s.trip n).sess = some x) : Accepted n b i x s (codeAccepted n i kind b s) := by
  have moved : Writes (sessionWords n) [.trips] s (syncTrip n (s.modTrip n (fun t => t.advance false i))) :=
    (writes_modTrip s n _ (by simp)).trans ((syncTrip_writes n _).mono (List.Subset.refl _) rfl)
  unfold codeAccepted
  generalize hr : syncTrip n (s.modTrip n (fun t => t.advance false i)) = r at moved
  have advanced : r.trip n = { s.trip n with sess := some (x.acceptAt i) } := by
    rw [← hr, syncTrip_trip, trip_modTrip, TripPort.advance, own]
    rfl
  generalize hc : r.addSat (TRIP.PORT_CNT_ACC.count.nth n) 1 = c
  have counting : Writes [TRIP.PORT_CNT_ACC + 16 * n] [] r c := hc ▸ writes_wr r _ List.mem_cons_self
  have event := tripEvent_changes hn c b
  have effects : Writes (TRIP.OUT_STATUS :: launchWords) [.pins, .trips, .messages, .sides] (tripEvent n b c)
      (acceptEffects n (noteTrip n kind (tripEvent n b c))) :=
    ((noteTrip_writes n kind _).mono (List.nil_subset _) rfl).trans ((acceptEffects_writes n _).mono (List.Subset.refl _) rfl)
  have counter (f : Field) (hf : f.addr = 0x680400 + 16 * n ∨ f.addr = 0x680404 + 16 * n) :
      (acceptEffects n (noteTrip n kind (tripEvent n b c))).rd f = c.rd f := by
    rw [effects.rd f (notMem_effects hn (.inr hf)), event.rd f (by rw [List.mem_singleton, TRIP.PORT_CAUSE]; omega)
      (recordArea_trip (by omega) (by omega))]
  have still (f : Field) (hf : f.addr = 0x680400 + 16 * n ∨ f.addr = 0x680404 + 16 * n) : r.rd f = s.rd f :=
    moved.rd f (by rw [mem_sessionWords]; omega)
  refine ⟨?_, ?_, ?_, ?_, ?_⟩
  · rw [counter _ (.inl rfl), ← hc, rd_addSat_same _ _ _ (show 0 + 32 ≤ 32 by decide), still _ (.inl rfl), satAdd]
    rfl
  · rw [counter _ (.inr rfl), counting.rd _ ?_, still _ (.inr rfl)]
    simp only [Field.nth, TRIP.PORT_CNT_WRONG.count, TRIP.PORT_CNT_ACC, List.mem_singleton]
    omega
  · rw [effects.registers (TRIP.PORT_CAUSE + 4 * n) (notMem_effects hn (.inl rfl))]
    exact tripEvent_bit hn c hb
  · rw [effects.pend (fun a ha => ?_) (by omega)]
    · exact tripEvent_pend hn c b
    · rcases List.mem_cons.mp ha with rfl | ha
      · decide
      · have := launchWords_place ha
        omega
  · have same := acceptEffects_sameReceiver hn (noteTrip n kind (tripEvent n b c))
    rw [noteTrip_trip, tripEvent_trip, counting.rest.trip rfl, advanced] at same
    exact same

/-! ### Good slots (R110, R111) -/

theorem hbWritten_writes (n v : Nat) (s : State) :
    Writes [TRIP.OUT_STATUS, TRIP.PORT_STATUS + 4 * n] [] s (withOuts (fun s => s.wr (TRIP.PORT_STATUS.hb_lost.nth n) v) s) :=
  withOuts_writes (writes_wr s _ List.mem_cons_self)

/-- The registers a good slot writes. -/
def goodWords (n : Nat) : List Nat := [TRIP.PORT_STATUS + 4 * n, TRIP.PORT_CAUSE + 4 * n, TRIP.OUT_STATUS]

theorem mem_goodWords {n a : Nat} : a ∈ goodWords n ↔ a = 0x680200 + 4 * n ∨ a = 0x680280 + 4 * n ∨ a = 0x680084 := by
  simp only [goodWords, List.mem_cons, List.not_mem_nil, or_false, TRIP.PORT_STATUS, TRIP.PORT_CAUSE, TRIP.OUT_STATUS]

/-- A good slot counts toward the run, and may report the heartbeat back. -/
theorem goodSlot_cases (n : Nat) (s : State) : ∃ r, r = s.modTrip n (fun t => { t with goodRun := t.goodRun + 1 }) ∧
    (goodSlot n s = r ∨
      goodSlot n s = noteTrip n 2 (tripEvent n 2 (withOuts (fun s => s.wr (TRIP.PORT_STATUS.hb_lost.nth n) 0) r))) := by
  refine ⟨_, rfl, ?_⟩
  unfold goodSlot
  dsimp only
  split
  · exact .inr rfl
  · exact .inl rfl

theorem goodSlot_trip (n : Nat) (s : State) : (goodSlot n s).trip n = { s.trip n with goodRun := (s.trip n).goodRun + 1 } := by
  obtain ⟨r, rfl, h | h⟩ := goodSlot_cases n s
  · rw [h, trip_modTrip]
  · rw [h, noteTrip_trip, tripEvent_trip, withOuts_wr_trip, trip_modTrip]

theorem goodSlot_sameReceiver (n : Nat) (s : State) : (s.trip n).SameReceiver ((goodSlot n s).trip n) := by
  rw [goodSlot_trip]
  exact .ofRun _ _

section
variable {n : Nat} (hn : n < 32) (s : State)
include hn

theorem goodSlot_changes : Changes (goodWords n) [.trips, .sides] s (goodSlot n s) := by
  refine ⟨fun a ha hr => ?_, (goodSlot_keeps n s).within.mono rfl⟩
  obtain ⟨r, rfl, h | h⟩ := goodSlot_cases n s
  · rw [h]
    rfl
  · simp only [goodWords, List.mem_cons, List.not_mem_nil, or_false, not_or] at ha
    obtain ⟨status, cause, out⟩ := ha
    rw [h, (noteTrip_writes n 2 _).registers a (by simp), (tripEvent_changes hn _ 2).registers a (by simpa using cause) hr,
      (hbWritten_writes n 0 _).registers a (by simp [status, out])]
    rfl

/-- What was raised stays raised: a cause bit of the port, a pending event. -/
theorem goodSlot_raised {b e : Nat} (he : e < 256) (hb : bitOf (s.word (TRIP.PORT_CAUSE + 4 * n)) b = true) (hp : s.pend e = true) :
    bitOf ((goodSlot n s).word (TRIP.PORT_CAUSE + 4 * n)) b = true ∧ (goodSlot n s).pend e = true := by
  obtain ⟨r, rfl, h | h⟩ := goodSlot_cases n s
  · rw [h]
    exact ⟨hb, hp⟩
  · have written := hbWritten_writes n 0 (s.modTrip n (fun t => { t with goodRun := t.goodRun + 1 }))
    have noted := noteTrip_writes n 2 (tripEvent n 2 (withOuts (fun s => s.wr (TRIP.PORT_STATUS.hb_lost.nth n) 0)
      (s.modTrip n (fun t => { t with goodRun := t.goodRun + 1 }))))
    rw [h, noted.registers _ (by simp), noted.pend (by simp) he]
    refine ⟨(causeEvent_rises _ 2 _ _).bits _ ?_ b ?_, (causeEvent_rises _ 2 _ _).pend he ?_⟩
    · exact fallArea_trip (by simp only [TRIP.PORT_CAUSE]; omega) (by simp only [TRIP.PORT_CAUSE]; omega)
    · rw [written.registers (TRIP.PORT_CAUSE + 4 * n) ?_]
      · exact hb
      · simp only [TRIP.PORT_CAUSE, TRIP.OUT_STATUS, TRIP.PORT_STATUS, List.mem_cons, List.not_mem_nil, or_false]
        omega
    · rw [written.pend ?_ he]
      · exact hp
      · simp only [TRIP.OUT_STATUS, TRIP.PORT_STATUS, List.mem_cons, List.not_mem_nil, or_false, forall_eq_or_imp, forall_eq]
        omega

end

/-- A good slot after an accepted code keeps what the code did. -/
theorem Accepted.goodSlot {n b i : Nat} {x : Sess} {s u : State} (hn : n < 32) (h : Accepted n b i x s u) :
    Accepted n b i x s (goodSlot n u) := by
  obtain ⟨counted, wrong, cause, raised, receiver⟩ := h
  obtain ⟨cause, raised⟩ := goodSlot_raised hn u (by omega) cause raised
  have counter (f : Field) (hf : f.addr = 0x680400 + 16 * n ∨ f.addr = 0x680404 + 16 * n) : (Machine.goodSlot n u).rd f = u.rd f := by
    refine (goodSlot_changes hn u).rd f ?_ (recordArea_trip (by omega) (by omega))
    rw [mem_goodWords]
    omega
  exact ⟨(counter _ (.inl rfl)).trans counted, (counter _ (.inr rfl)).trans wrong, cause, raised,
    receiver.trans (goodSlot_sameReceiver n u)⟩

/-! ### Wrong and damaged slots (R110, R122) -/

/-- The times of the wrong codes of the last second, this one's among them. -/
def State.wrongTimes (s : State) (n : Nat) : List Nat := (s.trip n).wrong.filter (fun t => decide (s.now - t < 1000000000)) ++ [s.now]

/-- A wrong code is kept in mind toward lockout. -/
def wrongKept (n : Nat) (s : State) : State := s.modTrip n (fun t => { t with wrong := s.wrongTimes n })

/-- What a wrong code does when it has been counted: toward lockout while the window is full. -/
def wrongNoted (n : Nat) (s : State) : State :=
  if !decide (s.rd (TRIP.PORT_STATUS.win_ready.nth n) ≥ s.windowSize n) then s
  else if 8 ≤ (s.wrongTimes n).length && !(wrongKept n s).flag (TRIP.PORT_STATUS.lockout.nth n) then
    noteTrip n 3 (causeAlarm (TRIP.PORT_CAUSE + 4 * n) 3 (6 * n + 2) ((wrongKept n s).wr (TRIP.PORT_STATUS.lockout.nth n) 1))
  else wrongKept n s

theorem wrongCode_eq (n : Nat) (s : State) : wrongCode n s = wrongNoted n (s.addSat (TRIP.PORT_CNT_WRONG.count.nth n) 1) := by
  unfold wrongCode
  generalize s.addSat _ 1 = r
  rfl

theorem wrongNoted_changes {n : Nat} (hn : n < 32) (s : State) :
    Changes [TRIP.PORT_STATUS + 4 * n, TRIP.PORT_CAUSE + 4 * n] [.trips, .sides] s (wrongNoted n s) := by
  have kept : Changes [TRIP.PORT_STATUS + 4 * n, TRIP.PORT_CAUSE + 4 * n] [.trips, .sides] s (wrongKept n s) :=
    changes_parts rfl ((State.modTrip_keeps s n _).within.mono rfl)
  unfold wrongNoted
  split
  · exact changes_refl _ _ s
  · split
    · refine Changes.step (((noteTrip_writes n 3 _).mono (List.nil_subset _) rfl).changes (parts := [.sides]) rfl) (Changes.step ?_ kept)
      exact ((changes_wr _ (TRIP.PORT_STATUS.lockout.nth n) 1 List.mem_cons_self).trans (changes_setWord _ _ _ (by simp))).trans
        (causeAlarm_aside _ _ _ _ (by omega)).changes
    · exact kept

theorem wrongNoted_sameReceiver (n : Nat) (s : State) : (s.trip n).SameReceiver ((wrongNoted n s).trip n) := by
  have kept : (s.trip n).SameReceiver ((wrongKept n s).trip n) := by
    rw [wrongKept, trip_modTrip]
    exact ⟨rfl, rfl, rfl⟩
  unfold wrongNoted
  split
  · exact .refl _
  · split
    · rw [noteTrip_trip, (causeAlarm_keeps _ _ _ _).within.trip rfl, wr_trip]
      exact kept
    · exact kept

end Sys2Proof.Machine
end

section
/-! SUPPORT. The judgement of a received slot (R108 to R110, R121). -/

namespace Sys2Proof.Machine

/-! ### A word and the window (R121) -/

theorem Sess.contains_eq_isSome_find (x : Sess) (w : BitVec 64) : x.window.contains w = (x.find w).isSome := by
  rw [Sess.find, List.findIdx?_isSome, List.contains_eq_any_beq]
  simp only [Bool.beq_comm]

theorem Sess.getElem?_of_find {x : Sess} {w : BitVec 64} {i : Nat} (h : x.find w = some i) : x.window[i]? = some w := by
  obtain ⟨hi, hw, -⟩ := List.findIdx?_eq_some_iff_getElem.mp h
  rw [List.getElem?_eq_getElem hi, eq_of_beq hw]

/-- Outside a changeover a word is looked for in the window of the session in force alone. -/
theorem TripPort.match?_alone {t : TripPort} (none : t.next = none) (rx : t.rxSwitched = false) (w : BitVec 64) :
    t.match? w = (t.sess.bind (·.find w)).map (fun i => (false, i)) := by
  simp only [TripPort.match?, none, rx, Bool.false_eq_true, if_false, Option.bind_none]
  cases t.sess.bind (·.find w) <;> rfl

/-- A word that is judged as a code and stands in the window. -/
def State.hits (s : State) (n : Nat) (w : BitVec 64) : Bool :=
  (s.trip n).armed && !s.flag (TRIP.PORT_STATUS.lockout.nth n) && s.fsm n == 6 &&
    (match (s.trip n).sess with
      | some x => x.window.contains w
      | none => false)

theorem State.hits_some {s : State} {n : Nat} {w : BitVec 64} (h : s.hits n w = true) :
    (s.trip n).armed = true ∧ s.flag (TRIP.PORT_STATUS.lockout.nth n) = false ∧ s.fsm n = fsmData ∧
      ∃ x i, (s.trip n).sess = some x ∧ x.find w = some i := by
  unfold State.hits at h
  cases own : (s.trip n).sess with
  | none => simp [own] at h
  | some x =>
    simp only [own, Bool.and_eq_true, Bool.not_eq_true', beq_iff_eq, Sess.contains_eq_isSome_find] at h
    obtain ⟨⟨⟨armed, free⟩, data⟩, found⟩ := h
    obtain ⟨i, found⟩ := Option.isSome_iff_exists.mp found
    exact ⟨armed, free, data, x, i, rfl, found⟩

/-! ### A slot of a port that is locked, outside a changeover (R110) -/

/-- The seq and check expected of the next frame. -/
def TripPort.expectNext (t : TripPort) : TripPort := { t with rxLocked := true, rxSeq := t.rxSeq + 1, rxCheck := lfsrFrame t.rxCheck }

/-- A slot has been taken. -/
def slotTaken (n : Nat) (s : State) : State := s.setTrip n (s.trip n).expectNext

theorem slotTaken_trip (n : Nat) (s : State) : (slotTaken n s).trip n = (s.trip n).expectNext := by
  rw [slotTaken, trip_setTrip, if_pos rfl]

theorem slotTaken_writes (n : Nat) (s : State) : Writes [] [.trips] s (slotTaken n s) := writes_setTrip s n _ (by simp)

theorem slotTaken_flag (n : Nat) (s : State) (f : Field) : (slotTaken n s).flag f = s.flag f := by
  rw [State.flag, (slotTaken_writes n s).rd f (by simp), State.flag]

theorem slotTaken_fsm (n : Nat) (s : State) (m : Nat) : (slotTaken n s).fsm m = s.fsm m := (slotTaken_writes n s).rd _ (by simp)

/-- What a slot that is no code does, by its distance from the expected heartbeat. -/
def beatJudged (n d : Nat) (w : BitVec 64) (armed : Bool) (s : State) : State :=
  if d ≤ 3 then goodSlot n (takeStatus n w s)
  else if d ≤ 15 then damagedSlot n s
  else if armed then (wrongCode n s).modTrip n (fun t => { t with goodRun := 0 })
  else damagedSlot n s

section
variable {s : State} {n : Nat} {w : BitVec 64} (flow : s.framesFlow n = true) (locked : (s.trip n).rxLocked = true)
  (none : (s.trip n).next = none) (rx : (s.trip n).rxSwitched = false)
include flow locked none rx

theorem judgeSlot_hit {x : Sess} {i : Nat} (armed : (s.trip n).armed = true) (free : s.flag (TRIP.PORT_STATUS.lockout.nth n) = false)
    (data : s.fsm n = fsmData) (own : (s.trip n).sess = some x) (found : x.find w = some i) :
    judgeSlot n w s = goodSlot n (codeAccepted n i 0 0 (slotTaken n s)) := by
  have matched : (s.trip n).match? w = some (false, i) := by rw [TripPort.match?_alone none rx, own, Option.bind_some, found, Option.map_some]
  have free' := (slotTaken_flag n s _).trans free
  have data' := (slotTaken_fsm n s n).trans data
  rw [slotTaken, TripPort.expectNext] at free' data'
  simp only [judgeSlot, flow, locked, armed, free', data', matched, Bool.not_true, Bool.not_false, Bool.false_eq_true, if_false, if_true,
    Bool.true_or, Bool.and_true, beq_self_eq_true]
  rfl

theorem judgeSlot_miss (miss : s.hits n w = false) :
    judgeSlot n w s = beatJudged n (slotDistance w (s.trip n).rxSeq (s.trip n).rxCheck) w (s.trip n).armed (slotTaken n s) := by
  have unmatched : (if ((s.trip n).armed || (s.trip n).next.isSome && !(s.trip n).suspended) &&
      !(slotTaken n s).flag (TRIP.PORT_STATUS.lockout.nth n) && (slotTaken n s).fsm n == fsmData then (s.trip n).match? w else Option.none) =
        Option.none := by
    rw [TripPort.match?_alone none rx, slotTaken_flag, slotTaken_fsm, none, Option.isSome_none, Bool.false_and, Bool.or_false, ite_eq_right_iff]
    intro judged
    rw [State.hits] at miss
    cases own : (s.trip n).sess with
    | none => rfl
    | some x =>
      simp only [own, Sess.contains_eq_isSome_find] at miss
      rw [show (6 : Nat) = fsmData from rfl, judged, Bool.true_and, Option.isSome_eq_false_iff, Option.isNone_iff_eq_none] at miss
      rw [Option.bind_some, miss, Option.map_none]
  rw [slotTaken, TripPort.expectNext] at unmatched
  simp only [judgeSlot, flow, locked, unmatched, Bool.not_true, Bool.false_eq_true, if_false, if_true]
  rfl

end

/-! ### What is left of a slot -/

theorem damagedSlot_trip (n : Nat) (s : State) : (damagedSlot n s).trip n = { s.trip n with goodRun := 0 } := by
  rw [damagedSlot, trip_modTrip, (State.addPair_keeps _ _ _ _).within.trip rfl]

theorem damagedSlot_writes (n : Nat) (s : State) :
    Writes [TRIP.PORT_CNT_HBMISS + 16 * n, TRIP.PORT_CNT_HBMISS_HI + 16 * n] [.trips] s (damagedSlot n s) :=
  (writes_setPair s _ (by simp) (by simp)).trans (writes_modTrip _ n _ (by simp))

theorem damagedSlot_pair (n : Nat) (s : State) : (damagedSlot n s).pair (TRIP.PORT_CNT_HBMISS + 16 * n) (TRIP.PORT_CNT_HBMISS_HI + 16 * n) =
    (s.pair (TRIP.PORT_CNT_HBMISS + 16 * n) (TRIP.PORT_CNT_HBMISS_HI + 16 * n) + 1) % 2 ^ 64 :=
  pair_setPair s _ _ _ (by simp only [TRIP.PORT_CNT_HBMISS, TRIP.PORT_CNT_HBMISS_HI]; omega)

/-- Outside a changeover the status of an unsuspended session's heartbeat shows in partner_lockout alone. -/
theorem takeStatus_cases {n : Nat} {s : State} (none : (s.trip n).next = none) (unsuspended : (s.trip n).suspended = false) (w : BitVec 64) :
    takeStatus n w s = s ∨ ∃ v, takeStatus n w s = s.wr (TRIP.PORT_STATUS.partner_lockout.nth n) v := by
  unfold takeStatus
  dsimp only
  split
  · exact .inl rfl
  · rw [wr_trip, none, unsuspended]
    exact .inr ⟨_, rfl⟩

section
variable {n : Nat} {s : State} (none : (s.trip n).next = none) (unsuspended : (s.trip n).suspended = false) (w : BitVec 64)
include none unsuspended

theorem takeStatus_writes : Writes [TRIP.PORT_STATUS + 4 * n] [] s (takeStatus n w s) := by
  rcases takeStatus_cases none unsuspended w with h | ⟨v, h⟩
  · rw [h]
    exact .refl _ _ s
  · rw [h]
    exact writes_wr s _ List.mem_cons_self

end

theorem takeStatus_sameReceiver {n : Nat} {s : State} (none : (s.trip n).next = none) (w : BitVec 64) :
    (s.trip n).SameReceiver ((takeStatus n w s).trip n) := by
  have judged (mine : Bool) (t : State) (h : t.trip n = s.trip n) : (s.trip n).SameReceiver
      ((if mine then (changeTrip n (fun t => { t with suspended := false }) t).wr (TRIP.PORT_STATUS.tag_mismatch.nth n) 0
        else if t.flag (TRIP.PORT_STATUS.tag_mismatch.nth n) then t
        else tripEvent n 4 (t.wr (TRIP.PORT_STATUS.tag_mismatch.nth n) 1)).trip n) := by
    repeat' split
    · rw [wr_trip, changeTrip_trip, h]
      exact ⟨rfl, rfl, rfl⟩
    · rw [h]
      exact .refl _
    · rw [tripEvent_trip, wr_trip, h]
      exact .refl _
  unfold takeStatus
  dsimp only
  split
  · exact .refl _
  · simp only [wr_trip, none, Bool.false_and, Bool.false_eq_true, if_false]
    split
    · exact judged _ _ (wr_trip _ _ _ _)
    · rw [wr_trip]
      exact .refl _

/-- A wrong slot of an ARMED session. -/
def wrongSlot (n : Nat) (s : State) : State := (wrongCode n s).modTrip n (fun t => { t with goodRun := 0 })

/-- The registers a wrong slot writes. -/
def wrongWords (n : Nat) : List Nat := [TRIP.PORT_CNT_WRONG + 16 * n, TRIP.PORT_STATUS + 4 * n, TRIP.PORT_CAUSE + 4 * n]

theorem wrongSlot_changes {n : Nat} (hn : n < 32) (s : State) : Changes (wrongWords n) [.trips, .sides] s (wrongSlot n s) := by
  rw [wrongSlot, wrongCode_eq]
  refine Changes.step ((writes_modTrip (parts := [.trips]) _ n _ (by simp)).changes rfl) ?_
  have counted : Changes (wrongWords n) [.trips, .sides] s (s.addSat (TRIP.PORT_CNT_WRONG.count.nth n) 1) :=
    changes_wr s _ _ List.mem_cons_self
  exact counted.trans ((wrongNoted_changes hn _).mono (by simp [wrongWords]) rfl)

theorem wrongSlot_counted {n : Nat} (hn : n < 32) (s : State) :
    (wrongSlot n s).rd (TRIP.PORT_CNT_WRONG.count.nth n) = min 0xFFFFFFFF (s.rd (TRIP.PORT_CNT_WRONG.count.nth n) + 1) := by
  rw [wrongSlot, wrongCode_eq, modTrip_rd, (wrongNoted_changes hn _).rd, rd_addSat_same _ _ _ (show 0 + 32 ≤ 32 by decide), satAdd]
  · rfl
  · simp only [Field.nth, TRIP.PORT_CNT_WRONG.count, TRIP.PORT_STATUS, TRIP.PORT_CAUSE, List.mem_cons, List.not_mem_nil, or_false]
    omega
  · exact recordArea_trip (by simp only [Field.nth, TRIP.PORT_CNT_WRONG.count]; omega) (by simp only [Field.nth, TRIP.PORT_CNT_WRONG.count]; omega)

theorem wrongSlot_sameReceiver (n : Nat) (s : State) : (s.trip n).SameReceiver ((wrongSlot n s).trip n) := by
  have noted := wrongNoted_sameReceiver n (s.addSat (TRIP.PORT_CNT_WRONG.count.nth n) 1)
  rw [addSat_trip] at noted
  rw [wrongSlot, wrongCode_eq, trip_modTrip]
  exact noted.trans (.ofRun _ 0)

theorem beatJudged_sameReceiver {n : Nat} {s : State} (none : (s.trip n).next = none) (d : Nat) (w : BitVec 64) (armed : Bool) :
    (s.trip n).SameReceiver ((beatJudged n d w armed s).trip n) := by
  have damaged : (s.trip n).SameReceiver ((damagedSlot n s).trip n) := by
    rw [damagedSlot_trip]
    exact .ofRun _ 0
  unfold beatJudged
  split
  · exact (takeStatus_sameReceiver none w).trans (goodSlot_sameReceiver n _)
  · split
    · exact damaged
    · split
      · exact wrongSlot_sameReceiver n s
      · exact damaged

theorem wrongSlot_run (n : Nat) (s : State) : ((wrongSlot n s).trip n).goodRun = 0 := by rw [wrongSlot, trip_modTrip]

theorem beatJudged_good {n d : Nat} {w : BitVec 64} {armed : Bool} {s : State} (hn : n < 32) (near : d ≤ 3)
    (none : (s.trip n).next = none) (unsuspended : (s.trip n).suspended = false) :
    Changes (goodWords n) [.trips, .sides] s (beatJudged n d w armed s) := by
  rw [beatJudged, if_pos near]
  exact (((takeStatus_writes none unsuspended w).mono (by simp [goodWords]) rfl).changes (parts := [.trips, .sides]) rfl).trans
    (goodSlot_changes hn _)

theorem beatJudged_damaged {n d : Nat} {w : BitVec 64} {armed : Bool} {s : State} (h : 4 ≤ d ∧ d ≤ 15 ∨ 16 ≤ d ∧ armed = false) :
    beatJudged n d w armed s = damagedSlot n s := by
  rcases h with ⟨low, high⟩ | ⟨far, rfl⟩
  · rw [beatJudged, if_neg (by omega), if_pos high]
  · rw [beatJudged, if_neg (by omega), if_neg (by omega), if_neg Bool.false_ne_true]

theorem beatJudged_wrong {n d : Nat} {w : BitVec 64} {s : State} (far : 16 ≤ d) : beatJudged n d w true s = wrongSlot n s := by
  rw [beatJudged, if_neg (by omega), if_neg (by omega), if_pos rfl, wrongSlot]

end Sys2Proof.Machine
end

section
/-! PROOF. Received trip slots (R108 to R110, R121, R122). -/

namespace Sys2Proof.Machine

/-- Settles O12: a word in the window is accepted by one lemma; any other is judged by its distance, each judgement by its own. -/
theorem tripSlotsAreJudged : Obligations.TripSlotsAreJudged := by
  unfold Obligations.TripSlotsAreJudged
  intro s n w t d ht flow locked none rx hd
  subst ht
  have distance : d = slotDistance w (s.trip n).rxSeq (s.trip n).rxCheck := hd
  have taken := slotTaken_writes n s
  have port := slotTaken_trip n s
  have still (f : Field) : (slotTaken n s).rd f = s.rd f := taken.rd f (by simp)
  refine ⟨judgeSlot n w s, rfl, ?_⟩
  cases outcome : s.hits n w with
  | true =>
    obtain ⟨armed, free, data, x, i, own, found⟩ := State.hits_some outcome
    have own' : ((slotTaken n s).trip n).sess = some x := port ▸ own
    obtain ⟨counted, wrong, cause, raised, receiver⟩ := (codeAccepted_accepted n.isLt 0 (by decide : 0 < 32) own').goodSlot n.isLt
    rw [← judgeSlot_hit flow locked none rx armed free data own found] at counted wrong cause raised receiver
    rw [still] at counted wrong
    rw [port] at receiver
    obtain ⟨y, session, moved⟩ := Option.map_eq_some_iff.mp receiver.window
    obtain ⟨base, entries⟩ := Prod.mk.inj moved
    refine ⟨receiver.seq, receiver.check, ?_⟩
    rintro hit rfl
    exact ⟨fun _ => ⟨counted, wrong, cause, raised, x, y, i, own, session, Sess.getElem?_of_find found, base, entries⟩,
      fun missed => absurd (missed.symm.trans outcome) Bool.false_ne_true,
      fun missed => absurd (missed.symm.trans outcome) Bool.false_ne_true,
      fun missed => absurd (missed.symm.trans outcome) Bool.false_ne_true⟩
  | false =>
    have none' : ((slotTaken n s).trip n).next = Option.none := port ▸ none
    rw [judgeSlot_miss flow locked none rx outcome, ← distance]
    have receiver := beatJudged_sameReceiver none' d w (s.trip n).armed
    rw [port] at receiver
    have before (words : List Nat) : Changes words [.trips] s (slotTaken n s) := (taken.mono (parts' := [.trips]) (List.nil_subset _) rfl).changes rfl
    refine ⟨receiver.seq, receiver.check, ?_⟩
    rintro hit rfl
    refine ⟨fun hit => absurd (hit.symm.trans outcome) Bool.false_ne_true.symm, fun _ near unsuspended => ?good, fun _ far => ?damaged,
      fun _ far armed => ?wrong⟩
    case good =>
      exact ((before _).mono (fun _ => id) rfl).trans (beatJudged_good n.isLt near none' (port ▸ unsuspended))
    case damaged =>
      rw [beatJudged_damaged far]
      exact ⟨damagedSlot_pair n _, by rw [damagedSlot_trip], (before _).trans ((damagedSlot_writes n _).changes rfl)⟩
    case wrong =>
      rw [armed, beatJudged_wrong far]
      exact ⟨(wrongSlot_counted n.isLt _).trans (by rw [still]), wrongSlot_run n _,
        ((before _).mono (fun _ => id) rfl).trans (wrongSlot_changes n.isLt _)⟩

end Sys2Proof.Machine
end

section
/-! SUPPORT. Slots that are sent, and codes that become ready (R108, R109, R113, R118, R120, R121). -/

namespace Sys2Proof.Machine

/-! ### The heartbeat word (R108) -/

/-- Five fields of 16, 16, 8, 8 and 16 bits are read back from the number they spell. -/
theorem slotFields_number {a b c d e v : Nat} (ha : a < 65536) (hb : b < 65536) (hc : c < 256) (hd : d < 256) (he : e < 65536)
    (hv : v = (((a * 65536 + b) * 256 + c) * 256 + d) * 65536 + e) :
    v / 281474976710656 % 65536 = a ∧ v / 4294967296 % 65536 = b ∧ v / 16777216 % 256 = c ∧ v / 65536 % 256 = d ∧ v % 65536 = e := by
  refine ⟨?_, ?_, ?_, ?_, ?_⟩ <;> omega

theorem slotNumber_horner (a b c d e : Nat) :
    a * 2 ^ 48 + b * 2 ^ 32 + c * 2 ^ 24 + d * 2 ^ 16 + e = (((a * 65536 + b) * 256 + c) * 256 + d) * 65536 + e := by
  omega

/-- A word spells seq, check, status, status_n and check_n. -/
def Spells (seq check : BitVec 16) (status : Nat) (w : BitVec 64) : Prop :=
  w.toNat = seq.toNat * 2 ^ 48 + check.toNat * 2 ^ 32 + status * 2 ^ 24 + (255 - status) * 2 ^ 16 + (~~~check).toNat

theorem spells_ofNat (seq check : BitVec 16) {status : Nat} (h : status < 256) : Spells seq check status
    (BitVec.ofNat 64 (seq.toNat * 2 ^ 48 + check.toNat * 2 ^ 32 + status * 2 ^ 24 + (255 - status) * 2 ^ 16 + (~~~check).toNat)) := by
  have hseq := seq.isLt
  have hcheck := check.isLt
  have hcheck_n := (~~~check).isLt
  rw [Spells, BitVec.toNat_ofNat]
  exact Nat.mod_eq_of_lt (by omega)

theorem Spells.fields {seq check : BitVec 16} {status : Nat} {w : BitVec 64} (spelt : Spells seq check status w) (h : status < 256) :
    w.extractLsb' 48 16 = seq ∧ w.extractLsb' 32 16 = check ∧ (w.extractLsb' 24 8).toNat = status ∧
      (w.extractLsb' 16 8).toNat = 255 - status ∧ w.extractLsb' 0 16 = ~~~check := by
  simp only [← BitVec.toNat_inj, BitVec.extractLsb'_toNat, Nat.shiftRight_eq_div_pow, Nat.reducePow, Nat.div_one]
  have hseq : seq.toNat < 65536 := seq.isLt
  have hcheck : check.toNat < 65536 := check.isLt
  have hcheck_n : (~~~check).toNat < 65536 := (~~~check).isLt
  exact slotFields_number hseq hcheck h (by omega) hcheck_n (spelt.trans (slotNumber_horner _ _ _ _ _))

/-- The tag a port sends. -/
def TripPort.sentTag (t : TripPort) : Nat :=
  match t.txSess with
  | some x => x.id % 32
  | none => 0

theorem TripPort.sentTag_lt (t : TripPort) : t.sentTag < 32 := by
  unfold TripPort.sentTag
  split
  · exact Nat.mod_lt _ (by decide)
  · decide

/-- The status byte of a heartbeat: armed, rx_lockout, trip_active, tag. -/
def beatStatus (t : TripPort) (lockout active : Bool) : Nat :=
  bitNat t.txSess.isSome * 128 + bitNat lockout * 64 + bitNat active * 32 + t.sentTag

/-- Its bits; the tag takes the low five. -/
theorem beatStatus_bits (t : TripPort) (lockout active : Bool) : beatStatus t lockout active < 256 ∧
    (beatStatus t lockout active).testBit 7 = t.txSess.isSome ∧ (beatStatus t lockout active).testBit 6 = lockout ∧
    (beatStatus t lockout active).testBit 5 = active ∧ beatStatus t lockout active % 32 = t.sentTag := by
  have low := t.sentTag_lt
  simp only [Nat.testBit_eq_decide_div_mod_eq, beatStatus]
  cases t.txSess.isSome <;> cases lockout <;> cases active <;>
    simp only [bitNat, decide_eq_true_eq, decide_eq_false_iff_not, Bool.false_eq_true, if_true, if_false] <;> omega

/-- What a heartbeat says. -/
structure IsHeartbeat (t : TripPort) (lockout active : Bool) (w : BitVec 64) : Prop where
  seq : w.extractLsb' 48 16 = t.txSeq
  check : w.extractLsb' 32 16 = t.txCheck
  status_n : w.extractLsb' 16 8 = ~~~(w.extractLsb' 24 8)
  check_n : w.extractLsb' 0 16 = ~~~t.txCheck
  armed : w.getLsbD 31 = t.txSess.isSome
  lockout : w.getLsbD 30 = lockout
  active : w.getLsbD 29 = active
  tag : (w.extractLsb' 24 5).toNat = t.sentTag

theorem Spells.isHeartbeat {t : TripPort} {lockout active : Bool} {w : BitVec 64}
    (spelt : Spells t.txSeq t.txCheck (beatStatus t lockout active) w) : IsHeartbeat t lockout active w := by
  obtain ⟨small, bit7, bit6, bit5, low⟩ := beatStatus_bits t lockout active
  obtain ⟨seq, check, status, inverse, check_n⟩ := spelt.fields small
  have bit (k : Nat) (hk : k < 8) : w.getLsbD (24 + k) = (beatStatus t lockout active).testBit k := by
    rw [← status, ← BitVec.getLsbD, BitVec.getLsbD_extractLsb']
    simp [hk]
  refine ⟨seq, check, ?_, check_n, (bit 7 (by decide)).trans bit7, (bit 6 (by decide)).trans bit6, (bit 5 (by decide)).trans bit5, ?_⟩
  · rw [← BitVec.toNat_inj, inverse, BitVec.toNat_not, status]
  · rw [← low, ← status]
    simp only [BitVec.extractLsb'_toNat]
    omega

theorem heartbeat_isHeartbeat (s : State) (n : Nat) :
    IsHeartbeat (s.trip n) (s.flag (TRIP.PORT_STATUS.lockout.nth n)) (s.tripActive n) (s.heartbeat n) :=
  (spells_ofNat _ _ (beatStatus_bits _ _ _).1).isHeartbeat

/-! ### One slot is sent (R107 to R109, R118) -/

/-- Without a burst a slot is a heartbeat. -/
theorem sendSlot_heartbeat {s : State} {n : Nat} (flow : s.framesFlow n = true) (still : (s.trip n).waiting = false)
    (idle : (s.trip n).burst = 0) :
    sendSlot n s = (s.emit (.tripSlot n (s.heartbeat n))).setTrip n { (s.trip n).sent with tagDue := false } := by
  simp only [sendSlot, flow, still, idle, Bool.not_true, Bool.false_and, Bool.false_eq_true, if_false, ne_eq, not_true_eq_false, decide_false]
  cases (s.trip n).txSess <;> rfl

/-- A port's trip state when a code of its burst has been sent under session `x`. -/
def TripPort.codeSent (t : TripPort) (x : Sess) : TripPort := ({ t with burst := t.burst - 1 }.setTx x.takeTx.2).sent

theorem sendSlot_code {s : State} {n : Nat} {x : Sess} (flow : s.framesFlow n = true) (still : (s.trip n).waiting = false)
    (burst : (s.trip n).burst ≠ 0) (armed : (s.trip n).armed = true) (data : s.fsm n = 6) (told : (s.trip n).tagDue = false)
    (own : (s.trip n).txSess = some x) :
    sendSlot n s = syncTrip n ((s.setTrip n ((s.trip n).codeSent x)).emit (.tripSlot n x.takeTx.1)) := by
  have data' : (s.fsm n == fsmData) = true := beq_iff_eq.mpr data
  simp only [sendSlot, flow, still, burst, armed, data', told, own, Bool.not_true, Bool.not_false, Bool.false_eq_true, if_false,
    ne_eq, not_false_eq_true, decide_true, Bool.and_true, TripPort.codeSent]

/-- Only the port's trip state and its session's registers change. -/
theorem sendSlot_code_port {s u : State} {n : Nat} {x : Sess} (hu : u = sendSlot n s) (flow : s.framesFlow n = true)
    (still : (s.trip n).waiting = false) (burst : (s.trip n).burst ≠ 0) (armed : (s.trip n).armed = true) (data : s.fsm n = 6)
    (told : (s.trip n).tagDue = false) (own : (s.trip n).txSess = some x) :
    u.out = s.out ++ [.tripSlot n x.takeTx.1] ∧ u.trip n = (s.trip n).codeSent x ∧ (∀ m, m ≠ n → u.trip m = s.trip m) ∧
      Changes (sessionWords n) [.trips] s u := by
  rw [hu, sendSlot_code flow still burst armed data told own]
  generalize (s.trip n).codeSent x = y
  have emitted := State.emit_keeps (s.setTrip n y) (.tripSlot n x.takeTx.1)
  refine ⟨((syncTrip_keeps n _).within .out rfl).trans rfl, ?_, fun m hm => ?_, ?_⟩
  · rw [syncTrip_trip, emitted.within.trip rfl, trip_setTrip, if_pos rfl]
  · rw [syncTrip_trip, emitted.within.trip rfl, trip_setTrip, if_neg hm]
  · exact (((writes_setTrip s n y (List.mem_singleton.mpr rfl)).trans (emitted.writes rfl rfl)).trans
      ((syncTrip_writes n _).mono (List.Subset.refl _) rfl)).changes rfl

theorem TripPort.setTx_txSess (t : TripPort) (x : Sess) : (t.setTx x).txSess = some x := by
  unfold TripPort.setTx TripPort.txSess
  cases t.txSwitched <;> simp

/-- A session to send under is no part of what the frame counts. -/
theorem TripPort.setTx_frame (t : TripPort) (x : Sess) :
    (t.setTx x).burst = t.burst ∧ (t.setTx x).txSeq = t.txSeq ∧ (t.setTx x).txCheck = t.txCheck := by
  unfold TripPort.setTx
  split <;> exact ⟨rfl, rfl, rfl⟩

/-! ### Codes that become ready (R113, R120, R121) -/

theorem tripCode_eq (key : BitVec 256) (fromInitiator : Bool) (k : Nat) : tripCode key fromInitiator k =
    (Config.sha3_512 (bytesBE 32 key.toNat ++ ascii (if fromInitiator then "SIRCOR-TRIP-I2R" else "SIRCOR-TRIP-R2I") ++ bytesBE 8 k)).extractLsb'
      448 64 := by
  rw [tripCode, BitVec.extractLsb', Nat.shiftRight_eq_div_pow]

/-- Window entries that are ready. -/
def TripPort.winReady (t : TripPort) : Nat :=
  match t.rxSess with
  | some x => x.window.length
  | none => 0

/-- PORT_STATUS follows the port's sessions. -/
theorem syncTrip_ready {n : Nat} (hn : n < 32) (s : State) :
    (syncTrip n s).rd (TRIP.PORT_STATUS.tx_ready.nth n) = (s.trip n).ready % 2 ^ 4 ∧
      (syncTrip n s).rd (TRIP.PORT_STATUS.win_ready.nth n) = (s.trip n).winReady % 2 ^ 5 := by
  have pairs (t : State) (v w : Nat) (f : Field) (hf : f.addr = 0x680200 + 4 * n) :
      ((t.setPair (TRIP.TX_K + 16 * n) (TRIP.TX_K_HI + 16 * n) v).setPair (TRIP.RX_BASE + 16 * n) (TRIP.RX_BASE_HI + 16 * n) w).rd f = t.rd f := by
    rw [State.rd, word_setPair_ne _ _ _ _ (by simp only [TRIP.RX_BASE]; omega) (by simp only [TRIP.RX_BASE_HI]; omega),
      word_setPair_ne _ _ _ _ (by simp only [TRIP.TX_K]; omega) (by simp only [TRIP.TX_K_HI]; omega), State.rd]
  unfold syncTrip
  dsimp only
  constructor
  · rw [pairs _ _ _ _ rfl]
    exact (rd_wr_apart _ (TRIP.PORT_STATUS.win_ready.nth n) _ _ (show 13 + 5 ≤ 32 by decide) (.inl (show 9 + 4 ≤ 13 by decide))).trans
      (rd_wr_same _ (TRIP.PORT_STATUS.tx_ready.nth n) _ (show 9 + 4 ≤ 32 by decide))
  · rw [pairs _ _ _ _ rfl]
    exact rd_wr_same _ (TRIP.PORT_STATUS.win_ready.nth n) _ (show 13 + 5 ≤ 32 by decide)

theorem codeComputed_transmit {n : Nat} {s : State} {x : Sess} (own : (s.trip n).txSess = some x) (room : x.txCodes.length < 8) :
    codeComputed n .transmit s = syncTrip n (s.setTrip n ((s.trip n).setTx
      { x with txCodes := x.txCodes ++ [tripCode x.key x.initiator (x.txK + x.txCodes.length)] })) := by
  rw [codeComputed, State.modTrip]
  simp only [own, Sess.refillTx, if_pos room]

theorem codeComputed_window {n : Nat} {s : State} {x : Sess} (own : (s.trip n).sess = some x) (room : x.window.length < s.windowSize n) :
    codeComputed n .window s = syncTrip n (s.setTrip n { s.trip n with
      sess := some { x with window := x.window ++ [tripCode x.key (!x.initiator) (x.rxBase + x.window.length)] } }) := by
  rw [codeComputed, State.modTrip]
  simp only [own]
  rw [if_pos (by rw [decide_eq_true room, Bool.true_or]), Sess.refillWindow, if_pos room]

/-- A port's own trip state is replaced, and its registers follow. -/
theorem syncTrip_setTrip {n : Nat} {s u : State} {x : TripPort} (hu : u = syncTrip n (s.setTrip n x)) :
    u.trip n = x ∧ (∀ m, m ≠ n → u.trip m = s.trip m) ∧ Changes (sessionWords n) [.trips] s u := by
  subst hu
  refine ⟨by rw [syncTrip_trip, trip_setTrip, if_pos rfl], fun m hm => by rw [syncTrip_trip, trip_setTrip, if_neg hm], ?_⟩
  exact ((writes_setTrip s n x (List.mem_singleton.mpr rfl)).trans ((syncTrip_writes n _).mono (List.Subset.refl _) rfl)).changes rfl

end Sys2Proof.Machine
end

section
/-! PROOF. Slots and codes that are sent (R108, R109, R113, R118, R120, R121). -/

namespace Sys2Proof.Machine

/-- Settles O13: a heartbeat by its fields, a code by the burst's next one, a computed code by the session's own equation. -/
theorem tripSlotsAndCodesAreSent : Obligations.TripSlotsAndCodesAreSent := by
  unfold Obligations.TripSlotsAndCodesAreSent
  intro s n t ht
  subst ht
  refine ⟨fun flow still idle => ?beat, fun x c cs flow still burst armed data told own codes => ?code, fun x own room => ?transmit,
    fun x own rx room => ?window⟩
  case beat =>
    obtain ⟨seq, check, status_n, check_n, armed, lockout, active, tag⟩ := heartbeat_isHeartbeat s n
    refine ⟨_, s.heartbeat n, congrArg Host.Outcome.next (sendSlot_heartbeat flow still idle), rfl, seq, check, status_n, check_n, armed,
      lockout, active, tag, ?_, fun m hm => ?_, ?_⟩
    · rw [trip_setTrip, if_pos rfl]
      rfl
    · rw [trip_setTrip, if_neg hm]
      exact (State.emit_keeps s _).within.trip rfl m
    · exact (((State.emit_keeps s _).writes rfl rfl).trans (writes_setTrip _ n _ (List.mem_singleton.mpr rfl))).changes (words := []) rfl
  case code =>
    have taken : x.takeTx = (c, { x with txK := x.txK + 1, txCodes := cs }) := by
      rw [Sess.takeTx, codes, List.headD_cons, List.tail_cons]
    obtain ⟨burst', seq', check'⟩ := TripPort.setTx_frame { s.trip n with burst := (s.trip n).burst - 1 } x.takeTx.2
    have sess := TripPort.setTx_txSess { s.trip n with burst := (s.trip n).burst - 1 } x.takeTx.2
    obtain ⟨shown, port, others, changed⟩ := sendSlot_code_port rfl flow still burst armed data told own
    rw [taken] at shown sess burst' seq' check'
    rw [TripPort.codeSent, taken] at port
    refine ⟨_, rfl, shown, ?_, ?_, ?_, ?_, others, changed⟩ <;> rw [port]
    · exact burst'
    · exact sess
    · exact congrArg (· + 1) seq'
    · exact congrArg lfsrFrame check'
  case transmit =>
    have computed := codeComputed_transmit own room
    obtain ⟨port, others, changed⟩ := syncTrip_setTrip computed
    refine ⟨_, _, rfl, ?_, tripCode_eq _ _ _, ?_, others, changed⟩
    · rw [port, TripPort.setTx_txSess]
    · rw [computed, (syncTrip_ready n.isLt _).1, trip_setTrip, if_pos rfl, TripPort.ready, TripPort.setTx_txSess]
      simp only [List.length_append, List.length_singleton]
      omega
  case window =>
    have computed := codeComputed_window own room
    obtain ⟨port, others, changed⟩ := syncTrip_setTrip computed
    have small : s.act (TRIP.PORT_CFG.window.nth n) < 2 ^ 5 := bitsOf_lt _ _ _
    refine ⟨_, tripCode x.key (!x.initiator) (x.rxBase + x.window.length), rfl, ?_, (tripCode_eq _ _ _).trans ?_, ?_, others, changed⟩
    · rw [port]
    · cases x.initiator <;> rfl
    · rw [computed, (syncTrip_ready n.isLt _).2, trip_setTrip, if_pos rfl, TripPort.winReady, TripPort.rxSess, rx]
      simp only [List.length_append, List.length_singleton, Bool.false_eq_true, if_false]
      omega

end Sys2Proof.Machine
end

section
/-! SUPPORT. The heartbeat watchdog, holds and latches of the outputs, and trip messages of the Sideshow link (R111, R112, R119, R124, R125, R216). -/

namespace Sys2Proof.Machine

/-! ### The heartbeat watchdog (R111) -/

/-- What a watchdog does in data mode while the heartbeat is not yet lost. -/
def heartbeatLost (n : Nat) (s : State) : State :=
  noteTrip n 1 (tripEvent n 1 (withOuts (fun s => s.wr (TRIP.PORT_STATUS.hb_lost.nth n) 1) (s.modTrip n fun t => { t with goodRun := 0 })))

theorem tripData_of_writes {parts : List Part} {s t : State} (h : Writes [] parts s t) (n : Nat) : t.tripData n = s.tripData n := by
  have read (f : Field) : t.rd f = s.rd f := h.rd f List.not_mem_nil
  simp only [State.tripData, State.inData, State.modeNow, State.fsm, read]

theorem exec_heartbeatWatchdog {s : State} {n : Fin 32} (data : s.tripData n = true) (up : s.rd (TRIP.PORT_STATUS.hb_lost.nth n) = 0) :
    exec (.heartbeatWatchdog n) s = .next (heartbeatLost n s) := by
  have run := writes_modTrip (words := []) (parts := [.trips]) s n (fun t => { t with goodRun := 0 }) (List.mem_singleton.mpr rfl)
  show execHeartbeatWatchdog n s = _
  rw [execHeartbeatWatchdog]
  dsimp only
  rw [if_pos ?_, heartbeatLost]
  rw [tripData_of_writes run, State.flag, run.rd _ List.not_mem_nil, data, up]
  rfl

theorem heartbeatLost_trip (n : Nat) (s : State) : (heartbeatLost n s).trip n = { s.trip n with goodRun := 0 } := by
  rw [heartbeatLost, noteTrip_trip, tripEvent_trip, withOuts_wr_trip, trip_modTrip]

section
variable {n : Nat} (hn : n < 32) (s : State)
include hn

theorem heartbeatLost_flag : (heartbeatLost n s).rd (TRIP.PORT_STATUS.hb_lost.nth n) = 1 := by
  have small : (TRIP.PORT_STATUS.hb_lost.nth n).addr = 0x680200 + 4 * n := rfl
  unfold heartbeatLost
  generalize s.modTrip n _ = r
  rw [(noteTrip_writes n 1 _).rd _ (by simp), (tripEvent_changes hn _ 1).rd _ ?_ (recordArea_trip (by omega) (by omega)), withOuts,
    (refreshOuts_writes _ _).rd _ ?_]
  · exact rd_wr_same r (TRIP.PORT_STATUS.hb_lost.nth n) 1 (show 19 + 1 ≤ 32 by decide)
  · rw [List.mem_singleton, small, TRIP.OUT_STATUS]
    omega
  · rw [List.mem_singleton, small, TRIP.PORT_CAUSE]
    omega

theorem heartbeatLost_raised :
    bitOf ((heartbeatLost n s).word (TRIP.PORT_CAUSE + 4 * n)) 1 = true ∧ (heartbeatLost n s).pend (6 * n + 2) = true := by
  unfold heartbeatLost
  generalize withOuts _ _ = r
  have noted := noteTrip_writes n 1 (tripEvent n 1 r)
  rw [noted.registers _ (by simp), noted.pend (by simp) (by omega)]
  exact ⟨tripEvent_bit hn r (by decide), tripEvent_pend hn r 1⟩

theorem heartbeatLost_changes :
    Changes [TRIP.PORT_STATUS + 4 * n, TRIP.PORT_CAUSE + 4 * n, TRIP.OUT_STATUS] [.trips, .sides] s (heartbeatLost n s) := by
  have run := writes_modTrip (words := []) (parts := [.trips]) s n (fun t => { t with goodRun := 0 }) (List.mem_singleton.mpr rfl)
  unfold heartbeatLost
  generalize s.modTrip n _ = r at run
  exact (((run.changes (parts' := [.trips]) rfl).mono (List.nil_subset _) rfl).trans
    (((hbWritten_writes n 1 r).changes (parts' := []) rfl).mono (by simp) rfl)).trans
    (((tripEvent_changes hn _ 1).mono (by simp) rfl).trans (((noteTrip_writes n 1 _).changes (parts' := [.sides]) rfl).mono (List.nil_subset _) rfl))

end

/-! ### The end of a hold (R124) -/

/-- An output's hold has ended. -/
def holdEnded (j : Nat) (s : State) : State := { s with pins := { s.pins with hold := sput (fun _ => 0) s.pins.hold j 0 } }

theorem exec_tripOutHoldExpiry {s : State} {j : Fin 8} (held : s.outHeld j = true) (ended : sget (fun _ => 0) s.pins.hold j ≤ s.now) :
    exec (.tripOutHoldExpiry j) s = .next (withOuts (holdEnded j) s) := by
  show execTripOutHoldExpiry j s = _
  rw [execTripOutHoldExpiry, if_pos (by rw [held, decide_eq_true ended]; rfl)]
  rfl

theorem withOuts_holdEnded_pins (j : Nat) (s : State) : (withOuts (holdEnded j) s).pins = (holdEnded j s).pins :=
  (refreshOuts_keeps _ _).within .pins rfl

theorem withOuts_holdEnded_held (j k : Nat) (s : State) : (withOuts (holdEnded j) s).outHeld k = if k = j then false else s.outHeld k := by
  rw [State.outHeld, withOuts_holdEnded_pins, holdEnded, sget_sput]
  split
  · rfl
  · rw [State.outHeld]

/-! ### The release of latches (R125) -/

/-- The latches after a release: those named are cleared. -/
theorem released_latched (mask : BitVec 8) (s : State) (j : Fin 8) :
    bitOf ((withOuts (fun s => s.clearBits TRIP.OUT_STATUS (mask.setWidth 32 <<< 8)) s).word TRIP.OUT_STATUS) (8 + j) =
      (bitOf (s.word TRIP.OUT_STATUS) (8 + j) && !mask.getLsbD j) := by
  have hj := j.isLt
  rw [withOuts, refreshOuts_latched, word_clearBits, if_pos rfl, bitOf, BitVec.getLsbD_and, BitVec.getLsbD_not, BitVec.getLsbD_shiftLeft,
    BitVec.getLsbD_setWidth, bitOf]
  simp [show 8 + j.val < 32 by omega, show j.val < 32 by omega]

theorem released_writes (mask : BitVec 8) (s : State) :
    Writes [TRIP.OUT_STATUS] [] s (withOuts (fun s => s.clearBits TRIP.OUT_STATUS (mask.setWidth 32 <<< 8)) s) :=
  (withOuts_writes (words := [TRIP.OUT_STATUS]) (parts := []) (writes_setWord s _ (List.mem_singleton.mpr rfl))).mono (by simp) rfl

/-- An AUDIT record reaches no register but those of the log's own room. -/
theorem audit_word (typ result subject detail : Nat) (s : State) {a : Nat} (ha : a ≠ TST.STATUS) (hr : recordArea a = false) :
    (audit typ result subject detail s).word a = s.word a := by
  unfold audit auditN
  split
  · exact (putAudit_changes _ _ _ _ _ _ s).registers a (by simpa using ha) hr
  · rfl

theorem auditOperational_word (subject detail : Nat) (s : State) {a : Nat} (ha : a ≠ TST.STATUS) (hr : recordArea a = false) :
    (auditOperational subject detail s).word a = s.word a := by
  unfold auditOperational
  split
  · exact audit_word _ _ _ _ s ha hr
  · rfl

/-- With room and nothing held, a record of Sealed operation takes the chain's next sequence. -/
theorem auditOperational_seq {s : State} (subject detail : Nat) (on : s.sealed = true) (room : 0 < s.auditFree) (none : s.logs.heldAudit = []) :
    (auditOperational subject detail s).chain.seq = s.chain.seq + 1 := by
  rw [auditOperational, if_pos on, audit, auditN, if_pos (by rw [none, decide_eq_true room]; rfl), putAudit_seq]

theorem conditionArea_recorded {a : Nat} (h : conditionArea a = true) : a ≠ TST.STATUS ∧ recordArea a = false := by
  simp only [conditionArea, Bool.or_eq_true, Bool.and_eq_true, decide_eq_true_eq] at h
  rcases h with (⟨⟨low, high⟩, -⟩ | rfl) | rfl
  · exact ⟨by rw [TST.STATUS]; omega, recordArea_trip low high⟩
  · exact ⟨by decide, by decide⟩
  · exact ⟨by decide, by decide⟩

theorem auditOperational_sameConditions (subject detail : Nat) (s : State) : SameConditions s (auditOperational subject detail s) where
  clk := (auditOperational_keeps _ _ s).within .clk rfl
  pins := (auditOperational_keeps _ _ s).within .pins rfl
  trips := (auditOperational_keeps _ _ s).within .trips rfl
  registers := fun a ha => auditOperational_word _ _ s (conditionArea_recorded ha).1 (conditionArea_recorded ha).2
  latched := fun j _ => by rw [auditOperational_word _ _ s (by decide) (by decide)]

/-- A release, and its record where it names an output. -/
theorem releaseOuts_eq (mask : BitVec 8) (s : State) : ∃ r, r = withOuts (fun s => s.clearBits TRIP.OUT_STATUS (mask.setWidth 32 <<< 8)) s ∧
    releaseOuts mask s = if mask = 0 then r else auditOperational TRIP.OUT_CMD mask.toNat r := ⟨_, rfl, rfl⟩

theorem releaseOuts_unsealed {mask : BitVec 8} {s : State} (off : s.sealed = false) :
    releaseOuts mask s = withOuts (fun s => s.clearBits TRIP.OUT_STATUS (mask.setWidth 32 <<< 8)) s := by
  obtain ⟨r, hr, h⟩ := releaseOuts_eq mask s
  have released : Writes [TRIP.OUT_STATUS] [] s r := hr ▸ released_writes mask s
  have off' : r.sealed = false := by rw [State.sealed, State.flag, released.rd _ (by decide), ← State.flag, ← State.sealed, off]
  rw [h, auditOperational_unsealed off', ite_self, hr]

theorem releaseOuts_seq {mask : BitVec 8} {s : State} (on : s.sealed = true) (named : mask ≠ 0) (room : 0 < s.auditFree)
    (none : s.logs.heldAudit = []) : (releaseOuts mask s).chain.seq = s.chain.seq + 1 := by
  obtain ⟨r, hr, h⟩ := releaseOuts_eq mask s
  have released : Writes [TRIP.OUT_STATUS] [] s r := hr ▸ released_writes mask s
  have logs : r.logs = s.logs := released.rest .logs rfl
  have chain : r.chain = s.chain := released.rest .chain rfl
  have on' : r.sealed = true := by rw [State.sealed, State.flag, released.rd _ (by decide), ← State.flag, ← State.sealed, on]
  rw [h, if_neg named, auditOperational_seq _ _ on' (by rwa [State.auditFree, logs]) (by rw [logs, none]), chain]

/-- The record leaves the output's register as the release made it. -/
theorem releaseOuts_outputs (mask : BitVec 8) (s : State) : ∃ r, r = withOuts (fun s => s.clearBits TRIP.OUT_STATUS (mask.setWidth 32 <<< 8)) s ∧
    (releaseOuts mask s).word TRIP.OUT_STATUS = r.word TRIP.OUT_STATUS ∧ ∀ j < 8, (releaseOuts mask s).outAsserted j = r.outAsserted j := by
  obtain ⟨r, hr, h⟩ := releaseOuts_eq mask s
  refine ⟨r, hr, ?_⟩
  rw [h]
  split
  · exact ⟨rfl, fun _ _ => rfl⟩
  · exact ⟨auditOperational_word _ _ r (by decide) (by decide), fun _ hj => (auditOperational_sameConditions _ _ r).outAsserted hj⟩

/-! ### Trip messages of the Sideshow link (R216) -/

theorem ssTripMessage_unauthorized {n : Nat} {s : State} (w : BitVec 64) (none : (s.trip n).sess = none) (rx : (s.trip n).rxSwitched = false) :
    ssTripMessage n w s = ssEvent 7 (s.addSat (SS.NET_CNT.count.nth 6) 1) := by
  simp only [ssTripMessage, none, rx, Option.isNone_none, Bool.not_false, Bool.and_true, if_true]

theorem ssTripMessage_accepted {n i : Nat} {s : State} {x : Sess} {w : BitVec 64} (rx : (s.trip n).rxSwitched = false)
    (own : (s.trip n).sess = some x) (next : (s.trip n).next = none) (found : x.find w = some i)
    (free : s.flag (TRIP.PORT_STATUS.lockout.nth n) = false) : ssTripMessage n w s = codeAccepted n i 4 6 s := by
  have matched : (s.trip n).match? w = some (false, i) := by rw [TripPort.match?_alone next rx, own, Option.bind_some, found, Option.map_some]
  simp only [ssTripMessage, own, free, matched, Option.isNone_some, Bool.false_and, Bool.false_eq_true, if_false]
  rfl

/-- A trip message for a port without a session is counted, with bit 7 of SS.CAUSE and event 207. -/
theorem unauthorized_counted (s : State) : ∃ r, r = ssEvent 7 (s.addSat (SS.NET_CNT.count.nth 6) 1) ∧
    r.rd (SS.NET_CNT.count.nth 6) = min 0xFFFFFFFF (s.rd (SS.NET_CNT.count.nth 6) + 1) ∧ bitOf (r.word SS.CAUSE) 7 = true ∧
    r.pend 207 = true ∧ Changes [SS.NET_CNT.count.addr + SS.NET_CNT.count.stride * 6, SS.CAUSE] [] s r := by
  refine ⟨_, rfl, ?_, causeEvent_bit _ (by decide) (by decide) (by decide), causeEvent_pend _ _ _ (by decide), ?_⟩
  · rw [ssEvent, (causeEvent_changes (words := [SS.CAUSE]) _ List.mem_cons_self (by decide)).rd _ (by decide) (by decide),
      rd_addSat_same _ _ _ (by decide), satAdd]
    rfl
  · exact (changes_wr s (SS.NET_CNT.count.nth 6) _ (by decide)).trans (causeEvent_changes _ (by decide) (by decide))

end Sys2Proof.Machine
end

section
/-! PROOF. Outputs, the watchdog and Sideshow trip messages (R111, R112, R124, R125, R216). -/

namespace Sys2Proof.Machine

/-- Settles O15: each event is one function of the state, whose effects are read off one by one. -/
theorem tripOutputsFollowTheirConditions : Obligations.TripOutputsFollowTheirConditions := by
  unfold Obligations.TripOutputsFollowTheirConditions
  refine ⟨fun s n data up => ?watchdog, fun s j held ended => ?hold, fun s mask served => ?release, fun s n w awake rx => ?message⟩
  case watchdog =>
    obtain ⟨cause, raised⟩ := heartbeatLost_raised n.isLt s
    exact ⟨_, exec_heartbeatWatchdog data up, heartbeatLost_flag n.isLt s, cause, raised, heartbeatLost_trip n s, heartbeatLost_changes n.isLt s⟩
  case hold =>
    refine ⟨_, exec_tripOutHoldExpiry held ended, ?_, fun k hk => ?_, refreshOuts_shows _ _ j.isLt, ?_, ?_⟩
    · rw [withOuts_holdEnded_held, if_pos rfl]
    · rw [withOuts_holdEnded_held, if_neg (Fin.val_ne_of_ne hk)]
    · rw [withOuts_holdEnded_pins, holdEnded]
    · exact (withOuts_writes (f := holdEnded j) (words := []) (parts := [.pins])
        ((State.withPins_keeps s { s.pins with hold := sput (fun _ => 0) s.pins.hold j 0 }).writes rfl rfl)).changes rfl
  case release =>
    obtain ⟨r, hr, shown, asserted⟩ := releaseOuts_outputs mask s
    have written : Writes [TRIP.OUT_STATUS] [] s r := hr ▸ released_writes mask s
    refine ⟨releaseOuts mask s, congrArg Host.Outcome.next (hostCommand_served served _), fun j => ?_, fun j => ?_, fun off => ?_,
      fun on named room none => ?_⟩
    · rw [shown, hr, released_latched]
    · rw [shown, asserted j j.isLt, hr]
      exact refreshOuts_shows _ _ j.isLt
    · rw [releaseOuts_unsealed off]
      exact (released_writes mask s).changes rfl
    · exact releaseOuts_seq on named room none
  case message =>
    refine ⟨fun none => ?unauthorized, fun x own next inWindow free => ?accepted⟩
    case unauthorized =>
      obtain ⟨r, hr, effects⟩ := unauthorized_counted s
      refine ⟨r, ?_, effects⟩
      rw [hr, ← ssTripMessage_unauthorized w none rx]
      exact congrArg Host.Outcome.next (if_pos awake)
    case accepted =>
      have free' : s.flag (TRIP.PORT_STATUS.lockout.nth n) = false := by rw [State.flag, free]; rfl
      have there : (x.find w).isSome = true := by rw [← Sess.contains_eq_isSome_find, List.contains_iff_mem]; exact inWindow
      obtain ⟨i, found⟩ := Option.isSome_iff_exists.mp there
      obtain ⟨counted, -, cause, -, receiver⟩ := codeAccepted_accepted n.isLt 4 (by decide : 6 < 32) own (i := i)
      obtain ⟨y, session, moved⟩ := Option.map_eq_some_iff.mp receiver.window
      obtain ⟨base, -⟩ := Prod.mk.inj moved
      refine ⟨codeAccepted n i 4 6 s, y, i, ?_, counted, cause, session, Sess.getElem?_of_find found, base⟩
      rw [← ssTripMessage_accepted rx own next found free']
      exact congrArg Host.Outcome.next (if_pos awake)

end Sys2Proof.Machine
end

section
/-! SUPPORT. What an exception leaves: the task's context, SQ.FAULT and SQ.FAULT_VAL of its core (R310, R311). -/

namespace Sys2Proof.Machine

/-! ### What the clean-up after an exception leaves alone -/

/-- The registers of the faults of the four cores, and every context, are as before. -/
structure FaultKept (s t : State) : Prop where
  words : ∀ a, 0x400010 ≤ a → a < 0x400030 → t.word a = s.word a
  ctxs : t.seq.ctxs = s.seq.ctxs

theorem FaultKept.refl (s : State) : FaultKept s s := ⟨fun _ _ _ => rfl, rfl⟩

/-- Transitivity with the last part first: the state between is read off it. -/
theorem FaultKept.step {a b c : State} (k : FaultKept b c) (h : FaultKept a b) : FaultKept a c :=
  ⟨fun x low high => (k.words x low high).trans (h.words x low high), k.ctxs.trans h.ctxs⟩

theorem FaultKept.foldl {α : Type} {f : State → α → State} (l : List α) (s : State) (h : ∀ s, ∀ x ∈ l, FaultKept s (f s x)) :
    FaultKept s (l.foldl f s) := by
  induction l generalizing s with
  | nil => exact .refl s
  | cons x l ih => exact (ih _ fun s y hy => h s y (List.mem_cons_of_mem _ hy)).step (h s x List.mem_cons_self)

theorem FaultKept.ctx {s t : State} (h : FaultKept s t) (k : Nat) : t.ctx k = s.ctx k := by rw [State.ctx, h.ctxs, State.ctx]

/-- What writes neither a register nor the cores' state. -/
theorem Keeps.faultKept {l : List Part} {s t : State} (h : Keeps l s t) (hr : l.contains .regs = false) (hs : l.contains .seq = false) :
    FaultKept s t where
  words := fun a _ _ => by rw [State.word, h.within .regs hr, State.word]
  ctxs := by rw [h.within .seq hs]

/-- Counting, events and records. -/
theorem Aside.faultKept {s t : State} (h : Aside s t) : FaultKept s t :=
  ⟨fun a low high => h.words a (recordArea_outside (by omega) (by omega) (by omega)), by rw [h.seq]⟩

theorem wr_faultKept {s : State} {f : Field} {v : Nat} (h : f.addr < 0x400010 ∨ 0x400030 ≤ f.addr) : FaultKept s (s.wr f v) :=
  ⟨fun _ _ _ => word_setWord_ne s _ (by omega), by rw [(State.wr_keeps s f v).within .seq rfl]⟩

theorem wrs_faultKept {s : State} {f g : Field} {v w : Nat} (hf : f.addr < 0x400010 ∨ 0x400030 ≤ f.addr)
    (hg : g.addr < 0x400010 ∨ 0x400030 ≤ g.addr) : FaultKept s (s.wrs [(f, v), (g, w)]) := (wr_faultKept hg).step (wr_faultKept hf)

/-- A block's state stands above the cores' registers, wherever a descriptor's number puts it. -/
theorem refreshBlock_faultKept (s : State) (e : Nat × Word) : FaultKept s (refreshBlock s e) := by
  have state (f : Field) (hf : f.addr = 0x520000 + 4 * e.1) : f.addr < 0x400010 ∨ 0x400030 ≤ f.addr := .inr (by omega)
  have begun (t : State) (p : Prop) [Decidable p] : FaultKept t (if p then startAcquisition e.1 t else t) := by
    split
    · exact (startAcquisition_keeps _ _).faultKept rfl rfl
    · exact .refl t
  have cleared (t : State) (p : Prop) [Decidable p] :
      FaultKept t (if p then startAcquisition e.1 ((clearTaps e.1 t).wr (JUG.BLOCK_STATE.rate.nth e.1) 7) else t) := by
    split
    · exact ((startAcquisition_keeps _ _).faultKept rfl rfl).step
        ((wr_faultKept (state _ rfl)).step ((clearTaps_keeps _ _).faultKept rfl rfl))
    · exact .refl t
  exact (wr_faultKept (state _ rfl)).step ((begun _ _).step (cleared _ _))

theorem refreshPool_faultKept (s : State) : FaultKept s (refreshPool s) := by
  unfold refreshPool
  split
  · exact .refl s
  · refine (FaultKept.foldl _ _ fun t n hn => ?ports).step ((wrs_faultKept (.inr (by decide)) (.inr (by decide))).step
      ((FaultKept.foldl _ _ fun t v _ => ?pairs).step (FaultKept.foldl _ s fun t e _ => refreshBlock_faultKept t e)))
    case pairs =>
      have pair (f : Field) (hf : f.addr = 0x500800 + 4 * v) : f.addr < 0x400010 ∨ 0x400030 ≤ f.addr := .inr (by omega)
      dsimp only
      split
      · exact (wr_faultKept (pair _ rfl)).step (wrs_faultKept (pair _ rfl) (pair _ rfl))
      · exact wrs_faultKept (pair _ rfl) (pair _ rfl)
    case ports =>
      obtain ⟨v, hv, rfl⟩ := List.mem_map.mp (List.mem_eraseDups.mp hn)
      have port : v / 4 < 32 := by have := victimPairs_lt hv; omega
      have inPort (f : Field) (hf : f.addr < 0x200 + 0x100000 + 0x10000 * (v / 4)) : f.addr < 0x400010 ∨ 0x400030 ≤ f.addr := .inl (by omega)
      have active := inPort (P.LINE_STATUS.nc_active.port (v / 4)) (by simp only [Field.port, P.LINE_STATUS.nc_active]; omega)
      have vector := inPort (P.REACH_STATUS.vg_state.port (v / 4)) (by simp only [Field.port, P.REACH_STATUS.vg_state]; omega)
      dsimp only
      split
      · exact (wr_faultKept vector).step (wr_faultKept active)
      · exact wr_faultKept active

/-- A ring's status stands above the cores' registers, whatever ring a job names. -/
theorem skipDesc_faultKept (r i : Nat) (s : State) : FaultKept s (skipDesc r i s) := by
  have ring : 0x400030 ≤ (DMA.RING_STATUS.outstanding.nth r).addr := by simp only [Field.nth, DMA.RING_STATUS.outstanding]; omega
  exact (wr_faultKept (.inr ring)).step ⟨fun _ _ _ => rfl, rfl⟩

theorem setJob_faultKept (s : State) (e : Nat) (v : Option Job) : FaultKept s (s.setJob e v) where
  words := fun a _ _ => by rw [State.word, (State.setJob_keeps s e v).within .regs rfl, State.word]
  ctxs := by cases v <;> rfl

theorem endJob_faultKept (e status : Nat) (s : State) : FaultKept s (endJob e status s) := by
  unfold endJob
  split
  · split <;> exact setJob_faultKept _ _ _
  · exact .refl s

theorem abandonJob_faultKept (e : Nat) (s : State) : FaultKept s (abandonJob e s) := by
  unfold abandonJob
  split
  · exact .refl s
  · split
    · exact setJob_faultKept _ _ _
    · dsimp only
      split
      · exact setJob_faultKept _ _ _
      · split
        · exact (skipDesc_faultKept _ _ _).step (setJob_faultKept _ _ _)
        all_goals exact (endJob_faultKept _ _ _).step (setJob_faultKept _ _ _)

theorem abandonJobs_faultKept (p : Job → Bool) (s : State) : FaultKept s (abandonJobs p s) :=
  FaultKept.foldl _ s fun t x _ => abandonJob_faultKept x.1 t

theorem refreshCore_faultKept {c : Nat} (s : State) (h : c < 4) : FaultKept s (refreshCore c s) where
  words := fun a low _ => (refreshCore_changes c [] s).registers a (by rw [List.mem_singleton, SQ.CORE_STATUS]; omega)
    (recordArea_outside (by omega) (by omega) (by omega))
  ctxs := by rw [refreshCore_seq]

/-! ### The fault word (R310, R313) -/

/-- SQ.FAULT of an exception. -/
def faultWord (cause task user pc : Nat) : Word := BitVec.ofNat 32 (cause * 2 ^ 28 + task * 2 ^ 22 + user * 2 ^ 21 + pc)

/-- Four fields are read back from the number they spell. -/
theorem faultFields_number {a b c d v : Nat} (ha : a < 16) (hb : b < 64) (hc : c < 2) (hd : d < 131072)
    (hv : v = a * 268435456 + b * 4194304 + c * 2097152 + d) :
    v / 268435456 % 16 = a ∧ v / 4194304 % 64 = b ∧ v / 2097152 % 2 = c ∧ v % 131072 = d ∧ v < 4294967296 := by
  refine ⟨?_, ?_, ?_, ?_, ?_⟩ <;> omega

theorem faultWord_fields {cause task user pc : Nat} (hcause : cause < 16) (htask : task < 64) (huser : user < 2) (hpc : pc < 131072) :
    bitsOf (faultWord cause task user pc) 28 4 = cause ∧ bitsOf (faultWord cause task user pc) 22 6 = task ∧
      bitsOf (faultWord cause task user pc) 21 1 = user ∧ bitsOf (faultWord cause task user pc) 0 17 = pc := by
  obtain ⟨h28, h22, h21, h0, small⟩ := faultFields_number hcause htask huser hpc rfl
  have value : (faultWord cause task user pc).toNat = cause * 268435456 + task * 4194304 + user * 2097152 + pc := by
    rw [faultWord, BitVec.toNat_ofNat]
    exact Nat.mod_eq_of_lt small
  simp only [bitsOf, value, Nat.reducePow, Nat.div_one]
  exact ⟨h28, h22, h21, h0⟩

/-! ### An exception (R311) -/

/-- What stands of an exception of task `k` after it: its context and the core's fault registers. -/
structure Quarantined (k cause pc : Nat) (val : Word) (s u : State) : Prop where
  ctx : u.ctx k = { s.ctx k with quarantined := true, wait := 0 }
  others : ∀ j, j ≠ k → u.ctx j = s.ctx j
  fault : u.word (SQ.FAULT + 4 * (k / 64)) = faultWord cause (k % 64) (bitNat (s.ctx k).user) (pc % 2 ^ 17)
  value : u.word (SQ.FAULT_VAL + 4 * (k / 64)) = val

/-- The exception's registers and context, before jobs and blocks are given back. -/
def faultTaken (k cause pc : Nat) (val : Word) (s : State) : State :=
  ((s.setWord (SQ.FAULT + 4 * (k / 64)) (faultWord cause (k % 64) (bitNat (s.ctx k).user) (pc % 2 ^ 17))).setWord
    (SQ.FAULT_VAL + 4 * (k / 64)) val).modCtx k (fun x => { x with quarantined := true, wait := 0 })

theorem faultTaken_quarantined {k : Nat} (cause pc : Nat) (val : Word) (s : State) :
    Quarantined k cause pc val s (faultTaken k cause pc val s) := by
  have ctxs (a : Nat) (w : Word) (t : State) (j : Nat) : (t.setWord a w).ctx j = t.ctx j := by
    rw [State.ctx, (State.setWord_keeps t a w).within .seq rfl, State.ctx]
  have words (t : State) (f : Ctx → Ctx) (a : Nat) : (t.modCtx k f).word a = t.word a := by
    rw [State.word, (State.modCtx_keeps t k f).within .regs rfl, State.word]
  refine ⟨?_, fun j hj => ?_, ?_, ?_⟩
  · rw [faultTaken, ctx_modCtx, if_pos rfl, ctxs, ctxs]
  · rw [faultTaken, ctx_modCtx, if_neg hj, ctxs, ctxs]
  · rw [faultTaken, words, word_setWord_ne _ _ (by simp only [SQ.FAULT, SQ.FAULT_VAL]; omega), word_setWord_same]
  · rw [faultTaken, words, word_setWord_same]

theorem Quarantined.kept {k cause pc : Nat} {val : Word} {s t u : State} (hk : k / 64 < 4) (h : Quarantined k cause pc val s t)
    (kept : FaultKept t u) : Quarantined k cause pc val s u where
  ctx := (kept.ctx k).trans h.ctx
  others := fun j hj => (kept.ctx j).trans (h.others j hj)
  fault := (kept.words _ (by rw [SQ.FAULT]; omega) (by rw [SQ.FAULT]; omega)).trans h.fault
  value := (kept.words _ (by rw [SQ.FAULT_VAL]; omega) (by rw [SQ.FAULT_VAL]; omega)).trans h.value

theorem takeException_quarantined {k : Nat} (cause pc : Nat) (val : Word) (s : State) (h : k / 64 < 4) :
    Quarantined k cause pc val s (takeException k cause pc val s) := by
  refine (faultTaken_quarantined cause pc val s).kept h ?_
  rw [takeException]
  dsimp only
  refine (aside_plainEvent _ _ _ (by omega)).faultKept.step ((aside_perfCount _ _ _ (by omega)).faultKept.step ?_)
  refine (refreshCore_faultKept _ h).step ((refreshPool_faultKept _).step ?_)
  have given := abandonJobs_faultKept (fun j => j.core == k / 64 && j.task == k % 64) (faultTaken k cause pc val s)
  exact ⟨given.words, given.ctxs⟩

/-- A trap quarantines the task of its turn. -/
theorem trap_quarantines {c : Instr} {t : Turn} {cause : Nat} {val : Word} {s r : State} (core : t.core < 4) (hcause : cause < 16)
    (h : Aside s r) (runs : exec c s = .next (trap t cause val r)) : Quarantines c t cause val s := by
  have sampled := h.trans (aside_sampleInstr (t.sample true false r) r)
  have taken : Quarantined t.key cause t.pc val (sampleInstr (t.sample true false r) r) (trap t cause val r) :=
    takeException_quarantined cause t.pc val _ core
  have parts : Within (records ++ [.seq, .dma, .pool]) s (trap t cause val r) :=
    (sampled.within.mono rfl).trans ((takeException_keeps _ _ _ _ _).within.mono rfl)
  obtain ⟨ctx, others, fault, value⟩ := taken
  rw [sampled.ctx] at ctx fault
  have small : bitNat (s.ctx t.key).user < 2 := by cases (s.ctx t.key).user <;> decide
  obtain ⟨hc, ht, hu, hp⟩ := faultWord_fields hcause (Nat.mod_lt t.key (by decide : 0 < 64)) small (Nat.mod_lt t.pc (by decide : 0 < 131072))
  refine ⟨_, runs, ctx, fun k hk => (others k hk).trans (sampled.ctx k), ?_, ?_, ?_, ?_, value, parts⟩
  · exact (congrArg (bitsOf · 28 4) fault).trans hc
  · exact (congrArg (bitsOf · 22 6) fault).trans ht
  · exact (congrArg (bitsOf · 21 1) fault).trans hu
  · exact (congrArg (bitsOf · 0 17) fault).trans hp

end Sys2Proof.Machine
end

section
/-! SUPPORT. Trip inputs and the TRIP instruction (R117, R118, R123, R308). -/

namespace Sys2Proof.Machine

/-! ### The level of an input pin (R123) -/

/-- A pin's level among the others. -/
def pinLevel (i : Nat) (v : Bool) (l : BitVec 8) : BitVec 8 := if v then l ||| BitVec.ofNat 8 (2 ^ i) else l &&& ~~~BitVec.ofNat 8 (2 ^ i)

theorem getLsbD_pinLevel (i : Nat) (v : Bool) (l : BitVec 8) {j : Nat} (hj : j < 8) :
    (pinLevel i v l).getLsbD j = if j = i then v else l.getLsbD j := by
  have bit : (BitVec.ofNat 8 (2 ^ i)).getLsbD j = decide (j = i) := by
    rw [BitVec.getLsbD_ofNat, decide_eq_true hj, Bool.true_and, Nat.testBit_two_pow]
    exact decide_eq_decide.mpr eq_comm
  rw [pinLevel]
  generalize BitVec.ofNat 8 (2 ^ i) = w at bit
  cases v
  · rw [if_neg Bool.false_ne_true, BitVec.getLsbD_and, BitVec.getLsbD_not, bit, decide_eq_true hj]
    by_cases h : j = i <;> simp [h]
  · rw [if_pos rfl, BitVec.getLsbD_or, bit]
    by_cases h : j = i <;> simp [h]

/-- The state with a pin at a level. -/
def atLevel (i : Nat) (v : Bool) (s : State) : State := { s with pins := { s.pins with level := pinLevel i v s.pins.level } }

theorem atLevel_inAsserted (i : Nat) (v : Bool) (s : State) {j : Nat} (hj : j < 8) : (atLevel i v s).inAsserted j =
    if j = i then s.actFlag (TRIP.IN_CFG.enable.nth j) && (v == s.actFlag (TRIP.IN_CFG.polarity.nth j)) else s.inAsserted j := by
  have level : (atLevel i v s).inAsserted j = (s.actFlag (TRIP.IN_CFG.enable.nth j) &&
      ((pinLevel i v s.pins.level).getLsbD j == s.actFlag (TRIP.IN_CFG.polarity.nth j))) := rfl
  rw [level, getLsbD_pinLevel i v _ hj, State.inAsserted]
  split <;> rfl

/-- An asserting edge of an enabled pin that was not asserted launches on its ports. -/
theorem exec_tripInEdge {s : State} {i : Fin 8} (on : s.actFlag (TRIP.IN_CFG.enable.nth i) = true) (was : s.inAsserted i = false) :
    exec (.tripInEdge i) s = .next (launchAll (s.word (TRIP.IN_MAP + 4 * i + 0x8000)) (atLevel i (s.actFlag (TRIP.IN_CFG.polarity.nth i)) s)) := by
  have now : (atLevel i (s.actFlag (TRIP.IN_CFG.polarity.nth i)) s).inAsserted i = true := by
    rw [atLevel_inAsserted _ _ _ i.isLt, if_pos rfl, on, beq_self_eq_true, Bool.and_true]
  exact congrArg Host.Outcome.next (if_pos (by rw [was]; exact (Bool.and_true _).trans now))

theorem exec_tripInDeassert (s : State) (i : Fin 8) :
    exec (.tripInDeassert i) s = .next (atLevel i (!s.actFlag (TRIP.IN_CFG.polarity.nth i)) s) := by
  show execTripInDeassert i s = _
  rw [execTripInDeassert, atLevel]
  cases s.actFlag (TRIP.IN_CFG.polarity.nth i) <;> rfl

theorem atLevel_other_asserted {i j : Nat} (v : Bool) (s : State) (hj : j < 8) (h : j ≠ i) : (atLevel i v s).inAsserted j = s.inAsserted j := by
  rw [atLevel_inAsserted _ _ _ hj, if_neg h]

/-- A pin away from its asserted level is not asserted. -/
theorem atLevel_deasserted {i : Nat} (s : State) (hi : i < 8) :
    (atLevel i (!s.actFlag (TRIP.IN_CFG.polarity.nth i)) s).inAsserted i = false := by
  rw [atLevel_inAsserted _ _ _ hi, if_pos rfl]
  cases s.actFlag (TRIP.IN_CFG.polarity.nth i) <;> simp

/-- No source of the port is asserted any more. -/
theorem atLevel_tripActive {i n : Nat} (s : State) (hi : i < 8)
    (others : ∀ j < 8, j ≠ i → s.inAsserted j = true → bitOf (s.word (TRIP.IN_MAP + 4 * j + 0x8000)) n = false) :
    (atLevel i (!s.actFlag (TRIP.IN_CFG.polarity.nth i)) s).tripActive n = false := by
  rw [State.tripActive, List.any_eq_false]
  intro j hj
  have hj := List.mem_range.mp hj
  rw [Bool.and_eq_true, not_and]
  intro asserted
  by_cases h : j = i
  · subst h
    rw [atLevel_deasserted s hj] at asserted
    exact absurd asserted Bool.false_ne_true
  · rw [atLevel_other_asserted _ s hj h] at asserted
    exact (Bool.eq_false_iff.mp (others j hj h asserted))

/-- Launches leave every input as it is. -/
theorem launchAll_inAsserted (ports : Word) (s : State) {j : Nat} (hj : j < 8) : (launchAll ports s).inAsserted j = s.inAsserted j := by
  have written := launchAll_writes ports s
  have config (f : Field) (hf : f.addr < 0x680100) (block : 0x680000 ≤ f.addr) : (launchAll ports s).actFlag f = s.actFlag f :=
    written.actFlag f fun hm => by
      have := launchWords_place hm
      simp only [Field.active] at this
      omega
  have enable := config (TRIP.IN_CFG.enable.nth j) (by simp only [Field.nth, TRIP.IN_CFG.enable]; omega)
    (by simp only [Field.nth, TRIP.IN_CFG.enable]; omega)
  have polarity := config (TRIP.IN_CFG.polarity.nth j) (by simp only [Field.nth, TRIP.IN_CFG.polarity]; omega)
    (by simp only [Field.nth, TRIP.IN_CFG.polarity]; omega)
  rw [State.inAsserted, enable, polarity, written.rest .pins rfl, State.inAsserted]

/-! ### Launches from a state that differs outside the port -/

/-- What a launch reads of port `n` is the same: its trip state, its link state, its configuration. -/
structure SameLauncher (n : Nat) (s r : State) : Prop where
  trip : r.trip n = s.trip n
  fsm : r.fsm n = s.fsm n
  config : ∀ f : Field, f.addr = 0x680100 + 4 * n → r.act f = s.act f

theorem SameLauncher.canBurst {n : Nat} {s r : State} (h : SameLauncher n s r) (can : s.CanBurst n) : r.CanBurst n := by
  obtain ⟨armed, notRetraining, idle⟩ := can
  refine ⟨?_, ?_, ?_⟩
  · rwa [h.trip]
  · rwa [h.fsm]
  · rwa [h.trip]

theorem SameLauncher.bursts {n : Nat} {s r u : State} (h : SameLauncher n s r) (b : Bursts n r u) : Bursts n s u := by
  intro ready hready
  rw [Bursts, h.trip, h.config _ rfl] at b
  exact b ready hready

theorem sameLauncher_atLevel (n i : Nat) (v : Bool) (s : State) : SameLauncher n s (atLevel i v s) := ⟨rfl, rfl, fun _ _ => rfl⟩

/-- CORE_STATUS and contexts are no part of it. -/
theorem Changes.sameLauncher {n c : Nat} {s r : State} (h : Changes [SQ.CORE_STATUS + 4 * c] [.seq] s r) (hn : n < 32) (hc : c < 4) :
    SameLauncher n s r where
  trip := h.rest.trip rfl n
  fsm := by
    refine h.rd _ ?_ (recordArea_outside ?_ ?_ ?_) <;> simp only [Field.port, P.AN_STATUS.state, List.mem_singleton, SQ.CORE_STATUS] <;> omega
  config := fun f hf => by
    have place : f.active.addr = 0x688100 + 4 * n := by simp only [Field.active, hf]; omega
    exact h.rd f.active (by rw [List.mem_singleton, place, SQ.CORE_STATUS]; omega) (recordArea_trip (by omega) (by omega))

/-! ### The TRIP instruction (R308) -/

theorem turn_user {s : State} {c : Nat} {l : BitVec 16} {t : Turn} (h : s.turn c l = some t) : t.user = (s.ctx t.key).user := by
  unfold State.turn at h
  split at h
  · cases h
  · dsimp only at h
    split at h
    · cases h
    · cases h
      rfl

theorem Aside.tripMask {s r : State} (h : Aside s r) (k : Nat) : r.tripMask k = s.tripMask k := by
  rw [State.tripMask, State.taskRec, h.wheel, State.tripMask, State.taskRec]

section
variable {s : State} {i : Issue} {rs1 : Fin 32} {t : Turn} (issues : s.Issues i (.trip rs1) t)
include issues

theorem exec_trip_denied (user : (s.ctx t.key).user = true) (beyond : (s.ctx t.key).reg rs1 &&& ~~~s.tripMask t.key ≠ 0) :
    exec (.trip i rs1) s = .next (trap t exPriv t.word (countIssue t true s)) := by
  obtain ⟨runs, counted⟩ := issue_runs issues (runTrip rs1)
  have level := (turn_user issues.turn).trans user
  refine congrArg Host.Outcome.next (runs.trans (if_pos ?_))
  rw [counted.ctx, counted.tripMask, level, decide_eq_true beyond, Bool.and_true]

theorem exec_trip_granted (granted : (s.ctx t.key).user = false ∨ (s.ctx t.key).reg rs1 &&& ~~~s.tripMask t.key = 0) :
    exec (.trip i rs1) s = .next (launchAll ((s.ctx t.key).reg rs1) (done t (fun x => x) (countIssue t true s))) := by
  obtain ⟨runs, counted⟩ := issue_runs issues (runTrip rs1)
  have level := turn_user issues.turn
  have passes : (t.user && decide ((s.ctx t.key).reg rs1 &&& ~~~s.tripMask t.key ≠ 0)) = false := by
    rcases granted with user | within
    · rw [level, user, Bool.false_and]
    · rw [within, decide_eq_false (fun h => h rfl), Bool.and_false]
  refine congrArg Host.Outcome.next (runs.trans ?_)
  rw [runTrip, counted.ctx, counted.tripMask, if_neg (by rw [passes]; decide)]

end

/-- Launches after an instruction leave the contexts as it left them. -/
theorem Retires.launchAll {t : Turn} {x : Ctx} {s r : State} (ports : Word) (h : Retires t x [] [] s r) :
    Retires t x launchWords [.trips, .messages] s (launchAll ports r) := by
  have written := launchAll_writes ports r
  have ctx (k : Nat) : (Machine.launchAll ports r).ctx k = r.ctx k := by rw [State.ctx, written.rest .seq rfl, State.ctx]
  refine ⟨(ctx _).trans h.ctx, fun k hk => (ctx k).trans (h.others k hk), ?_⟩
  exact (h.changes.mono (by simp) rfl).trans ((written.changes (parts' := [.seq, .trips, .messages]) rfl).mono (List.subset_cons_self _ _) rfl)

end Sys2Proof.Machine
end

section
/-! PROOF. Launches from the inputs and from the TRIP instruction (R117 to R120, R123, R308). -/

namespace Sys2Proof.Machine

/-- Settles O14: an edge, the instruction and a deassertion are each one state change, and launches follow `launchAll`. -/
theorem tripLaunchesOnNamedPorts : Obligations.TripLaunchesOnNamedPorts := by
  unfold Obligations.TripLaunchesOnNamedPorts
  refine ⟨fun s i on was => ?edge, fun s i t rs1 x hx issues => ?instruction, fun s i => ?deassert⟩
  case edge =>
    generalize hv : s.actFlag (TRIP.IN_CFG.polarity.nth i) = v
    have written := launchAll_writes (s.word (TRIP.IN_MAP + 4 * i + 0x8000)) (atLevel i v s)
    have pins : (launchAll (s.word (TRIP.IN_MAP + 4 * i + 0x8000)) (atLevel i v s)).pins = (atLevel i v s).pins := written.rest .pins rfl
    have asserted (j : Fin 8) := launchAll_inAsserted (s.word (TRIP.IN_MAP + 4 * i + 0x8000)) (atLevel i v s) j.isLt
    have same (n : Nat) := sameLauncher_atLevel n i v s
    refine ⟨_, hv ▸ exec_tripInEdge on was, ?_, fun j hj => ?_, fun n named can => ?_, fun n named unarmed off => ?_, fun n unnamed => ?_,
      (congrArg TripPins.hold pins).trans rfl, ?_⟩
    · rw [asserted, atLevel_inAsserted _ _ _ i.isLt, if_pos rfl, on, hv, beq_self_eq_true, Bool.and_true]
    · rw [asserted, atLevel_other_asserted _ _ j.isLt (Fin.val_ne_of_ne hj)]
    · exact (same n).bursts (launchAll_bursts n.isLt named ((same n).canBurst can))
    · exact launchAll_dropped (s := atLevel i v s) n.isLt named unarmed off
    · rw [launchAll_trip n.isLt, if_neg (by rw [unnamed]; decide), (same n).trip]
    · exact (((State.withPins_keeps s _).writes (words := launchWords) (parts := [.trips, .pins, .messages]) rfl rfl).trans
        (written.mono (List.Subset.refl _) rfl)).changes rfl
  case instruction =>
    subst hx
    have core : t.core < 4 := by
      rw [turn_core_lt issues.turn]
      exact i.core.isLt
    obtain ⟨-, counted⟩ := issue_runs issues (runTrip rs1)
    refine ⟨fun user beyond => trap_quarantines core (by decide) counted (exec_trip_denied issues user beyond), fun granted => ?_⟩
    obtain ⟨completes, -⟩ := done_retires t (fun x => x) (countIssue t true s)
    rw [counted.ctx] at completes
    have retired := completes.of_aside counted
    refine ⟨_, exec_trip_granted issues granted, retired.launchAll _, fun n named can => ?_, fun n unnamed => ?_⟩
    · have same := retired.changes.sameLauncher n.isLt core
      exact same.bursts (launchAll_bursts n.isLt named (same.canBurst can))
    · rw [launchAll_trip n.isLt, if_neg (by rw [unnamed]; decide), (retired.changes.sameLauncher n.isLt core).trip]
  case deassert =>
    exact ⟨_, exec_tripInDeassert s i, atLevel_deasserted s i.isLt, fun j hj => atLevel_other_asserted _ s j.isLt (Fin.val_ne_of_ne hj), rfl,
      fun n others => atLevel_tripActive s i.isLt fun j hj hne asserted =>
        others ⟨j, hj⟩ (fun e => hne (congrArg Fin.val e)) asserted⟩

end Sys2Proof.Machine
end

section
/-! SUPPORT. The taps of a block, and what an adaptation job does to them (R132, R135, R137, R138, R171). -/

namespace Sys2Proof.Machine

/-! ### Taps (R132) -/

theorem tap_setTap (s : State) (b t : Nat) (v : BitVec 18) (c q : Nat) :
    (s.setTap b t v).tap c q = if 64 * c + q = 64 * b + t then v else s.tap c q := sget_sput _ _ _ _ _

theorem tap_setTap_same (s : State) (b t : Nat) (v : BitVec 18) : (s.setTap b t v).tap b t = v := sget_sput_same _ _ _ _

theorem tap_setTap_ne (s : State) {b t q : Nat} (v : BitVec 18) (h : q ≠ t) : (s.setTap b t v).tap b q = s.tap b q := by
  rw [tap_setTap, if_neg (by omega)]

theorem tap_setTap_block (s : State) {b t c q : Nat} (v : BitVec 18) (ht : t < 64) (hq : q < 64) (h : c ≠ b) :
    (s.setTap b t v).tap c q = s.tap c q := by
  rw [tap_setTap, if_neg (by omega)]

/-- From `s` to `u` taps of block `b` are written: no other block's, no register, no descriptor. -/
structure TapsWritten (b : Nat) (s u : State) : Prop where
  others : ∀ c t, c ≠ b → t < 64 → u.tap c t = s.tap c t
  descs : u.pool.descs = s.pool.descs
  regs : u.regs = s.regs

theorem TapsWritten.refl (b : Nat) (s : State) : TapsWritten b s s := ⟨fun _ _ _ _ => rfl, rfl, rfl⟩

theorem TapsWritten.trans {b : Nat} {s t u : State} (h : TapsWritten b s t) (k : TapsWritten b t u) : TapsWritten b s u :=
  ⟨fun c q hc hq => (k.others c q hc hq).trans (h.others c q hc hq), k.descs.trans h.descs, k.regs.trans h.regs⟩

theorem TapsWritten.foldl {α : Type} {b : Nat} {f : State → α → State} (l : List α) (s : State)
    (h : ∀ s, ∀ x ∈ l, TapsWritten b s (f s x)) : TapsWritten b s (l.foldl f s) := by
  induction l generalizing s with
  | nil => exact .refl b s
  | cons x l ih => exact (h s x List.mem_cons_self).trans (ih _ fun s y hy => h s y (List.mem_cons_of_mem _ hy))

theorem TapsWritten.desc {b : Nat} {s u : State} (h : TapsWritten b s u) (c : Nat) : u.desc c = s.desc c := by
  rw [State.desc, h.descs, State.desc]

theorem TapsWritten.word {b : Nat} {s u : State} (h : TapsWritten b s u) (a : Nat) : u.word a = s.word a := by
  rw [State.word, h.regs, State.word]

theorem setTap_written (s : State) (b : Nat) {t : Nat} (v : BitVec 18) (ht : t < 64) : TapsWritten b s (s.setTap b t v) :=
  ⟨fun _ _ hc hq => tap_setTap_block s v ht hq hc, rfl, rfl⟩

/-! ### One LMS step (R137) -/

/-- A value that fits a coefficient is kept exactly, and no free value is drawn. -/
theorem fit18_of_fits {v : Int} (s : State) (low : -131072 ≤ v) (high : v ≤ 131071) : fit18 v s = (BitVec.ofInt 18 v, s) := by
  rw [fit18, if_pos (by simp [low, high])]

theorem fit18_pool (v : Int) (s : State) : (fit18 v s).2.pool = s.pool := (fit18_keeps v s).within .pool rfl

theorem fit18_regs (v : Int) (s : State) : (fit18 v s).2.regs = s.regs := (fit18_keeps v s).within .regs rfl

theorem toInt_ofInt_fits {v : Int} (low : -131072 ≤ v) (high : v ≤ 131071) : (BitVec.ofInt 18 v).toInt = v := by
  rw [BitVec.toInt_ofInt, Int.bmod_eq_of_le] <;> omega

/-- The value tap `t` of block `b` takes under step exponent `k`. -/
def State.stepValue (s : State) (b : Nat) (errors symbols : List Int) (k t : Nat) : Int :=
  (s.tap b t).toInt + correlation errors symbols t / 2 ^ k

/-- The LMS step of one tap. -/
def tapStep (b : Nat) (errors symbols : List Int) (k : Nat) (s : State) (t : Nat) : State :=
  (fit18 (s.stepValue b errors symbols k t) s).2.setTap b t (fit18 (s.stepValue b errors symbols k t) s).1

/-- The LMS steps of the first `n` taps. -/
def tapSteps (b : Nat) (errors symbols : List Int) (k n : Nat) (s : State) : State :=
  (List.range n).foldl (tapStep b errors symbols k) s

section
variable (b : Nat) (errors symbols : List Int) (k : Nat) (s : State)

theorem tapStep_written {t : Nat} (ht : t < 64) : TapsWritten b s (tapStep b errors symbols k s t) :=
  TapsWritten.trans ⟨fun c q _ _ => by rw [State.tap, fit18_pool, State.tap], by rw [fit18_pool], fit18_regs _ s⟩ (setTap_written _ b _ ht)

theorem tapStep_ne {t q : Nat} (h : q ≠ t) : (tapStep b errors symbols k s t).tap b q = s.tap b q := by
  rw [tapStep, tap_setTap_ne _ _ h, State.tap, fit18_pool, State.tap]

theorem tapStep_same {t : Nat} (low : -131072 ≤ s.stepValue b errors symbols k t) (high : s.stepValue b errors symbols k t ≤ 131071) :
    ((tapStep b errors symbols k s t).tap b t).toInt = s.stepValue b errors symbols k t := by
  rw [tapStep, tap_setTap_same, fit18_of_fits s low high, toInt_ofInt_fits low high]

theorem tapSteps_succ (n : Nat) : tapSteps b errors symbols k (n + 1) s = tapStep b errors symbols k (tapSteps b errors symbols k n s) n := by
  simp only [tapSteps, List.range_succ, List.foldl_append, List.foldl_cons, List.foldl_nil]

/-- A tap whose turn has not come is as it was. -/
theorem tapSteps_later {n t : Nat} (h : n ≤ t) : (tapSteps b errors symbols k n s).tap b t = s.tap b t := by
  induction n with
  | zero => rfl
  | succ n ih => rw [tapSteps_succ, tapStep_ne _ _ _ _ _ (by omega), ih (by omega)]

/-- A tap takes its step from the value it had before all steps: the 64 act at once. -/
theorem tapSteps_tap {n t : Nat} (h : t < n) (low : -131072 ≤ s.stepValue b errors symbols k t)
    (high : s.stepValue b errors symbols k t ≤ 131071) :
    ((tapSteps b errors symbols k n s).tap b t).toInt = s.stepValue b errors symbols k t := by
  induction n with
  | zero => exact absurd h (Nat.not_lt_zero t)
  | succ n ih =>
    rw [tapSteps_succ]
    by_cases last : t = n
    · subst last
      have same : (tapSteps b errors symbols k t s).stepValue b errors symbols k t = s.stepValue b errors symbols k t := by
        rw [State.stepValue, tapSteps_later _ _ _ _ _ (Nat.le_refl t), State.stepValue]
      rw [tapStep_same _ _ _ _ _ (by rwa [same]) (by rwa [same]), same]
    · rw [tapStep_ne _ _ _ _ _ last, ih (by omega)]

theorem tapSteps_written : TapsWritten b s (tapSteps b errors symbols k 64 s) :=
  TapsWritten.foldl _ s fun t _ hq => tapStep_written b errors symbols k t (List.mem_range.mp hq)

end

/-! ### Coefficients written whole (R171) -/

/-- The coefficients given are written in their order. -/
def vectorTaps (b : Nat) (taps : List (Fin 64 × BitVec 18)) (s : State) : State := taps.foldl (fun s e => s.setTap b e.1 e.2) s

theorem vectorTaps_written (b : Nat) (taps : List (Fin 64 × BitVec 18)) (s : State) : TapsWritten b s (vectorTaps b taps s) :=
  TapsWritten.foldl taps s fun t e _ => setTap_written t b e.2 e.1.isLt

/-- A tap reads the value given for it, where the job gives one value only. -/
theorem vectorTaps_tap {b : Nat} {e : Fin 64 × BitVec 18} (taps : List (Fin 64 × BitVec 18)) (s : State)
    (once : ∀ d ∈ taps, d.1 = e.1 → d = e) (given : e ∈ taps ∨ s.tap b e.1 = e.2) : (vectorTaps b taps s).tap b e.1 = e.2 := by
  induction taps generalizing s with
  | nil => exact given.resolve_left List.not_mem_nil
  | cons d taps ih =>
    refine ih _ (fun x hx => once x (List.mem_cons_of_mem _ hx)) ?_
    by_cases same : d.1 = e.1
    · obtain rfl := once d List.mem_cons_self same
      exact .inr (tap_setTap_same _ _ _ _)
    · rcases given with given | given
      · exact .inl ((List.mem_cons.mp given).resolve_left fun h => same (h ▸ rfl))
      · exact .inr ((tap_setTap_ne _ _ fun h => same (Fin.val_injective h.symm)).trans given)

/-! ### An update done (R135, R137) -/

section
variable (b : Nat) (s : State)

theorem blockUpdated_pool : (blockUpdated b s).pool = s.pool := (blockUpdated_keeps b s).within .pool rfl

theorem blockUpdated_tap (c t : Nat) : (blockUpdated b s).tap c t = s.tap c t := by
  rw [State.tap, blockUpdated_pool, State.tap]

theorem blockUpdated_writes : Writes [JUG.BLOCK_STATE + 4 * b] [] s (blockUpdated b s) := by
  have counted : Writes [JUG.BLOCK_STATE + 4 * b] [] s (s.addWrap (JUG.BLOCK_STATE.upd_count.nth b) 1) :=
    writes_wr s _ List.mem_cons_self
  unfold blockUpdated
  dsimp only
  split
  · exact counted.trans (writes_wr _ _ List.mem_cons_self)
  · exact counted

theorem blockUpdated_count : (blockUpdated b s).rd (JUG.BLOCK_STATE.upd_count.nth b) =
    (s.rd (JUG.BLOCK_STATE.upd_count.nth b) + 1) % 2 ^ JUG.BLOCK_STATE.upd_count.width := by
  have counted := rd_addWrap_same s (JUG.BLOCK_STATE.upd_count.nth b) 1 (by decide : (16 : Nat) + 16 ≤ 32)
  unfold blockUpdated
  dsimp only
  split
  · rw [rd_wr_apart _ _ _ _ (by decide : (13 : Nat) + 3 ≤ 32) (.inr (by decide : (13 : Nat) + 3 ≤ 16)), counted]
    rfl
  · exact counted

theorem addWrap_desc (f : Field) (k c : Nat) : (s.addWrap f k).desc c = s.desc c := rfl

/-- LINE_STATUS of a port is no block's register: a count of updates leaves the port's rate. -/
theorem counted_portRate {n : Nat} (hb : b < 1024) (hn : n < 32) :
    (s.addWrap (JUG.BLOCK_STATE.upd_count.nth b) 1).portRate n = s.portRate n := by
  have counted : Writes [JUG.BLOCK_STATE + 4 * b] [] s (s.addWrap (JUG.BLOCK_STATE.upd_count.nth b) 1) :=
    writes_wr s _ List.mem_cons_self
  have away : portAddr n P.LINE_STATUS ∉ [JUG.BLOCK_STATE + 4 * b] := by
    simp only [List.mem_singleton, portAddr, P.LINE_STATUS, JUG.BLOCK_STATE]
    omega
  rw [State.portRate, State.modeNow, State.rateNow, counted.rd _ away, counted.rd _ away]
  rfl

theorem blockUpdated_rate (hb : b < 1024) (kind : descKind (s.desc b) = 0) : (blockUpdated b s).rd (JUG.BLOCK_STATE.rate.nth b) =
    s.portRate (descVictim (s.desc b) / 4) % 8 := by
  have hv : descVictim (s.desc b) < 2 ^ 7 := bitsOf_lt _ _ _
  unfold blockUpdated
  dsimp only
  rw [addWrap_desc, if_pos kind, rd_wr_same _ _ _ (by decide : (13 : Nat) + 3 ≤ 32), counted_portRate b s hb (by omega)]
  rfl

end

/-! ### The jobs -/

/-- What a job's update of block `b` leaves, `taps` being the state with its taps written. -/
structure BlockAdapted (b : Nat) (s taps u : State) : Prop where
  tap : ∀ t, u.tap b t = taps.tap b t
  others : ∀ c t, c ≠ b → t < 64 → u.tap c t = s.tap c t
  count : u.rd (JUG.BLOCK_STATE.upd_count.nth b) = (s.rd (JUG.BLOCK_STATE.upd_count.nth b) + 1) % 2 ^ JUG.BLOCK_STATE.upd_count.width
  rate : descKind (s.desc b) = 0 → u.rd (JUG.BLOCK_STATE.rate.nth b) = s.portRate (descVictim (s.desc b) / 4) % 8
  registers : ∀ a, a ≠ JUG.BLOCK_STATE + 4 * b → u.word a = s.word a

theorem TapsWritten.adapted {b : Nat} {s t : State} (h : TapsWritten b s t) (hb : b < 1024) : BlockAdapted b s t (blockUpdated b t) where
  tap := blockUpdated_tap b t b
  others := fun c q hc hq => (blockUpdated_tap b t c q).trans (h.others c q hc hq)
  count := by rw [blockUpdated_count, State.rd, h.word, State.rd]
  rate := fun kind => by
    rw [blockUpdated_rate b t hb (by rwa [h.desc]), h.desc]
    simp only [State.portRate, State.modeNow, State.rateNow, State.rd, h.word]
  registers := fun a ha => ((blockUpdated_writes b t).registers a (by simpa using ha)).trans (h.word a)

section
variable {s : State} {b : Fin 1024} (runs : s.jobRuns b false = true)
include runs

theorem exec_ncLms_runs (errors symbols : List Int) (kind : descKind (s.desc b) = 0) : exec (.ncLms b errors symbols false) s =
    .next (blockUpdated b (tapSteps b errors symbols (s.blockExponent b (s.desc b)) 64 s)) := by
  show execNcLms b errors symbols false s = _
  rw [execNcLms, if_pos (by rw [runs, kind]; rfl)]
  unfold tapSteps tapStep State.stepValue
  rfl

theorem exec_reachVec_runs (taps : List (Fin 64 × BitVec 18)) (kind : descKind (s.desc b) = 1) : exec (.reachVec b taps false) s =
    .next (blockUpdated b (vectorTaps b taps s)) := by
  show execReachVec b taps false s = _
  rw [execReachVec, if_pos (by rw [runs, kind]; rfl)]
  rfl

end

/-- A job whose capture was quiet, or of a block in another state than 1, does nothing. -/
theorem exec_job_idle {s : State} {b : Fin 1024} {quiet : Bool} (idle : s.jobRuns b quiet = false) (errors symbols : List Int)
    (taps : List (Fin 64 × BitVec 18)) :
    exec (.ncLms b errors symbols quiet) s = .next s ∧ exec (.reachVec b taps quiet) s = .next s := by
  constructor
  · show execNcLms b errors symbols quiet s = _
    rw [execNcLms, idle, if_neg (by simp)]
  · show execReachVec b taps quiet s = _
    rw [execReachVec, idle, if_neg (by simp)]

end Sys2Proof.Machine
end

section
/-! SUPPORT. The bundle scan: its start, its pairs and its end (R41, R140 to R143, R148). -/

namespace Sys2Proof.Machine

/-! ### The pair at the head -/

/-- Whether a pair can be measured shows in AN_STATUS and LINE_STATUS of its port alone. -/
theorem scannable_of_words {s t : State} {v : Nat} (state : t.word (portAddr (v / 4) P.AN_STATUS) = s.word (portAddr (v / 4) P.AN_STATUS))
    (line : t.word (portAddr (v / 4) P.LINE_STATUS) = s.word (portAddr (v / 4) P.LINE_STATUS)) : t.scannable v = s.scannable v := by
  have fsm : t.fsm (v / 4) = s.fsm (v / 4) := congrArg (bitsOf · _ _) state
  have mode : t.modeNow (v / 4) = s.modeNow (v / 4) := congrArg (bitsOf · _ _) line
  have rate : t.rateNow (v / 4) = s.rateNow (v / 4) := congrArg (bitsOf · _ _) line
  rw [State.scannable, fsm, mode, rate, State.scannable]

/-- What a scan writes is neither register of any port. -/
theorem Changes.scannable {parts : List Part} {s t : State} {n v : Nat} (h : Changes [JUG.SCAN_STATUS, portAddr n P.MON_CAUSE] parts s t)
    (hv : v < 128) : t.scannable v = s.scannable v := by
  have shown : ∀ a, a = P.AN_STATUS ∨ a = P.LINE_STATUS → t.word (portAddr (v / 4) a) = s.word (portAddr (v / 4) a) := by
    intro a ha
    simp only [P.AN_STATUS, P.LINE_STATUS] at ha
    refine h.registers _ ?_ (recordArea_outside ?_ ?_ ?_)
    · simp only [portAddr, JUG.SCAN_STATUS, P.MON_CAUSE, List.mem_cons, List.not_mem_nil, or_false]
      omega
    all_goals simp only [portAddr]; omega
  exact scannable_of_words (shown _ (.inl rfl)) (shown _ (.inr rfl))

theorem skipVictims_scannable {s : State} {v : Nat} {rest : List Nat} (head : s.pool.victims = v :: rest) (can : s.scannable v = true)
    (fuel : Nat) : skipVictims fuel s = s := by
  cases fuel with
  | zero => rfl
  | succ k => rw [skipVictims, head]; exact if_pos can

theorem skipVictims_done {s : State} (none : s.pool.victims = []) (fuel : Nat) : skipVictims fuel s = s := by
  cases fuel with
  | zero => rfl
  | succ k => rw [skipVictims, none]

theorem victimsOf_lt {p : Word} {v : Nat} (h : v ∈ victimsOf p) : v < 128 := List.mem_range.mp (List.mem_of_mem_filter h)

/-! ### A scan begins (R140, R141, R148) -/

theorem withPool_within (s : State) (p : Pool) : Within [.pool] s (s.withPool p) := by
  intro q hq
  cases q <;> first | rfl | cases hq

theorem withPool_word (s : State) (p : Pool) (a : Nat) : (s.withPool p).word a = s.word a := rfl

theorem judgeScan_writes (s : State) : Writes [JUG.SCAN_STATUS] [] s (judgeScan s) := writes_wr s _ List.mem_cons_self

theorem judgeScan_noSlots (s : State) :
    (judgeScan s).rd JUG.SCAN_STATUS.no_slots = bitNat (s.pool.scan.isSome && s.noDiagSlots) % 2 := rd_wr_same _ _ _ (by decide)

theorem judgeScan_apart (s : State) (g : Field) (h : g.lsb + g.width ≤ 24) : (judgeScan s).rd g = s.rd g :=
  rd_wr_apart _ _ _ _ (by decide) (.inl h)

theorem bitNat_mod (b : Bool) : bitNat b % 2 = bitNat b := by cases b <;> rfl

/-- A scan over its ports, before it shows its first pair. -/
def scanOpened (r : ScanReq) (s : State) : State :=
  judgeScan ((s.withPool { s.pool with scan := some r, victims := victimsOf r.ports }).wrs
    [(JUG.SCAN_STATUS.running, 1), (JUG.SCAN_STATUS.pairs_done, 0)])

/-- A scan that shows pair `v` as its first. -/
def scanShown (r : ScanReq) (v : Nat) (s : State) : State := (scanOpened r s).wr JUG.SCAN_STATUS.victim_now v

section
variable (r : ScanReq) (s : State)

theorem scanOpened_word {a : Nat} (h : a ≠ JUG.SCAN_STATUS) : (scanOpened r s).word a = s.word a := by
  have written := (writes_wrs (parts := []) (words := [JUG.SCAN_STATUS])
    (s.withPool { s.pool with scan := some r, victims := victimsOf r.ports })
    [(JUG.SCAN_STATUS.running, 1), (JUG.SCAN_STATUS.pairs_done, 0)] (by decide)).trans (judgeScan_writes _)
  exact written.registers a (by simpa using h)

theorem scanOpened_scannable {v : Nat} : (scanOpened r s).scannable v = s.scannable v := by
  refine scannable_of_words (scanOpened_word r s ?_) (scanOpened_word r s ?_) <;>
    simp only [portAddr, P.AN_STATUS, P.LINE_STATUS, JUG.SCAN_STATUS] <;> omega

theorem scanOpened_running : (scanOpened r s).rd JUG.SCAN_STATUS.running = 1 := by
  rw [scanOpened, judgeScan_apart _ _ (by decide), wrs_pair, rd_wr_apart _ _ _ _ (by decide) (.inr (by decide)), rd_wr_same _ _ _ (by decide)]
  rfl

theorem scanOpened_pairsDone : (scanOpened r s).rd JUG.SCAN_STATUS.pairs_done = 0 := by
  rw [scanOpened, judgeScan_apart _ _ (by decide), wrs_pair, rd_wr_same _ _ _ (by decide)]
  rfl

theorem scanOpened_noSlots : (scanOpened r s).rd JUG.SCAN_STATUS.no_slots = bitNat s.noDiagSlots :=
  (judgeScan_noSlots _).trans (bitNat_mod _)

/-- A scan whose first pair can be measured shows it at once. -/
theorem runScan_shows {v : Nat} {rest : List Nat} (pairs : victimsOf r.ports = v :: rest) (can : s.scannable v = true) :
    runScan r s = scanShown r v s := by
  have head : (scanOpened r s).pool.victims = v :: rest := pairs
  have begun : beginScan r s = (skipVictims 128 (scanOpened r s)).wr JUG.SCAN_STATUS.victim_now
      ((skipVictims 128 (scanOpened r s)).pool.victims.headD 0) := rfl
  rw [skipVictims_scannable head (by rwa [scanOpened_scannable]), head] at begun
  have shown : (scanShown r v s).pool.victims = v :: rest := pairs
  rw [runScan, begun]
  exact if_neg (by rw [List.headD_cons, ← scanShown, shown]; exact Bool.false_ne_true)

/-- What a scan that shows pair `v` reads. -/
structure ScanRuns (r : ScanReq) (v : Nat) (s u : State) : Prop where
  pool : u.pool = { s.pool with scan := some r, victims := victimsOf r.ports }
  running : u.rd JUG.SCAN_STATUS.running = 1
  pairsDone : u.rd JUG.SCAN_STATUS.pairs_done = 0
  victim : u.rd JUG.SCAN_STATUS.victim_now = v
  noSlots : u.rd JUG.SCAN_STATUS.no_slots = bitNat s.noDiagSlots
  registers : ∀ a, a ≠ JUG.SCAN_STATUS → u.word a = s.word a
  within : Within [.regs, .pool] s u

theorem scanShown_runs {v : Nat} (hv : v < 128) : ScanRuns r v s (scanShown r v s) where
  pool := rfl
  running := (rd_wr_apart _ _ _ _ (by decide) (.inr (by decide))).trans (scanOpened_running r s)
  pairsDone := (rd_wr_apart _ _ _ _ (by decide) (.inl (by decide))).trans (scanOpened_pairsDone r s)
  victim := (rd_wr_same _ _ _ (by decide)).trans (Nat.mod_eq_of_lt hv)
  noSlots := (rd_wr_apart _ _ _ _ (by decide) (.inr (by decide))).trans (scanOpened_noSlots r s)
  registers := fun a ha => (word_wr_ne _ _ _ ha).trans (scanOpened_word r s ha)
  within := (((withPool_within s _).mono rfl).trans (((State.wrs_keeps _ _).within.mono rfl).trans
    ((judgeScan_keeps _).within.mono rfl))).trans ((State.wr_keeps _ _ _).within.mono rfl)

end

/-! ### A scan ends (R142, R143) -/

theorem setWc_word (s : State) (key v a : Nat) : (s.setWc key v).word a = s.word a := rfl

theorem setWc_pool (s : State) (key v : Nat) : (s.setWc key v).pool = s.pool := rfl

theorem setWc_noDiagSlots (s : State) (key v : Nat) : (s.setWc key v).noDiagSlots = s.noDiagSlots := rfl

/-- No scan runs, and SCAN_STATUS shows none. -/
def scanEnded (s : State) : State :=
  judgeScan ((s.withPool { s.pool with scan := none, victims := [] }).wr JUG.SCAN_STATUS.running 0)

theorem scanEnded_running (s : State) : (scanEnded s).rd JUG.SCAN_STATUS.running = 0 :=
  (judgeScan_apart _ _ (by decide)).trans (rd_wr_same _ _ _ (by decide))

theorem scanEnded_word (s : State) {a : Nat} (h : a ≠ JUG.SCAN_STATUS) : (scanEnded s).word a = s.word a :=
  ((judgeScan_writes _).registers a (by simpa using h)).trans (word_wr_ne _ _ _ h)

theorem scanEnded_within (s : State) : Within [.regs, .pool] s (scanEnded s) :=
  (((withPool_within s _).mono rfl).trans ((State.wr_keeps _ _ _).within.mono rfl)).trans ((judgeScan_keeps _).within.mono rfl)

/-- The host's scan is over, and none of its commands waits. -/
def scanClosed (s : State) : State := (scanEnded s).setWc (wcKey JUG.SCAN_CMD 0) 0

/-- What a scan that ends leaves. -/
structure ScanOver (s u : State) : Prop where
  level : u.wcLevel (wcKey JUG.SCAN_CMD 0) = 0
  pool : u.pool = { s.pool with scan := none, victims := [] }
  running : u.rd JUG.SCAN_STATUS.running = 0
  registers : ∀ a, a ≠ JUG.SCAN_STATUS → u.word a = s.word a
  within : Within [.regs, .host, .pool] s u

theorem scanClosed_over (s : State) : ScanOver s (scanClosed s) where
  level := wcLevel_setWc _ _ _
  pool := rfl
  running := (setWc_rd _ _ _ _).trans (scanEnded_running s)
  registers := fun a ha => (setWc_word _ _ _ a).trans (scanEnded_word s ha)
  within := ((scanEnded_within s).mono rfl).trans ((State.setWc_keeps _ _ _).within.mono rfl)

section
variable {s : State} {r : ScanReq} (scan : s.pool.scan = some r) (host : r.reply = none)

include scan host

theorem endScan_last (level : s.wcLevel (wcKey JUG.SCAN_CMD 0) = 1) (waits : s.pool.diagWaiting = none) (fuel : Nat) :
    endScan (fuel + 1) s = scanClosed s := by
  have ended : (scanEnded s).wcLevel (wcKey JUG.SCAN_CMD 0) = 1 := ((scanEnded_within s).wcLevel rfl _).trans level
  have closed : (scanEnded s).setWc (wcKey JUG.SCAN_CMD 0) ((scanEnded s).wcLevel (wcKey JUG.SCAN_CMD 0) - 1) = scanClosed s := by
    rw [ended, scanClosed]
  have idle := (scanClosed_over s).level
  have alone : (scanClosed s).pool.diagWaiting = none := by rw [(scanClosed_over s).pool]; exact waits
  unfold scanEnded State.withPool at closed
  simp only [endScan, scan, host, closed, alone, idle, Nat.lt_irrefl, if_false]

end

/-! ### SCAN_CMD (R41, R140, R142) -/

section
variable {s : State} (served : s.gate JUG.SCAN_CMD false = .served)
include served

theorem exec_scanStart_served : exec .scanStart s = .next (scanStart s) := by
  show execScanStart s = _
  rw [execScanStart, hostCommand_served served]

theorem exec_scanStop_served : exec .scanStop s = .next (endScan 4 s) := by
  show execScanStop s = _
  rw [execScanStop, hostCommand_served served, scanStop]

end

theorem scanStart_idle {s : State} (idle : s.pool.scan = none) : scanStart s =
    runScan { ports := s.word (JUG.SCAN_PORTS + 0x8000), reply := none } (s.setWc (wcKey JUG.SCAN_CMD 0) 1) := by
  rw [scanStart, idle]
  rfl

section
variable {s : State} {r : ScanReq} (scan : s.pool.scan = some r) (host : r.reply = none)
include scan host

theorem scanStart_queued (level : s.wcLevel (wcKey JUG.SCAN_CMD 0) = 1) : scanStart s = s.setWc (wcKey JUG.SCAN_CMD 0) 2 := by
  rw [scanStart, scan]
  simp only [host, level, Option.isSome_some, Option.isNone_none]

theorem scanStart_full (level : s.wcLevel (wcKey JUG.SCAN_CMD 0) = 2) : scanStart s = ignored .queueFull JUG.SCAN_CMD s := by
  rw [scanStart, scan]
  simp only [host, level, Option.isSome_some, Option.isNone_none]

end

/-- An ignored write leaves every command's level. -/
theorem WriteIgnored.wcLevel {k a : Nat} {b : Block} {s u : State} (h : WriteIgnored k a b s u) (key : Nat) : u.wcLevel key = s.wcLevel key := by
  rw [State.wcLevel, h.host, State.wcLevel]

/-! ### A pair is done (R142) -/

/-- A pair's entries wait for the boundary, and the pair is counted. -/
def pairCounted (entries : List (Nat × Word)) (rest : List Nat) (s : State) : State :=
  (s.withPool { s.pool with mapReady := s.pool.mapReady ++ entries, victims := rest }).wr JUG.SCAN_STATUS.pairs_done
    (s.rd JUG.SCAN_STATUS.pairs_done + 1)

/-- What a pair `v` that is done leaves. -/
structure PairDone (v : Nat) (entries : List (Nat × Word)) (rest : List Nat) (s u : State) : Prop where
  pool : u.pool = { s.pool with victims := rest, mapReady := s.pool.mapReady ++ entries }
  host : u.host = s.host
  counted : u.rd JUG.SCAN_STATUS.pairs_done = (s.rd JUG.SCAN_STATUS.pairs_done + 1) % 2 ^ JUG.SCAN_STATUS.pairs_done.width
  event : (∀ x ∈ rest, x / 4 ≠ v / 4) → u.pend (6 * (v / 4) + 3) = true
  changes : Changes [JUG.SCAN_STATUS, portAddr (v / 4) P.MON_CAUSE] [.pool] s u

section
variable (entries : List (Nat × Word)) (rest : List Nat) (s : State)

theorem pairCounted_count : (pairCounted entries rest s).rd JUG.SCAN_STATUS.pairs_done =
    (s.rd JUG.SCAN_STATUS.pairs_done + 1) % 2 ^ JUG.SCAN_STATUS.pairs_done.width := rd_wr_same _ _ _ (by decide)

theorem pairCounted_changes {words : List Nat} (h : JUG.SCAN_STATUS ∈ words) : Changes words [.pool] s (pairCounted entries rest s) :=
  Changes.trans ⟨fun a _ _ => withPool_word s _ a, (withPool_within s _).mono rfl⟩ (changes_wr _ _ _ h)

/-- Event 6n + 3 stands in MON_CAUSE and EVT: the scan's own register is as it was counted. -/
theorem victimDone_done {v : Nat} (hv : v < 128) : PairDone v entries rest s (victimDone v entries rest s) := by
  have pair := pairCounted_changes entries rest s (words := [JUG.SCAN_STATUS, portAddr (v / 4) P.MON_CAUSE]) List.mem_cons_self
  have count := pairCounted_count entries rest s
  by_cases more : rest.any (fun w => w / 4 == v / 4) = true
  · have eq : victimDone v entries rest s = pairCounted entries rest s := if_pos more
    rw [eq]
    refine ⟨rfl, rfl, count, fun last => ?_, pair⟩
    obtain ⟨x, hx, same⟩ := List.any_eq_true.mp more
    exact absurd (by simpa using same) (last x hx)
  · have eq : victimDone v entries rest s = diagEvent (v / 4) 6 (pairCounted entries rest s) := if_neg more
    have he : 6 * (v / 4) + 3 < 256 := by omega
    have raised : Changes [portAddr (v / 4) P.MON_CAUSE] [] (pairCounted entries rest s) (diagEvent (v / 4) 6 (pairCounted entries rest s)) :=
      causeEvent_changes _ List.mem_cons_self he
    have away : JUG.SCAN_STATUS.pairs_done.addr ∉ [portAddr (v / 4) P.MON_CAUSE] := by
      simp only [List.mem_singleton, portAddr, P.MON_CAUSE, JUG.SCAN_STATUS.pairs_done]
      omega
    rw [eq]
    exact ⟨raised.rest .pool rfl, raised.rest .host rfl, (raised.rd _ away rfl).trans count, fun _ => causeEvent_pend _ _ _ he,
      pair.trans (raised.mono (fun _ h => List.mem_cons_of_mem _ h) rfl)⟩

end

section
variable {s : State} {v : Fin 128} (slots : s.rd JUG.SCAN_STATUS.no_slots = 0) (found : List Coupling)
include slots

/-- The pair in progress is done, and the pairs that cannot be measured are passed over. -/
theorem exec_scanPairComplete {rest : List Nat} (pairs : s.pool.victims = v.val :: rest) {t : State}
    (done : skipVictims 128 (victimDone v (measured v (s.portRate (v / 4)) found) rest s) = t) : exec (.scanPairComplete v found) s =
      .next (if t.pool.victims.isEmpty then endScan 4 t else t.wr JUG.SCAN_STATUS.victim_now (t.pool.victims.headD 0)) := by
  have given : s.flag JUG.SCAN_STATUS.no_slots = false := by rw [State.flag, slots]; rfl
  show execScanPairComplete v found s = _
  rw [execScanPairComplete, pairs]
  simp only [given, decide_true, Bool.not_false, Bool.and_self, if_true, done]

/-- The next pair, where it can be measured, is shown. -/
theorem exec_scanPairComplete_next {w : Fin 128} {more : List Nat} (pairs : s.pool.victims = v.val :: w.val :: more)
    (can : s.scannable w = true) : ∃ t, PairDone v (measured v (s.portRate (v / 4)) found) (w.val :: more) s t ∧
      exec (.scanPairComplete v found) s = .next (t.wr JUG.SCAN_STATUS.victim_now w) := by
  have done := victimDone_done (measured v (s.portRate (v / 4)) found) (w.val :: more) s v.isLt
  refine ⟨_, done, ?_⟩
  have head := congrArg Pool.victims done.pool
  rw [exec_scanPairComplete slots found pairs (skipVictims_scannable head (by rwa [done.changes.scannable w.isLt]) 128), head]
  rfl

/-- After the last pair the host's scan ends. -/
theorem exec_scanPairComplete_last {r : ScanReq} (pairs : s.pool.victims = [v.val]) (scan : s.pool.scan = some r) (host : r.reply = none)
    (level : s.wcLevel (wcKey JUG.SCAN_CMD 0) = 1) (waits : s.pool.diagWaiting = none) :
    ∃ t, PairDone v (measured v (s.portRate (v / 4)) found) [] s t ∧ exec (.scanPairComplete v found) s = .next (scanClosed t) := by
  have done := victimDone_done (measured v (s.portRate (v / 4)) found) [] s v.isLt
  refine ⟨_, done, ?_⟩
  have head := congrArg Pool.victims done.pool
  rw [exec_scanPairComplete slots found pairs (skipVictims_done head 128), head, if_pos List.isEmpty_nil,
    endScan_last ((congrArg Pool.scan done.pool).trans scan) host (by rwa [State.wcLevel, done.host])
      ((congrArg Pool.diagWaiting done.pool).trans waits)]

end

/-! ### What the steps of a scan leave -/

/-- A served start with no scan running runs one over the ports given. -/
theorem exec_scanStart_runs {s : State} {p : Word} {v : Nat} {rest : List Nat} (served : s.gate JUG.SCAN_CMD false = .served)
    (ports : p = s.word (JUG.SCAN_PORTS + 0x8000)) (idle : s.pool.scan = none) (pairs : victimsOf p = v :: rest)
    (can : s.scannable v = true) : ∃ u, exec .scanStart s = .next u ∧
      ScanRuns { ports := p, reply := none } v (s.setWc (wcKey JUG.SCAN_CMD 0) 1) u := by
  have hv : v < 128 := victimsOf_lt (pairs ▸ List.mem_cons_self)
  have can' : (s.setWc (wcKey JUG.SCAN_CMD 0) 1).scannable v = true := by
    rwa [scannable_of_words (setWc_word _ _ _ _) (setWc_word _ _ _ _)]
  refine ⟨_, ?_, scanShown_runs _ _ hv⟩
  rw [exec_scanStart_served served, scanStart_idle idle, ← ports, runScan_shows _ _ pairs can']

section
variable {parts : List Part} {s u : State} (h : Writes [JUG.SCAN_STATUS] parts s u)
include h

/-- SCAN_STATUS is no register of EVT. -/
theorem scanStatus_pend {e : Nat} (he : e < 256) : u.pend e = s.pend e := h.pend (by decide) he

theorem scanStatus_changes {n : Nat} {parts' : List Part} (hp : (Part.regs :: .out :: parts).all ((records ++ parts').contains ·) = true) :
    Changes [JUG.SCAN_STATUS, portAddr n P.MON_CAUSE] parts' s u :=
  (h.mono (words' := [JUG.SCAN_STATUS, portAddr n P.MON_CAUSE]) (by simp) (by simp +contextual)).changes hp

end

theorem scanClosed_writes (s : State) : Writes [JUG.SCAN_STATUS] [.pool, .host] s (scanClosed s) :=
  ⟨fun a ha => (scanClosed_over s).registers a (by simpa using ha), (scanClosed_over s).within.mono rfl⟩

end Sys2Proof.Machine
end

section
/-! PROOF. Adaptation jobs and the bundle scan (R135, R137, R138, R140 to R143, R171). -/

namespace Sys2Proof.Machine

/-- Settles O32: a job writes taps one by one and counts once; a scan's start, each pair and its end have one lemma each. -/
theorem poolJobsAndScans : Obligations.PoolJobsAndScans := by
  unfold Obligations.PoolJobsAndScans
  intro s
  refine ⟨fun b engines adapting => ?jobs, fun b errors symbols taps quiet still => ?idle, fun p key ports hkey served => ?commands,
    fun v found rest pairs slots => ?complete⟩
  case jobs =>
    have runs : s.jobRuns b false = true := by rw [State.jobRuns, engines, adapting]; rfl
    refine ⟨fun errors symbols kind => ?_, fun taps kind => ?_⟩
    · have adapted := (tapSteps_written b errors symbols (s.blockExponent b (s.desc b)) s).adapted b.isLt
      have executes := exec_ncLms_runs runs errors symbols kind
      obtain ⟨u, next, keeps⟩ := execNcLms_keeps b errors symbols false s
      obtain rfl := Host.Outcome.next.inj (next.symm.trans executes)
      refine ⟨_, executes, fun t v hv low high => ?_, fun c t hc => adapted.others c t (Fin.val_ne_of_ne hc) t.isLt, adapted.count, adapted.rate kind,
        adapted.registers, keeps.within.mono rfl⟩
      subst hv
      rw [adapted.tap]
      exact tapSteps_tap b errors symbols _ s t.isLt low high
    · have adapted := (vectorTaps_written b taps s).adapted b.isLt
      have executes := exec_reachVec_runs runs taps kind
      obtain ⟨u, next, keeps⟩ := execReachVec_keeps b taps false s
      obtain rfl := Host.Outcome.next.inj (next.symm.trans executes)
      exact ⟨_, executes, fun e given once => (adapted.tap e.1).trans (vectorTaps_tap taps s once (.inl given)),
        fun c t hc => adapted.others c t (Fin.val_ne_of_ne hc) t.isLt, adapted.count, adapted.registers, keeps.within⟩
  case idle =>
    refine exec_job_idle ?_ errors symbols taps
    rcases still with rfl | other
    · simp [State.jobRuns]
    · simp [State.jobRuns, other]
  case commands =>
    subst hkey
    refine ⟨fun v rest idle head can => ?_, fun r scan host => ⟨fun level => ?_, fun level => ?_, fun level waits => ?_⟩⟩
    · obtain ⟨u, executes, runs⟩ := exec_scanStart_runs served ports idle head can
      have marked : (s.setWc (wcKey JUG.SCAN_CMD 0) 1).wcLevel (wcKey JUG.SCAN_CMD 0) = 1 := wcLevel_setWc _ _ _
      exact ⟨u, executes, by rw [runs.pool, head, setWc_pool], (runs.within.wcLevel rfl _).trans marked, runs.running, runs.pairsDone, runs.victim,
        runs.noSlots.trans (congrArg _ (setWc_noDiagSlots _ _ _)), fun a ha => (runs.registers a ha).trans (setWc_word _ _ _ a),
        ((State.setWc_keeps _ _ _).within.mono rfl).trans (runs.within.mono rfl)⟩
    · exact ⟨_, (exec_scanStart_served served).trans (congrArg _ (scanStart_queued scan host level)), wcLevel_setWc _ _ _,
        (State.setWc_keeps _ _ _).within⟩
    · have recorded := ignored_recorded .queueFull (a := JUG.SCAN_CMD) (b := .jug) s rfl
      refine ⟨_, (exec_scanStart_served served).trans (congrArg _ (scanStart_full scan host level)), (recorded.wcLevel _).trans level, recorded.count,
        recorded.first, (ignored_keeps _ _ _).within⟩
    · have ended := scanClosed_over s
      exact ⟨_, (exec_scanStop_served served).trans (congrArg _ (endScan_last scan host level waits 3)), ended.level, ended.pool, ended.running,
        ended.registers, ended.within⟩
  case complete =>
    have he : 6 * (v.val / 4) + 3 < 256 := by omega
    refine ⟨fun w more next can => ?_, fun r last scan host level waits => ?_⟩
    · subst next
      obtain ⟨t, done, executes⟩ := exec_scanPairComplete_next slots found pairs can
      have shown : Writes [JUG.SCAN_STATUS] [] t (t.wr JUG.SCAN_STATUS.victim_now w) := writes_wr t _ List.mem_cons_self
      exact ⟨_, executes, (shown.rest .pool rfl).trans done.pool, (rd_wr_same _ _ _ (by decide)).trans (Nat.mod_eq_of_lt w.isLt),
        (rd_wr_apart _ _ _ _ (by decide) (.inl (by decide))).trans done.counted,
        fun other => (scanStatus_pend shown he).trans (done.event other),
        done.changes.trans (scanStatus_changes shown rfl)⟩
    · subst last
      obtain ⟨t, done, executes⟩ := exec_scanPairComplete_last slots found pairs scan host level waits
      have ended := scanClosed_over t
      have closed := scanClosed_writes t
      exact ⟨_, executes, ended.level, ended.running, by rw [ended.pool, done.pool],
        (scanStatus_pend closed he).trans (done.event (by simp)),
        (done.changes.mono (fun _ h => h) rfl).trans (scanStatus_changes closed rfl)⟩

end Sys2Proof.Machine
end

section
/-! SUPPORT. The Reach and low-power records of the ports, counters that advance in steps, lists of writes (R44, R152, R157, R161). -/

namespace Sys2Proof.Machine

/-! ### The records of a port -/

theorem Within.rch {parts : List Part} {s t : State} (h : Within parts s t) (hp : parts.contains .reach = false) (m : Nat) :
    t.rch m = s.rch m := by
  have kept : t.reach = s.reach := h .reach hp
  rw [State.rch, kept, State.rch]

theorem Within.idle {parts : List Part} {s t : State} (h : Within parts s t) (hp : parts.contains .lpi = false) (m : Nat) :
    t.idle m = s.idle m := by
  have kept : t.lpi = s.lpi := h .lpi hp
  rw [State.idle, kept, State.idle]

section
variable (s : State) (n : Nat)

@[simp] theorem rch_modRch (f : Reach → Reach) : (s.modRch n f).rch n = f (s.rch n) := sget_sput_same _ _ _ _

@[simp] theorem rch_setRch (r : Reach) : (s.setRch n r).rch n = r := sget_sput_same _ _ _ _

@[simp] theorem idle_setIdle (l : Lpi) : (s.setIdle n l).idle n = l := sget_sput_same _ _ _ _

theorem modRch_rd (f : Reach → Reach) (g : Field) : (s.modRch n f).rd g = s.rd g := rfl

theorem emit_rd (o : Output) (g : Field) : (s.emit o).rd g = s.rd g := rfl

end

/-! ### Counters of 64 bits in steps (R44) -/

theorem Advances.refl (a : Nat) (s : State) : Advances a 0 s s := (Nat.mod_eq_of_lt (pair_lt s _ _)).symm

theorem Advances.trans {a j k : Nat} {s t u : State} (h : Advances a j s t) (g : Advances a k t u) : Advances a (j + k) s u := by
  unfold Advances at *
  rw [g, h, Nat.mod_add_mod, Nat.add_assoc]

/-! ### One value to a key -/

/-- What a list of writes leaves in a place that `x` sets to `v` and that no other of them touches. -/
theorem foldl_read {σ α β : Type} {f : σ → α → σ} (read : σ → β) {x : α} {v : β} (l : List α) (s : σ) (hit : ∀ s, read (f s x) = v)
    (miss : ∀ s, ∀ d ∈ l, d ≠ x → read (f s d) = read s) (given : x ∈ l ∨ read s = v) : read (l.foldl f s) = v := by
  induction l generalizing s with
  | nil => exact given.resolve_left List.not_mem_nil
  | cons d l ih =>
    refine ih _ (fun s e he => miss s e (List.mem_cons_of_mem _ he)) ?_
    by_cases same : d = x
    · exact .inr (same ▸ hit s)
    · refine given.imp (fun there => ?_) (fun kept => (miss s d List.mem_cons_self same).trans kept)
      exact (List.mem_cons.mp there).resolve_left (Ne.symm same)

/-- A tone's bits after a change of one tone. -/
theorem setBits_bits (tones : List (Nat × Tone)) (key bits k : Nat) : (sget (fun _ => Tone.none) (setBits tones key bits) k).bits =
    if k = key then bits else (sget (fun _ => Tone.none) tones k).bits := by
  rw [setBits, supd, sget_sput]
  split <;> rfl

/-- A tone named once has the bits of its entry. -/
theorem applyEntries_bits {entries : List (Nat × Nat)} {e : Nat × Nat} (he : e ∈ entries) (once : ∀ d ∈ entries, d.1 = e.1 → d = e)
    (tones : List (Nat × Tone)) : (sget (fun _ => Tone.none) (applyEntries entries tones) e.1).bits = e.2 := by
  refine foldl_read (fun l => (sget (fun _ => Tone.none) l e.1).bits) entries tones (fun l => ?_) (fun l d hd other => ?_) (.inl he)
  · rw [setBits_bits, if_pos rfl]
  · rw [setBits_bits, if_neg fun same => other (once d hd same.symm)]

end Sys2Proof.Machine
end

section
/-! SUPPORT. FEQ jobs and symbols of a Reach port (R152 to R154, R221). -/

namespace Sys2Proof.Machine

/-! ### FEQ coefficients (R152) -/

/-- The key of the real part of a tone's coefficient; the imaginary part follows it. -/
def feqKey (p : Fin 4) (first : Fin 8) (t : Fin 512) : Nat := 2 * toneKey p (512 * first + t)

/-- The coefficient of one tone written. -/
def feqWritten (p : Fin 4) (first : Fin 8) (feq : List (Nat × BitVec 18)) (c : Fin 512 × BitVec 18 × BitVec 18) : List (Nat × BitVec 18) :=
  sput (fun _ => 0) (sput (fun _ => 0) feq (feqKey p first c.1) c.2.1) (feqKey p first c.1 + 1) c.2.2

/-- The two parts of a tone's coefficient. -/
def feqRead (p : Fin 4) (first : Fin 8) (t : Fin 512) (feq : List (Nat × BitVec 18)) : BitVec 18 × BitVec 18 :=
  (sget (fun _ => 0) feq (feqKey p first t), sget (fun _ => 0) feq (feqKey p first t + 1))

theorem feqRead_written (p : Fin 4) (first : Fin 8) (feq : List (Nat × BitVec 18)) (c : Fin 512 × BitVec 18 × BitVec 18) (t : Fin 512) :
    feqRead p first t (feqWritten p first feq c) = if c.1 = t then c.2 else feqRead p first t feq := by
  by_cases same : c.1 = t
  · subst same
    rw [if_pos rfl, feqRead, feqWritten, sget_sput_same, sget_sput_ne _ _ _ (by omega), sget_sput_same]
  · have apart : feqKey p first t ≠ feqKey p first c.1 := by
      have := Fin.val_ne_of_ne same
      simp only [feqKey, toneKey]
      omega
    have odd : feqKey p first t ≠ feqKey p first c.1 + 1 := by simp only [feqKey]; omega
    have even : feqKey p first t + 1 ≠ feqKey p first c.1 := by simp only [feqKey]; omega
    rw [if_neg same, feqRead, feqWritten, sget_sput_ne _ _ _ odd, sget_sput_ne _ _ _ apart, sget_sput_ne _ _ _ (by omega),
      sget_sput_ne _ _ _ even, feqRead]

/-- The coefficient of a tone named once is the one given. -/
theorem feqWritten_given {coefs : List (Fin 512 × BitVec 18 × BitVec 18)} {c : Fin 512 × BitVec 18 × BitVec 18} (hc : c ∈ coefs)
    (once : ∀ d ∈ coefs, d.1 = c.1 → d = c) (p : Fin 4) (first : Fin 8) (feq : List (Nat × BitVec 18)) :
    feqRead p first c.1 (coefs.foldl (feqWritten p first) feq) = c.2 := by
  refine foldl_read (feqRead p first c.1) coefs feq (fun l => ?_) (fun l d hd other => ?_) (.inl hc)
  · rw [feqRead_written, if_pos rfl]
  · rw [feqRead_written, if_neg fun same => other (once d hd same)]

section
variable {s : State} {n : Fin 32} (data : s.fsm n = 6) (mode : s.modeNow n = 2)
include data mode

theorem reachData_of : s.reachData n = true := by
  rw [State.reachData, data, mode]
  rfl

theorem exec_reachFeq (p : Fin 4) (first : Fin 8) (coefs : List (Fin 512 × BitVec 18 × BitVec 18)) (on : s.enginesRun = true) :
    exec (.reachFeq n p first coefs) s =
      .next (s.modRch n (fun r => { r with feq := coefs.foldl (feqWritten p first) (s.rch n).feq })) := by
  show execReachFeq n p first coefs s = _
  rw [execReachFeq, if_pos (by simp [State.inData, data, mode, on, fsmData, modeReach])]
  rfl

end

/-! ### One symbol (R154, R221) -/

/-- A codeword that was not corrected. -/
def wordFailed : WordResult → Bool
  | .decoded _ => false
  | .failed _ => true

/-- The sym_cnt of an overhead word that passes its CRC is taken. -/
def overheadTaken (n : Nat) (w : Word) (s : State) : State :=
  if overheadGood w then s.modRch n (fun r => { r with symCnt := bitsOf w 24 8 }) else s

/-- A symbol before its trip field is judged: the overhead word, the codewords counted and delivered. -/
def symbolCounted (n : Nat) (w : Word) (words : List WordResult) (frames : Nat) (s : State) : State :=
  deliver n frames (words.any wordFailed) (words.foldl (countWord n) (overheadTaken n w s))

theorem overheadTaken_keeps (n : Nat) (w : Word) (s : State) : Keeps [.reach] s (overheadTaken n w s) := by
  unfold overheadTaken
  split
  · exact State.modRch_keeps s n _
  · exact .refl _ s

theorem overheadTaken_rch (n : Nat) (w : Word) (s : State) :
    (overheadTaken n w s).rch n = if overheadGood w then { s.rch n with symCnt := bitsOf w 24 8 } else s.rch n := by
  unfold overheadTaken
  split
  · exact rch_modRch s n _
  · rfl

theorem overheadTaken_word (n : Nat) (w : Word) (s : State) (a : Nat) : (overheadTaken n w s).word a = s.word a := by
  unfold overheadTaken
  split <;> rfl

theorem overheadTaken_fsm (n : Nat) (w : Word) (s : State) (m : Nat) : (overheadTaken n w s).fsm m = s.fsm m := by
  rw [State.fsm, State.rd, overheadTaken_word, State.fsm, State.rd]

/-- A change whose symbol has passed in low-power idle (R161). -/
def changeDue : Option Armed → Bool
  | some c => c.due
  | none => false

/-- A change of one direction that is due takes effect. -/
def dueApplied (n : Nat) (transmit : Bool) (s : State) : State :=
  if changeDue (if transmit then (s.rch n).armedTx else (s.rch n).armed) then armedSymbol n transmit s else s

theorem applyDue_eq (n : Nat) (s : State) : applyDue n s = dueApplied n true (dueApplied n false s) := rfl

theorem changeDue_none {o : Option Armed} (h : ∀ c, o = some c → c.due = false) : changeDue o = false := by
  cases o with
  | none => rfl
  | some c => exact h c rfl

/-- No change waits for the first symbol after a wake. -/
theorem applyDue_none {n : Nat} {s : State} (undue : ∀ c, (s.rch n).armed = some c ∨ (s.rch n).armedTx = some c → c.due = false) :
    applyDue n s = s := by
  have receive : dueApplied n false s = s := if_neg (by rw [if_neg Bool.false_ne_true, changeDue_none fun c hc => undue c (.inl hc)]; decide)
  have transmit : dueApplied n true s = s := if_neg (by rw [if_pos rfl, changeDue_none fun c hc => undue c (.inr hc)]; decide)
  rw [applyDue_eq, receive, transmit]

theorem exec_reachSymbol {s : State} {n : Fin 32} (data : s.fsm n = 6) (mode : s.modeNow n = 2) (w : Word) (trip : BitVec 64)
    (words : List WordResult) (frames : Nat) (undue : ∀ c, (s.rch n).armed = some c ∨ (s.rch n).armedTx = some c → c.due = false) :
    exec (.reachSymbol n (some w) trip words frames) s = .next (judgeSlot n trip (symbolCounted n w words frames s)) := by
  have inForce : s.inData n = true := by rw [State.inData, data]; rfl
  have reach : (s.modeNow n == modeReach) = true := by rw [mode]; rfl
  have taken : (overheadTaken n w s).fsm n = fsmData := (overheadTaken_fsm n w s n).trans data
  have settled : (if (true && decide (s.lpiState n ≤ 1)) = true then applyDue n s else s) = s := by
    rw [applyDue_none undue, ite_self]
  show execReachSymbol n (some w) trip words frames s = _
  rw [execReachSymbol, inForce, reach, Bool.and_self]
  dsimp only
  rw [settled, Bool.true_or, if_pos rfl]
  refine congrArg (fun t => Host.Outcome.next (judgeSlot n trip t)) ?_
  exact if_pos taken

/-- A codeword counts as a frame does. -/
theorem countWord_frame (n : Nat) (s : State) (w : WordResult) :
    ∃ bin c, bin < 8 ∧ countWord n s w = countFrame n bin c s ∧ frameBad c = wordFailed w := by
  cases w with
  | decoded b =>
    by_cases clean : b.val = 0
    · exact ⟨_, .clean, Nat.lt_succ_of_le (Nat.min_le_left 7 _), by rw [countWord, decide_eq_false (not_not_intro clean), countFrame], rfl⟩
    · exact ⟨_, .corrected, Nat.lt_succ_of_le (Nat.min_le_left 7 _), by rw [countWord, decide_eq_true clean, countFrame], rfl⟩
  | failed k => exact ⟨0, .failed k, by decide, rfl, rfl⟩

theorem countFrame_uncorr (n bin : Nat) (c : FrameResult) (s : State) :
    (countFrame n bin c s).portPair n P.FEC_UNCORR = (s.portPair n P.FEC_UNCORR + bitNat (frameBad c)) % 2 ^ 64 := by
  have hist : P.ITER_HIST + 8 * bin + 8 ≤ P.FEC_UNCORR ∨ P.FEC_UNCORR + 8 ≤ P.ITER_HIST + 8 * bin := by
    simp only [P.ITER_HIST, P.FEC_UNCORR]; omega
  have same : (s.portPair n P.FEC_UNCORR + 0) % 2 ^ 64 = s.portPair n P.FEC_UNCORR := Nat.mod_eq_of_lt (pair_lt s _ _)
  cases c with
  | clean =>
    rw [countFrame, countDecoded_clean, portPair_addPort_ne _ _ _ _ hist, portPair_addPort_ne _ _ _ _ (by decide)]
    exact same.symm
  | corrected =>
    rw [countFrame, countDecoded_corrected, portPair_addPort_ne _ _ _ _ hist, portPair_modMon, portPair_addPort_ne _ _ _ _ (by decide),
      portPair_addPort_ne _ _ _ _ (by decide)]
    exact same.symm
  | failed k => exact (countFailed_counts n s k).1

section
variable (n : Nat) (words : List WordResult) (s : State)

theorem countWords_keeps : Keeps [.regs, .mons] s (words.foldl (countWord n) s) := .foldl (countWord_keeps n) (.refl _ s)

theorem countWords_frames : Advances (portAddr n P.FEC_FRAMES) words.length s (words.foldl (countWord n) s) := by
  induction words generalizing s with
  | nil => exact .refl _ s
  | cons w words ih =>
    obtain ⟨bin, c, -, counted, -⟩ := countWord_frame n s w
    have one : Advances (portAddr n P.FEC_FRAMES) 1 s (countWord n s w) := counted ▸ countFrame_frames n bin s c
    rw [List.length_cons, Nat.add_comm]
    exact one.trans (ih _)

theorem countWords_uncorr : Advances (portAddr n P.FEC_UNCORR) (words.filter wordFailed).length s (words.foldl (countWord n) s) := by
  induction words generalizing s with
  | nil => exact .refl _ s
  | cons w words ih =>
    obtain ⟨bin, c, -, counted, bad⟩ := countWord_frame n s w
    have one : Advances (portAddr n P.FEC_UNCORR) (bitNat (wordFailed w)) s (countWord n s w) := counted ▸ bad ▸ countFrame_uncorr n bin c s
    have length : ((w :: words).filter wordFailed).length = bitNat (wordFailed w) + (words.filter wordFailed).length := by
      rw [List.filter_cons]
      cases wordFailed w
      · exact (Nat.zero_add _).symm
      · exact Nat.add_comm _ _
    rw [length]
    exact one.trans (ih _)

theorem countWords_word {a : Nat} (ha : linkArea n a = false) : (words.foldl (countWord n) s).word a = s.word a := by
  induction words generalizing s with
  | nil => rfl
  | cons w words ih =>
    obtain ⟨bin, c, small, counted, -⟩ := countWord_frame n s w
    exact (ih _).trans ((congrArg (·.word a) counted).trans (countFrame_word n bin s c small ha))

end

/-- What a symbol leaves before its trip field is judged. -/
structure SymbolCounted (n : Fin 32) (w : Word) (words : List WordResult) (s m : State) : Prop where
  reach : m.rch n = if overheadGood w then { s.rch n with symCnt := bitsOf w 24 8 } else s.rch n
  frames : Advances (portAddr n P.FEC_FRAMES) words.length s m
  uncorr : Advances (portAddr n P.FEC_UNCORR) (words.filter wordFailed).length s m
  registers : ∀ a, linkArea n a = false → (∀ l : Fin 32, a ≠ HSL.LANE_CNT_DISCARD + 0x20 * l ∧ a ≠ HSL.LANE_CNT_DISCARD + 0x20 * l + 4) →
    m.word a = s.word a
  within : Within [.regs, .reach, .mons, .out] s m

theorem symbolCounted_counts (n : Fin 32) (w : Word) (words : List WordResult) (frames : Nat) (s : State) :
    SymbolCounted n w words s (symbolCounted n w words frames s) := by
  have taken := overheadTaken_keeps n w s
  have counted := countWords_keeps n words (overheadTaken n w s)
  have delivered := deliver_keeps n frames (words.any wordFailed) (words.foldl (countWord n) (overheadTaken n w s))
  have pair {a : Nat} (ha : a < 0x110000) {k : Nat}
      (h : Advances (portAddr n a) k (overheadTaken n w s) (words.foldl (countWord n) (overheadTaken n w s))) :
      Advances (portAddr n a) k s (symbolCounted n w words frames s) := by
    have start : (overheadTaken n w s).pair (portAddr n a) (portAddr n a + 4) = s.pair (portAddr n a) (portAddr n a + 4) :=
      pair_congr (overheadTaken_word n w s _) (overheadTaken_word n w s _)
    exact ((deliver_portPair n.isLt ha).trans h).trans (by rw [start])
  refine ⟨?_, pair (by decide) (countWords_frames n words _), pair (by decide) (countWords_uncorr n words _), fun a ha lanes => ?_, ?_⟩
  · exact ((delivered.within.rch rfl n).trans (counted.within.rch rfl n)).trans (overheadTaken_rch n w s)
  · obtain ⟨low, high⟩ := lanes ⟨_, laneOf_lt n.isLt (words.foldl (countWord n) (overheadTaken n w s))⟩
    exact (deliver_word low high).trans ((countWords_word n words _ ha).trans (overheadTaken_word n w s a))
  · exact ((taken.within.mono rfl).trans (counted.within.mono rfl)).trans (delivered.within.mono rfl)

end Sys2Proof.Machine
end

section
/-! SUPPORT. Loading changes: their messages, the symbol they are armed for, and the loading they leave (R157, R161, R162). -/

namespace Sys2Proof.Machine

section
variable {s : State} {n : Fin 32}

/-! ### Messages (R157, R161, R162) -/

/-- A change armed for the transmit direction, and answered by an ARM that names its symbol. -/
def armAnswered (n : Nat) (sym : BitVec 8) (entries : List (Nat × Nat)) (stepDown : Bool) (s : State) : State :=
  (s.modRch n (fun r => { r with armedTx := some { symCnt := sym.toNat, entries := entries, stepDown := stepDown, due := false } })).emit
    (.reachMessage n 1 sym.toNat [])

theorem armAnswered_within (n : Nat) (sym : BitVec 8) (entries : List (Nat × Nat)) (stepDown : Bool) (s : State) :
    Within [.reach, .out] s (armAnswered n sym entries stepDown s) :=
  ((State.modRch_keeps s n _).within.mono rfl).trans ((State.emit_keeps _ _).within.mono rfl)

theorem armAnswered_rch (n : Nat) (sym : BitVec 8) (entries : List (Nat × Nat)) (stepDown : Bool) (s : State) :
    (armAnswered n sym entries stepDown s).rch n =
      { s.rch n with armedTx := some { symCnt := sym.toNat, entries := entries, stepDown := stepDown, due := false } } := by
  rw [armAnswered, (State.emit_keeps _ _).within.rch rfl, rch_modRch]

/-- The changes a request names, by the keys of their tones. -/
def swapEntries (entries : List SwapEntry) : List (Nat × Nat) := entries.map (fun e => (4096 * e.pair + e.tone, e.bits.val))

/-- A request names at most 16 tones, all of them data tones. -/
def swapLegal (entries : List SwapEntry) : Bool := entries.all (fun e => decide (toneClass 4096 e.tone = 0)) && decide (entries.length ≤ 16)

theorem swapLegal_iff (entries : List SwapEntry) :
    swapLegal entries = true ↔ entries.length ≤ 16 ∧ ∀ e ∈ entries, toneClass 4096 e.tone = 0 := by
  simp only [swapLegal, Bool.and_eq_true, List.all_eq_true, decide_eq_true_eq]
  exact And.comm

theorem swapIllegal {entries : List SwapEntry} (h : 16 < entries.length ∨ ∃ e ∈ entries, toneClass 4096 e.tone ≠ 0) :
    swapLegal entries = false := by
  refine Bool.eq_false_iff.mpr fun legal => ?_
  obtain ⟨few, tones⟩ := (swapLegal_iff entries).mp legal
  rcases h with many | ⟨e, he, other⟩
  · exact absurd few (Nat.not_le_of_lt many)
  · exact other (tones e he)

section
variable (data : s.fsm n = 6) (mode : s.modeNow n = 2)
include data mode

theorem exec_bitSwapRequest (entries : List SwapEntry) (sym : BitVec 8) : exec (.bitSwapRequest n entries sym) s =
    .next (if swapLegal entries then armAnswered n sym (swapEntries entries) false s else s) := by
  show execBitSwapRequest n entries sym s = _
  rw [execBitSwapRequest, reachData_of data mode]
  rfl

theorem exec_rateStepDown (sym : BitVec 8) : exec (.rateStepDown n sym) s = .next (armAnswered n sym [] true s) := by
  show execRateStepDown n sym s = _
  rw [execRateStepDown, if_pos (reachData_of data mode)]
  rfl

theorem exec_arm (sym : BitVec 8) {c : Armed} (asked : (s.rch n).asked = some c) : exec (.arm n sym) s =
    .next (s.setRch n { s.rch n with asked := none, armed := some { c with symCnt := sym.toNat } }) := by
  show execArm n sym s = _
  rw [execArm, if_pos (reachData_of data mode), State.modRch, asked]

theorem exec_swapArmedSymbol (transmit : Bool) : exec (.swapArmedSymbol n transmit) s = .next (armedSymbol n transmit s) := by
  show execSwapArmedSymbol n transmit s = _
  rw [execSwapArmedSymbol, if_pos (reachData_of data mode)]

/-- The entry of a loading table, where it names a data tone. -/
def tableTaken (tones : List (Nat × Tone)) (e : ToneLoad) : List (Nat × Tone) :=
  if toneClass 4096 e.tone = 0 then sput (fun _ => Tone.none) tones (4096 * e.pair + e.tone) { bits := e.bits.val, snr := some e.snr } else tones

theorem exec_loadingTable (table : List ToneLoad) : exec (.loadingTable n table) s =
    .next (s.modRch n (fun r => { r with txTones := table.foldl tableTaken [] })) := by
  show execLoadingTable n table s = _
  rw [execLoadingTable, if_pos (by simp [State.inData, data, mode, fsmData, modeReach])]
  rfl

end

/-- A data tone named once has the bits and the SNR of its entry. -/
theorem tableTaken_given {table : List ToneLoad} {e : ToneLoad} (he : e ∈ table) (tone : toneClass 4096 e.tone = 0)
    (once : ∀ d ∈ table, d.pair = e.pair → d.tone = e.tone → d = e) :
    sget (fun _ => Tone.none) (table.foldl tableTaken []) (4096 * e.pair + e.tone) = { bits := e.bits.val, snr := some e.snr } := by
  refine foldl_read (fun l => sget (fun _ => Tone.none) l (4096 * e.pair + e.tone)) table [] (fun l => ?_) (fun l d hd other => ?_) (.inl he)
  · rw [tableTaken, if_pos tone, sget_sput_same]
  · rw [tableTaken]
    split
    · refine sget_sput_ne _ _ _ fun key => other (once d hd (Fin.ext ?_) (Fin.ext ?_)) <;> omega
    · rfl

/-! ### The armed symbol (R161) -/

/-- The change of one direction is taken off. -/
def changeTaken (n : Nat) (s : State) : State := s.setRch n { s.rch n with armed := none }

theorem armedSymbol_applies {c : Armed} (armed : (s.rch n).armed = some c) (awake : s.lpiState n ≤ 1) :
    armedSymbol n false s = applyChange n false c (changeTaken n s) := by
  unfold armedSymbol
  dsimp only
  rw [if_neg Bool.false_ne_true, armed]
  dsimp only
  rw [if_pos (decide_eq_true awake)]
  rfl

theorem armedSymbol_waits {c : Armed} (armed : (s.rch n).armedTx = some c) (quiet : 1 < s.lpiState n) :
    armedSymbol n true s = s.setRch n { s.rch n with armedTx := some { c with due := true } } := by
  unfold armedSymbol
  dsimp only
  rw [if_pos rfl, armed]
  dsimp only
  rw [if_neg (by rw [decide_eq_true_eq]; exact Nat.not_le_of_lt quiet)]
  rfl

end

/-! ### A loading in force (R157 to R159) -/

/-- The registers a loading shows itself in. -/
def loadWords (n : Nat) : List Nat := [portAddr n P.REACH_STATUS, portAddr n P.REACH_LOAD, portAddr n P.LINE_STATUS]

/-- The fields of those. -/
def loadFields : List Field := [P.REACH_STATUS.band_top, P.REACH_LOAD.loaded, P.LINE_STATUS.reach_rate]

theorem applyLoading_eq (n : Nat) (tones : List (Nat × Tone)) (rate : Nat) (s : State) : applyLoading n tones rate s =
    (((s.modRch n (fun r => { r with tones := tones })).wr (P.REACH_STATUS.band_top.port n) (bandTop tones)).wr (P.REACH_LOAD.loaded.port n)
      (loadedTotal tones)).wr (P.LINE_STATUS.reach_rate.port n) rate := rfl

section
variable {n : Fin 32} (tones : List (Nat × Tone)) (rate : Nat) (s : State)

theorem modRch_touches {fs : List Field} (f : Reach → Reach) : Touches n fs s (s.modRch n f) :=
  PortChanges.touches (as := []) (modRch_onPort n s f) rfl

theorem applyLoading_touches : Touches n loadFields s (applyLoading n tones rate s) := by
  rw [applyLoading_eq]
  exact (((modRch_touches s _).trans (wr_touches _ (f := P.REACH_STATUS.band_top) _ rfl rfl)).trans
    (wr_touches _ (f := P.REACH_LOAD.loaded) _ rfl rfl)).trans (wr_touches _ (f := P.LINE_STATUS.reach_rate) _ rfl rfl)

theorem applyLoading_writes : Writes (loadWords n) [.reach] s (applyLoading n tones rate s) := by
  rw [applyLoading_eq]
  exact ((((State.modRch_keeps s n _).writes rfl rfl).trans (writes_wr _ _ (by simp [loadWords, portAddr, P.REACH_STATUS, Field.port,
    P.REACH_STATUS.band_top]))).trans (writes_wr _ _ (by simp [loadWords, portAddr, P.REACH_LOAD, Field.port, P.REACH_LOAD.loaded]))).trans
    (writes_wr _ _ (by simp [loadWords, portAddr, P.LINE_STATUS, Field.port, P.LINE_STATUS.reach_rate]))

theorem applyLoading_rch : (applyLoading n tones rate s).rch n = { s.rch n with tones := tones } :=
  ((State.wrs_keeps _ _).within.rch rfl n).trans (rch_modRch s n _)

theorem applyLoading_rate : (applyLoading n tones rate s).rd (P.LINE_STATUS.reach_rate.port n) = rate % 64 := by
  rw [applyLoading_eq, rd_wr_port_same _ _ _ rfl]
  rfl

end

/-! ### A swap at its symbol (R161) -/

/-- The bits of a swap in the receive loading. -/
def entriesTaken (n : Nat) (c : Armed) (s : State) : State := s.modRch n (fun r => { r with tones := applyEntries c.entries r.tones })

/-- A swap of the receive direction: the bits of its entries, shown and counted. -/
def swapApplied (n : Nat) (c : Armed) (s : State) : State :=
  (applyLoading n ((entriesTaken n c s).rch n).tones ((entriesTaken n c s).rd (P.LINE_STATUS.reach_rate.port n))
    (entriesTaken n c s)).addSat (P.REACH_STATUS.swap_count.port n) 1

theorem applyChange_swap {c : Armed} (swap : c.stepDown = false) (n : Nat) (s : State) : applyChange n false c s = swapApplied n c s := by
  unfold applyChange
  rw [if_neg (by rw [swap]; decide)]
  simp only [Bool.false_eq_true, if_false]
  rfl

section
variable {n : Fin 32} (c : Armed) (s : State)

theorem swapApplied_rch : (swapApplied n c s).rch n = { s.rch n with tones := applyEntries c.entries (s.rch n).tones } := by
  rw [swapApplied, (State.addSat_keeps _ _ _).within.rch rfl, applyLoading_rch, entriesTaken, rch_modRch]

theorem swapApplied_counts : (swapApplied n c s).rd (P.REACH_STATUS.swap_count.port n) =
    min 255 (s.rd (P.REACH_STATUS.swap_count.port n) + 1) := by
  rw [swapApplied, rd_addSat_same _ _ _ (show 8 + 8 ≤ 32 by decide), (applyLoading_touches _ _ _).read P.REACH_STATUS.swap_count rfl rfl,
    entriesTaken, modRch_rd]
  rfl

theorem swapApplied_writes : Writes (loadWords n) [.reach] s (swapApplied n c s) :=
  (((State.modRch_keeps s n _).writes rfl rfl).trans (applyLoading_writes _ _ _)).trans (writes_wr _ _ List.mem_cons_self)

theorem swapApplied_within : Within [.regs, .reach] s (swapApplied n c s) :=
  (((State.modRch_keeps s n _).within.mono rfl).trans (applyLoading_keeps _ _ _ _).within).trans
    ((State.addSat_keeps _ _ _).within.mono rfl)

end

/-! ### A rate step down at its symbol (R162) -/

/-- The bits per symbol a step down from a rate leaves over. -/
def stepSurplus (rate : Nat) : Nat := bitsNeeded rate - bitsNeeded (rate - 1)

/-- The transmit loading trimmed by a number of bits. -/
def transmitTrimmed (n surplus : Nat) (s : State) : State := s.modRch n (fun r => { r with txTones := trimLoading surplus r.txTones })

/-- Both directions trimmed, and N one lower. -/
def stepLoaded (n : Nat) (s : State) : State :=
  let rate := s.rd (P.LINE_STATUS.reach_rate.port n)
  let t := transmitTrimmed n (stepSurplus rate) s
  applyLoading n (trimLoading (stepSurplus rate) (t.rch n).tones) (rate - 1) t

/-- A step down: its revolutions of low margin begin anew. -/
def steppedDown (n : Nat) (s : State) : State := (stepLoaded n s).modLink n (fun l => { l with lowRun := 0 })

theorem applyChange_stepDown {c : Armed} {n : Nat} {s : State} (step : c.stepDown = true)
    (high : 1 < s.rd (P.LINE_STATUS.reach_rate.port n)) : applyChange n false c s = linkEvent n (steppedDown n s) := by
  unfold applyChange
  rw [if_pos step]
  dsimp only
  rw [if_neg (Nat.not_le_of_lt high), if_neg Bool.false_ne_true]
  rfl

section
variable {n : Fin 32} (s : State)

theorem steppedDown_armed : ((steppedDown n s).rch n).armed = (s.rch n).armed := by
  rw [steppedDown, (State.modLink_keeps _ _ _).within.rch rfl, stepLoaded, applyLoading_rch, transmitTrimmed, rch_modRch]

theorem stepLoaded_writes : Writes (loadWords n) [.reach] s (stepLoaded n s) :=
  ((State.modRch_keeps s n _).writes rfl rfl).trans (applyLoading_writes _ _ _)

theorem steppedDown_changes : Changes (loadWords n) [.reach, .links] s (steppedDown n s) :=
  ((stepLoaded_writes s).changes rfl).trans
    (((State.modLink_keeps (stepLoaded n s) n _).writes (words := loadWords n) (parts := [.links]) rfl rfl).changes rfl)

theorem steppedDown_rate : (steppedDown n s).rd (P.LINE_STATUS.reach_rate.port n) = s.rd (P.LINE_STATUS.reach_rate.port n) - 1 := by
  have small : s.rd (P.LINE_STATUS.reach_rate.port n) < 2 ^ 6 := bitsOf_lt _ _ _
  rw [steppedDown, modLink_rd, stepLoaded, applyLoading_rate, Nat.mod_eq_of_lt (by omega)]

end

end Sys2Proof.Machine
end

section
/-! SUPPORT. Loading retrains, and the end of a join on its time limit (R157, R158, R162, R163, R172). -/

namespace Sys2Proof.Machine

/-! ### The pool leaves the line rates of Reach (R136, R148) -/

/-- From `s` to `t` no port's N changes. -/
def RatesKept (s t : State) : Prop := ∀ m : Fin 32, t.rd (P.LINE_STATUS.reach_rate.port m) = s.rd (P.LINE_STATUS.reach_rate.port m)

theorem RatesKept.refl (s : State) : RatesKept s s := fun _ => rfl

theorem RatesKept.trans {a b c : State} (h : RatesKept a b) (k : RatesKept b c) : RatesKept a c := fun m => (k m).trans (h m)

theorem RatesKept.foldl {α : Type} {f : State → α → State} (l : List α) (s : State) (h : ∀ s, ∀ x ∈ l, RatesKept s (f s x)) :
    RatesKept s (l.foldl f s) := by
  induction l generalizing s with
  | nil => exact .refl s
  | cons x t ih => exact (h s x List.mem_cons_self).trans (ih _ fun s y hy => h s y (List.mem_cons_of_mem _ hy))

theorem RatesKept.of_regs {s t : State} (h : t.regs = s.regs) : RatesKept s t := fun _ => by
  rw [State.rd, State.word, h, State.rd, State.word]

/-- A field that follows the pool's blocks is no port's N. -/
theorem PoolField.rates {f : Field} (h : PoolField f) (s : State) (v : Nat) : RatesKept s (s.wr f v) := fun m => by
  by_cases same : (P.LINE_STATUS.reach_rate.port m).addr = f.addr
  · obtain ⟨lsb, width⟩ := h.line m same.symm
    exact rd_wr_apart s f _ v (by omega) (.inr (show f.lsb + f.width ≤ 20 by omega))
  · exact rd_wr_addr s f _ v same

theorem refreshBlock_rates (s : State) {e : Nat × Word} (he : e.1 < 1024) : RatesKept s (refreshBlock s e) := by
  have acquired (t : State) : RatesKept t (startAcquisition e.1 t) := .of_regs ((startAcquisition_keeps _ t).within .regs rfl)
  have cleared (t : State) : RatesKept t (clearTaps e.1 t) := .of_regs ((clearTaps_keeps _ t).within .regs rfl)
  have relearned (c : Bool) : RatesKept s
      (if c then startAcquisition e.1 ((clearTaps e.1 s).wr (JUG.BLOCK_STATE.rate.nth e.1) 7) else s) := by
    split
    · exact ((cleared s).trans ((poolField_block he rfl).rates _ _)).trans (acquired _)
    · exact .refl s
  unfold refreshBlock
  refine RatesKept.trans ?_ ((poolField_block he rfl).rates _ _)
  split
  · exact (relearned _).trans (acquired _)
  · exact relearned _

theorem refreshPool_rates {s : State} (h : inPool s.pool.descs) : RatesKept s (refreshPool s) := by
  unfold refreshPool
  split
  · exact .refl s
  · refine (((RatesKept.foldl _ s fun t e he => refreshBlock_rates t (h e he)).trans (RatesKept.foldl _ _ fun t v hv => ?pairs)).trans
      (((poolField_status rfl).rates _ _).trans ((poolField_status rfl).rates _ _))).trans (RatesKept.foldl _ _ fun t n hn => ?ports)
    case pairs =>
      have pair (f : Field) (ha : f.addr = JUG.NC_PAIR + 4 * v) (t : State) (k : Nat) : RatesKept t (t.wr f k) :=
        (poolField_pair (victimPairs_lt hv) ha).rates t k
      have counted := (pair (JUG.NC_PAIR.alloc.nth v) rfl t (t.validBlocks.filter fun e => descVictim e.2 == v).length).trans
        (pair (JUG.NC_PAIR.live.nth v) rfl _ (t.liveBlocks (· == v)))
      dsimp only
      split
      · exact counted.trans (pair _ rfl _ _)
      · exact counted
    case ports =>
      have port : n < 32 := by
        obtain ⟨v, hv, rfl⟩ := List.mem_map.mp (List.mem_eraseDups.mp hn)
        have := victimPairs_lt hv
        omega
      dsimp only
      split
      · exact ((poolField_active port).rates _ _).trans ((poolField_vector port).rates _ _)
      · exact (poolField_active port).rates _ _

/-! ### The rate chosen (R158) -/

theorem bestRate_le (total limit : Nat) : bestRate total limit ≤ limit := by
  rw [bestRate, List.foldl_eq_foldr]
  exact List.max_le_of_forall_le _ _ fun _ hx => Nat.le_of_lt_succ (List.mem_range.mp (List.mem_filter.mp hx).1)

/-- The rate chosen fits its field: rate_cap bounds it. -/
theorem bestRate_small (total n : Nat) (s : State) : bestRate total (s.reachLimit n) < 64 :=
  Nat.lt_of_le_of_lt ((bestRate_le _ _).trans (Nat.min_le_right _ _)) (bitsOf_lt _ _ _)

/-! ### A loading retrain completes (R163) -/

section
variable {n : Fin 32} {s : State}

/-- The PSD ramp of a join that was cut short is complete. -/
def rampEnded (n : Nat) (s : State) : State := s.modRch n (fun r => { r with rampShort := false, psdSteps := 0 })

/-- The loading measured, taken into force. -/
def loadedAnew (n : Nat) (tones : List (Nat × Tone)) (rate : Nat) (s : State) : State :=
  applyLoading n (trimLoading (loadedTotal tones - bitsNeeded rate) tones) rate (rampEnded n s)

/-- The same, sent to the partner. -/
def reloaded (n : Nat) (tones : List (Nat × Tone)) (rate : Nat) (s : State) : State :=
  (loadedAnew n tones rate s).emit (.reachMessage n 3 0 (loadEntries ((loadedAnew n tones rate s).rch n).tones))

theorem reloaded_keeps (n : Nat) (tones : List (Nat × Tone)) (rate : Nat) (s : State) :
    Keeps [.regs, .reach, .out] s (reloaded n tones rate s) :=
  (((State.modRch_keeps s n _).mono rfl).trans ((applyLoading_keeps _ _ _ _).mono rfl)).trans ((State.emit_keeps _ _).mono rfl)

theorem reloaded_touches (tones : List (Nat × Tone)) (rate : Nat) : Touches n loadFields s (reloaded n tones rate s) :=
  ((modRch_touches s _).trans (applyLoading_touches _ _ _)).trans (((State.emit_keeps _ _).touches) rfl rfl rfl)

theorem reloaded_rate (tones : List (Nat × Tone)) {rate : Nat} (small : rate < 64) :
    (reloaded n tones rate s).rd (P.LINE_STATUS.reach_rate.port n) = rate := by
  rw [reloaded, emit_rd, loadedAnew, applyLoading_rate, Nat.mod_eq_of_lt small]

theorem reloaded_rch (tones : List (Nat × Tone)) (rate : Nat) : (reloaded n tones rate s).rch n = (loadedAnew n tones rate s).rch n :=
  (State.emit_keeps _ _).within.rch rfl n

theorem reloaded_tones (tones : List (Nat × Tone)) (rate : Nat) :
    ((reloaded n tones rate s).rch n).tones = trimLoading (loadedTotal tones - bitsNeeded rate) tones := by
  rw [reloaded_rch, loadedAnew, applyLoading_rch]

/-- The table sent is the loading in force. -/
theorem reloaded_sent (tones : List (Nat × Tone)) (rate : Nat) :
    Output.reachMessage n 3 0 (((reloaded n tones rate s).rch n).tones.map (fun e => (e.1, e.2.bits))) ∈ (reloaded n tones rate s).out := by
  rw [reloaded_rch, reloaded, State.emit, State.withOut_out]
  exact List.mem_append_right _ List.mem_cons_self

/-- Back in DATA: the state, and the phase Reach shows in data mode (R164). -/
def dataResumed (n : Nat) (s : State) : State :=
  ((s.wr (P.AN_STATUS.state.port n) fsmData).wr (P.REACH_STATUS.phase.port n) 7).modLink n (fun l => { l with cmdRetrain := false })

theorem dataResumed_touches : Touches n [P.AN_STATUS.state, P.REACH_STATUS.phase] s (dataResumed n s) :=
  ((wr_touches s (f := P.AN_STATUS.state) _ rfl rfl).trans (wr_touches _ (f := P.REACH_STATUS.phase) _ rfl rfl)).trans (modLink_touches _ _)

theorem dataResumed_keeps (n : Nat) (s : State) : Keeps [.regs, .links] s (dataResumed n s) :=
  (((State.wr_keeps s _ _).mono rfl).trans ((State.wr_keeps _ _ _).mono rfl)).trans ((State.modLink_keeps _ n _).mono rfl)

theorem dataResumed_fsm : (dataResumed n s).fsm n = 6 := by
  rw [State.fsm, dataResumed, modLink_rd, rd_wr_port_apart (f := P.REACH_STATUS.phase) (g := P.AN_STATUS.state) _ _ _ rfl rfl,
    rd_wr_port_same _ _ _ rfl]
  rfl

/-- The completion of a retrain in Reach mode, where no command waits. -/
theorem retrainDone_reach (mode : s.modeNow n = 2) (own : (s.link n).cmdRetrain = false)
    (idle : s.wcLevel (wcKey (portAddr n P.PORT_CMD) 2) = 0) : retrainDone n s = refreshPool (dataResumed n s) := by
  have reach : ((s.wr (P.AN_STATUS.state.port n) fsmData).modeNow n == modeReach) = true := by
    rw [State.modeNow, rd_wr_port_apart (f := P.AN_STATUS.state) (g := P.LINE_STATUS.mode_now) _ _ _ rfl rfl, ← State.modeNow, mode]
    rfl
  have level : (refreshPool (dataResumed n s)).wcLevel (wcKey (portAddr n P.PORT_CMD) 2) = 0 := by
    rw [(refreshPool_keeps _).within.wcLevel rfl, (dataResumed_keeps n s).within.wcLevel rfl, idle]
  unfold retrainDone
  dsimp only
  rw [if_pos reach, wr_link, wr_link, own, if_neg Bool.false_ne_true]
  exact if_neg (by rw [← dataResumed, level]; exact Nat.lt_irrefl 0)

/-- What a loading retrain measures, and the N it allows. -/
theorem loadPort_eq (n : Nat) (snrs : List (Fin 4 × Fin 4096 × Int)) (s : State) {tones : List (Nat × Tone)} {rate : Nat}
    (loaded : tones = loadTones (s.pact n P.REACH_CFG.margin_target) (32 * s.pact n P.REACH_CFG.tones32) snrs)
    (best : rate = bestRate (loadedTotal tones) (s.reachLimit n)) : loadPort n snrs s =
      if rate = 0 then none else some (applyLoading n (trimLoading (loadedTotal tones - bitsNeeded rate) tones) rate s) := by
  subst best loaded
  rfl

section
variable (retrains : s.fsm n = 7) (mode : s.modeNow n = 2) (snrs : List (Fin 4 × Fin 4096 × Int)) {tones : List (Nat × Tone)} {rate : Nat}
  (loaded : tones = loadTones (s.pact n P.REACH_CFG.margin_target) (32 * s.pact n P.REACH_CFG.tones32) snrs)
  (best : rate = bestRate (loadedTotal tones) (s.reachLimit n))
include retrains mode loaded best

theorem exec_loadingRetrainComplete : exec (.loadingRetrainComplete n snrs) s =
    .next (if rate = 0 then fullRetrain n (rampEnded n s) else retrainDone n (reloaded n tones rate s)) := by
  have both : (decide (s.fsm n = fsmFretrain) && decide (s.modeNow n = modeReach)) = true := by rw [retrains, mode]; rfl
  have measured := loadPort_eq n snrs (rampEnded n s) loaded best
  show execLoadingRetrainComplete n snrs s = _
  rw [execLoadingRetrainComplete, if_pos both]
  refine congrArg Host.Outcome.next ?_
  show (match loadPort n snrs (rampEnded n s) with
    | some s => retrainDone n (s.emit (.reachMessage n 3 0 (loadEntries (s.rch n).tones)))
    | none => fullRetrain n (rampEnded n s)) = _
  rw [measured]
  by_cases h : rate = 0
  · rw [if_pos h, if_pos h]
  · rw [if_neg h, if_neg h]
    rfl

end

/-- A loading retrain that finds an N returns to DATA with the table sent. -/
structure Reloads (n : Fin 32) (tones : List (Nat × Tone)) (rate : Nat) (s u : State) : Prop where
  state : u.fsm n = 6
  speed : u.rd (P.LINE_STATUS.reach_rate.port n) = rate
  loading : (u.rch n).tones = trimLoading (loadedTotal tones - bitsNeeded rate) tones
  sent : Output.reachMessage n 3 0 ((u.rch n).tones.map (fun e => (e.1, e.2.bits))) ∈ u.out
  only : PortOnly n s u

theorem retrainDone_reloads (hc : s.Canonical) (mode : s.modeNow n = 2) (own : (s.link n).cmdRetrain = false)
    (idle : s.wcLevel (wcKey (portAddr n P.PORT_CMD) 2) = 0) (tones : List (Nat × Tone)) {rate : Nat} (small : rate < 64) :
    Reloads n tones rate s (retrainDone n (reloaded n tones rate s)) := by
  have loaded := reloaded_keeps n tones rate s
  have resumed := dataResumed_keeps n (reloaded n tones rate s)
  have pooled := refreshPool_keeps (dataResumed n (reloaded n tones rate s))
  have touched : Touches n loadFields s (reloaded n tones rate s) := reloaded_touches tones rate
  have blocks := (resumed.canonical (loaded.canonical hc)).blocks
  have followed : Touches n poolFields _ _ := refreshPool_touches blocks
  have line : (reloaded n tones rate s).modeNow n = 2 := (touched.read P.LINE_STATUS.mode_now rfl rfl).trans mode
  have uncommanded : ((reloaded n tones rate s).link n).cmdRetrain = false := by rw [loaded.within.link rfl n, own]
  rw [retrainDone_reach line uncommanded ((loaded.within.wcLevel rfl _).trans idle)]
  have record := (pooled.within.rch rfl n).trans (resumed.within.rch rfl n)
  have sent := (pooled.within .out rfl).trans (resumed.within .out rfl)
  refine ⟨(followed.read P.AN_STATUS.state rfl rfl).trans dataResumed_fsm, (refreshPool_rates blocks n).trans ?_, ?_, ?_,
    (touched.only.trans dataResumed_touches.only).trans followed.only⟩
  · exact (dataResumed_touches.read P.LINE_STATUS.reach_rate rfl rfl).trans (reloaded_rate tones small)
  · rw [record, reloaded_tones]
  · rw [record, sent]
    exact reloaded_sent tones rate

/-- A loading retrain that finds none takes the link down with last_fail 8. -/
theorem fullRetrain_down (hc : s.Canonical) (retrains : s.fsm n = 7) : LinkIsDown n 1 8 s (fullRetrain n (rampEnded n s)) := by
  have untested : (rampEnded n s).fsm n ≠ fsmCableTest := ne_of_eq_of_ne ((modRch_rd s n _ _).trans retrains) (by decide)
  exact (linkDown_lastFail ((State.modRch_keeps s n _).canonical hc) untested (.inl rfl) (by decide)).after
    (modRch_touches (fs := []) s _).only (modRch_rd s n _ _) (modRch_rd s n _ _)

/-! ### The limit of a join (R172) -/

/-- Phase 5 has ended at the PSD reached, with the frames begun anew. -/
def joinEnded (n : Nat) (s : State) : State :=
  reachPhase n 6 (startFrames n
    ((s.modRch n (fun r => { r with rampShort := decide ((s.rch n).psdSteps ≠ 0) })).wr (P.REACH_STATUS.vg_state.port n) 1))

theorem exec_vectorJoinTimeout (trains : s.fsm n = 5) (mode : (s.link n).mode = 2) (phase : (s.link n).phase = 5) :
    exec (.vectorJoinTimeout n) s = .next (joinEnded n s) := by
  show execVectorJoinTimeout n s = _
  rw [execVectorJoinTimeout, if_pos (by rw [trains, mode, phase]; rfl)]
  rfl

theorem joinEnded_writes (n : Fin 32) (s : State) :
    Writes [portAddr n P.REACH_STATUS] [.reach, .trips, .links] s (joinEnded n s) := by
  have shown {f : Field} (hf : f.addr = P.REACH_STATUS) (t : State) (v : Nat) :
      Writes [portAddr n P.REACH_STATUS] [.reach, .trips, .links] t (t.wr (f.port n) v) :=
    writes_wr t v (List.mem_singleton.mpr (congrArg (· + 0x10000 * n.val) hf))
  rw [joinEnded, reachPhase]
  exact ((((State.modRch_keeps s n _).writes rfl rfl).trans (shown rfl _ 1)).trans ((startFrames_keeps _ _).writes rfl rfl)).trans
    (((State.modLink_keeps _ _ _).writes rfl rfl).trans (shown rfl _ 6))

/-- What the end of phase 5 leaves of the port. -/
structure JoinEnded (n : Fin 32) (s u : State) : Prop where
  link : u.link n = { s.link n with phase := 6 }
  reach : u.rch n = { s.rch n with rampShort := decide ((s.rch n).psdSteps ≠ 0) }
  phase : u.rd (P.REACH_STATUS.phase.port n) = 6
  vector : u.rd (P.REACH_STATUS.vg_state.port n) = 1
  trip : u.trip n = { s.trip n with txSeq := 0, txCheck := 0xACE1, rxLocked := false, goodRun := 0 }
  registers : ∀ a, a ≠ portAddr n P.REACH_STATUS → u.word a = s.word a
  within : Within [.regs, .reach, .trips, .links] s u

theorem joinEnded_ended (n : Fin 32) (s : State) : JoinEnded n s (joinEnded n s) where
  link := by
    rw [joinEnded, reachPhase, wr_link, link_modLink, (startFrames_keeps _ _).within.link rfl, wr_link, (State.modRch_keeps _ _ _).within.link rfl]
  reach := by
    rw [joinEnded, (reachPhase_keeps _ _ _).within.rch rfl, (startFrames_keeps _ _).within.rch rfl, (State.wr_keeps _ _ _).within.rch rfl, rch_modRch]
  phase := by
    rw [joinEnded, reachPhase, rd_wr_port_same _ _ _ rfl]
    rfl
  vector := by
    rw [joinEnded, reachPhase, rd_wr_port_apart (f := P.REACH_STATUS.phase) (g := P.REACH_STATUS.vg_state) _ _ _ rfl rfl, modLink_rd, startFrames,
      modTrip_rd, rd_wr_port_same _ _ _ rfl]
    rfl
  trip := by
    rw [joinEnded, (reachPhase_keeps _ _ _).within.trip rfl, startFrames, trip_modTrip, wr_trip, (State.modRch_keeps _ _ _).within.trip rfl]
  registers := fun a ha => (joinEnded_writes n s).registers a (by simpa using ha)
  within := ((((State.modRch_keeps s n _).within.mono rfl).trans ((State.wr_keeps _ _ _).within.mono rfl)).trans
    ((startFrames_keeps _ _).within.mono rfl)).trans ((reachPhase_keeps _ _ _).within.mono rfl)

end

end Sys2Proof.Machine
end

section
/-! PROOF. The loading of Reach mode (R152, R154, R157, R161 to R163, R172, R221). -/

namespace Sys2Proof.Machine

/-- Settles O28: each message, each armed symbol and each end of a retrain or a join by the state it leaves, written out once. -/
theorem reachLoadingFollowsItsMessages : Obligations.ReachLoadingFollowsItsMessages := by
  unfold Obligations.ReachLoadingFollowsItsMessages
  intro s n hc r hr
  subst hr
  refine ⟨fun p first coefs mode data on => ?feq, fun w trip words frames mode data undue => ?symbol, fun data mode => ?messages,
    fun snrs tones rate retrains mode loaded best => ?retrain, fun trains mode phase => ?join⟩
  case feq =>
    refine ⟨_, exec_reachFeq data mode p first coefs on, (State.modRch_keeps s n _).within,
      fun m hm => (modRch_others n s _ m (Fin.val_ne_of_ne hm)).2.2.1, by rw [rch_modRch], fun c given once => ?_⟩
    rw [rch_modRch]
    exact Prod.mk.inj (feqWritten_given given once p first (s.rch n).feq)
  case symbol =>
    have counted := symbolCounted_counts n w words frames s
    exact ⟨_, _, exec_reachSymbol data mode w trip words frames undue, rfl, counted.reach, counted.frames, counted.uncorr, counted.registers,
      counted.within⟩
  case messages =>
    refine ⟨fun entries sym few tones => ?swap, fun entries sym bad => ?illegal, fun sym => ?step, fun sym c asked => ?arm,
      fun c armed awake swap => ?swaps, fun c armed awake step high => ?steps, fun c armed quiet => ?waits, fun table => ?table⟩
    case swap =>
      refine ⟨_, (exec_bitSwapRequest data mode entries sym).trans (congrArg _ (if_pos ((swapLegal_iff entries).mpr ⟨few, tones⟩))),
        armAnswered_within n sym (swapEntries entries) false s, armAnswered_rch n sym (swapEntries entries) false s, rfl⟩
    case illegal =>
      rw [exec_bitSwapRequest data mode, swapIllegal bad, if_neg Bool.false_ne_true]
    case step =>
      exact ⟨_, exec_rateStepDown data mode sym, armAnswered_within n sym [] true s, armAnswered_rch n sym [] true s, rfl⟩
    case arm =>
      exact ⟨_, exec_arm data mode sym asked, (State.setRch_keeps s n _).within, rch_setRch s n _⟩
    case swaps =>
      have executes := (exec_swapArmedSymbol data mode false).trans (congrArg _ (armedSymbol_applies armed awake))
      rw [applyChange_swap swap] at executes
      have taken := State.setRch_keeps s n { s.rch n with armed := none }
      have record := swapApplied_rch (n := n) c (changeTaken n s)
      refine ⟨_, executes, ?_, fun e he once => ?_, swapApplied_counts c _, fun a status load line => ?_,
        (taken.within.mono rfl).trans (swapApplied_within c _)⟩
      · rw [record, changeTaken, rch_setRch]
      · rw [record]
        exact applyEntries_bits he once _
      · exact (swapApplied_writes c (changeTaken n s)).registers a (by simp [loadWords, status, load, line])
    case steps =>
      have executes := (exec_swapArmedSymbol data mode false).trans (congrArg _ (armedSymbol_applies armed awake))
      rw [applyChange_stepDown (s := changeTaken n s) step high] at executes
      have aside := linkEvent_aside n.isLt (steppedDown n (changeTaken n s))
      have taken : Changes (loadWords n) [.reach, .links] s (changeTaken n s) :=
        ((State.setRch_keeps s n _).writes (parts := [.reach]) rfl rfl).changes rfl
      refine ⟨_, executes, ?_, linkEvent_pend n.isLt _, ?_, (taken.trans (steppedDown_changes _)).trans aside.changes⟩
      · rw [aside.within.rch rfl, steppedDown_armed, changeTaken, rch_setRch]
      · exact (aside.rd _ (recordArea_field n (f := P.LINE_STATUS.reach_rate) rfl)).trans (steppedDown_rate _)
    case waits =>
      exact ⟨_, (exec_swapArmedSymbol data mode true).trans (congrArg _ (armedSymbol_waits armed quiet)), (State.setRch_keeps s n _).within,
        rch_setRch s n _⟩
    case table =>
      refine ⟨_, exec_loadingTable data mode table, (State.modRch_keeps s n _).within, by rw [rch_modRch], fun e he tone once => ?_⟩
      rw [rch_modRch]
      exact tableTaken_given he tone once
  case retrain =>
    have executes := exec_loadingRetrainComplete retrains mode snrs loaded best
    refine ⟨fun found own idle => ?_, fun none => ⟨_, executes.trans (congrArg _ (if_pos none)), fullRetrain_down hc retrains⟩⟩
    have small : rate < 64 := best ▸ bestRate_small _ n s
    have reloads := retrainDone_reloads hc mode own idle tones small
    exact ⟨_, executes.trans (congrArg _ (if_neg found)), reloads.state, reloads.speed, reloads.loading, reloads.sent, reloads.only⟩
  case join =>
    have ended := joinEnded_ended n s
    refine ⟨_, exec_vectorJoinTimeout trains mode phase, ended.link, ended.reach, ended.phase, ended.vector, ?_, ?_, ?_, ended.registers,
      ended.within⟩ <;> rw [ended.trip]

end Sys2Proof.Machine
end

section
/-! SUPPORT. Rate matching of a Reach port (R173). -/

namespace Sys2Proof.Machine

section
variable {n : Fin 32} {s : State}

/-- A frame of the host waits behind the others. -/
def frameQueued (n : Nat) (len : BitVec 16) (s : State) : State := s.modRch n (fun r => { r with fifo := r.fifo ++ [len.toNat] })

/-- The host is to be paused: it is not yet, PAUSE is in use, and the FIFO has filled to xoff. -/
def pauseDue (n : Nat) (s : State) : Bool :=
  !(s.rch n).paused && decide (s.pact n P.RM_CFG.pause_en ≠ 0) && decide (1024 * s.pact n P.RM_CFG.xoff ≤ s.fifoFill n)

/-- The host is paused. -/
def hostPaused (n : Nat) (s : State) : State := (s.modRch n (fun r => { r with paused := true })).emit (.pause n 0xFFFF)

/-- The host is released. -/
def hostReleased (n : Nat) (s : State) : State := (s.modRch n (fun r => { r with paused := false })).emit (.pause n 0)

/-- Bytes have left the FIFO for the line. -/
def fifoDrained (n bytes : Nat) (s : State) : State := s.modRch n (fun r => { r with fifo := drainFrames r.fifo bytes })

theorem hostPaused_rch (n : Nat) (s : State) : (hostPaused n s).rch n = { s.rch n with paused := true } := by
  rw [hostPaused, (State.emit_keeps _ _).within.rch rfl, rch_modRch]

theorem hostReleased_rch (n : Nat) (s : State) : (hostReleased n s).rch n = { s.rch n with paused := false } := by
  rw [hostReleased, (State.emit_keeps _ _).within.rch rfl, rch_modRch]

theorem hostPaused_within (n : Nat) (s : State) : Within [.reach, .out] s (hostPaused n s) :=
  ((State.modRch_keeps s n _).within.mono rfl).trans ((State.emit_keeps _ _).within.mono rfl)

theorem hostReleased_within (n : Nat) (s : State) : Within [.reach, .out] s (hostReleased n s) :=
  ((State.modRch_keeps s n _).within.mono rfl).trans ((State.emit_keeps _ _).within.mono rfl)

theorem drainFrames_sum (l : List Nat) (k : Nat) : (drainFrames l k).sum = l.sum - k := by
  induction l generalizing k with
  | nil => exact (Nat.zero_sub k).symm
  | cons f t ih =>
    rw [drainFrames, List.sum_cons]
    split
    · rw [List.sum_cons]; omega
    · rw [ih]; omega

/-! ### Frames in -/

section
variable (data : s.fsm n = 6) (mode : s.modeNow n = 2) (len : BitVec 16)
include data mode

theorem exec_hostFrameToFifo : exec (.hostFrameToFifo n len) s = .next (
    if 131072 < s.fifoFill n + len.toNat then s.addWrap (P.RM_DROP.count.port n) 1
    else if pauseDue n (frameQueued n len s) then hostPaused n (frameQueued n len s) else frameQueued n len s) := by
  show execHostFrameToFifo n len s = _
  rw [execHostFrameToFifo, if_pos (by simp [State.inData, data, mode, fsmData, modeReach])]
  rfl

end

/-- The queue is judged as it is with the frame in it. -/
theorem pauseDue_queued (n : Nat) (len : BitVec 16) (s : State) : pauseDue n (frameQueued n len s) =
    (!(s.rch n).paused && decide (s.pact n P.RM_CFG.pause_en ≠ 0) &&
      decide (1024 * s.pact n P.RM_CFG.xoff ≤ (s.rch n).fifo.sum + len.toNat)) := by
  rw [pauseDue, State.fifoFill, State.pact, State.act, State.pact, State.act, frameQueued, rch_modRch, modRch_rd, modRch_rd, List.sum_append,
    List.sum_singleton]
  rfl

/-- What a queued frame leaves: the frame in the FIFO, and at xoff the host paused. -/
theorem frameQueued_pauses (n : Nat) (len : BitVec 16) (pauses : Bool) (s : State) :
    ∀ u, u = (if pauses then hostPaused n (frameQueued n len s) else frameQueued n len s) → Within [.reach, .out] s u ∧
      u.rch n = { s.rch n with fifo := (s.rch n).fifo ++ [len.toNat], paused := (s.rch n).paused || pauses } ∧
      u.out = s.out ++ (if pauses then [.pause n 0xFFFF] else []) := by
  rintro u rfl
  have queued : (frameQueued n len s).rch n = { s.rch n with fifo := (s.rch n).fifo ++ [len.toNat] } := rch_modRch s n _
  have within : Within [.reach, .out] s (frameQueued n len s) := (State.modRch_keeps s n _).within.mono rfl
  cases pauses
  · exact ⟨within, queued.trans (by rw [Bool.or_false]), (List.append_nil _).symm⟩
  · exact ⟨within.trans (hostPaused_within n _), (hostPaused_rch n _).trans (by rw [queued, Bool.or_true]), rfl⟩

theorem exec_pauseRepeatTimer (paused : (s.rch n).paused = true) (on : s.pact n P.RM_CFG.pause_en ≠ 0)
    (above : 1024 * s.pact n P.RM_CFG.xon < (s.rch n).fifo.sum) : exec (.pauseRepeatTimer n) s = .next (s.emit (.pause n 0xFFFF)) := by
  show execPauseRepeatTimer n s = _
  rw [execPauseRepeatTimer, if_pos (by rw [paused, decide_eq_true on, State.fifoFill, decide_eq_true above]; rfl)]

/-! ### Bytes out -/

theorem fifoDrained_rch (n bytes : Nat) (s : State) :
    (fifoDrained n bytes s).rch n = { s.rch n with fifo := drainFrames (s.rch n).fifo bytes } := rch_modRch s n _

theorem exec_rateMatchFifoDrain (n : Fin 32) (bytes : Nat) (s : State) : exec (.rateMatchFifoDrain n bytes) s = .next (
    if (s.rch n).paused && decide ((s.rch n).fifo.sum - bytes ≤ 1024 * s.pact n P.RM_CFG.xon) then hostReleased n (fifoDrained n bytes s)
    else fifoDrained n bytes s) := by
  show Host.Outcome.next (if ((fifoDrained n bytes s).rch n).paused &&
      decide (((fifoDrained n bytes s).rch n).fifo.sum ≤ 1024 * (fifoDrained n bytes s).pact n P.RM_CFG.xon) then
    hostReleased n (fifoDrained n bytes s) else fifoDrained n bytes s) = _
  rw [fifoDrained_rch, drainFrames_sum]
  rfl

/-- What a drain leaves: the bytes out, and at xon the host released. -/
structure Drained (n : Fin 32) (bytes : Nat) (s u : State) : Prop where
  within : Within [.reach, .out] s u
  fill : (u.rch n).fifo.sum = (s.rch n).fifo.sum - bytes
  record : u.rch n = { s.rch n with fifo := (u.rch n).fifo, paused := (u.rch n).paused }
  released : (s.rch n).paused = true → (s.rch n).fifo.sum - bytes ≤ 1024 * s.pact n P.RM_CFG.xon →
    (u.rch n).paused = false ∧ u.out = s.out ++ [.pause n 0]
  kept : (s.rch n).paused = false ∨ 1024 * s.pact n P.RM_CFG.xon < (s.rch n).fifo.sum - bytes →
    (u.rch n).paused = (s.rch n).paused ∧ u.out = s.out

theorem fifoDrained_drained (n : Fin 32) (bytes : Nat) (s : State) : ∃ u, exec (.rateMatchFifoDrain n bytes) s = .next u ∧ Drained n bytes s u := by
  have executes := exec_rateMatchFifoDrain n bytes s
  have within : Within [.reach, .out] s (fifoDrained n bytes s) := (State.modRch_keeps s n _).within.mono rfl
  have record := fifoDrained_rch n bytes s
  by_cases release : (s.rch n).paused = true ∧ (s.rch n).fifo.sum - bytes ≤ 1024 * s.pact n P.RM_CFG.xon
  · have record' := (hostReleased_rch n (fifoDrained n bytes s)).trans (by rw [record])
    refine ⟨_, executes.trans (congrArg _ (if_pos (by simpa using release))), within.trans (hostReleased_within n _), ?_, ?_, fun _ _ => ?_,
      fun stays => ?_⟩
    · rw [record']
      exact drainFrames_sum _ _
    · rw [record']
    · exact ⟨by rw [record'], rfl⟩
    · obtain ⟨paused, low⟩ := release
      rcases stays with free | above
      · rw [paused] at free; cases free
      · exact absurd low (Nat.not_le_of_lt above)
  · refine ⟨_, executes.trans (congrArg _ (if_neg (by simpa using release))), within, ?_, ?_, fun paused low => absurd ⟨paused, low⟩ release,
      fun _ => ⟨by rw [record], rfl⟩⟩
    · rw [record]
      exact drainFrames_sum _ _
    · rw [record]

end

end Sys2Proof.Machine
end

section
/-! SUPPORT. Low-power idle of a port: its phases, LPI_US, the snapshot and the wander guard (R256, R257, R260, R262, R265 to R267, R269). -/

namespace Sys2Proof.Machine

theorem portAddr_add (n a k : Nat) : portAddr n (a + k) = portAddr n a + k := by
  simp only [portAddr]
  omega

/-! ### LPI_US (R269) -/

/-- The registers of LPI_US. -/
def usWords (n : Nat) : List Nat := [portAddr n P.LPI_US, portAddr n P.LPI_US + 4]

/-- The same as fields. -/
def usFields : List Field := [wholeReg P.LPI_US, wholeReg (P.LPI_US + 4)]

theorem countLpi_writes (n : Nat) (s : State) : Writes (usWords n) [.lpi] s (countLpi n s) := by
  unfold countLpi
  split
  · exact (writes_setPair s _ (by simp [usWords]) (by simp [usWords])).trans ((State.setIdle_keeps _ n _).writes rfl rfl)
  · exact .refl _ _ s

section
variable {n : Fin 32} {s : State}

theorem countLpi_touches : Touches n usFields s (countLpi n s) := by
  have words : [portAddr n P.LPI_US, portAddr n P.LPI_US + 4] = [P.LPI_US, P.LPI_US + 4].map (portAddr n) := by
    simp only [List.map_cons, List.map_nil, portAddr_add]
  have changed := countLpi_onPort (n := n) s
  rw [words] at changed
  exact changed.touches rfl

theorem countLpi_eq {t : Nat} (since : (s.idle n).since = some t) : countLpi n s =
    (s.addPair (portAddr n P.LPI_US) (portAddr n P.LPI_US + 4) ((s.now - t) / 1000)).setIdle n
      { s.idle n with since := some (t + 1000 * ((s.now - t) / 1000)) } := by
  unfold countLpi
  rw [since]

theorem countLpi_idle {t : Nat} (since : (s.idle n).since = some t) :
    (countLpi n s).idle n = { s.idle n with since := some (t + 1000 * ((s.now - t) / 1000)) } := by
  rw [countLpi_eq since, idle_setIdle]

theorem countLpi_advances {t : Nat} (since : (s.idle n).since = some t) :
    Advances (portAddr n P.LPI_US) ((s.now - t) / 1000) s (countLpi n s) := by
  rw [countLpi_eq since]
  exact advances_addPair _ _ s

/-- The count has no part in the snapshot. -/
theorem countLpi_snap : ((countLpi n s).idle n).coefSnap = (s.idle n).coefSnap := by
  unfold countLpi
  split
  · rw [idle_setIdle]
  · rfl

theorem stopCount_touches : Touches n usFields s (stopCount n s) :=
  countLpi_touches.trans (PortChanges.touches (as := []) (setIdle_onPort n _ _) rfl)

theorem stopCount_writes (n : Nat) (s : State) : Writes (usWords n) [.lpi] s (stopCount n s) :=
  (countLpi_writes n s).trans ((State.setIdle_keeps _ n _).writes rfl rfl)

theorem stopCount_since : ((stopCount n s).idle n).since = none := by
  rw [stopCount, idle_setIdle]

/-! ### Phases (R256, R257, R260) -/

theorem setLpi_state {st : Nat} (small : st < 16) : (setLpi n st s).lpiState n = st := by
  rw [State.lpiState, setLpi, rd_wr_port_same _ _ _ rfl]
  exact Nat.mod_eq_of_lt small

theorem setLpi_writes (n st : Nat) (s : State) : Writes [portAddr n P.LPI_STATUS] [] s (setLpi n st s) := writes_wr s _ List.mem_cons_self

theorem setLpi_idle (m st : Nat) : (setLpi n st s).idle m = s.idle m := (setLpi_keeps n st s).within.idle rfl m

/-- The transmit direction signals LPI. -/
def sleepEntered (n : Nat) (s : State) : State := (setLpi n 1 (s.wr (P.LINE_STATUS.lpi_tx.port n) 1)).addSat (P.LPI_ENTRIES.count.port n) 1

theorem exec_lpiEntryTimer (data : s.fsm n = 6) (on : s.pact n P.LPI_CFG.mode ≠ 0) (used : s.eeeInUse n = true) (active : s.lpiState n = 0) :
    exec (.lpiEntryTimer n) s = .next (sleepEntered n s) := by
  show execLpiEntryTimer n s = _
  rw [execLpiEntryTimer, if_pos (by rw [data, used, active, decide_eq_true on]; rfl)]
  rfl

/-- What a port shows whose transmit direction signals LPI. -/
structure SleepEntered (n : Fin 32) (s u : State) : Prop where
  state : u.lpiState n = 1
  transmit : u.rd (P.LINE_STATUS.lpi_tx.port n) = 1
  counted : u.rd (P.LPI_ENTRIES.count.port n) = min 0xFFFFFFFF (s.rd (P.LPI_ENTRIES.count.port n) + 1)
  registers : ∀ a, a ≠ portAddr n P.LPI_STATUS → a ≠ portAddr n P.LINE_STATUS → a ≠ portAddr n P.LPI_ENTRIES → u.word a = s.word a
  within : Within [.regs] s u

theorem sleepEntered_entered (n : Fin 32) (s : State) : SleepEntered n s (sleepEntered n s) := by
  have counted (t : State) : Touches n [P.LPI_ENTRIES.count] t (t.addSat (P.LPI_ENTRIES.count.port n) 1) := wr_touches _ _ rfl rfl
  have signalled (t : State) : Touches n [P.LPI_STATUS.lpi_state] t (setLpi n 1 t) := wr_touches _ _ rfl rfl
  refine ⟨?_, ?_, ?_, fun a status line entries => ?_, ?_⟩
  · exact ((counted _).read P.LPI_STATUS.lpi_state rfl rfl).trans (setLpi_state (by decide))
  · rw [sleepEntered, (counted _).read P.LINE_STATUS.lpi_tx rfl rfl, (signalled _).read P.LINE_STATUS.lpi_tx rfl rfl, rd_wr_port_same _ _ _ rfl]
    rfl
  · rw [sleepEntered, rd_addSat_same _ _ _ (show 0 + 32 ≤ 32 by decide), (signalled _).read P.LPI_ENTRIES.count rfl rfl,
      rd_wr_port_apart (f := P.LINE_STATUS.lpi_tx) (g := P.LPI_ENTRIES.count) _ _ _ rfl rfl]
    rfl
  · rw [sleepEntered, word_addSat_ne _ _ _ entries, setLpi, word_wr_ne _ _ _ status, word_wr_ne _ _ _ line]
  · exact ((State.wr_keeps s _ _).within.trans (setLpi_keeps n 1 _).within).trans (State.addSat_keeps _ _ _).within

/-! ### The snapshot (R265) -/

/-- The guard takes a snapshot: it is enabled, and none was taken in this run. -/
def snapDue (n : Nat) (s : State) : Bool := s.actFlag (P.WG_CFG.enable.port n) && !(s.idle n).taken

/-- The coefficients and taps of a port noted. -/
def snapNoted (n : Nat) (s : State) : Lpi :=
  { s.idle n with
    coefSnap := s.coefs.filter (fun e => decide (e.1 / 10048 = n)),
    tapSnap := s.pool.taps.filter (fun e => ((s.validBlocks.filter (fun e => descVictim e.2 / 4 == n)).map (·.1)).contains (e.1 / 64)),
    taken := true }

theorem takeSnapshot_eq (n : Nat) (s : State) : takeSnapshot n s =
    if snapDue n s then (s.setIdle n (snapNoted n s)).wr (P.LPI_STATUS.snap_valid.port n) 1 else s := rfl

/-- Quiet begins at the present time. -/
def quietBegun (n : Nat) (s : State) : State := setLpi n 2 (s.setIdle n { s.idle n with since := some s.now })

theorem exec_lpiPhaseEnd_sleep (sleeps : s.lpiState n = 1) (changes : List FilterChange) :
    exec (.lpiPhaseEnd n changes) s = .next (if s.mayQuiet n then quietBegun n (takeSnapshot n s) else s) := by
  show execLpiPhaseEnd n changes s = _
  rw [execLpiPhaseEnd, sleeps]
  rfl

/-- What a port shows that has entered quiet. -/
structure QuietBegun (n : Fin 32) (snaps : Bool) (s u : State) : Prop where
  state : u.lpiState n = 2
  since : (u.idle n).since = some s.now
  taken : (u.idle n).taken = ((s.idle n).taken || snaps)
  snapshot : snaps = true → u.rd (P.LPI_STATUS.snap_valid.port n) = 1 ∧
    (u.idle n).coefSnap = s.coefs.filter (fun e => decide (e.1 / 10048 = n.val))
  registers : ∀ a, a ≠ portAddr n P.LPI_STATUS → u.word a = s.word a
  within : Within [.regs, .lpi] s u

theorem takeSnapshot_writes (n : Nat) (s : State) : Writes [portAddr n P.LPI_STATUS] [.lpi] s (takeSnapshot n s) := by
  rw [takeSnapshot_eq]
  split
  · exact ((State.setIdle_keeps s n _).writes rfl rfl).trans (writes_wr _ _ List.mem_cons_self)
  · exact .refl _ _ s

theorem quietBegun_writes (n : Nat) (s : State) : Writes [portAddr n P.LPI_STATUS] [.lpi] s (quietBegun n s) :=
  ((State.setIdle_keeps s n _).writes rfl rfl).trans ((setLpi_writes n 2 _).mono (List.Subset.refl _) rfl)

theorem quietBegun_idle : (quietBegun n s).idle n = { s.idle n with since := some s.now } := by
  rw [quietBegun, setLpi_idle, idle_setIdle]

theorem quietBegun_snapshot (n : Fin 32) (s : State) : QuietBegun n (snapDue n s) s (quietBegun n (takeSnapshot n s)) := by
  have shown : Touches n [P.LPI_STATUS.lpi_state] (takeSnapshot n s) (quietBegun n (takeSnapshot n s)) :=
    (PortChanges.touches (as := []) (setIdle_onPort n _ _) rfl).trans (wr_touches _ _ rfl rfl)
  have time : (takeSnapshot n s).now = s.now := congrArg (·.devTime.toNat) ((takeSnapshot_keeps n s).within .clk rfl)
  have noted : snapDue n s = true → (takeSnapshot n s).idle n = snapNoted n s := fun due => by
    rw [takeSnapshot_eq, if_pos due, (State.wr_keeps _ _ _).within.idle rfl, idle_setIdle]
  refine ⟨setLpi_state (by decide), by rw [quietBegun_idle, time], ?_, fun due => ⟨?_, ?_⟩, fun a ha => ?_, ?_⟩
  · rw [quietBegun_idle]
    cases due : snapDue n s
    · rw [takeSnapshot_eq, if_neg (by rw [due]; decide), Bool.or_false]
    · rw [noted due, Bool.or_true]
      rfl
  · rw [shown.read P.LPI_STATUS.snap_valid rfl rfl, takeSnapshot_eq, if_pos due, rd_wr_port_same _ _ _ rfl]
    rfl
  · rw [quietBegun_idle, noted due]
    rfl
  · exact ((takeSnapshot_writes n s).trans (quietBegun_writes n _)).registers a (by simpa using ha)
  · exact (takeSnapshot_keeps n s).within.trans
      (((State.setIdle_keeps _ n _).within.mono rfl).trans ((setLpi_keeps n 2 _).within.mono rfl))

/-! ### Quiet and refresh (R257, R266) -/

/-- A phase that ends with nothing to judge: the time counted, and the next phase entered. -/
def phaseCounted (n st : Nat) (s : State) : State := setLpi n st (countLpi n s)

theorem exec_lpiPhaseEnd_quiet (quiet : s.lpiState n = 2) (changes : List FilterChange) :
    exec (.lpiPhaseEnd n changes) s = .next (phaseCounted n 3 s) := by
  show execLpiPhaseEnd n changes s = _
  rw [execLpiPhaseEnd, quiet]
  rfl

theorem exec_lpiPhaseEnd_refresh (refreshes : s.lpiState n = 3) (changes : List FilterChange) {t : State}
    (judged : judgeWander n changes (countLpi n s) = t) (still : t.lpiState n = 3) :
    exec (.lpiPhaseEnd n changes) s = .next (setLpi n 2 t) := by
  show execLpiPhaseEnd n changes s = _
  rw [execLpiPhaseEnd, refreshes]
  refine congrArg Host.Outcome.next ?_
  show (if (judgeWander n changes (countLpi n s)).lpiState n = lpiRefresh then setLpi n lpiQuiet (judgeWander n changes (countLpi n s))
    else judgeWander n changes (countLpi n s)) = _
  rw [judged]
  exact if_pos still

/-- Without a snapshot the guard judges nothing. -/
theorem judgeWander_invalid (invalid : s.rd (P.LPI_STATUS.snap_valid.port n) = 0) (changes : List FilterChange) : judgeWander n changes s = s := by
  unfold judgeWander
  exact if_pos (by rw [State.flag, invalid]; rfl)

/-- What the end of a phase of quiet or refresh leaves. -/
structure PhaseCounted (n : Fin 32) (st t : Nat) (s u : State) : Prop where
  state : u.lpiState n = st
  counted : Advances (portAddr n P.LPI_US) ((s.now - t) / 1000) s u
  record : u.idle n = { s.idle n with since := some (t + 1000 * ((s.now - t) / 1000)) }
  registers : ∀ a, a ≠ portAddr n P.LPI_STATUS → a ≠ portAddr n P.LPI_US → a ≠ portAddr n P.LPI_US + 4 → u.word a = s.word a
  within : Within [.regs, .lpi] s u

theorem phaseCounted_counted {st t : Nat} (small : st < 16) (since : (s.idle n).since = some t) : PhaseCounted n st t s (phaseCounted n st s) := by
  have place : portAddr n P.LPI_US ≠ portAddr n P.LPI_STATUS ∧ portAddr n P.LPI_US + 4 ≠ portAddr n P.LPI_STATUS := by
    simp only [portAddr, P.LPI_US, P.LPI_STATUS]
    omega
  refine ⟨setLpi_state small, ?_, by rw [phaseCounted, setLpi_idle, countLpi_idle since], fun a status low high => ?_, ?_⟩
  · exact (pair_congr (word_wr_ne _ _ _ place.1) (word_wr_ne _ _ _ place.2)).trans (countLpi_advances since)
  · exact (word_wr_ne _ _ _ status).trans ((countLpi_writes n s).registers a (by simp [usWords, low, high]))
  · exact (countLpi_keeps n s).within.trans ((setLpi_keeps n st _).within.mono rfl)

/-! ### The snapshot restored (R267) -/

theorem restoreSnapshot_coefs (n : Nat) (s : State) : (restoreSnapshot n s).coefs =
    ((s.idle n).coefSnap.foldl (fun s e => s.setCoef e.1 e.2) (s.clearCoefs n)).coefs := by
  have cleared (l : List Nat) (t : State) : Keeps [.pool] t (l.foldl (fun s b => clearTaps b s) t) :=
    .foldl (fun s b => clearTaps_keeps b s) (.refl _ t)
  have written (l : List (Nat × BitVec 18)) (t : State) : (l.foldl (fun s e =>
      { s with pool := { s.pool with taps := sput (fun _ => 0) s.pool.taps e.1 e.2 } }) t).coefs = t.coefs := by
    induction l generalizing t with
    | nil => rfl
    | cons e l ih => exact ih _
  exact (written _ _).trans ((cleared _ _).within .coefs rfl)

/-- A coefficient named once by the snapshot is the one it names. -/
theorem restoreSnapshot_given {e : Nat × BitVec 18} (he : e ∈ (s.idle n).coefSnap) (once : ∀ d ∈ (s.idle n).coefSnap, d.1 = e.1 → d = e) :
    (restoreSnapshot n s).coef e.1 = e.2 := by
  rw [State.coef, restoreSnapshot_coefs]
  exact coef_foldl_eq _ _ _ _ (fun d hd same => congrArg Prod.snd (once d hd same)) (.inr ⟨e, he, rfl⟩)

/-- Another port's coefficient that the snapshot does not name is as it was. -/
theorem restoreSnapshot_other {k : Nat} (other : k / 10048 ≠ n.val) (unnamed : ∀ e ∈ (s.idle n).coefSnap, e.1 ≠ k) :
    (restoreSnapshot n s).coef k = s.coef k := by
  rw [State.coef, restoreSnapshot_coefs]
  exact coef_foldl_eq _ _ _ _ (fun d hd same => absurd same (unnamed d hd)) (.inl ((coef_clearCoefs s n k).trans (if_neg other)))

/-! ### The guard trips (R266, R267) -/

/-- The largest change of a refresh, as LPI_STATUS shows it. -/
def changeShown (n : Nat) (c : FilterChange) (s : State) : State :=
  s.wrs [(P.LPI_STATUS.wg_last.port n, min 255 ((-c.change + 25) / 50).toNat), (P.LPI_STATUS.wg_filter.port n, c.filter.val),
    (P.LPI_STATUS.wg_pair.port n, c.pair.val)]

/-- The snapshot restored, with wg_trip. -/
def guardTripped (n : Nat) (c : FilterChange) (s : State) : State :=
  (restoreSnapshot n (changeShown n c s)).wr (P.LPI_STATUS.wg_trip.port n) 1

/-- The event of the guard, and its count. -/
def revertNoted (n : Nat) (s : State) : State :=
  (plainEvent (6 * n + 4) (s.word (portAddr n P.LPI_STATUS)) s).addSat (P.WG_REVERTS.count.port n) 1

/-- The fields of LPI_STATUS the guard writes. -/
def guardFields : List Field := [P.LPI_STATUS.wg_last, P.LPI_STATUS.wg_filter, P.LPI_STATUS.wg_pair, P.LPI_STATUS.wg_trip]

theorem changeShown_eq (n : Nat) (c : FilterChange) (s : State) : changeShown n c s =
    ((s.wr (P.LPI_STATUS.wg_last.port n) (min 255 ((-c.change + 25) / 50).toNat)).wr (P.LPI_STATUS.wg_filter.port n) c.filter.val).wr
      (P.LPI_STATUS.wg_pair.port n) c.pair.val := rfl

theorem changeShown_touches (c : FilterChange) : Touches n guardFields s (changeShown n c s) := by
  rw [changeShown_eq]
  exact ((wr_touches s (f := P.LPI_STATUS.wg_last) _ rfl rfl).trans (wr_touches _ (f := P.LPI_STATUS.wg_filter) _ rfl rfl)).trans
    (wr_touches _ (f := P.LPI_STATUS.wg_pair) _ rfl rfl)

theorem restoreSnapshot_touches {fs : List Field} : Touches n fs s (restoreSnapshot n s) := (restoreSnapshot_keeps n s).touches rfl rfl rfl

theorem guardTripped_after (c : FilterChange) : Touches n [P.LPI_STATUS.wg_trip] (changeShown n c s) (guardTripped n c s) :=
  restoreSnapshot_touches.trans (wr_touches _ (f := P.LPI_STATUS.wg_trip) _ rfl rfl)

theorem guardTripped_touches (c : FilterChange) : Touches n guardFields s (guardTripped n c s) :=
  (changeShown_touches c).trans ((guardTripped_after c).mono rfl)

theorem guardTripped_shown (c : FilterChange) : (guardTripped n c s).rd (P.LPI_STATUS.wg_trip.port n) = 1 ∧
    (guardTripped n c s).rd (P.LPI_STATUS.wg_pair.port n) = c.pair ∧ (guardTripped n c s).rd (P.LPI_STATUS.wg_filter.port n) = c.filter := by
  refine ⟨?_, ?_, ?_⟩
  · rw [guardTripped, rd_wr_port_same _ _ _ rfl]
    rfl
  · rw [(guardTripped_after c).read P.LPI_STATUS.wg_pair rfl rfl, changeShown_eq, rd_wr_port_same _ _ _ rfl]
    exact Nat.mod_eq_of_lt c.pair.isLt
  · rw [(guardTripped_after c).read P.LPI_STATUS.wg_filter rfl rfl, changeShown_eq,
      rd_wr_port_apart (f := P.LPI_STATUS.wg_pair) (g := P.LPI_STATUS.wg_filter) _ _ _ rfl rfl, rd_wr_port_same _ _ _ rfl]
    exact Nat.mod_eq_of_lt (c.filter.isLt.trans (by decide))

theorem plainEvent_pend {e : Nat} (he : e < 256) (detail : Word) (s : State) : (plainEvent e detail s).pend e = true :=
  (mapped_rises _ _ _ _).pend he (setPend_pend s he)

theorem revertNoted_aside (n : Fin 32) (s : State) :
    Aside s (plainEvent (6 * n + 4) (s.word (portAddr n P.LPI_STATUS)) s) := aside_plainEvent _ _ s (by omega)

theorem revertNoted_touches : Touches n [P.WG_REVERTS.count] s (revertNoted n s) :=
  (revertNoted_aside n s).touches.trans (wr_touches _ (f := P.WG_REVERTS.count) _ rfl rfl)

/-- One filter changed by more than the threshold: the snapshot is restored, shown, reported and counted. -/
theorem judgeWander_reverts {c : FilterChange} (valid : s.rd (P.LPI_STATUS.snap_valid.port n) = 1)
    (large : -(100 * (s.pact n P.WG_CFG.th : Int)) < c.change) (stays : s.pact n P.WG_CFG.action ≠ 1) :
    judgeWander n [c] s = revertNoted n (guardTripped n c s) := by
  have shown : Touches n guardFields s (changeShown n c s) := changeShown_touches c
  have noted : Touches n (P.WG_REVERTS.count :: guardFields) s (revertNoted n (guardTripped n c s)) :=
    ((guardTripped_touches c).mono rfl).trans (revertNoted_touches.mono rfl)
  have large' : -(100 * ((changeShown n c s).pact n P.WG_CFG.th : Int)) < c.change := by rwa [shown.pact (f := P.WG_CFG.th) rfl rfl]
  have stays' : (revertNoted n (guardTripped n c s)).pact n P.WG_CFG.action ≠ 1 := by rwa [noted.pact (f := P.WG_CFG.action) rfl rfl]
  unfold judgeWander
  rw [if_neg (by rw [State.flag, valid]; decide)]
  exact (if_pos large').trans (if_neg stays')

/-! ### Waking (R262) -/

/-- A wake begins. -/
def wakeBegun (n : Nat) (s : State) : State := setLpi n 4 (stopCount n s)

theorem wakePort_begins (h : s.lpiState n = 1 ∨ s.lpiState n = 2) (changes : List FilterChange) : wakePort n changes s = wakeBegun n s := by
  have asleep {t : State} (h : t.lpiState n = 1 ∨ t.lpiState n = 2) : t.inLpi n = true := by
    show (decide (1 ≤ t.lpiState n) && decide (t.lpiState n ≤ 3)) = true
    rcases h with h | h <;> rw [h] <;> rfl
  have kept : (stopCount n s).lpiState n = s.lpiState n := stopCount_touches.read P.LPI_STATUS.lpi_state rfl rfl
  have unjudged : ¬(stopCount n s).lpiState n = lpiRefresh := by
    rw [kept]
    rcases h with h | h <;> rw [h] <;> decide
  unfold wakePort
  rw [if_pos (asleep h)]
  dsimp only
  rw [if_neg unjudged, if_pos (asleep (by rwa [kept]))]
  rfl

/-- The partner's alert ends the receive direction's LPI. -/
def alertTaken (n : Nat) (alert : Bool) (s : State) : State := if alert then s.wr (P.LINE_STATUS.lpi_rx.port n) 0 else s

theorem alertTaken_touches (alert : Bool) : Touches n [P.LINE_STATUS.lpi_rx] s (alertTaken n alert s) := by
  cases alert
  · exact .refl _ _ s
  · exact wr_touches s _ rfl rfl

theorem exec_lpiWakeRequest (alert : Bool) (changes : List FilterChange) (h : s.lpiState n = 1 ∨ s.lpiState n = 2) :
    exec (.lpiWakeRequest n alert changes) s = .next (wakeBegun n (alertTaken n alert s)) := by
  have kept : (alertTaken n alert s).lpiState n = s.lpiState n := (alertTaken_touches alert).read P.LPI_STATUS.lpi_state rfl rfl
  exact congrArg Host.Outcome.next (wakePort_begins (kept.symm ▸ h) changes)

theorem wakeBegun_since : ((wakeBegun n s).idle n).since = none := by
  rw [wakeBegun, setLpi_idle, stopCount_since]

theorem wakeBegun_touches : Touches n (P.LPI_STATUS.lpi_state :: usFields) s (wakeBegun n s) :=
  (stopCount_touches.mono rfl).trans (wr_touches _ (f := P.LPI_STATUS.lpi_state) _ rfl rfl)

theorem wakeBegun_word {a : Nat} (status : a ≠ portAddr n P.LPI_STATUS) (low : a ≠ portAddr n P.LPI_US) (high : a ≠ portAddr n P.LPI_US + 4) :
    (wakeBegun n s).word a = s.word a :=
  (word_wr_ne _ _ _ status).trans ((stopCount_writes n s).registers a (by simp [usWords, low, high]))

/-- Both directions are awake, with nothing of the run kept. -/
def awakeAgain (n : Nat) (s : State) : State :=
  ((((s.setIdle n Lpi.reset).modLink n (fun l => { l with retrainAfterWake := false })).wr (P.LPI_STATUS.lpi_state.port n) 0).wr
    (P.LPI_STATUS.snap_valid.port n) 0).wr (P.LINE_STATUS.lpi_tx.port n) 0

theorem exec_lpiWakeDone (wakes : s.lpiState n = 4) (settled : (s.link n).retrainAfterWake = false) :
    exec (.lpiWakeDone n) s = .next (awakeAgain n (stopCount n s)) := by
  have awaits : ((stopCount n s).link n).retrainAfterWake = false := by rw [(stopCount_keeps n s).within.link rfl, settled]
  show execLpiWakeDone n s = _
  rw [execLpiWakeDone, if_pos (show s.lpiState n = lpiWaking from wakes), wakeDone, awaits]
  rfl

/-- What a port shows that is active again. -/
structure AwakeAgain (n : Fin 32) (s u : State) : Prop where
  state : u.lpiState n = 0
  record : u.idle n = Lpi.reset
  transmit : u.rd (P.LINE_STATUS.lpi_tx.port n) = 0
  snapshot : u.rd (P.LPI_STATUS.snap_valid.port n) = 0
  registers : ∀ a, a ≠ portAddr n P.LPI_STATUS → a ≠ portAddr n P.LINE_STATUS → u.word a = s.word a
  within : Within [.regs, .lpi, .links] s u

theorem awakeAgain_awake (n : Fin 32) (s : State) : AwakeAgain n s (awakeAgain n s) where
  state := by
    rw [State.lpiState, awakeAgain, rd_wr_port_apart (f := P.LINE_STATUS.lpi_tx) (g := P.LPI_STATUS.lpi_state) _ _ _ rfl rfl,
      rd_wr_port_apart (f := P.LPI_STATUS.snap_valid) (g := P.LPI_STATUS.lpi_state) _ _ _ rfl rfl, rd_wr_port_same _ _ _ rfl]
    rfl
  record := by
    rw [awakeAgain, (State.wr_keeps _ _ _).within.idle rfl, (State.wr_keeps _ _ _).within.idle rfl, (State.wr_keeps _ _ _).within.idle rfl,
      (State.modLink_keeps _ _ _).within.idle rfl, idle_setIdle]
  transmit := by
    rw [awakeAgain, rd_wr_port_same _ _ _ rfl]
    rfl
  snapshot := by
    rw [awakeAgain, rd_wr_port_apart (f := P.LINE_STATUS.lpi_tx) (g := P.LPI_STATUS.snap_valid) _ _ _ rfl rfl, rd_wr_port_same _ _ _ rfl]
    rfl
  registers := fun a status line => by
    rw [awakeAgain, word_wr_ne _ _ _ line, word_wr_ne _ _ _ status, word_wr_ne _ _ _ status]
    rfl
  within := ((((State.setIdle_keeps s n _).within.mono rfl).trans ((State.modLink_keeps _ n _).within.mono rfl)).trans
    (((State.wr_keeps _ _ _).within.mono rfl).trans ((State.wr_keeps _ _ _).within.mono rfl))).trans ((State.wr_keeps _ _ _).within.mono rfl)

theorem exec_partnerLpiSignal (data : s.fsm n = 6) (used : s.eeeInUse n = true) :
    exec (.partnerLpiSignal n) s = .next (s.wr (P.LINE_STATUS.lpi_rx.port n) 1) := by
  show execPartnerLpiSignal n s = _
  rw [execPartnerLpiSignal, if_pos (by rw [data, used]; rfl)]

end

end Sys2Proof.Machine
end

section
/-! SUPPORT. A refresh that the wander guard reverts (R266, R267). -/

namespace Sys2Proof.Machine

/-- What the guard leaves of a refresh in which one filter changed by more than the threshold. -/
structure GuardReverted (n : Fin 32) (c : FilterChange) (s u : State) : Prop where
  state : u.lpiState n = 2
  trip : u.rd (P.LPI_STATUS.wg_trip.port n) = 1
  pair : u.rd (P.LPI_STATUS.wg_pair.port n) = c.pair
  filter : u.rd (P.LPI_STATUS.wg_filter.port n) = c.filter
  raised : u.pend (6 * n + 4) = true
  counted : u.rd (P.WG_REVERTS.count.port n) = min 0xFFFFFFFF (s.rd (P.WG_REVERTS.count.port n) + 1)
  given : ∀ e ∈ (s.idle n).coefSnap, (∀ d ∈ (s.idle n).coefSnap, d.1 = e.1 → d = e) → u.coef e.1 = e.2
  others : ∀ k, k / 10048 ≠ n.val → (∀ e ∈ (s.idle n).coefSnap, e.1 ≠ k) → u.coef k = s.coef k
  changes : Changes [portAddr n P.LPI_STATUS, portAddr n P.LPI_US, portAddr n P.LPI_US + 4, portAddr n P.WG_REVERTS] [.coefs, .pool, .lpi] s u

/-- A refresh that the guard reverts, from the state in which its time is counted. -/
def refreshReverted (n : Nat) (c : FilterChange) (s : State) : State := setLpi n 2 (revertNoted n (guardTripped n c s))

section
variable {n : Fin 32} (c : FilterChange) (s : State)

/-- The coefficients are those the snapshot restored. -/
theorem refreshReverted_coefs : (refreshReverted n c s).coefs = (restoreSnapshot n (changeShown n c s)).coefs := by
  have noted := ((revertNoted_aside n (guardTripped n c s)).coefs).symm
  rw [refreshReverted, (setLpi_keeps _ _ _).within .coefs rfl, revertNoted, (State.addSat_keeps _ _ _).within .coefs rfl, ← noted, guardTripped,
    wr_coefs]

theorem refreshReverted_changes : Changes [portAddr n P.LPI_STATUS, portAddr n P.WG_REVERTS] [.coefs, .pool] s (refreshReverted n c s) := by
  have status : portAddr n P.LPI_STATUS ∈ [portAddr n P.LPI_STATUS, portAddr n P.WG_REVERTS] := List.mem_cons_self
  have reverts : portAddr n P.WG_REVERTS ∈ [portAddr n P.LPI_STATUS, portAddr n P.WG_REVERTS] := by simp
  have shown := (((changes_wr s (P.LPI_STATUS.wg_last.port n) (min 255 ((-c.change + 25) / 50).toNat) (parts := [.coefs, .pool]) status).trans
    (changes_wr _ (P.LPI_STATUS.wg_filter.port n) c.filter.val status)).trans (changes_wr _ (P.LPI_STATUS.wg_pair.port n) c.pair.val status))
  rw [← changeShown_eq] at shown
  have restored := ((restoreSnapshot_keeps n (changeShown n c s)).writes
    (words := [portAddr n P.LPI_STATUS, portAddr n P.WG_REVERTS]) (parts := [.coefs, .pool]) rfl rfl).changes (parts' := [.coefs, .pool]) rfl
  have tripped := (shown.trans restored).trans (changes_wr _ (P.LPI_STATUS.wg_trip.port n) 1 status)
  exact ((tripped.trans (revertNoted_aside n (guardTripped n c s)).changes).trans (changes_wr _ (P.WG_REVERTS.count.port n) _ reverts)).trans
    (changes_wr _ (P.LPI_STATUS.lpi_state.port n) 2 status)

theorem refreshReverted_after : Touches n [P.LPI_STATUS.lpi_state, P.WG_REVERTS.count] (guardTripped n c s) (refreshReverted n c s) :=
  (revertNoted_touches.mono rfl).trans (wr_touches _ (f := P.LPI_STATUS.lpi_state) 2 rfl rfl)

theorem refreshReverted_counts : (refreshReverted n c s).rd (P.WG_REVERTS.count.port n) =
    min 0xFFFFFFFF (s.rd (P.WG_REVERTS.count.port n) + 1) := by
  have aside := (revertNoted_aside n (guardTripped n c s)).touches (n := n) (fs := [])
  rw [refreshReverted, setLpi, rd_wr_port_apart (f := P.LPI_STATUS.lpi_state) (g := P.WG_REVERTS.count) _ _ _ rfl rfl, revertNoted,
    rd_addSat_same _ _ _ (show 0 + 32 ≤ 32 by decide), aside.read P.WG_REVERTS.count rfl rfl,
    (guardTripped_touches c).read P.WG_REVERTS.count rfl rfl]
  rfl

theorem refreshReverted_pend : (refreshReverted n c s).pend (6 * n + 4) = true := by
  have he : 6 * n.val + 4 < 256 := by omega
  rw [refreshReverted, setLpi, pend_wr_port _ rfl _ _ he, revertNoted, State.addSat, pend_wr_port _ rfl _ _ he]
  exact plainEvent_pend he _ _

end

/-- The end of a refresh after which the guard restores the snapshot. -/
theorem exec_lpiPhaseEnd_reverts {n : Fin 32} {s : State} {c : FilterChange} (refreshes : s.lpiState n = 3)
    (valid : s.rd (P.LPI_STATUS.snap_valid.port n) = 1) (large : -(100 * (s.pact n P.WG_CFG.th : Int)) < c.change)
    (stays : s.pact n P.WG_CFG.action ≠ 1) : ∃ u, exec (.lpiPhaseEnd n [c]) s = .next u ∧ GuardReverted n c s u := by
  have counted : Touches n usFields s (countLpi n s) := countLpi_touches
  have judged : judgeWander n [c] (countLpi n s) = revertNoted n (guardTripped n c (countLpi n s)) := by
    refine judgeWander_reverts ((counted.read P.LPI_STATUS.snap_valid rfl rfl).trans valid) ?_ ?_
    · rwa [counted.pact (f := P.WG_CFG.th) rfl rfl]
    · rwa [counted.pact (f := P.WG_CFG.action) rfl rfl]
  have still : (revertNoted n (guardTripped n c (countLpi n s))).lpiState n = 3 :=
    ((revertNoted_touches.read P.LPI_STATUS.lpi_state rfl rfl).trans ((guardTripped_touches c).read P.LPI_STATUS.lpi_state rfl rfl)).trans
      ((counted.read P.LPI_STATUS.lpi_state rfl rfl).trans refreshes)
  have after := refreshReverted_after (n := n) c (countLpi n s)
  obtain ⟨trip, pair, filter⟩ := guardTripped_shown (n := n) (s := countLpi n s) c
  have snap : ((changeShown n c (countLpi n s)).idle n).coefSnap = (s.idle n).coefSnap := by
    rw [changeShown, (State.wrs_keeps _ _).within.idle rfl, countLpi_snap]
  have coefs (k : Nat) : (refreshReverted n c (countLpi n s)).coef k = (restoreSnapshot n (changeShown n c (countLpi n s))).coef k := by
    rw [State.coef, refreshReverted_coefs, State.coef]
  have before (k : Nat) : (changeShown n c (countLpi n s)).coef k = s.coef k := by
    rw [State.coef, changeShown, (State.wrs_keeps _ _).within .coefs rfl, (countLpi_keeps n s).within .coefs rfl, State.coef]
  refine ⟨refreshReverted n c (countLpi n s), exec_lpiPhaseEnd_refresh refreshes [c] judged still, ?_⟩
  exact {
    state := setLpi_state (by decide)
    trip := (after.read P.LPI_STATUS.wg_trip rfl rfl).trans trip
    pair := (after.read P.LPI_STATUS.wg_pair rfl rfl).trans pair
    filter := (after.read P.LPI_STATUS.wg_filter rfl rfl).trans filter
    raised := refreshReverted_pend c _
    counted := by rw [refreshReverted_counts, counted.read P.WG_REVERTS.count rfl rfl]
    given := fun e he once => (coefs e.1).trans (restoreSnapshot_given (snap.symm ▸ he) (snap.symm ▸ once))
    others := fun k other unnamed => (coefs k).trans ((restoreSnapshot_other other (snap.symm ▸ unnamed)).trans (before k))
    changes := (((countLpi_writes n s).mono (parts' := [.lpi]) (by simp [usWords]) rfl).changes rfl).trans
      ((refreshReverted_changes c _).mono (by simp) rfl) }

end Sys2Proof.Machine
end

section
/-! PROOF. Rate matching and low-power idle (R173, R256, R257, R260, R262, R265 to R267, R269). -/

namespace Sys2Proof.Machine

/-- Settles O29: the FIFO by what is queued and drained, each phase of low-power idle by the state its end leaves. -/
theorem rateMatchingAndLowPowerIdle : Obligations.RateMatchingAndLowPowerIdle := by
  unfold Obligations.RateMatchingAndLowPowerIdle
  intro s n r x w hr hx hw
  subst hr hx hw
  refine ⟨fun data mode len => ⟨fun full => ?dropped, fun room pauses due => ?queued⟩, fun paused on above => ?repeats, fun bytes => ?drained,
    fun data on used active => ?enters, fun changes => ⟨fun sleeps may snaps due => ?quiet, fun sleeps none => ?stays, fun t since =>
      ⟨fun phase => ?cycles, fun c refreshes valid one large stays => ?reverts⟩, fun alert asleep => ?wakes⟩, fun wakes settled => ?awake,
    fun data used => ?partner⟩
  case dropped =>
    exact ⟨_, (exec_hostFrameToFifo data mode len).trans (congrArg _ (if_pos full)), rd_addWrap_same s _ _ (show 0 + 32 ≤ 32 by decide),
      fun a ha => word_wr_ne _ _ _ ha, (State.addWrap_keeps s _ _).within⟩
  case queued =>
    subst due
    rw [← pauseDue_queued]
    exact ⟨_, (exec_hostFrameToFifo data mode len).trans (congrArg _ (if_neg (Nat.not_lt_of_le room))), frameQueued_pauses n len _ s _ rfl⟩
  case repeats =>
    exact ⟨_, exec_pauseRepeatTimer paused on above, rfl, (State.emit_keeps s _).within⟩
  case drained =>
    obtain ⟨u, executes, drained⟩ := fifoDrained_drained n bytes s
    exact ⟨u, executes, drained.within, drained.fill, drained.record, drained.released, drained.kept⟩
  case enters =>
    have entered := sleepEntered_entered n s
    exact ⟨_, exec_lpiEntryTimer data on used active, entered.state, entered.transmit, entered.counted, entered.registers, entered.within⟩
  case quiet =>
    subst due
    have begun := quietBegun_snapshot n s
    exact ⟨_, (exec_lpiPhaseEnd_sleep sleeps changes).trans (congrArg _ (if_pos may)), begun.state, begun.since, begun.taken, begun.snapshot,
      begun.registers, begun.within⟩
  case stays =>
    rw [exec_lpiPhaseEnd_sleep sleeps, none, if_neg Bool.false_ne_true]
  case cycles =>
    rcases phase with quiet | ⟨refreshes, invalid⟩
    · have counted := phaseCounted_counted (st := 3) (by decide) since
      rw [if_pos quiet]
      exact ⟨_, exec_lpiPhaseEnd_quiet quiet changes, counted.state, counted.counted, counted.record, counted.registers, counted.within⟩
    · have counted := phaseCounted_counted (st := 2) (by decide) since
      have touched : Touches n usFields s (countLpi n s) := countLpi_touches
      rw [if_neg (by rw [refreshes]; decide)]
      exact ⟨_, exec_lpiPhaseEnd_refresh refreshes changes
        (judgeWander_invalid ((touched.read P.LPI_STATUS.snap_valid rfl rfl).trans invalid) changes)
        ((touched.read P.LPI_STATUS.lpi_state rfl rfl).trans refreshes), counted.state, counted.counted, counted.record, counted.registers,
        counted.within⟩
  case reverts =>
    subst one
    obtain ⟨u, executes, done⟩ := exec_lpiPhaseEnd_reverts refreshes valid large stays
    exact ⟨u, executes, done.state, done.trip, done.pair, done.filter, done.raised, done.counted, done.given, done.others, done.changes⟩
  case wakes =>
    refine ⟨_, exec_lpiWakeRequest alert changes asleep, setLpi_state (by decide), wakeBegun_since, fun alerted => ?_,
      fun a status low high line => (wakeBegun_word status low high).trans ?_, ?_⟩
    · rw [wakeBegun_touches.read P.LINE_STATUS.lpi_rx rfl rfl, alertTaken, if_pos alerted, rd_wr_port_same _ _ _ rfl]
      rfl
    · cases alert
      · rfl
      · exact word_wr_ne _ _ _ (line.resolve_right (by decide))
    · refine Within.trans ?_ ((stopCount_keeps n _).within.trans ((setLpi_keeps n 4 _).within.mono rfl))
      cases alert
      · exact within_refl _ s
      · exact (State.wr_keeps s _ _).within.mono rfl
  case awake =>
    have awake := awakeAgain_awake n (stopCount n s)
    exact ⟨_, exec_lpiWakeDone wakes settled, awake.state, awake.record, awake.transmit, awake.snapshot,
      fun a status low high line => (awake.registers a status line).trans ((stopCount_writes n s).registers a (by simp [usWords, low, high])),
      ((stopCount_keeps n s).within.mono rfl).trans awake.within⟩
  case partner =>
    exact ⟨_, exec_partnerLpiSignal data used, (rd_wr_port_same s n 1 (f := P.LINE_STATUS.lpi_rx) rfl).trans rfl,
      fun a ha => word_wr_ne _ _ _ ha, (State.wr_keeps s _ _).within⟩

end Sys2Proof.Machine
end
